-- ==== Sys2Proof/Word.lean ====
section
/-!
DEFINITION. The word types of the EL9648 manual and their plainest arithmetic: 32-bit registers and dwords, bytes,
TS96 values (R13) as numbers, bit fields and two's complement.
-/

namespace Sys2Proof

/-- A register, or a dword of a packet (R2). -/
abbrev Word := BitVec 32

/-- One byte of memory. -/
abbrev Byte := BitVec 8

/-- A TS96 value as the number of 2^-32 ns steps since the epoch (R13). -/
abbrev Ts := Nat

/-- One nanosecond in TS96 steps (R13). -/
abbrev ns1 : Nat := 4294967296

/-- `w` bits of `x` from bit `lo` up, as a number. -/
def bitsOf (x lo w : Nat) : Nat := (x >>> lo) % 2 ^ w

/-- `x` with its `w` bits from bit `lo` replaced by those of `v`. -/
def setBits (x lo w v : Nat) : Nat :=
  x - (bitsOf x lo w <<< lo) + ((v % 2 ^ w) <<< lo)

/-- The two's complement value of the low `w` bits of `x`. -/
def sext (w x : Nat) : Int :=
  let y := x % 2 ^ w
  if y < 2 ^ (w - 1) then (y : Int) else (y : Int) - (2 : Int) ^ w

/-- The low `w` bits of the two's complement of `x`. -/
def wrapTo (w : Nat) (x : Int) : Nat := (x % ((2 : Int) ^ w)).toNat

/-- `x` limited to the range of `w`-bit two's complement. -/
def satTo (w : Nat) (x : Int) : Int :=
  if x < -((2 : Int) ^ (w - 1)) then -((2 : Int) ^ (w - 1))
  else if x ≥ (2 : Int) ^ (w - 1) then (2 : Int) ^ (w - 1) - 1 else x

/-- One more, saturating at the largest `w`-bit number. -/
def satInc (w x : Nat) : Nat := if x + 1 < 2 ^ w then x + 1 else 2 ^ w - 1

/-- The sum, saturating at the largest `w`-bit number. -/
def satAdd (w x y : Nat) : Nat := if x + y < 2 ^ w then x + y else 2 ^ w - 1

/-- The four bytes of a word, lowest first (R2). -/
def wordBytes (x : Word) : List Byte :=
  [x.extractLsb' 0 8, x.extractLsb' 8 8, x.extractLsb' 16 8, x.extractLsb' 24 8]

/-- The number that `n` bytes spell, lowest first (R2). -/
def leNat : List Byte → Nat
  | [] => 0
  | b :: bs => b.toNat + 256 * leNat bs

/-- The `n` lowest bytes of a number, lowest first (R2). -/
def natBytes : Nat → Nat → List Byte
  | 0, _ => []
  | n + 1, x => BitVec.ofNat 8 x :: natBytes n (x / 256)

/-- Ceiling division. -/
def cdiv (a b : Nat) : Nat := (a + b - 1) / b

/-- The integer square root, from the bit `k` down. -/
def isqrtFrom : Nat → Nat → Nat → Nat
  | 0, r, _ => r
  | k + 1, r, x => let c := r + 2 ^ k; isqrtFrom k (if c * c ≤ x then c else r) x

/-- The integer square root of a number below 2^128. -/
def isqrt (x : Nat) : Nat := isqrtFrom 64 0 x

/-- A bit as a number. -/
def b2n (b : Bool) : Nat := if b then 1 else 0

end Sys2Proof
end

