-- ==== Sys2Proof/Syntax.lean ====
section
/-!
DEFINITION. The commands the block takes, one constructor per row of the table of operations and events, with what
each brings from outside: a command packet, a register access, or what happens at a pin, a lane or an external unit.
-/

namespace Sys2Proof

/-- A command packet (Table 10.3) as it stands in a submission queue: the function and the device-wide queue ID of
that queue, the 16 dwords, and the bytes that a read of the host buffer the packet names returns. -/
structure Packet where
  func : Nat
  qid : Nat
  dws : List Word
  buf : List Byte
deriving DecidableEq, Repr

/-- A 64b/66b block as it arrives on a lane (R54 to R58): whether its sync header is valid, whether it ends an extended
multiblock, whether the CRC-12 that came in the sync headers of that multiblock matches the one before it, the 8
octets, and how many blocks after the LEMC edge the next block will be. -/
structure LaneBlock where
  valid : Bool
  marker : Bool
  crcOk : Bool
  octets : List Byte
  pos : Nat
deriving DecidableEq, Repr

/-- The lock a lane loses (R55). -/
inductive LaneLock where
  | cdr | sh | emb
deriving DecidableEq, Repr

/-- What training finds on every channel (R384, R385): DIMMs, ranks of a DIMM, x8 devices, density code, LRDIMM or another
device than R384 lists, and the highest data rate the SPDs permit. -/
structure Population where
  dimms : Nat
  ranks : Nat
  x8 : Bool
  density : Nat
  other : Bool
  rate : Nat
deriving DecidableEq, Repr

/-- What the check code says of a granule that is read (R402). -/
inductive ReadCheck where
  | ok | corrected | uncorrectable
deriving DecidableEq, Repr

/-- What a fetch meets (R277, R278, R299): an entry; an error of the SQ read; a failed CQ write of a pair; a parity error in
the entry of a context. -/
inductive FetchRes where
  | entry (ws : List Word) | sqError | cqFail (q : Nat) | ctxParity (c : Nat)
deriving DecidableEq, Repr

/-- What of a DMA channel fails (R364, R365). -/
inductive DmaFail where
  | data | fetch | writeBack
deriving DecidableEq, Repr
/-- What a calibration swap reports: the mask of the inputs whose calibration failed (R160), and the items of TIM and of TRG, by
their indices of Table 18.3, in whose stored configuration a parity error has been found (R180, R128). -/
structure CalReport where
  fails : Nat
  tim : Option Nat
  trg : Option Nat
deriving DecidableEq, Repr

/-- What SECDED says of the granules that a drain reads (R185): those with an uncorrectable word, and how many single-bit errors were
corrected. -/
structure DrainCheck where
  ue : List Nat
  ce : Nat
deriving DecidableEq, Repr

/-- The commands of the block: one constructor per row of the table of operations and events. -/
inductive Instr where
  /-- NOP (R291): Command that does nothing and completes with OK. -/
  | nop (p : Packet)
  /-- DEVICE_INFO (R291): Command returning GLB_REV, GLB_STATE, the function number, its queue-pair quota and the contexts it may still open. -/
  | deviceInfo (p : Packet)
  /-- QUEUE_CREATE (R276): Command creating queue pair 1–511 with its SQ and CQ sizes, bases, MSI-X vector and coalescing limits. -/
  | queueCreate (p : Packet)
  /-- QUEUE_DELETE (R291): Command deleting a queue pair, either draining its commands or aborting them. -/
  | queueDelete (p : Packet)
  /-- EVENT_ROUTE (R288): Command routing a context's events to a queue pair and setting a mask of discarded blocks. -/
  | eventRoute (p : Packet)
  /-- ABORT (R291): Command ending a target command that has not started, or that is waiting, with ABORTED. -/
  | abortCmd (p : Packet)
  /-- PATCH_LOAD (R293): Command checking a signed patch image in a fixed order and accepting it or refusing it with a reason. -/
  | patchLoad (p : Packet)
  /-- PATCH_APPLY (R294): At a point where no command is being interpreted, an accepted patch replaces the one in force, PATCH_ACTIVE is set and PATCH_APPLIED is posted. -/
  | patchApply
  /-- PATCH_STATUS (R291): Command returning the patch version in force, PATCH_FLOOR and the last refusal reason. -/
  | patchStatus (p : Packet)
  /-- CTX_OPEN (R273): Command opening the lowest free context ID for the issuing function. -/
  | ctxOpen (p : Packet)
  /-- CTX_CLOSE (R291): Command closing a context and releasing its contracts, chains, claims, maps and DMA channels; its commands in flight end ABORTED. -/
  | ctxClose (p : Packet)
  /-- CTX_PRIV (R274): PF command granting a context its privileges. -/
  | ctxPriv (p : Packet)
  /-- CTX_QUOTA (R291): PF command writing a VF's queue-pair quota, context quota and BAR2 window. -/
  | ctxQuota (p : Packet)
  /-- CONTRACT_REQUEST (R305): Command running admission on a new contract, placing its pieces, and accepting it or refusing it with a quote. -/
  | contractRequest (p : Packet)
  /-- CONTRACT_MODIFY (R316): Command replacing a context's contract whole or leaving it unchanged. -/
  | contractModify (p : Packet)
  /-- CONTRACT_RELEASE (R316): Command unloading the context's chains, closing its DMA channels and freeing its reservations, optionally after a drain. -/
  | contractRelease (p : Packet)
  /-- CONTRACT_STATUS (R318): Command returning the state, pieces and free budget of a context's contract. -/
  | contractStatus (p : Packet)
  /-- BUDGET_QUERY (R319): Command writing the 64-byte budget record to a host buffer. -/
  | budgetQuery (p : Packet)
  /-- ADMISSION_RERUN (R314): When capacity falls, firmware re-runs admission in acceptance order, moving pieces and breaking contracts that no longer fit. -/
  | admissionRerun
  /-- INTAKE_CONFIG (R40): Command setting the shared link parameters, lane rate, interleave modes, T_conv and RBD. -/
  | intakeConfig (p : Packet)
  /-- INTAKE_LINK (R46): Command setting one link's lane swap, polarity, phase order and latency compensation. -/
  | intakeLink (p : Packet)
  /-- INTAKE_START (R50): Command that sets RUN, issues SYSREF and waits until every enabled link is UP. -/
  | intakeStart (p : Packet)
  /-- INTAKE_STOP (R60): Command stopping the intake unless a capture is armed. -/
  | intakeStop (p : Packet)
  /-- INTAKE_STATUS (R64): Command returning one link's status and error counters, and optionally clearing them. -/
  | intakeStatus (p : Packet)
  /-- SYSREF_SET (R48): Command setting the SYSREF mode, outputs, pulse shape, period and delays, and optionally issuing it. -/
  | sysrefSet (p : Packet)
  /-- LANE_TEST (R64): Command running a PRBS check on the selected lanes for a given duration. -/
  | laneTest (p : Packet)
  /-- CSPI_XFER (R63): Command running one SPI transfer of 1 to 16 bytes on the converter configuration port. -/
  | cspiXfer (p : Packet)
  /-- CSPI_TRANSFER_DONE (R63): A CSPI transfer ends, the MISO bytes are captured and BUSY clears. -/
  | cspiTransferDone (miso : List Byte)
  /-- JIN_RUN_WRITE (R60): Write of JIN_CTRL.RUN that starts the intake, or stops it unless a capture is armed. -/
  | jinRunWrite (m : Nat) (v : Word)
  /-- JIN_CLR_COUNTERS (R60): Write of JIN_CTRL.CLR_COUNTERS that clears every link counter. -/
  | jinClrCounters (m : Nat) (v : Word)
  /-- SYSREF_ISSUE_GO (R47): Write of JIN_SYSREF_ISSUE.GO that starts a one-shot pulse or a gapped burst, unless one is still being launched. -/
  | sysrefIssueGo (m : Nat) (v : Word)
  /-- CSPI_GO (R63): Write of JIN_CSPI_CTRL.GO that starts a transfer, ignored while BUSY. -/
  | cspiGo (m : Nat) (v : Word)
  /-- SYSREF_LAUNCH (R47): TBS launches a SYSREF pulse on a TCLK edge at the period or burst time. -/
  | sysrefLaunch
  /-- SYSREF_PULSE_CHECK (R49): A SYSREF pulse aligns the LEMC, or is checked against it and realigns it according to REALIGN. -/
  | sysrefPulseCheck
  /-- LANE_LOCK_LOSS (R55): A lane loses CDR, sync-header or extended-multiblock lock, so its link leaves UP and is filled. -/
  | laneLockLoss (lane : Nat) (what : LaneLock)
  /-- JIN_BLOCK_ARRIVAL (R56): A 64b/66b block arrives at a lane's elastic buffer, and its sync header, markers and CRC-12 are checked. -/
  | jinBlockArrival (lane : Nat) (blk : LaneBlock)
  /-- LINK_RELOCK (R57): All lanes of a lost link regain lock and pass the arrival check, and real data resume at the next release point. -/
  | linkRelock (k : Nat)
  /-- JIN_RELEASE (R51): At a release point JIN releases the samples of each link to its filter unit, with indices and flags. -/
  | jinRelease (k : Nat)
  /-- DFU_OUTPUT (R80): A filter unit delivers a primary output to TRG, CAP and the barns with its index, labelled time and flags. -/
  | dfuOutput (u parity : Nat)
  /-- ANCHOR_UPDATE (R74): At the end of an anchoring window firmware updates offset and gain from the MCV reading and commits them. -/
  | anchorUpdate (u : Nat)
  /-- DFU_TEMP_UPDATE (R71): Every 1 ms the DFU receives T_NOW and recomputes SKEW_EFF, which applies at the next LEMC edge. -/
  | dfuTempUpdate (t : Nat)
  /-- DFU_MODE (R75): Command setting decimation mode, factor, format and inputs of filter units. -/
  | dfuMode (p : Packet)
  /-- DFU_CORR (R72): Command writing a unit's correction shadows, optionally committing them and saving them as LAST_GOOD. -/
  | dfuCorr (p : Packet)
  /-- DFU_SYNC (R82): Command issuing a DSYNC to the named units. -/
  | dfuSync (p : Packet)
  /-- DFU_PRESET (R85): Command applying a named preset to filter units. -/
  | dfuPreset (p : Packet)
  /-- RESAMPLE_CFG (R87): Command configuring a unit's synchronous resampler. -/
  | resampleCfg (p : Packet)
  /-- DFU_STATUS (R93): Command returning a unit's status and counters, and optionally clearing them. -/
  | dfuStatus (p : Packet)
  /-- DFU_ANCHOR (R73): Command enabling anchoring for a unit or reading a member's window results. -/
  | dfuAnchor (p : Packet)
  /-- DFU_CORR_COMMIT_GO (R72): Write of DFU_CORR_COMMIT.GO that schedules the named units' correction shadows for the next LEMC edge. -/
  | dfuCorrCommitGo (m : Nat) (v : Word)
  /-- CORR_APPLY (R72): At the LEMC edge after a commit the correction set applies, and the first index and its time are recorded and reported to CAP. -/
  | corrApply
  /-- DFU_SYNC_GO_WRITE (R82): Write of DFU_SYNC.GO that schedules a DSYNC of the named units, refused while armed. -/
  | dfuSyncGoWrite (m : Nat) (v : Word)
  /-- DSYNC_APPLY (R82): At the LEMC edge a DSYNC clears histories and resets decimation phases of the named units. -/
  | dsyncApply
  /-- DFU_CLR_COUNTERS (R94): Write of DFU_CTRL.CLR_COUNTERS that clears the saturation and resampler counters. -/
  | dfuClrCounters (m u : Nat) (v : Word)
  /-- PERIOD_REPORT_ARRIVAL (R88): A fundamental-period report reaches a resampler or the MCV and is accepted or rejected. -/
  | periodReportArrival (f : Nat)
  /-- RESAMPLER_CYCLE_START (R87): At a synchronous cycle start the resampler loads the next step and emits the cycle descriptor. -/
  | resamplerCycleStart (u : Nat)
  /-- RESAMPLER_COAST (R88): No period report arrives within 2 × P, so the resampler coasts on its last step and raises FUND_LOST. -/
  | resamplerCoast (u : Nat)
  /-- TRIG_ARM (R119): Command requesting an ARM at a given time, completing when ARMED is entered. -/
  | trigArm (p : Packet)
  /-- ARM_TAKE_EFFECT (R119): At the release point of R52 the arm takes effect: shadows apply, TRG_ALIGN is computed, the heart resets and indices restart at 0. -/
  | armTakeEffect
  /-- TRIG_DISARM (R120): Command that stops evaluation, discards decisions in the pipeline and returns TRG to IDLE. -/
  | trigDisarm (p : Packet)
  /-- TRIG_FORCE (R121): Command making one decision with cause 0xFE, handed straight to placement. -/
  | trigForce (p : Packet)
  /-- TOPNOTE_SET (R105): Command configuring a top note, or only its shadowed fields while running. -/
  | topnoteSet (p : Packet)
  /-- HEART_SET (R109): Command configuring a heart state's branches and STORE bit. -/
  | heartSet (p : Packet)
  /-- HEART_LIMITS (R113): Command setting the heart counter and timer limits. -/
  | heartLimits (p : Packet)
  /-- TRIG_ROUTE (R95): Command setting the decision path, wake enable, heart start and direct masks. -/
  | trigRoute (p : Packet)
  /-- TRIG_OUT_SET (R123): Command configuring the TRIG_OUT mode, polarity, width and aligned latency. -/
  | trigOutSet (p : Packet)
  /-- TRG_COMMIT_GO (R126): Write of TRG_COMMIT.GO that requests an apply of the shadowed trigger fields at T_apply. -/
  | trgCommitGo (m : Nat) (v : Word)
  /-- TRG_SHADOW_APPLY (R126): At T_apply the shadowed levels and masks apply, and changed notes re-initialise silently. -/
  | trgShadowApply
  /-- TRG_CLR_COUNTERS (R130): Write of TRG_CTRL.CLR_COUNTERS that clears every TRG count. -/
  | trgClrCounters (m : Nat) (v : Word)
  /-- HEART_TICK (R110): Once a tick's inputs are aligned the heart evaluates the current state's branches, applies the actions of the one it takes and moves state. -/
  | heartTick
  /-- HEART_TIMER_EXPIRY (R113): A heart timer reaches its limit and reads as expired. -/
  | heartTimerExpiry (k : Nat)
  /-- TOPNOTE_TIMEOUT (R102): A logic TIMEOUT note reaches t_start + TMAX, or a PATTERN note reaches t_match + TMIN, and fires. -/
  | topnoteTimeout (n : Nat)
  /-- TRIG_OUT_LAUNCH (R124): A TRIG_OUT edge is launched at its event time plus TRG_OUT_LAT, or at once if that time has passed. -/
  | trigOutLaunch
  /-- TRIG_OUT_PULSE_END (R123): A TRIG_OUT pulse reaches its width and ends. -/
  | trigOutPulseEnd
  /-- BASE_VALUE_ARRIVAL (R132): A base-note value record reaches TRG and is deduplicated, skipped or evaluated by its comparator. -/
  | baseValueArrival (rec : List Byte)
  /-- BASE_SET (R134): Command configuring a base note, or only its shadowed levels while running. -/
  | baseSet (p : Packet)
  /-- PLACE_SET (R150): Command setting interpolation, hold-off, retention policy, PRE, POST and the segment limit. -/
  | placeSet (p : Packet)
  /-- PLACE_STATUS (R156): Command returning the placement counters, and optionally clearing them. -/
  | placeStatus (p : Packet)
  /-- BASE_STATUS (R156): Command returning one base note's value, state and counts. -/
  | baseStatus (p : Packet)
  /-- SEGMENT_HANDOFF (R145): At P_s + TRG_OVL_WAIT placement hands the segment's fields to CAP, which completes the header. -/
  | segmentHandoff
  /-- LOGIC_EDGE (R159): An edge on a logic input or TRIG_IN is timed by its TDC and enters deglitch. -/
  | logicEdge (n ball : Nat) (level : Bool)
  /-- EDGE_ACCEPT (R162): After the input holds its new level for the deglitch time, the edge is accepted and delivered to TRG, storage, measurement and fundamental outputs. -/
  | edgeAccept (n : Nat)
  /-- TIM_LOSS_RESUME (R164): The edge chute drains to 128 entries; TIM samples the level, resumes timing and hands CAP a LEVEL record. -/
  | timLossResume (n : Nat)
  /-- STORE_GAP_END (R169): The bucket refills to half its burst (and the merge chute has room), so the gap ends with a LEVEL record. -/
  | storeGapEnd (src : Nat)
  /-- TRANSITION_RECORD_HANDOFF (R170): Once TS96 passes a record's timestamp by TIM_STORE_ALIGN, TIM hands it to CAP in merged order. -/
  | transitionRecordHandoff
  /-- TDC_CAL_SWAP (R160): Once per second the two interpolators swap roles after a code-density calibration. -/
  | tdcCalSwap (report : CalReport)
  /-- MEAS_GATE_CLOSE (R175): A measurement gate ends and its result is posted to the unit's result chute. -/
  | measGateClose (u : Nat)
  /-- TIM_RES_POP (R176): Write of TIM_MUu_RES_POP.GO that removes the head result. -/
  | timResPop (u m : Nat) (v : Word)
  /-- TIM_RUN_WRITE (R177): Write of TIM_CTRL.RUN, refused while a capture is armed. -/
  | timRunWrite (m : Nat) (v : Word)
  /-- TIM_CLR_COUNTERS (R182): Write of TIM_CTRL.CLR_COUNTERS that clears every TIM count. -/
  | timClrCounters (m : Nat) (v : Word)
  /-- CAP_CONFIG (R204): Command configuring the Silo, metadata, store mask, pinning and flush, optionally initialising the tables. -/
  | capConfig (p : Packet)
  /-- CAP_STATUS (R210): Command returning CAP status, spans and pinned pages. -/
  | capStatus (p : Packet)
  /-- CLAIM (R197): Command that evaluates a range against the guard and pins it, or refuses it with NOT_RETAINED or NO_BUDGET. -/
  | claimCmd (p : Packet)
  /-- CLAIM_RELEASE (R199): Command unpinning a claim or segment and writing a CLAIM_END marker. -/
  | claimRelease (p : Packet)
  /-- SEG_INFO (R210): Command copying segment headers to a host buffer. -/
  | segInfo (p : Packet)
  /-- CLAIM_READ (R203): Command moving a byte range of a claimed stream to the host through a DMA channel, optionally compressed. -/
  | claimRead (p : Packet)
  /-- SILO_LOCATE (R203): Command returning the DRAM address and item number of the first item at or after a time. -/
  | siloLocate (p : Packet)
  /-- CAP_REBUILD (R205): Command rebuilding CAP ring state from the Silo metadata. -/
  | capRebuild (p : Packet)
  /-- CAP_AUTO_REBUILD (R205): After a soft reset, once DRAM_READY is set, firmware restores CAP's configuration and rebuilds its state. -/
  | capAutoRebuild
  /-- GRANULE_DRAIN (R190): In Record CAP drains a stream's oldest undrained Granary bytes into its Silo pages. -/
  | granuleDrain (id : Nat) (check : DrainCheck)
  /-- GAP_NONE_HEARTBEAT (R192): Every CAP_HEARTBEAT µs in Record, CAP writes a GAP_NONE marker unless a SILO_GAP fell in the interval. -/
  | gapNoneHeartbeat
  /-- CAP_CLR_COUNTERS (R211): Write of CAP_CTRL.CLR_COUNTERS that clears the CAP counters. -/
  | capClrCounters (m : Nat) (v : Word)
  /-- CHAIN_LOAD (R219): Command checking a chain image and placing it on an engine piece of the context. -/
  | chainLoad (p : Packet)
  /-- CHAIN_UNLOAD (R240): Command unloading a chain, draining or dropping its in-flight jobs. -/
  | chainUnload (p : Packet)
  /-- CHAIN_START (R240): Command starting a chain at a given time, or stopping it. -/
  | chainStart (p : Packet)
  /-- CHAIN_RUN (R222): Command running a HOST chain on [T0, T0 + WIN), completing at commit. -/
  | chainRun (p : Packet)
  /-- CHAIN_STATUS (R240): Command returning a chain's state, engine and counts. -/
  | chainStatus (p : Packet)
  /-- ENG_STATUS (R240): Command returning a barn's status and counters. -/
  | engStatus (p : Packet)
  /-- ENG_UNFENCE (R240): Command running a self-test on a fenced engine and returning it to service as spare or idle. -/
  | engUnfence (p : Packet)
  /-- ENG_GUARD (R313): Command changing GUARD and SPARE_SEL of barns after re-running admission for them. -/
  | engGuard (p : Packet)
  /-- ENG_CLR_COUNTERS (R241): Write of ENG_CTRL.CLR_COUNTERS that clears a barn's counters. -/
  | engClrCounters (m b : Nat) (v : Word)
  /-- LIVE_WINDOW_READY (R223): The last sample of a window lands on every feed, or a segment is handed off, and its job becomes ready. -/
  | liveWindowReady (id : Nat)
  /-- JOB_DISPATCH (R224): An engine takes its ready job with the earliest deadline and runs the chain's operators. -/
  | jobDispatch (n : Nat)
  /-- JOB_SEAL (R226): A job finishes and seals its staged outputs with a CRC. -/
  | jobSeal (n : Nat)
  /-- JOB_COMMIT (R226): The commit unit checks a sealed job and delivers its state, map deltas, results, base-note records and host output in order. -/
  | jobCommit (b : Nat) (bad : Bool)
  /-- ENGINE_WATCHDOG (R231): A job runs C_job + 2000 FCLK without sealing, so the watchdog fires and the engine is fenced. -/
  | engineWatchdog (n : Nat)
  /-- ENGINE_FAULT (R231): An engine raises LMEM_UE, DATAPATH or crosses CE_RATE, and is fenced. -/
  | engineFault (n typ : Nat)
  /-- SPARE_ACTIVATE (R232): Firmware activates the barn's spare, loads the fenced engine's chains and re-runs in-flight jobs from the mirror or CAP. -/
  | spareActivate (b : Nat)
  /-- COMMIT_UNIT_ERROR (R234): A commit-unit error is retried once; if it fails, the whole barn is fenced. -/
  | commitUnitError (b : Nat) (ok : Bool)
  /-- PQ_LOAD (R242): Command building a library chain image from a function and parameters and loading it. -/
  | pqLoad (p : Packet)
  /-- PQ_CLOCK (R251): Command setting CLOCK_OFS and DRAIN_WAKE of the finisher. -/
  | pqClock (p : Packet)
  /-- MAP_SET (R259): Command configuring, enabling or disabling a persistence map. -/
  | mapSet (p : Packet)
  /-- MAP_CLEAR (R268): Command clearing a map's banks and restarting it at a new T0. -/
  | mapClear (p : Packet)
  /-- MAP_STATUS (R268): Command returning a map's status and counters. -/
  | mapStatus (p : Packet)
  /-- PQ_STATUS (R268): Command returning the finisher's load and counts. -/
  | pqStatus (p : Packet)
  /-- MAP_ENABLE_WRITE (R259): Write of MAPm_CTRL.EN that enables a map and clears its banks, or disables it. -/
  | mapEnableWrite (m k : Nat) (v : Word)
  /-- FINISHER_RECORD (R250): The finisher takes a group member's record and emits derived records when its operands are complete. -/
  | finisherRecord
  /-- FINISHER_MEMBER_TIMEOUT (R250): A PHASE member has not committed a window by its end plus twice its length, so part 2 is not emitted. -/
  | finisherMemberTimeout (ctx g w : Nat)
  /-- AGGREGATION_TICK (R251): At a group end or a 10-min or 2-h tick the finisher emits aggregate and STATUS records. -/
  | aggregationTick (ctx g ival : Nat)
  /-- FLICKER_TICK (R254): At a 10-min tick the finisher reads the flicker histograms and forms Pst, and Plt at 2-h ticks. -/
  | flickerTick (id : Nat)
  /-- MAP_EPOCH_FINAL (R262): At T_e+1 + SETTLE the epoch's bank becomes final and the carry pass starts. -/
  | mapEpochFinal (k : Nat)
  /-- MAP_CLEAR_START (R262): At T_e+1 + SETTLE + CLEAR_DELAY the map unit starts zeroing the next bank. -/
  | mapClearStart (k : Nat)
  /-- DOORBELL_SQ_TAIL (R277): Write of a new SQ tail, or an out-of-range value that puts the pair in ERROR. -/
  | doorbellSqTail (f i : Nat) (v : Word)
  /-- DOORBELL_CQ_HEAD (R277): Write of a new CQ head releasing completion entries, or an invalid value that puts the pair in ERROR. -/
  | doorbellCqHead (f i : Nat) (v : Word)
  /-- AQ_ENABLE (R276): Write of AQ_CTRL.EN that starts or stops the admin pair. -/
  | aqEnable (f : Nat) (v : Word)
  /-- COMMAND_FETCH (R278): The device fetches a command from an SQ when the fetch condition holds and starts it in SQ order. -/
  | commandFetch (r : FetchRes)
  /-- FENCE_START (R279): A FENCE command starts once every earlier command of its SQ has completed. -/
  | fenceStart (q t : Nat)
  /-- IRQ_TIME_EXPIRY (R281): IRQ_TIME passes after the first unsignalled entry, so the CQ's MSI-X message is sent. -/
  | irqTimeExpiry (q : Nat)
  /-- EVENT_DELIVERY (R289): An event waiting in a function's chute is written to its CQ once a slot is free. -/
  | eventDelivery (f : Nat)
  /-- BAR0_HOST_WRITE (R272): A host BAR0 write takes effect only if REG_CTX names an open context with DIRECT; otherwise it is discarded and logged. -/
  | bar0HostWrite (f a : Nat) (v : Word)
  /-- BAR2_ACCESS (R271): A host access through BAR2 reaches DRAM through the function's window or is blocked and counted. -/
  | bar2Access (f ofs n : Nat) (data : Option (List Byte))
  /-- REG_READ (R291): Command reading up to four BAR0 registers. -/
  | regRead (p : Packet)
  /-- REG_WRITE (R291): Command writing up to four BAR0 registers under DIRECT. -/
  | regWrite (p : Packet)
  /-- REG_RMW (R291): Command reading and writing a register under a mask with no access between. -/
  | regRmw (p : Packet)
  /-- REG_POLL (R291): Command reading a register every 1 µs until it matches or times out. -/
  | regPoll (p : Packet)
  /-- REGISTER_WRITE (R7): A write to a register with no row of its own, applied field by field by class, with F fields refused while running. -/
  | registerWrite (m a : Nat) (v : Word) (bar4 : Bool)
  /-- LATCHING_READ (R338): A read of a LO word, GLB_UPTIME_LO or TBS_TS_W0 that latches the words completing its value. -/
  | latchingRead (m a : Nat) (bar4 : Bool)
  /-- GLB_OFF_ACCESS_CLEAR (R20): Write of GLB_OFF_ACCESS.CLEAR that clears the whole register. -/
  | glbOffAccessClear (m : Nat) (v : Word)
  /-- HIF_CLR_COUNTERS (R298): Write of HIF_CTRL.CLR_COUNTERS that clears the HIF counts. -/
  | hifClrCounters (m : Nat) (v : Word)
  /-- LOCK_TRY_READ (R338): A read of MBX_LOCKn_TRY that acquires a free lock for the reader or returns the owner. -/
  | lockTryRead (m n : Nat) (others : List (Nat × Option Word))
  /-- LOCK_TRY_WRITE (R340): A write of 0 to MBX_LOCKn_TRY from the owner releases the lock; other writes are ignored and counted. -/
  | lockTryWrite (m n : Nat) (v : Word)
  /-- LOCK_FORCE_WRITE (R341): Write of MBX_LOCK_FORCE from a control core or the PF that releases a lock by force. -/
  | lockForceWrite (m : Nat) (v : Word)
  /-- MAILBOX_STAGE_WRITE (R332): A write to a side's W0–W2 staging, which discards a partial message of another master and sets STAGE_CLASH. -/
  | mailboxStageWrite (m i : Nat) (inbound : Bool) (j : Nat) (v : Word)
  /-- MAILBOX_PUSH (R332): A write to W3 pushes the staged message into its direction, or is refused and counted. -/
  | mailboxPush (m i : Nat) (inbound : Bool) (ws : List Word)
  /-- MAILBOX_POP (R333): A write to MBX_Ss_POP removes the head of the inbound or outbound direction. -/
  | mailboxPop (m i : Nat) (v : Word)
  /-- DOORBELL_SET (R334): A write to a doorbell SET register sets software bits and signals the receiving side on a masked rise. -/
  | doorbellSet (m i : Nat) (toF : Bool) (v : Word)
  /-- DOORBELL_CLEAR (R334): A write to a doorbell CLR register clears bits. -/
  | doorbellClear (m i : Nat) (toF : Bool) (v : Word)
  /-- DOORBELL_MASK_WRITE (R334): A write to a doorbell MASK register, which signals the receiver if a masked bit rises. -/
  | doorbellMaskWrite (m i : Nat) (toF : Bool) (v : Word)
  /-- MBX_CLR_COUNTERS (R345): Write of MBX_CTRL.CLR_COUNTERS that clears every MBX count. -/
  | mbxClrCounters (m : Nat) (v : Word)
  /-- HOST_SERVICE_POP (R336): Firmware pops an inbound host-service message and queues its reply in the set's backlog. -/
  | hostServicePop (i : Nat)
  /-- MAILBOX_CROSS (R337): The outbound chute stays full 10 ms while WAITING, so the oldest message is withdrawn and a backlog message pushed. -/
  | mailboxCross (i : Nat)
  /-- DMA_CHAN_OPEN (R346): Command giving a DMA channel to the context at a priority. -/
  | dmaChanOpen (p : Packet)
  /-- DMA_CHAN_CLOSE (R382): Command closing a channel after draining, or aborting its current transfer. -/
  | dmaChanClose (p : Packet)
  /-- DMA_RING_SET (R348): Command setting a channel's ring base, size, poll interval and start index. -/
  | dmaRingSet (p : Packet)
  /-- DMA_START (R366): Command starting or resuming a channel, optionally skipping the owned transfer or resetting the checksum. -/
  | dmaStart (p : Packet)
  /-- DMA_HALT (R366): Command halting a channel, after its current transfer or at once. -/
  | dmaHalt (p : Packet)
  /-- DMA_STATUS (R382): Command returning a channel's state and counters. -/
  | dmaStatus (p : Packet)
  /-- DMA_COPY (R382): Command running one transfer outside the ring on an idle channel. -/
  | dmaCopy (p : Packet)
  /-- DMA_CLR_COUNTERS (R383): Write of DMA_CTRL.CLR_COUNTERS that clears every DMA count. -/
  | dmaClrCounters (m : Nat) (v : Word)
  /-- DMA_DESCRIPTOR_FETCH (R349): A channel reads the next ring descriptor; with OWN = 0 it goes idle at that index. -/
  | dmaDescriptorFetch (c : Nat) (bytes : List Byte)
  /-- DMA_RING_POLL (R349): Every POLL µs an idle channel reads its slot again. -/
  | dmaRingPoll (c : Nat) (bytes : List Byte)
  /-- DMA_TRANSFER_RELEASE (R360): A transfer's pacing conditions are met and it is released. -/
  | dmaTransferRelease (c : Nat)
  /-- DMA_BURST (R358): A group issues one burst for its highest-priority ready channel. -/
  | dmaBurst (g : Nat) (data : List Byte) (ue : Bool)
  /-- DMA_READ_FAIL (R364): A read fails or gets no completion within DMA_CPL_TIMEOUT and is retried, finally ending the transfer with BUS_ERROR. -/
  | dmaReadFail (c : Nat) (what : DmaFail)
  /-- DMA_TRANSFER_COMPLETE (R351): The last data write of a transfer completes and the descriptor is written back and released. -/
  | dmaTransferComplete (c : Nat)
  /-- CMP_JOB (R370): Command starting a compression or decompression job or part. -/
  | cmpJob (p : Packet)
  /-- CMP_RESUME (R372): Command continuing a suspended job with a new output list. -/
  | cmpResume (p : Packet)
  /-- CMP_ABORT (R373): Command stopping a running job or freeing a suspended job or stream. -/
  | cmpAbort (p : Packet)
  /-- CMP_STATUS (R382): Command returning a compression engine's status. -/
  | cmpStatus (p : Packet)
  /-- CMP_CLR_COUNTERS (R383): Write of CMP_CTRL.CLR_COUNTERS that clears every CMP count. -/
  | cmpClrCounters (m : Nat) (v : Word)
  /-- CMP_JOB_END (R369): A compression job finishes its part, or a decompression job ends or faults. -/
  | cmpJobEnd (e : Nat)
  /-- CMP_LIST_EXHAUSTED (R372): The output list runs out before the part is done, so the job suspends and completes OK with SUSPENDED. -/
  | cmpListExhausted (e : Nat)
  /-- CMP_SUSPEND_EXPIRY (R372): A job stays suspended CMP_SUSPEND_MAX seconds and is ended with CMP_EXPIRED. -/
  | cmpSuspendExpiry (id : Nat)
  /-- CMP_ENGINE_FAULT (R374): An uncorrectable error takes a compression engine out of service and its job completes with HW_ERROR. -/
  | cmpEngineFault (e : Nat)
  /-- MEM_CONFIG (R414): Command storing DRAM order, hash, init rate and rate limit, and applying the other fields. -/
  | memConfig (p : Packet)
  /-- MEM_STATUS (R414): Command returning a channel's status and error counts. -/
  | memStatus (p : Packet)
  /-- MEM_RELEASE (R406): Command releasing a frozen channel by re-issuing the failing command. -/
  | memRelease (p : Packet)
  /-- MEM_SPARE (R404): Command naming a spare rank or retiring a rank now. -/
  | memSpare (p : Packet)
  /-- MEM_TRAIN (R400): Command retraining every channel without destroying mapped contents. -/
  | memTrain (p : Packet)
  /-- MEM_CLR_COUNTERS (R415): Write of MEM_Cc_CTRL.CLR_COUNTERS that clears the channel's counts. -/
  | memClrCounters (m c : Nat) (v : Word)
  /-- TRN_GO (R399): Write of TRN_CTRL.GO that starts a pattern-and-compare step on the training row. -/
  | trnGo (m c : Nat) (v : Word)
  /-- TRN_STEP_DONE (R399): A pattern-and-compare step compares its last burst and sets DONE. -/
  | trnStepDone (c lanes : Nat)
  /-- TRAINING_STEP_TIMEOUT (R398): A training step exceeds its timeout and fails the channel. -/
  | trainingStepTimeout (c step rank : Nat)
  /-- DRAM_TRAINING_DONE (R398): Training completes, the trained values are saved, DRAM_READY is set and initialisation begins. -/
  | dramTrainingDone (found : Population)
  /-- DRAM_INIT_REGION (R401): The controller writes one 2 MiB region with zeros and valid check bits. -/
  | dramInitRegion
  /-- DRAM_READ (R402): A DRAM read returns, corrected and written back, or poisoned with a UE record. -/
  | dramRead (addr port ns : Nat) (res : ReadCheck)
  /-- RANK_MIGRATION_DONE (R404): The spare takes the logical rank, the old rank becomes RETIRED, and RANK_RETIRED and MIGRATION_DONE are posted. -/
  | rankMigrationDone (c : Nat)
  /-- SCRUB_READ (R403): The scrubber reads the next granule so that each is read once per SCRUB_H hours. -/
  | scrubRead (res : ReadCheck)
  /-- REFRESH_SLOT_DUE (R395): A rank's refresh slot falls due and OWED rises, with an immediate REFab if it would exceed the ceiling. -/
  | refreshSlotDue (c p : Nat) (busy : Bool)
  /-- MR4_POLL (R397): Every 250 µs the controller reads a rank's MR4 and applies a change of refresh rate. -/
  | mr4Poll (c p ind : Nat)
  /-- SPD_HUB_POLL (R397): Every 100 ms firmware reads each DIMM's SPD hub temperature. -/
  | spdHubPoll (c d : Nat) (t : Option Nat)
  /-- WRITE_AGE_EXPIRY (R392): A queued write becomes older than WR_AGE_MAX and is issued next. -/
  | writeAgeExpiry (c sc : Nat)
  /-- CA_PARITY_ALERT (R406): DDR_ALERT_N reports a CA parity error and the channel freezes. -/
  | caParityAlert (c : Nat) (cmds : List Nat) (index rank : Nat)
  /-- CA_AUTO_RELEASE (R406): AUTO_RELEASE µs lapse and the frozen channel is released. -/
  | caAutoRelease (c : Nat)
  /-- SELF_REFRESH_EXIT (R408): A channel leaves self-refresh, runs its drift check and becomes READY. -/
  | selfRefreshExit (c : Nat) (ok : Bool)
  /-- DRIFT_RECENTRE (R408): A channel whose drift check failed re-centres its delays and then becomes READY. -/
  | driftRecentre (c : Nat)
  /-- CLK_SET (R422): Command changing FPLL or MPLL frequency and SSC, subject to the floor and TRG. -/
  | clkSet (p : Packet)
  /-- CLK_STATUS (R446): Command returning a PLL's status, frequency and counts. -/
  | clkStatus (p : Packet)
  /-- GLIDE_STEP (R418): Every 2 µs a gliding PLL takes its next step of at most 1 %. -/
  | glideStep (p : Nat)
  /-- PLL_LOCK_LOSS (R420): FPLL or TPLL loses lock and switches to ACLK bypass. -/
  | pllLockLoss (p : Nat)
  /-- PLL_RELOCK (R420): A bypassed PLL reacquires lock and the output switches back to it. -/
  | pllRelock (p : Nat)
  /-- MPLL_LOCK_LOSS (R421): MPLL holds its DCO code and every channel enters self-refresh. -/
  | mpllLockLoss
  /-- MPLL_REACQUIRE (R421): MPLL reacquires lock and the channels leave self-refresh. -/
  | mpllReacquire
  /-- ACLK_LOSS (R420): The ring oscillator sees no ACLK edge for two periods, which is fatal. -/
  | aclkLoss
  /-- AVS_WRITE_TIMEOUT (R423): An AVSBus write is not acknowledged within 100 µs; after two retries AVS_FAIL is raised and FCLK limited. -/
  | avsWriteTimeout
  /-- TEMP_SAMPLE (R424): Every 1 ms PMU reads the die sensors and reports T_NOW. -/
  | tempSample (t : Nat)
  /-- THROTTLE_STEP (R424): While T_NOW is at or above THROTTLE, every 10 ms FCLK is lowered by STEP %. -/
  | throttleStep
  /-- THROTTLE_RELEASE (R424): After T_NOW has stayed below RELEASE for 1 s FCLK glides back. -/
  | throttleRelease
  /-- UNDERVOLT (R424): The core voltage stays below target − 50 mV for 1 µs, which is fatal. -/
  | undervolt
  /-- TBS_REF (R426): Command setting the timebase references, jump policy, tolerances and loop. -/
  | tbsRef (p : Packet)
  /-- TBS_STATUS (R446): Command returning the timebase state, steer, phase error and holdover. -/
  | tbsStatus (p : Packet)
  /-- TBS_ACK (R429): Command choosing a slew or a step for a phase jump held in HOLD_ACK. -/
  | tbsAck (p : Packet)
  /-- TIME_SET (R431): Command writing the whole-nanosecond part of TS96 at once or at the next PPS edge. -/
  | timeSet (p : Packet)
  /-- PPS_OUT (R432): Command configuring PPS_OUT enable, polarity, width and offset. -/
  | ppsOut (p : Packet)
  /-- TBS_MODE_WRITE (R426): Write of TBS_CTRL.MODE that takes effect at once and restarts qualification. -/
  | tbsModeWrite (m : Nat) (v : Word)
  /-- TBS_CLR_COUNTERS (R447): Write of TBS_CTRL.CLR_COUNTERS that clears TBS_COUNTS. -/
  | tbsClrCounters (m : Nat) (v : Word)
  /-- PMU_CLR_COUNTERS (R447): Write of PMU_CTRL.CLR_COUNTERS that clears the block's counts. -/
  | pmuClrCounters (m : Nat) (v : Word)
  /-- PPS_IN_EDGE (R426): A PPS_IN rising edge is timed and its phase error used by the discipline loop. -/
  | ppsInEdge (ts : Nat)
  /-- TIME_STEP_APPLY (R430): TS96 steps by −e at a TCLK edge (the next LEMC edge while JIN runs), and a TIME_STEP marker is written. -/
  | timeStepApply
  /-- REF10M_GATE (R426): A 1 ms gate of the 10 MHz reference ends and its frequency is checked. -/
  | ref10mGate (dev : Int)
  /-- REF_QUALIFIED (R427): A reference has been valid for 2 s and is used by the loop. -/
  | refQualified (pps : Bool)
  /-- REF_LOSS (R427): A reference is lost; REF_LOSS is raised and TBS may enter HOLDOVER. -/
  | refLoss (pps : Bool)
  /-- SLEW_COMPLETE (R429): The slew offset ramps back to 0 and the phase error is removed. -/
  | slewComplete
  /-- PPS_OUT_PULSE (R432): PPS_OUT pulses at each whole second plus its offset. -/
  | ppsOutPulse
  /-- ALARM_FIRE (R530): TS96 reaches an armed wake or Sheaf alarm, which fires once. -/
  | alarmFire (sheaf : Bool)
  /-- WAKE_N_ASSERT (R435): WAKE_N held low for 1 µs with WAKE_PIN_EN wakes the device from Rest. -/
  | wakeNAssert
  /-- REST_HOSTLINK_RETURN (R435): 10 ms after the last inbound access in Rest, HOSTLINK returns to retention. -/
  | restHostlinkReturn
  /-- PSTATE_SET (R440): Command requesting a power state, completing when the target is reached. -/
  | pstateSet (p : Packet)
  /-- PSTATE_STATUS (R446): Command returning GLB_STATE, domain states, last transition and temperature. -/
  | pstateStatus (p : Packet)
  /-- WATCH_CONFIG (R446): Command writing the Watch barn, Watch MCV, wake pin and wake alarm. -/
  | watchConfig (p : Packet)
  /-- REST_TO_WATCH (R436): The device powers the Watch domains and restores the intake blocks from CC0 memory. -/
  | restToWatch
  /-- WATCH_TO_RECORD (R437): MEMC exits self-refresh, parked barns power up, and the CAP flush starts. -/
  | watchToRecord
  /-- FLUSH_CATCHUP_DONE (R201): Every stream's lag is within bound, so CAP sets RECORD and writes WATCH_END, chute markers and held segments. -/
  | flushCatchupDone
  /-- RECORD_TO_WATCH (R438): CAP stops, chains park, barns, CMP and DIS turn off and MEMC enters self-refresh. -/
  | recordToWatch
  /-- WATCH_TO_REST (R439): TRG is disarmed, DMA finishes, state is saved and the intake and DRAM domains turn off. -/
  | watchToRest
  /-- POWER_ON_RESET (R441): The supplies become valid and start-up runs from the internal reset release. -/
  | powerOnReset (testEn resetN : Bool)
  /-- STARTUP_CMD_READY (R30): Start-up completes: CMD_READY and GRANARY_READY are set and the device is in Watch. -/
  | startupCmdReady
  /-- PIN_RESET (R29): RESET_N low resets the whole device. -/
  | pinReset
  /-- SOFT_RESET (R29): Write of GLB_SOFT_RESET with the key that resets all domains except TBS after DRAM enters self-refresh. -/
  | softReset (m : Nat) (v : Word)
  /-- LINK_RESET (R29): PERST_N low, hot reset or link down resets the HOSTLINK domain. -/
  | linkReset
  /-- FUNCTION_RESET (R296): An FLR resets one function's queues, contexts and channels. -/
  | functionReset (f : Nat)
  /-- RAIL_LOSS (R516): A rail stays below its valid threshold for 2 µs and reasserts the power-on reset. -/
  | railLoss
  /-- DIS_MODE (R452): Command setting and committing the display timing mode. -/
  | disMode (p : Packet)
  /-- DIS_LAYER (R453): Command configuring a display layer, completing at the latch that applies it. -/
  | disLayer (p : Packet)
  /-- DIS_FLIP (R462): Command committing new base addresses of layers, completing when the flip takes effect. -/
  | disFlip (p : Packet)
  /-- DIS_LUT (R455): Command loading a layer's inactive LUT bank and swapping at the next latch. -/
  | disLut (p : Packet)
  /-- DIS_CRC (R463): Command returning the pixel CRC of a window over one frame. -/
  | disCrc (p : Packet)
  /-- DIS_STATUS (R466): Command returning display status, frame number and counters. -/
  | disStatus (p : Packet)
  /-- DIS_SCANOUT_ENABLE (R460): Write of DIS_CTRL.EN that enables scan-out and its DRAM reservation. -/
  | disScanoutEnable (m : Nat) (v : Word)
  /-- DIS_CLR_COUNTERS (R467): Write of DIS_CTRL.CLR_COUNTERS that clears the display counts. -/
  | disClrCounters (m : Nat) (v : Word)
  /-- DIS_MODE_COMMIT_GO (R452): Write of DIS_MODE_COMMIT.GO that applies the mode registers at the next latch. -/
  | disModeCommitGo (m : Nat) (v : Word)
  /-- DIS_LAYER_COMMIT_GO (R462): Write of DIS_COMMIT.GO that commits a layer's shadowed fields. -/
  | disLayerCommitGo (m : Nat) (v : Word)
  /-- DIS_LUT_SWAP (R455): Write of DIS_Lk_LUT.SWAP that exchanges the LUT banks at the next latch. -/
  | disLutSwap (m k : Nat) (v : Word)
  /-- DIS_LUT_DATA_WRITE (R455): Write to the LUT window that fills the inactive bank of the selected layer. -/
  | disLutDataWrite (m i : Nat) (v : Word)
  /-- DIS_AUX_GO (R450): Write of DIS_AUX_CTRL.GO that starts an AUX transfer. -/
  | disAuxGo (m : Nat) (v : Word)
  /-- AUX_TRANSFER_DONE (R450): An AUX transfer ends with ACK, NACK, DEFER exhausted or TIMEOUT. -/
  | auxTransferDone (reply : Nat) (data : List Byte)
  /-- FRAME_LATCH (R461): At the first blanking line shadowed display values and committed flips are taken up. -/
  | frameLatch
  /-- FRAME_START (R461): The first active pixel is launched, FRAME_NO and its TS96 are recorded, and flips take effect. -/
  | frameStart (missing : List (Nat × Nat)) (ue : List (Nat × Nat))
  /-- DIS_LINK_TRAINING (R449): eDP link training ends in success or fails after 100 ms with TRAIN_FAIL. -/
  | disLinkTraining (ok : Bool)
  /-- HPD_LOSS (R450): EDP_HPD low for 2 ms means the panel has gone; lanes idle and HPD_LOST is raised. -/
  | hpdLoss
  /-- IRQ_HPD (R450): A short HPD low pulse makes DIS read lane status and retrain if needed. -/
  | irqHpd (lost : Bool)
  /-- HPD_RISE (R450): EDP_HPD rises and DIS trains afresh. -/
  | hpdRise
  /-- MCV_CONFIG (R531): Command setting the MCV enable, sequence mode and calibration parameters. -/
  | mcvConfig (p : Packet)
  /-- MCV_SEQ (R476): Command writing a sequence-table entry. -/
  | mcvSeq (p : Packet)
  /-- MCV_INJECT (R480): Command requesting an injected conversion, completing with its result. -/
  | mcvInject (p : Packet)
  /-- MCV_CAL (R478): Command requesting a calibration of named gains. -/
  | mcvCal (p : Packet)
  /-- MCV_DAC (R481): Command setting the test DAC enable and codes. -/
  | mcvDac (p : Packet)
  /-- MCV_STATUS (R485): Command returning MCV status, an entry's last result and counts. -/
  | mcvStatus (p : Packet)
  /-- MCV_EN_WRITE (R531): Write of MCV_CTRL.EN that firmware copies into the MCV enable and powers the domain accordingly. -/
  | mcvEnWrite (m : Nat) (v : Word)
  /-- MCV_START_WRITE (R476): Write of MCV_CTRL.START that starts a single-mode sequence pass or holds it. -/
  | mcvStartWrite (m : Nat) (v : Word)
  /-- MCV_INJ_GO (R480): Write of MCV_CTRL.INJ_GO that requests an injected conversion. -/
  | mcvInjGo (m : Nat) (v : Word)
  /-- MCV_CAL_GO (R479): Write of MCV_CTRL.CAL_GO that requests a calibration. -/
  | mcvCalGo (m : Nat) (v : Word)
  /-- MCV_CLR_COUNTERS (R486): Write of MCV_CTRL.CLR_COUNTERS that clears the MCV counts. -/
  | mcvClrCounters (m : Nat) (v : Word)
  /-- MCV_RES_POP (R475): Write of MCV_RES_POP.GO that removes the head result. -/
  | mcvResPop (m : Nat) (v : Word)
  /-- MCV_INJ_AT (R480): TS96 reaches MCV_INJ_AT and a timed injection is requested. -/
  | mcvInjAt
  /-- MCV_DWELL_END (R471): The dwell ends and the span begins at the next TCLK edge or report. -/
  | mcvDwellEnd (bad : Bool)
  /-- MCV_SPAN_END (R471): The span ends after its time or report count and run-down begins. -/
  | mcvSpanEnd
  /-- MCV_RUNDOWN_DONE (R473): Run-down ends, the code is formed and the result record published, and the next work is chosen. -/
  | mcvRundownDone (sub : List (Int × Nat)) (overload : Bool)
  /-- MCV_ABANDON (R480): An injected or calibration request abandons the running regular conversion and the integrator discharges. -/
  | mcvAbandon
  /-- MCV_COAST (R472): No report arrives within 2 × P in mains mode, so MCV coasts and raises FUND_LOST. -/
  | mcvCoast
  /-- MCV_CAL_PERIOD (R479): CAL_PERIOD seconds pass since the last calibration, requesting a calibration. -/
  | mcvCalPeriod
  /-- SNAP_FIRE (R501): Command firing the Sheaf now or at a named time. -/
  | snapFire (p : Packet)
  /-- SNAP_READ (R505): Command writing the Sheaf image to a host buffer and optionally rearming. -/
  | snapRead (p : Packet)
  /-- ERR_READ (R506): Command copying error records, or the fatal records, to a host buffer. -/
  | errRead (p : Packet)
  /-- ERR_ACK (R492): Command acknowledging uncorrected records by SEQ, or all of them and every open tag. -/
  | errAck (p : Packet)
  /-- ERR_INJECT (R506): Command raising an injected error record. -/
  | errInject (p : Packet)
  /-- ERR_ACK_WRITE (R492): Write of the ERR_ACK register that acknowledges one SEQ, or all records and tags. -/
  | errAckWrite (m : Nat) (v : Word)
  /-- ERR_CLR_COUNTERS (R507): Write of ERR_CTRL.CLR_COUNTERS that clears every ERR count. -/
  | errClrCounters (m : Nat) (v : Word)
  /-- ERR_RECORD_DRAIN (R490): ERR drains a record from a block chute, assigns a SEQ, checks escalation and writes the log. -/
  | errRecordDrain (ue : List Nat)
  /-- CC_HANG (R499): A control core misses its heartbeat or watchdog, which is fatal. -/
  | ccHang (core : Nat)
  /-- SHF_FIRE_WRITE (R501): Write of SHF_CTRL.FIRE that triggers a Sheaf fire. -/
  | shfFireWrite (m : Nat) (v : Word)
  /-- SHF_REARM_WRITE (R503): Write of SHF_CTRL.REARM that clears LOCKED and cancels an undelivered fire. -/
  | shfRearmWrite (m : Nat) (v : Word)
  /-- SNAP_IN_EDGE (R504): An edge on SNAP_IN held 10 ns triggers a Sheaf fire when enabled. -/
  | snapInEdge (level : Bool)
  /-- SHEAF_LATCH (R502): At T_f every powered block latches its snapshot registers and SNAP_OUT pulses. -/
  | sheafLatch
  /-- PCIE_LINK_UP (R295): After a reset the host trains the PCIe link, the link comes up and HIF begins answering configuration, BAR0 and BAR4 accesses. -/
  | pcieLinkUp (speed width mps mrrs bar2 : Nat)
  /-- PCIE_LINK_RETRAIN (R314): The PCIe link retrains to another width or speed, changing LINK_CAP and HIF_STATUS and leading to a re-run of admission or BUDGET_CHANGED. -/
  | pcieLinkRetrain (speed width : Nat)
  /-- VF_ENABLE (R273): The host enables or disables virtual functions, creating or removing their base contexts, mailbox sets and locks. -/
  | vfEnable (n : Nat)
  /-- MSIX_VECTOR_UNMASK (R281): The host unmasks an MSI-X vector, and a message whose pending bit is set is sent. -/
  | msixVectorUnmask (f v : Nat) (mask : Bool)
  /-- RESET_N_RELEASE (R30): RESET_N rises after a pin reset with the supplies valid, the internal reset releases and start-up begins. -/
  | resetNRelease (testEn : Bool)
  /-- JTAG_INSTRUCTION (R526): A TAP operation on TCK, TMS and TRST_N selects an instruction such as EXTEST, CLAMP or HIGHZ, which then drives the covered pins or floats them and stops refresh. -/
  | jtagInstruction (code : Nat) (cells : Option (List Bool))
  /-- COMMAND_TIMEOUT (R286): A command that waits, such as INTAKE_START, REG_POLL, DFU_ANCHOR, TIME_SET, PSTATE_SET or DIS_CRC, reaches its timeout and completes with TIMEOUT. -/
  | commandTimeout (q t : Nat)
  /-- REG_POLL_SAMPLE (R291): Every 1 µs, REG_POLL reads its register again and completes when the masked value matches. -/
  | regPollSample (q t : Nat)
  /-- LANE_TEST_END (R64): The duration of a LANE_TEST runs out, and the command completes with its lane and bit-error results. -/
  | laneTestEnd (errs : List Nat) (unlocked : Nat)
  /-- UNFENCE_SELF_TEST_DONE (R240): The 5 ms self-test of ENG_UNFENCE ends, and the engine becomes spare or idle, or the command completes with HW_ERROR. -/
  | unfenceSelfTestDone (n : Nat) (ok : Bool)
  /-- MAP_PASS_COMPLETE (R262): A map's carry or clear pass finishes, and PASS_BUSY clears. -/
  | mapPassComplete (k : Nat)
  /-- CMP_BLOCK_BOUNDARY (R373): A compression job reaches the end of its current 64 KiB block, where a pending abort, Record → Watch suspension or Containment suspension takes effect. -/
  | cmpBlockBoundary (e : Nat)
deriving DecidableEq, Repr

end Sys2Proof
end

