-- ==== Sys2Proof/Config.lean ====
section
/-!
DEFINITION. What the manual leaves to the part or leaves open, as constants without a value: nothing can evaluate one
or prove a value of it.
-/

namespace Sys2Proof

/-- GLB_UID: the fused die ID (Table 1.16). -/
opaque Config.uid : BitVec 64

/-- GLB_KEYHASH0-11: the fused key-hash words (Table 1.16). -/
opaque Config.keyHash : Nat → Word

/-- GLB_FUSE_STATUS.KEYHASH_VALID (Table 1.17). -/
opaque Config.keyHashValid : Bool

/-- GLB_FUSE_STATUS.DEBUG_LOCKED (Table 1.17). -/
opaque Config.debugLocked : Bool

/-- GLB_FUSE_STATUS.PATCH_FLOOR (Table 1.17). -/
opaque Config.patchFloor : Byte

/-- PMU_OPPk: the fused operating points, part-specific within R423. -/
opaque Config.opp : Nat → Word

/-- A free value: the n-th value the manual leaves undefined, cut to the width it is used at. -/
opaque Config.freeNat : Nat → Nat

/-- ROM coefficients of a decimating filter of Table 3.3, Q1.17, by ID and tap, of one half of the symmetric response; the manual
does not print them (R78, R79). -/
opaque Config.romHalf : Nat → Nat → BitVec 18

/-- The 257 ROM sets of SKEW9, Q1.15, by set and tap (R70); the manual prints the one of SKEW_EFF = 0 only. -/
opaque Config.skewRom : Nat → Nat → BitVec 16

/-- The prototype of RS48, 48 taps of 512 phases each, Q1.17, of one half of the symmetric response (R78, R86). -/
opaque Config.rs48Half : Nat → BitVec 18

/-- CAP_GRANARY_SPAN in µs and CAP_SILO_SPAN in ms when nothing is stored: R185 and R189 divide by a rate of 0. -/
opaque Config.spanIdle : Nat → Nat

/-- By how much a result departs from the exact value of its formula before it is rounded to its format, where the manual gives
the formula but not the order and rounding of its steps: transforms, windows, symmetrical components, cubic interpolation
(Table 8.4), the library's bins, phasors and powers (R245, R246), percentiles (R254). By operator, parameters, inputs and
index. -/
opaque Config.engErr : Nat → List Nat → List Int → Nat → Rat

/-- A value of an operator that the manual does not print (Table 8.4): transforms of NaN or infinite elements, flicker,
interpolation past the end, the first contents of a buffer. By operator, parameters, inputs and index. -/
opaque Config.engVal : Nat → List Nat → List Int → Nat → Int

/-- The bits of a DEFLATE block that a compressor of EFFORT 1 to 3 writes (R367), where they give the block back: by the bits of
the stream before it in its byte, effort, the history, the block's bytes, and whether it is the final one. -/
opaque Config.deflateBits : Nat → Nat → List Byte → List Byte → Bool → List Bool

/-- FRAMING and EFFORT of a CLAIM_READ with COMPRESS (R203 leaves them open). -/
opaque Config.claimFraming : Nat
opaque Config.claimEffort : Nat

/-- The body of a save record, which is device-internal (Table 13.7), by job and place. -/
opaque Config.saveBody : Nat → Nat → Byte

/-- The steer, in 2^-40, that the discipline loop asks for (R428): the manual gives its kind and time constant, not its
gains. By the steer so far, the measured phase or frequency error, TC, and which of the two it is. -/
opaque Config.loopSteer : Int → Int → Nat → Bool → Int

/-- The band table of FPLL (0), MPLL (1) or TPLL (2) as the calibration of start-up measures it (R417), by entry. -/
opaque Config.band : Nat → Nat → Word

/-- BG_EXPECT: the fused code expected of the bandgap (R478). -/
opaque Config.bgExpect : Nat

end Sys2Proof
end

