-- ==== Sys2Proof/Machine/RegBase.lean ====
section
/-!
DEFINITION. What a register map is made of (R5, R7), and the sparse stores that hold registers and memory: lists of
(address, value) pairs, addresses strictly rising, no entry equal to what an unlisted address reads as.
-/

namespace Sys2Proof.Machine

/-- Access codes of Table 0.3 (R5). -/
inductive Access where
  | ro | rw | wo | w1c | w1s
deriving DecidableEq, Repr

/-- Classes of R7: live, shadowed, frozen, and none for a field no write reaches. -/
inductive FClass where
  | l | s | f | n
deriving DecidableEq, Repr

/-- One field of a register: its lowest bit, width, access code, class and reset value. -/
structure FieldRow where
  lo : Nat
  w : Nat
  acc : Access
  cls : FClass
  reset : Nat
deriving DecidableEq, Repr

/-- One register of a map: its name, its BAR0 address, how often and at what strides it repeats (widest first), and
its fields. -/
structure RegRow where
  name : String
  base : Nat
  dims : List (Nat × Nat)
  fields : List FieldRow
deriving DecidableEq, Repr

/-- A field of one register: BAR0 address, lowest bit, width. -/
structure Fld where
  addr : Nat
  lo : Nat
  w : Nat
deriving DecidableEq, Repr

/-- The value listed for an address. -/
def cellFind {β : Type} : List (Nat × β) → Nat → Option β
  | [], _ => none
  | (k, v) :: l, a => if a = k then some v else cellFind l a

/-- The value at an address, `d` where none is listed. -/
def cellGet {β : Type} (d : β) (l : List (Nat × β)) (a : Nat) : β := (cellFind l a).getD d

/-- The list without an address. -/
def cellErase {β : Type} : List (Nat × β) → Nat → List (Nat × β)
  | [], _ => []
  | (k, v) :: l, a => if a = k then l else (k, v) :: cellErase l a

/-- The list with one value put in its place in the rising order. -/
def cellInsert {β : Type} : List (Nat × β) → Nat → β → List (Nat × β)
  | [], a, x => [(a, x)]
  | (k, v) :: l, a, x =>
    if a < k then (a, x) :: (k, v) :: l
    else if a = k then (a, x) :: l
    else (k, v) :: cellInsert l a x

/-- Write one value: an address whose value is the unlisted one is not listed. -/
def cellPut {β : Type} [DecidableEq β] (d : β) (l : List (Nat × β)) (a : Nat) (x : β) : List (Nat × β) :=
  if x = d then cellErase l a else cellInsert l a x

/-- Addresses strictly rising, all above a bound. -/
def cellRising {β : Type} : Option Nat → List (Nat × β) → Bool
  | _, [] => true
  | none, (k, _) :: l => cellRising (some k) l
  | some b, (k, _) :: l => decide (b < k) && cellRising (some k) l

/-- The canonical form of a store: rising addresses, no entry equal to the unlisted value. -/
def cellWf {β : Type} [DecidableEq β] (d : Nat → β) (l : List (Nat × β)) : Bool :=
  cellRising none l && l.all (fun c => decide (c.2 ≠ d c.1))

end Sys2Proof.Machine
end

