-- ==== Sys2Proof/Machine/RegMap.lean ====
section
/-!
DEFINITION. The register map: every register the spec lists, one row each, with its BAR0 address, its repetition
and its fields (R5, R26 and the register rule of each chapter: R38, R447, R298, R321, R345, R65, R94, R130, R157,
R182, R211, R241, R269, R383, R415, R467, R486, R507). Written out from the spec's own field tables.
Reserved bits have no field: they read 0 and ignore writes (R6).
-/

namespace Sys2Proof.Machine

/-- Registers of block GLB (R38), part 1. -/
def regRowsGLB0 : List RegRow :=
  [
    ⟨"GLB_ID", 0x000000, [], [⟨0, 16, .ro, .n, 0x1d7e⟩, ⟨16, 16, .ro, .n, 0x9648⟩]⟩,
    ⟨"GLB_REV", 0x000004, [], [⟨0, 8, .ro, .n, 0x11⟩, ⟨8, 8, .ro, .n, 1⟩, ⟨16, 16, .ro, .n, 0x103⟩]⟩,
    ⟨"GLB_CAPS", 0x000008, [], [⟨0, 8, .ro, .n, 0x30⟩, ⟨8, 8, .ro, .n, 0x40⟩, ⟨16, 4, .ro, .n, 0xc⟩, ⟨20, 4, .ro, .n, 8⟩, ⟨24, 1, .ro, .n, 1⟩, ⟨25, 1, .ro, .n, 1⟩]⟩,
    ⟨"GLB_UID_LO", 0x000010, [], [⟨0, 32, .ro, .n, 0⟩]⟩,
    ⟨"GLB_UID_HI", 0x000014, [], [⟨0, 32, .ro, .n, 0⟩]⟩,
    ⟨"GLB_KEYHASH", 0x000020, [(12, 0x4)], [⟨0, 32, .ro, .n, 0⟩]⟩,
    ⟨"GLB_FUSE_STATUS", 0x000050, [], [⟨0, 1, .ro, .n, 0⟩, ⟨1, 1, .ro, .n, 0⟩, ⟨8, 8, .ro, .n, 0⟩]⟩,
    ⟨"GLB_STATE", 0x000060, [], [⟨0, 3, .ro, .n, 0⟩, ⟨3, 1, .ro, .n, 0⟩, ⟨4, 1, .ro, .n, 0⟩, ⟨5, 1, .ro, .n, 0⟩, ⟨6, 1, .ro, .n, 0⟩, ⟨8, 4, .ro, .n, 0⟩]⟩,
    ⟨"GLB_RESET_CAUSE", 0x000064, [], [⟨0, 1, .w1c, .l, 1⟩, ⟨1, 1, .w1c, .l, 0⟩, ⟨2, 1, .w1c, .l, 0⟩, ⟨3, 1, .w1c, .l, 0⟩, ⟨4, 1, .w1c, .l, 0⟩]⟩,
    ⟨"GLB_SOFT_RESET", 0x000068, [], [⟨0, 1, .wo, .l, 0⟩, ⟨16, 16, .wo, .l, 0⟩]⟩,
    ⟨"GLB_WRITE_REFUSED", 0x000070, [], [⟨0, 17, .ro, .n, 0⟩]⟩,
    ⟨"GLB_OFF_ACCESS", 0x000074, [], [⟨0, 5, .ro, .n, 0⟩, ⟨5, 1, .ro, .n, 0⟩, ⟨8, 8, .ro, .n, 0⟩, ⟨16, 15, .ro, .n, 0⟩, ⟨31, 1, .wo, .l, 0⟩]⟩,
    ⟨"GLB_CTRL", 0x000080, [], [⟨0, 4, .rw, .s, 0⟩, ⟨4, 1, .rw, .s, 0⟩]⟩,
    ⟨"GLB_UPTIME_LO", 0x000088, [], [⟨0, 32, .ro, .n, 0⟩]⟩,
    ⟨"GLB_UPTIME_HI", 0x00008C, [], [⟨0, 32, .ro, .n, 0⟩]⟩,
    ⟨"GLB_READY_CMD", 0x000090, [], [⟨0, 32, .ro, .n, 0⟩]⟩,
    ⟨"GLB_READY_DRAM", 0x000094, [], [⟨0, 32, .ro, .n, 0⟩]⟩,
    ⟨"GLB_SCRATCH", 0x0000A0, [(4, 0x4)], [⟨0, 32, .rw, .l, 0⟩]⟩ ]

/-- Every register of block GLB (R38). -/
def regRowsGLB : List RegRow := regRowsGLB0

/-- Registers of block PMU (R447), part 1. -/
def regRowsPMU0 : List RegRow :=
  [
    ⟨"PMU_CTRL", 0x010000, [], [⟨0, 1, .wo, .l, 0⟩, ⟨1, 1, .rw, .l, 0⟩, ⟨2, 1, .rw, .l, 0⟩]⟩,
    ⟨"PMU_STATUS", 0x010004, [], [⟨0, 3, .ro, .n, 0⟩, ⟨3, 1, .ro, .n, 0⟩, ⟨4, 1, .ro, .n, 0⟩, ⟨8, 4, .ro, .n, 0⟩, ⟨24, 1, .w1c, .l, 0⟩]⟩,
    ⟨"PMU_DOM_LO", 0x010008, [], [⟨0, 32, .ro, .n, 0⟩]⟩,
    ⟨"PMU_DOM_HI", 0x01000C, [], [⟨0, 6, .ro, .n, 0⟩]⟩,
    ⟨"PMU_WAKE_AT_W", 0x010010, [(3, 0x4)], [⟨0, 32, .rw, .l, 0⟩]⟩,
    ⟨"PMU_TEMP", 0x010020, [], [⟨0, 16, .ro, .n, 0⟩, ⟨16, 16, .ro, .n, 0⟩]⟩,
    ⟨"PMU_THERM", 0x010024, [], [⟨0, 16, .rw, .l, 0x670⟩, ⟨16, 16, .rw, .l, 0x730⟩]⟩,
    ⟨"PMU_THERM_REL", 0x010028, [], [⟨0, 16, .rw, .l, 0x620⟩, ⟨16, 8, .rw, .l, 0xa⟩]⟩,
    ⟨"PMU_AVS_CTRL", 0x010030, [], [⟨0, 8, .rw, .l, 0⟩]⟩,
    ⟨"PMU_AVS_STATUS", 0x010034, [], [⟨0, 12, .ro, .n, 0⟩, ⟨16, 12, .ro, .n, 0⟩, ⟨28, 4, .ro, .n, 0⟩]⟩,
    ⟨"PMU_OPP", 0x010040, [(4, 0x4)], [⟨0, 12, .ro, .n, 0⟩, ⟨16, 12, .ro, .n, 0⟩]⟩,
    ⟨"PMU_TRANS", 0x010050, [], [⟨0, 24, .ro, .n, 0⟩, ⟨24, 3, .ro, .n, 0⟩, ⟨28, 3, .ro, .n, 0⟩]⟩,
    ⟨"PMU_COUNTS", 0x010054, [], [⟨0, 16, .ro, .n, 0⟩, ⟨16, 8, .ro, .n, 0⟩, ⟨24, 8, .ro, .n, 0⟩]⟩,
    ⟨"PMU_SNAP_STATUS", 0x010060, [], [⟨0, 32, .ro, .n, 0⟩]⟩,
    ⟨"PMU_SNAP_TEMP", 0x010064, [], [⟨0, 32, .ro, .n, 0⟩]⟩,
    ⟨"CKG_P_CTRL", 0x011000, [(3, 0x100)], [⟨0, 12, .ro, .n, 0⟩, ⟨12, 2, .ro, .n, 0⟩]⟩,
    ⟨"CKG_P_STATUS", 0x011004, [(3, 0x100)], [⟨0, 3, .ro, .n, 0⟩, ⟨8, 6, .ro, .n, 0⟩, ⟨16, 10, .ro, .n, 0⟩]⟩,
    ⟨"CKG_P_FREQ", 0x011008, [(3, 0x100)], [⟨0, 24, .ro, .n, 0⟩]⟩,
    ⟨"CKG_P_COUNTS", 0x01100C, [(3, 0x100)], [⟨0, 16, .ro, .n, 0⟩, ⟨16, 16, .ro, .n, 0⟩]⟩,
    ⟨"CKG_P_BAND", 0x011040, [(3, 0x100), (16, 0x4)], [⟨0, 12, .rw, .s, 0⟩, ⟨12, 6, .rw, .s, 0⟩, ⟨18, 10, .rw, .s, 0⟩, ⟨31, 1, .rw, .s, 0⟩]⟩ ]

/-- Registers of block PMU (R447), part 2. -/
def regRowsPMU1 : List RegRow :=
  [
    ⟨"CKG_SNAP_FREQ", 0x011F10, [], [⟨0, 24, .ro, .n, 0⟩]⟩,
    ⟨"TBS_CTRL", 0x012000, [], [⟨0, 2, .rw, .l, 0⟩, ⟨2, 2, .rw, .l, 0⟩, ⟨4, 1, .wo, .l, 0⟩]⟩,
    ⟨"TBS_STATE", 0x012004, [], [⟨0, 3, .ro, .n, 0⟩, ⟨4, 1, .ro, .n, 0⟩, ⟨5, 1, .ro, .n, 0⟩, ⟨6, 1, .ro, .n, 0⟩]⟩,
    ⟨"TBS_TS_W", 0x012008, [(3, 0x4)], [⟨0, 32, .ro, .n, 0⟩]⟩,
    ⟨"TBS_STEER", 0x012014, [], [⟨0, 32, .ro, .n, 0⟩]⟩,
    ⟨"TBS_SLEW", 0x012018, [], [⟨0, 32, .ro, .n, 0⟩]⟩,
    ⟨"TBS_PHASE_ERR_LO", 0x01201C, [], [⟨0, 32, .ro, .n, 0⟩]⟩,
    ⟨"TBS_PHASE_ERR_HI", 0x012020, [], [⟨0, 16, .ro, .n, 0⟩]⟩,
    ⟨"TBS_PPS_OFS", 0x012024, [], [⟨0, 32, .rw, .l, 0⟩]⟩,
    ⟨"TBS_REF_TOL", 0x012028, [], [⟨0, 8, .rw, .l, 0x64⟩, ⟨16, 16, .rw, .l, 0xa⟩]⟩,
    ⟨"TBS_LOOP", 0x01202C, [], [⟨0, 16, .rw, .l, 0x64⟩, ⟨16, 16, .rw, .l, 0x3c⟩]⟩,
    ⟨"TBS_TBJ", 0x012030, [], [⟨0, 24, .rw, .l, 0x64⟩, ⟨24, 5, .rw, .l, 0x14⟩]⟩,
    ⟨"TBS_HOLDOVER", 0x012034, [], [⟨0, 32, .ro, .n, 0⟩]⟩,
    ⟨"TBS_LAST_STEP_LO", 0x012038, [], [⟨0, 32, .ro, .n, 0⟩]⟩,
    ⟨"TBS_LAST_STEP_HI", 0x01203C, [], [⟨0, 32, .ro, .n, 0⟩]⟩,
    ⟨"TBS_PPS_OUT", 0x012040, [], [⟨0, 1, .rw, .l, 0⟩, ⟨1, 1, .rw, .l, 0⟩, ⟨8, 10, .rw, .l, 0x64⟩]⟩,
    ⟨"TBS_PPS_OUT_OFS", 0x012044, [], [⟨0, 32, .rw, .l, 0⟩]⟩,
    ⟨"TBS_CREF", 0x012048, [], [⟨0, 1, .rw, .l, 0⟩, ⟨1, 1, .rw, .l, 1⟩, ⟨8, 8, .rw, .f, 0xa⟩]⟩,
    ⟨"TBS_COUNTS", 0x01204C, [], [⟨0, 8, .ro, .n, 0⟩, ⟨8, 8, .ro, .n, 0⟩, ⟨16, 8, .ro, .n, 0⟩, ⟨24, 8, .ro, .n, 0⟩]⟩,
    ⟨"TBS_SNAP_STATE", 0x012050, [], [⟨0, 32, .ro, .n, 0⟩]⟩ ]

/-- Registers of block PMU (R447), part 3. -/
def regRowsPMU2 : List RegRow :=
  [
    ⟨"TBS_SNAP_TS_W", 0x012054, [(3, 0x4)], [⟨0, 32, .ro, .n, 0⟩]⟩ ]

/-- Every register of block PMU (R447). -/
def regRowsPMU : List RegRow := regRowsPMU0 ++ regRowsPMU1 ++ regRowsPMU2

/-- Registers of block HIF (R298), part 1. -/
def regRowsHIF0 : List RegRow :=
  [
    ⟨"HIF_CTRL", 0x020000, [], [⟨0, 1, .wo, .l, 0⟩]⟩,
    ⟨"HIF_STATUS", 0x020004, [], [⟨0, 4, .ro, .n, 0⟩, ⟨4, 4, .ro, .n, 0⟩, ⟨8, 1, .ro, .n, 0⟩, ⟨9, 1, .ro, .n, 0⟩, ⟨24, 1, .w1c, .l, 0⟩]⟩,
    ⟨"HIF_NUM_VF", 0x020008, [], [⟨0, 5, .ro, .n, 0⟩]⟩,
    ⟨"HIF_INFLIGHT", 0x02000C, [], [⟨0, 13, .ro, .n, 0⟩]⟩,
    ⟨"HIF_QP_USED", 0x020010, [], [⟨0, 10, .ro, .n, 0⟩]⟩,
    ⟨"HIF_CTX_USED", 0x020014, [], [⟨0, 13, .ro, .n, 1⟩]⟩,
    ⟨"HIF_DENIED_OFS", 0x020020, [], [⟨0, 24, .ro, .n, 0⟩]⟩,
    ⟨"HIF_DENIED_SRC", 0x020024, [], [⟨0, 5, .ro, .n, 0⟩, ⟨16, 12, .ro, .n, 0⟩]⟩,
    ⟨"HIF_DENIED_COUNT", 0x020028, [], [⟨0, 32, .ro, .n, 0⟩]⟩,
    ⟨"HIF_PATCH", 0x020040, [], [⟨0, 8, .ro, .n, 0⟩, ⟨8, 8, .ro, .n, 0⟩]⟩,
    ⟨"HIF_WIN_BLOCKED", 0x020048, [], [⟨0, 32, .ro, .n, 0⟩]⟩,
    ⟨"HIF_F_WIN", 0x020100, [(17, 0x4)], [⟨0, 11, .rw, .l, 0⟩, ⟨16, 1, .rw, .l, 0⟩, ⟨17, 1, .rw, .l, 0⟩]⟩,
    ⟨"HIF_F_QUOTA", 0x020180, [(17, 0x4)], [⟨0, 10, .rw, .l, 0⟩, ⟨16, 13, .rw, .l, 0⟩]⟩,
    ⟨"HIF_F_EVT_LOST", 0x020200, [(17, 0x4)], [⟨0, 32, .ro, .n, 0⟩]⟩,
    ⟨"HIF_SNAP_STATUS", 0x020300, [], [⟨0, 32, .ro, .n, 0⟩]⟩,
    ⟨"HIF_SNAP_INFLIGHT", 0x020304, [], [⟨0, 32, .ro, .n, 0⟩]⟩ ]

/-- Every register of block HIF (R298). -/
def regRowsHIF : List RegRow := regRowsHIF0

/-- Registers of block ADM (R321), part 1. -/
def regRowsADM0 : List RegRow :=
  [
    ⟨"ADM_STATUS", 0x021000, [], [⟨0, 8, .ro, .n, 0x32⟩, ⟨8, 1, .ro, .n, 0⟩, ⟨9, 1, .ro, .n, 0⟩, ⟨16, 13, .ro, .n, 0⟩]⟩,
    ⟨"ADM_SILO_RES", 0x021004, [], [⟨0, 32, .ro, .n, 0⟩]⟩,
    ⟨"ADM_DRAM_CAP", 0x021008, [], [⟨0, 32, .ro, .n, 0⟩]⟩,
    ⟨"ADM_DRAM_RES", 0x02100C, [], [⟨0, 32, .ro, .n, 0⟩]⟩,
    ⟨"ADM_LINK_CAP", 0x021010, [], [⟨0, 32, .ro, .n, 0⟩]⟩,
    ⟨"ADM_D2H_RES", 0x021014, [], [⟨0, 32, .ro, .n, 0⟩]⟩,
    ⟨"ADM_H2D_RES", 0x021018, [], [⟨0, 32, .ro, .n, 0⟩]⟩,
    ⟨"ADM_UNITS", 0x02101C, [], [⟨0, 4, .ro, .n, 0⟩, ⟨8, 8, .ro, .n, 0⟩, ⟨16, 8, .ro, .n, 0⟩]⟩,
    ⟨"ADM_REFUSED", 0x021020, [], [⟨0, 32, .ro, .n, 0⟩]⟩,
    ⟨"ADM_BROKEN", 0x021024, [], [⟨0, 32, .ro, .n, 0⟩]⟩,
    ⟨"ADM_B_FREE", 0x021040, [(12, 0x4)], [⟨0, 16, .ro, .n, 0⟩, ⟨16, 6, .ro, .n, 0⟩, ⟨24, 1, .ro, .n, 0⟩]⟩ ]

/-- Every register of block ADM (R321). -/
def regRowsADM : List RegRow := regRowsADM0

/-- Registers of block MBX (R345), part 1. -/
def regRowsMBX0 : List RegRow :=
  [
    ⟨"MBX_CTRL", 0x030000, [], [⟨0, 1, .wo, .l, 0⟩]⟩,
    ⟨"MBX_STATUS", 0x030004, [], [⟨24, 1, .w1c, .l, 0⟩]⟩,
    ⟨"MBX_LOCK_FORCE", 0x030008, [], [⟨0, 6, .wo, .l, 0⟩]⟩,
    ⟨"MBX_LOCK_BAD", 0x03000C, [], [⟨0, 32, .ro, .n, 0⟩]⟩,
    ⟨"MBX_LOCK_FORCED", 0x030010, [], [⟨0, 32, .ro, .n, 0⟩]⟩,
    ⟨"MBX_CROSS", 0x030014, [], [⟨0, 32, .ro, .n, 0⟩]⟩,
    ⟨"MBX_LOCK_HELD_LO", 0x030020, [], [⟨0, 32, .ro, .n, 0⟩]⟩,
    ⟨"MBX_LOCK_HELD_HI", 0x030024, [], [⟨0, 32, .ro, .n, 0⟩]⟩,
    ⟨"MBX_SNAP_STATUS", 0x030030, [], [⟨0, 32, .ro, .n, 0⟩]⟩,
    ⟨"MBX_SNAP_HELD_LO", 0x030034, [], [⟨0, 32, .ro, .n, 0⟩]⟩,
    ⟨"MBX_SNAP_HELD_HI", 0x030038, [], [⟨0, 32, .ro, .n, 0⟩]⟩,
    ⟨"MBX_LOCK_TRY", 0x030100, [(64, 0x4)], [⟨0, 8, .rw, .l, 0⟩]⟩,
    ⟨"MBX_LOCK_OWNER", 0x030200, [(64, 0x4)], [⟨0, 8, .ro, .n, 0⟩, ⟨8, 1, .w1c, .l, 0⟩]⟩,
    ⟨"MBX_S_CFG", 0x031000, [(32, 0x100)], [⟨0, 1, .ro, .n, 0⟩, ⟨1, 1, .rw, .l, 0⟩, ⟨2, 1, .rw, .l, 0⟩, ⟨16, 11, .rw, .f, 0⟩]⟩,
    ⟨"MBX_S_STATUS", 0x031004, [(32, 0x100)], [⟨0, 4, .ro, .n, 0⟩, ⟨8, 4, .ro, .n, 0⟩, ⟨12, 1, .ro, .n, 0⟩, ⟨16, 5, .ro, .n, 0⟩, ⟨24, 1, .w1c, .l, 0⟩, ⟨25, 1, .w1c, .l, 0⟩, ⟨26, 1, .w1c, .l, 0⟩, ⟨27, 1, .w1c, .l, 0⟩]⟩,
    ⟨"MBX_S_COUNTS", 0x031008, [(32, 0x100)], [⟨0, 8, .ro, .n, 0⟩, ⟨8, 8, .ro, .n, 0⟩, ⟨16, 8, .ro, .n, 0⟩, ⟨24, 8, .ro, .n, 0⟩]⟩,
    ⟨"MBX_S_DB_F", 0x031010, [(32, 0x100)], [⟨0, 32, .ro, .n, 0⟩]⟩,
    ⟨"MBX_S_DB_F_SET", 0x031014, [(32, 0x100)], [⟨2, 30, .w1s, .l, 0⟩]⟩,
    ⟨"MBX_S_DB_F_CLR", 0x031018, [(32, 0x100)], [⟨0, 32, .w1c, .l, 0⟩]⟩,
    ⟨"MBX_S_DB_F_MASK", 0x03101C, [(32, 0x100)], [⟨0, 32, .rw, .l, 0⟩]⟩ ]

/-- Registers of block MBX (R345), part 2. -/
def regRowsMBX1 : List RegRow :=
  [
    ⟨"MBX_S_DB_H", 0x031020, [(32, 0x100)], [⟨0, 32, .ro, .n, 0⟩]⟩,
    ⟨"MBX_S_DB_H_SET", 0x031024, [(32, 0x100)], [⟨2, 30, .w1s, .l, 0⟩]⟩,
    ⟨"MBX_S_DB_H_CLR", 0x031028, [(32, 0x100)], [⟨0, 32, .w1c, .l, 0⟩]⟩,
    ⟨"MBX_S_DB_H_MASK", 0x03102C, [(32, 0x100)], [⟨0, 32, .rw, .l, 0⟩]⟩,
    ⟨"MBX_S_IN_W", 0x031030, [(32, 0x100), (4, 0x4)], [⟨0, 32, .wo, .l, 0⟩]⟩,
    ⟨"MBX_S_IN_HEAD_W", 0x031040, [(32, 0x100), (4, 0x4)], [⟨0, 32, .ro, .n, 0⟩]⟩,
    ⟨"MBX_S_OUT_W", 0x031050, [(32, 0x100), (4, 0x4)], [⟨0, 32, .wo, .l, 0⟩]⟩,
    ⟨"MBX_S_OUT_HEAD_W", 0x031060, [(32, 0x100), (4, 0x4)], [⟨0, 32, .ro, .n, 0⟩]⟩,
    ⟨"MBX_S_POP", 0x031070, [(32, 0x100)], [⟨0, 1, .wo, .l, 0⟩, ⟨1, 1, .wo, .l, 0⟩]⟩,
    ⟨"MBX_S_WDRAWN_W", 0x031080, [(32, 0x100), (4, 0x4)], [⟨0, 32, .ro, .n, 0⟩]⟩ ]

/-- Every register of block MBX (R345). -/
def regRowsMBX : List RegRow := regRowsMBX0 ++ regRowsMBX1

/-- Registers of block JIN (R65), part 1. -/
def regRowsJIN0 : List RegRow :=
  [
    ⟨"JIN_CTRL", 0x040000, [], [⟨0, 1, .rw, .l, 0⟩, ⟨1, 1, .wo, .l, 0⟩, ⟨4, 3, .rw, .f, 0⟩, ⟨8, 1, .rw, .l, 0⟩]⟩,
    ⟨"JIN_STATUS", 0x040004, [], [⟨0, 12, .ro, .n, 0⟩, ⟨16, 1, .ro, .n, 0⟩, ⟨17, 1, .ro, .n, 0⟩, ⟨24, 1, .w1c, .l, 0⟩]⟩,
    ⟨"JIN_LINK_EN", 0x040008, [], [⟨0, 12, .rw, .f, 0⟩]⟩,
    ⟨"JIN_PARAMS", 0x04000C, [], [⟨0, 1, .rw, .f, 1⟩, ⟨1, 1, .rw, .f, 0⟩, ⟨2, 2, .rw, .f, 0⟩, ⟨4, 3, .rw, .f, 0⟩, ⟨7, 1, .rw, .f, 0⟩, ⟨8, 2, .ro, .n, 3⟩, ⟨16, 6, .ro, .n, 3⟩]⟩,
    ⟨"JIN_LANE_RATE", 0x040010, [], [⟨0, 16, .rw, .f, 0x60ae⟩]⟩,
    ⟨"JIN_RBD", 0x040014, [], [⟨0, 8, .rw, .f, 0⟩]⟩,
    ⟨"JIN_TS_PERIOD_LO", 0x040018, [], [⟨0, 32, .rw, .f, 0⟩]⟩,
    ⟨"JIN_TS_PERIOD_HI", 0x04001C, [], [⟨0, 16, .rw, .f, 1⟩]⟩,
    ⟨"JIN_AGE", 0x040020, [], [⟨0, 32, .ro, .n, 0⟩]⟩,
    ⟨"JIN_ERR_CTRL", 0x040024, [], [⟨0, 16, .rw, .l, 0x10⟩]⟩,
    ⟨"JIN_SYSREF_CTRL", 0x040030, [], [⟨0, 2, .rw, .s, 0⟩, ⟨2, 6, .rw, .s, 0⟩, ⟨8, 8, .rw, .s, 8⟩, ⟨16, 16, .rw, .s, 1⟩]⟩,
    ⟨"JIN_SYSREF_PERIOD", 0x040034, [], [⟨0, 32, .rw, .s, 0x1000⟩]⟩,
    ⟨"JIN_SYSREF_DLY", 0x040038, [], [⟨0, 30, .rw, .s, 0⟩]⟩,
    ⟨"JIN_SYSREF_ISSUE", 0x04003C, [], [⟨0, 1, .wo, .l, 0⟩]⟩,
    ⟨"JIN_SYSREF_LAST_W", 0x040040, [(3, 0x4)], [⟨0, 32, .ro, .n, 0⟩]⟩,
    ⟨"JIN_SNAP_STATUS", 0x040050, [], [⟨0, 32, .ro, .n, 0⟩]⟩,
    ⟨"JIN_SNAP_EMB_LO", 0x040054, [], [⟨0, 32, .ro, .n, 0⟩]⟩,
    ⟨"JIN_SNAP_EMB_HI", 0x040058, [], [⟨0, 32, .ro, .n, 0⟩]⟩,
    ⟨"JIN_EMB_COUNT_LO", 0x040060, [], [⟨0, 32, .ro, .n, 0⟩]⟩,
    ⟨"JIN_EMB_COUNT_HI", 0x040064, [], [⟨0, 32, .ro, .n, 0⟩]⟩ ]

/-- Registers of block JIN (R65), part 2. -/
def regRowsJIN1 : List RegRow :=
  [
    ⟨"JIN_L_CFG", 0x041000, [(12, 0x100)], [⟨0, 1, .rw, .f, 0⟩, ⟨1, 2, .rw, .f, 0⟩, ⟨4, 2, .rw, .f, 0⟩, ⟨8, 8, .rw, .f, 0xe4⟩]⟩,
    ⟨"JIN_L_LAT_COMP", 0x041004, [(12, 0x100)], [⟨0, 32, .rw, .s, 0⟩]⟩,
    ⟨"JIN_L_STATUS", 0x041008, [(12, 0x100)], [⟨0, 2, .ro, .n, 0⟩, ⟨2, 2, .ro, .n, 0⟩, ⟨4, 2, .ro, .n, 0⟩, ⟨8, 1, .ro, .n, 0⟩, ⟨9, 1, .ro, .n, 0⟩, ⟨10, 1, .ro, .n, 0⟩, ⟨11, 1, .ro, .n, 0⟩]⟩,
    ⟨"JIN_L_ARRIVAL", 0x04100C, [(12, 0x100)], [⟨0, 8, .ro, .n, 0⟩, ⟨8, 8, .ro, .n, 0⟩, ⟨16, 8, .ro, .n, 0⟩, ⟨24, 8, .ro, .n, 0⟩]⟩,
    ⟨"JIN_L_CRC_ERR", 0x041010, [(12, 0x100)], [⟨0, 32, .ro, .n, 0⟩]⟩,
    ⟨"JIN_L_SH_ERR", 0x041014, [(12, 0x100)], [⟨0, 32, .ro, .n, 0⟩]⟩,
    ⟨"JIN_L_LOSS", 0x041018, [(12, 0x100)], [⟨0, 16, .ro, .n, 0⟩, ⟨16, 16, .ro, .n, 0⟩]⟩,
    ⟨"JIN_L_FILL", 0x04101C, [(12, 0x100)], [⟨0, 32, .ro, .n, 0⟩]⟩,
    ⟨"JIN_L_TS0_W", 0x041020, [(12, 0x100), (3, 0x4)], [⟨0, 32, .ro, .n, 0⟩]⟩,
    ⟨"JIN_L_PRBS", 0x041030, [(12, 0x100)], [⟨0, 16, .ro, .n, 0⟩, ⟨16, 16, .ro, .n, 0⟩]⟩,
    ⟨"JIN_CSPI_CTRL", 0x043000, [], [⟨0, 3, .rw, .f, 0⟩, ⟨3, 2, .rw, .f, 0⟩, ⟨8, 4, .rw, .f, 1⟩, ⟨16, 6, .rw, .f, 1⟩, ⟨30, 1, .ro, .n, 0⟩, ⟨31, 1, .w1s, .l, 0⟩]⟩,
    ⟨"JIN_CSPI_DATA", 0x043004, [(8, 0x4)], [⟨0, 32, .rw, .f, 0⟩]⟩ ]

/-- Every register of block JIN (R65). -/
def regRowsJIN : List RegRow := regRowsJIN0 ++ regRowsJIN1

/-- Registers of block DFU (R94), part 1. -/
def regRowsDFU0 : List RegRow :=
  [
    ⟨"DFU_CTRL", 0x080000, [(12, 0x4000)], [⟨0, 1, .rw, .f, 0⟩, ⟨1, 1, .wo, .l, 0⟩, ⟨2, 1, .rw, .l, 0⟩]⟩,
    ⟨"DFU_STATUS", 0x080004, [(12, 0x4000)], [⟨0, 4, .ro, .n, 0⟩, ⟨4, 1, .ro, .n, 0⟩, ⟨5, 1, .w1c, .l, 0⟩, ⟨6, 1, .w1c, .l, 0⟩, ⟨8, 1, .ro, .n, 0⟩, ⟨9, 1, .ro, .n, 0⟩, ⟨10, 1, .ro, .n, 0⟩, ⟨12, 3, .ro, .n, 0⟩, ⟨24, 1, .w1c, .l, 0⟩]⟩,
    ⟨"DFU_MODE", 0x080008, [(12, 0x4000)], [⟨0, 3, .rw, .f, 0⟩, ⟨3, 2, .rw, .f, 1⟩, ⟨5, 1, .rw, .f, 0⟩, ⟨8, 5, .rw, .f, 0⟩, ⟨16, 2, .rw, .f, 0⟩, ⟨20, 4, .rw, .f, 0xf⟩]⟩,
    ⟨"DFU_DEC_FACTOR", 0x08000C, [(12, 0x4000)], [⟨0, 21, .rw, .f, 1⟩]⟩,
    ⟨"DFU_SETTLE", 0x080010, [(12, 0x4000)], [⟨0, 32, .ro, .n, 9⟩]⟩,
    ⟨"DFU_GROUP_DELAY", 0x080014, [(12, 0x4000)], [⟨0, 32, .ro, .n, 0⟩]⟩,
    ⟨"DFU_TEMP", 0x080018, [(12, 0x4000)], [⟨0, 16, .rw, .s, 0x190⟩, ⟨16, 16, .ro, .n, 0⟩]⟩,
    ⟨"DFU_SAT_LIMIT", 0x08001C, [(12, 0x4000)], [⟨0, 16, .rw, .l, 0x400⟩]⟩,
    ⟨"DFU_CORR_COMMIT", 0x080020, [], [⟨0, 12, .wo, .l, 0⟩]⟩,
    ⟨"DFU_SYNC", 0x080024, [], [⟨0, 12, .wo, .f, 0⟩]⟩,
    ⟨"DFU_CORR_APPLIED_IDX_LO", 0x080028, [(12, 0x4000)], [⟨0, 32, .ro, .n, 0⟩]⟩,
    ⟨"DFU_CORR_APPLIED_IDX_HI", 0x08002C, [(12, 0x4000)], [⟨0, 32, .ro, .n, 0⟩]⟩,
    ⟨"DFU_CORR_APPLIED_W", 0x080030, [(12, 0x4000), (3, 0x4)], [⟨0, 32, .ro, .n, 0⟩]⟩,
    ⟨"DFU_M_OG", 0x080040, [(12, 0x4000), (4, 0x8)], [⟨0, 16, .rw, .s, 0⟩, ⟨16, 16, .rw, .s, 0x8000⟩]⟩,
    ⟨"DFU_M_SKEW", 0x080044, [(12, 0x4000), (4, 0x8)], [⟨0, 16, .rw, .s, 0⟩, ⟨16, 16, .rw, .s, 0⟩]⟩,
    ⟨"DFU_M_OG_EFF", 0x080060, [(12, 0x4000), (4, 0x8)], [⟨0, 16, .ro, .n, 0⟩, ⟨16, 16, .ro, .n, 0x8000⟩]⟩,
    ⟨"DFU_M_SKEW_EFF", 0x080064, [(12, 0x4000), (4, 0x8)], [⟨0, 16, .ro, .n, 0⟩]⟩,
    ⟨"DFU_M_ACC_SUM_LO", 0x080100, [(12, 0x4000), (4, 0x20)], [⟨0, 32, .ro, .n, 0⟩]⟩,
    ⟨"DFU_M_ACC_SUM_HI", 0x080104, [(12, 0x4000), (4, 0x20)], [⟨0, 32, .ro, .n, 0⟩]⟩,
    ⟨"DFU_M_ACC_SUMSQ_LO", 0x080108, [(12, 0x4000), (4, 0x20)], [⟨0, 32, .ro, .n, 0⟩]⟩ ]

/-- Registers of block DFU (R94), part 2. -/
def regRowsDFU1 : List RegRow :=
  [
    ⟨"DFU_M_ACC_SUMSQ_HI", 0x08010C, [(12, 0x4000), (4, 0x20)], [⟨0, 32, .ro, .n, 0⟩]⟩,
    ⟨"DFU_M_ACC_COUNT", 0x080110, [(12, 0x4000), (4, 0x20)], [⟨0, 32, .ro, .n, 0⟩]⟩,
    ⟨"DFU_M_ACC_COUNT_EXCL", 0x080114, [(12, 0x4000), (4, 0x20)], [⟨0, 32, .ro, .n, 0⟩]⟩,
    ⟨"DFU_RS_CTRL", 0x080200, [(12, 0x4000)], [⟨0, 1, .rw, .f, 0⟩, ⟨1, 3, .rw, .f, 0⟩, ⟨4, 3, .rw, .f, 3⟩, ⟨7, 1, .rw, .f, 1⟩, ⟨8, 4, .rw, .f, 0⟩, ⟨12, 1, .rw, .s, 1⟩]⟩,
    ⟨"DFU_RS_MAXDEV", 0x080204, [(12, 0x4000)], [⟨0, 10, .rw, .s, 0x66⟩]⟩,
    ⟨"DFU_RS_NOMINAL_LO", 0x080208, [(12, 0x4000)], [⟨0, 32, .rw, .s, 0x312d0000⟩]⟩,
    ⟨"DFU_RS_NOMINAL_HI", 0x08020C, [(12, 0x4000)], [⟨0, 8, .rw, .s, 1⟩]⟩,
    ⟨"DFU_RS_STEP_LO", 0x080210, [(12, 0x4000)], [⟨0, 32, .ro, .n, 0⟩]⟩,
    ⟨"DFU_RS_STEP_HI", 0x080214, [(12, 0x4000)], [⟨0, 16, .ro, .n, 0⟩]⟩,
    ⟨"DFU_RS_CYCLE_LO", 0x080218, [(12, 0x4000)], [⟨0, 32, .ro, .n, 0⟩]⟩,
    ⟨"DFU_RS_CYCLE_HI", 0x08021C, [(12, 0x4000)], [⟨0, 32, .ro, .n, 0⟩]⟩,
    ⟨"DFU_RS_START_W", 0x080220, [(12, 0x4000), (3, 0x4)], [⟨0, 32, .ro, .n, 0⟩]⟩,
    ⟨"DFU_RS_COUNTS", 0x080230, [(12, 0x4000)], [⟨0, 16, .ro, .n, 0⟩, ⟨16, 16, .ro, .n, 0⟩]⟩,
    ⟨"DFU_I_SAT", 0x080300, [(12, 0x4000), (4, 0x4)], [⟨0, 32, .ro, .n, 0⟩]⟩,
    ⟨"DFU_TESTGEN", 0x080310, [(12, 0x4000)], [⟨0, 12, .rw, .f, 0⟩, ⟨16, 12, .rw, .f, 1⟩]⟩,
    ⟨"DFU_SNAP_STATUS", 0x080380, [(12, 0x4000)], [⟨0, 32, .ro, .n, 0⟩]⟩,
    ⟨"DFU_SNAP_CYCLE_LO", 0x080384, [(12, 0x4000)], [⟨0, 32, .ro, .n, 0⟩]⟩,
    ⟨"DFU_SNAP_CYCLE_HI", 0x080388, [(12, 0x4000)], [⟨0, 32, .ro, .n, 0⟩]⟩ ]

/-- Every register of block DFU (R94). -/
def regRowsDFU : List RegRow := regRowsDFU0 ++ regRowsDFU1

/-- Registers of block TRG (R130), part 1. -/
def regRowsTRG0 : List RegRow :=
  [
    ⟨"TRG_CTRL", 0x0C0000, [], [⟨0, 1, .rw, .f, 0⟩, ⟨1, 1, .rw, .l, 1⟩, ⟨2, 1, .rw, .f, 0⟩, ⟨4, 4, .rw, .f, 0⟩, ⟨8, 1, .wo, .l, 0⟩]⟩,
    ⟨"TRG_STATUS", 0x0C0004, [], [⟨0, 3, .ro, .n, 0⟩, ⟨4, 4, .ro, .n, 0⟩, ⟨8, 4, .ro, .n, 0⟩, ⟨12, 4, .ro, .n, 0⟩, ⟨16, 4, .ro, .n, 0⟩, ⟨20, 1, .ro, .n, 1⟩, ⟨24, 1, .w1c, .l, 0⟩, ⟨25, 1, .ro, .n, 0⟩]⟩,
    ⟨"TRG_COMMIT", 0x0C0008, [], [⟨0, 1, .wo, .l, 0⟩]⟩,
    ⟨"TRG_ALIGN", 0x0C000C, [], [⟨0, 32, .ro, .n, 0⟩]⟩,
    ⟨"TRG_DIRECT_TN_LO", 0x0C0010, [], [⟨0, 32, .rw, .s, 0⟩]⟩,
    ⟨"TRG_DIRECT_TN_HI", 0x0C0014, [], [⟨0, 32, .rw, .s, 0⟩]⟩,
    ⟨"TRG_DIRECT_BN", 0x0C0018, [], [⟨0, 32, .rw, .s, 0⟩]⟩,
    ⟨"TRG_LAST_W", 0x0C0020, [(3, 0x4)], [⟨0, 32, .ro, .n, 0⟩]⟩,
    ⟨"TRG_LAST_CAUSE", 0x0C002C, [], [⟨0, 8, .ro, .n, 0⟩, ⟨8, 1, .ro, .n, 0⟩, ⟨9, 1, .ro, .n, 0⟩, ⟨10, 1, .ro, .n, 0⟩]⟩,
    ⟨"TRG_DECISIONS_LO", 0x0C0030, [], [⟨0, 32, .ro, .n, 0⟩]⟩,
    ⟨"TRG_DECISIONS_HI", 0x0C0034, [], [⟨0, 32, .ro, .n, 0⟩]⟩,
    ⟨"TRG_LATE", 0x0C0038, [], [⟨0, 32, .ro, .n, 0⟩]⟩,
    ⟨"TRG_MERGE", 0x0C003C, [], [⟨0, 32, .ro, .n, 0⟩]⟩,
    ⟨"TRG_SKIP", 0x0C0040, [], [⟨0, 32, .ro, .n, 0⟩]⟩,
    ⟨"TRG_DISCARD", 0x0C0044, [], [⟨0, 32, .ro, .n, 0⟩]⟩,
    ⟨"TRG_ARM_W", 0x0C0050, [(3, 0x4)], [⟨0, 32, .ro, .n, 0⟩]⟩,
    ⟨"TRG_APPLIED_W", 0x0C005C, [(3, 0x4)], [⟨0, 32, .ro, .n, 0⟩]⟩,
    ⟨"TRG_OUT_CTRL", 0x0C0070, [], [⟨0, 3, .rw, .l, 0⟩, ⟨3, 1, .rw, .l, 0⟩, ⟨4, 1, .rw, .l, 0⟩, ⟨5, 1, .rw, .l, 0⟩, ⟨8, 6, .rw, .l, 0⟩]⟩,
    ⟨"TRG_OUT_WIDTH", 0x0C0074, [], [⟨0, 24, .rw, .l, 0x64⟩]⟩,
    ⟨"TRG_OUT_LAT", 0x0C0078, [], [⟨0, 24, .rw, .l, 0xa00⟩]⟩ ]

/-- Registers of block TRG (R130), part 2. -/
def regRowsTRG1 : List RegRow :=
  [
    ⟨"TRG_OUT_COUNTS", 0x0C007C, [], [⟨0, 16, .ro, .n, 0⟩, ⟨16, 16, .ro, .n, 0⟩]⟩,
    ⟨"TRG_SNAP_STATUS", 0x0C0080, [], [⟨0, 32, .ro, .n, 0⟩]⟩,
    ⟨"TRG_SNAP_DEC_LO", 0x0C0084, [], [⟨0, 32, .ro, .n, 0⟩]⟩,
    ⟨"TRG_SNAP_DEC_HI", 0x0C0088, [], [⟨0, 32, .ro, .n, 0⟩]⟩,
    ⟨"TRG_CT_LIMIT", 0x0C0100, [(4, 0x10)], [⟨0, 32, .rw, .f, 1⟩]⟩,
    ⟨"TRG_CT_VALUE", 0x0C0104, [(4, 0x10)], [⟨0, 32, .ro, .n, 0⟩]⟩,
    ⟨"TRG_TM_LIMIT_LO", 0x0C0140, [(4, 0x10)], [⟨0, 32, .rw, .f, 0⟩]⟩,
    ⟨"TRG_TM_LIMIT_HI", 0x0C0144, [(4, 0x10)], [⟨0, 16, .rw, .f, 0⟩]⟩,
    ⟨"TRG_TM_VALUE_LO", 0x0C0148, [(4, 0x10)], [⟨0, 32, .ro, .n, 0⟩]⟩,
    ⟨"TRG_TM_VALUE_HI", 0x0C014C, [(4, 0x10)], [⟨0, 16, .ro, .n, 0⟩]⟩,
    ⟨"TN_CFG", 0x0C1000, [(64, 0x40)], [⟨0, 4, .rw, .f, 0⟩, ⟨4, 2, .rw, .f, 0⟩, ⟨6, 3, .rw, .f, 0⟩, ⟨16, 8, .rw, .f, 0⟩]⟩,
    ⟨"TN_LEVEL", 0x0C1004, [(64, 0x40)], [⟨0, 16, .rw, .s, 0⟩, ⟨16, 16, .rw, .s, 0⟩]⟩,
    ⟨"TN_HYST", 0x0C1008, [(64, 0x40)], [⟨0, 16, .rw, .s, 0⟩]⟩,
    ⟨"TN_TMIN_LO", 0x0C100C, [(64, 0x40)], [⟨0, 32, .rw, .s, 0⟩]⟩,
    ⟨"TN_TMIN_HI", 0x0C1010, [(64, 0x40)], [⟨0, 16, .rw, .s, 0⟩]⟩,
    ⟨"TN_TMAX_LO", 0x0C1014, [(64, 0x40)], [⟨0, 32, .rw, .s, 0⟩]⟩,
    ⟨"TN_TMAX_HI", 0x0C1018, [(64, 0x40)], [⟨0, 16, .rw, .s, 0⟩]⟩,
    ⟨"TN_PMASK_LO", 0x0C101C, [(64, 0x40)], [⟨0, 32, .rw, .f, 0⟩]⟩,
    ⟨"TN_PMASK_HI", 0x0C1020, [(64, 0x40)], [⟨0, 32, .rw, .f, 0⟩]⟩,
    ⟨"TN_PVAL_LO", 0x0C1024, [(64, 0x40)], [⟨0, 32, .rw, .f, 0⟩]⟩ ]

/-- Registers of block TRG (R130), part 3. -/
def regRowsTRG2 : List RegRow :=
  [
    ⟨"TN_PVAL_HI", 0x0C1028, [(64, 0x40)], [⟨0, 32, .rw, .f, 0⟩]⟩,
    ⟨"TN_COUNT", 0x0C102C, [(64, 0x40)], [⟨0, 32, .ro, .n, 0⟩]⟩,
    ⟨"TN_STATE", 0x0C1030, [(64, 0x40)], [⟨0, 1, .ro, .n, 0⟩, ⟨1, 1, .ro, .n, 0⟩, ⟨2, 1, .ro, .n, 0⟩, ⟨3, 1, .ro, .n, 0⟩, ⟨4, 1, .ro, .n, 0⟩, ⟨5, 1, .ro, .n, 0⟩, ⟨6, 1, .ro, .n, 0⟩]⟩,
    ⟨"TN_LEVEL_EFF", 0x0C1034, [(64, 0x40)], [⟨0, 32, .ro, .n, 0⟩]⟩,
    ⟨"HS_CTRL", 0x0C2000, [(16, 0x40)], [⟨0, 1, .rw, .f, 1⟩]⟩,
    ⟨"HS_B_TERMS", 0x0C2010, [(16, 0x40), (2, 0x10)], [⟨0, 8, .rw, .f, 0xff⟩, ⟨8, 8, .rw, .f, 0xff⟩, ⟨16, 8, .rw, .f, 0xff⟩, ⟨24, 8, .rw, .f, 0xff⟩]⟩,
    ⟨"HS_B_LOGIC", 0x0C2014, [(16, 0x40), (2, 0x10)], [⟨0, 4, .rw, .f, 0⟩, ⟨4, 2, .rw, .f, 0⟩, ⟨8, 1, .rw, .f, 0⟩]⟩,
    ⟨"HS_B_ACTION", 0x0C2018, [(16, 0x40), (2, 0x10)], [⟨0, 4, .rw, .f, 0⟩, ⟨4, 1, .rw, .f, 0⟩, ⟨5, 1, .rw, .f, 0⟩, ⟨6, 1, .rw, .f, 0⟩, ⟨7, 1, .rw, .f, 0⟩, ⟨8, 4, .rw, .f, 0⟩, ⟨12, 4, .rw, .f, 0⟩, ⟨16, 4, .rw, .f, 0⟩, ⟨20, 4, .rw, .f, 0⟩]⟩ ]

/-- Every register of block TRG (R130). -/
def regRowsTRG : List RegRow := regRowsTRG0 ++ regRowsTRG1 ++ regRowsTRG2

/-- Registers of block PLC (R157), part 1. -/
def regRowsPLC0 : List RegRow :=
  [
    ⟨"TRG_PLACE", 0x0C8000, [], [⟨0, 1, .rw, .f, 1⟩, ⟨1, 1, .rw, .f, 0⟩, ⟨2, 1, .rw, .f, 0⟩, ⟨3, 1, .rw, .f, 0⟩]⟩,
    ⟨"TRG_PRE_LO", 0x0C8004, [], [⟨0, 32, .rw, .s, 0⟩]⟩,
    ⟨"TRG_PRE_HI", 0x0C8008, [], [⟨0, 12, .rw, .s, 0⟩]⟩,
    ⟨"TRG_POST_LO", 0x0C800C, [], [⟨0, 32, .rw, .s, 0x3e8⟩]⟩,
    ⟨"TRG_POST_HI", 0x0C8010, [], [⟨0, 12, .rw, .s, 0⟩]⟩,
    ⟨"TRG_HOLD_NS_LO", 0x0C8014, [], [⟨0, 32, .rw, .s, 0⟩]⟩,
    ⟨"TRG_HOLD_NS_HI", 0x0C8018, [], [⟨0, 12, .rw, .s, 0⟩]⟩,
    ⟨"TRG_HOLD_EV", 0x0C801C, [], [⟨0, 16, .rw, .s, 0⟩]⟩,
    ⟨"TRG_SEG_LIMIT", 0x0C8020, [], [⟨0, 25, .rw, .f, 0⟩]⟩,
    ⟨"TRG_SEG_COUNT", 0x0C8024, [], [⟨0, 25, .ro, .n, 0⟩]⟩,
    ⟨"TRG_HOLD_COUNT", 0x0C8028, [], [⟨0, 32, .ro, .n, 0⟩]⟩,
    ⟨"TRG_OVL_COUNT", 0x0C802C, [], [⟨0, 32, .ro, .n, 0⟩]⟩,
    ⟨"TRG_OVL_LATE", 0x0C8030, [], [⟨0, 32, .ro, .n, 0⟩]⟩,
    ⟨"TRG_ORDER", 0x0C8034, [], [⟨0, 32, .ro, .n, 0⟩]⟩,
    ⟨"TRG_COINCIDENT", 0x0C8038, [], [⟨0, 32, .ro, .n, 0⟩]⟩,
    ⟨"TRG_OVL_WAIT", 0x0C803C, [], [⟨0, 32, .ro, .n, 0⟩]⟩,
    ⟨"TRG_SEG_W", 0x0C8040, [(3, 0x4)], [⟨0, 32, .ro, .n, 0⟩]⟩,
    ⟨"TRG_SEG_CAUSE", 0x0C804C, [], [⟨0, 8, .ro, .n, 0⟩, ⟨8, 7, .ro, .n, 0⟩]⟩,
    ⟨"TRG_RETAIN_NEED", 0x0C8050, [], [⟨0, 32, .ro, .n, 0⟩]⟩,
    ⟨"TRG_GRANARY_SPAN", 0x0C8054, [], [⟨0, 32, .ro, .n, 0⟩]⟩ ]

/-- Registers of block PLC (R157), part 2. -/
def regRowsPLC1 : List RegRow :=
  [
    ⟨"TRG_SILO_SPAN", 0x0C8058, [], [⟨0, 32, .ro, .n, 0⟩]⟩,
    ⟨"TRG_RETAIN_STATUS", 0x0C805C, [], [⟨0, 1, .ro, .n, 0⟩, ⟨1, 1, .ro, .n, 0⟩, ⟨2, 1, .ro, .n, 0⟩]⟩,
    ⟨"TRG_HOLD_END_W", 0x0C8060, [(3, 0x4)], [⟨0, 32, .ro, .n, 0⟩]⟩,
    ⟨"TRG_SNAP_SEG", 0x0C8080, [], [⟨0, 25, .ro, .n, 0⟩]⟩,
    ⟨"BN_CFG", 0x0C9000, [(32, 0x40)], [⟨0, 3, .rw, .f, 0⟩, ⟨4, 2, .rw, .f, 0⟩, ⟨6, 2, .rw, .f, 0⟩, ⟨16, 16, .rw, .f, 1⟩]⟩,
    ⟨"BN_LEVEL_A", 0x0C9004, [(32, 0x40)], [⟨0, 32, .rw, .s, 0⟩]⟩,
    ⟨"BN_LEVEL_B", 0x0C9008, [(32, 0x40)], [⟨0, 32, .rw, .s, 0⟩]⟩,
    ⟨"BN_HYST", 0x0C900C, [(32, 0x40)], [⟨0, 32, .rw, .s, 0⟩]⟩,
    ⟨"BN_LAT", 0x0C9010, [(32, 0x40)], [⟨0, 24, .rw, .f, 0xc8⟩]⟩,
    ⟨"BN_WLEN_MAX", 0x0C9014, [(32, 0x40)], [⟨0, 32, .rw, .f, 0x4e20⟩]⟩,
    ⟨"BN_VALUE", 0x0C9018, [(32, 0x40)], [⟨0, 32, .ro, .n, 0⟩]⟩,
    ⟨"BN_WEND_W", 0x0C901C, [(32, 0x40), (3, 0x4)], [⟨0, 32, .ro, .n, 0⟩]⟩,
    ⟨"BN_STATE", 0x0C9028, [(32, 0x40)], [⟨0, 1, .ro, .n, 0⟩, ⟨1, 1, .ro, .n, 0⟩, ⟨2, 1, .ro, .n, 0⟩, ⟨3, 1, .ro, .n, 0⟩, ⟨4, 1, .ro, .n, 0⟩, ⟨8, 8, .ro, .n, 0⟩, ⟨16, 16, .ro, .n, 0⟩]⟩,
    ⟨"BN_COUNT", 0x0C902C, [(32, 0x40)], [⟨0, 32, .ro, .n, 0⟩]⟩,
    ⟨"BN_LATE", 0x0C9030, [(32, 0x40)], [⟨0, 32, .ro, .n, 0⟩]⟩,
    ⟨"BN_DROP", 0x0C9034, [(32, 0x40)], [⟨0, 16, .ro, .n, 0⟩, ⟨16, 16, .ro, .n, 0⟩]⟩,
    ⟨"BN_LEVEL_A_EFF", 0x0C9038, [(32, 0x40)], [⟨0, 32, .ro, .n, 0⟩]⟩,
    ⟨"BN_LEVEL_B_EFF", 0x0C903C, [(32, 0x40)], [⟨0, 32, .ro, .n, 0⟩]⟩,
    ⟨"BN_HYST_EFF", 0x0CA000, [(32, 0x4)], [⟨0, 32, .ro, .n, 0⟩]⟩ ]

/-- Every register of block PLC (R157). -/
def regRowsPLC : List RegRow := regRowsPLC0 ++ regRowsPLC1

/-- Registers of block TIM (R182), part 1. -/
def regRowsTIM0 : List RegRow :=
  [
    ⟨"TIM_CTRL", 0x0E0000, [], [⟨0, 1, .rw, .l, 0⟩, ⟨1, 1, .wo, .l, 0⟩]⟩,
    ⟨"TIM_STATUS", 0x0E0004, [], [⟨0, 1, .ro, .n, 0⟩, ⟨1, 1, .ro, .n, 0⟩, ⟨2, 1, .ro, .n, 0⟩, ⟨3, 1, .ro, .n, 0⟩, ⟨24, 1, .w1c, .l, 0⟩]⟩,
    ⟨"TIM_LEVEL_LO", 0x0E0008, [], [⟨0, 32, .ro, .n, 0⟩]⟩,
    ⟨"TIM_LEVEL_HI", 0x0E000C, [], [⟨0, 32, .ro, .n, 0⟩]⟩,
    ⟨"TIM_STORE_ALIGN", 0x0E0010, [], [⟨0, 32, .ro, .n, 0⟩]⟩,
    ⟨"TIM_GROUP_COAL", 0x0E0014, [], [⟨0, 32, .rw, .f, 0⟩]⟩,
    ⟨"TIM_STORED_LO", 0x0E0018, [], [⟨0, 32, .ro, .n, 0⟩]⟩,
    ⟨"TIM_STORED_HI", 0x0E001C, [], [⟨0, 32, .ro, .n, 0⟩]⟩,
    ⟨"TIM_CAL_STATUS", 0x0E0020, [], [⟨0, 16, .ro, .n, 0xffff⟩, ⟨16, 16, .ro, .n, 0⟩]⟩,
    ⟨"TIM_SNAP_STATUS", 0x0E0030, [], [⟨0, 32, .ro, .n, 0⟩]⟩,
    ⟨"TIM_SNAP_STORED_LO", 0x0E0034, [], [⟨0, 32, .ro, .n, 0⟩]⟩,
    ⟨"TIM_SNAP_STORED_HI", 0x0E0038, [], [⟨0, 32, .ro, .n, 0⟩]⟩,
    ⟨"TIM_IN_CFG", 0x0E1000, [(65, 0x20)], [⟨0, 1, .rw, .f, 0⟩, ⟨1, 1, .rw, .f, 0⟩, ⟨2, 12, .rw, .f, 0⟩, ⟨16, 2, .rw, .s, 0⟩]⟩,
    ⟨"TIM_IN_SKEW", 0x0E1004, [(65, 0x20)], [⟨0, 12, .rw, .f, 0⟩]⟩,
    ⟨"TIM_IN_BUCKET", 0x0E1008, [(65, 0x20)], [⟨0, 8, .rw, .s, 0xfa⟩, ⟨16, 13, .rw, .s, 0x100⟩]⟩,
    ⟨"TIM_IN_EDGES", 0x0E100C, [(65, 0x20)], [⟨0, 32, .ro, .n, 0⟩]⟩,
    ⟨"TIM_IN_LOST", 0x0E1010, [(65, 0x20)], [⟨0, 32, .ro, .n, 0⟩]⟩,
    ⟨"TIM_IN_UNSTORED", 0x0E1014, [(65, 0x20)], [⟨0, 32, .ro, .n, 0⟩]⟩,
    ⟨"TIM_IN_GLITCH", 0x0E1018, [(65, 0x20)], [⟨0, 32, .ro, .n, 0⟩]⟩,
    ⟨"TIM_VE_CFG", 0x0E2000, [(16, 0x20)], [⟨0, 8, .rw, .f, 0⟩, ⟨8, 1, .rw, .f, 0⟩, ⟨9, 1, .rw, .f, 1⟩, ⟨16, 2, .rw, .s, 0⟩]⟩ ]

/-- Registers of block TIM (R182), part 2. -/
def regRowsTIM1 : List RegRow :=
  [
    ⟨"TIM_VE_LEVEL", 0x0E2004, [(16, 0x20)], [⟨0, 16, .rw, .f, 0⟩, ⟨16, 16, .rw, .f, 0⟩]⟩,
    ⟨"TIM_VE_BUCKET", 0x0E2008, [(16, 0x20)], [⟨0, 8, .rw, .s, 0xfa⟩, ⟨16, 13, .rw, .s, 0x100⟩]⟩,
    ⟨"TIM_VE_EDGES", 0x0E200C, [(16, 0x20)], [⟨0, 32, .ro, .n, 0⟩]⟩,
    ⟨"TIM_FP_CFG", 0x0E3000, [(8, 0x20)], [⟨0, 1, .rw, .f, 0⟩, ⟨1, 1, .rw, .f, 0⟩, ⟨8, 7, .rw, .f, 0⟩, ⟨16, 8, .rw, .f, 0x40⟩]⟩,
    ⟨"TIM_FP_P_LO", 0x0E3004, [(8, 0x20)], [⟨0, 32, .ro, .n, 0⟩]⟩,
    ⟨"TIM_FP_P_HI", 0x0E3008, [(8, 0x20)], [⟨0, 8, .ro, .n, 0⟩]⟩,
    ⟨"TIM_FP_E_W", 0x0E300C, [(8, 0x20), (3, 0x4)], [⟨0, 32, .ro, .n, 0⟩]⟩,
    ⟨"TIM_FP_COUNT", 0x0E3018, [(8, 0x20)], [⟨0, 32, .ro, .n, 0⟩]⟩,
    ⟨"TIM_FP_BLANKED", 0x0E301C, [(8, 0x20)], [⟨0, 32, .ro, .n, 0⟩]⟩,
    ⟨"TIM_MU_CFG", 0x0E4000, [(16, 0x80)], [⟨0, 1, .rw, .l, 0⟩, ⟨1, 3, .rw, .f, 0⟩, ⟨4, 2, .rw, .f, 0⟩, ⟨8, 7, .rw, .f, 0⟩, ⟨16, 2, .rw, .f, 0⟩, ⟨18, 7, .rw, .f, 0⟩, ⟨25, 2, .rw, .f, 0⟩]⟩,
    ⟨"TIM_MU_WIN", 0x0E4004, [(16, 0x80)], [⟨0, 7, .rw, .f, 0⟩]⟩,
    ⟨"TIM_MU_GATE_NS", 0x0E4008, [(16, 0x80)], [⟨0, 32, .rw, .f, 0xf4240⟩]⟩,
    ⟨"TIM_MU_GATE_N", 0x0E400C, [(16, 0x80)], [⟨0, 32, .rw, .f, 1⟩]⟩,
    ⟨"TIM_MU_STATUS", 0x0E4010, [(16, 0x80)], [⟨0, 5, .ro, .n, 0⟩, ⟨16, 16, .ro, .n, 0⟩]⟩,
    ⟨"TIM_MU_RES_FLAGS", 0x0E4014, [(16, 0x80)], [⟨0, 1, .ro, .n, 0⟩, ⟨1, 1, .ro, .n, 0⟩, ⟨2, 1, .ro, .n, 0⟩, ⟨16, 16, .ro, .n, 0⟩]⟩,
    ⟨"TIM_MU_RES_VALUE_LO", 0x0E4018, [(16, 0x80)], [⟨0, 32, .ro, .n, 0⟩]⟩,
    ⟨"TIM_MU_RES_VALUE_HI", 0x0E401C, [(16, 0x80)], [⟨0, 32, .ro, .n, 0⟩]⟩,
    ⟨"TIM_MU_RES_N", 0x0E4020, [(16, 0x80)], [⟨0, 32, .ro, .n, 0⟩]⟩,
    ⟨"TIM_MU_RES_SUM_LO", 0x0E4024, [(16, 0x80)], [⟨0, 32, .ro, .n, 0⟩]⟩,
    ⟨"TIM_MU_RES_SUM_HI", 0x0E4028, [(16, 0x80)], [⟨0, 32, .ro, .n, 0⟩]⟩ ]

/-- Registers of block TIM (R182), part 3. -/
def regRowsTIM2 : List RegRow :=
  [
    ⟨"TIM_MU_RES_SUM2_LO", 0x0E402C, [(16, 0x80)], [⟨0, 32, .ro, .n, 0⟩]⟩,
    ⟨"TIM_MU_RES_SUM2_HI", 0x0E4030, [(16, 0x80)], [⟨0, 32, .ro, .n, 0⟩]⟩,
    ⟨"TIM_MU_RES_MIN_LO", 0x0E4034, [(16, 0x80)], [⟨0, 32, .ro, .n, 0⟩]⟩,
    ⟨"TIM_MU_RES_MIN_HI", 0x0E4038, [(16, 0x80)], [⟨0, 16, .ro, .n, 0⟩]⟩,
    ⟨"TIM_MU_RES_MAX_LO", 0x0E403C, [(16, 0x80)], [⟨0, 32, .ro, .n, 0⟩]⟩,
    ⟨"TIM_MU_RES_MAX_HI", 0x0E4040, [(16, 0x80)], [⟨0, 16, .ro, .n, 0⟩]⟩,
    ⟨"TIM_MU_RES_END_W", 0x0E4044, [(16, 0x80), (3, 0x4)], [⟨0, 32, .ro, .n, 0⟩]⟩,
    ⟨"TIM_MU_RES_POP", 0x0E4050, [(16, 0x80)], [⟨0, 1, .wo, .l, 0⟩]⟩ ]

/-- Every register of block TIM (R182). -/
def regRowsTIM : List RegRow := regRowsTIM0 ++ regRowsTIM1 ++ regRowsTIM2

/-- Registers of block CAP (R211), part 1. -/
def regRowsCAP0 : List RegRow :=
  [
    ⟨"CAP_CTRL", 0x100000, [], [⟨0, 1, .rw, .f, 1⟩, ⟨1, 1, .rw, .l, 0⟩, ⟨2, 1, .wo, .l, 0⟩]⟩,
    ⟨"CAP_STATUS", 0x100004, [], [⟨0, 3, .ro, .n, 0⟩, ⟨3, 1, .ro, .n, 0⟩, ⟨4, 1, .ro, .n, 0⟩, ⟨5, 1, .ro, .n, 0⟩, ⟨6, 1, .ro, .n, 0⟩, ⟨24, 1, .w1c, .l, 0⟩]⟩,
    ⟨"CAP_CAPTURE", 0x100008, [], [⟨0, 16, .ro, .n, 0⟩]⟩,
    ⟨"CAP_SILO_BASE", 0x10000C, [], [⟨0, 20, .rw, .f, 0⟩]⟩,
    ⟨"CAP_SILO_PAGES", 0x100010, [], [⟨0, 21, .rw, .f, 0⟩]⟩,
    ⟨"CAP_META_BASE", 0x100014, [], [⟨0, 20, .rw, .f, 0⟩]⟩,
    ⟨"CAP_SEG_ENTRIES", 0x100018, [], [⟨0, 5, .rw, .f, 0x10⟩]⟩,
    ⟨"CAP_MARK_PAGES", 0x10001C, [], [⟨0, 16, .rw, .f, 0x40⟩]⟩,
    ⟨"CAP_PIN_LIMIT", 0x100020, [], [⟨0, 7, .rw, .l, 0x4b⟩]⟩,
    ⟨"CAP_GR_HOLD_MAX", 0x100024, [], [⟨0, 6, .rw, .l, 0x14⟩]⟩,
    ⟨"CAP_STORE_LO", 0x100028, [], [⟨0, 32, .rw, .s, 0⟩]⟩,
    ⟨"CAP_STORE_HI", 0x10002C, [], [⟨0, 16, .rw, .s, 0⟩, ⟨16, 1, .rw, .s, 0⟩]⟩,
    ⟨"CAP_FLUSH_RATE", 0x100030, [], [⟨0, 9, .rw, .l, 0xc0⟩]⟩,
    ⟨"CAP_HEARTBEAT", 0x100034, [], [⟨0, 24, .rw, .l, 0x3e8⟩]⟩,
    ⟨"CAP_GRANARY_RATE", 0x100038, [], [⟨0, 32, .ro, .n, 0⟩]⟩,
    ⟨"CAP_SILO_RATE", 0x10003C, [], [⟨0, 32, .ro, .n, 0⟩]⟩,
    ⟨"CAP_GRANARY_SPAN", 0x100040, [], [⟨0, 32, .ro, .n, 0⟩]⟩,
    ⟨"CAP_SILO_SPAN", 0x100044, [], [⟨0, 32, .ro, .n, 0⟩]⟩,
    ⟨"CAP_PINNED", 0x100048, [], [⟨0, 21, .ro, .n, 0⟩]⟩,
    ⟨"CAP_CLAIMS", 0x10004C, [], [⟨0, 17, .ro, .n, 0⟩]⟩ ]

/-- Registers of block CAP (R211), part 2. -/
def regRowsCAP1 : List RegRow :=
  [
    ⟨"CAP_HELD", 0x100050, [], [⟨0, 5, .ro, .n, 0⟩, ⟨16, 14, .ro, .n, 0⟩]⟩,
    ⟨"CAP_SILO_GAP", 0x100054, [], [⟨0, 32, .ro, .n, 0⟩]⟩,
    ⟨"CAP_SEG_DROPPED", 0x100058, [], [⟨0, 32, .ro, .n, 0⟩]⟩,
    ⟨"CAP_UNPINNED", 0x10005C, [], [⟨0, 32, .ro, .n, 0⟩]⟩,
    ⟨"CAP_MARK_LOST", 0x100060, [], [⟨0, 32, .ro, .n, 0⟩]⟩,
    ⟨"CAP_FLUSH_LOST", 0x100064, [], [⟨0, 32, .ro, .n, 0⟩]⟩,
    ⟨"CAP_HELD_LOST", 0x100068, [], [⟨0, 32, .ro, .n, 0⟩]⟩,
    ⟨"CAP_FLUSH_W", 0x100070, [(3, 0x4)], [⟨0, 32, .ro, .n, 0⟩]⟩,
    ⟨"CAP_CATCHUP", 0x10007C, [], [⟨0, 32, .ro, .n, 0⟩]⟩,
    ⟨"CAP_RES_RATE", 0x100080, [(16, 0x4)], [⟨0, 16, .rw, .f, 0⟩]⟩,
    ⟨"CAP_SNAP_STATUS", 0x1000C0, [], [⟨0, 32, .ro, .n, 0⟩]⟩,
    ⟨"CAP_SNAP_PINNED", 0x1000C4, [], [⟨0, 32, .ro, .n, 0⟩]⟩,
    ⟨"CAP_ST_PAGES", 0x101000, [(80, 0x10)], [⟨0, 21, .ro, .n, 0⟩]⟩,
    ⟨"CAP_ST_GR_BYTES", 0x101004, [(80, 0x10)], [⟨0, 26, .ro, .n, 0⟩]⟩,
    ⟨"CAP_ST_CUR_PAGE", 0x101008, [(80, 0x10)], [⟨0, 20, .ro, .n, 0⟩]⟩,
    ⟨"CAP_ST_LAG", 0x10100C, [(80, 0x10)], [⟨0, 24, .ro, .n, 0⟩]⟩ ]

/-- Every register of block CAP (R211). -/
def regRowsCAP : List RegRow := regRowsCAP0 ++ regRowsCAP1

/-- Registers of block ENG (R241), part 1. -/
def regRowsENG0 : List RegRow :=
  [
    ⟨"ENG_CTRL", 0x120000, [(12, 0x10000)], [⟨0, 1, .rw, .f, 1⟩, ⟨1, 3, .rw, .f, 7⟩, ⟨4, 1, .wo, .l, 0⟩]⟩,
    ⟨"ENG_STATUS", 0x120004, [(12, 0x10000)], [⟨0, 8, .ro, .n, 0⟩, ⟨8, 8, .ro, .n, 0⟩, ⟨16, 3, .ro, .n, 7⟩, ⟨19, 1, .ro, .n, 1⟩, ⟨20, 1, .ro, .n, 0⟩, ⟨21, 1, .ro, .n, 0⟩, ⟨22, 1, .ro, .n, 0⟩, ⟨24, 1, .w1c, .l, 0⟩]⟩,
    ⟨"ENG_MIRROR_USED", 0x120010, [(12, 0x10000)], [⟨0, 19, .ro, .n, 0⟩]⟩,
    ⟨"ENG_MIRROR_LIMIT", 0x120014, [(12, 0x10000)], [⟨0, 19, .rw, .f, 0x70000⟩]⟩,
    ⟨"ENG_CE_LIMIT", 0x120018, [(12, 0x10000)], [⟨0, 16, .rw, .l, 0x10⟩]⟩,
    ⟨"ENG_COMMITS_LO", 0x120020, [(12, 0x10000)], [⟨0, 32, .ro, .n, 0⟩]⟩,
    ⟨"ENG_COMMITS_HI", 0x120024, [(12, 0x10000)], [⟨0, 32, .ro, .n, 0⟩]⟩,
    ⟨"ENG_DUP", 0x120028, [(12, 0x10000)], [⟨0, 32, .ro, .n, 0⟩]⟩,
    ⟨"ENG_RETRIED", 0x12002C, [(12, 0x10000)], [⟨0, 32, .ro, .n, 0⟩]⟩,
    ⟨"ENG_INPUT_LOST", 0x120030, [(12, 0x10000)], [⟨0, 32, .ro, .n, 0⟩]⟩,
    ⟨"ENG_FEED_OVERRUN", 0x120034, [(12, 0x10000)], [⟨0, 32, .ro, .n, 0⟩]⟩,
    ⟨"ENG_RES_LOST", 0x120038, [(12, 0x10000)], [⟨0, 32, .ro, .n, 0⟩]⟩,
    ⟨"ENG_SNAP_STATUS", 0x120040, [(12, 0x10000)], [⟨0, 32, .ro, .n, 0⟩]⟩,
    ⟨"ENG_SNAP_COMMITS_LO", 0x120044, [(12, 0x10000)], [⟨0, 32, .ro, .n, 0⟩]⟩,
    ⟨"ENG_SNAP_COMMITS_HI", 0x120048, [(12, 0x10000)], [⟨0, 32, .ro, .n, 0⟩]⟩,
    ⟨"ENG_FEED", 0x120100, [(12, 0x10000), (16, 0x4)], [⟨0, 8, .ro, .n, 0⟩, ⟨8, 8, .ro, .n, 0⟩, ⟨16, 1, .ro, .n, 0⟩, ⟨17, 1, .ro, .n, 0⟩, ⟨18, 1, .ro, .n, 0⟩]⟩,
    ⟨"ENG_E_STATUS", 0x121000, [(12, 0x10000), (8, 0x100)], [⟨0, 3, .ro, .n, 0⟩, ⟨3, 3, .ro, .n, 0⟩, ⟨8, 8, .ro, .n, 0⟩, ⟨16, 8, .ro, .n, 0⟩]⟩,
    ⟨"ENG_E_LOAD", 0x121004, [(12, 0x10000), (8, 0x100)], [⟨0, 24, .ro, .n, 0⟩]⟩,
    ⟨"ENG_E_BUSY_LO", 0x121008, [(12, 0x10000), (8, 0x100)], [⟨0, 32, .ro, .n, 0⟩]⟩,
    ⟨"ENG_E_BUSY_HI", 0x12100C, [(12, 0x10000), (8, 0x100)], [⟨0, 32, .ro, .n, 0⟩]⟩ ]

/-- Registers of block ENG (R241), part 2. -/
def regRowsENG1 : List RegRow :=
  [
    ⟨"ENG_E_JOBS", 0x121010, [(12, 0x10000), (8, 0x100)], [⟨0, 32, .ro, .n, 0⟩]⟩,
    ⟨"ENG_E_CE", 0x121014, [(12, 0x10000), (8, 0x100)], [⟨0, 16, .ro, .n, 0⟩, ⟨16, 16, .ro, .n, 0⟩]⟩,
    ⟨"ENG_E_FENCE_CAUSE", 0x121018, [(12, 0x10000), (8, 0x100)], [⟨0, 8, .ro, .n, 0⟩, ⟨8, 1, .ro, .n, 0⟩, ⟨16, 8, .ro, .n, 0⟩]⟩,
    ⟨"ENG_E_FENCE_W", 0x12101C, [(12, 0x10000), (8, 0x100), (3, 0x4)], [⟨0, 32, .ro, .n, 0⟩]⟩,
    ⟨"ENG_E_CUR", 0x121028, [(12, 0x10000), (8, 0x100)], [⟨0, 16, .ro, .n, 0⟩, ⟨16, 4, .ro, .n, 0⟩]⟩ ]

/-- Every register of block ENG (R241). -/
def regRowsENG : List RegRow := regRowsENG0 ++ regRowsENG1

/-- Registers of block MAP (R269), part 1. -/
def regRowsMAP0 : List RegRow :=
  [
    ⟨"MAP_CTRL", 0x1E0000, [(16, 0x40)], [⟨0, 1, .rw, .l, 0⟩, ⟨1, 1, .rw, .f, 0⟩, ⟨2, 1, .rw, .f, 0⟩, ⟨4, 4, .rw, .f, 0⟩, ⟨16, 12, .ro, .n, 0⟩]⟩,
    ⟨"MAP_BASE", 0x1E0004, [(16, 0x40)], [⟨0, 25, .rw, .f, 0⟩]⟩,
    ⟨"MAP_GEOM", 0x1E0008, [(16, 0x40)], [⟨0, 14, .rw, .f, 0x400⟩, ⟨16, 13, .rw, .f, 0x200⟩]⟩,
    ⟨"MAP_EPOCH", 0x1E000C, [(16, 0x40)], [⟨0, 24, .rw, .f, 0xc350⟩]⟩,
    ⟨"MAP_DECAY", 0x1E0010, [(16, 0x40)], [⟨0, 9, .rw, .s, 0⟩]⟩,
    ⟨"MAP_SETTLE", 0x1E0014, [(16, 0x40)], [⟨0, 24, .ro, .n, 0⟩]⟩,
    ⟨"MAP_STATUS", 0x1E0018, [(16, 0x40)], [⟨0, 2, .ro, .n, 0⟩, ⟨2, 1, .ro, .n, 0⟩, ⟨3, 1, .ro, .n, 0⟩, ⟨4, 1, .ro, .n, 0⟩, ⟨24, 1, .w1c, .l, 0⟩]⟩,
    ⟨"MAP_EPOCH_NO_LO", 0x1E001C, [(16, 0x40)], [⟨0, 32, .ro, .n, 0⟩]⟩,
    ⟨"MAP_EPOCH_NO_HI", 0x1E0020, [(16, 0x40)], [⟨0, 32, .ro, .n, 0⟩]⟩,
    ⟨"MAP_FINAL_W", 0x1E0024, [(16, 0x40), (3, 0x4)], [⟨0, 32, .ro, .n, 0⟩]⟩,
    ⟨"MAP_CLIP", 0x1E0030, [(16, 0x40)], [⟨0, 32, .ro, .n, 0⟩]⟩,
    ⟨"MAP_SAT", 0x1E0034, [(16, 0x40)], [⟨0, 32, .ro, .n, 0⟩]⟩,
    ⟨"MAP_LATE", 0x1E0038, [(16, 0x40)], [⟨0, 32, .ro, .n, 0⟩]⟩,
    ⟨"MAP_DROPPED", 0x1E003C, [(16, 0x40)], [⟨0, 32, .ro, .n, 0⟩]⟩,
    ⟨"ENG_PQ_CTRL", 0x1E0400, [], [⟨0, 8, .rw, .f, 0x25⟩, ⟨8, 1, .rw, .l, 0⟩]⟩,
    ⟨"ENG_PQ_STATUS", 0x1E0404, [], [⟨0, 15, .ro, .n, 0⟩, ⟨24, 1, .w1c, .l, 0⟩]⟩,
    ⟨"ENG_PQ_LOAD", 0x1E0408, [], [⟨0, 32, .ro, .n, 0⟩]⟩,
    ⟨"ENG_PQ_OUT", 0x1E040C, [], [⟨0, 32, .ro, .n, 0⟩]⟩,
    ⟨"ENG_PQ_LATE", 0x1E0410, [], [⟨0, 32, .ro, .n, 0⟩]⟩,
    ⟨"ENG_PQ_LOST", 0x1E0414, [], [⟨0, 32, .ro, .n, 0⟩]⟩ ]

/-- Registers of block MAP (R269), part 2. -/
def regRowsMAP1 : List RegRow :=
  [
    ⟨"MAP_CLEAR", 0x1E0800, [(16, 0x4)], [⟨0, 24, .rw, .f, 0x4268⟩]⟩ ]

/-- Every register of block MAP (R269). -/
def regRowsMAP : List RegRow := regRowsMAP0 ++ regRowsMAP1

/-- Registers of block DMA (R383), part 1. -/
def regRowsDMA0 : List RegRow :=
  [
    ⟨"DMA_CTRL", 0x200000, [], [⟨0, 1, .wo, .l, 0⟩]⟩,
    ⟨"DMA_STATUS", 0x200004, [], [⟨24, 1, .w1c, .l, 0⟩]⟩,
    ⟨"DMA_CPL_TIMEOUT", 0x200008, [], [⟨0, 16, .rw, .l, 0x3e8⟩]⟩,
    ⟨"DMA_RETRY", 0x20000C, [], [⟨0, 4, .rw, .l, 3⟩]⟩,
    ⟨"DMA_RUNNING", 0x200020, [(4, 0x4)], [⟨0, 32, .ro, .n, 0⟩]⟩,
    ⟨"DMA_HALTED", 0x200030, [(4, 0x4)], [⟨0, 32, .ro, .n, 0⟩]⟩,
    ⟨"DMA_SNAP_STATUS", 0x200040, [], [⟨0, 32, .ro, .n, 0⟩]⟩,
    ⟨"DMA_SNAP_RUNNING0", 0x200044, [], [⟨0, 32, .ro, .n, 0⟩]⟩,
    ⟨"DMA_G_BYTES_LO", 0x200100, [(8, 0x10)], [⟨0, 32, .ro, .n, 0⟩]⟩,
    ⟨"DMA_G_BYTES_HI", 0x200104, [(8, 0x10)], [⟨0, 32, .ro, .n, 0⟩]⟩,
    ⟨"DMA_G_PREEMPT", 0x200108, [(8, 0x10)], [⟨0, 32, .ro, .n, 0⟩]⟩,
    ⟨"DMA_C_CFG", 0x201000, [(128, 0x80)], [⟨0, 12, .ro, .n, 0⟩, ⟨12, 1, .ro, .n, 0⟩, ⟨13, 2, .rw, .s, 0⟩, ⟨15, 1, .rw, .f, 0⟩]⟩,
    ⟨"DMA_C_RING_LO", 0x201004, [(128, 0x80)], [⟨0, 32, .rw, .f, 0⟩]⟩,
    ⟨"DMA_C_RING_HI", 0x201008, [(128, 0x80)], [⟨0, 32, .rw, .f, 0⟩]⟩,
    ⟨"DMA_C_RING_SIZE", 0x20100C, [(128, 0x80)], [⟨0, 13, .rw, .f, 2⟩, ⟨16, 16, .rw, .l, 0xa⟩]⟩,
    ⟨"DMA_C_STATE", 0x201010, [(128, 0x80)], [⟨0, 3, .ro, .n, 0⟩, ⟨8, 4, .ro, .n, 0⟩, ⟨12, 1, .ro, .n, 0⟩, ⟨16, 12, .ro, .n, 0⟩]⟩,
    ⟨"DMA_C_CSUM", 0x201014, [(128, 0x80)], [⟨0, 32, .ro, .n, 0⟩]⟩,
    ⟨"DMA_C_PACE", 0x201018, [(128, 0x80)], [⟨0, 16, .ro, .n, 0⟩]⟩,
    ⟨"DMA_C_LAST_CTRL", 0x20101C, [(128, 0x80)], [⟨0, 32, .ro, .n, 0⟩]⟩,
    ⟨"DMA_C_LAST_LEN_LO", 0x201020, [(128, 0x80)], [⟨0, 32, .ro, .n, 0⟩]⟩ ]

/-- Registers of block DMA (R383), part 2. -/
def regRowsDMA1 : List RegRow :=
  [
    ⟨"DMA_C_LAST_LEN_HI", 0x201024, [(128, 0x80)], [⟨0, 8, .ro, .n, 0⟩]⟩,
    ⟨"DMA_C_ERR_ADDR_LO", 0x201028, [(128, 0x80)], [⟨0, 32, .ro, .n, 0⟩]⟩,
    ⟨"DMA_C_ERR_ADDR_HI", 0x20102C, [(128, 0x80)], [⟨0, 32, .ro, .n, 0⟩]⟩,
    ⟨"DMA_C_BYTES_LO", 0x201030, [(128, 0x80)], [⟨0, 32, .ro, .n, 0⟩]⟩,
    ⟨"DMA_C_BYTES_HI", 0x201034, [(128, 0x80)], [⟨0, 32, .ro, .n, 0⟩]⟩,
    ⟨"DMA_C_COUNTS", 0x201038, [(128, 0x80)], [⟨0, 16, .ro, .n, 0⟩, ⟨16, 16, .ro, .n, 0⟩]⟩,
    ⟨"DMA_C_EMIT", 0x20103C, [(128, 0x80)], [⟨0, 8, .ro, .n, 0⟩, ⟨16, 16, .ro, .n, 0⟩]⟩ ]

/-- Every register of block DMA (R383). -/
def regRowsDMA : List RegRow := regRowsDMA0 ++ regRowsDMA1

/-- Registers of block CMP (R383), part 1. -/
def regRowsCMP0 : List RegRow :=
  [
    ⟨"CMP_CTRL", 0x240000, [], [⟨0, 1, .wo, .l, 0⟩]⟩,
    ⟨"CMP_STATUS", 0x240004, [], [⟨0, 8, .ro, .n, 0xff⟩, ⟨8, 8, .ro, .n, 0⟩, ⟨24, 1, .w1c, .l, 0⟩]⟩,
    ⟨"CMP_SUSPEND_MAX", 0x240008, [], [⟨0, 16, .rw, .l, 0xa⟩]⟩,
    ⟨"CMP_SUSPENDED", 0x24000C, [], [⟨0, 12, .ro, .n, 0⟩]⟩,
    ⟨"CMP_EXPIRED", 0x240010, [], [⟨0, 32, .ro, .n, 0⟩]⟩,
    ⟨"CMP_SNAP_STATUS", 0x240020, [], [⟨0, 32, .ro, .n, 0⟩]⟩,
    ⟨"CMP_E_STATUS", 0x240100, [(8, 0x20)], [⟨0, 2, .ro, .n, 0⟩, ⟨4, 12, .ro, .n, 0⟩, ⟨16, 12, .ro, .n, 0⟩]⟩,
    ⟨"CMP_E_IN_LO", 0x240104, [(8, 0x20)], [⟨0, 32, .ro, .n, 0⟩]⟩,
    ⟨"CMP_E_IN_HI", 0x240108, [(8, 0x20)], [⟨0, 32, .ro, .n, 0⟩]⟩,
    ⟨"CMP_E_OUT_LO", 0x24010C, [(8, 0x20)], [⟨0, 32, .ro, .n, 0⟩]⟩,
    ⟨"CMP_E_OUT_HI", 0x240110, [(8, 0x20)], [⟨0, 32, .ro, .n, 0⟩]⟩,
    ⟨"CMP_E_ERRORS", 0x240114, [(8, 0x20)], [⟨0, 8, .ro, .n, 0⟩, ⟨8, 8, .ro, .n, 0⟩]⟩ ]

/-- Every register of block CMP (R383). -/
def regRowsCMP : List RegRow := regRowsCMP0

/-- Registers of block MEM (R415), part 1. -/
def regRowsMEM0 : List RegRow :=
  [
    ⟨"MEM_C_CTRL", 0x280000, [(8, 0x8000)], [⟨0, 1, .wo, .l, 0⟩, ⟨16, 16, .rw, .l, 0⟩]⟩,
    ⟨"MEM_C_STATUS", 0x280004, [(8, 0x8000)], [⟨0, 3, .ro, .n, 0⟩, ⟨3, 4, .ro, .n, 0⟩, ⟨8, 3, .ro, .n, 0⟩, ⟨24, 1, .w1c, .l, 0⟩]⟩,
    ⟨"MEM_C_POP", 0x280008, [(8, 0x8000)], [⟨0, 2, .ro, .n, 0⟩, ⟨4, 2, .ro, .n, 0⟩, ⟨6, 1, .ro, .n, 0⟩, ⟨8, 2, .ro, .n, 0⟩]⟩,
    ⟨"MEM_C_REF", 0x28000C, [(8, 0x8000)], [⟨0, 4, .rw, .l, 8⟩, ⟨8, 8, .ro, .n, 0⟩]⟩,
    ⟨"MEM_C_REF_OWED", 0x280010, [(8, 0x8000)], [⟨0, 32, .ro, .n, 0⟩]⟩,
    ⟨"MEM_C_WQ", 0x280014, [(8, 0x8000)], [⟨0, 6, .rw, .l, 0x30⟩, ⟨8, 6, .rw, .l, 0x10⟩, ⟨16, 6, .rw, .l, 8⟩, ⟨24, 8, .rw, .l, 0xa⟩]⟩,
    ⟨"MEM_C_COUNTS", 0x280018, [(8, 0x8000)], [⟨0, 16, .ro, .n, 0⟩, ⟨16, 16, .ro, .n, 0⟩]⟩,
    ⟨"MEM_C_FWD", 0x28001C, [(8, 0x8000)], [⟨0, 32, .ro, .n, 0⟩]⟩,
    ⟨"MEM_C_CE_TOTAL", 0x280020, [(8, 0x8000)], [⟨0, 32, .ro, .n, 0⟩]⟩,
    ⟨"MEM_C_UE_TOTAL", 0x280024, [(8, 0x8000)], [⟨0, 32, .ro, .n, 0⟩]⟩,
    ⟨"MEM_C_POISON_READS", 0x280028, [(8, 0x8000)], [⟨0, 32, .ro, .n, 0⟩]⟩,
    ⟨"MEM_C_R_ERR", 0x280040, [(8, 0x8000), (8, 0x4)], [⟨0, 16, .ro, .n, 0⟩, ⟨16, 8, .ro, .n, 0⟩, ⟨24, 3, .ro, .n, 0⟩]⟩,
    ⟨"MEM_C_RANK_UE_LIMIT", 0x280060, [(8, 0x8000)], [⟨0, 8, .rw, .l, 8⟩]⟩,
    ⟨"MEM_C_SPARE", 0x280064, [(8, 0x8000)], [⟨0, 3, .rw, .f, 0⟩, ⟨8, 1, .rw, .f, 0⟩]⟩,
    ⟨"MEM_C_MIG", 0x280068, [(8, 0x8000)], [⟨0, 3, .ro, .n, 0⟩, ⟨4, 3, .ro, .n, 0⟩, ⟨8, 24, .ro, .n, 0⟩]⟩,
    ⟨"MEM_C_MIG_RATE", 0x28006C, [(8, 0x8000)], [⟨0, 8, .rw, .l, 8⟩]⟩,
    ⟨"MEM_C_CAPT_W", 0x280080, [(8, 0x8000), (16, 0x4)], [⟨0, 32, .ro, .n, 0⟩]⟩,
    ⟨"MEM_C_CAPT_INFO", 0x2800C0, [(8, 0x8000)], [⟨0, 3, .ro, .n, 0⟩, ⟨8, 3, .ro, .n, 0⟩]⟩,
    ⟨"MEM_C_LAST_UE_LO", 0x2800D0, [(8, 0x8000)], [⟨0, 32, .ro, .n, 0⟩]⟩,
    ⟨"MEM_C_LAST_UE_HI", 0x2800D4, [(8, 0x8000)], [⟨0, 16, .ro, .n, 0⟩]⟩ ]

/-- Registers of block MEM (R415), part 2. -/
def regRowsMEM1 : List RegRow :=
  [
    ⟨"MEM_C_D_TEMP", 0x280100, [(8, 0x8000), (2, 0x4)], [⟨0, 16, .ro, .n, 0⟩]⟩,
    ⟨"MEM_C_TRN_CTRL", 0x280200, [(8, 0x8000)], [⟨0, 1, .wo, .l, 0⟩, ⟨1, 3, .rw, .f, 0⟩, ⟨4, 3, .rw, .f, 0⟩, ⟨7, 1, .rw, .f, 0⟩, ⟨8, 1, .rw, .f, 0⟩, ⟨16, 16, .rw, .f, 0⟩]⟩,
    ⟨"MEM_C_TRN_STATUS", 0x280204, [(8, 0x8000)], [⟨0, 1, .ro, .n, 0⟩, ⟨1, 1, .ro, .n, 0⟩]⟩,
    ⟨"MEM_C_TRN_ERRLANES", 0x280208, [(8, 0x8000), (3, 0x4)], [⟨0, 32, .ro, .n, 0⟩]⟩,
    ⟨"MEM_C_TRN_PAT_W", 0x280220, [(8, 0x8000), (16, 0x4)], [⟨0, 32, .rw, .f, 0⟩]⟩,
    ⟨"MEM_C_DLY", 0x280400, [(8, 0x8000), (100, 0x4)], [⟨0, 10, .rw, .f, 0⟩, ⟨12, 10, .rw, .f, 0⟩, ⟨24, 7, .rw, .f, 0x40⟩]⟩,
    ⟨"MEM_C_SNAP_STATUS", 0x280600, [(8, 0x8000)], [⟨0, 32, .ro, .n, 0⟩]⟩,
    ⟨"MEM_C_SNAP_OWED", 0x280604, [(8, 0x8000)], [⟨0, 32, .ro, .n, 0⟩]⟩,
    ⟨"MEM_CFG", 0x284000, [], [⟨0, 1, .ro, .n, 0⟩, ⟨1, 1, .ro, .n, 1⟩, ⟨8, 8, .ro, .n, 0x60⟩, ⟨16, 12, .rw, .l, 0x18⟩]⟩,
    ⟨"MEM_GSTATUS", 0x284004, [], [⟨0, 16, .ro, .n, 0⟩, ⟨16, 1, .ro, .n, 0⟩, ⟨17, 1, .ro, .n, 0⟩]⟩,
    ⟨"MEM_CAPACITY_LO", 0x284008, [], [⟨0, 32, .ro, .n, 0⟩]⟩,
    ⟨"MEM_CAPACITY_HI", 0x28400C, [], [⟨0, 10, .ro, .n, 0⟩]⟩,
    ⟨"MEM_INIT_PTR_LO", 0x284010, [], [⟨0, 32, .ro, .n, 0⟩]⟩,
    ⟨"MEM_INIT_PTR_HI", 0x284014, [], [⟨0, 10, .ro, .n, 0⟩]⟩,
    ⟨"MEM_PORT_QOS", 0x284020, [(5, 0x4)], [⟨0, 16, .rw, .l, 0⟩, ⟨16, 2, .ro, .n, 0⟩]⟩,
    ⟨"MEM_PORT_LATMAX", 0x284040, [(5, 0x4)], [⟨0, 32, .ro, .n, 0⟩]⟩ ]

/-- Every register of block MEM (R415). -/
def regRowsMEM : List RegRow := regRowsMEM0 ++ regRowsMEM1

/-- Registers of block DIS (R467), part 1. -/
def regRowsDIS0 : List RegRow :=
  [
    ⟨"DIS_CTRL", 0x2C0000, [], [⟨0, 1, .rw, .l, 0⟩, ⟨1, 1, .wo, .l, 0⟩, ⟨2, 1, .rw, .l, 0⟩]⟩,
    ⟨"DIS_STATUS", 0x2C0004, [], [⟨0, 3, .ro, .n, 0⟩, ⟨3, 1, .ro, .n, 0⟩, ⟨4, 1, .ro, .n, 0⟩, ⟨5, 1, .ro, .n, 0⟩, ⟨24, 1, .w1c, .l, 0⟩]⟩,
    ⟨"DIS_LINK", 0x2C0008, [], [⟨0, 2, .rw, .s, 2⟩, ⟨2, 2, .rw, .s, 2⟩, ⟨4, 2, .rw, .s, 1⟩, ⟨6, 1, .rw, .s, 0⟩, ⟨7, 1, .rw, .s, 0⟩]⟩,
    ⟨"DIS_PCLK", 0x2C000C, [], [⟨0, 20, .rw, .s, 0x24414⟩]⟩,
    ⟨"DIS_HACT", 0x2C0010, [], [⟨0, 12, .rw, .s, 0x780⟩, ⟨16, 12, .rw, .s, 0x58⟩]⟩,
    ⟨"DIS_HSYNC", 0x2C0014, [], [⟨0, 12, .rw, .s, 0x2c⟩, ⟨16, 12, .rw, .s, 0x94⟩]⟩,
    ⟨"DIS_VACT", 0x2C0018, [], [⟨0, 12, .rw, .s, 0x438⟩, ⟨16, 12, .rw, .s, 4⟩]⟩,
    ⟨"DIS_VSYNC", 0x2C001C, [], [⟨0, 12, .rw, .s, 5⟩, ⟨16, 12, .rw, .s, 0x24⟩]⟩,
    ⟨"DIS_BG", 0x2C0020, [], [⟨0, 30, .rw, .s, 0⟩]⟩,
    ⟨"DIS_MODE_COMMIT", 0x2C0030, [], [⟨0, 1, .wo, .l, 0⟩]⟩,
    ⟨"DIS_COMMIT", 0x2C0034, [], [⟨0, 3, .wo, .l, 0⟩]⟩,
    ⟨"DIS_FRAME_NO_LO", 0x2C0038, [], [⟨0, 32, .ro, .n, 0⟩]⟩,
    ⟨"DIS_FRAME_NO_HI", 0x2C003C, [], [⟨0, 32, .ro, .n, 0⟩]⟩,
    ⟨"DIS_FRAME_W", 0x2C0040, [(3, 0x4)], [⟨0, 32, .ro, .n, 0⟩]⟩,
    ⟨"DIS_DROPPED_FLIPS", 0x2C004C, [], [⟨0, 32, .ro, .n, 0⟩]⟩,
    ⟨"DIS_UNDERRUN", 0x2C0050, [], [⟨0, 32, .ro, .n, 0⟩]⟩,
    ⟨"DIS_TOL", 0x2C0054, [], [⟨0, 32, .ro, .n, 0⟩]⟩,
    ⟨"DIS_RESERVE", 0x2C0058, [], [⟨0, 32, .ro, .n, 0⟩]⟩,
    ⟨"DIS_CRC_WIN0", 0x2C0060, [], [⟨0, 12, .rw, .s, 0⟩, ⟨16, 12, .rw, .s, 0⟩]⟩,
    ⟨"DIS_CRC_WIN1", 0x2C0064, [], [⟨0, 12, .rw, .s, 0⟩, ⟨16, 12, .rw, .s, 0⟩]⟩ ]

/-- Registers of block DIS (R467), part 2. -/
def regRowsDIS1 : List RegRow :=
  [
    ⟨"DIS_CRC_VALUE", 0x2C0068, [], [⟨0, 32, .ro, .n, 0⟩]⟩,
    ⟨"DIS_CRC_FRAME_LO", 0x2C006C, [], [⟨0, 32, .ro, .n, 0⟩]⟩,
    ⟨"DIS_CRC_FRAME_HI", 0x2C0070, [], [⟨0, 32, .ro, .n, 0⟩]⟩,
    ⟨"DIS_CRC_FLAGS", 0x2C0074, [], [⟨0, 1, .ro, .n, 0⟩]⟩,
    ⟨"DIS_LUT_CTRL", 0x2C0080, [], [⟨0, 2, .rw, .l, 0⟩]⟩,
    ⟨"DIS_AUX_CTRL", 0x2C0090, [], [⟨0, 20, .rw, .f, 0⟩, ⟨20, 4, .rw, .f, 0⟩, ⟨24, 4, .rw, .f, 0⟩, ⟨30, 1, .ro, .l, 0⟩, ⟨31, 1, .w1s, .l, 0⟩]⟩,
    ⟨"DIS_AUX_STATUS", 0x2C0094, [], [⟨0, 2, .ro, .n, 0⟩]⟩,
    ⟨"DIS_AUX_DATA", 0x2C0098, [(4, 0x4)], [⟨0, 32, .rw, .f, 0⟩]⟩,
    ⟨"DIS_PANEL", 0x2C00B0, [], [⟨0, 1, .rw, .l, 0⟩, ⟨1, 1, .rw, .l, 0⟩, ⟨8, 8, .rw, .l, 0⟩]⟩,
    ⟨"DIS_BL_PWM", 0x2C00B4, [], [⟨0, 16, .rw, .l, 0xc8⟩]⟩,
    ⟨"DIS_SNAP_STATUS", 0x2C00C0, [], [⟨0, 32, .ro, .n, 0⟩]⟩,
    ⟨"DIS_SNAP_FRAME", 0x2C00C4, [], [⟨0, 32, .ro, .n, 0⟩]⟩,
    ⟨"DIS_L_CFG", 0x2C0100, [(3, 0x40)], [⟨0, 1, .rw, .s, 0⟩, ⟨1, 3, .rw, .s, 0⟩, ⟨4, 1, .rw, .s, 0⟩, ⟨8, 8, .rw, .s, 0xff⟩, ⟨16, 4, .rw, .s, 0⟩, ⟨20, 3, .rw, .s, 0⟩, ⟨24, 3, .rw, .s, 0⟩]⟩,
    ⟨"DIS_L_BASE_LO", 0x2C0104, [(3, 0x40)], [⟨0, 32, .rw, .s, 0⟩]⟩,
    ⟨"DIS_L_BASE_HI", 0x2C0108, [(3, 0x40)], [⟨0, 16, .rw, .s, 0⟩]⟩,
    ⟨"DIS_L_STRIDE", 0x2C010C, [(3, 0x40)], [⟨0, 20, .rw, .s, 0⟩]⟩,
    ⟨"DIS_L_SIZE", 0x2C0110, [(3, 0x40)], [⟨0, 14, .rw, .s, 0⟩, ⟨16, 13, .rw, .s, 0⟩]⟩,
    ⟨"DIS_L_POS", 0x2C0114, [(3, 0x40)], [⟨0, 12, .rw, .s, 0⟩, ⟨16, 12, .rw, .s, 0⟩]⟩,
    ⟨"DIS_L_COLOR", 0x2C0118, [(3, 0x40)], [⟨0, 32, .rw, .s, 0⟩]⟩,
    ⟨"DIS_L_LUT", 0x2C011C, [(3, 0x40)], [⟨0, 1, .rw, .s, 0⟩, ⟨1, 5, .rw, .s, 0⟩, ⟨8, 1, .w1s, .s, 0⟩, ⟨9, 1, .ro, .n, 0⟩]⟩ ]

/-- Registers of block DIS (R467), part 3. -/
def regRowsDIS2 : List RegRow :=
  [
    ⟨"DIS_L_BASE_EFF_LO", 0x2C0120, [(3, 0x40)], [⟨0, 32, .ro, .n, 0⟩]⟩,
    ⟨"DIS_L_BASE_EFF_HI", 0x2C0124, [(3, 0x40)], [⟨0, 16, .ro, .n, 0⟩]⟩,
    ⟨"DIS_L_FLIP_FRAME_LO", 0x2C0128, [(3, 0x40)], [⟨0, 32, .ro, .n, 0⟩]⟩,
    ⟨"DIS_L_FLIP_FRAME_HI", 0x2C012C, [(3, 0x40)], [⟨0, 32, .ro, .n, 0⟩]⟩,
    ⟨"DIS_L_FLIP_W", 0x2C0130, [(3, 0x40), (3, 0x4)], [⟨0, 32, .ro, .n, 0⟩]⟩,
    ⟨"DIS_L_OWNER", 0x2C013C, [(3, 0x40)], [⟨0, 12, .ro, .n, 0⟩, ⟨16, 1, .ro, .n, 0⟩]⟩,
    ⟨"DIS_LUT_DATA", 0x2C1000, [(1024, 0x4)], [⟨0, 32, .wo, .l, 0⟩]⟩ ]

/-- Every register of block DIS (R467). -/
def regRowsDIS : List RegRow := regRowsDIS0 ++ regRowsDIS1 ++ regRowsDIS2

/-- Registers of block MCV (R486), part 1. -/
def regRowsMCV0 : List RegRow :=
  [
    ⟨"MCV_CTRL", 0x2D0000, [], [⟨0, 1, .rw, .l, 0⟩, ⟨1, 2, .rw, .f, 0⟩, ⟨3, 5, .rw, .f, 0⟩, ⟨8, 3, .rw, .f, 0⟩, ⟨12, 1, .wo, .l, 0⟩, ⟨13, 1, .wo, .l, 0⟩, ⟨14, 1, .wo, .l, 0⟩, ⟨15, 1, .wo, .l, 0⟩]⟩,
    ⟨"MCV_STATUS", 0x2D0004, [], [⟨0, 3, .ro, .n, 0⟩, ⟨3, 5, .ro, .n, 0⟩, ⟨8, 1, .ro, .n, 0⟩, ⟨9, 1, .ro, .n, 0⟩, ⟨10, 1, .ro, .n, 0⟩, ⟨11, 1, .ro, .n, 0⟩, ⟨12, 1, .ro, .n, 0⟩, ⟨13, 1, .ro, .n, 0⟩, ⟨24, 1, .w1c, .l, 0⟩]⟩,
    ⟨"MCV_CAL_CFG", 0x2D0008, [], [⟨0, 16, .rw, .l, 0xe10⟩, ⟨16, 8, .rw, .l, 5⟩]⟩,
    ⟨"MCV_CAL_WIN", 0x2D000C, [], [⟨0, 24, .rw, .f, 0x4e20⟩]⟩,
    ⟨"MCV_NOMINAL", 0x2D0010, [], [⟨0, 32, .rw, .l, 0x1312d00⟩]⟩,
    ⟨"MCV_INJ_CFG", 0x2D0014, [], [⟨0, 4, .rw, .s, 0⟩, ⟨4, 2, .rw, .s, 0⟩, ⟨6, 2, .rw, .s, 0⟩, ⟨8, 1, .rw, .s, 0⟩, ⟨9, 2, .rw, .s, 0⟩, ⟨16, 16, .rw, .s, 0⟩]⟩,
    ⟨"MCV_INJ_WIN", 0x2D0018, [], [⟨0, 24, .rw, .s, 0⟩]⟩,
    ⟨"MCV_INJ_AT_W", 0x2D001C, [(3, 0x4)], [⟨0, 32, .rw, .l, 0⟩]⟩,
    ⟨"MCV_DAC_CTRL", 0x2D0030, [], [⟨0, 1, .rw, .l, 0⟩, ⟨1, 1, .ro, .n, 0⟩]⟩,
    ⟨"MCV_DAC_CODE", 0x2D0034, [], [⟨0, 16, .rw, .l, 0⟩, ⟨16, 16, .rw, .l, 0⟩]⟩,
    ⟨"MCV_OFS", 0x2D0040, [(3, 0x4)], [⟨0, 24, .ro, .n, 0⟩]⟩,
    ⟨"MCV_GCAL", 0x2D0050, [(3, 0x4)], [⟨0, 32, .ro, .n, 0x40000000⟩]⟩,
    ⟨"MCV_CAL_REFCHK", 0x2D0060, [], [⟨0, 32, .ro, .n, 0⟩]⟩,
    ⟨"MCV_CAL_W", 0x2D0064, [(3, 0x4)], [⟨0, 32, .ro, .n, 0⟩]⟩,
    ⟨"MCV_CAL_TEMP", 0x2D0070, [], [⟨0, 16, .ro, .n, 0⟩]⟩,
    ⟨"MCV_COUNTS", 0x2D0080, [], [⟨0, 8, .ro, .n, 0⟩, ⟨8, 8, .ro, .n, 0⟩, ⟨16, 8, .ro, .n, 0⟩, ⟨24, 8, .ro, .n, 0⟩]⟩,
    ⟨"MCV_RES_LOST", 0x2D0084, [], [⟨0, 32, .ro, .n, 0⟩]⟩,
    ⟨"MCV_NUM", 0x2D0088, [], [⟨0, 32, .ro, .n, 0⟩]⟩,
    ⟨"MCV_RES_DEPTH", 0x2D0090, [], [⟨0, 7, .ro, .n, 0⟩]⟩,
    ⟨"MCV_RES_W", 0x2D00A0, [(8, 0x4)], [⟨0, 32, .ro, .n, 0⟩]⟩ ]

/-- Registers of block MCV (R486), part 2. -/
def regRowsMCV1 : List RegRow :=
  [
    ⟨"MCV_RES_POP", 0x2D00C0, [], [⟨0, 1, .wo, .l, 0⟩]⟩,
    ⟨"MCV_SNAP_STATUS", 0x2D00D0, [], [⟨0, 32, .ro, .n, 0⟩]⟩,
    ⟨"MCV_SNAP_NUM", 0x2D00D4, [], [⟨0, 32, .ro, .n, 0⟩]⟩,
    ⟨"MCV_E_CFG", 0x2D0100, [(32, 0x10)], [⟨0, 4, .rw, .s, 0⟩, ⟨4, 2, .rw, .s, 0⟩, ⟨6, 2, .rw, .s, 0⟩, ⟨8, 1, .rw, .s, 0⟩, ⟨9, 2, .rw, .s, 0⟩, ⟨16, 16, .rw, .s, 0x64⟩]⟩,
    ⟨"MCV_E_WIN", 0x2D0104, [(32, 0x10)], [⟨0, 24, .rw, .s, 0x4e20⟩]⟩,
    ⟨"MCV_E_ANCHOR", 0x2D0108, [(32, 0x10)], [⟨0, 4, .rw, .s, 0⟩, ⟨4, 2, .rw, .s, 0⟩, ⟨6, 2, .rw, .s, 0⟩, ⟨8, 1, .rw, .s, 0⟩]⟩,
    ⟨"MCV_E_K", 0x2D010C, [(32, 0x10)], [⟨0, 32, .rw, .s, 0⟩]⟩,
    ⟨"MCV_E_LAST", 0x2D0300, [(32, 0x4)], [⟨0, 24, .ro, .n, 0⟩, ⟨24, 8, .ro, .n, 0⟩]⟩ ]

/-- Every register of block MCV (R486). -/
def regRowsMCV : List RegRow := regRowsMCV0 ++ regRowsMCV1

/-- Registers of block ERR (R507), part 1. -/
def regRowsERR0 : List RegRow :=
  [
    ⟨"ERR_CTRL", 0x2E0000, [], [⟨0, 1, .wo, .l, 0⟩, ⟨1, 2, .rw, .l, 2⟩]⟩,
    ⟨"ERR_STATUS", 0x2E0004, [], [⟨0, 1, .ro, .n, 0⟩, ⟨1, 1, .ro, .n, 0⟩, ⟨24, 1, .w1c, .l, 0⟩]⟩,
    ⟨"ERR_LOG_HEAD", 0x2E0008, [], [⟨0, 16, .ro, .n, 0⟩]⟩,
    ⟨"ERR_UNACKED", 0x2E000C, [], [⟨0, 13, .ro, .n, 0⟩]⟩,
    ⟨"ERR_LOG_LOST", 0x2E0010, [], [⟨0, 32, .ro, .n, 0⟩]⟩,
    ⟨"ERR_FATAL_COUNT", 0x2E0014, [], [⟨0, 32, .ro, .n, 0⟩]⟩,
    ⟨"ERR_SNAP_SEQ", 0x2E0018, [], [⟨0, 16, .ro, .n, 0⟩]⟩,
    ⟨"ERR_FATAL_W", 0x2E0020, [(8, 0x4)], [⟨0, 32, .ro, .n, 0⟩]⟩,
    ⟨"ERR_PREV_FATAL_W", 0x2E0040, [(8, 0x4)], [⟨0, 32, .ro, .n, 0⟩]⟩,
    ⟨"ERR_B_COUNTS", 0x2E0080, [(17, 0x4)], [⟨0, 16, .ro, .n, 0⟩, ⟨16, 8, .ro, .n, 0⟩, ⟨24, 4, .ro, .n, 0⟩, ⟨28, 4, .ro, .n, 0⟩]⟩,
    ⟨"ERR_ACK", 0x2E00C0, [], [⟨0, 16, .wo, .l, 0⟩, ⟨31, 1, .wo, .l, 0⟩]⟩,
    ⟨"ERR_LOG_SEL", 0x2E0100, [], [⟨0, 16, .rw, .l, 0⟩]⟩,
    ⟨"ERR_LOG_W", 0x2E0120, [(8, 0x4)], [⟨0, 32, .ro, .n, 0⟩]⟩ ]

/-- Every register of block ERR (R507). -/
def regRowsERR : List RegRow := regRowsERR0

/-- Registers of block SHF (R507), part 1. -/
def regRowsSHF0 : List RegRow :=
  [
    ⟨"SHF_CTRL", 0x2F0000, [], [⟨0, 1, .wo, .l, 0⟩, ⟨1, 1, .wo, .l, 0⟩, ⟨2, 1, .rw, .l, 0⟩, ⟨3, 1, .rw, .l, 0⟩, ⟨4, 1, .rw, .l, 0⟩, ⟨5, 1, .rw, .l, 0⟩, ⟨6, 2, .rw, .l, 2⟩, ⟨8, 1, .rw, .l, 0⟩]⟩,
    ⟨"SHF_STATUS", 0x2F0004, [], [⟨0, 1, .ro, .n, 0⟩, ⟨1, 3, .ro, .n, 0⟩, ⟨4, 1, .ro, .n, 0⟩, ⟨24, 1, .w1c, .l, 0⟩]⟩,
    ⟨"SHF_FIRE_W", 0x2F0008, [(3, 0x4)], [⟨0, 32, .ro, .n, 0⟩]⟩,
    ⟨"SHF_VALID", 0x2F0014, [], [⟨0, 17, .ro, .n, 0⟩]⟩,
    ⟨"SHF_COUNT", 0x2F0018, [], [⟨0, 32, .ro, .n, 0⟩]⟩,
    ⟨"SHF_IGNORED", 0x2F001C, [], [⟨0, 32, .ro, .n, 0⟩]⟩,
    ⟨"SHF_LEAD", 0x2F0020, [], [⟨0, 16, .rw, .l, 0x64⟩]⟩,
    ⟨"SHF_OUT_WIDTH", 0x2F0024, [], [⟨0, 16, .rw, .l, 0x64⟩]⟩,
    ⟨"SHF_ALARM_W", 0x2F0028, [(3, 0x4)], [⟨0, 32, .rw, .l, 0⟩]⟩ ]

/-- Every register of block SHF (R507). -/
def regRowsSHF : List RegRow := regRowsSHF0

end Sys2Proof.Machine
end

