-- ==== Sys2Proof/Machine/RegNames.lean ====
section
/-!
DEFINITION. One name per register and per register field, as the spec names them: `R_<REGISTER>` is the BAR0 address,
`F_<REGISTER>_<FIELD>` the field (address, lowest bit, width). A repeated register takes its indices in the order of
the spec's text (unit or channel first). Written out from the spec's own field tables.
-/

namespace Sys2Proof.Machine

/-- GLB_ID, R38. -/
abbrev R_GLB_ID : Nat := 0x000000
/-- GLB_ID.VENDOR. -/
abbrev F_GLB_ID_VENDOR : Fld := ⟨0x000000, 0, 16⟩
/-- GLB_ID.DEVICE. -/
abbrev F_GLB_ID_DEVICE : Fld := ⟨0x000000, 16, 16⟩
/-- GLB_REV, R38. -/
abbrev R_GLB_REV : Nat := 0x000004
/-- GLB_REV.STEPPING. -/
abbrev F_GLB_REV_STEPPING : Fld := ⟨0x000004, 0, 8⟩
/-- GLB_REV.PACKAGE. -/
abbrev F_GLB_REV_PACKAGE : Fld := ⟨0x000004, 8, 8⟩
/-- GLB_REV.ROM_VERSION. -/
abbrev F_GLB_REV_ROM_VERSION : Fld := ⟨0x000004, 16, 16⟩
/-- GLB_CAPS, R38. -/
abbrev R_GLB_CAPS : Nat := 0x000008
/-- GLB_CAPS.CONV_CHANNELS. -/
abbrev F_GLB_CAPS_CONV_CHANNELS : Fld := ⟨0x000008, 0, 8⟩
/-- GLB_CAPS.LOGIC_INPUTS. -/
abbrev F_GLB_CAPS_LOGIC_INPUTS : Fld := ⟨0x000008, 8, 8⟩
/-- GLB_CAPS.BARNS. -/
abbrev F_GLB_CAPS_BARNS : Fld := ⟨0x000008, 16, 4⟩
/-- GLB_CAPS.DDR_CHANNELS. -/
abbrev F_GLB_CAPS_DDR_CHANNELS : Fld := ⟨0x000008, 20, 4⟩
/-- GLB_CAPS.DIS_PRESENT. -/
abbrev F_GLB_CAPS_DIS_PRESENT : Fld := ⟨0x000008, 24, 1⟩
/-- GLB_CAPS.MCV_PRESENT. -/
abbrev F_GLB_CAPS_MCV_PRESENT : Fld := ⟨0x000008, 25, 1⟩
/-- GLB_UID_LO, R38. -/
abbrev R_GLB_UID_LO : Nat := 0x000010
/-- GLB_UID_LO.VALUE. -/
abbrev F_GLB_UID_LO_VALUE : Fld := ⟨0x000010, 0, 32⟩
/-- GLB_UID_HI, R38. -/
abbrev R_GLB_UID_HI : Nat := 0x000014
/-- GLB_UID_HI.VALUE. -/
abbrev F_GLB_UID_HI_VALUE : Fld := ⟨0x000014, 0, 32⟩
/-- GLB_KEYHASH, R38. -/
abbrev R_GLB_KEYHASH (i : Nat) : Nat := 0x000020 + 0x4 * i
/-- GLB_KEYHASH.VALUE. -/
abbrev F_GLB_KEYHASH_VALUE (i : Nat) : Fld := ⟨0x000020 + 0x4 * i, 0, 32⟩
/-- GLB_FUSE_STATUS, R38. -/
abbrev R_GLB_FUSE_STATUS : Nat := 0x000050
/-- GLB_FUSE_STATUS.KEYHASH_VALID. -/
abbrev F_GLB_FUSE_STATUS_KEYHASH_VALID : Fld := ⟨0x000050, 0, 1⟩
/-- GLB_FUSE_STATUS.DEBUG_LOCKED. -/
abbrev F_GLB_FUSE_STATUS_DEBUG_LOCKED : Fld := ⟨0x000050, 1, 1⟩
/-- GLB_FUSE_STATUS.PATCH_FLOOR. -/
abbrev F_GLB_FUSE_STATUS_PATCH_FLOOR : Fld := ⟨0x000050, 8, 8⟩
/-- GLB_STATE, R38. -/
abbrev R_GLB_STATE : Nat := 0x000060
/-- GLB_STATE.PSTATE. -/
abbrev F_GLB_STATE_PSTATE : Fld := ⟨0x000060, 0, 3⟩
/-- GLB_STATE.CMD_READY. -/
abbrev F_GLB_STATE_CMD_READY : Fld := ⟨0x000060, 3, 1⟩
/-- GLB_STATE.DRAM_READY. -/
abbrev F_GLB_STATE_DRAM_READY : Fld := ⟨0x000060, 4, 1⟩
/-- GLB_STATE.GRANARY_READY. -/
abbrev F_GLB_STATE_GRANARY_READY : Fld := ⟨0x000060, 5, 1⟩
/-- GLB_STATE.PATCH_ACTIVE. -/
abbrev F_GLB_STATE_PATCH_ACTIVE : Fld := ⟨0x000060, 6, 1⟩
/-- GLB_STATE.WATCH_BARN_EFF. -/
abbrev F_GLB_STATE_WATCH_BARN_EFF : Fld := ⟨0x000060, 8, 4⟩
/-- GLB_RESET_CAUSE, R38. -/
abbrev R_GLB_RESET_CAUSE : Nat := 0x000064
/-- GLB_RESET_CAUSE.POR. -/
abbrev F_GLB_RESET_CAUSE_POR : Fld := ⟨0x000064, 0, 1⟩
/-- GLB_RESET_CAUSE.PIN. -/
abbrev F_GLB_RESET_CAUSE_PIN : Fld := ⟨0x000064, 1, 1⟩
/-- GLB_RESET_CAUSE.SOFT. -/
abbrev F_GLB_RESET_CAUSE_SOFT : Fld := ⟨0x000064, 2, 1⟩
/-- GLB_RESET_CAUSE.LINK. -/
abbrev F_GLB_RESET_CAUSE_LINK : Fld := ⟨0x000064, 3, 1⟩
/-- GLB_RESET_CAUSE.FROM_CONTAINMENT. -/
abbrev F_GLB_RESET_CAUSE_FROM_CONTAINMENT : Fld := ⟨0x000064, 4, 1⟩
/-- GLB_SOFT_RESET, R38. -/
abbrev R_GLB_SOFT_RESET : Nat := 0x000068
/-- GLB_SOFT_RESET.GO. -/
abbrev F_GLB_SOFT_RESET_GO : Fld := ⟨0x000068, 0, 1⟩
/-- GLB_SOFT_RESET.KEY. -/
abbrev F_GLB_SOFT_RESET_KEY : Fld := ⟨0x000068, 16, 16⟩
/-- GLB_WRITE_REFUSED, R38. -/
abbrev R_GLB_WRITE_REFUSED : Nat := 0x000070
/-- GLB_WRITE_REFUSED.BLOCK_FLAGS. -/
abbrev F_GLB_WRITE_REFUSED_BLOCK_FLAGS : Fld := ⟨0x000070, 0, 17⟩
/-- GLB_OFF_ACCESS, R38. -/
abbrev R_GLB_OFF_ACCESS : Nat := 0x000074
/-- GLB_OFF_ACCESS.BLOCK. -/
abbrev F_GLB_OFF_ACCESS_BLOCK : Fld := ⟨0x000074, 0, 5⟩
/-- GLB_OFF_ACCESS.WRITE. -/
abbrev F_GLB_OFF_ACCESS_WRITE : Fld := ⟨0x000074, 5, 1⟩
/-- GLB_OFF_ACCESS.MASTER. -/
abbrev F_GLB_OFF_ACCESS_MASTER : Fld := ⟨0x000074, 8, 8⟩
/-- GLB_OFF_ACCESS.COUNT. -/
abbrev F_GLB_OFF_ACCESS_COUNT : Fld := ⟨0x000074, 16, 15⟩
/-- GLB_OFF_ACCESS.CLEAR. -/
abbrev F_GLB_OFF_ACCESS_CLEAR : Fld := ⟨0x000074, 31, 1⟩
/-- GLB_CTRL, R38. -/
abbrev R_GLB_CTRL : Nat := 0x000080
/-- GLB_CTRL.WATCH_BARN. -/
abbrev F_GLB_CTRL_WATCH_BARN : Fld := ⟨0x000080, 0, 4⟩
/-- GLB_CTRL.WATCH_MCV. -/
abbrev F_GLB_CTRL_WATCH_MCV : Fld := ⟨0x000080, 4, 1⟩
/-- GLB_UPTIME_LO, R38. -/
abbrev R_GLB_UPTIME_LO : Nat := 0x000088
/-- GLB_UPTIME_LO.COUNT_LO. -/
abbrev F_GLB_UPTIME_LO_COUNT_LO : Fld := ⟨0x000088, 0, 32⟩
/-- GLB_UPTIME_HI, R38. -/
abbrev R_GLB_UPTIME_HI : Nat := 0x00008C
/-- GLB_UPTIME_HI.COUNT_HI. -/
abbrev F_GLB_UPTIME_HI_COUNT_HI : Fld := ⟨0x00008C, 0, 32⟩
/-- GLB_READY_CMD, R38. -/
abbrev R_GLB_READY_CMD : Nat := 0x000090
/-- GLB_READY_CMD.COUNT. -/
abbrev F_GLB_READY_CMD_COUNT : Fld := ⟨0x000090, 0, 32⟩
/-- GLB_READY_DRAM, R38. -/
abbrev R_GLB_READY_DRAM : Nat := 0x000094
/-- GLB_READY_DRAM.COUNT. -/
abbrev F_GLB_READY_DRAM_COUNT : Fld := ⟨0x000094, 0, 32⟩
/-- GLB_SCRATCH, R38. -/
abbrev R_GLB_SCRATCH (i : Nat) : Nat := 0x0000A0 + 0x4 * i
/-- GLB_SCRATCH.VALUE. -/
abbrev F_GLB_SCRATCH_VALUE (i : Nat) : Fld := ⟨0x0000A0 + 0x4 * i, 0, 32⟩
/-- PMU_CTRL, R447. -/
abbrev R_PMU_CTRL : Nat := 0x010000
/-- PMU_CTRL.CLR_COUNTERS. -/
abbrev F_PMU_CTRL_CLR_COUNTERS : Fld := ⟨0x010000, 0, 1⟩
/-- PMU_CTRL.WAKE_PIN_EN. -/
abbrev F_PMU_CTRL_WAKE_PIN_EN : Fld := ⟨0x010000, 1, 1⟩
/-- PMU_CTRL.WAKE_ALARM_EN. -/
abbrev F_PMU_CTRL_WAKE_ALARM_EN : Fld := ⟨0x010000, 2, 1⟩
/-- PMU_STATUS, R447. -/
abbrev R_PMU_STATUS : Nat := 0x010004
/-- PMU_STATUS.PSTATE. -/
abbrev F_PMU_STATUS_PSTATE : Fld := ⟨0x010004, 0, 3⟩
/-- PMU_STATUS.THROTTLED. -/
abbrev F_PMU_STATUS_THROTTLED : Fld := ⟨0x010004, 3, 1⟩
/-- PMU_STATUS.AVS_DEGRADED. -/
abbrev F_PMU_STATUS_AVS_DEGRADED : Fld := ⟨0x010004, 4, 1⟩
/-- PMU_STATUS.WAKE_CAUSE. -/
abbrev F_PMU_STATUS_WAKE_CAUSE : Fld := ⟨0x010004, 8, 4⟩
/-- PMU_STATUS.WRITE_REFUSED. -/
abbrev F_PMU_STATUS_WRITE_REFUSED : Fld := ⟨0x010004, 24, 1⟩
/-- PMU_DOM_LO, R447. -/
abbrev R_PMU_DOM_LO : Nat := 0x010008
/-- PMU_DOM_LO.STATE. -/
abbrev F_PMU_DOM_LO_STATE : Fld := ⟨0x010008, 0, 32⟩
/-- PMU_DOM_HI, R447. -/
abbrev R_PMU_DOM_HI : Nat := 0x01000C
/-- PMU_DOM_HI.STATE. -/
abbrev F_PMU_DOM_HI_STATE : Fld := ⟨0x01000C, 0, 6⟩
/-- PMU_WAKE_AT_W, R447. -/
abbrev R_PMU_WAKE_AT_W (i : Nat) : Nat := 0x010010 + 0x4 * i
/-- PMU_WAKE_AT_W.TS. -/
abbrev F_PMU_WAKE_AT_W_TS (i : Nat) : Fld := ⟨0x010010 + 0x4 * i, 0, 32⟩
/-- PMU_TEMP, R447. -/
abbrev R_PMU_TEMP : Nat := 0x010020
/-- PMU_TEMP.T_NOW. -/
abbrev F_PMU_TEMP_T_NOW : Fld := ⟨0x010020, 0, 16⟩
/-- PMU_TEMP.T_MAX. -/
abbrev F_PMU_TEMP_T_MAX : Fld := ⟨0x010020, 16, 16⟩
/-- PMU_THERM, R447. -/
abbrev R_PMU_THERM : Nat := 0x010024
/-- PMU_THERM.THROTTLE. -/
abbrev F_PMU_THERM_THROTTLE : Fld := ⟨0x010024, 0, 16⟩
/-- PMU_THERM.TRIP. -/
abbrev F_PMU_THERM_TRIP : Fld := ⟨0x010024, 16, 16⟩
/-- PMU_THERM_REL, R447. -/
abbrev R_PMU_THERM_REL : Nat := 0x010028
/-- PMU_THERM_REL.RELEASE. -/
abbrev F_PMU_THERM_REL_RELEASE : Fld := ⟨0x010028, 0, 16⟩
/-- PMU_THERM_REL.STEP. -/
abbrev F_PMU_THERM_REL_STEP : Fld := ⟨0x010028, 16, 8⟩
/-- PMU_AVS_CTRL, R447. -/
abbrev R_PMU_AVS_CTRL : Nat := 0x010030
/-- PMU_AVS_CTRL.MARGIN. -/
abbrev F_PMU_AVS_CTRL_MARGIN : Fld := ⟨0x010030, 0, 8⟩
/-- PMU_AVS_STATUS, R447. -/
abbrev R_PMU_AVS_STATUS : Nat := 0x010034
/-- PMU_AVS_STATUS.VOUT. -/
abbrev F_PMU_AVS_STATUS_VOUT : Fld := ⟨0x010034, 0, 12⟩
/-- PMU_AVS_STATUS.TARGET. -/
abbrev F_PMU_AVS_STATUS_TARGET : Fld := ⟨0x010034, 16, 12⟩
/-- PMU_AVS_STATUS.FAILS. -/
abbrev F_PMU_AVS_STATUS_FAILS : Fld := ⟨0x010034, 28, 4⟩
/-- PMU_OPP, R447. -/
abbrev R_PMU_OPP (i : Nat) : Nat := 0x010040 + 0x4 * i
/-- PMU_OPP.MHZ. -/
abbrev F_PMU_OPP_MHZ (i : Nat) : Fld := ⟨0x010040 + 0x4 * i, 0, 12⟩
/-- PMU_OPP.MV. -/
abbrev F_PMU_OPP_MV (i : Nat) : Fld := ⟨0x010040 + 0x4 * i, 16, 12⟩
/-- PMU_TRANS, R447. -/
abbrev R_PMU_TRANS : Nat := 0x010050
/-- PMU_TRANS.US. -/
abbrev F_PMU_TRANS_US : Fld := ⟨0x010050, 0, 24⟩
/-- PMU_TRANS.FROM. -/
abbrev F_PMU_TRANS_FROM : Fld := ⟨0x010050, 24, 3⟩
/-- PMU_TRANS.TO. -/
abbrev F_PMU_TRANS_TO : Fld := ⟨0x010050, 28, 3⟩
/-- PMU_COUNTS, R447. -/
abbrev R_PMU_COUNTS : Nat := 0x010054
/-- PMU_COUNTS.WAKES. -/
abbrev F_PMU_COUNTS_WAKES : Fld := ⟨0x010054, 0, 16⟩
/-- PMU_COUNTS.THROTTLES. -/
abbrev F_PMU_COUNTS_THROTTLES : Fld := ⟨0x010054, 16, 8⟩
/-- PMU_COUNTS.AVS_FAILS. -/
abbrev F_PMU_COUNTS_AVS_FAILS : Fld := ⟨0x010054, 24, 8⟩
/-- PMU_SNAP_STATUS, R447. -/
abbrev R_PMU_SNAP_STATUS : Nat := 0x010060
/-- PMU_SNAP_STATUS.VALUE. -/
abbrev F_PMU_SNAP_STATUS_VALUE : Fld := ⟨0x010060, 0, 32⟩
/-- PMU_SNAP_TEMP, R447. -/
abbrev R_PMU_SNAP_TEMP : Nat := 0x010064
/-- PMU_SNAP_TEMP.VALUE. -/
abbrev F_PMU_SNAP_TEMP_VALUE : Fld := ⟨0x010064, 0, 32⟩
/-- CKG_P_CTRL, R447. -/
abbrev R_CKG_P_CTRL (i : Nat) : Nat := 0x011000 + 0x100 * i
/-- CKG_P_CTRL.TARGET. -/
abbrev F_CKG_P_CTRL_TARGET (i : Nat) : Fld := ⟨0x011000 + 0x100 * i, 0, 12⟩
/-- CKG_P_CTRL.SSC. -/
abbrev F_CKG_P_CTRL_SSC (i : Nat) : Fld := ⟨0x011000 + 0x100 * i, 12, 2⟩
/-- CKG_P_STATUS, R447. -/
abbrev R_CKG_P_STATUS (i : Nat) : Nat := 0x011004 + 0x100 * i
/-- CKG_P_STATUS.STATE. -/
abbrev F_CKG_P_STATUS_STATE (i : Nat) : Fld := ⟨0x011004 + 0x100 * i, 0, 3⟩
/-- CKG_P_STATUS.BAND. -/
abbrev F_CKG_P_STATUS_BAND (i : Nat) : Fld := ⟨0x011004 + 0x100 * i, 8, 6⟩
/-- CKG_P_STATUS.FINE. -/
abbrev F_CKG_P_STATUS_FINE (i : Nat) : Fld := ⟨0x011004 + 0x100 * i, 16, 10⟩
/-- CKG_P_FREQ, R447. -/
abbrev R_CKG_P_FREQ (i : Nat) : Nat := 0x011008 + 0x100 * i
/-- CKG_P_FREQ.KHZ. -/
abbrev F_CKG_P_FREQ_KHZ (i : Nat) : Fld := ⟨0x011008 + 0x100 * i, 0, 24⟩
/-- CKG_P_COUNTS, R447. -/
abbrev R_CKG_P_COUNTS (i : Nat) : Nat := 0x01100C + 0x100 * i
/-- CKG_P_COUNTS.LOCK_LOSS. -/
abbrev F_CKG_P_COUNTS_LOCK_LOSS (i : Nat) : Fld := ⟨0x01100C + 0x100 * i, 0, 16⟩
/-- CKG_P_COUNTS.CHANGES. -/
abbrev F_CKG_P_COUNTS_CHANGES (i : Nat) : Fld := ⟨0x01100C + 0x100 * i, 16, 16⟩
/-- CKG_P_BAND, R447. -/
abbrev R_CKG_P_BAND (i j : Nat) : Nat := 0x011040 + 0x100 * i + 0x4 * j
/-- CKG_P_BAND.F_LO. -/
abbrev F_CKG_P_BAND_F_LO (i j : Nat) : Fld := ⟨0x011040 + 0x100 * i + 0x4 * j, 0, 12⟩
/-- CKG_P_BAND.BAND. -/
abbrev F_CKG_P_BAND_BAND (i j : Nat) : Fld := ⟨0x011040 + 0x100 * i + 0x4 * j, 12, 6⟩
/-- CKG_P_BAND.FINE0. -/
abbrev F_CKG_P_BAND_FINE0 (i j : Nat) : Fld := ⟨0x011040 + 0x100 * i + 0x4 * j, 18, 10⟩
/-- CKG_P_BAND.VALID. -/
abbrev F_CKG_P_BAND_VALID (i j : Nat) : Fld := ⟨0x011040 + 0x100 * i + 0x4 * j, 31, 1⟩
/-- CKG_SNAP_FREQ, R447. -/
abbrev R_CKG_SNAP_FREQ : Nat := 0x011F10
/-- CKG_SNAP_FREQ.KHZ. -/
abbrev F_CKG_SNAP_FREQ_KHZ : Fld := ⟨0x011F10, 0, 24⟩
/-- TBS_CTRL, R447. -/
abbrev R_TBS_CTRL : Nat := 0x012000
/-- TBS_CTRL.MODE. -/
abbrev F_TBS_CTRL_MODE : Fld := ⟨0x012000, 0, 2⟩
/-- TBS_CTRL.TBJ_MODE. -/
abbrev F_TBS_CTRL_TBJ_MODE : Fld := ⟨0x012000, 2, 2⟩
/-- TBS_CTRL.CLR_COUNTERS. -/
abbrev F_TBS_CTRL_CLR_COUNTERS : Fld := ⟨0x012000, 4, 1⟩
/-- TBS_STATE, R447. -/
abbrev R_TBS_STATE : Nat := 0x012004
/-- TBS_STATE.STATE. -/
abbrev F_TBS_STATE_STATE : Fld := ⟨0x012004, 0, 3⟩
/-- TBS_STATE.PPS_VALID. -/
abbrev F_TBS_STATE_PPS_VALID : Fld := ⟨0x012004, 4, 1⟩
/-- TBS_STATE.REF10_VALID. -/
abbrev F_TBS_STATE_REF10_VALID : Fld := ⟨0x012004, 5, 1⟩
/-- TBS_STATE.FREQ_OK. -/
abbrev F_TBS_STATE_FREQ_OK : Fld := ⟨0x012004, 6, 1⟩
/-- TBS_TS_W, R447. -/
abbrev R_TBS_TS_W (i : Nat) : Nat := 0x012008 + 0x4 * i
/-- TBS_TS_W.TS. -/
abbrev F_TBS_TS_W_TS (i : Nat) : Fld := ⟨0x012008 + 0x4 * i, 0, 32⟩
/-- TBS_STEER, R447. -/
abbrev R_TBS_STEER : Nat := 0x012014
/-- TBS_STEER.STEER. -/
abbrev F_TBS_STEER_STEER : Fld := ⟨0x012014, 0, 32⟩
/-- TBS_SLEW, R447. -/
abbrev R_TBS_SLEW : Nat := 0x012018
/-- TBS_SLEW.OFFSET. -/
abbrev F_TBS_SLEW_OFFSET : Fld := ⟨0x012018, 0, 32⟩
/-- TBS_PHASE_ERR_LO, R447. -/
abbrev R_TBS_PHASE_ERR_LO : Nat := 0x01201C
/-- TBS_PHASE_ERR_LO.E. -/
abbrev F_TBS_PHASE_ERR_LO_E : Fld := ⟨0x01201C, 0, 32⟩
/-- TBS_PHASE_ERR_HI, R447. -/
abbrev R_TBS_PHASE_ERR_HI : Nat := 0x012020
/-- TBS_PHASE_ERR_HI.E. -/
abbrev F_TBS_PHASE_ERR_HI_E : Fld := ⟨0x012020, 0, 16⟩
/-- TBS_PPS_OFS, R447. -/
abbrev R_TBS_PPS_OFS : Nat := 0x012024
/-- TBS_PPS_OFS.OFS. -/
abbrev F_TBS_PPS_OFS_OFS : Fld := ⟨0x012024, 0, 32⟩
/-- TBS_REF_TOL, R447. -/
abbrev R_TBS_REF_TOL : Nat := 0x012028
/-- TBS_REF_TOL.REF_TOL. -/
abbrev F_TBS_REF_TOL_REF_TOL : Fld := ⟨0x012028, 0, 8⟩
/-- TBS_REF_TOL.PPS_TOL. -/
abbrev F_TBS_REF_TOL_PPS_TOL : Fld := ⟨0x012028, 16, 16⟩
/-- TBS_LOOP, R447. -/
abbrev R_TBS_LOOP : Nat := 0x01202C
/-- TBS_LOOP.TC. -/
abbrev F_TBS_LOOP_TC : Fld := ⟨0x01202C, 0, 16⟩
/-- TBS_LOOP.HO_AVG. -/
abbrev F_TBS_LOOP_HO_AVG : Fld := ⟨0x01202C, 16, 16⟩
/-- TBS_TBJ, R447. -/
abbrev R_TBS_TBJ : Nat := 0x012030
/-- TBS_TBJ.THRESH. -/
abbrev F_TBS_TBJ_THRESH : Fld := ⟨0x012030, 0, 24⟩
/-- TBS_TBJ.SLEW_MAX. -/
abbrev F_TBS_TBJ_SLEW_MAX : Fld := ⟨0x012030, 24, 5⟩
/-- TBS_HOLDOVER, R447. -/
abbrev R_TBS_HOLDOVER : Nat := 0x012034
/-- TBS_HOLDOVER.S. -/
abbrev F_TBS_HOLDOVER_S : Fld := ⟨0x012034, 0, 32⟩
/-- TBS_LAST_STEP_LO, R447. -/
abbrev R_TBS_LAST_STEP_LO : Nat := 0x012038
/-- TBS_LAST_STEP_LO.NS. -/
abbrev F_TBS_LAST_STEP_LO_NS : Fld := ⟨0x012038, 0, 32⟩
/-- TBS_LAST_STEP_HI, R447. -/
abbrev R_TBS_LAST_STEP_HI : Nat := 0x01203C
/-- TBS_LAST_STEP_HI.NS. -/
abbrev F_TBS_LAST_STEP_HI_NS : Fld := ⟨0x01203C, 0, 32⟩
/-- TBS_PPS_OUT, R447. -/
abbrev R_TBS_PPS_OUT : Nat := 0x012040
/-- TBS_PPS_OUT.EN. -/
abbrev F_TBS_PPS_OUT_EN : Fld := ⟨0x012040, 0, 1⟩
/-- TBS_PPS_OUT.POL. -/
abbrev F_TBS_PPS_OUT_POL : Fld := ⟨0x012040, 1, 1⟩
/-- TBS_PPS_OUT.WIDTH. -/
abbrev F_TBS_PPS_OUT_WIDTH : Fld := ⟨0x012040, 8, 10⟩
/-- TBS_PPS_OUT_OFS, R447. -/
abbrev R_TBS_PPS_OUT_OFS : Nat := 0x012044
/-- TBS_PPS_OUT_OFS.OFS. -/
abbrev F_TBS_PPS_OUT_OFS_OFS : Fld := ⟨0x012044, 0, 32⟩
/-- TBS_CREF, R447. -/
abbrev R_TBS_CREF : Nat := 0x012048
/-- TBS_CREF.EN. -/
abbrev F_TBS_CREF_EN : Fld := ⟨0x012048, 0, 1⟩
/-- TBS_CREF.REST. -/
abbrev F_TBS_CREF_REST : Fld := ⟨0x012048, 1, 1⟩
/-- TBS_CREF.DIV. -/
abbrev F_TBS_CREF_DIV : Fld := ⟨0x012048, 8, 8⟩
/-- TBS_COUNTS, R447. -/
abbrev R_TBS_COUNTS : Nat := 0x01204C
/-- TBS_COUNTS.REF_LOSS. -/
abbrev F_TBS_COUNTS_REF_LOSS : Fld := ⟨0x01204C, 0, 8⟩
/-- TBS_COUNTS.JUMPS. -/
abbrev F_TBS_COUNTS_JUMPS : Fld := ⟨0x01204C, 8, 8⟩
/-- TBS_COUNTS.STEPS. -/
abbrev F_TBS_COUNTS_STEPS : Fld := ⟨0x01204C, 16, 8⟩
/-- TBS_COUNTS.SLEWS. -/
abbrev F_TBS_COUNTS_SLEWS : Fld := ⟨0x01204C, 24, 8⟩
/-- TBS_SNAP_STATE, R447. -/
abbrev R_TBS_SNAP_STATE : Nat := 0x012050
/-- TBS_SNAP_STATE.VALUE. -/
abbrev F_TBS_SNAP_STATE_VALUE : Fld := ⟨0x012050, 0, 32⟩
/-- TBS_SNAP_TS_W, R447. -/
abbrev R_TBS_SNAP_TS_W (i : Nat) : Nat := 0x012054 + 0x4 * i
/-- TBS_SNAP_TS_W.TS. -/
abbrev F_TBS_SNAP_TS_W_TS (i : Nat) : Fld := ⟨0x012054 + 0x4 * i, 0, 32⟩
/-- HIF_CTRL, R298. -/
abbrev R_HIF_CTRL : Nat := 0x020000
/-- HIF_CTRL.CLR_COUNTERS. -/
abbrev F_HIF_CTRL_CLR_COUNTERS : Fld := ⟨0x020000, 0, 1⟩
/-- HIF_STATUS, R298. -/
abbrev R_HIF_STATUS : Nat := 0x020004
/-- HIF_STATUS.LINK_SPEED. -/
abbrev F_HIF_STATUS_LINK_SPEED : Fld := ⟨0x020004, 0, 4⟩
/-- HIF_STATUS.LINK_WIDTH. -/
abbrev F_HIF_STATUS_LINK_WIDTH : Fld := ⟨0x020004, 4, 4⟩
/-- HIF_STATUS.LINK_UP. -/
abbrev F_HIF_STATUS_LINK_UP : Fld := ⟨0x020004, 8, 1⟩
/-- HIF_STATUS.L1_2. -/
abbrev F_HIF_STATUS_L1_2 : Fld := ⟨0x020004, 9, 1⟩
/-- HIF_STATUS.WRITE_REFUSED. -/
abbrev F_HIF_STATUS_WRITE_REFUSED : Fld := ⟨0x020004, 24, 1⟩
/-- HIF_NUM_VF, R298. -/
abbrev R_HIF_NUM_VF : Nat := 0x020008
/-- HIF_NUM_VF.VFS. -/
abbrev F_HIF_NUM_VF_VFS : Fld := ⟨0x020008, 0, 5⟩
/-- HIF_INFLIGHT, R298. -/
abbrev R_HIF_INFLIGHT : Nat := 0x02000C
/-- HIF_INFLIGHT.COUNT. -/
abbrev F_HIF_INFLIGHT_COUNT : Fld := ⟨0x02000C, 0, 13⟩
/-- HIF_QP_USED, R298. -/
abbrev R_HIF_QP_USED : Nat := 0x020010
/-- HIF_QP_USED.COUNT. -/
abbrev F_HIF_QP_USED_COUNT : Fld := ⟨0x020010, 0, 10⟩
/-- HIF_CTX_USED, R298. -/
abbrev R_HIF_CTX_USED : Nat := 0x020014
/-- HIF_CTX_USED.COUNT. -/
abbrev F_HIF_CTX_USED_COUNT : Fld := ⟨0x020014, 0, 13⟩
/-- HIF_DENIED_OFS, R298. -/
abbrev R_HIF_DENIED_OFS : Nat := 0x020020
/-- HIF_DENIED_OFS.OFFSET. -/
abbrev F_HIF_DENIED_OFS_OFFSET : Fld := ⟨0x020020, 0, 24⟩
/-- HIF_DENIED_SRC, R298. -/
abbrev R_HIF_DENIED_SRC : Nat := 0x020024
/-- HIF_DENIED_SRC.FUNCTION. -/
abbrev F_HIF_DENIED_SRC_FUNCTION : Fld := ⟨0x020024, 0, 5⟩
/-- HIF_DENIED_SRC.CONTEXT. -/
abbrev F_HIF_DENIED_SRC_CONTEXT : Fld := ⟨0x020024, 16, 12⟩
/-- HIF_DENIED_COUNT, R298. -/
abbrev R_HIF_DENIED_COUNT : Nat := 0x020028
/-- HIF_DENIED_COUNT.COUNT. -/
abbrev F_HIF_DENIED_COUNT_COUNT : Fld := ⟨0x020028, 0, 32⟩
/-- HIF_PATCH, R298. -/
abbrev R_HIF_PATCH : Nat := 0x020040
/-- HIF_PATCH.VERSION. -/
abbrev F_HIF_PATCH_VERSION : Fld := ⟨0x020040, 0, 8⟩
/-- HIF_PATCH.REASON. -/
abbrev F_HIF_PATCH_REASON : Fld := ⟨0x020040, 8, 8⟩
/-- HIF_WIN_BLOCKED, R298. -/
abbrev R_HIF_WIN_BLOCKED : Nat := 0x020048
/-- HIF_WIN_BLOCKED.COUNT. -/
abbrev F_HIF_WIN_BLOCKED_COUNT : Fld := ⟨0x020048, 0, 32⟩
/-- HIF_F_WIN, R298. -/
abbrev R_HIF_F_WIN (i : Nat) : Nat := 0x020100 + 0x4 * i
/-- HIF_F_WIN.BASE. -/
abbrev F_HIF_F_WIN_BASE (i : Nat) : Fld := ⟨0x020100 + 0x4 * i, 0, 11⟩
/-- HIF_F_WIN.RD. -/
abbrev F_HIF_F_WIN_RD (i : Nat) : Fld := ⟨0x020100 + 0x4 * i, 16, 1⟩
/-- HIF_F_WIN.WR. -/
abbrev F_HIF_F_WIN_WR (i : Nat) : Fld := ⟨0x020100 + 0x4 * i, 17, 1⟩
/-- HIF_F_QUOTA, R298. -/
abbrev R_HIF_F_QUOTA (i : Nat) : Nat := 0x020180 + 0x4 * i
/-- HIF_F_QUOTA.QP. -/
abbrev F_HIF_F_QUOTA_QP (i : Nat) : Fld := ⟨0x020180 + 0x4 * i, 0, 10⟩
/-- HIF_F_QUOTA.CTX. -/
abbrev F_HIF_F_QUOTA_CTX (i : Nat) : Fld := ⟨0x020180 + 0x4 * i, 16, 13⟩
/-- HIF_F_EVT_LOST, R298. -/
abbrev R_HIF_F_EVT_LOST (i : Nat) : Nat := 0x020200 + 0x4 * i
/-- HIF_F_EVT_LOST.COUNT. -/
abbrev F_HIF_F_EVT_LOST_COUNT (i : Nat) : Fld := ⟨0x020200 + 0x4 * i, 0, 32⟩
/-- HIF_SNAP_STATUS, R298. -/
abbrev R_HIF_SNAP_STATUS : Nat := 0x020300
/-- HIF_SNAP_STATUS.VALUE. -/
abbrev F_HIF_SNAP_STATUS_VALUE : Fld := ⟨0x020300, 0, 32⟩
/-- HIF_SNAP_INFLIGHT, R298. -/
abbrev R_HIF_SNAP_INFLIGHT : Nat := 0x020304
/-- HIF_SNAP_INFLIGHT.VALUE. -/
abbrev F_HIF_SNAP_INFLIGHT_VALUE : Fld := ⟨0x020304, 0, 32⟩
/-- ADM_STATUS, R321. -/
abbrev R_ADM_STATUS : Nat := 0x021000
/-- ADM_STATUS.F_CODE. -/
abbrev F_ADM_STATUS_F_CODE : Fld := ⟨0x021000, 0, 8⟩
/-- ADM_STATUS.BUSY. -/
abbrev F_ADM_STATUS_BUSY : Fld := ⟨0x021000, 8, 1⟩
/-- ADM_STATUS.READMIT. -/
abbrev F_ADM_STATUS_READMIT : Fld := ⟨0x021000, 9, 1⟩
/-- ADM_STATUS.CONTRACTS. -/
abbrev F_ADM_STATUS_CONTRACTS : Fld := ⟨0x021000, 16, 13⟩
/-- ADM_SILO_RES, R321. -/
abbrev R_ADM_SILO_RES : Nat := 0x021004
/-- ADM_SILO_RES.MBPS. -/
abbrev F_ADM_SILO_RES_MBPS : Fld := ⟨0x021004, 0, 32⟩
/-- ADM_DRAM_CAP, R321. -/
abbrev R_ADM_DRAM_CAP : Nat := 0x021008
/-- ADM_DRAM_CAP.MBPS. -/
abbrev F_ADM_DRAM_CAP_MBPS : Fld := ⟨0x021008, 0, 32⟩
/-- ADM_DRAM_RES, R321. -/
abbrev R_ADM_DRAM_RES : Nat := 0x02100C
/-- ADM_DRAM_RES.MBPS. -/
abbrev F_ADM_DRAM_RES_MBPS : Fld := ⟨0x02100C, 0, 32⟩
/-- ADM_LINK_CAP, R321. -/
abbrev R_ADM_LINK_CAP : Nat := 0x021010
/-- ADM_LINK_CAP.MBPS. -/
abbrev F_ADM_LINK_CAP_MBPS : Fld := ⟨0x021010, 0, 32⟩
/-- ADM_D2H_RES, R321. -/
abbrev R_ADM_D2H_RES : Nat := 0x021014
/-- ADM_D2H_RES.MBPS. -/
abbrev F_ADM_D2H_RES_MBPS : Fld := ⟨0x021014, 0, 32⟩
/-- ADM_H2D_RES, R321. -/
abbrev R_ADM_H2D_RES : Nat := 0x021018
/-- ADM_H2D_RES.MBPS. -/
abbrev F_ADM_H2D_RES_MBPS : Fld := ⟨0x021018, 0, 32⟩
/-- ADM_UNITS, R321. -/
abbrev R_ADM_UNITS : Nat := 0x02101C
/-- ADM_UNITS.CMP. -/
abbrev F_ADM_UNITS_CMP : Fld := ⟨0x02101C, 0, 4⟩
/-- ADM_UNITS.DMA. -/
abbrev F_ADM_UNITS_DMA : Fld := ⟨0x02101C, 8, 8⟩
/-- ADM_UNITS.FIN. -/
abbrev F_ADM_UNITS_FIN : Fld := ⟨0x02101C, 16, 8⟩
/-- ADM_REFUSED, R321. -/
abbrev R_ADM_REFUSED : Nat := 0x021020
/-- ADM_REFUSED.COUNT. -/
abbrev F_ADM_REFUSED_COUNT : Fld := ⟨0x021020, 0, 32⟩
/-- ADM_BROKEN, R321. -/
abbrev R_ADM_BROKEN : Nat := 0x021024
/-- ADM_BROKEN.COUNT. -/
abbrev F_ADM_BROKEN_COUNT : Fld := ⟨0x021024, 0, 32⟩
/-- ADM_B_FREE, R321. -/
abbrev R_ADM_B_FREE (i : Nat) : Nat := 0x021040 + 0x4 * i
/-- ADM_B_FREE.PIECE. -/
abbrev F_ADM_B_FREE_PIECE (i : Nat) : Fld := ⟨0x021040 + 0x4 * i, 0, 16⟩
/-- ADM_B_FREE.SLOTS. -/
abbrev F_ADM_B_FREE_SLOTS (i : Nat) : Fld := ⟨0x021040 + 0x4 * i, 16, 6⟩
/-- ADM_B_FREE.GUARDED. -/
abbrev F_ADM_B_FREE_GUARDED (i : Nat) : Fld := ⟨0x021040 + 0x4 * i, 24, 1⟩
/-- MBX_CTRL, R345. -/
abbrev R_MBX_CTRL : Nat := 0x030000
/-- MBX_CTRL.CLR_COUNTERS. -/
abbrev F_MBX_CTRL_CLR_COUNTERS : Fld := ⟨0x030000, 0, 1⟩
/-- MBX_STATUS, R345. -/
abbrev R_MBX_STATUS : Nat := 0x030004
/-- MBX_STATUS.WRITE_REFUSED. -/
abbrev F_MBX_STATUS_WRITE_REFUSED : Fld := ⟨0x030004, 24, 1⟩
/-- MBX_LOCK_FORCE, R345. -/
abbrev R_MBX_LOCK_FORCE : Nat := 0x030008
/-- MBX_LOCK_FORCE.LOCK. -/
abbrev F_MBX_LOCK_FORCE_LOCK : Fld := ⟨0x030008, 0, 6⟩
/-- MBX_LOCK_BAD, R345. -/
abbrev R_MBX_LOCK_BAD : Nat := 0x03000C
/-- MBX_LOCK_BAD.COUNT. -/
abbrev F_MBX_LOCK_BAD_COUNT : Fld := ⟨0x03000C, 0, 32⟩
/-- MBX_LOCK_FORCED, R345. -/
abbrev R_MBX_LOCK_FORCED : Nat := 0x030010
/-- MBX_LOCK_FORCED.COUNT. -/
abbrev F_MBX_LOCK_FORCED_COUNT : Fld := ⟨0x030010, 0, 32⟩
/-- MBX_CROSS, R345. -/
abbrev R_MBX_CROSS : Nat := 0x030014
/-- MBX_CROSS.COUNT. -/
abbrev F_MBX_CROSS_COUNT : Fld := ⟨0x030014, 0, 32⟩
/-- MBX_LOCK_HELD_LO, R345. -/
abbrev R_MBX_LOCK_HELD_LO : Nat := 0x030020
/-- MBX_LOCK_HELD_LO.VALUE. -/
abbrev F_MBX_LOCK_HELD_LO_VALUE : Fld := ⟨0x030020, 0, 32⟩
/-- MBX_LOCK_HELD_HI, R345. -/
abbrev R_MBX_LOCK_HELD_HI : Nat := 0x030024
/-- MBX_LOCK_HELD_HI.VALUE. -/
abbrev F_MBX_LOCK_HELD_HI_VALUE : Fld := ⟨0x030024, 0, 32⟩
/-- MBX_SNAP_STATUS, R345. -/
abbrev R_MBX_SNAP_STATUS : Nat := 0x030030
/-- MBX_SNAP_STATUS.VALUE. -/
abbrev F_MBX_SNAP_STATUS_VALUE : Fld := ⟨0x030030, 0, 32⟩
/-- MBX_SNAP_HELD_LO, R345. -/
abbrev R_MBX_SNAP_HELD_LO : Nat := 0x030034
/-- MBX_SNAP_HELD_LO.VALUE. -/
abbrev F_MBX_SNAP_HELD_LO_VALUE : Fld := ⟨0x030034, 0, 32⟩
/-- MBX_SNAP_HELD_HI, R345. -/
abbrev R_MBX_SNAP_HELD_HI : Nat := 0x030038
/-- MBX_SNAP_HELD_HI.VALUE. -/
abbrev F_MBX_SNAP_HELD_HI_VALUE : Fld := ⟨0x030038, 0, 32⟩
/-- MBX_LOCK_TRY, R345. -/
abbrev R_MBX_LOCK_TRY (i : Nat) : Nat := 0x030100 + 0x4 * i
/-- MBX_LOCK_TRY.OWNER. -/
abbrev F_MBX_LOCK_TRY_OWNER (i : Nat) : Fld := ⟨0x030100 + 0x4 * i, 0, 8⟩
/-- MBX_LOCK_OWNER, R345. -/
abbrev R_MBX_LOCK_OWNER (i : Nat) : Nat := 0x030200 + 0x4 * i
/-- MBX_LOCK_OWNER.OWNER. -/
abbrev F_MBX_LOCK_OWNER_OWNER (i : Nat) : Fld := ⟨0x030200 + 0x4 * i, 0, 8⟩
/-- MBX_LOCK_OWNER.FORCED. -/
abbrev F_MBX_LOCK_OWNER_FORCED (i : Nat) : Fld := ⟨0x030200 + 0x4 * i, 8, 1⟩
/-- MBX_S_CFG, R345. -/
abbrev R_MBX_S_CFG (i : Nat) : Nat := 0x031000 + 0x100 * i
/-- MBX_S_CFG.EN. -/
abbrev F_MBX_S_CFG_EN (i : Nat) : Fld := ⟨0x031000 + 0x100 * i, 0, 1⟩
/-- MBX_S_CFG.NOTIFY. -/
abbrev F_MBX_S_CFG_NOTIFY (i : Nat) : Fld := ⟨0x031000 + 0x100 * i, 1, 1⟩
/-- MBX_S_CFG.IRQ_EN. -/
abbrev F_MBX_S_CFG_IRQ_EN (i : Nat) : Fld := ⟨0x031000 + 0x100 * i, 2, 1⟩
/-- MBX_S_CFG.VEC. -/
abbrev F_MBX_S_CFG_VEC (i : Nat) : Fld := ⟨0x031000 + 0x100 * i, 16, 11⟩
/-- MBX_S_STATUS, R345. -/
abbrev R_MBX_S_STATUS (i : Nat) : Nat := 0x031004 + 0x100 * i
/-- MBX_S_STATUS.DEPTH_IN. -/
abbrev F_MBX_S_STATUS_DEPTH_IN (i : Nat) : Fld := ⟨0x031004 + 0x100 * i, 0, 4⟩
/-- MBX_S_STATUS.DEPTH_OUT. -/
abbrev F_MBX_S_STATUS_DEPTH_OUT (i : Nat) : Fld := ⟨0x031004 + 0x100 * i, 8, 4⟩
/-- MBX_S_STATUS.WAITING. -/
abbrev F_MBX_S_STATUS_WAITING (i : Nat) : Fld := ⟨0x031004 + 0x100 * i, 12, 1⟩
/-- MBX_S_STATUS.BACKLOG. -/
abbrev F_MBX_S_STATUS_BACKLOG (i : Nat) : Fld := ⟨0x031004 + 0x100 * i, 16, 5⟩
/-- MBX_S_STATUS.REFUSED_IN. -/
abbrev F_MBX_S_STATUS_REFUSED_IN (i : Nat) : Fld := ⟨0x031004 + 0x100 * i, 24, 1⟩
/-- MBX_S_STATUS.REFUSED_OUT. -/
abbrev F_MBX_S_STATUS_REFUSED_OUT (i : Nat) : Fld := ⟨0x031004 + 0x100 * i, 25, 1⟩
/-- MBX_S_STATUS.WITHDRAWN. -/
abbrev F_MBX_S_STATUS_WITHDRAWN (i : Nat) : Fld := ⟨0x031004 + 0x100 * i, 26, 1⟩
/-- MBX_S_STATUS.STAGE_CLASH. -/
abbrev F_MBX_S_STATUS_STAGE_CLASH (i : Nat) : Fld := ⟨0x031004 + 0x100 * i, 27, 1⟩
/-- MBX_S_COUNTS, R345. -/
abbrev R_MBX_S_COUNTS (i : Nat) : Nat := 0x031008 + 0x100 * i
/-- MBX_S_COUNTS.REFUSED_IN. -/
abbrev F_MBX_S_COUNTS_REFUSED_IN (i : Nat) : Fld := ⟨0x031008 + 0x100 * i, 0, 8⟩
/-- MBX_S_COUNTS.REFUSED_OUT. -/
abbrev F_MBX_S_COUNTS_REFUSED_OUT (i : Nat) : Fld := ⟨0x031008 + 0x100 * i, 8, 8⟩
/-- MBX_S_COUNTS.WITHDRAWN. -/
abbrev F_MBX_S_COUNTS_WITHDRAWN (i : Nat) : Fld := ⟨0x031008 + 0x100 * i, 16, 8⟩
/-- MBX_S_COUNTS.DENIED. -/
abbrev F_MBX_S_COUNTS_DENIED (i : Nat) : Fld := ⟨0x031008 + 0x100 * i, 24, 8⟩
/-- MBX_S_DB_F, R345. -/
abbrev R_MBX_S_DB_F (i : Nat) : Nat := 0x031010 + 0x100 * i
/-- MBX_S_DB_F.BITS. -/
abbrev F_MBX_S_DB_F_BITS (i : Nat) : Fld := ⟨0x031010 + 0x100 * i, 0, 32⟩
/-- MBX_S_DB_F_SET, R345. -/
abbrev R_MBX_S_DB_F_SET (i : Nat) : Nat := 0x031014 + 0x100 * i
/-- MBX_S_DB_F_SET.BITS. -/
abbrev F_MBX_S_DB_F_SET_BITS (i : Nat) : Fld := ⟨0x031014 + 0x100 * i, 2, 30⟩
/-- MBX_S_DB_F_CLR, R345. -/
abbrev R_MBX_S_DB_F_CLR (i : Nat) : Nat := 0x031018 + 0x100 * i
/-- MBX_S_DB_F_CLR.BITS. -/
abbrev F_MBX_S_DB_F_CLR_BITS (i : Nat) : Fld := ⟨0x031018 + 0x100 * i, 0, 32⟩
/-- MBX_S_DB_F_MASK, R345. -/
abbrev R_MBX_S_DB_F_MASK (i : Nat) : Nat := 0x03101C + 0x100 * i
/-- MBX_S_DB_F_MASK.MASK. -/
abbrev F_MBX_S_DB_F_MASK_MASK (i : Nat) : Fld := ⟨0x03101C + 0x100 * i, 0, 32⟩
/-- MBX_S_DB_H, R345. -/
abbrev R_MBX_S_DB_H (i : Nat) : Nat := 0x031020 + 0x100 * i
/-- MBX_S_DB_H.BITS. -/
abbrev F_MBX_S_DB_H_BITS (i : Nat) : Fld := ⟨0x031020 + 0x100 * i, 0, 32⟩
/-- MBX_S_DB_H_SET, R345. -/
abbrev R_MBX_S_DB_H_SET (i : Nat) : Nat := 0x031024 + 0x100 * i
/-- MBX_S_DB_H_SET.BITS. -/
abbrev F_MBX_S_DB_H_SET_BITS (i : Nat) : Fld := ⟨0x031024 + 0x100 * i, 2, 30⟩
/-- MBX_S_DB_H_CLR, R345. -/
abbrev R_MBX_S_DB_H_CLR (i : Nat) : Nat := 0x031028 + 0x100 * i
/-- MBX_S_DB_H_CLR.BITS. -/
abbrev F_MBX_S_DB_H_CLR_BITS (i : Nat) : Fld := ⟨0x031028 + 0x100 * i, 0, 32⟩
/-- MBX_S_DB_H_MASK, R345. -/
abbrev R_MBX_S_DB_H_MASK (i : Nat) : Nat := 0x03102C + 0x100 * i
/-- MBX_S_DB_H_MASK.MASK. -/
abbrev F_MBX_S_DB_H_MASK_MASK (i : Nat) : Fld := ⟨0x03102C + 0x100 * i, 0, 32⟩
/-- MBX_S_IN_W, R345. -/
abbrev R_MBX_S_IN_W (i j : Nat) : Nat := 0x031030 + 0x100 * i + 0x4 * j
/-- MBX_S_IN_W.WORD. -/
abbrev F_MBX_S_IN_W_WORD (i j : Nat) : Fld := ⟨0x031030 + 0x100 * i + 0x4 * j, 0, 32⟩
/-- MBX_S_IN_HEAD_W, R345. -/
abbrev R_MBX_S_IN_HEAD_W (i j : Nat) : Nat := 0x031040 + 0x100 * i + 0x4 * j
/-- MBX_S_IN_HEAD_W.WORD. -/
abbrev F_MBX_S_IN_HEAD_W_WORD (i j : Nat) : Fld := ⟨0x031040 + 0x100 * i + 0x4 * j, 0, 32⟩
/-- MBX_S_OUT_W, R345. -/
abbrev R_MBX_S_OUT_W (i j : Nat) : Nat := 0x031050 + 0x100 * i + 0x4 * j
/-- MBX_S_OUT_W.WORD. -/
abbrev F_MBX_S_OUT_W_WORD (i j : Nat) : Fld := ⟨0x031050 + 0x100 * i + 0x4 * j, 0, 32⟩
/-- MBX_S_OUT_HEAD_W, R345. -/
abbrev R_MBX_S_OUT_HEAD_W (i j : Nat) : Nat := 0x031060 + 0x100 * i + 0x4 * j
/-- MBX_S_OUT_HEAD_W.WORD. -/
abbrev F_MBX_S_OUT_HEAD_W_WORD (i j : Nat) : Fld := ⟨0x031060 + 0x100 * i + 0x4 * j, 0, 32⟩
/-- MBX_S_POP, R345. -/
abbrev R_MBX_S_POP (i : Nat) : Nat := 0x031070 + 0x100 * i
/-- MBX_S_POP.IN. -/
abbrev F_MBX_S_POP_IN (i : Nat) : Fld := ⟨0x031070 + 0x100 * i, 0, 1⟩
/-- MBX_S_POP.OUT. -/
abbrev F_MBX_S_POP_OUT (i : Nat) : Fld := ⟨0x031070 + 0x100 * i, 1, 1⟩
/-- MBX_S_WDRAWN_W, R345. -/
abbrev R_MBX_S_WDRAWN_W (i j : Nat) : Nat := 0x031080 + 0x100 * i + 0x4 * j
/-- MBX_S_WDRAWN_W.WORD. -/
abbrev F_MBX_S_WDRAWN_W_WORD (i j : Nat) : Fld := ⟨0x031080 + 0x100 * i + 0x4 * j, 0, 32⟩
/-- JIN_CTRL, R65. -/
abbrev R_JIN_CTRL : Nat := 0x040000
/-- JIN_CTRL.RUN. -/
abbrev F_JIN_CTRL_RUN : Fld := ⟨0x040000, 0, 1⟩
/-- JIN_CTRL.CLR_COUNTERS. -/
abbrev F_JIN_CTRL_CLR_COUNTERS : Fld := ⟨0x040000, 1, 1⟩
/-- JIN_CTRL.PRBS_SEL. -/
abbrev F_JIN_CTRL_PRBS_SEL : Fld := ⟨0x040000, 4, 3⟩
/-- JIN_CTRL.REALIGN. -/
abbrev F_JIN_CTRL_REALIGN : Fld := ⟨0x040000, 8, 1⟩
/-- JIN_STATUS, R65. -/
abbrev R_JIN_STATUS : Nat := 0x040004
/-- JIN_STATUS.UP. -/
abbrev F_JIN_STATUS_UP : Fld := ⟨0x040004, 0, 12⟩
/-- JIN_STATUS.ARMED. -/
abbrev F_JIN_STATUS_ARMED : Fld := ⟨0x040004, 16, 1⟩
/-- JIN_STATUS.ALIGNED. -/
abbrev F_JIN_STATUS_ALIGNED : Fld := ⟨0x040004, 17, 1⟩
/-- JIN_STATUS.WRITE_REFUSED. -/
abbrev F_JIN_STATUS_WRITE_REFUSED : Fld := ⟨0x040004, 24, 1⟩
/-- JIN_LINK_EN, R65. -/
abbrev R_JIN_LINK_EN : Nat := 0x040008
/-- JIN_LINK_EN.LINK_EN. -/
abbrev F_JIN_LINK_EN_LINK_EN : Fld := ⟨0x040008, 0, 12⟩
/-- JIN_PARAMS, R65. -/
abbrev R_JIN_PARAMS : Nat := 0x04000C
/-- JIN_PARAMS.L. -/
abbrev F_JIN_PARAMS_L : Fld := ⟨0x04000C, 0, 1⟩
/-- JIN_PARAMS.NP. -/
abbrev F_JIN_PARAMS_NP : Fld := ⟨0x04000C, 1, 1⟩
/-- JIN_PARAMS.S. -/
abbrev F_JIN_PARAMS_S : Fld := ⟨0x04000C, 2, 2⟩
/-- JIN_PARAMS.CS. -/
abbrev F_JIN_PARAMS_CS : Fld := ⟨0x04000C, 4, 3⟩
/-- JIN_PARAMS.OFFSET_BIN. -/
abbrev F_JIN_PARAMS_OFFSET_BIN : Fld := ⟨0x04000C, 7, 1⟩
/-- JIN_PARAMS.E. -/
abbrev F_JIN_PARAMS_E : Fld := ⟨0x04000C, 8, 2⟩
/-- JIN_PARAMS.F_OCTETS. -/
abbrev F_JIN_PARAMS_F_OCTETS : Fld := ⟨0x04000C, 16, 6⟩
/-- JIN_LANE_RATE, R65. -/
abbrev R_JIN_LANE_RATE : Nat := 0x040010
/-- JIN_LANE_RATE.RATE. -/
abbrev F_JIN_LANE_RATE_RATE : Fld := ⟨0x040010, 0, 16⟩
/-- JIN_RBD, R65. -/
abbrev R_JIN_RBD : Nat := 0x040014
/-- JIN_RBD.RBD. -/
abbrev F_JIN_RBD_RBD : Fld := ⟨0x040014, 0, 8⟩
/-- JIN_TS_PERIOD_LO, R65. -/
abbrev R_JIN_TS_PERIOD_LO : Nat := 0x040018
/-- JIN_TS_PERIOD_LO.FRAC. -/
abbrev F_JIN_TS_PERIOD_LO_FRAC : Fld := ⟨0x040018, 0, 32⟩
/-- JIN_TS_PERIOD_HI, R65. -/
abbrev R_JIN_TS_PERIOD_HI : Nat := 0x04001C
/-- JIN_TS_PERIOD_HI.NS. -/
abbrev F_JIN_TS_PERIOD_HI_NS : Fld := ⟨0x04001C, 0, 16⟩
/-- JIN_AGE, R65. -/
abbrev R_JIN_AGE : Nat := 0x040020
/-- JIN_AGE.AGE. -/
abbrev F_JIN_AGE_AGE : Fld := ⟨0x040020, 0, 32⟩
/-- JIN_ERR_CTRL, R65. -/
abbrev R_JIN_ERR_CTRL : Nat := 0x040024
/-- JIN_ERR_CTRL.CRC_LIMIT. -/
abbrev F_JIN_ERR_CTRL_CRC_LIMIT : Fld := ⟨0x040024, 0, 16⟩
/-- JIN_SYSREF_CTRL, R65. -/
abbrev R_JIN_SYSREF_CTRL : Nat := 0x040030
/-- JIN_SYSREF_CTRL.MODE. -/
abbrev F_JIN_SYSREF_CTRL_MODE : Fld := ⟨0x040030, 0, 2⟩
/-- JIN_SYSREF_CTRL.OUT_EN. -/
abbrev F_JIN_SYSREF_CTRL_OUT_EN : Fld := ⟨0x040030, 2, 6⟩
/-- JIN_SYSREF_CTRL.PULSE_W. -/
abbrev F_JIN_SYSREF_CTRL_PULSE_W : Fld := ⟨0x040030, 8, 8⟩
/-- JIN_SYSREF_CTRL.COUNT. -/
abbrev F_JIN_SYSREF_CTRL_COUNT : Fld := ⟨0x040030, 16, 16⟩
/-- JIN_SYSREF_PERIOD, R65. -/
abbrev R_JIN_SYSREF_PERIOD : Nat := 0x040034
/-- JIN_SYSREF_PERIOD.PERIOD. -/
abbrev F_JIN_SYSREF_PERIOD_PERIOD : Fld := ⟨0x040034, 0, 32⟩
/-- JIN_SYSREF_DLY, R65. -/
abbrev R_JIN_SYSREF_DLY : Nat := 0x040038
/-- JIN_SYSREF_DLY.DLY. -/
abbrev F_JIN_SYSREF_DLY_DLY : Fld := ⟨0x040038, 0, 30⟩
/-- JIN_SYSREF_ISSUE, R65. -/
abbrev R_JIN_SYSREF_ISSUE : Nat := 0x04003C
/-- JIN_SYSREF_ISSUE.GO. -/
abbrev F_JIN_SYSREF_ISSUE_GO : Fld := ⟨0x04003C, 0, 1⟩
/-- JIN_SYSREF_LAST_W, R65. -/
abbrev R_JIN_SYSREF_LAST_W (i : Nat) : Nat := 0x040040 + 0x4 * i
/-- JIN_SYSREF_LAST_W.TS. -/
abbrev F_JIN_SYSREF_LAST_W_TS (i : Nat) : Fld := ⟨0x040040 + 0x4 * i, 0, 32⟩
/-- JIN_SNAP_STATUS, R65. -/
abbrev R_JIN_SNAP_STATUS : Nat := 0x040050
/-- JIN_SNAP_STATUS.VALUE. -/
abbrev F_JIN_SNAP_STATUS_VALUE : Fld := ⟨0x040050, 0, 32⟩
/-- JIN_SNAP_EMB_LO, R65. -/
abbrev R_JIN_SNAP_EMB_LO : Nat := 0x040054
/-- JIN_SNAP_EMB_LO.VALUE. -/
abbrev F_JIN_SNAP_EMB_LO_VALUE : Fld := ⟨0x040054, 0, 32⟩
/-- JIN_SNAP_EMB_HI, R65. -/
abbrev R_JIN_SNAP_EMB_HI : Nat := 0x040058
/-- JIN_SNAP_EMB_HI.VALUE. -/
abbrev F_JIN_SNAP_EMB_HI_VALUE : Fld := ⟨0x040058, 0, 32⟩
/-- JIN_EMB_COUNT_LO, R65. -/
abbrev R_JIN_EMB_COUNT_LO : Nat := 0x040060
/-- JIN_EMB_COUNT_LO.VALUE. -/
abbrev F_JIN_EMB_COUNT_LO_VALUE : Fld := ⟨0x040060, 0, 32⟩
/-- JIN_EMB_COUNT_HI, R65. -/
abbrev R_JIN_EMB_COUNT_HI : Nat := 0x040064
/-- JIN_EMB_COUNT_HI.VALUE. -/
abbrev F_JIN_EMB_COUNT_HI_VALUE : Fld := ⟨0x040064, 0, 32⟩
/-- JIN_L_CFG, R65. -/
abbrev R_JIN_L_CFG (i : Nat) : Nat := 0x041000 + 0x100 * i
/-- JIN_L_CFG.LANE_SWAP. -/
abbrev F_JIN_L_CFG_LANE_SWAP (i : Nat) : Fld := ⟨0x041000 + 0x100 * i, 0, 1⟩
/-- JIN_L_CFG.POL. -/
abbrev F_JIN_L_CFG_POL (i : Nat) : Fld := ⟨0x041000 + 0x100 * i, 1, 2⟩
/-- JIN_L_CFG.INTERLEAVE. -/
abbrev F_JIN_L_CFG_INTERLEAVE (i : Nat) : Fld := ⟨0x041000 + 0x100 * i, 4, 2⟩
/-- JIN_L_CFG.PHASE_ORDER. -/
abbrev F_JIN_L_CFG_PHASE_ORDER (i : Nat) : Fld := ⟨0x041000 + 0x100 * i, 8, 8⟩
/-- JIN_L_LAT_COMP, R65. -/
abbrev R_JIN_L_LAT_COMP (i : Nat) : Nat := 0x041004 + 0x100 * i
/-- JIN_L_LAT_COMP.LAT_COMP. -/
abbrev F_JIN_L_LAT_COMP_LAT_COMP (i : Nat) : Fld := ⟨0x041004 + 0x100 * i, 0, 32⟩
/-- JIN_L_STATUS, R65. -/
abbrev R_JIN_L_STATUS (i : Nat) : Nat := 0x041008 + 0x100 * i
/-- JIN_L_STATUS.CDR_LOCK. -/
abbrev F_JIN_L_STATUS_CDR_LOCK (i : Nat) : Fld := ⟨0x041008 + 0x100 * i, 0, 2⟩
/-- JIN_L_STATUS.SH_LOCK. -/
abbrev F_JIN_L_STATUS_SH_LOCK (i : Nat) : Fld := ⟨0x041008 + 0x100 * i, 2, 2⟩
/-- JIN_L_STATUS.EMB_LOCK. -/
abbrev F_JIN_L_STATUS_EMB_LOCK (i : Nat) : Fld := ⟨0x041008 + 0x100 * i, 4, 2⟩
/-- JIN_L_STATUS.UP. -/
abbrev F_JIN_L_STATUS_UP (i : Nat) : Fld := ⟨0x041008 + 0x100 * i, 8, 1⟩
/-- JIN_L_STATUS.LATE. -/
abbrev F_JIN_L_STATUS_LATE (i : Nat) : Fld := ⟨0x041008 + 0x100 * i, 9, 1⟩
/-- JIN_L_STATUS.FILLING. -/
abbrev F_JIN_L_STATUS_FILLING (i : Nat) : Fld := ⟨0x041008 + 0x100 * i, 10, 1⟩
/-- JIN_L_STATUS.ORDER_BAD. -/
abbrev F_JIN_L_STATUS_ORDER_BAD (i : Nat) : Fld := ⟨0x041008 + 0x100 * i, 11, 1⟩
/-- JIN_L_ARRIVAL, R65. -/
abbrev R_JIN_L_ARRIVAL (i : Nat) : Nat := 0x04100C + 0x100 * i
/-- JIN_L_ARRIVAL.MIN. -/
abbrev F_JIN_L_ARRIVAL_MIN (i : Nat) : Fld := ⟨0x04100C + 0x100 * i, 0, 8⟩
/-- JIN_L_ARRIVAL.MAX. -/
abbrev F_JIN_L_ARRIVAL_MAX (i : Nat) : Fld := ⟨0x04100C + 0x100 * i, 8, 8⟩
/-- JIN_L_ARRIVAL.LANE0. -/
abbrev F_JIN_L_ARRIVAL_LANE0 (i : Nat) : Fld := ⟨0x04100C + 0x100 * i, 16, 8⟩
/-- JIN_L_ARRIVAL.LANE1. -/
abbrev F_JIN_L_ARRIVAL_LANE1 (i : Nat) : Fld := ⟨0x04100C + 0x100 * i, 24, 8⟩
/-- JIN_L_CRC_ERR, R65. -/
abbrev R_JIN_L_CRC_ERR (i : Nat) : Nat := 0x041010 + 0x100 * i
/-- JIN_L_CRC_ERR.COUNT. -/
abbrev F_JIN_L_CRC_ERR_COUNT (i : Nat) : Fld := ⟨0x041010 + 0x100 * i, 0, 32⟩
/-- JIN_L_SH_ERR, R65. -/
abbrev R_JIN_L_SH_ERR (i : Nat) : Nat := 0x041014 + 0x100 * i
/-- JIN_L_SH_ERR.COUNT. -/
abbrev F_JIN_L_SH_ERR_COUNT (i : Nat) : Fld := ⟨0x041014 + 0x100 * i, 0, 32⟩
/-- JIN_L_LOSS, R65. -/
abbrev R_JIN_L_LOSS (i : Nat) : Nat := 0x041018 + 0x100 * i
/-- JIN_L_LOSS.LOSS. -/
abbrev F_JIN_L_LOSS_LOSS (i : Nat) : Fld := ⟨0x041018 + 0x100 * i, 0, 16⟩
/-- JIN_L_LOSS.SYSREF_PHASE. -/
abbrev F_JIN_L_LOSS_SYSREF_PHASE (i : Nat) : Fld := ⟨0x041018 + 0x100 * i, 16, 16⟩
/-- JIN_L_FILL, R65. -/
abbrev R_JIN_L_FILL (i : Nat) : Nat := 0x04101C + 0x100 * i
/-- JIN_L_FILL.COUNT. -/
abbrev F_JIN_L_FILL_COUNT (i : Nat) : Fld := ⟨0x04101C + 0x100 * i, 0, 32⟩
/-- JIN_L_TS0_W, R65. -/
abbrev R_JIN_L_TS0_W (i j : Nat) : Nat := 0x041020 + 0x100 * i + 0x4 * j
/-- JIN_L_TS0_W.TS. -/
abbrev F_JIN_L_TS0_W_TS (i j : Nat) : Fld := ⟨0x041020 + 0x100 * i + 0x4 * j, 0, 32⟩
/-- JIN_L_PRBS, R65. -/
abbrev R_JIN_L_PRBS (i : Nat) : Nat := 0x041030 + 0x100 * i
/-- JIN_L_PRBS.ERR0. -/
abbrev F_JIN_L_PRBS_ERR0 (i : Nat) : Fld := ⟨0x041030 + 0x100 * i, 0, 16⟩
/-- JIN_L_PRBS.ERR1. -/
abbrev F_JIN_L_PRBS_ERR1 (i : Nat) : Fld := ⟨0x041030 + 0x100 * i, 16, 16⟩
/-- JIN_CSPI_CTRL, R65. -/
abbrev R_JIN_CSPI_CTRL : Nat := 0x043000
/-- JIN_CSPI_CTRL.CS. -/
abbrev F_JIN_CSPI_CTRL_CS : Fld := ⟨0x043000, 0, 3⟩
/-- JIN_CSPI_CTRL.MODE. -/
abbrev F_JIN_CSPI_CTRL_MODE : Fld := ⟨0x043000, 3, 2⟩
/-- JIN_CSPI_CTRL.DIV. -/
abbrev F_JIN_CSPI_CTRL_DIV : Fld := ⟨0x043000, 8, 4⟩
/-- JIN_CSPI_CTRL.LEN. -/
abbrev F_JIN_CSPI_CTRL_LEN : Fld := ⟨0x043000, 16, 6⟩
/-- JIN_CSPI_CTRL.BUSY. -/
abbrev F_JIN_CSPI_CTRL_BUSY : Fld := ⟨0x043000, 30, 1⟩
/-- JIN_CSPI_CTRL.GO. -/
abbrev F_JIN_CSPI_CTRL_GO : Fld := ⟨0x043000, 31, 1⟩
/-- JIN_CSPI_DATA, R65. -/
abbrev R_JIN_CSPI_DATA (i : Nat) : Nat := 0x043004 + 0x4 * i
/-- JIN_CSPI_DATA.DATA. -/
abbrev F_JIN_CSPI_DATA_DATA (i : Nat) : Fld := ⟨0x043004 + 0x4 * i, 0, 32⟩
/-- DFU_CTRL, R94. -/
abbrev R_DFU_CTRL (i : Nat) : Nat := 0x080000 + 0x4000 * i
/-- DFU_CTRL.TESTGEN_EN. -/
abbrev F_DFU_CTRL_TESTGEN_EN (i : Nat) : Fld := ⟨0x080000 + 0x4000 * i, 0, 1⟩
/-- DFU_CTRL.CLR_COUNTERS. -/
abbrev F_DFU_CTRL_CLR_COUNTERS (i : Nat) : Fld := ⟨0x080000 + 0x4000 * i, 1, 1⟩
/-- DFU_CTRL.ANCHOR_EN. -/
abbrev F_DFU_CTRL_ANCHOR_EN (i : Nat) : Fld := ⟨0x080000 + 0x4000 * i, 2, 1⟩
/-- DFU_STATUS, R94. -/
abbrev R_DFU_STATUS (i : Nat) : Nat := 0x080004 + 0x4000 * i
/-- DFU_STATUS.SETTLED. -/
abbrev F_DFU_STATUS_SETTLED (i : Nat) : Fld := ⟨0x080004 + 0x4000 * i, 0, 4⟩
/-- DFU_STATUS.CORR_PENDING. -/
abbrev F_DFU_STATUS_CORR_PENDING (i : Nat) : Fld := ⟨0x080004 + 0x4000 * i, 4, 1⟩
/-- DFU_STATUS.ANCHOR_READY. -/
abbrev F_DFU_STATUS_ANCHOR_READY (i : Nat) : Fld := ⟨0x080004 + 0x4000 * i, 5, 1⟩
/-- DFU_STATUS.ANCHOR_OVERRUN. -/
abbrev F_DFU_STATUS_ANCHOR_OVERRUN (i : Nat) : Fld := ⟨0x080004 + 0x4000 * i, 6, 1⟩
/-- DFU_STATUS.RS_LOCKED. -/
abbrev F_DFU_STATUS_RS_LOCKED (i : Nat) : Fld := ⟨0x080004 + 0x4000 * i, 8, 1⟩
/-- DFU_STATUS.FUND_LOST. -/
abbrev F_DFU_STATUS_FUND_LOST (i : Nat) : Fld := ⟨0x080004 + 0x4000 * i, 9, 1⟩
/-- DFU_STATUS.RATE_LIMIT. -/
abbrev F_DFU_STATUS_RATE_LIMIT (i : Nat) : Fld := ⟨0x080004 + 0x4000 * i, 10, 1⟩
/-- DFU_STATUS.PRESET. -/
abbrev F_DFU_STATUS_PRESET (i : Nat) : Fld := ⟨0x080004 + 0x4000 * i, 12, 3⟩
/-- DFU_STATUS.WRITE_REFUSED. -/
abbrev F_DFU_STATUS_WRITE_REFUSED (i : Nat) : Fld := ⟨0x080004 + 0x4000 * i, 24, 1⟩
/-- DFU_MODE, R94. -/
abbrev R_DFU_MODE (i : Nat) : Nat := 0x080008 + 0x4000 * i
/-- DFU_MODE.DEC_MODE. -/
abbrev F_DFU_MODE_DEC_MODE (i : Nat) : Fld := ⟨0x080008 + 0x4000 * i, 0, 3⟩
/-- DFU_MODE.FMT. -/
abbrev F_DFU_MODE_FMT (i : Nat) : Fld := ⟨0x080008 + 0x4000 * i, 3, 2⟩
/-- DFU_MODE.SHARP. -/
abbrev F_DFU_MODE_SHARP (i : Nat) : Fld := ⟨0x080008 + 0x4000 * i, 5, 1⟩
/-- DFU_MODE.A. -/
abbrev F_DFU_MODE_A (i : Nat) : Fld := ⟨0x080008 + 0x4000 * i, 8, 5⟩
/-- DFU_MODE.B. -/
abbrev F_DFU_MODE_B (i : Nat) : Fld := ⟨0x080008 + 0x4000 * i, 16, 2⟩
/-- DFU_MODE.INPUT_EN. -/
abbrev F_DFU_MODE_INPUT_EN (i : Nat) : Fld := ⟨0x080008 + 0x4000 * i, 20, 4⟩
/-- DFU_DEC_FACTOR, R94. -/
abbrev R_DFU_DEC_FACTOR (i : Nat) : Nat := 0x08000C + 0x4000 * i
/-- DFU_DEC_FACTOR.D. -/
abbrev F_DFU_DEC_FACTOR_D (i : Nat) : Fld := ⟨0x08000C + 0x4000 * i, 0, 21⟩
/-- DFU_SETTLE, R94. -/
abbrev R_DFU_SETTLE (i : Nat) : Nat := 0x080010 + 0x4000 * i
/-- DFU_SETTLE.SPAN. -/
abbrev F_DFU_SETTLE_SPAN (i : Nat) : Fld := ⟨0x080010 + 0x4000 * i, 0, 32⟩
/-- DFU_GROUP_DELAY, R94. -/
abbrev R_DFU_GROUP_DELAY (i : Nat) : Nat := 0x080014 + 0x4000 * i
/-- DFU_GROUP_DELAY.GD. -/
abbrev F_DFU_GROUP_DELAY_GD (i : Nat) : Fld := ⟨0x080014 + 0x4000 * i, 0, 32⟩
/-- DFU_TEMP, R94. -/
abbrev R_DFU_TEMP (i : Nat) : Nat := 0x080018 + 0x4000 * i
/-- DFU_TEMP.T_REF. -/
abbrev F_DFU_TEMP_T_REF (i : Nat) : Fld := ⟨0x080018 + 0x4000 * i, 0, 16⟩
/-- DFU_TEMP.T_NOW. -/
abbrev F_DFU_TEMP_T_NOW (i : Nat) : Fld := ⟨0x080018 + 0x4000 * i, 16, 16⟩
/-- DFU_SAT_LIMIT, R94. -/
abbrev R_DFU_SAT_LIMIT (i : Nat) : Nat := 0x08001C + 0x4000 * i
/-- DFU_SAT_LIMIT.LIMIT. -/
abbrev F_DFU_SAT_LIMIT_LIMIT (i : Nat) : Fld := ⟨0x08001C + 0x4000 * i, 0, 16⟩
/-- DFU_CORR_COMMIT, R94. -/
abbrev R_DFU_CORR_COMMIT : Nat := 0x080020
/-- DFU_CORR_COMMIT.GO. -/
abbrev F_DFU_CORR_COMMIT_GO : Fld := ⟨0x080020, 0, 12⟩
/-- DFU_SYNC, R94. -/
abbrev R_DFU_SYNC : Nat := 0x080024
/-- DFU_SYNC.GO. -/
abbrev F_DFU_SYNC_GO : Fld := ⟨0x080024, 0, 12⟩
/-- DFU_CORR_APPLIED_IDX_LO, R94. -/
abbrev R_DFU_CORR_APPLIED_IDX_LO (i : Nat) : Nat := 0x080028 + 0x4000 * i
/-- DFU_CORR_APPLIED_IDX_LO.VALUE. -/
abbrev F_DFU_CORR_APPLIED_IDX_LO_VALUE (i : Nat) : Fld := ⟨0x080028 + 0x4000 * i, 0, 32⟩
/-- DFU_CORR_APPLIED_IDX_HI, R94. -/
abbrev R_DFU_CORR_APPLIED_IDX_HI (i : Nat) : Nat := 0x08002C + 0x4000 * i
/-- DFU_CORR_APPLIED_IDX_HI.VALUE. -/
abbrev F_DFU_CORR_APPLIED_IDX_HI_VALUE (i : Nat) : Fld := ⟨0x08002C + 0x4000 * i, 0, 32⟩
/-- DFU_CORR_APPLIED_W, R94. -/
abbrev R_DFU_CORR_APPLIED_W (i j : Nat) : Nat := 0x080030 + 0x4000 * i + 0x4 * j
/-- DFU_CORR_APPLIED_W.VALUE. -/
abbrev F_DFU_CORR_APPLIED_W_VALUE (i j : Nat) : Fld := ⟨0x080030 + 0x4000 * i + 0x4 * j, 0, 32⟩
/-- DFU_M_OG, R94. -/
abbrev R_DFU_M_OG (i j : Nat) : Nat := 0x080040 + 0x4000 * i + 0x8 * j
/-- DFU_M_OG.OFS. -/
abbrev F_DFU_M_OG_OFS (i j : Nat) : Fld := ⟨0x080040 + 0x4000 * i + 0x8 * j, 0, 16⟩
/-- DFU_M_OG.GAIN. -/
abbrev F_DFU_M_OG_GAIN (i j : Nat) : Fld := ⟨0x080040 + 0x4000 * i + 0x8 * j, 16, 16⟩
/-- DFU_M_SKEW, R94. -/
abbrev R_DFU_M_SKEW (i j : Nat) : Nat := 0x080044 + 0x4000 * i + 0x8 * j
/-- DFU_M_SKEW.SKEW. -/
abbrev F_DFU_M_SKEW_SKEW (i j : Nat) : Fld := ⟨0x080044 + 0x4000 * i + 0x8 * j, 0, 16⟩
/-- DFU_M_SKEW.SKEW_TC. -/
abbrev F_DFU_M_SKEW_SKEW_TC (i j : Nat) : Fld := ⟨0x080044 + 0x4000 * i + 0x8 * j, 16, 16⟩
/-- DFU_M_OG_EFF, R94. -/
abbrev R_DFU_M_OG_EFF (i j : Nat) : Nat := 0x080060 + 0x4000 * i + 0x8 * j
/-- DFU_M_OG_EFF.OFS. -/
abbrev F_DFU_M_OG_EFF_OFS (i j : Nat) : Fld := ⟨0x080060 + 0x4000 * i + 0x8 * j, 0, 16⟩
/-- DFU_M_OG_EFF.GAIN. -/
abbrev F_DFU_M_OG_EFF_GAIN (i j : Nat) : Fld := ⟨0x080060 + 0x4000 * i + 0x8 * j, 16, 16⟩
/-- DFU_M_SKEW_EFF, R94. -/
abbrev R_DFU_M_SKEW_EFF (i j : Nat) : Nat := 0x080064 + 0x4000 * i + 0x8 * j
/-- DFU_M_SKEW_EFF.SKEW_EFF. -/
abbrev F_DFU_M_SKEW_EFF_SKEW_EFF (i j : Nat) : Fld := ⟨0x080064 + 0x4000 * i + 0x8 * j, 0, 16⟩
/-- DFU_M_ACC_SUM_LO, R94. -/
abbrev R_DFU_M_ACC_SUM_LO (i j : Nat) : Nat := 0x080100 + 0x4000 * i + 0x20 * j
/-- DFU_M_ACC_SUM_LO.VALUE. -/
abbrev F_DFU_M_ACC_SUM_LO_VALUE (i j : Nat) : Fld := ⟨0x080100 + 0x4000 * i + 0x20 * j, 0, 32⟩
/-- DFU_M_ACC_SUM_HI, R94. -/
abbrev R_DFU_M_ACC_SUM_HI (i j : Nat) : Nat := 0x080104 + 0x4000 * i + 0x20 * j
/-- DFU_M_ACC_SUM_HI.VALUE. -/
abbrev F_DFU_M_ACC_SUM_HI_VALUE (i j : Nat) : Fld := ⟨0x080104 + 0x4000 * i + 0x20 * j, 0, 32⟩
/-- DFU_M_ACC_SUMSQ_LO, R94. -/
abbrev R_DFU_M_ACC_SUMSQ_LO (i j : Nat) : Nat := 0x080108 + 0x4000 * i + 0x20 * j
/-- DFU_M_ACC_SUMSQ_LO.VALUE. -/
abbrev F_DFU_M_ACC_SUMSQ_LO_VALUE (i j : Nat) : Fld := ⟨0x080108 + 0x4000 * i + 0x20 * j, 0, 32⟩
/-- DFU_M_ACC_SUMSQ_HI, R94. -/
abbrev R_DFU_M_ACC_SUMSQ_HI (i j : Nat) : Nat := 0x08010C + 0x4000 * i + 0x20 * j
/-- DFU_M_ACC_SUMSQ_HI.VALUE. -/
abbrev F_DFU_M_ACC_SUMSQ_HI_VALUE (i j : Nat) : Fld := ⟨0x08010C + 0x4000 * i + 0x20 * j, 0, 32⟩
/-- DFU_M_ACC_COUNT, R94. -/
abbrev R_DFU_M_ACC_COUNT (i j : Nat) : Nat := 0x080110 + 0x4000 * i + 0x20 * j
/-- DFU_M_ACC_COUNT.VALUE. -/
abbrev F_DFU_M_ACC_COUNT_VALUE (i j : Nat) : Fld := ⟨0x080110 + 0x4000 * i + 0x20 * j, 0, 32⟩
/-- DFU_M_ACC_COUNT_EXCL, R94. -/
abbrev R_DFU_M_ACC_COUNT_EXCL (i j : Nat) : Nat := 0x080114 + 0x4000 * i + 0x20 * j
/-- DFU_M_ACC_COUNT_EXCL.VALUE. -/
abbrev F_DFU_M_ACC_COUNT_EXCL_VALUE (i j : Nat) : Fld := ⟨0x080114 + 0x4000 * i + 0x20 * j, 0, 32⟩
/-- DFU_RS_CTRL, R94. -/
abbrev R_DFU_RS_CTRL (i : Nat) : Nat := 0x080200 + 0x4000 * i
/-- DFU_RS_CTRL.EN. -/
abbrev F_DFU_RS_CTRL_EN (i : Nat) : Fld := ⟨0x080200 + 0x4000 * i, 0, 1⟩
/-- DFU_RS_CTRL.FUND_SRC. -/
abbrev F_DFU_RS_CTRL_FUND_SRC (i : Nat) : Fld := ⟨0x080200 + 0x4000 * i, 1, 3⟩
/-- DFU_RS_CTRL.N_CODE. -/
abbrev F_DFU_RS_CTRL_N_CODE (i : Nat) : Fld := ⟨0x080200 + 0x4000 * i, 4, 3⟩
/-- DFU_RS_CTRL.SRC. -/
abbrev F_DFU_RS_CTRL_SRC (i : Nat) : Fld := ⟨0x080200 + 0x4000 * i, 7, 1⟩
/-- DFU_RS_CTRL.HB. -/
abbrev F_DFU_RS_CTRL_HB (i : Nat) : Fld := ⟨0x080200 + 0x4000 * i, 8, 4⟩
/-- DFU_RS_CTRL.LOCK. -/
abbrev F_DFU_RS_CTRL_LOCK (i : Nat) : Fld := ⟨0x080200 + 0x4000 * i, 12, 1⟩
/-- DFU_RS_MAXDEV, R94. -/
abbrev R_DFU_RS_MAXDEV (i : Nat) : Nat := 0x080204 + 0x4000 * i
/-- DFU_RS_MAXDEV.MAXDEV. -/
abbrev F_DFU_RS_MAXDEV_MAXDEV (i : Nat) : Fld := ⟨0x080204 + 0x4000 * i, 0, 10⟩
/-- DFU_RS_NOMINAL_LO, R94. -/
abbrev R_DFU_RS_NOMINAL_LO (i : Nat) : Nat := 0x080208 + 0x4000 * i
/-- DFU_RS_NOMINAL_LO.P_LO. -/
abbrev F_DFU_RS_NOMINAL_LO_P_LO (i : Nat) : Fld := ⟨0x080208 + 0x4000 * i, 0, 32⟩
/-- DFU_RS_NOMINAL_HI, R94. -/
abbrev R_DFU_RS_NOMINAL_HI (i : Nat) : Nat := 0x08020C + 0x4000 * i
/-- DFU_RS_NOMINAL_HI.P_HI. -/
abbrev F_DFU_RS_NOMINAL_HI_P_HI (i : Nat) : Fld := ⟨0x08020C + 0x4000 * i, 0, 8⟩
/-- DFU_RS_STEP_LO, R94. -/
abbrev R_DFU_RS_STEP_LO (i : Nat) : Nat := 0x080210 + 0x4000 * i
/-- DFU_RS_STEP_LO.STEP. -/
abbrev F_DFU_RS_STEP_LO_STEP (i : Nat) : Fld := ⟨0x080210 + 0x4000 * i, 0, 32⟩
/-- DFU_RS_STEP_HI, R94. -/
abbrev R_DFU_RS_STEP_HI (i : Nat) : Nat := 0x080214 + 0x4000 * i
/-- DFU_RS_STEP_HI.STEP. -/
abbrev F_DFU_RS_STEP_HI_STEP (i : Nat) : Fld := ⟨0x080214 + 0x4000 * i, 0, 16⟩
/-- DFU_RS_CYCLE_LO, R94. -/
abbrev R_DFU_RS_CYCLE_LO (i : Nat) : Nat := 0x080218 + 0x4000 * i
/-- DFU_RS_CYCLE_LO.VALUE. -/
abbrev F_DFU_RS_CYCLE_LO_VALUE (i : Nat) : Fld := ⟨0x080218 + 0x4000 * i, 0, 32⟩
/-- DFU_RS_CYCLE_HI, R94. -/
abbrev R_DFU_RS_CYCLE_HI (i : Nat) : Nat := 0x08021C + 0x4000 * i
/-- DFU_RS_CYCLE_HI.VALUE. -/
abbrev F_DFU_RS_CYCLE_HI_VALUE (i : Nat) : Fld := ⟨0x08021C + 0x4000 * i, 0, 32⟩
/-- DFU_RS_START_W, R94. -/
abbrev R_DFU_RS_START_W (i j : Nat) : Nat := 0x080220 + 0x4000 * i + 0x4 * j
/-- DFU_RS_START_W.VALUE. -/
abbrev F_DFU_RS_START_W_VALUE (i j : Nat) : Fld := ⟨0x080220 + 0x4000 * i + 0x4 * j, 0, 32⟩
/-- DFU_RS_COUNTS, R94. -/
abbrev R_DFU_RS_COUNTS (i : Nat) : Nat := 0x080230 + 0x4000 * i
/-- DFU_RS_COUNTS.REJECTED. -/
abbrev F_DFU_RS_COUNTS_REJECTED (i : Nat) : Fld := ⟨0x080230 + 0x4000 * i, 0, 16⟩
/-- DFU_RS_COUNTS.COAST. -/
abbrev F_DFU_RS_COUNTS_COAST (i : Nat) : Fld := ⟨0x080230 + 0x4000 * i, 16, 16⟩
/-- DFU_I_SAT, R94. -/
abbrev R_DFU_I_SAT (i j : Nat) : Nat := 0x080300 + 0x4000 * i + 0x4 * j
/-- DFU_I_SAT.COUNT. -/
abbrev F_DFU_I_SAT_COUNT (i j : Nat) : Fld := ⟨0x080300 + 0x4000 * i + 0x4 * j, 0, 32⟩
/-- DFU_TESTGEN, R94. -/
abbrev R_DFU_TESTGEN (i : Nat) : Nat := 0x080310 + 0x4000 * i
/-- DFU_TESTGEN.START. -/
abbrev F_DFU_TESTGEN_START (i : Nat) : Fld := ⟨0x080310 + 0x4000 * i, 0, 12⟩
/-- DFU_TESTGEN.STEP. -/
abbrev F_DFU_TESTGEN_STEP (i : Nat) : Fld := ⟨0x080310 + 0x4000 * i, 16, 12⟩
/-- DFU_SNAP_STATUS, R94. -/
abbrev R_DFU_SNAP_STATUS (i : Nat) : Nat := 0x080380 + 0x4000 * i
/-- DFU_SNAP_STATUS.VALUE. -/
abbrev F_DFU_SNAP_STATUS_VALUE (i : Nat) : Fld := ⟨0x080380 + 0x4000 * i, 0, 32⟩
/-- DFU_SNAP_CYCLE_LO, R94. -/
abbrev R_DFU_SNAP_CYCLE_LO (i : Nat) : Nat := 0x080384 + 0x4000 * i
/-- DFU_SNAP_CYCLE_LO.VALUE. -/
abbrev F_DFU_SNAP_CYCLE_LO_VALUE (i : Nat) : Fld := ⟨0x080384 + 0x4000 * i, 0, 32⟩
/-- DFU_SNAP_CYCLE_HI, R94. -/
abbrev R_DFU_SNAP_CYCLE_HI (i : Nat) : Nat := 0x080388 + 0x4000 * i
/-- DFU_SNAP_CYCLE_HI.VALUE. -/
abbrev F_DFU_SNAP_CYCLE_HI_VALUE (i : Nat) : Fld := ⟨0x080388 + 0x4000 * i, 0, 32⟩
/-- TRG_CTRL, R130. -/
abbrev R_TRG_CTRL : Nat := 0x0C0000
/-- TRG_CTRL.MODE. -/
abbrev F_TRG_CTRL_MODE : Fld := ⟨0x0C0000, 0, 1⟩
/-- TRG_CTRL.WAKE_EN. -/
abbrev F_TRG_CTRL_WAKE_EN : Fld := ⟨0x0C0000, 1, 1⟩
/-- TRG_CTRL.KEEP_HEART. -/
abbrev F_TRG_CTRL_KEEP_HEART : Fld := ⟨0x0C0000, 2, 1⟩
/-- TRG_CTRL.HEART_START. -/
abbrev F_TRG_CTRL_HEART_START : Fld := ⟨0x0C0000, 4, 4⟩
/-- TRG_CTRL.CLR_COUNTERS. -/
abbrev F_TRG_CTRL_CLR_COUNTERS : Fld := ⟨0x0C0000, 8, 1⟩
/-- TRG_STATUS, R130. -/
abbrev R_TRG_STATUS : Nat := 0x0C0004
/-- TRG_STATUS.STATE. -/
abbrev F_TRG_STATUS_STATE : Fld := ⟨0x0C0004, 0, 3⟩
/-- TRG_STATUS.HEART_STATE. -/
abbrev F_TRG_STATUS_HEART_STATE : Fld := ⟨0x0C0004, 4, 4⟩
/-- TRG_STATUS.CT_REACHED. -/
abbrev F_TRG_STATUS_CT_REACHED : Fld := ⟨0x0C0004, 8, 4⟩
/-- TRG_STATUS.TM_RUN. -/
abbrev F_TRG_STATUS_TM_RUN : Fld := ⟨0x0C0004, 12, 4⟩
/-- TRG_STATUS.TM_EXPIRED. -/
abbrev F_TRG_STATUS_TM_EXPIRED : Fld := ⟨0x0C0004, 16, 4⟩
/-- TRG_STATUS.STORE_Q. -/
abbrev F_TRG_STATUS_STORE_Q : Fld := ⟨0x0C0004, 20, 1⟩
/-- TRG_STATUS.WRITE_REFUSED. -/
abbrev F_TRG_STATUS_WRITE_REFUSED : Fld := ⟨0x0C0004, 24, 1⟩
/-- TRG_STATUS.SHADOW_PENDING. -/
abbrev F_TRG_STATUS_SHADOW_PENDING : Fld := ⟨0x0C0004, 25, 1⟩
/-- TRG_COMMIT, R130. -/
abbrev R_TRG_COMMIT : Nat := 0x0C0008
/-- TRG_COMMIT.GO. -/
abbrev F_TRG_COMMIT_GO : Fld := ⟨0x0C0008, 0, 1⟩
/-- TRG_ALIGN, R130. -/
abbrev R_TRG_ALIGN : Nat := 0x0C000C
/-- TRG_ALIGN.ALIGN. -/
abbrev F_TRG_ALIGN_ALIGN : Fld := ⟨0x0C000C, 0, 32⟩
/-- TRG_DIRECT_TN_LO, R130. -/
abbrev R_TRG_DIRECT_TN_LO : Nat := 0x0C0010
/-- TRG_DIRECT_TN_LO.MASK. -/
abbrev F_TRG_DIRECT_TN_LO_MASK : Fld := ⟨0x0C0010, 0, 32⟩
/-- TRG_DIRECT_TN_HI, R130. -/
abbrev R_TRG_DIRECT_TN_HI : Nat := 0x0C0014
/-- TRG_DIRECT_TN_HI.MASK. -/
abbrev F_TRG_DIRECT_TN_HI_MASK : Fld := ⟨0x0C0014, 0, 32⟩
/-- TRG_DIRECT_BN, R130. -/
abbrev R_TRG_DIRECT_BN : Nat := 0x0C0018
/-- TRG_DIRECT_BN.MASK. -/
abbrev F_TRG_DIRECT_BN_MASK : Fld := ⟨0x0C0018, 0, 32⟩
/-- TRG_LAST_W, R130. -/
abbrev R_TRG_LAST_W (i : Nat) : Nat := 0x0C0020 + 0x4 * i
/-- TRG_LAST_W.TS. -/
abbrev F_TRG_LAST_W_TS (i : Nat) : Fld := ⟨0x0C0020 + 0x4 * i, 0, 32⟩
/-- TRG_LAST_CAUSE, R130. -/
abbrev R_TRG_LAST_CAUSE : Nat := 0x0C002C
/-- TRG_LAST_CAUSE.CAUSE. -/
abbrev F_TRG_LAST_CAUSE_CAUSE : Fld := ⟨0x0C002C, 0, 8⟩
/-- TRG_LAST_CAUSE.BRANCH. -/
abbrev F_TRG_LAST_CAUSE_BRANCH : Fld := ⟨0x0C002C, 8, 1⟩
/-- TRG_LAST_CAUSE.SUSPECT. -/
abbrev F_TRG_LAST_CAUSE_SUSPECT : Fld := ⟨0x0C002C, 9, 1⟩
/-- TRG_LAST_CAUSE.OVR. -/
abbrev F_TRG_LAST_CAUSE_OVR : Fld := ⟨0x0C002C, 10, 1⟩
/-- TRG_DECISIONS_LO, R130. -/
abbrev R_TRG_DECISIONS_LO : Nat := 0x0C0030
/-- TRG_DECISIONS_LO.COUNT. -/
abbrev F_TRG_DECISIONS_LO_COUNT : Fld := ⟨0x0C0030, 0, 32⟩
/-- TRG_DECISIONS_HI, R130. -/
abbrev R_TRG_DECISIONS_HI : Nat := 0x0C0034
/-- TRG_DECISIONS_HI.COUNT. -/
abbrev F_TRG_DECISIONS_HI_COUNT : Fld := ⟨0x0C0034, 0, 32⟩
/-- TRG_LATE, R130. -/
abbrev R_TRG_LATE : Nat := 0x0C0038
/-- TRG_LATE.COUNT. -/
abbrev F_TRG_LATE_COUNT : Fld := ⟨0x0C0038, 0, 32⟩
/-- TRG_MERGE, R130. -/
abbrev R_TRG_MERGE : Nat := 0x0C003C
/-- TRG_MERGE.COUNT. -/
abbrev F_TRG_MERGE_COUNT : Fld := ⟨0x0C003C, 0, 32⟩
/-- TRG_SKIP, R130. -/
abbrev R_TRG_SKIP : Nat := 0x0C0040
/-- TRG_SKIP.COUNT. -/
abbrev F_TRG_SKIP_COUNT : Fld := ⟨0x0C0040, 0, 32⟩
/-- TRG_DISCARD, R130. -/
abbrev R_TRG_DISCARD : Nat := 0x0C0044
/-- TRG_DISCARD.COUNT. -/
abbrev F_TRG_DISCARD_COUNT : Fld := ⟨0x0C0044, 0, 32⟩
/-- TRG_ARM_W, R130. -/
abbrev R_TRG_ARM_W (i : Nat) : Nat := 0x0C0050 + 0x4 * i
/-- TRG_ARM_W.TS. -/
abbrev F_TRG_ARM_W_TS (i : Nat) : Fld := ⟨0x0C0050 + 0x4 * i, 0, 32⟩
/-- TRG_APPLIED_W, R130. -/
abbrev R_TRG_APPLIED_W (i : Nat) : Nat := 0x0C005C + 0x4 * i
/-- TRG_APPLIED_W.TS. -/
abbrev F_TRG_APPLIED_W_TS (i : Nat) : Fld := ⟨0x0C005C + 0x4 * i, 0, 32⟩
/-- TRG_OUT_CTRL, R130. -/
abbrev R_TRG_OUT_CTRL : Nat := 0x0C0070
/-- TRG_OUT_CTRL.MODE. -/
abbrev F_TRG_OUT_CTRL_MODE : Fld := ⟨0x0C0070, 0, 3⟩
/-- TRG_OUT_CTRL.POL. -/
abbrev F_TRG_OUT_CTRL_POL : Fld := ⟨0x0C0070, 3, 1⟩
/-- TRG_OUT_CTRL.OE. -/
abbrev F_TRG_OUT_CTRL_OE : Fld := ⟨0x0C0070, 4, 1⟩
/-- TRG_OUT_CTRL.ALIGNED. -/
abbrev F_TRG_OUT_CTRL_ALIGNED : Fld := ⟨0x0C0070, 5, 1⟩
/-- TRG_OUT_CTRL.OUT_TN. -/
abbrev F_TRG_OUT_CTRL_OUT_TN : Fld := ⟨0x0C0070, 8, 6⟩
/-- TRG_OUT_WIDTH, R130. -/
abbrev R_TRG_OUT_WIDTH : Nat := 0x0C0074
/-- TRG_OUT_WIDTH.WIDTH. -/
abbrev F_TRG_OUT_WIDTH_WIDTH : Fld := ⟨0x0C0074, 0, 24⟩
/-- TRG_OUT_LAT, R130. -/
abbrev R_TRG_OUT_LAT : Nat := 0x0C0078
/-- TRG_OUT_LAT.LAT. -/
abbrev F_TRG_OUT_LAT_LAT : Fld := ⟨0x0C0078, 0, 24⟩
/-- TRG_OUT_COUNTS, R130. -/
abbrev R_TRG_OUT_COUNTS : Nat := 0x0C007C
/-- TRG_OUT_COUNTS.MERGED. -/
abbrev F_TRG_OUT_COUNTS_MERGED : Fld := ⟨0x0C007C, 0, 16⟩
/-- TRG_OUT_COUNTS.LATE. -/
abbrev F_TRG_OUT_COUNTS_LATE : Fld := ⟨0x0C007C, 16, 16⟩
/-- TRG_SNAP_STATUS, R130. -/
abbrev R_TRG_SNAP_STATUS : Nat := 0x0C0080
/-- TRG_SNAP_STATUS.VALUE. -/
abbrev F_TRG_SNAP_STATUS_VALUE : Fld := ⟨0x0C0080, 0, 32⟩
/-- TRG_SNAP_DEC_LO, R130. -/
abbrev R_TRG_SNAP_DEC_LO : Nat := 0x0C0084
/-- TRG_SNAP_DEC_LO.VALUE. -/
abbrev F_TRG_SNAP_DEC_LO_VALUE : Fld := ⟨0x0C0084, 0, 32⟩
/-- TRG_SNAP_DEC_HI, R130. -/
abbrev R_TRG_SNAP_DEC_HI : Nat := 0x0C0088
/-- TRG_SNAP_DEC_HI.VALUE. -/
abbrev F_TRG_SNAP_DEC_HI_VALUE : Fld := ⟨0x0C0088, 0, 32⟩
/-- TRG_CT_LIMIT, R130. -/
abbrev R_TRG_CT_LIMIT (i : Nat) : Nat := 0x0C0100 + 0x10 * i
/-- TRG_CT_LIMIT.LIMIT. -/
abbrev F_TRG_CT_LIMIT_LIMIT (i : Nat) : Fld := ⟨0x0C0100 + 0x10 * i, 0, 32⟩
/-- TRG_CT_VALUE, R130. -/
abbrev R_TRG_CT_VALUE (i : Nat) : Nat := 0x0C0104 + 0x10 * i
/-- TRG_CT_VALUE.VALUE. -/
abbrev F_TRG_CT_VALUE_VALUE (i : Nat) : Fld := ⟨0x0C0104 + 0x10 * i, 0, 32⟩
/-- TRG_TM_LIMIT_LO, R130. -/
abbrev R_TRG_TM_LIMIT_LO (i : Nat) : Nat := 0x0C0140 + 0x10 * i
/-- TRG_TM_LIMIT_LO.LIMIT_LO. -/
abbrev F_TRG_TM_LIMIT_LO_LIMIT_LO (i : Nat) : Fld := ⟨0x0C0140 + 0x10 * i, 0, 32⟩
/-- TRG_TM_LIMIT_HI, R130. -/
abbrev R_TRG_TM_LIMIT_HI (i : Nat) : Nat := 0x0C0144 + 0x10 * i
/-- TRG_TM_LIMIT_HI.LIMIT_HI. -/
abbrev F_TRG_TM_LIMIT_HI_LIMIT_HI (i : Nat) : Fld := ⟨0x0C0144 + 0x10 * i, 0, 16⟩
/-- TRG_TM_VALUE_LO, R130. -/
abbrev R_TRG_TM_VALUE_LO (i : Nat) : Nat := 0x0C0148 + 0x10 * i
/-- TRG_TM_VALUE_LO.VALUE. -/
abbrev F_TRG_TM_VALUE_LO_VALUE (i : Nat) : Fld := ⟨0x0C0148 + 0x10 * i, 0, 32⟩
/-- TRG_TM_VALUE_HI, R130. -/
abbrev R_TRG_TM_VALUE_HI (i : Nat) : Nat := 0x0C014C + 0x10 * i
/-- TRG_TM_VALUE_HI.VALUE. -/
abbrev F_TRG_TM_VALUE_HI_VALUE (i : Nat) : Fld := ⟨0x0C014C + 0x10 * i, 0, 16⟩
/-- TN_CFG, R130. -/
abbrev R_TN_CFG (i : Nat) : Nat := 0x0C1000 + 0x40 * i
/-- TN_CFG.TYPE. -/
abbrev F_TN_CFG_TYPE (i : Nat) : Fld := ⟨0x0C1000 + 0x40 * i, 0, 4⟩
/-- TN_CFG.POL. -/
abbrev F_TN_CFG_POL (i : Nat) : Fld := ⟨0x0C1000 + 0x40 * i, 4, 2⟩
/-- TN_CFG.QUAL. -/
abbrev F_TN_CFG_QUAL (i : Nat) : Fld := ⟨0x0C1000 + 0x40 * i, 6, 3⟩
/-- TN_CFG.SRC. -/
abbrev F_TN_CFG_SRC (i : Nat) : Fld := ⟨0x0C1000 + 0x40 * i, 16, 8⟩
/-- TN_LEVEL, R130. -/
abbrev R_TN_LEVEL (i : Nat) : Nat := 0x0C1004 + 0x40 * i
/-- TN_LEVEL.LEVEL_A. -/
abbrev F_TN_LEVEL_LEVEL_A (i : Nat) : Fld := ⟨0x0C1004 + 0x40 * i, 0, 16⟩
/-- TN_LEVEL.LEVEL_B. -/
abbrev F_TN_LEVEL_LEVEL_B (i : Nat) : Fld := ⟨0x0C1004 + 0x40 * i, 16, 16⟩
/-- TN_HYST, R130. -/
abbrev R_TN_HYST (i : Nat) : Nat := 0x0C1008 + 0x40 * i
/-- TN_HYST.HYST. -/
abbrev F_TN_HYST_HYST (i : Nat) : Fld := ⟨0x0C1008 + 0x40 * i, 0, 16⟩
/-- TN_TMIN_LO, R130. -/
abbrev R_TN_TMIN_LO (i : Nat) : Nat := 0x0C100C + 0x40 * i
/-- TN_TMIN_LO.T_LO. -/
abbrev F_TN_TMIN_LO_T_LO (i : Nat) : Fld := ⟨0x0C100C + 0x40 * i, 0, 32⟩
/-- TN_TMIN_HI, R130. -/
abbrev R_TN_TMIN_HI (i : Nat) : Nat := 0x0C1010 + 0x40 * i
/-- TN_TMIN_HI.T_HI. -/
abbrev F_TN_TMIN_HI_T_HI (i : Nat) : Fld := ⟨0x0C1010 + 0x40 * i, 0, 16⟩
/-- TN_TMAX_LO, R130. -/
abbrev R_TN_TMAX_LO (i : Nat) : Nat := 0x0C1014 + 0x40 * i
/-- TN_TMAX_LO.T_LO. -/
abbrev F_TN_TMAX_LO_T_LO (i : Nat) : Fld := ⟨0x0C1014 + 0x40 * i, 0, 32⟩
/-- TN_TMAX_HI, R130. -/
abbrev R_TN_TMAX_HI (i : Nat) : Nat := 0x0C1018 + 0x40 * i
/-- TN_TMAX_HI.T_HI. -/
abbrev F_TN_TMAX_HI_T_HI (i : Nat) : Fld := ⟨0x0C1018 + 0x40 * i, 0, 16⟩
/-- TN_PMASK_LO, R130. -/
abbrev R_TN_PMASK_LO (i : Nat) : Nat := 0x0C101C + 0x40 * i
/-- TN_PMASK_LO.VALUE. -/
abbrev F_TN_PMASK_LO_VALUE (i : Nat) : Fld := ⟨0x0C101C + 0x40 * i, 0, 32⟩
/-- TN_PMASK_HI, R130. -/
abbrev R_TN_PMASK_HI (i : Nat) : Nat := 0x0C1020 + 0x40 * i
/-- TN_PMASK_HI.VALUE. -/
abbrev F_TN_PMASK_HI_VALUE (i : Nat) : Fld := ⟨0x0C1020 + 0x40 * i, 0, 32⟩
/-- TN_PVAL_LO, R130. -/
abbrev R_TN_PVAL_LO (i : Nat) : Nat := 0x0C1024 + 0x40 * i
/-- TN_PVAL_LO.VALUE. -/
abbrev F_TN_PVAL_LO_VALUE (i : Nat) : Fld := ⟨0x0C1024 + 0x40 * i, 0, 32⟩
/-- TN_PVAL_HI, R130. -/
abbrev R_TN_PVAL_HI (i : Nat) : Nat := 0x0C1028 + 0x40 * i
/-- TN_PVAL_HI.VALUE. -/
abbrev F_TN_PVAL_HI_VALUE (i : Nat) : Fld := ⟨0x0C1028 + 0x40 * i, 0, 32⟩
/-- TN_COUNT, R130. -/
abbrev R_TN_COUNT (i : Nat) : Nat := 0x0C102C + 0x40 * i
/-- TN_COUNT.COUNT. -/
abbrev F_TN_COUNT_COUNT (i : Nat) : Fld := ⟨0x0C102C + 0x40 * i, 0, 32⟩
/-- TN_STATE, R130. -/
abbrev R_TN_STATE (i : Nat) : Nat := 0x0C1030 + 0x40 * i
/-- TN_STATE.UA. -/
abbrev F_TN_STATE_UA (i : Nat) : Fld := ⟨0x0C1030 + 0x40 * i, 0, 1⟩
/-- TN_STATE.WA. -/
abbrev F_TN_STATE_WA (i : Nat) : Fld := ⟨0x0C1030 + 0x40 * i, 1, 1⟩
/-- TN_STATE.UB. -/
abbrev F_TN_STATE_UB (i : Nat) : Fld := ⟨0x0C1030 + 0x40 * i, 2, 1⟩
/-- TN_STATE.WB. -/
abbrev F_TN_STATE_WB (i : Nat) : Fld := ⟨0x0C1030 + 0x40 * i, 3, 1⟩
/-- TN_STATE.TL. -/
abbrev F_TN_STATE_TL (i : Nat) : Fld := ⟨0x0C1030 + 0x40 * i, 4, 1⟩
/-- TN_STATE.OPEN. -/
abbrev F_TN_STATE_OPEN (i : Nat) : Fld := ⟨0x0C1030 + 0x40 * i, 5, 1⟩
/-- TN_STATE.BAD. -/
abbrev F_TN_STATE_BAD (i : Nat) : Fld := ⟨0x0C1030 + 0x40 * i, 6, 1⟩
/-- TN_LEVEL_EFF, R130. -/
abbrev R_TN_LEVEL_EFF (i : Nat) : Nat := 0x0C1034 + 0x40 * i
/-- TN_LEVEL_EFF.LEVELS. -/
abbrev F_TN_LEVEL_EFF_LEVELS (i : Nat) : Fld := ⟨0x0C1034 + 0x40 * i, 0, 32⟩
/-- HS_CTRL, R130. -/
abbrev R_HS_CTRL (i : Nat) : Nat := 0x0C2000 + 0x40 * i
/-- HS_CTRL.STORE. -/
abbrev F_HS_CTRL_STORE (i : Nat) : Fld := ⟨0x0C2000 + 0x40 * i, 0, 1⟩
/-- HS_B_TERMS, R130. -/
abbrev R_HS_B_TERMS (i j : Nat) : Nat := 0x0C2010 + 0x40 * i + 0x10 * j
/-- HS_B_TERMS.T0. -/
abbrev F_HS_B_TERMS_T0 (i j : Nat) : Fld := ⟨0x0C2010 + 0x40 * i + 0x10 * j, 0, 8⟩
/-- HS_B_TERMS.T1. -/
abbrev F_HS_B_TERMS_T1 (i j : Nat) : Fld := ⟨0x0C2010 + 0x40 * i + 0x10 * j, 8, 8⟩
/-- HS_B_TERMS.T2. -/
abbrev F_HS_B_TERMS_T2 (i j : Nat) : Fld := ⟨0x0C2010 + 0x40 * i + 0x10 * j, 16, 8⟩
/-- HS_B_TERMS.T3. -/
abbrev F_HS_B_TERMS_T3 (i j : Nat) : Fld := ⟨0x0C2010 + 0x40 * i + 0x10 * j, 24, 8⟩
/-- HS_B_LOGIC, R130. -/
abbrev R_HS_B_LOGIC (i j : Nat) : Nat := 0x0C2014 + 0x40 * i + 0x10 * j
/-- HS_B_LOGIC.INV. -/
abbrev F_HS_B_LOGIC_INV (i j : Nat) : Fld := ⟨0x0C2014 + 0x40 * i + 0x10 * j, 0, 4⟩
/-- HS_B_LOGIC.COMB. -/
abbrev F_HS_B_LOGIC_COMB (i j : Nat) : Fld := ⟨0x0C2014 + 0x40 * i + 0x10 * j, 4, 2⟩
/-- HS_B_LOGIC.EN. -/
abbrev F_HS_B_LOGIC_EN (i j : Nat) : Fld := ⟨0x0C2014 + 0x40 * i + 0x10 * j, 8, 1⟩
/-- HS_B_ACTION, R130. -/
abbrev R_HS_B_ACTION (i j : Nat) : Nat := 0x0C2018 + 0x40 * i + 0x10 * j
/-- HS_B_ACTION.NEXT. -/
abbrev F_HS_B_ACTION_NEXT (i j : Nat) : Fld := ⟨0x0C2018 + 0x40 * i + 0x10 * j, 0, 4⟩
/-- HS_B_ACTION.TRIGGER. -/
abbrev F_HS_B_ACTION_TRIGGER (i j : Nat) : Fld := ⟨0x0C2018 + 0x40 * i + 0x10 * j, 4, 1⟩
/-- HS_B_ACTION.OUT_PULSE. -/
abbrev F_HS_B_ACTION_OUT_PULSE (i j : Nat) : Fld := ⟨0x0C2018 + 0x40 * i + 0x10 * j, 5, 1⟩
/-- HS_B_ACTION.OUT_SET. -/
abbrev F_HS_B_ACTION_OUT_SET (i j : Nat) : Fld := ⟨0x0C2018 + 0x40 * i + 0x10 * j, 6, 1⟩
/-- HS_B_ACTION.OUT_CLR. -/
abbrev F_HS_B_ACTION_OUT_CLR (i j : Nat) : Fld := ⟨0x0C2018 + 0x40 * i + 0x10 * j, 7, 1⟩
/-- HS_B_ACTION.CT_INC. -/
abbrev F_HS_B_ACTION_CT_INC (i j : Nat) : Fld := ⟨0x0C2018 + 0x40 * i + 0x10 * j, 8, 4⟩
/-- HS_B_ACTION.CT_RST. -/
abbrev F_HS_B_ACTION_CT_RST (i j : Nat) : Fld := ⟨0x0C2018 + 0x40 * i + 0x10 * j, 12, 4⟩
/-- HS_B_ACTION.TM_START. -/
abbrev F_HS_B_ACTION_TM_START (i j : Nat) : Fld := ⟨0x0C2018 + 0x40 * i + 0x10 * j, 16, 4⟩
/-- HS_B_ACTION.TM_STOP. -/
abbrev F_HS_B_ACTION_TM_STOP (i j : Nat) : Fld := ⟨0x0C2018 + 0x40 * i + 0x10 * j, 20, 4⟩
/-- TRG_PLACE, R157. -/
abbrev R_TRG_PLACE : Nat := 0x0C8000
/-- TRG_PLACE.INTERP. -/
abbrev F_TRG_PLACE_INTERP : Fld := ⟨0x0C8000, 0, 1⟩
/-- TRG_PLACE.HOLD_TIME_EN. -/
abbrev F_TRG_PLACE_HOLD_TIME_EN : Fld := ⟨0x0C8000, 1, 1⟩
/-- TRG_PLACE.HOLD_EV_EN. -/
abbrev F_TRG_PLACE_HOLD_EV_EN : Fld := ⟨0x0C8000, 2, 1⟩
/-- TRG_PLACE.RETAIN_POLICY. -/
abbrev F_TRG_PLACE_RETAIN_POLICY : Fld := ⟨0x0C8000, 3, 1⟩
/-- TRG_PRE_LO, R157. -/
abbrev R_TRG_PRE_LO : Nat := 0x0C8004
/-- TRG_PRE_LO.NS_LO. -/
abbrev F_TRG_PRE_LO_NS_LO : Fld := ⟨0x0C8004, 0, 32⟩
/-- TRG_PRE_HI, R157. -/
abbrev R_TRG_PRE_HI : Nat := 0x0C8008
/-- TRG_PRE_HI.NS_HI. -/
abbrev F_TRG_PRE_HI_NS_HI : Fld := ⟨0x0C8008, 0, 12⟩
/-- TRG_POST_LO, R157. -/
abbrev R_TRG_POST_LO : Nat := 0x0C800C
/-- TRG_POST_LO.NS_LO. -/
abbrev F_TRG_POST_LO_NS_LO : Fld := ⟨0x0C800C, 0, 32⟩
/-- TRG_POST_HI, R157. -/
abbrev R_TRG_POST_HI : Nat := 0x0C8010
/-- TRG_POST_HI.NS_HI. -/
abbrev F_TRG_POST_HI_NS_HI : Fld := ⟨0x0C8010, 0, 12⟩
/-- TRG_HOLD_NS_LO, R157. -/
abbrev R_TRG_HOLD_NS_LO : Nat := 0x0C8014
/-- TRG_HOLD_NS_LO.NS_LO. -/
abbrev F_TRG_HOLD_NS_LO_NS_LO : Fld := ⟨0x0C8014, 0, 32⟩
/-- TRG_HOLD_NS_HI, R157. -/
abbrev R_TRG_HOLD_NS_HI : Nat := 0x0C8018
/-- TRG_HOLD_NS_HI.NS_HI. -/
abbrev F_TRG_HOLD_NS_HI_NS_HI : Fld := ⟨0x0C8018, 0, 12⟩
/-- TRG_HOLD_EV, R157. -/
abbrev R_TRG_HOLD_EV : Nat := 0x0C801C
/-- TRG_HOLD_EV.COUNT. -/
abbrev F_TRG_HOLD_EV_COUNT : Fld := ⟨0x0C801C, 0, 16⟩
/-- TRG_SEG_LIMIT, R157. -/
abbrev R_TRG_SEG_LIMIT : Nat := 0x0C8020
/-- TRG_SEG_LIMIT.LIMIT. -/
abbrev F_TRG_SEG_LIMIT_LIMIT : Fld := ⟨0x0C8020, 0, 25⟩
/-- TRG_SEG_COUNT, R157. -/
abbrev R_TRG_SEG_COUNT : Nat := 0x0C8024
/-- TRG_SEG_COUNT.COUNT. -/
abbrev F_TRG_SEG_COUNT_COUNT : Fld := ⟨0x0C8024, 0, 25⟩
/-- TRG_HOLD_COUNT, R157. -/
abbrev R_TRG_HOLD_COUNT : Nat := 0x0C8028
/-- TRG_HOLD_COUNT.COUNT. -/
abbrev F_TRG_HOLD_COUNT_COUNT : Fld := ⟨0x0C8028, 0, 32⟩
/-- TRG_OVL_COUNT, R157. -/
abbrev R_TRG_OVL_COUNT : Nat := 0x0C802C
/-- TRG_OVL_COUNT.COUNT. -/
abbrev F_TRG_OVL_COUNT_COUNT : Fld := ⟨0x0C802C, 0, 32⟩
/-- TRG_OVL_LATE, R157. -/
abbrev R_TRG_OVL_LATE : Nat := 0x0C8030
/-- TRG_OVL_LATE.COUNT. -/
abbrev F_TRG_OVL_LATE_COUNT : Fld := ⟨0x0C8030, 0, 32⟩
/-- TRG_ORDER, R157. -/
abbrev R_TRG_ORDER : Nat := 0x0C8034
/-- TRG_ORDER.COUNT. -/
abbrev F_TRG_ORDER_COUNT : Fld := ⟨0x0C8034, 0, 32⟩
/-- TRG_COINCIDENT, R157. -/
abbrev R_TRG_COINCIDENT : Nat := 0x0C8038
/-- TRG_COINCIDENT.COUNT. -/
abbrev F_TRG_COINCIDENT_COUNT : Fld := ⟨0x0C8038, 0, 32⟩
/-- TRG_OVL_WAIT, R157. -/
abbrev R_TRG_OVL_WAIT : Nat := 0x0C803C
/-- TRG_OVL_WAIT.WAIT. -/
abbrev F_TRG_OVL_WAIT_WAIT : Fld := ⟨0x0C803C, 0, 32⟩
/-- TRG_SEG_W, R157. -/
abbrev R_TRG_SEG_W (i : Nat) : Nat := 0x0C8040 + 0x4 * i
/-- TRG_SEG_W.TS. -/
abbrev F_TRG_SEG_W_TS (i : Nat) : Fld := ⟨0x0C8040 + 0x4 * i, 0, 32⟩
/-- TRG_SEG_CAUSE, R157. -/
abbrev R_TRG_SEG_CAUSE : Nat := 0x0C804C
/-- TRG_SEG_CAUSE.CAUSE. -/
abbrev F_TRG_SEG_CAUSE_CAUSE : Fld := ⟨0x0C804C, 0, 8⟩
/-- TRG_SEG_CAUSE.FLAGS. -/
abbrev F_TRG_SEG_CAUSE_FLAGS : Fld := ⟨0x0C804C, 8, 7⟩
/-- TRG_RETAIN_NEED, R157. -/
abbrev R_TRG_RETAIN_NEED : Nat := 0x0C8050
/-- TRG_RETAIN_NEED.US. -/
abbrev F_TRG_RETAIN_NEED_US : Fld := ⟨0x0C8050, 0, 32⟩
/-- TRG_GRANARY_SPAN, R157. -/
abbrev R_TRG_GRANARY_SPAN : Nat := 0x0C8054
/-- TRG_GRANARY_SPAN.US. -/
abbrev F_TRG_GRANARY_SPAN_US : Fld := ⟨0x0C8054, 0, 32⟩
/-- TRG_SILO_SPAN, R157. -/
abbrev R_TRG_SILO_SPAN : Nat := 0x0C8058
/-- TRG_SILO_SPAN.MS. -/
abbrev F_TRG_SILO_SPAN_MS : Fld := ⟨0x0C8058, 0, 32⟩
/-- TRG_RETAIN_STATUS, R157. -/
abbrev R_TRG_RETAIN_STATUS : Nat := 0x0C805C
/-- TRG_RETAIN_STATUS.SHORT_WATCH. -/
abbrev F_TRG_RETAIN_STATUS_SHORT_WATCH : Fld := ⟨0x0C805C, 0, 1⟩
/-- TRG_RETAIN_STATUS.SHORT_RECORD. -/
abbrev F_TRG_RETAIN_STATUS_SHORT_RECORD : Fld := ⟨0x0C805C, 1, 1⟩
/-- TRG_RETAIN_STATUS.RECORD_AT_ARM. -/
abbrev F_TRG_RETAIN_STATUS_RECORD_AT_ARM : Fld := ⟨0x0C805C, 2, 1⟩
/-- TRG_HOLD_END_W, R157. -/
abbrev R_TRG_HOLD_END_W (i : Nat) : Nat := 0x0C8060 + 0x4 * i
/-- TRG_HOLD_END_W.TS. -/
abbrev F_TRG_HOLD_END_W_TS (i : Nat) : Fld := ⟨0x0C8060 + 0x4 * i, 0, 32⟩
/-- TRG_SNAP_SEG, R157. -/
abbrev R_TRG_SNAP_SEG : Nat := 0x0C8080
/-- TRG_SNAP_SEG.VALUE. -/
abbrev F_TRG_SNAP_SEG_VALUE : Fld := ⟨0x0C8080, 0, 25⟩
/-- BN_CFG, R157. -/
abbrev R_BN_CFG (i : Nat) : Nat := 0x0C9000 + 0x40 * i
/-- BN_CFG.TYPE. -/
abbrev F_BN_CFG_TYPE (i : Nat) : Fld := ⟨0x0C9000 + 0x40 * i, 0, 3⟩
/-- BN_CFG.POL. -/
abbrev F_BN_CFG_POL (i : Nat) : Fld := ⟨0x0C9000 + 0x40 * i, 4, 2⟩
/-- BN_CFG.EVT_SEL. -/
abbrev F_BN_CFG_EVT_SEL (i : Nat) : Fld := ⟨0x0C9000 + 0x40 * i, 6, 2⟩
/-- BN_CFG.CONSEC. -/
abbrev F_BN_CFG_CONSEC (i : Nat) : Fld := ⟨0x0C9000 + 0x40 * i, 16, 16⟩
/-- BN_LEVEL_A, R157. -/
abbrev R_BN_LEVEL_A (i : Nat) : Nat := 0x0C9004 + 0x40 * i
/-- BN_LEVEL_A.VALUE. -/
abbrev F_BN_LEVEL_A_VALUE (i : Nat) : Fld := ⟨0x0C9004 + 0x40 * i, 0, 32⟩
/-- BN_LEVEL_B, R157. -/
abbrev R_BN_LEVEL_B (i : Nat) : Nat := 0x0C9008 + 0x40 * i
/-- BN_LEVEL_B.VALUE. -/
abbrev F_BN_LEVEL_B_VALUE (i : Nat) : Fld := ⟨0x0C9008 + 0x40 * i, 0, 32⟩
/-- BN_HYST, R157. -/
abbrev R_BN_HYST (i : Nat) : Nat := 0x0C900C + 0x40 * i
/-- BN_HYST.VALUE. -/
abbrev F_BN_HYST_VALUE (i : Nat) : Fld := ⟨0x0C900C + 0x40 * i, 0, 32⟩
/-- BN_LAT, R157. -/
abbrev R_BN_LAT (i : Nat) : Nat := 0x0C9010 + 0x40 * i
/-- BN_LAT.US. -/
abbrev F_BN_LAT_US (i : Nat) : Fld := ⟨0x0C9010 + 0x40 * i, 0, 24⟩
/-- BN_WLEN_MAX, R157. -/
abbrev R_BN_WLEN_MAX (i : Nat) : Nat := 0x0C9014 + 0x40 * i
/-- BN_WLEN_MAX.US. -/
abbrev F_BN_WLEN_MAX_US (i : Nat) : Fld := ⟨0x0C9014 + 0x40 * i, 0, 32⟩
/-- BN_VALUE, R157. -/
abbrev R_BN_VALUE (i : Nat) : Nat := 0x0C9018 + 0x40 * i
/-- BN_VALUE.VALUE. -/
abbrev F_BN_VALUE_VALUE (i : Nat) : Fld := ⟨0x0C9018 + 0x40 * i, 0, 32⟩
/-- BN_WEND_W, R157. -/
abbrev R_BN_WEND_W (i j : Nat) : Nat := 0x0C901C + 0x40 * i + 0x4 * j
/-- BN_WEND_W.TS. -/
abbrev F_BN_WEND_W_TS (i j : Nat) : Fld := ⟨0x0C901C + 0x40 * i + 0x4 * j, 0, 32⟩
/-- BN_STATE, R157. -/
abbrev R_BN_STATE (i : Nat) : Nat := 0x0C9028 + 0x40 * i
/-- BN_STATE.C. -/
abbrev F_BN_STATE_C (i : Nat) : Fld := ⟨0x0C9028 + 0x40 * i, 0, 1⟩
/-- BN_STATE.UA. -/
abbrev F_BN_STATE_UA (i : Nat) : Fld := ⟨0x0C9028 + 0x40 * i, 1, 1⟩
/-- BN_STATE.WA. -/
abbrev F_BN_STATE_WA (i : Nat) : Fld := ⟨0x0C9028 + 0x40 * i, 2, 1⟩
/-- BN_STATE.WB. -/
abbrev F_BN_STATE_WB (i : Nat) : Fld := ⟨0x0C9028 + 0x40 * i, 3, 1⟩
/-- BN_STATE.BAD. -/
abbrev F_BN_STATE_BAD (i : Nat) : Fld := ⟨0x0C9028 + 0x40 * i, 4, 1⟩
/-- BN_STATE.ENGINE. -/
abbrev F_BN_STATE_ENGINE (i : Nat) : Fld := ⟨0x0C9028 + 0x40 * i, 8, 8⟩
/-- BN_STATE.RUN. -/
abbrev F_BN_STATE_RUN (i : Nat) : Fld := ⟨0x0C9028 + 0x40 * i, 16, 16⟩
/-- BN_COUNT, R157. -/
abbrev R_BN_COUNT (i : Nat) : Nat := 0x0C902C + 0x40 * i
/-- BN_COUNT.COUNT. -/
abbrev F_BN_COUNT_COUNT (i : Nat) : Fld := ⟨0x0C902C + 0x40 * i, 0, 32⟩
/-- BN_LATE, R157. -/
abbrev R_BN_LATE (i : Nat) : Nat := 0x0C9030 + 0x40 * i
/-- BN_LATE.COUNT. -/
abbrev F_BN_LATE_COUNT (i : Nat) : Fld := ⟨0x0C9030 + 0x40 * i, 0, 32⟩
/-- BN_DROP, R157. -/
abbrev R_BN_DROP (i : Nat) : Nat := 0x0C9034 + 0x40 * i
/-- BN_DROP.DUP. -/
abbrev F_BN_DROP_DUP (i : Nat) : Fld := ⟨0x0C9034 + 0x40 * i, 0, 16⟩
/-- BN_DROP.SKIP. -/
abbrev F_BN_DROP_SKIP (i : Nat) : Fld := ⟨0x0C9034 + 0x40 * i, 16, 16⟩
/-- BN_LEVEL_A_EFF, R157. -/
abbrev R_BN_LEVEL_A_EFF (i : Nat) : Nat := 0x0C9038 + 0x40 * i
/-- BN_LEVEL_A_EFF.VALUE. -/
abbrev F_BN_LEVEL_A_EFF_VALUE (i : Nat) : Fld := ⟨0x0C9038 + 0x40 * i, 0, 32⟩
/-- BN_LEVEL_B_EFF, R157. -/
abbrev R_BN_LEVEL_B_EFF (i : Nat) : Nat := 0x0C903C + 0x40 * i
/-- BN_LEVEL_B_EFF.VALUE. -/
abbrev F_BN_LEVEL_B_EFF_VALUE (i : Nat) : Fld := ⟨0x0C903C + 0x40 * i, 0, 32⟩
/-- BN_HYST_EFF, R157. -/
abbrev R_BN_HYST_EFF (i : Nat) : Nat := 0x0CA000 + 0x4 * i
/-- BN_HYST_EFF.VALUE. -/
abbrev F_BN_HYST_EFF_VALUE (i : Nat) : Fld := ⟨0x0CA000 + 0x4 * i, 0, 32⟩
/-- TIM_CTRL, R182. -/
abbrev R_TIM_CTRL : Nat := 0x0E0000
/-- TIM_CTRL.RUN. -/
abbrev F_TIM_CTRL_RUN : Fld := ⟨0x0E0000, 0, 1⟩
/-- TIM_CTRL.CLR_COUNTERS. -/
abbrev F_TIM_CTRL_CLR_COUNTERS : Fld := ⟨0x0E0000, 1, 1⟩
/-- TIM_STATUS, R182. -/
abbrev R_TIM_STATUS : Nat := 0x0E0004
/-- TIM_STATUS.CAL_VALID. -/
abbrev F_TIM_STATUS_CAL_VALID : Fld := ⟨0x0E0004, 0, 1⟩
/-- TIM_STATUS.STORE_OVERCOMMIT. -/
abbrev F_TIM_STATUS_STORE_OVERCOMMIT : Fld := ⟨0x0E0004, 1, 1⟩
/-- TIM_STATUS.LOSS_NOW. -/
abbrev F_TIM_STATUS_LOSS_NOW : Fld := ⟨0x0E0004, 2, 1⟩
/-- TIM_STATUS.TRIG_IN_LEVEL. -/
abbrev F_TIM_STATUS_TRIG_IN_LEVEL : Fld := ⟨0x0E0004, 3, 1⟩
/-- TIM_STATUS.WRITE_REFUSED. -/
abbrev F_TIM_STATUS_WRITE_REFUSED : Fld := ⟨0x0E0004, 24, 1⟩
/-- TIM_LEVEL_LO, R182. -/
abbrev R_TIM_LEVEL_LO : Nat := 0x0E0008
/-- TIM_LEVEL_LO.LEVEL. -/
abbrev F_TIM_LEVEL_LO_LEVEL : Fld := ⟨0x0E0008, 0, 32⟩
/-- TIM_LEVEL_HI, R182. -/
abbrev R_TIM_LEVEL_HI : Nat := 0x0E000C
/-- TIM_LEVEL_HI.LEVEL. -/
abbrev F_TIM_LEVEL_HI_LEVEL : Fld := ⟨0x0E000C, 0, 32⟩
/-- TIM_STORE_ALIGN, R182. -/
abbrev R_TIM_STORE_ALIGN : Nat := 0x0E0010
/-- TIM_STORE_ALIGN.ALIGN. -/
abbrev F_TIM_STORE_ALIGN_ALIGN : Fld := ⟨0x0E0010, 0, 32⟩
/-- TIM_GROUP_COAL, R182. -/
abbrev R_TIM_GROUP_COAL : Nat := 0x0E0014
/-- TIM_GROUP_COAL.COAL. -/
abbrev F_TIM_GROUP_COAL_COAL : Fld := ⟨0x0E0014, 0, 32⟩
/-- TIM_STORED_LO, R182. -/
abbrev R_TIM_STORED_LO : Nat := 0x0E0018
/-- TIM_STORED_LO.VALUE. -/
abbrev F_TIM_STORED_LO_VALUE : Fld := ⟨0x0E0018, 0, 32⟩
/-- TIM_STORED_HI, R182. -/
abbrev R_TIM_STORED_HI : Nat := 0x0E001C
/-- TIM_STORED_HI.VALUE. -/
abbrev F_TIM_STORED_HI_VALUE : Fld := ⟨0x0E001C, 0, 32⟩
/-- TIM_CAL_STATUS, R182. -/
abbrev R_TIM_CAL_STATUS : Nat := 0x0E0020
/-- TIM_CAL_STATUS.AGE. -/
abbrev F_TIM_CAL_STATUS_AGE : Fld := ⟨0x0E0020, 0, 16⟩
/-- TIM_CAL_STATUS.T_CAL. -/
abbrev F_TIM_CAL_STATUS_T_CAL : Fld := ⟨0x0E0020, 16, 16⟩
/-- TIM_SNAP_STATUS, R182. -/
abbrev R_TIM_SNAP_STATUS : Nat := 0x0E0030
/-- TIM_SNAP_STATUS.VALUE. -/
abbrev F_TIM_SNAP_STATUS_VALUE : Fld := ⟨0x0E0030, 0, 32⟩
/-- TIM_SNAP_STORED_LO, R182. -/
abbrev R_TIM_SNAP_STORED_LO : Nat := 0x0E0034
/-- TIM_SNAP_STORED_LO.VALUE. -/
abbrev F_TIM_SNAP_STORED_LO_VALUE : Fld := ⟨0x0E0034, 0, 32⟩
/-- TIM_SNAP_STORED_HI, R182. -/
abbrev R_TIM_SNAP_STORED_HI : Nat := 0x0E0038
/-- TIM_SNAP_STORED_HI.VALUE. -/
abbrev F_TIM_SNAP_STORED_HI_VALUE : Fld := ⟨0x0E0038, 0, 32⟩
/-- TIM_IN_CFG, R182. -/
abbrev R_TIM_IN_CFG (i : Nat) : Nat := 0x0E1000 + 0x20 * i
/-- TIM_IN_CFG.EN. -/
abbrev F_TIM_IN_CFG_EN (i : Nat) : Fld := ⟨0x0E1000 + 0x20 * i, 0, 1⟩
/-- TIM_IN_CFG.INV. -/
abbrev F_TIM_IN_CFG_INV (i : Nat) : Fld := ⟨0x0E1000 + 0x20 * i, 1, 1⟩
/-- TIM_IN_CFG.DEGLITCH. -/
abbrev F_TIM_IN_CFG_DEGLITCH (i : Nat) : Fld := ⟨0x0E1000 + 0x20 * i, 2, 12⟩
/-- TIM_IN_CFG.STORE. -/
abbrev F_TIM_IN_CFG_STORE (i : Nat) : Fld := ⟨0x0E1000 + 0x20 * i, 16, 2⟩
/-- TIM_IN_SKEW, R182. -/
abbrev R_TIM_IN_SKEW (i : Nat) : Nat := 0x0E1004 + 0x20 * i
/-- TIM_IN_SKEW.SKEW. -/
abbrev F_TIM_IN_SKEW_SKEW (i : Nat) : Fld := ⟨0x0E1004 + 0x20 * i, 0, 12⟩
/-- TIM_IN_BUCKET, R182. -/
abbrev R_TIM_IN_BUCKET (i : Nat) : Nat := 0x0E1008 + 0x20 * i
/-- TIM_IN_BUCKET.RATE. -/
abbrev F_TIM_IN_BUCKET_RATE (i : Nat) : Fld := ⟨0x0E1008 + 0x20 * i, 0, 8⟩
/-- TIM_IN_BUCKET.BURST. -/
abbrev F_TIM_IN_BUCKET_BURST (i : Nat) : Fld := ⟨0x0E1008 + 0x20 * i, 16, 13⟩
/-- TIM_IN_EDGES, R182. -/
abbrev R_TIM_IN_EDGES (i : Nat) : Nat := 0x0E100C + 0x20 * i
/-- TIM_IN_EDGES.COUNT. -/
abbrev F_TIM_IN_EDGES_COUNT (i : Nat) : Fld := ⟨0x0E100C + 0x20 * i, 0, 32⟩
/-- TIM_IN_LOST, R182. -/
abbrev R_TIM_IN_LOST (i : Nat) : Nat := 0x0E1010 + 0x20 * i
/-- TIM_IN_LOST.COUNT. -/
abbrev F_TIM_IN_LOST_COUNT (i : Nat) : Fld := ⟨0x0E1010 + 0x20 * i, 0, 32⟩
/-- TIM_IN_UNSTORED, R182. -/
abbrev R_TIM_IN_UNSTORED (i : Nat) : Nat := 0x0E1014 + 0x20 * i
/-- TIM_IN_UNSTORED.COUNT. -/
abbrev F_TIM_IN_UNSTORED_COUNT (i : Nat) : Fld := ⟨0x0E1014 + 0x20 * i, 0, 32⟩
/-- TIM_IN_GLITCH, R182. -/
abbrev R_TIM_IN_GLITCH (i : Nat) : Nat := 0x0E1018 + 0x20 * i
/-- TIM_IN_GLITCH.COUNT. -/
abbrev F_TIM_IN_GLITCH_COUNT (i : Nat) : Fld := ⟨0x0E1018 + 0x20 * i, 0, 32⟩
/-- TIM_VE_CFG, R182. -/
abbrev R_TIM_VE_CFG (i : Nat) : Nat := 0x0E2000 + 0x20 * i
/-- TIM_VE_CFG.SRC. -/
abbrev F_TIM_VE_CFG_SRC (i : Nat) : Fld := ⟨0x0E2000 + 0x20 * i, 0, 8⟩
/-- TIM_VE_CFG.EN. -/
abbrev F_TIM_VE_CFG_EN (i : Nat) : Fld := ⟨0x0E2000 + 0x20 * i, 8, 1⟩
/-- TIM_VE_CFG.INTERP. -/
abbrev F_TIM_VE_CFG_INTERP (i : Nat) : Fld := ⟨0x0E2000 + 0x20 * i, 9, 1⟩
/-- TIM_VE_CFG.STORE. -/
abbrev F_TIM_VE_CFG_STORE (i : Nat) : Fld := ⟨0x0E2000 + 0x20 * i, 16, 2⟩
/-- TIM_VE_LEVEL, R182. -/
abbrev R_TIM_VE_LEVEL (i : Nat) : Nat := 0x0E2004 + 0x20 * i
/-- TIM_VE_LEVEL.LEVEL. -/
abbrev F_TIM_VE_LEVEL_LEVEL (i : Nat) : Fld := ⟨0x0E2004 + 0x20 * i, 0, 16⟩
/-- TIM_VE_LEVEL.HYST. -/
abbrev F_TIM_VE_LEVEL_HYST (i : Nat) : Fld := ⟨0x0E2004 + 0x20 * i, 16, 16⟩
/-- TIM_VE_BUCKET, R182. -/
abbrev R_TIM_VE_BUCKET (i : Nat) : Nat := 0x0E2008 + 0x20 * i
/-- TIM_VE_BUCKET.RATE. -/
abbrev F_TIM_VE_BUCKET_RATE (i : Nat) : Fld := ⟨0x0E2008 + 0x20 * i, 0, 8⟩
/-- TIM_VE_BUCKET.BURST. -/
abbrev F_TIM_VE_BUCKET_BURST (i : Nat) : Fld := ⟨0x0E2008 + 0x20 * i, 16, 13⟩
/-- TIM_VE_EDGES, R182. -/
abbrev R_TIM_VE_EDGES (i : Nat) : Nat := 0x0E200C + 0x20 * i
/-- TIM_VE_EDGES.COUNT. -/
abbrev F_TIM_VE_EDGES_COUNT (i : Nat) : Fld := ⟨0x0E200C + 0x20 * i, 0, 32⟩
/-- TIM_FP_CFG, R182. -/
abbrev R_TIM_FP_CFG (i : Nat) : Nat := 0x0E3000 + 0x20 * i
/-- TIM_FP_CFG.EN. -/
abbrev F_TIM_FP_CFG_EN (i : Nat) : Fld := ⟨0x0E3000 + 0x20 * i, 0, 1⟩
/-- TIM_FP_CFG.EDGE. -/
abbrev F_TIM_FP_CFG_EDGE (i : Nat) : Fld := ⟨0x0E3000 + 0x20 * i, 1, 1⟩
/-- TIM_FP_CFG.SRC. -/
abbrev F_TIM_FP_CFG_SRC (i : Nat) : Fld := ⟨0x0E3000 + 0x20 * i, 8, 7⟩
/-- TIM_FP_CFG.BLANK. -/
abbrev F_TIM_FP_CFG_BLANK (i : Nat) : Fld := ⟨0x0E3000 + 0x20 * i, 16, 8⟩
/-- TIM_FP_P_LO, R182. -/
abbrev R_TIM_FP_P_LO (i : Nat) : Nat := 0x0E3004 + 0x20 * i
/-- TIM_FP_P_LO.P. -/
abbrev F_TIM_FP_P_LO_P (i : Nat) : Fld := ⟨0x0E3004 + 0x20 * i, 0, 32⟩
/-- TIM_FP_P_HI, R182. -/
abbrev R_TIM_FP_P_HI (i : Nat) : Nat := 0x0E3008 + 0x20 * i
/-- TIM_FP_P_HI.P. -/
abbrev F_TIM_FP_P_HI_P (i : Nat) : Fld := ⟨0x0E3008 + 0x20 * i, 0, 8⟩
/-- TIM_FP_E_W, R182. -/
abbrev R_TIM_FP_E_W (i j : Nat) : Nat := 0x0E300C + 0x20 * i + 0x4 * j
/-- TIM_FP_E_W.TS. -/
abbrev F_TIM_FP_E_W_TS (i j : Nat) : Fld := ⟨0x0E300C + 0x20 * i + 0x4 * j, 0, 32⟩
/-- TIM_FP_COUNT, R182. -/
abbrev R_TIM_FP_COUNT (i : Nat) : Nat := 0x0E3018 + 0x20 * i
/-- TIM_FP_COUNT.COUNT. -/
abbrev F_TIM_FP_COUNT_COUNT (i : Nat) : Fld := ⟨0x0E3018 + 0x20 * i, 0, 32⟩
/-- TIM_FP_BLANKED, R182. -/
abbrev R_TIM_FP_BLANKED (i : Nat) : Nat := 0x0E301C + 0x20 * i
/-- TIM_FP_BLANKED.COUNT. -/
abbrev F_TIM_FP_BLANKED_COUNT (i : Nat) : Fld := ⟨0x0E301C + 0x20 * i, 0, 32⟩
/-- TIM_MU_CFG, R182. -/
abbrev R_TIM_MU_CFG (i : Nat) : Nat := 0x0E4000 + 0x80 * i
/-- TIM_MU_CFG.EN. -/
abbrev F_TIM_MU_CFG_EN (i : Nat) : Fld := ⟨0x0E4000 + 0x80 * i, 0, 1⟩
/-- TIM_MU_CFG.MODE. -/
abbrev F_TIM_MU_CFG_MODE (i : Nat) : Fld := ⟨0x0E4000 + 0x80 * i, 1, 3⟩
/-- TIM_MU_CFG.GATE_MODE. -/
abbrev F_TIM_MU_CFG_GATE_MODE (i : Nat) : Fld := ⟨0x0E4000 + 0x80 * i, 4, 2⟩
/-- TIM_MU_CFG.START_SRC. -/
abbrev F_TIM_MU_CFG_START_SRC (i : Nat) : Fld := ⟨0x0E4000 + 0x80 * i, 8, 7⟩
/-- TIM_MU_CFG.START_EDGE. -/
abbrev F_TIM_MU_CFG_START_EDGE (i : Nat) : Fld := ⟨0x0E4000 + 0x80 * i, 16, 2⟩
/-- TIM_MU_CFG.STOP_SRC. -/
abbrev F_TIM_MU_CFG_STOP_SRC (i : Nat) : Fld := ⟨0x0E4000 + 0x80 * i, 18, 7⟩
/-- TIM_MU_CFG.STOP_EDGE. -/
abbrev F_TIM_MU_CFG_STOP_EDGE (i : Nat) : Fld := ⟨0x0E4000 + 0x80 * i, 25, 2⟩
/-- TIM_MU_WIN, R182. -/
abbrev R_TIM_MU_WIN (i : Nat) : Nat := 0x0E4004 + 0x80 * i
/-- TIM_MU_WIN.WIN_SRC. -/
abbrev F_TIM_MU_WIN_WIN_SRC (i : Nat) : Fld := ⟨0x0E4004 + 0x80 * i, 0, 7⟩
/-- TIM_MU_GATE_NS, R182. -/
abbrev R_TIM_MU_GATE_NS (i : Nat) : Nat := 0x0E4008 + 0x80 * i
/-- TIM_MU_GATE_NS.NS. -/
abbrev F_TIM_MU_GATE_NS_NS (i : Nat) : Fld := ⟨0x0E4008 + 0x80 * i, 0, 32⟩
/-- TIM_MU_GATE_N, R182. -/
abbrev R_TIM_MU_GATE_N (i : Nat) : Nat := 0x0E400C + 0x80 * i
/-- TIM_MU_GATE_N.N. -/
abbrev F_TIM_MU_GATE_N_N (i : Nat) : Fld := ⟨0x0E400C + 0x80 * i, 0, 32⟩
/-- TIM_MU_STATUS, R182. -/
abbrev R_TIM_MU_STATUS (i : Nat) : Nat := 0x0E4010 + 0x80 * i
/-- TIM_MU_STATUS.DEPTH. -/
abbrev F_TIM_MU_STATUS_DEPTH (i : Nat) : Fld := ⟨0x0E4010 + 0x80 * i, 0, 5⟩
/-- TIM_MU_STATUS.OVERRUN. -/
abbrev F_TIM_MU_STATUS_OVERRUN (i : Nat) : Fld := ⟨0x0E4010 + 0x80 * i, 16, 16⟩
/-- TIM_MU_RES_FLAGS, R182. -/
abbrev R_TIM_MU_RES_FLAGS (i : Nat) : Nat := 0x0E4014 + 0x80 * i
/-- TIM_MU_RES_FLAGS.EMPTY. -/
abbrev F_TIM_MU_RES_FLAGS_EMPTY (i : Nat) : Fld := ⟨0x0E4014 + 0x80 * i, 0, 1⟩
/-- TIM_MU_RES_FLAGS.SUSPECT. -/
abbrev F_TIM_MU_RES_FLAGS_SUSPECT (i : Nat) : Fld := ⟨0x0E4014 + 0x80 * i, 1, 1⟩
/-- TIM_MU_RES_FLAGS.LOSS. -/
abbrev F_TIM_MU_RES_FLAGS_LOSS (i : Nat) : Fld := ⟨0x0E4014 + 0x80 * i, 2, 1⟩
/-- TIM_MU_RES_FLAGS.ORPHAN. -/
abbrev F_TIM_MU_RES_FLAGS_ORPHAN (i : Nat) : Fld := ⟨0x0E4014 + 0x80 * i, 16, 16⟩
/-- TIM_MU_RES_VALUE_LO, R182. -/
abbrev R_TIM_MU_RES_VALUE_LO (i : Nat) : Nat := 0x0E4018 + 0x80 * i
/-- TIM_MU_RES_VALUE_LO.VALUE. -/
abbrev F_TIM_MU_RES_VALUE_LO_VALUE (i : Nat) : Fld := ⟨0x0E4018 + 0x80 * i, 0, 32⟩
/-- TIM_MU_RES_VALUE_HI, R182. -/
abbrev R_TIM_MU_RES_VALUE_HI (i : Nat) : Nat := 0x0E401C + 0x80 * i
/-- TIM_MU_RES_VALUE_HI.VALUE. -/
abbrev F_TIM_MU_RES_VALUE_HI_VALUE (i : Nat) : Fld := ⟨0x0E401C + 0x80 * i, 0, 32⟩
/-- TIM_MU_RES_N, R182. -/
abbrev R_TIM_MU_RES_N (i : Nat) : Nat := 0x0E4020 + 0x80 * i
/-- TIM_MU_RES_N.N. -/
abbrev F_TIM_MU_RES_N_N (i : Nat) : Fld := ⟨0x0E4020 + 0x80 * i, 0, 32⟩
/-- TIM_MU_RES_SUM_LO, R182. -/
abbrev R_TIM_MU_RES_SUM_LO (i : Nat) : Nat := 0x0E4024 + 0x80 * i
/-- TIM_MU_RES_SUM_LO.VALUE. -/
abbrev F_TIM_MU_RES_SUM_LO_VALUE (i : Nat) : Fld := ⟨0x0E4024 + 0x80 * i, 0, 32⟩
/-- TIM_MU_RES_SUM_HI, R182. -/
abbrev R_TIM_MU_RES_SUM_HI (i : Nat) : Nat := 0x0E4028 + 0x80 * i
/-- TIM_MU_RES_SUM_HI.VALUE. -/
abbrev F_TIM_MU_RES_SUM_HI_VALUE (i : Nat) : Fld := ⟨0x0E4028 + 0x80 * i, 0, 32⟩
/-- TIM_MU_RES_SUM2_LO, R182. -/
abbrev R_TIM_MU_RES_SUM2_LO (i : Nat) : Nat := 0x0E402C + 0x80 * i
/-- TIM_MU_RES_SUM2_LO.VALUE. -/
abbrev F_TIM_MU_RES_SUM2_LO_VALUE (i : Nat) : Fld := ⟨0x0E402C + 0x80 * i, 0, 32⟩
/-- TIM_MU_RES_SUM2_HI, R182. -/
abbrev R_TIM_MU_RES_SUM2_HI (i : Nat) : Nat := 0x0E4030 + 0x80 * i
/-- TIM_MU_RES_SUM2_HI.VALUE. -/
abbrev F_TIM_MU_RES_SUM2_HI_VALUE (i : Nat) : Fld := ⟨0x0E4030 + 0x80 * i, 0, 32⟩
/-- TIM_MU_RES_MIN_LO, R182. -/
abbrev R_TIM_MU_RES_MIN_LO (i : Nat) : Nat := 0x0E4034 + 0x80 * i
/-- TIM_MU_RES_MIN_LO.VALUE. -/
abbrev F_TIM_MU_RES_MIN_LO_VALUE (i : Nat) : Fld := ⟨0x0E4034 + 0x80 * i, 0, 32⟩
/-- TIM_MU_RES_MIN_HI, R182. -/
abbrev R_TIM_MU_RES_MIN_HI (i : Nat) : Nat := 0x0E4038 + 0x80 * i
/-- TIM_MU_RES_MIN_HI.VALUE. -/
abbrev F_TIM_MU_RES_MIN_HI_VALUE (i : Nat) : Fld := ⟨0x0E4038 + 0x80 * i, 0, 16⟩
/-- TIM_MU_RES_MAX_LO, R182. -/
abbrev R_TIM_MU_RES_MAX_LO (i : Nat) : Nat := 0x0E403C + 0x80 * i
/-- TIM_MU_RES_MAX_LO.VALUE. -/
abbrev F_TIM_MU_RES_MAX_LO_VALUE (i : Nat) : Fld := ⟨0x0E403C + 0x80 * i, 0, 32⟩
/-- TIM_MU_RES_MAX_HI, R182. -/
abbrev R_TIM_MU_RES_MAX_HI (i : Nat) : Nat := 0x0E4040 + 0x80 * i
/-- TIM_MU_RES_MAX_HI.VALUE. -/
abbrev F_TIM_MU_RES_MAX_HI_VALUE (i : Nat) : Fld := ⟨0x0E4040 + 0x80 * i, 0, 16⟩
/-- TIM_MU_RES_END_W, R182. -/
abbrev R_TIM_MU_RES_END_W (i j : Nat) : Nat := 0x0E4044 + 0x80 * i + 0x4 * j
/-- TIM_MU_RES_END_W.TS. -/
abbrev F_TIM_MU_RES_END_W_TS (i j : Nat) : Fld := ⟨0x0E4044 + 0x80 * i + 0x4 * j, 0, 32⟩
/-- TIM_MU_RES_POP, R182. -/
abbrev R_TIM_MU_RES_POP (i : Nat) : Nat := 0x0E4050 + 0x80 * i
/-- TIM_MU_RES_POP.GO. -/
abbrev F_TIM_MU_RES_POP_GO (i : Nat) : Fld := ⟨0x0E4050 + 0x80 * i, 0, 1⟩
/-- CAP_CTRL, R211. -/
abbrev R_CAP_CTRL : Nat := 0x100000
/-- CAP_CTRL.AUTO_PIN. -/
abbrev F_CAP_CTRL_AUTO_PIN : Fld := ⟨0x100000, 0, 1⟩
/-- CAP_CTRL.SEG_EVENT. -/
abbrev F_CAP_CTRL_SEG_EVENT : Fld := ⟨0x100000, 1, 1⟩
/-- CAP_CTRL.CLR_COUNTERS. -/
abbrev F_CAP_CTRL_CLR_COUNTERS : Fld := ⟨0x100000, 2, 1⟩
/-- CAP_STATUS, R211. -/
abbrev R_CAP_STATUS : Nat := 0x100004
/-- CAP_STATUS.STATE. -/
abbrev F_CAP_STATUS_STATE : Fld := ⟨0x100004, 0, 3⟩
/-- CAP_STATUS.SILO_READY. -/
abbrev F_CAP_STATUS_SILO_READY : Fld := ⟨0x100004, 3, 1⟩
/-- CAP_STATUS.REBUILT. -/
abbrev F_CAP_STATUS_REBUILT : Fld := ⟨0x100004, 4, 1⟩
/-- CAP_STATUS.SILO_BEHIND. -/
abbrev F_CAP_STATUS_SILO_BEHIND : Fld := ⟨0x100004, 5, 1⟩
/-- CAP_STATUS.PIN_FULL. -/
abbrev F_CAP_STATUS_PIN_FULL : Fld := ⟨0x100004, 6, 1⟩
/-- CAP_STATUS.WRITE_REFUSED. -/
abbrev F_CAP_STATUS_WRITE_REFUSED : Fld := ⟨0x100004, 24, 1⟩
/-- CAP_CAPTURE, R211. -/
abbrev R_CAP_CAPTURE : Nat := 0x100008
/-- CAP_CAPTURE.CAPTURE. -/
abbrev F_CAP_CAPTURE_CAPTURE : Fld := ⟨0x100008, 0, 16⟩
/-- CAP_SILO_BASE, R211. -/
abbrev R_CAP_SILO_BASE : Nat := 0x10000C
/-- CAP_SILO_BASE.BASE. -/
abbrev F_CAP_SILO_BASE_BASE : Fld := ⟨0x10000C, 0, 20⟩
/-- CAP_SILO_PAGES, R211. -/
abbrev R_CAP_SILO_PAGES : Nat := 0x100010
/-- CAP_SILO_PAGES.PAGES. -/
abbrev F_CAP_SILO_PAGES_PAGES : Fld := ⟨0x100010, 0, 21⟩
/-- CAP_META_BASE, R211. -/
abbrev R_CAP_META_BASE : Nat := 0x100014
/-- CAP_META_BASE.BASE. -/
abbrev F_CAP_META_BASE_BASE : Fld := ⟨0x100014, 0, 20⟩
/-- CAP_SEG_ENTRIES, R211. -/
abbrev R_CAP_SEG_ENTRIES : Nat := 0x100018
/-- CAP_SEG_ENTRIES.LOG2. -/
abbrev F_CAP_SEG_ENTRIES_LOG2 : Fld := ⟨0x100018, 0, 5⟩
/-- CAP_MARK_PAGES, R211. -/
abbrev R_CAP_MARK_PAGES : Nat := 0x10001C
/-- CAP_MARK_PAGES.PAGES. -/
abbrev F_CAP_MARK_PAGES_PAGES : Fld := ⟨0x10001C, 0, 16⟩
/-- CAP_PIN_LIMIT, R211. -/
abbrev R_CAP_PIN_LIMIT : Nat := 0x100020
/-- CAP_PIN_LIMIT.PERCENT. -/
abbrev F_CAP_PIN_LIMIT_PERCENT : Fld := ⟨0x100020, 0, 7⟩
/-- CAP_GR_HOLD_MAX, R211. -/
abbrev R_CAP_GR_HOLD_MAX : Nat := 0x100024
/-- CAP_GR_HOLD_MAX.MIB. -/
abbrev F_CAP_GR_HOLD_MAX_MIB : Fld := ⟨0x100024, 0, 6⟩
/-- CAP_STORE_LO, R211. -/
abbrev R_CAP_STORE_LO : Nat := 0x100028
/-- CAP_STORE_LO.STREAMS. -/
abbrev F_CAP_STORE_LO_STREAMS : Fld := ⟨0x100028, 0, 32⟩
/-- CAP_STORE_HI, R211. -/
abbrev R_CAP_STORE_HI : Nat := 0x10002C
/-- CAP_STORE_HI.STREAMS. -/
abbrev F_CAP_STORE_HI_STREAMS : Fld := ⟨0x10002C, 0, 16⟩
/-- CAP_STORE_HI.TRANSITIONS. -/
abbrev F_CAP_STORE_HI_TRANSITIONS : Fld := ⟨0x10002C, 16, 1⟩
/-- CAP_FLUSH_RATE, R211. -/
abbrev R_CAP_FLUSH_RATE : Nat := 0x100030
/-- CAP_FLUSH_RATE.GBPS. -/
abbrev F_CAP_FLUSH_RATE_GBPS : Fld := ⟨0x100030, 0, 9⟩
/-- CAP_HEARTBEAT, R211. -/
abbrev R_CAP_HEARTBEAT : Nat := 0x100034
/-- CAP_HEARTBEAT.US. -/
abbrev F_CAP_HEARTBEAT_US : Fld := ⟨0x100034, 0, 24⟩
/-- CAP_GRANARY_RATE, R211. -/
abbrev R_CAP_GRANARY_RATE : Nat := 0x100038
/-- CAP_GRANARY_RATE.MBPS. -/
abbrev F_CAP_GRANARY_RATE_MBPS : Fld := ⟨0x100038, 0, 32⟩
/-- CAP_SILO_RATE, R211. -/
abbrev R_CAP_SILO_RATE : Nat := 0x10003C
/-- CAP_SILO_RATE.MBPS. -/
abbrev F_CAP_SILO_RATE_MBPS : Fld := ⟨0x10003C, 0, 32⟩
/-- CAP_GRANARY_SPAN, R211. -/
abbrev R_CAP_GRANARY_SPAN : Nat := 0x100040
/-- CAP_GRANARY_SPAN.US. -/
abbrev F_CAP_GRANARY_SPAN_US : Fld := ⟨0x100040, 0, 32⟩
/-- CAP_SILO_SPAN, R211. -/
abbrev R_CAP_SILO_SPAN : Nat := 0x100044
/-- CAP_SILO_SPAN.MS. -/
abbrev F_CAP_SILO_SPAN_MS : Fld := ⟨0x100044, 0, 32⟩
/-- CAP_PINNED, R211. -/
abbrev R_CAP_PINNED : Nat := 0x100048
/-- CAP_PINNED.PAGES. -/
abbrev F_CAP_PINNED_PAGES : Fld := ⟨0x100048, 0, 21⟩
/-- CAP_CLAIMS, R211. -/
abbrev R_CAP_CLAIMS : Nat := 0x10004C
/-- CAP_CLAIMS.COUNT. -/
abbrev F_CAP_CLAIMS_COUNT : Fld := ⟨0x10004C, 0, 17⟩
/-- CAP_HELD, R211. -/
abbrev R_CAP_HELD : Nat := 0x100050
/-- CAP_HELD.SEGS. -/
abbrev F_CAP_HELD_SEGS : Fld := ⟨0x100050, 0, 5⟩
/-- CAP_HELD.KIB4. -/
abbrev F_CAP_HELD_KIB4 : Fld := ⟨0x100050, 16, 14⟩
/-- CAP_SILO_GAP, R211. -/
abbrev R_CAP_SILO_GAP : Nat := 0x100054
/-- CAP_SILO_GAP.COUNT. -/
abbrev F_CAP_SILO_GAP_COUNT : Fld := ⟨0x100054, 0, 32⟩
/-- CAP_SEG_DROPPED, R211. -/
abbrev R_CAP_SEG_DROPPED : Nat := 0x100058
/-- CAP_SEG_DROPPED.COUNT. -/
abbrev F_CAP_SEG_DROPPED_COUNT : Fld := ⟨0x100058, 0, 32⟩
/-- CAP_UNPINNED, R211. -/
abbrev R_CAP_UNPINNED : Nat := 0x10005C
/-- CAP_UNPINNED.COUNT. -/
abbrev F_CAP_UNPINNED_COUNT : Fld := ⟨0x10005C, 0, 32⟩
/-- CAP_MARK_LOST, R211. -/
abbrev R_CAP_MARK_LOST : Nat := 0x100060
/-- CAP_MARK_LOST.COUNT. -/
abbrev F_CAP_MARK_LOST_COUNT : Fld := ⟨0x100060, 0, 32⟩
/-- CAP_FLUSH_LOST, R211. -/
abbrev R_CAP_FLUSH_LOST : Nat := 0x100064
/-- CAP_FLUSH_LOST.COUNT. -/
abbrev F_CAP_FLUSH_LOST_COUNT : Fld := ⟨0x100064, 0, 32⟩
/-- CAP_HELD_LOST, R211. -/
abbrev R_CAP_HELD_LOST : Nat := 0x100068
/-- CAP_HELD_LOST.COUNT. -/
abbrev F_CAP_HELD_LOST_COUNT : Fld := ⟨0x100068, 0, 32⟩
/-- CAP_FLUSH_W, R211. -/
abbrev R_CAP_FLUSH_W (i : Nat) : Nat := 0x100070 + 0x4 * i
/-- CAP_FLUSH_W.TS. -/
abbrev F_CAP_FLUSH_W_TS (i : Nat) : Fld := ⟨0x100070 + 0x4 * i, 0, 32⟩
/-- CAP_CATCHUP, R211. -/
abbrev R_CAP_CATCHUP : Nat := 0x10007C
/-- CAP_CATCHUP.US. -/
abbrev F_CAP_CATCHUP_US : Fld := ⟨0x10007C, 0, 32⟩
/-- CAP_RES_RATE, R211. -/
abbrev R_CAP_RES_RATE (i : Nat) : Nat := 0x100080 + 0x4 * i
/-- CAP_RES_RATE.MBPS. -/
abbrev F_CAP_RES_RATE_MBPS (i : Nat) : Fld := ⟨0x100080 + 0x4 * i, 0, 16⟩
/-- CAP_SNAP_STATUS, R211. -/
abbrev R_CAP_SNAP_STATUS : Nat := 0x1000C0
/-- CAP_SNAP_STATUS.VALUE. -/
abbrev F_CAP_SNAP_STATUS_VALUE : Fld := ⟨0x1000C0, 0, 32⟩
/-- CAP_SNAP_PINNED, R211. -/
abbrev R_CAP_SNAP_PINNED : Nat := 0x1000C4
/-- CAP_SNAP_PINNED.VALUE. -/
abbrev F_CAP_SNAP_PINNED_VALUE : Fld := ⟨0x1000C4, 0, 32⟩
/-- CAP_ST_PAGES, R211. -/
abbrev R_CAP_ST_PAGES (i : Nat) : Nat := 0x101000 + 0x10 * i
/-- CAP_ST_PAGES.PAGES. -/
abbrev F_CAP_ST_PAGES_PAGES (i : Nat) : Fld := ⟨0x101000 + 0x10 * i, 0, 21⟩
/-- CAP_ST_GR_BYTES, R211. -/
abbrev R_CAP_ST_GR_BYTES (i : Nat) : Nat := 0x101004 + 0x10 * i
/-- CAP_ST_GR_BYTES.BYTES. -/
abbrev F_CAP_ST_GR_BYTES_BYTES (i : Nat) : Fld := ⟨0x101004 + 0x10 * i, 0, 26⟩
/-- CAP_ST_CUR_PAGE, R211. -/
abbrev R_CAP_ST_CUR_PAGE (i : Nat) : Nat := 0x101008 + 0x10 * i
/-- CAP_ST_CUR_PAGE.PAGE. -/
abbrev F_CAP_ST_CUR_PAGE_PAGE (i : Nat) : Fld := ⟨0x101008 + 0x10 * i, 0, 20⟩
/-- CAP_ST_LAG, R211. -/
abbrev R_CAP_ST_LAG (i : Nat) : Nat := 0x10100C + 0x10 * i
/-- CAP_ST_LAG.US. -/
abbrev F_CAP_ST_LAG_US (i : Nat) : Fld := ⟨0x10100C + 0x10 * i, 0, 24⟩
/-- ENG_CTRL, R241. -/
abbrev R_ENG_CTRL (i : Nat) : Nat := 0x120000 + 0x10000 * i
/-- ENG_CTRL.GUARD. -/
abbrev F_ENG_CTRL_GUARD (i : Nat) : Fld := ⟨0x120000 + 0x10000 * i, 0, 1⟩
/-- ENG_CTRL.SPARE_SEL. -/
abbrev F_ENG_CTRL_SPARE_SEL (i : Nat) : Fld := ⟨0x120000 + 0x10000 * i, 1, 3⟩
/-- ENG_CTRL.CLR_COUNTERS. -/
abbrev F_ENG_CTRL_CLR_COUNTERS (i : Nat) : Fld := ⟨0x120000 + 0x10000 * i, 4, 1⟩
/-- ENG_STATUS, R241. -/
abbrev R_ENG_STATUS (i : Nat) : Nat := 0x120004 + 0x10000 * i
/-- ENG_STATUS.ACTIVE. -/
abbrev F_ENG_STATUS_ACTIVE (i : Nat) : Fld := ⟨0x120004 + 0x10000 * i, 0, 8⟩
/-- ENG_STATUS.FENCED. -/
abbrev F_ENG_STATUS_FENCED (i : Nat) : Fld := ⟨0x120004 + 0x10000 * i, 8, 8⟩
/-- ENG_STATUS.SPARE_IDX. -/
abbrev F_ENG_STATUS_SPARE_IDX (i : Nat) : Fld := ⟨0x120004 + 0x10000 * i, 16, 3⟩
/-- ENG_STATUS.SPARE_AVAIL. -/
abbrev F_ENG_STATUS_SPARE_AVAIL (i : Nat) : Fld := ⟨0x120004 + 0x10000 * i, 19, 1⟩
/-- ENG_STATUS.UNGUARDED. -/
abbrev F_ENG_STATUS_UNGUARDED (i : Nat) : Fld := ⟨0x120004 + 0x10000 * i, 20, 1⟩
/-- ENG_STATUS.BARN_FENCED. -/
abbrev F_ENG_STATUS_BARN_FENCED (i : Nat) : Fld := ⟨0x120004 + 0x10000 * i, 21, 1⟩
/-- ENG_STATUS.POWERED. -/
abbrev F_ENG_STATUS_POWERED (i : Nat) : Fld := ⟨0x120004 + 0x10000 * i, 22, 1⟩
/-- ENG_STATUS.WRITE_REFUSED. -/
abbrev F_ENG_STATUS_WRITE_REFUSED (i : Nat) : Fld := ⟨0x120004 + 0x10000 * i, 24, 1⟩
/-- ENG_MIRROR_USED, R241. -/
abbrev R_ENG_MIRROR_USED (i : Nat) : Nat := 0x120010 + 0x10000 * i
/-- ENG_MIRROR_USED.BYTES. -/
abbrev F_ENG_MIRROR_USED_BYTES (i : Nat) : Fld := ⟨0x120010 + 0x10000 * i, 0, 19⟩
/-- ENG_MIRROR_LIMIT, R241. -/
abbrev R_ENG_MIRROR_LIMIT (i : Nat) : Nat := 0x120014 + 0x10000 * i
/-- ENG_MIRROR_LIMIT.BYTES. -/
abbrev F_ENG_MIRROR_LIMIT_BYTES (i : Nat) : Fld := ⟨0x120014 + 0x10000 * i, 0, 19⟩
/-- ENG_CE_LIMIT, R241. -/
abbrev R_ENG_CE_LIMIT (i : Nat) : Nat := 0x120018 + 0x10000 * i
/-- ENG_CE_LIMIT.PER_S. -/
abbrev F_ENG_CE_LIMIT_PER_S (i : Nat) : Fld := ⟨0x120018 + 0x10000 * i, 0, 16⟩
/-- ENG_COMMITS_LO, R241. -/
abbrev R_ENG_COMMITS_LO (i : Nat) : Nat := 0x120020 + 0x10000 * i
/-- ENG_COMMITS_LO.COUNT. -/
abbrev F_ENG_COMMITS_LO_COUNT (i : Nat) : Fld := ⟨0x120020 + 0x10000 * i, 0, 32⟩
/-- ENG_COMMITS_HI, R241. -/
abbrev R_ENG_COMMITS_HI (i : Nat) : Nat := 0x120024 + 0x10000 * i
/-- ENG_COMMITS_HI.COUNT. -/
abbrev F_ENG_COMMITS_HI_COUNT (i : Nat) : Fld := ⟨0x120024 + 0x10000 * i, 0, 32⟩
/-- ENG_DUP, R241. -/
abbrev R_ENG_DUP (i : Nat) : Nat := 0x120028 + 0x10000 * i
/-- ENG_DUP.COUNT. -/
abbrev F_ENG_DUP_COUNT (i : Nat) : Fld := ⟨0x120028 + 0x10000 * i, 0, 32⟩
/-- ENG_RETRIED, R241. -/
abbrev R_ENG_RETRIED (i : Nat) : Nat := 0x12002C + 0x10000 * i
/-- ENG_RETRIED.COUNT. -/
abbrev F_ENG_RETRIED_COUNT (i : Nat) : Fld := ⟨0x12002C + 0x10000 * i, 0, 32⟩
/-- ENG_INPUT_LOST, R241. -/
abbrev R_ENG_INPUT_LOST (i : Nat) : Nat := 0x120030 + 0x10000 * i
/-- ENG_INPUT_LOST.COUNT. -/
abbrev F_ENG_INPUT_LOST_COUNT (i : Nat) : Fld := ⟨0x120030 + 0x10000 * i, 0, 32⟩
/-- ENG_FEED_OVERRUN, R241. -/
abbrev R_ENG_FEED_OVERRUN (i : Nat) : Nat := 0x120034 + 0x10000 * i
/-- ENG_FEED_OVERRUN.COUNT. -/
abbrev F_ENG_FEED_OVERRUN_COUNT (i : Nat) : Fld := ⟨0x120034 + 0x10000 * i, 0, 32⟩
/-- ENG_RES_LOST, R241. -/
abbrev R_ENG_RES_LOST (i : Nat) : Nat := 0x120038 + 0x10000 * i
/-- ENG_RES_LOST.COUNT. -/
abbrev F_ENG_RES_LOST_COUNT (i : Nat) : Fld := ⟨0x120038 + 0x10000 * i, 0, 32⟩
/-- ENG_SNAP_STATUS, R241. -/
abbrev R_ENG_SNAP_STATUS (i : Nat) : Nat := 0x120040 + 0x10000 * i
/-- ENG_SNAP_STATUS.VALUE. -/
abbrev F_ENG_SNAP_STATUS_VALUE (i : Nat) : Fld := ⟨0x120040 + 0x10000 * i, 0, 32⟩
/-- ENG_SNAP_COMMITS_LO, R241. -/
abbrev R_ENG_SNAP_COMMITS_LO (i : Nat) : Nat := 0x120044 + 0x10000 * i
/-- ENG_SNAP_COMMITS_LO.VALUE. -/
abbrev F_ENG_SNAP_COMMITS_LO_VALUE (i : Nat) : Fld := ⟨0x120044 + 0x10000 * i, 0, 32⟩
/-- ENG_SNAP_COMMITS_HI, R241. -/
abbrev R_ENG_SNAP_COMMITS_HI (i : Nat) : Nat := 0x120048 + 0x10000 * i
/-- ENG_SNAP_COMMITS_HI.VALUE. -/
abbrev F_ENG_SNAP_COMMITS_HI_VALUE (i : Nat) : Fld := ⟨0x120048 + 0x10000 * i, 0, 32⟩
/-- ENG_FEED, R241. -/
abbrev R_ENG_FEED (i j : Nat) : Nat := 0x120100 + 0x10000 * i + 0x4 * j
/-- ENG_FEED.FEED_ID. -/
abbrev F_ENG_FEED_FEED_ID (i j : Nat) : Fld := ⟨0x120100 + 0x10000 * i + 0x4 * j, 0, 8⟩
/-- ENG_FEED.ENGINES. -/
abbrev F_ENG_FEED_ENGINES (i j : Nat) : Fld := ⟨0x120100 + 0x10000 * i + 0x4 * j, 8, 8⟩
/-- ENG_FEED.EN. -/
abbrev F_ENG_FEED_EN (i j : Nat) : Fld := ⟨0x120100 + 0x10000 * i + 0x4 * j, 16, 1⟩
/-- ENG_FEED.MIRROR. -/
abbrev F_ENG_FEED_MIRROR (i j : Nat) : Fld := ⟨0x120100 + 0x10000 * i + 0x4 * j, 17, 1⟩
/-- ENG_FEED.REPLAY. -/
abbrev F_ENG_FEED_REPLAY (i j : Nat) : Fld := ⟨0x120100 + 0x10000 * i + 0x4 * j, 18, 1⟩
/-- ENG_E_STATUS, R241. -/
abbrev R_ENG_E_STATUS (i j : Nat) : Nat := 0x121000 + 0x10000 * i + 0x100 * j
/-- ENG_E_STATUS.STATE. -/
abbrev F_ENG_E_STATUS_STATE (i j : Nat) : Fld := ⟨0x121000 + 0x10000 * i + 0x100 * j, 0, 3⟩
/-- ENG_E_STATUS.CHAINS. -/
abbrev F_ENG_E_STATUS_CHAINS (i j : Nat) : Fld := ⟨0x121000 + 0x10000 * i + 0x100 * j, 3, 3⟩
/-- ENG_E_STATUS.READY. -/
abbrev F_ENG_E_STATUS_READY (i j : Nat) : Fld := ⟨0x121000 + 0x10000 * i + 0x100 * j, 8, 8⟩
/-- ENG_E_STATUS.MASTER. -/
abbrev F_ENG_E_STATUS_MASTER (i j : Nat) : Fld := ⟨0x121000 + 0x10000 * i + 0x100 * j, 16, 8⟩
/-- ENG_E_LOAD, R241. -/
abbrev R_ENG_E_LOAD (i j : Nat) : Nat := 0x121004 + 0x10000 * i + 0x100 * j
/-- ENG_E_LOAD.CYCLES. -/
abbrev F_ENG_E_LOAD_CYCLES (i j : Nat) : Fld := ⟨0x121004 + 0x10000 * i + 0x100 * j, 0, 24⟩
/-- ENG_E_BUSY_LO, R241. -/
abbrev R_ENG_E_BUSY_LO (i j : Nat) : Nat := 0x121008 + 0x10000 * i + 0x100 * j
/-- ENG_E_BUSY_LO.CYCLES. -/
abbrev F_ENG_E_BUSY_LO_CYCLES (i j : Nat) : Fld := ⟨0x121008 + 0x10000 * i + 0x100 * j, 0, 32⟩
/-- ENG_E_BUSY_HI, R241. -/
abbrev R_ENG_E_BUSY_HI (i j : Nat) : Nat := 0x12100C + 0x10000 * i + 0x100 * j
/-- ENG_E_BUSY_HI.CYCLES. -/
abbrev F_ENG_E_BUSY_HI_CYCLES (i j : Nat) : Fld := ⟨0x12100C + 0x10000 * i + 0x100 * j, 0, 32⟩
/-- ENG_E_JOBS, R241. -/
abbrev R_ENG_E_JOBS (i j : Nat) : Nat := 0x121010 + 0x10000 * i + 0x100 * j
/-- ENG_E_JOBS.COUNT. -/
abbrev F_ENG_E_JOBS_COUNT (i j : Nat) : Fld := ⟨0x121010 + 0x10000 * i + 0x100 * j, 0, 32⟩
/-- ENG_E_CE, R241. -/
abbrev R_ENG_E_CE (i j : Nat) : Nat := 0x121014 + 0x10000 * i + 0x100 * j
/-- ENG_E_CE.TOTAL. -/
abbrev F_ENG_E_CE_TOTAL (i j : Nat) : Fld := ⟨0x121014 + 0x10000 * i + 0x100 * j, 0, 16⟩
/-- ENG_E_CE.LAST_S. -/
abbrev F_ENG_E_CE_LAST_S (i j : Nat) : Fld := ⟨0x121014 + 0x10000 * i + 0x100 * j, 16, 16⟩
/-- ENG_E_FENCE_CAUSE, R241. -/
abbrev R_ENG_E_FENCE_CAUSE (i j : Nat) : Nat := 0x121018 + 0x10000 * i + 0x100 * j
/-- ENG_E_FENCE_CAUSE.TYPE. -/
abbrev F_ENG_E_FENCE_CAUSE_TYPE (i j : Nat) : Fld := ⟨0x121018 + 0x10000 * i + 0x100 * j, 0, 8⟩
/-- ENG_E_FENCE_CAUSE.PREDICTIVE. -/
abbrev F_ENG_E_FENCE_CAUSE_PREDICTIVE (i j : Nat) : Fld := ⟨0x121018 + 0x10000 * i + 0x100 * j, 8, 1⟩
/-- ENG_E_FENCE_CAUSE.RERUN. -/
abbrev F_ENG_E_FENCE_CAUSE_RERUN (i j : Nat) : Fld := ⟨0x121018 + 0x10000 * i + 0x100 * j, 16, 8⟩
/-- ENG_E_FENCE_W, R241. -/
abbrev R_ENG_E_FENCE_W (i j k : Nat) : Nat := 0x12101C + 0x10000 * i + 0x100 * j + 0x4 * k
/-- ENG_E_FENCE_W.TS. -/
abbrev F_ENG_E_FENCE_W_TS (i j k : Nat) : Fld := ⟨0x12101C + 0x10000 * i + 0x100 * j + 0x4 * k, 0, 32⟩
/-- ENG_E_CUR, R241. -/
abbrev R_ENG_E_CUR (i j : Nat) : Nat := 0x121028 + 0x10000 * i + 0x100 * j
/-- ENG_E_CUR.CHAIN_ID. -/
abbrev F_ENG_E_CUR_CHAIN_ID (i j : Nat) : Fld := ⟨0x121028 + 0x10000 * i + 0x100 * j, 0, 16⟩
/-- ENG_E_CUR.OP. -/
abbrev F_ENG_E_CUR_OP (i j : Nat) : Fld := ⟨0x121028 + 0x10000 * i + 0x100 * j, 16, 4⟩
/-- MAP_CTRL, R269. -/
abbrev R_MAP_CTRL (i : Nat) : Nat := 0x1E0000 + 0x40 * i
/-- MAP_CTRL.EN. -/
abbrev F_MAP_CTRL_EN (i : Nat) : Fld := ⟨0x1E0000 + 0x40 * i, 0, 1⟩
/-- MAP_CTRL.CB32. -/
abbrev F_MAP_CTRL_CB32 (i : Nat) : Fld := ⟨0x1E0000 + 0x40 * i, 1, 1⟩
/-- MAP_CTRL.EDGE. -/
abbrev F_MAP_CTRL_EDGE (i : Nat) : Fld := ⟨0x1E0000 + 0x40 * i, 2, 1⟩
/-- MAP_CTRL.OWNER. -/
abbrev F_MAP_CTRL_OWNER (i : Nat) : Fld := ⟨0x1E0000 + 0x40 * i, 4, 4⟩
/-- MAP_CTRL.CONTEXT. -/
abbrev F_MAP_CTRL_CONTEXT (i : Nat) : Fld := ⟨0x1E0000 + 0x40 * i, 16, 12⟩
/-- MAP_BASE, R269. -/
abbrev R_MAP_BASE (i : Nat) : Nat := 0x1E0004 + 0x40 * i
/-- MAP_BASE.BASE. -/
abbrev F_MAP_BASE_BASE (i : Nat) : Fld := ⟨0x1E0004 + 0x40 * i, 0, 25⟩
/-- MAP_GEOM, R269. -/
abbrev R_MAP_GEOM (i : Nat) : Nat := 0x1E0008 + 0x40 * i
/-- MAP_GEOM.W. -/
abbrev F_MAP_GEOM_W (i : Nat) : Fld := ⟨0x1E0008 + 0x40 * i, 0, 14⟩
/-- MAP_GEOM.H. -/
abbrev F_MAP_GEOM_H (i : Nat) : Fld := ⟨0x1E0008 + 0x40 * i, 16, 13⟩
/-- MAP_EPOCH, R269. -/
abbrev R_MAP_EPOCH (i : Nat) : Nat := 0x1E000C + 0x40 * i
/-- MAP_EPOCH.US. -/
abbrev F_MAP_EPOCH_US (i : Nat) : Fld := ⟨0x1E000C + 0x40 * i, 0, 24⟩
/-- MAP_DECAY, R269. -/
abbrev R_MAP_DECAY (i : Nat) : Nat := 0x1E0010 + 0x40 * i
/-- MAP_DECAY.DECAY. -/
abbrev F_MAP_DECAY_DECAY (i : Nat) : Fld := ⟨0x1E0010 + 0x40 * i, 0, 9⟩
/-- MAP_SETTLE, R269. -/
abbrev R_MAP_SETTLE (i : Nat) : Nat := 0x1E0014 + 0x40 * i
/-- MAP_SETTLE.US. -/
abbrev F_MAP_SETTLE_US (i : Nat) : Fld := ⟨0x1E0014 + 0x40 * i, 0, 24⟩
/-- MAP_STATUS, R269. -/
abbrev R_MAP_STATUS (i : Nat) : Nat := 0x1E0018 + 0x40 * i
/-- MAP_STATUS.FINAL_BANK. -/
abbrev F_MAP_STATUS_FINAL_BANK (i : Nat) : Fld := ⟨0x1E0018 + 0x40 * i, 0, 2⟩
/-- MAP_STATUS.FINAL_VALID. -/
abbrev F_MAP_STATUS_FINAL_VALID (i : Nat) : Fld := ⟨0x1E0018 + 0x40 * i, 2, 1⟩
/-- MAP_STATUS.PASS_BUSY. -/
abbrev F_MAP_STATUS_PASS_BUSY (i : Nat) : Fld := ⟨0x1E0018 + 0x40 * i, 3, 1⟩
/-- MAP_STATUS.BAD. -/
abbrev F_MAP_STATUS_BAD (i : Nat) : Fld := ⟨0x1E0018 + 0x40 * i, 4, 1⟩
/-- MAP_STATUS.WRITE_REFUSED. -/
abbrev F_MAP_STATUS_WRITE_REFUSED (i : Nat) : Fld := ⟨0x1E0018 + 0x40 * i, 24, 1⟩
/-- MAP_EPOCH_NO_LO, R269. -/
abbrev R_MAP_EPOCH_NO_LO (i : Nat) : Nat := 0x1E001C + 0x40 * i
/-- MAP_EPOCH_NO_LO.VALUE. -/
abbrev F_MAP_EPOCH_NO_LO_VALUE (i : Nat) : Fld := ⟨0x1E001C + 0x40 * i, 0, 32⟩
/-- MAP_EPOCH_NO_HI, R269. -/
abbrev R_MAP_EPOCH_NO_HI (i : Nat) : Nat := 0x1E0020 + 0x40 * i
/-- MAP_EPOCH_NO_HI.VALUE. -/
abbrev F_MAP_EPOCH_NO_HI_VALUE (i : Nat) : Fld := ⟨0x1E0020 + 0x40 * i, 0, 32⟩
/-- MAP_FINAL_W, R269. -/
abbrev R_MAP_FINAL_W (i j : Nat) : Nat := 0x1E0024 + 0x40 * i + 0x4 * j
/-- MAP_FINAL_W.TS. -/
abbrev F_MAP_FINAL_W_TS (i j : Nat) : Fld := ⟨0x1E0024 + 0x40 * i + 0x4 * j, 0, 32⟩
/-- MAP_CLIP, R269. -/
abbrev R_MAP_CLIP (i : Nat) : Nat := 0x1E0030 + 0x40 * i
/-- MAP_CLIP.COUNT. -/
abbrev F_MAP_CLIP_COUNT (i : Nat) : Fld := ⟨0x1E0030 + 0x40 * i, 0, 32⟩
/-- MAP_SAT, R269. -/
abbrev R_MAP_SAT (i : Nat) : Nat := 0x1E0034 + 0x40 * i
/-- MAP_SAT.COUNT. -/
abbrev F_MAP_SAT_COUNT (i : Nat) : Fld := ⟨0x1E0034 + 0x40 * i, 0, 32⟩
/-- MAP_LATE, R269. -/
abbrev R_MAP_LATE (i : Nat) : Nat := 0x1E0038 + 0x40 * i
/-- MAP_LATE.COUNT. -/
abbrev F_MAP_LATE_COUNT (i : Nat) : Fld := ⟨0x1E0038 + 0x40 * i, 0, 32⟩
/-- MAP_DROPPED, R269. -/
abbrev R_MAP_DROPPED (i : Nat) : Nat := 0x1E003C + 0x40 * i
/-- MAP_DROPPED.COUNT. -/
abbrev F_MAP_DROPPED_COUNT (i : Nat) : Fld := ⟨0x1E003C + 0x40 * i, 0, 32⟩
/-- ENG_PQ_CTRL, R269. -/
abbrev R_ENG_PQ_CTRL : Nat := 0x1E0400
/-- ENG_PQ_CTRL.CLOCK_OFS. -/
abbrev F_ENG_PQ_CTRL_CLOCK_OFS : Fld := ⟨0x1E0400, 0, 8⟩
/-- ENG_PQ_CTRL.DRAIN_WAKE. -/
abbrev F_ENG_PQ_CTRL_DRAIN_WAKE : Fld := ⟨0x1E0400, 8, 1⟩
/-- ENG_PQ_STATUS, R269. -/
abbrev R_ENG_PQ_STATUS : Nat := 0x1E0404
/-- ENG_PQ_STATUS.HELD. -/
abbrev F_ENG_PQ_STATUS_HELD : Fld := ⟨0x1E0404, 0, 15⟩
/-- ENG_PQ_STATUS.WRITE_REFUSED. -/
abbrev F_ENG_PQ_STATUS_WRITE_REFUSED : Fld := ⟨0x1E0404, 24, 1⟩
/-- ENG_PQ_LOAD, R269. -/
abbrev R_ENG_PQ_LOAD : Nat := 0x1E0408
/-- ENG_PQ_LOAD.RATE. -/
abbrev F_ENG_PQ_LOAD_RATE : Fld := ⟨0x1E0408, 0, 32⟩
/-- ENG_PQ_OUT, R269. -/
abbrev R_ENG_PQ_OUT : Nat := 0x1E040C
/-- ENG_PQ_OUT.COUNT. -/
abbrev F_ENG_PQ_OUT_COUNT : Fld := ⟨0x1E040C, 0, 32⟩
/-- ENG_PQ_LATE, R269. -/
abbrev R_ENG_PQ_LATE : Nat := 0x1E0410
/-- ENG_PQ_LATE.COUNT. -/
abbrev F_ENG_PQ_LATE_COUNT : Fld := ⟨0x1E0410, 0, 32⟩
/-- ENG_PQ_LOST, R269. -/
abbrev R_ENG_PQ_LOST : Nat := 0x1E0414
/-- ENG_PQ_LOST.COUNT. -/
abbrev F_ENG_PQ_LOST_COUNT : Fld := ⟨0x1E0414, 0, 32⟩
/-- MAP_CLEAR, R269. -/
abbrev R_MAP_CLEAR (i : Nat) : Nat := 0x1E0800 + 0x4 * i
/-- MAP_CLEAR.CLEAR_DELAY. -/
abbrev F_MAP_CLEAR_CLEAR_DELAY (i : Nat) : Fld := ⟨0x1E0800 + 0x4 * i, 0, 24⟩
/-- DMA_CTRL, R383. -/
abbrev R_DMA_CTRL : Nat := 0x200000
/-- DMA_CTRL.CLR_COUNTERS. -/
abbrev F_DMA_CTRL_CLR_COUNTERS : Fld := ⟨0x200000, 0, 1⟩
/-- DMA_STATUS, R383. -/
abbrev R_DMA_STATUS : Nat := 0x200004
/-- DMA_STATUS.WRITE_REFUSED. -/
abbrev F_DMA_STATUS_WRITE_REFUSED : Fld := ⟨0x200004, 24, 1⟩
/-- DMA_CPL_TIMEOUT, R383. -/
abbrev R_DMA_CPL_TIMEOUT : Nat := 0x200008
/-- DMA_CPL_TIMEOUT.US. -/
abbrev F_DMA_CPL_TIMEOUT_US : Fld := ⟨0x200008, 0, 16⟩
/-- DMA_RETRY, R383. -/
abbrev R_DMA_RETRY : Nat := 0x20000C
/-- DMA_RETRY.COUNT. -/
abbrev F_DMA_RETRY_COUNT : Fld := ⟨0x20000C, 0, 4⟩
/-- DMA_RUNNING, R383. -/
abbrev R_DMA_RUNNING (i : Nat) : Nat := 0x200020 + 0x4 * i
/-- DMA_RUNNING.BITS. -/
abbrev F_DMA_RUNNING_BITS (i : Nat) : Fld := ⟨0x200020 + 0x4 * i, 0, 32⟩
/-- DMA_HALTED, R383. -/
abbrev R_DMA_HALTED (i : Nat) : Nat := 0x200030 + 0x4 * i
/-- DMA_HALTED.BITS. -/
abbrev F_DMA_HALTED_BITS (i : Nat) : Fld := ⟨0x200030 + 0x4 * i, 0, 32⟩
/-- DMA_SNAP_STATUS, R383. -/
abbrev R_DMA_SNAP_STATUS : Nat := 0x200040
/-- DMA_SNAP_STATUS.VALUE. -/
abbrev F_DMA_SNAP_STATUS_VALUE : Fld := ⟨0x200040, 0, 32⟩
/-- DMA_SNAP_RUNNING0, R383. -/
abbrev R_DMA_SNAP_RUNNING0 : Nat := 0x200044
/-- DMA_SNAP_RUNNING0.VALUE. -/
abbrev F_DMA_SNAP_RUNNING0_VALUE : Fld := ⟨0x200044, 0, 32⟩
/-- DMA_G_BYTES_LO, R383. -/
abbrev R_DMA_G_BYTES_LO (i : Nat) : Nat := 0x200100 + 0x10 * i
/-- DMA_G_BYTES_LO.BYTES. -/
abbrev F_DMA_G_BYTES_LO_BYTES (i : Nat) : Fld := ⟨0x200100 + 0x10 * i, 0, 32⟩
/-- DMA_G_BYTES_HI, R383. -/
abbrev R_DMA_G_BYTES_HI (i : Nat) : Nat := 0x200104 + 0x10 * i
/-- DMA_G_BYTES_HI.BYTES. -/
abbrev F_DMA_G_BYTES_HI_BYTES (i : Nat) : Fld := ⟨0x200104 + 0x10 * i, 0, 32⟩
/-- DMA_G_PREEMPT, R383. -/
abbrev R_DMA_G_PREEMPT (i : Nat) : Nat := 0x200108 + 0x10 * i
/-- DMA_G_PREEMPT.COUNT. -/
abbrev F_DMA_G_PREEMPT_COUNT (i : Nat) : Fld := ⟨0x200108 + 0x10 * i, 0, 32⟩
/-- DMA_C_CFG, R383. -/
abbrev R_DMA_C_CFG (i : Nat) : Nat := 0x201000 + 0x80 * i
/-- DMA_C_CFG.CONTEXT. -/
abbrev F_DMA_C_CFG_CONTEXT (i : Nat) : Fld := ⟨0x201000 + 0x80 * i, 0, 12⟩
/-- DMA_C_CFG.OPEN. -/
abbrev F_DMA_C_CFG_OPEN (i : Nat) : Fld := ⟨0x201000 + 0x80 * i, 12, 1⟩
/-- DMA_C_CFG.PRIO. -/
abbrev F_DMA_C_CFG_PRIO (i : Nat) : Fld := ⟨0x201000 + 0x80 * i, 13, 2⟩
/-- DMA_C_CFG.RING_SPACE. -/
abbrev F_DMA_C_CFG_RING_SPACE (i : Nat) : Fld := ⟨0x201000 + 0x80 * i, 15, 1⟩
/-- DMA_C_RING_LO, R383. -/
abbrev R_DMA_C_RING_LO (i : Nat) : Nat := 0x201004 + 0x80 * i
/-- DMA_C_RING_LO.BASE. -/
abbrev F_DMA_C_RING_LO_BASE (i : Nat) : Fld := ⟨0x201004 + 0x80 * i, 0, 32⟩
/-- DMA_C_RING_HI, R383. -/
abbrev R_DMA_C_RING_HI (i : Nat) : Nat := 0x201008 + 0x80 * i
/-- DMA_C_RING_HI.BASE. -/
abbrev F_DMA_C_RING_HI_BASE (i : Nat) : Fld := ⟨0x201008 + 0x80 * i, 0, 32⟩
/-- DMA_C_RING_SIZE, R383. -/
abbrev R_DMA_C_RING_SIZE (i : Nat) : Nat := 0x20100C + 0x80 * i
/-- DMA_C_RING_SIZE.ENTRIES. -/
abbrev F_DMA_C_RING_SIZE_ENTRIES (i : Nat) : Fld := ⟨0x20100C + 0x80 * i, 0, 13⟩
/-- DMA_C_RING_SIZE.POLL. -/
abbrev F_DMA_C_RING_SIZE_POLL (i : Nat) : Fld := ⟨0x20100C + 0x80 * i, 16, 16⟩
/-- DMA_C_STATE, R383. -/
abbrev R_DMA_C_STATE (i : Nat) : Nat := 0x201010 + 0x80 * i
/-- DMA_C_STATE.STATE. -/
abbrev F_DMA_C_STATE_STATE (i : Nat) : Fld := ⟨0x201010 + 0x80 * i, 0, 3⟩
/-- DMA_C_STATE.CAUSE. -/
abbrev F_DMA_C_STATE_CAUSE (i : Nat) : Fld := ⟨0x201010 + 0x80 * i, 8, 4⟩
/-- DMA_C_STATE.WB_FAIL. -/
abbrev F_DMA_C_STATE_WB_FAIL (i : Nat) : Fld := ⟨0x201010 + 0x80 * i, 12, 1⟩
/-- DMA_C_STATE.INDEX. -/
abbrev F_DMA_C_STATE_INDEX (i : Nat) : Fld := ⟨0x201010 + 0x80 * i, 16, 12⟩
/-- DMA_C_CSUM, R383. -/
abbrev R_DMA_C_CSUM (i : Nat) : Nat := 0x201014 + 0x80 * i
/-- DMA_C_CSUM.VALUE. -/
abbrev F_DMA_C_CSUM_VALUE (i : Nat) : Fld := ⟨0x201014 + 0x80 * i, 0, 32⟩
/-- DMA_C_PACE, R383. -/
abbrev R_DMA_C_PACE (i : Nat) : Nat := 0x201018 + 0x80 * i
/-- DMA_C_PACE.CREDIT. -/
abbrev F_DMA_C_PACE_CREDIT (i : Nat) : Fld := ⟨0x201018 + 0x80 * i, 0, 16⟩
/-- DMA_C_LAST_CTRL, R383. -/
abbrev R_DMA_C_LAST_CTRL (i : Nat) : Nat := 0x20101C + 0x80 * i
/-- DMA_C_LAST_CTRL.VALUE. -/
abbrev F_DMA_C_LAST_CTRL_VALUE (i : Nat) : Fld := ⟨0x20101C + 0x80 * i, 0, 32⟩
/-- DMA_C_LAST_LEN_LO, R383. -/
abbrev R_DMA_C_LAST_LEN_LO (i : Nat) : Nat := 0x201020 + 0x80 * i
/-- DMA_C_LAST_LEN_LO.VALUE. -/
abbrev F_DMA_C_LAST_LEN_LO_VALUE (i : Nat) : Fld := ⟨0x201020 + 0x80 * i, 0, 32⟩
/-- DMA_C_LAST_LEN_HI, R383. -/
abbrev R_DMA_C_LAST_LEN_HI (i : Nat) : Nat := 0x201024 + 0x80 * i
/-- DMA_C_LAST_LEN_HI.VALUE. -/
abbrev F_DMA_C_LAST_LEN_HI_VALUE (i : Nat) : Fld := ⟨0x201024 + 0x80 * i, 0, 8⟩
/-- DMA_C_ERR_ADDR_LO, R383. -/
abbrev R_DMA_C_ERR_ADDR_LO (i : Nat) : Nat := 0x201028 + 0x80 * i
/-- DMA_C_ERR_ADDR_LO.VALUE. -/
abbrev F_DMA_C_ERR_ADDR_LO_VALUE (i : Nat) : Fld := ⟨0x201028 + 0x80 * i, 0, 32⟩
/-- DMA_C_ERR_ADDR_HI, R383. -/
abbrev R_DMA_C_ERR_ADDR_HI (i : Nat) : Nat := 0x20102C + 0x80 * i
/-- DMA_C_ERR_ADDR_HI.VALUE. -/
abbrev F_DMA_C_ERR_ADDR_HI_VALUE (i : Nat) : Fld := ⟨0x20102C + 0x80 * i, 0, 32⟩
/-- DMA_C_BYTES_LO, R383. -/
abbrev R_DMA_C_BYTES_LO (i : Nat) : Nat := 0x201030 + 0x80 * i
/-- DMA_C_BYTES_LO.BYTES. -/
abbrev F_DMA_C_BYTES_LO_BYTES (i : Nat) : Fld := ⟨0x201030 + 0x80 * i, 0, 32⟩
/-- DMA_C_BYTES_HI, R383. -/
abbrev R_DMA_C_BYTES_HI (i : Nat) : Nat := 0x201034 + 0x80 * i
/-- DMA_C_BYTES_HI.BYTES. -/
abbrev F_DMA_C_BYTES_HI_BYTES (i : Nat) : Fld := ⟨0x201034 + 0x80 * i, 0, 32⟩
/-- DMA_C_COUNTS, R383. -/
abbrev R_DMA_C_COUNTS (i : Nat) : Nat := 0x201038 + 0x80 * i
/-- DMA_C_COUNTS.RETRIES. -/
abbrev F_DMA_C_COUNTS_RETRIES (i : Nat) : Fld := ⟨0x201038 + 0x80 * i, 0, 16⟩
/-- DMA_C_COUNTS.LATE. -/
abbrev F_DMA_C_COUNTS_LATE (i : Nat) : Fld := ⟨0x201038 + 0x80 * i, 16, 16⟩
/-- DMA_C_EMIT, R383. -/
abbrev R_DMA_C_EMIT (i : Nat) : Nat := 0x20103C + 0x80 * i
/-- DMA_C_EMIT.PACKETS. -/
abbrev F_DMA_C_EMIT_PACKETS (i : Nat) : Fld := ⟨0x20103C + 0x80 * i, 0, 8⟩
/-- DMA_C_EMIT.LOST. -/
abbrev F_DMA_C_EMIT_LOST (i : Nat) : Fld := ⟨0x20103C + 0x80 * i, 16, 16⟩
/-- CMP_CTRL, R383. -/
abbrev R_CMP_CTRL : Nat := 0x240000
/-- CMP_CTRL.CLR_COUNTERS. -/
abbrev F_CMP_CTRL_CLR_COUNTERS : Fld := ⟨0x240000, 0, 1⟩
/-- CMP_STATUS, R383. -/
abbrev R_CMP_STATUS : Nat := 0x240004
/-- CMP_STATUS.AVAIL. -/
abbrev F_CMP_STATUS_AVAIL : Fld := ⟨0x240004, 0, 8⟩
/-- CMP_STATUS.BUSY. -/
abbrev F_CMP_STATUS_BUSY : Fld := ⟨0x240004, 8, 8⟩
/-- CMP_STATUS.WRITE_REFUSED. -/
abbrev F_CMP_STATUS_WRITE_REFUSED : Fld := ⟨0x240004, 24, 1⟩
/-- CMP_SUSPEND_MAX, R383. -/
abbrev R_CMP_SUSPEND_MAX : Nat := 0x240008
/-- CMP_SUSPEND_MAX.S. -/
abbrev F_CMP_SUSPEND_MAX_S : Fld := ⟨0x240008, 0, 16⟩
/-- CMP_SUSPENDED, R383. -/
abbrev R_CMP_SUSPENDED : Nat := 0x24000C
/-- CMP_SUSPENDED.JOBS. -/
abbrev F_CMP_SUSPENDED_JOBS : Fld := ⟨0x24000C, 0, 12⟩
/-- CMP_EXPIRED, R383. -/
abbrev R_CMP_EXPIRED : Nat := 0x240010
/-- CMP_EXPIRED.COUNT. -/
abbrev F_CMP_EXPIRED_COUNT : Fld := ⟨0x240010, 0, 32⟩
/-- CMP_SNAP_STATUS, R383. -/
abbrev R_CMP_SNAP_STATUS : Nat := 0x240020
/-- CMP_SNAP_STATUS.VALUE. -/
abbrev F_CMP_SNAP_STATUS_VALUE : Fld := ⟨0x240020, 0, 32⟩
/-- CMP_E_STATUS, R383. -/
abbrev R_CMP_E_STATUS (i : Nat) : Nat := 0x240100 + 0x20 * i
/-- CMP_E_STATUS.STATE. -/
abbrev F_CMP_E_STATUS_STATE (i : Nat) : Fld := ⟨0x240100 + 0x20 * i, 0, 2⟩
/-- CMP_E_STATUS.JOB_ID. -/
abbrev F_CMP_E_STATUS_JOB_ID (i : Nat) : Fld := ⟨0x240100 + 0x20 * i, 4, 12⟩
/-- CMP_E_STATUS.CONTEXT. -/
abbrev F_CMP_E_STATUS_CONTEXT (i : Nat) : Fld := ⟨0x240100 + 0x20 * i, 16, 12⟩
/-- CMP_E_IN_LO, R383. -/
abbrev R_CMP_E_IN_LO (i : Nat) : Nat := 0x240104 + 0x20 * i
/-- CMP_E_IN_LO.BYTES. -/
abbrev F_CMP_E_IN_LO_BYTES (i : Nat) : Fld := ⟨0x240104 + 0x20 * i, 0, 32⟩
/-- CMP_E_IN_HI, R383. -/
abbrev R_CMP_E_IN_HI (i : Nat) : Nat := 0x240108 + 0x20 * i
/-- CMP_E_IN_HI.BYTES. -/
abbrev F_CMP_E_IN_HI_BYTES (i : Nat) : Fld := ⟨0x240108 + 0x20 * i, 0, 32⟩
/-- CMP_E_OUT_LO, R383. -/
abbrev R_CMP_E_OUT_LO (i : Nat) : Nat := 0x24010C + 0x20 * i
/-- CMP_E_OUT_LO.BYTES. -/
abbrev F_CMP_E_OUT_LO_BYTES (i : Nat) : Fld := ⟨0x24010C + 0x20 * i, 0, 32⟩
/-- CMP_E_OUT_HI, R383. -/
abbrev R_CMP_E_OUT_HI (i : Nat) : Nat := 0x240110 + 0x20 * i
/-- CMP_E_OUT_HI.BYTES. -/
abbrev F_CMP_E_OUT_HI_BYTES (i : Nat) : Fld := ⟨0x240110 + 0x20 * i, 0, 32⟩
/-- CMP_E_ERRORS, R383. -/
abbrev R_CMP_E_ERRORS (i : Nat) : Nat := 0x240114 + 0x20 * i
/-- CMP_E_ERRORS.DATA. -/
abbrev F_CMP_E_ERRORS_DATA (i : Nat) : Fld := ⟨0x240114 + 0x20 * i, 0, 8⟩
/-- CMP_E_ERRORS.FAULT. -/
abbrev F_CMP_E_ERRORS_FAULT (i : Nat) : Fld := ⟨0x240114 + 0x20 * i, 8, 8⟩
/-- MEM_C_CTRL, R415. -/
abbrev R_MEM_C_CTRL (i : Nat) : Nat := 0x280000 + 0x8000 * i
/-- MEM_C_CTRL.CLR_COUNTERS. -/
abbrev F_MEM_C_CTRL_CLR_COUNTERS (i : Nat) : Fld := ⟨0x280000 + 0x8000 * i, 0, 1⟩
/-- MEM_C_CTRL.AUTO_RELEASE. -/
abbrev F_MEM_C_CTRL_AUTO_RELEASE (i : Nat) : Fld := ⟨0x280000 + 0x8000 * i, 16, 16⟩
/-- MEM_C_STATUS, R415. -/
abbrev R_MEM_C_STATUS (i : Nat) : Nat := 0x280004 + 0x8000 * i
/-- MEM_C_STATUS.STATE. -/
abbrev F_MEM_C_STATUS_STATE (i : Nat) : Fld := ⟨0x280004 + 0x8000 * i, 0, 3⟩
/-- MEM_C_STATUS.FAIL_STEP. -/
abbrev F_MEM_C_STATUS_FAIL_STEP (i : Nat) : Fld := ⟨0x280004 + 0x8000 * i, 3, 4⟩
/-- MEM_C_STATUS.FAIL_RANK. -/
abbrev F_MEM_C_STATUS_FAIL_RANK (i : Nat) : Fld := ⟨0x280004 + 0x8000 * i, 8, 3⟩
/-- MEM_C_STATUS.WRITE_REFUSED. -/
abbrev F_MEM_C_STATUS_WRITE_REFUSED (i : Nat) : Fld := ⟨0x280004 + 0x8000 * i, 24, 1⟩
/-- MEM_C_POP, R415. -/
abbrev R_MEM_C_POP (i : Nat) : Nat := 0x280008 + 0x8000 * i
/-- MEM_C_POP.DIMMS. -/
abbrev F_MEM_C_POP_DIMMS (i : Nat) : Fld := ⟨0x280008 + 0x8000 * i, 0, 2⟩
/-- MEM_C_POP.RANKS_PER_DIMM. -/
abbrev F_MEM_C_POP_RANKS_PER_DIMM (i : Nat) : Fld := ⟨0x280008 + 0x8000 * i, 4, 2⟩
/-- MEM_C_POP.X8. -/
abbrev F_MEM_C_POP_X8 (i : Nat) : Fld := ⟨0x280008 + 0x8000 * i, 6, 1⟩
/-- MEM_C_POP.DENSITY. -/
abbrev F_MEM_C_POP_DENSITY (i : Nat) : Fld := ⟨0x280008 + 0x8000 * i, 8, 2⟩
/-- MEM_C_REF, R415. -/
abbrev R_MEM_C_REF (i : Nat) : Nat := 0x28000C + 0x8000 * i
/-- MEM_C_REF.CEIL. -/
abbrev F_MEM_C_REF_CEIL (i : Nat) : Fld := ⟨0x28000C + 0x8000 * i, 0, 4⟩
/-- MEM_C_REF.RATE_X2. -/
abbrev F_MEM_C_REF_RATE_X2 (i : Nat) : Fld := ⟨0x28000C + 0x8000 * i, 8, 8⟩
/-- MEM_C_REF_OWED, R415. -/
abbrev R_MEM_C_REF_OWED (i : Nat) : Nat := 0x280010 + 0x8000 * i
/-- MEM_C_REF_OWED.OWED. -/
abbrev F_MEM_C_REF_OWED_OWED (i : Nat) : Fld := ⟨0x280010 + 0x8000 * i, 0, 32⟩
/-- MEM_C_WQ, R415. -/
abbrev R_MEM_C_WQ (i : Nat) : Nat := 0x280014 + 0x8000 * i
/-- MEM_C_WQ.WM_HIGH. -/
abbrev F_MEM_C_WQ_WM_HIGH (i : Nat) : Fld := ⟨0x280014 + 0x8000 * i, 0, 6⟩
/-- MEM_C_WQ.WM_LOW. -/
abbrev F_MEM_C_WQ_WM_LOW (i : Nat) : Fld := ⟨0x280014 + 0x8000 * i, 8, 6⟩
/-- MEM_C_WQ.WR_BATCH_MIN. -/
abbrev F_MEM_C_WQ_WR_BATCH_MIN (i : Nat) : Fld := ⟨0x280014 + 0x8000 * i, 16, 6⟩
/-- MEM_C_WQ.WR_AGE_MAX. -/
abbrev F_MEM_C_WQ_WR_AGE_MAX (i : Nat) : Fld := ⟨0x280014 + 0x8000 * i, 24, 8⟩
/-- MEM_C_COUNTS, R415. -/
abbrev R_MEM_C_COUNTS (i : Nat) : Nat := 0x280018 + 0x8000 * i
/-- MEM_C_COUNTS.REF_BURST. -/
abbrev F_MEM_C_COUNTS_REF_BURST (i : Nat) : Fld := ⟨0x280018 + 0x8000 * i, 0, 16⟩
/-- MEM_C_COUNTS.FREEZES. -/
abbrev F_MEM_C_COUNTS_FREEZES (i : Nat) : Fld := ⟨0x280018 + 0x8000 * i, 16, 16⟩
/-- MEM_C_FWD, R415. -/
abbrev R_MEM_C_FWD (i : Nat) : Nat := 0x28001C + 0x8000 * i
/-- MEM_C_FWD.COUNT. -/
abbrev F_MEM_C_FWD_COUNT (i : Nat) : Fld := ⟨0x28001C + 0x8000 * i, 0, 32⟩
/-- MEM_C_CE_TOTAL, R415. -/
abbrev R_MEM_C_CE_TOTAL (i : Nat) : Nat := 0x280020 + 0x8000 * i
/-- MEM_C_CE_TOTAL.COUNT. -/
abbrev F_MEM_C_CE_TOTAL_COUNT (i : Nat) : Fld := ⟨0x280020 + 0x8000 * i, 0, 32⟩
/-- MEM_C_UE_TOTAL, R415. -/
abbrev R_MEM_C_UE_TOTAL (i : Nat) : Nat := 0x280024 + 0x8000 * i
/-- MEM_C_UE_TOTAL.COUNT. -/
abbrev F_MEM_C_UE_TOTAL_COUNT (i : Nat) : Fld := ⟨0x280024 + 0x8000 * i, 0, 32⟩
/-- MEM_C_POISON_READS, R415. -/
abbrev R_MEM_C_POISON_READS (i : Nat) : Nat := 0x280028 + 0x8000 * i
/-- MEM_C_POISON_READS.COUNT. -/
abbrev F_MEM_C_POISON_READS_COUNT (i : Nat) : Fld := ⟨0x280028 + 0x8000 * i, 0, 32⟩
/-- MEM_C_R_ERR, R415. -/
abbrev R_MEM_C_R_ERR (i j : Nat) : Nat := 0x280040 + 0x8000 * i + 0x4 * j
/-- MEM_C_R_ERR.CE. -/
abbrev F_MEM_C_R_ERR_CE (i j : Nat) : Fld := ⟨0x280040 + 0x8000 * i + 0x4 * j, 0, 16⟩
/-- MEM_C_R_ERR.UE. -/
abbrev F_MEM_C_R_ERR_UE (i j : Nat) : Fld := ⟨0x280040 + 0x8000 * i + 0x4 * j, 16, 8⟩
/-- MEM_C_R_ERR.STATE. -/
abbrev F_MEM_C_R_ERR_STATE (i j : Nat) : Fld := ⟨0x280040 + 0x8000 * i + 0x4 * j, 24, 3⟩
/-- MEM_C_RANK_UE_LIMIT, R415. -/
abbrev R_MEM_C_RANK_UE_LIMIT (i : Nat) : Nat := 0x280060 + 0x8000 * i
/-- MEM_C_RANK_UE_LIMIT.LIMIT. -/
abbrev F_MEM_C_RANK_UE_LIMIT_LIMIT (i : Nat) : Fld := ⟨0x280060 + 0x8000 * i, 0, 8⟩
/-- MEM_C_SPARE, R415. -/
abbrev R_MEM_C_SPARE (i : Nat) : Nat := 0x280064 + 0x8000 * i
/-- MEM_C_SPARE.RANK. -/
abbrev F_MEM_C_SPARE_RANK (i : Nat) : Fld := ⟨0x280064 + 0x8000 * i, 0, 3⟩
/-- MEM_C_SPARE.EN. -/
abbrev F_MEM_C_SPARE_EN (i : Nat) : Fld := ⟨0x280064 + 0x8000 * i, 8, 1⟩
/-- MEM_C_MIG, R415. -/
abbrev R_MEM_C_MIG (i : Nat) : Nat := 0x280068 + 0x8000 * i
/-- MEM_C_MIG.FROM. -/
abbrev F_MEM_C_MIG_FROM (i : Nat) : Fld := ⟨0x280068 + 0x8000 * i, 0, 3⟩
/-- MEM_C_MIG.TO. -/
abbrev F_MEM_C_MIG_TO (i : Nat) : Fld := ⟨0x280068 + 0x8000 * i, 4, 3⟩
/-- MEM_C_MIG.ROW. -/
abbrev F_MEM_C_MIG_ROW (i : Nat) : Fld := ⟨0x280068 + 0x8000 * i, 8, 24⟩
/-- MEM_C_MIG_RATE, R415. -/
abbrev R_MEM_C_MIG_RATE (i : Nat) : Nat := 0x28006C + 0x8000 * i
/-- MEM_C_MIG_RATE.GBPS. -/
abbrev F_MEM_C_MIG_RATE_GBPS (i : Nat) : Fld := ⟨0x28006C + 0x8000 * i, 0, 8⟩
/-- MEM_C_CAPT_W, R415. -/
abbrev R_MEM_C_CAPT_W (i j : Nat) : Nat := 0x280080 + 0x8000 * i + 0x4 * j
/-- MEM_C_CAPT_W.CMD. -/
abbrev F_MEM_C_CAPT_W_CMD (i j : Nat) : Fld := ⟨0x280080 + 0x8000 * i + 0x4 * j, 0, 32⟩
/-- MEM_C_CAPT_INFO, R415. -/
abbrev R_MEM_C_CAPT_INFO (i : Nat) : Nat := 0x2800C0 + 0x8000 * i
/-- MEM_C_CAPT_INFO.INDEX. -/
abbrev F_MEM_C_CAPT_INFO_INDEX (i : Nat) : Fld := ⟨0x2800C0 + 0x8000 * i, 0, 3⟩
/-- MEM_C_CAPT_INFO.RANK. -/
abbrev F_MEM_C_CAPT_INFO_RANK (i : Nat) : Fld := ⟨0x2800C0 + 0x8000 * i, 8, 3⟩
/-- MEM_C_LAST_UE_LO, R415. -/
abbrev R_MEM_C_LAST_UE_LO (i : Nat) : Nat := 0x2800D0 + 0x8000 * i
/-- MEM_C_LAST_UE_LO.ADDR. -/
abbrev F_MEM_C_LAST_UE_LO_ADDR (i : Nat) : Fld := ⟨0x2800D0 + 0x8000 * i, 0, 32⟩
/-- MEM_C_LAST_UE_HI, R415. -/
abbrev R_MEM_C_LAST_UE_HI (i : Nat) : Nat := 0x2800D4 + 0x8000 * i
/-- MEM_C_LAST_UE_HI.ADDR. -/
abbrev F_MEM_C_LAST_UE_HI_ADDR (i : Nat) : Fld := ⟨0x2800D4 + 0x8000 * i, 0, 16⟩
/-- MEM_C_D_TEMP, R415. -/
abbrev R_MEM_C_D_TEMP (i j : Nat) : Nat := 0x280100 + 0x8000 * i + 0x4 * j
/-- MEM_C_D_TEMP.TEMP. -/
abbrev F_MEM_C_D_TEMP_TEMP (i j : Nat) : Fld := ⟨0x280100 + 0x8000 * i + 0x4 * j, 0, 16⟩
/-- MEM_C_TRN_CTRL, R415. -/
abbrev R_MEM_C_TRN_CTRL (i : Nat) : Nat := 0x280200 + 0x8000 * i
/-- MEM_C_TRN_CTRL.GO. -/
abbrev F_MEM_C_TRN_CTRL_GO (i : Nat) : Fld := ⟨0x280200 + 0x8000 * i, 0, 1⟩
/-- MEM_C_TRN_CTRL.PATTERN. -/
abbrev F_MEM_C_TRN_CTRL_PATTERN (i : Nat) : Fld := ⟨0x280200 + 0x8000 * i, 1, 3⟩
/-- MEM_C_TRN_CTRL.RANK. -/
abbrev F_MEM_C_TRN_CTRL_RANK (i : Nat) : Fld := ⟨0x280200 + 0x8000 * i, 4, 3⟩
/-- MEM_C_TRN_CTRL.SC. -/
abbrev F_MEM_C_TRN_CTRL_SC (i : Nat) : Fld := ⟨0x280200 + 0x8000 * i, 7, 1⟩
/-- MEM_C_TRN_CTRL.READ_ONLY. -/
abbrev F_MEM_C_TRN_CTRL_READ_ONLY (i : Nat) : Fld := ⟨0x280200 + 0x8000 * i, 8, 1⟩
/-- MEM_C_TRN_CTRL.REPEAT. -/
abbrev F_MEM_C_TRN_CTRL_REPEAT (i : Nat) : Fld := ⟨0x280200 + 0x8000 * i, 16, 16⟩
/-- MEM_C_TRN_STATUS, R415. -/
abbrev R_MEM_C_TRN_STATUS (i : Nat) : Nat := 0x280204 + 0x8000 * i
/-- MEM_C_TRN_STATUS.BUSY. -/
abbrev F_MEM_C_TRN_STATUS_BUSY (i : Nat) : Fld := ⟨0x280204 + 0x8000 * i, 0, 1⟩
/-- MEM_C_TRN_STATUS.DONE. -/
abbrev F_MEM_C_TRN_STATUS_DONE (i : Nat) : Fld := ⟨0x280204 + 0x8000 * i, 1, 1⟩
/-- MEM_C_TRN_ERRLANES, R415. -/
abbrev R_MEM_C_TRN_ERRLANES (i j : Nat) : Nat := 0x280208 + 0x8000 * i + 0x4 * j
/-- MEM_C_TRN_ERRLANES.LANES. -/
abbrev F_MEM_C_TRN_ERRLANES_LANES (i j : Nat) : Fld := ⟨0x280208 + 0x8000 * i + 0x4 * j, 0, 32⟩
/-- MEM_C_TRN_PAT_W, R415. -/
abbrev R_MEM_C_TRN_PAT_W (i j : Nat) : Nat := 0x280220 + 0x8000 * i + 0x4 * j
/-- MEM_C_TRN_PAT_W.WORD. -/
abbrev F_MEM_C_TRN_PAT_W_WORD (i j : Nat) : Fld := ⟨0x280220 + 0x8000 * i + 0x4 * j, 0, 32⟩
/-- MEM_C_DLY, R415. -/
abbrev R_MEM_C_DLY (i j : Nat) : Nat := 0x280400 + 0x8000 * i + 0x4 * j
/-- MEM_C_DLY.TX. -/
abbrev F_MEM_C_DLY_TX (i j : Nat) : Fld := ⟨0x280400 + 0x8000 * i + 0x4 * j, 0, 10⟩
/-- MEM_C_DLY.RX. -/
abbrev F_MEM_C_DLY_RX (i j : Nat) : Fld := ⟨0x280400 + 0x8000 * i + 0x4 * j, 12, 10⟩
/-- MEM_C_DLY.VREF. -/
abbrev F_MEM_C_DLY_VREF (i j : Nat) : Fld := ⟨0x280400 + 0x8000 * i + 0x4 * j, 24, 7⟩
/-- MEM_C_SNAP_STATUS, R415. -/
abbrev R_MEM_C_SNAP_STATUS (i : Nat) : Nat := 0x280600 + 0x8000 * i
/-- MEM_C_SNAP_STATUS.VALUE. -/
abbrev F_MEM_C_SNAP_STATUS_VALUE (i : Nat) : Fld := ⟨0x280600 + 0x8000 * i, 0, 32⟩
/-- MEM_C_SNAP_OWED, R415. -/
abbrev R_MEM_C_SNAP_OWED (i : Nat) : Nat := 0x280604 + 0x8000 * i
/-- MEM_C_SNAP_OWED.VALUE. -/
abbrev F_MEM_C_SNAP_OWED_VALUE (i : Nat) : Fld := ⟨0x280604 + 0x8000 * i, 0, 32⟩
/-- MEM_CFG, R415. -/
abbrev R_MEM_CFG : Nat := 0x284000
/-- MEM_CFG.ORDER. -/
abbrev F_MEM_CFG_ORDER : Fld := ⟨0x284000, 0, 1⟩
/-- MEM_CFG.HASH. -/
abbrev F_MEM_CFG_HASH : Fld := ⟨0x284000, 1, 1⟩
/-- MEM_CFG.INIT_RATE. -/
abbrev F_MEM_CFG_INIT_RATE : Fld := ⟨0x284000, 8, 8⟩
/-- MEM_CFG.SCRUB_H. -/
abbrev F_MEM_CFG_SCRUB_H : Fld := ⟨0x284000, 16, 12⟩
/-- MEM_GSTATUS, R415. -/
abbrev R_MEM_GSTATUS : Nat := 0x284004
/-- MEM_GSTATUS.DATA_RATE. -/
abbrev F_MEM_GSTATUS_DATA_RATE : Fld := ⟨0x284004, 0, 16⟩
/-- MEM_GSTATUS.INIT_DONE. -/
abbrev F_MEM_GSTATUS_INIT_DONE : Fld := ⟨0x284004, 16, 1⟩
/-- MEM_GSTATUS.DPC2. -/
abbrev F_MEM_GSTATUS_DPC2 : Fld := ⟨0x284004, 17, 1⟩
/-- MEM_CAPACITY_LO, R415. -/
abbrev R_MEM_CAPACITY_LO : Nat := 0x284008
/-- MEM_CAPACITY_LO.BYTES. -/
abbrev F_MEM_CAPACITY_LO_BYTES : Fld := ⟨0x284008, 0, 32⟩
/-- MEM_CAPACITY_HI, R415. -/
abbrev R_MEM_CAPACITY_HI : Nat := 0x28400C
/-- MEM_CAPACITY_HI.BYTES. -/
abbrev F_MEM_CAPACITY_HI_BYTES : Fld := ⟨0x28400C, 0, 10⟩
/-- MEM_INIT_PTR_LO, R415. -/
abbrev R_MEM_INIT_PTR_LO : Nat := 0x284010
/-- MEM_INIT_PTR_LO.BYTES. -/
abbrev F_MEM_INIT_PTR_LO_BYTES : Fld := ⟨0x284010, 0, 32⟩
/-- MEM_INIT_PTR_HI, R415. -/
abbrev R_MEM_INIT_PTR_HI : Nat := 0x284014
/-- MEM_INIT_PTR_HI.BYTES. -/
abbrev F_MEM_INIT_PTR_HI_BYTES : Fld := ⟨0x284014, 0, 10⟩
/-- MEM_PORT_QOS, R415. -/
abbrev R_MEM_PORT_QOS (i : Nat) : Nat := 0x284020 + 0x4 * i
/-- MEM_PORT_QOS.LAT_TARGET. -/
abbrev F_MEM_PORT_QOS_LAT_TARGET (i : Nat) : Fld := ⟨0x284020 + 0x4 * i, 0, 16⟩
/-- MEM_PORT_QOS.URG. -/
abbrev F_MEM_PORT_QOS_URG (i : Nat) : Fld := ⟨0x284020 + 0x4 * i, 16, 2⟩
/-- MEM_PORT_LATMAX, R415. -/
abbrev R_MEM_PORT_LATMAX (i : Nat) : Nat := 0x284040 + 0x4 * i
/-- MEM_PORT_LATMAX.NS. -/
abbrev F_MEM_PORT_LATMAX_NS (i : Nat) : Fld := ⟨0x284040 + 0x4 * i, 0, 32⟩
/-- DIS_CTRL, R467. -/
abbrev R_DIS_CTRL : Nat := 0x2C0000
/-- DIS_CTRL.EN. -/
abbrev F_DIS_CTRL_EN : Fld := ⟨0x2C0000, 0, 1⟩
/-- DIS_CTRL.CLR_COUNTERS. -/
abbrev F_DIS_CTRL_CLR_COUNTERS : Fld := ⟨0x2C0000, 1, 1⟩
/-- DIS_CTRL.CRC_EN. -/
abbrev F_DIS_CTRL_CRC_EN : Fld := ⟨0x2C0000, 2, 1⟩
/-- DIS_STATUS, R467. -/
abbrev R_DIS_STATUS : Nat := 0x2C0004
/-- DIS_STATUS.STATE. -/
abbrev F_DIS_STATUS_STATE : Fld := ⟨0x2C0004, 0, 3⟩
/-- DIS_STATUS.HPD. -/
abbrev F_DIS_STATUS_HPD : Fld := ⟨0x2C0004, 3, 1⟩
/-- DIS_STATUS.MODE_PENDING. -/
abbrev F_DIS_STATUS_MODE_PENDING : Fld := ⟨0x2C0004, 4, 1⟩
/-- DIS_STATUS.OVER_BUDGET. -/
abbrev F_DIS_STATUS_OVER_BUDGET : Fld := ⟨0x2C0004, 5, 1⟩
/-- DIS_STATUS.WRITE_REFUSED. -/
abbrev F_DIS_STATUS_WRITE_REFUSED : Fld := ⟨0x2C0004, 24, 1⟩
/-- DIS_LINK, R467. -/
abbrev R_DIS_LINK : Nat := 0x2C0008
/-- DIS_LINK.RATE. -/
abbrev F_DIS_LINK_RATE : Fld := ⟨0x2C0008, 0, 2⟩
/-- DIS_LINK.LANES. -/
abbrev F_DIS_LINK_LANES : Fld := ⟨0x2C0008, 2, 2⟩
/-- DIS_LINK.BPC. -/
abbrev F_DIS_LINK_BPC : Fld := ⟨0x2C0008, 4, 2⟩
/-- DIS_LINK.HPOL. -/
abbrev F_DIS_LINK_HPOL : Fld := ⟨0x2C0008, 6, 1⟩
/-- DIS_LINK.VPOL. -/
abbrev F_DIS_LINK_VPOL : Fld := ⟨0x2C0008, 7, 1⟩
/-- DIS_PCLK, R467. -/
abbrev R_DIS_PCLK : Nat := 0x2C000C
/-- DIS_PCLK.KHZ. -/
abbrev F_DIS_PCLK_KHZ : Fld := ⟨0x2C000C, 0, 20⟩
/-- DIS_HACT, R467. -/
abbrev R_DIS_HACT : Nat := 0x2C0010
/-- DIS_HACT.HACTIVE. -/
abbrev F_DIS_HACT_HACTIVE : Fld := ⟨0x2C0010, 0, 12⟩
/-- DIS_HACT.HFP. -/
abbrev F_DIS_HACT_HFP : Fld := ⟨0x2C0010, 16, 12⟩
/-- DIS_HSYNC, R467. -/
abbrev R_DIS_HSYNC : Nat := 0x2C0014
/-- DIS_HSYNC.HSW. -/
abbrev F_DIS_HSYNC_HSW : Fld := ⟨0x2C0014, 0, 12⟩
/-- DIS_HSYNC.HBP. -/
abbrev F_DIS_HSYNC_HBP : Fld := ⟨0x2C0014, 16, 12⟩
/-- DIS_VACT, R467. -/
abbrev R_DIS_VACT : Nat := 0x2C0018
/-- DIS_VACT.VACTIVE. -/
abbrev F_DIS_VACT_VACTIVE : Fld := ⟨0x2C0018, 0, 12⟩
/-- DIS_VACT.VFP. -/
abbrev F_DIS_VACT_VFP : Fld := ⟨0x2C0018, 16, 12⟩
/-- DIS_VSYNC, R467. -/
abbrev R_DIS_VSYNC : Nat := 0x2C001C
/-- DIS_VSYNC.VSW. -/
abbrev F_DIS_VSYNC_VSW : Fld := ⟨0x2C001C, 0, 12⟩
/-- DIS_VSYNC.VBP. -/
abbrev F_DIS_VSYNC_VBP : Fld := ⟨0x2C001C, 16, 12⟩
/-- DIS_BG, R467. -/
abbrev R_DIS_BG : Nat := 0x2C0020
/-- DIS_BG.RGB. -/
abbrev F_DIS_BG_RGB : Fld := ⟨0x2C0020, 0, 30⟩
/-- DIS_MODE_COMMIT, R467. -/
abbrev R_DIS_MODE_COMMIT : Nat := 0x2C0030
/-- DIS_MODE_COMMIT.GO. -/
abbrev F_DIS_MODE_COMMIT_GO : Fld := ⟨0x2C0030, 0, 1⟩
/-- DIS_COMMIT, R467. -/
abbrev R_DIS_COMMIT : Nat := 0x2C0034
/-- DIS_COMMIT.GO. -/
abbrev F_DIS_COMMIT_GO : Fld := ⟨0x2C0034, 0, 3⟩
/-- DIS_FRAME_NO_LO, R467. -/
abbrev R_DIS_FRAME_NO_LO : Nat := 0x2C0038
/-- DIS_FRAME_NO_LO.VALUE. -/
abbrev F_DIS_FRAME_NO_LO_VALUE : Fld := ⟨0x2C0038, 0, 32⟩
/-- DIS_FRAME_NO_HI, R467. -/
abbrev R_DIS_FRAME_NO_HI : Nat := 0x2C003C
/-- DIS_FRAME_NO_HI.VALUE. -/
abbrev F_DIS_FRAME_NO_HI_VALUE : Fld := ⟨0x2C003C, 0, 32⟩
/-- DIS_FRAME_W, R467. -/
abbrev R_DIS_FRAME_W (i : Nat) : Nat := 0x2C0040 + 0x4 * i
/-- DIS_FRAME_W.TS. -/
abbrev F_DIS_FRAME_W_TS (i : Nat) : Fld := ⟨0x2C0040 + 0x4 * i, 0, 32⟩
/-- DIS_DROPPED_FLIPS, R467. -/
abbrev R_DIS_DROPPED_FLIPS : Nat := 0x2C004C
/-- DIS_DROPPED_FLIPS.COUNT. -/
abbrev F_DIS_DROPPED_FLIPS_COUNT : Fld := ⟨0x2C004C, 0, 32⟩
/-- DIS_UNDERRUN, R467. -/
abbrev R_DIS_UNDERRUN : Nat := 0x2C0050
/-- DIS_UNDERRUN.COUNT. -/
abbrev F_DIS_UNDERRUN_COUNT : Fld := ⟨0x2C0050, 0, 32⟩
/-- DIS_TOL, R467. -/
abbrev R_DIS_TOL : Nat := 0x2C0054
/-- DIS_TOL.NS. -/
abbrev F_DIS_TOL_NS : Fld := ⟨0x2C0054, 0, 32⟩
/-- DIS_RESERVE, R467. -/
abbrev R_DIS_RESERVE : Nat := 0x2C0058
/-- DIS_RESERVE.MBPS. -/
abbrev F_DIS_RESERVE_MBPS : Fld := ⟨0x2C0058, 0, 32⟩
/-- DIS_CRC_WIN0, R467. -/
abbrev R_DIS_CRC_WIN0 : Nat := 0x2C0060
/-- DIS_CRC_WIN0.X. -/
abbrev F_DIS_CRC_WIN0_X : Fld := ⟨0x2C0060, 0, 12⟩
/-- DIS_CRC_WIN0.Y. -/
abbrev F_DIS_CRC_WIN0_Y : Fld := ⟨0x2C0060, 16, 12⟩
/-- DIS_CRC_WIN1, R467. -/
abbrev R_DIS_CRC_WIN1 : Nat := 0x2C0064
/-- DIS_CRC_WIN1.X. -/
abbrev F_DIS_CRC_WIN1_X : Fld := ⟨0x2C0064, 0, 12⟩
/-- DIS_CRC_WIN1.Y. -/
abbrev F_DIS_CRC_WIN1_Y : Fld := ⟨0x2C0064, 16, 12⟩
/-- DIS_CRC_VALUE, R467. -/
abbrev R_DIS_CRC_VALUE : Nat := 0x2C0068
/-- DIS_CRC_VALUE.CRC. -/
abbrev F_DIS_CRC_VALUE_CRC : Fld := ⟨0x2C0068, 0, 32⟩
/-- DIS_CRC_FRAME_LO, R467. -/
abbrev R_DIS_CRC_FRAME_LO : Nat := 0x2C006C
/-- DIS_CRC_FRAME_LO.VALUE. -/
abbrev F_DIS_CRC_FRAME_LO_VALUE : Fld := ⟨0x2C006C, 0, 32⟩
/-- DIS_CRC_FRAME_HI, R467. -/
abbrev R_DIS_CRC_FRAME_HI : Nat := 0x2C0070
/-- DIS_CRC_FRAME_HI.VALUE. -/
abbrev F_DIS_CRC_FRAME_HI_VALUE : Fld := ⟨0x2C0070, 0, 32⟩
/-- DIS_CRC_FLAGS, R467. -/
abbrev R_DIS_CRC_FLAGS : Nat := 0x2C0074
/-- DIS_CRC_FLAGS.CRC_UNDERRUN. -/
abbrev F_DIS_CRC_FLAGS_CRC_UNDERRUN : Fld := ⟨0x2C0074, 0, 1⟩
/-- DIS_LUT_CTRL, R467. -/
abbrev R_DIS_LUT_CTRL : Nat := 0x2C0080
/-- DIS_LUT_CTRL.SEL. -/
abbrev F_DIS_LUT_CTRL_SEL : Fld := ⟨0x2C0080, 0, 2⟩
/-- DIS_AUX_CTRL, R467. -/
abbrev R_DIS_AUX_CTRL : Nat := 0x2C0090
/-- DIS_AUX_CTRL.ADDR. -/
abbrev F_DIS_AUX_CTRL_ADDR : Fld := ⟨0x2C0090, 0, 20⟩
/-- DIS_AUX_CTRL.LEN_M1. -/
abbrev F_DIS_AUX_CTRL_LEN_M1 : Fld := ⟨0x2C0090, 20, 4⟩
/-- DIS_AUX_CTRL.CMD. -/
abbrev F_DIS_AUX_CTRL_CMD : Fld := ⟨0x2C0090, 24, 4⟩
/-- DIS_AUX_CTRL.BUSY. -/
abbrev F_DIS_AUX_CTRL_BUSY : Fld := ⟨0x2C0090, 30, 1⟩
/-- DIS_AUX_CTRL.GO. -/
abbrev F_DIS_AUX_CTRL_GO : Fld := ⟨0x2C0090, 31, 1⟩
/-- DIS_AUX_STATUS, R467. -/
abbrev R_DIS_AUX_STATUS : Nat := 0x2C0094
/-- DIS_AUX_STATUS.REPLY. -/
abbrev F_DIS_AUX_STATUS_REPLY : Fld := ⟨0x2C0094, 0, 2⟩
/-- DIS_AUX_DATA, R467. -/
abbrev R_DIS_AUX_DATA (i : Nat) : Nat := 0x2C0098 + 0x4 * i
/-- DIS_AUX_DATA.DATA. -/
abbrev F_DIS_AUX_DATA_DATA (i : Nat) : Fld := ⟨0x2C0098 + 0x4 * i, 0, 32⟩
/-- DIS_PANEL, R467. -/
abbrev R_DIS_PANEL : Nat := 0x2C00B0
/-- DIS_PANEL.VDD_EN. -/
abbrev F_DIS_PANEL_VDD_EN : Fld := ⟨0x2C00B0, 0, 1⟩
/-- DIS_PANEL.BL_EN. -/
abbrev F_DIS_PANEL_BL_EN : Fld := ⟨0x2C00B0, 1, 1⟩
/-- DIS_PANEL.BL_DUTY. -/
abbrev F_DIS_PANEL_BL_DUTY : Fld := ⟨0x2C00B0, 8, 8⟩
/-- DIS_BL_PWM, R467. -/
abbrev R_DIS_BL_PWM : Nat := 0x2C00B4
/-- DIS_BL_PWM.PERIOD. -/
abbrev F_DIS_BL_PWM_PERIOD : Fld := ⟨0x2C00B4, 0, 16⟩
/-- DIS_SNAP_STATUS, R467. -/
abbrev R_DIS_SNAP_STATUS : Nat := 0x2C00C0
/-- DIS_SNAP_STATUS.VALUE. -/
abbrev F_DIS_SNAP_STATUS_VALUE : Fld := ⟨0x2C00C0, 0, 32⟩
/-- DIS_SNAP_FRAME, R467. -/
abbrev R_DIS_SNAP_FRAME : Nat := 0x2C00C4
/-- DIS_SNAP_FRAME.VALUE. -/
abbrev F_DIS_SNAP_FRAME_VALUE : Fld := ⟨0x2C00C4, 0, 32⟩
/-- DIS_L_CFG, R467. -/
abbrev R_DIS_L_CFG (i : Nat) : Nat := 0x2C0100 + 0x40 * i
/-- DIS_L_CFG.EN. -/
abbrev F_DIS_L_CFG_EN (i : Nat) : Fld := ⟨0x2C0100 + 0x40 * i, 0, 1⟩
/-- DIS_L_CFG.FMT. -/
abbrev F_DIS_L_CFG_FMT (i : Nat) : Fld := ⟨0x2C0100 + 0x40 * i, 1, 3⟩
/-- DIS_L_CFG.OPAQUE. -/
abbrev F_DIS_L_CFG_OPAQUE (i : Nat) : Fld := ⟨0x2C0100 + 0x40 * i, 4, 1⟩
/-- DIS_L_CFG.ALPHA. -/
abbrev F_DIS_L_CFG_ALPHA (i : Nat) : Fld := ⟨0x2C0100 + 0x40 * i, 8, 8⟩
/-- DIS_L_CFG.MAP. -/
abbrev F_DIS_L_CFG_MAP (i : Nat) : Fld := ⟨0x2C0100 + 0x40 * i, 16, 4⟩
/-- DIS_L_CFG.HSCALE_M1. -/
abbrev F_DIS_L_CFG_HSCALE_M1 (i : Nat) : Fld := ⟨0x2C0100 + 0x40 * i, 20, 3⟩
/-- DIS_L_CFG.VSCALE_M1. -/
abbrev F_DIS_L_CFG_VSCALE_M1 (i : Nat) : Fld := ⟨0x2C0100 + 0x40 * i, 24, 3⟩
/-- DIS_L_BASE_LO, R467. -/
abbrev R_DIS_L_BASE_LO (i : Nat) : Nat := 0x2C0104 + 0x40 * i
/-- DIS_L_BASE_LO.BASE. -/
abbrev F_DIS_L_BASE_LO_BASE (i : Nat) : Fld := ⟨0x2C0104 + 0x40 * i, 0, 32⟩
/-- DIS_L_BASE_HI, R467. -/
abbrev R_DIS_L_BASE_HI (i : Nat) : Nat := 0x2C0108 + 0x40 * i
/-- DIS_L_BASE_HI.BASE. -/
abbrev F_DIS_L_BASE_HI_BASE (i : Nat) : Fld := ⟨0x2C0108 + 0x40 * i, 0, 16⟩
/-- DIS_L_STRIDE, R467. -/
abbrev R_DIS_L_STRIDE (i : Nat) : Nat := 0x2C010C + 0x40 * i
/-- DIS_L_STRIDE.BYTES. -/
abbrev F_DIS_L_STRIDE_BYTES (i : Nat) : Fld := ⟨0x2C010C + 0x40 * i, 0, 20⟩
/-- DIS_L_SIZE, R467. -/
abbrev R_DIS_L_SIZE (i : Nat) : Nat := 0x2C0110 + 0x40 * i
/-- DIS_L_SIZE.W. -/
abbrev F_DIS_L_SIZE_W (i : Nat) : Fld := ⟨0x2C0110 + 0x40 * i, 0, 14⟩
/-- DIS_L_SIZE.H. -/
abbrev F_DIS_L_SIZE_H (i : Nat) : Fld := ⟨0x2C0110 + 0x40 * i, 16, 13⟩
/-- DIS_L_POS, R467. -/
abbrev R_DIS_L_POS (i : Nat) : Nat := 0x2C0114 + 0x40 * i
/-- DIS_L_POS.X. -/
abbrev F_DIS_L_POS_X (i : Nat) : Fld := ⟨0x2C0114 + 0x40 * i, 0, 12⟩
/-- DIS_L_POS.Y. -/
abbrev F_DIS_L_POS_Y (i : Nat) : Fld := ⟨0x2C0114 + 0x40 * i, 16, 12⟩
/-- DIS_L_COLOR, R467. -/
abbrev R_DIS_L_COLOR (i : Nat) : Nat := 0x2C0118 + 0x40 * i
/-- DIS_L_COLOR.ARGB. -/
abbrev F_DIS_L_COLOR_ARGB (i : Nat) : Fld := ⟨0x2C0118 + 0x40 * i, 0, 32⟩
/-- DIS_L_LUT, R467. -/
abbrev R_DIS_L_LUT (i : Nat) : Nat := 0x2C011C + 0x40 * i
/-- DIS_L_LUT.LOG. -/
abbrev F_DIS_L_LUT_LOG (i : Nat) : Fld := ⟨0x2C011C + 0x40 * i, 0, 1⟩
/-- DIS_L_LUT.SHIFT. -/
abbrev F_DIS_L_LUT_SHIFT (i : Nat) : Fld := ⟨0x2C011C + 0x40 * i, 1, 5⟩
/-- DIS_L_LUT.SWAP. -/
abbrev F_DIS_L_LUT_SWAP (i : Nat) : Fld := ⟨0x2C011C + 0x40 * i, 8, 1⟩
/-- DIS_L_LUT.BANK. -/
abbrev F_DIS_L_LUT_BANK (i : Nat) : Fld := ⟨0x2C011C + 0x40 * i, 9, 1⟩
/-- DIS_L_BASE_EFF_LO, R467. -/
abbrev R_DIS_L_BASE_EFF_LO (i : Nat) : Nat := 0x2C0120 + 0x40 * i
/-- DIS_L_BASE_EFF_LO.BASE. -/
abbrev F_DIS_L_BASE_EFF_LO_BASE (i : Nat) : Fld := ⟨0x2C0120 + 0x40 * i, 0, 32⟩
/-- DIS_L_BASE_EFF_HI, R467. -/
abbrev R_DIS_L_BASE_EFF_HI (i : Nat) : Nat := 0x2C0124 + 0x40 * i
/-- DIS_L_BASE_EFF_HI.BASE. -/
abbrev F_DIS_L_BASE_EFF_HI_BASE (i : Nat) : Fld := ⟨0x2C0124 + 0x40 * i, 0, 16⟩
/-- DIS_L_FLIP_FRAME_LO, R467. -/
abbrev R_DIS_L_FLIP_FRAME_LO (i : Nat) : Nat := 0x2C0128 + 0x40 * i
/-- DIS_L_FLIP_FRAME_LO.VALUE. -/
abbrev F_DIS_L_FLIP_FRAME_LO_VALUE (i : Nat) : Fld := ⟨0x2C0128 + 0x40 * i, 0, 32⟩
/-- DIS_L_FLIP_FRAME_HI, R467. -/
abbrev R_DIS_L_FLIP_FRAME_HI (i : Nat) : Nat := 0x2C012C + 0x40 * i
/-- DIS_L_FLIP_FRAME_HI.VALUE. -/
abbrev F_DIS_L_FLIP_FRAME_HI_VALUE (i : Nat) : Fld := ⟨0x2C012C + 0x40 * i, 0, 32⟩
/-- DIS_L_FLIP_W, R467. -/
abbrev R_DIS_L_FLIP_W (i j : Nat) : Nat := 0x2C0130 + 0x40 * i + 0x4 * j
/-- DIS_L_FLIP_W.TS. -/
abbrev F_DIS_L_FLIP_W_TS (i j : Nat) : Fld := ⟨0x2C0130 + 0x40 * i + 0x4 * j, 0, 32⟩
/-- DIS_L_OWNER, R467. -/
abbrev R_DIS_L_OWNER (i : Nat) : Nat := 0x2C013C + 0x40 * i
/-- DIS_L_OWNER.CONTEXT. -/
abbrev F_DIS_L_OWNER_CONTEXT (i : Nat) : Fld := ⟨0x2C013C + 0x40 * i, 0, 12⟩
/-- DIS_L_OWNER.COVERED. -/
abbrev F_DIS_L_OWNER_COVERED (i : Nat) : Fld := ⟨0x2C013C + 0x40 * i, 16, 1⟩
/-- DIS_LUT_DATA, R467. -/
abbrev R_DIS_LUT_DATA (i : Nat) : Nat := 0x2C1000 + 0x4 * i
/-- DIS_LUT_DATA.ARGB. -/
abbrev F_DIS_LUT_DATA_ARGB (i : Nat) : Fld := ⟨0x2C1000 + 0x4 * i, 0, 32⟩
/-- MCV_CTRL, R486. -/
abbrev R_MCV_CTRL : Nat := 0x2D0000
/-- MCV_CTRL.EN. -/
abbrev F_MCV_CTRL_EN : Fld := ⟨0x2D0000, 0, 1⟩
/-- MCV_CTRL.SEQ_MODE. -/
abbrev F_MCV_CTRL_SEQ_MODE : Fld := ⟨0x2D0000, 1, 2⟩
/-- MCV_CTRL.SEQ_LEN. -/
abbrev F_MCV_CTRL_SEQ_LEN : Fld := ⟨0x2D0000, 3, 5⟩
/-- MCV_CTRL.FUND_SRC. -/
abbrev F_MCV_CTRL_FUND_SRC : Fld := ⟨0x2D0000, 8, 3⟩
/-- MCV_CTRL.CLR_COUNTERS. -/
abbrev F_MCV_CTRL_CLR_COUNTERS : Fld := ⟨0x2D0000, 12, 1⟩
/-- MCV_CTRL.START. -/
abbrev F_MCV_CTRL_START : Fld := ⟨0x2D0000, 13, 1⟩
/-- MCV_CTRL.INJ_GO. -/
abbrev F_MCV_CTRL_INJ_GO : Fld := ⟨0x2D0000, 14, 1⟩
/-- MCV_CTRL.CAL_GO. -/
abbrev F_MCV_CTRL_CAL_GO : Fld := ⟨0x2D0000, 15, 1⟩
/-- MCV_STATUS, R486. -/
abbrev R_MCV_STATUS : Nat := 0x2D0004
/-- MCV_STATUS.STATE. -/
abbrev F_MCV_STATUS_STATE : Fld := ⟨0x2D0004, 0, 3⟩
/-- MCV_STATUS.ENTRY. -/
abbrev F_MCV_STATUS_ENTRY : Fld := ⟨0x2D0004, 3, 5⟩
/-- MCV_STATUS.INJ_PENDING. -/
abbrev F_MCV_STATUS_INJ_PENDING : Fld := ⟨0x2D0004, 8, 1⟩
/-- MCV_STATUS.CAL_PENDING. -/
abbrev F_MCV_STATUS_CAL_PENDING : Fld := ⟨0x2D0004, 9, 1⟩
/-- MCV_STATUS.START_PENDING. -/
abbrev F_MCV_STATUS_START_PENDING : Fld := ⟨0x2D0004, 10, 1⟩
/-- MCV_STATUS.COAST. -/
abbrev F_MCV_STATUS_COAST : Fld := ⟨0x2D0004, 11, 1⟩
/-- MCV_STATUS.REF_FAULT. -/
abbrev F_MCV_STATUS_REF_FAULT : Fld := ⟨0x2D0004, 12, 1⟩
/-- MCV_STATUS.CAL_VALID. -/
abbrev F_MCV_STATUS_CAL_VALID : Fld := ⟨0x2D0004, 13, 1⟩
/-- MCV_STATUS.WRITE_REFUSED. -/
abbrev F_MCV_STATUS_WRITE_REFUSED : Fld := ⟨0x2D0004, 24, 1⟩
/-- MCV_CAL_CFG, R486. -/
abbrev R_MCV_CAL_CFG : Nat := 0x2D0008
/-- MCV_CAL_CFG.CAL_PERIOD. -/
abbrev F_MCV_CAL_CFG_CAL_PERIOD : Fld := ⟨0x2D0008, 0, 16⟩
/-- MCV_CAL_CFG.CAL_DT. -/
abbrev F_MCV_CAL_CFG_CAL_DT : Fld := ⟨0x2D0008, 16, 8⟩
/-- MCV_CAL_WIN, R486. -/
abbrev R_MCV_CAL_WIN : Nat := 0x2D000C
/-- MCV_CAL_WIN.US. -/
abbrev F_MCV_CAL_WIN_US : Fld := ⟨0x2D000C, 0, 24⟩
/-- MCV_NOMINAL, R486. -/
abbrev R_MCV_NOMINAL : Nat := 0x2D0010
/-- MCV_NOMINAL.NS. -/
abbrev F_MCV_NOMINAL_NS : Fld := ⟨0x2D0010, 0, 32⟩
/-- MCV_INJ_CFG, R486. -/
abbrev R_MCV_INJ_CFG : Nat := 0x2D0014
/-- MCV_INJ_CFG.SRC. -/
abbrev F_MCV_INJ_CFG_SRC : Fld := ⟨0x2D0014, 0, 4⟩
/-- MCV_INJ_CFG.GAIN. -/
abbrev F_MCV_INJ_CFG_GAIN : Fld := ⟨0x2D0014, 4, 2⟩
/-- MCV_INJ_CFG.ORDER_M1. -/
abbrev F_MCV_INJ_CFG_ORDER_M1 : Fld := ⟨0x2D0014, 6, 2⟩
/-- MCV_INJ_CFG.WMODE. -/
abbrev F_MCV_INJ_CFG_WMODE : Fld := ⟨0x2D0014, 8, 1⟩
/-- MCV_INJ_CFG.DAC_SET. -/
abbrev F_MCV_INJ_CFG_DAC_SET : Fld := ⟨0x2D0014, 9, 2⟩
/-- MCV_INJ_CFG.DWELL. -/
abbrev F_MCV_INJ_CFG_DWELL : Fld := ⟨0x2D0014, 16, 16⟩
/-- MCV_INJ_WIN, R486. -/
abbrev R_MCV_INJ_WIN : Nat := 0x2D0018
/-- MCV_INJ_WIN.WIN. -/
abbrev F_MCV_INJ_WIN_WIN : Fld := ⟨0x2D0018, 0, 24⟩
/-- MCV_INJ_AT_W, R486. -/
abbrev R_MCV_INJ_AT_W (i : Nat) : Nat := 0x2D001C + 0x4 * i
/-- MCV_INJ_AT_W.TS. -/
abbrev F_MCV_INJ_AT_W_TS (i : Nat) : Fld := ⟨0x2D001C + 0x4 * i, 0, 32⟩
/-- MCV_DAC_CTRL, R486. -/
abbrev R_MCV_DAC_CTRL : Nat := 0x2D0030
/-- MCV_DAC_CTRL.EN. -/
abbrev F_MCV_DAC_CTRL_EN : Fld := ⟨0x2D0030, 0, 1⟩
/-- MCV_DAC_CTRL.SEL_B. -/
abbrev F_MCV_DAC_CTRL_SEL_B : Fld := ⟨0x2D0030, 1, 1⟩
/-- MCV_DAC_CODE, R486. -/
abbrev R_MCV_DAC_CODE : Nat := 0x2D0034
/-- MCV_DAC_CODE.A. -/
abbrev F_MCV_DAC_CODE_A : Fld := ⟨0x2D0034, 0, 16⟩
/-- MCV_DAC_CODE.B. -/
abbrev F_MCV_DAC_CODE_B : Fld := ⟨0x2D0034, 16, 16⟩
/-- MCV_OFS, R486. -/
abbrev R_MCV_OFS (i : Nat) : Nat := 0x2D0040 + 0x4 * i
/-- MCV_OFS.OFS. -/
abbrev F_MCV_OFS_OFS (i : Nat) : Fld := ⟨0x2D0040 + 0x4 * i, 0, 24⟩
/-- MCV_GCAL, R486. -/
abbrev R_MCV_GCAL (i : Nat) : Nat := 0x2D0050 + 0x4 * i
/-- MCV_GCAL.GCAL. -/
abbrev F_MCV_GCAL_GCAL (i : Nat) : Fld := ⟨0x2D0050 + 0x4 * i, 0, 32⟩
/-- MCV_CAL_REFCHK, R486. -/
abbrev R_MCV_CAL_REFCHK : Nat := 0x2D0060
/-- MCV_CAL_REFCHK.PPM. -/
abbrev F_MCV_CAL_REFCHK_PPM : Fld := ⟨0x2D0060, 0, 32⟩
/-- MCV_CAL_W, R486. -/
abbrev R_MCV_CAL_W (i : Nat) : Nat := 0x2D0064 + 0x4 * i
/-- MCV_CAL_W.TS. -/
abbrev F_MCV_CAL_W_TS (i : Nat) : Fld := ⟨0x2D0064 + 0x4 * i, 0, 32⟩
/-- MCV_CAL_TEMP, R486. -/
abbrev R_MCV_CAL_TEMP : Nat := 0x2D0070
/-- MCV_CAL_TEMP.TEMP. -/
abbrev F_MCV_CAL_TEMP_TEMP : Fld := ⟨0x2D0070, 0, 16⟩
/-- MCV_COUNTS, R486. -/
abbrev R_MCV_COUNTS : Nat := 0x2D0080
/-- MCV_COUNTS.REG_ABORTED. -/
abbrev F_MCV_COUNTS_REG_ABORTED : Fld := ⟨0x2D0080, 0, 8⟩
/-- MCV_COUNTS.INJ_DROP. -/
abbrev F_MCV_COUNTS_INJ_DROP : Fld := ⟨0x2D0080, 8, 8⟩
/-- MCV_COUNTS.START_DROP. -/
abbrev F_MCV_COUNTS_START_DROP : Fld := ⟨0x2D0080, 16, 8⟩
/-- MCV_COUNTS.CAL_DROP. -/
abbrev F_MCV_COUNTS_CAL_DROP : Fld := ⟨0x2D0080, 24, 8⟩
/-- MCV_RES_LOST, R486. -/
abbrev R_MCV_RES_LOST : Nat := 0x2D0084
/-- MCV_RES_LOST.COUNT. -/
abbrev F_MCV_RES_LOST_COUNT : Fld := ⟨0x2D0084, 0, 32⟩
/-- MCV_NUM, R486. -/
abbrev R_MCV_NUM : Nat := 0x2D0088
/-- MCV_NUM.NUM. -/
abbrev F_MCV_NUM_NUM : Fld := ⟨0x2D0088, 0, 32⟩
/-- MCV_RES_DEPTH, R486. -/
abbrev R_MCV_RES_DEPTH : Nat := 0x2D0090
/-- MCV_RES_DEPTH.DEPTH. -/
abbrev F_MCV_RES_DEPTH_DEPTH : Fld := ⟨0x2D0090, 0, 7⟩
/-- MCV_RES_W, R486. -/
abbrev R_MCV_RES_W (i : Nat) : Nat := 0x2D00A0 + 0x4 * i
/-- MCV_RES_W.WORD. -/
abbrev F_MCV_RES_W_WORD (i : Nat) : Fld := ⟨0x2D00A0 + 0x4 * i, 0, 32⟩
/-- MCV_RES_POP, R486. -/
abbrev R_MCV_RES_POP : Nat := 0x2D00C0
/-- MCV_RES_POP.GO. -/
abbrev F_MCV_RES_POP_GO : Fld := ⟨0x2D00C0, 0, 1⟩
/-- MCV_SNAP_STATUS, R486. -/
abbrev R_MCV_SNAP_STATUS : Nat := 0x2D00D0
/-- MCV_SNAP_STATUS.VALUE. -/
abbrev F_MCV_SNAP_STATUS_VALUE : Fld := ⟨0x2D00D0, 0, 32⟩
/-- MCV_SNAP_NUM, R486. -/
abbrev R_MCV_SNAP_NUM : Nat := 0x2D00D4
/-- MCV_SNAP_NUM.VALUE. -/
abbrev F_MCV_SNAP_NUM_VALUE : Fld := ⟨0x2D00D4, 0, 32⟩
/-- MCV_E_CFG, R486. -/
abbrev R_MCV_E_CFG (i : Nat) : Nat := 0x2D0100 + 0x10 * i
/-- MCV_E_CFG.SRC. -/
abbrev F_MCV_E_CFG_SRC (i : Nat) : Fld := ⟨0x2D0100 + 0x10 * i, 0, 4⟩
/-- MCV_E_CFG.GAIN. -/
abbrev F_MCV_E_CFG_GAIN (i : Nat) : Fld := ⟨0x2D0100 + 0x10 * i, 4, 2⟩
/-- MCV_E_CFG.ORDER_M1. -/
abbrev F_MCV_E_CFG_ORDER_M1 (i : Nat) : Fld := ⟨0x2D0100 + 0x10 * i, 6, 2⟩
/-- MCV_E_CFG.WMODE. -/
abbrev F_MCV_E_CFG_WMODE (i : Nat) : Fld := ⟨0x2D0100 + 0x10 * i, 8, 1⟩
/-- MCV_E_CFG.DAC_SET. -/
abbrev F_MCV_E_CFG_DAC_SET (i : Nat) : Fld := ⟨0x2D0100 + 0x10 * i, 9, 2⟩
/-- MCV_E_CFG.DWELL. -/
abbrev F_MCV_E_CFG_DWELL (i : Nat) : Fld := ⟨0x2D0100 + 0x10 * i, 16, 16⟩
/-- MCV_E_WIN, R486. -/
abbrev R_MCV_E_WIN (i : Nat) : Nat := 0x2D0104 + 0x10 * i
/-- MCV_E_WIN.WIN. -/
abbrev F_MCV_E_WIN_WIN (i : Nat) : Fld := ⟨0x2D0104 + 0x10 * i, 0, 24⟩
/-- MCV_E_ANCHOR, R486. -/
abbrev R_MCV_E_ANCHOR (i : Nat) : Nat := 0x2D0108 + 0x10 * i
/-- MCV_E_ANCHOR.UNIT. -/
abbrev F_MCV_E_ANCHOR_UNIT (i : Nat) : Fld := ⟨0x2D0108 + 0x10 * i, 0, 4⟩
/-- MCV_E_ANCHOR.MEMBER. -/
abbrev F_MCV_E_ANCHOR_MEMBER (i : Nat) : Fld := ⟨0x2D0108 + 0x10 * i, 4, 2⟩
/-- MCV_E_ANCHOR.LEVEL. -/
abbrev F_MCV_E_ANCHOR_LEVEL (i : Nat) : Fld := ⟨0x2D0108 + 0x10 * i, 6, 2⟩
/-- MCV_E_ANCHOR.EN. -/
abbrev F_MCV_E_ANCHOR_EN (i : Nat) : Fld := ⟨0x2D0108 + 0x10 * i, 8, 1⟩
/-- MCV_E_K, R486. -/
abbrev R_MCV_E_K (i : Nat) : Nat := 0x2D010C + 0x10 * i
/-- MCV_E_K.K. -/
abbrev F_MCV_E_K_K (i : Nat) : Fld := ⟨0x2D010C + 0x10 * i, 0, 32⟩
/-- MCV_E_LAST, R486. -/
abbrev R_MCV_E_LAST (i : Nat) : Nat := 0x2D0300 + 0x4 * i
/-- MCV_E_LAST.CODE. -/
abbrev F_MCV_E_LAST_CODE (i : Nat) : Fld := ⟨0x2D0300 + 0x4 * i, 0, 24⟩
/-- MCV_E_LAST.FLAGS. -/
abbrev F_MCV_E_LAST_FLAGS (i : Nat) : Fld := ⟨0x2D0300 + 0x4 * i, 24, 8⟩
/-- ERR_CTRL, R507. -/
abbrev R_ERR_CTRL : Nat := 0x2E0000
/-- ERR_CTRL.CLR_COUNTERS. -/
abbrev F_ERR_CTRL_CLR_COUNTERS : Fld := ⟨0x2E0000, 0, 1⟩
/-- ERR_CTRL.EVT_CLASS. -/
abbrev F_ERR_CTRL_EVT_CLASS : Fld := ⟨0x2E0000, 1, 2⟩
/-- ERR_STATUS, R507. -/
abbrev R_ERR_STATUS : Nat := 0x2E0004
/-- ERR_STATUS.CONTAINED. -/
abbrev F_ERR_STATUS_CONTAINED : Fld := ⟨0x2E0004, 0, 1⟩
/-- ERR_STATUS.LOG_BLOCKED. -/
abbrev F_ERR_STATUS_LOG_BLOCKED : Fld := ⟨0x2E0004, 1, 1⟩
/-- ERR_STATUS.WRITE_REFUSED. -/
abbrev F_ERR_STATUS_WRITE_REFUSED : Fld := ⟨0x2E0004, 24, 1⟩
/-- ERR_LOG_HEAD, R507. -/
abbrev R_ERR_LOG_HEAD : Nat := 0x2E0008
/-- ERR_LOG_HEAD.NEXT_SEQ. -/
abbrev F_ERR_LOG_HEAD_NEXT_SEQ : Fld := ⟨0x2E0008, 0, 16⟩
/-- ERR_UNACKED, R507. -/
abbrev R_ERR_UNACKED : Nat := 0x2E000C
/-- ERR_UNACKED.COUNT. -/
abbrev F_ERR_UNACKED_COUNT : Fld := ⟨0x2E000C, 0, 13⟩
/-- ERR_LOG_LOST, R507. -/
abbrev R_ERR_LOG_LOST : Nat := 0x2E0010
/-- ERR_LOG_LOST.COUNT. -/
abbrev F_ERR_LOG_LOST_COUNT : Fld := ⟨0x2E0010, 0, 32⟩
/-- ERR_FATAL_COUNT, R507. -/
abbrev R_ERR_FATAL_COUNT : Nat := 0x2E0014
/-- ERR_FATAL_COUNT.COUNT. -/
abbrev F_ERR_FATAL_COUNT_COUNT : Fld := ⟨0x2E0014, 0, 32⟩
/-- ERR_SNAP_SEQ, R507. -/
abbrev R_ERR_SNAP_SEQ : Nat := 0x2E0018
/-- ERR_SNAP_SEQ.VALUE. -/
abbrev F_ERR_SNAP_SEQ_VALUE : Fld := ⟨0x2E0018, 0, 16⟩
/-- ERR_FATAL_W, R507. -/
abbrev R_ERR_FATAL_W (i : Nat) : Nat := 0x2E0020 + 0x4 * i
/-- ERR_FATAL_W.WORD. -/
abbrev F_ERR_FATAL_W_WORD (i : Nat) : Fld := ⟨0x2E0020 + 0x4 * i, 0, 32⟩
/-- ERR_PREV_FATAL_W, R507. -/
abbrev R_ERR_PREV_FATAL_W (i : Nat) : Nat := 0x2E0040 + 0x4 * i
/-- ERR_PREV_FATAL_W.WORD. -/
abbrev F_ERR_PREV_FATAL_W_WORD (i : Nat) : Fld := ⟨0x2E0040 + 0x4 * i, 0, 32⟩
/-- ERR_B_COUNTS, R507. -/
abbrev R_ERR_B_COUNTS (i : Nat) : Nat := 0x2E0080 + 0x4 * i
/-- ERR_B_COUNTS.RAISED. -/
abbrev F_ERR_B_COUNTS_RAISED (i : Nat) : Fld := ⟨0x2E0080 + 0x4 * i, 0, 16⟩
/-- ERR_B_COUNTS.OVF. -/
abbrev F_ERR_B_COUNTS_OVF (i : Nat) : Fld := ⟨0x2E0080 + 0x4 * i, 16, 8⟩
/-- ERR_B_COUNTS.TAGS. -/
abbrev F_ERR_B_COUNTS_TAGS (i : Nat) : Fld := ⟨0x2E0080 + 0x4 * i, 24, 4⟩
/-- ERR_B_COUNTS.TAG_FULL. -/
abbrev F_ERR_B_COUNTS_TAG_FULL (i : Nat) : Fld := ⟨0x2E0080 + 0x4 * i, 28, 4⟩
/-- ERR_ACK, R507. -/
abbrev R_ERR_ACK : Nat := 0x2E00C0
/-- ERR_ACK.SEQ. -/
abbrev F_ERR_ACK_SEQ : Fld := ⟨0x2E00C0, 0, 16⟩
/-- ERR_ACK.ALL. -/
abbrev F_ERR_ACK_ALL : Fld := ⟨0x2E00C0, 31, 1⟩
/-- ERR_LOG_SEL, R507. -/
abbrev R_ERR_LOG_SEL : Nat := 0x2E0100
/-- ERR_LOG_SEL.SEQ. -/
abbrev F_ERR_LOG_SEL_SEQ : Fld := ⟨0x2E0100, 0, 16⟩
/-- ERR_LOG_W, R507. -/
abbrev R_ERR_LOG_W (i : Nat) : Nat := 0x2E0120 + 0x4 * i
/-- ERR_LOG_W.WORD. -/
abbrev F_ERR_LOG_W_WORD (i : Nat) : Fld := ⟨0x2E0120 + 0x4 * i, 0, 32⟩
/-- SHF_CTRL, R507. -/
abbrev R_SHF_CTRL : Nat := 0x2F0000
/-- SHF_CTRL.FIRE. -/
abbrev F_SHF_CTRL_FIRE : Fld := ⟨0x2F0000, 0, 1⟩
/-- SHF_CTRL.REARM. -/
abbrev F_SHF_CTRL_REARM : Fld := ⟨0x2F0000, 1, 1⟩
/-- SHF_CTRL.IN_EN. -/
abbrev F_SHF_CTRL_IN_EN : Fld := ⟨0x2F0000, 2, 1⟩
/-- SHF_CTRL.ALARM_EN. -/
abbrev F_SHF_CTRL_ALARM_EN : Fld := ⟨0x2F0000, 3, 1⟩
/-- SHF_CTRL.SEG_EN. -/
abbrev F_SHF_CTRL_SEG_EN : Fld := ⟨0x2F0000, 4, 1⟩
/-- SHF_CTRL.ERR_EN. -/
abbrev F_SHF_CTRL_ERR_EN : Fld := ⟨0x2F0000, 5, 1⟩
/-- SHF_CTRL.ERR_CLASS. -/
abbrev F_SHF_CTRL_ERR_CLASS : Fld := ⟨0x2F0000, 6, 2⟩
/-- SHF_CTRL.IN_POL. -/
abbrev F_SHF_CTRL_IN_POL : Fld := ⟨0x2F0000, 8, 1⟩
/-- SHF_STATUS, R507. -/
abbrev R_SHF_STATUS : Nat := 0x2F0004
/-- SHF_STATUS.LOCKED. -/
abbrev F_SHF_STATUS_LOCKED : Fld := ⟨0x2F0004, 0, 1⟩
/-- SHF_STATUS.SOURCE. -/
abbrev F_SHF_STATUS_SOURCE : Fld := ⟨0x2F0004, 1, 3⟩
/-- SHF_STATUS.REPLACED. -/
abbrev F_SHF_STATUS_REPLACED : Fld := ⟨0x2F0004, 4, 1⟩
/-- SHF_STATUS.WRITE_REFUSED. -/
abbrev F_SHF_STATUS_WRITE_REFUSED : Fld := ⟨0x2F0004, 24, 1⟩
/-- SHF_FIRE_W, R507. -/
abbrev R_SHF_FIRE_W (i : Nat) : Nat := 0x2F0008 + 0x4 * i
/-- SHF_FIRE_W.TS. -/
abbrev F_SHF_FIRE_W_TS (i : Nat) : Fld := ⟨0x2F0008 + 0x4 * i, 0, 32⟩
/-- SHF_VALID, R507. -/
abbrev R_SHF_VALID : Nat := 0x2F0014
/-- SHF_VALID.BLOCKS. -/
abbrev F_SHF_VALID_BLOCKS : Fld := ⟨0x2F0014, 0, 17⟩
/-- SHF_COUNT, R507. -/
abbrev R_SHF_COUNT : Nat := 0x2F0018
/-- SHF_COUNT.COUNT. -/
abbrev F_SHF_COUNT_COUNT : Fld := ⟨0x2F0018, 0, 32⟩
/-- SHF_IGNORED, R507. -/
abbrev R_SHF_IGNORED : Nat := 0x2F001C
/-- SHF_IGNORED.COUNT. -/
abbrev F_SHF_IGNORED_COUNT : Fld := ⟨0x2F001C, 0, 32⟩
/-- SHF_LEAD, R507. -/
abbrev R_SHF_LEAD : Nat := 0x2F0020
/-- SHF_LEAD.NS. -/
abbrev F_SHF_LEAD_NS : Fld := ⟨0x2F0020, 0, 16⟩
/-- SHF_OUT_WIDTH, R507. -/
abbrev R_SHF_OUT_WIDTH : Nat := 0x2F0024
/-- SHF_OUT_WIDTH.NS. -/
abbrev F_SHF_OUT_WIDTH_NS : Fld := ⟨0x2F0024, 0, 16⟩
/-- SHF_ALARM_W, R507. -/
abbrev R_SHF_ALARM_W (i : Nat) : Nat := 0x2F0028 + 0x4 * i
/-- SHF_ALARM_W.TS. -/
abbrev F_SHF_ALARM_W_TS (i : Nat) : Fld := ⟨0x2F0028 + 0x4 * i, 0, 32⟩

end Sys2Proof.Machine
end

