-- ==== Sys2Proof/Machine/Regs.lean ====
section
/-!
DEFINITION. Looking a BAR0 address up in the register map: its row, its indices, its reset value, its block (R26), its
power domain (R19).
-/

namespace Sys2Proof.Machine

/-- The indices of an offset under a list of repetitions, widest stride first. -/
def matchDims : Nat → List (Nat × Nat) → Option (List Nat)
  | o, [] => if o = 0 then some [] else none
  | o, (c, s) :: ds =>
    if o / s < c then (matchDims (o % s) ds).map (fun is => (o / s) :: is) else none

/-- The indices of an address in a register's row. -/
def RegRow.index (r : RegRow) (a : Nat) : Option (List Nat) :=
  if a < r.base then none else matchDims (a - r.base) r.dims

/-- The first row of a list that holds an address, with the indices. -/
def findRow : List RegRow → Nat → Option (RegRow × List Nat)
  | [], _ => none
  | r :: rs, a =>
    match r.index a with
    | some is => some (r, is)
    | none => findRow rs a

/-- The block index of a BAR0 address (Table 1.5); 17 for the unlisted rest (R26). -/
def blockOf (a : Nat) : Nat :=
  if a < 0x010000 then 0 else if a < 0x020000 then 1 else if a < 0x030000 then 2 else if a < 0x040000 then 3
  else if a < 0x080000 then 4 else if a < 0x0C0000 then 5 else if a < 0x0E0000 then 6 else if a < 0x100000 then 7
  else if a < 0x120000 then 8 else if a < 0x200000 then 9 else if a < 0x240000 then 10 else if a < 0x280000 then 11
  else if a < 0x2C0000 then 12 else if a < 0x2D0000 then 13 else if a < 0x2E0000 then 14 else if a < 0x2F0000 then 15
  else if a < 0x300000 then 16 else 17

/-- The rows of the block that holds an address. -/
def blockRows (a : Nat) : List RegRow :=
  match blockOf a with
  | 0 => regRowsGLB
  | 1 => regRowsPMU
  | 2 => if a < 0x021000 then regRowsHIF else regRowsADM
  | 3 => regRowsMBX
  | 4 => regRowsJIN
  | 5 => regRowsDFU
  | 6 => if a < 0x0C8000 then regRowsTRG else regRowsPLC
  | 7 => regRowsTIM
  | 8 => regRowsCAP
  | 9 => if a < 0x1E0000 then regRowsENG else regRowsMAP
  | 10 => regRowsDMA
  | 11 => regRowsCMP
  | 12 => regRowsMEM
  | 13 => regRowsDIS
  | 14 => regRowsMCV
  | 15 => regRowsERR
  | 16 => regRowsSHF
  | _ => []

/-- The register at an address. -/
def lookupReg (a : Nat) : Option (RegRow × List Nat) := findRow (blockRows a) a

/-- Power domains in the order of PMU_DOM (R447). -/
inductive Dom where
  | aon | intake | barn (b : Nat) | memc | hostlink | cmp | dis | mcv
deriving DecidableEq, Repr

/-- The place of a domain in PMU_DOM (R447). -/
def Dom.idx : Dom → Nat
  | .aon => 0
  | .intake => 1
  | .barn b => 2 + b
  | .memc => 14
  | .hostlink => 15
  | .cmp => 16
  | .dis => 17
  | .mcv => 18

/-- The domain that holds the register at a BAR0 address (Table 1.1). CAP's registers stand on its Granary side. -/
def domOf (a : Nat) : Dom :=
  match blockOf a with
  | 2 => .hostlink
  | 4 | 5 | 6 | 7 | 8 => .intake
  | 9 => if a < 0x1E0000 then .barn ((a - 0x120000) / 0x10000) else .hostlink
  | 10 => .hostlink
  | 11 => .cmp
  | 12 => .memc
  | 13 => .dis
  | 14 => .mcv
  | _ => .aon

/-- The reset values that depend on the index, or that are fused into the part. -/
def resetSpecial (name : String) (is : List Nat) (base : Nat) : Nat :=
  if name = "CKG_P_CTRL" then (if is = [1] then 3200 else 1000)
  else if name = "HIF_F_WIN" then (if is = [0] then 0x30000 else 0)
  else if name = "HIF_F_QUOTA" then (if is = [0] then 512 + (4096 <<< 16) else 0)
  else if name = "MBX_S_CFG" then (if is = [0] then 2 else 0)
  else if name = "ENG_E_STATUS" then (0x40 + 8 * is.headD 0 + (is.drop 1).headD 0) <<< 16
  else if name = "MEM_PORT_QOS" then
    (match is with | [0] => 20000 | [2] => 2000 | [3] => 5000 | [4] => 10000 | _ => 0)
  else if name = "GLB_UID_LO" then (Config.uid.toNat) % 4294967296
  else if name = "GLB_UID_HI" then (Config.uid.toNat) / 4294967296
  else if name = "GLB_KEYHASH" then (Config.keyHash (is.headD 0)).toNat
  else if name = "GLB_FUSE_STATUS" then
    b2n Config.keyHashValid + 2 * b2n Config.debugLocked + 256 * Config.patchFloor.toNat
  else if name = "PMU_OPP" then (Config.opp (is.headD 0)).toNat
  else base

/-- The names whose reset value `resetSpecial` gives. -/
def specialNames : List String :=
  ["CKG_P_CTRL", "HIF_F_WIN", "HIF_F_QUOTA", "MBX_S_CFG", "ENG_E_STATUS", "MEM_PORT_QOS", "GLB_UID_LO", "GLB_UID_HI",
   "GLB_KEYHASH", "GLB_FUSE_STATUS", "PMU_OPP"]

/-- The value a register holds at reset, from its fields. -/
def fieldsReset : List FieldRow → Nat
  | [] => 0
  | f :: fs => (f.reset <<< f.lo) + fieldsReset fs

/-- The value at reset of the register at an address; 0 where none is listed (R6). -/
def regReset (a : Nat) : Word :=
  match lookupReg a with
  | none => 0
  | some (r, is) =>
    BitVec.ofNat 32
      (if r.name ∈ specialNames then resetSpecial r.name is (fieldsReset r.fields) else fieldsReset r.fields)

end Sys2Proof.Machine
end

