-- ==== Sys2Proof/Machine/TyCap.lean ====
section
/-!
DEFINITION. The state of the capture block behind its registers (chapter 7): streams, Granary rings, Silo pages, the
marker and header chutes, segments, claims.
-/

namespace Sys2Proof.Machine

/-- A 64-byte granule of a stream (R185): its number in the stream, the time of the earliest item with bytes in it, its
bytes, the capture and number of each segment it is frozen for (R147, R196), whether one of its words is uncorrectable. -/
structure Gran where
  n : Nat
  ts : Nat
  bytes : List Byte
  heldFor : List (Nat × Nat)
  ue : Bool
deriving DecidableEq, Repr

/-- A stream of the capture (R183 to R190). -/
structure CStream where
  /-- Stored in this capture. -/
  on : Bool
  /-- Values of a P12 block, or bytes of a granule, not yet complete. -/
  vals : List Int
  staging : List Byte
  /-- Bytes of completed granules, or of records written, since ARM. -/
  bytes : Nat
  /-- Time of the earliest item with bytes in the staging granule, and of the newest item. -/
  stageTs : Option Nat
  lastTs : Nat
  /-- Granules in the ring, oldest first, how many G_s gives it, and those frozen. -/
  ring : List Gran
  size : Nat
  frozen : List Gran
  /-- Granules drained or given up: the next granule the Silo writer takes. -/
  drained : Nat
  /-- Pages of the Silo ring, the next to be taken first; the page being written. -/
  pages : List Nat
  cur : Option Nat
  /-- The next page taken carries WATCH_START. -/
  watchStart : Bool
  /-- Time of the first granule drained by the present flush; whether granules before it never reached the Silo. -/
  flushTs : Option Nat
  flushLost : Bool
  /-- A run of outputs with FILL or SUSPECT: first label, first index, count (Table 7.4). -/
  fillRun : Option (Nat × Nat × Nat)
  suspRun : Option (Nat × Nat × Nat)
  /-- Runs that ended, by marker KIND, first index and count, at the lowest stream of the link (R191, R223). -/
  spans : List (Nat × Nat × Nat)
  /-- Runs of outputs with OVR (2) or UNSETTLED (32) of this stream: flag, first index, count (R223). -/
  flagRuns : List (Nat × Nat × Nat)
deriving DecidableEq, Repr

/-- A page of the Silo: the entry of Table 7.2, with the stream byte it starts at, the time of the item its first byte
belongs to, the time of the first item of its successor, and the 64-byte units left stale (R190). -/
structure Page where
  firstItem : Nat
  firstTs : Nat
  stream : Nat
  valid : Bool
  gapIn : Bool
  watchStart : Bool
  partialClosed : Bool
  copied : Bool
  complete : Bool
  pins : Nat
  firstOfs : Nat
  capture : Nat
  used : Nat
  start : Nat
  startTs : Nat
  endTs : Option Nat
  stale : List Nat
deriving DecidableEq, Repr

/-- A segment: the header's fields (Table 7.5), the context that issued TRIG_ARM, the pages it pins, and whether it is
handed off, stored in the table, released. -/
structure Seg where
  no : Nat
  capture : Nat
  tS : Nat
  decTs : Nat
  firstOvl : Nat
  cause : Nat
  branch : Nat
  flags : Nat
  pre : Nat
  post : Nat
  ovl : Nat
  holdBefore : Nat
  pinned : Bool
  unpinned : Bool
  held : Bool
  fillIn : Bool
  suspectIn : Bool
  gapIn : Bool
  cut : Bool
  complete : Bool
  stored : Bool
  queued : Bool
  released : Bool
  ctx : Nat
  pages : List Nat
deriving DecidableEq, Repr

/-- A claim (Table 7.6). -/
structure CapClaim where
  id : Nat
  t0 : Nat
  t1 : Nat
  streams : Nat
  resMask : Nat
  ctx : Nat
  state : Nat
  gapIn : Bool
  noData : Bool
  created : Nat
  pages : List Nat
deriving DecidableEq, Repr

/-- A marker on its way (Table 7.3): its capture; its SEQ, where a later ARM came before it was written. -/
structure Marker where
  capture : Nat
  seq : Option Nat
  ts : Nat
  kind : Nat
  stream : Nat
  aux : Nat
  data : List Byte
deriving DecidableEq, Repr

/-- The capture block. -/
structure Cap where
  streams : List CStream
  tbl : List (Nat × Page)
  /-- The capture is armed; its time; the context that armed it. -/
  armed : Bool
  armTs : Nat
  armCtx : Nat
  markSeq : Nat
  chute : List Marker
  lostFirst : Option Nat
  lostN : Nat
  hdrq : List (Nat × Nat)
  segs : List Seg
  claims : List CapClaim
  /-- Markers written in this capture: time, kind, stream (R193). -/
  marks : List (Nat × Nat × Nat)
  /-- TS of the last GAP_NONE or of ARM, when the next heartbeat is due, a SILO_GAP since the last. -/
  hbLast : Nat
  hbAt : Nat
  hbGap : Bool
  /-- Records raised since ARM, by type. -/
  raised : List Nat
  wakeTs : Nat
  flushStart : Nat
  stopTs : Nat
  /-- CAP_CONFIG waits for DRAM_READY with this INIT (R204). -/
  cfgPend : Option Bool
  /-- The last CAP_CONFIG, kept in CC0 memory (R204). -/
  saved : List (Nat × Word)
  /-- Single-bit errors of the Granary that CAP corrected (R185). -/
  ceCount : Nat
deriving DecidableEq, Repr

/-- A stream that holds nothing. -/
def CStream.reset : CStream :=
  { on := false, vals := [], staging := [], bytes := 0, stageTs := none, lastTs := 0, ring := [],
    size := 0, frozen := [], drained := 0, pages := [], cur := none, watchStart := false, flushTs := none,
    flushLost := false, fillRun := none, suspRun := none, spans := [], flagRuns := [] }

/-- A page that holds nothing. -/
def Page.empty : Page :=
  { firstItem := 0, firstTs := 0, stream := 0, valid := false, gapIn := false, watchStart := false,
    partialClosed := false, copied := false, complete := false, pins := 0, firstOfs := 0, capture := 0, used := 0,
    start := 0, startTs := 0, endTs := none, stale := [] }

/-- CAP after a power-on or pin reset (R204). -/
def Cap.reset : Cap :=
  { streams := List.replicate 80 CStream.reset, tbl := [], armed := false, armTs := 0, armCtx := 0, markSeq := 0,
    chute := [], lostFirst := none, lostN := 0, hdrq := [], segs := [], claims := [], marks := [], hbLast := 0,
    hbAt := 0, hbGap := false, raised := [], wakeTs := 0, flushStart := 0, stopTs := 0, cfgPend := none,
    saved := [], ceCount := 0 }

end Sys2Proof.Machine
end

