-- ==== Sys2Proof/Machine/TyClk.lean ====
section
/-!
DEFINITION. The state of the clocks, the timebase and the power-state machine behind their registers (chapter 15).
-/

namespace Sys2Proof.Machine

/-- A glide of a PLL (R418): from, to, in kHz; steps taken; when the next is due and when the change began, in ns of
uptime. -/
structure Glide where
  src : Nat
  tgt : Nat
  k : Nat
  at_ : Nat
  start : Nat
deriving DecidableEq, Repr

/-- A slew of R429: whether its offset is negative, its start, the length of a ramp and of the hold in ns, and whether
it only ramps back because the reference was lost. -/
structure Slew where
  neg : Bool
  start : Nat
  ramp : Nat
  hold : Nat
  lost : Bool
deriving DecidableEq, Repr

/-- A power state asked for (R435, R440): target, cause, when its first leg began in uptime, and the PSTATE_SET that
asked. -/
structure PsWant where
  target : Nat
  cause : Nat
  begun : Option Nat
  cmd : Option (Nat × Nat)
deriving DecidableEq, Repr

/-- A transition under way (R436 to R439): states, cause, its start in uptime and as TS96, and when the request's first
leg began. -/
structure PsTrans where
  src : Nat
  dst : Nat
  cause : Nat
  start : Nat
  ts : Nat
  begun : Nat
deriving DecidableEq, Repr

/-- Clocks, timebase, power states. -/
structure Clk where
  /-- FCLK and the DRAM clock now, in kHz (R418, R422). -/
  fkhz : Nat
  mkhz : Nat
  /-- Glides of FPLL and MPLL. -/
  glides : List (Option Glide)
  /-- FPLL's clock before Rest or bypass (R420, R436). -/
  fBefore : Nat
  /-- PLLs whose band table is as firmware measured it (R417). -/
  measured : List Bool
  /-- A CLK_SET that waits for TRG to be IDLE: MHz, SSC (R97, R419). -/
  deferred : Option (Nat × Nat)
  /-- Voltage write awaiting its acknowledgement since, and failed tries (R423). -/
  avsAt : Option Nat
  avsTries : Nat
  /-- Throttling (R424): frequency to return to, when the next step is due, since when T_NOW is below RELEASE. -/
  preThr : Nat
  thrAt : Nat
  below : Option Nat
  /-- References (R427): last PPS edge as TS96 and in uptime, since when each is valid, and in use. -/
  ppsLast : Option (Nat × Nat)
  ppsSince : Option Nat
  refSince : Option Nat
  ppsUsed : Bool
  refUsed : Bool
  /-- The next edge of the PPS is its first since it qualified (R429). -/
  ppsFirst : Bool
  /-- Steer without the slew, in 2^-40, with its past values and when each began (R428). -/
  steer : Int
  steers : List (Nat × Int)
  slew : Option Slew
  /-- Phase error held for TBS_ACK, in 2^-32 ns (R429). -/
  held : Int
  /-- A step in ns to be taken, not before a TS96 (R430). -/
  step : Option (Int × Nat)
  /-- The second of a TIME_SET that waits for the PPS (R431). -/
  setAt : Option Nat
  hoStart : Nat
  /-- PPS_OUT: number of the last second pulsed, end of the pulse in uptime (R432). -/
  ppsSec : Nat
  ppsEnd : Option Nat
  /-- What TBS_STATE reads again after bypass (R420). -/
  tbsBefore : Nat
  /-- The wake alarm is armed (R530). -/
  wakeArmed : Bool
  /-- The power state asked for and not yet reached, or latched (R440); the transition under way; decisions at the last
  disarm by firmware. -/
  want : Option PsWant
  trans : Option PsTrans
  disarmed : Nat
  /-- Die temperature when TIM's tables were saved (R179), in 1/16 degree. -/
  restTemp : Int
  /-- The band tables have been calibrated (R417); the uptime from which GLB_UPTIME counts (R30). -/
  bandsCal : Bool
  upBase : Nat
  /-- The last access of the host, in uptime (R435). -/
  access : Nat
deriving DecidableEq, Repr

/-- The clocks after power-on: FPLL starts at 1000 MHz (R422), MPLL at 3200 MHz. -/
def Clk.reset : Clk :=
  { fkhz := 1000000, mkhz := 3200000, glides := [none, none], fBefore := 1000000, measured := [true, true, true],
    deferred := none, avsAt := none, avsTries := 0, preThr := 0, thrAt := 0, below := none, ppsLast := none,
    ppsSince := none, refSince := none, ppsUsed := false, refUsed := false, ppsFirst := false, steer := 0, steers := [],
    slew := none, held := 0, step := none, setAt := none, hoStart := 0, ppsSec := 0, ppsEnd := none, tbsBefore := 0, wakeArmed := false,
    want := none, trans := none, disarmed := 0,
    restTemp := 0, bandsCal := false, upBase := 0, access := 0 }

end Sys2Proof.Machine
end

