-- ==== Sys2Proof/Machine/TyCon.lean ====
section
/-!
DEFINITION. The contracts that device firmware keeps (chapter 11).
-/

namespace Sys2Proof.Machine

/-- A piece: the engine it lies on, the chain it holds, and whether its barn was guarded when it was placed (R313). -/
structure Piece where
  eng : Nat
  chain : Option Nat
  guard : Bool
deriving DecidableEq, Repr

/-- A contract: its context, acceptance order, the fields of Table 11.2 from dw2 on, its pieces, and whether it is
broken. -/
structure Contract where
  ctx : Nat
  order : Nat
  dws : List Word
  pieces : List Piece
  broken : Bool
deriving DecidableEq, Repr

/-- Admission: contracts oldest first, the next order number, a re-run asked for with its cause (R314), whether capacity
has risen, pools when last compared, the Silo reservation kept for a capture of a broken contract (R315), drains in
progress (R316). -/
structure Con where
  list : List Contract
  next : Nat
  rerun : Option Nat
  rerunEng : Nat
  risen : Bool
  pools : List Nat
  kept : List (Nat × Nat)
deriving DecidableEq, Repr

/-- No contract exists (R317). -/
def Con.reset : Con := { list := [], next := 1, rerun := none, rerunEng := 0, risen := false, pools := [], kept := [] }

end Sys2Proof.Machine
end

