-- ==== Sys2Proof/Machine/TyDfu.lean ====
section
/-!
DEFINITION. The state of the filter units behind their registers (chapter 3).
-/

namespace Sys2Proof.Machine

/-- A sample inside a unit: its value and flags (R81). -/
structure DSample where
  v : Int
  valid : Bool
  fill : Bool
  suspect : Bool
  ovr : Bool
deriving DecidableEq, Repr

/-- A decimating filter stage (R77, R79): its last inputs, newest first. -/
structure Stage where
  id : Nat
  hist : List DSample
deriving DecidableEq, Repr

/-- One input of a unit (R69 to R81): the skew filter's last inputs with their members, newest first; the index of the
corrected sample that comes out next, −4 when the phase is reset; the interval in progress; the cascade; the first input
without VALID since the phase was reset; saturations since the last output and in the present 1 ms window. -/
structure Slot where
  skewH : List (DSample × Nat)
  n : Int
  cnt : Nat
  mn : Int
  mx : Int
  pk : Int
  sum : Int
  first : Int
  fl : DSample
  stages : List Stage
  firstInvalid : Option Int
  sats : Nat
  satWin : Nat
  satCnt : Nat
  satRaised : Bool
deriving DecidableEq, Repr

/-- The output of one input: one value, or minimum and maximum in ENVELOPE (Table 3.2). -/
structure OutVal where
  vals : List Int
  fill : Bool
  suspect : Bool
  ovr : Bool
deriving DecidableEq, Repr

/-- A primary output (R80, R81). -/
structure PrimOut where
  j : Nat
  ts : Nat
  valid : Bool
  unsettled : Bool
  ins : List (Nat × OutVal)
deriving DecidableEq, Repr

/-- Accumulators of a member (R73). -/
structure AnchAcc where
  sum : Int
  sumsq : Nat
  count : Nat
  excl : Nat
deriving DecidableEq, Repr

/-- The resampler (R86 to R89): period, whether one was accepted, when the last report arrived, the report that waits for
the next cycle start, rejections in a row, coasting; step in use and step loaded for the next cycle; the cycle, its
start, the next sample of it, whether the synchronous stream runs; flags of the cycle, whether the step in use and the step
loaded for the next cycle are clamped, flags of the cycle's samples (FILL, OVR, UNSETTLED), its phase error in 2^-32 ns, the
last descriptor; halfband stages, inputs newest first and the index after the newest, by input. -/
structure Rs where
  p : Nat
  accepted : Bool
  last : Option Nat
  waiting : Option (Nat × Nat)
  rejects : Nat
  coasting : Bool
  step : Nat
  next : Nat
  cyc : Nat
  sc : Nat
  scPrev : Nat
  pos : Nat
  started : Bool
  rejFlag : Bool
  resync : Bool
  clamped : Bool
  nextClamped : Bool
  phase : Int
  fl : Nat
  desc : List Byte
  hb : List (List Stage)
  hist : List (List DSample)
  nIn : List Int
deriving DecidableEq, Repr

/-- A filter unit. -/
structure DUnit where
  slots : List Slot
  outq : List PrimOut
  j : Nat
  settled : Nat
  tg : Nat
  syncPend : Bool
  /-- LEMC edges counted when the pending commit and the pending DSYNC were asked for (R72, R82). -/
  corrEdge : Nat
  syncEdge : Nat
  /-- The LEMC edge, counted from the alignment, at which corrections were last applied (R72). -/
  applyEdge : Option Nat
  skewPend : Option (List Int)
  saved : Option (List Word)
  acc : List AnchAcc
  aStart : Option Nat
  aEnd : Option Nat
  discards : Nat
  /-- Targets t = K × V_mcv of the anchored members as fractions, with the level of the calibration source (R74). -/
  targ : List (Option (Int × Nat × Nat))
  /-- Per member and level, the last target and mean, as fractions (R74 step 4). -/
  levels : List (Option (Int × Nat × Int × Nat))
  rs : Rs
deriving DecidableEq, Repr

def DSample.zero : DSample := { v := 0, valid := false, fill := false, suspect := false, ovr := false }

/-- An input with cleared histories. -/
def Slot.reset : Slot :=
  { skewH := [], n := -4, cnt := 0, mn := 0, mx := 0, pk := 0, sum := 0, first := 0,
    fl := { v := 0, valid := true, fill := false, suspect := false, ovr := false },
    stages := [], firstInvalid := none, sats := 0, satWin := 0, satCnt := 0, satRaised := false }

def AnchAcc.zero : AnchAcc := { sum := 0, sumsq := 0, count := 0, excl := 0 }

/-- A resampler that has received nothing. -/
def Rs.reset : Rs :=
  { p := 0, accepted := false, last := none, waiting := none, rejects := 0, coasting := false, step := 0, next := 0, cyc := 0,
    sc := 0, scPrev := 0, pos := 0, started := false, rejFlag := false, resync := false, clamped := false, nextClamped := false, phase := 0, fl := 0,
    desc := [], hb := List.replicate 4 [], hist := List.replicate 4 [], nIn := List.replicate 4 0 }

/-- A unit after reset (R91). -/
def DUnit.reset : DUnit :=
  { slots := List.replicate 4 Slot.reset, outq := [], j := 0, settled := 0, tg := 0, syncPend := false, corrEdge := 0, syncEdge := 0,
    applyEdge := none, skewPend := none, saved := none, acc := List.replicate 4 AnchAcc.zero, aStart := none, aEnd := none,
    discards := 0, targ := List.replicate 4 none, levels := List.replicate 12 none, rs := Rs.reset }

end Sys2Proof.Machine
end

