-- ==== Sys2Proof/Machine/TyDis.lean ====
section
/-!
DEFINITION. The state of the display block behind its registers (chapter 16).
-/

namespace Sys2Proof.Machine

/-- A layer: a commit that waits for the latch (R462); a commit taken up, whose frame has not started; a function reset that
disables it at the next latch (R464); a LUT exchange at the next latch, by DIS_LUT or not (R455); the map's bank taken at
the latch, while the map is final (R456); the two LUT banks by entry. -/
structure DLayer where
  commit : Bool
  taken : Bool
  off : Bool
  swap : Bool
  swapCmd : Bool
  bank : Option Nat
  lut0 : List (Nat × Word)
  lut1 : List (Nat × Word)
deriving DecidableEq, Repr

/-- A layer after reset. -/
def DLayer.reset : DLayer :=
  { commit := false, taken := false, off := false, swap := false, swapCmd := false, bank := none, lut0 := [], lut1 := [] }

/-- A pixel shown in the background colour because its data came too late (R459). -/
structure Missing where
  x : Nat
  y : Nat
deriving DecidableEq, Repr

/-- The display. -/
structure Dis where
  layers : List DLayer
  /-- Start of the frame under way in ns of uptime, with the rest of the division by the pixel clock in kHz. -/
  frameAt : Nat
  frameRem : Nat
  /-- The frame's latch is still to come. -/
  inFrame : Bool
  /-- The next frame starts not before this uptime (R452). -/
  notBefore : Nat
  /-- A mode has been applied and its first frame is still to come; whether the link retrained for it (R452). -/
  applied : Option Bool
  /-- When training began; the link was lost and has not recovered (R449, R450). -/
  trainAt : Nat
  lost : Bool
  /-- The backlight rises with the first frame (R464). -/
  light : Bool
  /-- Pixels and lines of the frame under way that show the background colour (R459, R465). -/
  missing : List Missing
  badLines : List Nat
  /-- When UNDERRUN was last raised (R459). -/
  urAt : Option Nat
  /-- When the AUX transfer began (R450). -/
  auxAt : Nat
  /-- DIS_STATUS.STATE before HELD (R464). -/
  heldFrom : Nat
deriving DecidableEq, Repr

/-- The display after power-on. -/
def Dis.reset : Dis :=
  { layers := List.replicate 3 DLayer.reset, frameAt := 0, frameRem := 0, inFrame := false, notBefore := 0, applied := none,
    trainAt := 0, lost := false, light := false, missing := [], badLines := [], urAt := none, auxAt := 0, heldFrom := 0 }

end Sys2Proof.Machine
end

