-- ==== Sys2Proof/Machine/TyDma.lean ====
section
/-!
DEFINITION. The state of the DMA and compression blocks behind their registers (chapter 13): descriptors, transfers,
channels with their kept buffers and output chutes, token buckets, compression jobs and streams.
-/

namespace Sys2Proof.Machine

/-- A descriptor (Table 13.1), with its last two bytes, which are reserved. -/
structure DDesc where
  src : Nat
  dst : Nat
  len : Nat
  ctrl : Nat
  next : Nat
  tag : Nat
  pace : Nat
  rsv : Nat
deriving DecidableEq, Repr

/-- What a CLAIM_READ reports and releases (R203): the first item delivered, zeros substituted, the stretch ended first,
poison, the claim or segment to be released. -/
structure ClaimInfo where
  first : Nat
  gap : Bool
  cut : Bool
  bad : Bool
  relClaim : Option Nat
  relSeg : Option (Nat × Nat)
deriving DecidableEq, Repr

/-- The output of an EMIT_HOST as one packet of the chute (R363). -/
structure EmitPkt where
  chain : Nat
  tag : Nat
  seq : Nat
  bytes : List Byte
  bad : Bool
deriving DecidableEq, Repr

/-- A transfer (R350): where it stands. -/
structure Xfer where
  /-- Its ring index, or the command it belongs to. -/
  index : Option Nat
  cmd : Option (Nat × Nat)
  head : DDesc
  /-- The descriptor being executed; none while the next of the chain is to be fetched. -/
  cur : Option DDesc
  hops : Nat
  nextAt : Nat
  released : Option Nat
  rd : Nat
  wr : Nat
  /-- The kept buffer (R358): bytes read and not yet written, with their poison (R357). -/
  kept : List (Byte × Bool)
  /-- Checksum register, and the source bytes of a descending copy read so far, in ascending order (R356). -/
  crc : Nat
  desc : List Byte
  done : Nat
  retries : Nat
  tries : Nat
  poisoned : Bool
  /-- Bytes of the appended checksum written. -/
  appended : Nat
  lastDst : Nat × Nat
  /-- The status it ends with, once no further data moves. -/
  endSt : Option Nat
  /-- An overlapped descriptor has written data (R366). -/
  overlap : Bool
  /-- Claimed data as the source, with what is reported of them. -/
  given : Option (List Byte)
  claim : Option ClaimInfo
  emit : Option EmitPkt
  /-- TS96 of the last data write, for DONE_TS. -/
  wroteAt : Option Nat
deriving DecidableEq, Repr

/-- A channel (R346 to R366). -/
structure Chan where
  started : Bool
  /-- A ring has been set. -/
  ring : Bool
  /-- Owned descriptors fetched ahead, with their ring index; the next index to read; OWN = 0 was read there, and when
  it is polled. -/
  ahead : List (Nat × DDesc)
  fetch : Nat
  empty : Bool
  pollAt : Nat
  fetchTries : Nat
  xfer : Option Xfer
  lastRel : Option Nat
  crc : Nat
  emits : List EmitPkt
  emitTold : Bool
  haltAfter : Bool
  draining : Bool
  completed : Nat
  /-- The transfer that was halted without write-back (R366). -/
  owned : Option Xfer
deriving DecidableEq, Repr

/-- A context's token buckets, in 1/1000 byte, with their time (R361). -/
structure Bucket where
  ctx : Nat
  d2h : Nat
  h2d : Nat
  at_ : Nat
deriving DecidableEq, Repr

/-- The DMA block. -/
structure Dma where
  chans : List Chan
  buckets : List Bucket
  /-- The last channel of each group that had a burst. -/
  last : List Nat
  /-- Negotiated maximum payload and read request size. -/
  mps : Nat
  mrrs : Nat
deriving DecidableEq, Repr

/-- What a compression stream carries from part to part (R370, Table 13.7). -/
structure CmpState where
  op : Nat
  framing : Nat
  effort : Nat
  /-- Decompression: all input so far. Compression: the last 32 KiB of input. -/
  inp : List Byte
  inTotal : Nat
  outTotal : Nat
  /-- Check registers: CRC-32 and Adler-32 of the uncompressed data, and their length. -/
  crc : Nat
  adler : Nat
  size : Nat
  /-- Output bits that do not yet fill a byte, first bit first. -/
  bits : List Bool
  begun : Bool
  ended : Bool
deriving DecidableEq, Repr

/-- An entry of an output list (R370): space, address, bytes left. -/
structure OutEnt where
  space : Nat
  addr : Nat
  len : Nat
deriving DecidableEq, Repr

/-- A compression job (R370 to R373): 0 waits, 1 runs, 2 held, 3 suspended in its save area. -/
structure CmpJob where
  id : Nat
  ctx : Nat
  func : Nat
  cmd : Option (Nat × Nat)
  stream : Nat
  part : Nat
  save : Bool
  saveAddr : Nat
  chan : Nat
  engine : Option Nat
  state : Nat
  /-- Input of the part, still to be compressed or whole to be decompressed; whether it comes from host memory. -/
  inp : List Byte
  inHost : Bool
  /-- A CMP_RESUME takes it up again (R372). -/
  resumed : Bool
  list : List OutEnt
  inN : Nat
  outN : Nat
  /-- Output produced and not yet written; every byte of the part has been produced. -/
  outq : List Byte
  produced : Bool
  st : CmpState
  abort : Bool
  suspend : Bool
  poisoned : Bool
  claim : Option ClaimInfo
  at_ : Nat
deriving DecidableEq, Repr

/-- A stream between parts. -/
structure CmpStream where
  no : Nat
  ctx : Nat
  save : Nat
  st : CmpState
deriving DecidableEq, Repr

/-- The compression block. -/
structure Cmp where
  jobs : List CmpJob
  streams : List CmpStream
  nextId : Nat
deriving DecidableEq, Repr

/-- A channel after reset or when it is opened. -/
def Chan.reset : Chan :=
  { started := false, ring := false, ahead := [], fetch := 0, empty := false, pollAt := 0, fetchTries := 0, xfer := none,
    lastRel := none, crc := 4294967295, emits := [], emitTold := false, haltAfter := false, draining := false,
    completed := 0, owned := none }

/-- DMA after reset (R376); the payload and read request sizes that PCIe functions have after reset. -/
def Dma.reset : Dma :=
  { chans := List.replicate 128 Chan.reset, buckets := [], last := List.replicate 8 0, mps := 128, mrrs := 512 }

/-- CMP after reset (R376). -/
def Cmp.reset : Cmp := { jobs := [], streams := [], nextId := 1 }

end Sys2Proof.Machine
end

