-- ==== Sys2Proof/Machine/TyEng.lean ====
section
/-!
DEFINITION. The state of the engines, the finisher and the maps behind their registers (chapters 8 and 9): chain
images, feeds' rings, jobs, staged outputs, fenced engines, finisher members, aggregates, map epochs.
-/

namespace Sys2Proof.Machine

/-- A buffer descriptor (Table 8.2). -/
structure BufD where
  size : Nat
  fmt : Nat
  cplx : Bool
deriving DecidableEq, Repr

/-- An operator entry (Table 8.3). -/
structure OpE where
  code : Nat
  fmt : Nat
  inA : Nat
  inB : Nat
  out : Nat
  out2 : Nat
  len : Nat
  p0 : Nat
  p1 : Nat
  p2 : Nat
  p3 : Nat
  inOfs : Nat
  outOfs : Nat
deriving DecidableEq, Repr

/-- A chain image (Table 8.1). -/
structure Image where
  trigger : Nat
  resetAtArm : Bool
  win : Nat
  hop : Nat
  deadline : Nat
  stateBytes : Nat
  origin : Nat
  bufs : List BufD
  ops : List OpE
deriving DecidableEq, Repr

/-- A sample landed on a chain (R213, R225): index, label, label of the next, values, flags as in Table 8.5; with the last sample
of a synchronous cycle its descriptor (R89, R214). -/
structure Land where
  j : Nat
  ts : Nat
  nx : Nat
  vals : List Int
  flags : Nat
  desc : List Byte := []
deriving DecidableEq, Repr

/-- What a chain keeps from job to job: state slots, and the state of each operator. -/
structure ChSt where
  slots : List (List Int)
  ops : List (List Int)
deriving DecidableEq, Repr

/-- A loaded chain. A library chain keeps the parameters of its PQ_LOAD (R242) and the samples per cycle and cycles per
window of its feeds. -/
structure Chain where
  id : Nat
  ctx : Nat
  eng : Nat
  img : Image
  lib : Option (List Word)
  cycN : Nat
  cycC : Nat
  running : Bool
  parked : Bool
  startTs : Nat
  /-- No window after the ones in flight runs (R240, R316). -/
  stopping : Bool
  /-- The newest window that had begun to land at the stop. -/
  lastW : Option Nat
  rings : List (List Land)
  nextW : Option Nat
  lastSeq : Option Nat
  /-- WEND and WLEN (ns) of the last commit. -/
  lastEnd : Nat
  lastLen : Nat
  committed : Nat
  abandoned : Nat
  rerun : Nat
  hostRuns : Nat
  st : ChSt
  cjob : Nat
  load : Nat
  ready : Nat
  mirror : Nat
  outUnits : Nat
deriving DecidableEq, Repr

/-- A map delta (R261): map, column, first row and counts. -/
structure MapDelta where
  map : Nat
  col : Nat
  hits : List (Nat × Nat)
  clip : Nat
deriving DecidableEq, Repr

/-- A record that a job stages or the finisher forms: stream, KIND, values as binary32 words. -/
structure ResOut where
  stream : Nat
  kind : Nat
  vals : List Nat
deriving DecidableEq, Repr

/-- The staged outputs of a job (R226). -/
structure Staged where
  st : ChSt
  maps : List MapDelta
  res : List ResOut
  bns : List (Nat × Nat)
  host : List (Nat × Nat × List Byte)
  bytes : Nat
  ovr : Bool
deriving DecidableEq, Repr

/-- A job (R222): 0 ready, 1 running, 2 sealed, 3 in flight on a fenced engine. -/
structure Job where
  chain : Nat
  eng : Nat
  seq : Nat
  start : Nat
  wend : Nat
  flags : Nat
  cmd : Option (Nat × Nat)
  retried : Bool
  ins : List (List Int)
  state : Nat
  at_ : Nat
  out : Option Staged
deriving DecidableEq, Repr

/-- A record that a group member hands to the finisher (R249): its context and group, chain, window, its record, and when
it was committed, in ns of uptime. -/
structure MemRec where
  ctx : Nat
  group : Nat
  chain : Nat
  seq : Nat
  kind : Nat
  wend : Nat
  wlen : Nat
  flags : Nat
  vals : List Nat
  at_ : Nat
deriving DecidableEq, Repr

/-- A group at work (R250 to R253): first window, number and 10-min tick of the open 150/180-cycle group, the tick indices of
the open 10-min and 2-h intervals, each plus one, the last window aggregated in a cycle group and in a 10-min interval, the last
window opened for part 2, and the windows that wait for it. -/
structure Grp where
  ctx : Nat
  group : Nat
  base : Nat
  number : Nat
  t1 : Nat
  t10 : Nat
  t120 : Nat
  last1 : Option Nat
  last2 : Option Nat
  opened : Option Nat
  open2 : List Nat
deriving DecidableEq, Repr

/-- What a 10-min interval leaves for the 2-h one (R251, R254): chain, kind, tick index, values, flags. -/
structure AggRow where
  ctx : Nat
  group : Nat
  chain : Nat
  kind : Nat
  idx : Nat
  vals : List Nat
  flags : Nat
deriving DecidableEq, Repr

/-- A FLICKER member's share of the finisher (R254): the histogram at the last tick, that tick, whether the next Pst is
unsettled, and the Pst values formed with their ticks. -/
structure FlickAcc where
  chain : Nat
  copy : List Int
  tick : Nat
  fresh : Bool
  psts : List (Nat × Nat)
deriving DecidableEq, Repr

/-- A map's epoch state (R262): T0, the epoch that is next to become final, the pass that runs with its end, when the
clear starts and of which bank, and whether MAP_LATE was raised since enabling. -/
structure MapSt where
  t0 : Option Nat
  epoch : Nat
  passEnd : Option Nat
  clearAt : Option (Nat × Nat)
  clearing : Option Nat
  lateRaised : Bool
  /-- MAP_CLEAR and enabling clear the banks before T0. -/
  zero : Bool
deriving DecidableEq, Repr

/-- The engines. -/
structure Eng where
  chains : List Chain
  jobs : List Job
  /-- The spare held by each barn, its activation in progress with the engine it replaces (R230, R232). -/
  spare : List (Option Nat)
  act : List (Option Nat)
  fenced : List Nat
  testing : List (Nat × Nat × Nat)
  predict : List Nat
  /-- Times of corrected local-memory errors, by engine, in ns of uptime. -/
  ces : List (Nat × Nat)
  raised : List (Nat × Nat)
  /-- Result records that wait in Watch (R228), and finisher records (R256), with their streams and WENDs. -/
  chute : List (Nat × Nat × List Byte)
  held : List (Nat × Nat × List Byte)
  /-- Member records that the finisher has yet to take, and those it keeps. -/
  recs : List MemRec
  wins : List MemRec
  grps : List Grp
  aggs : List AggRow
  flicks : List FlickAcc
  /-- PQ_LOST was raised since entering Watch. -/
  lostTold : Bool
  maps : List MapSt
deriving DecidableEq, Repr

def ChSt.reset : ChSt := { slots := List.replicate 8 [], ops := List.replicate 16 [] }

def MapSt.reset : MapSt :=
  { t0 := none, epoch := 0, passEnd := none, clearAt := none, clearing := none, lateRaised := false, zero := false }

/-- The engines after reset (R238, R266). -/
def Eng.reset : Eng :=
  { chains := [], jobs := [], spare := (List.range 12).map (fun b => some (8 * b + 7)), act := List.replicate 12 none,
    fenced := [], testing := [], predict := [], ces := [], raised := [], chute := [], held := [], recs := [], wins := [],
    grps := [], aggs := [], flicks := [], lostTold := false, maps := List.replicate 16 MapSt.reset }

end Sys2Proof.Machine
end

