-- ==== Sys2Proof/Machine/TyFcp.lean ====
section
/-!
DEFINITION. The state of the command protocol (chapter 10), of the error log and Containment (chapter 18) and of the
Sheaf: functions, contexts, queue pairs, commands in flight, event chutes, record chutes, the log, open tags.
-/

namespace Sys2Proof.Machine

/-- Status codes of Table 10.5 (R286). -/
inductive Status where
  | ok | acceptedPending | badOpcode | badParam | misaligned | notPermitted | noBudget | contractBroken | notRetained
  | timeout | aborted | deferred | hwError | poisoned
deriving DecidableEq, Repr

/-- What a command in flight waits for. -/
inductive WaitKind where
  | fetched | fenced | run | drainPair | capInit | recordEntry | stateEntry | cspi | laneTest | regPoll | snapFire
  | corr | dsync | anchor | arm | chainDrain | chainRun | unfence | guard | mapPass | dmaHalt | dmaClose | dmaCopy
  | cmpJob | cmpAbort | memTrain | memSpare | memRelease | clkGlide | tbsAck | timeSet | ppsOut | disMode | disLayer
  | disFlip | disLut | disCrc | mcvInject | mcvCal | mcvSeq | mcvDac | mcvCfg | rebuild | claimRead | admission | patch
  | sysref | intakeStart | segInfo | storeStop | trgApply | psWant | disTrain | mapWait | memCfg
deriving DecidableEq, Repr

/-- A command from its fetch to its final completion (R284, R285). -/
structure Inflight where
  func : Nat
  qid : Nat
  tag : Nat
  ctx : Nat
  op : Nat
  quiet : Bool
  urgent : Bool
  fence : Bool
  kind : WaitKind
  key : Nat
  due : Nat
  discard : Bool
  dws : List Word
deriving DecidableEq, Repr

/-- The states of a pair as DB_STATE reads them (Table 10.10). -/
inductive PairState where
  | running | error | draining
deriving DecidableEq, Repr

/-- A queue pair (R276, R277, R280, R281). -/
structure QPair where
  qid : Nat
  func : Nat
  index : Nat
  urgent : Bool
  sqSize : Nat
  cqSize : Nat
  sqBase : Nat
  cqBase : Nat
  vector : Nat
  irqCount : Nat
  irqTime : Nat
  sqHead : Nat
  sqTail : Nat
  cqHead : Nat
  cqTail : Nat
  phase : Bool
  unreleased : Nat
  unsignalled : Nat
  firstAt : Nat
  st : PairState
deriving DecidableEq, Repr

/-- An event on its way to a completion queue (R288, R289). -/
structure Ev where
  ctx : Nat
  code : Nat
  d : List Word
deriving DecidableEq, Repr

/-- A PCIe function: its BAR4 admin block, MSI-X state, event chute and denied-write bookkeeping (R270, R272, R289,
R297). -/
structure Fn where
  enabled : Bool
  regCtx : Nat
  aqSqBase : Nat
  aqCqBase : Nat
  aqSize : Word
  aqCtrl : Word
  aqError : Bool
  masked : List Nat
  msixPending : List Nat
  chute : List Ev
  lostFlag : Bool
  denyAt : Option Nat
  denyFirst : Nat
  denyCount : Nat
  bar2Gib : Nat
deriving DecidableEq, Repr

/-- An open context (R273, R274, R288). -/
structure Ctx where
  id : Nat
  func : Nat
  priv : Nat
  route : Option Nat
  mask : Nat
  broken : Bool
deriving DecidableEq, Repr

/-- The last completion formed: queue ID, tag, opcode, status, the four result dwords and DUP_TAG. -/
structure Done where
  qid : Nat
  tag : Nat
  op : Nat
  st : Status
  r : List Word
  dup : Bool
deriving DecidableEq, Repr

/-- The command protocol's state. -/
structure Fcp where
  fns : List Fn
  ctxs : List Ctx
  pairs : List QPair
  inflight : List Inflight
  lastDone : Option Done
  msgs : List (Nat × Nat)
  /-- The pair whose turn it is in the round robin, and the commands of its turn (R278). -/
  rrCur : Nat
  rrCount : Nat
  /-- How often commands have lost their pair: the model's own numbering of them. -/
  orphans : Nat
  patchNew : Option Nat
  /-- The image of the accepted patch that is not yet in force (R294). -/
  patchImg : List Byte
  /-- The patch in force, in CC0 memory, and its copy in CC1 to CC3 memory (R25, Table 1.3). -/
  cc0 : List Byte
  ccRun : List Byte
  /-- The PCI revision ID of every function's configuration space (R38). -/
  pciRev : Nat
deriving DecidableEq, Repr

/-- An error record (Table 18.2, R488); SEQ and ACKED are filled in when it is stored. -/
structure ErrRec where
  ts : Nat
  blk : Nat
  cls : Nat
  typ : Nat
  master : Nat
  lostBefore : Bool
  injected : Bool
  acked : Bool
  escalated : Bool
  resource : Nat
  detail : Nat
  linkSeq : Nat
  seq : Nat
deriving DecidableEq, Repr

/-- A slot of the log (R492): the record, and whether a LOG_UE destroyed it (R499). -/
structure LogSlot where
  record : ErrRec
  destroyed : Bool
deriving DecidableEq, Repr

/-- An open tag (R493). -/
structure Tag where
  blk : Nat
  resource : Nat
  injected : Bool
  seq : Option Nat
deriving DecidableEq, Repr

/-- ERR: record chutes, overflow flags, log by slot, open tags, Containment (R490 to R499). -/
structure Err where
  chutes : List (List ErrRec)
  lost : List Bool
  log : List (Nat × LogSlot)
  tags : List Tag
  /-- SEQs of unacknowledged uncorrected records (R492). -/
  unacked : List Nat
  contained : Bool
  firstFatal : Option ErrRec
  cc0Fatal : Option ErrRec
  rrNext : Nat
  pstateBefore : Nat
deriving DecidableEq, Repr

/-- SHF: the decided fire that waits for T_f, and the addresses latched at the last fire (R501 to R505). -/
structure Shf where
  decided : Option (Nat × Nat)
  /-- When the fire was decided: triggers of the same TCLK cycle make one fire (R503). -/
  decidedAt : Option Nat
  latched : List Nat
  everFired : Bool
  alarmArmed : Bool
  outEnd : Nat
deriving DecidableEq, Repr

/-- A PCIe function after power-on (Table 10.9, Table 10.10). -/
def Fn.reset (f : Nat) : Fn :=
  { enabled := decide (f = 0), regCtx := 0, aqSqBase := 0, aqCqBase := 0, aqSize := 0x003F003F, aqCtrl := 0,
    aqError := false, masked := [], msixPending := [], chute := [], lostFlag := false, denyAt := none,
    denyFirst := 0, denyCount := 0, bar2Gib := 1 }

/-- Context 0 after power-on: all four privileges (R274). -/
def Ctx.zero : Ctx := { id := 0, func := 0, priv := 15, route := none, mask := 0, broken := false }

/-- The command protocol after power-on (Table 10.9). -/
def Fcp.reset : Fcp :=
  { fns := (List.range 17).map Fn.reset, ctxs := [Ctx.zero], pairs := [], inflight := [], lastDone := none,
    msgs := [], rrCur := 0, rrCount := 0, orphans := 0, patchNew := none, patchImg := [], cc0 := [], ccRun := [],
    pciRev := 0x11 }

/-- ERR after power-on. -/
def Err.reset : Err :=
  { chutes := List.replicate 17 [], lost := List.replicate 17 false, log := [], tags := [], unacked := [], contained := false,
    firstFatal := none, cc0Fatal := none, rrNext := 0, pstateBefore := 0 }

/-- SHF after power-on (R504). -/
def Shf.reset : Shf :=
  { decided := none, decidedAt := none, latched := [], everFired := false, alarmArmed := false, outEnd := 0 }

end Sys2Proof.Machine
end

