-- ==== Sys2Proof/Machine/TyJin.lean ====
section
/-!
DEFINITION. The state of the converter intake behind its registers (chapter 2), and of the clocks that its rules read.
-/

namespace Sys2Proof.Machine

/-- An octet of a lane, and whether it is fill (R56). -/
structure Octet where
  byte : Byte
  fill : Bool
deriving DecidableEq, Repr

/-- A lane (R50, R55): validity of the last headers, newest first; valid headers in a row; blocks since the last
marker, `none` before one; whether the extended multiblock that arrives, and the one before it, hold a filled block (R58);
the elastic buffer, oldest block first, each with its place in its multiblock; octets released and not yet framed. -/
structure Lane where
  headers : List Bool
  good : Nat
  sinceMark : Option Nat
  embFill : Bool
  lastFill : Bool
  buf : List (Nat × List Octet)
  octs : List Octet
deriving DecidableEq, Repr

/-- A converter sample on its way to the filter unit (R41, R52, R56). -/
structure Sample where
  code : Int
  valid : Bool
  fill : Bool
  ovr : Bool
  /-- Index 0 of an ARM (R52). -/
  first : Bool := false
deriving DecidableEq, Repr

/-- A link (R50, R52, R56 to R58): filled until restart; real data flow; the block period that is released next, counted
from the LEMC's alignment; extended multiblocks seen and the numbers of those that mismatched; the sample index that is next;
samples released and not yet taken by the filter unit, per channel. -/
structure Link where
  dead : Bool
  live : Bool
  blk : Nat
  embNo : Nat
  mism : List Nat
  idx : Nat
  out : List (List Sample)
deriving DecidableEq, Repr

/-- A CSPI transfer that waits its turn (R63): chip select, mode, divider, bytes out. -/
structure CspiJob where
  cs : Nat
  mode : Nat
  div : Nat
  bytes : List Byte
  qid : Nat
  tag : Nat
deriving DecidableEq, Repr

/-- The intake. -/
structure Jin where
  lanes : List Lane
  links : List Link
  /-- SYSREF pulses of the burst not yet launched (R47). -/
  pulses : Nat
  /-- When the next pulse is due, and when the present pulse ends, in ns of uptime. -/
  nextPulse : Nat
  pulseEnd : Nat
  /-- A pulse launched since RUN was set has not reached the LEMC (R49). -/
  pulseNew : Bool
  /-- The burst or train has launched a pulse, and the pulse launched last was not its first (R48). -/
  begun : Bool
  later : Bool
  /-- TS96 of an LEMC edge once aligned (R49). -/
  lemc : Option Nat
  /-- RBD is chosen by INTAKE_START (0xFF of INTAKE_CONFIG). -/
  autoRbd : Bool
  /-- Samples carry VALID (R52). -/
  valid : Bool
  testMask : Nat
  /-- Index ranges reported to CAP as suspect (R58): link, first index, end. -/
  suspects : List (Nat × Nat × Nat)
  /-- Applies of corrections reported to CAP (R72): unit, first index, its labelled time. -/
  corrs : List (Nat × Nat × Nat)
  cspi : List CspiJob
deriving DecidableEq, Repr

/-- A lane that has received nothing. -/
def Lane.reset : Lane := { headers := [], good := 0, sinceMark := none, embFill := false, lastFill := false, buf := [], octs := [] }

/-- A link that has delivered nothing. -/
def Link.reset : Link :=
  { dead := false, live := false, blk := 0, embNo := 0, mism := [], idx := 0, out := [[], [], [], []] }

/-- The intake after reset (R61). -/
def Jin.reset : Jin :=
  { lanes := List.replicate 24 Lane.reset, links := List.replicate 12 Link.reset, pulses := 0, nextPulse := 0,
    pulseEnd := 0, pulseNew := false, begun := false, later := false, lemc := none, autoRbd := false, valid := false, testMask := 0, suspects := [], corrs := [], cspi := [] }

end Sys2Proof.Machine
end

