-- ==== Sys2Proof/Machine/Chute.lean ====
section
/-!
DEFINITION. The chute (R322 to R329): what one cycle of its clock does with a push, a pop, the requests of retention and
a flush; packets; rewinds. The mailbox directions are chutes of this kind (R330).
-/

namespace Sys2Proof.Machine

/-- A chute of `depth` entries. -/
structure Chute (α : Type) where
  depth : Nat
  /-- Committed entries from REL on; the first `rd` of them are popped and not yet released. -/
  items : List α
  rd : Nat
  mark : Nat
  /-- The words of the open packet. -/
  opened : List α
  /-- The rest of the present packet is accepted and dropped (R327, R329). -/
  dropping : Bool
  full : Bool
  drops : Nat
  badPkts : Nat
  oversize : Bool
deriving DecidableEq, Repr

/-- What reaches a chute in one cycle: a word with LAST and BAD, a pop, and the requests of R328 and R329. -/
structure ChuteReq (α : Type) where
  push : Option (α × Bool × Bool) := none
  pop : Bool := false
  release : Bool := false
  mark : Bool := false
  rewind : Bool := false
  flush : Bool := false
deriving DecidableEq, Repr

/-- An empty chute. -/
def Chute.empty {α : Type} (n : Nat) : Chute α :=
  { depth := n, items := [], rd := 0, mark := 0, opened := [], dropping := false, full := false, drops := 0, badPkts := 0,
    oversize := false }

/-- USED counts every occupied entry (R323). -/
def Chute.used {α : Type} (c : Chute α) : Nat := c.items.length + c.opened.length

/-- Entries that can be popped. -/
def Chute.count {α : Type} (c : Chute α) : Nat := c.items.length - c.rd

/-- The head, when HEAD_VALID is 1. -/
def Chute.head? {α : Type} (c : Chute α) : Option α := c.items[c.rd]?

/-- RELEASE, MARK and REWIND, in this order (R328). -/
def Chute.retain {α : Type} (c : Chute α) (q : ChuteReq α) : Chute α :=
  let c1 := if q.release then { c with items := c.items.drop c.rd, mark := c.mark - c.rd, rd := 0 } else c
  let c2 := if q.mark then { c1 with mark := c1.rd } else c1
  if q.rewind then { c2 with rd := c2.mark } else c2

/-- The pop of a cycle: the entry, and the chute after it. -/
def Chute.popOf {α : Type} (c : Chute α) (retention pop : Bool) : Option α × Chute α :=
  match pop, c.head? with
  | true, some x => (some x, if retention then { c with rd := c.rd + 1 } else { c with items := c.items.drop 1 })
  | _, _ => (none, c)

/-- The push of a cycle, judged by the FULL of its start: whether it is accepted, and the chute after it. -/
def Chute.pushOf {α : Type} (c : Chute α) (full packet : Bool) (x : α) (last bad : Bool) : Bool × Chute α :=
  if c.dropping then (true, { c with drops := c.drops + 1, dropping := !last })
  else if packet && c.opened.length ≥ c.depth then
    (true, { c with opened := [], drops := c.drops + 1, oversize := true, dropping := !last })
  else if full then (false, c)
  else if !packet then (true, { c with items := c.items ++ [x] })
  else if !last then (true, { c with opened := c.opened ++ [x] })
  else if bad then (true, { c with opened := [], badPkts := c.badPkts + 1 })
  else (true, { c with items := c.items ++ c.opened ++ [x], opened := [] })

/-- FULL is registered at the end of the cycle (R323). -/
def Chute.close {α : Type} (c : Chute α) : Chute α := { c with full := decide (c.used ≥ c.depth) }

/-- A flush (R329). -/
def Chute.flushed {α : Type} (c : Chute α) (packet : Bool) (push : Option (α × Bool × Bool)) : Chute α :=
  let midway := !c.opened.isEmpty || c.dropping
  match push with
  | none => { c with items := [], rd := 0, mark := 0, opened := [], dropping := packet && midway, full := false }
  | some (_, last, _) =>
    { c with items := [], rd := 0, mark := 0, opened := [], dropping := packet && !last, full := false, drops := c.drops + 1 }

/-- One cycle: the entry popped, whether the push was accepted, and the chute at its end. -/
def Chute.cycle {α : Type} (packet retention : Bool) (c : Chute α) (q : ChuteReq α) : Option α × Bool × Chute α :=
  if q.flush then (none, q.push.isSome, c.flushed packet q.push)
  else
    let p := (c.retain q).popOf retention q.pop
    match q.push with
    | none => (p.1, false, p.2.close)
    | some (x, last, bad) =>
      let r := p.2.pushOf c.full packet x last bad
      (p.1, r.1, r.2.close)

end Sys2Proof.Machine
end

