-- ==== Sys2Proof/Machine/TyMbx.lean ====
section
/-!
DEFINITION. The state of the mailboxes behind their registers (chapter 12).
-/

namespace Sys2Proof.Machine

/-- A message of four words (R330). -/
abbrev Msg := List Nat

/-- The staging of one side: the master that owns it, and the words written so far (R332). -/
structure Staging where
  owner : Nat
  words : List (Option Nat)
deriving DecidableEq, Repr

/-- A mailbox set: its two chutes, the staging of each side, the backlog of device firmware, the SEQ of its next message,
and when the 10 ms of R337 began. -/
structure MSet where
  inb : Chute Msg
  outb : Chute Msg
  stIn : Option Staging
  stOut : Option Staging
  backlog : List Msg
  seq : Nat
  fullAt : Option Nat
deriving DecidableEq, Repr

/-- A set after reset (R342). -/
def MSet.reset : MSet :=
  { inb := Chute.empty 8, outb := Chute.empty 8, stIn := none, stOut := none, backlog := [], seq := 1, fullAt := none }

/-- The mailboxes. -/
structure Mbx where
  sets : List MSet
deriving DecidableEq, Repr

def Mbx.reset : Mbx := { sets := List.replicate 32 MSet.reset }

end Sys2Proof.Machine
end

