-- ==== Sys2Proof/Machine/TyMcv.lean ====
section
/-!
DEFINITION. The state of the metrology converter behind its registers (chapter 17).
-/

namespace Sys2Proof.Machine

/-- Where a conversion stands (R470): dwell; waiting for the report that starts its span; span; run-down; discharge of an
abandoned one. -/
inductive McvPhase where
  | dwell | report | span | rundown | discharge
deriving DecidableEq, Repr

/-- A conversion: kind as in Table 17.3 with the entry; its CFG and WIN words; the command that waits for it, by the model's
number (0 none); phase and when the dwell ends in uptime; start of the span as TS96 and in uptime, its end in uptime where it
is timed, the reports still to come where it is not; its length in ns; DAC code; flags. -/
structure McvConv where
  kind : Nat
  entry : Nat
  cfg : Nat
  win : Nat
  cmd : Nat
  phase : McvPhase
  dwellEnd : Nat
  start : Nat
  startUp : Nat
  spanEnd : Option Nat
  reports : Nat
  len : Nat
  dac : Nat
  coast : Bool
  suspect : Bool
deriving DecidableEq, Repr

/-- A request for an injected conversion: its words, or those of MCV_INJ_CFG and MCV_INJ_WIN, and its command. -/
structure InjReq where
  words : Option (Nat × Nat)
  cmd : Nat
deriving DecidableEq, Repr

/-- A calibration: gain mask and command of a request; for the one that runs, the steps to come as gain and source, the raw
ZERO of the gain, gains passed and failed. -/
structure CalReq where
  mask : Nat
  cmd : Nat
deriving DecidableEq, Repr

structure CalRun where
  req : CalReq
  steps : List (Nat × Nat)
  zero : Int
  passed : Nat
  failed : Nat
deriving DecidableEq, Repr

/-- The converter. -/
structure Mcv where
  /-- The MCV enable in CC0 memory (R531). -/
  enable : Bool
  conv : Option McvConv
  inj : Option InjReq
  /-- The MCV_INJECT that waits for MCV_INJ_AT. -/
  timed : Option InjReq
  cal : Option CalReq
  run : Option CalRun
  /-- A single pass is running (R476). -/
  pass : Bool
  /-- Result records, oldest first (R475). -/
  results : List (List Byte)
  lostRaised : Bool
  /-- Last accepted period in 2^-8 ns, and when its report came, in uptime (R472). -/
  period : Option Nat
  lastRep : Nat
  /-- Gains whose constants come from a calibration (R473). -/
  passed : Nat
  /-- End of the last calibration in uptime; automatic requests made since (R479). -/
  calUp : Nat
  askedPeriod : Bool
  askedTemp : Bool
  /-- Entries with a parity error (R484). -/
  bad : List Nat
  /-- Commands numbered so far: the model's own. -/
  next : Nat
deriving DecidableEq, Repr

/-- The converter after reset. -/
def Mcv.reset : Mcv :=
  { enable := false, conv := none, inj := none, timed := none, cal := none, run := none, pass := false, results := [],
    lostRaised := false, period := none, lastRep := 0, passed := 0, calUp := 0, askedPeriod := false, askedTemp := false,
    bad := [], next := 1 }

end Sys2Proof.Machine
end

