-- ==== Sys2Proof/Machine/TyMem.lean ====
section
/-!
DEFINITION. The DRAM subsystem's state behind its registers (chapter 14): the address map in effect, the channels with
their refresh debts and write queues, initialisation, poison, retired ranks.
-/

namespace Sys2Proof.Machine

/-- The map in effect (R387, R388): order, hash, x8 devices, density code, ranks in service. -/
structure MemMap where
  order : Nat
  hash : Bool
  x8 : Bool
  density : Nat
  ranks : Nat
deriving DecidableEq, Repr

/-- Where a granule lies (R387). -/
structure MemLoc where
  ch : Nat
  sc : Nat
  bg : Nat
  ba : Nat
  col : Nat
  row : Nat
  rank : Nat
deriving DecidableEq, Repr

/-- C of R387. -/
def MemMap.colBits (m : MemMap) : Nat := if m.x8 then 6 else 7

/-- The radix of BA (R387). -/
def MemMap.banks (m : MemMap) : Nat := if m.x8 && m.density == 0 then 2 else 4

/-- The device's row count: its density over 8 bank groups, the banks of a group and a page of 1 KiB per device. -/
def MemMap.rows (m : MemMap) : Nat := (match m.density with | 0 => 2 | 1 => 3 | _ => 4) * 1048576 / (8 * m.banks)

/-- Granules of one row index of one rank over every channel, subchannel and bank. -/
def MemMap.rowSpan (m : MemMap) : Nat := 8 * 2 * 8 * m.banks * 2 ^ m.colBits

/-- Bytes of one rank (R387, R389). -/
def MemMap.rankBytes (m : MemMap) : Nat := 64 * m.rowSpan * (m.rows - 1)

/-- Installed capacity (R387). -/
def MemMap.capacity (m : MemMap) : Nat := m.rankBytes * m.ranks

/-- The decode of an address (R387, R388). -/
def MemMap.decode (m : MemMap) (a : Nat) : MemLoc :=
  let q := a / 64
  let top (v : Nat) := (v % (m.rows - 1), v / (m.rows - 1))
  let lo := if m.order = 0 then 4 else 2 ^ m.colBits
  let hi := 2 ^ m.colBits / lo
  let q1 := q / lo
  let q2 := q1 / 128
  let q3 := q2 / m.banks
  let (row, rank) := top (q3 / hi)
  let ch := q1 % 8
  let bg := q1 / 16 % 8
  { ch := if m.hash then ch ^^^ (row % 8) else ch, sc := q1 / 8 % 2, bg := if m.hash then bg ^^^ (row / 8 % 8) else bg,
    ba := q2 % m.banks, col := q % lo + lo * (q3 % hi), row := row, rank := rank }

/-- A granule that stands in a write queue (R392): subchannel, address, since when, in ns of uptime. -/
structure WqEnt where
  sc : Nat
  addr : Nat
  at_ : Nat
deriving DecidableEq, Repr

/-- A channel. -/
structure MChan where
  /-- Slots owed by each physical rank (R395), and the time of its last REF_BURST record (R396). -/
  owed : List Nat
  burstAt : List (Option Nat)
  wq : List WqEnt
  /-- Since when it is frozen, and its STATE before (R406). -/
  frozenAt : Option Nat
  before : Nat
  /-- Its drift check failed (R408). -/
  drift : Bool
  /-- The step and the physical rank that failed this training, which the spare is to replace (R404). -/
  failed : Option (Nat × Nat)
  /-- Physical rank by logical rank (R404). -/
  ranks : List Nat
deriving DecidableEq, Repr

/-- A training (R398, R400): when it began, whether it follows a power-on or pin reset, whether it includes step 2, and
the data rate that a change of MPLL asked for; 0 leaves the choice to R385. -/
structure Training where
  start : Nat
  fresh : Bool
  full : Bool
  rate : Nat
deriving DecidableEq, Repr

/-- The DRAM subsystem. -/
structure Mem where
  chans : List MChan
  map : MemMap
  /-- ORDER, HASH, INIT_RATE and rate limit for the next training, kept in CC0 memory (R388, R414). -/
  nextOrder : Nat
  nextHash : Nat
  nextInit : Nat
  limit : Nat
  training : Option Training
  /-- Initialisation (R401): the next byte to be initialised, 2 MiB regions done ahead of it, when it began. -/
  initPtr : Option Nat
  early : List Nat
  initStart : Nat
  /-- Poisoned granules (R402). -/
  poison : List Nat
  /-- Ranks retired in place, by channel and logical rank (R405). -/
  dead : List (Nat × Nat)
  /-- The next address to be scrubbed (R403). -/
  scrub : Nat
  /-- The data rate asked for by a CLK_SET that waits for a pattern-and-compare step, in MHz of the clock (R400). -/
  mpll : Option Nat
deriving DecidableEq, Repr

/-- A channel after reset. -/
def MChan.reset : MChan :=
  { owed := List.replicate 8 0, burstAt := List.replicate 8 none, wq := [], frozenAt := none, before := 0, drift := false,
    failed := none, ranks := [] }

/-- MEM after power-on: nothing is trained; ORDER 0, HASH 1, INIT_RATE 96 (Table 14.9). -/
def Mem.reset : Mem :=
  { chans := List.replicate 8 MChan.reset, map := { order := 0, hash := true, x8 := false, density := 0, ranks := 0 },
    nextOrder := 0, nextHash := 1, nextInit := 96, limit := 0, training := some { start := 0, fresh := true, full := true, rate := 0 },
    initPtr := none, early := [], initStart := 0, poison := [], dead := [], scrub := 0, mpll := none }

/-- Whether a granule belongs to a rank retired in place (R405). -/
def Mem.isDead (m : Mem) (a : Nat) : Bool :=
  if m.dead.isEmpty then false
  else
    let l := m.map.decode a
    m.dead.any (fun d => d.1 == l.ch && d.2 == l.rank)

/-- Drop the oldest entries of a subchannel's queue until `n` are left. -/
def wqDrain (sc n : Nat) (q : List WqEnt) : List WqEnt :=
  let mine := q.filter (fun e => e.sc == sc)
  q.filter (fun e => e.sc != sc || !(mine.take (mine.length - n)).contains e)

/-- A granule's write joins its subchannel's queue or replaces the one queued there (R393); at the high mark, where one is
given, the queue drains to the low mark (R392). -/
def wqPut (marks : Option (Nat × Nat)) (q : List WqEnt) (e : WqEnt) : List WqEnt :=
  let q1 := q.filter (fun x => x.addr != e.addr) ++ [e]
  match marks with
  | some (hi, lo) => if hi ≤ (q1.filter (fun x => x.sc == e.sc)).length then wqDrain e.sc lo q1 else q1
  | none => q1

/-- Granules that `n` bytes from `a` on touch. -/
def granSpan (a n : Nat) : List Nat := (List.range ((a + n + 63) / 64 - a / 64)).map (fun i => (a / 64 + i) * 64)

/-- What a write of `n` bytes at `a` does beside the data: a granule written whole is poisoned no longer (R402), a region
not yet initialised is initialised first (R401). -/
def Mem.wrote (m : Mem) (a n : Nat) : Mem :=
  let m1 := if m.poison.isEmpty then m else { m with poison := m.poison.filter (fun g => !(a ≤ g && g + 64 ≤ a + n)) }
  match m1.initPtr with
  | none => m1
  | some p =>
    let rs := (List.range ((a + n + 2097151) / 2097152 - a / 2097152)).map (fun i => a / 2097152 + i)
    { m1 with early := m1.early ++ rs.filter (fun r => p ≤ r * 2097152 && !m1.early.contains r) }

end Sys2Proof.Machine
end

