-- ==== Sys2Proof/Machine/TyPins.lean ====
section
/-!
DEFINITION. The pins whose level the block's own logic reads or drives (Table 19.1), and the test access port (R526).
-/

namespace Sys2Proof.Machine

/-- A pin's level. -/
inductive Level where
  | low | high | z
deriving DecidableEq, Repr

/-- The pins, and the selected JTAG instruction. While `released` is false every output is high-impedance, whatever its
field holds (R509). `disturbed` holds once EXTEST, CLAMP or HIGHZ has been selected since
the last pin or power-on reset (R528). -/
structure Pins where
  suppliesValid : Bool
  released : Bool
  resetN : Bool
  perstN : Bool
  wakeN : Bool
  snapIn : Bool
  testEn : Bool
  hpd : Bool
  snapOut : Level
  ppsOut : Level
  trigOut : Level
  sysref : Nat
  crefRunning : Bool
  edpVddEn : Bool
  edpBlEn : Bool
  cspiCsN : Nat
  ddrResetN : Nat
  clkreqLow : Bool
  /-- The code that MCV_DAC_OUT is driven with; none while it is high-impedance (R481). -/
  mcvDac : Option Nat
  tapIr : Nat
  /-- The cells of the boundary-scan register as last updated, the first one nearest TDI (R527); none before. -/
  scan : List Bool
  disturbed : Bool
deriving DecidableEq, Repr

/-- The pins after internal reset release (Table 19.1); the TAP selects IDCODE (Table 19.14). -/
def Pins.reset : Pins :=
  { suppliesValid := true, released := true, resetN := true, perstN := true, wakeN := true, snapIn := false,
    testEn := false,
    hpd := false, snapOut := .low, ppsOut := .low, trigOut := .z, sysref := 0, crefRunning := false, edpVddEn := false,
    edpBlEn := false, cspiCsN := 255, ddrResetN := 0, clkreqLow := false, mcvDac := none, tapIr := 1, scan := [],
    disturbed := false }

end Sys2Proof.Machine
end

