-- ==== Sys2Proof/Machine/TyTim.lean ====
section
/-!
DEFINITION. The state of edge timing behind its registers (chapter 6): inputs, storing sources, virtual edges,
fundamental-period outputs, measurement units.
-/

namespace Sys2Proof.Machine

/-- A timed edge: ball time, corrected timestamp (R159), level after it, SUSPECT. -/
structure TEdge where
  ball : Nat
  ts : Nat
  level : Bool
  susp : Bool
deriving DecidableEq, Repr

/-- An input (R159 to R164): accepted level, level at the ball, edges on their way to delivery oldest first, ball times
of the last edges, an edge that the last edge undid within the hold-off, chute entries at a time, the loss interval's start
and missed edges, calibration failed, first loss since ARM raised. -/
structure TInput where
  level : Bool
  raw : Bool
  pend : List TEdge
  recent : List Nat
  undone : Option TEdge
  chute : Nat
  chuteAt : Nat
  loss : Option Nat
  missed : Nat
  calBad : Bool
  parity : Bool
  lossRaised : Bool
deriving DecidableEq, Repr

/-- A transition record (Table 6.2). -/
structure TRec where
  ts : Nat
  level : Bool
  src : Nat
  susp : Bool
  kind : Nat
  data : Nat
  seq : Nat
deriving DecidableEq, Repr

/-- A storing source's bucket in 1/1000 token with its time in ns (that of LIN(16g) serves group g), its open gap with
the unstored records counted, when the last gap began, and its record number (R169, R170). -/
structure TStore where
  milli : Nat
  at_ : Nat
  gap : Option Nat
  gapTs : Nat
  seq : Nat
deriving DecidableEq, Repr

/-- An edge of a source with qualified storage that waits for the heart to say what STORE_Q is at its timestamp (R115,
R167). -/
structure QEdge where
  src : Nat
  ts : Nat
  level : Bool
  susp : Bool
deriving DecidableEq, Repr

/-- An edge of an input in a group with GROUP-mode inputs, on its way to coalescing (R168): `store` when the input itself
is in GROUP mode, else only its level counts. -/
structure TGEdge where
  n : Nat
  ts : Nat
  level : Bool
  susp : Bool
  store : Bool
deriving DecidableEq, Repr

/-- A group (R168): its inputs' levels up to the edges coalesced, the opening time of the record that edges may still join
and whether it was stored. -/
structure TGroup where
  levels : Nat
  open_ : Option (Nat × Bool)
deriving DecidableEq, Repr

/-- A virtual edge (R165): comparator, to be set silently, last evaluated value with its time and flags, loss open. -/
structure TVe where
  u : Bool
  init : Bool
  prev : Option (Int × Nat × Bool)
  lossOpen : Bool
deriving DecidableEq, Repr

/-- A fundamental-period output (R173). -/
structure TFp where
  ePrev : Option Nat
  pPrev : Option Nat
deriving DecidableEq, Repr

/-- A result of a measurement unit (R175). -/
structure MuRes where
  empty : Bool
  susp : Bool
  loss : Bool
  orphan : Nat
  value : Nat
  n : Nat
  sum : Nat
  sum2 : Nat
  mn : Nat
  mx : Nat
  endTs : Nat
deriving DecidableEq, Repr

/-- What a gate has gathered. -/
structure MuAcc where
  n : Nat
  sum : Nat
  sum2 : Nat
  mn : Nat
  mx : Nat
  susp : Bool
  loss : Bool
  orphan : Nat
deriving DecidableEq, Repr

/-- An edge, or the start of a loss interval, that waits for its turn in a measurement unit (R174). -/
structure TMuEv where
  src : Nat
  ts : Nat
  level : Bool
  susp : Bool
  loss : Bool
deriving DecidableEq, Repr

/-- A measurement unit (R174, R175): events waiting for their turn in timestamp order, open START with its SUSPECT, the
fall of a DUTY period, the STOP of a PHASE period, gate open, gate start, gathered values, gates closed and not yet
posted, results, overrun raised. -/
structure TMu where
  q : List TMuEv
  open_ : Option (Nat × Bool)
  fall : Option (Nat × Bool)
  stop : Option (Nat × Bool)
  gateOpen : Bool
  gateStart : Nat
  acc : MuAcc
  closed : List MuRes
  res : List MuRes
  raised : Bool
  parity : Bool
deriving DecidableEq, Repr

/-- A fundamental-period report on its way (R173): output, P in 2^-8 ns, E, time it reaches its consumers. -/
structure Report where
  fp : Nat
  p : Nat
  e : Nat
  due : Nat
deriving DecidableEq, Repr

/-- Edge timing. -/
structure Tim where
  ins : List TInput
  stores : List TStore
  groups : List TGroup
  /-- Edges that wait for coalescing, in timestamp order (R168). -/
  gq : List TGEdge
  /-- Qualified edges that wait for the heart, in timestamp order. -/
  qual : List QEdge
  /-- Virtual edges and fundamental-period outputs whose configuration has a parity error (R180). -/
  badVes : List Nat
  badFps : List Nat
  ves : List TVe
  fps : List TFp
  mus : List TMu
  mq : List TRec
  /-- When the merge chute last came down to 2048 entries (R170). -/
  roomAt : Nat
  reports : List Report
  gapRaised : List Nat
  /-- ARM time of the present capture; the disarm time once disarmed. -/
  armTs : Nat
  stopTs : Option Nat
deriving DecidableEq, Repr

def TInput.reset : TInput :=
  { level := false, raw := false, pend := [], recent := [], undone := none, chute := 0, chuteAt := 0, loss := none, missed := 0,
    calBad := false, parity := false, lossRaised := false }

def TStore.reset : TStore := { milli := 0, at_ := 0, gap := none, gapTs := 0, seq := 0 }

def MuAcc.zero : MuAcc := { n := 0, sum := 0, sum2 := 0, mn := 0, mx := 0, susp := false, loss := false, orphan := 0 }

def TMu.reset : TMu :=
  { q := [], open_ := none, fall := none, stop := none, gateOpen := false, gateStart := 0, acc := MuAcc.zero, closed := [],
    res := [], raised := false, parity := false }

/-- Edge timing after reset (R179). -/
def Tim.reset : Tim :=
  { ins := List.replicate 65 TInput.reset, stores := List.replicate 96 TStore.reset, groups := List.replicate 4 { levels := 0, open_ := none },
    gq := [], qual := [], badVes := [], badFps := [], roomAt := 0,
    ves := List.replicate 16 { u := false, init := true, prev := none, lossOpen := false },
    fps := List.replicate 8 { ePrev := none, pPrev := none }, mus := List.replicate 16 TMu.reset, mq := [],
    reports := [], gapRaised := [], armTs := 0, stopTs := some 0 }

end Sys2Proof.Machine
end

