-- ==== Sys2Proof/Machine/TyTrg.lean ====
section
/-!
DEFINITION. The state of the trigger block behind its registers (chapters 4 and 5): top-note measurements, the heart's
inputs and timers, base notes, placement, TRIG_OUT.
-/

namespace Sys2Proof.Machine

/-- An open measurement of a top note (R102, R103): its start, whether a runt still qualifies, whether a TIMEOUT has
fired, flags of its samples. -/
structure Meas where
  start : Nat
  ok : Bool
  fired : Bool
  susp : Bool
  ovr : Bool
deriving DecidableEq, Repr

/-- A top note (R100 to R106); `redo`: applies that change its values and that it has not met yet (R126). -/
structure TNote where
  init : Bool
  redo : List Nat
  parity : Bool
  up : Option Meas
  dn : Option Meas
  prev : Option (Int × Int × Nat)
  lastTick : Option Nat
deriving DecidableEq, Repr

/-- An event at the heart input (R107, R108): selector, event time, the tick it applies in, trigger point, flags as in
Table 5.5. -/
structure HEv where
  sel : Nat
  ts : Nat
  tick : Nat
  point : Option Nat
  flags : Nat
deriving DecidableEq, Repr

/-- A decision (R96): FLAGS in the order of Table 5.5, INTERP lowest. -/
structure Dec where
  ts : Nat
  cause : Nat
  branch : Nat
  flags : Nat
  point : Option Nat
deriving DecidableEq, Repr

/-- A decision on its way to placement (R116, R117, R138): the nanosecond in which it gets there, and its turn among those
of one nanosecond: the aligned one 0, base note i at i + 1 (R146). -/
structure PDec where
  due : Nat
  turn : Nat
  dec : Dec
deriving DecidableEq, Repr

/-- A segment placement keeps until its hand-off: capture and number, the context that armed, whether it is the last that
SEG_LIMIT allows, T_s, P_s, hand-off state, overlaps, hold-off (R143 to R145, R148). -/
structure PSeg where
  cap : Nat
  no : Nat
  ctx : Nat
  last : Bool
  tS : Nat
  pS : Nat
  handAt : Nat
  handed : Bool
  ovl : Nat
  firstOvl : Nat
  holdNs : Nat
  holdEv : Nat
  holds : Nat
  released : Bool
deriving DecidableEq, Repr

/-- A base-note value record (Table 5.1). -/
structure BnRec where
  value : Nat
  wend : Nat
  wlen : Nat
  bn : Nat
  flags : Nat
  engine : Nat
  seq : Nat
deriving DecidableEq, Repr

/-- A base note (R132 to R137); `redo` as for a top note. -/
structure BNote where
  lastSeq : Option Nat
  redo : List Nat
  init : Bool
  vPrev : Option Nat
  /-- WEND − WLEN of the first value of the run. -/
  runStart : Nat
  reached : Bool
  lateRaised : Bool
  /-- Values in the chute of 16, at a time in ns (R132). -/
  chute : Nat
  chuteAt : Nat
deriving DecidableEq, Repr

/-- A TRIG_OUT edge to be launched (R124): when, its event time, what it does (0 pulse, 1 set, 2 clear), and whether its
time had passed when it was decided. -/
structure OutEdge where
  at_ : Nat
  ts : Nat
  act : Nat
  late : Bool
deriving DecidableEq, Repr

/-- The trigger block. -/
structure Trg where
  notes : List TNote
  /-- Ticks of half a nanosecond: the next one the heart evaluates (R108). -/
  tick : Nat
  evs : List HEv
  /-- Level changes of the notes not yet seen by the heart, and the levels it sees. -/
  lvls : List (Nat × Nat × Bool)
  tl : Nat
  timers : List (Option Nat)
  /-- The heart resets in the first tick at or after each of these times (R144). -/
  resetAt : List Nat
  /-- STORE_Q by the time from which it holds, newest first (R115). -/
  storeQ : List (Nat × Bool)
  /-- Ticks whose direct decision has entered the pipeline (R146). -/
  fired : List Nat
  /-- Decisions in the pipeline, those of one turn in order of entry (R116, R117, R120). -/
  pipe : List PDec
  /-- Heart states whose store has a parity error act as terminal (R128). -/
  parityHs : List Nat
  bns : List BNote
  segs : List PSeg
  holdsBefore : Nat
  limited : Bool
  raised : List Nat
  applyAt : Option Nat
  /-- The applies since ARM, oldest first: T_apply, and the values in effect before it (R126, R137). -/
  past : List (Nat × List (Nat × BitVec 32))
  armAt : Option Nat
  armCtx : Nat
  out : List OutEdge
  outHigh : Bool
  outEnd : Option Nat
deriving DecidableEq, Repr

def TNote.reset : TNote :=
  { init := true, redo := [], parity := false, up := none, dn := none, prev := none, lastTick := none }

def BNote.reset : BNote :=
  { lastSeq := none, redo := [], init := true, vPrev := none, runStart := 0, reached := false, lateRaised := false,
    chute := 0, chuteAt := 0 }

/-- The trigger block after reset (R127, R154). -/
def Trg.reset : Trg :=
  { notes := List.replicate 64 TNote.reset, tick := 0, evs := [], lvls := [], tl := 0, timers := List.replicate 4 none,
    resetAt := [], storeQ := [], fired := [], pipe := [], parityHs := [], bns := List.replicate 32 BNote.reset, segs := [],
    holdsBefore := 0, limited := false, raised := [], applyAt := none, past := [], armAt := none, armCtx := 0, out := [],
    outHigh := false, outEnd := none }

end Sys2Proof.Machine
end

