-- ==== Sys2Proof/Machine/State.lean ====
section
/-!
DEFINITION. The state of the block, the reasons a step can stop, and the state after power-on reset.
-/

namespace Sys2Proof.Machine

/-- Why the block stops with a fault. No command of this model raises one. -/
inductive Fault where
  /-- Never raised. -/
  | none
deriving DecidableEq, Repr

/-- Why a command has no meaning. -/
inductive Refusal where
  /-- The command has no meaning yet. Safe: nothing is claimed of it. -/
  | notModelled (mnemonic : String)
  /-- JTAG code 0x40 with DEBUG_LOCKED = 0 and TEST_EN = 1 gives factory access, of which the manual says nothing
  (R526). Raised by JTAG_INSTRUCTION. Safe: the model stops. -/
  | factoryAccess
deriving DecidableEq, Repr

/-- The block's state. -/
structure State where
  /-- Registers by BAR0 address: the value last written, or the current value (R5, R9). -/
  regs : List (Nat × Word)
  /-- The values in effect of shadowed (S) fields, by BAR0 address (R7, R8). -/
  eff : List (Nat × Word)
  /-- Words latched by a read of the LO word of their value (R338). -/
  latch : List (Nat × Word)
  /-- TS96 now (R13, R425). -/
  now : Nat
  /-- Nanoseconds since the last power-on or pin reset released (R30). -/
  up : Nat
  /-- DRAM (R23). -/
  dram : List Host.Cell
  /-- What the device has written to host memory. -/
  host : List Host.Cell
  /-- On-chip SRAM by internal address (Table 1.3): the bytes that DMA groups have written to engine local memory and that nothing
  has touched since. What stands at another address is held in the blocks' own fields, or is not known. -/
  sram : List (Nat × Option Byte)
  fcp : Fcp
  err : Err
  shf : Shf
  pins : Pins
  clk : Clk
  jin : Jin
  dfu : List DUnit
  cap : Cap
  tim : Tim
  trg : Trg
  con : Con
  eng : Eng
  dma : Dma
  cmp : Cmp
  mem : Mem
  mbx : Mbx
  dis : Dis
  mcv : Mcv
  /-- What the register reads of the last reading command returned, by master: the model's own field. -/
  rdata : List (Nat × Word)
  /-- How many free values have been taken: the model's own field. -/
  free : Nat
  /-- The commands that wait, first in, first out. -/
  pending : List Instr
deriving DecidableEq, Repr

/-- The machine after power-on reset. -/
def State.reset : State :=
  { regs := [], eff := [], latch := [], now := 0, up := 0, dram := [], host := [], sram := [], fcp := Fcp.reset, err := Err.reset,
    shf := Shf.reset, pins := Pins.reset, clk := Clk.reset, jin := Jin.reset, dfu := List.replicate 12 DUnit.reset,
    cap := Cap.reset, tim := Tim.reset, trg := Trg.reset, con := Con.reset, eng := Eng.reset, dma := Dma.reset,
    cmp := Cmp.reset, mem := Mem.reset, mbx := Mbx.reset, dis := Dis.reset, mcv := Mcv.reset, rdata := [], free := 0, pending := [] }

end Sys2Proof.Machine
end

