-- ==== Sys2Proof/Machine/Ops.lean ====
section
/-!
DEFINITION. The named operations over registers, memory, time, power domains and free values that every meaning is
written with.
-/

namespace Sys2Proof.Machine

/-- The outcome of a step. -/
abbrev Out := Host.Outcome State Fault Refusal

/-! ### Registers -/

/-- The register at an address. -/
def regGet (l : List (Nat × Word)) (a : Nat) : Word := cellGet (regReset a) l a

/-- Write the register at an address. -/
def regPut (l : List (Nat × Word)) (a : Nat) (v : Word) : List (Nat × Word) := cellPut (regReset a) l a v

/-- The whole register at an address. -/
def State.reg (s : State) (a : Nat) : Word := regGet s.regs a

/-- Write a whole register. -/
def State.setReg (s : State) (a : Nat) (v : Word) : State := { s with regs := regPut s.regs a v }

/-- A field of a register: the value last written, or current. -/
def State.rd (s : State) (f : Fld) : Nat := bitsOf (regGet s.regs f.addr).toNat f.lo f.w

/-- Set a field of a register. -/
def State.wr (s : State) (f : Fld) (v : Nat) : State :=
  { s with regs := regPut s.regs f.addr (BitVec.ofNat 32 (setBits (regGet s.regs f.addr).toNat f.lo f.w v)) }

/-- A one-bit field. -/
def State.on (s : State) (f : Fld) : Bool := s.rd f != 0

/-- Set a one-bit field. -/
def State.wrB (s : State) (f : Fld) (b : Bool) : State := s.wr f (b2n b)

/-- A signed field. -/
def State.rdS (s : State) (f : Fld) : Int := sext f.w (s.rd f)

/-- Set a field to a signed value. -/
def State.wrS (s : State) (f : Fld) (v : Int) : State := s.wr f (wrapTo f.w v)

/-- Several fields set one after the other. -/
def State.wrs (s : State) : List (Fld × Nat) → State
  | [] => s
  | (f, v) :: l => (s.wr f v).wrs l

/-- A shadowed field's value in effect (R8). -/
def State.rdE (s : State) (f : Fld) : Nat := bitsOf (regGet s.eff f.addr).toNat f.lo f.w

/-- Whether a one-bit shadowed field is in effect. -/
def State.onE (s : State) (f : Fld) : Bool := s.rdE f != 0

/-- Bring a register's shadowed values into effect (R8). -/
def State.applyReg (s : State) (a : Nat) : State := { s with eff := regPut s.eff a (regGet s.regs a) }

/-- Bring several registers' shadowed values into effect together (R8). -/
def State.applyRegs (s : State) : List Nat → State
  | [] => s
  | a :: l => (s.applyReg a).applyRegs l

/-- Count one more in a saturating field. -/
def State.bump (s : State) (f : Fld) : State := s.wr f (satInc f.w (s.rd f))

/-- Count `n` more in a saturating field. -/
def State.bumpBy (s : State) (f : Fld) (n : Nat) : State := s.wr f (satAdd f.w (s.rd f) n)

/-- Registers back to their reset values. -/
def State.clearRegs (s : State) : List Nat → State
  | [] => s
  | a :: l => (s.setReg a (regReset a)).clearRegs l

/-- Fields to zero. -/
def State.zeroFields (s : State) : List Fld → State
  | [] => s
  | f :: l => (s.wr f 0).zeroFields l

/-- A two-word value, low word first. -/
def State.rd64 (s : State) (lo hi : Nat) : Nat := (s.reg lo).toNat + (s.reg hi).toNat * 4294967296

/-- Write a two-word value, low word first. -/
def State.wr64 (s : State) (lo hi v : Nat) : State :=
  (s.setReg lo (BitVec.ofNat 32 v)).setReg hi (BitVec.ofNat 32 (v / 4294967296))

/-- Count one more in a two-word saturating count. -/
def State.bump64 (s : State) (lo hi : Nat) : State := s.wr64 lo hi (satInc 64 (s.rd64 lo hi))

/-- The TS96 in three words from an address on, lowest first (R13). -/
def State.rdTs (s : State) (a : Nat) : Nat :=
  (s.reg a).toNat + (s.reg (a + 4)).toNat * 4294967296 + (s.reg (a + 8)).toNat * 18446744073709551616

/-- Write a TS96 into three words, lowest first (R13). -/
def State.wrTs (s : State) (a : Nat) (t : Nat) : State :=
  ((s.setReg a (BitVec.ofNat 32 t)).setReg (a + 4) (BitVec.ofNat 32 (t / 4294967296))).setReg (a + 8)
    (BitVec.ofNat 32 (t / 18446744073709551616))

/-- Three dwords of a TS96, lowest first (R13). -/
def tsWords (t : Nat) : List Word :=
  [BitVec.ofNat 32 t, BitVec.ofNat 32 (t / 4294967296), BitVec.ofNat 32 (t / 18446744073709551616)]

/-! ### Memory -/

/-- A byte of a memory whose unlisted bytes read 0. -/
def memGet (m : List Host.Cell) (a : Nat) : Byte := cellGet 0 m a

/-- Write a byte. -/
def memPut (m : List Host.Cell) (a : Nat) (b : Byte) : List Host.Cell := cellPut 0 m a b

/-- `n` bytes from an address on. -/
def memRead (m : List Host.Cell) (a : Nat) : Nat → List Byte
  | 0 => []
  | n + 1 => memGet m a :: memRead m (a + 1) n

/-- Write bytes from an address on. -/
def memWrite (m : List Host.Cell) (a : Nat) : List Byte → List Host.Cell
  | [] => m
  | b :: bs => memWrite (memPut m a b) (a + 1) bs

/-- The canonical form of a memory. -/
abbrev Memory.wf (m : List Host.Cell) : Bool := cellWf (fun _ => (0 : Byte)) m

/-- The canonical form of what is known of on-chip SRAM: no entry for a byte that is not known. -/
abbrev sramWf (m : List (Nat × Option Byte)) : Bool := cellWf (fun _ => (none : Option Byte)) m

/-- Bytes of on-chip SRAM become known, or unknown. -/
def sramWrite (m : List (Nat × Option Byte)) (a : Nat) : List (Option Byte) → List (Nat × Option Byte)
  | [] => m
  | b :: bs => sramWrite (cellPut none m a b) (a + 1) bs

/-- Write bytes to host memory. -/
def State.hostWrite (s : State) (a : Nat) (bs : List Byte) : State := { s with host := memWrite s.host a bs }

/-- Write bytes from an address on, but for those that a test shuts out. -/
def memWriteLive (dead : Nat → Bool) (m : List Host.Cell) (a : Nat) : List Byte → List Host.Cell
  | [] => m
  | b :: bs => memWriteLive dead (if dead a then m else memPut m a b) (a + 1) bs

/-- The element at a place, changed. -/
def listMod {α : Type} (l : List α) (i : Nat) (f : α → α) : List α :=
  match l, i with
  | [], _ => []
  | x :: xs, 0 => f x :: xs
  | x :: xs, i + 1 => x :: listMod xs i f

/-- WM_LOW in force (Table 14.9). -/
def wmLow (s : State) (c : Nat) : Nat :=
  let h := s.rd (F_MEM_C_WQ_WM_HIGH c)
  let l := s.rd (F_MEM_C_WQ_WM_LOW c)
  if l ≥ h then h - 1 else l

/-- The writes of some granules enter their channels' queues (R392, R393); a frozen channel's queue does not drain (R406). -/
def queueWrites (s : State) (m : Mem) (gs : List Nat) : Mem :=
  gs.foldl (fun (x : Mem) g =>
    let l := x.map.decode g
    let marks := if s.rd (F_MEM_C_STATUS_STATE l.ch) = 4 then none else some (s.rd (F_MEM_C_WQ_WM_HIGH l.ch), wmLow s l.ch)
    { x with chans := listMod x.chans l.ch (fun y => { y with wq := wqPut marks y.wq { sc := l.sc, addr := g, at_ := s.up } }) }) m

/-- Write bytes to DRAM, through the write queues; a rank retired in place takes none (R393, R401, R402, R405). -/
def State.dramWrite (s : State) (a : Nat) (bs : List Byte) : State :=
  { s with dram := if s.mem.dead.isEmpty then memWrite s.dram a bs else memWriteLive s.mem.isDead s.dram a bs,
           mem := queueWrites s (s.mem.wrote a bs.length) (granSpan a bs.length) }

/-- Whether a read of `n` bytes of DRAM returns poison (R402, R405). -/
def State.dramPoison (s : State) (a n : Nat) : Bool :=
  if s.mem.poison.isEmpty && s.mem.dead.isEmpty then false
  else (granSpan a n).any (fun g => s.mem.poison.contains g || s.mem.isDead g)

/-- `n` bytes of DRAM. -/
def State.dramRead (s : State) (a n : Nat) : List Byte := memRead s.dram a n

/-- The bytes of a list of dwords (R2). -/
def dwordBytes (ws : List Word) : List Byte := ws.flatMap wordBytes

/-- The dword at index `i` of a byte string (R2). -/
def dwordAt (bs : List Byte) (i : Nat) : Nat := leNat ((bs.drop (4 * i)).take 4)

/-! ### Power domains and states -/

/-- A domain's state: 0 off, 1 retention, 2 on, 3 changing (R447). AON is always on (Table 1.8). -/
def State.dom (s : State) (d : Dom) : Nat :=
  if d.idx = 0 then 2
  else if d.idx < 16 then bitsOf (s.reg R_PMU_DOM_LO).toNat (2 * d.idx) 2
  else bitsOf (s.reg R_PMU_DOM_HI).toNat (2 * (d.idx - 16)) 2

/-- Set a domain's state. -/
def State.setDom (s : State) (d : Dom) (v : Nat) : State :=
  if d.idx < 16 then s.wr ⟨R_PMU_DOM_LO, 2 * d.idx, 2⟩ v else s.wr ⟨R_PMU_DOM_HI, 2 * (d.idx - 16), 2⟩ v

/-- TPLL runs in bypass (R420). -/
def tpllBypass (s : State) : Bool := s.rd (F_CKG_P_STATUS_STATE 2) == 5

/-- Whether a domain is on. -/
def State.domOn (s : State) (d : Dom) : Bool := s.dom d == 2

/-- An access to a block whose domain is off: GLB_OFF_ACCESS holds the block, the direction and the master, and counts
it (R20). -/
def State.offAccess (s : State) (a m : Nat) (w : Bool) : State :=
  ((s.wrs [(F_GLB_OFF_ACCESS_BLOCK, blockOf a), (F_GLB_OFF_ACCESS_WRITE, b2n w), (F_GLB_OFF_ACCESS_MASTER, m)])).bump
    F_GLB_OFF_ACCESS_COUNT

/-- A register access by a master that has effect `f` where the block is powered (R20). -/
def State.gated (s : State) (m a : Nat) (w : Bool) (f : State → State) : State :=
  if s.dom (domOf a) = 0 then s.offAccess a m w else f s

/-- The power state code of GLB_STATE.PSTATE (Table 1.18). -/
def State.pstate (s : State) : Nat := s.rd F_GLB_STATE_PSTATE

/-- Whether the device is in Record. -/
def State.inRecord (s : State) : Bool := s.pstate == 2

/-- Whether the Silo takes data: in Record, and while Record is left for Watch (R438). -/
def State.recording (s : State) : Bool := s.pstate == 2 || s.pstate == 6

/-- Whether the device is in Watch. -/
def State.inWatch (s : State) : Bool := s.pstate == 1

/-! ### Free values -/

/-- The next free number, and the state that has taken it. -/
def State.takeFree (s : State) : Nat × State := (Config.freeNat s.free, { s with free := s.free + 1 })

/-- The next free value of `w` bits, and the state that has taken it. -/
def State.takeBits (s : State) (w : Nat) : Nat × State :=
  (Config.freeNat s.free % 2 ^ w, { s with free := s.free + 1 })

/-- Several free words. -/
def State.takeWords (s : State) : Nat → List Nat × State
  | 0 => ([], s)
  | n + 1 =>
    let (x, s1) := s.takeBits 32
    let (xs, s2) := s1.takeWords n
    (x :: xs, s2)

/-! ### Lists -/

/-- `n` pieces of `k`. -/
def chunksOf {α : Type} (k : Nat) : Nat → List α → List (List α)
  | 0, _ => []
  | n + 1, l => if l.isEmpty then [] else l.take k :: chunksOf k n (l.drop k)

/-- The lowest number of a range that is not in a list. -/
def lowestFree (used : List Nat) : Nat → Nat → Option Nat
  | _, 0 => none
  | a, n + 1 => if a ∈ used then lowestFree used (a + 1) n else some a

end Sys2Proof.Machine
end

