-- ==== Sys2Proof/Machine/FcpOps.lean ====
section
/-!
DEFINITION. The command protocol's shared operations (chapter 10): reading a packet, the checks of R287 in their order,
completion entries and interrupts (R280, R281, R283), intermediate entries (R285), and posting events (R288, R289).
-/

namespace Sys2Proof.Machine

/-! ### Packets -/

/-- Dword `i` of a packet. -/
def pdw (p : Packet) (i : Nat) : Nat := (p.dws.getD i 0).toNat

/-- A field of a dword of a packet. -/
def pf (p : Packet) (i lo w : Nat) : Nat := bitsOf (pdw p i) lo w

/-- A one-bit field of a packet. -/
def pb (p : Packet) (i lo : Nat) : Bool := pf p i lo 1 != 0

/-- Two dwords of a packet as one number, low first. -/
def pq (p : Packet) (i : Nat) : Nat := pdw p i + pdw p (i + 1) * 4294967296

/-- Three dwords of a packet as a TS96. -/
def pTs (p : Packet) (i : Nat) : Nat := pq p i + pdw p (i + 2) * 18446744073709551616

/-- OPCODE, CONTEXT and TAG (Table 10.3). -/
def pOp (p : Packet) : Nat := pf p 0 0 8
def pCtx (p : Packet) : Nat := pf p 0 16 12
def pTag (p : Packet) : Nat := pf p 1 0 12

/-- The code of a status (Table 10.5). -/
def Status.code : Status → Nat
  | .ok => 0x00
  | .acceptedPending => 0x01
  | .badOpcode => 0x10
  | .badParam => 0x11
  | .misaligned => 0x12
  | .notPermitted => 0x13
  | .noBudget => 0x20
  | .contractBroken => 0x21
  | .notRetained => 0x22
  | .timeout => 0x30
  | .aborted => 0x31
  | .deferred => 0x32
  | .hwError => 0x40
  | .poisoned => 0x41

/-- A status with its four result dwords. -/
structure Reply where
  st : Status
  r0 : Nat := 0
  r1 : Nat := 0
  r2 : Nat := 0
  r3 : Nat := 0
  retried : Bool := false
deriving DecidableEq, Repr

/-- What a command's own effect ends in: a final reply, or a wait; with `pend`, an intermediate ACCEPTED_PENDING entry
is written before the wait (R285). -/
inductive FcpOut where
  | final (r : Reply) (s : State)
  | wait (k : WaitKind) (key due : Nat) (s : State)
  | pend (k : WaitKind) (key due : Nat) (s : State)

/-! ### Functions, contexts, pairs -/

/-- A function's record. -/
def State.fn (s : State) (f : Nat) : Fn := s.fcp.fns.getD f (Fn.reset f)

/-- Change a function's record. -/
def State.modFn (s : State) (f : Nat) (g : Fn → Fn) : State :=
  { s with fcp := { s.fcp with fns := listMod s.fcp.fns f g } }

/-- An open context. -/
def State.ctx? (s : State) (c : Nat) : Option Ctx := s.fcp.ctxs.find? (fun x => x.id == c)

/-- Change a context. -/
def State.modCtx (s : State) (c : Nat) (g : Ctx → Ctx) : State :=
  { s with fcp := { s.fcp with ctxs := s.fcp.ctxs.map (fun x => if x.id = c then g x else x) } }

/-- Whether a context holds a privilege (R274). -/
def State.hasPriv (s : State) (c bit : Nat) : Bool :=
  match s.ctx? c with
  | some x => (x.priv >>> bit) % 2 == 1
  | none => false

/-- The function a context belongs to; base contexts name theirs (R273). -/
def State.ctxFunc (s : State) (c : Nat) : Nat :=
  match s.ctx? c with
  | some x => x.func
  | none => if c ≤ 16 then c else 0

/-- A pair by its device-wide ID. -/
def State.pair? (s : State) (q : Nat) : Option QPair := s.fcp.pairs.find? (fun x => x.qid == q)

/-- A pair by its function and index. -/
def State.pairAt? (s : State) (f i : Nat) : Option QPair :=
  s.fcp.pairs.find? (fun x => x.func == f && x.index == i)

/-- Change a pair. -/
def State.modPair (s : State) (q : Nat) (g : QPair → QPair) : State :=
  { s with fcp := { s.fcp with pairs := s.fcp.pairs.map (fun x => if x.qid = q then g x else x) } }

/-- Commands in flight on a pair. -/
def State.inflightOn (s : State) (q : Nat) : Nat :=
  (s.fcp.inflight.filter (fun c => c.qid == q && !c.discard)).length

/-- The command in flight with a tag on a pair (R284). -/
def State.inflight? (s : State) (q t : Nat) : Option Inflight :=
  s.fcp.inflight.find? (fun c => c.qid == q && c.tag == t)

/-- Set the commands in flight; HIF_INFLIGHT counts them (Table 10.11). -/
def State.setInflight (s : State) (l : List Inflight) : State :=
  ({ s with fcp := { s.fcp with inflight := l } }).wr F_HIF_INFLIGHT_COUNT l.length

/-! ### Completion entries and interrupts -/

/-- Send an MSI-X message, or set the vector's pending bit while it is masked (R281). -/
def State.sendMsix (s : State) (f v : Nat) : State :=
  if v ∈ (s.fn f).masked then
    s.modFn f (fun x => { x with msixPending := if v ∈ x.msixPending then x.msixPending else x.msixPending ++ [v] })
  else { s with fcp := { s.fcp with msgs := s.fcp.msgs ++ [(f, v)] } }

/-- The eight dwords of a CQ entry (Table 10.4). -/
def cqEntry (tag st op ctx qid : Nat) (phase event retried lost dup : Bool) (sqHead code : Nat) (r : List Nat) :
    List Word :=
  let d0 := tag % 4096 + (b2n phase <<< 15) + (st <<< 16) + (op <<< 24)
  let d1 := ctx % 4096 + (qid <<< 16) + (b2n event <<< 25) + (b2n retried <<< 26) + (b2n lost <<< 27)
    + (b2n dup <<< 28)
  ([d0, d1, sqHead % 4096, code % 65536] ++ (List.range 4).map (fun i => r.getD i 0)).map (BitVec.ofNat 32)

/-- Write one entry at a pair's CQ tail as a single 32-byte write, advance the tail, turn PHASE at the wrap, and send
the message its counts call for (R280, R281). -/
def State.writeCq (s : State) (q : QPair) (urgent : Bool) (entry : Bool → List Word) : State :=
  let s1 := s.hostWrite (q.cqBase + 32 * q.cqTail) (dwordBytes (entry q.phase))
  let wrap := decide (q.cqTail + 1 = q.cqSize)
  let n := q.unsignalled + 1
  let fire := urgent || q.irqTime == 0 || n ≥ q.irqCount
  let q' := { q with cqTail := if wrap then 0 else q.cqTail + 1, phase := if wrap then !q.phase else q.phase,
                     unreleased := q.unreleased + 1, unsignalled := if fire then 0 else n,
                     firstAt := if q.unsignalled = 0 then s.up else q.firstAt }
  let s2 := s1.modPair q.qid (fun _ => q')
  if fire then s2.sendMsix q.func q.vector else s2

/-- The entry of a command's reply (Table 10.4). -/
def replyEntry (c : Inflight) (r : Reply) (dup : Bool) (sqHead : Nat) (phase : Bool) : List Word :=
  cqEntry c.tag r.st.code c.op c.ctx c.qid phase false r.retried false dup sqHead 0 [r.r0, r.r1, r.r2, r.r3]

/-- Write a command's entry unless it is discarded or has no pair to go to (R280, R296). -/
def State.writeReply (s : State) (c : Inflight) (r : Reply) (dup : Bool) : State :=
  match s.pair? c.qid with
  | none => s
  | some q => if c.discard then s else s.writeCq q c.urgent (replyEntry c r dup q.sqHead)

/-- Record a completion as the last one formed. -/
def State.noteDone (s : State) (c : Inflight) (r : Reply) (dup : Bool) : State :=
  let d : Done := { qid := c.qid, tag := c.tag, op := c.op, st := r.st,
                    r := [r.r0, r.r1, r.r2, r.r3].map (BitVec.ofNat 32), dup := dup }
  { s with fcp := { s.fcp with lastDone := some d } }

/-- A command leaves the commands in flight with its reply; QUIET suppresses the entry of an OK (Table 10.3). -/
def State.finishOne (s : State) (c : Inflight) (r : Reply) (dup : Bool) : State :=
  let l := if dup then s.fcp.inflight
    else s.fcp.inflight.filter (fun x => !(x.qid == c.qid && x.tag == c.tag && x.discard == c.discard))
  let s1 := (s.setInflight l).noteDone c r dup
  if c.quiet && r.st == .ok && !dup then s1 else s1.writeReply c r dup

/-- The pairs in use; HIF_QP_USED counts them (Table 10.11). -/
def State.setPairs (s : State) (l : List QPair) : State :=
  ({ s with fcp := { s.fcp with pairs := l } }).wr F_HIF_QP_USED_COUNT l.length

/-- A pair goes; routes that name it go with it (R288). -/
def State.dropPair (s : State) (q : QPair) : State :=
  let s1 := s.setPairs (s.fcp.pairs.filter (fun x => x.qid != q.qid))
  { s1 with fcp := { s1.fcp with ctxs := s1.fcp.ctxs.map (fun x =>
      if x.func = q.func ∧ x.route = some q.index then { x with route := none } else x) } }

/-- Draining pairs whose last command has finished go, and the QUEUE_DELETE of each completes with the number of
commands that finished (Table 10.7); that may let a further pair go. -/
def State.drainPairs (s : State) : Nat → State
  | 0 => s
  | n + 1 =>
    match s.fcp.pairs.find? (fun q => q.st == .draining && s.inflightOn q.qid == 0) with
    | none => s
    | some q =>
      let s1 := s.dropPair q
      ((s1.fcp.inflight.filter (fun c => c.kind == .drainPair && c.key == q.qid)).foldl (fun t c =>
        t.finishOne c { st := .ok, r0 := c.due } false) s1).drainPairs n

/-- A command's final completion: its reply, and the draining pairs that it lets go. -/
def State.finish (s : State) (c : Inflight) (r : Reply) (dup : Bool := false) : State :=
  (s.finishOne c r dup).drainPairs 512

/-- Finish every command in flight that meets a test, oldest first, each with the same reply. -/
def State.finishAll (s : State) (test : Inflight → Bool) (r : Reply) : State :=
  (s.fcp.inflight.filter test).foldl (fun t c => t.finish c r) s

/-- Whether some command in flight waits for a thing. -/
def State.waiting (s : State) (k : WaitKind) (key : Nat) : Bool :=
  s.fcp.inflight.any (fun c => c.kind == k && c.key == key)

/-- Finish the commands that wait for a thing. -/
def State.wake (s : State) (k : WaitKind) (key : Nat) (r : Reply) : State :=
  s.finishAll (fun c => c.kind == k && c.key == key) r

/-- Finish the commands that wait for any thing of a kind. -/
def State.wakeKind (s : State) (k : WaitKind) (r : Reply) : State := s.finishAll (fun c => c.kind == k) r

/-- Write an intermediate ACCEPTED_PENDING entry, only when a CQ slot is free beyond the reservation (R285). -/
def State.writePending (s : State) (c : Inflight) : State :=
  match s.pair? c.qid with
  | none => s
  | some q =>
    if c.discard || !(s.inflightOn q.qid + q.unreleased + 1 < q.cqSize) then s
    else s.writeCq q false (replyEntry c { st := .acceptedPending } false q.sqHead)

/-! ### Events -/

/-- Post an event to a context: discarded when EVENT_ROUTE masks its block, lost and counted when the function's event
chute is full (R288, R289). -/
def State.postEvent (s : State) (c code : Nat) (d : List Nat) : State :=
  let f := s.ctxFunc c
  let masked := match s.ctx? c with
    | some x => (x.mask >>> (code / 256)) % 2 == 1
    | none => false
  if masked then s
  else if (s.fn f).chute.length < 256 then
    s.modFn f (fun x => { x with chute := x.chute ++ [{ ctx := c, code := code, d := d.map (BitVec.ofNat 32) }] })
  else (s.modFn f (fun x => { x with lostFlag := true })).bump (F_HIF_F_EVT_LOST_COUNT f)

/-! ### Running a command -/

/-- The rules a command states about itself, in the order R287 checks them; `run` is its own effect. -/
structure CmdSpec where
  op : Nat
  /-- Step 3: only from a context of the physical function. -/
  pfOnly : Bool := false
  /-- Step 3: the privilege it needs (Table 10.2). -/
  priv : Option Nat := none
  /-- Step 3: any other rule on the issuer. -/
  permit : Packet → State → Bool := fun _ _ => true
  /-- Step 4. -/
  aligned : Packet → State → Bool := fun _ _ => true
  /-- Step 5. -/
  valid : Packet → State → Bool := fun _ _ => true
  /-- Result dwords of a BAD_PARAM from `valid`, where the owning chapter gives them. -/
  badRes : Packet → State → Nat × Nat := fun _ _ => (0, 0)
  /-- Step 6: accepted in Containment (R287). -/
  contain : Bool := false
  /-- Step 6: the domain that must not be off (R532). -/
  dom : Option Dom := none
  /-- Step 6: the state rules of the owning chapter. -/
  allowed : Packet → State → Bool := fun _ _ => true
  /-- The effect. -/
  run : Packet → State → FcpOut

/-- The reserved bits of dw0 and dw1 are 0 (R282). -/
def reservedOk (p : Packet) : Bool := pf p 0 11 5 == 0 && pf p 0 28 4 == 0 && pf p 1 12 20 == 0

/-- The issuing context is open and belongs to the function of the SQ (R287 step 3). -/
def ctxOk (p : Packet) (s : State) : Bool :=
  match s.ctx? (pCtx p) with
  | some c => c.func == p.func
  | none => false

/-- Steps 2 to 6 of R287; `none` when every check passes. -/
def CmdSpec.check (c : CmdSpec) (p : Packet) (s : State) : Option Status :=
  if !reservedOk p then some .badParam
  else if !ctxOk p s then some .notPermitted
  else if c.pfOnly && p.func != 0 then some .notPermitted
  else if (match c.priv with | some b => !s.hasPriv (pCtx p) b | none => false) then some .notPermitted
  else if !c.permit p s then some .notPermitted
  else if !c.aligned p s then some .misaligned
  else if !c.valid p s then some .badParam
  else if s.err.contained && !c.contain then some .notPermitted
  else if (match c.dom with | some d => s.dom d == 0 | none => false) then some .notPermitted
  else if !c.allowed p s then some .notPermitted
  else none

/-- The record of a packet's command in flight. -/
def inflightOf (op : Nat) (p : Packet) : Inflight :=
  { func := p.func, qid := p.qid, tag := pTag p, ctx := pCtx p, op := op, quiet := pb p 0 9, urgent := pb p 0 10,
    fence := pb p 0 8, kind := .fetched, key := 0, due := 0, discard := false, dws := p.dws }

/-- Change the record of a command in flight. -/
def State.modInflight (s : State) (q t : Nat) (g : Inflight → Inflight) : State :=
  { s with fcp := { s.fcp with
      inflight := s.fcp.inflight.map (fun x => if x.qid = q ∧ x.tag = t then g x else x) } }

/-- Put a command among those in flight. -/
def State.addInflight (s : State) (c : Inflight) : State := s.setInflight (s.fcp.inflight ++ [c])

/-- Whether a command that stands among those in flight may start: it has no FENCE, or no earlier command of its SQ is
in flight; and no earlier command of its SQ waits to start (R279). -/
def mayStart (s : State) (c : Inflight) : Bool :=
  let earlier := (s.fcp.inflight.takeWhile (fun x => !(x.qid == c.qid && x.tag == c.tag))).filter
    (fun x => x.qid == c.qid)
  if c.fence then earlier.isEmpty else earlier.all (fun x => x.kind != .fenced && x.kind != .fetched)

/-- Run a command that stands among those in flight: the checks of R287, then its effect. -/
def runCmd (spec : CmdSpec) (c : Inflight) (p : Packet) (s : State) : State :=
  match spec.check p s with
  | some st =>
    let b := if st = .badParam && reservedOk p then spec.badRes p s else (0, 0)
    s.finish c { st := st, r0 := b.1, r1 := b.2 }
  | none =>
    match spec.run p s with
    | .final r t => t.finish c r
    | .wait k key due t => t.modInflight c.qid c.tag (fun x => { x with kind := k, key := key, due := due })
    | .pend k key due t =>
      (t.modInflight c.qid c.tag (fun x => { x with kind := k, key := key, due := due })).writePending c

/-- A command packet reaches its owning block. One that COMMAND_FETCH has put in flight starts when R279 lets it; one
that comes straight from its queue is put in flight first; a tag in flight already ends it with DUP_TAG (R284). -/
def fcp (spec : CmdSpec) (p : Packet) (s : State) : State :=
  let c := inflightOf spec.op p
  match s.inflight? p.qid (pTag p) with
  | none =>
    let t := s.addInflight c
    if mayStart t c then runCmd spec c p t
    else t.modInflight c.qid c.tag (fun x => { x with kind := .fenced })
  | some x =>
    if x.kind = .fetched ∧ x.dws = p.dws ∧ x.op = spec.op then
      (if mayStart s x then runCmd spec x p s else s)
    else if x.kind = .fenced ∧ x.dws = p.dws ∧ x.op = spec.op then s
    else s.finish c { st := .badParam } true

/-- A command's meaning from its own rules. -/
def fcpStep (spec : CmdSpec) (p : Packet) (s : State) : Out := .next (fcp spec p s)

/-- The reply OK with result dwords. -/
def okR (r0 r1 r2 r3 : Nat) : Reply := { st := .ok, r0 := r0, r1 := r1, r2 := r2, r3 := r3 }

/-- Complete with OK and no results. -/
def fOk (s : State) : FcpOut := .final { st := .ok } s

/-- Complete with a status and no results. -/
def fSt (st : Status) (s : State) : FcpOut := .final { st := st } s

end Sys2Proof.Machine
end

