-- ==== Sys2Proof/Machine/MbxOps.lean ====
section
/-!
DEFINITION. The mailboxes' shared operations (chapter 12): who stands on which side, doorbells and their signals, pushes,
pops, the service channel's backlog.
-/

namespace Sys2Proof.Machine

/-- A set. -/
def State.mset (s : State) (i : Nat) : MSet := s.mbx.sets.getD i MSet.reset

/-- Change a set. -/
def State.modSet (s : State) (i : Nat) (g : MSet → MSet) : State := { s with mbx := { s.mbx with sets := listMod s.mbx.sets i g } }

/-- Whether a set accepts writes (R331). -/
def mbxEn (s : State) (i : Nat) : Bool := s.on (F_MBX_S_CFG_EN i)

/-- Whether a master stands on side H, or on side F, of a set (Table 12.2). -/
def sideH (i m : Nat) : Bool :=
  if i ≤ 16 then m == 1 + i
  else if i ≤ 28 then 0x40 ≤ m && m ≤ 0x9F && (m - 0x40) / 8 == i - 17
  else m == 0x20
def sideF (i m : Nat) : Bool := if i ≤ 28 then 0x20 ≤ m && m ≤ 0x23 else 0x21 ≤ m && m ≤ 0x23

/-! ### Doorbells (R334) -/

/-- Registers of the doorbell towards side F, or towards side H. -/
def dbBits (i : Nat) (toF : Bool) : Fld := if toF then F_MBX_S_DB_F_BITS i else F_MBX_S_DB_H_BITS i
def dbMask (i : Nat) (toF : Bool) : Fld := if toF then F_MBX_S_DB_F_MASK_MASK i else F_MBX_S_DB_H_MASK_MASK i
def dbSet (i : Nat) (toF : Bool) : Fld := if toF then F_MBX_S_DB_F_SET_BITS i else F_MBX_S_DB_H_SET_BITS i
def dbClr (i : Nat) (toF : Bool) : Fld := if toF then F_MBX_S_DB_F_CLR_BITS i else F_MBX_S_DB_H_CLR_BITS i

/-- What a doorbell signals. -/
def dbShown (s : State) (i : Nat) (toF : Bool) : Nat := s.rd (dbBits i toF) &&& s.rd (dbMask i toF)

/-- Signal the receiving side when a bit of DOORBELL AND MASK has risen since `was`: an MSI-X message of the function
while IRQ_EN is 1; an internal interrupt shows nothing outside. -/
def dbSignal (s : State) (i : Nat) (toF : Bool) (was : Nat) : State :=
  let now := dbShown s i toF
  let rises := (List.range 32).any (fun b => now.testBit b && !was.testBit b)
  if rises && !toF && i ≤ 16 && s.on (F_MBX_S_CFG_IRQ_EN i) then s.sendMsix i (s.rd (F_MBX_S_CFG_VEC i)) else s

/-- A doorbell takes new bits; its SET and CLR registers read them too (R5). -/
def dbPut (s : State) (i : Nat) (toF : Bool) (v : Nat) : State :=
  let was := dbShown s i toF
  dbSignal (s.wrs [(dbBits i toF, v), (dbSet i toF, v / 4), (dbClr i toF, v)]) i toF was

/-- Set bits of a doorbell. -/
def dbRaise (s : State) (i : Nat) (toF : Bool) (bits : Nat) : State := dbPut s i toF (s.rd (dbBits i toF) ||| bits)

/-- Clear bits of a doorbell. -/
def dbClear (s : State) (i : Nat) (toF : Bool) (bits : Nat) : State :=
  dbPut s i toF (s.rd (dbBits i toF) - (s.rd (dbBits i toF) &&& bits))

/-- A new mask. -/
def dbMaskPut (s : State) (i : Nat) (toF : Bool) (v : Nat) : State :=
  let was := dbShown s i toF
  dbSignal (s.wr (dbMask i toF) v) i toF was

/-! ### Messages -/

/-- The head words of a direction. -/
def headWords (c : Chute Msg) (j : Nat) : Nat := ((c.head?).getD []).getD j 0

/-- STATUS and the head registers of a set follow its chutes; the 10 ms of R337 run while outbound is full and WAITING. -/
def mbxRegs (s : State) (i : Nat) : State :=
  let x := s.mset i
  let stuck := x.outb.full && !x.backlog.isEmpty
  let s1 := s.modSet i (fun y => { y with fullAt := if stuck then (match y.fullAt with | some t => some t | none => some s.up) else none })
  let s2 := s1.wrs [(F_MBX_S_STATUS_DEPTH_IN i, x.inb.count), (F_MBX_S_STATUS_DEPTH_OUT i, x.outb.count),
    (F_MBX_S_STATUS_WAITING i, b2n !x.backlog.isEmpty), (F_MBX_S_STATUS_BACKLOG i, x.backlog.length)]
  (List.range 4).foldl (fun t j => (t.wr (F_MBX_S_IN_HEAD_W_WORD i j) (headWords x.inb j)).wr (F_MBX_S_OUT_HEAD_W_WORD i j)
    (headWords x.outb j)) s2

/-- A message reaches a direction: accepted, it sets MSG towards the receiving side; refused, it is counted (R332). -/
def mbxPush (s : State) (i : Nat) (inbound : Bool) (m : Msg) : State :=
  let x := s.mset i
  let c := if inbound then x.inb else x.outb
  let r := c.cycle false false { push := some (m, true, false) }
  if r.2.1 then
    let s1 := s.modSet i (fun y => if inbound then { y with inb := r.2.2 } else { y with outb := r.2.2 })
    mbxRegs (dbRaise s1 i inbound 1) i
  else if inbound then (s.wr (F_MBX_S_STATUS_REFUSED_IN i) 1).bump (F_MBX_S_COUNTS_REFUSED_IN i)
  else (s.wr (F_MBX_S_STATUS_REFUSED_OUT i) 1).bump (F_MBX_S_COUNTS_REFUSED_OUT i)

/-- The backlog moves into the outbound chute as space allows (R336). -/
def mbxFill (s : State) (i : Nat) : Nat → State
  | 0 => mbxRegs s i
  | n + 1 =>
    let x := s.mset i
    match x.backlog with
    | [] => mbxRegs s i
    | m :: ms => if x.outb.full then mbxRegs s i else mbxFill (mbxPush (s.modSet i (fun y => { y with backlog := ms })) i false m) i n

/-- A pop of a direction (R333): one that leaves the full state sets SPACE towards the side that pushes into it. -/
def mbxPop (s : State) (i : Nat) (inbound : Bool) : State :=
  let x := s.mset i
  let c := if inbound then x.inb else x.outb
  let r := c.cycle false false { pop := true }
  match r.1 with
  | none => s
  | some _ =>
    let s1 := s.modSet i (fun y => if inbound then { y with inb := r.2.2 } else { y with outb := r.2.2, fullAt := none })
    let s2 := if c.full then dbRaise s1 i (!inbound) 2 else s1
    mbxFill s2 i 16

/-- Device firmware's own message for a set: SEQ counts it, the backlog holds it until it is pushed (R335, R336). One that
finds the backlog full is not sent and counts as refused. -/
def mbxSend (s : State) (i code echo : Nat) (w : List Nat) : State :=
  let x := s.mset i
  if x.backlog.length ≥ 16 then (s.wr (F_MBX_S_STATUS_REFUSED_OUT i) 1).bump (F_MBX_S_COUNTS_REFUSED_OUT i)
  else
    let m : Msg := (code + x.seq * 256 + echo * 65536) :: w
    mbxFill (s.modSet i (fun y => { y with backlog := y.backlog ++ [m], seq := (y.seq + 1) % 256 })) i 16

/-- An unsolicited message on every enabled set of 0 to 16 with NOTIFY, or on every enabled one (R335). -/
def mbxTell (s : State) (all : Bool) (code : Nat) (w : List Nat) : State :=
  (List.range 17).foldl (fun t i =>
    if mbxEn t i && (all || t.on (F_MBX_S_CFG_NOTIFY i)) then mbxSend t i code 0 w else t) s

/-- A set is flushed in both directions with its backlog (R342). -/
def mbxFlush (s : State) (i : Nat) : State :=
  let x := s.mset i
  let s1 := s.modSet i (fun y => { y with inb := y.inb.flushed false none, outb := y.outb.flushed false none, backlog := [],
                                          fullAt := none })
  let s2 := if x.inb.full then dbRaise s1 i false 2 else s1
  mbxRegs (if x.outb.full then dbRaise s2 i true 2 else s2) i

/-- EN of a set (R331). -/
def mbxEnable (s : State) (i : Nat) (b : Bool) : State := s.wrB (F_MBX_S_CFG_EN i) b

end Sys2Proof.Machine
end

