-- ==== Sys2Proof/Machine/ErrOps.lean ====
section
/-!
DEFINITION. Raising an error record (R488 to R493), entering Containment (R495), and the Sheaf's decision and latch
(R501 to R505), as operations that every block's meanings share.
-/

namespace Sys2Proof.Machine

/-! ### CRC-16 and record bytes -/

/-- One bit of the CRC-16 of R187: polynomial 0x1021, most significant bit first. -/
def crc16Bits : Nat → Nat → Nat
  | 0, c => c
  | n + 1, c => crc16Bits n (if c ≥ 32768 then ((c * 2) % 65536) ^^^ 0x1021 else c * 2)

/-- The CRC-16 of R187 over bytes in ascending order. -/
def crc16 : List Byte → Nat → Nat
  | [], c => c
  | b :: bs, c => crc16 bs (crc16Bits 8 (c ^^^ (b.toNat * 256)))

/-- CHECK of bytes: initial value 0xFFFF, no final inversion (R187). -/
def check16 (bs : List Byte) : Nat := crc16 bs 0xFFFF

/-- Bytes followed by their CHECK. -/
def withCheck (bs : List Byte) : List Byte := bs ++ natBytes 2 (check16 bs)

/-- Byte 12 of a record: BLOCK and CLASS (Table 18.2). -/
def ErrRec.byte12 (r : ErrRec) : Nat := r.blk + 32 * r.cls

/-- The 32 bytes of a record (Table 18.2). -/
def ErrRec.bytes (r : ErrRec) : List Byte :=
  withCheck (natBytes 12 r.ts ++ natBytes 1 r.byte12 ++ natBytes 1 r.typ ++ natBytes 1 r.master
    ++ natBytes 1 (b2n r.lostBefore + 2 * b2n r.injected + 4 * b2n r.acked + 8 * b2n r.escalated)
    ++ natBytes 8 r.resource ++ natBytes 2 r.detail ++ natBytes 2 r.linkSeq ++ natBytes 2 r.seq)

/-- Resources (R489). -/
def resNone : Nat := 0
def resAddr (a : Nat) : Nat := 0x1000000000000000 + (a % 281474976710656) / 64 * 64
def resIndex (i : Nat) : Nat := 0x2000000000000000 + i % 65536
def resMaster (m : Nat) : Nat := 0x3000000000000000 + m % 256
def resRank (c p : Nat) : Nat := 0x4000000000000000 + c % 8 + 256 * (p % 8)
def resDimm (c d : Nat) : Nat := 0x5000000000000000 + c % 8 + 256 * (d % 2)

/-! ### The Sheaf -/

/-- The Silo is ready (R207). -/
def siloReady (s : State) : Bool :=
  s.recording && s.on F_GLB_STATE_DRAM_READY && s.rd F_CAP_SILO_PAGES_PAGES != 0 && !s.err.contained

/-- A register's value for a reader; SILO_READY follows the Silo. -/
def statusReg (s : State) (a : Nat) : Word :=
  if a = R_CAP_STATUS then BitVec.ofNat 32 (setBits (s.reg a).toNat 3 1 (b2n (siloReady s))) else s.reg a

/-- The snapshot registers with what each copies and the domain that must be on, in ascending BAR0 offset (Table 18.6). -/
def snapTable : List (Nat × Nat × Dom) :=
  [(R_PMU_SNAP_STATUS, R_PMU_STATUS, .aon), (R_PMU_SNAP_TEMP, R_PMU_TEMP, .aon),
   (R_CKG_SNAP_FREQ, R_CKG_P_FREQ 0, .aon), (R_TBS_SNAP_STATE, R_TBS_STATE, .aon),
   (R_TBS_SNAP_TS_W 0, R_TBS_TS_W 0, .aon), (R_TBS_SNAP_TS_W 1, R_TBS_TS_W 1, .aon),
   (R_TBS_SNAP_TS_W 2, R_TBS_TS_W 2, .aon),
   (R_HIF_SNAP_STATUS, R_HIF_STATUS, .hostlink), (R_HIF_SNAP_INFLIGHT, R_HIF_INFLIGHT, .hostlink),
   (R_MBX_SNAP_STATUS, R_MBX_STATUS, .aon), (R_MBX_SNAP_HELD_LO, R_MBX_LOCK_HELD_LO, .aon),
   (R_MBX_SNAP_HELD_HI, R_MBX_LOCK_HELD_HI, .aon),
   (R_JIN_SNAP_STATUS, R_JIN_STATUS, .intake), (R_JIN_SNAP_EMB_LO, R_JIN_EMB_COUNT_LO, .intake),
   (R_JIN_SNAP_EMB_HI, R_JIN_EMB_COUNT_HI, .intake)]
  ++ (List.range 12).flatMap (fun u =>
      [(R_DFU_SNAP_STATUS u, R_DFU_STATUS u, .intake), (R_DFU_SNAP_CYCLE_LO u, R_DFU_RS_CYCLE_LO u, .intake),
       (R_DFU_SNAP_CYCLE_HI u, R_DFU_RS_CYCLE_HI u, .intake)])
  ++ [(R_TRG_SNAP_STATUS, R_TRG_STATUS, .intake), (R_TRG_SNAP_DEC_LO, R_TRG_DECISIONS_LO, .intake),
   (R_TRG_SNAP_DEC_HI, R_TRG_DECISIONS_HI, .intake), (R_TRG_SNAP_SEG, R_TRG_SEG_COUNT, .intake),
   (R_TIM_SNAP_STATUS, R_TIM_STATUS, .intake), (R_TIM_SNAP_STORED_LO, R_TIM_STORED_LO, .intake),
   (R_TIM_SNAP_STORED_HI, R_TIM_STORED_HI, .intake),
   (R_CAP_SNAP_STATUS, R_CAP_STATUS, .intake), (R_CAP_SNAP_PINNED, R_CAP_PINNED, .intake)]
  ++ (List.range 12).flatMap (fun b =>
      [(R_ENG_SNAP_STATUS b, R_ENG_STATUS b, .barn b), (R_ENG_SNAP_COMMITS_LO b, R_ENG_COMMITS_LO b, .barn b),
       (R_ENG_SNAP_COMMITS_HI b, R_ENG_COMMITS_HI b, .barn b)])
  ++ [(R_DMA_SNAP_STATUS, R_DMA_STATUS, .hostlink), (R_DMA_SNAP_RUNNING0, R_DMA_RUNNING 0, .hostlink),
   (R_CMP_SNAP_STATUS, R_CMP_STATUS, .cmp)]
  ++ (List.range 8).flatMap (fun c =>
      [(R_MEM_C_SNAP_STATUS c, R_MEM_C_STATUS c, .memc), (R_MEM_C_SNAP_OWED c, R_MEM_C_REF_OWED c, .memc)])
  ++ [(R_DIS_SNAP_STATUS, R_DIS_STATUS, .dis), (R_DIS_SNAP_FRAME, R_DIS_FRAME_NO_LO, .dis),
   (R_MCV_SNAP_STATUS, R_MCV_STATUS, .mcv), (R_MCV_SNAP_NUM, R_MCV_NUM, .mcv),
   (R_ERR_SNAP_SEQ, R_ERR_LOG_HEAD, .aon)]

/-- Copy every snapshot register of a powered block, from one state (R502). -/
def latchAll (src : State) : List (Nat × Nat × Dom) → State → State
  | [], t => t
  | (d, a, m) :: l, t => latchAll src l (if src.domOn m then t.setReg d (statusReg src a) else t)

/-- Bit 16 of SHF_VALID and the bits of the blocks of which at least one register latched (R502). -/
def shfValid (addrs : List Nat) : Nat :=
  (List.range 16).foldl (fun v b => if addrs.any (fun a => blockOf a == b) then v + 2 ^ b else v) 65536

/-- The latch of a fire at time `tf`: the snapshot, SHF_FIRE, SHF_VALID and SHF_COUNT (R502 to R504). SNAP_OUT rises
for sources 1 to 5. -/
def sheafLatch (s : State) (src tf : Nat) : State :=
  let live := s.wrTs (R_TBS_TS_W 0) s.now
  let on := (snapTable.filter (fun x => s.domOn x.2.2)).map (fun x => x.1)
  let s1 := latchAll live snapTable s
  let s2 := if src = 6 then s1 else s1.wrTs (R_TBS_SNAP_TS_W 0) tf
  let s3 := (s2.wr F_SHF_VALID_BLOCKS (shfValid on)).bump F_SHF_COUNT_COUNT
  let s4 := { s3 with shf := { s3.shf with decided := none, latched := on, everFired := true } }
  let s5 := if src = 6 then s4 else
    { s4 with pins := { s4.pins with snapOut := .high },
              shf := { s4.shf with outEnd := s4.up + max 10 (s4.rd F_SHF_OUT_WIDTH_NS) } }
  let tfw := tsWords tf
  let s6 := s5.postEvent 0 0x1001 [src + (s5.rd F_SHF_VALID_BLOCKS <<< 8), (tfw.getD 1 0).toNat, (tfw.getD 2 0).toNat,
      s5.rd F_SHF_COUNT_COUNT]
  s6.wake .snapFire 0 (okR (tfw.getD 0 0).toNat (tfw.getD 1 0).toNat (tfw.getD 2 0).toNat (s5.rd F_SHF_VALID_BLOCKS))

/-- Cancel a decided fire that has not latched; its SNAP_FIRE completes with ABORTED (R503). -/
def sheafCancel (s : State) : State :=
  match s.shf.decided with
  | none => s
  | some _ =>
    let t := { s with shf := { s.shf with decided := none } }
    t.wake .snapFire 0 { st := .aborted }

/-- The fire time of sources 1 to 5: the trigger's TS96 plus SHF_LEAD, up to a whole nanosecond (R501). -/
def sheafTf (s : State) (t : Nat) : Nat :=
  cdiv (t + max 100 (s.rd F_SHF_LEAD_NS) * ns1) ns1 * ns1

/-- A fire is decided: LOCKED, its source and its time (R503). -/
def sheafPut (s : State) (src tf : Nat) : State :=
  let s1 := ((s.wr F_SHF_STATUS_LOCKED 1).wr F_SHF_STATUS_SOURCE src).wrTs (R_SHF_FIRE_W 0) tf
  { s1 with shf := { s1.shf with decided := some (src, tf), decidedAt := some s1.up } }

/-- The source of the fire that has been decided in this same TCLK cycle. -/
def sheafTwin (s : State) : Option Nat :=
  if s.shf.decidedAt = some s.up then s.shf.decided.map (fun d => d.1) else none

/-- A trigger of sources 1 to 5 reaches SHF: decided while LOCKED is 0, else ignored and counted. Two triggers of one cycle make
one fire, of the lower source (R503). -/
def sheafDecide (s : State) (src tf : Nat) : State :=
  if !s.on F_SHF_STATUS_LOCKED then sheafPut s src tf
  else
    match sheafTwin s with
    | some a => if src < a then sheafPut s src tf else s
    | none => s.bump F_SHF_IGNORED_COUNT

/-- The fatal fire: always latches at once, replaces a held snapshot or cancels a decided fire, and sets REPLACED
then (R502, R503). -/
def sheafFatal (s : State) : State :=
  let was := s.on F_SHF_STATUS_LOCKED
  let s1 := sheafCancel s
  let s2 := ((s1.wr F_SHF_STATUS_LOCKED 1).wr F_SHF_STATUS_SOURCE 6).wrTs (R_SHF_FIRE_W 0) s.now
  sheafLatch (if was then s2.wr F_SHF_STATUS_REPLACED 1 else s2) 6 s.now

/-! ### Containment -/

/-- The engines stop and drop every job (R237); their registers show it. -/
def containEngines (s : State) : State :=
  let s1 := { s with eng := { s.eng with jobs := [] } }
  (List.range 96).foldl (fun t n =>
    let b := n / 8
    let e := n % 8
    let u := if t.rd (F_ENG_E_STATUS_STATE b e) = 2 then t.wr (F_ENG_E_STATUS_STATE b e) 1 else t
    (u.wr (F_ENG_E_STATUS_READY b e) 0).wr (F_ENG_E_CUR_CHAIN_ID b e) 0) s1

/-- What CONTAIN does to the blocks at once: TRG enters STOPPED (R127), CAP enters CONTAINED (R206), the engines drop their
jobs (R237), DIS enters HELD (R464). -/
def containBlocks (s0 : State) : State :=
  let s := containEngines s0
  let s1 := if s.domOn .intake then s.wr F_TRG_STATUS_STATE 5 else s
  let s2 := if s.domOn .intake then s1.wr F_CAP_STATUS_STATE 7 else s1
  let st := s.rd F_DIS_STATUS_STATE
  if s.domOn .dis && st != 0 then { s2.wr F_DIS_STATUS_STATE 5 with dis := { s2.dis with heldFrom := st } } else s2

/-- The eight words of a record. -/
def ErrRec.words (r : ErrRec) : List Word :=
  (List.range 8).map (fun i => BitVec.ofNat 32 (dwordAt r.bytes i))

/-- Write words to consecutive registers. -/
def State.setWords (s : State) (a : Nat) : List Word → State
  | [] => s
  | w :: ws => (s.setReg a w).setWords (a + 4) ws

/-- Dword 0 of ERROR_RECORD and CONTAINED (R500). -/
def recDw0 (r : ErrRec) : Nat := r.seq + (r.byte12 <<< 16) + (r.typ <<< 24)

/-- Enter Containment on the first fatal record: CONTAIN, the Sheaf, ERR_FATAL, the message CONTAINED on every enabled
set and the event CONTAINED, both left out when CC0 itself hangs (R335, R495, R499); no power-state request outlives it (R440, R442). In Containment
already, a later fatal record changes nothing more (R494). -/
def enterContain (s : State) (r : ErrRec) : State :=
  if s.err.contained then s
  else
    let was := s.pstate
    let s1 := { s with err := { s.err with contained := true, firstFatal := some r, cc0Fatal := some r,
                                           pstateBefore := was } }
    let s2 := containBlocks ((s1.wr F_GLB_STATE_PSTATE 3).wr F_PMU_STATUS_PSTATE 3)
    let s2 := s2.zeroFields ((List.range 16).map F_MAP_STATUS_PASS_BUSY)
    let s3 := sheafFatal (s2.wr F_ERR_STATUS_CONTAINED 1)
    let s3 := ({ s3 with clk := { s3.clk with want := none, trans := none } }).wakeKind .psWant { st := .aborted }
    let s3 := s3.wakeKind .chainRun { st := .aborted }
    let s4 := s3.setWords (R_ERR_FATAL_W 0) r.words
    if r.blk = 15 ∧ r.typ = 2 ∧ r.resource = resIndex 0 then s4
    else
      (mbxTell s4 true 0x92
        [r.blk + r.typ * 256, r.ts / 4294967296 % 4294967296, r.ts / 18446744073709551616]).postEvent 0 0x0F02 [recDw0 r, r.ts / ns1 % 4294967296, r.ts / ns1 / 4294967296, was]

/-! ### Raising a record -/

/-- The open tag an uncorrected record matches (R493). -/
def matchTag (s : State) (r : ErrRec) : Option Tag :=
  s.err.tags.find? (fun t => t.blk == r.blk && t.resource == r.resource && t.injected == r.injected)

/-- ERR_Bb_COUNTS.TAGS follows the open tags. -/
def State.setTags (s : State) (l : List Tag) (b : Nat) : State :=
  ({ s with err := { s.err with tags := l } }).wr (F_ERR_B_COUNTS_TAGS b) (l.filter (fun (t : Tag) => t.blk == b)).length

/-- Open a tag for an uncorrected record, or count TAG_FULL when all 8 of its block are in use (R493). -/
def openTag (s : State) (r : ErrRec) (seq : Option Nat) : State :=
  if (s.err.tags.filter (fun t => t.blk == r.blk)).length < 8 then
    s.setTags (s.err.tags ++ [{ blk := r.blk, resource := r.resource, injected := r.injected, seq := seq }]) r.blk
  else s.bump (F_ERR_B_COUNTS_TAG_FULL r.blk)

/-! ### Acknowledgement (R492, R493) -/

/-- The open tags that meet a test close. -/
def closeTags (s : State) (test : Tag → Bool) : State :=
  let l := s.err.tags.filter (fun t => !test t)
  (List.range 17).foldl (fun t b => if s.err.tags.any (fun x => x.blk == b && test x) then t.setTags l b else t)
    { s with err := { s.err with tags := l } }

/-- ERR_UNACKED and LOG_BLOCKED follow what is unacknowledged. -/
def ackRegs (s : State) : State :=
  let head := s.rd F_ERR_LOG_HEAD_NEXT_SEQ
  let s1 := s.wr F_ERR_UNACKED_COUNT (min 8191 s.err.unacked.length)
  if s.err.unacked.any (fun q => q % 4096 == head % 4096) then s1 else s1.wr F_ERR_STATUS_LOG_BLOCKED 0

/-- A SEQ is acknowledged: its tag closes and its slot is released; the second value says whether it was new. -/
def ackSeq (s : State) (q : Nat) : State × Bool :=
  if !s.err.unacked.contains q then (s, false)
  else
    let s1 := { s with err := { s.err with
      unacked := s.err.unacked.filter (fun x => x != q),
      log := s.err.log.map (fun e => if e.2.record.seq = q then (e.1, { e.2 with record := { e.2.record with acked := true } }) else e) } }
    (ackRegs (closeTags s1 (fun t => t.seq == some q)), true)

/-- Several SEQs; how many were new. -/
def ackSeqs (s : State) (qs : List Nat) : State × Nat :=
  qs.foldl (fun (a : State × Nat) q => let r := ackSeq a.1 q; (r.1, a.2 + b2n r.2)) (s, 0)

/-- Everything is acknowledged and every open tag closes. -/
def ackAll (s : State) : State × Nat :=
  let r := ackSeqs s s.err.unacked
  (closeTags r.1 (fun _ => true), r.2)

/-- The records of a block's resource are acknowledged by the block itself. -/
def ackResource (s : State) (blk res : Nat) : State :=
  let qs := (s.err.log.filter (fun e => e.2.record.blk == blk && e.2.record.resource == res)).map (fun e => e.2.record.seq)
  closeTags (ackSeqs s qs).1 (fun t => t.blk == blk && t.resource == res)

/-- An error record is raised: it enters its block's chute of 4. One that finds the chute full is lost and counted;
the escalation check is still made for it, and a fatal raise still enters Containment (R490, R491, R493, R495). -/
def State.raiseRec (s : State) (r : ErrRec) : State :=
  let s1 := s.bump (F_ERR_B_COUNTS_RAISED r.blk)
  let q := s1.err.chutes.getD r.blk []
  if q.length < 4 then
    { s1 with err := { s1.err with chutes := listMod s1.err.chutes r.blk (fun l => l ++ [r]) } }
  else
    let s2 := ({ s1 with err := { s1.err with lost := listMod s1.err.lost r.blk (fun _ => true) } }).bump
      (F_ERR_B_COUNTS_OVF r.blk)
    if r.cls = 3 then enterContain (s2.bump F_ERR_FATAL_COUNT_COUNT) r
    else if r.cls = 2 then
      match matchTag s2 r with
      | some t => enterContain (s2.bump F_ERR_FATAL_COUNT_COUNT) { r with cls := 3, escalated := true, linkSeq := t.seq.getD 65535 }
      | none => openTag s2 r none
    else s2

/-- Raise a record of a block: TYPE, CLASS, RESOURCE, DETAIL and its TS96. -/
def State.raiseAt (s : State) (ts blk typ cls resource detail : Nat) (master : Nat := 0) : State :=
  s.raiseRec { ts := ts, blk := blk, cls := cls, typ := typ, master := master, lostBefore := false, injected := false,
               acked := false, escalated := false, resource := resource, detail := detail % 65536, linkSeq := 0,
               seq := 0 }

/-- Raise a record with the present TS96. -/
def State.raise (s : State) (blk typ cls resource detail : Nat) (master : Nat := 0) : State :=
  s.raiseAt s.now blk typ cls resource detail master

end Sys2Proof.Machine
end

