-- ==== Sys2Proof/Machine/ClkOps.lean ====
section
/-!
DEFINITION. Shared operations of clocks and timebase (chapter 15): core voltage, frequency changes, the outputs on the TCLK
grid.
-/

namespace Sys2Proof.Machine

/-- A change to the clocks. -/
def State.modClk (s : State) (g : Clk → Clk) : State := { s with clk := g s.clk }

/-! ### Core voltage (R423) -/

/-- Linear interpolation between operating points. -/
def oppInterp (mhz : Nat) : List (Nat × Nat) → Nat
  | (f0, v0) :: (f1, v1) :: rest =>
    if mhz ≤ f1 ∨ rest = [] then
      (if f1 ≤ f0 then v0 else v0 + (v1 - v0) * (mhz - f0) / (f1 - f0))
    else oppInterp mhz ((f1, v1) :: rest)
  | [(_, v)] => v
  | [] => 600

/-- The target voltage at a frequency, in mV. -/
def avsTarget (s : State) (mhz : Nat) : Nat :=
  let v := oppInterp mhz ((List.range 4).map (fun k => (s.rd (F_PMU_OPP_MHZ k), s.rd (F_PMU_OPP_MV k))))
  let m := max (-10) (min 10 (s.rdS F_PMU_AVS_CTRL_MARGIN))
  (max 600 (min 920 ((v : Int) + 5 * m))).toNat

/-- The voltage write under way has been acknowledged: a write not reported as timed out has, by the next one. -/
def avsAck (s : State) : State :=
  match s.clk.avsAt with
  | none => s
  | some _ => (s.wr F_PMU_AVS_STATUS_VOUT (s.rd F_PMU_AVS_STATUS_TARGET)).modClk (fun c => { c with avsAt := none, avsTries := 0 })

/-- A voltage is written: its acknowledgement is awaited (R423). -/
def avsWrite (s : State) (mv : Nat) : State :=
  if mv = s.rd F_PMU_AVS_STATUS_TARGET then s
  else ((avsAck s).wr F_PMU_AVS_STATUS_TARGET mv).modClk (fun c => { c with avsAt := some s.up, avsTries := 0 })

/-! ### Frequency changes (R417, R418) -/

/-- The frequency of FPLL (0) or MPLL (1) in kHz. -/
def pllKhz (s : State) (p : Nat) : Nat := if p = 0 then s.clk.fkhz else s.clk.mkhz

/-- The band entry in effect for a frequency in MHz (R417). -/
def bandOf (s : State) (p mhz : Nat) : Option Nat :=
  ((List.range 16).filter (fun i => s.onE (F_CKG_P_BAND_VALID p i) && s.rdE (F_CKG_P_BAND_F_LO p i) ≤ mhz)).foldl
    (fun (m : Option Nat) i => match m with
      | none => some i
      | some j => if s.rdE (F_CKG_P_BAND_F_LO p i) ≥ s.rdE (F_CKG_P_BAND_F_LO p j) then some i else m) none

/-- A PLL's frequency becomes a new one: its DCO codes where a band is crossed, CKG_Pp_FREQ. -/
def setKhz (s : State) (p khz : Nat) : State :=
  let s1 := s.modClk (fun c => if p = 0 then { c with fkhz := khz } else { c with mkhz := khz })
  let s2 := s1.wr (F_CKG_P_FREQ_KHZ p) khz
  match bandOf s2 p (khz / 1000) with
  | none => s2
  | some i =>
    if bandOf s2 p (pllKhz s p / 1000) = some i then s2
    else s2.wrs [(F_CKG_P_STATUS_BAND p, s2.rdE (F_CKG_P_BAND_BAND p i)), (F_CKG_P_STATUS_FINE p, s2.rdE (F_CKG_P_BAND_FINE0 p i))]

/-- The band table's registers of a PLL. -/
def bandRegs (p : Nat) : List Nat := (List.range 16).map (fun i => R_CKG_P_BAND p i)

/-- A change of MPLL's frequency: its band entries as last written take effect (R417). -/
def mpllTo (s : State) (khz : Nat) : State := setKhz (s.applyRegs (bandRegs 1)) 1 khz

/-- Whether a target is covered: always by the table as measured, else by the entries as rewritten (R417). -/
def covered (s : State) (p mhz : Nat) : Bool :=
  s.clk.measured.getD p true
    || (List.range 16).any (fun i => s.on (F_CKG_P_BAND_VALID p i) && s.rd (F_CKG_P_BAND_F_LO p i) ≤ mhz)

/-- The highest frequency whose voltage does not exceed the last acknowledged one, once AVS is degraded (R423). -/
def fclkLimit (s : State) : Nat :=
  if !s.on F_PMU_STATUS_AVS_DEGRADED then 2000
  else ((List.range 1501).reverse.find? (fun k => avsTarget s (500 + k) ≤ s.rd F_PMU_AVS_STATUS_VOUT)).getD 0 + 500

/-- A change of 3 % at most, which the PLL follows in lock (R418). -/
def smallStep (f t : Nat) : Bool := decide ((if f < t then t - f else f - t) * 100 ≤ 3 * f)

/-- A PLL stands at its target: no change is under way, and CLK_SETs that waited complete. -/
def freqSettled (s : State) (p start : Nat) : State :=
  let s1 := (s.wr (F_CKG_P_STATUS_STATE p) 3).modClk (fun c => { c with glides := listMod c.glides p (fun _ => none) })
  s1.wake .clkGlide p (okR (pllKhz s p / 1000) ((s.up - start) / 1000) 0 0)

/-- Start a change of a running PLL to a target in MHz: within 3 % in one step, else as a glide; for FPLL a rise waits for
the voltage, and the voltage follows a fall (R418, R422, R423). A PLL that is off or bypassed takes the target when it
locks. -/
def setFreq (s : State) (p mhz0 : Nat) : State :=
  let mhz := if p = 0 then min mhz0 (fclkLimit s) else mhz0
  let s0 := (s.applyRegs (bandRegs p)).wr (F_CKG_P_CTRL_TARGET p) mhz
  let f := pllKhz s p
  let t := mhz * 1000
  let st := s.rd (F_CKG_P_STATUS_STATE p)
  if st ≠ 3 ∧ st ≠ 4 then s0
  else if f = t then freqSettled s0 p s.up
  else
    let s1 := if p = 0 && f < t then avsWrite s0 (avsTarget s0 mhz) else s0
    let mv := s1.rd F_PMU_AVS_STATUS_TARGET - s1.rd F_PMU_AVS_STATUS_VOUT
    let wait := if p = 0 && f < t && mv ≠ 0 then mv * 200 + 3000 else 0
    if smallStep f t && wait = 0 then
      let s3 := freqSettled ((setKhz s1 p t).bump (F_CKG_P_COUNTS_CHANGES p)) p s.up
      if p = 0 then avsWrite s3 (avsTarget s3 mhz) else s3
    else
      (if smallStep f t then s1 else s1.wr (F_CKG_P_STATUS_STATE p) 4).modClk (fun c => { c with
        glides := listMod c.glides p (fun _ => some { src := f, tgt := t, k := 0, at_ := s.up + wait + 2000, start := s.up }) })

/-- The frequency after `k` steps of at most 1 %, or after the one step of a small change (R418). -/
def glideAt (g : Glide) (k : Nat) : Nat :=
  if smallStep g.src g.tgt then g.tgt
  else if g.src ≤ g.tgt then min g.tgt (g.src * 101 ^ k / 100 ^ k)
  else max g.tgt (cdiv (g.src * 100 ^ k) (101 ^ k))

/-- One step of a glide; at its end the PLL is locked and, for FPLL, the voltage follows (R418, R422). -/
def glideStep (s : State) (p : Nat) (g : Glide) : State :=
  let f := glideAt g (g.k + 1)
  let s1 := setKhz (if p = 0 then avsAck s else s) p f
  if f = g.tgt then
    let s2 := freqSettled (s1.bump (F_CKG_P_COUNTS_CHANGES p)) p g.start
    if p = 0 then avsWrite s2 (avsTarget s2 (f / 1000)) else s2
  else s1.modClk (fun c => { c with
    glides := listMod c.glides p (fun _ => some { g with k := g.k + 1, at_ := g.at_ + 2000 }) })

/-- How long a change takes, in µs (R418). -/
def glideUs (src tgt : Nat) : Nat :=
  if src = tgt then 0
  else if smallStep src tgt then 2
  else 2 * ((List.range 400).find? (fun k => glideAt { src := src, tgt := tgt, k := 0, at_ := 0, start := 0 } k == tgt)).getD 400

/-- The lowest FCLK that admission allows, in MHz (R312); with SSC, the set frequency it calls for (R419). -/
def fFloor (s : State) (ssc : Nat) : Nat :=
  let f := 10 * s.rd F_ADM_STATUS_F_CODE
  match ssc with
  | 1 => cdiv (f * 400) 399
  | 2 => cdiv (f * 200) 199
  | _ => f

/-- TRG leaves IDLE: FCLK goes to 2000 MHz and SSC is off (R97, R419, R422). -/
def fclkForTrg (s : State) : State :=
  let ssc := s.rd (F_CKG_P_CTRL_SSC 0)
  let s1 := if ssc = 0 then s
    else (s.wr (F_CKG_P_CTRL_SSC 0) 0).modClk (fun c => { c with deferred := some (s.rd (F_CKG_P_CTRL_TARGET 0), ssc) })
  if s1.on F_PMU_STATUS_THROTTLED then s1 else setFreq s1 0 2000

/-- TRG is IDLE again: what CLK_SET deferred takes effect (R97, R419). -/
def fclkDeferred (s : State) : State :=
  match s.clk.deferred with
  | none => s
  | some (mhz, ssc) =>
    let s1 := (s.wr (F_CKG_P_CTRL_SSC 0) ssc).modClk (fun c => { c with deferred := none })
    setFreq s1 0 (max mhz (fFloor s1 ssc))

/-- FCLK is where TRIG_ARM needs it (R422), or throttling overrides it (R424). -/
def fclkReady (s : State) : Bool :=
  (s.clk.fkhz == 2000000 && s.rd (F_CKG_P_STATUS_STATE 0) == 3) || s.on F_PMU_STATUS_THROTTLED

/-! ### Outputs (R432, R433) -/



/-- CREF_OUT runs while enabled, in Rest only with REST = 1, and not in bypass (R420, R433). -/
def crefPin (s : State) : State :=
  { s with pins := { s.pins with
      crefRunning := s.on F_TBS_CREF_EN && !tpllBypass s && (s.pstate != 0 || s.on F_TBS_CREF_REST) } }

/-- PPS_OUT: active during a pulse; low when disabled or in bypass; held in Containment (R420, R432). -/
def ppsPin (s : State) : State :=
  if s.err.contained then s
  else
    let a := s.clk.ppsEnd.isSome
    let l : Level := if !s.on F_TBS_PPS_OUT_EN || tpllBypass s then .low
      else if a != s.on F_TBS_PPS_OUT_POL then .high else .low
    { s with pins := { s.pins with ppsOut := l } }

/-! ### Power-state requests (R32, R435, R440) -/

/-- The code of GLB_STATE.PSTATE during the next leg from a state towards a target (R32). -/
def legCode (src target : Nat) : Nat := if src = 0 then 4 else if src = 2 then 6 else if target = 2 then 5 else 7

/-- The state a transition's code ends in. -/
def legEnd (code : Nat) : Nat := if code = 5 then 2 else if code = 7 then 0 else 1

/-- TRIG_OUT holds its inactive level during a transition (R125). -/
def trigQuiet (s : State) : State :=
  let l : Level := if !s.on F_TRG_OUT_CTRL_OE then .z else if s.on F_TRG_OUT_CTRL_POL then .high else .low
  { s with pins := { s.pins with trigOut := l } }

/-- A transition begins: PSTATE shows it; an upward one is a wake; MEMC leaves retention for Record (R435 to R439). -/
def psStart (s : State) (w : PsWant) : State :=
  let src := s.pstate
  let code := legCode src w.target
  let dst := legEnd code
  let begun := w.begun.getD s.up
  let s1 := s.wrs [(F_GLB_STATE_PSTATE, code), (F_PMU_STATUS_PSTATE, code)]
  let s2 := if dst > src then (s1.wr F_PMU_STATUS_WAKE_CAUSE w.cause).bump F_PMU_COUNTS_WAKES else s1
  let s3 := trigQuiet (if code = 5 then s2.setDom .memc 2 else s2)
  s3.modClk (fun c => { c with
    want := if dst = w.target then none else some { w with begun := some begun },
    trans := some { src := src, dst := dst, cause := w.cause, start := s.up, ts := s.now, begun := begun } })

/-- The one latched request is replaced; a replaced PSTATE_SET ends with ABORTED (R440). -/
def latchWant (s : State) (w : PsWant) : State :=
  let s1 := match s.clk.want with
    | some { cmd := some (q, t), .. } =>
      (match s.inflight? q t with
      | some c => s.finish c { st := .aborted }
      | none => s)
    | _ => s
  s1.modClk (fun c => { c with want := some w })

/-- Record is entered from Watch where it is wanted and DRAM is ready (R30). -/
def recordStart (s : State) : State :=
  match s.clk.want with
  | none => s
  | some w =>
    if !s.err.contained && s.clk.trans.isNone && s.inWatch && w.target == 2 && s.on F_GLB_STATE_DRAM_READY then psStart s w else s

/-- Something other than a command asks for Record (R435): during a transition the request is latched (R440). -/
def askRecord (s : State) (cause : Nat) : State :=
  let going := match s.clk.trans with | some t => t.dst == 2 | none => s.inRecord
  let asked := match s.clk.want with | some w => w.target == 2 | none => false
  if s.err.contained || going || asked then s
  else recordStart (latchWant s { target := 2, cause := cause, begun := none, cmd := none })

/-- One second in TS96. -/
abbrev sec1 : Nat := 4294967296000000000

end Sys2Proof.Machine
end

