-- ==== Sys2Proof/Machine/Access.lean ====
section
/-!
DEFINITION. Who may access what (R12, R20, R24, R25, R272), and the release of locks by force (R341).
-/

namespace Sys2Proof.Machine

/-! ### The host's way in (R31) -/

/-- HOSTLINK goes to retention, an established link to L1.2. -/
def hostSleep (s : State) : State := (s.setDom .hostlink 1).wrB F_HIF_STATUS_L1_2 (s.on F_HIF_STATUS_LINK_UP)

/-- HOSTLINK is on, the link in L0. -/
def hostWake (s : State) : State := (s.setDom .hostlink 2).wr F_HIF_STATUS_L1_2 0

/-- An access of the host: in Rest it brings HOSTLINK out of retention, with FPLL at 500 MHz. -/
def hostAccess (s : State) : State :=
  let s1 := s.modClk (fun c => { c with access := s.up })
  if s.pstate = 0 ∧ s.dom .hostlink = 1 then setKhz ((hostWake s1).wr (F_CKG_P_STATUS_STATE 0) 3) 0 500000 else s1

/-- Internal address of a register (R23). -/
def regAddr (a : Nat) : Nat := 0x080000000000 + a

/-- An access outside Table 1.4 is recorded with its master and address (R25). -/
def violation (s : State) (addr m : Nat) : State := s.raise 15 0x01 0 (resAddr addr) 0 m

/-- Whether a function's last HOST_WRITE_DENIED is less than 1 ms old (R272). -/
def denyQuiet (s : State) (f : Nat) : Bool :=
  match (s.fn f).denyAt with
  | some t => decide (s.up < t + 1000000)
  | none => false

/-- A discarded BAR0 write of a function: HIF_DENIED and, at most once per 1 ms, its record and event (R272). -/
def denyWrite (s : State) (f a : Nat) : State :=
  let x := s.fn f
  let s1 := (s.wrs [(F_HIF_DENIED_SRC_FUNCTION, f), (F_HIF_DENIED_SRC_CONTEXT, x.regCtx), (F_HIF_DENIED_OFS_OFFSET, a)]).bump
    F_HIF_DENIED_COUNT_COUNT
  let first := if x.denyCount = 0 then a else x.denyFirst
  let n := x.denyCount + 1
  if denyQuiet s f then s1.modFn f (fun y => { y with denyFirst := first, denyCount := n })
  else
    let s2 := s1.modFn f (fun y => { y with denyAt := some s.up, denyFirst := 0, denyCount := 0 })
    (s2.raise 2 0x02 0 (resMaster (1 + f)) 0 (1 + f)).postEvent f 0x0201 [first, n]

/-- Whether REG_CTX of a function names an open context of it that holds DIRECT (R272). -/
def regCtxDirect (s : State) (f : Nat) : Bool :=
  let c := (s.fn f).regCtx
  match s.ctx? c with
  | some x => x.func == f && s.hasPriv c 0
  | none => false

/-- Whether a master is a PCIe function. -/
def isHost (m : Nat) : Bool := 1 ≤ m && m ≤ 0x11

/-- Whether a master other than a PCIe function reaches a register by Table 1.4. -/
def mayReach (m a : Nat) : Bool :=
  if 0x20 ≤ m && m ≤ 0x23 then true
  else if 0x40 ≤ m && m ≤ 0x9F then
    blockOf a == 3 || (0x120000 ≤ a && a < 0x1E0000 && (a - 0x120000) / 0x10000 == (m - 0x40) / 8)
  else 0xC0 ≤ m && m ≤ 0xC7 && blockOf a == 3

/-- A fenced engine's master ID is blocked at the fabric: no access of it arrives (R231). -/
def State.blocked (s : State) (m : Nat) : Bool := 0x40 ≤ m && m ≤ 0x9F && s.eng.fenced.contains (m - 0x40)

/-- A register write by a master: of a PCIe function under R272, of another under Table 1.4; where the block is powered it
has effect `f` (R20). -/
def State.writeBy (s : State) (m a : Nat) (f : State → State) : State :=
  if isHost m then
    let t := hostAccess s
    if (t.fn (m - 1)).enabled && regCtxDirect t (m - 1) then t.gated m a true f else denyWrite t (m - 1) a
  else if s.blocked m then s
  else if mayReach m a then s.gated m a true f
  else violation s (regAddr a) m

/-! ### Locks (R338 to R341) -/

/-- The owner of a lock; 0 while it is free. -/
def lockOwner (s : State) (n : Nat) : Nat := s.rd (F_MBX_LOCK_OWNER_OWNER n)

/-- A lock takes an owner; TRY and the bits of LOCK_HELD follow. -/
def setLock (s : State) (n m : Nat) : State :=
  let held : Fld := if n < 32 then ⟨R_MBX_LOCK_HELD_LO, n, 1⟩ else ⟨R_MBX_LOCK_HELD_HI, n - 32, 1⟩
  s.wrs [(F_MBX_LOCK_OWNER_OWNER n, m), (held, b2n (m != 0))]

/-- A lock that is held is released by force; `cause` as in R344. A free one is left alone. -/
def lockForce (s : State) (cause n : Nat) : State :=
  let m := lockOwner s n
  if m = 0 then s
  else
    let s1 := ((setLock s n 0).wr (F_MBX_LOCK_OWNER_FORCED n) 1).bump F_MBX_LOCK_FORCED_COUNT
    (s1.raise 3 0x02 0 (resIndex (256 + n)) 0).postEvent 0 0x0302 [n + m * 256 + cause * 65536]

/-- Every lock that a master of a kind holds is released by force. -/
def lockForceOf (s : State) (cause : Nat) (p : Nat → Bool) : State :=
  (List.range 64).foldl (fun t n => if lockOwner t n != 0 && p (lockOwner t n) then lockForce t cause n else t) s

end Sys2Proof.Machine
end

