-- ==== Sys2Proof/Machine/RegWrite.lean ====
section
/-!
DEFINITION. A register write field by field (R5, R7, R10).
-/

namespace Sys2Proof.Machine

/-- A value written to one field while its block runs or not: the new state, and whether the write was refused. A WO
field's value acts elsewhere. -/
def fieldWrite (s : State) (a : Nat) (run : Bool) (f : FieldRow) (v : Nat) : State × Bool :=
  let fl : Fld := ⟨a, f.lo, f.w⟩
  let x := bitsOf v f.lo f.w
  let old := s.rd fl
  match f.acc with
  | .ro | .wo => (s, false)
  | .w1c => (s.wr fl (old &&& (2 ^ f.w - 1 - x)), false)
  | .w1s => (s.wr fl (old ||| x), false)
  | .rw => if f.cls = .f ∧ run = true ∧ x ≠ old then (s, true) else (s.wr fl x, false)

/-- A write of every field in a list. -/
def fieldsWrite (a : Nat) (run : Bool) (v : Nat) : List FieldRow → State → State × Bool
  | [], s => (s, false)
  | f :: fs, s =>
    let r := fieldWrite s a run f v
    let t := fieldsWrite a run v fs r.1
    (t.1, r.2 || t.2)

/-- A write of the listed fields of a register; `flag` is the block's WRITE_REFUSED. -/
def plainWrite (s : State) (a : Nat) (run : Bool) (flag : Fld) (v : Nat) (keep : FieldRow → Bool := fun _ => true) : State :=
  match lookupReg a with
  | none => s
  | some (row, _) =>
    let r := fieldsWrite a run v (row.fields.filter keep) s
    if r.2 then r.1.wr flag 1 else r.1

end Sys2Proof.Machine
end

