-- ==== Sys2Proof/Machine/Jin.lean ====
section
/-!
DEFINITION. The converter intake (chapter 2): its opcodes, its register writes with an effect, SYSREF and the LEMC,
lanes, loss and fill, release.
-/

namespace Sys2Proof.Machine

/-! ### Parameters -/

/-- L, N', E and F from JIN_PARAMS (Table 2.1). -/
def jinL (s : State) : Nat := s.rd F_JIN_PARAMS_L + 1
def jinNp (s : State) : Nat := if s.on F_JIN_PARAMS_NP then 16 else 12
def jinS (s : State) : Nat := 2 ^ s.rd F_JIN_PARAMS_S
def eOf (np : Nat) : Nat := if np = 12 then 3 else 1
def fOf (np l sam : Nat) : Nat := np / 4 * sam * 2 / l
def jinE (s : State) : Nat := eOf (jinNp s)

/-- Bring the derived fields E and F_OCTETS up to JIN_PARAMS. -/
def jinDerive (s : State) : State :=
  (s.wr F_JIN_PARAMS_E (jinE s)).wr F_JIN_PARAMS_F_OCTETS (fOf (jinNp s) (jinL s) (jinS s))

/-- The lanes of an enabled link (R43). -/
def linkLanes (s : State) (k : Nat) : List Nat := if jinL s = 2 then [2 * k, 2 * k + 1] else [2 * k]

/-- Whether a link is enabled. -/
def linkEn (s : State) (k : Nat) : Bool := (s.rd F_JIN_LINK_EN_LINK_EN >>> k) % 2 == 1

/-- The enabled links. -/
def enLinks (s : State) : List Nat := (List.range 12).filter (linkEn s)

/-- Whether the intake runs (R60). -/
def jinRun (s : State) : Bool := s.on F_JIN_CTRL_RUN

/-- Interleave group size of a link (R45). -/
def groupSize (mode : Nat) : Nat := if mode = 1 then 2 else if mode = 2 then 4 else 1

/-- The groups of converters of an interleave mode. -/
def groupsOf (mode : Nat) : List (List Nat) :=
  if mode = 1 then [[0, 1], [2, 3]] else if mode = 2 then [[0, 1, 2, 3]] else [[0], [1], [2], [3]]

/-- Position of converter `m` (R46). -/
def phasePos (order mode m : Nat) : Nat := bitsOf order (2 * m) 2 % groupSize mode

/-- Whether positions form a permutation within every group (R46). -/
def orderOk (mode order : Nat) : Bool :=
  (groupsOf mode).all (fun g => (List.range g.length).all (fun p => g.any (fun m => phasePos order mode m == p)))

/-- The order in use (R46). -/
def orderUsed (s : State) (k : Nat) : Nat :=
  let o := s.rd (F_JIN_L_CFG_PHASE_ORDER k)
  if orderOk (s.rd (F_JIN_L_CFG_INTERLEAVE k)) o then o else 0xE4

/-- ORDER_BAD follows the fields in effect (R46). -/
def orderFlag (s : State) (k : Nat) : State :=
  s.wrB (F_JIN_L_STATUS_ORDER_BAD k)
    (!orderOk (s.rd (F_JIN_L_CFG_INTERLEAVE k)) (s.rd (F_JIN_L_CFG_PHASE_ORDER k)))

/-- A change to one lane or link. -/
def State.modLane (s : State) (l : Nat) (g : Lane → Lane) : State :=
  { s with jin := { s.jin with lanes := listMod s.jin.lanes l g } }
def State.modLink (s : State) (k : Nat) (g : Link → Link) : State :=
  { s with jin := { s.jin with links := listMod s.jin.links k g } }
def State.lane (s : State) (l : Nat) : Lane := s.jin.lanes.getD l Lane.reset
def State.link (s : State) (k : Nat) : Link := s.jin.links.getD k Link.reset

/-! ### FCLK, ages and LEMC time -/

/-- The lowest instantaneous FCLK in kHz times 1000, with spread spectrum (R42, R419). -/
def fclkLow (s : State) : Nat :=
  let f := s.clk.fkhz
  let ssc := s.rd (F_CKG_P_CTRL_SSC 0)
  if ssc = 1 then f * 9975 / 10000 else if ssc = 2 then f * 9950 / 10000 else f

/-- AGE_k as a fraction of ns (R51): numerator and denominator. -/
def ageOf (s : State) (k : Nat) : Int × Nat :=
  let rate := s.rd F_JIN_LANE_RATE_RATE
  let f := s.clk.fkhz
  let lat := sext 32 (s.rdE (F_JIN_L_LAT_COMP_LAT_COMP k))
  (lat * rate * f + (s.rd F_JIN_RBD_RBD * 66000 * 65536 * f + 10000000 * 65536 * rate : Nat), 65536 * rate * f)

/-- A fraction of ns in 2^-8 ns steps, rounded up (R51). -/
def ceil8 (x : Int × Nat) : Nat := if x.2 = 0 then 0 else ((x.1 * 256 + x.2 - 1) / x.2).toNat

/-- JIN_AGE: the largest age of the enabled links (R51). -/
def jinAge (s : State) : Nat := ((enLinks s).map (fun k => ceil8 (ageOf s k))).foldl max 0

/-- T_EMB is 2112000 × E / rate ns: LEMC edges since the alignment, at a TS96 (R48, R49). -/
def lemcEdges (s : State) (t : Nat) : Nat :=
  match s.jin.lemc with
  | none => 0
  | some t0 => (t - t0) * s.rd F_JIN_LANE_RATE_RATE / (2112000 * jinE s * ns1)

/-- Blocks of an extended multiblock (R40). -/
def embSpan (s : State) : Nat := 32 * jinE s

/-- JIN_EMB_COUNT: LEMC edges since the alignment (Table 2.4). -/
def embCount (s : State) : State := s.wr64 R_JIN_EMB_COUNT_LO R_JIN_EMB_COUNT_HI (lemcEdges s s.now)

/-- Whether the time of a link's next block period has come: RBD blocks after the LEMC edge for the first block of a
multiblock, and a block period later for each one that follows (R50). Before the LEMC is aligned no period is late. -/
def blockDue (s : State) (k : Nat) : Bool :=
  match s.jin.lemc with
  | none => true
  | some t0 => decide (t0 * s.rd F_JIN_LANE_RATE_RATE + (s.link k).blk * 66000 * ns1 ≤ s.now * s.rd F_JIN_LANE_RATE_RATE)

/-- The place in its multiblock of a link's next block: 0 at a release point (R50). `none` before the alignment. -/
def blkPlace (s : State) (k : Nat) : Option Nat :=
  let span := embSpan s
  s.jin.lemc.map (fun _ => ((s.link k).blk + (span - s.rd F_JIN_RBD_RBD % span)) % span)

/-- The LEMC is aligned to a pulse: the block periods of every enabled link count from it, without a break in their rate,
so that real data resume at the first release point of this LEMC (R49, R57). -/
def lemcAlign (s : State) (t : Nat) : State :=
  let rate := s.rd F_JIN_LANE_RATE_RATE
  let due (k : Nat) : Nat := match s.jin.lemc with
    | none => s.now * rate
    | some t0 => t0 * rate + (s.link k).blk * 66000 * ns1
  let s1 := (enLinks s).foldl (fun u k => u.modLink k (fun l => { l with blk := (due k - t * rate) / (66000 * ns1) })) s
  embCount (({ s1 with jin := { s1.jin with lemc := some t } }).wr F_JIN_STATUS_ALIGNED 1)

/-- The TS96 of the LEMC edge of the last release point that has passed: RBD blocks after its edge (R50, R52). -/
def releaseEdge (s : State) : Option Nat :=
  match s.jin.lemc with
  | none => none
  | some t0 =>
    let rate := s.rd F_JIN_LANE_RATE_RATE
    let wait := s.rd F_JIN_RBD_RBD * 66000 * ns1 / rate
    if rate = 0 ∨ s.now < t0 + wait then none
    else some (t0 + lemcEdges s (s.now - wait) * 2112000 * jinE s * ns1 / rate)

/-- A nonnegative fraction rounded to the nearest integer, ties to even. -/
def roundNE (n : Int) (d : Nat) : Int :=
  if d = 0 then 0 else
  let q := n / d
  let r := n % d
  if 2 * r < d then q else if 2 * r > d then q + 1 else if q % 2 = 0 then q else q + 1

/-- TS0_k for the LEMC edge `n` after the alignment, rounded once to 2^-32 ns, ties to even (R53). -/
def ts0Of (s : State) (k n : Nat) : Nat :=
  match s.jin.lemc with
  | none => 0
  | some t0 =>
    let rate := s.rd F_JIN_LANE_RATE_RATE
    let dly := bitsOf (s.rdE F_JIN_SYSREF_DLY_DLY) (5 * (k / 2)) 5
    let fixed : Int := (t0 : Int) + (dly * 268435456 : Nat) - sext 32 (s.rdE (F_JIN_L_LAT_COMP_LAT_COMP k)) * 65536
    (roundNE (fixed * rate + (n * 2112000 * jinE s * ns1 : Nat)) rate).toNat

/-- The first LEMC edge at or after a TS96, as a count since the alignment (R52). -/
def lemcAtOrAfter (s : State) (t : Nat) : Nat :=
  match s.jin.lemc with
  | none => 0
  | some t0 => cdiv ((t - t0) * s.rd F_JIN_LANE_RATE_RATE) (2112000 * jinE s * ns1)

/-- The TS96 of the LEMC edge that begins the present multiblock (R54). -/
def lemcNow (s : State) : Nat :=
  match s.jin.lemc with
  | none => s.now
  | some t0 =>
    let rate := s.rd F_JIN_LANE_RATE_RATE
    if rate = 0 then s.now else t0 + lemcEdges s s.now * 2112000 * jinE s * ns1 / rate

/-- ARM takes effect in JIN: LAT_COMP takes effect, TS0 and the indices restart, fill counts clear (R52, R53). -/
def jinArm (s : State) (t : Nat) : State :=
  let n := lemcAtOrAfter s t
  let s1 := s.applyRegs ((List.range 12).map R_JIN_L_LAT_COMP)
  let s2 := (enLinks s).foldl (fun u k =>
    ((u.wrTs (R_JIN_L_TS0_W k 0) (ts0Of u k n)).wr (F_JIN_L_FILL_COUNT k) 0).modLink k
      (fun l => { l with idx := 0, blk := n * embSpan s + s.rd F_JIN_RBD_RBD })) s1
  ({ s2 with jin := { s2.jin with valid := true } }).wr F_JIN_STATUS_ARMED 1

/-- A disarm takes effect in JIN: samples carry no VALID and no index (R52). -/
def jinDisarm (s : State) : State :=
  ({ s with jin := { s.jin with valid := false } }).wr F_JIN_STATUS_ARMED 0

/-! ### Loss, lock and fill -/

/-- A link leaves UP: it is filled from now on; JIN_Lk_LOSS counts the leaving (R55, R56, Table 2.5). -/
def linkDown (s : State) (k : Nat) : State :=
  let s1 := if s.on (F_JIN_L_STATUS_UP k) then s.bump (F_JIN_L_LOSS_LOSS k) else s
  ((s1.wrs [(F_JIN_L_STATUS_UP k, 0), (F_JIN_L_STATUS_FILLING k, 1)]).wr ⟨R_JIN_STATUS, k, 1⟩ 0).modLink k
    (fun l => { l with live := false })

/-- A link is UP: real data resume at the next release point (R55, R57). -/
def linkUp (s : State) (k : Nat) : State := (s.wr (F_JIN_L_STATUS_UP k) 1).wr ⟨R_JIN_STATUS, k, 1⟩ 1

/-- Lock bits of a lane in its link's status. -/
def laneBit (base : Nat) (l : Nat) : Fld := ⟨R_JIN_L_STATUS (l / 2), base + l % 2, 1⟩

/-- Drop a lane's extended multiblock lock: what its elastic buffer still holds is not released (R56). -/
def dropEmb (s : State) (l : Nat) : State :=
  (s.wr (laneBit 4 l) 0).modLane l (fun x => { x with sinceMark := none, buf := [] })

/-- Drop the extended multiblock lock of every lane of a link and fill the link (R49, R58). -/
def dropLink (s : State) (k : Nat) : State := linkDown ((linkLanes s k).foldl dropEmb s) k

/-- A lane loses a lock: the locks above it go too, its link is filled, and a record is raised (R55, R56, R59). -/
def laneLoss (s : State) (l : Nat) (what : LaneLock) : State :=
  let k := l / 2
  if !(jinRun s && linkEn s k && (linkLanes s k).contains l) then s
  else
    let s1 := dropEmb s l
    let s2 := match what with
      | .emb => s1
      | .sh => (s1.wr (laneBit 2 l) 0).modLane l (fun x => { x with headers := [], good := 0 })
      | .cdr => ((s1.wr (laneBit 2 l) 0).wr (laneBit 0 l) 0).modLane l (fun x => { x with headers := [], good := 0 })
    let typ := match what with
      | .cdr => 1
      | .sh => 2
      | .emb => 3
    (linkDown s2 k).raiseAt (lemcNow s) 4 typ 0 (resIndex k) l

/-- The measured arrival of a lane (R50). -/
def laneArrival (s : State) (l : Nat) : Nat :=
  s.rd (if l % 2 = 0 then F_JIN_L_ARRIVAL_LANE0 (l / 2) else F_JIN_L_ARRIVAL_LANE1 (l / 2))

/-- The arrival check of R50 for a lane: `none` when it passes, else the record type: LATE or BUF_OVF. -/
def laneFails (s : State) (l : Nat) : Option Nat :=
  let rbd := s.rd F_JIN_RBD_RBD
  if laneArrival s l ≥ rbd then some 5 else if rbd > laneArrival s l + 31 then some 6 else none

/-- The arrival check of R50 for a link: `none` when every lane passes, else the type of the first lane that does not. -/
def arrivalCheck (s : State) (k : Nat) : Option Nat := (linkLanes s k).findSome? (laneFails s)

/-- Whether every lane of a link has extended multiblock lock. -/
def allEmb (s : State) (k : Nat) : Bool := (linkLanes s k).all (fun l => s.on (laneBit 4 l))

/-- The smallest MIN and the largest MAX over the enabled links. -/
def arrMin (s : State) : Nat := ((enLinks s).map (fun k => s.rd (F_JIN_L_ARRIVAL_MIN k))).foldl min 255
def arrMax (s : State) : Nat := ((enLinks s).map (fun k => s.rd (F_JIN_L_ARRIVAL_MAX k))).foldl max 0

/-- The reply of INTAKE_START (Table 2.3). -/
def startReply (s : State) (st : Status) : Reply :=
  { st := st, r0 := s.rd F_JIN_STATUS_UP + (s.rd F_JIN_RBD_RBD <<< 16), r1 := arrMin s + (arrMax s <<< 8),
    r2 := jinAge s }

/-- INTAKE_START completes once every enabled link is UP. -/
def startCheck (s : State) : State :=
  if (enLinks s).all (fun k => s.on (F_JIN_L_STATUS_UP k)) then s.wakeKind .intakeStart (startReply s .ok) else s

/-- Stop the intake: LATE clears, nothing is filled further, no loss is counted (R60). DESIGN CHOICE (log entry 39): the lanes'
lock bits, JIN_STATUS.ALIGNED and the LEMC's count clear too; R60 does not say whether they do. -/
def jinStop (s : State) : State :=
  let s1 := (List.range 12).foldl (fun u k =>
    ((((u.wr (F_JIN_L_STATUS_UP k) 0).wr (F_JIN_L_STATUS_LATE k) 0).wr (F_JIN_L_STATUS_FILLING k) 0).wr
      ⟨R_JIN_L_STATUS k, 0, 6⟩ 0)) s
  let s2 := ((s1.wr F_JIN_CTRL_RUN 0).wr F_JIN_STATUS_UP 0).wr F_JIN_STATUS_ALIGNED 0
  embCount { s2 with jin := { s2.jin with lanes := List.replicate 24 Lane.reset, links := List.replicate 12 Link.reset,
                                          lemc := none, valid := false } }

/-- Once every lane of a link has its lock and RBD stands: the arrival check, then UP, or LATE or BUF_OVF for each lane that
fails it and fill until restart (R50, R55, R57, R59). -/
def linkTry (s : State) (k : Nat) : State :=
  if !(jinRun s && linkEn s k && s.on F_JIN_STATUS_ALIGNED && allEmb s k) || (s.link k).dead
      || s.on (F_JIN_L_STATUS_UP k) || s.jin.autoRbd then s
  else
    match arrivalCheck s k with
    | none => startCheck (linkUp (s.modLink k (fun l => { l with mism := [] })) k)
    | some _ =>
      let s1 := if (linkLanes s k).any (fun l => laneFails s l == some 5) then s.wr (F_JIN_L_STATUS_LATE k) 1 else s
      (linkLanes s k).foldl (fun u l =>
        match laneFails s l with
        | none => u
        | some typ => u.raiseAt (lemcNow s) 4 typ 0 (resIndex k) l)
        (linkDown (s1.modLink k (fun l => { l with dead := true })) k)

/-- When INTAKE_START chooses RBD: once every enabled lane has its lock, RBD becomes ARRIVAL_MAX + 2, or the start
fails with HW_ERROR and RUN returns to 0 (R50, Table 2.3). DESIGN CHOICE (log entry 39): an automatic RBD is chosen once after
INTAKE_CONFIG, and a value found is kept for later starts; the rule does not say whether each start chooses again. -/
def autoRbd (s : State) : State :=
  if !(s.jin.autoRbd && (enLinks s).all (allEmb s)) then s
  else
    let r := arrMax s + 2
    if r ≤ arrMin s + 31 ∧ r ≤ 255 then ({ s with jin := { s.jin with autoRbd := false } }).wr F_JIN_RBD_RBD r
    else (jinStop s).wakeKind .intakeStart (startReply s .hwError)

/-! ### SYSREF -/

/-- Whether a pulse or a train is being launched. -/
def sysrefBusy (s : State) : Bool := s.jin.pulses != 0 || s.rdE F_JIN_SYSREF_CTRL_MODE == 3

/-- The addresses of the shadowed SYSREF fields. -/
def sysrefRegs : List Nat := [R_JIN_SYSREF_CTRL, R_JIN_SYSREF_PERIOD, R_JIN_SYSREF_DLY]

/-- After a write of a SYSREF field: it takes effect at once when no pulse train runs (R60). Mode 3 starts its train. -/
def sysrefApplyIfIdle (s : State) : State :=
  if sysrefBusy s then s
  else
    let t := s.applyRegs sysrefRegs
    if t.rdE F_JIN_SYSREF_CTRL_MODE = 3 then { t with jin := { t.jin with nextPulse := t.up, begun := false } } else t

/-- A write of GO: one pulse, or COUNT pulses with a COUNT of 0 as 1; ignored while an earlier GO is being launched
(R47). -/
def sysrefGo (s : State) : State :=
  if s.jin.pulses ≠ 0 then s
  else
    match s.rdE F_JIN_SYSREF_CTRL_MODE with
    | 1 => { s with jin := { s.jin with pulses := 1, nextPulse := s.up, begun := false } }
    | 2 => { s with jin := { s.jin with pulses := max 1 (s.rdE F_JIN_SYSREF_CTRL_COUNT), nextPulse := s.up, begun := false } }
    | _ => s

/-- Rest cuts a burst short: what is left of it is not launched (R62). -/
def sysrefCut (s : State) : State := { s with jin := { s.jin with pulses := 0, pulseNew := false } }

/-- The period of R48 against a parameter set. -/
def periodOk (period rate e : Nat) : Bool := period != 0 && (period * rate) % (2112000 * e) == 0

/-! ### Opcodes 0x20 to 0x27 (R64) -/

/-- The conditions on an INTAKE_CONFIG packet (Table 2.3, R40 to R42, R45). -/
def intakeConfigValid (p : Packet) (s : State) : Bool :=
  let l := pf p 2 12 1 + 1
  let np := if pb p 2 13 then 16 else 12
  let rate := pf p 3 0 16
  let t := pdw p 5 + pf p 6 0 16 * ns1
  let fsN := rate * 64 * l
  let fsD := 264 * np
  let modes := (List.range 12).map (fun k => pf p 4 (2 * k) 2)
  let g := (((List.range 12).filter (fun k => pf p 2 k 1 == 1)).map (fun k => groupSize (modes.getD k 0))).foldl max 1
  let a := 1000 * ns1 * fsD
  let b := fsN * t
  pf p 2 14 2 != 3 && (if np = 12 then pf p 2 16 3 == 0 else pf p 2 16 3 ≤ 4)
    && decide (6000 ≤ rate ∧ rate ≤ 32000) && decide (fsN ≤ 1000 * fsD) && modes.all (fun m => m != 3)
    && decide (g * fsN * 1000 ≤ fclkLow s * 8 * fsD)
    && decide (t ≠ 0) && decide ((if a ≥ b then a - b else b - a) * 10000 ≤ b)

/-- INTAKE_CONFIG. -/
def execIntakeConfig (p : Packet) (s : State) : Out :=
  fcpStep { op := 0x20, pfOnly := true, dom := some .intake, valid := intakeConfigValid,
            allowed := fun _ s => !jinRun s,
            run := fun p s =>
              let s1 := s.wrs [(F_JIN_LINK_EN_LINK_EN, pf p 2 0 12), (F_JIN_PARAMS_L, pf p 2 12 1),
                (F_JIN_PARAMS_NP, pf p 2 13 1), (F_JIN_PARAMS_S, pf p 2 14 2), (F_JIN_PARAMS_CS, pf p 2 16 3),
                (F_JIN_PARAMS_OFFSET_BIN, pf p 2 19 1), (F_JIN_LANE_RATE_RATE, pf p 3 0 16),
                (F_JIN_TS_PERIOD_LO_FRAC, pdw p 5), (F_JIN_TS_PERIOD_HI_NS, pf p 6 0 16),
                (F_JIN_RBD_RBD, pf p 7 0 8)]
              let s2 := (List.range 12).foldl
                (fun u k => orderFlag (u.wr (F_JIN_L_CFG_INTERLEAVE k) (pf p 4 (2 * k) 2)) k) s1
              let s3 := { s2 with jin := { s2.jin with autoRbd := pf p 7 0 8 == 255 } }
              fOk (jinDerive s3) } p s

/-- INTAKE_LINK. -/
def execIntakeLink (p : Packet) (s : State) : Out :=
  fcpStep { op := 0x21, pfOnly := true, dom := some .intake,
            valid := fun p s => pf p 2 0 4 ≤ 11
              && (pb p 2 31 || orderOk (s.rd (F_JIN_L_CFG_INTERLEAVE (pf p 2 0 4))) (pf p 2 8 8)),
            allowed := fun p s => pb p 2 31 || !jinRun s,
            run := fun p s =>
              let k := pf p 2 0 4
              let s1 := s.wr (F_JIN_L_LAT_COMP_LAT_COMP k) (pdw p 3)
              if pb p 2 31 then fOk s1
              else fOk (orderFlag (s1.wrs [(F_JIN_L_CFG_LANE_SWAP k, pf p 2 4 1), (F_JIN_L_CFG_POL k, pf p 2 5 2),
                (F_JIN_L_CFG_PHASE_ORDER k, pf p 2 8 8)]) k) } p s

/-- Whether SYSREF can align every enabled link (Table 2.3, INTAKE_START). -/
def startAllowed (s : State) : Bool :=
  jinRun s || (s.rdE F_JIN_SYSREF_CTRL_MODE != 0
    && (enLinks s).all (fun k => (s.rdE F_JIN_SYSREF_CTRL_OUT_EN >>> (k / 2)) % 2 == 1))

/-- RUN becomes 1: the first pulse after it will align the LEMC; enabled links are filled until they are UP (R49, R56). -/
def jinStart (s : State) : State :=
  (enLinks s).foldl (fun u k => u.wr (F_JIN_L_STATUS_FILLING k) 1)
    (({ s with jin := { s.jin with pulseNew := false } }).wr F_JIN_CTRL_RUN 1)

/-- INTAKE_START. -/
def execIntakeStart (p : Packet) (s : State) : Out :=
  fcpStep { op := 0x22, pfOnly := true, dom := some .intake, allowed := fun _ s => startAllowed s,
            run := fun p s =>
              if jinRun s then .final (startReply s .ok) s
              else
                let s1 := sysrefGo (jinStart s)
                let ms := if pf p 2 0 16 = 0 then 100 else pf p 2 0 16
                if enLinks s1 = [] then .final (startReply s1 .ok) s1
                else .wait .intakeStart 0 (s1.up + ms * 1000000) s1 } p s

/-- INTAKE_STOP. -/
def execIntakeStop (p : Packet) (s : State) : Out :=
  fcpStep { op := 0x23, pfOnly := true, dom := some .intake, allowed := fun _ s => !s.on F_JIN_STATUS_ARMED,
            run := fun _ s => fOk (jinStop s) } p s

/-- The counters of a link (CLR_COUNTERS, CLEAR). -/
def linkCounters (k : Nat) : List Fld :=
  [F_JIN_L_CRC_ERR_COUNT k, F_JIN_L_SH_ERR_COUNT k, F_JIN_L_LOSS_LOSS k, F_JIN_L_LOSS_SYSREF_PHASE k,
   F_JIN_L_FILL_COUNT k, F_JIN_L_PRBS_ERR0 k, F_JIN_L_PRBS_ERR1 k]

/-- INTAKE_STATUS. -/
def execIntakeStatus (p : Packet) (s : State) : Out :=
  fcpStep { op := 0x24, dom := some .intake, valid := fun p _ => pf p 2 0 4 ≤ 11,
            run := fun p s =>
              let k := pf p 2 0 4
              .final (okR (s.reg (R_JIN_L_STATUS k)).toNat (s.reg (R_JIN_L_CRC_ERR k)).toNat
                  (s.reg (R_JIN_L_SH_ERR k)).toNat (s.reg (R_JIN_L_LOSS k)).toNat)
                (if pb p 2 8 then s.zeroFields (linkCounters k) else s) } p s

/-- SYSREF_SET. -/
def execSysrefSet (p : Packet) (s : State) : Out :=
  fcpStep { op := 0x25, pfOnly := true, dom := some .intake,
            valid := fun p s => periodOk (pdw p 3) (s.rd F_JIN_LANE_RATE_RATE) (jinE s) && pf p 2 8 8 != 0,
            run := fun p s =>
              let s1 := s.wrs [(F_JIN_SYSREF_CTRL_MODE, pf p 2 0 2), (F_JIN_SYSREF_CTRL_OUT_EN, pf p 2 2 6),
                (F_JIN_SYSREF_CTRL_PULSE_W, pf p 2 8 8), (F_JIN_SYSREF_CTRL_COUNT, pf p 2 16 16),
                (F_JIN_SYSREF_PERIOD_PERIOD, pdw p 3), (F_JIN_SYSREF_DLY_DLY, pf p 4 0 30)]
              let s2 := sysrefApplyIfIdle s1
              fOk (if pb p 5 0 then sysrefGo s2 else s2) } p s

/-- LANE_TEST. -/
def execLaneTest (p : Packet) (s : State) : Out :=
  fcpStep { op := 0x26, pfOnly := true, dom := some .intake, allowed := fun _ s => !jinRun s,
            run := fun p s =>
              let s1 := s.wr F_JIN_CTRL_PRBS_SEL (pf p 2 0 3)
              .wait .laneTest 0 (s1.up + pf p 2 16 16 * 1000000)
                { s1 with jin := { s1.jin with testMask := pf p 3 0 24 } } } p s

/-- The test ends with the bit errors of each lane and the lanes that never locked. -/
def execLaneTestEnd (errs : List Nat) (unlocked : Nat) (s : State) : Out :=
  if !(s.fcp.inflight.any (fun c => c.kind == .laneTest && decide (c.due ≤ s.up))) then .next s
  else
    let tested := (List.range 24).filter (fun l => (s.jin.testMask >>> l) % 2 == 1)
    let s1 := tested.foldl (fun u l =>
      u.bumpBy (if l % 2 = 0 then F_JIN_L_PRBS_ERR0 (l / 2) else F_JIN_L_PRBS_ERR1 (l / 2)) (errs.getD l 0)) s
    let bad := (tested.filter (fun l => errs.getD l 0 != 0)).foldl (fun v l => v + 2 ^ l) 0
    let total := (tested.map (fun l => errs.getD l 0)).foldl (· + ·) 0
    .next (({ s1 with jin := { s1.jin with testMask := 0 } }.wr F_JIN_CTRL_PRBS_SEL 0).wake .laneTest 0
      (okR bad total (unlocked &&& s.jin.testMask) 0))

/-! ### CSPI (R63) -/

/-- Whether a transfer is in progress. -/
def cspiBusy (s : State) : Bool := s.on F_JIN_CSPI_CTRL_BUSY

/-- Bytes stand in the port's data registers from byte 0 on; the bytes beyond them keep what they held (R63, Table 2.4). -/
def cspiData (s : State) (bs : List Byte) : State :=
  let all := bs ++ (dwordBytes ((List.range 8).map (fun i => s.reg (R_JIN_CSPI_DATA i)))).drop bs.length
  (List.range 8).foldl (fun u i => u.setReg (R_JIN_CSPI_DATA i) (BitVec.ofNat 32 (dwordAt all i))) s

/-- Start the oldest transfer that waits: the port's fields and data take its values, and its chip select asserts. -/
def cspiStart (s : State) : State :=
  if cspiBusy s then s
  else
    match s.jin.cspi with
    | [] => s
    | j :: _ =>
      let s1 := s.wrs [(F_JIN_CSPI_CTRL_CS, j.cs), (F_JIN_CSPI_CTRL_MODE, j.mode), (F_JIN_CSPI_CTRL_DIV, j.div),
        (F_JIN_CSPI_CTRL_LEN, j.bytes.length), (F_JIN_CSPI_CTRL_BUSY, 1)]
      let s2 := cspiData s1 j.bytes
      { s2 with pins := { s2.pins with cspiCsN := 255 - 2 ^ j.cs } }

/-- CSPI_XFER. -/
def execCspiXfer (p : Packet) (s : State) : Out :=
  fcpStep { op := 0x27, pfOnly := true, dom := some .intake,
            valid := fun p _ => decide (1 ≤ pf p 2 16 5 ∧ pf p 2 16 5 ≤ 16),
            run := fun p s =>
              let j : CspiJob := {
                cs := pf p 2 0 3, mode := pf p 2 3 2, div := pf p 2 8 4,
                bytes := (dwordBytes ((p.dws.drop 3).take 4)).take (pf p 2 16 5), qid := p.qid, tag := pTag p }
              .wait .cspi 0 0 (cspiStart { s with jin := { s.jin with cspi := s.jin.cspi ++ [j] } }) } p s

/-- JIN_CSPI_CTRL.GO: a transfer from the registers; ignored while BUSY. A LEN outside 1 to 32 starts nothing. -/
def cspiGo (s : State) : State :=
  if cspiBusy s || s.rd F_JIN_CSPI_CTRL_LEN == 0 || s.rd F_JIN_CSPI_CTRL_LEN > 32 then s
  else
    let bytes := (dwordBytes ((List.range 8).map (fun i => s.reg (R_JIN_CSPI_DATA i)))).take (s.rd F_JIN_CSPI_CTRL_LEN)
    cspiStart { s with jin := { s.jin with cspi := s.jin.cspi ++
      [{ cs := s.rd F_JIN_CSPI_CTRL_CS, mode := s.rd F_JIN_CSPI_CTRL_MODE, div := s.rd F_JIN_CSPI_CTRL_DIV,
         bytes := bytes, qid := 512, tag := 0 }] } }

/-- The transfer in progress ends: MISO's bytes are in the data registers, chip select releases, the command that
asked for it completes, and the next transfer starts. -/
def execCspiTransferDone (miso : List Byte) (s : State) : Out :=
  if !cspiBusy s then .next s
  else
    match s.jin.cspi with
    | [] => .next (s.wr F_JIN_CSPI_CTRL_BUSY 0)
    | j :: js =>
      let got := (List.range j.bytes.length).map (fun i => miso.getD i 0)
      let s1 := cspiData (s.wr F_JIN_CSPI_CTRL_BUSY 0) got
      let s2 := { s1 with jin := { s1.jin with cspi := js }, pins := { s1.pins with cspiCsN := 255 } }
      let s3 := s2.finishAll (fun c => c.kind == .cspi && c.qid == j.qid && c.tag == j.tag)
        (okR (dwordAt got 0) (dwordAt got 1) (dwordAt got 2) (dwordAt got 3))
      .next (if s3.err.contained then s3 else cspiStart s3)

/-! ### Register writes with an effect -/

/-- CLR_COUNTERS of JIN. -/
def jinClr (s : State) : State := s.zeroFields ((List.range 12).flatMap linkCounters)

/-- JIN_CTRL is written: CLR_COUNTERS, REALIGN, PRBS_SEL while stopped, RUN (R60). A write of RUN = 0 while armed is
refused. -/
def jinCtrlWrite (v : Nat) (s : State) : State :=
  let s1 := (if v.testBit 1 then jinClr s else s).wr F_JIN_CTRL_REALIGN (bitsOf v 8 1)
  let s2 := if jinRun s then
      (if bitsOf v 4 3 ≠ s.rd F_JIN_CTRL_PRBS_SEL then s1.wr F_JIN_STATUS_WRITE_REFUSED 1 else s1)
    else s1.wr F_JIN_CTRL_PRBS_SEL (bitsOf v 4 3)
  if bitsOf v 0 1 = 1 then (if jinRun s then s2 else jinStart s2)
  else if jinRun s then
    (if s.on F_JIN_STATUS_ARMED then s2.wr F_JIN_STATUS_WRITE_REFUSED 1 else jinStop s2)
  else s2

/-- A write of JIN_CSPI_CTRL: its frozen fields, then GO. DESIGN CHOICE (log entry 39): GO is class W1S and the manual does not
say when it clears; it always reads 0 here, and BUSY shows the transfer. -/
def cspiCtrlWrite (v : Nat) (s : State) : State :=
  let s1 := plainWrite s R_JIN_CSPI_CTRL (cspiBusy s) F_JIN_STATUS_WRITE_REFUSED v (fun f => f.lo < 31)
  if v.testBit 31 then cspiGo s1 else s1

/-- A write of JIN_SYSREF_ISSUE. -/
def sysrefIssueWrite (v : Nat) (s : State) : State := if v.testBit 0 then sysrefGo s else s

/-- JIN_RUN_WRITE. -/
def execJinRunWrite (m : Nat) (v : Word) (s : State) : Out := .next (s.writeBy m R_JIN_CTRL (jinCtrlWrite v.toNat))

/-- JIN_CLR_COUNTERS. -/
def execJinClrCounters (m : Nat) (v : Word) (s : State) : Out :=
  .next (s.writeBy m R_JIN_CTRL (jinCtrlWrite v.toNat))

/-- SYSREF_ISSUE_GO. -/
def execSysrefIssueGo (m : Nat) (v : Word) (s : State) : Out :=
  .next (s.writeBy m R_JIN_SYSREF_ISSUE (sysrefIssueWrite v.toNat))

/-- CSPI_GO. -/
def execCspiGo (m : Nat) (v : Word) (s : State) : Out :=
  .next (s.writeBy m R_JIN_CSPI_CTRL (cspiCtrlWrite v.toNat))

/-! ### Events -/

/-- TBS launches a SYSREF pulse: due while a burst has pulses left or mode 3 runs, at the period (R47). The shadowed
fields take effect at this boundary: mode 0 ends a burst or train, mode 3 takes over from a burst, and a mode 1 or 2 that
follows mode 3 launches nothing before a GO. -/
def execSysrefLaunch (s : State) : Out :=
  if !s.domOn .intake || s.err.contained || !sysrefBusy s || s.up < s.jin.nextPulse then .next s
  else
    let s1 := s.applyRegs sysrefRegs
    let m := s1.rdE F_JIN_SYSREF_CTRL_MODE
    let s2 := { s1 with jin := { s1.jin with pulses := if m = 1 ∨ m = 2 then s.jin.pulses - 1 else 0 } }
    if m = 0 ∨ (m ≠ 3 ∧ s.jin.pulses = 0) then .next s2
    else
      let s3 := { s2 with
        pins := { s2.pins with sysref := if tpllBypass s then 0 else s2.rdE F_JIN_SYSREF_CTRL_OUT_EN },
        jin := { s2.jin with pulseNew := true, nextPulse := s.up + s2.rdE F_JIN_SYSREF_PERIOD_PERIOD,
                             pulseEnd := s.up + s2.rdE F_JIN_SYSREF_CTRL_PULSE_W, begun := true, later := s.jin.begun } }
      .next (s3.wrTs (R_JIN_SYSREF_LAST_W 0) s.now)

/-- The pulse is taken in. -/
def pulseTaken (s : State) : State := { s with jin := { s.jin with pulseNew := false } }

/-- A pulse off an edge is reported for every enabled link (R49). -/
def phaseErrs (s : State) : State :=
  (enLinks s).foldl (fun u k => (u.bump (F_JIN_L_LOSS_SYSREF_PHASE k)).raiseAt (lemcNow s) 4 7 0 (resIndex k) 0) s

/-- A pulse lies on an edge of the LEMC. -/
def onEdge (s : State) (t t0 : Nat) : Bool := (t - t0) * s.rd F_JIN_LANE_RATE_RATE % (2112000 * jinE s * ns1) == 0

/-- Whether a pulse is in error: off an edge of the LEMC (R49), or any pulse after the first of a burst or train whose PERIOD
breaks the rule for it (R48). -/
def pulseBad (s : State) (t t0 : Nat) : Bool :=
  !onEdge s t t0 || (s.jin.later && !periodOk (s.rdE F_JIN_SYSREF_PERIOD_PERIOD) (s.rd F_JIN_LANE_RATE_RATE) (jinE s))

/-- A launched pulse reaches the LEMC: the first after RUN aligns it, a later one is checked against it, and one in error
realigns it if REALIGN = 1 (R48, R49). -/
def execSysrefPulseCheck (s0 : State) : Out :=
  let t := s0.rdTs (R_JIN_SYSREF_LAST_W 0)
  if !s0.domOn .intake || !jinRun s0 || !s0.jin.pulseNew then .next s0
  else
    let s := pulseTaken s0
    match s0.jin.lemc with
    | none => .next (lemcAlign s t)
    | some t0 =>
      if !pulseBad s0 t t0 then .next s
      else
        let s1 := phaseErrs s
        if s.on F_JIN_CTRL_REALIGN then .next ((enLinks s).foldl dropLink (lemcAlign s1 t)) else .next s1

/-- A lane loses lock. -/
def execLaneLockLoss (lane : Nat) (what : LaneLock) (s : State) : Out :=
  if s.domOn .intake then .next (laneLoss s lane what) else .next s

/-- A lane gains extended multiblock lock: its arrival is measured, and the link tries to come up (R50, R55). -/
def laneArrive (s : State) (l pos : Nat) : State :=
  let k := l / 2
  let a := pos % (32 * jinE s)
  let s1 := (s.wr (laneBit 4 l) 1).wr (if l % 2 = 0 then F_JIN_L_ARRIVAL_LANE0 k else F_JIN_L_ARRIVAL_LANE1 k) a
  let arr := (linkLanes s1 k).map
    (fun x => s1.rd (if x % 2 = 0 then F_JIN_L_ARRIVAL_LANE0 k else F_JIN_L_ARRIVAL_LANE1 k))
  autoRbd ((s1.wr (F_JIN_L_ARRIVAL_MIN k) (arr.foldl min 255)).wr (F_JIN_L_ARRIVAL_MAX k) (arr.foldl max 0))

/-- Samples of a converter in an extended multiblock (R40, R44). -/
def embSamples (s : State) : Nat := 512 * jinE s * jinL s / jinNp s

/-- The sample index at which the extended multiblock that a lane has just received ends: what is released, and what
stands in the buffer with the block that has come, to the nearest multiblock. -/
def embEnd (s : State) (l : Nat) : Nat :=
  let p := (s.link (l / 2)).idx * jinNp s + ((s.lane l).buf.length + 1) * 16 * jinL s
  let n := embSamples s * jinNp s
  if n = 0 then 0 else (2 * p + n) / (2 * n) * embSamples s

/-- The CRC-12 that came with the extended multiblock that ended, of the one before it: a mismatch is counted and its index
range reported as suspect; beyond the limit the link drops its lock (R58). A multiblock with a filled block is not
checked. -/
def crcCheck (s : State) (l : Nat) (ok : Bool) : State :=
  let k := l / 2
  let x := s.lane l
  let n := (s.link k).embNo + b2n (l % 2 == 0)
  let s0 := (s.modLink k (fun y => { y with embNo := n })).modLane l (fun y => { y with embFill := false, lastFill := x.embFill })
  if ok || x.lastFill then s0
  else
    let recent := n :: ((s.link k).mism.filter (fun m => n < m + 1024))
    let s1 := (s0.bump (F_JIN_L_CRC_ERR_COUNT k)).modLink k (fun y => { y with mism := recent })
    let hi := embEnd s l - embSamples s
    let s2 := if s.on (F_JIN_L_STATUS_UP k) && s.jin.valid && hi != 0 then
        { s1 with jin := { s1.jin with suspects := s1.jin.suspects ++ [(k, hi - embSamples s, hi)] } }
      else s1
    let lim := s.rd F_JIN_ERR_CTRL_CRC_LIMIT
    if lim ≠ 0 ∧ recent.length > lim ∧ s.on (F_JIN_L_STATUS_UP k) then
      (dropLink (s2.modLink k (fun y => { y with mism := [] })) k).raiseAt (lemcNow s) 4 4 0 (resIndex k) l
    else s2

/-- A block arrives on a lane: header count and lock, marker and extended multiblock lock, CRC, elastic buffer
(R50, R54 to R58). -/
def blockArrive (s : State) (l : Nat) (b : LaneBlock) : State :=
  let k := l / 2
  let x := s.lane l
  let s0 := s.wr (laneBit 0 l) 1
  let hdr := (b.valid :: x.headers).take 64
  let good := if b.valid then x.good + 1 else 0
  let s1 := s0.modLane l (fun y => { y with headers := hdr, good := good })
  let s2 := if b.valid then s1
    else (s1.bump (F_JIN_L_SH_ERR_COUNT k)).modLane l (fun y => { y with embFill := true })
  let shWas := s.on (laneBit 2 l)
  if shWas && (hdr.filter (fun v => !v)).length ≥ 16 then laneLoss s2 l .sh
  else
    let s3 := if !shWas && good ≥ 64 then s2.wr (laneBit 2 l) 1 else s2
    if !s3.on (laneBit 2 l) then s3
    else
      let span := 32 * jinE s
      let since := x.sinceMark.map (· + 1)
      let at_ := since.getD 1 - 1
      let push (u : State) : State := u.modLane l (fun y =>
        { y with buf := (y.buf ++ [(at_, b.octets.map (fun o => (Octet.mk o (!b.valid))))]).drop (y.buf.length - 31) })
      let embWas := s.on (laneBit 4 l)
      if b.marker then
        if embWas && since ≠ some span then laneLoss s3 l .emb
        else
          let s4 := s3.modLane l (fun y => { y with sinceMark := some 0 })
          if !embWas && since = some span then
            laneArrive (s4.modLane l (fun y => { y with embFill := false, lastFill := true })) l b.pos
          else if embWas then push (crcCheck s4 l b.crcOk)
          else s4
      else if embWas && since = some span then laneLoss s3 l .emb
      else
        let s4 := s3.modLane l (fun y => { y with sinceMark := since })
        if embWas then push s4 else s4

/-- A block arrives; ignored on a lane of a disabled link or while the intake does not run (R59). -/
def execJinBlockArrival (lane : Nat) (blk : LaneBlock) (s : State) : Out :=
  if s.domOn .intake && jinRun s && linkEn s (lane / 2) && (linkLanes s (lane / 2)).contains lane then
    .next (blockArrive s lane blk)
  else .next s

/-- A link whose lanes all have their lock passes or fails its arrival check (R55, R57). -/
def execLinkRelock (k : Nat) (s : State) : Out :=
  if s.domOn .intake && k < 12 then .next (linkTry s k) else .next s

/-! ### Release -/

/-- The bits of octets, most significant first (R44). -/
def octetBits (os : List Octet) : List Bool :=
  os.flatMap (fun o => (List.range 8).map (fun i => o.byte.toNat.testBit (7 - i)))

/-- The number that bits spell, most significant first. -/
def bitsNat (bs : List Bool) : Nat := bs.foldl (fun v b => 2 * v + b2n b) 0

/-- The sample that a word of N' bits carries: the upper 12 bits, bit 11 inverted for offset binary, control bit 0 as
over-range when CS ≥ 1 (R41, R44). -/
def wordSample (s : State) (valid : Bool) (w : List Bool) (fill : Bool) : Sample :=
  let np := jinNp s
  let v := bitsNat (w.take 12)
  let code := if s.on F_JIN_PARAMS_OFFSET_BIN then v ^^^ 2048 else v
  if fill then { code := 0, valid := valid, fill := true, ovr := false }
  else { code := sext 12 code, valid := valid, fill := false,
         ovr := np == 16 && s.rd F_JIN_PARAMS_CS ≥ 1 && (w.drop 12).headD false }

/-- A list cut into pieces of one length. -/
def chunks {α : Type} (n : Nat) : Nat → List α → List (List α)
  | 0, _ => []
  | k + 1, l => l.take n :: chunks n k (l.drop n)

/-- Frames taken from a link's octets while every lane holds a whole one: each frame gives S samples of each of the
4 converters (R44). -/
def takeFrames (s : State) (valid : Bool) (f : Nat) :
    Nat → List (List Octet) → List (List Sample) → List (List Octet) × List (List Sample)
  | 0, lanes, acc => (lanes, acc)
  | n + 1, lanes, acc =>
    if f = 0 || lanes.any (fun l => l.length < f) then (lanes, acc)
    else
      let os := lanes.flatMap (fun l => l.take f)
      let fill := os.any (fun o => o.fill)
      let words := chunks (jinNp s) (4 * jinS s) (octetBits os)
      let per := chunks (jinS s) 4 (words.map (fun w => wordSample s valid w fill))
      takeFrames s valid f n (lanes.map (fun l => l.drop f))
        ((List.range 4).map (fun m => acc.getD m [] ++ per.getD m []))

/-- One block period of fill octets. -/
def fillBlock : List Octet := List.replicate 8 { byte := 0, fill := true }

/-- Whether a sample is in excess of the 8 that JIN delivers per FCLK of each channel or combined input (R42): of the
samples of a stretch, as many are kept as fit. DESIGN CHOICE (log entry 39): those left out are spread evenly; the rule does not
say which ones count as the excess. -/
def excess (s : State) (k i : Nat) : Bool :=
  let have_ := fclkLow s * 8 * 264 * jinNp s
  let need := groupSize (s.rd (F_JIN_L_CFG_INTERLEAVE k)) * s.rd F_JIN_LANE_RATE_RATE * 64 * jinL s * 1000
  decide (have_ < need) && (i + 1) * have_ / need == i * have_ / need

/-- A fill sample in place of another (R56). -/
def Sample.filled (x : Sample) : Sample := { x with code := 0, fill := true, ovr := false }

/-- A filled block at a place of its multiblock keeps the CRC of that multiblock unchecked (R58): the one that arrives on the
lane, or the one before it, of which blocks are still in the elastic buffer. -/
def fillNote (p : Nat) (y : Lane) : Lane :=
  if p < y.sinceMark.getD 0 then { y with embFill := true } else { y with lastFill := true }

/-- A link releases the next block of each lane, framed into samples for the filter unit: from a release point on at which
it is UP and every lane holds the first block of its multiblock, real octets, otherwise fill (R50, R52, R56, R57).
LANE_SWAP exchanges the lanes and POL inverts them (R43). DESIGN CHOICE (log entry 39): JIN_Lk_FILL counts one filled block for
each block period of the link, not one for each lane; R56 does not say which. -/
def jinReleaseBlock (s : State) (k : Nat) : State :=
  let ls := linkLanes s k
  let x0 := s.link k
  let place := blkPlace s k
  let s0 := if place = some 0 then
      ls.foldl (fun u l => u.modLane l (fun y => { y with buf := y.buf.dropWhile (fun e => e.1 != 0) })) s
    else s
  let live := s.on (F_JIN_L_STATUS_UP k) && (if place = some 0 then ls.all (fun l => !(s0.lane l).buf.isEmpty) else x0.live)
  let up := live && ls.all (fun l => !(s0.lane l).buf.isEmpty)
  let take (l : Nat) : List Octet :=
    if up then
      ((s0.lane l).buf.headD (0, fillBlock)).2.map (fun o =>
        if (s.rd (F_JIN_L_CFG_POL k) >>> (l % 2)) % 2 = 1 then { o with byte := ~~~o.byte } else o)
    else fillBlock
  let s1 := ls.foldl (fun u l => u.modLane l (fun y =>
    { y with buf := if live then y.buf.drop 1 else y.buf, octs := y.octs ++ take l })) (s0.wrB (F_JIN_L_STATUS_FILLING k) (!live))
  let order := if s.on (F_JIN_L_CFG_LANE_SWAP k) && jinL s = 2 then ls.reverse else ls
  let f := fOf (jinNp s) (jinL s) (jinS s)
  let (rest, got0) := takeFrames s s.jin.valid f 16 (order.map (fun l => (s1.lane l).octs)) [[], [], [], []]
  let got := got0.map (fun c => c.mapIdx (fun i y => if excess s k (x0.idx + i) then y.filled else y))
  let s2 := if ls.any (fun l => (take l).any (fun o => o.fill))
        || (List.range (got.headD []).length).any (fun i => excess s k (x0.idx + i)) then
      s1.bump (F_JIN_L_FILL_COUNT k)
    else s1
  let s3 := if up then s2 else ls.foldl (fun u l => u.modLane l (fillNote (place.getD 0))) s2
  let s4 := (order.zip rest).foldl (fun u x => u.modLane x.1 (fun y => { y with octs := x.2 })) s3
  s4.modLink k (fun x =>
    { x with out := (List.range 4).map (fun m => x.out.getD m [] ++
               (if s.jin.valid && x.idx == 0 then listMod (got.getD m []) 0 (fun y => { y with first := true })
                else got.getD m [])),
             live := live, blk := x.blk + 1, idx := x.idx + (got.headD []).length })

/-- A block period of a link's release passes, once its time has come (R50, R51). -/
def execJinRelease (k : Nat) (s : State) : Out :=
  if s.domOn .intake && jinRun s && k < 12 && linkEn s k && blockDue s k then .next (jinReleaseBlock s k) else .next s

end Sys2Proof.Machine
end

