-- ==== Sys2Proof/Machine/DfuOps.lean ====
section
/-!
DEFINITION. The filter units' arithmetic (chapter 3): correction, skew, decimation, the ROM cascade, labels and flags,
settling, and the resampler's steps.
-/

namespace Sys2Proof.Machine

/-- A unit's state, and a change to it. -/
def State.du (s : State) (u : Nat) : DUnit := s.dfu.getD u DUnit.reset
def State.modDu (s : State) (u : Nat) (g : DUnit → DUnit) : State := { s with dfu := listMod s.dfu u g }

/-- rc: division by 2^k, ties to even (R69). -/
def rc (v : Int) (k : Nat) : Int := roundNE v (2 ^ k)

/-! ### Modes, settling and group delay -/

/-- Taps, decimation and group delay of a ROM filter (Table 3.3). -/
def romTaps (id : Nat) : Nat := if id = 1 then 19 else if id = 2 then 27 else if id = 3 then 63 else if id = 4 then 95 else 121
def romDec (id : Nat) : Nat := if id = 5 then 5 else 2
def romGd (id : Nat) : Nat := if id = 1 then 9 else if id = 2 then 13 else if id = 3 then 31 else if id = 4 then 47 else 60

/-- The stages of a FILTER cascade (R77). -/
def filterStages (a b : Nat) (sharp : Bool) : List Nat :=
  List.replicate (a - 2) 1 ++ (if a ≥ 2 then [2] else []) ++ List.replicate b 5
    ++ (if a ≥ 1 then [if sharp then 4 else 3] else [])

/-- Σ (taps − 1) × D_before, and Σ GD × D_before, of stages (R77, R84). -/
def stageSpan : List Nat → Nat → Nat
  | [], _ => 0
  | i :: is, d => (romTaps i - 1) * d + stageSpan is (d * romDec i)
def stageGd : List Nat → Nat → Nat
  | [], _ => 0
  | i :: is, d => romGd i * d + stageGd is (d * romDec i)

/-- The stages in use by a unit. -/
def unitStages (s : State) (u : Nat) : List Nat :=
  if s.rd (F_DFU_MODE_DEC_MODE u) = 4 then
    filterStages (s.rd (F_DFU_MODE_A u)) (s.rd (F_DFU_MODE_B u)) (s.on (F_DFU_MODE_SHARP u))
  else []

/-- The decimation factor in use. -/
def unitD (s : State) (u : Nat) : Nat :=
  if s.rd (F_DFU_MODE_DEC_MODE u) = 4 then 2 ^ s.rd (F_DFU_MODE_A u) * 5 ^ s.rd (F_DFU_MODE_B u)
  else max 1 (s.rd (F_DFU_DEC_FACTOR_D u))

/-- The interleave mode and group size of a unit's link. -/
def unitMode (s : State) (u : Nat) : Nat := s.rd (F_JIN_L_CFG_INTERLEAVE u)
def unitG (s : State) (u : Nat) : Nat := groupSize (unitMode s u)

/-- DFU_SETTLE and DFU_GROUP_DELAY follow the mode (R77, R84). -/
def dfuDerive (s : State) (u : Nat) : State :=
  (s.wr (F_DFU_SETTLE_SPAN u) (stageSpan (unitStages s u) 1 + 9)).wr (F_DFU_GROUP_DELAY_GD u)
    (stageGd (unitStages s u) 1 * 256)

/-- T_conv in 2^-32 ns (R53). -/
def tConv (s : State) : Nat := s.rd F_JIN_TS_PERIOD_LO_FRAC + s.rd F_JIN_TS_PERIOD_HI_NS * ns1

/-- TS0 of a link. -/
def ts0 (s : State) (k : Nat) : Nat := s.rdTs (R_JIN_L_TS0_W k 0)

/-- The conversion time of input sample `n` of a unit, rounded once, ties to even (R53). -/
def convTime (s : State) (u : Nat) (n : Int) : Nat :=
  (roundNE (((ts0 s u * unitG s u : Nat) : Int) + n * ((tConv s : Nat) : Int)) (unitG s u)).toNat

/-- The labelled time of output `j` (R80). -/
def outTime (s : State) (u j : Nat) : Nat :=
  let d := unitD s u
  let a2 := if s.rd (F_DFU_MODE_DEC_MODE u) = 3 then d - 1 else 0
  (roundNE ((2 * (ts0 s u * unitG s u) + (2 * j * d + a2) * tConv s : Nat) : Int) (2 * unitG s u)).toNat

/-! ### Histories -/

/-- An input with cleared histories; the counts of saturations stand (R82, Table 3.6). -/
def Slot.cleared (x : Slot) : Slot :=
  { Slot.reset with sats := x.sats, satWin := x.satWin, satCnt := x.satCnt, satRaised := x.satRaised }

/-- Clear the histories of a unit and reset its phases, as a DSYNC does (R82). -/
def dsyncUnit (s : State) (u : Nat) : State :=
  (s.modDu u (fun d => { d with slots := d.slots.map Slot.cleared, outq := [], settled := 0, syncPend := false,
                                rs := { d.rs with hb := List.replicate 4 [], hist := List.replicate 4 [] } })).wr (F_DFU_STATUS_SETTLED u) 0

/-- ARM resets the decimation phases and keeps the filter histories (R83): the four samples of the skew look-ahead that come
out first precede index 0. -/
def armSlot (x : Slot) : Slot := { x with n := -4, cnt := 0, firstInvalid := none }

/-! ### Correction -/

/-- Offset and gain of a code (R69): the result and whether it was clamped. -/
def correct (code ofs : Int) (gain : Nat) : Int × Bool :=
  let y := rc ((code * 16 - ofs) * gain) 15
  (satTo 16 y, decide (satTo 16 y ≠ y))

/-- A coefficient of one of SKEW9's ROM sets: set 128 is an exact unit impulse (R70). -/
def skewSet (k i : Nat) : Int := if k = 128 then (if i = 4 then 32768 else 0) else (Config.skewRom k i).toInt

/-- A coefficient of the skew filter: interpolated linearly between the two sets around SKEW_EFF, 256 LSBs apart (R70).
DESIGN CHOICE (log entry 39): the interpolated coefficient is rounded to Q1.15 to nearest, ties to even. -/
def skewCoef (skew : Int) (i : Nat) : Int :=
  let k := ((skew + 32768) / 256).toNat
  let f := (skew + 32768) % 256
  rc (skewSet k i * (256 - f) + skewSet (k + 1) i * f) 8

/-- The skew filter around the middle of nine inputs, newest first (R70). -/
def skewOut (h : List (DSample × Nat)) (skew : Int) : Int × Bool :=
  let acc := ((List.range 9).map (fun i => skewCoef skew i * (h.getD i (DSample.zero, 0)).1.v)).foldl (· + ·) 0
  let y := rc acc 15
  (satTo 16 y, decide (satTo 16 y ≠ y))

/-- Flags OR, VALID of one sample. -/
def orFlags (a b : DSample) : DSample :=
  { a with fill := a.fill || b.fill, suspect := a.suspect || b.suspect, ovr := a.ovr || b.ovr }

/-- A ROM coefficient of a decimating filter: the taps are symmetric (R78). -/
def romCoef (id i : Nat) : Int := (Config.romHalf id (min i (romTaps id - 1 - i))).toInt

/-- One decimating stage takes the sample of an index: perhaps an output, with its index. Output 0 is centred on input 0; the
samples before it settle the stage (R79, R83). -/
def stagePush (g : Stage) (n : Int) (x : DSample) : Stage × Option (Int × DSample) :=
  let taps := romTaps g.id
  let dec : Int := (romDec g.id : Nat)
  let hist := (x :: g.hist).take taps
  let k := n - (romGd g.id : Nat)
  let g' := { g with hist := hist }
  if k % dec = 0 then
    let acc := ((List.range taps).map (fun i => romCoef g.id i * (hist.getD i DSample.zero).v)).foldl (· + ·) 0
    let y := rc acc 17
    let z := satTo 24 y
    let fl := hist.foldl orFlags { DSample.zero with valid := x.valid }
    (g', some (k / dec, { fl with v := z, ovr := fl.ovr || decide (z ≠ y) }))
  else (g', none)

/-- A cascade takes the sample of an index. -/
def cascade : List Stage → Int → DSample → List Stage × Option (Int × DSample)
  | [], n, x => ([], some (n, x))
  | g :: gs, n, x =>
    match stagePush g n x with
    | (g', none) => (g' :: gs, none)
    | (g', some (k, y)) =>
      let (gs', o) := cascade gs k y
      (g' :: gs', o)

/-- The stages of a slot, made afresh when they do not fit the mode. -/
def fitStages (ids : List Nat) (have_ : List Stage) : List Stage :=
  if have_.map (fun g => g.id) = ids then have_ else ids.map (fun i => { id := i, hist := [] })

/-- The larger of two values by magnitude, the earlier on a tie; −32 768 ranks above 32 767 (Table 3.2). -/
def peakOf (a b : Int) : Int := if b.natAbs > a.natAbs then b else a

/-- A corrected sample enters the decimator: perhaps an output value (R75 to R77). One before index 0 only settles the cascade
(R83). -/
def decPush (s : State) (u : Nat) (x : Slot) (c : DSample) : Slot × Option (OutVal × Bool) :=
  let mode := s.rd (F_DFU_MODE_DEC_MODE u)
  let d := unitD s u
  let inv := if c.valid || decide (x.n < 0) then x.firstInvalid else some (x.firstInvalid.getD x.n)
  if mode = 4 then
    let st := fitStages (unitStages s u) x.stages
    let (st', o) := cascade st x.n { c with v := c.v * 256 }
    let x' := { x with stages := st', n := x.n + 1, firstInvalid := inv }
    match o with
    | none => (x', none)
    | some (j, y) =>
      if j < 0 then (x', none)
      else
        let val := match inv with
          | none => true
          | some m => decide (j * d + d ≤ m)
        (x', some ({ vals := [y.v * 256], fill := y.fill, suspect := y.suspect, ovr := y.ovr }, val))
  else if x.n < 0 then ({ x with n := x.n + 1 }, none)
  else
    let start := x.cnt = 0
    let fl0 : DSample := if start then { v := 0, valid := true, fill := false, suspect := false, ovr := false } else x.fl
    let fl := { orFlags fl0 c with valid := fl0.valid && c.valid }
    let x' := { x with n := x.n + 1, cnt := x.cnt + 1, firstInvalid := inv, fl := fl,
                       first := if start then c.v else x.first,
                       mn := if start then c.v else min x.mn c.v, mx := if start then c.v else max x.mx c.v,
                       pk := if start then c.v else peakOf x.pk c.v, sum := if start then c.v else x.sum + c.v }
    if x'.cnt < d then (x', none)
    else
      let vals := if mode = 1 then [x'.pk] else if mode = 2 then [x'.mn, x'.mx]
        else if mode = 3 then [x'.sum * 65536 / d] else [x'.first]
      ({ x' with cnt := 0 }, some ({ vals := vals, fill := fl.fill, suspect := fl.suspect, ovr := fl.ovr }, fl.valid))

/-! ### One converter period -/

/-- The raw samples of a converter period, one per member: from the link, or from the test generator (R85). -/
def rawOf (s : State) (u m : Nat) : Sample :=
  let x := ((s.link u).out.getD m []).headD { code := 0, valid := false, fill := true, ovr := false }
  if s.on (F_DFU_CTRL_TESTGEN_EN u) then
    { x with code := sext 12 (s.rd (F_DFU_TESTGEN_START u) + 1024 * m + (s.du u).tg * s.rd (F_DFU_TESTGEN_STEP u)),
             fill := false, ovr := false }
  else x

/-- Whether sample indices run in a unit: an ARM has taken effect and the unit has not met its disarm (R52). -/
def indexed (s : State) : Bool := s.on F_JIN_STATUS_ALIGNED && s.jin.valid

/-- The first output, since the ARM, whose last contributing input the unit has not corrected yet (R72, Table 3.1). -/
def firstNew (s : State) (u : Nat) : Nat :=
  let lk := s.link u
  let n : Int := ((s.du u).slots.getD 0 Slot.reset).n
  let d : Int := (unitD s u : Nat)
  let mode := s.rd (F_DFU_MODE_DEC_MODE u)
  let ofs : Int := if mode = 4 then (stageGd (unitStages s u) 1 : Nat) else if mode = 0 then 0 else d - 1
  if lk.idx = 0 || lk.out.any (fun q => q.any (fun x => x.first)) then 0 else (-((ofs - n) / d)).toNat

/-- The outputs, first and end, whose support (R81) meets the inputs from `a` up to `b` of a unit's combined stream: the interval
or cascade span, and the four inputs of the skew span on either side. -/
def supOuts (s : State) (u a b : Nat) : Nat × Nat :=
  let d := unitD s u
  let gd := stageGd (unitStages s u) 1
  let (lo, hi) := if s.rd (F_DFU_MODE_DEC_MODE u) = 4 then (gd + 4, gd + 4) else (4, d + 3)
  (cdiv (a - hi) d, (b - 1 + lo) / d + 1)

/-- The label of the unit's next output, where samples carry indices (R80, R92). -/
def nextLabel (s : State) (u : Nat) : Nat := if indexed s then outTime s u (firstNew s u) else s.now

/-- Add a corrected sample to a member's accumulators while its anchoring window is open (R73). -/
def anchAdd (d : DUnit) (m : Nat) (t : Nat) (c : DSample) (unsettled : Bool) : DUnit :=
  match d.aStart with
  | none => d
  | some a =>
    if t < a || (match d.aEnd with | some e => e ≤ t | none => false) then d
    else if c.fill || c.suspect || unsettled then { d with acc := listMod d.acc m (fun x => { x with excl := x.excl + 1 }) }
    else { d with acc := listMod d.acc m (fun x =>
             { x with sum := x.sum + c.v, sumsq := x.sumsq + (c.v * c.v).toNat, count := x.count + 1 }) }

/-- The window has ended: accumulators to DFU_Mm_ACC, ANCHOR_READY or ANCHOR_OVERRUN (R73). -/
def anchClose (s : State) (u : Nat) : State :=
  let d := s.du u
  let s1 := (List.range 4).foldl (fun t m =>
    let a := d.acc.getD m AnchAcc.zero
    ((((t.wr64 (R_DFU_M_ACC_SUM_LO u m) (R_DFU_M_ACC_SUM_HI u m) (wrapTo 64 (sext 48 (wrapTo 48 a.sum)))).wr64
      (R_DFU_M_ACC_SUMSQ_LO u m) (R_DFU_M_ACC_SUMSQ_HI u m) (a.sumsq % 2 ^ 64)).wr
      (F_DFU_M_ACC_COUNT_VALUE u m) a.count).wr (F_DFU_M_ACC_COUNT_EXCL_VALUE u m) a.excl)) s
  let s2 := if s.on (F_DFU_STATUS_ANCHOR_READY u) then
      (s1.wr (F_DFU_STATUS_ANCHOR_OVERRUN u) 1).raiseAt (nextLabel s u) 5 6 0 (resIndex u) 0
    else s1.wr (F_DFU_STATUS_ANCHOR_READY u) 1
  s2.modDu u (fun d => { d with acc := List.replicate 4 AnchAcc.zero, aStart := none, aEnd := none })

/-- The accumulators of a member as DFU_ANCHOR returns them (Table 3.7). -/
def anchReply (s : State) (u m : Nat) : Reply :=
  okR (s.reg (R_DFU_M_ACC_SUM_LO u m)).toNat ((s.reg (R_DFU_M_ACC_SUM_HI u m)).toNat % 65536)
    (s.reg (R_DFU_M_ACC_COUNT u m)).toNat (s.reg (R_DFU_M_ACC_SUMSQ_HI u m)).toNat

/-- Close the anchoring window once a conversion time has reached its end; a READ that waits completes (R73, R93). -/
def anchCheck (s : State) (u t : Nat) : State :=
  match (s.du u).aEnd with
  | none => s
  | some e =>
    if t < e then s
    else
      let s1 := anchClose s u
      if s1.waiting .anchor u then
        (s1.fcp.inflight.filter (fun c => c.kind == .anchor && c.key == u)).foldl (fun t c =>
          t.finish c (anchReply t u (c.due % 4))) (s1.wr (F_DFU_STATUS_ANCHOR_READY u) 0)
      else s1

/-- The halfband stages before the resampler (R86). -/
def hbStages (s : State) (u : Nat) : List Nat :=
  let h := s.rd (F_DFU_RS_CTRL_HB u)
  if h = 0 then [] else List.replicate (h - 1) 2 ++ [3]

/-- The value of an index enters the resampler of a unit on an input, as a word with the code weight at bits [23:12] (R79, R86). -/
def rsPush (s : State) (u i : Nat) (d : DUnit) (n : Int) (x : DSample) : DUnit :=
  if !s.on (F_DFU_RS_CTRL_EN u) then d
  else
    let (st, o) := cascade (fitStages (hbStages s u) (d.rs.hb.getD i [])) n x
    let r := { d.rs with hb := listMod d.rs.hb i (fun _ => st) }
    match o with
    | none => { d with rs := r }
    | some (k, y) => { d with rs := { r with hist := listMod r.hist i (fun h => y :: h), nIn := listMod r.nIn i (fun _ => k + 1) } }

/-- At an ARM the synchronous stream starts anew; the resampler keeps its histories (R83, R89). -/
def rsArm (r : Rs) : Rs :=
  { r with nIn := r.nIn.map (fun _ => 0), started := false, step := 0, pos := 0, rejFlag := false, resync := false,
           clamped := false, nextClamped := false }

/-- One raw sample of a group enters the skew stage; the corrected sample four back comes out, is accumulated, and
enters the decimator (R70, R73). Parity 2 marks it SUSPECT (Table 3.6). -/
def slotPush (s : State) (u i m : Nat) (x : Sample) (suspect : Bool) (acc : DUnit × List (OutVal × Bool)) :
    DUnit × List (OutVal × Bool) :=
  let d := acc.1
  let sl := d.slots.getD i Slot.reset
  let (y, c1) := correct x.code (sext 16 (s.rd (F_DFU_M_OG_EFF_OFS u m))) (s.rd (F_DFU_M_OG_EFF_GAIN u m))
  let ds : DSample := { v := y, valid := x.valid, fill := x.fill, suspect := suspect, ovr := x.ovr || c1 }
  let h := ((ds, m) :: sl.skewH).take 9
  let mid := h.getD 4 (DSample.zero, 0)
  let mm := mid.2
  let place := if unitG s u = 1 then mm else phasePos (orderUsed s u) (unitMode s u) mm
  let (z, c2) := skewOut h (sext 16 (s.rd (F_DFU_M_SKEW_EFF_SKEW_EFF u place)))
  let flags := h.foldl (fun a e => orFlags a e.1) { DSample.zero with valid := mid.1.valid }
  let c : DSample := { flags with v := z, ovr := flags.ovr || c2 }
  let sl1 := { sl with skewH := h, sats := sl.sats + b2n c1 + b2n c2 }
  let unsettled := d.settled < s.rd (F_DFU_SETTLE_SPAN u)
  let d1 := if s.on (F_DFU_CTRL_ANCHOR_EN u) && c.valid then anchAdd d mm (convTime s u sl1.n) c unsettled else d
  let d2 := if s.on (F_DFU_RS_CTRL_SRC u) then d1 else rsPush s u i d1 sl1.n { c with v := c.v * 256 }
  let (sl2, o) := decPush s u sl1 c
  ({ d2 with slots := listMod d1.slots i (fun _ => sl2) },
    match o with
    | none => acc.2
    | some v => acc.2 ++ [v])

/-- Which member of a group stands at a position (R46). -/
def memberAt (s : State) (u : Nat) (g : List Nat) (p : Nat) : Nat :=
  (g.find? (fun m => phasePos (orderUsed s u) (unitMode s u) m == p)).getD (g.headD 0)

/-- The outputs of the enabled inputs put together into primary outputs (R22, R80, R81). -/
def joinOuts (s : State) (u : Nat) (outs : List (Nat × List (OutVal × Bool))) (n : Nat) (d : DUnit) : DUnit :=
  (List.range n).foldl (fun e k =>
    let ins := outs.filterMap (fun x => (x.2[k]?).map (fun v => (x.1, v.1)))
    let valid := outs.all (fun x => ((x.2[k]?).map (fun v => v.2)).getD true)
    let en := ins.filter (fun x => (s.rd (F_DFU_MODE_INPUT_EN u) >>> x.1) % 2 == 1)
    { e with outq := e.outq ++ [{ j := e.j, ts := outTime s u e.j, valid := valid,
                                  unsettled := decide (e.settled < s.rd (F_DFU_SETTLE_SPAN u)), ins := en }],
             j := e.j + 1 }) d

/-- A unit takes one converter period from its link (R66). At index 0 of an ARM the phases restart (R83). -/
def dfuFeed (s : State) (u : Nat) (suspect : Bool) : State :=
  let raws := (List.range 4).map (rawOf s u)
  let s1 := s.modLink u (fun l => { l with out := l.out.map (fun q => q.drop 1) })
  let s2 := if raws.any (fun x => x.first) then
      s1.modDu u (fun d => { d with slots := d.slots.map armSlot, j := 0, tg := 0, rs := rsArm d.rs })
    else s1
  let d0 := s2.du u
  let groups := groupsOf (unitMode s u)
  let (d1, outs) := groups.foldl (fun (acc : DUnit × List (Nat × List (OutVal × Bool))) grp =>
      let i := grp.headD 0
      let (e, o) := (List.range grp.length).foldl (fun a p =>
        let m := memberAt s2 u grp p
        slotPush s2 u i m (raws.getD m { code := 0, valid := false, fill := true, ovr := false }) suspect a)
        (acc.1, [])
      (e, acc.2 ++ [(i, o)])) (d0, [])
  let n := ((outs.map (fun x => x.2.length)).foldl max 0)
  let d2 := joinOuts s2 u outs n d1
  let d3 := { d2 with tg := d2.tg + 1, settled := d2.settled + unitG s u }
  let s3 := s2.modDu u (fun _ => d3)
  let s4 := if d3.settled ≥ s.rd (F_DFU_SETTLE_SPAN u) then s3.wr (F_DFU_STATUS_SETTLED u) 15 else s3
  let sl := (s4.du u).slots.getD 0 Slot.reset
  if s.on (F_DFU_CTRL_ANCHOR_EN u) && (sl.skewH.getD 4 (DSample.zero, 0)).1.valid then anchCheck s4 u (convTime s4 u sl.n) else s4

/-- Feed a unit until an output waits or the link has no whole period left. -/
def dfuRun (u : Nat) (suspect : Bool) : Nat → State → State
  | 0, s => s
  | n + 1, s =>
    if !(s.du u).outq.isEmpty || (s.link u).out.any (fun q => q.isEmpty) then s
    else dfuRun u suspect n (dfuFeed s u suspect)

/-- Saturations since the last output are counted per input and per 1 ms window of labelled time; SAT_BURST is raised
once per input and window (R69, R92). -/
def satCount (s : State) (u : Nat) (o : PrimOut) : State :=
  (o.ins).foldl (fun t x =>
    let i := x.1
    let sl := (t.du u).slots.getD i Slot.reset
    let w := o.ts / (1000000 * ns1)
    let cnt := (if w = sl.satWin then sl.satCnt else 0) + sl.sats
    let was := decide (w = sl.satWin) && sl.satRaised
    let hit := !was && cnt > t.rd (F_DFU_SAT_LIMIT_LIMIT u)
    let t1 := (t.bumpBy (F_DFU_I_SAT_COUNT u i) sl.sats).modDu u (fun d =>
      { d with slots := listMod d.slots i (fun y =>
          { y with sats := 0, satWin := w, satCnt := cnt, satRaised := was || hit }) })
    if hit then t1.raiseAt o.ts 5 2 0 (resIndex u) i else t1) s

/-! ### Corrections in effect -/

/-- SKEW_EFF of a member (R71). -/
def skewEff (s : State) (u m : Nat) : Int :=
  let sk := sext 16 (s.rdE (F_DFU_M_SKEW_SKEW u m))
  let tc := sext 16 (s.rdE (F_DFU_M_SKEW_SKEW_TC u m))
  let dt := sext 16 (s.rd (F_DFU_TEMP_T_NOW u)) - sext 16 (s.rdE (F_DFU_TEMP_T_REF u))
  satTo 16 (sk + rc (tc * dt) 8)

/-- Put values of SKEW_EFF into effect. -/
def setSkewEff (s : State) (u : Nat) (l : List Int) : State :=
  (List.range 4).foldl (fun t m => t.wr (F_DFU_M_SKEW_EFF_SKEW_EFF u m) (wrapTo 16 (l.getD m 0))) s

/-- The shadowed corrections of a unit. -/
def corrRegs (u : Nat) : List Nat :=
  (List.range 4).flatMap (fun m => [R_DFU_M_OG u m, R_DFU_M_SKEW u m]) ++ [R_DFU_TEMP u]

/-- The first output computed with a set is recorded and reported to CAP (R72). -/
def corrRecord (s : State) (u idx : Nat) : State :=
  let ts := outTime s u idx
  let s1 := (s.wr64 (R_DFU_CORR_APPLIED_IDX_LO u) (R_DFU_CORR_APPLIED_IDX_HI u) idx).wrTs (R_DFU_CORR_APPLIED_W u 0) ts
  { s1 with jin := { s1.jin with corrs := s1.jin.corrs ++ [(u, idx, ts)] } }

/-- A commit whose edge is the edge of an ARM applies from index 0 (R72). -/
def corrAtArm (s : State) (edge : Nat) : State :=
  (List.range 12).foldl (fun t u => if (t.du u).applyEdge = some edge then corrRecord t u 0 else t) s

/-- A commit applies: shadows into effect, the first output with the new set is recorded and reported to CAP (R72). DESIGN CHOICE
(log entry 39): where the LEMC is aligned but no capture is armed, no output carries an index, and the registers show what R72
gives for an LEMC that is not aligned: index 0 and the TS96 of the apply, nothing for CAP. -/
def corrApplyUnit (s : State) (u : Nat) : State :=
  let s1 := s.applyRegs (corrRegs u)
  let s2 := (List.range 4).foldl (fun t m => t.setReg (R_DFU_M_OG_EFF u m) (t.reg (R_DFU_M_OG u m))) s1
  let s3 := setSkewEff s2 u ((List.range 4).map (skewEff s2 u))
  let edge := if s.on F_JIN_STATUS_ALIGNED then some (lemcEdges s s.now) else none
  let s4 := (s3.modDu u (fun d => { d with skewPend := none, applyEdge := edge })).wr (F_DFU_STATUS_CORR_PENDING u) 0
  let idx := if indexed s then firstNew s u else 0
  let ts := if indexed s then outTime s u idx else s.now
  let s5 := if indexed s then corrRecord s4 u idx
    else (s4.wr64 (R_DFU_CORR_APPLIED_IDX_LO u) (R_DFU_CORR_APPLIED_IDX_HI u) 0).wrTs (R_DFU_CORR_APPLIED_W u 0) s.now
  s5.wake .corr u (okR idx (idx / 4294967296) (ts / ns1) (ts / ns1 / 4294967296))

/-- A write of 1 to units' bits in DFU_CORR_COMMIT.GO: pending until the next LEMC edge, at once where there is none
(R72). -/
def corrCommit (s : State) (mask : Nat) : State :=
  ((List.range 12).filter (fun u => (mask >>> u) % 2 == 1)).foldl (fun t u =>
    if t.on F_JIN_STATUS_ALIGNED then
      (if t.on (F_DFU_STATUS_CORR_PENDING u) then t
        else (t.wr (F_DFU_STATUS_CORR_PENDING u) 1).modDu u (fun d => { d with corrEdge := lemcEdges s s.now }))
    else corrApplyUnit t u) s

/-- A DSYNC of units: at the next LEMC edge, at once where there is none; ignored while armed (R82). -/
def dsyncGo (s : State) (mask : Nat) : State :=
  let us := (List.range 12).filter (fun u => (mask >>> u) % 2 == 1)
  if s.on F_JIN_STATUS_ARMED then us.foldl (fun t u => t.wr (F_DFU_STATUS_WRITE_REFUSED u) 1) s
  else if s.on F_JIN_STATUS_ALIGNED then us.foldl (fun t u => t.modDu u (fun d =>
      if d.syncPend then d else { d with syncPend := true, syncEdge := lemcEdges s s.now })) s
  else us.foldl dsyncUnit s

/-- The registers a saved correction set covers (R85). -/
def savedSet (s : State) (u : Nat) : List Word := (corrRegs u).map s.reg

/-- Restore a saved correction set to the shadows; T_NOW is kept. -/
def restoreSet (s : State) (u : Nat) (l : List Word) : State :=
  ((corrRegs u).zip l).foldl (fun t x =>
    if x.1 = R_DFU_TEMP u then t.wr (F_DFU_TEMP_T_REF u) (x.2.toNat % 65536) else t.setReg x.1 x.2) s

/-- The corrections of BYPASS to the shadows (Table 3.4). -/
def bypassCorr (s : State) (u : Nat) : State :=
  (List.range 4).foldl (fun t m => (t.setReg (R_DFU_M_OG u m) 0x80000000).setReg (R_DFU_M_SKEW u m) 0) s

/-- Apply a preset to a unit (R85): the settling count restarts (R81). -/
def applyPreset (s : State) (u id : Nat) : State :=
  let s1 := match id with
    | 0 => dfuDerive (dsyncUnit ((bypassCorr s u).wrs
        [(F_DFU_MODE_DEC_MODE u, 0), (F_DFU_MODE_FMT u, 1), (F_DFU_DEC_FACTOR_D u, 1), (F_DFU_RS_CTRL_EN u, 0),
         (F_DFU_CTRL_TESTGEN_EN u, 0)]) u) u
    | 1 => bypassCorr s u
    | 2 => match (s.du u).saved with
        | some l => restoreSet s u l
        | none => s
    | _ => (bypassCorr s u).wr (F_DFU_CTRL_TESTGEN_EN u) 1
  let s2 := (s1.modDu u (fun d => { d with settled := 0 })).wrs [(F_DFU_STATUS_PRESET u, id), (F_DFU_STATUS_SETTLED u, 0)]
  corrCommit s2 (2 ^ u)

/-! ### The resampler -/

/-- Samples per cycle (R86). -/
def rsN (s : State) (u : Nat) : Nat := 64 * 2 ^ s.rd (F_DFU_RS_CTRL_N_CODE u)

/-- The decimation between the unit's input and the resampler's. -/
def rsDec (s : State) (u : Nat) : Nat :=
  (if s.on (F_DFU_RS_CTRL_SRC u) then unitD s u else 1) * 2 ^ s.rd (F_DFU_RS_CTRL_HB u)

/-- The step for a period (2^-8 ns), a phase error (2^-32 ns) and LOCK, in Q16.32, before the rate limit (R87). -/
def rsStep (s : State) (u p : Nat) (e : Int) (lock : Bool) : Nat :=
  let pu : Int := p * 16777216
  let c := if lock then max (-pu) (min pu (16 * e)) else 0
  (roundNE ((64 * pu - c) * 4294967296 * unitG s u) (64 * rsN s u * tConv s * rsDec s u)).toNat

/-- The limits of the step: 2.5 and 65 535 (R88). -/
def stepMin : Nat := 10737418240
def stepMax : Nat := 65535 * 4294967296

/-- The nominal period (R87). -/
def rsNominal (s : State) (u : Nat) : Nat :=
  s.rdE (F_DFU_RS_NOMINAL_LO_P_LO u) + s.rdE (F_DFU_RS_NOMINAL_HI_P_HI u) * 4294967296

/-- The length of a cycle of `n` samples at a step, in 2^-32 ns (R89). -/
def cycleLen (s : State) (u : Nat) (step : Nat) : Nat :=
  (roundNE ((rsN s u * step * tConv s * rsDec s u : Nat) : Int) (4294967296 * unitG s u)).toNat

end Sys2Proof.Machine
end

