-- ==== Sys2Proof/Machine/CapOps.lean ====
section
/-!
DEFINITION. Capture memory's shared operations (chapter 7): rates, Granary granules, Silo pages, pins, markers, segment
headers.
-/

namespace Sys2Proof.Machine

/-- A change to CAP's own state, and to one stream of it. -/
def State.modCap (s : State) (g : Cap → Cap) : State := { s with cap := g s.cap }
def State.cs (s : State) (id : Nat) : CStream := s.cap.streams.getD id CStream.reset
def State.modCs (s : State) (id : Nat) (g : CStream → CStream) : State :=
  s.modCap (fun c => { c with streams := listMod c.streams id g })

/-- 2 MiB. -/
abbrev pageSize : Nat := 2097152

/-! ### Rates, items, spans -/

/-- Whether a unit is in ENVELOPE: two values under each index. -/
def capVals (s : State) (u : Nat) : Nat := if s.rd (F_DFU_MODE_DEC_MODE u) = 2 then 2 else 1

/-- Bytes of an item of a stream (Table 7.1): P12 blocks hold 16 indices. -/
def itemBytes (s : State) (id : Nat) : Nat :=
  if id < 48 then
    let u := id / 4
    capVals s u * (match s.rd (F_DFU_MODE_FMT u) with | 0 => 24 | 1 => 2 | _ => 4)
  else if id = 0x30 then 16 else if id = 0x31 then 32 else 64

/-- Sample indices of an item. -/
def itemIdx (s : State) (id : Nat) : Nat := if id < 48 ∧ s.rd (F_DFU_MODE_FMT (id / 4)) = 0 then 16 else 1

/-- Time of item `k` of a sample stream. -/
def itemTime (s : State) (id k : Nat) : Nat := outTime s (id / 4) (k * itemIdx s id)

/-- A stored source's STORE_RATE in M records/s: 0 acts as 1, above 250 as 250 (R169). -/
def storeRate (v : Nat) : Nat := max 1 (min 250 v)

/-- The storing buckets as TIM source codes, from the values in effect or, before an ARM, as written (R167 to R169). -/
def storingSrcs (s : State) (rd : Fld → Nat) : List Nat :=
  let ins := (List.range 65).filter (fun n => s.on (F_TIM_IN_CFG_EN n) && !(s.tim.ins.getD n TInput.reset).parity
    && (rd (F_TIM_IN_CFG_STORE n) == 1 || rd (F_TIM_IN_CFG_STORE n) == 2))
  let grp := (List.range 4).filter (fun g => (List.range 16).any (fun i =>
    s.on (F_TIM_IN_CFG_EN (16 * g + i)) && rd (F_TIM_IN_CFG_STORE (16 * g + i)) == 3))
  let ves := (List.range 16).filter (fun v => s.on (F_TIM_VE_CFG_EN v) && s.rd (F_TIM_VE_CFG_SRC v) < 48 && !s.tim.badVes.contains v
    && (rd (F_TIM_VE_CFG_STORE v) == 1 || rd (F_TIM_VE_CFG_STORE v) == 2))
  ins ++ grp.map (· + 0x44) ++ ves.map (· + 0x50)

/-- The bucket of a source: group g uses that of LIN(16g) (R169). -/
def bucketIx (src : Nat) : Nat := if 0x44 ≤ src ∧ src < 0x48 then 16 * (src - 0x44) else src

/-- The buckets of the storing sources, each once. -/
def storingBuckets (s : State) (rd : Fld → Nat) : List Nat := ((storingSrcs s rd).map bucketIx).eraseDups

/-- The RATE and BURST of a storing source (R169). -/
def bucketRate (rd : Fld → Nat) (src : Nat) : Nat :=
  storeRate (if src < 0x41 then rd (F_TIM_IN_BUCKET_RATE src) else if src < 0x48 then rd (F_TIM_IN_BUCKET_RATE (16 * (src - 0x44)))
    else rd (F_TIM_VE_BUCKET_RATE (src - 0x50)))
def bucketBurst (rd : Fld → Nat) (src : Nat) : Nat :=
  max 1 (min 4096 (if src < 0x41 then rd (F_TIM_IN_BUCKET_BURST src)
    else if src < 0x48 then rd (F_TIM_IN_BUCKET_BURST (16 * (src - 0x44))) else rd (F_TIM_VE_BUCKET_BURST (src - 0x50))))

/-- The shadowed fields CAP and TIM take at ARM, in effect while armed, as written otherwise (R8, R184). -/
def capRd (s : State) : Fld → Nat := if s.cap.armed then s.rdE else s.rd

/-- r_s in bytes per ns (R184). -/
def streamRate (s : State) (id : Nat) : Rat :=
  if id < 48 then
    let u := id / 4
    if tConv s = 0 then 0
    else ((capVals s u * (match s.rd (F_DFU_MODE_FMT u) with | 0 => 3 | 1 => 4 | _ => 8) * unitG s u * ns1 : Nat) : Rat)
      / ((2 * unitD s u * tConv s : Nat) : Rat)
  else if id = 0x30 then
    ((16 * ((storingBuckets s (capRd s)).map (bucketRate (capRd s))).foldl (· + ·) 0 : Nat) : Rat) / 1000
  else if 0x40 ≤ id ∧ id < 0x50 then ((s.rd (F_CAP_RES_RATE_MBPS (id - 0x40)) : Nat) : Rat) / 1000
  else 0

/-- The stored sample and transition streams, ascending. -/
def storedSet (s : State) : List Nat :=
  let lo := capRd s F_CAP_STORE_LO_STREAMS
  let hi := capRd s F_CAP_STORE_HI_STREAMS
  (List.range 48).filter (fun i => ((lo + hi * 4294967296) >>> i) % 2 == 1)
    ++ (if capRd s F_CAP_STORE_HI_TRANSITIONS = 1 then [0x30] else [])

/-- The result streams with a rate. -/
def resultSet (s : State) : List Nat :=
  ((List.range 16).filter (fun k => s.rd (F_CAP_RES_RATE_MBPS k) != 0)).map (· + 0x40)

/-- A sum of rates. -/
def sumRate (s : State) (l : List Nat) : Rat := (l.map (streamRate s)).foldl (· + ·) 0

/-- R_G and R_S (R184). -/
def rateG (s : State) : Rat := sumRate s (storedSet s)
def rateS (s : State) : Rat := rateG s + sumRate s (resultSet s)

/-- Granules held by segments (R185, R196). -/
def heldGranules (s : State) : Nat := (s.cap.streams.map (fun x => x.frozen.length)).foldl (· + ·) 0

/-- S_G in ns (R185). -/
def granarySpan (s : State) : Rat :=
  if rateG s = 0 then ((Config.spanIdle 0 * 1000 : Nat) : Rat)
  else ((41943040 - 64 * heldGranules s : Nat) : Rat) / rateG s

/-- The allocation of R188: pages per stream. -/
def pagePlan (s : State) (avail : Nat) : List (Nat × Nat) :=
  let ids := storedSet s ++ resultSet s
  let rs := rateS s
  let base := ids.map (fun i => (i, if rs = 0 then 0 else (((avail : Rat) * streamRate s i / rs).floor).toNat))
  let left := avail - (base.map (fun x => x.2)).foldl (· + ·) 0
  let given := base.zipIdx.map (fun x => (x.1.1, x.1.2 + (if x.2 < left then 1 else 0)))
  let short (l : List (Nat × Nat)) : Option Nat := (l.find? (fun x => x.2 < 16)).map (fun x => x.1)
  let most (l : List (Nat × Nat)) : Nat × Nat := l.foldl (fun m x => if x.2 > m.2 then x else m) (0, 0)
  let rec fix : Nat → List (Nat × Nat) → List (Nat × Nat)
    | 0, l => l
    | n + 1, l =>
      match short l with
      | none => l
      | some i =>
        let m := most l
        if m.2 ≤ 16 then l
        else fix n (l.map (fun x => if x.1 = i then (i, x.2 + 1) else if x.1 = m.1 then (m.1, x.2 - 1) else x))
  fix (16 * ids.length) given

/-- S_S in ns from a page count per stream (R189). -/
def siloSpanOf (s : State) (pages : Nat → Nat) : Rat :=
  let l := (storedSet s).filter (fun i => streamRate s i != 0)
  match l.map (fun i => (((pages i - 1) * pageSize : Nat) : Rat) / streamRate s i) with
  | [] => ((Config.spanIdle 1 * 1000000 : Nat) : Rat)
  | x :: xs => xs.foldl min x

/-- Pages with a pin. -/
def pinnedPages (s : State) : Nat := (s.cap.tbl.filter (fun x => x.2.pins > 0)).length

/-- S_S: of the present rings while armed, else of the allocation that an ARM would make (R141, R189). -/
def siloSpan (s : State) : Rat :=
  if s.cap.armed then siloSpanOf s (fun i => (s.cs i).pages.length)
  else
    let plan := pagePlan s (s.rd F_CAP_SILO_PAGES_PAGES - pinnedPages s - max 16 (s.rd F_CAP_MARK_PAGES_PAGES))
    siloSpanOf s (fun i => ((plan.find? (fun x => x.1 == i)).map (fun x => x.2)).getD 0)

/-- The pin ceiling in pages (R194); above 90 acts as 90. -/
def pinCeiling (s : State) : Nat := min 90 (s.rd F_CAP_PIN_LIMIT_PERCENT) * s.rd F_CAP_SILO_PAGES_PAGES / 100

/-- A word that saturates at 32 bits. -/
def sat32 (x : Nat) : Nat := min x 0xFFFFFFFF

/-- Bring CAP's spans and counts up to date (R185, R189). -/
def capSpans (s : State) : State :=
  let s1 := s.wrs [(F_CAP_GRANARY_SPAN_US, sat32 ((granarySpan s / 1000 + 1 / 2).floor).toNat),
    (F_CAP_SILO_SPAN_MS, sat32 ((siloSpan s / 1000000).floor).toNat), (F_CAP_PINNED_PAGES, pinnedPages s),
    (F_CAP_STATUS_PIN_FULL, b2n (s.rd F_CAP_SILO_PAGES_PAGES != 0 && pinnedPages s ≥ pinCeiling s)),
    (F_CAP_CLAIMS_COUNT, s.cap.claims.length),
    (F_CAP_HELD_SEGS, (s.cap.segs.filter (fun (g : Seg) => g.held && g.queued)).length),
    (F_CAP_HELD_KIB4, cdiv (heldGranules s) 64)]
  (List.range 80).foldl (fun t i => (t.wr (F_CAP_ST_PAGES_PAGES i) (s.cs i).pages.length).wr
    (F_CAP_ST_GR_BYTES_BYTES i) (64 * (s.cs i).size)) s1

/-! ### State of CAP -/

def capState (s : State) : Nat := s.rd F_CAP_STATUS_STATE

/-- CAP runs (R207). -/
def capRunning (s : State) : Bool :=
  s.cap.armed || capState s == 3 || capState s == 5 || capState s == 6

/-- The Silo writer writes: RECORD, FLUSH, STOPPING, or IDLE with the Silo ready. -/
def siloLive (s : State) : Bool := siloReady s && !(capState s == 0) && !(capState s == 6)

/-- Raise an advisory record once per ARM (R208). -/
def capOnce (s : State) (typ ts : Nat) : State :=
  if typ ∈ s.cap.raised then s
  else (s.modCap (fun c => { c with raised := typ :: c.raised })).raiseAt ts 8 typ 0 resNone 0

/-! ### Metadata in DRAM (R186, R187) -/

def roundUp (n k : Nat) : Nat := cdiv n k * k
def pageAddr (s : State) (p : Nat) : Nat := (s.rd F_CAP_SILO_BASE_BASE + p) * pageSize
def mapAddr (s : State) (p : Nat) : Nat := s.rd F_CAP_META_BASE_BASE * pageSize + 32 * p
def segTable (s : State) : Nat :=
  s.rd F_CAP_META_BASE_BASE * pageSize + roundUp (32 * s.rd F_CAP_SILO_PAGES_PAGES) pageSize
def segAddr (s : State) (no : Nat) : Nat := segTable s + 64 * (no % 2 ^ s.rd F_CAP_SEG_ENTRIES_LOG2)
def claimAddr (s : State) (id : Nat) : Nat :=
  segTable s + roundUp (64 * 2 ^ s.rd F_CAP_SEG_ENTRIES_LOG2) pageSize + 64 * id

/-- Metadata size in 2 MiB units. -/
def metaUnits (pages log2 : Nat) : Nat := cdiv (32 * pages) pageSize + cdiv (64 * 2 ^ log2) pageSize + 2

/-- A page-map entry (Table 7.2). -/
def Page.bytes (p : Page) : List Byte :=
  withCheck (natBytes 8 p.firstItem ++ natBytes 12 p.firstTs ++ natBytes 1 p.stream
    ++ natBytes 1 (b2n p.valid + 2 * b2n (decide (p.pins > 0)) + 4 * b2n p.gapIn + 8 * b2n p.watchStart
      + 16 * b2n p.partialClosed + 32 * b2n p.copied + 64 * b2n p.complete)
    ++ natBytes 2 p.pins ++ natBytes 1 p.firstOfs ++ natBytes 1 0 ++ natBytes 2 p.capture ++ natBytes 2 p.used)

/-- A segment header (Table 7.5). -/
def Seg.bytes (g : Seg) : List Byte :=
  withCheck (natBytes 12 g.tS ++ natBytes 12 g.decTs ++ natBytes 12 (if g.ovl = 0 then 0 else g.firstOvl) ++ natBytes 3 g.no
    ++ natBytes 1 g.cause ++ natBytes 1 (g.branch + 2 * g.flags) ++ natBytes 6 g.pre ++ natBytes 6 g.post
    ++ natBytes 2 g.ovl ++ natBytes 2 g.holdBefore
    ++ natBytes 1 (b2n g.pinned + 2 * b2n g.unpinned + 4 * b2n g.held + 8 * b2n g.fillIn + 16 * b2n g.suspectIn
      + 32 * b2n g.gapIn + 64 * b2n g.cut + 128 * b2n g.complete)
    ++ natBytes 2 g.capture ++ natBytes 1 1 ++ natBytes 1 0)

/-- A claim-table entry (Table 7.6). -/
def CapClaim.bytes (c : CapClaim) : List Byte :=
  withCheck (natBytes 12 c.t0 ++ natBytes 12 c.t1 ++ natBytes 8 c.streams ++ natBytes 2 c.resMask ++ natBytes 2 c.ctx
    ++ natBytes 2 c.id ++ natBytes 1 c.state ++ natBytes 1 (b2n c.gapIn + 2 * b2n c.noData)
    ++ natBytes 4 c.pages.length ++ natBytes 12 c.created ++ natBytes 6 0)

/-! ### Pages -/

def State.page (s : State) (p : Nat) : Page := cellGet Page.empty s.cap.tbl p

/-- Change a page and write its entry. -/
def State.setPage (s : State) (p : Nat) (x : Page) : State :=
  (s.modCap (fun c => { c with tbl := cellPut Page.empty c.tbl p x })).dramWrite (mapAddr s p) x.bytes

/-- The streams a mask names, with the marker stream (R197, Table 7.6). -/
def maskStreams (streams resMask : Nat) : List Nat :=
  (List.range 49).filter (fun i => (streams >>> i) % 2 == 1) ++ [0x31]
    ++ ((List.range 16).filter (fun k => (resMask >>> k) % 2 == 1)).map (· + 0x40)

/-- Whether a page holds items of [t0, t1), widened to whole items (R197). -/
def Page.covers (p : Page) (ids : List Nat) (t0 t1 : Nat) : Bool :=
  p.valid && ids.contains p.stream && decide (p.startTs < t1)
    && (match p.endTs with | none => true | some e => decide (t0 < e))

/-- Where the items of a page that is still written end, so far. -/
def pageReach (s : State) (x : Page) : Nat :=
  if x.stream < 48 then itemTime s x.stream (cdiv (x.start + 64 * x.used) (itemBytes s x.stream))
  else (s.cs x.stream).lastTs + 1

/-- The pages that cover a range, by number; of a page that is still written, what it holds by now counts (R197, R198). -/
def coverPages (s : State) (ids : List Nat) (t0 t1 : Nat) : List Nat :=
  (s.cap.tbl.filter (fun x => x.2.covers ids t0 t1 && (x.2.endTs.isSome || decide (t0 < pageReach s x.2)))).map (fun x => x.1)

/-- CAP's registers that follow the pins and rings: pinned pages, the Silo span, a stream's pages (R189, R211). -/
def pinRegs (s : State) (id : Nat) : State :=
  s.wrs [(F_CAP_SILO_SPAN_MS, sat32 ((siloSpan s / 1000000).floor).toNat), (F_CAP_PINNED_PAGES, pinnedPages s),
    (F_CAP_STATUS_PIN_FULL, b2n (s.rd F_CAP_SILO_PAGES_PAGES != 0 && pinnedPages s ≥ pinCeiling s)),
    (F_CAP_ST_PAGES_PAGES (min id 79), (s.cs (min id 79)).pages.length)]

/-- Pin a page once more: it leaves the ring it is in, its own stream's or, dealt out anew at an ARM, another's (R188,
R198). -/
def pinPage (s : State) (p : Nat) : State :=
  let x := s.page p
  let s1 := s.setPage p { x with pins := min 65535 (x.pins + 1) }
  if x.pins = 0 then
    let ring := s1.cap.streams.findIdx (fun c => c.pages.contains p)
    pinRegs (s1.modCs ring (fun c => { c with pages := c.pages.filter (fun q => q != p) })) ring
  else s1

/-- The stream with the shortest span (R189, R199). -/
def shortestStream (s : State) : Nat :=
  let span (i : Nat) : Rat := ((((s.cs i).pages.length - 1) * pageSize : Nat) : Rat) / streamRate s i
  match (storedSet s).filter (fun i => streamRate s i != 0) with
  | [] => 0x31
  | i :: is => is.foldl (fun m j => if span j < span m then j else m) i

/-- Take one pin off a page; at 0 it returns to a ring, next to be written (R199). A saturated count stays. -/
def unpinPage (s : State) (p : Nat) : State :=
  let x := s.page p
  if x.pins = 0 || x.pins = 65535 then s
  else
    let s1 := s.setPage p { x with pins := x.pins - 1 }
    if x.pins ≠ 1 then s1
    else
      let own := (s.cs x.stream).on && x.stream < 80
      let id := if own then x.stream else shortestStream s
      pinRegs (s1.modCs id (fun c =>
        { c with pages := if (s.cs id).cur = some p then c.pages ++ [p] else p :: c.pages })) id

/-- Every span that pins pages as they are taken: [t0, t1) and its streams (R193, R198). -/
def openPins (s : State) : List (List Nat × Nat × Nat × Sum Nat Nat) :=
  (s.cap.claims.filter (fun c => c.state == 1)).map
      (fun c => (maskStreams c.streams c.resMask, c.t0, c.t1, Sum.inl c.id))
    ++ (s.cap.segs.filter (fun (g : Seg) => g.pinned && !g.released && g.capture == s.rd F_CAP_CAPTURE_CAPTURE)).map
      (fun g => (storedSet s ++ [0x31], g.tS - g.pre * ns1, g.tS + g.post * ns1, Sum.inr g.no))

/-- A claim changes, and its entry with it (Table 7.6). -/
def State.modClaim (s : State) (id : Nat) (g : CapClaim → CapClaim) : State :=
  match s.cap.claims.find? (fun c => c.id == id) with
  | none => s
  | some c =>
    (s.modCap (fun k => { k with claims := k.claims.map (fun x => if x.id = id then g x else x) })).dramWrite
      (claimAddr s id) (g c).bytes

/-- A page enters the pages of a claim or segment. -/
def notePin (s : State) (who : Sum Nat Nat) (p : Nat) : State :=
  match who with
  | .inl id => s.modClaim id (fun x => { x with pages := x.pages ++ [p] })
  | .inr no => s.modCap (fun c => { c with segs := c.segs.map (fun (x : Seg) =>
      if x.no = no ∧ x.capture = s.rd F_CAP_CAPTURE_CAPTURE ∧ x.pinned ∧ !x.released then { x with pages := x.pages ++ [p] } else x) })

/-- Pin a page for every open span that it is now known to cover. -/
def pinOpen (s : State) (p : Nat) : State :=
  (openPins s).foldl (fun t o =>
    let (ids, t0, t1, who) := o
    let x := t.page p
    let already := match who with
      | .inl id => t.cap.claims.any (fun c => c.id == id && c.pages.contains p)
      | .inr no => t.cap.segs.any (fun (g : Seg) => g.no == no && g.capture == t.rd F_CAP_CAPTURE_CAPTURE && g.pages.contains p)
    let known := decide (t0 ≤ x.startTs) || x.endTs.isSome
    if x.covers ids t0 t1 && known && !already then notePin (pinPage t p) who p else t) s

/-- Close a page: USED is final (R189). -/
def closePage (s : State) (id : Nat) (isPartial : Bool) (endTs : Nat) : State :=
  match (s.cs id).cur with
  | none => s
  | some p =>
    let x := s.page p
    let s1 := s.setPage p { x with complete := true, partialClosed := isPartial, endTs := some endTs }
    pinOpen (s1.modCs id (fun c => { c with cur := none })) p

/-- The next page of a stream's ring that is not pinned (R189). -/
def nextPage (s : State) (id : Nat) : Option Nat := (s.cs id).pages.find? (fun p => (s.page p).pins == 0)

/-- Take the next page of a stream's ring for the stream byte `pos` (R189). -/
def takePage (s : State) (id pos ts : Nat) : State :=
  match nextPage s id with
  | none => s
  | some p =>
    let isz := itemBytes s id
    let k := cdiv pos isz
    let ofs := k * isz - pos
    let t0 := if id < 48 then itemTime s id k else ts
    let st := if id < 48 ∧ ofs > 0 then itemTime s id (k - 1) else t0
    let x : Page := { Page.empty with
      firstItem := k * itemIdx s id, firstTs := t0, stream := id, valid := true, firstOfs := ofs,
      watchStart := (s.cs id).watchStart, capture := s.rd F_CAP_CAPTURE_CAPTURE, start := pos, startTs := st }
    let s1 := s.modCs id (fun c => { c with pages := c.pages.filter (fun q => q != p) ++ [p], cur := some p, watchStart := false })
    pinOpen ((s1.setPage p x).wr (F_CAP_ST_CUR_PAGE_PAGE id) p) p

/-- Where the items that begin before a stream byte end: of a sample stream, where the next one begins; of records, after
the last of the bytes written, which begin at `ts`. -/
def itemsEnd (s : State) (id pos ts : Nat) (bs : List Byte) : Nat :=
  if id < 48 then itemTime s id (cdiv pos (itemBytes s id))
  else if id = 0x30 then
    leNat ((bs.drop (bs.length - 16)).take 8) * ns1 + leNat ((bs.drop (bs.length - 8)).take 1) % 128 * 33554432 + 1
  else ts + 1

/-- Write bytes at a stream's Silo position, taking a page where none is open and closing it once it is full; `stale` leaves
DRAM as it stands (R189, R190). -/
def siloWrite (id : Nat) (stale : Bool) (ts : Nat) : Nat → Nat → List Byte → State → State
  | 0, _, _, s => s
  | fuel + 1, pos, bs, s =>
    if bs.isEmpty then s
    else
      match (s.cs id).cur with
      | none =>
        if (nextPage s id).isNone then s
        else siloWrite id stale ts fuel pos bs (takePage s id pos ts)
      | some p =>
        let x := s.page p
        let off := pos - x.start
        let n := min bs.length (pageSize - off)
        let x' := { x with used := cdiv (off + n) 64, gapIn := x.gapIn || stale,
                           stale := if stale then x.stale ++ [off / 64] else x.stale }
        let s1 := if stale then s.setPage p x'
          else (s.dramWrite (pageAddr s p + off) (bs.take n)).setPage p x'
        let s2 := if off + n ≥ pageSize then closePage s1 id false (itemsEnd s1 id (pos + n) ts (bs.take n)) else s1
        siloWrite id stale ts fuel (pos + n) (bs.drop n) s2

/-! ### Markers (R191, R192) -/

/-- Write one marker to the marker stream. -/
def markNow (s : State) (m : Marker) : State :=
  let bs := natBytes 12 m.ts ++ natBytes 1 m.kind ++ natBytes 1 m.stream ++ natBytes 2 m.aux
    ++ (m.data ++ List.replicate 12 0).take 12 ++ natBytes 2 m.capture ++ natBytes 2 (m.seq.getD s.cap.markSeq)
  let s1 := siloWrite 0x31 false m.ts 4 (s.cs 0x31).bytes bs s
  (s1.modCs 0x31 (fun c => { c with bytes := c.bytes + 32, lastTs := m.ts })).modCap
    (fun c => { c with markSeq := if m.seq.isSome then c.markSeq else (c.markSeq + 1) % 65536 })

/-- Write a marker, the loss before it first (Table 7.4). -/
def markWrite (s : State) (m : Marker) : State :=
  if s.cap.lostN = 0 then markNow s m
  else
    let first := s.cap.lostFirst.getD 0
    let n := s.cap.lostN
    let s1 := s.modCap (fun c => { c with lostFirst := none, lostN := 0 })
    markNow (markNow s1 { capture := s.rd F_CAP_CAPTURE_CAPTURE, seq := none, ts := first, kind := 0x0E, stream := 0xFF,
                          aux := min n 65535, data := [] }) m

/-- A marker arises: it is written in Record, waits in the chute of 512 in Watch, or is lost and counted; in
Containment none is written (R191, R192, R206). -/
def addMarker (s : State) (kind ts stream aux : Nat) (data : List Byte) : State :=
  let m : Marker := { capture := s.rd F_CAP_CAPTURE_CAPTURE, seq := none, ts := ts, kind := kind, stream := stream, aux := aux,
                      data := data }
  let s0 := s.modCap (fun c => { c with marks := c.marks ++ [(ts, kind, stream)] })
  if s.err.contained || capState s = 0 then s
  else if siloReady s && (capState s == 4 || capState s == 5 || capState s == 1) then markWrite s0 m
  else if s.cap.chute.length < 512 then s0.modCap (fun c => { c with chute := c.chute ++ [m] })
  else
    let s1 := (s0.bump F_CAP_MARK_LOST_COUNT).modCap (fun c =>
      { c with lostFirst := some (c.lostFirst.getD ts), lostN := c.lostN + 1 })
    if s.cap.lostN = 0 then s1.raiseAt ts 8 0x04 0 resNone 0 else s1

/-! ### Granary (R185, R190) -/

/-- CAP_STs_LAG and SILO_BEHIND (R190). -/
def capLag (s : State) (id : Nat) : State :=
  let c := s.cs id
  let r := streamRate s id
  let lag (i : Nat) : Rat :=
    let x := s.cs i
    let q := streamRate s i
    if q = 0 then 0 else (((x.bytes / 64 - x.drained) * 64 : Nat) : Rat) / q
  let us := if r = 0 then 0 else ((((c.bytes / 64 - c.drained) * 64 : Nat) : Rat) / r / 1000).floor.toNat
  (s.wr (F_CAP_ST_LAG_US id) (min us 0xFFFFFF)).wr F_CAP_STATUS_SILO_BEHIND
    (b2n (siloLive s && (storedSet s).any (fun i => decide (lag i > granarySpan s / 2))))

/-- The time of a sample stream's first item not begun before a stream byte, else what is given. -/
def posTime (s : State) (id pos : Nat) (other : Nat) : Nat :=
  if id < 48 then itemTime s id (cdiv pos (itemBytes s id)) else other

/-- The end of a granule's items: the time of the first item after them. -/
def granEnd (s : State) (id : Nat) (g : Gran) : Nat :=
  posTime s id (64 * g.n + 64) (if id = 0x30 then leNat ((g.bytes.drop 48).take 8) * ns1
    + leNat ((g.bytes.drop 56).take 1) % 128 * 33554432 + 1 else g.ts + 1)

/-- A granule is overwritten before it is drained: the Silo writer advances past it (R190). -/
def siloGap (s : State) (id : Nat) (g : Gran) (next : Nat) : State :=
  let after := posTime s id (64 * g.n + 64) next
  let s1 := siloWrite id true g.ts 4 (64 * g.n) g.bytes s
  let s2 := s1.modCs id (fun c => { c with drained := g.n + 1 })
  let s3 := (addMarker s2 0x04 g.ts id 0 (natBytes 12 after)).bump F_CAP_SILO_GAP_COUNT
  let hit := (s3.cap.claims.filter (fun c => c.state == 1 && (maskStreams c.streams c.resMask).contains id
    && decide (g.ts < c.t1 ∧ c.t0 < after))).map (fun c => c.id)
  let s4 := hit.foldl (fun t i => t.modClaim i (fun c => { c with gapIn := true })) s3
  capOnce (s4.modCap (fun c => { c with hbGap := true })) 0x01 g.ts

/-- Whether a granule holds items of [t0, t1). -/
def granIn (s : State) (id t0 t1 : Nat) (g : Gran) : Bool := decide (g.ts < t1) && decide (t0 < granEnd s id g)

/-- The held segments whose spans a granule is frozen for as it is written (R147, R196). -/
def heldFor (s : State) (id : Nat) (x : Gran) : List (Nat × Nat) :=
  (s.cap.segs.filter (fun (g : Seg) => g.held && g.queued && g.capture == s.rd F_CAP_CAPTURE_CAPTURE
    && granIn s id (g.tS - g.pre * ns1) (g.tS + g.post * ns1) x)).map (fun g => (g.capture, g.no))

/-- Held bytes and the span they leave (R185, R196). -/
def heldSpans (s : State) : State :=
  s.wrs [(F_CAP_GRANARY_SPAN_US, sat32 ((granarySpan s / 1000 + 1 / 2).floor).toNat),
    (F_CAP_HELD_KIB4, cdiv (heldGranules s) 64)]

/-- Granules a ring holds now: those frozen since ARM have left it (R185, R196). -/
def ringRoom (s : State) (c : CStream) : Nat :=
  c.size - (c.frozen.filter (fun g => g.heldFor.any (fun k => k.1 == s.rd F_CAP_CAPTURE_CAPTURE))).length

/-- A completed granule enters its ring over the oldest, or is frozen for a held segment (R185, R190, R196). -/
def pushGranule (s : State) (id : Nat) (bs : List Byte) (ts : Nat) : State :=
  let c := s.cs id
  let n := c.bytes / 64
  let g0 : Gran := { n := n, ts := ts, bytes := bs, heldFor := [], ue := false }
  let g : Gran := { g0 with heldFor := heldFor s id g0 }
  let s1 := s.modCs id (fun x => { x with bytes := x.bytes + 64 })
  if !g.heldFor.isEmpty then heldSpans (s1.modCs id (fun x => { x with frozen := x.frozen ++ [g] }))
  else
    let s2 := s1.modCs id (fun x => { x with ring := x.ring ++ [g] })
    if c.ring.length < ringRoom s c then capLag s2 id
    else
      match c.ring with
      | [] => s2
      | o :: os =>
        let s3 := s2.modCs id (fun x => { x with ring := os ++ [g] })
        let after := match os with | [] => ts | a :: _ => a.ts
        if o.n ≥ c.drained && siloLive s && (capState s == 4 || capState s == 3) then
          capLag (siloGap s3 id o after) id
        else capLag s3 id

/-- Bytes of one item, whose first sample has time `t`, enter a stream's staging register; a whole granule goes on
(R185). -/
def pushBytes (s : State) (id : Nat) (bs : List Byte) (ts : Nat) (t : Nat := ts) : State :=
  let c := s.cs id
  let st := c.staging ++ bs
  let t0 := match c.stageTs with | some x => x | none => t
  let s1 := s.modCs id (fun x => { x with lastTs := ts })
  if st.length < 64 then s1.modCs id (fun x => { x with staging := st, stageTs := some t0 })
  else
    let rest := st.drop 64
    pushGranule (s1.modCs id (fun x => { x with staging := rest, stageTs := if rest.isEmpty then none else some t }))
      id (st.take 64) t0

/-- One value of a sample stream in DFU_MODE.FMT (R67): 12 or 16 bits convergent-rounded and saturated, or H32. `wide`
values carry S16 in bits [31:16]. -/
def fmtValue (fmt : Nat) (wide : Bool) (v : Int) : Int :=
  match fmt with
  | 0 => satTo 12 (if wide then rc v 20 else rc v 4)
  | 1 => if wide then satTo 16 (rc v 16) else v
  | _ => v

/-- The 24 bytes of a P12 block (Table 0.5). -/
def p12Block (vs : List Int) : List Byte :=
  natBytes 24 ((List.range 16).foldl (fun a k => a + wrapTo 12 (vs.getD k 0) * 2 ^ (12 * k)) 0)

/-- Values of one index enter a stored sample stream (R183, R184). -/
def pushValues (s : State) (id : Nat) (vs : List Int) (ts : Nat) : State :=
  let u := id / 4
  let fmt := s.rd (F_DFU_MODE_FMT u)
  let wide := s.rd (F_DFU_MODE_DEC_MODE u) == 3 || s.rd (F_DFU_MODE_DEC_MODE u) == 4
  let ws := vs.map (fmtValue fmt wide)
  if fmt = 0 then
    let c := s.cs id
    let all := c.vals ++ ws
    let s1 := s.modCs id (fun x => { x with vals := if all.length ≥ 16 then all.drop 16 else all })
    if all.length ≥ 16 then
      pushBytes s1 id (p12Block (all.take 16)) ts (itemTime s id ((c.bytes + c.staging.length) / itemBytes s id))
    else s1
  else pushBytes s id (ws.flatMap (fun v => if fmt = 1 then natBytes 2 (wrapTo 16 v) else natBytes 4 (wrapTo 32 v))) ts

/-- A record enters the transition stream (R170, R183). -/
def pushTransition (s : State) (bs : List Byte) (ts : Nat) : State :=
  if (s.cs 0x30).on && (s.cap.armed || (decide (s.cap.armTs ≤ ts) && decide (ts < s.cap.stopTs))) then pushBytes s 0x30 bs ts else s

/-- A record enters a result stream: in Record it is written to the Silo (Table 7.1). -/
def pushResult (s : State) (k : Nat) (bs : List Byte) (ts : Nat) : State :=
  let id := 0x40 + k
  if !siloLive s then s
  else
    let s1 := siloWrite id false ts 4 (s.cs id).bytes bs s
    s1.modCs id (fun c => { c with bytes := c.bytes + 64, lastTs := ts })

/-! ### Segments (R193 to R196) -/

/-- The oldest item still held of a stored stream: in the Silo while it holds this capture, else in the Granary. -/
def oldestHeld (s : State) (id : Nat) : Nat :=
  let cap := s.rd F_CAP_CAPTURE_CAPTURE
  let ps := (s.cap.tbl.filter (fun x => x.2.valid && x.2.stream == id && x.2.capture == cap)).map (fun x => x.2.firstTs)
  let gr := ((s.cs id).frozen ++ (s.cs id).ring).map (fun g => g.ts)
  let fallback := (s.cs id).stageTs.getD s.cap.armTs
  let l := if siloLive s then ps ++ gr else gr
  match l with
  | [] => fallback
  | t :: ts => ts.foldl min t

/-- Whether a stream still holds everything since ARM: its first byte. -/
def firstHeld (s : State) (id : Nat) : Bool :=
  (s.cs id).bytes == 0 || ((s.cs id).frozen ++ (s.cs id).ring).any (fun g => g.n == 0)
    || (siloLive s && s.cap.tbl.any (fun x => x.2.valid && x.2.stream == id && x.2.start == 0
      && x.2.capture == s.rd F_CAP_CAPTURE_CAPTURE))

/-- The oldest time held on every stored sample stream. -/
def oldestAll (s : State) : Nat := (((storedSet s).filter (· < 48)).map (oldestHeld s)).foldl max s.cap.armTs

/-- A change to a segment of a capture; the segment, by capture and number. -/
def State.modSeg (s : State) (k : Nat × Nat) (g : Seg → Seg) : State :=
  s.modCap (fun c => { c with segs := c.segs.map (fun (x : Seg) => if x.capture = k.1 ∧ x.no = k.2 then g x else x) })
def seg? (s : State) (k : Nat × Nat) : Option Seg := s.cap.segs.find? (fun (g : Seg) => (g.capture, g.no) == k)

/-- A header goes to the segment table, or waits in the header chute of 256 (R193, R196). -/
def putHeader (s : State) (k : Nat × Nat) : State :=
  match seg? s k with
  | none => s
  | some g =>
    if !g.stored then s
    else if siloReady s && capState s != 3 then
      (s.dramWrite (segAddr s k.2) g.bytes).modCap (fun c => { c with hdrq := c.hdrq.filter (· != k) })
    else if s.cap.hdrq.contains k then s
    else if s.cap.hdrq.length < 256 then s.modCap (fun c => { c with hdrq := c.hdrq ++ [k] })
    else (s.bump F_CAP_SEG_DROPPED_COUNT).modSeg k (fun x => { x with stored := false })

/-- Pages a span still to be written will take. -/
def futurePages (s : State) (ids : List Nat) (t1 : Nat) : Nat :=
  (ids.map (fun i => if t1 ≤ s.now then 0
    else ((((t1 - s.now : Nat) : Rat) / (ns1 : Rat) * streamRate s i / (pageSize : Rat)).ceil).toNat)).foldl (· + ·) 0

/-- Bytes of the Granary a span needs (R196). -/
def holdBytes (s : State) (pre post : Nat) : Nat := ((((pre + post : Nat) : Rat) * rateG s).ceil).toNat

/-- Freeze the granules of a held segment's span as they stand; those frozen already are kept for it too (R147, R196). -/
def freeze (s : State) (no t0 t1 : Nat) : State :=
  let k := (s.rd F_CAP_CAPTURE_CAPTURE, no)
  (storedSet s).foldl (fun t id => t.modCs id (fun c =>
    let hit (g : Gran) : Bool := granIn s id t0 t1 g
    let more (g : Gran) : Bool := hit g && g.heldFor.any (fun x => x.1 == k.1)
    { c with frozen := (c.frozen.map (fun g => if more g then { g with heldFor := g.heldFor ++ [k] } else g))
               ++ ((c.ring.filter hit).map (fun g => { g with heldFor := [k] })),
             ring := c.ring.filter (fun g => !hit g) })) s

/-- A segment lets go of its frozen granules; those no segment holds are freed (R196, R199). -/
def thaw (s : State) (k : Nat × Nat) : State :=
  s.modCap (fun c => { c with streams := c.streams.map (fun x => { x with
    frozen := (x.frozen.map (fun g => { g with heldFor := g.heldFor.filter (· != k) })).filter (fun g => !g.heldFor.isEmpty) }) })

/-- CAP handles an accepted segment (R193, R194, R196): provisional header, SEGMENT marker, pin or hold. Its second
value says whether history is short (R147). -/
def capAccept (s : State) (g0 : Seg) : State × Bool :=
  let t0 := g0.tS - g0.pre * ns1
  let t1 := g0.tS + g0.post * ns1
  let short := decide (t0 < oldestAll s)
    || ((storedSet s).contains 0x30 && !firstHeld s 0x30 && decide (t0 < oldestHeld s 0x30))
  let cap := s.rd F_CAP_CAPTURE_CAPTURE
  let n := 2 ^ s.rd F_CAP_SEG_ENTRIES_LOG2
  let blocked := s.cap.segs.any (fun (g : Seg) => g.stored && (g.pinned || g.queued) && !g.released && g.no % n == g0.no % n)
  let ids := storedSet s ++ [0x31]
  let canWrite := s.on F_GLB_STATE_DRAM_READY && (s.inRecord || s.on F_TRG_CTRL_WAKE_EN)
  let cover := coverPages s ids t0 t1
  let extra := (cover.filter (fun p => (s.page p).pins == 0)).length + futurePages s ids t1
  let ovr := pinnedPages s + extra > pinCeiling s
  let auto := s.on F_CAP_CTRL_AUTO_PIN
  let heldN := (s.cap.segs.filter (fun (g : Seg) => g.held && g.queued)).length
  let holdOk := heldN < 16 && 64 * heldGranules s + holdBytes s g0.pre g0.post
    ≤ min 32 (s.rd F_CAP_GR_HOLD_MAX_MIB) * 1048576
  let hold := !canWrite && holdOk && !blocked
  let g : Seg := { g0 with
    capture := cap, ctx := s.cap.armCtx, stored := !blocked, held := hold, queued := hold,
    pinned := auto && !blocked && canWrite && !ovr, unpinned := auto && !blocked && canWrite && ovr,
    flags := if short then g0.flags ||| 2 else g0.flags, pages := [] }
  let s1 := s.modCap (fun c => { c with segs := c.segs.filter (fun (x : Seg) => !(g.stored && x.stored && x.no % n == g.no % n)) ++ [g] })
  let s2 := if blocked then capOnce (s1.bump F_CAP_SEG_DROPPED_COUNT) 0x03 g.tS else putHeader s1 (cap, g.no)
  let s3 := if g.unpinned then capOnce (s2.bump F_CAP_UNPINNED_COUNT) 0x02 g.tS else s2
  let s4 := if g.pinned then cover.foldl (fun t p => notePin (pinPage t p) (.inr g.no) p) s3 else s3
  let s5 := if hold then freeze s4 g.no t0 t1
    else if !canWrite && !holdOk then s4.raiseAt g.tS 8 0x05 0 resNone 0 else s4
  let s6 := addMarker s5 0x0D g.tS 0xFF 0 (natBytes 3 g.no ++ natBytes 1 g.cause)
  (capSpans s6, short)

/-- CAP completes a segment's header at hand-off (R193). -/
def capHandoff (s : State) (k : Nat × Nat) (ovl firstOvl : Nat) : State :=
  match seg? s k with
  | none => s
  | some g =>
    let t0 := g.tS - g.pre * ns1
    let t1 := g.tS + g.post * ns1
    let has (kind : Nat) : Bool := s.cap.marks.any (fun m => m.2.1 == kind && decide (t0 ≤ m.1 ∧ m.1 < t1))
    let s1 := s.modSeg k (fun x => { x with complete := true, ovl := ovl, firstOvl := firstOvl, fillIn := has 5,
                                             suspectIn := has 6, gapIn := has 4 })
    let s2 := putHeader s1 k
    if s.on F_CAP_CTRL_SEG_EVENT then s2.postEvent g.ctx 0x0801 [g.no, g.capture] else s2

end Sys2Proof.Machine
end

