-- ==== Sys2Proof/Machine/Float.lean ====
section
/-!
DEFINITION. IEEE 754 binary32 and binary64 numbers as the manual's operators use them: exact values, and one rounding
to nearest even at the end of each operation.
-/

namespace Sys2Proof.Machine

/-- A floating-point value: a sign and a magnitude, an infinity, or a NaN. -/
inductive Fp where
  | nan
  | inf (neg : Bool)
  | fin (neg : Bool) (q : Rat)
deriving DecidableEq

/-- A format: significand bits, exponent bits. -/
structure FpFmt where
  p : Nat
  e : Nat

def f32 : FpFmt := { p := 24, e := 8 }
def f64 : FpFmt := { p := 53, e := 11 }

def FpFmt.emax (f : FpFmt) : Int := (2 ^ (f.e - 1) - 1 : Nat)
def FpFmt.emin (f : FpFmt) : Int := 1 - f.emax

/-- A power of two. -/
def pow2 (k : Int) : Rat := if k ≥ 0 then ((2 ^ k.toNat : Nat) : Rat) else 1 / ((2 ^ (-k).toNat : Nat) : Rat)

/-- The exponent of a positive rational's leading bit. -/
def ilog2 (q : Rat) : Int :=
  let e : Int := (Nat.log2 q.num.toNat : Int) - (Nat.log2 q.den : Int)
  if pow2 e ≤ q then e else e - 1

/-- A rational rounded to the nearest integer, ties to even. -/
def rne (q : Rat) : Int :=
  let f := q.floor
  let r := q - f
  if r < 1 / 2 then f else if r > 1 / 2 then f + 1 else if f % 2 = 0 then f else f + 1

/-- A magnitude rounded to a format; overflow goes to infinity. -/
def FpFmt.round (f : FpFmt) (neg : Bool) (q : Rat) : Fp :=
  if q = 0 then .fin neg 0
  else
    let u := max (ilog2 q) f.emin - (f.p - 1 : Nat)
    let m := (rne (q / pow2 u) : Rat) * pow2 u
    if m ≥ pow2 (f.emax + 1) then .inf neg else .fin neg m

/-- A rational in a format. -/
def FpFmt.ofRat (f : FpFmt) (q : Rat) : Fp := if q < 0 then f.round true (-q) else f.round false q

/-- The value that a bit pattern spells. -/
def FpFmt.decode (f : FpFmt) (x : Nat) : Fp :=
  let mb := f.p - 1
  let m := x % 2 ^ mb
  let e := (x >>> mb) % 2 ^ f.e
  let neg := (x >>> (mb + f.e)) % 2 == 1
  if e = 2 ^ f.e - 1 then (if m = 0 then .inf neg else .nan)
  else if e = 0 then .fin neg ((m : Rat) * pow2 (f.emin - mb))
  else .fin neg (((m + 2 ^ mb : Nat) : Rat) * pow2 ((e : Int) - f.emax - mb))

/-- The bit pattern of a value of the format; the NaN is the quiet one with a clear sign. -/
def FpFmt.encode (f : FpFmt) (x : Fp) : Nat :=
  let mb := f.p - 1
  let sign (n : Bool) : Nat := if n then 2 ^ (mb + f.e) else 0
  match x with
  | .nan => (2 ^ f.e - 1) * 2 ^ mb + 2 ^ (mb - 1)
  | .inf n => sign n + (2 ^ f.e - 1) * 2 ^ mb
  | .fin n q =>
    if q = 0 then sign n
    else
      let e := ilog2 q
      if e < f.emin then sign n + (q / pow2 (f.emin - mb)).floor.toNat
      else sign n + (e + f.emax).toNat * 2 ^ mb + ((q / pow2 (e - mb)).floor.toNat - 2 ^ mb)

/-- The signed rational of a finite value. -/
def Fp.val : Fp → Rat
  | .fin n q => if n then -q else q
  | _ => 0

def Fp.isNan : Fp → Bool
  | .nan => true
  | _ => false

def Fp.isInf : Fp → Bool
  | .inf _ => true
  | _ => false

def Fp.sign : Fp → Bool
  | .nan => false
  | .inf n => n
  | .fin n _ => n

def Fp.neg : Fp → Fp
  | .nan => .nan
  | .inf n => .inf (!n)
  | .fin n q => .fin (!n) q

def Fp.abs : Fp → Fp
  | .nan => .nan
  | .inf _ => .inf false
  | .fin _ q => .fin false q

/-- Addition, rounded to the format. An exact zero sum is +0 unless both are −0. -/
def FpFmt.add (f : FpFmt) (a b : Fp) : Fp :=
  match a, b with
  | .nan, _ | _, .nan => .nan
  | .inf x, .inf y => if x = y then .inf x else .nan
  | .inf x, _ => .inf x
  | _, .inf y => .inf y
  | .fin x p, .fin y q =>
    let v := Fp.val (.fin x p) + Fp.val (.fin y q)
    if v = 0 then .fin (x && y) 0 else f.ofRat v

def FpFmt.sub (f : FpFmt) (a b : Fp) : Fp := f.add a b.neg

/-- Multiplication, rounded to the format. -/
def FpFmt.mul (f : FpFmt) (a b : Fp) : Fp :=
  let s := a.sign != b.sign
  match a, b with
  | .nan, _ | _, .nan => .nan
  | .inf _, .inf _ => .inf s
  | .inf _, .fin _ q | .fin _ q, .inf _ => if q = 0 then .nan else .inf s
  | .fin _ p, .fin _ q => f.round s (p * q)

/-- Division, rounded to the format. -/
def FpFmt.div (f : FpFmt) (a b : Fp) : Fp :=
  let s := a.sign != b.sign
  match a, b with
  | .nan, _ | _, .nan => .nan
  | .inf _, .inf _ => .nan
  | .inf _, _ => .inf s
  | _, .inf _ => .fin s 0
  | .fin _ p, .fin _ q => if q = 0 then (if p = 0 then .nan else .inf s) else f.round s (p / q)

/-- a × b + c with one rounding. -/
def FpFmt.fma (f : FpFmt) (a b c : Fp) : Fp :=
  match a, b, c with
  | .fin x p, .fin y q, .fin z r =>
    let v := Fp.val (.fin x p) * Fp.val (.fin y q) + Fp.val (.fin z r)
    if v = 0 then .fin ((x != y) && z) 0 else f.ofRat v
  | .fin x p, .fin y q, c => f.add (.fin (x != y) (p * q)) c
  | _, _, _ => f.add (f.mul a b) c

/-- The square root, correctly rounded: two extra bits and a sticky bit decide the rounding. -/
def FpFmt.sqrt (f : FpFmt) (a : Fp) : Fp :=
  match a with
  | .nan => .nan
  | .inf n => if n then .nan else .inf false
  | .fin n q =>
    if q = 0 then .fin n 0
    else if n then .nan
    else
      let k : Int := (f.p + 4 : Nat) - ilog2 q / 2
      let y := q * pow2 (2 * k)
      let r := isqrt (y.floor.toNat)
      let exact := decide (((r * r : Nat) : Rat) = y)
      f.round false ((if exact then (r : Rat) else (r : Rat) + 1 / 2) / pow2 k)

/-- a < b and a ≤ b; false with a NaN. Infinities compare normally, −0 equals +0 (R133). -/
def Fp.lt (a b : Fp) : Bool :=
  match a, b with
  | .nan, _ | _, .nan => false
  | .inf x, .inf y => x && !y
  | .inf x, _ => x
  | _, .inf y => !y
  | a, b => decide (a.val < b.val)

def Fp.le (a b : Fp) : Bool :=
  match a, b with
  | .nan, _ | _, .nan => false
  | .inf x, .inf y => x || !y
  | .inf x, _ => x
  | _, .inf y => !y
  | a, b => decide (a.val ≤ b.val)

/-- The binary32 a word holds, and the word of a value. -/
def fp32 (x : Nat) : Fp := f32.decode (x % 4294967296)
def bits32 (x : Fp) : Nat := f32.encode x

/-- A value brought to a format. -/
def FpFmt.conv (f : FpFmt) (a : Fp) : Fp :=
  match a with
  | .fin n q => f.round n q
  | x => x

end Sys2Proof.Machine
end

