-- ==== Sys2Proof/Machine/TimOps.lean ====
section
/-!
DEFINITION. Edge timing's shared operations (chapter 6): delays, storage of transition records, fundamental-period
outputs and measurement units.
-/

namespace Sys2Proof.Machine

/-- A change to edge timing, an input, a storing source, a unit. -/
def State.modTim (s : State) (g : Tim → Tim) : State := { s with tim := g s.tim }
def State.tin (s : State) (n : Nat) : TInput := s.tim.ins.getD n TInput.reset
def State.modIn (s : State) (n : Nat) (g : TInput → TInput) : State :=
  s.modTim (fun t => { t with ins := listMod t.ins n g })
def State.tst (s : State) (c : Nat) : TStore := s.tim.stores.getD c TStore.reset
def State.modSt (s : State) (c : Nat) (g : TStore → TStore) : State :=
  s.modTim (fun t => { t with stores := listMod t.stores c g })
def State.mu (s : State) (u : Nat) : TMu := s.tim.mus.getD u TMu.reset
def State.modMu (s : State) (u : Nat) (g : TMu → TMu) : State :=
  s.modTim (fun t => { t with mus := listMod t.mus u g })

/-- One step of 7.8125 ps (R159). -/
abbrev fine : Nat := 33554432

/-- TIM runs (R177). -/
def timRun (s : State) : Bool := s.on F_TIM_CTRL_RUN

/-- An input or virtual edge delivers data (R177). -/
def inDelivers (s : State) (n : Nat) : Bool :=
  timRun s && s.on (F_TIM_IN_CFG_EN n) && !(s.tin n).parity
def veDelivers (s : State) (v : Nat) : Bool :=
  timRun s && s.on (F_TIM_VE_CFG_EN v) && s.rd (F_TIM_VE_CFG_SRC v) < 48 && !s.tim.badVes.contains v

/-! ### Delays in ns -/

/-- AGE_k exactly (R51). -/
def ageRat (s : State) (k : Nat) : Rat := let a := ageOf s k; if a.2 = 0 then 0 else (a.1 : Rat) / (a.2 : Rat)

/-- T_in in ns. -/
def tIn (s : State) (u : Nat) : Rat := ((tConv s : Nat) : Rat) / ((unitG s u * ns1 : Nat) : Rat)

/-- n_last − n_label of a unit's primary outputs, in inputs (Table 3.1). -/
def dfuLast (s : State) (u : Nat) : Rat :=
  let d : Rat := ((unitD s u : Nat) : Rat)
  match s.rd (F_DFU_MODE_DEC_MODE u) with
  | 1 | 2 => d + 3
  | 3 => (d - 1) / 2 + 4
  | 4 => ((stageGd (unitStages s u) 1 : Nat) : Rat) + 4
  | _ => 4

/-- (n_last − n_label) × T_in + AGE_k + L_dfu of a unit (R114, R166, Table 3.1). -/
def dfuDelay (s : State) (u : Nat) : Rat :=
  let l : Rat := if s.rd (F_DFU_MODE_DEC_MODE u) = 4 then 3 + 5 / 2 * (((unitStages s u).length : Nat) : Rat) else 9 / 2
  dfuLast s u * tIn s u + ageRat s u + l

/-- The same of a unit's synchronous stream: to the last input under the polyphase span, 24 inputs of the resampler and the
halfband group delay after a sample's time, then the pipeline (R87, Table 3.1). -/
def rsDelay (s : State) (u : Nat) : Rat :=
  let src := s.on (F_DFU_RS_CTRL_SRC u)
  let hb := hbStages s u
  let span : Nat := (if src then unitD s u else 1) * (stageGd hb 1 + 24 * 2 ^ s.rd (F_DFU_RS_CTRL_HB u))
  (((span : Nat) : Rat) + (if src then dfuLast s u else 4)) * tIn s u + ageRat s u + 9 + 5 / 2 * ((hb.length : Nat) : Rat)

/-- D_VE of a virtual edge, up to the next 2^-8 ns, in 2^-8 ns (R166). -/
def veDelay (s : State) (v : Nat) : Nat := ((dfuDelay s (s.rd (F_TIM_VE_CFG_SRC v) / 4) + 8) * 256).ceil.toNat

/-! ### Storage (R167 to R171) -/

/-- The storage mode of an input or virtual edge in effect. -/
def storeMode (s : State) (src : Nat) : Nat :=
  if src < 0x41 then (if s.rdE (F_TIM_IN_CFG_STORE src) = 3 ∧ src = 0x40 then 0 else s.rdE (F_TIM_IN_CFG_STORE src))
  else if s.rdE (F_TIM_VE_CFG_STORE (src - 0x50)) = 3 then 0 else s.rdE (F_TIM_VE_CFG_STORE (src - 0x50))

/-- The inputs of a group in GROUP mode. -/
def groupIns (s : State) (g : Nat) : List Nat :=
  ((List.range 16).map (fun i => 16 * g + i)).filter (fun n => s.on (F_TIM_IN_CFG_EN n) && storeMode s n == 3)

/-- Delivery delay of a source in 2^-8 ns: 24 ns + G for an input, the largest of its inputs for a group, D_VE for a virtual
edge (R163, R170). -/
def srcDelay (s : State) (src : Nat) : Nat :=
  if src < 0x41 then (24 + s.rd (F_TIM_IN_CFG_DEGLITCH src)) * 256
  else if src < 0x48 then
    (((groupIns s (src - 0x44)).map (fun n => s.rd (F_TIM_IN_CFG_DEGLITCH n))).foldl max 0 + 24) * 256
  else veDelay s (src - 0x50)

/-- The records of an input whose calibration failed carry SUSPECT (R160). -/
def srcBad (s : State) (src : Nat) : Bool := decide (src < 0x41) && (s.tin src).calBad

/-- STORE_Q at an event time (R115). -/
def storeQAt (s : State) (ts : Nat) : Bool :=
  match s.trg.storeQ.find? (fun x => decide (x.1 ≤ ts)) with
  | some x => x.2
  | none => true

/-- Whether a record of a time is stored in the present capture: from ARM to the disarm (R171). -/
def storeCovers (s : State) (ts : Nat) : Bool :=
  decide (s.tim.armTs ≤ ts) && (match s.tim.stopTs with | none => true | some t => decide (ts < t))

/-- Put a record in its place: by timestamp, then SRC, then order (R170). -/
def insertRec (r : TRec) : List TRec → List TRec
  | [] => [r]
  | x :: xs => if r.ts < x.ts ∨ (r.ts = x.ts ∧ r.src < x.src) then r :: x :: xs else x :: insertRec r xs

/-- A record of a source arises. -/
def emitRec (s : State) (src kind ts : Nat) (level susp : Bool) (data : Nat) : State :=
  let r : TRec := { ts := ts, level := level, src := src, susp := susp, kind := kind, data := min data 65535,
                    seq := (s.tst src).seq }
  (s.modSt src (fun x => { x with seq := (x.seq + 1) % 65536 })).modTim (fun t => { t with mq := insertRec r t.mq })

/-- Tokens of a source's bucket at a time, in 1/1000 (R169). -/
def tokens (s : State) (src ts : Nat) : Nat :=
  let x := s.tst (bucketIx src)
  min (1000 * bucketBurst s.rdE src) (x.milli + bucketRate s.rdE src * (ts / ns1 - x.at_))

/-- Write the tokens a bucket holds at a time. -/
def setTokens (s : State) (src m ts : Nat) : State :=
  s.modSt (bucketIx src) (fun y => { y with milli := m, at_ := ts / ns1 })

/-- Count one unstored edge (R169). -/
def unstored (s : State) (n : Nat) : State := if n < 65 then s.bump (F_TIM_IN_UNSTORED_COUNT n) else s

/-- The first nanosecond, not before the gap began, at which the bucket of a source holds half its burst, as TS96 (R169). -/
def gapTime (s : State) (src : Nat) : Nat :=
  let x := s.tst (bucketIx src)
  max (x.at_ + cdiv (500 * bucketBurst s.rdE src - x.milli) (bucketRate s.rdE src)) (cdiv (s.tst src).gapTs ns1) * ns1

/-- When the open gap of a source ends: its bucket holds half its burst and, where the merge chute was what it met full,
that has come down to 2048 entries (R169, R170). -/
def gapEnd (s : State) (src : Nat) : Option Nat :=
  if (s.tst (bucketIx src)).milli < 1000 then some (gapTime s src)
  else if s.tim.mq.length > 2048 then none
  else some (max (gapTime s src) (cdiv s.tim.roomAt ns1 * ns1))

/-- A gap of a source that has ended by a time gets its LEVEL record (R169, R170). -/
def gapClose (s : State) (src ts : Nat) (level : Bool) : State :=
  match (s.tst src).gap, gapEnd s src with
  | some k, some te =>
    if ts < te then s
    else
      let s1 := s.modSt src (fun y => { y with gap := none })
      if storeCovers s te then emitRec s1 src 2 te level (srcBad s src) k else s1
  | _, _ => s

/-- An EDGE or GROUP record of a source: it costs a token; without one, or with the merge chute full, a gap begins
(R169, R170). `before` is the source's level before it. The second value says whether the record was stored. -/
def storeRec (s0 : State) (src n kind ts : Nat) (level before susp : Bool) (data : Nat) : State × Bool :=
  let s := gapClose s0 src ts before
  match (s.tst src).gap with
  | some k => (unstored (s.modSt src (fun y => { y with gap := some (k + 1) })) n, false)
  | none =>
    let m := tokens s src ts
    if m < 1000 || s.tim.mq.length ≥ 4096 then
      let s1 := emitRec ((setTokens s src m ts).modSt src (fun y => { y with gap := some 1, gapTs := ts })) src 4 ts false (srcBad s src) 0
      let s2 := unstored s1 n
      (if src ∈ s.tim.gapRaised then s2
       else (s2.modTim (fun t => { t with gapRaised := src :: t.gapRaised })).raiseAt ts 7 0x02 0 (resIndex src) 0, false)
    else (emitRec (setTokens s src (m - 1000) ts) src kind ts level susp data, true)

/-- The levels of a group, disabled inputs 0 (R168). -/
def groupState (s : State) (g : Nat) : Nat :=
  (List.range 16).foldl (fun a i => if s.on (F_TIM_IN_CFG_EN (16 * g + i)) && (s.tin (16 * g + i)).level then a + 2 ^ i else a) 0

/-- Whether an input's group stores GROUP records. -/
def inGroup (s : State) (n : Nat) : Bool := n < 64 && !(groupIns s (n / 16)).isEmpty

def insertGEdge (e : TGEdge) : List TGEdge → List TGEdge
  | [] => [e]
  | x :: xs => if e.ts < x.ts ∨ (e.ts = x.ts ∧ e.n < x.n) then e :: x :: xs else x :: insertGEdge e xs

/-- A change of an input's level takes its place among its group's. -/
def groupQueue (s : State) (n ts : Nat) (level susp store : Bool) : State :=
  if inGroup s n then
    s.modTim (fun t => { t with gq := insertGEdge { n := n, ts := ts, level := level, susp := susp, store := store } t.gq })
  else s

/-- An edge of a group: it opens or joins the group's record (R168). -/
def groupEdge (s0 : State) (e : TGEdge) : State :=
  let g := e.n / 16
  let x := s0.tim.groups.getD g { levels := 0, open_ := none }
  let i := e.n % 16
  let lv := x.levels - (if x.levels.testBit i then 2 ^ i else 0) + (if e.level then 2 ^ i else 0)
  let setG (t : State) (o : Option (Nat × Bool)) : State :=
    t.modTim (fun m => { m with groups := listMod m.groups g (fun _ => { levels := lv, open_ := o }) })
  let coal := bitsOf (s0.rd F_TIM_GROUP_COAL_COAL) (8 * g) 8 * fine
  let s := setG s0 x.open_
  if !e.store || !storeCovers s e.ts then s
  else
    match x.open_.filter (fun o => decide (o.1 ≤ e.ts ∧ e.ts ≤ o.1 + coal)) with
    | some o =>
      if o.2 then
        s.modTim (fun t => { t with mq := t.mq.map (fun r =>
          if r.src = 0x44 + g ∧ r.kind = 1 ∧ r.ts = o.1 then { r with data := lv, susp := r.susp || e.susp } else r) })
      else unstored s e.n
    | none =>
      let r := storeRec s (0x44 + g) e.n 1 e.ts false false e.susp lv
      setG r.1 (some (e.ts, r.2))

/-- The edges of groups whose turn has come are coalesced: every edge that could lie before them has been delivered. -/
def groupsRun (s : State) : State :=
  let al := s.rd F_TIM_STORE_ALIGN_ALIGN * 16777216 - 8 * ns1
  let due := s.tim.gq.takeWhile (fun e => decide (e.ts + al ≤ s.now))
  due.foldl groupEdge (s.modTim (fun t => { t with gq := t.gq.drop due.length }))

/-- The heart has still to say what STORE_Q is at an event time: it has not evaluated that tick (R115). -/
def storeQWaits (s : State) (ts : Nat) : Bool :=
  s.on F_TRG_CTRL_MODE && decide (2 ≤ s.rd F_TRG_STATUS_STATE ∧ s.rd F_TRG_STATUS_STATE ≤ 4)
    && decide (s.trg.tick * 2147483648 ≤ ts)

/-- A qualified edge is stored where STORE_Q is 1 at its timestamp (R167). -/
def storeQual (s : State) (e : QEdge) : State :=
  if !storeCovers s e.ts then s
  else if storeQAt s e.ts then (storeRec s e.src e.src 0 e.ts e.level (!e.level) e.susp 0).1
  else gapClose s e.src e.ts (!e.level)

/-- Qualified edges whose tick the heart has evaluated, in timestamp order. -/
def qualRun (s : State) : State :=
  let due := s.tim.qual.filter (fun e => !storeQWaits s e.ts)
  due.foldl storeQual (s.modTim (fun t => { t with qual := t.qual.filter (fun e => storeQWaits s e.ts) }))

def insertQEdge (e : QEdge) : List QEdge → List QEdge
  | [] => [e]
  | x :: xs => if e.ts < x.ts then e :: x :: xs else x :: insertQEdge e xs

/-- Storage of an accepted edge of a source; a qualified one waits for the heart where that has not yet evaluated its tick
(R115, R167). -/
def storeEdge (s : State) (src ts : Nat) (level susp : Bool) : State :=
  if !storeCovers s ts then s
  else
    let e : QEdge := { src := src, ts := ts, level := level, susp := susp }
    match storeMode s src with
    | 1 => (storeRec s src src 0 ts level (!level) susp 0).1
    | 2 => if storeQWaits s ts then s.modTim (fun t => { t with qual := insertQEdge e t.qual }) else storeQual s e
    | _ => s

def TVe.reset : TVe := { u := false, init := true, prev := none, lossOpen := false }

/-- The level a source has now. -/
def srcLevel (s : State) (src : Nat) : Bool :=
  if src < 0x41 then (s.tin src).level else if src < 0x50 then false else (s.tim.ves.getD (src - 0x50) TVe.reset).u

/-- The inputs and virtual edges that deliver data and store. -/
def levelSrcs (s : State) : List Nat :=
  ((List.range 65).filter (fun n => inDelivers s n) ++ ((List.range 16).filter (fun v => veDelivers s v)).map (· + 0x50)).filter
    (fun c => storeMode s c != 0)

/-- The level of a source at a tick's start: before the first of its edges from then on (R167). -/
def levelAt (s : State) (src ts : Nat) : Bool :=
  match s.tim.qual.find? (fun e => e.src == src && decide (ts ≤ e.ts)) with
  | some e => !e.level
  | none => srcLevel s src

/-- STORE_Q falls or rises at a tick's start: each QUAL source gets its record (R167). -/
def storeQEdge (s : State) (ts : Nat) (rise : Bool) : State :=
  let srcs := (levelSrcs s).filter (fun c => storeMode s c == 2)
  if !storeCovers s ts then s
  else srcs.foldl (fun t c => if rise then emitRec t c 2 ts (levelAt t c ts) (srcBad t c) 0
    else emitRec t c 4 ts false (srcBad t c) 0) s

/-- LOSS and LEVEL records of a loss interval go only to storing sources. -/
def lossRec (s : State) (src kind ts : Nat) (level : Bool) (data : Nat) : State :=
  if storeMode s src != 0 && storeCovers s ts then emitRec s src kind ts level (srcBad s src) data else s

/-- Gaps whose end has passed by TIM_STORE_ALIGN end. -/
def gapsRun (s : State) : State :=
  let al := s.rd F_TIM_STORE_ALIGN_ALIGN * 16777216
  ((List.range 96).filter (fun c => (s.tst c).gap.isSome
      && (match gapEnd s c with | some te => decide (te + al ≤ s.now) | none => false))).foldl
    (fun t c => gapClose t c (s.now - al) (srcLevel t c)) s

/-- The bytes of a transition record (Table 6.2). -/
def TRec.bytes (r : TRec) : List Byte :=
  natBytes 8 (r.ts / ns1) ++ natBytes 1 (r.ts % ns1 / fine + 128 * b2n r.level) ++ natBytes 1 (r.src + 128 * b2n r.susp)
    ++ natBytes 1 r.kind ++ natBytes 1 0 ++ natBytes 2 r.data ++ natBytes 2 r.seq

/-- Counters since ARM (R171, R182). -/
def timArmCounters : List Fld :=
  (List.range 65).flatMap (fun n => [F_TIM_IN_EDGES_COUNT n, F_TIM_IN_LOST_COUNT n, F_TIM_IN_UNSTORED_COUNT n,
    F_TIM_IN_GLITCH_COUNT n]) ++ (List.range 16).map F_TIM_VE_EDGES_COUNT
    ++ [F_TIM_STORED_LO_VALUE, F_TIM_STORED_HI_VALUE]

/-- The registers whose shadowed fields TIM takes at ARM. -/
def timShadow : List Nat :=
  (List.range 65).flatMap (fun n => [R_TIM_IN_CFG n, R_TIM_IN_BUCKET n])
    ++ (List.range 16).flatMap (fun v => [R_TIM_VE_CFG v, R_TIM_VE_BUCKET v])

/-- LOSS_NOW follows the open loss intervals. -/
def lossNow (s : State) : State :=
  s.wrB F_TIM_STATUS_LOSS_NOW (s.tim.ins.any (fun i => i.loss.isSome) || s.tim.ves.any (fun v => v.lossOpen))

/-- The oldest record goes to CAP; the moment the merge chute comes down to 2048 entries is kept (R170). -/
def handRec (s : State) : State :=
  match s.tim.mq with
  | [] => s
  | r :: rest =>
    (pushTransition (s.modTim (fun t => { t with
      mq := rest, roomAt := if rest.length = 2048 then s.now else t.roomAt })) r.bytes r.ts).bump64 R_TIM_STORED_LO R_TIM_STORED_HI

/-- What a capture that has ended still holds is settled and handed to CAP before the next one begins, so that no record is
lost (R170). DESIGN CHOICE (log entry 40): the manual does not say what becomes of them. -/
def timSettle (s : State) : State :=
  let s1 := s.tim.gq.foldl groupEdge (s.modTim (fun t => { t with gq := [] }))
  let s2 := s.tim.qual.foldl storeQual (s1.modTim (fun t => { t with qual := [] }))
  s2.tim.mq.foldl (fun t _ => handRec t) s2

/-- ARM in TIM (R170, R171): what was kept of the capture before is gone, and every bucket is full. -/
def timFresh (s : State) (ts : Nat) : State :=
  s.modTim (fun t => { t with
    stores := t.stores.zipIdx.map (fun x => { TStore.reset with milli := 1000 * bucketBurst s.rdE x.2, at_ := ts / ns1 }),
    groups := (List.range 4).map (fun g => { levels := groupState s g, open_ := none }), gq := [], qual := [], mq := [],
    gapRaised := [], armTs := ts, stopTs := none,
    ves := t.ves.map (fun x => { x with init := true, prev := none, lossOpen := false }),
    ins := t.ins.map (fun i => { i with lossRaised := false }) })

/-- STORE_ALIGN and the check of the sums of the storing buckets at ARM (R170, R171). -/
def timSums (s : State) (ts : Nat) : State :=
  let buckets := storingBuckets s s.rdE
  let ovr := Nat.blt s.clk.fkhz ((buckets.map (bucketRate s.rdE)).foldl (· + ·) 0 * 1000)
    || Nat.blt 4096 ((buckets.map (bucketBurst s.rdE)).foldl (· + ·) 0)
  let t := (s.wr F_TIM_STORE_ALIGN_ALIGN (((storingSrcs s s.rdE).map (srcDelay s)).foldl max 0 + 2560)).wrB
    F_TIM_STATUS_STORE_OVERCOMMIT ovr
  if ovr then t.raiseAt ts 7 0x05 0 resNone 0 else t

/-- ARM in TIM (R170, R171): shadows, counters, buckets full, STORE_ALIGN, the sums, LEVEL records. -/
def timArm (s : State) (ts : Nat) : State :=
  let t := timSums (timFresh (((timSettle s).applyRegs timShadow).zeroFields timArmCounters) ts) ts
  lossNow ((levelSrcs t).foldl (fun u c => emitRec u c 2 ts (srcLevel u c) (srcBad u c) 0) t)

/-! ### Fundamental-period outputs (R173) -/

/-- An edge of a source, delivered at a time, reaches an output: blanked, or a report. -/
def fpEdge (s : State) (f ts del : Nat) : State :=
  let x := s.tim.fps.getD f { ePrev := none, pPrev := none }
  let set (t : State) (e p : Option Nat) : State :=
    t.modTim (fun m => { m with fps := listMod m.fps f (fun _ => { ePrev := e, pPrev := p }) })
  match x.ePrev with
  | none => set s (some ts) x.pPrev
  | some e =>
    let p := (ts - e) / 16777216
    let blank := s.rd (F_TIM_FP_CFG_BLANK f)
    if (match x.pPrev with | some q => decide ((ts - e) * 256 < blank * q * 16777216) | none => false) then
      s.bump (F_TIM_FP_BLANKED_COUNT f)
    else if p ≥ 1099511627776 then set s (some ts) x.pPrev
    else
      let s1 := ((s.wrs [(F_TIM_FP_P_LO_P f, p), (F_TIM_FP_P_HI_P f, p / 4294967296)]).wrTs (R_TIM_FP_E_W f 0) ts).bump
        (F_TIM_FP_COUNT_COUNT f)
      (set s1 (some ts) (some p)).modTim (fun m => { m with reports := m.reports ++ [{ fp := f, p := p, e := ts, due := del + 4 * ns1 }] })

/-- An accepted edge of a source reaches the fundamental-period outputs that follow it. -/
def fpEdges (s : State) (src ts del : Nat) (level : Bool) : State :=
  ((List.range 8).filter (fun f => s.on (F_TIM_FP_CFG_EN f) && !s.tim.badFps.contains f && s.rd (F_TIM_FP_CFG_SRC f) == src
      && (s.rd (F_TIM_FP_CFG_EDGE f) == 0) == level)).foldl (fun t f => fpEdge t f ts del) s

/-- A loss interval of a source: its outputs start over (R173). -/
def fpLoss (s : State) (src : Nat) : State :=
  ((List.range 8).filter (fun f => s.rd (F_TIM_FP_CFG_SRC f) == src)).foldl (fun t f =>
    t.modTim (fun m => { m with fps := listMod m.fps f (fun x => { x with ePrev := none }) })) s

/-! ### Measurement units (R174 to R176) -/

/-- A source code that a unit can use (Table 6.1). -/
def muSrcOk (c : Nat) : Bool := decide (c ≤ 0x40) || decide (0x50 ≤ c ∧ c < 0x60)

/-- The mode of a unit; 7 acts as OFF, an unusable source or edge code in any of its fields disables it (R158, R174). -/
def muMode (s : State) (u : Nat) : Nat :=
  let m := s.rd (F_TIM_MU_CFG_MODE u)
  if s.on (F_TIM_MU_CFG_EN u) && timRun s && m != 7 && !(s.mu u).parity
      && muSrcOk (s.rd (F_TIM_MU_CFG_START_SRC u)) && muSrcOk (s.rd (F_TIM_MU_CFG_STOP_SRC u)) && muSrcOk (s.rd (F_TIM_MU_WIN_WIN_SRC u))
      && s.rd (F_TIM_MU_CFG_START_EDGE u) != 3 && s.rd (F_TIM_MU_CFG_STOP_EDGE u) != 3 then m
  else 0

/-- The gate mode; 3 acts as 0. -/
def muGate (s : State) (u : Nat) : Nat := if s.rd (F_TIM_MU_CFG_GATE_MODE u) = 3 then 0 else s.rd (F_TIM_MU_CFG_GATE_MODE u)
def gateNs (s : State) (u : Nat) : Nat := max 1000 (s.rd (F_TIM_MU_GATE_NS_NS u))
def gateN (s : State) (u : Nat) : Nat := max 1 (s.rd (F_TIM_MU_GATE_N_N u))

/-- VALUE of a gate, binary64 (Table 6.4): each operation rounds, in the order written. -/
def muValue (mode n sum sum2 : Nat) : Nat :=
  let i (k : Nat) : Fp := f64.ofRat (k : Rat)
  if n = 0 then 0x7FF8000000000000
  else f64.encode (match mode with
    | 1 | 2 => f64.div (f64.div (i sum) (i n)) (i 128)
    | 3 => f64.div (f64.mul (i n) (i 128000000000)) (i sum)
    | 4 => f64.div (i sum2) (i sum)
    | 5 => f64.div (f64.mul (i 360) (i sum)) (i sum2)
    | _ => i n)

/-- A gate ends: its result waits to be posted. -/
def muClose (s : State) (u endTs : Nat) : State :=
  let x := s.mu u
  let a := x.acc
  let r : MuRes := { empty := decide (a.n = 0), susp := a.susp, loss := a.loss, orphan := a.orphan,
                     value := muValue (s.rd (F_TIM_MU_CFG_MODE u)) a.n a.sum a.sum2, n := a.n, sum := a.sum, sum2 := a.sum2,
                     mn := a.mn, mx := a.mx, endTs := endTs }
  s.modMu u (fun y => { y with acc := MuAcc.zero, closed := y.closed ++ [r], gateStart := endTs })

/-- End of the present TIME gate. -/
def gateEnd (s : State) (u : Nat) : Nat := ((s.mu u).gateStart / ns1 / gateNs s u + 1) * gateNs s u * ns1

/-- Close `k` TIME gates. -/
def muGates (u : Nat) : Nat → State → State
  | 0, s => s
  | k + 1, s => muGates u k (muClose s u (gateEnd s u))

/-- Close the TIME gates that end at or before a time. -/
def muTimeGates (u ts : Nat) (s : State) : State :=
  if muGate s u = 0 then muGates u (ts / ns1 / gateNs s u - (s.mu u).gateStart / ns1 / gateNs s u) s else s

/-- A value of a gate: `d` for SUM, `d2` for SUM2, `ext` for the extremes; a COUNT gate closes after GATE_N values. -/
def muAdd (s : State) (u d d2 ext ts from_ : Nat) (susp : Bool) : State :=
  let x := s.mu u
  if muGate s u = 2 && !(x.gateOpen && decide (x.gateStart ≤ from_)) then s
  else
    let s1 := s.modMu u (fun y => { y with acc := { y.acc with
      n := satInc 32 y.acc.n, sum := satAdd 64 y.acc.sum d, sum2 := satAdd 64 y.acc.sum2 d2,
      mn := if y.acc.n = 0 then ext else min y.acc.mn ext, mx := if y.acc.n = 0 then ext else max y.acc.mx ext,
      susp := y.acc.susp || susp } })
    if muGate s1 u = 1 ∧ (s1.mu u).acc.n ≥ gateN s1 u then muClose s1 u ts else s1

/-- An edge selection against a level after the edge. -/
def edgeHit (sel : Nat) (level : Bool) : Bool := sel == 2 || (sel == 0 && level) || (sel == 1 && !level)

/-- A START edge of a unit (Table 6.4). -/
def muStart (s : State) (u ts : Nat) (susp : Bool) : State :=
  let x := s.mu u
  let setOpen (t : State) : State := t.modMu u (fun y => { y with open_ := some (ts, susp), fall := none, stop := none })
  match muMode s u with
  | 1 => setOpen (if x.open_.isSome then s.modMu u (fun y => { y with acc := { y.acc with orphan := satInc 16 y.acc.orphan } }) else s)
  | 2 | 3 =>
    match x.open_ with
    | none => setOpen s
    | some (t0, b) => let d := (ts - t0) / fine; setOpen (muAdd s u d 0 d ts t0 (b || susp))
  | 4 =>
    match x.open_, x.fall with
    | some (t0, b), some (t1, c) =>
      setOpen (muAdd s u ((ts - t0) / fine) ((t1 - t0) / fine) ((t1 - t0) / fine) ts t0 (b || c || susp))
    | _, _ => setOpen s
  | 5 =>
    match x.open_, x.stop with
    | some (t0, b), some (t1, c) =>
      setOpen (muAdd s u ((t1 - t0) / fine) ((ts - t0) / fine) ((t1 - t0) / fine) ts t0 (b || c || susp))
    | _, _ => setOpen s
  | 6 => muAdd s u 0 0 0 ts ts susp
  | _ => s

/-- A STOP edge of a unit. -/
def muStop (s : State) (u ts : Nat) (susp : Bool) : State :=
  let x := s.mu u
  match muMode s u, x.open_ with
  | 1, some (t0, b) =>
    if ts < t0 then s
    else
      let d := (ts - t0) / fine
      (muAdd s u d 0 d ts t0 (b || susp)).modMu u (fun y => { y with open_ := none })
  | 5, some (t0, _) =>
    if x.stop.isSome || ts < t0 then s else s.modMu u (fun y => { y with stop := some (ts, susp) })
  | _, _ => s

/-- Whether a unit's mode uses its STOP source. -/
def muStops (mode : Nat) : Bool := mode == 1 || mode == 5

/-- The sources of a unit: START, STOP where its mode uses one, the window's where its gate uses one. -/
def muSrcs (s : State) (u : Nat) : List Nat :=
  s.rd (F_TIM_MU_CFG_START_SRC u) :: (if muStops (s.rd (F_TIM_MU_CFG_MODE u)) then [s.rd (F_TIM_MU_CFG_STOP_SRC u)] else [])
    ++ (if muGate s u = 2 then [s.rd (F_TIM_MU_WIN_WIN_SRC u)] else [])

/-- Largest delivery delay of a unit's sources, in 2^-32 ns (R175). -/
def muDelay (s : State) (u : Nat) : Nat := ((muSrcs s u).map (srcDelay s)).foldl max 0 * 16777216

/-- An edge of a source is a START or a STOP of a unit. -/
def muIsStart (s : State) (u : Nat) (e : TMuEv) : Bool :=
  s.rd (F_TIM_MU_CFG_START_SRC u) == e.src
    && edgeHit (if muMode s u = 4 then 0 else s.rd (F_TIM_MU_CFG_START_EDGE u)) e.level
def muIsStop (s : State) (u : Nat) (e : TMuEv) : Bool :=
  muStops (muMode s u) && s.rd (F_TIM_MU_CFG_STOP_SRC u) == e.src && edgeHit (s.rd (F_TIM_MU_CFG_STOP_EDGE u)) e.level
def muIsWin (s : State) (u : Nat) (e : TMuEv) : Bool := muGate s u == 2 && s.rd (F_TIM_MU_WIN_WIN_SRC u) == e.src

/-- The turn of an event of a unit (R174, R175): START before STOP; a window opens before and closes after them. -/
def muEvent (u : Nat) (s : State) (e : TMuEv) : State :=
  let mode := muMode s u
  if mode = 0 then s
  else
    let s0 := muTimeGates u e.ts s
    if e.loss then
      (if s.rd (F_TIM_MU_CFG_START_SRC u) == e.src || (muStops mode && s.rd (F_TIM_MU_CFG_STOP_SRC u) == e.src) then
        s0.modMu u (fun y => { y with open_ := none, fall := none, stop := none, acc := { y.acc with loss := true } })
       else s0)
    else
      let win := muIsWin s u e
      let s1 := if win && e.level then
          s0.modMu u (fun y => { y with gateOpen := true, gateStart := e.ts, acc := MuAcc.zero })
        else s0
      let isStart := muIsStart s u e
      let s2 := if isStart then muStart s1 u e.ts e.susp else s1
      let s3 := if muIsStop s u e && !(isStart && mode == 1) then muStop s2 u e.ts e.susp else s2
      let s4 := if mode = 4 && s.rd (F_TIM_MU_CFG_START_SRC u) == e.src && !e.level then
          s3.modMu u (fun y => { y with fall := if y.open_.isSome && y.fall.isNone then some (e.ts, e.susp) else y.fall })
        else s3
      if win && !e.level && (s4.mu u).gateOpen then (muClose s4 u e.ts).modMu u (fun y => { y with gateOpen := false }) else s4

/-- The order of a unit's events of one timestamp. -/
def muPri (s : State) (u : Nat) (e : TMuEv) : Nat :=
  if muIsWin s u e && e.level then 0 else if e.loss then 1 else if muIsStart s u e then 2 else if muIsStop s u e then 3 else 4

def muInsert (s : State) (u : Nat) (e : TMuEv) : List TMuEv → List TMuEv
  | [] => [e]
  | x :: xs => if e.ts < x.ts ∨ (e.ts = x.ts ∧ muPri s u e < muPri s u x) then e :: x :: xs else x :: muInsert s u e xs

/-- The events of a unit whose turn has come: every edge that could lie before them has been delivered. -/
def muRun (u : Nat) (s : State) : State :=
  let due := (s.mu u).q.takeWhile (fun e => decide (e.ts + muDelay s u ≤ s.now))
  due.foldl (muEvent u) (s.modMu u (fun y => { y with q := y.q.drop due.length }))

/-- An edge or loss of a source reaches every unit that uses it. -/
def muEvents (s : State) (e : TMuEv) : State :=
  ((List.range 16).filter (fun u => muMode s u != 0 && (muSrcs s u).contains e.src)).foldl (fun t u =>
    muRun u (t.modMu u (fun y => { y with q := muInsert t u e y.q }))) s

/-- An accepted edge reaches the units (R174). -/
def muEdges (s : State) (src ts : Nat) (level susp : Bool) : State :=
  muEvents s { src := src, ts := ts, level := level, susp := susp, loss := false }

/-- A loss interval of a source begins: the open interval or period is discarded and the gate carries LOSS (R174). -/
def muLoss (s : State) (src ts : Nat) : State :=
  muEvents s { src := src, ts := ts, level := false, susp := false, loss := true }

/-- Show the head of a unit's result chute (R176). -/
def muShow (s : State) (u : Nat) : State :=
  let l := (s.mu u).res
  let r := l.headD { empty := false, susp := false, loss := false, orphan := 0, value := 0, n := 0, sum := 0, sum2 := 0,
                     mn := 0, mx := 0, endTs := 0 }
  (s.wrs [(F_TIM_MU_STATUS_DEPTH u, l.length), (F_TIM_MU_RES_FLAGS_EMPTY u, b2n r.empty),
    (F_TIM_MU_RES_FLAGS_SUSPECT u, b2n r.susp), (F_TIM_MU_RES_FLAGS_LOSS u, b2n r.loss),
    (F_TIM_MU_RES_FLAGS_ORPHAN u, r.orphan), (F_TIM_MU_RES_VALUE_LO_VALUE u, r.value),
    (F_TIM_MU_RES_VALUE_HI_VALUE u, r.value / 4294967296), (F_TIM_MU_RES_N_N u, r.n),
    (F_TIM_MU_RES_SUM_LO_VALUE u, r.sum), (F_TIM_MU_RES_SUM_HI_VALUE u, r.sum / 4294967296),
    (F_TIM_MU_RES_SUM2_LO_VALUE u, r.sum2), (F_TIM_MU_RES_SUM2_HI_VALUE u, r.sum2 / 4294967296),
    (F_TIM_MU_RES_MIN_LO_VALUE u, r.mn), (F_TIM_MU_RES_MIN_HI_VALUE u, r.mn / 4294967296),
    (F_TIM_MU_RES_MAX_LO_VALUE u, r.mx), (F_TIM_MU_RES_MAX_HI_VALUE u, r.mx / 4294967296)]).wrTs
    (R_TIM_MU_RES_END_W u 0) r.endTs

/-- A gate's result is posted, or discarded at a full chute (R176). -/
def muPost (s : State) (u : Nat) (r : MuRes) : State :=
  if (s.mu u).res.length < 16 then muShow (s.modMu u (fun y => { y with res := y.res ++ [r] })) u
  else
    let s1 := s.bump (F_TIM_MU_STATUS_OVERRUN u)
    if (s.mu u).raised then s1
    else (s1.modMu u (fun y => { y with raised := true })).raise 7 0x04 0 (resIndex u) 0

end Sys2Proof.Machine
end

