-- ==== Sys2Proof/Machine/TrgOps.lean ====
section
/-!
DEFINITION. The trigger's shared operations (chapters 4 and 5): top notes, TRIG_OUT, alignment and retention, decisions and
placement, the heart, base notes.
-/

namespace Sys2Proof.Machine

/-- A change to the trigger, to a note, to a base note. -/
def State.modTrg (s : State) (g : Trg → Trg) : State := { s with trg := g s.trg }
def State.note (s : State) (n : Nat) : TNote := s.trg.notes.getD n TNote.reset
def State.modNote (s : State) (n : Nat) (g : TNote → TNote) : State :=
  s.modTrg (fun t => { t with notes := listMod t.notes n g })
def State.bn (s : State) (i : Nat) : BNote := s.trg.bns.getD i BNote.reset
def State.modBn (s : State) (i : Nat) (g : BNote → BNote) : State :=
  s.modTrg (fun t => { t with bns := listMod t.bns i g })

/-- Half a nanosecond: a tick (R108). -/
abbrev half : Nat := 2147483648

def trgState (s : State) : Nat := s.rd F_TRG_STATUS_STATE

/-- TRG runs in the sense of R7 (R118). -/
def trgRunning (s : State) : Bool := decide (1 ≤ trgState s ∧ trgState s ≤ 4)

/-- TRG evaluates and decides: ARMED, POST, HOLDOFF. -/
def trgActive (s : State) : Bool := decide (2 ≤ trgState s ∧ trgState s ≤ 4) && !s.err.contained

/-- Raise an advisory record once per ARM (R128, R155). -/
def trgOnce (s : State) (typ ts res : Nat) : State :=
  if typ ∈ s.trg.raised then s
  else (s.modTrg (fun t => { t with raised := typ :: t.raised })).raiseAt ts 6 typ 0 res 0

/-! ### TRIG_OUT (R123 to R125) -/

/-- Whether TRIG_OUT is active by its mode. -/
def outActive (s : State) : Bool :=
  match s.rd F_TRG_OUT_CTRL_MODE with
  | 1 | 3 | 4 => s.trg.outHigh
  | 2 => trgState s == 2
  | _ => false

/-- Drive the pin: floating with OE = 0, inactive in Rest and transitions, held in Containment (R123, R125). -/
def trigPin (s : State) : State :=
  if s.err.contained then s
  else
    let quiet := s.pstate == 0 || s.pstate ≥ 4
    let a := outActive s && !quiet
    let l : Level := if !s.on F_TRG_OUT_CTRL_OE then .z
      else if a != s.on F_TRG_OUT_CTRL_POL then .high else .low
    { s with pins := { s.pins with trigOut := l } }

/-- An edge of TRIG_OUT is asked for at an event time: it waits for its launch (R124). -/
def outRequest (s : State) (act ts : Nat) : State :=
  let t := if s.on F_TRG_OUT_CTRL_ALIGNED then ts + s.rd F_TRG_OUT_LAT_LAT * 268435456 else s.now
  s.modTrg (fun x => { x with out := x.out ++ [{ at_ := t, ts := ts, act := act, late := decide (t < s.now) }] })

/-! ### Top notes (R98 to R106) -/

/-- A 48-bit time of a note in 2^-32 ns. -/
def tnTime (rd : Fld → Nat) (lo hi : Fld) : Nat := (rd lo + rd hi * 4294967296) * fine

/-- The rules of R104 and R105 on a configuration. -/
def noteLegal (type pol qual src : Nat) (a b h : Int) (tmin tmax : Nat) : Bool :=
  let ana := decide (src < 0x30)
  let logic := decide (0x40 ≤ src ∧ src ≤ 0x80)
  (match type with
    | 0 => true
    | 1 => (ana || logic) && qual == 0
    | 2 => ana && qual == 0 && decide (a > b + 2 * h)
    | 3 => ana || logic
    | 4 => ana && decide (a > b + 2 * h)
    | 5 => ana && decide (a > b)
    | 6 => ana || logic
    | 7 => if pol = 0 then qual == 0 || qual == 2 else if pol = 2 then qual == 0 else true
    | _ => false)
  && (type == 0 || type == 6 || qual ≤ 4) && !((qual == 3 || qual == 4) && decide (tmin > tmax) && type != 0)

/-- A shadowed field as it acts on an event time: an apply acts from T_apply on (R126, R137). -/
def State.rdAt (s : State) (t : Nat) (f : Fld) : Nat :=
  match s.trg.past.find? (fun e => decide (t < e.1)) with
  | none => s.rdE f
  | some e => bitsOf (regGet e.2 f.addr).toNat f.lo f.w

/-- Levels and times of a note under a reader of S fields. -/
def noteLevels (rd : Fld → Nat) (n : Nat) : Int × Int × Int × Nat × Nat :=
  (sext 16 (rd (F_TN_LEVEL_LEVEL_A n)), sext 16 (rd (F_TN_LEVEL_LEVEL_B n)), (rd (F_TN_HYST_HYST n) : Int),
   tnTime rd (F_TN_TMIN_LO_T_LO n) (F_TN_TMIN_HI_T_HI n), tnTime rd (F_TN_TMAX_LO_T_LO n) (F_TN_TMAX_HI_T_HI n))

/-- Whether a note breaks the rules of R105, with its levels as `rd` reads them. -/
def noteBad (s : State) (rd : Fld → Nat) (n : Nat) : Bool :=
  let (a, b, h, tmin, tmax) := noteLevels rd n
  !noteLegal (s.rd (F_TN_CFG_TYPE n)) (s.rd (F_TN_CFG_POL n)) (s.rd (F_TN_CFG_QUAL n)) (s.rd (F_TN_CFG_SRC n)) a b h tmin tmax

/-- The type a note acts as with its levels as `rd` reads them: OFF for a code that acts as OFF, a broken rule, a parity
error (R105, R128, Table 4.7). -/
def noteTypeBy (s : State) (rd : Fld → Nat) (n : Nat) : Nat :=
  if s.rd (F_TN_CFG_POL n) = 3 || noteBad s rd n || (s.note n).parity then 0 else s.rd (F_TN_CFG_TYPE n)

/-- The type a note acts as at an event time. -/
def noteType (s : State) (t n : Nat) : Nat := noteTypeBy s (s.rdAt t) n

/-- The comparators of a note (R101). -/
structure Comps where
  ua : Bool
  wa : Bool
  ub : Bool
  wb : Bool
deriving DecidableEq, Repr

/-- One test of U(L) and of W(L): set while 0, reset while 1 (R101; in ENVELOPE, R99). -/
def stepU (u : Bool) (hi lo l h : Int) : Bool := if u then !(decide (lo < l - h)) else decide (hi ≥ l)
def stepW (w : Bool) (hi lo l h : Int) : Bool := if w then !(decide (hi > l + h)) else decide (lo ≤ l)

def Comps.step (c : Comps) (hi lo a b h : Int) : Comps :=
  { ua := stepU c.ua hi lo a h, wa := stepW c.wa hi lo a h, ub := stepU c.ub hi lo b h, wb := stepW c.wb hi lo b h }

/-- Comparators set silently (R101). -/
def Comps.init (hi lo a b : Int) : Comps :=
  { ua := decide (hi ≥ a), wa := decide (lo ≤ a), ub := decide (hi ≥ b), wb := decide (lo ≤ b) }

/-- A qualified duration (R104). -/
def qualOk (qual w tmin tmax : Nat) : Bool :=
  match qual with
  | 0 => true
  | 1 => decide (w < tmax)
  | 2 => decide (w > tmin)
  | 3 => decide (tmin ≤ w ∧ w ≤ tmax)
  | 4 => decide (w < tmin ∨ w > tmax)
  | _ => false

/-- An event of a note before it is merged: event time, the threshold it passed for interpolation, flags. -/
structure NEv where
  ts : Nat
  lev : Option Int
  susp : Bool
  ovr : Bool
deriving DecidableEq, Repr

/-- What a note's configuration says at an event time. -/
structure NCfg where
  type : Nat
  pol : Nat
  qual : Nat
  a : Int
  b : Int
  h : Int
  tmin : Nat
  tmax : Nat
deriving DecidableEq, Repr

def noteCfg (s : State) (t n : Nat) : NCfg :=
  let (a, b, h, tmin, tmax) := noteLevels (s.rdAt t) n
  { type := noteType s t n, pol := s.rd (F_TN_CFG_POL n), qual := s.rd (F_TN_CFG_QUAL n), a := a, b := b, h := h,
    tmin := tmin, tmax := tmax }

/-- A new measurement at a sample. -/
def Meas.new (ts : Nat) (ok susp ovr : Bool) : Meas := { start := ts, ok := ok, fired := false, susp := susp, ovr := ovr }

/-- The event that ends a measurement, where its duration qualifies. -/
def measEnd (c : NCfg) (m : Option Meas) (ts : Nat) (lev : Int) (susp ovr : Bool) : List NEv :=
  match m with
  | none => []
  | some x =>
    if x.ok && qualOk c.qual (ts - x.start) c.tmin c.tmax then
      [{ ts := ts, lev := some lev, susp := x.susp || susp, ovr := x.ovr || ovr }]
    else []

/-- One change of the comparators of a note: its open measurements and events after it (Table 4.2, R103). -/
def notePhase (c : NCfg) (ts : Nat) (susp ovr : Bool) (o n : Comps) (up dn : Option Meas) :
    Option Meas × Option Meas × List NEv :=
  let ev (l : Int) : List NEv := [{ ts := ts, lev := some l, susp := susp, ovr := ovr }]
  let p := c.pol != 1
  let q := c.pol != 0
  match c.type with
  | 1 => (up, dn, (if p && !o.ua && n.ua then ev c.a else []) ++ (if q && !o.wa && n.wa then ev c.a else []))
  | 2 =>
    let i0 := !o.ua && !o.wb
    let i1 := !n.ua && !n.wb
    (up, dn, (if p && !i0 && i1 then ev (if o.ua then c.a - c.h else c.b + c.h) else [])
      ++ (if q && i0 && !i1 then ev (if n.ua then c.a else c.b) else []))
  | 3 =>
    let up1 := if !o.ua && n.ua then some (Meas.new ts true susp ovr) else up
    let dn1 := if !o.wa && n.wa then some (Meas.new ts true susp ovr) else dn
    let e1 := if p && o.ua && !n.ua then measEnd c up ts (c.a - c.h) susp ovr else []
    let e2 := if q && o.wa && !n.wa then measEnd c dn ts (c.a + c.h) susp ovr else []
    (if n.ua then up1 else none, if n.wa then dn1 else none, e1 ++ e2)
  | 4 =>
    let up1 := if !o.ub && n.ub then some (Meas.new ts true susp ovr) else up
    let up2 := up1.map (fun m => { m with ok := m.ok && !n.ua })
    let dn1 := if !o.wa && n.wa then some (Meas.new ts true susp ovr) else dn
    let dn2 := dn1.map (fun m => { m with ok := m.ok && !n.wb })
    let e1 := if p && o.ub && !n.ub then measEnd c up ts (c.b - c.h) susp ovr else []
    let e2 := if q && o.wa && !n.wa then measEnd c dn ts (c.a + c.h) susp ovr else []
    (if n.ub then up2 else none, if n.wa then dn2 else none, e1 ++ e2)
  | 5 =>
    let up1 := if !o.ub && n.ub then some (Meas.new ts true susp ovr) else up
    let dn1 := if !o.wa && n.wa then some (Meas.new ts true susp ovr) else dn
    let r := !o.ua && n.ua
    let f := !o.wb && n.wb
    (if n.ub && !r then up1 else none, if n.wa && !f then dn1 else none,
     (if p && r then measEnd c up1 ts c.a susp ovr else []) ++ (if q && f then measEnd c dn1 ts c.b susp ovr else []))
  | 6 =>
    let fresh := some (Meas.new ts true susp ovr)
    let up1 := match c.pol with
      | 0 => if !n.ua then none else if !o.ua then fresh else up
      | 1 => if !n.wa then none else if !o.wa then fresh else up
      | _ => if o.ua != n.ua || o.wa != n.wa then fresh else up
    (up1, none, [])
  | _ => (up, dn, [])

/-- Fire a TIMEOUT measurement that is due at a sample (R102, R103). -/
def timeoutFire (c : NCfg) (ts : Nat) (susp ovr : Bool) (m : Option Meas) : Option Meas × List NEv :=
  match m with
  | none => (none, [])
  | some x =>
    if c.type = 6 ∧ !x.fired ∧ x.start + c.tmax ≤ ts then
      (some { x with fired := true }, [{ ts := ts, lev := none, susp := x.susp || susp, ovr := x.ovr || ovr }])
    else (some x, [])

/-- TLn (R106). -/
def noteTl (c : NCfg) (n : Comps) (up dn : Option Meas) : Bool :=
  match c.type with
  | 1 => if c.pol = 1 then n.wa else n.ua
  | 2 => !n.ua && !n.wb
  | 3 | 4 | 5 => (c.pol != 1 && up.isSome) || (c.pol != 0 && dn.isSome)
  | 6 => up.isSome
  | _ => false

/-- Whether measurements count as open. -/
def openMeas (c : NCfg) (up dn : Option Meas) : Nat :=
  match c.type with
  | 3 | 4 | 5 => b2n (c.pol != 1 && up.isSome) + b2n (c.pol != 0 && dn.isSome)
  | 6 => b2n (match up with | some m => !m.fired | none => false)
  | 7 => b2n up.isSome
  | _ => 0

/-- The trigger point of an analogue crossing (R151): interpolated between the samples, or none. -/
def crossPoint (s : State) (u : Nat) (prev : Option (Int × Int × Nat)) (y lev : Int) : Option Nat :=
  let mode := s.rd (F_DFU_MODE_DEC_MODE u)
  match prev with
  | none => none
  | some (yp, _, tp) =>
    if mode = 1 || mode = 2 || y = yp then none
    else
      let f := max 0 (min 65535 (Int.fdiv ((lev - yp) * 65536) (y - yp)))
      some ((tp : Int) + roundNE (f * (unitD s u * tConv s : Nat)) (unitG s u * 65536)).toNat

/-- A note's level changes at an event time: the heart and TRIG_OUT mode 4 see it (R106, R123). -/
def noteLevel (s : State) (n ts : Nat) (v : Bool) : State :=
  if s.on (F_TN_STATE_TL n) == v then s
  else
    let s1 := (s.wrB (F_TN_STATE_TL n) v).modTrg (fun t => { t with lvls := t.lvls ++ [(n, ts, v)] })
    if s.rd F_TRG_OUT_CTRL_MODE = 4 ∧ s.rd F_TRG_OUT_CTRL_OUT_TN = n then outRequest s1 (if v then 1 else 2) ts else s1

/-- Write a note's comparators and open measurements. -/
def noteStore (s : State) (n ts : Nat) (c : NCfg) (k : Comps) (up dn : Option Meas) : State :=
  let s1 := s.wrs [(F_TN_STATE_UA n, b2n k.ua), (F_TN_STATE_WA n, b2n k.wa), (F_TN_STATE_UB n, b2n k.ub),
    (F_TN_STATE_WB n, b2n k.wb), (F_TN_STATE_OPEN n, b2n (openMeas c up dn != 0))]
  noteLevel (s1.modNote n (fun x => { x with up := up, dn := dn, init := false })) n ts (noteTl c k up dn)

/-- The comparators as TNn_STATE holds them. -/
def noteComps (s : State) (n : Nat) : Comps :=
  { ua := s.on (F_TN_STATE_UA n), wa := s.on (F_TN_STATE_WA n), ub := s.on (F_TN_STATE_UB n), wb := s.on (F_TN_STATE_WB n) }

/-- Measurements open across a skipped sample, a loss interval or an apply are abandoned, also those of a note that an
apply turned OFF, whose level falls (R100, R105, R126). -/
def noteSkip (s : State) (n ts : Nat) : State :=
  let c := noteCfg s ts n
  let ty := s.rd (F_TN_CFG_TYPE n)
  let x := s.note n
  let s1 := s.bumpBy F_TRG_SKIP_COUNT (openMeas { c with type := ty } x.up x.dn)
  let s2 := (s1.modNote n (fun y => { y with up := none, dn := none, init := true, prev := none })).wr (F_TN_STATE_OPEN n) 0
  if c.type = 0 || ty = 3 || ty = 4 || ty = 5 || ty = 6 then noteLevel s2 n ts false else s2

/-- The items of TRG in which a parity error can be found (Table 18.3): a note, or from 0x80 on a heart state. -/
def trgItem (i : Nat) : Bool := decide (i < 64) || decide (0x80 ≤ i ∧ i < 0x90)

/-- A parity error is found in the configuration store of a note, or from 0x80 on of a heart state, at the start of the tick
to be evaluated: the note acts as OFF, the state as terminal, until it is rewritten (R128). -/
def trgParity (i : Nat) (s : State) : State :=
  let t := if s.on F_TRG_CTRL_MODE then s.trg.tick * half else s.now / half * half
  let s1 :=
    if i < 64 then (noteSkip (s.modNote i (fun x => { x with parity := true })) i t).modNote i (fun x => { x with redo := [] })
    else s.modTrg (fun x => { x with parityHs := (i - 0x80) :: x.parityHs.filter (· != i - 0x80) })
  s1.raiseAt t 6 0x01 2 (resIndex i) 0

/-- A note on a logic input, or a PATTERN note, is set silently from its level at a time (R100, R101). -/
def noteSilent (s : State) (n ts : Nat) (level : Bool) : State :=
  let c := noteCfg s ts n
  if c.type = 7 then
    noteLevel ((s.modNote n (fun y => { y with up := if level then some (Meas.new ts true false false) else none, init := false })).wr
      (F_TN_STATE_OPEN n) (b2n level)) n ts level
  else
    let k1 : Comps := { ua := level, wa := !level, ub := false, wb := false }
    let start := c.type == 6 && (match c.pol with | 0 => level | 1 => !level | _ => true)
    noteStore s n ts c k1 (if start then some (Meas.new ts true false false) else none) none

/-- A note meets an event time: where an apply at or before it changed the note's values, its open measurement is abandoned
and its comparators start anew, on a logic input from the level they hold (R101, R126). -/
def noteRedo (s : State) (n ts : Nat) : State :=
  match ((s.note n).redo.filter (fun r => decide (r ≤ ts))).getLast? with
  | none => s
  | some r =>
    let s1 := s.modNote n (fun x => { x with redo := x.redo.filter (fun r => decide (ts < r)) })
    if (s.note n).init then s1
    else
      let s2 := noteSkip s1 n r
      if noteType s r n = 0 then s2
      else if s.rd (F_TN_CFG_TYPE n) = 7 then noteSilent s2 n r (s.on (F_TN_STATE_TL n))
      else if 0x40 ≤ s.rd (F_TN_CFG_SRC n) then noteSilent s2 n r (s.on (F_TN_STATE_UA n))
      else s2

/-- An evaluated sample of an analogue note (R99 to R104). DESIGN CHOICE (log entry 40): a TIMEOUT with TMAX = 0 whose
condition holds at initialisation fires on that sample, as Table 4.2 reads with t_start = that sample. -/
def noteSample (s : State) (n : Nat) (hi lo : Int) (ts : Nat) (susp ovr : Bool) : State × List NEv :=
  let c := noteCfg s ts n
  let x := s.note n
  if x.init then
    let k := Comps.init hi lo c.a c.b
    let start := c.type == 6 && (match c.pol with | 0 => k.ua | 1 => k.wa | _ => true)
    let up := if start then some (Meas.new ts true susp ovr) else none
    let (up1, ev) := timeoutFire c ts susp ovr up
    ((noteStore s n ts c k up1 none).modNote n (fun y => { y with prev := some (hi, lo, ts) }), ev)
  else
    let k0 := noteComps s n
    let k1 := k0.step hi lo c.a c.b c.h
    let k2 := k1.step hi lo c.a c.b c.h
    let carry (m : Option Meas) : Option Meas := m.map (fun y => { y with susp := y.susp || susp, ovr := y.ovr || ovr })
    let (u1, d1, e1) := notePhase c ts susp ovr k0 k1 (carry x.up) (carry x.dn)
    let (u2, d2, e2) := notePhase c ts susp ovr k1 k2 u1 d1
    let (u3, e3) := timeoutFire c ts susp ovr u2
    ((noteStore s n ts c k2 u3 d2).modNote n (fun y => { y with prev := some (hi, lo, ts) }), e1 ++ e2 ++ e3)

/-! ### Alignment and retention (R114, R141, R145) -/

/-- The selectors of the enabled branches. -/
def heartSels (s : State) : List Nat :=
  (List.range 16).flatMap (fun h => ((List.range 2).filter (fun b => s.on (F_HS_B_LOGIC_EN h b))).flatMap
    (fun b => [s.rd (F_HS_B_TERMS_T0 h b), s.rd (F_HS_B_TERMS_T1 h b), s.rd (F_HS_B_TERMS_T2 h b), s.rd (F_HS_B_TERMS_T3 h b)]))

/-- A_src of a note in ns (R114). -/
def noteDelay (s : State) (n : Nat) : Rat :=
  let src := s.rd (F_TN_CFG_SRC n)
  if s.rd (F_TN_CFG_TYPE n) = 7 then
    36 + ((((List.range 64).filter (fun i => ((s.rd (F_TN_PMASK_LO_VALUE n) + s.rd (F_TN_PMASK_HI_VALUE n) * 4294967296) >>> i) % 2 == 1)).map
      (fun i => s.rd (F_TIM_IN_CFG_DEGLITCH i))).foldl max 0 : Nat)
  else if src < 0x30 then dfuDelay s (src / 4) + 63 / 2
  else 36 + ((s.rd (F_TIM_IN_CFG_DEGLITCH (src - 0x40)) : Nat) : Rat)

/-- TRG_ALIGN in 2^-8 ns, rounded up (R114), with the levels of the notes as `rd` reads them. -/
def alignBy (s : State) (rd : Fld → Nat) : Nat :=
  let sel := heartSels s
  let ns := (List.range 64).filter (fun n => (sel.contains n || sel.contains (n + 64)) && noteTypeBy s rd n != 0)
  ((ns.map (noteDelay s)).foldl max 0 * 256).ceil.toNat

/-- TRG_ALIGN by the values in effect. -/
def alignOf (s : State) : Nat := alignBy s s.rdE

/-- Base notes that decide: set in TRG_DIRECT_BN, or selected by an enabled branch (R141). -/
def enabledBns (s : State) (rd : Fld → Nat) : List Nat :=
  let sel := heartSels s
  (List.range 32).filter (fun i =>
    if s.on F_TRG_CTRL_MODE then sel.contains (0x80 + i) else (rd F_TRG_DIRECT_BN_MASK >>> i) % 2 == 1)

/-- PRE, POST and HOLD_NS in ns. -/
def preNs (rd : Fld → Nat) : Nat := rd F_TRG_PRE_LO_NS_LO + rd F_TRG_PRE_HI_NS_HI * 4294967296
def postNs (rd : Fld → Nat) : Nat := rd F_TRG_POST_LO_NS_LO + rd F_TRG_POST_HI_NS_HI * 4294967296
def holdNs (rd : Fld → Nat) : Nat := rd F_TRG_HOLD_NS_LO_NS_LO + rd F_TRG_HOLD_NS_HI_NS_HI * 4294967296

/-- RETAIN_NEED in ns for a T_wake (R141). -/
def retainNeed (s : State) (rd : Fld → Nat) (tWake : Nat) : Rat :=
  let top : Rat := ((alignBy s rd : Nat) : Rat) / 256 + 24
  let bn (i : Nat) : Rat :=
    let w := s.rd (F_BN_WLEN_MAX_US i)
    let off := match s.rd (F_BN_CFG_EVT_SEL i) with
      | 1 => w
      | 2 => max 1 (s.rd (F_BN_CFG_CONSEC i)) * w
      | _ => 0
    (((s.rd (F_BN_LAT_US i) + off) * 1000 : Nat) : Rat)
  ((preNs rd : Nat) : Rat) + ((enabledBns s rd).map bn).foldl max top + ((tWake : Nat) : Rat)

/-- T_wake in ns: 50 µs in Watch with WAKE_EN (R141). -/
def tWake (s : State) : Nat := if s.inWatch && s.on F_TRG_CTRL_WAKE_EN then 50000 else 0

/-- Nanoseconds as µs, to the nearest. -/
def usOf (r : Rat) : Nat := sat32 ((r / 1000 + 1 / 2).floor).toNat

def shortWatch (s : State) (rd : Fld → Nat) : Bool := decide (retainNeed s rd 50000 > granarySpan s)
def shortRecord (s : State) (rd : Fld → Nat) : Bool := decide (retainNeed s rd 0 > siloSpan s)

/-- TRG_OVL_WAIT in ns (R145). -/
def ovlWait (s : State) : Nat :=
  ((enabledBns s s.rdE).map (fun i => s.rd (F_BN_LAT_US i) * 1000 + 1000)).foldl max (cdiv (alignOf s) 256 + 24)

/-! ### Decisions and placement (R96, R143 to R151) -/

/-- The shadowed placement registers (R150). -/
def placeShadow : List Nat :=
  [R_TRG_PRE_LO, R_TRG_PRE_HI, R_TRG_POST_LO, R_TRG_POST_HI, R_TRG_HOLD_NS_LO, R_TRG_HOLD_NS_HI, R_TRG_HOLD_EV]

/-- The segments of the present ARM, and the latest of them. -/
def armSegs (s : State) : List PSeg := s.trg.segs.filter (fun g => g.cap == s.rd F_CAP_CAPTURE_CAPTURE)
def lastSeg (s : State) : Option PSeg := (armSegs s).getLast?

/-- A change to a segment of a capture. -/
def State.modPSeg (s : State) (cap no : Nat) (g : PSeg → PSeg) : State :=
  s.modTrg (fun t => { t with segs := t.segs.map (fun (x : PSeg) => if x.cap = cap ∧ x.no = no then g x else x) })

/-- The time bound of a segment's hold-off (R144). -/
def holdEnd (s : State) (g : PSeg) : Nat :=
  max (g.pS + 250 * ns1) (if s.on F_TRG_PLACE_HOLD_TIME_EN then g.tS + g.holdNs * ns1 else 0)

/-- Whether a segment's hold-off has ended for an event time (R144). -/
def holdOver (s : State) (g : PSeg) (t : Nat) : Bool :=
  decide (holdEnd s g ≤ t) && (!s.on F_TRG_PLACE_HOLD_EV_EN || decide (g.holds ≥ g.holdEv))

/-- The frontier F (R149). -/
def frontier (s : State) : Nat := s.now - s.rd F_TRG_ALIGN_ALIGN * 16777216 - half

/-- The end of the hold-off is the boundary of PRE, POST, HOLD_NS and HOLD_EV (R150). -/
def holdBoundary (s : State) (t : Nat) : State :=
  match lastSeg s with
  | none => s
  | some g => if !g.released && holdOver s g t then (s.applyRegs placeShadow).modPSeg g.cap g.no (fun x => { x with released := true }) else s

/-- STATE follows the frontier (R149). -/
def trgRefresh (s : State) : State :=
  if !trgActive s then trigPin s
  else
    let f := frontier s
    let s1 := holdBoundary s f
    let st := match lastSeg s1 with
      | none => 2
      | some g => if f < g.pS then 3 else if !holdOver s1 g f || s1.trg.limited then 4 else 2
    trigPin (s1.wr F_TRG_STATUS_STATE st)

/-- The limit of segments per ARM (R148). -/
def segLimit (s : State) : Nat :=
  let l := s.rd F_TRG_SEG_LIMIT_LIMIT
  if l = 0 || l > 16777216 then 16777216 else l

/-- An accepted decision becomes the next segment (R147, R150, R151, R193; R32 and R122 for the wake). -/
def placeAccept (s : State) (d : Dec) : State :=
  let s0 := if armSegs s = [] then s else holdBoundary s d.ts
  let tS := d.point.getD d.ts
  let no := s0.rd F_TRG_SEG_COUNT_COUNT
  let pre := preNs s0.rdE
  let post := postNs s0.rdE
  let g : PSeg := { cap := s.rd F_CAP_CAPTURE_CAPTURE, no := no, ctx := s.trg.armCtx, last := decide (no + 1 ≥ segLimit s),
                    tS := tS, pS := tS + post * ns1, handAt := tS + (post + s0.rd F_TRG_OVL_WAIT_WAIT) * ns1,
                    handed := false, ovl := 0, firstOvl := 0, holdNs := holdNs s0.rdE, holdEv := s0.rdE F_TRG_HOLD_EV_COUNT,
                    holds := 0, released := false }
  let seg : Seg := {
    no := no, capture := 0, tS := tS, decTs := s0.now, firstOvl := 0, cause := d.cause, branch := d.branch,
    flags := d.flags, pre := pre, post := post, ovl := 0, holdBefore := min 65535 s0.trg.holdsBefore, pinned := false,
    unpinned := false, held := false, fillIn := false, suspectIn := false, gapIn := false, cut := false,
    complete := false, stored := false, queued := false, released := false, ctx := 0, pages := [] }
  let (s1, short) := capAccept s0 seg
  let s2 := if short then trgOnce s1 0x09 d.ts resNone else s1
  let fl := if short then d.flags ||| 2 else d.flags
  let s3 := ((s2.wrTs (R_TRG_SEG_W 0) tS).wrs [(F_TRG_SEG_CAUSE_CAUSE, d.cause), (F_TRG_SEG_CAUSE_FLAGS, fl),
    (F_TRG_SEG_COUNT_COUNT, no + 1)]).wrTs (R_TRG_HOLD_END_W 0) (holdEnd s0 g)
  let s4 := s3.modTrg (fun t => { t with
    segs := t.segs ++ [g], holdsBefore := 0, limited := g.last,
    resetAt := if s.on F_TRG_CTRL_KEEP_HEART then t.resetAt else t.resetAt ++ [holdEnd s0 g] })
  let s5 := if s4.rd F_TRG_OUT_CTRL_MODE = 1 then outRequest s4 0 d.ts else s4
  let s6 := if (s5.inWatch || s5.pstate == 6) && s5.on F_TRG_CTRL_WAKE_EN then askRecord s5 2 else s5
  trgRefresh (if s6.on F_SHF_CTRL_SEG_EN then sheafDecide s6 4 (sheafTf s6 s6.now) else s6)

/-- A decision out of order is dropped (Table 5.3). -/
def placeOrder (s : State) (d : Dec) : State := (s.bump F_TRG_ORDER_COUNT).raiseAt d.ts 6 0x06 0 resNone 0

/-- A decision held off counts for the last segment and for the next one (Table 5.3). -/
def placeHold (s : State) : State :=
  let t := (s.bump F_TRG_HOLD_COUNT_COUNT).modTrg (fun x => { x with holdsBefore := x.holdsBefore + 1 })
  match lastSeg t with
  | some g => t.modPSeg g.cap g.no (fun x => { x with holds := x.holds + 1 })
  | none => t

/-- A decision within the last segment is an overlap, late where the segment has gone to CAP (Table 5.3). -/
def placeOver (s : State) (g : PSeg) (d : Dec) : State :=
  let t := s.bump F_TRG_OVL_COUNT_COUNT
  if g.handed then (t.bump F_TRG_OVL_LATE_COUNT).raiseAt d.ts 6 0x07 0 resNone 0
  else t.modPSeg g.cap g.no (fun x => { x with
    ovl := min 65535 (x.ovl + 1), firstOvl := if x.ovl = 0 then d.ts else x.firstOvl })

/-- Placement classifies a decision (Table 5.3). Its second value says whether it was accepted. -/
def place (s : State) (d : Dec) : State × Bool :=
  match lastSeg s with
  | none => if d.ts < s.rdTs (R_TRG_ARM_W 0) then (placeOrder s d, false) else (placeAccept s d, true)
  | some g =>
    if d.ts < g.tS then (placeOrder s d, false)
    else if d.ts < g.pS then (placeOver s g d, false)
    else if !holdOver s g d.ts || s.trg.limited then (placeHold s, false)
    else (placeAccept s d, true)

/-- A decision is made: the latest decision's registers, the count, placement (R95, R96). -/
def decideOn (s : State) (d : Dec) : State × Bool :=
  let s1 := ((s.wrTs (R_TRG_LAST_W 0) d.ts).wrs [(F_TRG_LAST_CAUSE_CAUSE, d.cause), (F_TRG_LAST_CAUSE_BRANCH, d.branch),
    (F_TRG_LAST_CAUSE_SUSPECT, d.flags / 8), (F_TRG_LAST_CAUSE_OVR, d.flags / 16)]).bump64 R_TRG_DECISIONS_LO R_TRG_DECISIONS_HI
  place s1 d

/-- Decisions in order of arrival at placement, then of turn (R146). -/
def pipeIns (d : PDec) : List PDec → List PDec
  | [] => [d]
  | x :: xs => if d.due < x.due ∨ (d.due = x.due ∧ d.turn < x.turn) then d :: x :: xs else x :: pipeIns d xs

/-- A decision is on its way to placement for a number of FCLK cycles (R116, R117, R138). -/
def pipePut (s : State) (fclk turn : Nat) (d : Dec) : State :=
  let p : PDec := { due := s.up + cdiv (fclk * 1000000) (max 1 s.clk.fkhz), turn := turn, dec := d }
  s.modTrg (fun t => { t with pipe := pipeIns p t.pipe })

/-- The decisions that have reached placement by now are made. -/
def pipeRun (s : State) : State :=
  if !trgActive s then s
  else
    let due := s.trg.pipe.takeWhile (fun p => decide (p.due ≤ s.up))
    due.foldl (fun t p => (decideOn t p.dec).1) (s.modTrg (fun t => { t with pipe := t.pipe.drop due.length }))

/-! ### Events (R106, R114, R146) -/

/-- FLAGS of an event. -/
def evFlags (susp ovr interp : Bool) : Nat := b2n interp + 8 * b2n susp + 16 * b2n ovr

/-- An event reaches the heart input; one whose tick has been evaluated is late (R108, R114). -/
def heartEvent (s : State) (sel ts flags : Nat) (point : Option Nat) (base : Bool) : State :=
  if !s.on F_TRG_CTRL_MODE || !trgActive s then s
  else
    let k := ts / half
    let late := decide (k < s.trg.tick) && !base
    let s1 := if late then trgOnce (s.bump F_TRG_LATE_COUNT) 0x02 ts resNone else s
    s1.modTrg (fun t => { t with evs := t.evs ++
      [{ sel := sel, ts := ts, tick := if base || k < t.tick then t.tick else k, point := point, flags := flags }] })

/-- The events of a note are merged per tick, counted and sent on; what remains may decide directly (R106). -/
def noteEvents (s : State) (n : Nat) (l : List (NEv × Option Nat)) (acc : List (Nat × NEv × Option Nat)) :
    State × List (Nat × NEv × Option Nat) :=
  l.foldl (fun (a : State × List (Nat × NEv × Option Nat)) e =>
    let (t, out) := a
    let k := e.1.ts / half
    if (t.note n).lastTick = some k then (trgOnce (t.bump F_TRG_MERGE_COUNT) 0x04 e.1.ts (resIndex n), out)
    else
      let t1 := (t.modNote n (fun x => { x with lastTick := some k })).bump (F_TN_COUNT_COUNT n)
      (heartEvent t1 n e.1.ts (evFlags e.1.susp e.1.ovr e.2.isSome) e.2 false, out ++ [(n, e.1, e.2)])) (s, acc)

/-- Events in order of event time, then of note. -/
def insertEv (e : Nat × NEv × Option Nat) : List (Nat × NEv × Option Nat) → List (Nat × NEv × Option Nat)
  | [] => [e]
  | x :: xs => if e.2.1.ts < x.2.1.ts ∨ (e.2.1.ts = x.2.1.ts ∧ e.1 < x.1) then e :: x :: xs else x :: insertEv e xs

/-- A top-note event of a tick joins the decision of that tick: while it is in the pipeline, that decision takes the earlier
event time, the lower cause on a tie; the other is coincident (R146). -/
def directJoin (s : State) (d : Dec) : State :=
  (s.bump F_TRG_COINCIDENT_COUNT).modTrg (fun t => { t with pipe := t.pipe.map (fun p =>
    if p.dec.cause < 64 ∧ p.dec.ts / half = d.ts / half ∧ (d.ts < p.dec.ts ∨ (d.ts = p.dec.ts ∧ d.cause < p.dec.cause)) then
      { p with dec := d } else p) })

/-- In direct mode the selected events become decisions, one per tick, that reach placement so many FCLK cycles after they
reach TRG here (R95, R116, R146). -/
def directAll (s : State) (fclk : Nat) (l : List (Nat × NEv × Option Nat)) : State :=
  if s.on F_TRG_CTRL_MODE then s
  else
    (l.foldl (fun acc e => insertEv e acc) []).foldl (fun t e =>
      let (n, ev, point) := e
      let mask := s.rdAt ev.ts F_TRG_DIRECT_TN_LO_MASK + s.rdAt ev.ts F_TRG_DIRECT_TN_HI_MASK * 4294967296
      let d : Dec := { ts := ev.ts, cause := n, branch := 0, flags := evFlags ev.susp ev.ovr point.isSome, point := point }
      if !trgActive t || (mask >>> n) % 2 == 0 then t
      else if t.trg.fired.contains (ev.ts / half) then directJoin t d
      else pipePut (t.modTrg (fun x => { x with fired := ev.ts / half :: x.fired })) fclk 0 d) s

/-- The trigger points of a note's events at a sample. -/
def withPoints (s : State) (u : Nat) (hi : Int) (prev : Option (Int × Int × Nat)) (l : List NEv) :
    List (NEv × Option Nat) :=
  l.map (fun e => (e, match e.lev with
    | some lev => if s.on F_TRG_PLACE_INTERP then crossPoint s u prev hi lev else none
    | none => none))

/-- Whether a note has something to do at an event time: it is on, or an apply that it has not met yet turned it off. -/
def noteHears (s : State) (ts n : Nat) : Bool := noteType s ts n != 0 || (s.note n).redo.any (fun r => decide (r ≤ ts))

/-- The values of an output of one input reach the notes that watch it (R99, R100). -/
def notesSample (s : State) (c : Nat) (hi lo : Int) (ts : Nat) (skip susp ovr : Bool)
    (acc : List (Nat × NEv × Option Nat)) : State × List (Nat × NEv × Option Nat) :=
  ((List.range 64).filter (fun n => s.rd (F_TN_CFG_SRC n) == c && noteHears s ts n && s.rd (F_TN_CFG_TYPE n) != 7)).foldl
    (fun (a0 : State × List (Nat × NEv × Option Nat)) n =>
      let a := (noteRedo a0.1 n ts, a0.2)
      if noteType a.1 ts n = 0 then a
      else if skip then (if (a.1.note n).init then a.1 else noteSkip a.1 n ts, a.2)
      else
        let prev := (a.1.note n).prev
        let (t, l) := noteSample a.1 n hi lo ts susp ovr
        noteEvents t n (withPoints s (c / 4) hi prev l) a.2) (s, acc)

/-- An accepted edge of a logic input or TRIG_IN reaches the notes that watch it (R102, R116). -/
def notesEdge (s : State) (src ts : Nat) (level susp : Bool) : State :=
  let r := ((List.range 64).filter (fun n => s.rd (F_TN_CFG_SRC n) == src && noteHears s ts n && s.rd (F_TN_CFG_TYPE n) != 7)).foldl
    (fun (a0 : State × List (Nat × NEv × Option Nat)) n =>
      let a := (noteRedo a0.1 n ts, a0.2)
      let c := noteCfg a.1 ts n
      let x := a.1.note n
      let k0 := noteComps a.1 n
      let k1 : Comps := { ua := level, wa := !level, ub := false, wb := false }
      if c.type = 0 then a
      else if x.init then
        let start := c.type == 6 && (match c.pol with | 0 => level | 1 => !level | _ => true)
        (noteStore a.1 n ts c k1 (if start then some (Meas.new ts true susp false) else none) none, a.2)
      else
        let due : List NEv := match c.type, x.up with
          | 6, some m => if !m.fired && decide (m.start + c.tmax < ts) then
              [{ ts := m.start + c.tmax, lev := none, susp := m.susp, ovr := false }] else []
          | _, _ => []
        let (up, dn, l) := notePhase c ts susp false k0 k1 x.up x.dn
        noteEvents (noteStore a.1 n ts c k1 up dn) n ((due ++ l).map (fun e => (e, none))) a.2) (s, [])
  directAll r.1 32 r.2

/-- MATCH of a PATTERN note (R103). -/
def matchOf (s : State) (n : Nat) : Bool :=
  let w (lo hi : Nat) : Nat := lo + hi * 4294967296
  ((w (s.rd F_TIM_LEVEL_LO_LEVEL) (s.rd F_TIM_LEVEL_HI_LEVEL) ^^^ w (s.rd (F_TN_PVAL_LO_VALUE n)) (s.rd (F_TN_PVAL_HI_VALUE n)))
    &&& w (s.rd (F_TN_PMASK_LO_VALUE n)) (s.rd (F_TN_PMASK_HI_VALUE n))) == 0

/-- The masked inputs of a PATTERN note, and whether one of them is in a loss interval (R100, R103). -/
def patIns (s : State) (n : Nat) : List Nat :=
  (List.range 64).filter (fun i => ((s.rd (F_TN_PMASK_LO_VALUE n) + s.rd (F_TN_PMASK_HI_VALUE n) * 4294967296) >>> i) % 2 == 1)
def patLost (s : State) (n : Nat) : Bool := (patIns s n).any (fun i => (s.tin i).loss.isSome)

/-- Edges of the LIN bus with one timestamp have been applied: PATTERN notes look again, but for those that a loss interval
keeps from it (R100, R103, R104). -/
def notesPattern (s : State) (ts : Nat) (susp : Bool) : State :=
  let r := ((List.range 64).filter (fun n => s.rd (F_TN_CFG_TYPE n) == 7 && noteHears s ts n && !patLost s n)).foldl
    (fun (a0 : State × List (Nat × NEv × Option Nat)) n =>
      let a := (noteRedo a0.1 n ts, a0.2)
      let c := noteCfg a.1 ts n
      let x := a.1.note n
      let new := matchOf a.1 n
      let old := a.1.on (F_TN_STATE_TL n)
      let put (t : State) (m : Option Meas) : State :=
        noteLevel ((t.modNote n (fun y => { y with up := m, init := false })).wr (F_TN_STATE_OPEN n) (b2n m.isSome)) n ts new
      if c.type = 0 then a
      else if x.init then (put a.1 (if new then some (Meas.new ts true susp false) else none), a.2)
      else if new == old then a
      else if new then
        noteEvents (put a.1 (some (Meas.new ts true susp false))) n
          (if (c.pol = 0 ∧ c.qual = 0) ∨ c.pol = 2 then [({ ts := ts, lev := none, susp := susp, ovr := false }, none)] else []) a.2
      else
        let ev : List NEv := match x.up with
          | none => []
          | some m =>
            if c.pol = 0 then
              (if c.qual = 2 && !m.fired && decide (m.start + c.tmin < ts) then
                [{ ts := m.start + c.tmin, lev := none, susp := m.susp, ovr := false }] else [])
            else if c.pol = 1 then (measEnd c (some m) ts 0 susp false).map (fun e => { e with lev := none })
            else [{ ts := ts, lev := none, susp := susp || m.susp, ovr := false }]
        noteEvents (put a.1 none) n (ev.map (fun e => (e, none))) a.2) (s, [])
  directAll r.1 32 r.2

/-- A loss interval of a logic input is a skipped run of its notes (R100). -/
def notesLoss (s : State) (src ts : Nat) : State :=
  ((List.range 64).filter (fun k => (s.rd (F_TN_CFG_SRC k) == src && noteType s ts k != 0 && noteType s ts k != 7)
      || (noteType s ts k == 7 && src < 0x80 && (patIns s k).contains (src - 0x40)))).foldl
    (fun t k => if (t.note k).init then t else noteSkip t k ts) s

/-- Notes on logic inputs are set silently from the level (R100, R101). -/
def notesInit (s : State) (src ts : Nat) (level : Bool) : State :=
  let s1 := ((List.range 64).filter (fun n => s.rd (F_TN_CFG_SRC n) == src && noteType s ts n != 0 && noteType s ts n != 7
      && (s.note n).init)).foldl (fun t n => noteSilent t n ts level) s
  ((List.range 64).filter (fun n => noteType s1 ts n == 7 && (s1.note n).init && !patLost s1 n)).foldl
    (fun t n => noteSilent t n ts (matchOf t n)) s1

/-- How long after an event time the samples and edges up to it have reached a note, as TS96 (R114). -/
def noteLag (s : State) (n : Nat) : Nat := (noteDelay s n).ceil.toNat * ns1

/-- A note that an apply turned OFF gives up its measurement and its level, also where no sample or edge comes any more
(R105, R106, R126). -/
def notesSettle (s : State) : State :=
  ((List.range 64).filter (fun n => match (s.note n).redo with
    | [] => false
    | r :: _ => decide (r + noteLag s n ≤ s.now) && noteType s r n == 0)).foldl (fun t n => noteRedo t n t.now) s

/-! ### The heart (R107 to R115) -/

/-- Expiry of a timer at a tick's start (R113). -/
def tmExpired (s : State) (k t : Nat) : Bool :=
  match s.trg.timers.getD k none with
  | none => false
  | some t0 => decide (t0 + (s.rd (F_TRG_TM_LIMIT_LO_LIMIT_LO k) + s.rd (F_TRG_TM_LIMIT_HI_LIMIT_HI k) * 4294967296) * ns1 ≤ t)

/-- Counters, timers and STORE_Q as TRG_STATUS shows them at a tick's start. -/
def heartStatus (s : State) (t : Nat) : State :=
  let ct := (List.range 4).foldl (fun v k => if s.rd (F_TRG_CT_VALUE_VALUE k) ≥ s.rd (F_TRG_CT_LIMIT_LIMIT k) then v + 2 ^ k else v) 0
  let run := (List.range 4).foldl (fun v k => if (s.trg.timers.getD k none).isSome then v + 2 ^ k else v) 0
  let exp := (List.range 4).foldl (fun v k => if tmExpired s k t then v + 2 ^ k else v) 0
  let q := s.on F_TRG_CTRL_MODE && trgActive s
  let s1 := s.wrs [(F_TRG_STATUS_CT_REACHED, ct), (F_TRG_STATUS_TM_RUN, run), (F_TRG_STATUS_TM_EXPIRED, exp),
    (F_TRG_STATUS_STORE_Q, if q then s.rd (F_HS_CTRL_STORE (s.rd F_TRG_STATUS_HEART_STATE)) else 1)]
  (List.range 4).foldl (fun u k => match s.trg.timers.getD k none with
    | none => u
    | some t0 =>
      let e := (t - t0) / ns1
      u.wrs [(F_TRG_TM_VALUE_LO_VALUE k, e), (F_TRG_TM_VALUE_HI_VALUE k, e / 4294967296)]) s1

/-- The heart enters a state at a tick's start: STORE_Q may change (R115). -/
def heartEnter (s : State) (st t : Nat) : State :=
  let new := s.on (F_HS_CTRL_STORE st)
  let old := match s.trg.storeQ with | [] => true | x :: _ => x.2
  let s1 := s.wr F_TRG_STATUS_HEART_STATE st
  if !s.on F_TRG_CTRL_MODE || new == old then s1
  else storeQEdge (s1.modTrg (fun x => { x with storeQ := (t, new) :: x.storeQ })) t new

/-- The heart resets (R113). -/
def heartReset (s : State) (t : Nat) : State :=
  let s1 := (s.zeroFields ((List.range 4).flatMap (fun k => [F_TRG_CT_VALUE_VALUE k, F_TRG_TM_VALUE_LO_VALUE k, F_TRG_TM_VALUE_HI_VALUE k]))).modTrg
    (fun x => { x with timers := List.replicate 4 none, resetAt := x.resetAt.filter (fun r => decide (t < r)) })
  heartStatus (heartEnter s1 (s.rd F_TRG_CTRL_HEART_START) t) t

/-- Selector codes that no input has: their terms read 0 (R107). -/
def heartUnused (sel : Nat) : Bool := decide (0xA8 ≤ sel ∧ sel < 0xFF)

/-- The value of a selector in a tick (R107, R108). -/
def heartTerm (s : State) (evs : List HEv) (t sel : Nat) : Bool :=
  if sel < 0x40 then evs.any (fun e => e.sel == sel)
  else if sel < 0x80 then (s.trg.tl >>> (sel - 0x40)) % 2 == 1
  else if sel < 0xA0 then evs.any (fun e => e.sel == sel)
  else if sel < 0xA4 then decide (s.rd (F_TRG_CT_VALUE_VALUE (sel - 0xA0)) ≥ s.rd (F_TRG_CT_LIMIT_LIMIT (sel - 0xA0)))
  else if sel < 0xA8 then tmExpired s (sel - 0xA4) t
  else sel == 0xFF

/-- The selectors of a branch. -/
def branchSels (s : State) (h b : Nat) : List Nat :=
  [s.rd (F_HS_B_TERMS_T0 h b), s.rd (F_HS_B_TERMS_T1 h b), s.rd (F_HS_B_TERMS_T2 h b), s.rd (F_HS_B_TERMS_T3 h b)]

/-- The combining function (R109). -/
def comb (c : Nat) (v : Nat → Bool) : Bool :=
  match c with
  | 0 => v 0 && v 1 && v 2 && v 3
  | 1 => v 0 || v 1 || v 2 || v 3
  | 2 => (v 0 && v 1) || (v 2 && v 3)
  | _ => (v 0 || v 1) && (v 2 || v 3)

/-- Whether a branch's condition holds. -/
def branchCond (s : State) (evs : List HEv) (t h b : Nat) : Bool :=
  let inv := s.rd (F_HS_B_LOGIC_INV h b)
  let vals := (branchSels s h b).zipIdx.map (fun x => !heartUnused x.1 && heartTerm s evs t x.1 != ((inv >>> x.2) % 2 == 1))
  comb (s.rd (F_HS_B_LOGIC_COMB h b)) (fun i => vals.getD i false)

/-- The branch taken in a tick: B0, else B1, else none (R110). -/
def heartBranch (s : State) (evs : List HEv) (t : Nat) : Option Nat :=
  let h := s.rd F_TRG_STATUS_HEART_STATE
  if s.trg.parityHs.contains h then none
  else if s.on (F_HS_B_LOGIC_EN h 0) && branchCond s evs t h 0 then some 0
  else if s.on (F_HS_B_LOGIC_EN h 1) && branchCond s evs t h 1 then some 1
  else none

/-- Event time, trigger point and flags of a taken branch (R112). -/
def branchEvent (s : State) (evs : List HEv) (t h b : Nat) : Nat × Option Nat × Nat :=
  let inv := s.rd (F_HS_B_LOGIC_INV h b)
  let sels := (branchSels s h b).zipIdx.filter (fun x => (x.1 < 0x40 || (0x80 ≤ x.1 && x.1 < 0xA0)) && (inv >>> x.2) % 2 == 0)
  let hits := evs.filter (fun e => sels.any (fun x => x.1 == e.sel))
  let fl := hits.foldl (fun a e => a ||| (e.flags - e.flags % 2)) 0
  match hits with
  | [] => (t, none, 0)
  | e :: es =>
    let m := es.foldl (fun a x => if x.ts > a.ts then x else a) e
    (m.ts, m.point, fl ||| b2n m.point.isSome)

/-- Counter and timer actions of a branch (R111). -/
def heartActions (s : State) (h b t : Nat) : State :=
  let bit (f : Fld) (k : Nat) : Bool := (s.rd f >>> k) % 2 == 1
  (List.range 4).foldl (fun u k =>
    let u1 := if bit (F_HS_B_ACTION_CT_RST h b) k then u.wr (F_TRG_CT_VALUE_VALUE k) 0
      else if bit (F_HS_B_ACTION_CT_INC h b) k then u.bump (F_TRG_CT_VALUE_VALUE k) else u
    if bit (F_HS_B_ACTION_TM_START h b) k then
      (u1.modTrg (fun x => { x with timers := listMod x.timers k (fun _ => some t) })).wrs
        [(F_TRG_TM_VALUE_LO_VALUE k, 0), (F_TRG_TM_VALUE_HI_VALUE k, 0)]
    else if bit (F_HS_B_ACTION_TM_STOP h b) k then
      match u1.trg.timers.getD k none with
      | none => u1
      | some t0 =>
        let e := (t - t0) / ns1
        (u1.modTrg (fun x => { x with timers := listMod x.timers k (fun _ => none) })).wrs
          [(F_TRG_TM_VALUE_LO_VALUE k, e), (F_TRG_TM_VALUE_HI_VALUE k, e / 4294967296)]
    else u1) s

/-- One tick of the heart (R108, R110 to R112). -/
def heartStep (s : State) : State :=
  let k := s.trg.tick
  let t := k * half
  let s0 := if s.trg.resetAt.any (fun r => decide (r ≤ t)) then heartReset s t else s
  let evs := s0.trg.evs.filter (fun e => decide (e.tick ≤ k))
  let due := s0.trg.lvls.filter (fun l => decide (l.2.1 < t + half))
  let tl := due.foldl (fun v l => setBits v l.1 1 (b2n l.2.2)) s0.trg.tl
  let s1 := heartStatus (qualRun (s0.modTrg (fun x => { x with
    evs := x.evs.filter (fun e => !decide (e.tick ≤ k)), lvls := x.lvls.filter (fun l => !decide (l.2.1 < t + half)), tl := tl,
    tick := k + 1 }))) t
  let h := s1.rd F_TRG_STATUS_HEART_STATE
  match heartBranch s1 evs t with
  | none => s1
  | some b =>
    let (ets, point, fl) := branchEvent s1 evs t h b
    let s2 := heartActions s1 h b t
    let s3 := if s.rd F_TRG_OUT_CTRL_MODE = 3 then
        (if s.on (F_HS_B_ACTION_OUT_PULSE h b) then outRequest s2 0 ets
         else if s.on (F_HS_B_ACTION_OUT_CLR h b) then outRequest s2 2 ets
         else if s.on (F_HS_B_ACTION_OUT_SET h b) then outRequest s2 1 ets else s2)
      else s2
    let s4 := if s.on (F_HS_B_ACTION_TRIGGER h b) then
        pipePut s3 46 0 { ts := ets, cause := 0x80 + h, branch := b, flags := fl, point := point }
      else s3
    heartStatus (heartEnter s4 (s.rd (F_HS_B_ACTION_NEXT h b)) (t + half)) (t + half)

/-! ### Base notes (R131 to R139) -/

/-- The rules of R134 on a configuration; TYPE, POL and EVT_SEL codes that act as OFF are another matter. -/
def bnLegal (type a b h : Nat) : Bool :=
  let fa := fp32 a
  let fb := fp32 b
  let fh := fp32 h
  let two := f64.add fh fh
  !fa.isNan && !fb.isNan && !fh.isNan && !fh.lt (.fin false 0) && !(fh.sign && !(fh == .fin true 0))
    && !((type == 3 || type == 4) && fa.le (f64.add fb two)) && !(type == 5 && fa.le (.fin false 0))

/-- A base note breaks a rule, with its levels as `rd` reads them. -/
def bnBad (s : State) (rd : Fld → Nat) (i : Nat) : Bool :=
  s.rd (F_BN_CFG_TYPE i) ≥ 6
    || !bnLegal (s.rd (F_BN_CFG_TYPE i)) (rd (F_BN_LEVEL_A_VALUE i)) (rd (F_BN_LEVEL_B_VALUE i)) (rd (F_BN_HYST_VALUE i))

/-- A note that acts as OFF has C = 0 and counts no run (R134, R135). -/
def bnQuiet (s : State) (i : Nat) : State := s.wrs [(F_BN_STATE_C i, 0), (F_BN_STATE_RUN i, 0)]

/-- The type a base note acts as on a value whose window ends at a time (R137). -/
def bnType (s : State) (t i : Nat) : Nat :=
  if bnBad s (s.rdAt t) i || s.rd (F_BN_CFG_POL i) = 3 || s.rd (F_BN_CFG_EVT_SEL i) = 3 then 0 else s.rd (F_BN_CFG_TYPE i)

/-- U(L) and W(L) on binary32 values, in binary64 (R101, R133). -/
def bnU (init u : Bool) (y l h : Fp) : Bool := if u && !init then !(y.lt (f64.sub l h)) else l.le y
def bnW (init w : Bool) (y l h : Fp) : Bool := if w && !init then !((f64.add l h).lt y) else y.le l

/-- An outcome of a base note: the heart, or a direct decision (R95, R107, R136). -/
def bnOutcome (s : State) (i tE flags : Nat) : State :=
  let s1 := s.bump (F_BN_COUNT_COUNT i)
  let s2 := heartEvent s1 (0x80 + i) tE flags none true
  if s2.on F_TRG_CTRL_MODE || !trgActive s2 || (s2.rdAt tE F_TRG_DIRECT_BN_MASK >>> i) % 2 == 0 then s2
  else pipePut s2 32 (i + 1) { ts := tE, cause := 0x40 + i, branch := 0, flags := flags, point := none }

/-- FLAGS of a decision from a value record's flags: SUSPECT, OVR, RETRIED, COAST, and BN_LATE (Table 5.1, Table 5.5). -/
def bnFlags (f : Nat) (late : Bool) : Nat :=
  4 * b2n late + 8 * bitsOf f 0 1 + 16 * bitsOf f 1 1 + 32 * bitsOf f 4 1 + 64 * bitsOf f 3 1

/-- The comparators take a value (R133 to R136). -/
def bnEval (s : State) (i : Nat) (r : BnRec) (init late : Bool) : State :=
  let ty := bnType s r.wend i
  let x := s.bn i
  let a := fp32 (s.rdAt r.wend (F_BN_LEVEL_A_VALUE i))
  let b := fp32 (s.rdAt r.wend (F_BN_LEVEL_B_VALUE i))
  let h := fp32 (s.rdAt r.wend (F_BN_HYST_VALUE i))
  let first := ty == 5 && (init || x.vPrev.isNone)
  let y := if ty = 5 then (f64.sub (fp32 r.value) (fp32 (x.vPrev.getD 0))).abs else fp32 r.value
  let cinit := init
  let ua := if first then false else bnU cinit (s.on (F_BN_STATE_UA i)) y a h
  let wa := if first then false else bnW cinit (s.on (F_BN_STATE_WA i)) y a h
  let wb := if first then false else bnW cinit (s.on (F_BN_STATE_WB i)) y b h
  let c := match ty with
    | 1 | 5 => ua
    | 2 => wa
    | 3 => !ua && !wb
    | 4 => ua || wb
    | _ => false
  let silent := cinit || first
  let start := r.wend - r.wlen * ns1
  let run := if silent || !c then 0 else min 65535 (s.rd (F_BN_STATE_RUN i) + 1)
  let consec := max 1 (s.rd (F_BN_CFG_CONSEC i))
  let runStart := if run = 1 then start else x.runStart
  let begins := !silent && c && decide (run = consec) && !x.reached
  let ends := !silent && !c && x.reached
  let s0 := (s.wrs [(F_BN_STATE_ENGINE i, r.engine), (F_BN_VALUE_VALUE i, r.value)]).wrTs (R_BN_WEND_W i 0) r.wend
  let s1 := s0.wrs [(F_BN_STATE_C i, b2n (c && !first)), (F_BN_STATE_UA i, b2n ua), (F_BN_STATE_WA i, b2n wa),
    (F_BN_STATE_WB i, b2n wb), (F_BN_STATE_RUN i, run)]
  let s2 := s1.modBn i (fun z => { z with
    init := false, vPrev := some r.value, runStart := runStart,
    reached := if silent then false else if c then z.reached || decide (run ≥ consec) else false })
  let pol := s.rd (F_BN_CFG_POL i)
  let fl := bnFlags r.flags late
  let sel := s.rd (F_BN_CFG_EVT_SEL i)
  let tB := match sel with | 0 => r.wend | 1 => start | _ => runStart
  let tEnd := if sel = 0 then r.wend else start
  if ty = 0 then (bnQuiet s0 i).modBn i (fun z => { z with init := true, vPrev := none, reached := false })
  else if begins && pol != 1 then bnOutcome s2 i tB fl
  else if ends && pol != 0 then bnOutcome s2 i tEnd fl
  else s2

/-- A value record reaches TRG (R132, R139, R154). -/
def bnArrive (s : State) (r : BnRec) : State :=
  let i := r.bn
  let x := s.bn i
  let nowNs := s.now / ns1
  let waiting := x.chute - (nowNs - x.chuteAt) / 8
  if waiting ≥ 16 then
    ((s.bump (F_BN_DROP_SKIP i)).modBn i (fun z => { z with init := true, vPrev := none })).raiseAt r.wend 6 0x0A 0 (resIndex i) 0
  else
    let s0 := s.modBn i (fun z => { z with chute := waiting + 1, chuteAt := if waiting = 0 then nowNs else z.chuteAt + (nowNs - z.chuteAt) / 8 * 8 })
    let dup := match x.lastSeq with | some q => decide (r.seq ≤ q) | none => false
    if dup then s0.bump (F_BN_DROP_DUP i)
    else
      let fresh := x.lastSeq.isNone
      let redone := x.redo.any (fun a => decide (a ≤ r.wend))
      let jump := match x.lastSeq with | some q => decide (r.seq > q + 1) | none => false
      let s1 := s0.modBn i (fun z => { z with lastSeq := some r.seq, redo := z.redo.filter (fun a => decide (r.wend < a)),
                                               vPrev := if redone then none else z.vPrev })
      let late := decide (r.wend + s.rd (F_BN_LAT_US i) * 1000 * ns1 < s.now)
      let s2 := if late then
          let t := s1.bump (F_BN_LATE_COUNT i)
          if x.lateRaised then t
          else (t.modBn i (fun z => { z with lateRaised := true })).raiseAt r.wend 6 0x05 0 (resIndex i) 0
        else s1
      if bitsOf r.flags 2 1 = 1 || bitsOf r.flags 5 1 = 1 || (fp32 r.value).isNan then
        (s2.bump (F_BN_DROP_SKIP i)).modBn i (fun z => { z with init := true, vPrev := none })
      else bnEval s2 i r (fresh || jump || redone || x.init) late

end Sys2Proof.Machine
end

