-- ==== Sys2Proof/Machine/Tim.lean ====
section
/-!
DEFINITION. Edge timing's commands (chapter 6): edges, deglitch, loss, storage hand-off, calibration, gates, results.
-/

namespace Sys2Proof.Machine

/-- Whether an edge of an input carries SUSPECT now (R160, R179). -/
def edgeSuspect (s : State) (n : Nat) : Bool :=
  (s.tin n).calBad || !s.on F_TIM_STATUS_CAL_VALID 
    || !(s.rd (F_CKG_P_STATUS_STATE 2) == 3 || s.rd (F_CKG_P_STATUS_STATE 2) == 4)

/-- Time one entry of an input's chute takes to drain: 8 FCLK (R164). -/
def drainTime (s : State) : Nat := 8000000 * ns1 / s.clk.fkhz

/-- Entries that have left an input's chute by a time. -/
def chuteLeft (s : State) (n t : Nat) : Nat := if drainTime s = 0 then 0 else (t - (s.tin n).chuteAt) / drainTime s

/-- Entries of an input's chute at a time (R164). -/
def chuteNow (s : State) (n t : Nat) : Nat := (s.tin n).chute - chuteLeft s n t

/-- An accepted edge enters an input's chute. -/
def chutePush (s : State) (n t : Nat) : State :=
  let c := chuteNow s n t
  s.modIn n (fun y => { y with
    chute := c + 1, chuteAt := if c = 0 then t else y.chuteAt + chuteLeft s n t * drainTime s })

/-- The level of an input as TIM sees it (R159). -/
def inLevel (s : State) (n : Nat) : Bool := (s.tin n).raw != s.on (F_TIM_IN_CFG_INV n)

/-- Delivery time of an edge of an input (R163). -/
def deliverAt (s : State) (n : Nat) (e : TEdge) : Nat := e.ball + (24 + s.rd (F_TIM_IN_CFG_DEGLITCH n)) * ns1

/-- The accepted level of an input. -/
def setLevel (s : State) (n : Nat) (v : Bool) : State :=
  let s1 := s.modIn n (fun y => { y with level := v })
  if n < 32 then s1.wr ⟨R_TIM_LEVEL_LO, n, 1⟩ (b2n v)
  else if n < 64 then s1.wr ⟨R_TIM_LEVEL_HI, n - 32, 1⟩ (b2n v)
  else s1.wrB F_TIM_STATUS_TRIG_IN_LEVEL v

/-- TRG's source code of a TIM input: LIN, or 0x80 for TRIG_IN (Table 4.1). -/
def trgSrc (n : Nat) : Nat := if n = 64 then 0x80 else 0x40 + n

/-- An accepted edge is counted and delivered to TRG, storage, the fundamental outputs and the measurement units. -/
def edgeDeliver (s : State) (n : Nat) (e : TEdge) : State :=
  let s1 := s.bump (F_TIM_IN_EDGES_COUNT n)
  let s2 := if trgActive s1 then notesEdge s1 (trgSrc n) e.ts e.level e.susp else s1
  let s3 := groupQueue (storeEdge s2 n e.ts e.level e.susp) n e.ts e.level e.susp (storeMode s2 n == 3)
  muEdges (fpEdges s3 n e.ts (deliverAt s n e) e.level) n e.ts e.level e.susp

/-- An edge of an input is accepted: it enters the chute and is delivered. -/
def edgeOut (s : State) (n : Nat) (e : TEdge) : State :=
  let s1 := edgeDeliver (chutePush (setLevel s n e.level) n (deliverAt s n e)) n e
  if trgActive s1 && n < 64 then notesPattern s1 e.ts e.susp else s1

/-- A loss interval of an input opens at the first missed edge (R164): its LOSS record, TRG, the outputs and the units. -/
def lossOpen (s : State) (n ts k : Nat) : State :=
  let x := s.tin n
  let s1 := (s.modIn n (fun y => { y with loss := some ts, missed := k })).bumpBy (F_TIM_IN_LOST_COUNT n) k
  let s2 := lossRec (muLoss (fpLoss (if trgActive s1 then notesLoss s1 (trgSrc n) ts else s1) n) n ts) n 3 ts false 0
  let s3 := if x.lossRaised || s.tim.stopTs.isSome then s2
    else (s2.modIn n (fun y => { y with lossRaised := true })).raiseAt ts 7 0x01 0 (resIndex n) 0
  lossNow s3

/-- Deliver an input's edges up to the first that finds the chute full; its second value is what remains. -/
def edgesOut (n : Nat) : List TEdge → State → State × List TEdge
  | [], s => (s, [])
  | e :: es, s => if chuteNow s n (deliverAt s n e) ≥ 256 then (s, e :: es) else edgesOut n es (edgeOut s n e)

/-- A loss interval begins at an edge with timestamp `ts`, when `extra` edges are missed with it. Edges that had held
their level are accepted; one still within its hold-off is missed, and so is what finds the chute full. -/
def lossBegin (s : State) (n ts : Nat) : State :=
  let x := s.tin n
  let g := s.rd (F_TIM_IN_CFG_DEGLITCH n) * ns1
  let held := match x.pend.getLast? with
    | some e => if ts < e.ts + g then x.pend.dropLast else x.pend
    | none => []
  let r := edgesOut n held (s.modIn n (fun y => { y with pend := [] }))
  let missed := r.2 ++ x.pend.drop held.length
  lossOpen r.1 n ((missed.map (fun e => e.ts)).foldl min ts) (1 + missed.length)

/-- The timestamp of an edge: to the 7.8125 ps grid, less the input's skew (R160, R161). -/
def edgeTs (s : State) (n ball : Nat) : Nat :=
  (((ball + fine / 2) / fine * fine : Nat) - s.rdS (F_TIM_IN_SKEW_SKEW n) * (fine : Nat)).toNat

/-- A pulse that ends here is narrower than 400 ps (R159). -/
def edgeNarrow (s : State) (n ball : Nat) : Bool :=
  match (s.tin n).recent with
  | r :: _ => decide ((ball - r) * 5 < 2 * ns1)
  | [] => false

/-- The front end has no room for a further edge of an input (R159). -/
def edgeBusy (s : State) (n ball : Nat) : Bool := ((s.tin n).recent.filter (fun r => decide (ball < r + 4 * ns1))).length ≥ 2

/-- The level at the ball of an input. -/
def rawLevel (s : State) (n : Nat) (level : Bool) : State := s.modIn n (fun y => { y with raw := level })

/-- An edge that the front end takes enters the deglitch filter; one within the hold-off of the last undoes it (R162). -/
def edgeEnter (s : State) (n ball ts : Nat) (lv : Bool) : State :=
  let e : TEdge := { ball := ball, ts := ts, level := lv, susp := edgeSuspect s n }
  let s3 := s.modIn n (fun y => { y with recent := (ball :: y.recent).take 2 })
  match (s.tin n).pend.getLast? with
  | some p =>
    if ts < p.ts + s.rd (F_TIM_IN_CFG_DEGLITCH n) * ns1 then
      (s3.modIn n (fun y => { y with pend := y.pend.dropLast, undone := some p })).bump (F_TIM_IN_GLITCH_COUNT n)
    else s3.modIn n (fun y => { y with pend := y.pend ++ [e], undone := none })
  | none => s3.modIn n (fun y => { y with pend := [e], undone := none })

/-- The first edge of a pulse can still be let go: it waits for delivery, or it undid an edge that does. -/
def pulseOpen (s : State) (n : Nat) : Bool := !(s.tin n).pend.isEmpty || (s.tin n).undone.isSome

/-- A pulse that is too narrow leaves neither of its edges: what its first edge undid stands again (R161, R162). -/
def pulseDrop (s : State) (n : Nat) : State :=
  match (s.tin n).undone with
  | some p =>
    (s.modIn n (fun y => { y with pend := y.pend ++ [p], undone := none, recent := y.recent.drop 1 })).wr
      (F_TIM_IN_GLITCH_COUNT n) (s.rd (F_TIM_IN_GLITCH_COUNT n) - 1)
  | none => s.modIn n (fun y => { y with pend := y.pend.dropLast, recent := y.recent.drop 1 })

/-- LOGIC_EDGE: an edge at the ball of an input, at a TS96, to a level (R159, R161, R162, R164). Where the manual lets a
pulse narrower than 400 ps keep both edges or neither, a free value decides; one that the front end has no room for keeps
neither. -/
def execLogicEdge (n ball : Nat) (level : Bool) (s : State) : Out :=
  if n > 64 then .next s
  else if !s.domOn .intake then .next (rawLevel s n level)
  else
    if level == (s.tin n).raw then .next s
    else
      let s0 := rawLevel s n level
      if !inDelivers s n then .next s0
      else if (s.tin n).loss.isSome then
        .next ((s0.modIn n (fun y => { y with missed := y.missed + 1 })).bump (F_TIM_IN_LOST_COUNT n))
      else if edgeNarrow s n ball && pulseOpen s n && ((s0.takeBits 1).1 == 0 || edgeBusy s n ball) then
        .next (pulseDrop (s0.takeBits 1).2 n)
      else
        let s2 := if edgeNarrow s n ball then (s0.takeBits 1).2 else s0
        if edgeBusy s n ball then .next (lossBegin s2 n (edgeTs s n ball))
        else .next (edgeEnter s2 n ball (edgeTs s n ball) (inLevel s0 n))

/-- Whether the oldest edge of an input has held its level for G and is delivered (R162, R163). -/
def edgeDue (s : State) (n : Nat) : Bool :=
  match (s.tin n).pend with
  | [] => false
  | e :: _ => decide (deliverAt s n e ≤ s.now)

/-- Inputs whose oldest edge is due and carries a timestamp. -/
def edgeMates (s : State) (ts : Nat) : List Nat :=
  (List.range 65).filter (fun i => edgeDue s i && (match (s.tin i).pend with | x :: _ => x.ts == ts | [] => false))

/-- The oldest edge of an input. -/
def edgeHead (s : State) (e : TEdge) (i : Nat) : TEdge := (s.tin i).pend.headD e

/-- The chute of an input is full when its oldest edge reaches it. -/
def edgeFull (s : State) (e : TEdge) (i : Nat) : Bool := decide (chuteNow s i (deliverAt s i (edgeHead s e i)) ≥ 256)

/-- The due edges with one timestamp are accepted together. -/
def edgeAccept (s : State) (e : TEdge) : State :=
  let full := (edgeMates s e.ts).filter (edgeFull s e)
  let ok := (edgeMates s e.ts).filter (fun i => !edgeFull s e i)
  let s1 := full.foldl (fun t i => lossOpen (t.modIn i (fun y => { y with pend := [] })) i e.ts (t.tin i).pend.length) s
  let s2 := ok.foldl (fun t i => chutePush ((setLevel t i (edgeHead s e i).level).modIn i (fun y => { y with pend := y.pend.drop 1 }))
    i (deliverAt s i (edgeHead s e i))) s1
  let s3 := ok.foldl (fun t i => edgeDeliver t i (edgeHead s e i)) s2
  if trgActive s3 && ok.any (· < 64) then notesPattern s3 e.ts (ok.any (fun i => (edgeHead s e i).susp)) else s3

/-- EDGE_ACCEPT: the oldest edge of an input, with those of other inputs that carry the same timestamp and are due, is
accepted; a full chute starts a loss (R103, R162, R164). -/
def execEdgeAccept (n : Nat) (s : State) : Out :=
  if !s.domOn .intake || !edgeDue s n then .next s
  else
    match (s.tin n).pend with
    | [] => .next s
    | e :: _ => .next (edgeAccept s e)

/-- A loss interval of an input ends; its level is sampled at the next TCLK edge (R164). -/
def lossEnd (s : State) (n : Nat) : State :=
  let ts := cdiv s.now ns1 * ns1
  let lv := inLevel s n
  let s1 := setLevel (s.modIn n (fun y => { y with loss := none, missed := 0, pend := [], recent := [], undone := none })) n lv
  let s2 := groupQueue (lossRec s1 n 2 ts lv (s.tin n).missed) n ts lv false false
  lossNow (if trgActive s2 then notesInit s2 (trgSrc n) ts lv else s2)

/-- TIM_LOSS_RESUME: the chute of an input in loss has drained to 128 entries; the level is sampled at the next TCLK edge
(R164). -/
def execTimLossResume (n : Nat) (s : State) : Out :=
  if (s.tin n).loss.isNone || !s.domOn .intake || n > 64 || chuteNow s n s.now > 128 then .next s else .next (lossEnd s n)

/-- How long after its time a source's edge is delivered to storage. -/
def gapLag (s : State) (src : Nat) : Nat :=
  if 0x44 ≤ src ∧ src < 0x48 then s.rd F_TIM_STORE_ALIGN_ALIGN * 16777216 - 8 * ns1 else srcDelay s src * 16777216

/-- STORE_GAP_END: a source's bucket holds half its burst again and the merge chute has room; the edges that lie before
that moment have been delivered (R169, R170). -/
def execStoreGapEnd (src : Nat) (s : State) : Out :=
  if !s.domOn .intake || src ≥ 96 then .next s
  else
    let s1 := groupsRun s
    .next (gapClose s1 src (s1.now - gapLag s src) (srcLevel s1 src))

/-- A record must wait for the heart: a source with qualified storage could still get one before it (R115, R170). -/
def recWaits (s : State) (r : TRec) : Bool := storeQWaits s r.ts && (levelSrcs s).any (fun c => storeMode s c == 2)

/-- TRANSITION_RECORD_HANDOFF: the oldest record whose time has come goes to CAP (R170); groups are coalesced and gaps end
before it. -/
def execTransitionRecordHandoff (s0 : State) : Out :=
  if !s0.domOn .intake then .next s0
  else
    let s := gapsRun (groupsRun s0)
    match s.tim.mq with
    | [] => .next s
    | r :: _ =>
      if s.now < r.ts + s.rd F_TIM_STORE_ALIGN_ALIGN * 16777216 || recWaits s r then .next s
      else .next (handRec s)

/-- An item of TIM's configuration by its index in an error record: an input, a virtual edge, a fundamental-period output, a
measurement unit (Table 18.3). -/
def timItem (i : Nat) : Bool :=
  decide (i ≤ 64) || decide (0x50 ≤ i ∧ i < 0x60) || decide (0x100 ≤ i ∧ i < 0x108) || decide (0x200 ≤ i ∧ i < 0x210)

/-- A parity error is found in the configuration of an item: it acts as disabled until it is rewritten (R180). -/
def timParity (i : Nat) (s : State) : State :=
  let s1 :=
    if i ≤ 64 then s.modIn i (fun y => { y with parity := true, pend := [], undone := none, recent := [], loss := none, missed := 0 })
    else if i < 0x100 then s.modTim (fun t => { t with badVes := (i - 0x50) :: t.badVes })
    else if i < 0x200 then s.modTim (fun t => { t with badFps := (i - 0x100) :: t.badFps })
    else s.modMu (i - 0x200) (fun y => { TMu.reset with res := y.res, raised := y.raised, parity := true })
  (lossNow s1).raise 7 0x06 2 (resIndex i) 0

/-- Parity errors are found in stored configurations (R128, R180). DESIGN CHOICE (log entry 40): TDC_CAL_SWAP brings them, for
TRG while it runs; no row of the table does, and the manual does not say when one is found. -/
def parityFound (r : CalReport) (s : State) : State :=
  let s1 := match r.tim with
    | some i => if timItem i then timParity i s else s
    | none => s
  match r.trg with
  | some i => if trgActive s1 && trgItem i then trgParity i s1 else s1
  | none => s1

/-- TDC_CAL_SWAP: the interpolators change roles; the calibration of some inputs may have failed (R160, R179). -/
def execTdcCalSwap (report : CalReport) (s0 : State) : Out :=
  if !s0.domOn .intake then .next s0
  else
    let s := parityFound report s0
    let s1 := (List.range 65).foldl (fun t n =>
      if (report.fails >>> n) % 2 = 1 then
        (if s.on (F_TIM_IN_CFG_EN n) then (t.modIn n (fun y => { y with calBad := true })).raise 7 0x03 2 (resIndex n) 0 else t)
      else t.modIn n (fun y => { y with calBad := false })) s
    .next (s1.wrs [(F_TIM_STATUS_CAL_VALID, 1), (F_TIM_CAL_STATUS_AGE, 0), (F_TIM_CAL_STATUS_T_CAL, s.rd F_PMU_TEMP_T_NOW)])

/-- A unit after the gates that have ended by now. -/
def muGatesNow (s : State) (u : Nat) : State :=
  let s0 := muRun u s
  if (s0.mu u).closed.isEmpty && muGate s u == 0 && decide (gateEnd s0 u + (muDelay s u + 8 * ns1) ≤ s.now) then
    muClose s0 u (gateEnd s0 u) else s0

/-- MEAS_GATE_CLOSE: a gate has ended and its result is posted (R175, R176). -/
def execMeasGateClose (u : Nat) (s : State) : Out :=
  if !s.domOn .intake || u ≥ 16 || muMode s u = 0 then .next s
  else
    let s1 := muGatesNow s u
    match (s1.mu u).closed with
    | [] => .next s1
    | r :: rest =>
      if r.endTs + (muDelay s u + 8 * ns1) ≤ s.now then .next (muPost (s1.modMu u (fun y => { y with closed := rest })) u r) else .next s1

/-- A write of TIM_MUu_RES_POP (R176). -/
def muPopWrite (u v : Nat) (s : State) : State :=
  if v.testBit 0 then muShow (s.modMu u (fun y => { y with res := y.res.drop 1 })) u else s

/-- TIM_RES_POP. -/
def execTimResPop (u m : Nat) (v : Word) (s : State) : Out :=
  if 16 ≤ u then .next s else .next (s.writeBy m (R_TIM_MU_RES_POP u) (muPopWrite u v.toNat))

/-- RUN of TIM is written (R177). -/
def timRunSet (s : State) (v : Bool) : State :=
  if v == timRun s then s
  else if !v && s.cap.armed then s.wr F_TIM_STATUS_WRITE_REFUSED 1
  else if v then
    let s1 := (List.range 65).foldl (fun t n => if t.on (F_TIM_IN_CFG_EN n) then setLevel t n (inLevel t n) else t) (s.wr F_TIM_CTRL_RUN 1)
    lossNow (s1.modTim (fun t => { t with ves := t.ves.map (fun _ => TVe.reset), mus := t.mus.map (fun u => { u with gateStart := s.now }) }))
  else
    let s1 := (s.wr F_TIM_CTRL_RUN 0).modTim (fun t => { t with
      ins := t.ins.map (fun i => { i with pend := [], recent := [], undone := none, loss := none, missed := 0, chute := 0 }),
      ves := t.ves.map (fun x => { x with lossOpen := false }),
      mus := t.mus.map (fun u => { u with q := [], open_ := none, fall := none, stop := none, acc := MuAcc.zero, closed := [] }),
      fps := t.fps.map (fun _ => { ePrev := none, pPrev := none }) })
    lossNow s1

/-- Every TIM count (CLR_COUNTERS). -/
def timCounters : List Fld :=
  timArmCounters ++ (List.range 8).flatMap (fun f => [F_TIM_FP_COUNT_COUNT f, F_TIM_FP_BLANKED_COUNT f])
    ++ (List.range 16).map F_TIM_MU_STATUS_OVERRUN

/-- A write of TIM_CTRL. -/
def timCtrlWrite (v : Nat) (s : State) : State :=
  let s1 := timRunSet s (v.testBit 0)
  if v.testBit 1 then s1.zeroFields timCounters else s1

/-- TIM_RUN_WRITE. -/
def execTimRunWrite (m : Nat) (v : Word) (s : State) : Out := .next (s.writeBy m R_TIM_CTRL (timCtrlWrite v.toNat))

/-- TIM_CLR_COUNTERS. -/
def execTimClrCounters (m : Nat) (v : Word) (s : State) : Out := .next (s.writeBy m R_TIM_CTRL (timCtrlWrite v.toNat))

/-! ### Virtual edges (R165, R166) -/

/-- An edge of a virtual edge is counted and delivered to storage, the fundamental outputs and the units. -/
def veDeliver (s : State) (v ts : Nat) (level susp : Bool) : State :=
  let c := 0x50 + v
  let s1 := s.bump (F_TIM_VE_EDGES_COUNT v)
  muEdges (fpEdges (storeEdge s1 c ts level susp) c ts (ts + veDelay s v * 16777216) level) c ts level susp

/-- A virtual edge's threshold passed between samples, to the 7.8125 ps grid (R165); none: the labelled time. -/
def veTime (s : State) (v u : Nat) (prev : Option (Int × Nat × Bool)) (y lev : Int) : Option Nat :=
  if !s.on (F_TIM_VE_CFG_INTERP v) then none
  else (crossPoint s u (prev.map (fun p => (p.1, p.1, p.2.1))) y lev).map (fun t => (rc (t : Int) 25 * (fine : Nat)).toNat)

/-- An output reaches a virtual edge: skipped, the silent start, or a comparison (R165, R166). SUSPECT of the sample before
counts where the edge lies between the two. -/
def veSample (s : State) (v : Nat) (hi lo : Int) (ts : Nat) (skip susp : Bool) : State :=
  let c := 0x50 + v
  let x := s.tim.ves.getD v TVe.reset
  let set (t : State) (y : TVe) : State := t.modTim (fun m => { m with ves := listMod m.ves v (fun _ => y) })
  let l := s.rdS (F_TIM_VE_LEVEL_LEVEL v)
  let h : Int := (s.rd (F_TIM_VE_LEVEL_HYST v) : Nat)
  let u := s.rd (F_TIM_VE_CFG_SRC v) / 4
  if skip then
    (if x.lossOpen then s
     else lossNow (lossRec (muLoss (fpLoss (set s { x with init := true, prev := none, lossOpen := true }) c) c ts) c 3 ts false 0))
  else if x.init then
    let s1 := set s { u := decide (hi ≥ l), init := false, prev := some (hi, ts, susp), lossOpen := false }
    if x.lossOpen then lossNow (lossRec s1 c 2 ts (decide (hi ≥ l)) 0) else s1
  else
    let u1 := stepU x.u hi lo l h
    let u2 := stepU u1 hi lo l h
    let s1 := set s { x with u := u2, prev := some (hi, ts, susp) }
    let edge (t : State) (a b : Bool) : State :=
      if a == b then t
      else
        match veTime s v u x.prev hi (if b then l else l - h) with
        | some te => veDeliver t v te b (susp || (match x.prev with | some p => p.2.2 | none => false))
        | none => veDeliver t v ts b susp
    edge (edge s1 x.u u1) u1 u2

end Sys2Proof.Machine
end

