-- ==== Sys2Proof/Machine/Cap.lean ====
section
/-!
DEFINITION. Capture memory's commands (chapter 7): configuration, arming, draining, markers, claims, readout tables,
rebuild, and CAP's share of power-state transitions.
-/

namespace Sys2Proof.Machine

/-- Whether an analogue source is delivered: its link is enabled, it is the channel or combined input of its group, and
its input is enabled. -/
def srcDelivered (s : State) (c : Nat) : Bool :=
  linkEn s (c / 4) && (groupsOf (unitMode s (c / 4))).any (fun g => g.headD 9 == c % 4)
    && (s.rd (F_DFU_MODE_INPUT_EN (c / 4)) >>> (c % 4)) % 2 == 1

/-! ### Arming (R184 to R188) -/

/-- Counters cleared at ARM (Table 7.11). -/
def capArmCounters : List Fld :=
  [F_CAP_SILO_GAP_COUNT, F_CAP_SEG_DROPPED_COUNT, F_CAP_UNPINNED_COUNT, F_CAP_MARK_LOST_COUNT, F_CAP_FLUSH_LOST_COUNT]

/-- Rate in MB/s, to the nearest. -/
def mbps (r : Rat) : Nat := sat32 (rne (r * 1000)).toNat

/-- The time at which what a stream has completed in granules ends (R202). -/
def streamEnd (s : State) (id : Nat) : Nat :=
  if id < 48 then itemTime s id ((s.cs id).bytes / itemBytes s id) else (s.cs id).stageTs.getD ((s.cs id).lastTs + 1)

/-- Close every open page with PARTIAL. -/
def closeAll (s : State) : State :=
  (List.range 80).foldl (fun t id => closePage t id true (streamEnd t id)) s

/-- Pages dealt out to streams in ascending page order. -/
def deal : List (Nat × Nat) → List Nat → List (Nat × List Nat)
  | [], _ => []
  | (id, n) :: rest, ps => (id, ps.take n) :: deal rest (ps.drop n)

/-- The allocation at ARM: the marker stream first, then the others (R188). Pages in use by a pin stay out. -/
def capAllocate (s : State) : State :=
  let total := s.rd F_CAP_SILO_PAGES_PAGES
  let mark := max 16 (s.rd F_CAP_MARK_PAGES_PAGES)
  let free := (List.range total).filter (fun p => (s.page p).pins == 0)
  let plan := (0x31, mark) :: pagePlan s (total - pinnedPages s - mark)
  (deal plan free).foldl (fun t x => t.modCs x.1 (fun c => { c with pages := x.2 })) s

/-- The markers that wait get the numbers of the capture that ends (R191). -/
def marksSettle (s : State) : State :=
  s.modCap (fun c =>
    { c with chute := c.chute.foldl (fun l m => l ++ [match m.seq with
        | some _ => m
        | none => { m with seq := some ((c.markSeq + (l.filter (fun x => x.capture == s.rd F_CAP_CAPTURE_CAPTURE)).length) % 65536) }]) [] })

/-- CAP takes an ARM at a time, for a context (R184, R185, R188). -/
def capArm (s : State) (ts ctx : Nat) : State :=
  let s0 := closeAll (marksSettle s)
  let s1 := ((s0.applyRegs [R_CAP_STORE_LO, R_CAP_STORE_HI]).zeroFields capArmCounters).wr F_CAP_CAPTURE_CAPTURE
    (s.rd F_CAP_CAPTURE_CAPTURE + 1)
  let s2 := s1.modCap (fun c => { c with
    armed := true, armTs := ts, armCtx := ctx, markSeq := 0, raised := [], marks := [], hbLast := ts,
    hbAt := s.up + s.rd F_CAP_HEARTBEAT_US * 1000, hbGap := false, stopTs := 0,
    streams := c.streams.map (fun x => { CStream.reset with frozen := x.frozen }) })
  let rg := rateG s2
  let f : Rat := ((655360 - heldGranules s2 : Nat) : Rat)
  let s3 := (storedSet s2).foldl (fun t id => t.modCs id (fun c =>
    { c with on := true, size := if rg = 0 then 0 else (f * streamRate s2 id / rg).floor.toNat })) s2
  let s4 := ([0x31] ++ resultSet s3).foldl (fun t id => t.modCs id (fun c => { c with on := true })) s3
  let s5 := if s.rd F_CAP_SILO_PAGES_PAGES = 0 then s4 else capAllocate s4
  let s6 := s5.wrs [(F_CAP_GRANARY_RATE_MBPS, mbps rg), (F_CAP_SILO_RATE_MBPS, mbps (rateS s5)),
    (F_CAP_STATUS_STATE, if s.err.contained then 7 else if capState s = 0 then 0 else if siloReady s5 then 4 else 2)]
  let mask := ((storedSet s6).filter (· < 48)).foldl (fun v i => v + 2 ^ i) 0
  capSpans (addMarker s6 0x01 ts 0xFF 0 (natBytes 6 mask ++ natBytes 1 (b2n (storedSet s6 |>.contains 0x30))))

/-! ### FILL, SUSPECT, CORR_APPLIED (Table 7.4) -/

/-- Write the marker of a run of outputs that carried a flag. -/
def runMark (s : State) (kind id aux : Nat) (r : Nat × Nat × Nat) : State :=
  addMarker (s.modCs id (fun c => { c with spans := c.spans ++ [(kind, r.2.1, r.2.2)] })) kind r.1 id aux
    (natBytes 8 r.2.1 ++ natBytes 4 r.2.2)

/-- A run grows, or ends with its marker; a count about to saturate ends it too (R191). -/
def runStep (s : State) (kind id aux : Nat) (get : CStream → Option (Nat × Nat × Nat))
    (set : CStream → Option (Nat × Nat × Nat) → CStream) (flag : Bool) (ts j : Nat) : State :=
  match get (s.cs id), flag with
  | none, false => s
  | none, true => s.modCs id (fun c => set c (some (ts, j, 1)))
  | some r, true =>
    if r.2.2 ≥ 0xFFFFFFFF then (runMark s kind id aux r).modCs id (fun c => set c (some (ts, j, 1)))
    else s.modCs id (fun c => set c (some (r.1, r.2.1, r.2.2 + 1)))
  | some r, false => (runMark s kind id aux r).modCs id (fun c => set c none)

/-- The runs of a link's lowest stream see an output (R191). -/
def capRuns (s : State) (u ts j : Nat) (fill susp : Bool) : State :=
  let id := 4 * u
  let s1 := runStep s 5 id u (fun c => c.fillRun) (fun c r => { c with fillRun := r }) fill ts j
  runStep s1 6 id (u + 512) (fun c => c.suspRun) (fun c r => { c with suspRun := r }) susp ts j

/-- Index ranges that JIN reported as suspect, and corrections that applied, become markers (R58, R72, R191). -/
def capNotes (s : State) : State :=
  let s1 := s.jin.suspects.foldl (fun t x =>
    let (k, a, b) := x
    let (j0, j1) := supOuts t k (a * unitG t k) (b * unitG t k)
    runMark t 6 (4 * k) (k + 256) (outTime t k j0, j0, j1 - j0)) s
  let s2 := s1.jin.corrs.foldl (fun t x => addMarker t 7 x.2.2 0xFF x.1 (natBytes 8 x.2.1)) s1
  { s2 with jin := { s2.jin with suspects := [], corrs := [] } }

/-- CAP takes a disarm at a time (R120, Table 7.4). -/
def capDisarm (s : State) (ts : Nat) : State :=
  if !s.cap.armed then s
  else
    let s1 := (List.range 12).foldl (fun t u => capRuns t u ts 0 false false) s
    let s2 := addMarker s1 0x02 ts 0xFF 0 []
    let s3 := s2.modCap (fun c => { c with armed := false, stopTs := ts })
    if capState s3 = 2 ∨ capState s3 = 4 then s3.wr F_CAP_STATUS_STATE 1 else s3

/-! ### Draining (R190, R201, R202) -/

/-- The internal address of a granule: the rings lie in the Granary in ascending order of stream (Table 1.3; DESIGN CHOICE,
log entry 41). -/
def granAddr (s : State) (id : Nat) (g : Gran) : Nat :=
  0x040003000000 + 64 * (((List.range id).map (fun i => (s.cs i).size)).foldl (· + ·) 0 + g.n % max 1 (s.cs id).size)

/-- A granule with an uncorrectable word is read: GRANARY_UE, and a SUSPECT marker for its items (R185, R208). -/
def granUe (s : State) (id : Nat) (g : Gran) : State :=
  if !g.ue then s
  else
    let k0 := 64 * g.n / itemBytes s id
    let k1 := cdiv (64 * g.n + 64) (itemBytes s id)
    addMarker (s.raiseAt g.ts 8 0x08 2 (resAddr (granAddr s id g)) 0) 6 g.ts (if id < 48 then id / 4 * 4 else id) ((id / 4) % 12 + 768)
      (natBytes 8 (k0 * itemIdx s id) ++ natBytes 4 ((k1 - k0) * itemIdx s id))

/-- Write one granule of a stream to the Silo. -/
def drainOne (s : State) (id : Nat) (g : Gran) : State :=
  let s1 := siloWrite id false g.ts 4 (64 * g.n) g.bytes s
  granUe (s1.modCs id (fun c => { c with drained := g.n + 1, flushTs := some (c.flushTs.getD g.ts) })) id g

/-- The granules of a stream not yet drained, oldest first. -/
def undrained (s : State) (id : Nat) : List Gran := (s.cs id).ring.filter (fun g => decide (g.n ≥ (s.cs id).drained))

/-- Whether all data of a claim has reached the Silo: nothing before its T1 is still to come on its streams. -/
def claimDone (s : State) (c : CapClaim) : Bool :=
  decide (c.t1 ≤ s.now) && (maskStreams c.streams c.resMask).all (fun id =>
    !(s.cs id).on || 49 ≤ id || (match undrained s id with
      | g :: _ => decide (c.t1 ≤ g.ts)
      | [] => !s.cap.armed || decide (c.t1 ≤ streamEnd s id)))

/-- Claims whose data is complete become closed (Table 7.6). -/
def claimsClose (s : State) : State :=
  (s.cap.claims.filter (fun c => c.state == 1 && claimDone s c)).foldl (fun t c => t.modClaim c.id (fun x => { x with state := 2 })) s

/-- How many granules the next drain takes: 4 KiB or up to the end of the page (R190). -/
def drainUnit (s : State) (id : Nat) : Nat :=
  match (s.cs id).cur with
  | none => 64
  | some p =>
    let off := 64 * (s.cs id).drained - (s.page p).start
    if off ≥ pageSize then 64 else min 64 ((pageSize - off) / 64)

/-- Granules of a stream turn out to have an uncorrectable word; so many single-bit errors are corrected (R185). -/
def granMark (s : State) (id : Nat) (check : DrainCheck) : State :=
  let mark (g : Gran) : Gran := { g with ue := g.ue || check.ue.contains g.n }
  (s.modCs id (fun c => { c with ring := c.ring.map mark, frozen := c.frozen.map mark })).modCap (fun c =>
    { c with ceCount := c.ceCount + check.ce })

/-- GRANULE_DRAIN: the oldest undrained granules of a stream go to its pages, a whole unit at a time while more may come
(R190); reading them, CAP checks every word (R185). -/
def execGranuleDrain (id : Nat) (check : DrainCheck) (s0 : State) : Out :=
  if !siloLive s0 || capState s0 = 5 || id ≥ 49 then .next s0
  else
    let s := granMark s0 id check
    let due := undrained s id
    if s.cap.armed && Nat.blt due.length (drainUnit s id) then .next s
    else .next (capSpans (claimsClose (capLag ((due.take (drainUnit s id)).foldl (fun t g => drainOne t id g) s) id)))

/-- GAP_NONE_HEARTBEAT: CAP_HEARTBEAT µs have passed in Record; where no SILO_GAP fell in them, the marker names the last
GAP_NONE or ARM (R192, Table 7.4). -/
def execGapNoneHeartbeat (s : State) : Out :=
  if capState s ≠ 4 || s.rd F_CAP_HEARTBEAT_US = 0 || s.up < s.cap.hbAt || s.err.contained then .next s
  else
    let s1 := if s.cap.hbGap then s
      else (addMarker s 0x03 s.now 0xFF 0 (natBytes 12 s.cap.hbLast)).modCap (fun c => { c with hbLast := s.now })
    .next (s1.modCap (fun c => { c with hbAt := s.up + s.rd F_CAP_HEARTBEAT_US * 1000, hbGap := false }))

/-- A stream with a Granary ring chooses where its drain starts: the oldest granule that is not overwritten within 1 µs and
not yet drained (R201 step 2). -/
def flushFrom (t : State) (id : Nat) : State :=
  let c := t.cs id
  let soon := if c.ring.length < ringRoom t c then 0 else ((streamRate t id * 1000 / 64).ceil).toNat
  let first := match c.ring with | [] => c.bytes / 64 | g :: _ => g.n + soon
  let start := max c.drained (min first (c.bytes / 64))
  let oldest := max c.drained (match c.ring with | [] => start | g :: _ => g.n)
  (t.bumpBy F_CAP_FLUSH_LOST_COUNT (start - oldest)).modCs id (fun x =>
    { x with drained := start, flushTs := none, flushLost := decide (c.drained < start) })

/-- CAP's start of Watch → Record: each stream chooses where its drain starts, and starts a new page (R201 steps 2 and 3).
After a disarm too: what the Granary and the chutes hold still goes to the Silo. -/
def capFlushStart (s : State) (tw : Nat) : State :=
  if capState s = 0 then s
  else
    let s1 := (s.wr F_CAP_STATUS_STATE 3).modCap (fun c => { c with wakeTs := tw, flushStart := s.up })
    let s2 := (List.range 80).foldl (fun t id =>
      let c := t.cs id
      if !c.on then t
      else
        let t1 := if c.cur.isSome then closePage t id true (posTime t id (64 * c.drained) (c.lastTs + 1)) else t
        t1.modCs id (fun x => { x with watchStart := true })) (s1.wr F_CAP_FLUSH_LOST_COUNT 0)
    capSpans ((storedSet s2).foldl flushFrom s2)

/-- Every stream's lag is within R190. -/
def caughtUp (s : State) : Bool :=
  (storedSet s).all (fun id =>
    decide ((((undrained s id).length * 64 : Nat) : Rat) ≤ 4096 + streamRate s id * 10000))

/-- Granules of a page. -/
def granPerPage : Nat := pageSize / 64

/-- One page of a held segment's granules, pinned where the pin limit allows (R194, R196). -/
def copyPage (s : State) (id : Nat) (k : Nat × Nat) (pin : Bool) (p : Nat) (g : Gran) (part : List Gran) : State :=
  let pos := 64 * g.n
  let isz := itemBytes s id
  let i := cdiv pos isz
  let x : Page := { Page.empty with
    firstItem := i * itemIdx s id, firstTs := if id < 48 then itemTime s id i else g.ts, stream := id, valid := true,
    copied := true, complete := true, pins := b2n pin, firstOfs := i * isz - pos, capture := k.1,
    used := part.length, start := pos, startTs := g.ts, endTs := (part.getLast?).map (fun y => granEnd s id y) }
  let s1 := part.foldl (fun t y => granUe t id y) (s.dramWrite (pageAddr s p) (part.flatMap (fun y => y.bytes)))
  let s2 := s1.setPage p x
  if pin then s2.modSeg k (fun y => { y with pages := y.pages ++ [p] })
  else s2.modCs id (fun c => { c with pages := c.pages ++ [p] })

/-- Pages for granules of a held segment (R196). -/
def copyPages (id : Nat) (k : Nat × Nat) (pin : Bool) : Nat → List Gran → State → State
  | 0, _, s => s
  | n + 1, gs, s =>
    match gs, nextPage s id with
    | g :: _, some p =>
      copyPages id k pin n (gs.drop granPerPage)
        (copyPage (s.modCs id (fun c => { c with pages := c.pages.filter (fun q => q != p) })) id k pin p g (gs.take granPerPage))
    | _, _ => s

/-- The frozen granules of a segment on a stream. -/
def frozenOf (s : State) (k : Nat × Nat) (id : Nat) : List Gran := (s.cs id).frozen.filter (fun y => y.heldFor.contains k)

/-- The pages a held segment's copy takes. -/
def copyNeed (s : State) (k : Nat × Nat) : Nat :=
  ((List.range 80).map (fun id => cdiv (frozenOf s k id).length granPerPage)).foldl (· + ·) 0

/-- Copy a held segment into free pages and free its granules; one whose pins would pass the limit pins nothing (R194,
R196). -/
def copyHeld (s : State) (g : Seg) : State :=
  let k := (g.capture, g.no)
  let pin := decide (pinnedPages s + copyNeed s k ≤ pinCeiling s)
  let s0 := if pin then s else capOnce (s.bump F_CAP_UNPINNED_COUNT) 0x02 g.tS
  let s1 := s0.modSeg k (fun x => { x with pinned := pin, unpinned := !pin, queued := false })
  let s2 := (List.range 80).foldl (fun t id => copyPages id k pin 64 (frozenOf t k id) t) s1
  putHeader (thaw s2 k) k

/-- The latest over the streams of the time of the first granule the flush drained; with none, now (R201 step 5). -/
def flushOldest (s : State) (lost : Bool) : Nat :=
  match ((List.range 49).filter (fun id => (s.cs id).on && (!lost || (s.cs id).flushLost))).filterMap (fun id => (s.cs id).flushTs) with
  | [] => if lost then 0 else s.now
  | t :: ts => ts.foldl max t

/-- CAP's catch-up: STATE = RECORD, WATCH_END, the waiting markers, the held segments, the headers (R201 step 5). FLUSH_LOSS
looks at the streams of which something older never reached the Silo; after a disarm STATE is IDLE (DEDUCED, log entry 43). -/
def capCatchup (s : State) : State :=
  let ts := flushOldest s false
  let spanTs := ((granarySpan s * (ns1 : Rat)).floor).toNat
  let s1 := ((s.wr F_CAP_STATUS_STATE (if s.cap.armed then 4 else 1)).wrTs (R_CAP_FLUSH_W 0) ts).wr F_CAP_CATCHUP_US
    ((s.up - s.cap.flushStart) / 1000)
  let s2 := addMarker s1 0x09 ts 0xFF 0 (natBytes 12 s.cap.wakeTs)
  let s3 := s.cap.chute.foldl (fun t m => markWrite t m) (s2.modCap (fun c => { c with chute := [] }))
  let s4 := (s3.cap.segs.filter (fun (g : Seg) => g.held && g.queued)).foldl copyHeld s3
  let s5 := s4.cap.hdrq.foldl putHeader s4
  let s6 := s5.modCap (fun c => { c with hbAt := s.up + s.rd F_CAP_HEARTBEAT_US * 1000, hbGap := false })
  capSpans (if Nat.blt (s.cap.wakeTs + 50000 * ns1) (flushOldest s true + spanTs) then
    s6.raiseAt (flushOldest s true) 8 0x06 0 resNone 0 else s6)

/-- An open claim that runs past the stop of Record ends there (R198, R202). -/
def claimStop (stop : Nat) (s : State) (c : CapClaim) : State :=
  if !(c.state == 1) || Nat.ble c.t1 stop then s
  else
    (addMarker (s.modClaim c.id (fun x => { x with t1 := stop, state := 3 })) 0x0C stop 0xFF c.id (natBytes 12 stop)).postEvent
      c.ctx 0x0802 [c.id]

/-- Drain a stream to its end. -/
def drainAll (s : State) (id : Nat) : State := capLag ((undrained s id).foldl (fun u g => drainOne u id g) s) id

/-- The earliest stop time of the stored streams (R202). -/
def stopPoint (s : State) : Nat :=
  match (storedSet s).map (streamEnd s) with
  | [] => s.now
  | t :: ts => ts.foldl min t

/-- CAP's share of Record → Watch at the request: drain to the stop points, close, truncate, RECORD_END (R200, R202). -/
def capStop (s : State) : State :=
  if capState s = 0 || s.err.contained then s
  else
    let stop := stopPoint s
    let s1 := s.wr F_CAP_STATUS_STATE 5
    let s2 := (storedSet s1).foldl (fun t id => let u := drainAll t id; closePage u id true (streamEnd u id)) s1
    let s3 := s2.cap.claims.foldl (claimStop stop) s2
    capSpans (addMarker s3 0x0A stop 0xFF 0 [])

/-- CAP has released MEMC: every page is closed (R202). -/
def capStopped (s : State) : State :=
  if capState s ≠ 5 || s.err.contained then s
  else capSpans ((closeAll s).wr F_CAP_STATUS_STATE (if s.cap.armed then 2 else 1))

/-- Held segments are lost when the Granary loses power (R196); the count of them. -/
def capRest (s : State) : State × Nat :=
  let n := (s.cap.segs.filter (fun (g : Seg) => g.held && g.queued)).length
  (capSpans ((s.bumpBy F_CAP_HELD_LOST_COUNT n).modCap (fun c => { c with
    segs := c.segs.filter (fun (g : Seg) => !(g.held && g.queued)), hdrq := [], chute := [],
    streams := c.streams.map (fun x => { x with ring := [], frozen := [], staging := [], vals := [] }) })), n)

/-! ### Rebuild (R205) -/

/-- A number of `n` bytes at a place of a byte string. -/
def numAt (bs : List Byte) (i n : Nat) : Nat := leNat ((bs.drop i).take n)

/-- A CHECK at the end of an entry holds (R187). -/
def checkOk (bs : List Byte) (n : Nat) : Bool := check16 (bs.take (n - 2)) == numAt bs (n - 2) 2

/-- An entry that has never been written. -/
def blank (bs : List Byte) : Bool := bs.all (· == 0)

/-- A page from its entry (Table 7.2). -/
def Page.parse (isz : Nat → Nat) (idx : Nat → Nat) (bs : List Byte) : Page :=
  let st := numAt bs 20 1
  let fl := numAt bs 21 1
  let bit (i : Nat) : Bool := (fl >>> i) % 2 == 1
  { firstItem := numAt bs 0 8, firstTs := numAt bs 8 12, stream := st, valid := bit 0, gapIn := bit 2, watchStart := bit 3,
    partialClosed := bit 4, copied := bit 5, complete := bit 6, pins := numAt bs 22 2, firstOfs := numAt bs 24 1 % 64,
    capture := numAt bs 26 2, used := numAt bs 28 2, start := numAt bs 0 8 / max 1 (idx st) * isz st - numAt bs 24 1 % 64,
    startTs := numAt bs 8 12, endTs := none, stale := [] }

/-- A segment from its header (Table 7.5). -/
def Seg.parse (bs : List Byte) : Seg :=
  let fl := numAt bs 57 1
  let bit (i : Nat) : Bool := (fl >>> i) % 2 == 1
  { no := numAt bs 36 3, capture := numAt bs 58 2, tS := numAt bs 0 12, decTs := numAt bs 12 12, firstOvl := numAt bs 24 12,
    cause := numAt bs 39 1, branch := numAt bs 40 1 % 2, flags := numAt bs 40 1 / 2, pre := numAt bs 41 6,
    post := numAt bs 47 6, ovl := numAt bs 53 2, holdBefore := numAt bs 55 2, pinned := bit 0, unpinned := bit 1,
    held := bit 2, fillIn := bit 3, suspectIn := bit 4, gapIn := bit 5, cut := bit 6, complete := bit 7, stored := true,
    queued := false, released := !bit 0, ctx := 0, pages := [] }

/-- A claim from its entry (Table 7.6). -/
def CapClaim.parse (bs : List Byte) : CapClaim :=
  { id := numAt bs 36 2, t0 := numAt bs 0 12, t1 := numAt bs 12 12, streams := numAt bs 24 8, resMask := numAt bs 32 2,
    ctx := numAt bs 34 2 % 4096, state := numAt bs 38 1, gapIn := numAt bs 39 1 % 2 == 1,
    noData := numAt bs 39 1 / 2 % 2 == 1, created := numAt bs 44 12, pages := [] }

/-- Entries of a table that hold data: those whose CHECK holds, and the addresses of those that fail it. -/
def readTable {α : Type} (s : State) (addr : Nat → Nat) (len : Nat) (parse : List Byte → α) (idx : List Nat) :
    List (Nat × α) × List Nat :=
  idx.foldl (fun (a : List (Nat × α) × List Nat) i =>
    let bs := s.dramRead (addr i) len
    if blank bs then a else if checkOk bs len then (a.1 ++ [(i, parse bs)], a.2) else (a.1, a.2 ++ [addr i])) ([], [])

/-- META_CHECK, with the address of the entry (R208). -/
def metaCheck (s : State) (bad : List Nat) : State :=
  match bad with
  | [] => s
  | a :: l => s.raise 8 0x07 2 (resAddr a) (l.length + 1)

/-- The time a page ends: where the next page of its stream and capture starts; of the last page, what its items span at
the pace of the page before it. -/
def endOf (ps : List (Nat × Page)) (x : Page) : Option Nat :=
  let same := (ps.filter (fun y => y.2.stream == x.stream && y.2.capture == x.capture)).map (fun y => y.2)
  let later := (same.filter (fun y => decide (y.startTs > x.startTs))).map (fun y => y.startTs)
  match later with
  | t :: ts => some (ts.foldl min t)
  | [] =>
    match (same.filter (fun y => decide (y.start < x.start))).foldl (fun (a : Option Page) y => match a with
        | none => some y
        | some z => if y.start > z.start then some y else a) none with
    | none => some (x.firstTs + 1)
    | some y => some (x.firstTs + max 1 ((x.firstTs - y.firstTs) * (64 * x.used) / max 1 (x.start - y.start)))

/-- Time of record `k` of a page of a record stream, from its bytes. -/
def recTime (s : State) (pg : Nat) (x : Page) (k : Nat) : Nat :=
  let isz := itemBytes s x.stream
  let bs := s.dramRead (pageAddr s pg + k * isz) isz
  if x.stream = 0x30 then numAt bs 0 8 * ns1 + numAt bs 8 1 % 128 * fine else numAt bs 0 12

/-- Time of the `k`-th item that starts in a page: of a sample stream from the page's FIRST_TS on. -/
def pageItemTime (s : State) (pg : Nat) (x : Page) (k : Nat) : Nat :=
  if x.stream < 48 then
    let k0 := x.firstItem / itemIdx s x.stream
    x.firstTs + (itemTime s x.stream (k0 + k) - itemTime s x.stream k0)
  else recTime s pg x k

/-! ### Stale units after a rebuild (R190, R203)

The page map says that a page has a gap, the SILO_GAP markers say where: one for each granule, with the time of the
earliest item in it and of the data after it. -/

/-- A 64-byte unit of a page: the page, the unit, the time of the item its first byte belongs to. -/
structure PUnit where
  page : Nat
  unit : Nat
  ts : Nat
deriving DecidableEq, Repr

/-- The units of a page. -/
def pageUnits (s : State) (y : Nat × Page) : List PUnit :=
  let x := y.2
  let k0 := x.firstItem / itemIdx s x.stream
  let before := itemTime s x.stream k0 - itemTime s x.stream (k0 - 1)
  (List.range x.used).map (fun i => { page := y.1, unit := i, ts :=
    if 64 * i < x.firstOfs then x.firstTs - before else pageItemTime s y.1 x ((64 * i - x.firstOfs) / itemBytes s x.stream) })

/-- The SILO_GAP markers of a stream in a capture: TS and the time of the data after the gap (Table 7.4). -/
def gapMarks (s : State) (pages : List (Nat × Page)) (cap id : Nat) : List (Nat × Nat) :=
  ((pages.filter (fun y => y.2.stream == 0x31 && y.2.capture == cap)).flatMap (fun y =>
    chunksOf 32 pageSize (s.dramRead (pageAddr s y.1) (64 * y.2.used)))).filterMap (fun r =>
      if numAt r 12 1 = 4 ∧ numAt r 13 1 = id then some (numAt r 0 12, numAt r 16 12) else none)

/-- The stale units of a sample stream: each marker takes the first unit with its time, to the rounding of a label. -/
def staleByTime : List (Nat × Nat) → List PUnit → List PUnit
  | _, [] => []
  | ms, u :: us =>
    match ms.find? (fun m => decide (m.1 ≤ u.ts + 1 ∧ u.ts ≤ m.1 + 1)) with
    | some m => u :: staleByTime (ms.erase m) us
    | none => staleByTime ms us

/-- The stale units of the transition stream, from its end: a stale unit holds no times, but its marker names the time of
the data after it. -/
def staleByNext : List (Nat × Nat) → Nat → List PUnit → List PUnit
  | _, _, [] => []
  | ms, next, u :: us =>
    match ms.find? (fun m => m.2 == next) with
    | some m => u :: staleByNext (ms.erase m) m.1 us
    | none => staleByNext ms u.ts us

/-- The stale units of a stream in a capture. -/
def staleUnits (s : State) (pages : List (Nat × Page)) (cap id : Nat) : List PUnit :=
  let mine := (pages.filter (fun y => y.2.stream == id && y.2.capture == cap)).mergeSort (fun a b => Nat.ble a.2.start b.2.start)
  if !mine.any (fun y => y.2.gapIn) then []
  else
    let us := mine.flatMap (pageUnits s)
    let ms := gapMarks s pages cap id
    if id < 48 then staleByTime ms us else staleByNext ms 0 us.reverse

/-- Pages with their stale units. -/
def withStale (s : State) (pages : List (Nat × Page)) : List (Nat × Page) :=
  pages.map (fun y => if !y.2.gapIn then y
    else (y.1, { y.2 with stale := ((staleUnits s pages y.2.capture y.2.stream).filter (fun u => u.page == y.1)).map (fun u => u.unit) }))

/-- The segments whose granules or header the Granary side still holds: no table in DRAM knows them yet (R196). -/
def waiting (s : State) (g : Seg) : Bool := (g.held && g.queued) || s.cap.hdrq.contains (g.capture, g.no)

/-- The captures that ran before the table was known are numbered after those it holds: DESIGN CHOICE (log entry 41). -/
def capRenumber (s : State) (found : Nat) : State :=
  let k (x : Nat × Nat) : Nat × Nat := (x.1 + found, x.2)
  let s1 := (s.wr F_CAP_CAPTURE_CAPTURE (s.rd F_CAP_CAPTURE_CAPTURE + found)).modTrg (fun t => { t with
    segs := t.segs.map (fun g => { g with cap := g.cap + found }) })
  s1.modCap (fun c => { c with
    segs := c.segs.map (fun g => { g with capture := g.capture + found }), hdrq := c.hdrq.map k,
    chute := c.chute.map (fun m => { m with capture := m.capture + found }),
    streams := c.streams.map (fun x => { x with frozen := x.frozen.map (fun g => { g with heldFor := g.heldFor.map k }) }) })

/-- The rebuild of R205: the state, and valid pages, segments, claims, discarded entries. `fresh`: the numbers of captures
began anew, after a reset. A capture that runs in the Granary goes on (R204). -/
def rebuild (s : State) (fresh : Bool) : State × Nat × Nat × Nat × Nat :=
  let (ps, f1) := readTable s (mapAddr s) 32 (Page.parse (itemBytes s) (itemIdx s)) (List.range (s.rd F_CAP_SILO_PAGES_PAGES))
  let valid := ps.filter (fun x => x.2.valid)
  let pages := withStale s (valid.map (fun x => (x.1, { x.2 with endTs := endOf valid x.2, pins := 0 })))
  let (cs, f2) := readTable s (claimAddr s) 64 CapClaim.parse ((List.range 65536).drop 1)
  let last := (pages.map (fun x => x.2.endTs.getD 0)).foldl max 0
  let claims := (cs.map (fun x => x.2)).filter (fun c => c.state != 0) |>.map (fun c =>
    if c.state = 1 then { c with state := 2, t1 := max c.t0 last } else c)
  let (gs, f3) := readTable s (segAddr s) 64 Seg.parse (List.range (2 ^ s.rd F_CAP_SEG_ENTRIES_LOG2))
  let segs := gs.map (fun x => if x.2.complete then x.2 else { x.2 with complete := true, cut := true })
  let found := (valid.map (fun x => x.2.capture) ++ segs.map (fun g => g.capture)).foldl max 0
  let s0 := s.modCap (fun c => { c with
    tbl := pages.filter (fun x => x.2 != Page.empty), claims := [], segs := c.segs.filter (waiting s) })
  let s0' := if fresh && Nat.ble (s.rd F_CAP_CAPTURE_CAPTURE) found then capRenumber s0 found else s0
  let top := (s0'.cap.segs.map (fun (g : Seg) => g.capture)).foldl max found
  let s1 := pages.foldl (fun t x => t.setPage x.1 x.2) s0'
  let ids (c : CapClaim) : List Nat := maskStreams c.streams c.resMask
  let s2 := claims.foldl (fun t c =>
    let l := coverPages t (ids c) c.t0 c.t1
    let c' := { c with pages := l }
    (l.foldl pinPage (t.modCap (fun k => { k with claims := k.claims ++ [c'] }))).dramWrite (claimAddr t c.id) c'.bytes) s1
  let s3 := segs.foldl (fun t g =>
    let l := if g.pinned then (t.cap.tbl.filter (fun x => x.2.capture == g.capture
        && x.2.covers (List.range 50) (g.tS - g.pre * ns1) (g.tS + g.post * ns1))).map (fun x => x.1) else []
    let g' := { g with pages := l }
    (l.foldl pinPage (t.modCap (fun k => { k with segs := k.segs ++ [g'] }))).dramWrite (segAddr t g.no) g'.bytes) s2
  let bad := f1 ++ f2 ++ f3
  let s4 := metaCheck s3 bad
  let s5 := s4.wrs [(F_CAP_CAPTURE_CAPTURE, if s.cap.armed then s4.rd F_CAP_CAPTURE_CAPTURE else top + 1),
    (F_CAP_STATUS_STATE, if s.cap.armed && capState s != 0 then capState s else 1), (F_CAP_STATUS_REBUILT, 1)]
  ((capSpans s5).postEvent 0 0x0803 [valid.length, segs.length, claims.length, bad.length], valid.length, segs.length,
    claims.length, bad.length)

/-! ### CAP_CONFIG and the rest of Table 7.9 -/

/-- The Silo and the metadata area end within the installed capacity, where it is known (R186). -/
def capFits (s : State) (sb pages mb mu : Nat) : Bool :=
  let cap := s.rd64 R_MEM_CAPACITY_LO R_MEM_CAPACITY_HI / pageSize
  cap == 0 || (decide (sb + pages ≤ cap) && decide (mb + mu ≤ cap))

/-- The conditions on a CAP_CONFIG packet (Table 7.9, R186). -/
def capConfigValid (p : Packet) (s : State) : Bool :=
  let pages := pf p 4 0 21
  let sb := pf p 3 0 20
  let mb := pf p 5 0 20
  let e := pf p 2 24 5
  let mu := metaUnits pages e
  let store := pq p 7
  pages ≥ 512 && decide (10 ≤ e ∧ e ≤ 24) && pf p 6 0 16 ≥ 16 && pf p 2 8 8 ≤ 90 && pf p 2 16 6 ≤ 32
    && decide (32 ≤ pf p 9 0 9 ∧ pf p 9 0 9 ≤ 256)
    && (decide (sb + pages ≤ mb) || decide (mb + mu ≤ sb)) && capFits s sb pages mb mu
    && (List.range 48).all (fun c => (store >>> c) % 2 == 0 || srcDelivered s c)

/-- The configuration registers that CC0 keeps (R204). -/
def capCfgRegs : List Nat :=
  [R_CAP_CTRL, R_CAP_SILO_BASE, R_CAP_SILO_PAGES, R_CAP_META_BASE, R_CAP_SEG_ENTRIES, R_CAP_MARK_PAGES, R_CAP_PIN_LIMIT,
   R_CAP_GR_HOLD_MAX, R_CAP_STORE_LO, R_CAP_STORE_HI, R_CAP_FLUSH_RATE, R_CAP_HEARTBEAT]

/-- Clear a stretch of DRAM. -/
def dramClear (s : State) (a n : Nat) : State :=
  { s with dram := s.dram.filter (fun c => decide (c.1 < a) || decide (a + n ≤ c.1)) }

/-- The Silo part of CAP_CONFIG: clear the metadata, or adopt it (R204). -/
def capSiloPart (s : State) (init fresh : Bool) : State × Nat :=
  if init then
    let s1 := dramClear s (mapAddr s 0) (metaUnits (s.rd F_CAP_SILO_PAGES_PAGES) (s.rd F_CAP_SEG_ENTRIES_LOG2) * pageSize)
    (capSpans (s1.modCap (fun c => { c with tbl := [], segs := c.segs.filter (waiting s), claims := [] })), 0)
  else let r := rebuild s fresh; (r.1, r.2.1)

/-- The reply of CAP_CONFIG. -/
def capConfigReply (s : State) (valid : Nat) : Reply :=
  okR (metaUnits (s.rd F_CAP_SILO_PAGES_PAGES) (s.rd F_CAP_SEG_ENTRIES_LOG2)) (s.rd F_CAP_SILO_SPAN_MS)
    (s.rd F_CAP_GRANARY_SPAN_US) valid

/-- CAP takes the configuration of a CAP_CONFIG; CC0 keeps it (R204). -/
def capTake (p : Packet) (s : State) : State :=
  let s1 := s.wrs [(F_CAP_CTRL_AUTO_PIN, pf p 2 1 1), (F_CAP_CTRL_SEG_EVENT, pf p 2 2 1),
    (F_CAP_PIN_LIMIT_PERCENT, pf p 2 8 8), (F_CAP_GR_HOLD_MAX_MIB, pf p 2 16 6), (F_CAP_SEG_ENTRIES_LOG2, pf p 2 24 5),
    (F_CAP_SILO_BASE_BASE, pf p 3 0 20), (F_CAP_SILO_PAGES_PAGES, pf p 4 0 21), (F_CAP_META_BASE_BASE, pf p 5 0 20),
    (F_CAP_MARK_PAGES_PAGES, pf p 6 0 16), (F_CAP_STORE_LO_STREAMS, pdw p 7), (F_CAP_STORE_HI_STREAMS, pf p 8 0 16),
    (F_CAP_STORE_HI_TRANSITIONS, pf p 8 16 1), (F_CAP_FLUSH_RATE_GBPS, pf p 9 0 9), (F_CAP_HEARTBEAT_US, pf p 10 0 24),
    (F_CAP_STATUS_STATE, 1)]
  capSpans (s1.modCap (fun c => { c with saved := capCfgRegs.map (fun a => (a, s1.reg a)) }))

/-- CAP_CONFIG. -/
def execCapConfig (p : Packet) (s : State) : Out :=
  fcpStep { op := 0x40, pfOnly := true, valid := capConfigValid, allowed := fun _ s => !capRunning s,
            run := fun p s =>
              if s.on F_GLB_STATE_DRAM_READY then
                let r := capSiloPart (capTake p s) (pb p 2 0) false
                .final (capConfigReply r.1 r.2) r.1
              else .pend .capInit 0 0 ((capTake p s).modCap (fun c => { c with cfgPend := some (pb p 2 0) })) } p s

/-- DRAM_READY is set: the Silo part of a waiting CAP_CONFIG completes (R204). A configuration that turns out to reach
beyond the installed capacity ends with BAD_PARAM, and there is no Silo: DESIGN CHOICE (log entry 41). -/
def capDramReady (s0 : State) : State :=
  match s0.cap.cfgPend with
  | none => s0
  | some init =>
    let s := s0.modCap (fun c => { c with cfgPend := none })
    let pages := s.rd F_CAP_SILO_PAGES_PAGES
    if !capFits s (s.rd F_CAP_SILO_BASE_BASE) pages (s.rd F_CAP_META_BASE_BASE) (metaUnits pages (s.rd F_CAP_SEG_ENTRIES_LOG2)) then
      (capSpans (s.wr F_CAP_SILO_PAGES_PAGES 0)).wake .capInit 0 { st := .badParam }
    else
      let (s1, n) := capSiloPart s init true
      s1.wake .capInit 0 (capConfigReply s1 n)

/-- The CAP counters (CLEAR, CLR_COUNTERS). -/
def capCounters : List Fld := capArmCounters ++ [F_CAP_HELD_LOST_COUNT]

/-- CAP_STATUS; with INTAKE off its register dwords read 0 (Table 10.13, R20). -/
def execCapStatus (p : Packet) (s : State) : Out :=
  fcpStep { op := 0x41, contain := true,
            run := fun p s =>
              .final (if !s.domOn .intake then okR 0 0 0 0 else
                okR (statusReg s R_CAP_STATUS).toNat (s.rd F_CAP_GRANARY_SPAN_US) (s.rd F_CAP_SILO_SPAN_MS)
                (s.rd F_CAP_PINNED_PAGES)) (if pb p 2 0 then s.zeroFields capCounters else s) } p s

/-- A write of CAP_CTRL. -/
def capCtrlWrite (v : Nat) (s : State) : State :=
  let s1 := plainWrite s R_CAP_CTRL (capRunning s) F_CAP_STATUS_WRITE_REFUSED v
  if v.testBit 2 then s1.zeroFields capCounters else s1

/-- CAP_CLR_COUNTERS. -/
def execCapClrCounters (m : Nat) (v : Word) (s : State) : Out := .next (s.writeBy m R_CAP_CTRL (capCtrlWrite v.toNat))

/-- The pages of a stream in order of time. -/
def streamPages (s : State) (id : Nat) : List (Nat × Page) :=
  let l := s.cap.tbl.filter (fun x => x.2.valid && x.2.stream == id)
  l.foldl (fun acc x => (acc.takeWhile (fun y => decide (y.2.startTs ≤ x.2.startTs))) ++ [x]
    ++ acc.dropWhile (fun y => decide (y.2.startTs ≤ x.2.startTs))) []

/-- How many pages the writer takes before it reuses a page; none for a page outside every ring (R197). -/
def reuseIn (s : State) (p : Nat) : Option Nat :=
  (s.cap.streams.find? (fun c => c.pages.contains p)).map (fun c => c.pages.findIdx (· == p))

/-- G_s of a stream (R197). -/
def guardPages (s : State) (id : Nat) : Nat :=
  let rs := rateS s
  if rs = 0 then 1 else ((67108864 * streamRate s id / (rs * 2097152)).ceil).toNat + 1

/-- The page that holds a time, or the oldest after it. -/
def pageAtOrAfter (s : State) (id t : Nat) : Option Nat :=
  ((streamPages s id).find? (fun x => match x.2.endTs with | none => true | some e => decide (t < e))).map (fun x => x.1)

/-- The FIRST_TS of the page that is G_s pages from reuse, the oldest data where the ring is not yet full. -/
def oldestClaimable (s : State) (id : Nat) : Nat :=
  match (streamPages s id).find? (fun x => match reuseIn s x.1 with | none => false | some k => k ≥ guardPages s id) with
  | some x => x.2.firstTs
  | none => match streamPages s id with | [] => 0 | x :: _ => x.2.firstTs

/-- Whether a claim's start is retained on a stream (R197). -/
def retained (s : State) (id t0 : Nat) : Bool :=
  match streamPages s id with
  | [] => true
  | x :: _ =>
    decide (x.2.startTs ≤ t0) && (match pageAtOrAfter s id t0 with
      | none => true
      | some p => match reuseIn s p with | none => true | some k => decide (k ≥ guardPages s id))

/-- Whether a stream's pages leave part of [t0, t1) up to now without data (R198). -/
def noDataIn (s : State) (id t0 t1 : Nat) : Bool :=
  let lim := min t1 s.now
  let reach := (streamPages s id).foldl (fun (t : Nat) x =>
    if x.2.startTs ≤ t then max t (match x.2.endTs with | none => lim | some e => e) else t) t0
  decide (reach < lim)

/-- T0, T1 and the streams of a CLAIM. -/
def clT0 (p : Packet) : Nat := pTs p 2
def clT1 (p : Packet) : Nat := pTs p 5
def clStreams (p : Packet) : Nat := pq p 8 % 562949953421312
def clIds (p : Packet) : List Nat := maskStreams (clStreams p) (pf p 10 0 16)

/-- The pages that cover a CLAIM, and how many pins it would add now and later (R198). -/
def clCover (p : Packet) (s : State) : List Nat := coverPages s (clIds p) (clT0 p) (clT1 p)
def clExtra (p : Packet) (s : State) : Nat :=
  ((clCover p s).filter (fun q => (s.page q).pins == 0)).length + futurePages s (clIds p) (clT1 p)

/-- The claim that a CLAIM creates under a number (R198). -/
def clNew (p : Packet) (s : State) (id : Nat) : CapClaim :=
  { id := id, t0 := clT0 p, t1 := clT1 p, streams := clStreams p, resMask := pf p 10 0 16, ctx := pCtx p, state := 1,
    gapIn := s.cap.marks.any (fun m => m.2.1 == 4 && (clIds p).contains m.2.2 && decide (clT0 p ≤ m.1 ∧ m.1 < clT1 p)),
    noData := ((clIds p).filter (fun i => i != 0x31)).any (fun i => noDataIn s i (clT0 p) (clT1 p)), created := s.now,
    pages := clCover p s }

/-- Pin a claim's pages, write its entry and its marker (R198). -/
def clPlace (s : State) (c : CapClaim) : State :=
  let s1 := c.pages.foldl pinPage (s.modCap (fun k => { k with claims := k.claims ++ [c] }))
  capSpans (claimsClose (addMarker (s1.dramWrite (claimAddr s c.id) c.bytes) 0x0B c.t0 0xFF c.id (natBytes 12 c.t1)))

/-- NOT_RETAINED with the oldest time that a claim or a locate could have. -/
def notRetainedR (o : Nat) : Reply := { st := .notRetained, r0 := o, r1 := o / ns1, r2 := o / ns1 / ns1 }

/-- CLAIM. -/
def execClaimCmd (p : Packet) (s : State) : Out :=
  fcpStep { op := 0x42,
            valid := fun p s => decide (clT0 p < clT1 p) && decide (clT1 p ≤ s.now + 60000000000 * ns1)
              && (clStreams p != 0 || pf p 10 0 16 != 0),
            allowed := fun _ s => siloReady s,
            run := fun p s =>
              if !(clIds p).all (fun i => retained s i (clT0 p)) then
                .final (notRetainedR (((clIds p).map (oldestClaimable s)).foldl max 0)) s
              else
                match lowestFree (s.cap.claims.map (fun c => c.id)) 1 65535 with
                | none => .final { st := .noBudget } s
                | some id =>
                  if pinnedPages s + clExtra p s > pinCeiling s then
                    .final { st := .noBudget, r0 := pinCeiling s - pinnedPages s } s
                  else
                    let c := clNew p s id
                    .final (okR id c.pages.length (b2n c.noData + 2 * b2n c.gapIn) 0) (clPlace s c) } p s

/-- Release a claim: pages, entry, CLAIM_END (R199). Its second value is the pages unpinned. -/
def releaseClaim (s : State) (c : CapClaim) : State × Nat :=
  let s1 := (c.pages.foldl unpinPage s).modCap (fun k => { k with claims := k.claims.filter (fun x => x.id != c.id) })
  let s2 := addMarker (s1.dramWrite (claimAddr s c.id) (List.replicate 64 0)) 0x0C s.now 0xFF c.id (natBytes 12 c.t1)
  (capSpans s2, c.pages.length)

/-- Release a segment: its pages, or its frozen granules while it is held (R199). -/
def releaseSeg (s : State) (g : Seg) : State × Nat :=
  let g' := { g with released := true, pinned := false, queued := false }
  let s1 := thaw ((g.pages.foldl unpinPage s).modSeg (g.capture, g.no) (fun _ => g')) (g.capture, g.no)
  (capSpans (if siloReady s1 && g.stored then s1.dramWrite (segAddr s1 g.no) g'.bytes else s1), g.pages.length)

/-- The segment a packet names by SEG_NO and CAPTURE. -/
def segOf (s : State) (no cap : Nat) : Option Seg :=
  s.cap.segs.find? (fun (g : Seg) => g.stored && !g.released && g.no == no && g.capture == cap)

/-- Whether a context may act on what another context owns (R199). -/
def ownsOr (s : State) (c owner : Nat) : Bool := c == owner || s.ctxFunc c == 0

/-- The segment or the claim that a CLAIM_RELEASE names. -/
def relSeg (p : Packet) (s : State) : Option Seg := segOf s (pf p 3 0 24) (pf p 4 0 16)
def relClaim (p : Packet) (s : State) : Option CapClaim := s.cap.claims.find? (fun c => c.id == pf p 2 0 16)

/-- Every claim of the context is released; the second value counts the pages unpinned. -/
def relAll (p : Packet) (s : State) : State × Nat :=
  (s.cap.claims.filter (fun c => c.ctx == pCtx p)).foldl
    (fun (a : State × Nat) c => let r := releaseClaim a.1 c; (r.1, a.2 + r.2)) (s, 0)

/-- CLAIM_RELEASE. -/
def execClaimRelease (p : Packet) (s : State) : Out :=
  fcpStep { op := 0x43,
            valid := fun p s => pb p 2 17 || (if pb p 2 16 then (relSeg p s).isSome else (relClaim p s).isSome),
            allowed := fun p s =>
              if pb p 2 17 then siloReady s
              else if pb p 2 16 then
                (match relSeg p s with
                  | some g => ownsOr s (pCtx p) g.ctx && (siloReady s || g.queued)
                  | none => true)
              else (match relClaim p s with
                  | some c => ownsOr s (pCtx p) c.ctx && siloReady s
                  | none => true),
            run := fun p s =>
              if pb p 2 17 then .final (okR (relAll p s).2 0 0 0) (relAll p s).1
              else if pb p 2 16 then
                match relSeg p s with
                | some g => let r := releaseSeg s g; .final (okR r.2 0 0 0) r.1
                | none => fSt .badParam s
              else
                match relClaim p s with
                | some c => let r := releaseClaim s c; .final (okR r.2 0 0 0) r.1
                | none => fSt .badParam s } p s

/-- The Silo can be read: also in Containment, where MEMC stays as it was (R203, R206). -/
def siloReadable (s : State) : Bool :=
  (s.recording || s.err.contained) && s.domOn .memc && s.on F_GLB_STATE_DRAM_READY && s.rd F_CAP_SILO_PAGES_PAGES != 0

/-- The header of a segment: as it waits for the table, or, while DRAM can be read, as its entry has it; `bad` where the
entry's CHECK fails (R208). -/
inductive Header where
  | none
  | bad
  | found (bs : List Byte)
deriving DecidableEq, Repr

def segHeader (s : State) (no cap : Nat) : Header :=
  match s.cap.segs.find? (fun (g : Seg) => g.stored && g.no == no && g.capture == cap) with
  | some g => if siloReadable s && !s.cap.hdrq.contains (cap, no) then fromTable else .found g.bytes
  | none => if siloReadable s then fromTable else .none
where
  fromTable : Header :=
    let bs := s.dramRead (segAddr s no) 64
    if blank bs then .none
    else if !checkOk bs 64 then .bad
    else if (Seg.parse bs).no == no && (Seg.parse bs).capture == cap then .found bs else .none

/-- The headers that a SEG_INFO finds, from its first segment on. -/
def segHeaders (p : Packet) (s : State) : List (List Byte) :=
  (((List.range (pf p 3 16 13)).map (fun i => segHeader s (pf p 2 0 24 + i) (pf p 3 0 16))).map (fun h => match h with
    | .found bs => some bs
    | _ => none)).takeWhile (fun g => g.isSome) |>.filterMap id

/-- The entry it stops at, where that fails its CHECK. -/
def segHeaderBad (p : Packet) (s : State) (n : Nat) : List Nat :=
  if Nat.blt n (pf p 3 16 13) && segHeader s (pf p 2 0 24 + n) (pf p 3 0 16) == .bad then [segAddr s (pf p 2 0 24 + n)] else []

/-- SEG_INFO: the headers from a segment number on, up to the first not found. -/
def execSegInfo (p : Packet) (s : State) : Out :=
  fcpStep { op := 0x44, contain := true, allowed := fun _ s => s.domOn .intake, aligned := fun p _ => pq p 4 % 64 == 0,
            valid := fun p _ => decide (1 ≤ pf p 3 16 13 ∧ pf p 3 16 13 ≤ 4096),
            run := fun p s =>
              let hs := segHeaders p s
              .final (okR hs.length (pf p 2 0 24 + hs.length) 0 0)
                (metaCheck (s.hostWrite (pq p 4) hs.flatten) (segHeaderBad p s hs.length)) } p s

/-- The first item of a page at or after a time: its number and byte offset in the page. -/
def itemAfter (s : State) (pg : Nat) (x : Page) (t : Nat) : Option (Nat × Nat) :=
  let tm (n k0 i : Nat) : Nat :=
    if x.stream ≥ 48 then recTime s pg x i
    else if x.capture = s.rd F_CAP_CAPTURE_CAPTURE then itemTime s x.stream (k0 + i)
    else x.firstTs + ((x.endTs.getD x.firstTs) - x.firstTs) * i / max 1 n
  let isz := itemBytes s x.stream
  let n := (x.used * 64 - x.firstOfs) / isz
  let k0 := x.firstItem / itemIdx s x.stream
  ((List.range n).find? (fun i => decide (t ≤ tm n k0 i))).map
    (fun i => ((k0 + i) * itemIdx s x.stream, x.firstOfs + i * isz))

/-- The oldest time of a stream's pages. -/
def locOldest (s : State) (id : Nat) : Nat := match streamPages s id with | [] => s.now | x :: _ => x.2.firstTs

/-- Address and number of a stream's first item at or after a time. -/
def locHit (s : State) (id t : Nat) : Option (Nat × Nat) :=
  (streamPages s id).findSome? (fun x => (itemAfter s x.1 x.2 t).map (fun r => (pageAddr s x.1 + r.2, r.1)))

/-- SILO_LOCATE. -/
def execSiloLocate (p : Packet) (s : State) : Out :=
  fcpStep { op := 0x46, contain := true, allowed := fun _ s => s.domOn .intake,
            run := fun p s =>
              let id := pf p 2 0 7
              if (streamPages s id).isEmpty || pTs p 3 < locOldest s id then .final (notRetainedR (locOldest s id)) s
              else
                match locHit s id (pTs p 3) with
                | some h => .final (okR h.1 (h.1 / ns1) h.2 (h.2 / ns1)) s
                | none => .final (notRetainedR (locOldest s id)) s } p s

/-- CAP_REBUILD. -/
def execCapRebuild (p : Packet) (s : State) : Out :=
  fcpStep { op := 0x47, pfOnly := true, allowed := fun _ s => !capRunning s && siloReady s,
            run := fun _ s => let r := rebuild s false; .final (okR r.2.1 r.2.2.1 r.2.2.2.1 r.2.2.2.2) r.1 } p s

/-- CAP_AUTO_REBUILD: after a soft reset, once DRAM is ready, firmware restores CAP and rebuilds (R205). -/
def execCapAutoRebuild (s : State) : Out :=
  if capState s ≠ 0 || s.cap.saved.isEmpty || !s.on F_GLB_STATE_DRAM_READY || s.err.contained || !s.domOn .intake then .next s
  else .next (rebuild (s.cap.saved.foldl (fun t x => t.setReg x.1 x.2) s) true).1

end Sys2Proof.Machine
end

