-- ==== Sys2Proof/Machine/ConOps.lean ====
section
/-!
DEFINITION. Looking contracts up, and the checks that other chapters' commands make against them (R300, R309, R315).
-/

namespace Sys2Proof.Machine

def State.modCon (s : State) (g : Con → Con) : State := { s with con := g s.con }

/-- A field of a contract (Table 11.2), by the dword's number in the packet. -/
def Contract.f (c : Contract) (dw lo w : Nat) : Nat := bitsOf (c.dws.getD (dw - 2) 0).toNat lo w

/-- The contract of a context. -/
def contractOf (s : State) (ctx : Nat) : Option Contract := s.con.list.find? (fun c => c.ctx == ctx)

/-- The contracts in force, oldest first. -/
def activeCons (s : State) : List Contract := s.con.list.filter (fun c => !c.broken)

/-- Whether a context's contract is broken and not yet released (R315). -/
def conBroken (s : State) (ctx : Nat) : Bool :=
  match contractOf s ctx with
  | some c => c.broken
  | none => false

/-- A sum over the contracts in force. -/
def sumCon (s : State) (g : Contract → Nat) : Nat := ((activeCons s).map g).foldl (· + ·) 0

/-- The rate in MB/s that a result stream has by the contracts that name it (R309). -/
def resRate (s : State) (k : Nat) : Nat :=
  sumCon s (fun c => (if c.f 7 8 1 = 1 ∧ c.f 7 0 4 = k then c.f 8 0 16 else 0) + (if c.f 7 9 1 = 1 ∧ c.f 7 4 4 = k then c.f 8 16 16 else 0))

/-- Device firmware writes CAP_RESk_RATE (R309). -/
def setResRates (s : State) : State :=
  (List.range 16).foldl (fun t k => t.wr (F_CAP_RES_RATE_MBPS k) (resRate s k)) s

/-- Why TRIG_ARM of a context may not arm: a broken contract, or no contract that allows the rate (R309). -/
def armBudget (s : State) (ctx rate : Nat) : Option Reply :=
  match contractOf s ctx with
  | none => some { st := .noBudget, r0 := 1, r1 := rate }
  | some c =>
    if c.broken then some { st := .contractBroken }
    else if c.f 2 14 1 = 0 ∨ c.f 6 0 32 < rate then some { st := .noBudget, r0 := 1, r1 := rate }
    else none

end Sys2Proof.Machine
end

