-- ==== Sys2Proof/Machine/Mbx.lean ====
section
/-!
DEFINITION. The commands of the mailboxes, doorbells and locks (chapter 12).
-/

namespace Sys2Proof.Machine

/-! ### Locks -/

/-- A read of MBX_LOCKn_TRY: what it returns, and the lock after it. `direct` is false for a host read whose context lacks
DIRECT (R338). -/
def lockTry (s : State) (m n : Nat) (direct : Bool) : Nat × State :=
  if !direct then (0xFF, s)
  else if lockOwner s n = 0 then (0, setLock s n m)
  else (lockOwner s n, s)

/-- A write of MBX_LOCKn_TRY: 0 from the owner releases (R340). -/
def lockWrite (s : State) (m n : Nat) (v : Word) : State :=
  if v = 0 ∧ lockOwner s n = m then setLock s n 0 else s.bump F_MBX_LOCK_BAD_COUNT

/-- Whether a read by a master may acquire (R338). -/
def tryDirect (s : State) (m : Nat) : Bool := !isHost m || regCtxDirect s (m - 1)

/-- One access to a lock: `none` reads TRY, a word is written to it; the host's brings HOSTLINK out of retention (R31). -/
def lockAccess (s : State) (n : Nat) (x : Nat × Option Word) : State :=
  match x.2 with
  | none =>
    if s.blocked x.1 then { s with rdata := s.rdata ++ [(x.1, 0)] }
    else if isHost x.1 || mayReach x.1 (R_MBX_LOCK_TRY n) then
      let t := if isHost x.1 then hostAccess s else s
      let r := lockTry t x.1 n (tryDirect t x.1)
      { r.2 with rdata := r.2.rdata ++ [(x.1, BitVec.ofNat 32 r.1)] }
    else violation { s with rdata := s.rdata ++ [(x.1, 0)] } (regAddr (R_MBX_LOCK_TRY n)) x.1
  | some v => s.writeBy x.1 (R_MBX_LOCK_TRY n) (fun t => lockWrite t x.1 n v)

/-- An access put in its place in ascending master ID. -/
def insertMaster {β : Type} (x : Nat × β) : List (Nat × β) → List (Nat × β)
  | [] => [x]
  | y :: l => if x.1 ≤ y.1 then x :: y :: l else y :: insertMaster x l

/-- Accesses of one cycle in ascending master ID (R11). -/
def byMaster {β : Type} (l : List (Nat × β)) : List (Nat × β) := l.foldr insertMaster []

/-- LOCK_TRY_READ, with the other accesses that reach the lock in the same cycle (R338, R339). -/
def execLockTryRead (m n : Nat) (others : List (Nat × Option Word)) (s : State) : Out :=
  .next ((byMaster ((m, none) :: others)).foldl (fun t x => lockAccess t n x) { s with rdata := [] })

/-- LOCK_TRY_WRITE. -/
def execLockTryWrite (m n : Nat) (v : Word) (s : State) : Out := .next (lockAccess s n (m, some v))

/-- A write of MBX_LOCK_FORCE (R341). -/
def lockForceWrite (s : State) (m : Nat) (v : Word) : State :=
  if m = 1 ∨ (0x20 ≤ m ∧ m ≤ 0x23) then lockForce s 1 (v.toNat % 64) else s.bump F_MBX_LOCK_BAD_COUNT

/-- LOCK_FORCE_WRITE. -/
def execLockForceWrite (m : Nat) (v : Word) (s : State) : Out :=
  .next (s.writeBy m R_MBX_LOCK_FORCE (fun t => lockForceWrite t m v))

/-! ### Writes of a set's registers -/

/-- A write that R331 turns away. -/
def mbxDenied (s : State) (i : Nat) : State := s.bump (F_MBX_S_COUNTS_DENIED i)

/-- CFG, by side H (Table 12.6): VEC stays while IRQ_EN is 1 (R7), and a value beyond the function's table is ignored. -/
def mbxCfg (s : State) (i v : Nat) : State :=
  let vec := bitsOf v 16 11
  let run := s.on (F_MBX_S_CFG_IRQ_EN i)
  let old := s.rd (F_MBX_S_CFG_VEC i)
  let beyond := decide (vec ≥ (if i = 0 then 1024 else 64))
  let s1 := if beyond || vec == old then s
    else if run then s.wr F_MBX_STATUS_WRITE_REFUSED 1 else s.wr (F_MBX_S_CFG_VEC i) vec
  s1.wrs [(F_MBX_S_CFG_NOTIFY i, bitsOf v 1 1), (F_MBX_S_CFG_IRQ_EN i, bitsOf v 2 1)]

/-- Sticky flags cleared by ones. -/
def mbxStatusClear (s : State) (i v : Nat) : State :=
  (List.range 4).foldl (fun t k => if v.testBit (24 + k) then t.wr ⟨R_MBX_S_STATUS i, 24 + k, 1⟩ 0 else t) s

/-- The words of a staging with free values where nothing was written: R332 gives such a word no value. -/
def stagedMsg (s : State) : List (Option Nat) → Msg × State
  | [] => ([], s)
  | some w :: l => let r := stagedMsg s l; (w :: r.1, r.2)
  | none :: l =>
    let f := s.takeBits 32
    let r := stagedMsg f.2 l
    (f.1 :: r.1, r.2)

/-- A word is staged by a master of the side (R332); W3 pushes. -/
def mbxStage (s : State) (i : Nat) (inbound : Bool) (m j v : Nat) : State :=
  let x := s.mset i
  let old := if inbound then x.stIn else x.stOut
  let fresh : List (Option Nat) := List.replicate 4 none
  let clash := match old with | some g => g.owner != m | none => false
  let ws := match old with | some g => if g.owner = m then g.words else fresh | none => fresh
  let put (t : State) (g : Option Staging) : State := t.modSet i (fun y => if inbound then { y with stIn := g } else { y with stOut := g })
  let ws' := ws.set j (some v)
  let s1 := put (if clash then s.wr (F_MBX_S_STATUS_STAGE_CLASH i) 1 else s) (some { owner := m, words := ws' })
  if j < 3 then s1
  else
    let full := (if inbound then x.inb else x.outb).full
    let r := stagedMsg s1 ws'
    if full then mbxPush s1 i inbound [] else put (mbxPush r.2 i inbound r.1) none

/-- A write of a set's register at an offset (Table 12.5), by a master of side H or F. -/
def mbxSetWrite (s : State) (i o m : Nat) (v : Word) : State :=
  let h := sideH i m
  let f := sideF i m
  let n := v.toNat
  let by_ (ok : Bool) (t : State) : State := if ok then t else mbxDenied s i
  if !mbxEn s i then mbxDenied s i
  else if o = 0x00 then by_ h (mbxCfg s i n)
  else if o = 0x04 then by_ (h || f) (mbxStatusClear s i n)
  else if o = 0x14 then by_ h (dbRaise s i true (n / 4 * 4))
  else if o = 0x18 then by_ f (dbClear s i true n)
  else if o = 0x1C then by_ f (dbMaskPut s i true n)
  else if o = 0x24 then by_ f (dbRaise s i false (n / 4 * 4))
  else if o = 0x28 then by_ h (dbClear s i false n)
  else if o = 0x2C then by_ h (dbMaskPut s i false n)
  else if 0x30 ≤ o ∧ o < 0x40 then by_ h (mbxStage s i true m ((o - 0x30) / 4) n)
  else if 0x50 ≤ o ∧ o < 0x60 then by_ f (mbxStage s i false m ((o - 0x50) / 4) n)
  else if o = 0x70 then
    let bad := (n.testBit 0 && !f) || (n.testBit 1 && !h)
    let s1 := if n.testBit 0 && f then mbxPop s i true else s
    let s2 := if n.testBit 1 && h then mbxPop s1 i false else s1
    if bad then mbxDenied s2 i else s2
  else if o = 0x08 ∨ o = 0x10 ∨ o = 0x20 ∨ (0x40 ≤ o ∧ o < 0x50) ∨ (0x60 ≤ o ∧ o < 0x70) ∨ (0x80 ≤ o ∧ o < 0x90) then mbxDenied s i
  else s

/-- Every count of MBX. -/
def mbxCounts : List Fld :=
  [F_MBX_LOCK_BAD_COUNT, F_MBX_LOCK_FORCED_COUNT, F_MBX_CROSS_COUNT]
    ++ (List.range 32).flatMap (fun i => [F_MBX_S_COUNTS_REFUSED_IN i, F_MBX_S_COUNTS_REFUSED_OUT i, F_MBX_S_COUNTS_WITHDRAWN i,
      F_MBX_S_COUNTS_DENIED i])

/-- A write of a register of MBX by a master, at its BAR0 address (Table 12.5). -/
def mbxWrite (m a : Nat) (v : Word) (s : State) : State :=
  let o := a - 0x030000
  if o = 0 then (if v.toNat.testBit 0 then s.zeroFields mbxCounts else s)
  else if o = 4 then (if v.toNat.testBit 24 then s.wr F_MBX_STATUS_WRITE_REFUSED 0 else s)
  else if o = 8 then lockForceWrite s m v
  else if 0x100 ≤ o ∧ o < 0x200 then lockWrite s m ((o - 0x100) / 4) v
  else if 0x200 ≤ o ∧ o < 0x300 then (if v.toNat.testBit 8 then s.wr (F_MBX_LOCK_OWNER_FORCED ((o - 0x200) / 4)) 0 else s)
  else if 0x1000 ≤ o ∧ o < 0x3000 then mbxSetWrite s ((o - 0x1000) / 256) (o % 256) m v
  else s

/-- A write of an MBX register that reaches the block. -/
def mbxBy (m a : Nat) (v : Word) (s : State) : State := s.writeBy m a (mbxWrite m a v)

/-- MAILBOX_STAGE_WRITE: word `j` of a direction's staging. -/
def execMailboxStageWrite (m i : Nat) (inbound : Bool) (j : Nat) (v : Word) (s : State) : Out :=
  .next (mbxBy m (if inbound then R_MBX_S_IN_W i j else R_MBX_S_OUT_W i j) v s)

/-- Words written in one access that ends with W3. -/
def stageAccess (m i : Nat) (inbound : Bool) : Nat → List Word → State → State
  | _, [], s => s
  | j, w :: ws, s => stageAccess m i inbound (j + 1) ws (mbxBy m (if inbound then R_MBX_S_IN_W i j else R_MBX_S_OUT_W i j) w s)

/-- MAILBOX_PUSH: an access that writes W3, alone or with the words before it. -/
def execMailboxPush (m i : Nat) (inbound : Bool) (ws : List Word) (s : State) : Out :=
  .next (stageAccess m i inbound (4 - ws.length) ws s)

/-- MAILBOX_POP. -/
def execMailboxPop (m i : Nat) (v : Word) (s : State) : Out := .next (mbxBy m (R_MBX_S_POP i) v s)

/-- DOORBELL_SET. -/
def execDoorbellSet (m i : Nat) (toF : Bool) (v : Word) (s : State) : Out :=
  .next (mbxBy m (if toF then R_MBX_S_DB_F_SET i else R_MBX_S_DB_H_SET i) v s)

/-- DOORBELL_CLEAR. -/
def execDoorbellClear (m i : Nat) (toF : Bool) (v : Word) (s : State) : Out :=
  .next (mbxBy m (if toF then R_MBX_S_DB_F_CLR i else R_MBX_S_DB_H_CLR i) v s)

/-- DOORBELL_MASK_WRITE. -/
def execDoorbellMaskWrite (m i : Nat) (toF : Bool) (v : Word) (s : State) : Out :=
  .next (mbxBy m (if toF then R_MBX_S_DB_F_MASK i else R_MBX_S_DB_H_MASK i) v s)

/-- MBX_CLR_COUNTERS. -/
def execMbxClrCounters (m : Nat) (v : Word) (s : State) : Out := .next (mbxBy m R_MBX_CTRL v s)

/-! ### Device firmware on the service channel -/

/-- The answer to an inbound message (Table 12.3). -/
def serviceReply (s : State) (i : Nat) (w : Msg) : State :=
  let code := w.getD 0 0 % 256
  let echo := w.getD 0 0 / 256 % 256
  if code = 0x01 then mbxSend s i 0x81 echo [w.getD 1 0, w.getD 2 0, w.getD 3 0]
  else if code = 0x02 then
    mbxSend s i 0x82 echo [(s.reg R_GLB_STATE).toNat, ((s.up - s.clk.upBase) / 40) % 4294967296, (s.reg R_HIF_INFLIGHT).toNat]
  else mbxSend s i 0xFF echo [code, 0, 0]

/-- HOST_SERVICE_POP: device firmware pops an inbound message of set `i` and answers it, unless the backlog holds 16
(R335, R336). -/
def execHostServicePop (i : Nat) (s : State) : Out :=
  let x := s.mset i
  match (if i ≤ 16 then x.inb.head? else none) with
  | none => .next s
  | some w =>
    let s1 := mbxPop s i true
    .next (if x.backlog.length ≥ 16 then (s1.wr (F_MBX_S_STATUS_REFUSED_OUT i) 1).bump (F_MBX_S_COUNTS_REFUSED_OUT i)
      else serviceReply s1 i w)

/-- MAILBOX_CROSS: outbound has stayed full for 10 ms while WAITING (R337). -/
def execMailboxCross (i : Nat) (s : State) : Out :=
  match (s.mset i).fullAt, (s.mset i).outb.head? with
  | some t, some w =>
    if s.up < t + 10000000 then .next s
    else
      let s1 := (List.range 4).foldl (fun q j => q.wr (F_MBX_S_WDRAWN_W_WORD i j) (w.getD j 0)) s
      let s2 := ((s1.wr (F_MBX_S_STATUS_WITHDRAWN i) 1).bump (F_MBX_S_COUNTS_WITHDRAWN i)).bump F_MBX_CROSS_COUNT
      let s3 := (mbxPop s2 i false).raise 3 0x01 0 (resIndex i) 0
      .next (s3.postEvent i 0x0301 [i, w.getD 0 0, s3.rd (F_MBX_S_COUNTS_WITHDRAWN i)])
  | _, _ => .next s

end Sys2Proof.Machine
end

