-- ==== Sys2Proof/Machine/Space.lean ====
section
/-!
DEFINITION. The address spaces that DMA groups and compression engines work in (R23, R24, R28, R347): DRAM, on-chip SRAM, MBX
registers, host memory.
-/

namespace Sys2Proof.Machine

/-- Master ID of a channel's group (R346). -/
def grpMaster (c : Nat) : Nat := 0xC0 + c / 16

/-- Whether a range needs MEMC (R375). -/
def needsMem (space a : Nat) : Bool := space == 0 && decide (a < 0x040000000000)

/-! ### Engine local memory (Table 1.3) -/

/-- The engine in whose local memory an internal address lies. -/
def lmemEng (a : Nat) : Option Nat :=
  if 0x040000000000 ≤ a ∧ a < 0x040003000000 then some ((a - 0x040000000000) / 0x80000) else none

/-- Whether a byte of on-chip SRAM keeps what a DMA group writes to it: in the local memory of an engine in a powered barn that
hosts no chain. Where device firmware has placed a chain's buffers (Table 8.2), the manual does not say what an address holds. -/
def lmemQuiet (s : State) (a : Nat) : Bool :=
  match lmemEng a with
  | some n => s.dom (.barn (n / 8)) != 0 && !(s.eng.chains.any (fun c => c.eng == n))
  | none => false

/-- What stands at some addresses of on-chip SRAM is lost, or is no longer known. -/
def sramForget (s : State) (p : Nat → Bool) : State := { s with sram := s.sram.filter (fun c => !p c.1) }

/-- A write to on-chip SRAM. -/
def lmemWrite (s : State) (a : Nat) (bs : List Byte) : State :=
  { s with sram := sramWrite s.sram a (bs.mapIdx (fun i b => if lmemQuiet s (a + i) then some b else none)) }

/-- A read of `n` bytes of on-chip SRAM: what is known of them, else free values. -/
def lmemRead (s : State) (a n : Nat) : List Byte × State :=
  let r := s.takeWords (cdiv n 4)
  (((r.1.flatMap (natBytes 4)).take n).mapIdx (fun i b =>
    if lmemQuiet s (a + i) then (cellGet none s.sram (a + i)).getD b else b), r.2)

/-! ### MBX registers on the fabric -/

/-- Words read from MBX registers by a group: an MBX_LOCKn_TRY takes the lock (R338). -/
def mbxReadBy (s : State) (m a : Nat) : Nat → List Byte × State
  | 0 => ([], s)
  | n + 1 =>
    let x := a % 65536 / 4 * 4
    let r := if 0x100 ≤ x ∧ x < 0x200 then lockTry s m ((x - 0x100) / 4) true else ((s.reg (0x030000 + x)).toNat, s)
    let t := mbxReadBy r.2 m (a + 4) n
    (natBytes 4 r.1 ++ t.1, t.2)

/-- Words written to MBX registers by a group. -/
def mbxWriteBy (m a : Nat) : List (List Byte) → State → State
  | [], s => s
  | w :: ws, s => mbxWriteBy m (a + 4) ws (mbxBy m (0x030000 + a % 65536 / 4 * 4) (BitVec.ofNat 32 (leNat w)) s)

/-! ### Reads and writes -/

/-- Bytes with their poison that an internal read of a channel's group returns: DRAM (R402), MBX registers, on-chip SRAM. -/
def internalRead (s : State) (c a n : Nat) : List (Byte × Bool) × State :=
  if needsMem 0 a then
    ((List.range n).map (fun i => ((s.dramRead (a + i) 1).headD 0, s.dramPoison (a + i) 1)), s)
  else if a ≥ regAddr 0 then
    let r := mbxReadBy s (grpMaster c) a (cdiv (a % 4 + n) 4)
    (((r.1.drop (a % 4)).take n).map (fun b => (b, false)), r.2)
  else
    let r := lmemRead s a n
    (r.1.map (fun b => (b, false)), r.2)

/-- Poisoned bytes written to DRAM carry the poison on (R357, R402). -/
def poisonOn (s : State) (a : Nat) (bs : List (Byte × Bool)) : State :=
  if bs.all (fun b => !b.2) then s
  else
    let gs := (granSpan a bs.length).filter (fun g => bs.zipIdx.any (fun x => x.1.2 && (a + x.2) / 64 * 64 == g))
    { s with mem := { s.mem with poison := s.mem.poison ++ gs.filter (fun g => !s.mem.poison.contains g) } }

/-- Bytes that a channel's group writes in a space, under the group's master ID (R28). -/
def spaceWrite (s : State) (c space a : Nat) (bs : List (Byte × Bool)) : State :=
  let raw := bs.map (fun b => b.1)
  if space = 1 then s.hostWrite a raw
  else if needsMem 0 a then
    (if a + raw.length ≤ s.rd64 R_MEM_CAPACITY_LO R_MEM_CAPACITY_HI then poisonOn (s.dramWrite a raw) a bs else s)
  else if a ≥ regAddr 0 then mbxWriteBy (grpMaster c) a (chunksOf 4 raw.length raw) s
  else lmemWrite s a raw

/-- Sound bytes that a channel's group, or the compression engine that it feeds, writes in a space. -/
def putSpace (s : State) (c space addr : Nat) (bs : List Byte) : State := spaceWrite s c space addr (bs.map (fun b => (b, false)))

end Sys2Proof.Machine
end

