-- ==== Sys2Proof/Machine/DmaOps.lean ====
section
/-!
DEFINITION. The DMA and compression blocks' shared operations (chapter 13): channels, write-back, halts, output chutes,
token buckets, checksums, job bookkeeping.
-/

namespace Sys2Proof.Machine

def State.modDma (s : State) (g : Dma → Dma) : State := { s with dma := g s.dma }
def State.chan (s : State) (c : Nat) : Chan := s.dma.chans.getD c Chan.reset
def State.modChan (s : State) (c : Nat) (g : Chan → Chan) : State :=
  s.modDma (fun d => { d with chans := listMod d.chans c g })
def State.modXfer (s : State) (c : Nat) (g : Xfer → Xfer) : State :=
  s.modChan c (fun x => { x with xfer := x.xfer.map g })
def State.modCmp (s : State) (g : Cmp → Cmp) : State := { s with cmp := g s.cmp }

/-! ### Checksums (R356) -/

/-- One bit, and one byte, of a reflected CRC-32. -/
def crc32Bits (poly : Nat) : Nat → Nat → Nat
  | 0, c => c
  | n + 1, c => crc32Bits poly n (if c % 2 = 1 then (c / 2) ^^^ poly else c / 2)
def crc32Byte (poly c : Nat) (b : Byte) : Nat := crc32Bits poly 8 (c ^^^ b.toNat)

/-- The reflected polynomials of CRC-32C and CRC-32. -/
abbrev polyC : Nat := 0x82F63B78
abbrev poly32 : Nat := 0xEDB88320

/-- A CRC register carried over bytes. -/
def crc32Run (poly c : Nat) (bs : List Byte) : Nat := bs.foldl (crc32Byte poly) c

/-- The final checksum of a register. -/
def crc32End (c : Nat) : Nat := c ^^^ 0xFFFFFFFF

/-- CRC-32C of bytes. -/
def crc32c (bs : List Byte) : Nat := crc32End (crc32Run polyC 0xFFFFFFFF bs)

/-! ### Descriptors -/

/-- A descriptor from its 64 bytes (Table 13.1). -/
def DDesc.parse (b : List Byte) : DDesc :=
  { src := leNat (b.take 8), dst := leNat ((b.drop 8).take 8), len := leNat ((b.drop 16).take 4),
    ctrl := leNat ((b.drop 20).take 4), next := leNat ((b.drop 24).take 8), tag := leNat ((b.drop 32).take 4),
    pace := leNat ((b.drop 36).take 4), rsv := leNat ((b.drop 62).take 2) }

def DDesc.f (d : DDesc) (lo w : Nat) : Nat := bitsOf d.ctrl lo w
def DDesc.srcSpace (d : DDesc) : Nat := d.f 4 2
def DDesc.dstSpace (d : DDesc) : Nat := d.f 6 2
def DDesc.csum (d : DDesc) : Nat := d.f 14 2
def DDesc.append (d : DDesc) : Bool := d.f 16 1 == 1
def DDesc.cont (d : DDesc) : Bool := d.f 17 1 == 1

/-- Bytes of an access of a width code; 0 for stream. -/
def widthOf (w : Nat) : Nat := match w with | 1 => 4 | 2 => 8 | 3 => 64 | _ => 0

/-- A side whose address or LEN is not a multiple of its width, or FIXED with stream width (R352). -/
def sideBad (addr len w : Nat) (fixed : Bool) : Bool :=
  if w = 0 then fixed else addr % widthOf w != 0 || len % widthOf w != 0

/-- R352. -/
def DDesc.bad (d : DDesc) (head : Bool) : Bool :=
  d.srcSpace == 3 || d.dstSpace ≥ 2 || d.rsv != 0 || d.f 2 1 != 0 || d.f 20 4 != 0 || (head && d.csum == 3)
    || (d.f 1 1 == 1 && d.next % 64 != 0) || (d.srcSpace == 2 && d.f 1 1 == 1)
    || sideBad d.src d.len (d.f 8 2) (d.f 12 1 == 1) || sideBad d.dst d.len (d.f 10 2) (d.f 13 1 == 1)

/-- Whether the ranges of a descriptor overlap (R355), and whether it copies downwards. -/
def DDesc.overlaps (d : DDesc) : Bool :=
  d.srcSpace == d.dstSpace && d.srcSpace ≤ 1 && d.f 12 1 == 0 && d.f 13 1 == 0
    && decide (d.src < d.dst + d.len ∧ d.dst < d.src + d.len)
def DDesc.down (d : DDesc) : Bool := d.overlaps && decide (d.dst > d.src)

/-! ### Channels -/

/-- STATE of a channel. -/
def chState (s : State) (c : Nat) : Nat := s.rd (F_DMA_C_STATE_STATE c)

/-- Whether a channel runs in the sense of R7. -/
def chRunning (s : State) (c : Nat) : Bool := let x := chState s c; x == 2 || x == 3 || x == 4

/-- Set STATE; DMA_RUNNING and DMA_HALTED follow (Table 13.12). -/
def setChState (s : State) (c st : Nat) : State :=
  let s1 := s.wr (F_DMA_C_STATE_STATE c) st
  (s1.wr ⟨R_DMA_RUNNING (c / 32), c % 32, 1⟩ (b2n (st == 2 || st == 3 || st == 4))).wr
    ⟨R_DMA_HALTED (c / 32), c % 32, 1⟩ (b2n (st == 5))

/-- The context of a channel and the function it belongs to (R346). -/
def chCtx (s : State) (c : Nat) : Nat := s.rd (F_DMA_C_CFG_CONTEXT c)
def chFunc (s : State) (c : Nat) : Nat := s.ctxFunc (chCtx s c)

/-- Address of a ring slot. -/
def ringAddr (s : State) (c i : Nat) : Nat := s.rd64 (R_DMA_C_RING_LO c) (R_DMA_C_RING_HI c) + 64 * i
def ringSpace (s : State) (c : Nat) : Nat := s.rd (F_DMA_C_CFG_RING_SPACE c)

/-- The CTRL dword written back: OWN = 0 and the status (R351). -/
def backCtrl (x : Xfer) (st : Nat) (late : Bool) : Nat :=
  x.head.ctrl % 16777216 - x.head.ctrl % 2 + st * 16777216 + b2n late * 2147483648

/-- DONE_LEN: bytes delivered, or a packet's full length where it is longer than LEN (R363). -/
def Xfer.doneLen (x : Xfer) : Nat :=
  match x.emit, x.cur with | some e, some d => x.done + (e.bytes.length - d.len) | _, _ => x.done

/-- Bytes 40 to 63 written back. -/
def backTail (s : State) (x : Xfer) : List Byte :=
  let sum := if x.head.csum = 0 then 0 else crc32End x.crc
  natBytes 4 sum ++ natBytes 5 x.doneLen ++ natBytes 1 (min 255 x.retries) ++ natBytes 12 (x.wroteAt.getD s.now)

/-- Whether a transfer's time exceeds its contract's XFER (R362). -/
def xferLate (s : State) (c : Nat) (x : Xfer) : Bool :=
  match x.released, contractOf s (chCtx s c) with
  | some t, some k => decide (s.up - t > k.f 13 0 32 * 1000)
  | _, _ => false

/-- DMA_HALTED (R380). -/
def postHalted (s : State) (c cause index retries st : Nat) (wbFail : Bool) : State :=
  s.postEvent (chCtx s c) 0x0A02 [c + (cause <<< 8) + (b2n wbFail <<< 16), index, retries, st]

/-- A channel halts for a cause (R366, Table 13.4); `i` is the index of the transfer that makes it halt, where there is
one. -/
def chanHalt (s : State) (c cause retries st : Nat) (wbFail : Bool := false) (i : Option Nat := none) : State :=
  let s1 := (setChState s c 5).wrs [(F_DMA_C_STATE_CAUSE c, cause), (F_DMA_C_STATE_WB_FAIL c, b2n wbFail)]
  let s2 := s1.modChan c (fun x => { x with started := false, haltAfter := false })
  let s3 := postHalted s2 c cause (i.getD (s2.rd (F_DMA_C_STATE_INDEX c))) retries st wbFail
  s3.wake .dmaHalt c (okR (s3.rd (F_DMA_C_STATE_INDEX c)) 0 0 0)

/-- Counters of a finished transfer. -/
def xferCount (s : State) (c : Nat) (late : Bool) : State :=
  if late then s.bump (F_DMA_C_COUNTS_LATE c) else s

/-- The reply of a DMA_COPY (Table 13.10). -/
def copyReply (x : Xfer) (st : Nat) : Reply :=
  let code : Status := match st with
    | 0 => .ok
    | 4 => .poisoned
    | 2 => .hwError
    | 5 => .aborted
    | 8 => .contractBroken
    | _ => .badParam
  { st := code, r0 := x.done, r1 := x.done / 4294967296, r2 := if x.head.csum = 0 then 0 else crc32End x.crc,
    r3 := x.retries }

/-- The reply of a CLAIM_READ (Table 7.11). -/
def claimReply (i : ClaimInfo) (done st : Nat) : Reply :=
  let code : Status := match st with
    | 0 => if i.bad then .poisoned else .ok
    | 4 => .poisoned
    | 5 => .aborted
    | 8 => .contractBroken
    | _ => .hwError
  { st := code, r0 := i.first, r1 := i.first / 4294967296, r2 := done, r3 := b2n i.gap + 2 * b2n i.cut }

/-- The next ring index. -/
def nextIndex (s : State) (c i : Nat) : Nat :=
  if i + 1 ≥ s.rd (F_DMA_C_RING_SIZE_ENTRIES c) then 0 else i + 1

/-- The write-back of a ring transfer (R351), DMA_DONE, and the move to the next index. -/
def backWrite (s : State) (c i st : Nat) (x : Xfer) (late : Bool) : State :=
  let a := ringAddr s c i
  let sp := ringSpace s c
  let s2 := match x.emit with
    | some e => putSpace s c sp a (natBytes 2 e.chain ++ natBytes 2 e.tag ++ natBytes 4 e.seq)
    | none => s
  let s3 := putSpace (putSpace s2 c sp (a + 40) (backTail s x)) c sp (a + 20) (natBytes 4 (backCtrl x st late))
  let s4 := s3.wr (F_DMA_C_STATE_INDEX c) (nextIndex s c i)
  if x.head.f 3 1 = 1 then s4.postEvent (chCtx s c) 0x0A01 [c + (i <<< 16), x.head.tag, x.doneLen, st + 128 * b2n late]
  else s4

/-- A transfer ends with a status: write-back of a ring descriptor, its event, or its command's reply; the channel moves
on to the next index (R351). -/
def xferEnd (s : State) (c st : Nat) : State :=
  match (s.chan c).xfer with
  | none => s
  | some x =>
    let late := xferLate s c x
    let s0 := (xferCount s c late).wr (F_DMA_C_CSUM_VALUE c) (crc32End x.crc)
    let s1 := s0.modChan c (fun k => { k with xfer := none, crc := x.crc, completed := k.completed + 1 })
    match x.index with
    | none =>
      let t := setChState s1 c 1
      match x.cmd with
      | some (q, g) => match t.inflight? q g with
        | some cmd => t.finish cmd (match x.claim with | some i => claimReply i x.done st | none => copyReply x st)
        | none => t
      | none => t
    | some i => backWrite s1 c i st x late

/-- The transfer of a channel stops without write-back; it stays owned, and its head is the next descriptor the channel
executes (R349, R366). -/
def xferDrop (s : State) (c : Nat) : State :=
  s.modChan c (fun k =>
    match k.xfer with
    | none => k
    | some x =>
      match x.index with
      | none => { k with xfer := none }
      | some i => { k with owned := some x, xfer := none, ahead := (i, x.head) :: k.ahead })

/-- The command of a transfer outside the ring ends with a status (R366: such a transfer has no slot to stay in). -/
def endCopy (s : State) (c : Nat) (st : Status) : State :=
  match (s.chan c).xfer with
  | some x => match x.index, x.cmd with
    | none, some (q, g) => match s.inflight? q g with
      | some cmd => (s.modChan c (fun k => { k with xfer := none })).finish cmd { st := st }
      | none => s.modChan c (fun k => { k with xfer := none })
    | _, _ => s
  | none => s

/-- A channel halts at a burst boundary without write-back (LINK, CONTAINED, HOST with NOW). -/
def haltNow (s : State) (c cause : Nat) : State :=
  if chRunning s c || (chState s c == 1 && (s.chan c).started) then
    chanHalt (xferDrop (endCopy s c .aborted) c) c cause 0 0
  else s

/-- A channel is closed: its registers go back to reset (R346). -/
def chanClose (s : State) (c : Nat) : State :=
  let s1 := endCopy s c .aborted
  let regs := [R_DMA_C_CFG c, R_DMA_C_RING_LO c, R_DMA_C_RING_HI c, R_DMA_C_RING_SIZE c, R_DMA_C_CSUM c, R_DMA_C_PACE c,
    R_DMA_C_LAST_CTRL c, R_DMA_C_LAST_LEN_LO c, R_DMA_C_LAST_LEN_HI c, R_DMA_C_ERR_ADDR_LO c, R_DMA_C_ERR_ADDR_HI c,
    R_DMA_C_EMIT c, R_DMA_C_STATE c]
  let idx := s.rd (F_DMA_C_STATE_INDEX c)
  let n := (s1.chan c).completed
  let s2 := (setChState (s1.clearRegs regs) c 0).modChan c (fun _ => Chan.reset)
  (s2.wake .dmaHalt c (okR idx 0 0 0)).wake .dmaClose c (okR n 0 0 0)

/-- The channels of a context. -/
def chansOf (s : State) (ctx : Nat) : List Nat :=
  (List.range 128).filter (fun c => s.on (F_DMA_C_CFG_OPEN c) && chCtx s c == ctx)

/-! ### Engine output (R363) -/

/-- 64-byte entries of a packet. -/
def pktEntries (e : EmitPkt) : Nat := cdiv e.bytes.length 64

/-- A packet reaches a channel's output chute of 64 entries; one that is oversize or finds no room is discarded and
counted, and the first discard posts EMIT_LOST. -/
def emitPush (s : State) (c : Nat) (e : EmitPkt) : State :=
  let used := ((s.chan c).emits.map pktEntries).foldl (· + ·) 0
  if e.bytes.length > 4096 ∨ used + pktEntries e > 64 then
    let s1 := s.bump (F_DMA_C_EMIT_LOST c)
    if (s.chan c).emitTold then s1
    else
      ((s1.modChan c (fun k => { k with emitTold := true })).raise 10 0x06 0 (resIndex c) 0).postEvent (chCtx s c) 0x0A03
        [c, e.chain, s1.rd (F_DMA_C_EMIT_LOST c)]
  else
    (s.modChan c (fun k => { k with emits := k.emits ++ [e] })).wr (F_DMA_C_EMIT_PACKETS c) ((s.chan c).emits.length + 1)

/-- A pacing credit for each open channel of a context whose waiting transfer or a later one may use it (R360). -/
def paceCredit (s : State) (test : Nat → Bool) : State :=
  ((List.range 128).filter test).foldl (fun t c => t.bump (F_DMA_C_PACE_CREDIT c)) s

/-- The source of the events that a channel's head descriptor names: the low byte of PACE_PARAM, and the map. -/
def paceSource (s : State) (c : Nat) : Option (Nat × Nat) :=
  let h := match (s.chan c).xfer with
    | some x => some x.head
    | none => ((s.chan c).ahead.head?).map (fun (p : Nat × DDesc) => p.2)
  match h with
  | some d => if d.f 18 2 % 2 = 1 then some (d.pace % 256, bitsOf d.pace 8 4) else none
  | none => none

/-- A segment of a capture armed by a context is handed off (R360). -/
def paceSegment (s : State) (ctx : Nat) : State :=
  paceCredit s (fun c => s.on (F_DMA_C_CFG_OPEN c) && chCtx s c == ctx
    && (match paceSource s c with | some (1, _) => true | _ => false))

/-- An epoch of a map becomes final (R360). -/
def paceEpoch (s : State) (m : Nat) : State :=
  paceCredit s (fun c => s.on (F_DMA_C_CFG_OPEN c)
    && (match paceSource s c with | some (2, k) => k == m | _ => false))

/-! ### Envelope (R361) -/

/-- Depth of a bucket in 1/1000 byte at a rate in MB/s. -/
def bucketDepth (rate : Nat) : Nat := max 65536 (rate * 100) * 1000

/-- A context's buckets now. -/
def bucketNow (s : State) (ctx : Nat) : Bucket :=
  let (d, h) := match contractOf s ctx with
    | some k => (k.f 10 0 32, k.f 11 0 32)
    | none => (0, 0)
  match s.dma.buckets.find? (fun b => b.ctx == ctx) with
  | none => { ctx := ctx, d2h := bucketDepth d, h2d := bucketDepth h, at_ := s.up }
  | some b =>
    { ctx := ctx, d2h := min (bucketDepth d) (b.d2h + d * (s.up - b.at_)),
      h2d := min (bucketDepth h) (b.h2d + h * (s.up - b.at_)), at_ := s.up }

/-- Take tokens. -/
def bucketTake (s : State) (ctx d2h h2d : Nat) : State :=
  let b := bucketNow s ctx
  let b' := { b with d2h := b.d2h - 1000 * d2h, h2d := b.h2d - 1000 * h2d }
  s.modDma (fun d => { d with buckets := d.buckets.filter (fun x => x.ctx != ctx) ++ [b'] })

/-! ### Compression bookkeeping -/

/-- CMP_STATUS, CMP_SUSPENDED and the engines' registers follow the jobs (Table 13.13). -/
def cmpRefresh (s : State) : State :=
  let at_ (e : Nat) : Option CmpJob := s.cmp.jobs.find? (fun j => j.engine == some e)
  let busy := (List.range 8).foldl (fun v e => if (at_ e).isSome then v + 2 ^ e else v) 0
  let susp := (s.cmp.jobs.filter (fun j => j.state ≥ 2)).length
  let s1 := (s.wr F_CMP_STATUS_BUSY busy).wr F_CMP_SUSPENDED_JOBS susp
  (List.range 8).foldl (fun t e =>
    let out := (t.rd F_CMP_STATUS_AVAIL >>> e) % 2 == 0
    match at_ e with
    | none => t.wrs [(F_CMP_E_STATUS_STATE e, if out then 3 else 0), (F_CMP_E_STATUS_JOB_ID e, 0), (F_CMP_E_STATUS_CONTEXT e, 0)]
    | some j => t.wrs [(F_CMP_E_STATUS_STATE e, if out then 3 else if j.state = 2 then 2 else 1),
        (F_CMP_E_STATUS_JOB_ID e, j.id), (F_CMP_E_STATUS_CONTEXT e, j.ctx)]) s1

/-- Change a job. -/
def State.modJob (s : State) (id : Nat) (g : CmpJob → CmpJob) : State :=
  s.modCmp (fun c => { c with jobs := c.jobs.map (fun j => if j.id = id then g j else j) })

/-- A job leaves, and its command, if it has one in flight, gets its reply. -/
def jobLeave (s : State) (j : CmpJob) (r : Reply) : State :=
  let s1 := cmpRefresh (s.modCmp (fun c => { c with jobs := c.jobs.filter (fun x => x.id != j.id) }))
  match j.cmd with
  | some (q, t) => match s1.inflight? q t with
    | some cmd => s1.finish cmd r
    | none => s1
  | none => s1

/-- The result dwords of a job (Table 13.11). -/
def jobReply (j : CmpJob) (st : Status) (eng : Nat) (susp endSeen : Bool) (reason : Nat) : Reply :=
  let chk := if j.st.framing = 1 then j.st.adler else crc32End j.st.crc
  match j.claim with
  | some i => claimReply { i with bad := i.bad || st == .poisoned } j.outN
      (match st with | .ok | .poisoned => 0 | .aborted => 5 | .contractBroken => 8 | _ => 2)
  | none =>
    { st := st, r0 := j.inN, r1 := j.outN,
      r2 := j.id + (eng <<< 16) + (b2n susp <<< 24) + (b2n endSeen <<< 25) + (reason <<< 28), r3 := chk }

/-- Every job and stream of a context ends with a status; its suspended jobs and streams are discarded (R378). -/
def cmpDrop (s : State) (ctx : Nat) (st : Status) : State :=
  let s1 := (s.cmp.jobs.filter (fun j => j.ctx == ctx)).foldl (fun t j => jobLeave t j { st := st }) s
  s1.modCmp (fun c => { c with streams := c.streams.filter (fun x => x.ctx != ctx) })

/-- A contract is broken: transfers end with CONTRACT, channels halt, jobs end (R378). -/
def dmaBreak (s : State) (ctx : Nat) : State :=
  let s1 := (chansOf s ctx).foldl (fun t c =>
    let x := (t.chan c).xfer
    chanHalt (xferEnd t c 8) c 6 (match x with | some y => y.retries | none => 0) 8 false (x.bind (fun y => y.index))) s
  cmpDrop s1 ctx .contractBroken

/-- The channels, jobs and streams of a context close (R376). -/
def dmaCloseCtx (s : State) (ctx : Nat) : State := cmpDrop ((chansOf s ctx).foldl chanClose s) ctx .aborted

end Sys2Proof.Machine
end

