-- ==== Sys2Proof/Machine/Deflate.lean ====
section
/-!
DEFINITION. The compressed format (R367 to R369): stored blocks, framing and check values, and decompression of a stream
as RFC 1951, RFC 1950 and RFC 1952 define it.
-/

namespace Sys2Proof.Machine

/-! ### Check values -/

/-- Adler-32 carried over bytes. -/
def adlerRun (a : Nat) (bs : List Byte) : Nat :=
  let r := bs.foldl (fun (x : Nat × Nat) b => ((x.1 + b.toNat) % 65521, (x.2 + x.1 + b.toNat) % 65521)) (a % 65536, a / 65536)
  r.1 + 65536 * r.2

/-- A number in big-endian bytes. -/
def beBytes (n v : Nat) : List Byte := (natBytes n v).reverse

/-! ### Writing bits -/

/-- The bits of a byte, lowest first. -/
def byteBits (b : Byte) : List Bool := (List.range 8).map (fun i => b.toNat.testBit i)

/-- Whole bytes of a bit string, and the bits left. -/
def packBits : Nat → List Bool → List Byte × List Bool
  | 0, bs => ([], bs)
  | n + 1, bs =>
    if bs.length < 8 then ([], bs)
    else
      let r := packBits n (bs.drop 8)
      (BitVec.ofNat 8 ((bs.take 8).foldr (fun b v => b2n b + 2 * v) 0) :: r.1, r.2)

/-- Bits added to a stream: the bytes that are whole. -/
def CmpState.put (st : CmpState) (bs : List Bool) : List Byte × CmpState :=
  let all := st.bits ++ bs
  let r := packBits (all.length / 8) all
  (r.1, { st with bits := r.2 })

/-- Zeros up to the next byte. -/
def padBits (n : Nat) : List Bool := List.replicate ((8 - n % 8) % 8) false

/-- A stored block: its three header bits, padding, LEN, NLEN and the bytes. -/
def CmpState.stored (st : CmpState) (bs : List Byte) (final : Bool) : List Byte × CmpState :=
  let n := bs.length
  st.put ([final, false, false] ++ padBits (st.bits.length + 3) ++ (natBytes 2 n ++ natBytes 2 (65535 - n) ++ bs).flatMap byteBits)

/-- A stored block holds at most 65 535 bytes, so a block at EFFORT 0 closes there; the others at 64 KiB (R367). -/
def blockSize (effort : Nat) : Nat := if effort = 0 then 65535 else 65536

/-- The header of a framing (Table 13.5). -/
def frameHead (framing effort : Nat) : List Byte :=
  match framing with
  | 1 => natBytes 2 (0x78 + 256 * (match effort with | 0 => 0x01 | 1 => 0x5E | 2 => 0x9C | _ => 0xDA))
  | 2 => natBytes 4 0x00088B1F ++ natBytes 4 0 ++ natBytes 2 ((match effort with | 1 => 4 | 3 => 2 | _ => 0) + 256 * 0xFF)
  | _ => []

/-- The trailer of a framing (Table 13.5). -/
def frameTail (st : CmpState) : List Byte :=
  match st.framing with
  | 1 => beBytes 4 st.adler
  | 2 => natBytes 4 (crc32End st.crc) ++ natBytes 4 st.size
  | _ => []

/-- The check registers take uncompressed bytes. -/
def CmpState.check (st : CmpState) (bs : List Byte) : CmpState :=
  { st with crc := crc32Run poly32 st.crc bs, adler := adlerRun st.adler bs, size := st.size + bs.length }

/-! ### Reading a stream -/

/-- Why reading stops: no more input, or a fault of Table 13.6. -/
inductive InfErr where
  | more
  | bad (reason : Nat)
deriving DecidableEq, Repr

/-- A position in the input, in bits, and the output so far; the block being read (Table 13.7), whether it is the final
one, bytes left of a stored block, the last match's distance. -/
structure Inf where
  p : Nat
  out : Array Byte
  blk : Nat
  final : Bool
  left : Nat
  dist : Nat
  ended : Bool

/-- `n` bits, lowest first. -/
def getBits (d : Array Byte) (p n : Nat) : Except InfErr Nat :=
  if p + n > 8 * d.size then .error .more
  else .ok ((List.range n).foldl (fun v i => v + (if (d.getD ((p + i) / 8) 0).toNat.testBit ((p + i) % 8) then 2 ^ i else 0)) 0)

/-- A byte at a byte position. -/
def getByte (d : Array Byte) (i : Nat) : Except InfErr Nat := if i < d.size then .ok (d.getD i 0).toNat else .error .more

/-- A canonical code: how many codes of each length 0 to 15, and the symbols in code order. -/
structure Huff where
  counts : List Nat
  syms : List Nat

/-- A code from its lengths, symbol by symbol. -/
def Huff.make (ls : List Nat) : Huff :=
  { counts := (List.range 16).map (fun l => if l = 0 then 0 else (ls.filter (fun x => x == l)).length),
    syms := (List.range 15).flatMap (fun l => (ls.zipIdx.filter (fun x => x.1 == l + 1)).map (fun x => x.2)) }

/-- What a code leaves of the code space; none when it takes too much. -/
def Huff.slack (h : Huff) : Option Nat :=
  h.counts.tail.foldl (fun (a : Option Nat) n => match a with
    | none => none
    | some v => if 2 * v < n then none else some (2 * v - n)) (some 1)

/-- Decode one symbol: the symbol and the new position. -/
def Huff.sym (h : Huff) (d : Array Byte) : Nat → Nat → Nat → Nat → Nat → Nat → Except InfErr (Nat × Nat)
  | 0, _, _, _, _, _ => .error (.bad 3)
  | n + 1, len, p, code, first, index =>
    match getBits d p 1 with
    | .error e => .error e
    | .ok b =>
      let code := code + b
      let k := h.counts.getD len 0
      if code < first + k then .ok (h.syms.getD (index + (code - first)) 0, p + 1)
      else Huff.sym h d n (len + 1) (p + 1) (2 * code) (2 * (first + k)) (index + k)

def Huff.get (h : Huff) (d : Array Byte) (p : Nat) : Except InfErr (Nat × Nat) := h.sym d 15 1 p 0 0 0

/-- Base and extra bits of the length symbols from 257 on, and of the distance symbols. -/
def lenTable : List (Nat × Nat) :=
  [(3,0),(4,0),(5,0),(6,0),(7,0),(8,0),(9,0),(10,0),(11,1),(13,1),(15,1),(17,1),(19,2),(23,2),(27,2),(31,2),(35,3),(43,3),
   (51,3),(59,3),(67,4),(83,4),(99,4),(115,4),(131,5),(163,5),(195,5),(227,5),(258,0)]
def distTable : List (Nat × Nat) :=
  [(1,0),(2,0),(3,0),(4,0),(5,1),(7,1),(9,2),(13,2),(17,3),(25,3),(33,4),(49,4),(65,5),(97,5),(129,6),(193,6),(257,7),(385,7),
   (513,8),(769,8),(1025,9),(1537,9),(2049,10),(3073,10),(4097,11),(6145,11),(8193,12),(12289,12),(16385,13),(24577,13)]

/-- The fixed codes. -/
def fixedLit : Huff := Huff.make (List.replicate 144 8 ++ List.replicate 112 9 ++ List.replicate 24 7 ++ List.replicate 8 8)
def fixedDist : Huff := Huff.make (List.replicate 30 5)

/-- Copy of a match. -/
def copyMatch (dist : Nat) : Nat → Array Byte → Array Byte
  | 0, o => o
  | n + 1, o => copyMatch dist n (o.push (o.getD (o.size - dist) 0))

/-- The symbols of a coded block up to its end or until the output reaches a limit; a symbol that the input does not hold
whole leaves the state before it. The second value says whether the block has ended, the third why reading stopped. -/
def infSyms (d : Array Byte) (lit dst : Huff) (limit : Nat) : Nat → Inf → Inf × Bool × Option InfErr
  | 0, s => (s, false, some .more)
  | n + 1, s =>
    if s.out.size ≥ limit then (s, false, none)
    else
      match lit.get d s.p with
      | .error e => (s, false, some e)
      | .ok (x, p) =>
        if x < 256 then infSyms d lit dst limit n { s with p := p, out := s.out.push (BitVec.ofNat 8 x), dist := 0 }
        else if x = 256 then ({ s with p := p }, true, none)
        else if x > 285 then (s, false, some (.bad 3))
        else
          let (base, ex) := lenTable.getD (x - 257) (0, 0)
          match getBits d p ex with
          | .error e => (s, false, some e)
          | .ok e1 =>
            match dst.get d (p + ex) with
            | .error e => (s, false, some e)
            | .ok (y, p2) =>
              if y > 29 then (s, false, some (.bad 3))
              else
                let (db, dx) := distTable.getD y (0, 0)
                match getBits d p2 dx with
                | .error e => (s, false, some e)
                | .ok e2 =>
                  if db + e2 > s.out.size ∨ db + e2 > 32768 then (s, false, some (.bad 4))
                  else infSyms d lit dst limit n { s with
                    p := p2 + dx, out := copyMatch (db + e2) (base + e1) s.out, dist := db + e2 }

/-- The code lengths of a dynamic block, run by run. -/
def infLens (d : Array Byte) (h : Huff) (total : Nat) : Nat → Nat → List Nat → Except InfErr (List Nat × Nat)
  | 0, _, _ => .error (.bad 3)
  | n + 1, p, ls =>
    if ls.length = total then .ok (ls, p)
    else if ls.length > total then .error (.bad 3)
    else
      match h.get d p with
      | .error e => .error e
      | .ok (x, p1) =>
        if x < 16 then infLens d h total n p1 (ls ++ [x])
        else
          let ex := if x = 16 then 2 else if x = 17 then 3 else 7
          match getBits d p1 ex with
          | .error e => .error e
          | .ok k =>
            if x = 16 then
              match ls.getLast? with
              | none => .error (.bad 3)
              | some v => infLens d h total n (p1 + ex) (ls ++ List.replicate (3 + k) v)
            else infLens d h total n (p1 + ex) (ls ++ List.replicate ((if x = 17 then 3 else 11) + k) 0)

/-- Whether a code may be used: it takes the whole code space, or, as a distance code, holds at most one code. -/
def Huff.ok (h : Huff) (dst : Bool) : Bool :=
  match h.slack with
  | none => false
  | some 0 => true
  | some _ => dst && h.syms.length ≤ 1

/-- The codes of a dynamic block, and where its symbols begin. -/
def infTables (d : Array Byte) (p : Nat) : Except InfErr (Huff × Huff × Nat) := do
  let hl ← getBits d p 5
  let hd ← getBits d (p + 5) 5
  let hc ← getBits d (p + 10) 4
  let cl ← (List.range (hc + 4)).mapM (fun i => getBits d (p + 14 + 3 * i) 3)
  let order := [16, 17, 18, 0, 8, 7, 9, 6, 10, 5, 11, 4, 12, 3, 13, 2, 14, 1, 15]
  let ch := Huff.make ((List.range 19).map (fun i => cl.getD (order.idxOf i) 0))
  if !ch.ok false then .error (.bad 3)
  else
    let (ls, p1) ← infLens d ch (hl + 257 + hd + 1) 400 (p + 14 + 3 * (hc + 4)) []
    let lit := Huff.make (ls.take (hl + 257))
    let dst := Huff.make (ls.drop (hl + 257))
    if hl > 29 || hd > 29 || !lit.ok false || !dst.ok true || ls.getD 256 0 = 0 then .error (.bad 3)
    else .ok (lit, dst, p1)

/-- Bytes of a stored block, as far as input and limit go. -/
def infStored (d : Array Byte) (limit : Nat) : Nat → Inf → Inf × Option InfErr
  | 0, s => (s, none)
  | n + 1, s =>
    if s.left = 0 ∨ s.out.size ≥ limit then (s, none)
    else
      match getByte d (s.p / 8) with
      | .error e => (s, some e)
      | .ok b => infStored d limit n { s with p := s.p + 8, out := s.out.push (BitVec.ofNat 8 b), left := s.left - 1 }

/-- Blocks, until the final one has ended, the output has reached a limit, or reading stops. -/
def infBlocks (d : Array Byte) (limit : Nat) : Nat → Inf → Inf × Option InfErr
  | 0, s => (s, some .more)
  | n + 1, s =>
    if s.out.size ≥ limit then (s, none)
    else
      match getBits d s.p 3 with
      | .error e => (s, some e)
      | .ok h =>
        let fin := h % 2 == 1
        let next (r : Inf) : Inf × Option InfErr := if fin then ({ r with ended := true, blk := 0 }, none) else infBlocks d limit n { r with blk := 0 }
        match h / 2 with
        | 0 =>
          let q := (s.p + 3 + 7) / 8
          match getBits d (8 * q) 32 with
          | .error e => (s, some e)
          | .ok v =>
            if v % 65536 + v / 65536 ≠ 65535 then (s, some (.bad 6))
            else
              let r := infStored d limit (v % 65536) { s with p := 8 * q + 32, blk := 1, final := fin, left := v % 65536 }
              if r.2.isSome || r.1.left ≠ 0 then r else next r.1
        | 1 =>
          let r := infSyms d fixedLit fixedDist limit (8 * d.size + 1) { s with p := s.p + 3, blk := 2, final := fin }
          if r.2.1 then next r.1 else (r.1, r.2.2)
        | 2 =>
          match infTables d (s.p + 3) with
          | .error e => (s, some e)
          | .ok (lit, dst, p) =>
            let r := infSyms d lit dst limit (8 * d.size + 1) { s with p := p, blk := 3, final := fin }
            if r.2.1 then next r.1 else (r.1, r.2.2)
        | _ => (s, some (.bad 2))

/-- The place after the next zero byte. -/
def skipZero (d : Array Byte) : Nat → Nat → Except InfErr Nat
  | 0, _ => .error .more
  | n + 1, i => do
    let b ← getByte d i
    if b = 0 then .ok (i + 1) else skipZero d n (i + 1)

/-- The header of a framing: where the blocks begin, in bytes (R369). -/
def infHead (framing : Nat) (d : Array Byte) : Except InfErr Nat :=
  match framing with
  | 1 => do
    let c ← getByte d 0
    let f ← getByte d 1
    if c % 16 ≠ 8 ∨ c / 16 > 7 ∨ (c * 256 + f) % 31 ≠ 0 ∨ f / 32 % 2 = 1 then .error (.bad 1) else .ok 2
  | 2 => do
    let a ← getByte d 0
    let b ← getByte d 1
    let c ← getByte d 2
    let f ← getByte d 3
    if a ≠ 0x1F ∨ b ≠ 0x8B ∨ c ≠ 8 ∨ f ≥ 32 then .error (.bad 1)
    else
      let _ ← getByte d 9
      let i1 ← if f.testBit 2 then do
          let lo ← getByte d 10
          let hi ← getByte d 11
          .ok (12 + lo + 256 * hi)
        else .ok 10
      let i2 ← if f.testBit 3 then skipZero d (d.size + 1) i1 else .ok i1
      let i3 ← if f.testBit 4 then skipZero d (d.size + 1) i2 else .ok i2
      if f.testBit 1 then do
        let lo ← getByte d i3
        let hi ← getByte d (i3 + 1)
        if crc32End (crc32Run poly32 0xFFFFFFFF (d.toList.take i3)) % 65536 ≠ lo + 256 * hi then .error (.bad 1) else .ok (i3 + 2)
      else .ok i3
  | _ => .ok 0

/-- The trailer of a framing, from a byte on: where the stream ends (R369). -/
def infTail (framing : Nat) (d : Array Byte) (i : Nat) (out : List Byte) : Except InfErr Nat :=
  match framing with
  | 1 => do
    let v ← getBits d (8 * i) 32
    if natBytes 4 v ≠ beBytes 4 (adlerRun 1 out) then .error (.bad 5) else .ok (i + 4)
  | 2 => do
    let v ← getBits d (8 * i) 32
    let z ← getBits d (8 * i + 32) 32
    if v ≠ crc32End (crc32Run poly32 0xFFFFFFFF out) then .error (.bad 5)
    else if z ≠ out.length % 4294967296 then .error (.bad 6)
    else .ok (i + 8)
  | _ => .ok i

/-- What reading a stream up to an output limit gives: output, bytes used, whether the stream ended, the fault, and where
it stands in a block. -/
structure InfRes where
  out : List Byte
  used : Nat
  ended : Bool
  fault : Option Nat
  state : Inf

/-- Read a stream from its first byte, until its end, a fault, the end of the input or an output limit. -/
def inflate (framing : Nat) (inp : List Byte) (limit : Nat) : InfRes :=
  let d := inp.toArray
  let s0 : Inf := { p := 0, out := #[], blk := 0, final := false, left := 0, dist := 0, ended := false }
  let stop (s : Inf) (e : Option InfErr) : InfRes :=
    { out := s.out.toList, used := (s.p + 7) / 8, ended := false,
      fault := match e with | some (.bad k) => some k | _ => none, state := s }
  match infHead framing d with
  | .error e => stop s0 (some e)
  | .ok i =>
    let r := infBlocks d limit (8 * d.size + 1) { s0 with p := 8 * i }
    if !r.1.ended then stop r.1 r.2
    else
      match infTail framing d ((r.1.p + 7) / 8) r.1.out.toList with
      | .error e => stop r.1 (some e)
      | .ok j => { out := r.1.out.toList, used := j, ended := true, fault := none, state := r.1 }

/-! ### Compressing -/

/-- The bits of a Huffman code, first bit first. -/
def codeBits (n v : Nat) : List Bool := (List.range n).map (fun i => v.testBit (n - 1 - i))

/-- A block of literals in the fixed codes (RFC 1951). -/
def fixedBlock (bs : List Byte) (final : Bool) : List Bool :=
  [final, true, false] ++ bs.flatMap (fun b => if b.toNat < 144 then codeBits 8 (0x30 + b.toNat) else codeBits 9 (0x190 + (b.toNat - 144)))
    ++ codeBits 7 0

/-- Whether bits that follow others of a stream are blocks of the compressed format that give some bytes back after a history. -/
def blockGives (ofs : List Bool) (hist bs : List Byte) (final : Bool) (c : List Bool) : Bool :=
  let all := ofs ++ c
  let d := (packBits (all.length / 8 + 1) (all ++ padBits all.length)).1.toArray
  let s0 : Inf := { p := ofs.length, out := hist.toArray, blk := 0, final := false, left := 0, dist := 0, ended := false }
  let r := (infBlocks d (hist.length + bs.length + 1) (8 * d.size + 1) s0).1
  r.p == all.length && r.out.toList == hist ++ bs && r.ended == final

/-- The coded form of a block at EFFORT 1 to 3: whichever coding is shortest, which the manual does not print and which gives the
block back (R367). -/
def codedBlock (ofs : List Bool) (effort : Nat) (hist bs : List Byte) (final : Bool) : List Bool :=
  let c := Config.deflateBits ofs.length effort hist bs final
  if blockGives ofs hist bs final c then c else fixedBlock bs final

/-- The last 32 KiB of two byte strings. -/
def window (a b : List Byte) : List Byte := let c := a ++ b; c.drop (c.length - 32768)

/-- One block of input compressed: header first, trailer after the final block; `flush` ends a part before END with an
empty stored block (R368, R370). -/
def CmpState.deflate (st : CmpState) (bs : List Byte) (final flush : Bool) : List Byte × CmpState :=
  let head := if st.begun then [] else frameHead st.framing st.effort
  let st1 := { (st.check bs) with begun := true, inTotal := st.inTotal + bs.length, inp := window st.inp bs }
  let r1 := if bs.isEmpty && !final then (([] : List Byte), st1)
    else if st.effort = 0 then st1.stored bs final
    else st1.put (codedBlock st.bits st.effort st.inp bs final)
  let r2 := if flush then r1.2.stored [] false else (([] : List Byte), r1.2)
  let r3 := if final then r2.2.put (padBits r2.2.bits.length) else (([] : List Byte), r2.2)
  let tail := if final then frameTail r3.2 else []
  let out := head ++ r1.1 ++ r2.1 ++ r3.1 ++ tail
  (out, { r3.2 with outTotal := st.outTotal + out.length, ended := final })

end Sys2Proof.Machine
end

