-- ==== Sys2Proof/Machine/CmpOps.lean ====
section
/-!
DEFINITION. The compression block's shared operations (chapter 13): who reaches which address (R347), output lists,
running a job a block at a time, suspending, saving, starting the jobs that wait.
-/

namespace Sys2Proof.Machine

/-! ### Addresses (R347) -/

/-- Whether DMA groups reach an internal range at all (Table 1.4): DRAM, engine local memory, MBX registers; the Granary
for reads. -/
def groupReach (s : State) (a n : Nat) (w : Bool) : Bool :=
  let inside (lo sz : Nat) : Bool := decide (lo ≤ a ∧ a + n ≤ lo + sz)
  decide (a + n ≤ s.rd64 R_MEM_CAPACITY_LO R_MEM_CAPACITY_HI) || inside 0x040000000000 (96 * 0x80000)
    || (!w && inside 0x040003000000 (40 * 1048576)) || inside (regAddr 0x030000) 0x10000

/-- Whether an internal range lies in the BAR2 window of a function, which the direction opens (R271). -/
def inWindow (s : State) (f a n : Nat) (w : Bool) : Bool :=
  let base := s.rd (F_HIF_F_WIN_BASE f) * 1073741824
  decide (base ≤ a ∧ a + n ≤ base + (s.fn f).bar2Gib * 1073741824) && s.on (if w then F_HIF_F_WIN_WR f else F_HIF_F_WIN_RD f)
    && decide (a + n ≤ s.rd64 R_MEM_CAPACITY_LO R_MEM_CAPACITY_HI)

/-- Whether a context's access to a range of a space is issued (R347). -/
def mayAccess (s : State) (ctx space a n : Nat) (w : Bool) : Bool :=
  space == 1 || (if s.hasPriv ctx 0 then groupReach s a n w else inWindow s (s.ctxFunc ctx) a n w)

/-! ### Output lists (R370, R371) -/

/-- The entries of a list; none when an entry is not of R370's form. -/
def parseList : Nat → List Byte → Option (List OutEnt)
  | 0, _ => some []
  | n + 1, b =>
    let a := leNat (b.take 8)
    let l := leNat ((b.drop 8).take 4)
    let x := leNat ((b.drop 12).take 4)
    if l = 0 ∨ x > 1 then none
    else (parseList n (b.drop 16)).map (fun r => { space := x, addr := a, len := l } :: r)

/-- Bytes written through a list by the engine that a channel's group feeds (R28): the state, the list left, the bytes for which it had no room. -/
def listWrite (s : State) (c : Nat) : Nat → List OutEnt → List Byte → State × List OutEnt × List Byte
  | 0, es, bs => (s, es, bs)
  | _ + 1, [], bs => (s, [], bs)
  | n + 1, e :: es, bs =>
    if bs.isEmpty then (s, e :: es, bs)
    else
      let k := min e.len bs.length
      let s1 := putSpace s c e.space e.addr (bs.take k)
      let left := if k = e.len then es else { e with addr := e.addr + k, len := e.len - k } :: es
      listWrite s1 c n left (bs.drop k)

/-! ### Running -/

/-- The state of a new stream (R356, R368). -/
def CmpState.new (op framing effort : Nat) : CmpState :=
  { op := op, framing := framing, effort := effort, inp := [], inTotal := 0, outTotal := 0, crc := 4294967295, adler := 1,
    size := 0, bits := [], begun := false, ended := false }

/-- Whether a part ends its stream. -/
def CmpJob.lastPart (j : CmpJob) : Bool := j.part == 0 || j.part == 3

/-- A job's list takes what it can of what has been produced. -/
def cmpDrain (s : State) (j : CmpJob) : State × CmpJob :=
  let r := listWrite s j.chan (j.list.length + 1) j.list j.outq
  let n := j.outq.length - r.2.2.length
  (r.1, { j with list := r.2.1, outq := r.2.2, outN := j.outN + n })

/-- One block of a compression job (R367). -/
def compressBlock (j : CmpJob) : CmpJob :=
  let n := blockSize j.st.effort
  let bs := j.inp.take n
  let rest := j.inp.drop n
  let last := rest.isEmpty
  let r := j.st.deflate bs (last && j.lastPart) (last && !j.lastPart)
  { j with inp := rest, inN := j.inN + bs.length, outq := j.outq ++ r.1, st := r.2, produced := last }

/-- Up to 64 KiB of output of a decompression job, and the fault it meets (R369). -/
def inflateBlock (j : CmpJob) : CmpJob × Option Nat :=
  let all := j.st.inp ++ j.inp
  let lim := j.st.outTotal + 65536
  let r := inflate j.st.framing all lim
  let new := (r.out.drop j.st.outTotal).take 65536
  let more := r.out.length > lim || (r.out.length == lim && !r.ended && r.fault.isNone)
  let used := if r.ended then r.used else if more then min r.used all.length else all.length
  let st := { (j.st.check new) with outTotal := j.st.outTotal + new.length, ended := r.ended && !more }
  let early := !more && !r.ended && r.fault.isNone && j.lastPart
  ({ j with inN := used - j.st.inTotal, outq := j.outq ++ new, st := st, produced := !more },
    if more then none else if early then some 7 else r.fault)

/-- A decompression whose list has run out stands where its written output ends (R372). -/
def CmpJob.rewound (j : CmpJob) : CmpJob :=
  let w := j.st.outTotal - j.outq.length
  let r := inflate j.st.framing (j.st.inp ++ j.inp) w
  let st := { ((CmpState.new j.st.op j.st.framing j.st.effort).check (r.out.take w)) with
    inp := j.st.inp, inTotal := j.st.inTotal, outTotal := w, begun := j.st.begun }
  { j with st := st, outq := [], produced := false, inN := r.used - j.st.inTotal }

/-- How a run of a job's blocks ends. -/
inductive CmpEnd where
  | going
  | full
  | done
  | fault (reason : Nat)
deriving DecidableEq, Repr

/-- One block of a job, and the writing of its output. -/
def cmpBlock (s : State) (j : CmpJob) : State × CmpJob × CmpEnd :=
  let r := if j.produced then (j, none) else if j.st.op = 0 then (compressBlock j, none) else inflateBlock j
  let d := cmpDrain s r.1
  if !d.2.outq.isEmpty then (d.1, if j.st.op = 1 then d.2.rewound else d.2, .full)
  else
    (d.1, d.2, match r.2 with
      | some k => .fault k
      | none => if d.2.produced then .done else .going)

/-- Blocks until a job ends or finds its list full. -/
def cmpBlocks : Nat → State → CmpJob → State × CmpJob × CmpEnd
  | 0, s, j => (s, j, .going)
  | n + 1, s, j =>
    match cmpBlock s j with
    | (s1, j1, .going) => cmpBlocks n s1 j1
    | r => r

/-- An engine's byte counts. -/
def cmpCount (s : State) (e inN outN : Nat) : State :=
  (s.wr64 (R_CMP_E_IN_LO e) (R_CMP_E_IN_HI e) (satAdd 64 (s.rd64 (R_CMP_E_IN_LO e) (R_CMP_E_IN_HI e)) inN)).wr64 (R_CMP_E_OUT_LO e)
    (R_CMP_E_OUT_HI e) (satAdd 64 (s.rd64 (R_CMP_E_OUT_LO e) (R_CMP_E_OUT_HI e)) outN)

/-! ### Save records (Table 13.7) -/

/-- The header of a save record. -/
def saveHead (j : CmpJob) (id : Nat) : List Byte :=
  let r := if j.st.op = 1 then some (inflate j.st.framing (j.st.inp ++ j.inp) j.st.outTotal) else none
  let blk := match r with | some x => if x.ended then 0 else x.state.blk | none => 0
  let extra := match r with | some x => x.out.length - j.st.outTotal | none => 0
  let dist := match r with | some x => if extra = 0 then 0 else x.state.dist | none => 0
  let left := match r with | some x => if blk = 1 then x.state.left else 0 | none => 0
  let fin := match r with | some x => x.state.final || x.ended | none => j.st.ended
  natBytes 4 0x53504D43 ++ natBytes 1 (j.st.op + 2 * j.st.framing + 8 * j.st.effort) ++ natBytes 1 (blk + 4 * b2n fin) ++ natBytes 2 id
    ++ natBytes 8 (j.st.inTotal + (if j.st.op = 1 then j.inN else 0)) ++ natBytes 8 (j.st.outTotal - j.outq.length)
    ++ natBytes 4 (if j.st.framing = 1 then j.st.adler else crc32End j.st.crc) ++ natBytes 2 extra ++ natBytes 2 dist ++ natBytes 2 left
    ++ List.replicate 22 0

/-- The body of a job's save record. -/
def saveBody (id : Nat) : List Byte := (List.range 40896).map (Config.saveBody id)

/-- Write the save record of a job; 0 names no job (between parts). -/
def saveWrite (s : State) (j : CmpJob) (id : Nat) : State :=
  let body := saveBody id
  let head := saveHead j id ++ natBytes 4 (crc32c body) ++ natBytes 2 0
  s.dramWrite j.saveAddr (withCheck head ++ body)

/-- Whether the save record at an address passes its checks (R372). -/
def saveOk (s : State) (a : Nat) : Bool :=
  let h := s.dramRead a 64
  leNat (h.take 4) == 0x53504D43 && leNat (h.drop 62) == check16 (h.take 62)
    && leNat ((h.drop 56).take 4) == crc32c (s.dramRead (a + 64) 40896) && !s.dramPoison a 40960

/-! ### Ends of a job -/

/-- Put a job back in its place. -/
def setJob (s : State) (j : CmpJob) : State := s.modJob j.id (fun _ => j)

/-- The engine of a job for its reply. -/
def CmpJob.eng (j : CmpJob) : Nat := j.engine.getD 0

/-- A job's command gets its reply; the job stays. -/
def jobAnswer (s : State) (j : CmpJob) (r : Reply) : State :=
  match j.cmd with
  | some (q, t) => match s.inflight? q t with
    | some c => s.finish c r
    | none => s
  | none => s

/-- What a claim's readout releases at its end (R199). -/
def claimAfter (s : State) (i : Option ClaimInfo) : State :=
  match i with
  | none => s
  | some x =>
    let s1 := match x.relClaim with
      | some id => match s.cap.claims.find? (fun c => c.id == id) with | some c => (releaseClaim s c).1 | none => s
      | none => s
    match x.relSeg with
    | some (no, cap) => match segOf s1 no cap with | some g => (releaseSeg s1 g).1 | none => s1
    | none => s1

/-- The stream that a part leaves for the next one (R370). -/
def streamAfter (s : State) (j : CmpJob) : State :=
  let rest := s.cmp.streams.filter (fun x => !(x.no == j.stream && x.ctx == j.ctx))
  if j.part = 0 then s
  else if j.part = 3 then s.modCmp (fun c => { c with streams := rest })
  else
    let st := if j.st.op = 0 then j.st else { j.st with inp := j.st.inp ++ j.inp, inTotal := j.st.inTotal + j.inN }
    let s1 := s.modCmp (fun c => { c with streams := rest ++ [{ no := j.stream, ctx := j.ctx, save := j.saveAddr, st := st }] })
    saveWrite s1 j 0

/-- A job's part is done (R369, R370). -/
def jobDone (s : State) (j : CmpJob) : State :=
  let st : Status := if j.poisoned then .poisoned else .ok
  claimAfter (jobLeave (streamAfter s j) j (jobReply j st j.eng false (j.st.op == 1 && j.st.ended) 0)) j.claim

/-- A job meets a fault of Table 13.6: its stream is gone. -/
def jobFault (s : State) (j : CmpJob) (reason : Nat) : State :=
  let s1 := match j.engine with | some e => if reason = 8 then s else s.bump (F_CMP_E_ERRORS_DATA e) | none => s
  let s2 := if reason = 8 then s1.raise 11 0x02 0 resNone 0 else s1
  let s3 := s2.modCmp (fun c => { c with streams := c.streams.filter (fun x => !(x.no == j.stream && x.ctx == j.ctx && j.part != 0)) })
  jobLeave s3 j (jobReply j .badParam j.eng false false reason)

/-- A job suspends (R372): its command completes OK with SUSPENDED; with SAVE its state goes to the save area and the
engine is free, else the engine is held. -/
def jobSuspend (s : State) (j : CmpJob) : State :=
  let s1 := if j.save then saveWrite s j j.id else s
  let rep := jobReply j (if j.poisoned then .poisoned else .ok) j.eng true (j.st.op == 1 && j.st.ended) 0
  let j1 := { j with state := if j.save then 3 else 2, engine := if j.save then none else j.engine, cmd := none, at_ := s.up,
                     suspend := false }
  cmpRefresh (jobAnswer (setJob s1 j1) j rep)

/-- A running job is to stop: with a save area it suspends, else it ends (R375, R377). -/
def jobPark (s : State) (j : CmpJob) : State :=
  if j.save && (j.state = 1 || (j.state = 0 && j.resumed)) then jobSuspend s j
  else if j.state = 3 then s
  else jobLeave s j (jobReply j .aborted j.eng false false 0)

/-- After blocks have run, what follows for the job. -/
def jobSettle (r : State × CmpJob × CmpEnd) : State :=
  let (s, j, e) := r
  match e with
  | .going => cmpRefresh (setJob s j)
  | .done => jobDone (setJob s j) j
  | .full => jobSuspend (setJob s j) j
  | .fault k => jobFault (setJob s j) j k

/-! ### Starting -/

/-- The CMP domain is on in Record while a job is queued (Table 1.8). -/
def cmpPower (s : State) : State :=
  if s.err.contained then s
  else if s.inRecord && !s.cmp.jobs.isEmpty then s.setDom .cmp 2
  else s.setDom .cmp 0

/-- The engine that a job takes: the lowest one in service with no job. -/
def freeEngine (s : State) : Option Nat :=
  (List.range 8).find? (fun e => (s.rd F_CMP_STATUS_AVAIL >>> e) % 2 == 1 && s.cmp.jobs.all (fun j => j.engine != some e))

/-- Whether an earlier part of a job's stream has not ended. -/
def partBefore (s : State) (j : CmpJob) : Bool :=
  j.part != 0 && (s.cmp.jobs.takeWhile (fun x => x.id != j.id)).any (fun x => x.ctx == j.ctx && x.stream == j.stream && x.part != 0)

/-- Whether a context may run one more job (R361). -/
def cmpUnits (s : State) (j : CmpJob) : Bool :=
  let k := match contractOf s j.ctx with | some c => c.f 12 0 4 | none => 0
  (j.claim.isSome && k == 0) || (s.cmp.jobs.filter (fun x => x.ctx == j.ctx && (x.state == 1 || x.state == 2))).length < k

/-- A part takes up its stream: none when it has no completed START; the save record must be whole (R372, R373). -/
def takeStream (s : State) (j : CmpJob) : Option (CmpJob × Bool) :=
  if j.resumed then some (j, saveOk s j.saveAddr)
  else if j.part = 0 ∨ j.part = 1 then some (j, true)
  else
    (s.cmp.streams.find? (fun x => x.no == j.stream && x.ctx == j.ctx)).map (fun x =>
      ({ j with st := x.st, saveAddr := x.save, produced := false }, saveOk s x.save))

/-- Start the jobs that can start, in the order of their submission (R361, R373). -/
def cmpStart (s : State) : Nat → State
  | 0 => s
  | n + 1 =>
    if s.dom .cmp ≠ 2 then s
    else
      match freeEngine s with
      | none => s
      | some e =>
        match s.cmp.jobs.find? (fun j => j.state == 0 && !partBefore s j && cmpUnits s j) with
        | none => s
        | some j =>
          match takeStream s j with
          | none => cmpStart (jobFault s { j with engine := none } 0) n
          | some (k, good) =>
            if good then cmpStart (cmpRefresh (setJob s { k with state := 1, engine := some e })) n
            else cmpStart (jobFault s { k with engine := none } 8) n

/-- Jobs follow what has happened: those that wait start, the domain is on or off. -/
def cmpKick (s : State) : State := cmpPower (cmpStart (cmpPower s) 64)

/-- Every job stops as the power state or Containment asks, but for the readout of claims in Containment (R375, R377). -/
def cmpParkAll (s : State) (keepClaims : Bool) : State :=
  (s.cmp.jobs.filter (fun j => !(keepClaims && j.claim.isSome))).foldl (fun t j =>
    match t.cmp.jobs.find? (fun x => x.id == j.id) with
    | some x => jobPark t x
    | none => t) s

end Sys2Proof.Machine
end

