-- ==== Sys2Proof/Machine/Elem.lean ====
section
/-!
DEFINITION. Elementary functions for the operators of Table 8.4 and the finisher (R216, R249): each is worked out to 200
binary places, from its series, and rounded once to the format.
-/

namespace Sys2Proof.Machine

/-- A rational cut to 200 binary places. -/
def fixed (x : Rat) : Rat := ((x * pow2 200).floor : Rat) / pow2 200

/-! ### Series -/

/-- Σ t^(2i+1) / (2i+1) from a term on: the inverse hyperbolic tangent. -/
def atanhTerms (t2 : Rat) : Nat → Nat → Rat → Rat → Rat
  | 0, _, _, acc => acc
  | n + 1, k, p, acc => atanhTerms t2 n (k + 2) (fixed (p * t2)) (acc + fixed (p / (k : Rat)))

/-- Terms of a sine or cosine: each is the one before times −x² over the next two factors. -/
def trigTerms (x2 : Rat) : Nat → Nat → Rat → Rat → Rat
  | 0, _, _, acc => acc
  | n + 1, k, p, acc => trigTerms x2 n (k + 2) (fixed (-(p * x2) / (((k + 1) * (k + 2) : Nat) : Rat))) (acc + p)

/-- Euler's series of the arc tangent: each term is the one before times y (2k+2)/(2k+3), y = t²/(1+t²). -/
def atanTerms (y : Rat) : Nat → Nat → Rat → Rat → Rat
  | 0, _, _, acc => acc
  | n + 1, k, p, acc => atanTerms y n (k + 1) (fixed (p * y * ((2 * k + 2 : Nat) : Rat) / ((2 * k + 3 : Nat) : Rat))) (acc + p)

/-- Terms of an exponential. -/
def expTerms (x : Rat) : Nat → Nat → Rat → Rat → Rat
  | 0, _, _, acc => acc
  | n + 1, k, p, acc => expTerms x n (k + 1) (fixed (p * x / ((k + 1 : Nat) : Rat))) (acc + p)

/-! ### Functions of a rational -/

/-- ln of a number from 1 to 2. -/
def lnSmall (m : Rat) : Rat :=
  let t := fixed ((m - 1) / (m + 1))
  2 * atanhTerms (fixed (t * t)) 70 1 t 0

/-- ln of a positive number. -/
def lnRat (q : Rat) : Rat := let e := ilog2 q; lnSmall (q / pow2 e) + (e : Rat) * lnSmall 2

/-- e to a power. -/
def expRat (x : Rat) : Rat :=
  let k := (x / lnSmall 2).floor
  expTerms (x - (k : Rat) * lnSmall 2) 60 0 1 0 * pow2 k

def log10Rat (q : Rat) : Rat := fixed (lnRat q / lnRat 10)
def pow10Rat (x : Rat) : Rat := expRat (x * lnRat 10)

/-- The arc tangent of 0 to 1. -/
def atanSmall (t : Rat) : Rat := let d := 1 + t * t; atanTerms (fixed (t * t / d)) 210 0 (fixed (t / d)) 0

/-- π, by Machin's formula. -/
def piRat : Rat := 16 * atanSmall (1 / 5) - 4 * atanSmall (1 / 239)

/-- The angle of a point whose coordinates are not negative. -/
def angleSmall (x y : Rat) : Rat := if y ≤ x then (if x = 0 then 0 else atanSmall (y / x)) else piRat / 2 - atanSmall (x / y)

/-- Cosine and sine of a part of a turn, exact at the quarters. -/
def cosQuarter (r : Rat) : Rat :=
  if r = 1 / 4 then 0 else let x := fixed (2 * piRat * r); trigTerms (fixed (x * x)) 40 0 1 0
def cosTurn (r : Rat) : Rat :=
  let f := r - r.floor
  let g := if f > 1 / 2 then 1 - f else f
  if g > 1 / 4 then -cosQuarter (1 / 2 - g) else cosQuarter g
def sinTurn (r : Rat) : Rat := cosTurn (r - 1 / 4)

/-- The square root of a number that is not negative. -/
def sqrtRat (q : Rat) : Rat :=
  let n := (q * pow2 400).floor.toNat
  (isqrtFrom (Nat.log2 n / 2 + 1) 0 n : Rat) / pow2 200

/-! ### Functions of a floating-point number, rounded once -/

/-- log10: of 0 it is −∞, of a negative number a NaN. -/
def FpFmt.log10 (f : FpFmt) (a : Fp) : Fp :=
  match a with
  | .nan => .nan
  | .inf n => if n then .nan else .inf false
  | .fin n q => if q = 0 then .inf true else if n then .nan else f.ofRat (log10Rat q)

/-- The cube root. -/
def FpFmt.cbrt (f : FpFmt) (a : Fp) : Fp :=
  match a with
  | .fin n q => if q = 0 then .fin n 0 else f.round n (expRat (lnRat q / 3))
  | x => x

/-- The angle of x + jy in rad, −π to π; of zeros and infinities as IEEE 754 has it. -/
def FpFmt.atan2 (f : FpFmt) (y x : Fp) : Fp :=
  match y, x with
  | .nan, _ | _, .nan => .nan
  | .inf n, .inf m => f.round n (if m then 3 * piRat / 4 else piRat / 4)
  | .inf n, .fin _ _ => f.round n (piRat / 2)
  | .fin n _, .inf m => f.round n (if m then piRat else 0)
  | .fin n p, .fin m q => let a := angleSmall q p; f.round n (if m then piRat - a else a)

/-- Cosine of an angle in rad; of an infinite one a NaN. -/
def FpFmt.cosRad (f : FpFmt) (a : Fp) : Fp :=
  match a with
  | .fin _ q => f.ofRat (cosTurn (q / (2 * piRat)))
  | _ => .nan
def FpFmt.sinRad (f : FpFmt) (a : Fp) : Fp :=
  match a with
  | .fin n q => if q = 0 then .fin n 0 else f.ofRat (sinTurn (Fp.val (.fin n q) / (2 * piRat)))
  | _ => .nan

end Sys2Proof.Machine
end

