-- ==== Sys2Proof/Machine/EngAlu.lean ====
section
/-!
DEFINITION. The operators of Table 8.4 on the buffers of a chain (R215, R216, R220).
-/

namespace Sys2Proof.Machine

/-- A buffer while a job runs: its format, complex or not, and its scalars; binary32 as their bits. -/
structure EBuf where
  fmt : Nat
  cplx : Bool
  v : List Int

/-- A map as HIST_TO_MAP sees it (R260). -/
structure MapPar where
  w : Nat
  h : Nat
  edge : Bool

/-- What a job works on. -/
structure EEnv where
  bufs : List EBuf
  st : ChSt
  ins : List (List Int)
  mp : Nat → MapPar
  fill : Bool
  ovr : Bool
  skip : Nat
  cycles : Nat
  out : Staged

/-! ### Formats -/

/-- Bytes of a scalar, and lanes of a vector (R215). -/
def elBytes (fmt : Nat) : Nat := if fmt = 0 then 2 else 4
def lanesOf (fmt : Nat) : Nat := if fmt = 0 then 32 else 16

/-- Bits and fraction bits of an integer format. -/
def qW (fmt : Nat) : Nat := if fmt = 0 then 16 else 32
def qF (fmt : Nat) : Nat := if fmt = 0 then 15 else 31

/-- A number brought into a buffer's range, whatever it is. -/
def inFmt (fmt : Nat) (x : Int) : Int := if fmt = 2 then ((wrapTo 32 x : Nat) : Int) else sext (qW fmt) (wrapTo (qW fmt) x)

/-- A saturated value and whether it was clamped (R216). -/
def qSat (fmt : Nat) (x : Int) : Int × Bool := let y := satTo (qW fmt) x; (y, decide (y ≠ x))

/-- A parameter in the operating format (Table 8.4). -/
def parOf (fmt p : Nat) : Int := if fmt = 0 then sext 16 p else if fmt = 1 then sext 32 p else (p % 4294967296 : Nat)

/-- The binary32 of a scalar, and the scalar of a binary32. -/
def fpOf (x : Int) : Fp := fp32 x.toNat
def fpTo (x : Fp) : Int := (bits32 x : Nat)

/-- An integer scalar's exact value as a binary64 or rational. -/
def ratOf (fmt : Nat) (x : Int) : Rat := if fmt = 2 then (fpOf x).val else (x : Rat)

def int8 (p : Nat) : Int := sext 8 p

/-- The exact value of a formula, brought to a format: what the rounding of its steps adds is open. -/
def near (code : Nat) (pars : List Nat) (fmt : Nat) (xs : List Int) (i : Nat) (v : Rat) : Int × Bool :=
  let y := v + Config.engErr code pars xs i
  if fmt = 2 then (fpTo (f32.ofRat y), false) else qSat fmt (rne y)

/-- Whether an element is a number: of binary32, neither infinite nor a NaN. -/
def numeric (fmt : Nat) (x : Int) : Bool := fmt != 2 || !((fpOf x).isNan || (fpOf x).isInf)

/-- The components of elements of `k` scalars, and the elements of components. -/
def lanes (k : Nat) (xs : List Int) : List (List Int) :=
  (List.range k).map (fun c => (chunksOf k xs.length xs).map (fun e => e.getD c 0))
def unlanes {α : Type} (d : α) (ls : List (List α)) : List α :=
  (List.range (ls.headD []).length).flatMap (fun i => ls.map (fun l => l.getD i d))

/-! ### Reductions (R216) -/

/-- Sixteen binary64 partial sums over the lanes, in element order; the lane is the element's place in its vector. -/
def laneSums (base : Nat) (xs : List Fp) : List Fp :=
  (xs.foldl (fun (acc : List Fp × Nat) x => (listMod acc.1 (acc.2 % 16) (fun y => f64.add y x), acc.2 + 1))
    (List.replicate 16 (.fin false 0), base)).1

/-- The pairwise tree. -/
def treeSum : Nat → List Fp → Fp
  | 0, l => l.headD (.fin false 0)
  | n + 1, l => treeSum n ((chunksOf 2 8 l).map (fun p => f64.add (p.getD 0 (.fin false 0)) (p.getD 1 (.fin false 0))))

def reduce64 (base : Nat) (xs : List Fp) : Fp := treeSum 4 (laneSums base xs)

/-- Sum, mean, root mean square or dot product of one subwindow, as a binary32 (R216): integers exactly and rounded
once, binary32 in binary64 lanes and rounded once. -/
def redSum (fmt base : Nat) (mean root : Bool) (xs : List (Int × Int)) (prod : Bool) : Int :=
  let n := xs.length
  if fmt = 2 then
    let t := reduce64 base (xs.map (fun p => if prod then f64.mul (fpOf p.1) (fpOf p.2) else fpOf p.1))
    let m := if mean then f64.div t (.fin false (n : Rat)) else t
    fpTo (f32.conv (if root then f64.sqrt m else m))
  else
    let t : Int := xs.foldl (fun a p => a + (if prod then p.1 * p.2 else p.1)) 0
    let m : Rat := if mean then (t : Rat) / (n : Rat) else (t : Rat)
    fpTo (if root then f32.sqrt (.fin false m) else f32.ofRat m)

/-- Minimum and maximum; a NaN among binary32 operands leaves them open. -/
def redMinMax (fmt : Nat) (xs : List Int) : List Int :=
  if fmt = 2 then
    let fs := xs.map fpOf
    if fs.any Fp.isNan then [inFmt 2 (Config.engVal 0x33 [] xs 0), inFmt 2 (Config.engVal 0x33 [] xs 1)]
    else
      let mn := fs.foldl (fun a b => if b.lt a then b else a) (fs.headD .nan)
      let mx := fs.foldl (fun a b => if a.lt b then b else a) (fs.headD .nan)
      [fpTo mn, fpTo mx]
  else
    [fpTo (f32.ofRat (xs.foldl min (xs.headD 0) : Int)), fpTo (f32.ofRat (xs.foldl max (xs.headD 0) : Int))]

/-- The subwindows of an operand: each with its first element's place (SUM's P0). -/
def subwindows {α : Type} (sub : Nat) (l : List α) : List (Nat × List α) :=
  let k := if sub = 0 then l.length else sub
  (chunksOf k l.length l).mapIdx (fun i c => (i * k, c))

/-! ### Element operators -/

/-- Results with a joined clamp flag. -/
def joinSat (l : List (Int × Bool)) : List Int × Bool := (l.map (fun x => x.1), l.any (fun x => x.2))

/-- One element of a two-operand operator; integer results saturate. -/
def elem2 (code fmt : Nat) (a b : Int) : Int × Bool :=
  if fmt = 2 then
    let x := fpOf a
    let y := fpOf b
    (fpTo (match code with
      | 0x10 => f32.add x y
      | 0x11 => f32.sub x y
      | 0x12 => f32.mul x y
      | 0x15 => x.abs
      | _ => f32.mul x x), false)
  else
    qSat fmt (match code with
      | 0x10 => a + b
      | 0x11 => a - b
      | 0x12 => rc (a * b) (qF fmt)
      | 0x15 => a.natAbs
      | _ => rc (a * a) (qF fmt))

/-- OUT += A × B (R216). -/
def elemMac (fmt : Nat) (o a b : Int) : Int × Bool :=
  if fmt = 2 then (fpTo (f32.add (fpOf o) (f32.mul (fpOf a) (fpOf b))), false)
  else qSat fmt (rc (o * 2 ^ qF fmt + a * b) (qF fmt))

/-- A × P0 × 2^P2 + P1. -/
def elemScale (fmt p0 p1 p2 : Nat) (a : Int) : Int × Bool :=
  let e := int8 p2
  if fmt = 2 then
    (fpTo (f32.add (f32.mul (f32.mul (fpOf a) (fpOf (parOf 2 p0))) (.fin false (pow2 e))) (fpOf (parOf 2 p1))), false)
  else qSat fmt (rne ((a * parOf fmt p0 : Int) * pow2 (e - qF fmt)) + parOf fmt p1)

/-- CONVERT: the value that a format spells times a power of two, in the target format. -/
def elemConvert (fmt fmtTo : Nat) (e : Int) (a : Int) : Int × Bool :=
  if fmt = 2 then
    let x := fpOf a
    if fmtTo = 2 then (fpTo (f32.mul x (.fin false (pow2 e))), false)
    else if x.isNan then (inFmt fmtTo (Config.engVal 4 [fmtTo] [a] 0), false)
    else if x.isInf then qSat fmtTo (if x.sign then -(2 ^ 40) else 2 ^ 40)
    else qSat fmtTo (rne (x.val * pow2 (e + qF fmtTo)))
  else
    let v : Rat := (a : Rat) * pow2 (e - qF fmt)
    if fmtTo = 2 then (fpTo (f32.ofRat v), false) else qSat fmtTo (rne (v * pow2 (qF fmtTo)))

/-- CLAMP. -/
def elemClamp (fmt p0 p1 : Nat) (a : Int) : Int :=
  if fmt = 2 then
    let x := fpOf a
    let lo := fpOf (parOf 2 p0)
    let hi := fpOf (parOf 2 p1)
    fpTo (if x.lt lo then lo else if hi.lt x then hi else x)
  else if a < parOf fmt p0 then parOf fmt p0 else if a > parOf fmt p1 then parOf fmt p1 else a

/-- U(P0) and W(P0) with hysteresis P1 on one element, in any format (R101). -/
def cmpU (fmt p0 p1 : Nat) (u : Bool) (a : Int) : Bool :=
  if fmt = 2 then bnU false u (fpOf a) (fpOf (parOf 2 p0)) (fpOf (parOf 2 p1))
  else stepU u a a (parOf fmt p0) ((p1 % 2 ^ qW fmt : Nat) : Int)
def cmpW (fmt p0 p1 : Nat) (w : Bool) (a : Int) : Bool :=
  if fmt = 2 then bnW false w (fpOf a) (fpOf (parOf 2 p0)) (fpOf (parOf 2 p1))
  else stepW w a a (parOf fmt p0) ((p1 % 2 ^ qW fmt : Nat) : Int)

/-- Full scale, or 1.0. -/
def fullScale (fmt : Nat) : Int := if fmt = 0 then 32767 else if fmt = 1 then 2147483647 else 0x3F800000

/-! ### Complex operators -/

def cplxMul (fmt : Nat) (conj : Bool) (ar ai br bi0 : Int) : List (Int × Bool) :=
  if fmt = 2 then
    let bi := if conj then (fpOf bi0).neg else fpOf bi0
    let m (x y : Fp) := f32.mul x y
    [(fpTo (f32.sub (m (fpOf ar) (fpOf br)) (m (fpOf ai) bi)), false),
     (fpTo (f32.add (m (fpOf ar) bi) (m (fpOf ai) (fpOf br))), false)]
  else
    let bi := if conj then -bi0 else bi0
    [qSat fmt (rc (ar * br - ai * bi) (qF fmt)), qSat fmt (rc (ar * bi + ai * br) (qF fmt))]

/-- Magnitude: squares, sum and root each rounded. -/
def cplxMag (re im : Int) : Int :=
  fpTo (f32.sqrt (f32.add (f32.mul (fpOf re) (fpOf re)) (f32.mul (fpOf im) (fpOf im))))

/-- Pairs of a complex operand. -/
def pairsOf (l : List Int) : List (Int × Int) := (chunksOf 2 l.length l).map (fun c => (c.headD 0, c.getD 1 0))

/-- SEQ_COMP on three phasors: zero, positive, negative, with a = −1/2 + j√3/2. -/
def seqParts (fmt : Nat) (c : List Int) : List Rat :=
  let g (i : Nat) : Rat := ratOf fmt (c.getD i 0)
  let h := sqrtRat 3 / 2
  let sr := g 2 + g 4
  let si := g 3 + g 5
  let dr := h * (g 2 - g 4)
  let di := h * (g 3 - g 5)
  [(g 0 + sr) / 3, (g 1 + si) / 3, (g 0 - sr / 2 - di) / 3, (g 1 - si / 2 + dr) / 3, (g 0 - sr / 2 + di) / 3,
   (g 1 - si / 2 - dr) / 3]

/-! ### Transforms (FFT, IFFT, DFT_BIN) -/

/-- Σ x[n] e^(∓j2πfn/per), the upper sign unless `inv`. -/
def dftAt (per : Nat) (inv : Bool) (f : Rat) (xs : List (Rat × Rat)) : Rat × Rat :=
  (xs.mapIdx (fun n x => (n, x))).foldl (fun a p =>
    let t := f * (p.1 : Rat) / (per : Rat)
    let c := cosTurn t
    let s := if inv then sinTurn t else -sinTurn t
    (a.1 + p.2.1 * c - p.2.2 * s, a.2 + p.2.1 * s + p.2.2 * c)) (0, 0)

/-- The elements of an operand as complex numbers. -/
def cplxRat (fmt : Nat) (cplx : Bool) (xs : List Int) : List (Rat × Rat) :=
  if cplx then (pairsOf xs).map (fun p => (ratOf fmt p.1, ratOf fmt p.2)) else xs.map (fun x => (ratOf fmt x, 0))

/-! ### Windows (WINDOW) -/

/-- A cosine sum over one turn. -/
def cosSum (as : List Rat) (x : Rat) : Rat :=
  (as.mapIdx (fun k a => (k, a))).foldl (fun t p => t + (if p.1 % 2 = 0 then p.2 else -p.2) * cosTurn ((p.1 : Rat) * x)) 0

/-- A window's coefficient at a place from 0 to 1. PRESUMED (log entry 44): the usual coefficients of the windows that
Table 8.4 names. -/
def winCoef (kind : Nat) (alpha x : Rat) : Rat :=
  match kind with
  | 1 => cosSum [1 / 2, 1 / 2] x
  | 2 => cosSum [54 / 100, 46 / 100] x
  | 3 => cosSum [21557895 / 100000000, 41663158 / 100000000, 277263158 / 1000000000, 83578947 / 1000000000, 6947368 / 1000000000] x
  | 4 => cosSum [35875 / 100000, 48829 / 100000, 14128 / 100000, 1168 / 100000] x
  | 5 => if alpha ≤ 0 then 1 else if x < alpha / 2 then (1 - cosTurn (x / alpha)) / 2
      else if x > 1 - alpha / 2 then (1 - cosTurn ((1 - x) / alpha)) / 2 else 1
  | _ => 1

/-- The coefficients of a window of `n` elements, with NORM of unit mean. -/
def winCoefs (kind : Nat) (alpha : Rat) (norm : Bool) (n : Nat) : List Rat :=
  let ws := (List.range n).map (fun (i : Nat) => winCoef kind alpha ((i : Rat) / (n : Rat)))
  let mean := ws.foldl (· + ·) 0 / (n : Rat)
  if norm && mean ≠ 0 then ws.map (fun w => w / mean) else ws

/-! ### Filters -/

/-- A FIR's sum over its inputs, newest first: integers exactly and rounded once by `k` bits, binary32 in tap order. -/
def firSum (fmt k : Nat) (taps xs : List Int) : Int × Bool :=
  if fmt = 2 then
    (fpTo ((taps.zip xs).foldl (fun a p => f32.add a (f32.mul (fpOf p.1) (fpOf p.2))) (.fin false 0)), false)
  else qSat fmt (rc ((taps.zip xs).foldl (fun a p => a + p.1 * p.2) 0) k)

/-- A FIR over its inputs, one output for each `d` of them. -/
def firRun (fmt k d : Nat) (taps : List Int) : Nat → List Int → List Int → List (Int × Bool) × List Int
  | _, h, [] => ([], h)
  | n, h, x :: xs =>
    let win := x :: h
    let (ys, h') := firRun fmt k d taps (n + 1) (win.take (taps.length - 1)) xs
    (if n % d = 0 then firSum fmt k taps win :: ys else ys, h')

/-- A Q1.17 coefficient in binary32. -/
def q17 (c : Int) : Int := fpTo (f32.ofRat ((c : Rat) / 131072))

/-- One direct form I section; its state is x1 x2 y1 y2. -/
def biquad1 (fmt : Nat) (c st : List Int) (x : Int) : (Int × Bool) × List Int :=
  let g (i : Nat) := c.getD i 0
  let h (i : Nat) := st.getD i 0
  let y : Int × Bool :=
    if fmt = 2 then
      let m (i : Nat) (v : Int) := f32.mul (fpOf (g i)) (fpOf v)
      (fpTo (f32.sub (f32.sub (f32.add (f32.add (m 0 x) (m 1 (h 0))) (m 2 (h 1))) (m 3 (h 2))) (m 4 (h 3))), false)
    else qSat fmt (rc (g 0 * x + g 1 * h 0 + g 2 * h 1 - g 3 * h 2 - g 4 * h 3) (qF fmt))
  (y, [x, h 0, y.1, h 2])

/-- The sections one after the other on one sample. -/
def biquadK (fmt : Nat) : List (List Int) → List (List Int) → Int × Bool → (Int × Bool) × List (List Int)
  | [], _, x => (x, [])
  | c :: cs, sts, x =>
    let (y, s1) := biquad1 fmt c (sts.headD []) x.1
    let (z, ss) := biquadK fmt cs sts.tail (y.1, x.2 || y.2)
    (z, s1 :: ss)

/-- Interleaved channels: the state of channel c is its sections' states in a row. -/
def biquadRun (fmt m : Nat) (cs : List (List Int)) : Nat → List (List Int) → List Int → List (Int × Bool) × List (List Int)
  | _, sts, [] => ([], sts)
  | n, sts, x :: xs =>
    let ch := n % m
    let (y, ss) := biquadK fmt cs (chunksOf 4 cs.length (sts.getD ch [])) (x, false)
    let (ys, out) := biquadRun fmt m cs (n + 1) (listMod sts ch (fun _ => ss.flatten)) xs
    (y :: ys, out)

/-! ### Crossings (ZERO_CROSS) -/

/-- Place of the crossing of a level between two samples, the second at index `n`. -/
def crossAt (fmt : Nat) (n : Nat) (lvl p x : Int) : Int :=
  if fmt = 2 then
    let f := f32.div (f32.sub (fpOf lvl) (fpOf p)) (f32.sub (fpOf x) (fpOf p))
    fpTo (f32.add (.fin (decide (n = 0)) (if n = 0 then 1 else ((n - 1 : Nat) : Rat))) f)
  else fpTo (f32.ofRat (((n : Int) - 1 : Int) + (lvl - p : Int) / ((x - p : Int) : Rat)))

/-- Crossings of a run of samples: comparators U and W, the sample before. -/
def crossRun (fmt p0 p1 mode : Nat) : Nat → Bool → Bool → Option Int → List Int → List Int × Bool × Bool × Option Int
  | _, u, w, p, [] => ([], u, w, p)
  | n, u, w, p, x :: xs =>
    let (u', w') := match p with
      | none => (cmpU fmt p0 p1 false x, cmpW fmt p0 p1 false x)
      | some _ => (cmpU fmt p0 p1 u x, cmpW fmt p0 p1 w x)
    let ev := match p with
      | none => []
      | some q =>
        (if u' && !u && mode != 1 then [crossAt fmt n (parOf fmt p0) q x] else [])
          ++ (if w' && !w && mode != 0 then [crossAt fmt n (parOf fmt p0) q x] else [])
    let (es, r) := crossRun fmt p0 p1 mode (n + 1) u' w' (some x) xs
    (ev ++ es, r)

/-! ### Resampling by taps -/

/-- Element at a place; past the ends the value is open. -/
def tapAt (code fmt : Nat) (xs : List Int) (i : Int) : Int :=
  if i < 0 ∨ i ≥ xs.length then inFmt fmt (Config.engVal code [1] xs (wrapTo 32 i)) else xs.getD i.toNat 0

/-- One output of RESAMPLE_TAP at a Q16.16 place. -/
def tapOut (fmt : Nat) (cubic : Bool) (xs : List Int) (pos : Nat) : Int × Bool :=
  let i : Int := ((pos / 65536 : Nat) : Int)
  let f := pos % 65536
  let a (k : Int) := tapAt 0x26 fmt xs (i + k)
  if !cubic then
    if f = 0 then (a 0, false)
    else if fmt = 2 then
      (fpTo (f32.add (fpOf (a 0)) (f32.mul (.fin false ((f : Rat) / 65536)) (f32.sub (fpOf (a 1)) (fpOf (a 0))))), false)
    else qSat fmt (rc (a 0 * 65536 + (f : Int) * (a 1 - a 0)) 16)
  else
    let t : Rat := (f : Rat) / 65536
    let y (k : Int) : Rat := ratOf fmt (a k)
    let v := -(t * (t - 1) * (t - 2) / 6) * y (-1) + ((t + 1) * (t - 1) * (t - 2) / 2) * y 0
      - ((t + 1) * t * (t - 2) / 2) * y 1 + ((t + 1) * t * (t - 1) / 6) * y 2
    if fmt ≠ 2 then qSat fmt (rne v)
    else if [a (-1), a 0, a 1, a 2].all (numeric 2) then near 0x26 [f] 2 [a (-1), a 0, a 1, a 2] 0 v
    else (inFmt 2 (Config.engVal 0x26 [f] [a (-1), a 0, a 1, a 2] 0), false)

/-! ### Histograms and maps -/

/-- HISTOGRAM's counts; elements outside the edges are not counted. -/
def histCounts (bins : Nat) (lo hi : Int) (xs : List Int) : List Int :=
  (List.range bins).map (fun (b : Nat) => (((xs.filter (fun a =>
    decide (lo ≤ a ∧ a < hi) && (((a - lo) * bins) / (hi - lo)) == (b : Int))).length : Nat) : Int))

/-- Where HIST_TO_MAP puts an element (R260). -/
def mapCell (m : MapPar) (k first vofs rpl i : Nat) (a : Int) : Option (Nat × Nat) :=
  let c := first + (i >>> k)
  let r := ((a - sext 16 vofs) * rpl) / 65536
  if c ≥ m.w then none
  else if r < 0 then (if m.edge then some (c, 0) else none)
  else if r ≥ m.h then (if m.edge then some (c, m.h - 1) else none)
  else some (c, r.toNat)

/-- Count the hits of one more cell. -/
def addHit (l : List (Nat × Nat)) (r : Nat) : List (Nat × Nat) :=
  if l.any (fun x => x.1 == r) then l.map (fun x => if x.1 = r then (r, x.2 + 1) else x) else l ++ [(r, 1)]

/-- A job's deltas, grouped by column (R261). -/
def mapDeltas (no : Nat) (m : MapPar) (k first vofs rpl : Nat) (xs : List Int) : List MapDelta :=
  let cells := xs.mapIdx (fun i a => mapCell m k first vofs rpl i a)
  let put (l : List MapDelta) (c r : Nat) : List MapDelta :=
    if l.any (fun (d : MapDelta) => d.col == c && !d.hits.isEmpty) then
      l.map (fun (d : MapDelta) => if d.col = c ∧ !d.hits.isEmpty then { d with hits := addHit d.hits r } else d)
    else l ++ [{ map := no, col := c, hits := [(r, 1)], clip := 0 }]
  let ds := cells.foldl (fun l x => match x with | some (c, r) => put l c r | none => l) []
  let clip := (cells.filter (fun x => x.isNone)).length
  if clip = 0 then ds else ds ++ [{ map := no, col := 0, hits := [], clip := clip }]

/-- Output bytes of a column (R261). -/
def deltaBytes (d : MapDelta) : Nat :=
  match d.hits with
  | [] => 0
  | h :: t =>
    let lo := t.foldl (fun a x => min a x.1) h.1
    let hi := t.foldl (fun a x => max a x.1) h.1
    64 * cdiv (8 + 4 * (hi - lo + 1)) 64

/-! ### Groups of bins (HARM_GROUP) -/

/-- The root of a weighted sum of squares of bins, in binary64 and rounded once; the weight halves an edge bin. -/
def binRoot (xs : List Int) (bins : List (Int × Bool)) : Int :=
  let sq (b : Int × Bool) : Fp :=
    let y := fpOf (tapAt 0x3A 2 xs b.1)
    let q := f64.mul y y
    if b.2 then f64.mul q (.fin false (1 / 2)) else q
  fpTo (f32.conv (f64.sqrt (bins.foldl (fun a b => f64.add a (sq b)) (.fin false 0))))

/-- A group's bins for order `n` with `c` bins per harmonic (IEC 61000-4-7, as R247 writes them). -/
def groupBins (kind c n : Nat) : List (Int × Bool) :=
  let o : Int := (n * c : Nat)
  let span (a b : Int) : List (Int × Bool) := (List.range (b - a + 1).toNat).map (fun (i : Nat) => (o + a + (i : Int), false))
  let h : Int := (c / 2 : Nat)
  match kind with
  | 0 => if n = 0 then [(0, false)] else (o - h, true) :: span (1 - h) (h - 1) ++ [(o + h, true)]
  | 1 => if n = 0 then [(0, false)] else span (-1) 1
  | 2 => span 1 ((c : Int) - 1)
  | _ => span 2 ((c : Int) - 2)

end Sys2Proof.Machine
end

