-- ==== Sys2Proof/Machine/EngRun.lean ====
section
/-!
DEFINITION. A chain's cost (R221), the checks of its image (R218, R219), and a job's run over its operators (R220,
R223): what it stages.
-/

namespace Sys2Proof.Machine

/-! ### Costs and lengths (Table 8.4, R221) -/

/-- Formats an operator allows, as a mask; none for a code without operator. -/
def opFmts (code : Nat) : Nat :=
  match code with
  | 0x01 | 0x02 => 3
  | 0x03 | 0x04 | 0x05 | 0x06 | 0x10 | 0x11 | 0x12 | 0x13 | 0x14 | 0x15 | 0x16 | 0x1B | 0x1C | 0x20 | 0x24 | 0x29 | 0x30
  | 0x31 | 0x32 | 0x33 | 0x34 | 0x35 | 0x42 | 0x43 | 0x44 => 7
  | 0x17 | 0x22 | 0x23 | 0x25 | 0x26 | 0x27 => 5
  | 0x21 | 0x28 => 6
  | 0x36 | 0x37 => 1
  | 0x18 | 0x19 | 0x1A | 0x38 | 0x39 | 0x3A | 0x3B | 0x3C | 0x40 | 0x41 | 0x45 => 4
  | _ => 0

/-- Elements DECIMATE leaves. -/
def decLen (o : OpE) : Nat := cdiv (o.len - o.p1) (max 1 o.p0)

/-- Elements RESAMPLE_TAP forms: positions below LEN. -/
def tapLen (o : OpE) : Nat := cdiv (o.len * 65536 - o.p1) (max 1 o.p0)

/-- Elements of a subwindow operator's result. -/
def subLen (o : OpE) : Nat := cdiv o.len (max 1 (if o.p0 % 16777216 = 0 then o.len else o.p0 % 16777216))

/-- Orders HARM_GROUP covers. -/
def harmLen (o : OpE) : Nat := o.p1 % 256 + 1

/-- Elements an operator writes to OUT; 0 where it writes none. -/
def outLen (o : OpE) : Nat :=
  match o.code with
  | 0x05 => cdiv o.len 2
  | 0x06 => decLen o
  | 0x20 => cdiv o.len (max 1 (o.p2 % 128))
  | 0x22 | 0x23 => 2 ^ (o.p0 % 32)
  | 0x25 => o.p0 / 65536
  | 0x26 => tapLen o
  | 0x30 | 0x31 | 0x32 | 0x34 => subLen o
  | 0x33 => 2 * subLen o
  | 0x35 => 1 + o.p3 % 65536
  | 0x36 => o.p0 % 8192
  | 0x38 => 2 * o.len
  | 0x39 => (3 + o.p0 % 2) * (o.len / 3)
  | 0x3A => harmLen o
  | 0x3C => cdiv o.len (max 1 o.p0)
  | 0x37 | 0x40 | 0x41 | 0x42 | 0x44 | 0x45 => 0
  | _ => o.len

/-- C × V of an operator; `cplx` when its operand buffer holds complex elements, of which a vector holds half as many
(R215). -/
def opCost (cplx : Bool) (o : OpE) : Nat :=
  let l := if cplx then lanesOf o.fmt / 2 else lanesOf o.fmt
  let v := cdiv o.len l
  match o.code with
  | 0x01 | 0x02 => 0
  | 0x04 | 0x05 | 0x13 | 0x14 | 0x1C | 0x28 | 0x34 | 0x35 | 0x3A => 2 * v
  | 0x06 => cdiv (decLen o) l
  | 0x12 => (if o.fmt = 1 then 2 else 1) * v
  | 0x17 | 0x18 | 0x38 => 4 * cdiv o.len (lanesOf o.fmt / 2)
  | 0x19 | 0x36 => 4 * v
  | 0x1A => 6 * v
  | 0x20 => (if o.fmt = 0 then cdiv (o.p0 % 2048) 2 else o.p0 % 2048) * cdiv (cdiv o.len (max 1 (o.p2 % 128))) l
  | 0x21 => 5 * (o.p0 % 16) * cdiv o.len (max 1 (o.p0 / 256 % 32))
  | 0x22 => (3 * cdiv (o.p0 % 32) 2 + 1) * (if bitsOf o.p0 8 1 = 1 then v else cdiv o.len (lanesOf o.fmt / 2))
  | 0x23 => (3 * cdiv (o.p0 % 32) 2 + 1) * cdiv o.len (lanesOf o.fmt / 2)
  | 0x25 => 2 * (o.p0 / 65536) * v
  | 0x26 => (if o.p2 % 2 = 1 then 6 else 4) * cdiv (tapLen o) l
  | 0x27 => 16 * v
  | 0x37 => 8 * v
  | 0x39 => 12 * (o.len / 3)
  | 0x3B => 24 * v
  | 0x40 | 0x41 => 8
  | 0x45 => 2
  | _ => v

/-- Whether a buffer holds complex elements. -/
def bufCplx (bufs : List BufD) (b : Nat) : Bool := match bufs[b]? with | some x => x.cplx | none => false

/-- C_job (R221). -/
def chainCost (bufs : List BufD) (ops : List OpE) : Nat :=
  96 + (ops.map (fun o => 12 + opCost (bufCplx bufs o.inA) o)).foldl (· + ·) 0

/-- Bytes of a job's output at most (Table 9.4 for maps). -/
def opOutBytes (mp : Nat → MapPar) (o : OpE) : Nat :=
  match o.code with
  | 0x40 => 64
  | 0x41 => 32
  | 0x42 | 0x44 => o.len * elBytes o.fmt
  | 0x37 => cdiv o.len (2 ^ bitsOf o.p0 8 5) * (64 * cdiv (8 + 4 * min (mp (o.p0 % 16)).h (2 ^ bitsOf o.p0 8 5)) 64)
  | _ => 0

/-! ### Images (R218, R219) -/

/-- Bytes as a little-endian number. -/
def leAt (bs : List Byte) (i n : Nat) : Nat := leNat ((bs.drop i).take n)

/-- An operator entry from its 32 bytes. -/
def OpE.parse (b : List Byte) : OpE :=
  { code := leAt b 0 1, fmt := leAt b 1 1 % 4, inA := leAt b 2 1 % 16, inB := leAt b 2 1 / 16, out := leAt b 3 1 % 16,
    out2 := leAt b 3 1 / 16, len := leAt b 4 3, p0 := leAt b 8 4, p1 := leAt b 12 4, p2 := leAt b 16 4, p3 := leAt b 20 4,
    inOfs := leAt b 24 2, outOfs := leAt b 26 2 }

/-- An image from its bytes. -/
def Image.parse (b : List Byte) : Image :=
  let ops := min 16 (leAt b 4 1 % 32)
  let bufs := min 16 (leAt b 7 1 % 32)
  { trigger := leAt b 5 1 % 8, resetAtArm := leAt b 6 1 % 2 == 1, win := leAt b 8 8, hop := leAt b 16 8,
    deadline := leAt b 24 4, stateBytes := leAt b 28 4, origin := leAt b 32 8,
    bufs := (List.range bufs).map (fun i => { size := leAt b (64 + 8 * i + 2) 2 % 8192, fmt := leAt b (64 + 8 * i + 4) 1 % 4,
                                              cplx := leAt b (64 + 8 * i + 4) 1 / 4 % 2 == 1 }),
    ops := (List.range ops).map (fun k => OpE.parse ((b.drop (192 + 32 * k)).take 32)) }

/-- A feed ID of R214. -/
def feedOk (f : Nat) : Bool := f ≤ 0x2F || (0x80 ≤ f && f ≤ 0xAF)

/-- The unit and input of a feed, and whether it is synchronous. -/
def feedUnit (f : Nat) : Nat := (f % 128) / 4
def feedSync (f : Nat) : Bool := f ≥ 0x80

/-- What the checks of an image take from the machine: the rate of a feed, the elements that its window has, the channels
that the chain's context owns. -/
structure ImgEnv where
  rate : Nat → Nat
  elems : Image → Nat → Nat
  own : Nat → Bool

/-- A parameter in its stated range (R219 reason 4). -/
def opParOk (own : Nat → Bool) (o : OpE) : Bool :=
  let s8 (x : Nat) : Bool := decide (-31 ≤ int8 x ∧ int8 x ≤ 31)
  match o.code with
  | 0x01 => feedOk (o.p0 % 256)
  | 0x02 => o.p0 % 128 ≤ 0x30
  | 0x04 => o.p0 % 4 < 3 && s8 o.p1
  | 0x06 => 1 ≤ o.p0 && o.p0 ≤ 65536 && o.p1 < o.p0
  | 0x14 => s8 o.p2
  | 0x20 => 1 ≤ o.p0 % 2048 && o.p0 % 2048 ≤ 1024 && 1 ≤ o.p2 % 128 && o.p2 % 128 ≤ 64
      && (bitsOf o.p0 16 1 == 0 || (1 ≤ o.p1 % 256 && o.p1 % 256 ≤ 5))
  | 0x21 => 1 ≤ o.p0 % 16 && o.p0 % 16 ≤ 8 && 1 ≤ o.p0 / 256 % 32 && o.p0 / 256 % 32 ≤ lanesOf o.fmt
  | 0x22 | 0x23 => 4 ≤ o.p0 % 32 && o.p0 % 32 ≤ (if o.fmt = 0 then 16 else 15)
  | 0x24 => o.p0 % 16 ≤ 5
  | 0x25 => 1 ≤ o.p0 / 65536 && o.p0 / 65536 ≤ 512
  | 0x26 => 1 ≤ o.p0
  | 0x35 => o.p2 % 4 ≤ 2
  | 0x36 => 2 ≤ o.p0 % 8192 && o.p0 % 8192 ≤ 4096
  | 0x37 => bitsOf o.p0 8 5 ≤ 20
  | 0x3A => (bitsOf o.p0 8 8 == 10 || bitsOf o.p0 8 8 == 12) && 1 ≤ o.p1 % 256 && o.p1 % 256 ≤ 63
  | 0x3C => 1 ≤ o.p0 && o.p0 ≤ 65536
  | 0x40 => 1 ≤ o.len && o.len ≤ 8
  | 0x42 => own (o.p0 % 128)
  | 0x45 => o.p0 % 8 ≤ 4
  | _ => true

/-- Elements of a buffer. -/
def bufElems (b : BufD) : Nat := b.size * 64 / (elBytes b.fmt * (if b.cplx then 2 else 1))

/-- An operand: buffer, first element, elements, the format it must have, whether its elements must be complex. -/
structure Operand where
  buf : Nat
  ofs : Nat
  n : Nat
  fmt : Option Nat
  cplx : Option Bool

/-- The format of OUT (R220: scalar results are binary32). -/
def outFmt (o : OpE) : Option Nat :=
  match o.code with
  | 0x04 => some (o.p0 % 4)
  | 0x25 | 0x30 | 0x31 | 0x32 | 0x33 | 0x34 | 0x35 => some 2
  | 0x36 => none
  | _ => some o.fmt

/-- Elements read from IN_B; 0 for none. -/
def inBLen (o : OpE) : Nat :=
  match o.code with
  | 0x10 | 0x11 | 0x12 | 0x13 | 0x17 | 0x34 => o.len
  | 0x20 => if bitsOf o.p0 16 1 = 1 then 0 else o.p0 % 2048
  | 0x21 => 5 * (o.p0 % 16)
  | _ => 0

/-- Whether Table 8.4 has complex elements in IN_A, IN_B and OUT, or plain ones; `ca`: IN_A's are complex. Where an operator
gives one element for each, OUT's are as IN_A's. -/
def inACplx (o : OpE) : Option Bool :=
  match o.code with
  | 0x17 | 0x18 | 0x23 | 0x38 | 0x39 => some true
  | 0x22 => some (bitsOf o.p0 8 1 == 0)
  | _ => none
def inBCplx (ca : Bool) (o : OpE) : Option Bool :=
  match o.code with
  | 0x17 => some true
  | 0x20 | 0x21 => some false
  | _ => some ca
def outCplx (ca : Bool) (o : OpE) : Option Bool :=
  match o.code with
  | 0x17 | 0x22 | 0x23 | 0x25 | 0x39 => some true
  | 0x18 | 0x38 => some false
  | 0x03 | 0x04 | 0x05 | 0x06 | 0x10 | 0x11 | 0x12 | 0x13 | 0x14 | 0x15 | 0x16 | 0x1B | 0x1C | 0x20 | 0x21 | 0x24 | 0x26 | 0x27
  | 0x28 | 0x29 => some ca
  | _ => none

/-- The operands an operator names; `win` are the elements of a FEED_IN's window, which the header gives. -/
def opOperands (ca : Bool) (win : Nat) (o : OpE) : List Operand :=
  let n := if o.code = 1 then win else outLen o
  (if o.code = 1 ∨ o.code = 2 ∨ o.code = 0x43 then [] else
      [{ buf := o.inA, ofs := o.inOfs, n := if o.code = 0x41 ∨ o.code = 0x45 then 1 else o.len, fmt := some o.fmt, cplx := inACplx o }])
    ++ (if inBLen o = 0 then [] else [{ buf := o.inB, ofs := o.inOfs, n := inBLen o, fmt := some o.fmt, cplx := inBCplx ca o }])
    ++ (if n = 0 then [] else [{ buf := o.out, ofs := o.outOfs, n := n, fmt := outFmt o, cplx := outCplx ca o }])
    ++ (if o.code = 5 then [{ buf := o.out2, ofs := o.outOfs, n := n, fmt := some o.fmt, cplx := some ca }] else [])

/-- The reason an operator entry fails, 0 for none (R219). -/
def opCheck (own : Nat → Bool) (bufs : List BufD) (win : Nat) (o : OpE) : Nat :=
  if (opFmts o.code >>> o.fmt) % 2 = 0 then 2
  else
    let bad (x : Operand) : Nat :=
      match bufs[x.buf]? with
      | none => 3
      | some b =>
        if b.fmt == 3 || (match x.fmt with | some f => f != b.fmt | none => b.fmt == 0) || x.cplx == some (!b.cplx) then 2
        else if x.ofs + (if o.code = 1 && b.cplx then cdiv x.n 2 else x.n) > bufElems b then 3 else 0
    match (opOperands (bufCplx bufs o.inA) win o).find? (fun x => bad x != 0) with
    | some x => bad x
    | none => if opParOk own o then 0 else 4

/-- The feeds of an image with their formats. -/
def imgFeeds (i : Image) : List (Nat × Nat) := (i.ops.filter (fun o => o.code == 1)).map (fun o => (o.p0 % 256, o.fmt))

/-- A value of one format brought to an operator's: a 16-bit value fills the high half of 32 bits, a 32-bit one is rounded
and saturated. -/
def toOpFmt (wide : Bool) (fmt : Nat) (x : Int) : Int :=
  if fmt = 0 then (if wide then satTo 16 (rc x 16) else x) else (if wide then x else x * 65536)

/-- Whether that clamps a value, which sets OVR (R216). -/
def opFmtClamps (wide : Bool) (fmt : Nat) (x : Int) : Bool := fmt == 0 && wide && decide (satTo 16 (rc x 16) ≠ rc x 16)

/-- Bytes of buffers and state. -/
def imgBytes (i : Image) : Nat := (i.bufs.map (fun b => 64 * b.size)).foldl (· + ·) 0 + i.stateBytes

/-- The first failing operator entry from `k` on, with its reason. `seen` FEED_INs stood before it; `sumOk` tells whether
the CHECK of an entry holds. -/
def opsCheck (env : ImgEnv) (sumOk : Nat → Bool) (i : Image) (first : Option Nat) : Nat → Nat → List OpE → Option (Nat × Nat)
  | _, _, [] => none
  | k, seen, o :: os =>
    if !sumOk k then some (k, 1)
    else
      let r := opCheck env.own i.bufs (env.elems i (o.p0 % 256)) o
      if r ≠ 0 then some (k, r)
      else if o.code = 1 then
        if seen ≠ k ∨ seen ≥ 4 then some (k, 5)
        else
          let f := o.p0 % 256
          let bad := match first with
            | some g => env.rate f != env.rate g
            | none => false
          if bad then some (k, 6)
          else opsCheck env sumOk i (some (first.getD f)) (k + 1) (seen + 1) os
      else opsCheck env sumOk i first (k + 1) seen os

/-- Why an image is refused for what it says: its buffers, its operators, its trigger and window, its size (R219). -/
def imgFails (env : ImgEnv) (sumOk : Nat → Bool) (i : Image) : Option (Nat × Nat) :=
  if i.bufs.any (fun b => b.fmt == 3) then some (31, 2)
  else
    match opsCheck env sumOk i none 0 0 i.ops with
    | some e => some e
    | none =>
      let feeds := imgFeeds i
      if (i.trigger ≤ 2) ≠ (feeds ≠ []) then some (31, 5)
      else if (i.win = 0 ∧ i.trigger ≠ 3) ∨ (i.hop = 0 ∧ i.trigger ≤ 2)
          ∨ (i.trigger = 2 ∧ (i.win < 1000 ∨ i.hop < 1000)) then some (31, 4)
      else if imgBytes i > 458752 then some (31, 7) else none

/-- Why CHAIN_LOAD refuses an image: the entry (31 for the header) and the reason (R219). -/
def imgCheck (env : ImgEnv) (b : List Byte) : Option (Nat × Nat) :=
  let ops := leAt b 4 1 % 32
  let bufs := leAt b 7 1 % 32
  let i := Image.parse b
  if b.length < 192 then some (31, 7)
  else if check16 (b.take 62) ≠ leAt b 62 2 then some (31, 1)
  else if ops = 0 ∨ ops > 16 ∨ bufs = 0 ∨ bufs > 16 ∨ i.trigger > 4 ∨ i.stateBytes > 16384 then some (31, 4)
  else if b.length ≠ 192 + 32 * ops then some (31, 7)
  else imgFails env (fun k => check16 ((b.drop (192 + 32 * k)).take 30) == leAt b (192 + 32 * k + 30) 2) i

/-! ### Running a job (R220, R226) -/

/-- Scalars read from a buffer. -/
def EEnv.rdb (e : EEnv) (b ofs n : Nat) : List Int :=
  match e.bufs[b]? with
  | some x => let k := if x.cplx then 2 else 1; (x.v.drop (k * ofs)).take (k * n)
  | none => []

/-- Scalars written to a buffer. -/
def EEnv.wrb (e : EEnv) (b ofs : Nat) (ws : List Int) : EEnv :=
  { e with bufs := listMod e.bufs b (fun x =>
      let k := if x.cplx then 2 else 1
      { x with v := (x.v.take (k * ofs) ++ ws ++ x.v.drop (k * ofs + ws.length)).take x.v.length }) }

/-- Results with their clamp flag. -/
def EEnv.wrs (e : EEnv) (o : OpE) (r : List (Int × Bool)) : EEnv :=
  let (ws, c) := joinSat r
  { (e.wrb o.out o.outOfs ws) with ovr := e.ovr || c }

/-- State of the operator at place `k`. -/
def EEnv.st1 (e : EEnv) (k : Nat) : List Int := e.st.ops.getD k []
def EEnv.setSt (e : EEnv) (k : Nat) (l : List Int) : EEnv :=
  { e with st := { e.st with ops := listMod e.st.ops k (fun _ => l) } }

/-- The parameters of an operator that a printed formula does not cover. -/
def opPars (o : OpE) : List Nat := [o.fmt, o.len, o.p0, o.p1, o.p2, o.p3]

/-- Results of an operator whose values the manual does not print. -/
def openRes (o : OpE) (fmt n : Nat) (xs : List Int) : List Int :=
  (List.range n).map (fun i => inFmt fmt (Config.engVal o.code (opPars o) xs i))

/-- State padded with zeros to a length. -/
def padTo (n : Nat) (l : List Int) : List Int := l.take n ++ List.replicate (n - l.length) 0

/-- Scalars of an element of a buffer. -/
def EEnv.elK (e : EEnv) (b : Nat) : Nat := match e.bufs[b]? with | some x => if x.cplx then 2 else 1 | none => 1

/-- An operator that works on each component of its elements alike, with a share of the state for each. -/
def EEnv.each (e : EEnv) (k : Nat) (o : OpE) (n : Nat) (run : List Int → List Int → List (Int × Bool) × List Int) : EEnv :=
  let c := e.elK o.inA
  let st := e.st1 k
  let rs := (lanes c (e.rdb o.inA o.inOfs o.len)).mapIdx (fun i xs => run ((st.drop (i * n)).take n) xs)
  (e.wrs o (unlanes (0, false) (rs.map (fun r => r.1)))).setSt k (rs.flatMap (fun r => r.2))

/-- FIR and HILBERT. -/
def runFir (k : Nat) (o : OpE) (e : EEnv) : EEnv :=
  let hil := o.code == 0x27
  let rom := hil || bitsOf o.p0 16 1 == 1
  let t := if hil then 63 else o.p0 % 2048
  let q : List Int := (List.range t).map (fun i => if hil then Config.engVal 0x27 [] [] i else romCoef (o.p1 % 256) i)
  let taps := if rom then (if o.fmt = 2 then q.map q17 else q) else e.rdb o.inB o.inOfs t
  let d := if hil then 1 else max 1 (o.p2 % 128)
  e.each k o (t - 1) (fun st xs => firRun o.fmt (if rom then 17 else qF o.fmt) d taps 0 (padTo (t - 1) st) xs)

/-- BIQUAD. -/
def runBiquad (k : Nat) (o : OpE) (e : EEnv) : EEnv :=
  let xs := e.rdb o.inA o.inOfs o.len
  let kk := o.p0 % 16
  let m := o.p0 / 256 % 32
  let cs := chunksOf 5 kk (e.rdb o.inB o.inOfs (5 * kk))
  let (ys, sts) := biquadRun o.fmt m cs 0 (chunksOf (4 * kk) m (padTo (4 * kk * m) (e.st1 k))) xs
  (e.wrs o ys).setSt k sts.flatten

/-- INTEGRATE. -/
def runIntegrate (k : Nat) (o : OpE) (e : EEnv) : EEnv :=
  let go (acc : List (Int × Bool) × Int) (x : Int) : List (Int × Bool) × Int :=
    if o.fmt = 2 then
      let t := f32.add (fpOf acc.2) (fpOf x)
      (acc.1 ++ [(fpTo (f32.mul t (fpOf (parOf 2 o.p0))), false)], fpTo t)
    else (acc.1 ++ [qSat o.fmt (rc ((acc.2 + x) * parOf o.fmt o.p0) (qF o.fmt))], acc.2 + x)
  e.each k o 1 (fun st xs => let r := xs.foldl go ([], st.headD 0); (r.1, [r.2]))

/-- DIFF. -/
def runDiff (k : Nat) (o : OpE) (e : EEnv) : EEnv :=
  e.each k o 1 (fun st xs =>
    let prev := st.headD 0 :: xs
    ((xs.zip prev).map (fun p => elem2 0x11 o.fmt p.1 p.2), [prev.getLastD 0]))

/-- THRESHOLD. -/
def runThreshold (k : Nat) (o : OpE) (e : EEnv) : EEnv :=
  let xs := e.rdb o.inA o.inOfs o.len
  let go (acc : List Int × Option Bool) (x : Int) : List Int × Option Bool :=
    let u := cmpU o.fmt o.p0 o.p1 (acc.2.getD false) x
    (acc.1 ++ [if u then fullScale o.fmt else 0], some u)
  let st0 : Option Bool := match e.st1 k with | x :: _ => some (x != 0) | [] => none
  let (ys, u) := xs.foldl go ([], st0)
  (e.wrb o.out o.outOfs ys).setSt k [if u.getD false then 1 else 0]

/-- ZERO_CROSS; its state is U, W and the last sample. -/
def runCross (k : Nat) (o : OpE) (e : EEnv) : EEnv :=
  let xs := e.rdb o.inA o.inOfs o.len
  let st := e.st1 k
  let p : Option Int := st[2]?
  let (es, u, w, q) := crossRun o.fmt o.p0 o.p1 (o.p2 % 4) 0 (st.headD 0 != 0) (st.getD 1 0 != 0) p xs
  let out := fpTo (f32.ofRat ((es.length : Nat) : Rat)) :: es.take (o.p3 % 65536)
  let st' : List Int := match q with
    | some x => [if u then 1 else 0, if w then 1 else 0, x]
    | none => []
  (e.wrb o.out o.outOfs out).setSt k st'

/-- FLICKER: the filters' state is sixteen numbers. -/
def runFlicker (k : Nat) (o : OpE) (e : EEnv) : EEnv :=
  let xs := e.rdb o.inA o.inOfs o.len
  let go (acc : List Int × List Int) (x : Int) : List Int × List Int :=
    (acc.1 ++ [inFmt 2 (Config.engVal 0x3B [o.p0 % 4] (x :: acc.2) 16)],
      (List.range 16).map (fun i => Config.engVal 0x3B [o.p0 % 4] (x :: acc.2) i))
  let (ys, st) := xs.foldl go ([], padTo 16 (e.st1 k))
  (e.wrb o.out o.outOfs ys).setSt k st

/-- SEQ_COMP with its ratios. -/
def seqComp (ratios : Bool) (c : List Int) : List Int :=
  let r := if c.all (numeric 2) then (seqParts 2 c).mapIdx (fun i v => (near 0x39 [] 2 c i v).1)
    else (List.range 6).map (fun i => inFmt 2 (Config.engVal 0x39 [] c i))
  let mag (i : Nat) := fpOf (cplxMag (r.getD (2 * i) 0) (r.getD (2 * i + 1) 0))
  r ++ (if ratios then [fpTo (f32.div (mag 2) (mag 1)), fpTo (f32.div (mag 0) (mag 1))] else [])

/-- FFT and IFFT: N elements, the operand filled up with zeros; FMT 0 scaled by 1/N. -/
def runFft (o : OpE) (inv : Bool) (e : EEnv) : EEnv :=
  let xs := e.rdb o.inA o.inOfs o.len
  let n := 2 ^ (o.p0 % 32)
  if !xs.all (numeric o.fmt) then e.wrb o.out o.outOfs (openRes o o.fmt (2 * n) xs)
  else
    let zs := (cplxRat o.fmt (e.elK o.inA == 2) xs).take n
    let sc : Rat := if o.fmt = 0 then 1 / (n : Rat) else 1
    e.wrs o ((List.range n).flatMap (fun (k : Nat) =>
      let z := dftAt n inv (k : Rat) zs
      [near o.code (opPars o) o.fmt xs (2 * k) (z.1 * sc), near o.code (opPars o) o.fmt xs (2 * k + 1) (z.2 * sc)]))

/-- DFT_BIN: bin m lies at k0 + m × step cycles per LEN. -/
def runBins (o : OpE) (e : EEnv) : EEnv :=
  let xs := e.rdb o.inA o.inOfs o.len
  if !xs.all (numeric o.fmt) then e.wrb o.out o.outOfs (openRes o 2 (2 * outLen o) xs)
  else
    let zs := cplxRat o.fmt (e.elK o.inA == 2) xs
    e.wrs o ((List.range (outLen o)).flatMap (fun (m : Nat) =>
      let z := dftAt o.len false ((o.p0 % 65536 : Nat) + (m : Rat) * (o.p1 : Rat) / 65536) zs
      [near 0x25 (opPars o) 2 xs (2 * m) z.1, near 0x25 (opPars o) 2 xs (2 * m + 1) z.2]))

/-- WINDOW. -/
def runWindow (o : OpE) (e : EEnv) : EEnv :=
  let xs := e.rdb o.inA o.inOfs o.len
  if o.p0 % 16 = 0 then e.wrb o.out o.outOfs xs
  else
    let c := e.elK o.inA
    let ws := winCoefs (o.p0 % 16) ((o.p1 % 65536 : Nat) / 32768) (o.p2 % 2 == 1) (xs.length / c)
    e.wrs o (xs.mapIdx (fun i x =>
      let w := ws.getD (i / c) 0
      if numeric o.fmt x then near 0x24 (opPars o) o.fmt [x] i (ratOf o.fmt x * w) else (fpTo (f32.mul (fpOf x) (f32.ofRat w)), false)))

/-- Operators that need no state of their own. -/
def runPlain (o : OpE) (e : EEnv) : EEnv :=
  let xs := e.rdb o.inA o.inOfs o.len
  let ys := e.rdb o.inB o.inOfs o.len
  let put (l : List Int) := e.wrb o.out o.outOfs l
  let els := chunksOf (e.elK o.inA) xs.length xs
  match o.code with
  | 0x03 => put xs
  | 0x04 => e.wrs o (xs.map (elemConvert o.fmt (o.p0 % 4) (int8 o.p1)))
  | 0x05 =>
    let ps := els.mapIdx (fun i x => (i, x))
    (put ((ps.filter (fun p => p.1 % 2 == 0)).flatMap (fun p => p.2))).wrb o.out2 o.outOfs
      ((ps.filter (fun p => p.1 % 2 == 1)).flatMap (fun p => p.2))
  | 0x06 => put ((els.mapIdx (fun i x => (i, x))).filter (fun p => o.p1 ≤ p.1 && (p.1 - o.p1) % max 1 o.p0 == 0)
      |>.flatMap (fun p => p.2))
  | 0x10 | 0x11 | 0x12 => e.wrs o ((xs.zip ys).map (fun p => elem2 o.code o.fmt p.1 p.2))
  | 0x13 =>
    let os := if o.p0 % 2 = 1 then xs.map (fun _ => 0) else e.rdb o.out o.outOfs o.len
    e.wrs o ((os.zip (xs.zip ys)).map (fun p => elemMac o.fmt p.1 p.2.1 p.2.2))
  | 0x14 => e.wrs o (xs.map (elemScale o.fmt o.p0 o.p1 o.p2))
  | 0x15 | 0x16 => e.wrs o (xs.map (fun a => elem2 o.code o.fmt a a))
  | 0x17 => e.wrs o (((pairsOf xs).zip (pairsOf ys)).flatMap (fun p =>
      cplxMul o.fmt (o.p0 % 2 == 1) p.1.1 p.1.2 p.2.1 p.2.2))
  | 0x18 => put ((pairsOf xs).map (fun p => cplxMag p.1 p.2))
  | 0x19 => put (xs.map (fun a => fpTo (f32.sqrt (fpOf a))))
  | 0x1A => put (xs.map (fun a =>
      fpTo (f32.add (f32.mul (.fin false 20) (f32.log10 (fpOf a).abs)) (fpOf (parOf 2 o.p0)))))
  | 0x1B => put (xs.map (elemClamp o.fmt o.p0 o.p1))
  | 0x22 => runFft o false e
  | 0x23 => runFft o true e
  | 0x24 => runWindow o e
  | 0x25 => runBins o e
  | 0x26 => e.wrs o (unlanes (0, false) ((lanes (e.elK o.inA) xs).map (fun l =>
      (List.range (tapLen o)).map (fun i => tapOut o.fmt (o.p2 % 2 == 1) l (o.p1 + i * o.p0)))))
  | 0x30 => put ((subwindows (o.p0 % 16777216) xs).map (fun w => redSum o.fmt w.1 false false (w.2.map (fun a => (a, a))) false))
  | 0x31 => put ((subwindows (o.p0 % 16777216) xs).map (fun w => redSum o.fmt w.1 true true (w.2.map (fun a => (a, a))) true))
  | 0x32 => put ((subwindows (o.p0 % 16777216) xs).map (fun w => redSum o.fmt w.1 true false (w.2.map (fun a => (a, a))) false))
  | 0x33 => put ((subwindows (o.p0 % 16777216) xs).flatMap (fun w => redMinMax o.fmt w.2))
  | 0x34 => put ((subwindows (o.p0 % 16777216) (xs.zip ys)).map (fun w => redSum o.fmt w.1 (o.p1 % 2 == 1) false w.2 true))
  | 0x36 => put (histCounts (o.p0 % 8192) (sext 16 o.p1) (sext 16 (o.p1 / 65536)) xs)
  | 0x38 => put ((pairsOf xs).flatMap (fun p => [cplxMag p.1 p.2, fpTo (f32.atan2 (fpOf p.2) (fpOf p.1))]))
  | 0x39 => put ((chunksOf 6 xs.length xs).flatMap (seqComp (o.p0 % 2 == 1)))
  | 0x3A => put ((List.range (harmLen o)).map (fun n => binRoot xs (groupBins (o.p0 % 4) (bitsOf o.p0 8 8) n)))
  | 0x3C => put ((subwindows (max 1 o.p0) xs).map (fun w => redSum 2 w.1 true true (w.2.map (fun a => (a, a))) true))
  | _ => e

/-- Operators that stage outputs, use state slots, or skip. -/
def runStage (o : OpE) (e : EEnv) : EEnv :=
  let xs := e.rdb o.inA o.inOfs o.len
  let out := e.out
  match o.code with
  | 0x37 =>
    let no := o.p0 % 16
    let ds := mapDeltas no (e.mp no) (bitsOf o.p0 8 5) (o.p2 % 65536) (o.p1 % 65536) (o.p1 / 65536) xs
    { e with out := { out with maps := out.maps ++ ds, bytes := out.bytes + (ds.map deltaBytes).foldl (· + ·) 0 } }
  | 0x40 =>
    let r : ResOut := { stream := o.p0 % 16, kind := bitsOf o.p0 8 8, vals := (xs.take 8).map Int.toNat }
    { e with out := { out with res := out.res ++ [r], bytes := out.bytes + 64 } }
  | 0x41 =>
    let v := (e.rdb o.inA o.inOfs 1).headD 0
    { e with out := { out with bns := out.bns ++ [(o.p0 % 32, v.toNat)], bytes := out.bytes + 32 } }
  | 0x42 =>
    let bs := xs.flatMap (fun x => natBytes (elBytes o.fmt) (wrapTo 32 x))
    { e with out := { out with host := out.host ++ [(o.p0 % 128, o.p1 % 65536, bs)], bytes := out.bytes + bs.length } }
  | 0x43 => e.wrb o.out o.outOfs (padTo o.len (e.st.slots.getD (o.p0 % 8) []))
  | 0x44 =>
    { e with st := { e.st with slots := listMod e.st.slots (o.p0 % 8) (fun _ => xs) },
             out := { out with bytes := out.bytes + elBytes o.fmt * xs.length } }
  | 0x45 =>
    let a := fpOf ((e.rdb o.inA o.inOfs 1).headD 0)
    let l := fpOf (parOf 2 o.p1)
    let c := match o.p0 % 8 with
      | 1 => l.le a
      | 2 => a.lt l
      | 3 => a.isNan
      | 4 => e.fill
      | _ => false
    if c then { e with skip := bitsOf o.p0 8 4 } else e
  | _ => e

/-- One operator at place `k`; `j` counts the FEED_IN and STORE_IN before it. A FEED_IN lands the whole window, which the
header gives. -/
def runOp (k j : Nat) (o : OpE) (e : EEnv) : EEnv :=
  match o.code with
  | 0x01 => e.wrb o.out o.outOfs (e.ins.getD j [])
  | 0x02 => e.wrb o.out o.outOfs ((e.ins.getD j []).take (o.len * e.elK o.out))
  | 0x20 | 0x27 => runFir k o e
  | 0x21 => runBiquad k o e
  | 0x28 => runIntegrate k o e
  | 0x29 => runDiff k o e
  | 0x1C => runThreshold k o e
  | 0x35 => runCross k o e
  | 0x3B => runFlicker k o e
  | 0x37 | 0x40 | 0x41 | 0x42 | 0x43 | 0x44 | 0x45 => runStage o e
  | _ => runPlain o e

/-- The operators in order; those that SKIP_IF names do not run and cost nothing (R221). -/
def runOps : Nat → Nat → List OpE → EEnv → EEnv
  | _, _, [], e => e
  | k, j, o :: os, e =>
    let j' := if o.code = 1 ∨ o.code = 2 then j + 1 else j
    if e.skip > 0 then runOps (k + 1) j' os { e with skip := e.skip - 1 }
    else runOps (k + 1) j' os (runOp k j o { e with
      cycles := e.cycles + 12 + opCost (match e.bufs[o.inA]? with | some b => b.cplx | none => false) o })

/-- The buffers of a job before its first operator: their contents are open. -/
def freshBufs (nonce : Nat) (bs : List BufD) : List EBuf :=
  bs.mapIdx (fun b d =>
    { fmt := d.fmt, cplx := d.cplx,
      v := (List.range (64 * d.size / elBytes d.fmt)).map (fun i => inFmt d.fmt (Config.engVal 0 [nonce, b] [] i)) })

def Staged.empty (st : ChSt) : Staged :=
  { st := st, maps := [], res := [], bns := [], host := [], bytes := 0, ovr := false }

/-- A job of a chain image: what it stages and its cycles. -/
def runImage (nonce : Nat) (i : Image) (st : ChSt) (mp : Nat → MapPar) (fill : Bool) (ins : List (List Int)) :
    Staged × Nat :=
  let e := runOps 0 0 i.ops
    { bufs := freshBufs nonce i.bufs, st := st, ins := ins, mp := mp, fill := fill, ovr := false, skip := 0, cycles := 96,
      out := Staged.empty st }
  ({ e.out with st := e.st, ovr := e.ovr }, e.cycles)

end Sys2Proof.Machine
end

