-- ==== Sys2Proof/Machine/StoreRead.lean ====
section
/-!
DEFINITION. Reading what a capture has stored, from the Granary or the Silo (R203, R211, R213): bytes, items, their times,
the operands of STORE_IN.
-/

namespace Sys2Proof.Machine

/-- A granule of a stream, while the Granary or the Silo holds it. -/
def granAt (s : State) (id n : Nat) : Option (List Byte) :=
  let c := s.cs id
  match (c.ring ++ c.frozen).find? (fun g => g.n == n) with
  | some g => if s.domOn .intake then some g.bytes else none
  | none =>
    let cap := s.rd F_CAP_CAPTURE_CAPTURE
    if !s.domOn .memc then none
    else
      match s.cap.tbl.find? (fun x => x.2.valid && x.2.stream == id && x.2.capture == cap && x.2.start ≤ 64 * n
          && 64 * n < x.2.start + 64 * x.2.used && !x.2.stale.contains ((64 * n - x.2.start) / 64)) with
      | none => none
      | some x => some (s.dramRead (pageAddr s x.1 + (64 * n - x.2.start)) 64)

/-- Granules from `n` on. -/
def granRun (s : State) (id n : Nat) : Nat → Option (List Byte)
  | 0 => some []
  | k + 1 =>
    match granAt s id n with
    | none => none
    | some b => (granRun s id (n + 1) k).map (fun r => b ++ r)

/-- Whether stream bytes up to a place exist in the Granary or the Silo. -/
def storeExists (s : State) (id hi : Nat) : Bool := decide (hi ≤ (s.cs id).bytes)

/-- `n` bytes of a stream from `lo` on. -/
def storeBytes (s : State) (id lo n : Nat) : Option (List Byte) :=
  if n = 0 then some []
  else (granRun s id (lo / 64) ((lo + n - 1) / 64 - lo / 64 + 1)).map (fun b => (b.drop (lo % 64)).take n)

/-- The time of item `k` of a stream (R13, R170, Table 8.5). -/
def storeTime (s : State) (id k : Nat) : Option Nat :=
  if id < 48 then some (itemTime s id k)
  else if id = 0x30 then
    (storeBytes s id (16 * k) 16).map (fun b => leAt b 0 8 * ns1 + leAt b 8 1 % 128 * 33554432)
  else (storeBytes s id (itemBytes s id * k) 12).map (fun b => leAt b 0 12)

/-- Items begun of a stream. -/
def storeItems (s : State) (id : Nat) : Nat := (s.cs id).bytes / itemBytes s id

/-- The first item at or after a time, by halving; an item no longer held counts as before it. -/
def firstItem (s : State) (id t : Nat) : Nat → Nat → Nat → Nat
  | 0, _, hi => hi
  | f + 1, lo, hi =>
    if lo ≥ hi then hi
    else
      let mid := (lo + hi) / 2
      let after := match storeTime s id mid with | some x => decide (x ≥ t) | none => false
      if after then firstItem s id t f lo mid else firstItem s id t f (mid + 1) hi

/-- Values of a stored sample stream, in the stored format. -/
def storeVals (fmt : Nat) (bs : List Byte) : List Int :=
  match fmt with
  | 0 => (chunksOf 24 bs.length bs).flatMap (fun c =>
      let x := leNat c
      (List.range 16).map (fun k => sext 12 (x / 2 ^ (12 * k)) * 16))
  | 1 => (chunksOf 2 bs.length bs).map (fun c => sext 16 (leNat c))
  | _ => (chunksOf 4 bs.length bs).map (fun c => sext 32 (leNat c))

/-- What STORE_IN finds: not yet there, gone, or the values. -/
inductive StoreGot where
  | wait
  | gone
  | got (vs : List Int)
deriving DecidableEq, Repr

/-- The item STORE_IN starts at: the first at or after the window's start, and its offset. -/
def storeStart (s : State) (o : OpE) (start : Nat) : Int :=
  let id := o.p0 % 128
  (firstItem s id start 64 0 (storeItems s id) : Int) + sext 64 (o.p1 + o.p2 * 4294967296)

/-- Values of one stored item. -/
def itemVals (s : State) (id : Nat) : Nat := if id < 48 then itemIdx s id * capVals s (id / 4) else itemBytes s id / 4

/-- The operand of a STORE_IN for a window that starts at `start` (Table 8.4, R223). -/
def storeIn (s : State) (o : OpE) (start : Nat) : StoreGot :=
  let id := o.p0 % 128
  let k := storeStart s o start
  if k < 0 then .gone
  else
    let items := cdiv o.len (max 1 (itemVals s id))
    let lo := k.toNat * itemBytes s id
    let n := items * itemBytes s id
    if !storeExists s id (lo + n) then (if s.cap.armed then .wait else .gone)
    else
      match storeBytes s id lo n with
      | none => .gone
      | some bs =>
        if id < 48 then
          let fmt := s.rd (F_DFU_MODE_FMT (id / 4))
          .got (((storeVals fmt bs).take o.len).map (toOpFmt (fmt == 2) o.fmt))
        else
          let ws := ((chunksOf 4 bs.length bs).map (fun c => sext 32 (leNat c))).take o.len
          .got (if o.fmt = 1 then ws else ws.map (fun w => inFmt 0 (Config.engVal 2 [] [w] 0)))

/-- FILL (4), SUSPECT (1), OVR (2) and UNSETTLED (32) over indices [a, b) of a stored sample stream (R191, R223). -/
def storeFlags (s : State) (id a b : Nat) : Nat :=
  let c := s.cs (id / 4 * 4)
  let own (k : Nat) : Bool := (s.cs id).flagRuns.any (fun r => r.1 == k && r.2.1 < b && a < r.2.1 + r.2.2)
  let runs := c.spans ++ (match c.fillRun with | some r => [(5, r.2.1, r.2.2)] | none => [])
    ++ (match c.suspRun with | some r => [(6, r.2.1, r.2.2)] | none => [])
  let hit (k : Nat) : Bool := runs.any (fun r => r.1 == k && r.2.1 < b && a < r.2.1 + r.2.2)
  (if hit 5 then 4 else 0) + (if hit 6 then 1 else 0) + (if own 2 then 2 else 0) + (if own 32 then 32 else 0)

/-- A value of a STORE_IN is clamped on its way to the operator's format (R216). -/
def storeClamps (s : State) (o : OpE) (start : Nat) : Bool :=
  let id := o.p0 % 128
  let n := cdiv o.len (max 1 (itemVals s id)) * itemBytes s id
  match storeBytes s id ((storeStart s o start).toNat * itemBytes s id) n with
  | none => false
  | some bs =>
    let fmt := s.rd (F_DFU_MODE_FMT (id / 4))
    ((storeVals fmt bs).take o.len).any (opFmtClamps (fmt == 2) o.fmt)

/-- The flags of a STORE_IN's items. -/
def storeInFlags (s : State) (o : OpE) (start : Nat) : Nat :=
  let id := o.p0 % 128
  if id ≥ 48 then 0
  else
    let a := (storeStart s o start).toNat * itemIdx s id
    storeFlags s id a (a + cdiv o.len (max 1 (capVals s (id / 4)))) ||| (if storeClamps s o start then 2 else 0)

end Sys2Proof.Machine
end

