-- ==== Sys2Proof/Machine/ClaimRead.lean ====
section
/-!
DEFINITION. CLAIM_READ (R203): the stretch of a claim or segment on one stream, its bytes, and the transfer or
compression job that takes them to the host.
-/

namespace Sys2Proof.Machine

/-- A run of stream bytes of one capture, and the number of the item at its start. -/
structure Stretch where
  cap : Nat
  lo : Nat
  hi : Nat
  item : Nat
deriving DecidableEq, Repr

/-- The first number of [lo, hi) that passes a test which holds from some place on; `hi` if none does. -/
def firstFrom (test : Nat → Bool) : Nat → Nat → Nat → Nat
  | 0, _, hi => hi
  | f + 1, lo, hi =>
    if lo ≥ hi then hi
    else if test ((lo + hi) / 2) then firstFrom test f lo ((lo + hi) / 2) else firstFrom test f ((lo + hi) / 2 + 1) hi

/-- The part of a page whose items lie in [t0, t1). -/
def pageStretch (s : State) (t0 t1 : Nat) (p : Nat × Page) : Stretch :=
  let x := p.2
  let isz := itemBytes s x.stream
  let n := cdiv (64 * x.used - x.firstOfs) isz
  let at_ (t : Nat) := firstFrom (fun k => decide (t ≤ pageItemTime s p.1 x k)) 24 0 n
  { cap := x.capture, lo := x.start + x.firstOfs + at_ t0 * isz, hi := x.start + x.firstOfs + at_ t1 * isz,
    item := x.firstItem + at_ t0 * itemIdx s x.stream }

/-- The stretch in the present capture; it has no end yet while data up to t1 may still come. -/
def liveStretch (s : State) (id t0 t1 : Nat) : Stretch :=
  let isz := itemBytes s id
  let n := storeItems s id
  let a := firstItem s id t0 40 0 n
  let b := if s.cap.armed && decide ((s.cs id).lastTs < t1) then a + 2 ^ 48 else firstItem s id t1 40 0 n
  { cap := s.rd F_CAP_CAPTURE_CAPTURE, lo := a * isz, hi := b * isz, item := a * itemIdx s id }

/-- The granules frozen for a held segment. -/
def heldGrans (s : State) (id : Nat) (held : Option (Nat × Nat)) : List Gran :=
  match held with
  | none => []
  | some k => (s.cs id).frozen.filter (fun g => g.heldFor.contains k)

/-- The pages of a stream in a capture. -/
def capturePages (s : State) (id cap : Nat) : List (Nat × Page) :=
  s.cap.tbl.filter (fun x => x.2.valid && x.2.stream == id && x.2.capture == cap)

/-- The byte ranges of a stream that are kept, in rising order: its pages, the granules of a held segment, and what the
drain has still to bring; a range that was never stored, or no longer is, stands in none. -/
def keptRanges (s : State) (id cap : Nat) (held : Option (Nat × Nat)) : List (Nat × Nat) :=
  let c := s.cs id
  let pages := (capturePages s id cap).map (fun x => (x.2.start, x.2.start + 64 * x.2.used))
  let grans := (heldGrans s id held).map (fun g => (64 * g.n, 64 * g.n + 64))
  let tail := if cap ≠ s.rd F_CAP_CAPTURE_CAPTURE || held.isSome then []
    else [(64 * c.drained, if s.cap.armed then 64 * c.drained + 2 ^ 60 else c.bytes)]
  (pages ++ grans ++ tail).mergeSort (fun a b => Nat.ble a.1 b.1)

/-- Ranges that meet or touch are joined. -/
def joinRanges : List (Nat × Nat) → List (Nat × Nat) → List (Nat × Nat)
  | acc, [] => acc.reverse
  | [], r :: rs => joinRanges [r] rs
  | a :: acc, r :: rs =>
    if Nat.ble r.1 a.2 then joinRanges ((a.1, max a.2 r.2) :: acc) rs else joinRanges (r :: a :: acc) rs

/-- A stretch without the bytes that are not kept: CAP goes on with the next page (R203), at whole items. -/
def keptRuns (s : State) (id : Nat) (held : Option (Nat × Nat)) (x : Stretch) : List Stretch :=
  let isz := itemBytes s id
  ((joinRanges [] (keptRanges s id x.cap held)).map (fun r =>
    let lo := cdiv (max x.lo r.1) isz * isz
    { x with lo := lo, hi := min x.hi (r.2 / isz * isz), item := x.item + (lo - x.lo) / isz * itemIdx s id })).filter
      (fun (y : Stretch) => decide (y.lo < y.hi))

/-- The stretch of a stream over [t0, t1): of one capture, or of all. -/
def stretches (s : State) (id t0 t1 : Nat) (cap : Option Nat) (held : Option (Nat × Nat)) : List Stretch :=
  let now := s.rd F_CAP_CAPTURE_CAPTURE
  let old := (streamPages s id).filter (fun x => x.2.capture != now && (cap == none || cap == some x.2.capture))
  let live := if (cap == none || cap == some now) && (s.cs id).on then [liveStretch s id t0 t1] else []
  (old.map (pageStretch s t0 t1) ++ live).flatMap (keptRuns s id held)

/-- `len` bytes of a stretch from a byte offset on, in runs. -/
def cutRuns (s : State) (id : Nat) : Nat → Nat → List Stretch → List Stretch
  | _, _, [] => []
  | off, len, x :: xs =>
    let n := x.hi - x.lo
    if off ≥ n then cutRuns s id (off - n) len xs
    else
      let k := min len (n - off)
      if k = 0 then []
      else { x with lo := x.lo + off, hi := x.lo + off + k, item := x.item + off / itemBytes s id * itemIdx s id }
        :: cutRuns s id 0 (len - k) xs

/-- What is found of a stream: its bytes with their poison, whether zeros were substituted; or not yet there. -/
inductive Gathered where
  | wait
  | have_ (bs : List (Byte × Bool)) (gap : Bool)
deriving DecidableEq, Repr

/-- A granule of a stream of a capture (R190, R196, R203): zeros in place of stale bytes; the Granary's as it stands. -/
def granFind (s : State) (id cap n : Nat) (held : Option (Nat × Nat)) : Gathered :=
  match (capturePages s id cap).find? (fun x => x.2.start ≤ 64 * n && 64 * n < x.2.start + 64 * x.2.used) with
  | some x =>
    if x.2.stale.contains ((64 * n - x.2.start) / 64) then .have_ (List.replicate 64 (0, false)) true
    else
      let a := pageAddr s x.1 + (64 * n - x.2.start)
      let bad := s.dramPoison a 64
      .have_ ((s.dramRead a 64).map (fun b => (b, bad))) false
  | none =>
    match (heldGrans s id held).find? (fun g => g.n == n) with
    | some g => .have_ (g.bytes.map (fun b => (b, false))) false
    | none => .wait

/-- Granules from `n` on. -/
def granGather (s : State) (id cap : Nat) (held : Option (Nat × Nat)) : Nat → Nat → Gathered
  | _, 0 => .have_ [] false
  | n, k + 1 =>
    match granFind s id cap n held, granGather s id cap held (n + 1) k with
    | .have_ a g, .have_ b h => .have_ (a ++ b) (g || h)
    | _, _ => .wait

/-- The bytes of a list of runs. -/
def runsGather (s : State) (id : Nat) (held : Option (Nat × Nat)) : List Stretch → Gathered
  | [] => .have_ [] false
  | x :: xs =>
    match granGather s id x.cap held (x.lo / 64) ((x.hi - 1) / 64 - x.lo / 64 + 1), runsGather s id held xs with
    | .have_ a g, .have_ b h => .have_ ((a.drop (x.lo % 64)).take (x.hi - x.lo) ++ b) (g || h)
    | _, _ => .wait

/-! ### The command -/

def crClaim (p : Packet) (s : State) : Option CapClaim := s.cap.claims.find? (fun c => c.id == pf p 2 0 16)
def crSeg (p : Packet) (s : State) : Option Seg := segOf s (pf p 3 0 24) (pf p 4 0 16)
def crStream (p : Packet) : Nat := pf p 2 24 7
def crChan (p : Packet) : Nat := pf p 4 16 7

/-- The segment whose granules the Granary still holds: its capture and number. -/
def crHeld (p : Packet) (s : State) : Option (Nat × Nat) :=
  if !pb p 2 16 then none
  else match crSeg p s with
    | some g => if g.held && g.queued then some (g.capture, g.no) else none
    | none => none

/-- The claim or segment is known and claims the stream. Of a segment of the present capture these are the stored streams
and the markers (R194); of an earlier capture, whose store mask is gone, those that have a page or a held granule. -/
def crValid (p : Packet) (s : State) : Bool :=
  let id := crStream p
  if pb p 2 16 then
    match crSeg p s with
    | none => false
    | some g => if g.capture = s.rd F_CAP_CAPTURE_CAPTURE then (storedSet s ++ [0x31]).contains id
        else Nat.blt id 0x40 && (!(capturePages s id g.capture).isEmpty || !(heldGrans s id (crHeld p s)).isEmpty)
  else match crClaim p s with
    | none => false
    | some c => (maskStreams c.streams c.resMask).contains id

/-- The state rules of CLAIM_READ (Table 7.9, R199). -/
def crAllowed (p : Packet) (s : State) : Bool :=
  let owner := if pb p 2 16 then (match crSeg p s with | some g => g.ctx | none => pCtx p)
    else match crClaim p s with | some c => c.ctx | none => pCtx p
  ((crHeld p s).isSome || siloReadable s) && (!pb p 2 18 || ownsOr s (pCtx p) owner)
    && (!pb p 2 17 || s.inRecord || s.domOn .cmp)

/-- What the command would deliver now. -/
def crGather (p : Packet) (s : State) : List Stretch × Gathered :=
  let id := crStream p
  let len := pq p 7
  let r := if pb p 2 16 then
      match crSeg p s with
      | some g => cutRuns s id (pq p 5) len (stretches s id (g.tS - g.pre * ns1) (g.tS + g.post * ns1) (some g.capture) (crHeld p s))
      | none => []
    else match crClaim p s with
      | some c => cutRuns s id (pq p 5) len (stretches s id c.t0 c.t1 none none)
      | none => []
  (r, runsGather s id (crHeld p s) r)

/-- What it reports. -/
def crInfo (p : Packet) (rs : List Stretch) (bs : List (Byte × Bool)) (gap : Bool) : ClaimInfo :=
  { first := match rs with | x :: _ => x.item | [] => 0, gap := gap, cut := decide (bs.length < pq p 7),
    bad := bs.any (fun b => b.2), relClaim := if pb p 2 18 && !pb p 2 16 then some (pf p 2 0 16) else none,
    relSeg := if pb p 2 18 && pb p 2 16 then some (pf p 3 0 24, pf p 4 0 16) else none }

/-- The descriptor of a claim's transfer: its source is given. -/
def crDesc (p : Packet) (n : Nat) : DDesc :=
  { src := 0, dst := pq p 9, len := n, ctrl := 1 <<< 6, next := 0, tag := 0, pace := 0, rsv := 0 }

/-- A transfer before its first byte. -/
def Xfer.new (index : Option Nat) (cmd : Option (Nat × Nat)) (d : DDesc) : Xfer :=
  { index := index, cmd := cmd, head := d, cur := some d, hops := 1, nextAt := d.next, released := none, rd := 0, wr := 0,
    kept := [], crc := 4294967295, desc := [], done := 0, retries := 0, tries := 0, poisoned := false, appended := 0,
    lastDst := (d.dstSpace, d.dst), endSt := none, overlap := false, given := none, claim := none, emit := none, wroteAt := none }

/-- The compression job of a CLAIM_READ with COMPRESS. -/
def crJob (p : Packet) (s : State) (bs : List (Byte × Bool)) (i : ClaimInfo) : CmpJob :=
  { id := s.cmp.nextId, ctx := pCtx p, func := p.func, cmd := some (p.qid, pTag p), stream := 0, part := 0, save := false,
    saveAddr := 0, chan := crChan p, engine := none, state := 0, inp := bs.map (fun b => b.1), inHost := false, resumed := false,
    list := [{ space := 1, addr := pq p 9, len := 2 ^ 48 }], inN := 0, outN := 0, outq := [], produced := false,
    st := CmpState.new 0 Config.claimFraming Config.claimEffort, abort := false, suspend := false, poisoned := i.bad,
    claim := some i, at_ := s.up }

/-- The next job number, from 1 to 4095. -/
def nextJobId (n : Nat) : Nat := if n ≥ 4095 then 1 else n + 1

/-- A job joins those that wait. -/
def jobQueue (s : State) (j : CmpJob) : State :=
  cmpKick (s.modCmp (fun c => { c with jobs := c.jobs ++ [j], nextId := nextJobId c.nextId }))

/-- An uncorrectable granule among those read of a held segment is raised as it is read (R185). -/
def crUe (p : Packet) (s : State) (rs : List Stretch) : State :=
  let id := crStream p
  ((heldGrans s id (crHeld p s)).filter (fun g => rs.any (fun x => decide (x.lo < 64 * g.n + 64 ∧ 64 * g.n < x.hi)))).foldl
    (fun t g => granUe t id g) s

/-- CLAIM_READ takes up its data where everything is there and its channel is IDLE: the state, and whether it still
waits. -/
def crTry (p : Packet) (s : State) : State × Bool :=
  match crGather p s with
  | (_, .wait) => (s, true)
  | (rs, .have_ bs gap) =>
    let i := crInfo p rs bs gap
    if pb p 2 17 then (jobQueue (crUe p s rs) (crJob p s bs i), false)
    else
      let c := crChan p
      if chState s c ≠ 1 ∨ (s.chan c).xfer.isSome then (s, true)
      else
        let x := { Xfer.new none (some (p.qid, pTag p)) (crDesc p bs.length) with
          released := some s.up, given := some (bs.map (fun b => b.1)), claim := some i }
        ((setChState (crUe p s rs) c 2).modChan c (fun k => { k with xfer := some x }), false)

/-- CLAIM_READ. -/
def execClaimRead (p : Packet) (s : State) : Out :=
  fcpStep { op := 0x45, contain := true, valid := crValid, aligned := fun p _ => pq p 9 % 64 == 0,
            permit := fun p s => s.on (F_DMA_C_CFG_OPEN (crChan p)) && chCtx s (crChan p) == pCtx p,
            allowed := crAllowed,
            run := fun p s => .wait .claimRead (if (crTry p s).2 then crChan p else 128) 0 (crTry p s).1 } p s

/-- CLAIM_READs that wait for their data or for a channel try again. -/
def crRetry (s : State) (test : Nat → Bool) : State :=
  (s.fcp.inflight.filter (fun c => c.kind == .claimRead && test c.key)).foldl (fun t c =>
    let p : Packet := { func := c.func, qid := c.qid, dws := c.dws, buf := [] }
    if !crValid p t then t.finish c { st := .badParam }
    else if !crAllowed p t then t.finish c { st := .notPermitted }
    else
      let r := crTry p t
      if r.2 then r.1 else r.1.modInflight c.qid c.tag (fun x => { x with key := 128 })) s

end Sys2Proof.Machine
end

