-- ==== Sys2Proof/Machine/EngOps.lean ====
section
/-!
DEFINITION. The engines' shared operations (chapter 8): barns, chains, landing, readiness, the registers that show
them, unloading, parking, arming.
-/

namespace Sys2Proof.Machine

def State.modEng (s : State) (g : Eng → Eng) : State := { s with eng := g s.eng }
def State.chain? (s : State) (id : Nat) : Option Chain := s.eng.chains.find? (fun c => c.id == id)
def State.modChain (s : State) (id : Nat) (g : Chain → Chain) : State :=
  s.modEng (fun e => { e with chains := e.chains.map (fun c => if c.id = id then g c else c) })

/-- Master ID of an engine (R27). -/
def engMaster (n : Nat) : Nat := 0x40 + n

/-- The spare a barn holds. -/
def spareOf (s : State) (b : Nat) : Option Nat := s.eng.spare.getD b none

/-- A barn is guarded (R313). -/
def guarded (s : State) (b : Nat) : Bool := (spareOf s b).isSome

/-- An engine that may hold pieces: neither a spare, nor fenced, nor under test (R302). -/
def engUsable (s : State) (n : Nat) : Bool :=
  !s.eng.fenced.contains n && !s.eng.testing.any (fun t => t.1 == n) && spareOf s (n / 8) != some n

def chainsOn (s : State) (n : Nat) : List Chain := s.eng.chains.filter (fun c => c.eng == n)
def chainsIn (s : State) (b : Nat) : List Chain := s.eng.chains.filter (fun c => c.eng / 8 == b)

/-! ### Feeds -/

/-- The sample period of a feed in 2^-32 ns (R80, R89; for a synchronous stream, at its step or its nominal period). -/
def feedPer (s : State) (f : Nat) : Rat :=
  let u := feedUnit f
  if feedSync f then
    let st := (s.du u).rs.step
    if st = 0 then ((rsNominal s u * 16777216 : Nat) : Rat) / ((rsN s u : Nat) : Rat)
    else ((cycleLen s u st : Nat) : Rat) / ((rsN s u : Nat) : Rat)
  else ((unitD s u * tConv s : Nat) : Rat) / ((unitG s u : Nat) : Rat)

/-- What two feeds of equal rate share: the period in quarters, or the resampler's setup (R219, R243). -/
def feedRate (s : State) (f : Nat) : Nat :=
  let u := feedUnit f
  if feedSync f then 2 ^ 90 + bitsOf (s.reg (R_DFU_RS_CTRL u)).toNat 0 13 else 4 * unitD s u * tConv s / unitG s u

/-- Elements under one index of a feed. -/
def feedVals (s : State) (f : Nat) : Nat := if feedSync f then 1 else capVals s (feedUnit f)

/-- Elements that a window of an image has at most on a feed: WIN samples, or the samples labelled within WIN ns. -/
def windowElems (s : State) (i : Image) (f : Nat) : Nat :=
  let n := if i.trigger = 2 then (if feedPer s f = 0 then 0 else ((i.win * ns1 : Nat) / feedPer s f : Rat).ceil.toNat) else i.win
  n * feedVals s f

/-- What the checks of R219 take from the machine for a context's chain. -/
def imgEnv (s : State) (ctx : Nat) : ImgEnv :=
  { rate := feedRate s, elems := windowElems s, own := fun c => s.on (F_DMA_C_CFG_OPEN c) && chCtx s c == ctx }

/-- A feed that CAP stores in its own format: H32 in the modes that produce it, else S16 (R229). -/
def replayable (s : State) (f : Nat) : Bool :=
  let m := s.rd (F_DFU_MODE_DEC_MODE (feedUnit f))
  !feedSync f && (storedSet s).contains f && s.rd (F_DFU_MODE_FMT (feedUnit f)) == (if m = 3 ∨ m = 4 then 2 else 1)

/-- Samples of a chain's ring (R225, R229). -/
def ringLen (s : State) (i : Image) (f : Nat) : Nat :=
  let t := feedPer s f
  if t = 0 then 0
  else if i.trigger = 2 then
    (((i.win + i.hop * cdiv i.deadline (max 1 i.hop)) * ns1 : Nat) / t : Rat).ceil.toNat
  else i.win + i.hop * ((((i.deadline * ns1 : Nat) : Rat) / ((i.hop : Rat) * t)).ceil.toNat)

/-- Mirror bytes of an image's feeds (R229). -/
def mirrorBytes (s : State) (i : Image) : Nat :=
  ((imgFeeds i).map (fun f => if replayable s f.1 then 0 else ringLen s i f.1 * feedVals s f.1 * elBytes f.2)).foldl
    (· + ·) 0

/-- Windows per second times 1/1000 and cycles: the load in kcycles/s (R306). -/
def chainLoad (s : State) (i : Image) (cjob : Nat) : Nat :=
  let per : Rat := match i.trigger with
    | 0 | 1 => (i.hop : Rat) * feedPer s (((imgFeeds i).headD (0, 0)).1)
    | 2 => ((i.hop * ns1 : Nat) : Rat)
    | _ => 0
  if per = 0 then 0 else (((cjob * 1000000 * ns1 : Nat) : Rat) / per).ceil.toNat

/-- The latest ready time after the window's end, in ns (Table 8.6). -/
def chainReady (s : State) (i : Image) : Rat :=
  ((imgFeeds i).map (fun f => (if feedSync f.1 then rsDelay s (feedUnit f.1) else dfuDelay s (feedUnit f.1)) + 10 - feedPer s f.1 / (ns1 : Rat))).foldl max 0

/-- A map's geometry (R260). -/
def mapPar (s : State) (m : Nat) : MapPar :=
  { w := s.rd (F_MAP_GEOM_W m), h := s.rd (F_MAP_GEOM_H m), edge := s.on (F_MAP_CTRL_EDGE m) }

/-- 64-byte units of an image's largest output. -/
def imgOut (s : State) (i : Image) : Nat := cdiv ((i.ops.map (opOutBytes (mapPar s))).foldl (· + ·) 0) 64

/-! ### Mirrors and registers -/

/-- Mirror bytes of a barn: its chains', and what pieces without a chain reserve (R229, R309). -/
def mirrorUsed (s : State) (b : Nat) : Nat :=
  let own := if guarded s b then ((chainsIn s b).map (fun c => c.mirror)).foldl (· + ·) 0 else 0
  let res := sumCon s (fun k => (k.pieces.filter (fun p => p.eng / 8 == b && p.chain.isNone)).length * (k.f 15 24 8 * 2048))
  own + res

def mirrorLimit (s : State) (b : Nat) : Nat := min 458752 (s.rd (F_ENG_MIRROR_LIMIT_BYTES b))

/-- The feeds of a barn with engines, mirrored, replayable (Table 8.10). -/
def barnFeeds (s : State) (b : Nat) : List (Nat × Nat × Bool × Bool) :=
  let all := (chainsIn s b).flatMap (fun c => (imgFeeds c.img).map (fun f => (f.1, c.eng % 8, replayable s f.1)))
  ((List.range 256).filter (fun f => all.any (fun x => x.1 == f))).map (fun f =>
    let l := all.filter (fun x => x.1 == f)
    (f, (List.range 8).foldl (fun v e => if l.any (fun x => x.2.1 == e) then v + 2 ^ e else v) 0,
      guarded s b && l.any (fun x => !x.2.2), l.any (fun x => x.2.2)))

/-- ENG_FEEDf as device firmware writes it. -/
def feedRegs (s : State) (b : Nat) : State :=
  let fs := barnFeeds s b
  (List.range 16).foldl (fun t i =>
    match fs[i]? with
    | none => t.setReg (R_ENG_FEED b i) 0
    | some (f, m, mir, rep) => t.wrs [(F_ENG_FEED_FEED_ID b i, f), (F_ENG_FEED_ENGINES b i, m), (F_ENG_FEED_EN b i, 1),
        (F_ENG_FEED_MIRROR b i, b2n mir), (F_ENG_FEED_REPLAY b i, b2n rep)]) s

/-- The registers of one engine. -/
def engineRegs (s : State) (b e : Nat) : State :=
  let n := 8 * b + e
  let cs := chainsOn s n
  let run := s.eng.jobs.find? (fun j => j.eng == n && j.state == 1)
  let st := if !s.domOn (.barn b) then 0 else if s.eng.testing.any (fun t => t.1 == n) then 5
    else if s.eng.fenced.contains n then 4 else if spareOf s b = some n then 3 else if run.isSome then 2 else 1
  s.wrs [(F_ENG_E_STATUS_STATE b e, st), (F_ENG_E_STATUS_CHAINS b e, cs.length),
    (F_ENG_E_STATUS_READY b e, min 255 (s.eng.jobs.filter (fun j => j.eng == n && j.state == 0)).length),
    (F_ENG_E_LOAD_CYCLES b e, min 16777215 ((cs.map (fun c => c.load)).foldl (· + ·) 0 / 10)),
    (F_ENG_E_CUR_CHAIN_ID b e, match run with | some j => j.chain | none => 0)]

/-- Corrected errors of an engine within the last second. -/
def cesNow (s : State) (n : Nat) : List (Nat × Nat) := s.eng.ces.filter (fun c => c.1 == n && decide (s.up < c.2 + 1000000000))

/-- The operators of an image that have ended after some FCLK cycles. -/
def opsEnded (bufs : List BufD) : Nat → List OpE → Nat
  | _, [] => 0
  | c, o :: os => let k := 12 + opCost (bufCplx bufs o.inA) o; if c < k then 0 else 1 + opsEnded bufs (c - k) os

/-- The operator that an engine works on: by the costs of Table 8.4, the 96 cycles of R221 before the first. DESIGN CHOICE
(log entry 42). -/
def curOp (s : State) (n : Nat) : Nat :=
  match s.eng.jobs.find? (fun j => j.eng == n && j.state == 1) with
  | none => 0
  | some j => match s.chain? j.chain with
    | none => 0
    | some c => min (c.img.ops.length - 1) (opsEnded c.img.bufs ((s.up - j.at_) * s.clk.fkhz / 1000000 - 96) c.img.ops)

/-- A bit for each position of a barn. -/
def barnMask (p : Nat → Bool) : Nat := (List.range 8).foldl (fun v e => if p e then v + 2 ^ e else v) 0

/-- The registers of a barn follow its state (Table 8.10). -/
def barnRegs (s : State) (b : Nat) : State :=
  let idx := match spareOf s b with | some n => n % 8 | none => s.rd (F_ENG_CTRL_SPARE_SEL b)
  let s1 := s.wrs [(F_ENG_STATUS_ACTIVE b, barnMask (fun e => !(chainsOn s (8 * b + e)).isEmpty)),
    (F_ENG_STATUS_FENCED b, barnMask (fun e => s.eng.fenced.contains (8 * b + e))), (F_ENG_STATUS_SPARE_IDX b, idx),
    (F_ENG_STATUS_SPARE_AVAIL b, b2n (guarded s b)), (F_ENG_STATUS_POWERED b, b2n (s.domOn (.barn b))),
    (F_ENG_MIRROR_USED_BYTES b, min 524287 (mirrorUsed s b))]
  (List.range 8).foldl (fun t e => engineRegs t b e) (feedRegs s1 b)

/-- The registers of all barns. -/
def allBarnRegs (s : State) : State := (List.range 12).foldl barnRegs s

/-- A barn is powered in Record while an engine of it holds a chain, and when it is the Watch barn (R31, R214). -/
def barnWanted (s : State) (b : Nat) : Bool :=
  let watch := s.rd F_GLB_STATE_WATCH_BARN_EFF == b
  if s.inRecord then watch || !(chainsIn s b).isEmpty else if s.inWatch then watch else s.domOn (.barn b)

/-- A barn's domain turns on or off: its mailbox set is enabled while it is on and flushed when it turns off (R331, R342),
and WRITE_REFUSED and the engines' local memory are lost then (R19, R25, Table 1.21). -/
def setBarn (s : State) (b : Nat) (up : Bool) : State :=
  if up then mbxEnable (s.setDom (.barn b) 2) (17 + b) true
  else
    let s1 := if s.domOn (.barn b) then (mbxFlush s (17 + b)).wr (F_ENG_STATUS_WRITE_REFUSED b) 0 else s
    mbxEnable ((sramForget s1 (fun a => (lmemEng a).any (fun n => n / 8 == b))).setDom (.barn b) 0) (17 + b) false

/-- What an engine's local memory holds is no longer known once device firmware has placed a chain there (Table 8.2). -/
def chainsPlaced (s : State) : State := sramForget s (fun a => (lmemEng a).any (fun n => s.eng.chains.any (fun c => c.eng == n)))

/-- Power a barn as its chains call for, and show it. -/
def barnPower (s : State) (b : Nat) : State :=
  let t := chainsPlaced s
  if t.err.contained then barnRegs t b else barnRegs (setBarn t b (barnWanted t b)) b

/-! ### Unloading -/

/-- The commands that wait for a chain: CHAIN_RUN of its jobs, CHAIN_UNLOAD with DRAIN. -/
def chainWakes (s : State) (id : Nat) (runSt : Status) : State :=
  let c := s.chain? id
  let n := match c with | some x => x.committed | none => 0
  (s.wake .chainRun id { st := runSt }).finishAll (fun k => k.kind == .chainDrain && k.key == id)
    { st := .ok, r0 := n }

/-- Jobs of a chain that have not committed. -/
def jobsOf (s : State) (id : Nat) : List Job := s.eng.jobs.filter (fun j => j.chain == id)

/-- A window of the chain has begun to land. -/
def landing (c : Chain) : Bool :=
  match c.nextW with
  | none => false
  | some w => c.running && c.rings.any (fun r => r.any (fun l => if c.img.trigger = 2 then true else w * c.img.hop ≤ l.j))

/-- A chain leaves its engine: its jobs go, its piece is free again, the commands that wait for it end (R240, R309). -/
def unloadChain (s : State) (id : Nat) (runSt : Status := .aborted) : State :=
  match s.chain? id with
  | none => s
  | some c =>
    let s1 := chainWakes s id runSt
    let s2 := s1.modEng (fun e => { e with chains := e.chains.filter (fun x => x.id != id),
                                           jobs := e.jobs.filter (fun j => j.chain != id),
                                           recs := e.recs.filter (fun r => r.chain != id), wins := e.wins.filter (fun r => r.chain != id),
                                           aggs := e.aggs.filter (fun r => r.chain != id),
                                           flicks := e.flicks.filter (fun f => f.chain != id) })
    let s3 := s2.modCon (fun k => { k with list := k.list.map (fun x =>
      { x with pieces := x.pieces.map (fun p => if p.chain = some id then { p with chain := none } else p) }) })
    barnPower s3 (c.eng / 8)

/-- The chains of a context. -/
def chainsOfCtx (s : State) (ctx : Nat) : List Chain := s.eng.chains.filter (fun c => c.ctx == ctx)

/-- Every chain of a context is unloaded. -/
def unloadCtx (s : State) (ctx : Nat) (runSt : Status := .aborted) : State :=
  (chainsOfCtx s ctx).foldl (fun t c => unloadChain t c.id runSt) s

/-- A chain that drains has nothing in flight any more. -/
def drained (s : State) (c : Chain) : Bool :=
  (jobsOf s c.id).isEmpty && !(c.stopping && (match c.nextW, c.lastW with | some w, some l => decide (w ≤ l) | _, _ => false))

/-- Chains whose CHAIN_UNLOAD waits for their last commit are unloaded once nothing of them is in flight (R240). -/
def drainCheck (s : State) : State :=
  (s.eng.chains.filter (fun c => s.waiting .chainDrain c.id && drained s c)).foldl (fun t c => unloadChain t c.id) s

/-! ### Windows (R222, R225) -/

/-- The first start of a TIME grid at or after TRG_ARM, in ns. -/
def gridFirst (s : State) (i : Image) : Nat :=
  let h := max 1 i.hop
  let a := cdiv (s.rdTs (R_TRG_ARM_W 0)) ns1
  a + (i.origin % h + h - a % h) % h

/-- Start and end of window `w` of a TIME chain. -/
def timeStart (s : State) (i : Image) (w : Nat) : Nat := (gridFirst s i + w * i.hop) * ns1
def timeEnd (s : State) (i : Image) (w : Nat) : Nat := timeStart s i w + i.win * ns1

/-- Whether a sample lies in window `w`. -/
def inWin (s : State) (i : Image) (w : Nat) (l : Land) : Bool :=
  if i.trigger = 2 then timeStart s i w ≤ l.ts && l.ts < timeEnd s i w
  else w * i.hop ≤ l.j && l.j < w * i.hop + i.win

/-- The newest window of a chain that has begun to land. -/
def begunW (s : State) (c : Chain) : Option Nat :=
  let ls := c.rings.filterMap (fun r => r.getLast?)
  match c.nextW with
  | none => none
  | some w =>
    if ls.isEmpty || !c.running then none
    else
      let n := if c.img.trigger = 2 then
          ls.foldl (fun a l => max a ((l.ts - timeStart s c.img 0) / (max 1 c.img.hop * ns1))) 0
        else ls.foldl (fun a l => max a (l.j / max 1 c.img.hop)) 0
      if w ≤ n then some n else none

/-- A chain stops: the windows that have begun to land still run (R240, R316). -/
def stopChain (s : State) (c : Chain) : Chain := if c.stopping then c else { c with stopping := true, lastW := begunW s c }

/-- Whether window `w` has wholly landed on a feed whose newest sample is this one. -/
def winDone (s : State) (i : Image) (w : Nat) (l : Land) : Bool :=
  if i.trigger = 2 then timeEnd s i w ≤ l.nx else w * i.hop + i.win ≤ l.j + 1

/-- The window that a chain runs first, seen from a sample of its first feed (R222). -/
def firstWin (s : State) (c : Chain) (l : Land) : Option Nat :=
  if c.img.trigger = 2 then
    some (cdiv (max c.startTs (timeStart s c.img 0) - timeStart s c.img 0) (max 1 c.img.hop * ns1))
  else if l.ts ≥ c.startTs ∧ l.j % max 1 c.img.hop = 0 then some (l.j / max 1 c.img.hop)
  else none

/-- Raised once after ARM (R225, R228). -/
def engOnce (s : State) (b typ ts res : Nat) : State :=
  if s.eng.raised.contains (b, typ) then s
  else (s.modEng (fun e => { e with raised := e.raised ++ [(b, typ)] })).raiseAt ts 9 typ 0 res 0

/-- A window abandoned by its ring (R225). -/
def overrun (s : State) (c : Chain) (ts : Nat) : State :=
  let b := c.eng / 8
  engOnce ((s.modChain c.id (fun x => { x with abandoned := x.abandoned + 1 })).bump (F_ENG_FEED_OVERRUN_COUNT b)) b 9 ts
    (resMaster (engMaster c.eng))

/-- A sample lands on feed `i` of a chain (R213, R225): into its ring, whose oldest sample goes when the ring is full. A
window that still needs that sample is abandoned. -/
def landOn (s : State) (id i f : Nat) (l : Land) : State :=
  match s.chain? id with
  | none => s
  | some c =>
    let r := c.rings.getD i [] ++ [l]
    let cap := max 1 (ringLen s c.img f)
    let gone := if r.length > cap then r.head? else none
    let r' := r.drop (r.length - cap)
    let nextW := if i = 0 && c.nextW.isNone && c.running && !c.stopping then firstWin s c l else c.nextW
    let s1 := s.modChain id (fun x => { x with rings := listMod x.rings i (fun _ => r'), nextW := nextW })
    match gone with
    | none => s1
    | some g =>
      let dead := (jobsOf s1 id).filter (fun j => j.cmd.isNone && inWin s1 c.img j.seq g)
      let s2 := dead.foldl (fun t j =>
        overrun (t.modEng (fun e => { e with jobs := e.jobs.filter (fun x => !(x.chain == id && x.seq == j.seq)) })) c l.ts) s1
      match nextW with
      | some w => if inWin s2 c.img w g then overrun (s2.modChain id (fun x => { x with nextW := some (w + 1) })) c l.ts else s2
      | none => s2

/-- A delivered sample of a feed lands on every chain that names it and whose barn is on (R214). -/
def landFeed (s : State) (f : Nat) (l : Land) : State :=
  (s.eng.chains.filter (fun c => s.domOn (.barn (c.eng / 8)) && !c.parked)).foldl (fun t c =>
    ((imgFeeds c.img).mapIdx (fun i x => (i, x))).foldl (fun t2 p => if p.2.1 = f then landOn t2 c.id p.1 f l else t2) t) s

/-- The descriptor of a synchronous cycle reaches the chains of a feed, with the last sample of the cycle (R214). -/
def landDesc (s : State) (f : Nat) (d : List Byte) : State :=
  (s.eng.chains.filter (fun c => s.domOn (.barn (c.eng / 8)) && !c.parked)).foldl (fun t c =>
    t.modChain c.id (fun x => { x with rings := x.rings.mapIdx (fun i r =>
      if ((imgFeeds x.img).getD i (0, 0)).1 = f then listMod r (r.length - 1) (fun l => { l with desc := d }) else r) })) s

/-! ### Jobs that become ready (R222, R223) -/

/-- The sample that follows a window, or starts one, on a feed. -/
def winFirst (s : State) (i : Image) (w : Nat) (r : List Land) : Option Land := r.find? (fun l => inWin s i w l)

/-- The values of a window on a feed, and its flags. -/
def winVals (s : State) (i : Image) (w : Nat) (r : List Land) : List Int × Nat :=
  let ls := r.filter (fun l => inWin s i w l)
  (ls.flatMap (fun l => l.vals), ls.foldl (fun a l => a ||| l.flags) 0)

/-- A feed delivers H32: the modes that produce it (R214). -/
def feedWide (s : State) (f : Nat) : Bool :=
  !feedSync f && decide (s.rd (F_DFU_MODE_DEC_MODE (feedUnit f)) = 3 ∨ s.rd (F_DFU_MODE_DEC_MODE (feedUnit f)) = 4)

/-- The values of a feed in the format of its FEED_IN, and their flags with OVR where one is clamped (R216). -/
def feedFmt (s : State) (f fmt : Nat) (v : List Int × Nat) : List Int × Nat :=
  (v.1.map (toOpFmt (feedWide s f) fmt), v.2 ||| (if v.1.any (opFmtClamps (feedWide s f) fmt) then 2 else 0))

/-- Window `w` of a live chain becomes a job (R222, R223). -/
def liveJob (s : State) (c : Chain) (w : Nat) : Job :=
  let i := c.img
  let r0 := c.rings.headD []
  let ws := (c.rings.zip (imgFeeds i)).map (fun x =>
    feedFmt s x.2.1 x.2.2 (winVals s i w x.1))
  let start := if i.trigger = 2 then timeStart s i w else match winFirst s i w r0 with | some l => l.ts | none => 0
  let wend := if i.trigger = 2 then timeEnd s i w
    else match r0.find? (fun l => l.j == w * i.hop + i.win) with
      | some l => l.ts
      | none => match r0.find? (fun l => l.j + 1 == w * i.hop + i.win) with | some l => l.nx | none => s.now
  {
    chain := c.id, eng := c.eng, seq := w, start := start, wend := wend, flags := ws.foldl (fun a x => a ||| x.2) 0, cmd := none,
    retried := false, ins := ws.map (fun x => x.1), state := 0, at_ := s.up, out := none }

/-- A stopping chain still runs the windows that had begun to land. -/
def winAllowed (c : Chain) (w : Nat) : Bool :=
  !c.stopping || (match c.lastW with | some l => decide (w ≤ l) | none => false)

/-- Whether the next window of a chain is ready (R223). -/
def liveReady (s : State) (c : Chain) : Bool :=
  match c.nextW with
  | none => false
  | some w => c.running && !c.parked && c.img.trigger ≤ 2 && winAllowed c w && !s.err.contained && s.domOn (.barn (c.eng / 8))
    && c.rings.all (fun r => match r.getLast? with | some l => winDone s c.img w l | none => false)

/-- A ready window becomes a job. -/
def windowReady (s : State) (c : Chain) (w : Nat) : State :=
  barnRegs ((s.modEng (fun e => { e with jobs := e.jobs ++ [liveJob s c w] })).modChain c.id (fun x =>
    { x with nextW := some (w + 1) })) (c.eng / 8)

/-- A segment is handed off: its SEGMENT chains have a job (R222, R223). -/
def engSegment (s : State) (ctx no tS pre post : Nat) : State :=
  (s.eng.chains.filter (fun c => c.ctx == ctx && c.img.trigger == 3 && c.running && !c.parked && !c.stopping
    && s.domOn (.barn (c.eng / 8)) && decide (c.startTs ≤ tS - pre * ns1))).foldl (fun t c =>
    let j : Job := {
    chain := c.id, eng := c.eng, seq := no, start := tS - pre * ns1, wend := tS + post * ns1, flags := 0, cmd := none,
      retried := false, ins := [], state := 0, at_ := t.up, out := none }
    barnRegs (t.modEng (fun e => { e with jobs := e.jobs ++ [j] })) (c.eng / 8)) s

/-! ### ARM and power states (R222, R237) -/

/-- Every complete window of a chain becomes a job. -/
def windowsReady (id : Nat) : Nat → State → State
  | 0, s => s
  | k + 1, s =>
    match s.chain? id with
    | none => s
    | some c => match c.nextW with
      | none => s
      | some w => if liveReady s c then windowsReady id k (windowReady s c w) else s

/-- At disarm a live chain's complete windows become jobs; one that is incomplete is not run (R222). -/
def engDisarm (s : State) : State :=
  (s.eng.chains.filter (fun c => c.img.trigger ≤ 2)).foldl (fun t c =>
    (windowsReady c.id ((c.rings.headD []).length + 1) t).modChain c.id (fun x =>
      { x with nextW := none, rings := x.rings.map (fun _ => []) })) s



/-- The engines take an ARM: live windows restart at w = 0, chain state is cleared where the image says so. -/
def engArm (s : State) : State :=
  s.modEng (fun e => { e with
    raised := [], recs := [], wins := [], grps := [], aggs := [], flicks := e.flicks.map (fun f => { f with fresh := true }),
    jobs := e.jobs.filter (fun j => j.cmd.isSome),
    chains := e.chains.map (fun c => { c with
      rings := c.rings.map (fun _ => []), nextW := none, lastSeq := none,
      st := if c.img.resetAtArm then ChSt.reset else c.st }) })

/-- Chains of a barn are parked: their state is dropped (R237). -/
def parkBarn (s : State) (b : Nat) : State :=
  let ids := (chainsIn s b).map (fun c => c.id)
  let s1 := s.modEng (fun e => { e with
    jobs := e.jobs.filter (fun j => !ids.contains j.chain),
    chains := e.chains.map (fun c => if c.eng / 8 = b then
      { c with parked := true, st := ChSt.reset, rings := c.rings.map (fun _ => []), nextW := none } else c) })
  ids.foldl (fun t id => drainCheck (t.wake .chainRun id { st := .aborted })) s1

/-- Parked chains of a barn are restored: each resumes at the first window that starts after the restore, 50 µs and
1 µs per chain from now (R237). -/
def unparkBarn (s : State) (b n : Nat) : State :=
  let at_ := s.now + (50 + n) * 1000 * ns1
  s.modEng (fun e => { e with chains := e.chains.map (fun c =>
    if c.eng / 8 = b ∧ c.parked then { c with parked := false, startTs := max c.startTs at_ } else c) })

/-! ### Timing figures (Table 8.6) -/

/-- The smallest F of the contracts with a piece on an engine, in kHz of 10 MHz steps; none when it holds no piece. -/
def engineF (s : State) (n : Nat) : Option Nat :=
  ((activeCons s).filter (fun k => k.pieces.any (fun p => p.eng == n))).foldl (fun a k =>
    match a with
    | none => some (k.f 2 24 8)
    | some f => some (min f (k.f 2 24 8))) none

/-- Worst-case commit of a job after the window's end, in ns rounded up, with the allowance in a guarded barn. `fc` is
F in 10 MHz. -/
def worstCommit (ready : Rat) (block cjob units fc : Nat) (replay : Nat) (guard : Bool) : Nat :=
  let f : Rat := ((max 1 fc : Nat) : Rat) / 100
  let base : Rat := ready + (block : Rat) / f + 50 + (cjob : Rat) / f + 40 + (units : Rat) / 2
  (if guard then base + ((cjob + 2000 : Nat) : Rat) / f + 20000 + (replay : Rat) else base).ceil.toNat

end Sys2Proof.Machine
end

