-- ==== Sys2Proof/Machine/Adm.lean ====
section
/-!
DEFINITION. Admission (chapter 11): pools, the placement and the engine test of R305 and R306, the quote of R308, loss of
capacity and broken contracts, the admission registers.
-/

namespace Sys2Proof.Machine

/-! ### Pools (R302) -/

/-- DRAM_CAP, less INIT_RATE until INIT_DONE; 0 before DRAM_READY (R385, R401, Table 11.7). -/
def dramCap (s : State) : Nat :=
  if !s.on F_GLB_STATE_DRAM_READY then 0
  else 48 * s.rd F_MEM_GSTATUS_DATA_RATE - (if s.on F_MEM_GSTATUS_INIT_DONE then 0 else 1000 * s.rd F_MEM_CFG_INIT_RATE)

/-- Per-lane rate in 1/1000 MB/s of Gen1 to Gen5. -/
def laneRate (gen : Nat) : Nat :=
  match gen with
  | 1 => 250000
  | 2 => 500000
  | 3 => 984375
  | 4 => 1968750
  | 5 => 3937500
  | _ => 0

/-- LINK_CAP in MB/s. -/
def linkCap (s : State) : Nat := laneRate (s.rd F_HIF_STATUS_LINK_SPEED) * s.rd F_HIF_STATUS_LINK_WIDTH / 1000

/-- The result streams' rates of a contract. -/
def Contract.res (c : Contract) : Nat :=
  (if c.f 7 8 1 = 1 then c.f 8 0 16 else 0) + (if c.f 7 9 1 = 1 then c.f 8 16 16 else 0)

/-- What the contracts reserve: Silo with results, DRAM, D2H, H2D, CMP, DMA, FIN. -/
structure Pools where
  silo : Nat
  dram : Nat
  d2h : Nat
  h2d : Nat
  cmp : Nat
  dma : Nat
  fin : Nat

def Pools.zero (kept : Nat) : Pools := { silo := kept, dram := 0, d2h := 0, h2d := 0, cmp := 0, dma := 0, fin := 0 }

def Pools.add (p : Pools) (c : Contract) : Pools :=
  { silo := p.silo + c.f 6 0 32 + c.res, dram := p.dram + c.f 9 0 32, d2h := p.d2h + c.f 10 0 32,
    h2d := p.h2d + c.f 11 0 32, cmp := p.cmp + c.f 12 0 4, dma := p.dma + c.f 12 8 8, fin := p.fin + c.f 12 16 8 }

/-- Silo reservations kept for captures of broken contracts (R315). -/
def keptSilo (s : State) : Nat := (s.con.kept.map (fun k => k.2)).foldl (· + ·) 0

/-- The pools in use, without a context's own contract. -/
def poolsBut (s : State) (skip : Option Nat) : Pools :=
  ((activeCons s).filter (fun c => some c.ctx != skip)).foldl Pools.add (Pools.zero (keptSilo s))

/-- The left side of R303. -/
def dramUse (s : State) (p : Pools) : Nat := p.silo + s.rd F_DIS_RESERVE_MBPS + p.dram + 8000 * p.cmp

/-- Compression engines in service. -/
def cmpAvail (s : State) : Nat := barnCount (s.rd F_CMP_STATUS_AVAIL)
where barnCount (m : Nat) : Nat := ((List.range 8).filter (fun e => (m >>> e) % 2 == 1)).length

/-- The pool checks that fail for a contract beside what is reserved: code and what is still available (Table 11.4). -/
def poolFails (s : State) (p : Pools) (c : Contract) : List (Nat × Nat) :=
  let q := p.add c
  let pick (code have_ limit use : Nat) : List (Nat × Nat) := if have_ > limit then [(code, limit - use)] else []
  pick 1 q.silo 96000 p.silo ++ pick 2 (dramUse s q) (dramCap s) (dramUse s p) ++ pick 3 q.d2h (linkCap s) p.d2h
    ++ pick 4 q.h2d (linkCap s) p.h2d ++ pick 5 q.cmp (cmpAvail s) p.cmp ++ pick 6 q.dma 128 p.dma ++ pick 7 q.fin 200 p.fin

/-! ### The engine test (R306) -/

/-- A piece where admission sees it: engine, contract, the guard it was placed under, the chain that occupies it. -/
structure WPiece where
  eng : Nat
  con : Contract
  guard : Bool
  chain : Option Nat

/-- The pieces of the contracts in force, without one context's. -/
def worldBut (s : State) (skip : Option Nat) : List WPiece :=
  ((activeCons s).filter (fun c => some c.ctx != skip)).flatMap (fun c =>
    c.pieces.map (fun p => { eng := p.eng, con := c, guard := p.guard, chain := p.chain }))

/-- The largest F of the contracts in force, at least 500 MHz, in 10 MHz (R312, R319). -/
def topF (s : State) : Nat := (activeCons s).foldl (fun a c => max a (c.f 2 24 8)) 50

/-- F_e in 10 MHz of pieces that lie on one engine. -/
def minF (l : List Contract) (none_ : Nat) : Nat :=
  match l with
  | [] => none_
  | c :: cs => cs.foldl (fun a x => min a (x.f 2 24 8)) (c.f 2 24 8)

/-- Free capacity in kcycles/s: 0.95 × F_e less the pieces; negative when overrated. -/
def freeCap (l : List Contract) (f : Nat) : Int :=
  (9500 * f : Nat) - ((l.map (fun c => c.f 3 0 32)).foldl (· + ·) 0 : Nat)

/-- A_i and D'_i in ns at F_e. -/
def allowance (c : Contract) (guard : Bool) (f : Rat) : Rat :=
  if guard then ((c.f 4 0 24 + 2000 : Nat) : Rat) / f + 20000 + (c.f 15 0 24 : Rat) else 0
def dPrime (c : Contract) (guard : Bool) (f : Rat) : Rat :=
  (c.f 5 0 32 : Rat) - (c.f 14 0 16 : Rat) - 50 - allowance c guard f - (40 + (c.f 14 16 16 : Rat) / 2)

/-- The points D' + k × T up to a limit; one point when the piece has no rate. -/
def pointsOf (d lim : Rat) (t : Option Rat) : List Rat :=
  if d > lim then []
  else match t with
    | none => [d]
    | some x => (List.range ((lim - d) / x).floor.toNat.succ).map (fun (k : Nat) => d + (k : Rat) * x)

/-- R306 for the pieces of one engine. -/
def engineTest (l : List (Contract × Bool)) : Bool :=
  let fc := minF (l.map (fun x => x.1)) 50
  let f : Rat := (fc : Rat) / 100
  let ps := l.map (fun x =>
    let c := x.1.f 4 0 24
    let k := x.1.f 3 0 32
    (c, dPrime x.1 x.2 f, if k = 0 then none else some (((c * 1000000 : Nat) : Rat) / (k : Rat))))
  let sumC := (ps.map (fun p => p.1)).foldl (· + ·) 0
  let maxC := (ps.map (fun p => p.1)).foldl max 0
  let lim := ((ps.map (fun p => p.2.1)).foldl max (((ps.head?).map (fun p => p.2.1)).getD 0))
    + ((sumC + maxC : Nat) : Rat) * 20 / f
  let ips := ps.mapIdx (fun i p => (i, p))
  let pts := ips.flatMap (fun ip => (pointsOf ip.2.2.1 lim ip.2.2.2).map (fun t => (t, ip.1)))
  let others (i : Nat) : Nat := (ips.filter (fun ip => ip.1 != i)).foldl (fun a ip => max a ip.2.1) 0
  let demand (t : Rat) : Nat := (ps.map (fun p =>
    if t < p.2.1 then 0
    else match p.2.2 with
      | none => p.1
      | some x => (((t - p.2.1) / x).floor.toNat + 1) * p.1)).foldl (· + ·) 0
  let okAt (t : Rat) : Bool :=
    let is := (pts.filter (fun x => x.1 == t)).map (fun x => others x.2)
    let b := is.foldl min (is.headD 0)
    decide (((demand t + b : Nat) : Rat) ≤ f * t)
  decide (((l.map (fun x => x.1.f 3 0 32)).foldl (· + ·) 0) ≤ 9500 * fc) && pts.all (fun x => okAt x.1)

/-! ### Placement (R305) -/

/-- Mirror bytes free in a barn's pool. -/
def mirrorFree (s : State) (b : Nat) (w : List WPiece) : Int :=
  (mirrorLimit s b : Int) - (if guarded s b then ((chainsIn s b).map (fun c => c.mirror)).foldl (· + ·) 0 else 0 : Nat)
    - (((w.filter (fun p => p.eng / 8 == b && p.chain.isNone)).map (fun p => p.con.f 15 24 8 * 2048)).foldl (· + ·) 0 : Nat)

/-- The Watch barn of a contract's WATCH field: what is written in GLB_CTRL. -/
def watchBarn (s : State) : Nat := s.rd F_GLB_CTRL_WATCH_BARN

/-- Whether a contract's pieces may lie in a barn. -/
def barnAllowed (s : State) (c : Contract) (b : Nat) : Bool :=
  if c.f 2 13 1 = 1 then b == watchBarn s else c.f 2 0 12 == 0 || (c.f 2 0 12 >>> b) % 2 == 1

/-- The pieces on an engine. -/
def onEng (w : List WPiece) (n : Nat) : List WPiece := w.filter (fun p => p.eng == n)

/-- Free capacity of an engine that a contract may use and that has a free slot. -/
def slotCap (s : State) (w : List WPiece) (c : Contract) (n : Nat) : Option Int :=
  let here := onEng w n
  if engUsable s n && barnAllowed s c (n / 8) && (c.f 2 12 1 == 1 || guarded s (n / 8)) && here.length < 4 then
    some (freeCap (here.map (fun p => p.con)) (minF (c :: here.map (fun p => p.con)) 50))
  else none

/-- The images of the chains that pieces hold. -/
def worldImgs (s : State) (w : List WPiece) : List Image :=
  (w.filterMap (fun p => p.chain.bind (s.chain? ·))).map (fun c => c.img)

/-- An engine has room for a chain beside those that the pieces put there: the barn feed takes 16 feeds, local memory 448 KiB
(R213, Table 8.6). -/
def chainRoom (s : State) (w : List WPiece) (i : Image) (n : Nat) : Bool :=
  let feeds (l : List Image) : Nat := (l.flatMap (fun x => (imgFeeds x).map (fun f => f.1))).eraseDups.length
  Nat.ble (feeds (i :: worldImgs s (w.filter (fun p => p.eng / 8 == n / 8)))) 16
    && Nat.ble (((i :: worldImgs s (onEng w n)).map imgBytes).foldl (· + ·) 0) 458752

/-- Eligibility of R305, with the mirror and the deadline tests on request; a piece that holds a chain needs room for it. -/
def eligible (s : State) (w : List WPiece) (c : Contract) (mirror deadline : Bool) (chain : Option Nat) (n : Nat) : Bool :=
  (match chain.bind (s.chain? ·) with | some x => chainRoom s w x.img n | none => true) &&
  match slotCap s w c n with
  | none => false
  | some fr =>
    let g := guarded s (n / 8)
    decide (fr ≥ (c.f 3 0 32 : Nat)) && (!mirror || decide (mirrorFree s (n / 8) w ≥ (c.f 15 24 8 * 2048 : Nat)))
      && (!deadline || engineTest ((onEng w n).map (fun p => (p.con, p.guard)) ++ [(c, g)]))

/-- The eligible engine with the most free capacity; the lowest n wins a tie. -/
def bestEngine (s : State) (w : List WPiece) (c : Contract) (mirror deadline : Bool) (chain : Option Nat) : Option Nat :=
  ((List.range 96).filter (eligible s w c mirror deadline chain)).foldl (fun a n =>
    match a with
    | none => some n
    | some m => if (slotCap s w c n).getD 0 > (slotCap s w c m).getD 0 then some n else some m) none

/-- Place pieces one at a time, each with the chain it holds; the engines taken. -/
def placeEach (s : State) (c : Contract) (mirror deadline : Bool) : List (Option Nat) → List WPiece → List Nat
  | [], _ => []
  | x :: xs, w =>
    match bestEngine s w c mirror deadline x with
    | none => []
    | some n => n :: placeEach s c mirror deadline xs (w ++ [{ eng := n, con := c, guard := guarded s (n / 8), chain := x }])

/-- Place a number of free pieces. -/
def placeAll (s : State) (c : Contract) (mirror deadline : Bool) (k : Nat) (w : List WPiece) : List Nat :=
  placeEach s c mirror deadline (List.replicate k none) w

/-! ### The quote (R308) -/

/-- A contract with another DEADLINE (dw5). -/
def Contract.withDeadline (c : Contract) (d : Nat) : Contract := { c with dws := c.dws.set 3 (BitVec.ofNat 32 d) }

/-- The smallest number below 2^32 from `lo` up that a monotone test admits, by halving; `hi` admits. -/
def bisect (test : Nat → Bool) : Nat → Nat → Nat → Nat
  | 0, _, hi => hi
  | n + 1, lo, hi =>
    if hi ≤ lo then hi
    else
      let mid := (lo + hi) / 2
      if test mid then bisect test n lo mid else bisect test n (mid + 1) hi

def leastDeadline (test : Nat → Bool) : Nat := if test 4294967295 then bisect test 33 0 4294967295 else 0

/-- Whether every piece of a request can be placed beside the fixed ones, whose engines pass too. -/
def placeOk (s : State) (c : Contract) (base : List WPiece) (fixed : List WPiece) (need : Nat) : Bool :=
  let fx := fixed.map (fun p => { p with con := c })
  let w := base ++ fx
  fx.all (fun p => engineTest ((onEng w p.eng).map (fun q => (q.con, q.guard)))) && (placeAll s c true true need w).length == need

/-- The failing checks of a request: code, barn, what is available; and dw2, dw3. -/
structure Quote where
  fails : List (Nat × Nat × Nat)
  least : Nat
  largest : Nat

/-- The checks of R303 to R307 in the order of Table 11.4. -/
def quoteOf (s : State) (c : Contract) (skip : Option Nat) (fixed : List WPiece) : Quote :=
  let base := worldBut s skip
  let w := base ++ fixed.map (fun p => { p with con := c })
  let need := c.f 2 16 8 - fixed.length
  let pools := (poolFails s (poolsBut s skip) c).map (fun x => (x.1, 0xFF, x.2))
  let engs :=
    if placeOk s c base fixed need then []
    else
      let n8 := (placeAll s c false false need w).length
      if n8 < need then [(8, 0xFF, n8)]
      else
        let f9 := (placeAll s c false true need w).length < need
        let f10 := (placeAll s c true false need w).length < need
        let best := bestEngine s w c false false none
        let e9 : List (Nat × Nat × Nat) := match best with
          | none => [(9, 0xFF, 0)]
          | some n => [(9, n / 8, leastDeadline (fun d =>
              engineTest ((onEng w n).map (fun p => (p.con, p.guard)) ++ [(c.withDeadline d, guarded s (n / 8))])))]
        let e10 : List (Nat × Nat × Nat) :=
          match (List.range 96).find? (fun n => eligible s w c false false none n && !eligible s w c true false none n) with
          | none => [(10, 0xFF, 0)]
          | some n => [(10, n / 8, (max 0 (mirrorFree s (n / 8) w)).toNat / 2048)]
        (if f9 || !f10 then e9 else []) ++ (if f10 then e10 else [])
  let fails := pools ++ engs
  { fails := fails,
    least := if fails.all (fun x => x.1 == 9) && !fails.isEmpty then
        leastDeadline (fun d => placeOk s (c.withDeadline d) base fixed need) else 0,
    largest := (((List.range 96).filterMap (slotCap s w c)).foldl max 0).toNat }

/-- The NO_BUDGET reply of a quote. -/
def Quote.reply (q : Quote) : Reply :=
  match q.fails with
  | [] => { st := .ok }
  | (code, barn, av) :: _ =>
    { st := .noBudget, r0 := code + (barn <<< 8) + ((q.fails.foldl (fun m x => m + 2 ^ (x.1 - 1)) 0) <<< 16), r1 := av,
      r2 := q.least, r3 := q.largest }

/-! ### Registers (R319, R321) -/

/-- The largest free capacity of one engine of a barn in kcycles/s, and its free slots. -/
def barnFree (s : State) (b : Nat) : Nat × Nat :=
  let w := worldBut s none
  let es := ((List.range 8).map (fun e => 8 * b + e)).filter (engUsable s)
  let cap (n : Nat) : Int := let l := (onEng w n).map (fun p => p.con); freeCap l (minF l (topF s))
  let open_ := es.filter (fun n => (onEng w n).length < 4)
  ((open_.foldl (fun a n => max a (cap n)) 0).toNat, (es.map (fun n => 4 - (onEng w n).length)).foldl (· + ·) 0)

/-- Guarded barns. -/
def guardMask (s : State) : Nat := ((List.range 12).filter (guarded s)).foldl (fun v b => v + 2 ^ b) 0

/-- The admission registers (Table 11.7), the result rates (R309) and the mirror counts follow. -/
def admRegs (s : State) : State :=
  let p := poolsBut s none
  let s1 := s.wrs [(F_ADM_STATUS_F_CODE, topF s), (F_ADM_STATUS_CONTRACTS, (activeCons s).length),
    (F_ADM_SILO_RES_MBPS, p.silo), (F_ADM_DRAM_CAP_MBPS, dramCap s), (F_ADM_DRAM_RES_MBPS, dramUse s p),
    (F_ADM_LINK_CAP_MBPS, linkCap s), (F_ADM_D2H_RES_MBPS, p.d2h), (F_ADM_H2D_RES_MBPS, p.h2d), (F_ADM_UNITS_CMP, p.cmp),
    (F_ADM_UNITS_DMA, p.dma), (F_ADM_UNITS_FIN, p.fin)]
  let s2 := (List.range 12).foldl (fun t b =>
    let f := barnFree s b
    t.wrs [(F_ADM_B_FREE_PIECE b, min 65535 (f.1 / 1000)), (F_ADM_B_FREE_SLOTS b, f.2),
      (F_ADM_B_FREE_GUARDED b, b2n (guarded s b))]) s1
  allBarnRegs (setResRates s2)

/-- The pools' capacities by check code, to see a change (R314). -/
def poolCaps (s : State) : List Nat :=
  let us := ((List.range 96).filter (engUsable s)).foldl (fun v n => v + 2 ^ n) 0
  [96000, dramCap s, linkCap s, linkCap s, cmpAvail s, 128, 200, us, guardMask s,
    ((List.range 12).map (mirrorLimit s)).foldl (· + ·) 0]

/-- BUDGET_CHANGED when a pool's capacity differs from the last time; the registers follow (R314, R321). -/
def budgetCheck (s : State) (tell : Bool) : State :=
  let now := poolCaps s
  let mask := ((now.zip s.con.pools).mapIdx (fun i p => if p.1 = p.2 then 0 else 2 ^ i)).foldl (· + ·) 0
  let s1 := admRegs (s.modCon (fun k => { k with pools := now, risen := false }))
  if tell && mask != 0 && !s.con.pools.isEmpty then s1.postEvent 0 0x0211 [mask, linkCap s, dramCap s, guardMask s] else s1

/-! ### Loss of capacity (R314, R315) -/

/-- Whether a context armed the capture in progress. -/
def armedBy (s : State) (ctx : Nat) : Bool := s.rd F_TRG_STATUS_STATE != 0 && s.trg.armCtx == ctx

/-- Remove a context's contract. -/
def dropCon (s : State) (ctx : Nat) : State :=
  s.modCon (fun k => { k with list := k.list.filter (fun c => c.ctx != ctx) })

/-- A contract is broken (R315, R320). -/
def conBreak (s : State) (ctx cause code eng : Nat) : State :=
  match contractOf s ctx with
  | none => s
  | some c =>
    if c.broken then s
    else
      let n := (chainsOfCtx s ctx).length
      let s1 := dmaBreak (unloadCtx s ctx .contractBroken) ctx
      let kept := if armedBy s ctx then [(ctx, c.f 6 0 32)] else []
      let s2 := s1.modCon (fun k => { k with
        list := k.list.map (fun x => if x.ctx = ctx then { x with broken := true, pieces := [] } else x), kept := k.kept ++ kept })
      let d := [cause + (code <<< 8), n, eng, ctx]
      let s3 := (s2.bump F_ADM_BROKEN_COUNT).postEvent ctx 0x0210 d
      (if ctx = 0 then s3 else s3.postEvent 0 0x0210 d).raise 2 0x05 0 resNone ctx

/-- Contracts that no longer fit their pools, oldest first, with the failing code (R314). A lowered FCLK takes those
that assume more. -/
def poolLosers (s : State) (cause : Nat) : List Contract → Pools → List (Nat × Nat)
  | [], _ => []
  | c :: cs, p =>
    let slow := cause == 5 && decide (c.f 2 24 8 * 10000 > s.clk.fkhz) && !c.pieces.isEmpty
    match poolFails s p c, slow with
    | x :: _, _ => (c.ctx, x.1) :: poolLosers s cause cs p
    | [], true => (c.ctx, 8) :: poolLosers s cause cs p
    | [], false => poolLosers s cause cs (p.add c)

/-- Move the pieces of lost engines, under R305; the moves made, or none when one finds no place. A piece placed in an
unguarded barn is not moved (R313). -/
def movePieces (s : State) (c : Contract) : List Piece → List WPiece → Option (List Piece × List WPiece)
  | [], w => some ([], w)
  | p :: ps, w =>
    if engUsable s p.eng then (movePieces s c ps w).map (fun r => (p :: r.1, r.2))
    else if !p.guard then none
    else
      match bestEngine s w c true true p.chain with
      | none => none
      | some n =>
        let q : Piece := { p with eng := n, guard := guarded s (n / 8) }
        (movePieces s c ps (w ++ [{ eng := n, con := c, guard := q.guard, chain := p.chain }])).map (fun r =>
          (q :: r.1, r.2))

/-- Put a contract's moved pieces in force; the chains they hold move with them, but for jobs that are sealed (R231). -/
def applyMoves (s : State) (ctx : Nat) (ps : List Piece) : State :=
  let s1 := s.modCon (fun k => { k with list := k.list.map (fun x => if x.ctx = ctx then { x with pieces := ps } else x) })
  ps.foldl (fun t p =>
    match p.chain with
    | none => t
    | some id =>
      let old := match t.chain? id with | some c => c.eng / 8 | none => p.eng / 8
      let t1 := t.modEng (fun e => { e with
        chains := e.chains.map (fun c => if c.id = id then { c with eng := p.eng } else c),
        jobs := e.jobs.map (fun j => if j.chain = id ∧ j.state ≠ 2 then { j with eng := p.eng } else j) })
      barnPower (barnPower t1 (p.eng / 8)) old) s1

/-- Every feed of a chain can be replayed (R233). -/
def allReplay (s : State) (c : Chain) : Bool := (imgFeeds c.img).all (fun f => replayable s f.1)

/-- In-flight jobs of the moved chains run again when their feeds are replayable; a chain whose job, or window that has
begun to land, cannot be re-run breaks its contract. The second value counts the jobs. -/
def rerunMoved (s : State) (cause : Nat) (eng : Nat) (lost : List Nat) : State × Nat :=
  let bad := s.eng.chains.filter (fun c => lost.contains c.id && !allReplay s c
    && ((jobsOf s c.id).any (fun j => j.state == 3) || landing c))
  let s1 := bad.foldl (fun t c => conBreak t c.ctx cause 8 eng) s
  let again := (s1.eng.jobs.filter (fun j => j.state == 3 && lost.contains j.chain))
  (again.foldl (fun t j =>
    let b := j.eng / 8
    ((t.modEng (fun e => { e with jobs := e.jobs.map (fun x =>
      if x.chain = j.chain ∧ x.seq = j.seq ∧ x.state = 3 then { x with state := 0, retried := true } else x) })).modChain
      j.chain (fun c => { c with rerun := c.rerun + 1 })).bump (F_ENG_RETRIED_COUNT b)) s1, again.length)

/-- Admission is re-run after a loss (R314): contracts broken, jobs re-run. `eng` is the failed engine's master ID. -/
def admitRerun (s : State) (cause eng : Nat) : State × Nat × Nat :=
  let was := (activeCons s).length
  let losers := poolLosers s cause (activeCons s) (Pools.zero (keptSilo s))
  let s1 := losers.foldl (fun t x => conBreak t x.1 cause x.2 eng) s
  let lost := (s1.eng.chains.filter (fun c => !engUsable s1 c.eng)).map (fun c => c.id)
  let w := (worldBut s1 none).filter (fun p => engUsable s1 p.eng)
  let s2 := ((activeCons s1).foldl (fun (acc : State × List WPiece) c =>
    match movePieces acc.1 c c.pieces acc.2 with
    | some (ps, w') => (if ps = c.pieces then acc.1 else applyMoves acc.1 c.ctx ps, w')
    | none => (conBreak acc.1 c.ctx cause 8 eng, acc.2.filter (fun p => p.con.ctx != c.ctx))) (s1, w)).1
  let (s3, n) := rerunMoved s2 cause eng lost
  let broken := was - (activeCons s3).length
  let s4 := s3.modCon (fun k => { k with rerun := none, rerunEng := 0 })
  (drainCheck (budgetCheck s4 (broken == 0)), broken, n)

/-- A re-run is asked for (R314). -/
def wantRerun (s : State) (cause : Nat) : State := s.modCon (fun k => { k with rerun := some cause })
/-- Capacity has risen (R314). -/
def capRisen (s : State) : State := s.modCon (fun k => { k with risen := true })

end Sys2Proof.Machine
end

