-- ==== Sys2Proof/Machine/PqRun.lean ====
section
/-!
DEFINITION. Library chains (chapter 9): what PQ_LOAD builds (R242 to R244), and what a job of each function stages (R245
to R248).
-/

namespace Sys2Proof.Machine

/-- A field of a PQ_LOAD packet. -/
def lf (d : List Word) (dw lo w : Nat) : Nat := bitsOf (d.getD dw 0).toNat lo w

def libFunc (d : List Word) : Nat := lf d 2 0 4
def libGroup (d : List Word) : Nat := lf d 2 12 4
def libPhase (d : List Word) : Nat := lf d 2 24 3
def libKeep (d : List Word) : Bool := lf d 2 27 1 == 1
def libAgg (d : List Word) : Bool := lf d 2 28 1 == 1
def libFinish (d : List Word) : Bool := lf d 2 29 1 == 1
def libDrop (d : List Word) : Nat := lf d 4 25 4
def libRes (d : List Word) : Nat := lf d 2 20 4
def libScale (d : List Word) (j : Nat) : Nat := lf d (5 + j) 0 32

/-- Cycles per window (R243). -/
def libC (d : List Word) : Nat :=
  match lf d 2 10 2 with
  | 0 => 10
  | 1 => 12
  | _ => lf d 4 16 9

/-- The feeds: as many as the function takes; where it takes 1 to 4, those before the first byte that is 0 or no feed (DESIGN CHOICE, log 42). -/
def libFeeds (d : List Word) : List Nat :=
  let all := (List.range 4).map (fun j => lf d 3 (8 * j) 8)
  match libFunc d with
  | 2 => all.take 2
  | 3 => all.take 3
  | 4 | 5 => all.take 1
  | _ => all.headD 0 :: (all.drop 1).takeWhile (fun f => f != 0 && feedOk f)

/-- Published slots that a function allows (R244). -/
def libPubOk (d : List Word) : Nat :=
  match libFunc d with
  | 1 => 2 ^ (libFeeds d).length - 1
  | 2 => 0x7F
  | 3 => 0xC7
  | 4 => if lf d 4 13 3 < 6 then 0xFF else if lf d 4 13 3 = 6 then 0x07 else 0
  | _ => 0

/-- The published slots, ascending. -/
def libPubs (d : List Word) : List Nat := (List.range 8).filter (fun i => (lf d 4 0 8).testBit i)

/-- The window length in samples (Table 9.1). -/
def libWin (s : State) (d : List Word) : Nat :=
  let n := rsN s (feedUnit ((libFeeds d).headD 0))
  match libFunc d with
  | 1 => if lf d 2 16 1 = 1 then n else n / 2
  | 6 => s.rd (F_MAP_GEOM_W (lf d 5 0 4)) * 2 ^ lf d 5 8 5
  | _ => libC d * n

/-- The image of a library chain: its feeds with a buffer for each, and for MAP its HIST_TO_MAP operators. DESIGN CHOICE (log
entry 42): the ROM templates' other buffers and operators, which the manual does not print, take no place. -/
def libImage (s : State) (d : List Word) : Image :=
  let win := libWin s d
  let n := rsN s (feedUnit ((libFeeds d).headD 0))
  let op (j code p0 p1 p2 : Nat) : OpE :=
    { code := code, fmt := 0, inA := j, inB := 0, out := j, out2 := 0, len := win, p0 := p0, p1 := p1, p2 := p2, p3 := 0,
      inOfs := 0, outOfs := 0 }
  let fs := (libFeeds d).mapIdx (fun j f => op j 0x01 f 0 0)
  let ms := if libFunc d = 6 then (libFeeds d).mapIdx (fun j _ => op j 0x37 (lf d 5 0 4 + 256 * lf d 5 8 5) (lf d 6 0 32) (lf d 7 0 16)) else []
  let bs : List BufD := (libFeeds d).map (fun f => { size := cdiv (2 * win * feedVals s f) 64, fmt := 0, cplx := false })
  { trigger := if libFunc d = 6 && !feedSync ((libFeeds d).headD 0) then 0 else 1, resetAtArm := false, win := win,
    hop := if libFunc d = 1 then n / 2 else win, deadline := lf d 9 0 32, stateBytes := if libFunc d = 5 then 4096 else 0,
    origin := 0, bufs := bs, ops := fs ++ ms }

/-- C_job (Table 9.1). -/
def libCost (s : State) (d : List Word) : Nat :=
  let v0 := cdiv (libWin s d) 32
  let k := (libFeeds d).length
  let p := (libPubs d).length
  let h := lf d 2 18 1
  match libFunc d with
  | 1 => 129 + 24 * k + k * v0 + 20 * p
  | 2 => 245 + 8 * v0 + 20 * p
  | 3 => 241 + 6 * v0 + 20 * p
  | 4 => if libC d = 10 then 344 + 1012 * v0 + 224 * h + 20 * p else 380 + 1214 * v0 + 248 * h + 20 * p
  | 5 => 396 + 70 * v0
  | _ => 96 + 24 * k + 8 * k * v0

/-- The deadline of a chain as its contract counts it: one that publishes a base note commits within BNi_LAT − 1 µs
(R236). -/
def commitDeadline (s : State) (i : Image) (lib : Option (List Word)) : Nat :=
  let bns := (i.ops.filter (fun o => o.code == 0x41)).map (fun o => o.p0 % 32)
    ++ (match lib with | some d => (List.range (libPubs d).length).map (fun i => lf d 4 8 5 + i) | none => [])
  bns.foldl (fun d b => min d (s.rd (F_BN_LAT_US b) * 1000 - 1000)) i.deadline

/-- Records of a job. -/
def libRecs (d : List Word) : Nat :=
  match libFunc d with
  | 1 | 2 | 3 => 1
  | 4 => 7 + 7 * lf d 2 18 1
  | _ => 0

/-- Output of a job in 64-byte units. -/
def libOut (s : State) (d : List Word) (i : Image) : Nat :=
  if libFunc d = 6 then imgOut s i else cdiv (64 * libRecs d + 32 * (libPubs d).length + i.stateBytes) 64

/-! ### Jobs -/

/-- A binary32 product. -/
def mul32 (a b : Int) : Int := fpTo (f32.mul (fpOf a) (fpOf b))
def div32 (a b : Int) : Int := fpTo (f32.div (fpOf a) (fpOf b))

/-- RMS_WINDOW × SCALE (R245). -/
def libRms (scale : Nat) (xs : List Int) : Int :=
  mul32 (redSum 0 xs.length true true (xs.map (fun a => (a, a))) true) scale

/-- X_k of a window (R245), exactly. -/
def libBin (xs : List Int) (k : Nat) : Rat × Rat := dftAt xs.length false (k : Rat) (cplxRat 0 false xs)

/-- √2 X_k / LEN, the phasor of a bin in LSB. -/
def libPhasor (xs : List Int) (k : Nat) : Rat × Rat :=
  let z := libBin xs k
  let g := sqrtRat 2 / (xs.length : Rat)
  (g * z.1, g * z.2)

/-- The RMS value of bin k (R245): √2 |X_k| / LEN × SCALE, |X_0| / LEN × SCALE. -/
def libY (scale : Nat) (xs : List Int) (k : Int) : Int :=
  let z := libBin xs k.toNat
  let m := sqrtRat ((if k = 0 then 1 else 2) * (z.1 * z.1 + z.2 * z.2)) / (xs.length : Rat)
  mul32 (near 0x125 [] 2 xs k.toNat m).1 scale

/-- P1 and Q1: V1 × conj(I1) at bin k (R245). -/
def libPower (sv si : Nat) (v i : List Int) (k : Nat) : List Int :=
  let a := libPhasor v k
  let b := libPhasor i k
  let s := mul32 sv si
  [mul32 (near 0x170 [] 2 (v ++ i) 0 (a.1 * b.1 + a.2 * b.2)).1 s, mul32 (near 0x170 [] 2 (v ++ i) 1 (a.2 * b.1 - a.1 * b.2)).1 s]

/-- The angle of a complex number in rad. -/
def angleRat (re im : Rat) : Rat :=
  let a := angleSmall (if re < 0 then -re else re) (if im < 0 then -im else im)
  let b := if re < 0 then piRat - a else a
  if im < 0 then -b else b

/-- Magnitudes and angles of the symmetrical components at bin k (R246). -/
def libSeq (sc : List Int) (xs : List (List Int)) (k : Nat) : List Int :=
  if !sc.all (numeric 2) then (List.range 6).map (fun i => inFmt 2 (Config.engVal 0x171 [k] (sc ++ xs.flatten) i))
  else
    let ph (j : Nat) : Rat × Rat :=
      let p := libPhasor (xs.getD j []) k
      let g := (fpOf (sc.getD j 0)).val
      (g * p.1, g * p.2)
    let h := sqrtRat 3 / 2
    let sr := (ph 1).1 + (ph 2).1
    let si := (ph 1).2 + (ph 2).2
    let dr := h * ((ph 1).1 - (ph 2).1)
    let di := h * ((ph 1).2 - (ph 2).2)
    let zs : List (Rat × Rat) := [((ph 0).1 + sr, (ph 0).2 + si), ((ph 0).1 - sr / 2 - di, (ph 0).2 - si / 2 + dr),
      ((ph 0).1 - sr / 2 + di, (ph 0).2 - si / 2 - dr)].map (fun z => (z.1 / 3, z.2 / 3))
    let ws := zs.map (fun z => sqrtRat (z.1 * z.1 + z.2 * z.2)) ++ zs.map (fun z => angleRat z.1 z.2)
    ws.mapIdx (fun i v => (near 0x171 [] 2 (sc ++ xs.flatten) i v).1)

/-- The value of order n of a kind, over the bins (R247). -/
def libGroupVal (c kind n scale : Nat) (xs : List Int) : Int :=
  let bins := groupBins kind c n
  binRoot (bins.map (fun b => libY scale xs b.1)) (bins.mapIdx (fun i b => ((i : Int), b.2)))

/-- Values in parts of eight with their type. -/
def libParts (stream typ : Nat) (vals : List Nat) : List ResOut :=
  (chunksOf 8 vals.length vals).mapIdx (fun i v => { stream := stream, kind := 8 * typ + i, vals := v })

/-- The class of a flicker level in 1/256 dB: 30 LSB each from -60 dB. -/
def flickClass (d : Int) : Nat := min 1023 ((d + 15360) / 30).toNat

/-- The class of a P_inst: 20 log10 of it, to the nearest 1/256 dB (DESIGN CHOICE, log entry 42). -/
def flickOf (x : Fp) : Nat :=
  match x with
  | .fin n q => if q = 0 || n then 0 else flickClass (rne (5120 * log10Rat q))
  | .inf n => if n then 0 else 1023
  | .nan => flickClass (Config.engVal 0x13A [] [] 0)

/-- FLICKER over a window: the filter's state and the histogram (R248). -/
def libFlicker (d : List Word) (st : ChSt) (xs : List Int) : ChSt :=
  let par := [libScale d 0, lf d 2 19 1, lf d 2 10 2]
  let go (acc : List Int × List Int) (x : Int) : List Int × List Int :=
    let lvl := fpOf (inFmt 2 (Config.engVal 0x13B par (x :: acc.1) 16))
    ((List.range 16).map (fun i => Config.engVal 0x13B par (x :: acc.1) i),
      listMod acc.2 (flickOf lvl) (fun n => (n + 1) % 4294967296))
  let r := xs.foldl go (padTo 16 (st.ops.getD 0 []), padTo 1024 (st.slots.getD 0 []))
  { st with ops := listMod st.ops 0 (fun _ => r.1), slots := listMod st.slots 0 (fun _ => r.2) }

/-- The values of a job's records, the slots that may be published, and the records (R245 to R247). -/
def libValues (d : List Word) (ins : List (List Int)) : List Nat × List ResOut :=
  let res := libRes d
  let x (j : Nat) : List Int := ins.getD j []
  let sc (j : Nat) : Nat := libScale d j
  match libFunc d with
  | 1 =>
    let v := ins.mapIdx (fun j a => (libRms (sc j) a).toNat)
    (v, [{ stream := res, kind := 0, vals := v }])
  | 2 =>
    let p := mul32 (redSum 0 (x 0).length true false ((x 0).zip (x 1)) true) (mul32 (sc 0) (sc 1))
    let v := [(libRms (sc 0) (x 0)).toNat, (libRms (sc 1) (x 1)).toNat, p.toNat, (libY (sc 0) (x 0) (libC d)).toNat,
      (libY (sc 1) (x 1) (libC d)).toNat] ++ (libPower (sc 0) (sc 1) (x 0) (x 1) (libC d)).map Int.toNat
    (v, [{ stream := res, kind := 8, vals := v }])
  | 3 =>
    let q := libSeq [(sc 0 : Int), sc 1, sc 2] [x 0, x 1, x 2] (libC d)
    let v := (q ++ [div32 (q.getD 0 0) (q.getD 1 0), div32 (q.getD 2 0) (q.getD 1 0)]).map Int.toNat
    (v, [{ stream := res, kind := 32, vals := v }])
  | 4 =>
    let g := lf d 2 17 1
    let h := (List.range 51).map (fun n => (libGroupVal (libC d) g n (sc 0) (x 0)).toNat)
    let i := if lf d 2 18 1 = 1 then (List.range 50).map (fun n => (libGroupVal (libC d) (2 + g) n (sc 0) (x 0)).toNat) else []
    ((h.drop (8 * lf d 4 13 3)).take 8, libParts res 2 h ++ libParts res 3 i)
  | _ => ([], [])

/-- A job of a library chain: what it stages. -/
def libRun (s : State) (c : Chain) (d : List Word) (st : ChSt) (ins : List (List Int)) : Staged × Nat :=
  let v := libValues d ins
  let pubs := (libPubs d).mapIdx (fun i slot => (lf d 4 8 5 + i, v.1.getD slot 0))
  let maps := if libFunc d = 6 then
      let m := lf d 5 0 4
      ins.flatMap (fun xs => mapDeltas m (mapPar s m) (lf d 5 8 5) (lf d 7 0 16) (lf d 6 0 16) (lf d 6 16 16) xs)
    else []
  let st' := if libFunc d = 5 then libFlicker d st (ins.headD []) else st
  ({ st := st', maps := maps, res := v.2, bns := pubs, host := [],
     bytes := 64 * v.2.length + 32 * pubs.length + (maps.map deltaBytes).foldl (· + ·) 0 + c.img.stateBytes, ovr := false },
   c.cjob)

end Sys2Proof.Machine
end

