-- ==== Sys2Proof/Machine/MapOps.lean ====
section
/-!
DEFINITION. The maps' shared operations (chapter 9): banks, checks, T0, deltas, the carry pass; a chain's worst-case commit.
-/

namespace Sys2Proof.Machine

def State.mp (s : State) (m : Nat) : MapSt := s.eng.maps.getD m MapSt.reset
def State.modMp (s : State) (m : Nat) (g : MapSt → MapSt) : State := s.modEng (fun e => { e with maps := listMod e.maps m g })

/-! ### Figures of a chain -/

/-- The replay term of Table 8.6 in ns: none while every feed is mirrored, else the slower first datum and the bytes of
the replayable feeds at 32 GB/s. -/
def replayNs (s : State) (i : Image) : Nat :=
  let b := ((imgFeeds i).map (fun f => if replayable s f.1 then ringLen s i f.1 * feedVals s f.1 * elBytes f.2 else 0)).foldl (· + ·) 0
  if b = 0 then 0 else 1000 + cdiv b 32

/-- Worst-case commit of chain `id` (0: not loaded) on an engine in ns after the window's end, with the allowance (R236). -/
def chainWorst (s : State) (i : Image) (cjob units ctx n id : Nat) : Nat :=
  let block := ((chainsOn s n).filter (fun c => c.id != id)).foldl (fun a c => max a c.cjob) 0
  let f := (engineF s n).getD (match contractOf s ctx with | some k => k.f 2 24 8 | none => 50)
  worstCommit (chainReady s i) block cjob units f (replayNs s i) (guarded s (n / 8))

/-! ### Maps -/

def mapCB (s : State) (m : Nat) : Nat := if s.on (F_MAP_CTRL_CB32 m) then 4 else 2

/-- BANK (R259). -/
def mapBank (s : State) (m : Nat) : Nat := cdiv (s.rd (F_MAP_GEOM_W m) * s.rd (F_MAP_GEOM_H m) * mapCB s m) 65536 * 65536
def bankAddr (s : State) (m b : Nat) : Nat := s.rd (F_MAP_BASE_BASE m) * 65536 + b * mapBank s m

/-- A map takes part: enabled, and not by a write that breaks R259 or R263. -/
def mapOn (s : State) (m : Nat) : Bool := s.on (F_MAP_CTRL_EN m) && !s.on (F_MAP_STATUS_BAD m)

/-- The chains that reference a map. -/
def imgMaps (i : Image) : List Nat := (i.ops.filter (fun o => o.code == 0x37)).map (fun o => o.p0 % 16)
def mapChains (s : State) (m : Nat) : List Chain := s.eng.chains.filter (fun c => (imgMaps c.img).contains m)

/-- SETTLE in µs over the chains that reference a map, and one more worst case (R262). -/
def settleOf (s : State) (m extra : Nat) : Nat :=
  cdiv ((mapChains s m).foldl (fun a c => max a (chainWorst s c.img c.cjob c.outUnits c.ctx c.eng c.id)) extra) 1000

/-- R263 with a SETTLE in µs. -/
def mapAdmit (s : State) (m settle : Nat) : Bool :=
  let bank := mapBank s m
  let epoch := s.rd (F_MAP_EPOCH_US m) * 1000
  settle * 1000 + cdiv (3 * bank) 32 ≤ epoch
    && settle * 1000 + s.rd (F_MAP_CLEAR_CLEAR_DELAY m) * 1000 + cdiv bank 32 ≤ epoch

/-- Whether two ranges overlap. -/
def meets (a n b k : Nat) : Bool := a < b + k && b < a + n

/-- R259, and fields in range. -/
def mapFits (s : State) (m : Nat) : Bool :=
  let a := bankAddr s m 0
  let n := 3 * mapBank s m
  let w := s.rd (F_MAP_GEOM_W m)
  let h := s.rd (F_MAP_GEOM_H m)
  let us := s.rd (F_MAP_EPOCH_US m)
  let pages := s.rd F_CAP_SILO_PAGES_PAGES
  let silo := meets a n (pageAddr s 0) (pages * pageSize)
  let meta_ := pages != 0 && meets a n (s.rd F_CAP_META_BASE_BASE * pageSize)
    (metaUnits pages (s.rd F_CAP_SEG_ENTRIES_LOG2) * pageSize)
  let other := (List.range 16).any (fun k => k != m && mapOn s k && meets a n (bankAddr s k 0) (3 * mapBank s k))
  1 ≤ w && w ≤ 8192 && 1 ≤ h && h ≤ 4096 && 1000 ≤ us && us ≤ 10000000 && s.rd (F_MAP_CLEAR_CLEAR_DELAY m) ≤ 10000000
    && !silo && !meta_ && !other && a + n ≤ s.rd64 R_MEM_CAPACITY_LO R_MEM_CAPACITY_HI

/-- The epoch length in TS96 steps. -/
def mapEpoch (s : State) (m : Nat) : Nat := s.rd (F_MAP_EPOCH_US m) * 1000 * ns1

/-- Maps run while DRAM can be reached, in Record, outside Containment (R266). -/
def mapsRun (s : State) : Bool := s.domOn .memc && s.recording && !s.err.contained

/-- A map starts anew: banks cleared, T0 at the first epoch boundary after now (R262), boundaries being the multiples of EPOCH (DESIGN CHOICE, log 42). Outside Record it waits for it. -/
def mapStart (s : State) (m : Nat) : State :=
  let s1 := (s.applyReg (R_MAP_DECAY m)).wrs [(F_MAP_STATUS_FINAL_VALID m, 0), (F_MAP_STATUS_PASS_BUSY m, 0)]
  let e := mapEpoch s m
  if mapsRun s1 then
    (dramClear s1 (bankAddr s1 m 0) (3 * mapBank s1 m)).modMp m (fun _ => { MapSt.reset with
      t0 := some ((s1.now / max 1 e + 1) * e), lateRaised := (s1.mp m).lateRaised })
  else s1.modMp m (fun x => { MapSt.reset with lateRaised := x.lateRaised })

/-- A map is enabled, after its registers stand: BAD where R259 or R263 is broken (Table 9.8). -/
def mapEnable (s : State) (m : Nat) : State :=
  let s1 := (s.wr (F_MAP_CTRL_EN m) 1).modMp m (fun x => { x with lateRaised := false })
  let bad := !mapFits (s1.wr (F_MAP_STATUS_BAD m) 0) m || !mapAdmit s1 m (settleOf s1 m 0)
  let s2 := s1.wr (F_MAP_STATUS_BAD m) (b2n bad)
  if bad then s2 else mapStart s2 m

/-- A map is disabled. -/
def mapDisable (s : State) (m : Nat) : State :=
  (s.wrs [(F_MAP_CTRL_EN m, 0), (F_MAP_STATUS_BAD m, 0), (F_MAP_STATUS_FINAL_VALID m, 0), (F_MAP_STATUS_PASS_BUSY m, 0)]).modMp m
    (fun _ => MapSt.reset)

/-- Record is left: no pass runs (R266). -/
def mapsLeave (s : State) : State :=
  (List.range 16).foldl (fun t m => (t.wr (F_MAP_STATUS_PASS_BUSY m) 0).modMp m (fun x =>
    { x with passEnd := none, clearAt := none, clearing := none })) s

/-- Entry to Record: every enabled map restarts (R266). -/
def mapsRecord (s : State) : State := (List.range 16).foldl (fun t m => if mapOn t m then mapStart t m else t) s

/-! ### Deltas (R261, R264) -/

/-- Add to one count, saturating; a count that reaches its limit by saturation is counted. -/
def mapAdd (s : State) (m addr n : Nat) : State :=
  let cb := mapCB s m
  let x := leNat (s.dramRead addr cb)
  let lim := 2 ^ (8 * cb) - 1
  if x + n > lim then (s.dramWrite addr (natBytes cb lim)).bump (F_MAP_SAT_COUNT m)
  else s.dramWrite addr (natBytes cb (x + n))

/-- One job's deltas on one map, whose WEND and flags are given (R260 to R266). -/
def mapApply (s : State) (m wend flags : Nat) (ds : List MapDelta) : State :=
  let x := s.mp m
  let e := max 1 (mapEpoch s m)
  match x.t0 with
  | none => s.bump (F_MAP_DROPPED_COUNT m)
  | some t0 =>
    if !mapOn s m || !mapsRun s || flags &&& 36 != 0 || wend < t0 then s.bump (F_MAP_DROPPED_COUNT m)
    else
      let k := (wend - t0) / e
      let late := decide (k < x.epoch)
      let bank := (if late then (s.now - t0) / e else k) % 3
      let s1 := if late then s.bump (F_MAP_LATE_COUNT m) else s
      let s2 := if late && !x.lateRaised then
          (s1.modMp m (fun y => { y with lateRaised := true })).raise 9 0x0C 0 (resIndex m) 0 else s1
      let s3 := if x.clearing = some bank ∧ ds.any (fun d => !d.hits.isEmpty) then s2.raise 9 0x0D 0 (resIndex m) 0 else s2
      let h := s.rd (F_MAP_GEOM_H m)
      ds.foldl (fun t d =>
        let t1 := t.bumpBy (F_MAP_CLIP_COUNT m) d.clip
        d.hits.foldl (fun u y => mapAdd u m (bankAddr s m bank + (d.col * h + y.1) * mapCB s m) y.2) t1) s3

/-- The deltas of a job, map by map. -/
def mapCommit (s : State) (c : Chain) (wend flags : Nat) (ds : List MapDelta) : State :=
  ((List.range 16).filter (fun m => (imgMaps c.img).contains m)).foldl (fun t m =>
    mapApply t m wend flags (ds.filter (fun d => d.map == m))) s

/-- The carry pass from one bank to the next (R262). -/
def mapCarry (s : State) (m b : Nat) : State :=
  let cb := mapCB s m
  let a := bankAddr s m b
  let d := min 256 (s.rdE (F_MAP_DECAY_DECAY m))
  let n := s.rd (F_MAP_GEOM_W m) * s.rd (F_MAP_GEOM_H m) * cb
  let idx := (((s.dram.filter (fun c => a ≤ c.1 && c.1 < a + n)).map (fun c => (c.1 - a) / cb))).eraseDups
  idx.foldl (fun t i =>
    let x := leNat (t.dramRead (a + i * cb) cb) * d / 256
    if x = 0 then t else mapAdd t m (bankAddr s m ((b + 1) % 3) + i * cb) x) s

end Sys2Proof.Machine
end

