-- ==== Sys2Proof/Machine/PqOps.lean ====
section
/-!
DEFINITION. The finisher (R249 to R257): derived quantities, aggregation, flicker severities, the records it forms.
-/

namespace Sys2Proof.Machine

/-! ### Arithmetic (R249) -/

abbrev nan32 : Nat := 0x7FC00000

/-- A binary32 word as binary64. -/
def fw (x : Nat) : Fp := fp32 x
def fslot (v : List Nat) (i : Nat) : Fp := fw (v.getD i nan32)

/-- Division; by 0 it has no value. -/
def fdiv (a b : Fp) : Fp :=
  match b with
  | .fin _ q => if q = 0 then .nan else f64.div a b
  | _ => f64.div a b

/-- The root of max(x, 0). -/
def froot (x : Fp) : Fp := f64.sqrt (if x.lt (.fin false 0) then .fin false 0 else x)

/-- √(a² − b²). -/
def frem (a b : Fp) : Fp := froot (f64.sub (f64.mul a a) (f64.mul b b))

/-- Rounded once to binary32. -/
def fout (x : Fp) : Nat := if x.isNan then nan32 else bits32 (f32.conv x)

def fnat (n : Nat) : Fp := .fin false (n : Rat)
def fsum (l : List Fp) : Fp := l.foldl f64.add (.fin false 0)

/-! ### Derived quantities (R250) -/

/-- Part 0 of a type 5 record, from the slots of a PHASE record. -/
def derived0 (v : List Nat) : List Nat :=
  let x := fslot v
  let s := f64.mul (x 0) (x 1)
  let s1 := f64.mul (x 3) (x 4)
  let vh := frem (x 0) (x 3)
  let ih := frem (x 1) (x 4)
  [s, frem s (x 2), s1, frem s s1, f64.sub (x 2) (x 5), f64.mul (x 3) ih, f64.mul vh (x 4), f64.mul vh ih].map fout

/-- Part 1. -/
def derived1 (v : List Nat) : List Nat :=
  let x := fslot v
  let vh := frem (x 0) (x 3)
  let ih := frem (x 1) (x 4)
  [fdiv (x 2) (f64.mul (x 0) (x 1)), fdiv (x 5) (f64.mul (x 3) (x 4)), fdiv vh (x 3), fdiv ih (x 4), vh, ih].map fout

/-- Cosine (0) or sine (1) of the difference of two angles, in binary64 (R249). -/
def fcos (i av ai : Nat) : Fp := let x := f64.sub (fw av) (fw ai); if i = 0 then f64.cosRad x else f64.sinRad x

/-- Part 2, from the PHASE records and the voltage and current SEQ records of a window. -/
def derived2 (ph : List (List Nat)) (vs is_ : List Nat) : List Nat :=
  let sum (i : Nat) : Fp := fsum (ph.map (fun v => fslot v i))
  let ss := fsum (ph.map (fun v => f64.mul (fslot v 0) (fslot v 1)))
  let s1 := f64.mul (fnat 3) (f64.mul (fslot vs 1) (fslot is_ 1))
  let p1 := f64.mul s1 (fcos 0 (vs.getD 4 nan32) (is_.getD 4 nan32))
  let q1 := f64.mul s1 (fcos 1 (vs.getD 4 nan32) (is_.getD 4 nan32))
  [sum 2, sum 5, sum 6, ss, p1, q1, s1, fdiv p1 s1].map fout

/-! ### Aggregation (R251) -/

/-- The number of some values that are numbers, and their mean or root mean square. -/
def aggSlot (mean : Bool) (l : List Nat) : Nat :=
  let xs := (l.map fw).filter (fun x => !x.isNan)
  if xs.isEmpty then nan32
  else if mean then fout (f64.div (fsum xs) (fnat xs.length))
  else fout (f64.sqrt (f64.div (fsum (xs.map (fun x => f64.mul x x))) (fnat xs.length)))

/-- Whether a slot of a type takes the mean; whether it is an angle. -/
def slotMean (typ i : Nat) : Bool := typ == 1 && (i == 2 || i == 5 || i == 6)
def slotAngle (typ i : Nat) : Bool := typ == 4 && 3 ≤ i && i ≤ 5

/-- The values of the longest of some rows. -/
def rowLen (rows : List (List Nat)) : Nat := (rows.map (fun r => r.length)).foldl max 0

/-- Aggregate of `n` slots over rows of one record type. -/
def aggRows (typ n : Nat) (rows : List (List Nat)) : List Nat :=
  (List.range n).map (fun i =>
    if slotAngle typ i then nan32 else aggSlot (slotMean typ i) (rows.filterMap (fun r => r[i]?)))

/-! ### Groups -/

/-- The parameters of a member. -/
def libOf (c : Chain) : List Word := c.lib.getD []

/-- The loaded members of a group. -/
def members (s : State) (ctx g : Nat) : List Chain :=
  s.eng.chains.filter (fun c => c.ctx == ctx && c.lib.isSome && libGroup (libOf c) == g && g != 0)

def lowestId (cs : List Chain) : Nat := match cs with | [] => 0 | c :: l => l.foldl (fun a x => min a x.id) c.id
def lowestOf (cs : List Chain) : Option Chain := cs.find? (fun c => c.id == lowestId cs)

/-- The largest DEADLINE of a group, in ns. -/
def grpDeadline (cs : List Chain) : Nat := (cs.map (fun c => c.img.deadline)).foldl max 0

def kindType (k : Nat) : Nat := bitsOf k 3 3

/-- Records per second that a member hands to the finisher (R249, R255). -/
def chainRate (s : State) (i : Image) (d : List Word) : Nat :=
  let per : Rat := (i.hop : Rat) * feedPer s ((libFeeds d).headD 0)
  if libGroup d == 0 || decide (per = 0) then 0
  else (((libRecs d * 1000000000 * ns1 : Nat) : Rat) / per).ceil.toNat

/-- The rate that ENG_PQ_LOAD shows. -/
def pqRate (s : State) : Nat :=
  (s.eng.chains.map (fun c => match c.lib with | some d => chainRate s c.img d | none => 0)).foldl (· + ·) 0

/-- The member records per second of a context's chains with FINISH or AGG, which its FIN covers (Table 11.1). -/
def ctxPqRate (s : State) (ctx : Nat) : Nat :=
  ((s.eng.chains.filter (fun c => c.ctx == ctx)).map (fun c => match c.lib with
    | some d => if libFinish d || libAgg d then chainRate s c.img d else 0
    | none => 0)).foldl (· + ·) 0

/-- Further member records would exceed what the finisher takes, or what a contract gives (R255, R309). -/
def pqOver (s : State) (k : Contract) (n : Nat) : Bool := Nat.blt 200000 (pqRate s + n) || Nat.blt (1000 * k.f 12 16 8) (ctxPqRate s k.ctx + n)
def pqRegs (s : State) : State := s.wr F_ENG_PQ_STATUS_HELD s.eng.held.length

/-! ### Ticks (R251) -/

/-- The number, plus one, of the interval of a length in s that holds a TS96, and the time in ns at which a number begins. -/
def tickK (s : State) (len t : Nat) : Nat := (t / ns1 + len * 1000000000 - s.rd F_ENG_PQ_CTRL_CLOCK_OFS * 1000000000) / (len * 1000000000)
def tickNs (s : State) (len k : Nat) : Nat := k * (len * 1000000000) + s.rd F_ENG_PQ_CTRL_CLOCK_OFS * 1000000000 - len * 1000000000

/-! ### Emission (R252, R255, R256) -/

/-- Device firmware asks for Record when the held records reach 12 288. -/
def drainWake (s : State) : State :=
  if s.on F_ENG_PQ_CTRL_DRAIN_WAKE && 12288 ≤ s.eng.held.length then askRecord s 3 else s

/-- A finisher record goes to CAP, or waits in Watch, or is lost. -/
def finHand (s : State) (stream wend : Nat) (bs : List Byte) : State :=
  if s.recording then (pushResult s stream bs wend).bump F_ENG_PQ_OUT_COUNT
  else if s.eng.held.length < 16384 then
    drainWake (pqRegs ((s.modEng (fun e => { e with held := e.held ++ [(stream, wend, bs)] })).bump F_ENG_PQ_OUT_COUNT))
  else
    let s1 := s.bump F_ENG_PQ_LOST_COUNT
    if s.eng.lostTold then s1 else (s1.modEng (fun e => { e with lostTold := true })).raise 9 0x0F 0 resNone 0

/-- The 64 bytes of a result record (Table 8.5). -/
def resBytes (wend wlen chain seq kind flags : Nat) (vals : List Nat) (stream engine : Nat) : List Byte :=
  withCheck (natBytes 12 wend ++ natBytes 6 wlen ++ natBytes 2 chain ++ natBytes 6 seq ++ natBytes 1 kind ++ natBytes 1 flags
    ++ (List.range 8).flatMap (fun i => natBytes 4 (vals.getD i 0)) ++ natBytes 1 (vals.length + 16 * stream) ++ natBytes 1 engine)

/-- A record of the finisher. -/
structure FinOut where
  chain : Nat
  stream : Nat
  kind : Nat
  seq : Nat
  wend : Nat
  wlen : Nat
  flags : Nat
  vals : List Nat
deriving DecidableEq, Repr

/-- A record is formed: it is handed on unless DROP names its interval; `late` when its time has passed. -/
def finEmit (s : State) (drop : Nat) (late : Bool) (o : FinOut) : State :=
  let k := o.kind / 64
  if drop.testBit k then s
  else
    let s1 := if late then (s.bump F_ENG_PQ_LATE_COUNT).raise 9 0x0E 0 resNone 0 else s
    finHand s1 o.stream o.wend (resBytes o.wend o.wlen o.chain o.seq o.kind o.flags o.vals o.stream 0x21)

/-! ### Basic windows (R249, R250) -/

def State.grp? (s : State) (ctx g : Nat) : Option Grp := s.eng.grps.find? (fun x => x.ctx == ctx && x.group == g)
def State.modGrp (s : State) (ctx g : Nat) (f : Grp → Grp) : State :=
  s.modEng (fun e => { e with grps := e.grps.map (fun x => if x.ctx = ctx ∧ x.group = g then f x else x) })

/-- The kept records of a group. -/
def grpWins (s : State) (ctx g : Nat) : List MemRec := s.eng.wins.filter (fun r => r.ctx == ctx && r.group == g)

/-- A group is at work from its first record. -/
def grpOpen (s : State) (r : MemRec) : State :=
  if (s.grp? r.ctx r.group).isSome then s
  else
    let k := tickK s 600 r.wend
    let w := if kindType r.kind = 0 then 0 else r.seq
    s.modEng (fun e => { e with grps := e.grps ++ [{
      ctx := r.ctx, group := r.group, base := w / 15 * 15, number := w / 15, t1 := k, t10 := k, t120 := tickK s 7200 r.wend,
      last1 := none, last2 := none, opened := none, open2 := [] }] })

/-- Parts 0 and 1 of the type 5 record of a PHASE record. -/
def emit01 (s : State) (c : Chain) (r : MemRec) (k : Nat) (late : Bool) (seq wend wlen : Nat) : State :=
  let d := libOf c
  let o (p : Nat) (v : List Nat) : FinOut :=
    { chain := c.id, stream := libRes d, kind := 64 * k + 40 + p, seq := seq, wend := wend, wlen := wlen, flags := r.flags, vals := v }
  finEmit (finEmit s (libDrop d) late (o 0 (derived0 r.vals))) (libDrop d) late (o 1 (derived1 r.vals))

/-- The members of a group in a role of the three-phase sums: PHASE chains, and the voltage (4) and current (5) SEQ. -/
def phaseOf (cs : List Chain) : List Chain := cs.filter (fun c => libFunc (libOf c) == 2)
def seqOf (cs : List Chain) (role : Nat) : Option Chain := cs.find? (fun c => libFunc (libOf c) == 3 && libPhase (libOf c) == role)

/-- Part 2 from rows: a chain and its values. -/
def emit2 (s : State) (cs : List Chain) (rows : List (Nat × List Nat)) (flags k : Nat) (late : Bool) (seq wend wlen : Nat) : State :=
  match lowestOf cs with
  | none => s
  | some l =>
    let row (c : Option Chain) : List Nat := match c with
      | some x => ((rows.find? (fun r => r.1 == x.id)).map (fun r => r.2)).getD []
      | none => []
    let v := derived2 ((phaseOf cs).map (fun c => row (some c))) (row (seqOf cs 4)) (row (seqOf cs 5))
    finEmit s (libDrop (libOf l)) late {
      chain := l.id, stream := libRes (libOf l), kind := 64 * k + 42, seq := seq, wend := wend, wlen := wlen, flags := flags, vals := v }

/-- The members whose records part 2 of a window needs. -/
def needs2 (cs : List Chain) : List Chain := phaseOf cs ++ (seqOf cs 4).toList ++ (seqOf cs 5).toList

/-- A record committed after its window's end plus twice the window's length counts as missing (R250). -/
def memLate (s : State) (r : MemRec) : Bool := decide (r.wend + 2 * r.wlen * ns1 + (s.up - r.at_) * ns1 < s.now)

/-- Part 2 of a window is emitted once every member has committed it, in time. -/
def try2 (s : State) (ctx g w : Nat) : State :=
  let cs := members s ctx g
  let rs := (grpWins s ctx g).filter (fun r => r.seq == w && (kindType r.kind == 1 || kindType r.kind == 4))
  let has (c : Chain) : Bool := rs.any (fun r => r.chain == c.id)
  match s.grp? ctx g, rs with
  | some x, r :: _ =>
    if !x.open2.contains w || !(needs2 cs).all has then s
    else if rs.any (memLate s) then s.modGrp ctx g (fun y => { y with open2 := y.open2.filter (· != w) })
    else
      let t := (rs.map (fun q => q.at_)).foldl max 0
      (emit2 s cs (rs.map (fun q => (q.chain, q.vals))) (rs.foldl (fun a q => a ||| q.flags) 0) 0 (decide (t + 1000000 < s.up)) w
        r.wend r.wlen).modGrp ctx g (fun y => { y with open2 := y.open2.filter (· != w) })
  | _, _ => s

/-- Records that nothing needs any more go. -/
def pqPrune (s : State) (ctx g : Nat) : State :=
  let cs := members s ctx g
  let agg := cs.any (fun c => libAgg (libOf c))
  match s.grp? ctx g with
  | none => s
  | some x =>
    let keep (r : MemRec) : Bool :=
      x.open2.contains r.seq || (agg && (decide (x.t10 ≤ tickK s 600 r.wend) || (kindType r.kind == 0 && x.t10 ≤ tickK s 600 r.wend + 1)
        || (kindType r.kind != 0 && x.base ≤ r.seq)))
    s.modEng (fun e => { e with wins := e.wins.filter (fun r => !(r.ctx == ctx && r.group == g) || keep r) })

/-- The finisher takes a member's record. -/
def finTake (s : State) (r : MemRec) (c : Chain) : State :=
  let s1 := (grpOpen s r).modEng (fun e => { e with wins := e.wins ++ [r] })
  let fin := kindType r.kind == 1 && libFinish (libOf c)
  let s2 := if fin then
      (emit01 s1 c r 0 (decide (r.at_ + 1000000 < s.up)) r.seq r.wend r.wlen).modGrp r.ctx r.group (fun x =>
        let new := match x.opened with | some o => decide (o < r.seq) | none => true
        if new then { x with opened := some r.seq, open2 := x.open2 ++ [r.seq] } else x)
    else s1
  pqPrune (try2 s2 r.ctx r.group r.seq) r.ctx r.group

/-! ### Flagged windows (R253) -/

/-- The half-cycle windows of a group's RMS_HALF chain that end within window `w` of `c` cycles of `n` samples. -/
def halfSeqs (n c w : Nat) (win1 : Bool) : List Nat :=
  let h := n / 2
  let len := if win1 then n else h
  (List.range (2 * c + 2)).filterMap (fun i =>
    let k := 2 * c * w + i
    let k' := k - 2
    if w * c * n < k' * h + len ∧ k' * h + len ≤ (w + 1) * c * n ∧ 2 ≤ k then some k' else none)

/-- A window of a group is flagged. -/
def flagged (s : State) (ctx g w : Nat) : Bool :=
  let cs := members s ctx g
  let rs := grpWins s ctx g
  let carries := rs.any (fun r => kindType r.kind != 0 && r.seq == w && (r.flags.testBit 2 || r.flags.testBit 3))
  let half := match cs.find? (fun c => libFunc (libOf c) == 1), cs.find? (fun c => libFunc (libOf c) != 1 && libFunc (libOf c) != 6) with
    | some h, some c =>
      let d := libOf h
      let u := fw (lf d 13 0 32)
      let lo := f64.mul u (f64.div (fnat (lf d 14 0 8)) (fnat 100))
      let hi := f64.mul u (f64.div (fnat (lf d 14 8 8)) (fnat 100))
      let n := rsN s (feedUnit ((libFeeds d).headD 0))
      (halfSeqs n (libC (libOf c)) w (lf d 2 16 1 == 1)).any (fun k =>
        match rs.find? (fun r => r.chain == h.id && r.seq == k) with
        | none => true
        | some r => r.vals.any (fun v => (fw v).lt lo || hi.lt (fw v)))
    | _, _ => false
  carries || half

/-! ### Aggregates -/

/-- The members whose values are aggregated. -/
def aggMembers (cs : List Chain) : List Chain :=
  cs.filter (fun c => libAgg (libOf c) && (libFunc (libOf c) == 2 || libFunc (libOf c) == 3 || libFunc (libOf c) == 4))

/-- The windows of a group over which it aggregates. -/
def aggWins (s : State) (ctx g : Nat) : List MemRec :=
  let ms := aggMembers (members s ctx g)
  (grpWins s ctx g).filter (fun r => kindType r.kind != 0 && ms.any (fun c => c.id == r.chain))

/-- The kinds among some records of a chain, ascending. -/
def kindsOf (rs : List MemRec) : List Nat := (List.range 64).filter (fun k => rs.any (fun r => r.kind == k))

/-- One interval's records of a group, from the values of each member and kind, and the STATUS values. -/
def emitIval (s : State) (cs : List Chain) (rows : List AggRow) (k seq wend wlen : Nat) (st : List Nat) (late : Bool) : State :=
  match lowestOf cs with
  | none => s
  | some l =>
    let drop := libDrop (libOf l)
    let fl := rows.foldl (fun a r => a ||| r.flags) 0
    let s1 := rows.foldl (fun t r =>
      match cs.find? (fun c => c.id == r.chain) with
      | none => t
      | some c => finEmit t drop late {
          chain := if kindType r.kind = 1 then c.id else l.id, stream := libRes (libOf c), kind := 64 * k + r.kind, seq := seq, wend := wend,
          wlen := wlen, flags := r.flags, vals := r.vals }) s
    let ph := rows.filter (fun r => kindType r.kind == 1 && (match cs.find? (fun c => c.id == r.chain) with
      | some c => libFinish (libOf c) | none => false))
    let s2 := ph.foldl (fun t r =>
      match cs.find? (fun c => c.id == r.chain) with
      | none => t
      | some c => emit01 t c { (default_ : MemRec) with flags := r.flags, vals := r.vals } k late seq wend wlen) s1
    let s3 := if ph.isEmpty then s2
      else emit2 s2 cs ((rows.filter (fun r => kindType r.kind == 1 || kindType r.kind == 4)).map (fun r => (r.chain, r.vals))) fl k late seq
        wend wlen
    finEmit s3 drop late {
      chain := l.id, stream := libRes (libOf l), kind := 64 * k + 56, seq := seq, wend := wend, wlen := wlen, flags := fl,
      vals := (st.map (fun n => fout (fnat n))) ++ [fout (f64.div (fnat wlen) (fnat 1000000000))] }
where
  default_ : MemRec :=
    { ctx := 0, group := 0, chain := 0, seq := 0, kind := 0, wend := 0, wlen := 0, flags := 0, vals := [], at_ := 0 }

/-- The rows of some windows: each member and kind, flagged windows left out where EXCL = 1. -/
def ivalRows (ctx g idx : Nat) (cs : List Chain) (rs : List MemRec) (flag : List Nat) : List AggRow :=
  (aggMembers cs).flatMap (fun c =>
    let own := rs.filter (fun r => r.chain == c.id)
    let use := own.filter (fun r => !(lf (libOf c) 2 30 1 == 1 && flag.contains r.seq))
    (kindsOf own).map (fun k =>
      let z := use.filter (fun r => r.kind == k)
      {
        ctx := ctx, group := g, chain := c.id, kind := k, idx := idx, vals := aggRows (kindType k)
          (rowLen ((own.filter (fun r => r.kind == k)).map (fun r => r.vals))) (z.map (fun r => r.vals)),
        flags := z.foldl (fun a r => a ||| r.flags) 0 }))

/-- Windows aggregated, flagged, and missing by SEQ after the last one before. -/
def ivalStatus (cs : List Chain) (rs : List MemRec) (flag : List Nat) (last : Option Nat) : List Nat :=
  let ws := (rs.map (fun r => r.seq)).eraseDups
  let excl := (aggMembers cs).all (fun c => lf (libOf c) 2 30 1 == 1)
  let used := if excl then ws.filter (fun w => !flag.contains w) else ws
  let hi := ws.foldl max 0
  let lo := match last with | some q => q + 1 | none => ws.foldl min hi
  [used.length, (ws.filter (fun w => flag.contains w)).length, (hi + 1 - lo) - ws.length]

/-- Whether every aggregating member has a window beyond a test. -/
def allBeyond (s : State) (ctx g : Nat) (test : MemRec → Bool) : Bool :=
  (aggMembers (members s ctx g)).all (fun c => (aggWins s ctx g).any (fun r => r.chain == c.id && test r))

/-- The span of some windows: start of the first, WEND of the last, in ns. -/
def spanOf (rs : List MemRec) : Nat × Nat :=
  match rs with
  | [] => (0, 0)
  | r :: l => (l.foldl (fun a x => min a (x.wend / ns1 - x.wlen)) (r.wend / ns1 - r.wlen), l.foldl (fun a x => max a x.wend) r.wend)

/-- A 150/180-cycle group ends: at its fifteenth window, or at a 10-min tick. -/
def cycleEnd (s : State) (x : Grp) : State :=
  let cs := members s x.ctx x.group
  let all := aggWins s x.ctx x.group
  let dl := grpDeadline cs * ns1
  let inTick := all.filter (fun r => x.base ≤ r.seq && tickK s 600 r.wend == x.t1)
  let rs := inTick.filter (fun r => r.seq < x.base + 15)
  let full := inTick.any (fun r => x.base + 14 ≤ r.seq)
  let endTs := if full then (spanOf rs).2 else tickNs s 600 (x.t1 + 1) * ns1
  let done := if full then allBeyond s x.ctx x.group (fun r => x.base + 14 ≤ r.seq)
    else allBeyond s x.ctx x.group (fun r => x.t1 < tickK s 600 r.wend)
  if s.now < endTs || !(done || endTs + dl ≤ s.now) then s
  else
    let flag := ((rs.map (fun r => r.seq)).eraseDups).filter (flagged s x.ctx x.group)
    let late := decide (endTs + dl + 5000000 * ns1 < s.now)
    let sp := spanOf rs
    let s1 := if rs.isEmpty then s
      else emitIval s cs (ivalRows x.ctx x.group 0 cs rs flag) 1 x.number sp.2 (sp.2 / ns1 - sp.1) (ivalStatus cs rs flag x.last1) late
    let next := all.filter (fun r => x.t1 < tickK s 600 r.wend)
    let base' := if full then x.base + 15
      else match next with
        | r :: l => l.foldl (fun a q => min a q.seq) r.seq
        | [] => max x.base ((rs.map (fun r => r.seq + 1)).foldl max 0)
    pqPrune (s1.modGrp x.ctx x.group (fun y => { y with
      base := base', number := if rs.isEmpty then y.number else y.number + 1, t1 := if full then y.t1 else y.t1 + 1,
      last1 := if rs.isEmpty then y.last1 else some ((rs.map (fun r => r.seq)).foldl max 0) })) x.ctx x.group

/-- The STATUS row of a 10-min interval kept for the 2-h one. -/
def statusRow (x : Grp) (st : List Nat) (wlen : Nat) : AggRow :=
  { ctx := x.ctx, group := x.group, chain := 0, kind := 56, idx := x.t10, vals := st ++ [wlen], flags := 0 }

/-- A 10-min interval ends. -/
def tenMinEnd (s : State) (x : Grp) : State :=
  let cs := members s x.ctx x.group
  let rs := (aggWins s x.ctx x.group).filter (fun r => tickK s 600 r.wend == x.t10)
  let tick := tickNs s 600 (x.t10 + 1)
  let dl := grpDeadline cs * ns1
  let done := allBeyond s x.ctx x.group (fun r => x.t10 < tickK s 600 r.wend)
  if s.now < tick * ns1 || x.t1 ≤ x.t10 || !(done || tick * ns1 + dl ≤ s.now) then s
  else
    let flag := ((rs.map (fun r => r.seq)).eraseDups).filter (flagged s x.ctx x.group)
    let late := decide (tick * ns1 + dl + 5000000 * ns1 < s.now)
    let wlen := min 600000000000 (tick - (spanOf rs).1)
    let rows := ivalRows x.ctx x.group x.t10 cs rs flag
    let st := ivalStatus cs rs flag x.last2
    let s1 := if rs.isEmpty then s
      else (emitIval s cs rows 2 (wrapTo 48 ((x.t10 : Int) - 1)) (tick * ns1) wlen st late).modEng (fun e =>
        { e with aggs := e.aggs ++ rows ++ [statusRow x st wlen] })
    pqPrune (s1.modGrp x.ctx x.group (fun y => { y with
      t10 := y.t10 + 1, last2 := if rs.isEmpty then y.last2 else some ((rs.map (fun r => r.seq)).foldl max 0) })) x.ctx x.group

/-- A 2-h interval ends. -/
def twoHourEnd (s : State) (x : Grp) : State :=
  let cs := members s x.ctx x.group
  let tick := tickNs s 7200 (x.t120 + 1)
  if s.now < tick * ns1 || tickNs s 600 x.t10 < tick then s
  else
    let own := s.eng.aggs.filter (fun r => r.ctx == x.ctx && r.group == x.group && tickNs s 600 r.idx < tick)
    let late := decide (tick * ns1 + grpDeadline cs * ns1 + 5000000 * ns1 < s.now)
    let rows := (aggMembers cs).flatMap (fun c => ((List.range 56).filter (fun k => own.any (fun r => r.chain == c.id && r.kind == k))).map (fun k =>
      let z := own.filter (fun r => r.chain == c.id && r.kind == k)
      { statusRow x [] 0 with
        chain := c.id, kind := k, vals := aggRows (kindType k) (rowLen (z.map (fun r => r.vals))) (z.map (fun r => r.vals)),
        flags := z.foldl (fun a r => a ||| r.flags) 0 }))
    let sum (i : Nat) : Nat := ((own.filter (fun r => r.kind == 56)).map (fun r => r.vals.getD i 0)).foldl (· + ·) 0
    let s1 := if rows.isEmpty then s
      else emitIval s cs rows 3 (wrapTo 48 ((x.t120 : Int) - 1)) (tick * ns1) (min 7200000000000 (sum 3)) [sum 0, sum 1, sum 2] late
    (s1.modEng (fun e => { e with aggs := e.aggs.filter (fun r => !(r.ctx == x.ctx && r.group == x.group && tickNs s 600 r.idx < tick)) })).modGrp
      x.ctx x.group (fun y => { y with t120 := y.t120 + 1 })

/-! ### Flicker (R254) -/

/-- The class, from the top, at which `need` of the counts are exceeded, and the part of the class that lies above. -/
def flickFind : List (Nat × Int) → Rat → Option (Nat × Rat)
  | [], _ => none
  | (c, n) :: l, need => if 0 < n ∧ need ≤ (n : Rat) then some (c, need / (n : Rat)) else flickFind l (need - (n : Rat))

/-- The level exceeded for x per mille of the counts, interpolated within its class; none of no counts. The manual does not say
whether the interpolation is by level or by decibel: the departure from the latter is open. -/
def flickP (counts : List Int) (x : Nat) : Fp :=
  let total : Int := counts.foldl (· + ·) 0
  match flickFind (counts.mapIdx (fun i n => (i, n))).reverse ((total : Rat) * (x : Rat) / 1000) with
  | none => .nan
  | some (c, f) => f64.ofRat (pow10Rat (((-60 : Rat) + 30 * (((c + 1 : Nat) : Rat) - f) / 256) / 20) + Config.engErr 0x180 [x] counts 0)

/-- Pst and what it is formed from: Pst, P0.1, P1s, P3s, P10s, P50s. -/
def flickPst (counts : List Int) : List Nat :=
  let p (x : Nat) : Fp := flickP counts x
  let mean (l : List Nat) : Fp := f64.div (fsum (l.map p)) (fnat l.length)
  let k (n : Nat) : Fp := f64.ofRat ((n : Rat) / 10000)
  let p01 := p 1
  let p1 := mean [7, 10, 15]
  let p3 := mean [22, 30, 40]
  let p10 := mean [60, 80, 100, 130, 170]
  let p50 := mean [300, 500, 800]
  let sum := fsum [f64.mul (k 314) p01, f64.mul (k 525) p1, f64.mul (k 657) p3, f64.mul (k 2800) p10, f64.mul (k 800) p50]
  [froot sum, p01, p1, p3, p10, p50].map fout

/-- Plt over twelve Pst values. -/
def flickPlt (psts : List Nat) : Nat :=
  if psts.length < 12 then nan32
  else fout (f64.cbrt (f64.div (fsum (psts.map (fun x => f64.mul (fw x) (f64.mul (fw x) (fw x))))) (fnat 12)))

/-- A FLICKER member's 10-min tick: its histogram is read once the last window before the tick has committed. -/
def flickTick (s : State) (c : Chain) (f : FlickAcc) : State :=
  let tick := tickNs s 600 (f.tick + 1)
  let cs := members s c.ctx (libGroup (libOf c))
  let dl := grpDeadline cs
  let done := decide (tick ≤ c.lastEnd / ns1 + c.lastLen)
  if s.now < tick * ns1 || !(done || (tick + dl) * ns1 ≤ s.now) then s
  else
    let hist := (c.st.slots.headD []).take 1024
    let counts := (List.range 1024).map (fun i => (hist.getD i 0 - f.copy.getD i 0) % 4294967296)
    let v := flickPst counts
    let late := decide ((tick + dl + 5000000) * ns1 < s.now)
    let fl := if f.fresh then 32 else 0
    let psts := (f.psts ++ [(f.tick, v.headD nan32)]).filter (fun x => f.tick < x.1 + 12)
    let out (k seq wlen : Nat) (vals : List Nat) : FinOut :=
      { chain := lowestId cs, stream := libRes (libOf c), kind := 64 * k + 48, seq := seq, wend := tick * ns1, wlen := wlen, flags := fl, vals := vals }
    let s1 := finEmit s (libDrop (libOf c)) late (out 2 (wrapTo 48 ((f.tick : Int) - 1)) 600000000000 v)
    let k2 := tickK s 7200 (tick * ns1)
    let s2 := if tickNs s 7200 k2 = tick then
        finEmit s1 (libDrop (libOf c)) late (out 3 (wrapTo 48 ((k2 : Int) - 2)) 7200000000000 [flickPlt (psts.map (fun x => x.2))])
      else s1
    s2.modEng (fun e => { e with flicks := e.flicks.map (fun y => if y.chain = c.id then
      { y with copy := hist, tick := y.tick + 1, fresh := false, psts := psts } else y) })

end Sys2Proof.Machine
end

