-- ==== Sys2Proof/Machine/Contract.lean ====
section
/-!
DEFINITION. The contract commands (chapter 11): request, modify, release, status, budget, and the re-run of admission.
-/

namespace Sys2Proof.Machine

/-- A contract as a packet asks for it (Table 11.2). -/
def packetCon (p : Packet) (order : Nat) : Contract :=
  { ctx := pCtx p, order := order, dws := (List.range 14).map (fun i => BitVec.ofNat 32 (pdw p (i + 2))), pieces := [],
    broken := false }

/-- R307. -/
def conFieldsOk (p : Packet) (s : State) : Bool :=
  let c := packetCon p 0
  50 ≤ c.f 2 24 8 && c.f 2 24 8 ≤ 200 && 2000 ≤ c.f 13 0 32 && (c.f 7 8 1 == 0 || c.f 8 0 16 != 0)
    && (c.f 7 9 1 == 0 || c.f 8 16 16 != 0) && (c.f 2 14 1 == 0 || s.ctxFunc (pCtx p) == 0)

/-- The reply of an accepted request: pieces, lowest engine, worst-case commit, LINK_CAP, DRAM left (Table 11.5). -/
def conReply (s : State) (ctx : Nat) : Reply :=
  match contractOf s ctx with
  | none => { st := .ok }
  | some c =>
    let es := c.pieces.map (fun p => p.eng)
    let low := match es with | [] => 0 | e :: l => engMaster (l.foldl min e)
    let w := worldBut s none
    let worst := (c.pieces.map (fun p =>
      let others := (onEng w p.eng).filter (fun q => q.con.ctx != ctx)
      let own := (c.pieces.filter (fun q => q.eng == p.eng)).length
      let b := (others.map (fun q => q.con.f 4 0 24)).foldl max (if own > 1 then c.f 4 0 24 else 0)
      worstCommit (c.f 14 0 16 : Rat) b (c.f 4 0 24) (c.f 14 16 16)
        (minF ((onEng w p.eng).map (fun q => q.con)) (c.f 2 24 8)) (c.f 15 0 24) p.guard)).foldl max 0
    okR (c.pieces.length + (low <<< 8)) worst (linkCap s) (dramCap s - dramUse s (poolsBut s none))

/-- Device firmware raises FCLK to the floor of the contracts in force (R312). -/
def raiseFclk (s : State) : State :=
  let f := fFloor s (s.rd (F_CKG_P_CTRL_SSC 0))
  if s.on F_PMU_STATUS_THROTTLED || f ≤ s.rd (F_CKG_P_CTRL_TARGET 0) then s else setFreq s 0 f

/-- A contract takes its place in the order of the list. -/
def conInsert (s : State) (c : Contract) : State :=
  s.modCon (fun k => { k with list := (k.list.filter (fun x => x.ctx != c.ctx && x.order < c.order)) ++ [c]
      ++ (k.list.filter (fun x => x.ctx != c.ctx && x.order ≥ c.order)), next := max k.next (c.order + 1) })

/-- A contract is in force: the admission registers follow, and FCLK is raised. -/
def conInForce (s : State) (c : Contract) : State := raiseFclk (admRegs (conInsert s c))

/-- An admission runs: a request is admitted and waits for FCLK (R312, Table 11.7). -/
def admRuns (s : State) : Bool := s.fcp.inflight.any (fun c => c.kind == .admission && Nat.blt c.key 4096)

/-- FCLK is on its way up to the floor of the contracts. -/
def fclkRises (s : State) : Bool :=
  s.rd (F_CKG_P_STATUS_STATE 0) == 4 && s.clk.fkhz < fFloor s 0 * 1000 && !s.on F_PMU_STATUS_THROTTLED

/-- A contract is in force; the reply waits until FCLK has risen (R312). -/
def conAccept (s : State) (c : Contract) : FcpOut :=
  let t := conInForce s c
  if fclkRises t then .wait .admission c.ctx 0 t else .final (conReply t c.ctx) t

/-- Requests whose FCLK has risen, or is held down by thermal protection, complete (R312). -/
def admWake (s : State) : State :=
  if s.clk.fkhz < fFloor s 0 * 1000 && !s.on F_PMU_STATUS_THROTTLED then s
  else (s.fcp.inflight.filter (fun c => c.kind == .admission && c.key < 4096)).foldl (fun t c => t.finish c (conReply t c.ctx)) s

/-- A refused request: ADM_REFUSED counts it (Table 11.7). -/
def conRefuse (s : State) (q : Quote) : FcpOut := .final q.reply (s.bump F_ADM_REFUSED_COUNT)

/-- A contract with its pieces on the engines that R305 gives them, beside those that are fixed. -/
def conPlaced (s : State) (c : Contract) (held : List Piece) (w : List WPiece) : Contract :=
  { c with pieces := held ++ (placeAll s c true true (c.f 2 16 8 - held.length) w).map (fun n => Piece.mk n none (guarded s (n / 8))) }

/-- A request is admitted whole, or refused (R304, R308). -/
def conRequest (p : Packet) (s : State) : FcpOut :=
  let c := packetCon p s.con.next
  let q := quoteOf s c none []
  if q.fails.isEmpty then conAccept s (conPlaced s c [] (worldBut s none)) else conRefuse s q

/-- CONTRACT_REQUEST. -/
def execContractRequest (p : Packet) (s : State) : Out :=
  fcpStep { op := 0x14, valid := conFieldsOk, allowed := fun p s => (contractOf s (pCtx p)).isNone, run := conRequest } p s

/-- The first check that a new envelope fails for what a context has loaded, open or armed (R316). -/
def coverFail (s : State) (ctx : Nat) (old c : Contract) : Option Nat :=
  let held := old.pieces.filter (fun p => p.chain.isSome)
  let chains := chainsOfCtx s ctx
  let arm := armedBy s ctx
  if arm && (c.f 2 14 1 == 0 || c.f 6 0 32 < s.rd F_CAP_GRANARY_RATE_MBPS) then some 1
  else if (chansOf s ctx).length > c.f 12 8 8 then some 6
  else if ctxPqRate s ctx > 1000 * c.f 12 16 8 then some 7
  else if held.length > c.f 2 16 8 then some 8
  else if held.any (fun p => !barnAllowed s c (p.eng / 8)) || chains.any (fun k =>
      k.cjob > c.f 4 0 24 || k.load > c.f 3 0 32 || k.ready > c.f 14 0 16 || k.outUnits > c.f 14 16 16) then some 8
  else if chains.any (fun k => commitDeadline s k.img k.lib < c.f 5 0 32) then some 9
  else if chains.any (fun k => k.mirror > c.f 15 24 8 * 2048) then some 10
  else none

/-- The pieces of a contract that chains occupy. -/
def heldPieces (c : Contract) : List Piece := c.pieces.filter (fun x => x.chain.isSome)

/-- A contract is replaced whole, or left unchanged (R316). -/
def conModify (s : State) (old c : Contract) : FcpOut :=
  match coverFail s c.ctx old c with
  | some k => .final { st := .badParam, r0 := k } s
  | none =>
    let fixed := (heldPieces old).map (fun x => WPiece.mk x.eng c x.guard x.chain)
    let q := quoteOf s c (some c.ctx) fixed
    if q.fails.isEmpty then conAccept s (conPlaced s c (heldPieces old) (worldBut s (some c.ctx) ++ fixed)) else conRefuse s q

/-- CONTRACT_MODIFY. -/
def execContractModify (p : Packet) (s : State) : Out :=
  fcpStep { op := 0x15, valid := fun p s => conBroken s (pCtx p) || conFieldsOk p s,
            allowed := fun p s => (contractOf s (pCtx p)).isSome,
            run := fun p s =>
              match contractOf s (pCtx p) with
              | none => fSt .notPermitted s
              | some old => if old.broken then fSt .contractBroken s else conModify s old (packetCon p old.order) } p s

/-- A context's contract ends: chains unloaded, channels closed, reservations free (R316, R317). -/
def conRelease (s : State) (ctx : Nat) : State := admRegs (dropCon (dmaCloseCtx (unloadCtx s ctx) ctx) ctx)

/-- CONTRACT_RELEASE with DRAIN completes once every job in flight has committed or is gone (R316). -/
def relCheck (s : State) : State :=
  (s.fcp.inflight.filter (fun c => c.kind == .admission && c.key ≥ 4096
    && (chainsOfCtx s c.ctx).all (fun k => drained s k))).foldl (fun t c =>
      (conRelease t c.ctx).finish c (okR (chainsOfCtx t c.ctx).length 0 0 0)) s

/-- Drains of chains and contracts that have come to their end. -/
def drains (s : State) : State := relCheck (drainCheck s)

/-- Chains of a context run no window after the ones in flight. -/
def stopCtx (s : State) (ctx : Nat) : State :=
  s.modEng (fun e => { e with chains := e.chains.map (fun c => if c.ctx = ctx then stopChain s c else c) })

/-- CONTRACT_RELEASE. -/
def execContractRelease (p : Packet) (s : State) : Out :=
  fcpStep { op := 0x16, allowed := fun p s => !armedBy s (pCtx p),
            run := fun p s =>
              let ctx := pCtx p
              let n := (chainsOfCtx s ctx).length
              if pb p 2 0 then
                let s1 := stopCtx s ctx
                if (chainsOfCtx s1 ctx).all (fun k => drained s1 k) then .final (okR n 0 0 0) (conRelease s1 ctx)
                else .wait .admission (4096 + ctx) 0 s1
              else .final (okR n 0 0 0) (conRelease s ctx) } p s

/-- CONTRACT_STATUS. -/
def execContractStatus (p : Packet) (s : State) : Out :=
  fcpStep { op := 0x17, contain := true, permit := fun p s => !pb p 2 12 || s.ctxFunc (pCtx p) == 0,
            valid := fun p s => !pb p 2 12 || (s.ctx? (pf p 2 0 12)).isSome,
            run := fun p s =>
              let ctx := if pb p 2 12 then pf p 2 0 12 else pCtx p
              match contractOf s ctx with
              | none => .final (okR 0 0 (topF s) 0) s
              | some c =>
                let parked := !c.pieces.isEmpty && !s.inRecord && !s.err.contained
                  && (c.f 2 13 1 == 0 || !s.inWatch)
                let st := if c.broken then 2 else if parked then 3 else 1
                let used := (c.pieces.filter (fun x => x.chain.isSome)).length
                .final (okR (st + (c.pieces.length <<< 8) + (used <<< 16)) ((c.pieces.length - used) * c.f 3 0 32) (topF s)
                  c.order) s } p s

/-- The budget record (Table 11.6). -/
def budgetRecord (s : State) : List Byte :=
  let p := poolsBut s none
  let fr := (List.range 12).map (barnFree s)
  withCheck (natBytes 4 (96000 - p.silo) ++ natBytes 4 (dramCap s - dramUse s p) ++ natBytes 4 (linkCap s - p.d2h)
    ++ natBytes 4 (linkCap s - p.h2d) ++ natBytes 1 (cmpAvail s - p.cmp) ++ natBytes 1 (128 - p.dma) ++ natBytes 1 (200 - p.fin)
    ++ natBytes 1 (topF s) ++ natBytes 2 (activeCons s).length ++ natBytes 2 (guardMask s)
    ++ fr.flatMap (fun x => natBytes 2 (min 65535 (x.1 / 1000))) ++ fr.flatMap (fun x => natBytes 1 x.2)
    ++ natBytes 1 (s.rd F_HIF_STATUS_LINK_SPEED + 16 * s.rd F_HIF_STATUS_LINK_WIDTH) ++ natBytes 1 0)

/-- BUDGET_QUERY. -/
def execBudgetQuery (p : Packet) (s : State) : Out :=
  fcpStep { op := 0x18, contain := true, aligned := fun p _ => pq p 2 % 64 == 0,
            run := fun p s => fOk (s.hostWrite (pq p 2) (budgetRecord s)) } p s

/-- ADMISSION_RERUN: after a loss of capacity, or BUDGET_CHANGED after a rise (R314); Containment abandons it (R494). -/
def execAdmissionRerun (s : State) : Out :=
  match if s.err.contained then none else s.con.rerun with
  | some cause => .next (drains (admitRerun s cause s.con.rerunEng).1)
  | none => if s.con.risen && !s.err.contained then .next (budgetCheck s true) else .next s

end Sys2Proof.Machine
end

