-- ==== Sys2Proof/Machine/MemOps.lean ====
section
/-!
DEFINITION. The DRAM subsystem's shared operations (chapter 14): channel states, refresh debts, write queues, ranks and
their retirement, training and its end, self-refresh.
-/

namespace Sys2Proof.Machine

def State.modMem (s : State) (g : Mem → Mem) : State := { s with mem := g s.mem }
def State.mch (s : State) (c : Nat) : MChan := s.mem.chans.getD c MChan.reset
def State.modMch (s : State) (c : Nat) (g : MChan → MChan) : State :=
  s.modMem (fun m => { m with chans := listMod m.chans c g })

/-- A state change made for each channel in ascending order. -/
def eachCh (s : State) (f : State → Nat → State) : State := (List.range 8).foldl f s

/-- STATE of a channel. -/
def mcState (s : State) (c : Nat) : Nat := s.rd (F_MEM_C_STATUS_STATE c)
def setMc (s : State) (c v : Nat) : State := s.wr (F_MEM_C_STATUS_STATE c) v

/-- A channel runs in the sense of R7 (R409). -/
def mcRunning (s : State) (c : Nat) : Bool := let x := mcState s c; x == 2 || x == 4 || x == 5

/-- Installed capacity. -/
def capacity (s : State) : Nat := s.rd64 R_MEM_CAPACITY_LO R_MEM_CAPACITY_HI

/-- STATE of a rank. -/
def rankSt (s : State) (c p : Nat) : Nat := s.rd (F_MEM_C_R_ERR_STATE c p)
def setRank (s : State) (c p v : Nat) : State := s.wr (F_MEM_C_R_ERR_STATE c p) v

/-! ### Refresh (R394 to R396) -/

/-- The ceiling in force (R395). -/
def refCeil (s : State) (c : Nat) : Nat := max 1 (min 8 (s.rd (F_MEM_C_REF_CEIL c)))

/-- What a rank owes. -/
def owed (s : State) (c p : Nat) : Nat := (s.mch c).owed.getD p 0

/-- A rank owes a new number of slots; MEM_Cc_REF_OWED shows 16 as 15 (Table 14.9). -/
def setOwed (s : State) (c p v : Nat) : State :=
  (s.modMch c (fun x => { x with owed := listMod x.owed p (fun _ => v) })).wr ⟨R_MEM_C_REF_OWED c, 4 * p, 4⟩ (min 15 v)

/-- Every slot of a channel is paid. -/
def payAll (s : State) (c : Nat) : State := (List.range 8).foldl (fun t p => setOwed t c p 0) s

/-- A rank's rate changes (R396): to 2×, its debt doubles and what exceeds the ceiling is paid in a burst; back to 1×,
it halves. REF_BURST is recorded once per rank per second. -/
def setRate (s : State) (c p : Nat) (x2 : Bool) : State :=
  let f : Fld := ⟨R_MEM_C_REF c, 8 + p, 1⟩
  if s.on f = x2 then s
  else
    let s1 := s.wrB f x2
    let o := owed s c p
    if !x2 then setOwed s1 c p (cdiv o 2)
    else if 2 * o ≤ refCeil s c then setOwed s1 c p (2 * o)
    else
      let s2 := (setOwed s1 c p (refCeil s c)).bump (F_MEM_C_COUNTS_REF_BURST c)
      let soon := match (s.mch c).burstAt.getD p none with | some t => decide (s.up < t + 1000000000) | none => false
      if soon then s2
      else (s2.modMch c (fun x => { x with burstAt := listMod x.burstAt p (fun _ => some s.up) })).raise 12 0x06 0 (resRank c p) 0

/-- A ceiling is written: a rank that owes more pays down to it (R395). -/
def refClamp (s : State) (c : Nat) : State :=
  (List.range 8).foldl (fun t p => if refCeil t c < owed t c p then setOwed t c p (refCeil t c) else t) s

/-! ### Write queues (R392, R393) -/

/-- Whether a granule's write is queued. -/
def wqHas (s : State) (g : Nat) : Bool := (s.mch (s.mem.map.decode g).ch).wq.any (fun e => e.addr == g)

/-! ### Poison and errors (R402) -/

/-- Counters of a channel; channel 0's clear the ports' LATMAX too (Table 14.9). -/
def mcCounters (c : Nat) : List Fld :=
  [F_MEM_C_COUNTS_REF_BURST c, F_MEM_C_COUNTS_FREEZES c, F_MEM_C_FWD_COUNT c, F_MEM_C_CE_TOTAL_COUNT c, F_MEM_C_UE_TOTAL_COUNT c,
   F_MEM_C_POISON_READS_COUNT c]
  ++ (List.range 8).flatMap (fun p => [F_MEM_C_R_ERR_CE c p, F_MEM_C_R_ERR_UE c p])
  ++ (if c = 0 then (List.range 5).map F_MEM_PORT_LATMAX_NS else [])

/-- A region not yet initialised (R401). -/
def uninit (s : State) (a : Nat) : Bool :=
  match s.mem.initPtr with
  | none => false
  | some p => p ≤ a && !s.mem.early.contains (a / 2097152)

/-- The Silo pages that touch a range are pinned for good (R405). -/
def pinRange (s : State) (lo n : Nat) : State :=
  let ps := (List.range (s.rd F_CAP_SILO_PAGES_PAGES)).filter (fun p => decide (pageAddr s p < lo + n ∧ lo < pageAddr s p + pageSize))
  capSpans (ps.foldl (fun t p =>
    let t1 := pinPage t p
    t1.setPage p { t1.page p with pins := 65535 }) s)

/-- The dwords of RANK_RETIRED and MIGRATION_DONE (R412). -/
def rankDw (c p : Nat) (spared : Bool) : Nat := c + (p <<< 8) + (b2n spared <<< 16)

/-- A rank with no spare is retired in place (R405). -/
def retireInPlace (s : State) (c p : Nat) : State :=
  let lr := (s.mch c).ranks.idxOf p
  let s1 := (setRank s c p 4).modMem (fun m => { m with dead := m.dead ++ [(c, lr)] })
  let s2 := (s1.raise 12 0x04 0 (resRank c p) 0).postEvent 0 0x0C02 [rankDw c p false, s1.rd (F_MEM_C_R_ERR_UE c p)]
  wantRerun (pinRange s2 (lr * s.mem.map.rankBytes) s.mem.map.rankBytes) 3

/-- Whether a channel migrates a rank. -/
def migrating (s : State) (c : Nat) : Bool := (List.range 8).any (fun p => rankSt s c p == 3)

/-- The spare that a channel still has. -/
def freeSpare (s : State) (c : Nat) : Option Nat :=
  if migrating s c then none else (List.range 8).find? (fun p => rankSt s c p == 2)

/-- A rank is to be retired (R404, R405); the second value says whether it migrates to a spare. -/
def rankRetire (s : State) (c p : Nat) : State × Bool :=
  match freeSpare s c with
  | none => (retireInPlace s c p, false)
  | some q =>
    let s1 := (setRank s c p 3).wrs [(F_MEM_C_MIG_FROM c, p), (F_MEM_C_MIG_TO c, q), (F_MEM_C_MIG_ROW c, 0)]
    (if mcState s c = 4 then s1.modMch c (fun x => { x with before := 5 })
     else if mcState s c = 2 then setMc s1 c 5 else s1, true)

/-- A granule has been read by a port, with what its check code says (R402, R404). -/
def granRead (s : State) (g : Nat) (res : ReadCheck) : State :=
  let l := s.mem.map.decode g
  let c := l.ch
  let p := (s.mch c).ranks.getD l.rank 0
  if uninit s g then s
  else if s.mem.poison.contains g || s.mem.isDead g then s.bump (F_MEM_C_POISON_READS_COUNT c)
  else
    match res with
    | .ok => s
    | .corrected => ((s.bump (F_MEM_C_R_ERR_CE c p)).bump (F_MEM_C_CE_TOTAL_COUNT c)).raise 12 0x01 1 (resAddr g) 0
    | .uncorrectable =>
      let s1 := (((s.bump (F_MEM_C_R_ERR_UE c p)).bump (F_MEM_C_UE_TOTAL_COUNT c)).wr64 (R_MEM_C_LAST_UE_LO c) (R_MEM_C_LAST_UE_HI c) g)
      let s2 := (s1.modMem (fun m => { m with poison := m.poison ++ [g] })).raise 12 0x02 2 (resAddr g) 0
      let lim := s2.rd (F_MEM_C_RANK_UE_LIMIT_LIMIT c)
      let st := rankSt s2 c p
      if lim ≠ 0 ∧ s2.rd (F_MEM_C_R_ERR_UE c p) > lim ∧ (st = 1 ∨ st = 5) then (rankRetire s2 c p).1 else s2

/-! ### Self-refresh (R407, R408, R421) -/

/-- A channel enters self-refresh: its queues are completed, its debts paid. A frozen channel, and one that trains or has
failed, stays as it is. -/
def selfRefresh (s : State) (c : Nat) : State :=
  let x := mcState s c
  if x = 2 ∨ x = 5 then
    (setMc (payAll s c) c 3).modMch c (fun y => { y with wq := [], before := if x = 5 then 5 else 2 })
  else s

/-- The state a channel takes up when it is READY. -/
def readyState (s : State) (c : Nat) : Nat := if migrating s c then 5 else 2

/-- A channel is READY, with nothing owed (Table 14.5). -/
def mcReady (s : State) (c : Nat) : State := (setMc (payAll s c) c (readyState s c)).modMch c (fun y => { y with drift := false })

/-- Every channel that a wake brings out of self-refresh is READY, or waits for its drift check. -/
def allReady (s : State) : Bool := (List.range 8).all (fun c => mcRunning s c)

/-! ### Training (R398, R400) -/

/-- Training begins on every channel. -/
def trainStart (s : State) (fresh full : Bool) (rate : Nat) : State :=
  let s1 := (s.wr F_GLB_STATE_DRAM_READY 0).modMem (fun m => { m with
    training := some { start := s.up, fresh := fresh, full := full, rate := rate } })
  eachCh s1 (fun t c => ((t.wrs [(F_MEM_C_STATUS_STATE c, 1), (F_MEM_C_STATUS_FAIL_STEP c, 0), (F_MEM_C_STATUS_FAIL_RANK c, 0)]).modMch c
    (fun x => { x with wq := [], frozenAt := none, drift := false, failed := none })))

/-- A channel fails training (R398). -/
def trainFail (s : State) (c step rank : Nat) : State :=
  (s.wrs [(F_MEM_C_STATUS_STATE c, 6), (F_MEM_C_STATUS_FAIL_STEP c, step), (F_MEM_C_STATUS_FAIL_RANK c, rank)]).raise 12 0x05 2
    (resIndex c) (step % 16 + (rank % 8) * 256)

/-- Channels that have failed, as a mask. -/
def failMask (s : State) : Nat := (List.range 8).foldl (fun v c => if mcState s c = 6 then v + 2 ^ c else v) 0

/-- Whether a population and a data rate are of R384 and R385. -/
def popOk (f : Population) : Bool :=
  (f.dimms == 1 || f.dimms == 2) && (f.ranks == 1 || f.ranks == 2 || f.ranks == 4) && f.density ≤ 2 && !f.other && 4800 ≤ f.rate

/-- The data rate that training uses (R385): the highest supported that the SPDs and MEM_CONFIG permit. -/
def popRate (f : Population) (limit : Nat) : Nat :=
  let top := min (if f.dimms = 2 then 5600 else 6400) (if limit = 0 then f.rate else min f.rate limit)
  if top ≥ 6400 then 6400 else if top ≥ 5600 then 5600 else 4800

/-- The address at which a map places a location (the inverse of R387). -/
def MemMap.encode (m : MemMap) (l : MemLoc) : Nat :=
  let lo := if m.order = 0 then 4 else 2 ^ m.colBits
  let hi := 2 ^ m.colBits / lo
  let ch := if m.hash then l.ch ^^^ (l.row % 8) else l.ch
  let bg := if m.hash then l.bg ^^^ (l.row / 8 % 8) else l.bg
  64 * (l.col % lo + lo * (ch + 8 * (l.sc + 2 * (bg + 8 * (l.ba + m.banks * (l.col / lo + hi * (l.row + (m.rows - 1) * l.rank)))))))

/-- The address under a new map of what an address names under the old one (R388). -/
def remapAddr (old new : MemMap) (a : Nat) : Nat := new.encode (old.decode a) + a % 64

/-- A change of ORDER or HASH moves every byte to another address (R388). -/
def remapDram (s : State) (new : MemMap) : State :=
  let old := s.mem.map
  if old.ranks = 0 ∨ (old.order = new.order ∧ old.hash = new.hash) then s
  else
    { s with dram := s.dram.foldl (fun m c => memPut m (remapAddr old new c.1) c.2) [],
             mem := { s.mem with poison := s.mem.poison.map (remapAddr old new) } }

/-- The physical ranks of a population. -/
def popRanks (f : Population) : List Nat :=
  (List.range f.dimms).flatMap (fun d => (List.range f.ranks).map (fun r => 4 * d + r))

/-- The spare that a channel has for a population: named by MEM_SPARE and present (R404). -/
def popSpare (s : State) (f : Population) (c : Nat) : Option Nat :=
  if s.on (F_MEM_C_SPARE_EN c) && (popRanks f).contains (s.rd (F_MEM_C_SPARE_RANK c)) then some (s.rd (F_MEM_C_SPARE_RANK c)) else none

/-- The ranks of a channel after its first training (R404): STATE of each, and physical by logical rank. -/
def rankSetup (s : State) (f : Population) (c : Nat) : State :=
  let sp := popSpare s f c
  let here := popRanks f
  let s1 := (List.range 8).foldl (fun t p => setRank t c p (if !here.contains p then 0 else if some p = sp then 2 else 1)) s
  s1.modMch c (fun x => { x with ranks := here.filter (fun p => some p != sp) })

/-- A spare takes the place of a rank: RANK_RETIRED is raised, then RANK_RETIRED and MIGRATION_DONE are posted with the rows
that were copied (R404, R412). -/
def spareTakes (s : State) (c p q rows : Nat) : State :=
  let s1 := (setRank (setRank s c p 4) c q 5).modMch c (fun x => { x with ranks := x.ranks.map (fun y => if y = p then q else y) })
  let s2 := (s1.raise 12 0x04 0 (resRank c p) 0).postEvent 0 0x0C02 [rankDw c p true, s1.rd (F_MEM_C_R_ERR_UE c p)]
  s2.postEvent 0 0x0C03 [rankDw c p true, rows]

/-- A rank that failed training is replaced by its channel's spare without a copy: what the rank held is lost (R404). -/
def rankSwap (s : State) (c : Nat) : State :=
  match (s.mch c).failed, freeSpare s c with
  | some (_, p), some q =>
    let lr := (s.mch c).ranks.idxOf p
    let m := s.mem.map
    let s1 := { s with dram := s.dram.filter (fun x => (m.decode x.1).ch != c || (m.decode x.1).rank != lr) }
    (spareTakes s1 c p q 0).modMch c (fun x => { x with failed := none })
  | _, _ => s

/-- Data rate, MPLL and population registers (Table 14.9). -/
def popRegs (s : State) (f : Population) (rate : Nat) : State :=
  let s1 := eachCh s (fun t c => t.wrs [(F_MEM_C_POP_DIMMS c, f.dimms), (F_MEM_C_POP_RANKS_PER_DIMM c, f.ranks), (F_MEM_C_POP_X8 c, b2n f.x8),
    (F_MEM_C_POP_DENSITY c, f.density)])
  (mpllTo s1 (rate * 500)).wrs [(F_CKG_P_CTRL_TARGET 1, rate / 2), (F_MEM_GSTATUS_DATA_RATE, rate), (F_MEM_GSTATUS_DPC2, b2n (f.dimms == 2))]

/-- The map in effect after training (R387, R388), its registers and the capacity. -/
def mapSetup (s : State) (f : Population) : State :=
  let l := (List.range 8).foldl (fun n c => min n (s.mch c).ranks.length) 8
  let new : MemMap := { order := s.mem.nextOrder, hash := s.mem.nextHash == 1, x8 := f.x8, density := f.density, ranks := l }
  let s1 := (remapDram s new).modMem (fun m => { m with map := new })
  (s1.wrs [(F_MEM_CFG_ORDER, new.order), (F_MEM_CFG_HASH, b2n new.hash), (F_MEM_CFG_INIT_RATE, s.mem.nextInit)]).wr64 R_MEM_CAPACITY_LO
    R_MEM_CAPACITY_HI new.capacity

/-- Initialisation begins at a byte (R401). -/
def initStart (s : State) (ptr : Nat) : State :=
  ((s.wr64 R_MEM_INIT_PTR_LO R_MEM_INIT_PTR_HI ptr).wr F_MEM_GSTATUS_INIT_DONE 0).modMem (fun m => { m with
    initPtr := some ptr, early := [], initStart := s.up })

/-- DRAM is ready (R30, R398): the count is recorded once after a reset, CAP's waiting configuration completes, admission
follows; outside Record the channels enter self-refresh and MEMC goes to retention. -/
def dramReady (s : State) : State :=
  let s1 := s.wr F_GLB_STATE_DRAM_READY 1
  let s2 := if s1.rd F_GLB_READY_DRAM_COUNT = 0 then s1.wr F_GLB_READY_DRAM_COUNT (sat32 ((s.up - s.clk.upBase) / 40)) else s1
  let s3 := if s.recording then s2 else (eachCh s2 selfRefresh).setDom .memc (if s.pstate = 0 then 0 else 1)
  recordStart (capRisen (admRegs (capDramReady s3)))

end Sys2Proof.Machine
end

