-- ==== Sys2Proof/Machine/Mem.lean ====
section
/-!
DEFINITION. The commands and events of the DRAM subsystem (chapter 14).
-/

namespace Sys2Proof.Machine

/-! ### Opcodes (R414) -/

/-- MEM_CONFIG's fields in range (Table 14.8). -/
def memCfgOk (p : Packet) : Bool :=
  let i := pf p 2 8 8
  let r := pf p 3 0 16
  let c := pf p 4 8 4
  let g := pf p 4 16 8
  32 ≤ i && i ≤ 128 && (r == 0 || 4800 ≤ r) && 1 ≤ c && c ≤ 8 && 1 ≤ g && g ≤ 51

/-- MEMC takes the configuration of a MEM_CONFIG. -/
def memTake (p : Packet) (s : State) : State :=
  let s1 := s.modMem (fun m => { m with nextOrder := pf p 2 0 1, nextHash := pf p 2 1 1, nextInit := pf p 2 8 8,
                                        limit := pf p 3 0 16 })
  (eachCh s1 (fun t c => refClamp (t.wrs [(F_MEM_C_RANK_UE_LIMIT_LIMIT c, pf p 4 0 8), (F_MEM_C_REF_CEIL c, pf p 4 8 4),
    (F_MEM_C_MIG_RATE_GBPS c, pf p 4 16 8)]) c)).wr F_MEM_CFG_SCRUB_H (pf p 2 16 12)

/-- MEM_CONFIG. -/
def execMemConfig (p : Packet) (s : State) : Out :=
  fcpStep { op := 0x80, pfOnly := true, valid := fun p _ => memCfgOk p,
            run := fun p s =>
              let s2 := memTake p s
              .final (okR (s2.rd F_MEM_GSTATUS_DATA_RATE) (s2.reg R_MEM_CAPACITY_LO).toNat (s2.reg R_MEM_CAPACITY_HI).toNat 0) s2 } p s

/-- MEM_STATUS. -/
def execMemStatus (p : Packet) (s : State) : Out :=
  fcpStep { op := 0x81, dom := some .memc,
            run := fun p s =>
              let c := pf p 2 0 3
              .final (okR (s.reg (R_MEM_C_STATUS c)).toNat (s.reg (R_MEM_C_CE_TOTAL c)).toNat (s.reg (R_MEM_C_UE_TOTAL c)).toNat
                  (s.reg (R_MEM_C_COUNTS c)).toNat)
                (if pb p 2 8 then s.zeroFields (mcCounters c) else s) } p s

/-- A freeze ends: the failing command is issued again and scheduling resumes (R406). -/
def unfreeze (s : State) (c : Nat) : State :=
  (setMc s c (s.mch c).before).modMch c (fun x => { x with frozenAt := none })

/-- MEM_RELEASE. -/
def execMemRelease (p : Packet) (s : State) : Out :=
  fcpStep { op := 0x82, pfOnly := true, dom := some .memc, allowed := fun p s => mcState s (pf p 2 0 3) == 4,
            run := fun p s =>
              let c := pf p 2 0 3
              .final (okR (s.reg (R_MEM_C_CAPT_INFO c)).toNat 0 0 0) (unfreeze s c) } p s

/-- Whether a rank is there; before a training has read the SPDs every rank of the range may be named. -/
def rankThere (s : State) (c p : Nat) : Bool := s.rd (F_MEM_C_POP_DIMMS c) == 0 || rankSt s c p != 0

/-- A MEM_SPARE with bit 8 names the spare rank of its channel. -/
def spareSet (p : Packet) (s : State) : State :=
  if pb p 2 8 then s.wrs [(F_MEM_C_SPARE_RANK (pf p 2 0 3), pf p 2 4 3), (F_MEM_C_SPARE_EN (pf p 2 0 3), 1)] else s

/-- The spare itself is retired: no address of the map is touched (R404, R405; DESIGN CHOICE, log 45). -/
def spareRetire (s : State) (c r : Nat) : State :=
  ((setRank s c r 4).raise 12 0x04 0 (resRank c r) 0).postEvent 0 0x0C02 [rankDw c r false, s.rd (F_MEM_C_R_ERR_UE c r)]

/-- MEM_SPARE. -/
def execMemSpare (p : Packet) (s : State) : Out :=
  fcpStep { op := 0x83, pfOnly := true, dom := some .memc, valid := fun p s => rankThere s (pf p 2 0 3) (pf p 2 4 3),
            allowed := fun p s => !(pb p 2 8 && s.on F_GLB_STATE_DRAM_READY) && !(pb p 2 9 && migrating s (pf p 2 0 3)),
            run := fun p s =>
              let c := pf p 2 0 3
              let r := pf p 2 4 3
              let s1 := spareSet p s
              let st := rankSt s1 c r
              if !pb p 2 9 || st = 0 || st = 4 then .final (okR st 0 0 0) s1
              else if st = 2 then .final (okR 4 0 0 0) (spareRetire s1 c r)
              else
                let x := rankRetire s1 c r
                if x.2 then .pend .memSpare c 0 x.1 else .final (okR (rankSt x.1 c r) 0 0 0) x.1 } p s

/-- MEM_TRAIN. -/
def execMemTrain (p : Packet) (s : State) : Out :=
  fcpStep { op := 0x84, pfOnly := true, priv := some 2, dom := some .memc,
            allowed := fun _ s => !capRunning s && (List.range 16).all (fun m => !s.on (F_MAP_CTRL_EN m))
              && (activeCons s).all (fun c => c.f 9 0 32 == 0),
            run := fun p s => .pend .memTrain 0 0 (trainStart (s.setDom .memc 2) (s.mem.training.any (fun t => t.fresh)) (pb p 2 0) 0) } p s

/-- A write of MEM_Cc_CTRL. -/
def memCtrlWrite (c v : Nat) (s : State) : State :=
  let s1 := s.wr (F_MEM_C_CTRL_AUTO_RELEASE c) (v / 65536)
  if v.testBit 0 then s1.zeroFields (mcCounters c) else s1

/-- MEM_CLR_COUNTERS: a write of MEM_Cc_CTRL. -/
def execMemClrCounters (m c : Nat) (v : Word) (s : State) : Out :=
  if 8 ≤ c then .next s else .next (s.writeBy m (R_MEM_C_CTRL c) (memCtrlWrite c v.toNat))

/-! ### Training -/

/-- A write of MEM_Cc_TRN_CTRL: its fields, frozen while the channel runs, then GO, ignored while BUSY (R399). -/
def trnWrite (s : State) (c : Nat) (v : Word) : State :=
  let s1 := plainWrite s (R_MEM_C_TRN_CTRL c) (mcRunning s c) (F_MEM_C_STATUS_WRITE_REFUSED c) v.toNat
  if v.toNat.testBit 0 && !s.on (F_MEM_C_TRN_STATUS_BUSY c) then
    (s1.wrs [(F_MEM_C_TRN_STATUS_BUSY c, 1), (F_MEM_C_TRN_STATUS_DONE c, 0)]).zeroFields
      ((List.range 3).map (fun j => F_MEM_C_TRN_ERRLANES_LANES c j))
  else s1

/-- TRN_GO. -/
def execTrnGo (m c : Nat) (v : Word) (s : State) : Out :=
  if 8 ≤ c then .next s else .next (s.writeBy m (R_MEM_C_TRN_CTRL c) (fun t => trnWrite t c v))

/-- A change of MPLL that waited for a step is made; at a new data rate every channel trains again (R400). -/
def mpllChange (s : State) (mhz : Nat) : State :=
  let fresh := match s.mem.training with | some t => t.fresh | none => false
  let new := s.rd F_MEM_GSTATUS_DATA_RATE != 2 * mhz
  let s1 := (mpllTo s (mhz * 1000)).wr (F_CKG_P_CTRL_TARGET 1) mhz
  let s2 := (s1.bump (F_CKG_P_COUNTS_CHANGES 1)).modMem (fun m => { m with mpll := none })
  if new then trainStart (s2.setDom .memc 2) fresh false (2 * mhz) else s2

/-- A step of a channel ends with the lanes that mismatched. -/
def stepDone (s : State) (c lanes : Nat) : State :=
  s.wrs [(F_MEM_C_TRN_STATUS_BUSY c, 0), (F_MEM_C_TRN_STATUS_DONE c, 1), (F_MEM_C_TRN_ERRLANES_LANES c 0, lanes),
    (F_MEM_C_TRN_ERRLANES_LANES c 1, lanes / 4294967296), (F_MEM_C_TRN_ERRLANES_LANES c 2, lanes / 18446744073709551616 % 65536)]

/-- MPLL stands at another data rate than a frequency gives. -/
def newRate (s : State) (mhz : Nat) : Bool := s.rd F_MEM_GSTATUS_DATA_RATE != 2 * mhz

/-- The results of the steps are discarded (R400). -/
def lanesDrop (s : State) : State :=
  eachCh s (fun t k => t.zeroFields ((List.range 3).map (fun j => F_MEM_C_TRN_ERRLANES_LANES k j)))

/-- TRN_STEP_DONE: the lanes that mismatched. Once no step runs, a change of MPLL that waited is made; at a new rate the
results are discarded (R399, R400). -/
def execTrnStepDone (c lanes : Nat) (s : State) : Out :=
  if !s.on (F_MEM_C_TRN_STATUS_BUSY c) then .next s
  else
    let s1 := stepDone s c lanes
    match s1.mem.mpll with
    | none => .next s1
    | some mhz =>
      if (List.range 8).any (fun k => s1.on (F_MEM_C_TRN_STATUS_BUSY k)) then .next s1
      else
        .next ((mpllChange (if newRate s1 mhz then lanesDrop s1 else s1) mhz).wake .memCfg 0
          { st := if newRate s1 mhz then .deferred else .ok, r0 := mhz, r1 := glideUs s1.clk.mkhz (mhz * 1000) })

/-- A training that fails ends: DRAM_READY stays 0, Record is refused, MEM_TRAIN completes (R30, R398). -/
def trainEndFail (s : State) : State :=
  let ms := match s.mem.training with | some t => (s.up - t.start) / 1000000 | none => 0
  let s1 := (s.modMem (fun m => { m with training := none })).modClk (fun c => { c with want := c.want.filter (fun w => w.target != 2) })
  (s1.finishAll (fun c => c.kind == .psWant && c.key == 2) { st := .hwError }).wake .memTrain 0 (okR ms (failMask s) 0 0)

/-- Whether a channel's spare can take the place of a rank that fails this training (R404): one that is named, or after a first
training one that is still free, and that is not given already. -/
def spareHelps (s : State) (c rank : Nat) : Bool :=
  s.on (F_MEM_C_SPARE_EN c) && s.rd (F_MEM_C_SPARE_RANK c) != rank && (s.mch c).failed.isNone
    && ((s.mch c).ranks.isEmpty || (freeSpare s c).isSome)

/-- A spare that was named for a channel and turns out not to be there fails the channel at the step its rank failed (R398). -/
def spareMissing (s : State) (f : Population) (c : Nat) : State :=
  match (s.mch c).failed with
  | some (step, p) => if mcState s c != 6 && (s.mch c).ranks.isEmpty && (popSpare s f c).isNone then trainFail s c step p else s
  | none => s

/-- TRAINING_STEP_TIMEOUT: a step of Table 14.4 exceeds its timeout on a channel, at a physical rank. A configured spare
takes the rank's place; else the channel fails (R398, R404). -/
def execTrainingStepTimeout (c step rank : Nat) (s : State) : Out :=
  match s.mem.training with
  | none => .next s
  | some _ =>
    if s.err.contained || mcState s c == 6 then .next s
    else if spareHelps s c rank && 4 ≤ step then .next (s.modMch c (fun x => { x with failed := some (step, rank) }))
    else .next (trainFail s c step rank)

/-- A training is the first since a power-on or pin reset to succeed, when no ranks are known yet (R401). -/
def firstTraining (s : State) (t : Training) : Bool := t.fresh || (s.mch 0).ranks.isEmpty

/-- A training succeeds: what the SPDs say stands, the map is set up, the channels are READY, initialisation begins after the
first. -/
def trainGood (s : State) (found : Population) (t : Training) : State :=
  let rate := if t.rate = 0 then popRate found s.mem.limit else t.rate
  let s1 := popRegs s found rate
  let s2 := eachCh s1 (fun x c => rankSwap (if t.fresh || (x.mch c).ranks.isEmpty then rankSetup x found c else x) c)
  let s3 := eachCh (mapSetup s2 found) mcReady
  let s4 := (if firstTraining s t then initStart s3 0 else s3).modMem (fun m => { m with training := none })
  (dramReady s4).wake .memTrain 0 (okR ((s.up - t.start) / 1000000) 0 0 0)

/-- A training ends well where no channel has failed. -/
def trainVerdict (s : State) (found : Population) (t : Training) : State :=
  if failMask s ≠ 0 then trainEndFail s else trainGood s found t

/-- DRAM_TRAINING_DONE: training has come to its end, with what the SPDs say. -/
def execDramTrainingDone (found : Population) (s : State) : Out :=
  match s.mem.training with
  | none => .next s
  | some t =>
    if s.err.contained || s.dom .memc == 0 then .next s
    else if !popOk found then
      .next (trainEndFail (eachCh s (fun x c => if mcState x c = 6 then x else trainFail x c 1 0)))
    else .next (trainVerdict (eachCh s (fun x c => spareMissing x found c)) found t)

/-- The next region to be initialised: past those done ahead. -/
def nextRegion (early : List Nat) (r : Nat) : Nat → Nat
  | 0 => r
  | n + 1 => if early.contains r then nextRegion early (r + 1) n else r

/-- The address the initialisation reaches after the region at `p`. -/
def initNext (s : State) (p : Nat) : Nat :=
  let e := s.mem.early
  min (nextRegion e (nextRegion e (p / 2097152) e.length + 1) e.length * 2097152) (capacity s)

/-- The initialisation has reached an address; at the capacity it ends with INIT_DONE and its event. -/
def initReach (s : State) (q : Nat) : State :=
  if q < capacity s then (s.wr64 R_MEM_INIT_PTR_LO R_MEM_INIT_PTR_HI q).modMem (fun m => { m with initPtr := some q })
  else
    let s1 := ((s.wr64 R_MEM_INIT_PTR_LO R_MEM_INIT_PTR_HI q).wr F_MEM_GSTATUS_INIT_DONE 1).modMem (fun m => { m with
      initPtr := none, early := [] })
    budgetCheck (s1.postEvent 0 0x0C04 [(s.up - s.mem.initStart) / 1000000]) true

/-- DRAM_INIT_REGION: the controller writes the next region; at the end INIT_DONE (R401). -/
def execDramInitRegion (s : State) : Out :=
  match s.mem.initPtr with
  | none => .next s
  | some p =>
    if !s.domOn .memc || !allReady s then .next s
    else .next (initReach s (initNext s p))

/-! ### Reads -/

/-- The longest read of a port. -/
def latMax (s : State) (port n : Nat) : State :=
  if port < 5 then s.wr (F_MEM_PORT_LATMAX_NS port) (max (s.rd (F_MEM_PORT_LATMAX_NS port)) n) else s

/-- DRAM_READ: a read of a granule by a port returns after `ns`; a queued write serves it without a DRAM access (R393),
and a channel that is frozen or not READY lets it wait. -/
def execDramRead (addr port ns : Nat) (res : ReadCheck) (s : State) : Out :=
  let g := addr / 64 * 64
  let c := (s.mem.map.decode g).ch
  if !s.domOn .memc || g + 64 > capacity s then .next s
  else if wqHas s g then .next (latMax (s.bump (F_MEM_C_FWD_COUNT c)) port (min ns 20))
  else if mcState s c = 2 ∨ mcState s c = 5 then .next (granRead (latMax s port ns) g res)
  else .next s

/-- The granule the scrubber reads next. -/
def scrubAt (s : State) : Nat :=
  let a0 := if s.mem.scrub ≥ capacity s then 0 else s.mem.scrub
  match s.mem.initPtr with | some p => if a0 ≥ p ∧ !s.mem.early.contains (a0 / 2097152) then 0 else a0 | none => a0

/-- SCRUB_READ: the scrubber reads the next granule, past regions not yet initialised (R403). -/
def execScrubRead (res : ReadCheck) (s : State) : Out :=
  if !s.domOn .memc || s.rd F_MEM_CFG_SCRUB_H = 0 || capacity s = 0 then .next s
  else
    let a := scrubAt s
    let c := (s.mem.map.decode a).ch
    let s1 := s.modMem (fun m => { m with scrub := a + 64 })
    if uninit s a then .next s1
    else if mcState s c = 2 ∨ mcState s c = 5 then .next (granRead s1 a res)
    else .next s

/-- A migration of a channel ends (R404). -/
def migDone (s : State) (c : Nat) : State :=
  let p := s.rd (F_MEM_C_MIG_FROM c)
  let q := s.rd (F_MEM_C_MIG_TO c)
  let rows := s.mem.map.rows - 1
  (spareTakes ((setMc s c 2).wr (F_MEM_C_MIG_ROW c) rows) c p q rows).wake .memSpare c (okR 4 0 0 0)

/-- RANK_MIGRATION_DONE: the spare takes the logical rank (R404). In Containment a migration pauses (R410). -/
def execRankMigrationDone (c : Nat) (s : State) : Out :=
  if s.err.contained || mcState s c != 5 || !s.domOn .memc then .next s
  else .next (migDone s c)

/-! ### Refresh and temperature -/

/-- REFRESH_SLOT_DUE: a slot of a rank falls due; `busy` says that requests of the rank have kept it from being idle. A frozen
channel pays it at once with REFab (R394, R395, R406). -/
def execRefreshSlotDue (c p : Nat) (busy : Bool) (s : State) : Out :=
  if !s.domOn .memc || !mcRunning s c || mcState s c == 4 || rankSt s c p == 0 then .next s
  else if !busy then .next (setOwed s c p 0)
  else .next (setOwed s c p (min (refCeil s c) (owed s c p + 1)))

/-- MR4_POLL: a rank's MR4 reports the 1× rate (0), the 2× rate (1) or more (2) (R397). -/
def execMr4Poll (c p ind : Nat) (s : State) : Out :=
  if !s.domOn .memc || mcState s c != 2 || rankSt s c p == 0 then .next s
  else
    let s1 := setRate s c p (ind != 0)
    .next (if ind ≥ 2 then s1.raise 12 0x07 0 (resRank c p) 0 else s1)

/-- SPD_HUB_POLL: a DIMM's temperature in 1/16 °C, or none when its transfer has failed three times (R397, R411). -/
def execSpdHubPoll (c d : Nat) (t : Option Nat) (s : State) : Out :=
  if 8 ≤ c || 2 ≤ d || !s.domOn .memc then .next s
  else
    match t with
    | some x => .next (s.wr (F_MEM_C_D_TEMP_TEMP c d) x)
    | none => .next (s.raise 12 0x08 0 (resDimm c d) 0)

/-- WRITE_AGE_EXPIRY: the oldest write of a subchannel's queue has passed WR_AGE_MAX and is issued (R392). -/
def execWriteAgeExpiry (c sc : Nat) (s : State) : Out :=
  match (s.mch c).wq.find? (fun e => e.sc == sc) with
  | none => .next s
  | some e =>
    if s.up < e.at_ + 1000 * s.rd (F_MEM_C_WQ_WR_AGE_MAX c) || mcState s c == 4 then .next s
    else .next (s.modMch c (fun x => { x with wq := x.wq.filter (fun y => y != e) }))

/-! ### CA parity (R406) -/

/-- A channel freezes and captures its last commands (R406). -/
def caFreeze (s : State) (c : Nat) (cmds : List Nat) (index rank : Nat) : State :=
  let s1 := if mcState s c = 4 then s
    else ((setMc s c 4).modMch c (fun x => { x with frozenAt := some s.up, before := mcState s c })).bump (F_MEM_C_COUNTS_FREEZES c)
  let s2 := (List.range 16).foldl (fun t j => t.wr (F_MEM_C_CAPT_W_CMD c j) (cmds.getD j 0)) s1
  let s3 := s2.wrs [(F_MEM_C_CAPT_INFO_INDEX c, index), (F_MEM_C_CAPT_INFO_RANK c, rank)]
  (s3.postEvent 0 0x0C01 [c, (s3.reg (R_MEM_C_CAPT_INFO c)).toNat]).raise 12 0x03 2 (resIndex c) 0

/-- CA_PARITY_ALERT: the last 8 commands as 16 words, oldest first, which of them failed and its rank. -/
def execCaParityAlert (c : Nat) (cmds : List Nat) (index rank : Nat) (s : State) : Out :=
  if !s.domOn .memc || !mcRunning s c then .next s
  else .next (caFreeze s c cmds index rank)

/-- CA_AUTO_RELEASE. -/
def execCaAutoRelease (c : Nat) (s : State) : Out :=
  let us := s.rd (F_MEM_C_CTRL_AUTO_RELEASE c)
  match (s.mch c).frozenAt with
  | none => .next s
  | some t => if us = 0 ∨ s.up < t + 1000 * us then .next s else .next (unfreeze s c)

/-! ### Self-refresh exit (R408, R409) -/

/-- After a soft reset, once every channel is READY, DRAM_READY is set again and initialisation goes on (R409). -/
def softDone (s : State) : State :=
  if s.on F_GLB_STATE_DRAM_READY || s.mem.training.isSome || !allReady s then s else dramReady s

/-- MPLL holds its DCO code; the channels stay in self-refresh until it has reacquired (R421). -/
def mpllHeld (s : State) : Bool := s.rd (F_CKG_P_STATUS_STATE 1) == 6

/-- SELF_REFRESH_EXIT: a channel's drift check passes, or fails; after a soft reset a failure trains it again. -/
def execSelfRefreshExit (c : Nat) (ok : Bool) (s : State) : Out :=
  if mcState s c != 3 || !s.domOn .memc || mpllHeld s || s.err.contained then .next s
  else if ok then .next (softDone (mcReady s c))
  else if !s.on F_GLB_STATE_DRAM_READY then .next (trainStart s false false 0)
  else .next (s.modMch c (fun x => { x with drift := true }))

/-- DRIFT_RECENTRE: the delays are centred again and the channel is READY. -/
def execDriftRecentre (c : Nat) (s : State) : Out :=
  if !(s.mch c).drift || mcState s c != 3 || !s.domOn .memc || mpllHeld s then .next s
  else .next ((mcReady s c).raise 12 0x09 0 (resIndex c) 0)

end Sys2Proof.Machine
end

