-- ==== Sys2Proof/Machine/Trg.lean ====
section
/-!
DEFINITION. The trigger's commands (chapters 4 and 5): arm, disarm, force, configuration, the heart's ticks, TRIG_OUT, base
notes, placement, segment hand-off.
-/

namespace Sys2Proof.Machine

/-! ### Shadows (R126, R137, R150) -/

/-- The shadowed registers of a top note, of a base note, and the masks. -/
def tnShadow (n : Nat) : List Nat :=
  [R_TN_LEVEL n, R_TN_HYST n, R_TN_TMIN_LO n, R_TN_TMIN_HI n, R_TN_TMAX_LO n, R_TN_TMAX_HI n]
def bnShadow (i : Nat) : List Nat := [R_BN_LEVEL_A i, R_BN_LEVEL_B i, R_BN_HYST i]
def maskShadow : List Nat := [R_TRG_DIRECT_TN_LO, R_TRG_DIRECT_TN_HI, R_TRG_DIRECT_BN]

/-- Whether any of some registers awaits an apply. -/
def pendingIn (s : State) (l : List Nat) : Bool := l.any (fun a => regGet s.regs a != regGet s.eff a)

/-- Registers that wait for TRG's common boundary (R126, R137). -/
def trgShadowRegs : List Nat :=
  (List.range 64).flatMap tnShadow ++ (List.range 32).flatMap bnShadow ++ maskShadow

/-- BAD of the notes, as written and, while TRG runs, as in effect (R105, R134); SHADOW_PENDING. -/
def trgFlags (s : State) : State :=
  let run := trgRunning s
  let s1 := (List.range 64).foldl (fun t n => t.wrB (F_TN_STATE_BAD n) (noteBad t t.rd n || (run && noteBad t t.rdE n))) s
  let s2 := (List.range 32).foldl (fun t i =>
    let u := t.wrB (F_BN_STATE_BAD i) (bnBad t t.rd i || (run && bnBad t t.rdE i))
    if bnType u u.now i = 0 then bnQuiet u i else u) s1
  s2.wrB F_TRG_STATUS_SHADOW_PENDING (pendingIn s2 (trgShadowRegs ++ placeShadow))

/-- Every shadowed value takes effect, and the registers of the values in effect follow (R119, R126, R137). -/
def trgApply (s : State) (t : Nat) : State :=
  let s3 := s.applyRegs trgShadowRegs
  let s4 := (List.range 64).foldl (fun u n => u.setReg (R_TN_LEVEL_EFF n) (regGet u.eff (R_TN_LEVEL n))) s3
  let s5 := (List.range 32).foldl (fun u i => ((u.setReg (R_BN_LEVEL_A_EFF i) (regGet u.eff (R_BN_LEVEL_A i))).setReg
    (R_BN_LEVEL_B_EFF i) (regGet u.eff (R_BN_LEVEL_B i))).setReg (R_BN_HYST_EFF i) (regGet u.eff (R_BN_HYST i))) s4
  trgFlags (s5.wrTs (R_TRG_APPLIED_W 0) t)

/-- TRG_OVL_WAIT follows the base notes that decide, and with it the hand-off of the segments still to come (R145). -/
def ovlRenew (s : State) : State :=
  let w := ovlWait s
  (s.wr F_TRG_OVL_WAIT_WAIT w).modTrg (fun t => { t with
    segs := t.segs.map (fun g => if g.handed || g.cap != s.rd F_CAP_CAPTURE_CAPTURE then g else { g with handAt := g.pS + w * ns1 }) })

/-- RETAIN_NEED as an ARM would compute it now, and S_G, in µs (Table 5.7). -/
def needNow (s : State) : Nat × Nat := (usOf (retainNeed s s.rd (tWake s)), s.rd F_CAP_GRANARY_SPAN_US)

/-- The commands that wait for an apply complete, be the boundary T_apply or ARM: those of key 1 answer RETAIN_NEED and S_G
(R126, R156). -/
def commitsEnd (s : State) : State :=
  (s.wake .trgApply 0 { st := .ok }).wake .trgApply 1 (okR (needNow s).1 (needNow s).2 0 0)

/-- The apply at T_apply: it acts on event times from T_apply on; notes whose values changed start over there (R126,
R137). -/
def trgApplyAt (s : State) (t : Nat) : State :=
  let s1 := (List.range 64).foldl (fun u n =>
    if pendingIn u (tnShadow n) then u.modNote n (fun x => { x with redo := x.redo ++ [t] }) else u) s
  let s2 := (List.range 32).foldl (fun u i =>
    if pendingIn u (bnShadow i) then u.modBn i (fun z => { z with redo := z.redo ++ [t] }) else u) s1
  ovlRenew (trgApply (s2.modTrg (fun x => { x with past := x.past ++ [(t, s.eff)] })) t)

/-- TRG_COMMIT.GO asks for an apply at the next tick boundary (R126). -/
def trgCommitGo (s : State) : State := s.modTrg (fun t => { t with applyAt := some (cdiv s.now half * half) })

/-- A write of TRG_COMMIT. -/
def trgCommitWrite (v : Nat) (s : State) : State := if v.testBit 0 then trgCommitGo s else s

/-- TRG_COMMIT_GO. -/
def execTrgCommitGo (m : Nat) (v : Word) (s : State) : Out := .next (s.writeBy m R_TRG_COMMIT (trgCommitWrite v.toNat))

/-- TRG_SHADOW_APPLY: T_apply is reached. -/
def execTrgShadowApply (s : State) : Out :=
  match s.trg.applyAt with
  | none => .next s
  | some t =>
    if !s.domOn .intake || s.err.contained || s.now < t then .next s
    else
      .next (commitsEnd (trgApplyAt (s.modTrg (fun x => { x with applyAt := none })) t))

/-! ### Arm, disarm, force (R119 to R122) -/

/-- TRG's counts since ARM (R119, R154). -/
def trgArmCounters : List Fld :=
  [F_TRG_DECISIONS_LO_COUNT, F_TRG_DECISIONS_HI_COUNT, F_TRG_LATE_COUNT, F_TRG_MERGE_COUNT, F_TRG_SKIP_COUNT,
   F_TRG_DISCARD_COUNT, F_TRG_SEG_COUNT_COUNT, F_TRG_HOLD_COUNT_COUNT, F_TRG_OVL_COUNT_COUNT, F_TRG_OVL_LATE_COUNT,
   F_TRG_ORDER_COUNT, F_TRG_COINCIDENT_COUNT]
  ++ (List.range 64).map F_TN_COUNT_COUNT
  ++ (List.range 32).flatMap (fun i => [F_BN_COUNT_COUNT i, F_BN_LATE_COUNT i, F_BN_DROP_DUP i, F_BN_DROP_SKIP i])

/-- Every TRG count (CLR_COUNTERS). SEG_COUNT numbers the segments and is no such count. -/
def trgCounters : List Fld :=
  trgArmCounters.filter (fun f => f != F_TRG_SEG_COUNT_COUNT) ++ [F_TRG_OUT_COUNTS_MERGED, F_TRG_OUT_COUNTS_LATE]

/-- Whether the source of an enabled note delivers data. -/
def noteDelivered (s : State) (n : Nat) : Bool :=
  let src := s.rd (F_TN_CFG_SRC n)
  if s.rd (F_TN_CFG_TYPE n) = 7 then
    (List.range 64).all (fun i =>
      ((s.rd (F_TN_PMASK_LO_VALUE n) + s.rd (F_TN_PMASK_HI_VALUE n) * 4294967296) >>> i) % 2 == 0 || inDelivers s i)
  else if src < 0x30 then srcDelivered s src
  else decide (0x40 ≤ src ∧ src ≤ 0x80) && inDelivers s (src - 0x40)

/-- The first enabled note without data, by the values an ARM would take. -/
def badNote (s : State) : Option Nat :=
  (List.range 64).find? (fun n => noteTypeBy s s.rd n != 0 && !noteDelivered s n)

/-- TRIG_ARM. -/
def execTrigArm (p : Packet) (s : State) : Out :=
  fcpStep { op := 0x30, pfOnly := true, dom := some .intake,
            valid := fun p s => decide (pTs p 2 ≤ s.now + 60000000000 * ns1) && (badNote s).isNone,
            badRes := fun p s => if pTs p 2 ≤ s.now + 60000000000 * ns1 then ((badNote s).getD 0, 0) else (0, 0),
            allowed := fun _ s => jinRun s && trgState s == 0,
            run := fun p s =>
              match armBudget s (pCtx p) (mbps (rateG s)) with
              | some r => .final r s
              | none =>
                let s1 := fclkForTrg (s.wr F_TRG_STATUS_STATE 1)
                .wait .arm 0 0 (s1.modTrg (fun t => { t with armAt := some (max (pTs p 2) s.now), armCtx := pCtx p })) } p s

/-- A base note before its first value (R154). -/
def armBn (s : State) : State :=
  (List.range 32).foldl (fun t i => t.wrs [(F_BN_STATE_RUN i, 0), (F_BN_STATE_C i, 0)])
    (s.modTrg (fun t => { t with bns := List.replicate 32 BNote.reset }))

/-- Retention at ARM (R141, R142). -/
def armRetain (s : State) (ts : Nat) : State :=
  let sw := shortWatch s s.rdE
  let sr := shortRecord s s.rdE
  let enter := sw && s.on F_TRG_CTRL_WAKE_EN && !s.on F_TRG_PLACE_RETAIN_POLICY && s.inWatch
  let s1 := s.wrs [(F_TRG_RETAIN_NEED_US, usOf (retainNeed s s.rdE (tWake s))), (F_TRG_GRANARY_SPAN_US, s.rd F_CAP_GRANARY_SPAN_US),
    (F_TRG_SILO_SPAN_MS, s.rd F_CAP_SILO_SPAN_MS), (F_TRG_RETAIN_STATUS_SHORT_WATCH, b2n sw),
    (F_TRG_RETAIN_STATUS_SHORT_RECORD, b2n sr), (F_TRG_RETAIN_STATUS_RECORD_AT_ARM, b2n enter)]
  let s2 := if sw then s1.raiseAt ts 6 0x08 0 resNone 0 else s1
  let s3 := if sr then s2.raiseAt ts 6 0x08 0 resNone 1 else s2
  if enter then askRecord s3 4 else s3

/-- The arm takes effect at an LEMC edge (R52, R119, R154, R171, R184). What an earlier ARM still has to do goes on: segments
not yet handed off, TRIG_OUT edges not yet launched. Where TRIG_OUT follows a note, it falls with the note's level. -/
def armEffect (s : State) (ts : Nat) : State :=
  let s00 := if s.rd F_TRG_OUT_CTRL_MODE = 4 then noteLevel s (s.rd F_TRG_OUT_CTRL_OUT_TN) ts false else s
  let s0 := s00.zeroFields trgArmCounters
  let s1 := (trgApply (s0.modTrg (fun t => { t with
    notes := t.notes.map (fun x => { TNote.reset with parity := x.parity }), evs := [], lvls := [], tl := 0, storeQ := [],
    fired := [], pipe := [], resetAt := [], segs := t.segs.filter (fun g => !g.handed), holdsBefore := 0, limited := false,
    raised := [], applyAt := none, past := [], armAt := none })) ts).applyRegs
    placeShadow
  let s2 := (List.range 64).foldl (fun t n => (t.wr (F_TN_STATE_TL n) 0).wr (F_TN_STATE_OPEN n) 0) s1
  let s3 := (s2.wrTs (R_TRG_ARM_W 0) ts).wr F_TRG_ALIGN_ALIGN (alignOf s2)
  let first := cdiv (ts - s3.rd F_TRG_ALIGN_ALIGN * 16777216 - half) half
  let s4 := heartReset ((s3.modTrg (fun t => { t with tick := first })).wr F_TRG_STATUS_STATE 2) (first * half)
  let s5 := capArm (timArm (corrAtArm (jinArm (armBn s4) ts) (lemcAtOrAfter s ts)) ts) ts s4.trg.armCtx
  let s6 := ovlRenew s5
  let s7 := (List.range 65).foldl (fun t n =>
    if inDelivers t n && (t.tin n).loss.isNone then notesInit t (trgSrc n) ts (t.tin n).level else t) s6
  engArm (trigPin (commitsEnd (trgFlags (armRetain s7 ts))))

/-- ARM_TAKE_EFFECT: the release point of R52 at or after the ARM time, with FCLK where R422 wants it. -/
def execArmTakeEffect (s : State) : Out :=
  match s.trg.armAt with
  | none => .next s
  | some t =>
    if trgState s ≠ 1 || !s.domOn .intake || s.err.contained || !fclkReady s then .next s
    else
      match releaseEdge s with
      | none => .next s
      | some ts =>
        if lemcAtOrAfter s ts < lemcAtOrAfter s t then .next s
        else
          let s1 := armEffect s ts
          .next (s1.wake .arm 0 (okR (s1.reg (R_TRG_ARM_W 0)).toNat (s1.reg (R_TRG_ARM_W 1)).toNat
            (s1.reg (R_TRG_ARM_W 2)).toNat (s1.rd F_TRG_ALIGN_ALIGN)))

/-- TRG goes to IDLE (R120): the decisions in the pipeline are discarded, JIN and CAP follow, a TRIG_ARM that still waits
ends, what was deferred takes effect; qualified edges that wait for the heart go by the STORE_Q it left. -/
def trgDisarm (s : State) : State :=
  if trgState s = 0 then s
  else
    let was := trgState s
    let s1 := qualRun ((jinDisarm ((s.wr F_TRG_STATUS_STATE 0).bumpBy F_TRG_DISCARD_COUNT s.trg.pipe.length)).modTrg (fun t => { t with
      armAt := none, evs := [], pipe := [] }))
    let s2 := if was = 1 then s1.wake .arm 0 { st := .aborted }
      else capDisarm (s1.modTim (fun t => { t with stopTs := some s.now })) s.now
    let s3 := if s2.con.kept.any (fun k => k.1 == s.trg.armCtx) then
        admRegs (s2.modCon (fun c => { c with kept := c.kept.filter (fun k => k.1 != s.trg.armCtx) })) else s2
    drains (engDisarm (trigPin (fclkDeferred (heartStatus s3 (s3.trg.tick * half)))))

/-- TRIG_DISARM. -/
def execTrigDisarm (p : Packet) (s : State) : Out :=
  fcpStep { op := 0x31, pfOnly := true, dom := some .intake,
            run := fun _ s => .final (okR s.trg.pipe.length (s.reg R_TRG_DECISIONS_LO).toNat (s.reg R_TRG_DECISIONS_HI).toNat 0) (trgDisarm s) } p s

/-- The event time of a force (R121). DESIGN CHOICE (log entry 40): an input that is delivered and has passed no sample since
ARM gives no time; then it is the TS96 now, as with no input delivered. -/
def forceTime (s : State) : Nat :=
  match (List.range 48).find? (fun c => srcDelivered s c) with
  | none => s.now
  | some c =>
    let d := s.du (c / 4)
    let k := d.j - d.outq.length
    if k = 0 then s.now else outTime s (c / 4) (k - 1)

/-- TRIG_FORCE. -/
def execTrigForce (p : Packet) (s : State) : Out :=
  fcpStep { op := 0x32, pfOnly := true, dom := some .intake, allowed := fun _ s => decide (2 ≤ trgState s),
            run := fun _ s =>
              let t := forceTime s
              let (s1, ok) := decideOn s { ts := t, cause := 0xFE, branch := 0, flags := 0, point := none }
              .final (okR t (t / ns1) (t / ns1 / ns1) (b2n ok)) s1 } p s

/-! ### Configuration (Tables 4.5, 5.7) -/

/-- A command with COMMIT ends at the apply; without it, at once. Those of key 1 answer what `commitsEnd` gives them. -/
def commitEnd (s : State) (go : Bool) (key : Nat) (r : Reply) : FcpOut :=
  if go then .wait .trgApply key 0 (trgCommitGo s) else .final r s

/-- The configuration word a TOPNOTE_SET leaves: its own, or with bit 9 the one that stands. -/
def topCfg (p : Packet) (s : State) : Nat := if pb p 2 9 then (s.reg (R_TN_CFG (pf p 2 0 6))).toNat else pdw p 3

/-- The values of a TOPNOTE_SET are legal (Table 4.5). -/
def topValid (p : Packet) (s : State) : Bool :=
  let c := topCfg p s
  pf p 2 0 8 ≤ 63 && noteLegal (bitsOf c 0 4) (bitsOf c 4 2) (bitsOf c 6 3) (bitsOf c 16 8)
    (sext 16 (pf p 4 0 16)) (sext 16 (pf p 4 16 16)) ((pf p 5 0 16 : Nat) : Int)
    ((pdw p 6 + pf p 7 0 16 * 4294967296) * fine) ((pdw p 8 + pf p 9 0 16 * 4294967296) * fine)

/-- The registers a TOPNOTE_SET writes, of its note. -/
def topWrites (p : Packet) (s : State) : State :=
  let n := pf p 2 0 6
  let s1 := s.wrs [(F_TN_LEVEL_LEVEL_A n, pf p 4 0 16), (F_TN_LEVEL_LEVEL_B n, pf p 4 16 16), (F_TN_HYST_HYST n, pf p 5 0 16),
    (F_TN_TMIN_LO_T_LO n, pdw p 6), (F_TN_TMIN_HI_T_HI n, pf p 7 0 16), (F_TN_TMAX_LO_T_LO n, pdw p 8),
    (F_TN_TMAX_HI_T_HI n, pf p 9 0 16)]
  if pb p 2 9 then s1
  else (s1.wrs [(F_TN_CFG_TYPE n, pf p 3 0 4), (F_TN_CFG_POL n, pf p 3 4 2), (F_TN_CFG_QUAL n, pf p 3 6 3),
    (F_TN_CFG_SRC n, pf p 3 16 8), (F_TN_PMASK_LO_VALUE n, pdw p 10), (F_TN_PMASK_HI_VALUE n, pdw p 11),
    (F_TN_PVAL_LO_VALUE n, pdw p 12), (F_TN_PVAL_HI_VALUE n, pdw p 13)]).modNote n (fun x => { x with parity := false })

/-- TOPNOTE_SET. -/
def execTopnoteSet (p : Packet) (s : State) : Out :=
  fcpStep { op := 0x33, pfOnly := true, dom := some .intake,
            valid := topValid, allowed := fun p s => pb p 2 9 || !trgRunning s,
            run := fun p s => commitEnd (trgFlags (topWrites p s)) (pb p 2 8) 0 { st := .ok } } p s

/-- The four selectors of a TERMS word are codes of R107. -/
def termsOk (w : Nat) : Bool := (List.range 4).all (fun i => let c := bitsOf w (8 * i) 8; decide (c < 0xA8) || c == 0xFF)

/-- One branch of a heart state as a HEART_SET gives it, from dword `i`. -/
def heartRows (p : Packet) (t : State) (b i : Nat) : State :=
  let h := pf p 2 0 4
  ((t.setReg (R_HS_B_TERMS h b) (BitVec.ofNat 32 (pdw p i))).wrs
    [(F_HS_B_LOGIC_INV h b, pf p (i + 1) 0 4), (F_HS_B_LOGIC_COMB h b, pf p (i + 1) 4 2), (F_HS_B_LOGIC_EN h b, pf p (i + 1) 8 1)]).setReg
    (R_HS_B_ACTION h b) (BitVec.ofNat 32 (pf p (i + 2) 0 24))

/-- HEART_SET. -/
def execHeartSet (p : Packet) (s : State) : Out :=
  fcpStep { op := 0x34, pfOnly := true, dom := some .intake, valid := fun p _ => termsOk (pdw p 3) && termsOk (pdw p 6),
            allowed := fun _ s => !trgRunning s,
            run := fun p s =>
              fOk ((heartRows p (heartRows p (s.wr (F_HS_CTRL_STORE (pf p 2 0 4)) (pf p 2 4 1)) 0 3) 1 6).modTrg (fun t =>
                { t with parityHs := t.parityHs.filter (· != pf p 2 0 4) })) } p s

/-- HEART_LIMITS. -/
def execHeartLimits (p : Packet) (s : State) : Out :=
  fcpStep { op := 0x35, pfOnly := true, dom := some .intake, allowed := fun _ s => !trgRunning s,
            run := fun p s => fOk ((List.range 4).foldl (fun t k => t.wrs [(F_TRG_CT_LIMIT_LIMIT k, pdw p (2 + k)),
              (F_TRG_TM_LIMIT_LO_LIMIT_LO k, pdw p (6 + 2 * k)), (F_TRG_TM_LIMIT_HI_LIMIT_HI k, pf p (7 + 2 * k) 0 16)]) s) } p s

/-- The registers a TRIG_ROUTE writes, and the apply it asks for. -/
def routeWrites (p : Packet) (s : State) : State :=
  let s1 := trgFlags (s.wrs [(F_TRG_CTRL_MODE, pf p 2 0 1), (F_TRG_CTRL_WAKE_EN, pf p 2 1 1), (F_TRG_CTRL_KEEP_HEART, pf p 2 2 1),
    (F_TRG_CTRL_HEART_START, pf p 2 4 4), (F_TRG_DIRECT_TN_LO_MASK, pdw p 3), (F_TRG_DIRECT_TN_HI_MASK, pdw p 4),
    (F_TRG_DIRECT_BN_MASK, pdw p 5)])
  if pb p 2 8 || trgRunning s then trgCommitGo s1 else s1

/-- The frozen fields of a TRIG_ROUTE are as they stand. -/
def routeSame (p : Packet) (s : State) : Bool :=
  pf p 2 0 1 == s.rd F_TRG_CTRL_MODE && pf p 2 2 1 == s.rd F_TRG_CTRL_KEEP_HEART && pf p 2 4 4 == s.rd F_TRG_CTRL_HEART_START

/-- TRIG_ROUTE. -/
def execTrigRoute (p : Packet) (s : State) : Out :=
  fcpStep { op := 0x36, pfOnly := true, dom := some .intake,
            allowed := fun p s => !trgRunning s || routeSame p s,
            run := fun p s => .final (okR (alignBy (routeWrites p s) (routeWrites p s).rd) 0 0 0) (routeWrites p s) } p s

/-- TRIG_OUT takes a mode: what is active starts over (R123). -/
def outMode (s : State) : State :=
  trigPin (s.modTrg (fun t => { t with
    out := [], outEnd := none, outHigh := s.rd F_TRG_OUT_CTRL_MODE == 4 && s.on (F_TN_STATE_TL (s.rd F_TRG_OUT_CTRL_OUT_TN)) }))

/-- TRIG_OUT_SET. -/
def execTrigOutSet (p : Packet) (s : State) : Out :=
  fcpStep { op := 0x37, pfOnly := true, dom := some .intake, valid := fun p _ => decide (pf p 2 0 3 ≤ 4),
            run := fun p s =>
              fOk (outMode (s.wrs [(F_TRG_OUT_CTRL_MODE, pf p 2 0 3), (F_TRG_OUT_CTRL_POL, pf p 2 3 1), (F_TRG_OUT_CTRL_OE, pf p 2 4 1),
                (F_TRG_OUT_CTRL_ALIGNED, pf p 2 5 1), (F_TRG_OUT_CTRL_OUT_TN, pf p 2 8 6), (F_TRG_OUT_WIDTH_WIDTH, pf p 3 0 24),
                (F_TRG_OUT_LAT_LAT, pf p 4 0 24)])) } p s

/-- The values of a BASE_SET are legal (Table 5.7). -/
def baseValid (p : Packet) (s : State) : Bool :=
  let ty := if pb p 2 9 then s.rd (F_BN_CFG_TYPE (pf p 2 0 5)) else pf p 3 0 3
  pf p 2 0 8 ≤ 31 && bnLegal ty (pdw p 4) (pdw p 5) (pdw p 6)
    && (pb p 2 9 || (decide (10 ≤ pf p 7 0 24 ∧ pf p 7 0 24 ≤ 10000000) && decide (pf p 3 0 3 < 6) && pf p 3 4 2 != 3
      && pf p 3 6 2 != 3))

/-- The registers a BASE_SET writes, of its note. -/
def baseWrites (p : Packet) (s : State) : State :=
  let i := pf p 2 0 5
  let s1 := s.wrs [(F_BN_LEVEL_A_VALUE i, pdw p 4), (F_BN_LEVEL_B_VALUE i, pdw p 5), (F_BN_HYST_VALUE i, pdw p 6)]
  if pb p 2 9 then s1
  else s1.wrs [(F_BN_CFG_TYPE i, pf p 3 0 3), (F_BN_CFG_POL i, pf p 3 4 2), (F_BN_CFG_EVT_SEL i, pf p 3 6 2),
    (F_BN_CFG_CONSEC i, pf p 3 16 16), (F_BN_LAT_US i, pf p 7 0 24), (F_BN_WLEN_MAX_US i, pdw p 8)]

/-- BASE_SET. -/
def execBaseSet (p : Packet) (s : State) : Out :=
  fcpStep { op := 0x38, pfOnly := true, dom := some .intake,
            valid := baseValid, allowed := fun p s => pb p 2 9 || !trgRunning s,
            run := fun p s =>
              commitEnd (trgFlags (baseWrites p s)) (pb p 2 8) 1 (okR (needNow (baseWrites p s)).1 (needNow (baseWrites p s)).2 0 0) } p s

/-- The registers a PLACE_SET writes. -/
def placeWrites (p : Packet) (s : State) : State :=
  let s1 := s.wrs [(F_TRG_PRE_LO_NS_LO, pdw p 3), (F_TRG_PRE_HI_NS_HI, pf p 4 0 12), (F_TRG_POST_LO_NS_LO, pdw p 5),
    (F_TRG_POST_HI_NS_HI, pf p 6 0 12), (F_TRG_HOLD_NS_LO_NS_LO, pdw p 7), (F_TRG_HOLD_NS_HI_NS_HI, pf p 8 0 12),
    (F_TRG_HOLD_EV_COUNT, pf p 9 0 16)]
  if pb p 2 8 then s1
  else s1.wrs [(F_TRG_PLACE_INTERP, pf p 2 0 1), (F_TRG_PLACE_HOLD_TIME_EN, pf p 2 1 1), (F_TRG_PLACE_HOLD_EV_EN, pf p 2 2 1),
    (F_TRG_PLACE_RETAIN_POLICY, pf p 2 3 1), (F_TRG_SEG_LIMIT_LIMIT, pf p 10 0 25)]

/-- What a PLACE_SET answers: RETAIN_NEED, S_G, and where the store falls short. -/
def placeReply (s : State) : Reply :=
  okR (needNow s).1 (needNow s).2 (b2n (shortWatch s s.rd) + 2 * b2n (shortRecord s s.rd)) 0

/-- PLACE_SET. -/
def execPlaceSet (p : Packet) (s : State) : Out :=
  fcpStep { op := 0x39, pfOnly := true, dom := some .intake, valid := fun p _ => pf p 10 0 25 ≤ 16777216,
            allowed := fun p s => pb p 2 8 || !trgRunning s,
            run := fun p s => .final (placeReply (placeWrites p s)) (trgFlags (placeWrites p s)) } p s

/-- PLACE_STATUS. -/
def execPlaceStatus (p : Packet) (s : State) : Out :=
  fcpStep { op := 0x3A, dom := some .intake,
            run := fun p s =>
              .final (okR (s.rd F_TRG_SEG_COUNT_COUNT) (s.rd F_TRG_HOLD_COUNT_COUNT) (s.rd F_TRG_OVL_COUNT_COUNT)
                  (min 65535 (s.rd F_TRG_ORDER_COUNT) + 65536 * min 65535 (s.rd F_TRG_OVL_LATE_COUNT)))
                (if pb p 2 0 then s.zeroFields [F_TRG_HOLD_COUNT_COUNT, F_TRG_OVL_COUNT_COUNT, F_TRG_OVL_LATE_COUNT, F_TRG_ORDER_COUNT,
                  F_TRG_COINCIDENT_COUNT] else s) } p s

/-- BASE_STATUS. -/
def execBaseStatus (p : Packet) (s : State) : Out :=
  fcpStep { op := 0x3B, dom := some .intake, valid := fun p _ => pf p 2 0 8 ≤ 31,
            run := fun p s =>
              let i := pf p 2 0 5
              .final (okR (s.rd (F_BN_VALUE_VALUE i)) (s.reg (R_BN_STATE i)).toNat (s.rd (F_BN_COUNT_COUNT i)) (s.rd (F_BN_LATE_COUNT i)))
                (if pb p 2 8 then s.zeroFields [F_BN_COUNT_COUNT i, F_BN_LATE_COUNT i, F_BN_DROP_DUP i, F_BN_DROP_SKIP i] else s) } p s

/-- A write of TRG_CTRL. -/
def trgCtrlWrite (v : Nat) (s : State) : State :=
  let s1 := trgFlags (plainWrite s R_TRG_CTRL (trgRunning s) F_TRG_STATUS_WRITE_REFUSED v)
  if v.testBit 8 then s1.zeroFields trgCounters else s1

/-- TRG_CLR_COUNTERS. -/
def execTrgClrCounters (m : Nat) (v : Word) (s : State) : Out := .next (s.writeBy m R_TRG_CTRL (trgCtrlWrite v.toNat))

/-! ### Events -/

/-- The heart may evaluate its next tick: every aligned source can have delivered for it (R108, R114). -/
def heartDue (s : State) : Bool :=
  decide (s.trg.tick * half + half + s.rd F_TRG_ALIGN_ALIGN * 16777216 ≤ s.now)

/-- HEART_TICK. -/
def execHeartTick (s : State) : Out :=
  if !s.domOn .intake || !trgActive s || !s.on F_TRG_CTRL_MODE || !heartDue s then .next s else .next (trgRefresh (heartStep s))

/-- HEART_TIMER_EXPIRY: a timer's limit is reached by the next tick to be evaluated. -/
def execHeartTimerExpiry (k : Nat) (s : State) : Out :=
  let t := s.trg.tick * half
  if !s.domOn .intake || !trgActive s || k > 3 || !tmExpired s k t then .next s
  else .next (heartStatus s t)

/-- When an open measurement of a logic TIMEOUT or PATTERN note fires by time alone, with the values of a time (R102 to
R104). -/
def timeoutAt (s : State) (at_ n : Nat) : Option Nat :=
  let c := noteCfg s at_ n
  let src := s.rd (F_TN_CFG_SRC n)
  match (s.note n).up with
  | none => none
  | some m =>
    if m.fired then none
    else if c.type = 6 ∧ 0x40 ≤ src then some (m.start + c.tmax)
    else if c.type = 7 ∧ c.pol = 0 ∧ c.qual = 2 then some (m.start + c.tmin)
    else none

/-- The measurement of a note fires by time alone at `t`. -/
def timeFires (s : State) (n t : Nat) : State :=
  let susp := match (s.note n).up with | some m => m.susp | none => false
  let s1 := s.modNote n (fun x => { x with up := x.up.map (fun m => { m with fired := true }) })
  let s2 := if s.rd (F_TN_CFG_TYPE n) = 6 then s1.wr (F_TN_STATE_OPEN n) 0 else s1
  let r := noteEvents s2 n [({ ts := t, lev := none, susp := susp, ovr := false }, none)] []
  directAll r.1 32 r.2

/-- The state in which a note's open measurement may fire by time alone, and the time whose values count: one that fires
before an apply the note has not met yet goes by the values of before (R126). -/
def timeoutAsk (s : State) (n : Nat) : State × Nat :=
  let due := (s.note n).redo.headD (s.now + 1)
  let old := match timeoutAt s (due - 1) n with | some t => decide (t < due) | none => false
  (if old || !trgActive s then s else noteRedo s n s.now, if old then due - 1 else s.now)

/-- The logic inputs a note watches. -/
def noteIns (s : State) (n : Nat) : List Nat :=
  if s.rd (F_TN_CFG_TYPE n) = 7 then patIns s n else [s.rd (F_TN_CFG_SRC n) - 0x40]

/-- The edges of a note's inputs up to a time have reached TRG: 24 ns have passed, and none of that time waits in a deglitch
filter or for delivery (R116, R163). -/
def noteCaught (s : State) (n t : Nat) : Bool :=
  decide (t + 24 * ns1 ≤ s.now) && !(noteIns s n).any (fun i => (s.tin i).pend.any (fun e => decide (e.ts ≤ t)))

/-- TOPNOTE_TIMEOUT: a logic TIMEOUT, or a PATTERN hold, is over at a time up to which every edge has come (R102 to R104). -/
def execTopnoteTimeout (n : Nat) (s0 : State) : Out :=
  let s := (timeoutAsk s0 n).1
  match timeoutAt s (timeoutAsk s0 n).2 n with
  | none => .next s0
  | some t =>
    if !s.domOn .intake || !trgActive s || n > 63 || !noteCaught s n t then .next s0
    else .next (timeFires s n t)

/-- The edge of TRIG_OUT to be launched next. -/
def nextOut (s : State) : Option OutEdge :=
  match s.trg.out with
  | [] => none
  | e :: es => some (es.foldl (fun m x => if x.at_ < m.at_ then x else m) e)

/-- An edge of TRIG_OUT is launched (R123, R124). DESIGN CHOICE (log entry 40): a pulse ends at its end also where OUT_SET had
made the output active before it; the manual does not say what an OUT_PULSE does to such an output. -/
def outLaunch (s : State) (e : OutEdge) : State :=
  let at_ := if e.late then s.now else e.at_
  let w := max 4 (s.rd F_TRG_OUT_WIDTH_WIDTH) * ns1
  let s1 := s.modTrg (fun t => { t with out := t.out.erase e })
  let s2 := if e.late then trgOnce (s1.bump F_TRG_OUT_COUNTS_LATE) 0x03 e.ts resNone else s1
  let s3 := match e.act with
    | 0 =>
      let m := if (match s2.trg.outEnd with | some e => decide (at_ < e) | none => false) then s2.bump F_TRG_OUT_COUNTS_MERGED else s2
      m.modTrg (fun t => { t with outHigh := true, outEnd := some (at_ + w) })
    | 1 => s2.modTrg (fun t => { t with outHigh := true, outEnd := none })
    | _ => s2.modTrg (fun t => { t with outHigh := false, outEnd := none })
  trigPin s3

/-- TRIG_OUT_LAUNCH. DESIGN CHOICE (log entry 40): an edge that falls due in Rest or in a transition waits and is launched
afterwards; the manual only says that the output holds its inactive level there. -/
def execTrigOutLaunch (s : State) : Out :=
  match nextOut s with
  | none => .next s
  | some e =>
    if s.err.contained || s.now < e.at_ || s.pstate == 0 || decide (s.pstate ≥ 4) then .next s
    else .next (outLaunch s e)

/-- TRIG_OUT_PULSE_END. -/
def execTrigOutPulseEnd (s : State) : Out :=
  match s.trg.outEnd with
  | none => .next s
  | some t =>
    if s.err.contained || s.now < t then .next s
    else .next (trigPin (s.modTrg (fun x => { x with outHigh := false, outEnd := none })))

/-- A value record from its 32 bytes (Table 5.1). -/
def BnRec.parse (bs : List Byte) : BnRec :=
  { value := numAt bs 0 4, wend := numAt bs 4 12, wlen := numAt bs 16 6, bn := numAt bs 22 1 % 32, flags := numAt bs 23 1 % 64,
    engine := numAt bs 24 1, seq := numAt bs 26 6 }

/-- BASE_VALUE_ARRIVAL. -/
def execBaseValueArrival (rec : List Byte) (s : State) : Out :=
  if !s.domOn .intake || !trgActive s then .next s else .next (trgRefresh (bnArrive s (BnRec.parse rec)))

/-- A segment goes to CAP and, in the capture they run with, to the engines (R145). -/
def handSegment (s : State) (g : PSeg) : State :=
  let s0 := capHandoff (s.modPSeg g.cap g.no (fun x => { x with handed := true })) (g.cap, g.no) g.ovl g.firstOvl
  match seg? s (g.cap, g.no) with
  | some x =>
    if g.cap = s.rd F_CAP_CAPTURE_CAPTURE then engSegment (paceSegment s0 g.ctx) g.ctx g.no x.tS x.pre x.post
    else s0
  | none => s0

/-- SEGMENT_HANDOFF: the oldest segment whose P_s + TRG_OVL_WAIT has come goes to CAP (R145, R148). The manual gives the
SEG_LIMIT event no result dwords: they are free. -/
def execSegmentHandoff (s : State) : Out :=
  match s.trg.segs.find? (fun g => !g.handed) with
  | none => .next s
  | some g =>
    if !s.domOn .intake || s.err.contained || s.now < g.handAt then .next s
    else
      if g.last then
        .next (trgRefresh (((handSegment s g).takeWords 4).2.postEvent g.ctx 0x0601 ((handSegment s g).takeWords 4).1))
      else .next (trgRefresh (handSegment s g))

end Sys2Proof.Machine
end

