-- ==== Sys2Proof/Machine/Tbs.lean ====
section
/-!
DEFINITION. The timebase (chapter 15): references, loop, phase jumps, steps, TIME_SET, PPS_OUT.
-/

namespace Sys2Proof.Machine

/-! ### State of TBS -/

def tbsState (s : State) : Nat := s.rd F_TBS_STATE_STATE
def tbsMode (s : State) : Nat := s.rd F_TBS_CTRL_MODE
def usesPps (s : State) : Bool := tbsMode s ≥ 2
def usesRef (s : State) : Bool := tbsMode s % 2 == 1

/-- TBS changes state, with TBS_STATE_CHANGED (R427, R444); in bypass the state shows after it (R420). -/
def tbsSet (s : State) (st : Nat) : State :=
  if tpllBypass s then s.modClk (fun c => { c with tbsBefore := st })
  else if tbsState s = st then s
  else (s.wr F_TBS_STATE_STATE st).postEvent 0 0x0101 [st + (tbsState s <<< 4), (s.reg R_TBS_STEER).toNat, (s.reg R_TBS_PHASE_ERR_LO).toNat]

/-- The state TBS is in apart from bypass. -/
def tbsTrue (s : State) : Nat := if tpllBypass s then s.clk.tbsBefore else tbsState s

/-- FREQ_OK: the frequency follows a reference (R428). -/
def freqOk (s : State) : State :=
  s.wrB F_TBS_STATE_FREQ_OK (if usesRef s then s.clk.refUsed else usesPps s && s.clk.ppsUsed)

/-- The slew's offset at a time, in 2^-40 (R429). -/
def slewAt (w : Slew) (up : Nat) : Int :=
  let dt := up - w.start
  let per (x : Nat) : Int := (((x * 1099511627776 + 500000000000) / 1000000000000 : Nat) : Int)
  let m := if w.lost then per (w.ramp - dt)
    else if dt < w.ramp then per dt
    else if dt < w.ramp + w.hold then per w.ramp
    else per (2 * w.ramp + w.hold - dt)
  if w.neg then -m else m

/-- CKG_P2_FREQ as a steer in 2^-40 leaves it, in whole kHz, while TPLL is in lock (Table 15.8; DESIGN CHOICE, log 45). -/
def tpllFreq (s : State) (steer : Int) : State :=
  if s.rd (F_CKG_P_STATUS_STATE 2) = 3 then s.wr (F_CKG_P_FREQ_KHZ 2) ((1099511627776 + steer) * 1000000 / 1099511627776).toNat else s

/-- TBS_SLEW and TBS_STEER (Table 15.8). A new steer changes TPLL's frequency, so its band entries as last written take effect
(R417, R418). -/
def steerRegs (s : State) : State :=
  let o := match s.clk.slew with | some w => slewAt w s.up | none => 0
  let s1 := if s.rdS F_TBS_STEER_STEER = s.clk.steer + o then s else tpllFreq (s.applyRegs (bandRegs 2)) (s.clk.steer + o)
  (s1.wrS F_TBS_SLEW_OFFSET o).wrS F_TBS_STEER_STEER (s.clk.steer + o)

/-- 200 ppm and 1 ppm, in 2^-40 (R428). -/
abbrev ppm200 : Int := 219902325
abbrev ppm1 : Int := 1099511

/-- The loop sets a new steer: within 200 ppm, and at most 1 ppm per ms from the old one (R428). -/
def loopStep (s : State) (err : Int) (phase : Bool) : State :=
  let want := Config.loopSteer s.clk.steer err (s.rd F_TBS_LOOP_TC) phase
  let last := match s.clk.steers with | x :: _ => x.1 | [] => s.up
  let room := ppm1 * ((max 1 ((s.up - last) / 1000000) : Nat) : Int)
  let v := max (-ppm200) (min ppm200 (max (s.clk.steer - room) (min (s.clk.steer + room) want)))
  let keep := s.clk.steers.filter (fun x => decide (s.up ≤ x.1 + (s.rd F_TBS_LOOP_HO_AVG + 2) * 1000000000))
  steerRegs (s.modClk (fun c => { c with steer := v, steers := (s.up, v) :: keep }))

/-- The sum of past steers times how long each held, back to a time. -/
def steerSum (from_ : Nat) : Nat → List (Nat × Int) → Int
  | _, [] => 0
  | upto, (t, v) :: l => if t ≤ from_ then v * ((upto - from_ : Nat) : Int) else v * ((upto - t : Nat) : Int) + steerSum from_ t l

/-- The mean steer over the last HO_AVG seconds, or over what is known of them (R428). -/
def steerMean (s : State) : Int :=
  let first := match s.clk.steers.getLast? with | some x => x.1 | none => s.up
  let from_ := max first (s.up - s.rd F_TBS_LOOP_HO_AVG * 1000000000)
  if s.up ≤ from_ then s.clk.steer else steerSum from_ s.up s.clk.steers / ((s.up - from_ : Nat) : Int)

/-- TBS enters HOLDOVER (R428); unless the frequency follows the 10 MHz reference, the steer is frozen. -/
def toHoldover (s : State) : State :=
  let s1 := if usesRef s && s.clk.refUsed then s else s.modClk (fun c => { c with steer := steerMean s, steers := [] })
  tbsSet (steerRegs ((s1.modClk (fun c => { c with hoStart := s.up, held := 0 })).wr F_TBS_HOLDOVER_S 0)) 3

/-! ### Loss and qualification (R427) -/

/-- The offset of a slew ramps back (R429). -/
def slewBack (s : State) : State :=
  match s.clk.slew with
  | none => s
  | some w =>
    let dt := s.up - w.start
    let left := if w.lost then w.ramp - dt else if dt < w.ramp then dt
      else if dt < w.ramp + w.hold then w.ramp else 2 * w.ramp + w.hold - dt
    s.modClk (fun c => { c with slew := some { w with start := s.up, ramp := left, hold := 0, lost := true } })

/-- A reference is lost at a TS96: REF_LOSS, and what the loop does then (R427, R428, R429). -/
def refLost (s : State) (pps : Bool) (ts : Nat) : State :=
  let used := if pps then s.clk.ppsUsed else s.clk.refUsed
  let s1 := (s.raiseAt ts 1 0x05 0 (resIndex (b2n pps)) 0).bump F_TBS_COUNTS_REF_LOSS
  let s2 := if pps then (s1.wr F_TBS_STATE_PPS_VALID 0).modClk (fun c => { c with ppsSince := none, ppsUsed := false, ppsFirst := false })
    else (s1.wr F_TBS_STATE_REF10_VALID 0).modClk (fun c => { c with refSince := none, refUsed := false })
  let s3 := freqOk s2
  if !used then s3
  else if pps && tbsTrue s = 4 then toHoldover (slewBack s3)
  else if pps && tbsTrue s = 5 then tbsSet (s3.modClk (fun c => { c with held := 0 })) 3
  else if pps && usesRef s then toHoldover s3
  else if !s3.clk.ppsUsed && !s3.clk.refUsed && tbsTrue s ≠ 3 then toHoldover s3
  else if !s3.clk.ppsUsed && !s3.clk.refUsed then steerRegs (s3.modClk (fun c => { c with steer := steerMean s, steers := [] }))
  else s3

/-- A reference has been valid for 2 s: it is used (R427). -/
def qualify (s : State) (pps : Bool) : State :=
  let since := if pps then s.clk.ppsSince else s.clk.refSince
  let used := if pps then s.clk.ppsUsed else s.clk.refUsed
  let mine := if pps then usesPps s else usesRef s
  match since with
  | none => s
  | some t =>
    if used || !mine || s.up < t + 2000000000 then s
    else if pps then freqOk (s.modClk (fun c => { c with ppsUsed := true, ppsFirst := true }))
    else
      let s1 := freqOk (s.modClk (fun c => { c with refUsed := true }))
      if tbsMode s = 1 then tbsSet s1 2 else s1

/-- REF_QUALIFIED. -/
def execRefQualified (pps : Bool) (s : State) : Out := .next (qualify s pps)

/-- REF_LOSS: edges have stopped (R427). -/
def execRefLoss (pps : Bool) (s : State) : Out :=
  if pps then
    match s.clk.ppsLast with
    | some (ts, up) =>
      if s.on F_TBS_STATE_PPS_VALID && usesPps s && decide (up + 1100000000 ≤ s.up) then
        .next (refLost s true (ts + 1100000000 * ns1))
      else .next s
    | none => .next s
  else if s.on F_TBS_STATE_REF10_VALID && usesRef s then .next (refLost s false s.now)
  else .next s

/-- A gate within the tolerance: the reference is valid, and the loop follows it once it is used (R427, R428). -/
def gateGood (s : State) (dev : Int) : State :=
  let s1 := if s.on F_TBS_STATE_REF10_VALID then s
    else (s.wr F_TBS_STATE_REF10_VALID 1).modClk (fun c => { c with refSince := some s.up })
  let s2 := qualify s1 false
  if s2.clk.refUsed then loopStep s2 dev false else s2

/-- REF10M_GATE: a gate of 1 ms ends with a frequency that deviates from 10 MHz by `dev`, in 2^-40. -/
def execRef10mGate (dev : Int) (s : State) : Out :=
  if !usesRef s then .next s
  else if dev.natAbs * 1000000 > s.rd F_TBS_REF_TOL_REF_TOL * 1099511627776 then
    .next (if s.on F_TBS_STATE_REF10_VALID then refLost s false s.now else s)
  else .next (gateGood s dev)

/-! ### Steps, slews, TIME_SET -/

/-- An alarm whose value TS96 has moved below is armed again (R530). -/
def rearm (s : State) (old : Nat) : State :=
  let back (v : Nat) : Bool := decide (s.now < v ∧ v ≤ old)
  { s with clk := { s.clk with wakeArmed := s.clk.wakeArmed || back (s.rdTs (R_PMU_WAKE_AT_W 0)) },
           shf := { s.shf with alarmArmed := s.shf.alarmArmed || back (s.rdTs (R_SHF_ALARM_W 0)) } }

/-- A TS96 moved by a signed number of 2^-32 ns. -/
def shiftTs (t : Nat) (d : Int) : Nat := ((t : Int) + d).toNat

/-- TS96 moves; what is kept of edges on the old scale moves with it. -/
def moveTime (s : State) (d : Int) : State :=
  let t := shiftTs s.now d
  let s1 := { s with now := t, jin := { s.jin with lemc := s.jin.lemc.map (fun x => shiftTs x d) } }
  rearm (s1.modClk (fun c => { c with
    ppsLast := c.ppsLast.map (fun x => (shiftTs x.1 d, x.2)),
    ppsSec := ((t / ns1 : Nat) - s.rdS F_TBS_PPS_OUT_OFS_OFS).toNat / 1000000000 })) s.now

/-- A phase error, in 2^-32 ns, to be taken out by a step: at the next LEMC edge while JIN runs, else at once (R430). -/
def wantStep (s : State) (e : Int) : State :=
  let d := -roundNE e ns1
  let at_ := if jinRun s && s.jin.lemc.isSome then lemcNow s + 1 else s.now
  s.modClk (fun c => { c with step := some (d, at_) })

/-- TS96 steps by whole nanoseconds: the links' TS_0, LAST_STEP, the record, a time-step marker while armed (R430). -/
def stepNow (s : State) (d : Int) : State :=
  let dd := d * (ns1 : Int)
  let s1 := moveTime (s.modClk (fun c => { c with step := none, held := 0 })) dd
  let s2 := if jinRun s then
      (enLinks s).foldl (fun t k => t.wrTs (R_JIN_L_TS0_W k 0) (shiftTs (t.rdTs (R_JIN_L_TS0_W k 0)) dd)) s1
    else s1
  let w := wrapTo 64 d
  let s3 := ((s2.wrs [(F_TBS_LAST_STEP_LO_NS, w), (F_TBS_LAST_STEP_HI_NS, w / 4294967296)]).bump F_TBS_COUNTS_STEPS).raiseAt
    s2.now 1 0x07 0 resNone 0
  let s4 := if s.cap.armed then addMarker s3 0x08 s3.now 0xFF 0 (natBytes 12 (wrapTo 96 dd)) else s3
  if s4.clk.ppsUsed then tbsSet s4 2 else s4

/-- TIME_STEP_APPLY (R430). -/
def execTimeStepApply (s : State) : Out :=
  match s.clk.step with
  | none => .next s
  | some (d, at_) =>
    if jinRun s && s.jin.lemc.isSome && decide (lemcNow s < at_) then .next s
    else .next (stepNow s d)

/-- A slew that takes out a phase error, in 2^-32 ns (R429). -/
def startSlew (s : State) (e : Int) : State :=
  let m := max 1 (min 20 (s.rd F_TBS_TBJ_SLEW_MAX))
  let a := e.natAbs
  let full := m * m * ns1
  let w : Slew :=
    if a ≥ full then { neg := decide (e > 0), start := s.up, ramp := m * 1000000, hold := (a - full) * 1000000 / (m * ns1), lost := false }
    else { neg := decide (e > 0), start := s.up, ramp := isqrt (a * 1000000000000 / ns1), hold := 0, lost := false }
  tbsSet (s.modClk (fun c => { c with slew := some w, held := 0 })) 4

/-- A phase jump (R429). -/
def phaseJump (s : State) (e : Int) (ts : Nat) : State :=
  let s1 := (s.raiseAt ts 1 0x06 0 resNone 0).bump F_TBS_COUNTS_JUMPS
  let e8 := satTo 32 (roundNE e 16777216)
  let s2 := s1.postEvent 0 0x0102 [wrapTo 32 e8, ts / ns1, ts / ns1 / 4294967296]
  if !s.on F_JIN_STATUS_ARMED then wantStep s2 e
  else
    match s.rd F_TBS_CTRL_TBJ_MODE with
    | 1 => wantStep s2 e
    | 2 =>
      let s3 := if tbsTrue s = 3 then s2 else (s2.modClk (fun c => { c with hoStart := s.up })).wr F_TBS_HOLDOVER_S 0
      tbsSet (s3.modClk (fun c => { c with held := e })) 5
    | _ => startSlew s2 e

/-- TIME_SET takes effect: it ends a slew or an acknowledgement that is awaited, and a PPS in use is judged anew (R431). -/
def applyTime (s : State) (v : Nat) : State :=
  let s1 := moveTime (s.modClk (fun c => { c with slew := none, held := 0, step := none, setAt := none, ppsFirst := c.ppsUsed }))
    ((v : Int) - (s.now : Int))
  let s2 := steerRegs s1
  if tbsTrue s = 4 ∨ tbsTrue s = 5 then tbsSet s2 (if s.clk.ppsUsed then 2 else 3) else s2

/-- SLEW_COMPLETE: the offset is back at 0 (R429). -/
def execSlewComplete (s : State) : Out :=
  match s.clk.slew with
  | none => .next s
  | some w =>
    if s.up < w.start + (if w.lost then w.ramp else 2 * w.ramp + w.hold) then .next s
    else
      let s1 := steerRegs (s.modClk (fun c => { c with slew := none }))
      if w.lost then .next s1 else .next (tbsSet (s1.bump F_TBS_COUNTS_SLEWS) 2)

/-! ### PPS_IN -/

/-- The phase error of an edge, in 2^-32 ns, in (-0.5 s, 0.5 s] (R426). -/
def phaseErr (s : State) (ts : Nat) : Int :=
  let t : Int := (ts : Int) - s.rdS F_TBS_PPS_OFS_OFS * 16777216
  let r := t % (sec1 : Int)
  if 2 * r > (sec1 : Int) then r - (sec1 : Int) else r

/-- The loop or the jump rule takes a phase error of a PPS in use. -/
def ppsUse (s : State) (ts : Nat) : State :=
  let e := phaseErr s ts
  let w := wrapTo 48 (roundNE e 16777216)
  let s1 := s.wrs [(F_TBS_PHASE_ERR_LO_E, w), (F_TBS_PHASE_ERR_HI_E, w / 4294967296)]
  let st := tbsTrue s
  if s.clk.ppsFirst then
    let s2 := s1.modClk (fun c => { c with ppsFirst := false })
    if e.natAbs > s.rd F_TBS_TBJ_THRESH * ns1 then phaseJump s2 e ts
    else tbsSet (loopStep s2 e true) 2
  else if st = 4 ∨ st = 5 ∨ s.clk.step.isSome then s1
  else loopStep s1 e true

/-- An edge's interval is outside the tolerance around a second (R427). -/
def ppsBad (s : State) (ts : Nat) : Bool :=
  match s.clk.ppsLast with
  | some (t, _) =>
    let d : Int := (ts : Int) - (t : Int) - (sec1 : Int)
    s.on F_TBS_STATE_PPS_VALID && d.natAbs > s.rd F_TBS_REF_TOL_PPS_TOL * 1000 * ns1
  | none => false

/-- An edge of PPS_IN is judged: validity and qualification (R427). -/
def ppsTake (s : State) (ts : Nat) : State :=
  let s1 := if ppsBad s ts then refLost s true ts else s
  let s2 := s1.modClk (fun c => { c with ppsLast := some (ts, s.up) })
  let s3 := if s2.on F_TBS_STATE_PPS_VALID then s2
    else (s2.wr F_TBS_STATE_PPS_VALID 1).modClk (fun c => { c with ppsSince := some s.up })
  qualify s3 true

/-- A TIME_SET that awaited an edge sets the time of that edge to its second, in whole nanoseconds, and completes (R431). -/
def ppsSet (s : State) (ts v : Nat) : State :=
  (applyTime s (shiftTs (v * sec1) (((s.now : Int) - (ts : Int)) / (ns1 : Int) * (ns1 : Int)))).wake .timeSet 0 (okR ts (ts / ns1) (ts / ns1 / 4294967296) 0)

/-- PPS_IN_EDGE: an edge, timed at a TS96 to 7.8125 ps (R426, R427, R431). -/
def execPpsInEdge (ts0 : Nat) (s : State) : Out :=
  let ts := ts0 / 33554432 * 33554432
  if !usesPps s then .next s
  else
    let s4 := ppsTake s ts
    match s4.clk.setAt with
    | some v => .next (ppsSet s4 ts v)
    | none => .next (if s4.clk.ppsUsed then ppsUse s4 ts else s4)

/-! ### Commands -/

/-- A write of MODE takes effect at once and restarts qualification (R426). -/
def tbsRestart (s : State) : State :=
  let s1 := (s.wrs [(F_TBS_STATE_PPS_VALID, 0), (F_TBS_STATE_REF10_VALID, 0)]).modClk (fun c => { c with
    ppsLast := none, ppsSince := none, refSince := none, ppsUsed := false, refUsed := false, ppsFirst := false, slew := none,
    held := 0, step := none, steer := if tbsMode s = 0 then 0 else c.steer, steers := [] })
  tbsSet (steerRegs (freqOk s1)) (if tbsMode s = 0 then 0 else 1)

/-- A write of TBS_CTRL. -/
def tbsCtrlWrite (s : State) (v : Word) : State :=
  let s1 := s.wrs [(F_TBS_CTRL_MODE, v.toNat), (F_TBS_CTRL_TBJ_MODE, v.toNat / 4)]
  tbsRestart (if v.toNat.testBit 4 then
    s1.zeroFields [F_TBS_COUNTS_REF_LOSS, F_TBS_COUNTS_JUMPS, F_TBS_COUNTS_STEPS, F_TBS_COUNTS_SLEWS] else s1)

/-- TBS_MODE_WRITE. -/
def execTbsModeWrite (m : Nat) (v : Word) (s : State) : Out := .next (s.writeBy m R_TBS_CTRL (fun t => tbsCtrlWrite t v))

/-- TBS_CLR_COUNTERS. -/
def execTbsClrCounters (m : Nat) (v : Word) (s : State) : Out := .next (s.writeBy m R_TBS_CTRL (fun t => tbsCtrlWrite t v))

/-- The settings of TBS_REF. -/
def tbsRefWrites (p : Packet) : List (Fld × Nat) :=
  [(F_TBS_CTRL_MODE, pf p 2 0 2), (F_TBS_CTRL_TBJ_MODE, pf p 2 2 2), (F_TBS_REF_TOL_REF_TOL, pf p 2 8 8),
   (F_TBS_REF_TOL_PPS_TOL, pf p 2 16 16), (F_TBS_PPS_OFS_OFS, pdw p 3), (F_TBS_LOOP_TC, pf p 4 0 16),
   (F_TBS_LOOP_HO_AVG, pf p 4 16 16), (F_TBS_TBJ_THRESH, pf p 5 0 24), (F_TBS_TBJ_SLEW_MAX, pf p 5 24 5)]

/-- TBS_REF. -/
def execTbsRef (p : Packet) (s : State) : Out :=
  fcpStep { op := 0x92, pfOnly := true,
            valid := fun p _ => pf p 2 2 2 != 3 && decide (1 ≤ pf p 4 0 16 ∧ pf p 4 0 16 ≤ 1000)
              && decide (1 ≤ pf p 5 24 5 ∧ pf p 5 24 5 ≤ 20),
            run := fun p s =>
              fOk (tbsRestart (s.wrs (tbsRefWrites p))) } p s

/-- TBS_STATUS. -/
def execTbsStatus (p : Packet) (s : State) : Out :=
  fcpStep { op := 0x93,
            run := fun _ s => .final (okR (s.reg R_TBS_STATE).toNat (s.reg R_TBS_STEER).toNat (s.reg R_TBS_PHASE_ERR_LO).toNat
              (s.reg R_TBS_HOLDOVER).toNat) s } p s

/-- TBS_ACK. -/
def execTbsAck (p : Packet) (s : State) : Out :=
  fcpStep { op := 0x94, pfOnly := true, allowed := fun _ s => tbsState s == 5,
            run := fun p s =>
              if pb p 2 0 then
                let w := wrapTo 64 (-roundNE s.clk.held ns1)
                .final (okR w (w / 4294967296) 0 0) (wantStep s s.clk.held)
              else .final (okR 0 0 0 0) (startSlew s s.clk.held) } p s

/-- TIME_SET. -/
def execTimeSet (p : Packet) (s : State) : Out :=
  fcpStep { op := 0x95, pfOnly := true,
            valid := fun p s => pdw p 2 == 0 && (!pb p 5 0 || (pTs p 2 % sec1 == 0 && usesPps s)),
            allowed := fun _ s => !s.on F_JIN_STATUS_ARMED,
            run := fun p s =>
              if pb p 5 0 then .wait .timeSet 0 (s.up + 2000000000) (s.modClk (fun c => { c with setAt := some (pTs p 2 / sec1) }))
              else .final (okR s.now (s.now / ns1) (s.now / ns1 / 4294967296) 0) (applyTime s (pq p 3 * ns1)) } p s

/-- The second whose pulse is due or under way on PPS_OUT. -/
def ppsSecond (s : State) : Nat := (((s.now / ns1 : Nat) : Int) - s.rdS F_TBS_PPS_OUT_OFS_OFS).toNat / 1000000000

/-- A change of PPS_OUT's settings: the next pulse is that of the next second. -/
def ppsSettle (s : State) : State := ppsPin (s.modClk (fun c => { c with ppsSec := ppsSecond s, ppsEnd := if s.on F_TBS_PPS_OUT_EN then c.ppsEnd else none }))

/-- PPS_OUT. -/
def execPpsOut (p : Packet) (s : State) : Out :=
  fcpStep { op := 0x96, pfOnly := true,
            valid := fun p _ => decide (1 ≤ pf p 2 8 10 ∧ pf p 2 8 10 ≤ 500) && decide ((sext 32 (pdw p 3)).natAbs < 500000000),
            run := fun p s => fOk (ppsSettle (s.wrs [(F_TBS_PPS_OUT_EN, pf p 2 0 1), (F_TBS_PPS_OUT_POL, pf p 2 1 1),
              (F_TBS_PPS_OUT_WIDTH, pf p 2 8 10), (F_TBS_PPS_OUT_OFS_OFS, pdw p 3)])) } p s

/-- A pulse of PPS_OUT begins (R432). -/
def ppsPulse (s : State) : State :=
  ppsPin (s.modClk (fun c => { c with
    ppsSec := ppsSecond s, ppsEnd := some (s.up + max 1 (min 500 (s.rd F_TBS_PPS_OUT_WIDTH)) * 1000000) }))

/-- PPS_OUT_PULSE: a whole second plus the offset is reached (R432). -/
def execPpsOutPulse (s : State) : Out :=
  if !s.on F_TBS_PPS_OUT_EN || s.err.contained || tpllBypass s || ppsSecond s ≤ s.clk.ppsSec then .next s
  else .next (ppsPulse s)

end Sys2Proof.Machine
end

