-- ==== Sys2Proof/Machine/Clk.lean ====
section
/-!
DEFINITION. The PLLs, the core voltage and temperature (chapter 15).
-/

namespace Sys2Proof.Machine

/-- STATE of PLL p (0 FPLL, 1 MPLL, 2 TPLL). -/
def pllState (s : State) (p : Nat) : Nat := s.rd (F_CKG_P_STATUS_STATE p)

/-- TRG is not IDLE: FCLK stays at 2000 MHz, SSC off (R97, R419, R422). -/
def trgBusy (s : State) : Bool := s.rd F_TRG_STATUS_STATE != 0

/-- A target within Table 15.1, covered, with an SSC the PLL has (Table 15.7). -/
def clkSetValid (p : Packet) (s : State) : Bool :=
  let pll := pf p 2 0 2
  let ssc := pf p 2 2 2
  let mhz := pf p 3 0 12
  (if pll = 0 then decide (500 ≤ mhz ∧ mhz ≤ 2000) && ssc != 3
   else pll == 1 && [2400, 2800, 3200].contains mhz && ssc == 0) && covered s pll mhz

/-- FPLL takes a target and its SSC; a CLK_SET that waited for TRG is forgotten (R418, R419). -/
def clkSetGo (s : State) (mhz ssc : Nat) : State :=
  setFreq ((s.wr (F_CKG_P_CTRL_SSC 0) ssc).modClk (fun c => { c with deferred := none })) 0 mhz

/-- FPLL is off, or locked with no change under way. -/
def fpllSettled (s : State) : Bool :=
  pllState s 0 == 0 || (pllState s 0 == 3 && (s.clk.glides.getD 0 none).isNone)

/-- CLK_SET of FPLL (R419, R422, R424). -/
def clkSetF (s : State) (mhz ssc : Nat) : FcpOut :=
  let floor := fFloor s ssc
  if floor > 2000 ∨ mhz < floor then .final { st := .notPermitted, r0 := floor } s
  else if trgBusy s && (ssc != 0 || mhz < s.rd (F_CKG_P_CTRL_TARGET 0)) then
    .final { st := .deferred, r0 := s.clk.fkhz / 1000 } (s.modClk (fun c => { c with deferred := some (mhz, ssc) }))
  else if s.on F_PMU_STATUS_THROTTLED then
    .final { st := .deferred, r0 := s.clk.fkhz / 1000 } ((s.wr (F_CKG_P_CTRL_SSC 0) ssc).modClk (fun c => { c with preThr := mhz }))
  else
    let s1 := clkSetGo s mhz ssc
    if fpllSettled s1 then .final (okR (s1.clk.fkhz / 1000) (glideUs s.clk.fkhz s1.clk.fkhz) 0 0) s1 else .wait .clkGlide 0 0 s1

/-- CLK_SET of MPLL (R400). -/
def clkSetM (s : State) (mhz : Nat) : FcpOut :=
  if s.clk.mkhz = mhz * 1000 then .final (okR mhz 0 0 0) s
  else if (List.range 8).any (fun c => s.on (F_MEM_C_TRN_STATUS_BUSY c)) then .wait .memCfg 0 0 (s.modMem (fun m => { m with mpll := some mhz }))
  else if (List.range 8).all (fun c => mcState s c == 1 || mcState s c == 3) then
    .final (okR mhz (glideUs s.clk.mkhz (mhz * 1000)) 0 0) (mpllChange s mhz)
  else .final { st := .notPermitted } s

/-- CLK_SET. -/
def execClkSet (p : Packet) (s : State) : Out :=
  fcpStep { op := 0x90, pfOnly := true, valid := clkSetValid,
            run := fun p s => if pf p 2 0 2 = 0 then clkSetF s (pf p 3 0 12) (pf p 2 2 2) else clkSetM s (pf p 3 0 12) } p s

/-- CLK_STATUS. -/
def execClkStatus (p : Packet) (s : State) : Out :=
  fcpStep { op := 0x91, valid := fun p _ => pf p 2 0 2 != 3,
            run := fun p s =>
              let k := pf p 2 0 2
              .final (okR (s.reg (R_CKG_P_STATUS k)).toNat (s.reg (R_CKG_P_FREQ k)).toNat (s.reg (R_CKG_P_COUNTS k)).toNat
                (s.reg R_PMU_AVS_STATUS).toNat) s } p s

/-- GLIDE_STEP: a step of a glide that is due (R418). -/
def execGlideStep (p : Nat) (s : State) : Out :=
  match s.clk.glides.getD p none with
  | none => .next s
  | some g => if p > 1 || s.up < g.at_ || (pllState s p ≠ 3 ∧ pllState s p ≠ 4) then .next s else .next (admWake (glideStep s p g))

/-- FPLL or TPLL switches to ACLK (R420). -/
def pllBypass (s : State) (p typ : Nat) : State :=
  let s1 := (s.bump (F_CKG_P_COUNTS_LOCK_LOSS p)).wr (F_CKG_P_STATUS_STATE p) 5
  (s1.wr (F_CKG_P_FREQ_KHZ p) 25000).raise 1 typ 2 (resIndex p) 0

/-- FPLL loses lock: FCLK runs from ACLK, and admission is judged anew (R420). -/
def fpllLost (s : State) : State :=
  wantRerun ((pllBypass s 0 0x01).modClk (fun c => { c with fkhz := 25000, glides := listMod c.glides 0 (fun _ => none) })) 5

/-- TPLL loses lock: TBS is in bypass and its outputs stop (R420). -/
def tpllLost (s : State) : State :=
  let s1 := (pllBypass (tbsSet s 6) 2 0x03).modClk (fun c => { c with tbsBefore := tbsState s, ppsEnd := none })
  ppsPin (crefPin { s1 with pins := { s1.pins with sysref := 0 } })

/-- PLL_LOCK_LOSS. -/
def execPllLockLoss (p : Nat) (s : State) : Out :=
  if pllState s p ≠ 3 ∧ pllState s p ≠ 4 then .next s
  else if p = 0 then .next (fpllLost s)
  else if p = 2 then .next (tpllLost s)
  else .next s

/-- FPLL has locked again, at 500 MHz (R420). -/
def fpllBack (s : State) : State :=
  capRisen (setFreq (setKhz (s.wr (F_CKG_P_STATUS_STATE 0) 3) 0 500000) 0 (s.rd (F_CKG_P_CTRL_TARGET 0)))

/-- TPLL has locked again, at 1000 MHz (R420). -/
def tpllBack (s : State) : State :=
  let s1 := tpllFreq (s.wr (F_CKG_P_STATUS_STATE 2) 3) (s.rdS F_TBS_STEER_STEER)
  ppsPin (crefPin (tbsSet s1 s1.clk.tbsBefore))

/-- PLL_RELOCK: FPLL runs at 500 MHz and glides to its target; TPLL at 1000 MHz (R420). -/
def execPllRelock (p : Nat) (s : State) : Out :=
  if pllState s p ≠ 5 then .next s
  else if p = 0 then .next (fpllBack s)
  else if p = 2 then .next (tpllBack s)
  else .next s

/-- MPLL's lock is lost. -/
def mpllLost (s : State) : State :=
  let s1 := ((s.bump (F_CKG_P_COUNTS_LOCK_LOSS 1)).wr (F_CKG_P_STATUS_STATE 1) 6).raise 1 0x02 2 (resIndex 1) 0
  eachCh s1 (fun t c => if mcRunning t c then selfRefresh t c else t)

/-- MPLL_LOCK_LOSS: the DCO holds its code and every channel enters self-refresh (R421). -/
def execMpllLockLoss (s : State) : Out :=
  if pllState s 1 ≠ 3 ∧ pllState s 1 ≠ 4 then .next s
  else .next (mpllLost s)

/-- MPLL_REACQUIRE: from here on the channels can leave self-refresh (SELF_REFRESH_EXIT). -/
def execMpllReacquire (s : State) : Out :=
  if pllState s 1 ≠ 6 then .next s else .next (s.wr (F_CKG_P_STATUS_STATE 1) 3)

/-- ACLK_LOSS: the PLLs hold their DCO codes; fatal (R420). -/
def execAclkLoss (s : State) : Out :=
  let s1 := (List.range 3).foldl (fun t p => if pllState t p = 0 then t else t.wr (F_CKG_P_STATUS_STATE p) 6) s
  .next ((s1.modClk (fun c => { c with glides := [none, none] })).raise 1 0x04 3 resNone 0)

/-- A third voltage write goes unanswered: AVS is degraded and FCLK stays where the voltage allows (R423). -/
def avsFailed (s : State) : State :=
  let s1 := (s.modClk (fun c => { c with avsAt := none, avsTries := 0 })).raise 1 0x08 2 (resIndex 3) 0
  let s2 := ((s1.wr F_PMU_STATUS_AVS_DEGRADED 1).bump F_PMU_AVS_STATUS_FAILS).bump F_PMU_COUNTS_AVS_FAILS
  let lim := fclkLimit s2
  let s3 := if lim < s2.rd (F_CKG_P_CTRL_TARGET 0) then setFreq s2 0 lim else s2
  if lim < fFloor s3 (s3.rd (F_CKG_P_CTRL_SSC 0)) then wantRerun s3 5 else s3

/-- AVS_WRITE_TIMEOUT: a voltage write has gone 100 µs without its acknowledgement (R423). -/
def execAvsWriteTimeout (s : State) : Out :=
  match s.clk.avsAt with
  | none => .next s
  | some t =>
    if s.up < t + 100000 then .next s
    else if s.clk.avsTries < 2 then .next (s.modClk (fun c => { c with avsAt := some s.up, avsTries := c.avsTries + 1 }))
    else .next (avsFailed s)

/-- A power-state transition is under way. -/
def inTransition (s : State) : Bool := s.pstate ≥ 4

/-- THROTTLED (R444). -/
def postThrottled (s : State) : State := s.postEvent 0 0x0104 [s.clk.fkhz / 1000, s.rd F_PMU_TEMP_T_NOW]

/-- FCLK falls by the throttling step, at least to 500 MHz (R424). -/
def throttleFall (s : State) : State :=
  let step := max 1 (min 50 (s.rd F_PMU_THERM_REL_STEP))
  let f := max 500 (s.rd (F_CKG_P_CTRL_TARGET 0) * (100 - step) / 100)
  wantRerun (postThrottled (setFreq (s.modClk (fun c => { c with thrAt := s.up + 10000000 })) 0 f)) 5

/-- Throttling ends: FCLK returns to what it was, or to 2000 MHz for TRG (R424). -/
def throttleEnd (s : State) : State :=
  let f := if trgBusy s then 2000 else max s.clk.preThr (fFloor s (s.rd (F_CKG_P_CTRL_SSC 0)))
  capRisen (postThrottled (setFreq (s.wr F_PMU_STATUS_THROTTLED 0) 0 f))

/-- THROTTLE_STEP (R424, R440). -/
def execThrottleStep (s : State) : Out :=
  if !s.on F_PMU_STATUS_THROTTLED || s.rdS F_PMU_TEMP_T_NOW < s.rdS F_PMU_THERM_THROTTLE || s.up < s.clk.thrAt || inTransition s
      || s.rd (F_CKG_P_CTRL_TARGET 0) ≤ 500 then .next s
  else .next (throttleFall s)

/-- THROTTLE_RELEASE (R424). -/
def execThrottleRelease (s : State) : Out :=
  match s.clk.below with
  | none => .next s
  | some t =>
    if !s.on F_PMU_STATUS_THROTTLED || s.up < t + 1000000000 then .next s
    else .next (throttleEnd s)

/-- What PMU does with a temperature (R424); T_MAX follows. -/
def tempTake (s : State) (t : Nat) : State :=
  let v := sext 16 t
  let s1 := s.wr F_PMU_TEMP_T_NOW t
  let s2 := if v > s1.rdS F_PMU_TEMP_T_MAX then s1.wr F_PMU_TEMP_T_MAX t else s1
  let s3 := s2.modClk (fun c => { c with below := if v < s2.rdS F_PMU_THERM_REL_RELEASE then some (c.below.getD s.up) else none })
  let trip := min (s3.rdS F_PMU_THERM_TRIP) 0x0730
  let s4 := if v ≥ s3.rdS F_PMU_THERM_THROTTLE && !s3.on F_PMU_STATUS_THROTTLED then
      (((s3.wr F_PMU_STATUS_THROTTLED 1).bump F_PMU_COUNTS_THROTTLES).modClk (fun c => { c with
        preThr := s3.rd (F_CKG_P_CTRL_TARGET 0), thrAt := s.up })).raise 1 0x09 0 resNone 0
    else s3
  if v ≥ trip then
    let s5 := if s4.err.contained then s4 else s4.raise 1 0x0A 3 resNone 0
    setFreq s5 0 500
  else s4

/-- UNDERVOLT (R424). -/
def execUndervolt (s : State) : Out := .next (s.raise 1 0x0B 3 resNone 0)

/-- PMU_CLR_COUNTERS: PMU_CTRL with CLR_COUNTERS (Table 15.8). -/
def pmuCtrlWrite (s : State) (v : Word) : State :=
  let alarm := v.toNat.testBit 2
  let s1 := s.wrs [(F_PMU_CTRL_WAKE_PIN_EN, v.toNat / 2), (F_PMU_CTRL_WAKE_ALARM_EN, v.toNat / 4)]
  let s2 := if alarm && !s.on F_PMU_CTRL_WAKE_ALARM_EN then s1.modClk (fun c => { c with wakeArmed := true }) else s1
  if v.toNat.testBit 0 then
    s2.zeroFields ([F_PMU_COUNTS_WAKES, F_PMU_COUNTS_THROTTLES, F_PMU_COUNTS_AVS_FAILS, F_PMU_AVS_STATUS_FAILS]
      ++ (List.range 3).flatMap (fun p => [F_CKG_P_COUNTS_LOCK_LOSS p, F_CKG_P_COUNTS_CHANGES p]))
  else s2

/-- PMU_CLR_COUNTERS. -/
def execPmuClrCounters (m : Nat) (v : Word) (s : State) : Out := .next (s.writeBy m R_PMU_CTRL (fun t => pmuCtrlWrite t v))

end Sys2Proof.Machine
end

