-- ==== Sys2Proof/Machine/DmaRun.lean ====
section
/-!
DEFINITION. A DMA channel at work (chapter 13): taking a descriptor, release, reads into the kept buffer, writes out of it,
what a finished transfer does, closing.
-/

namespace Sys2Proof.Machine

/-! ### Access -/

/-- An access of a channel that R347 shuts out: its record, and that of R25 where Table 1.4 is breached. -/
def accessFail (s : State) (c space a n : Nat) (w : Bool) : State :=
  let s1 := s.raise 10 0x04 0 (resIndex c) 0 (grpMaster c)
  if space = 0 ∧ groupReach s a n w = false then violation s1 a (grpMaster c) else s1

/-! ### Taking a descriptor -/

/-- The part of a transfer in hand has been read whole, or written whole. -/
def Xfer.len (x : Xfer) : Nat :=
  match x.emit, x.cur with
  | some e, some d => min d.len e.bytes.length
  | none, some d => if d.srcSpace = 2 then 0 else d.len
  | _, none => 0
def Xfer.readAll (x : Xfer) : Bool := x.rd == x.len
def Xfer.wroteAll (x : Xfer) : Bool := x.wr == x.len

/-- The last descriptor of the chain is in hand. -/
def Xfer.last (x : Xfer) : Bool := match x.cur with | some d => d.f 1 1 == 0 | none => false

/-- A transfer ends with a status before its end: nothing more moves. -/
def xferStop (s : State) (c st : Nat) : State := s.modXfer c (fun x => { x with endSt := some (x.endSt.getD st) })

/-- Whether a head's pacing source is none that R360 names. -/
def paceBad (d : DDesc) : Bool := d.f 18 2 % 2 == 1 && !(d.pace % 256 == 1 || d.pace % 256 == 2)

/-- The packet of a space-2 transfer at its release (R363). -/
def takePacket (s : State) (c : Nat) : State :=
  match (s.chan c).emits with
  | [] => s
  | e :: es =>
    let s1 := (s.modChan c (fun k => { k with emits := es })).wr (F_DMA_C_EMIT_PACKETS c) es.length
    s1.modXfer c (fun x => { x with emit := some e, poisoned := x.poisoned || e.bad })

/-- A descriptor of a chain has been delivered: the next one is to be fetched (R350). -/
def xferHop (s : State) (c : Nat) : State :=
  s.modXfer c (fun x => if x.cur.isSome && x.wroteAll && !x.last && x.endSt.isNone then { x with cur := none } else x)

/-- The released transfer of a channel starts: its checksum register (R356). -/
def xferRelease (s : State) (c : Nat) : State :=
  let s1 := match (s.chan c).xfer with
    | some x => if x.head.srcSpace = 2 then takePacket s c else s
    | none => s
  let s2 := s1.modChan c (fun k => { k with
    lastRel := some s.up, xfer := k.xfer.map (fun x => { x with
      released := some s.up, crc := if x.head.cont then k.crc else 4294967295,
      poisoned := x.poisoned || (match x.emit with | some e => e.bad | none => false) }) })
  xferHop (setChState s2 c 2) c

/-- No transfer is released in Rest or while it is entered (R375, R439). -/
def dmaStill (s : State) : Bool := s.pstate == 0 || s.pstate == 7

/-- Whether the conditions of a transfer's release hold (R360, R363). -/
def mayRelease (s : State) (c : Nat) : Bool :=
  match (s.chan c).xfer with
  | none => false
  | some x =>
    let pace := x.head.f 18 2
    !dmaStill s && x.released.isNone && x.endSt.isNone
      && (pace % 2 == 0 || decide (s.rd (F_DMA_C_PACE_CREDIT c) > 0))
      && (pace / 2 == 0 || (match (s.chan c).lastRel with
            | none => true
            | some t => decide (t + bitsOf x.head.pace 12 20 * 1000 ≤ s.up)))
      && (x.head.srcSpace != 2 || !(s.chan c).emits.isEmpty)

/-- A channel takes the next descriptor that it has fetched; it is IDLE at an index that the host owns (R349). -/
def chanNext (s : State) (c : Nat) : State :=
  let k := s.chan c
  if k.xfer.isSome || !k.started then s
  else
    match k.ahead with
    | (i, d) :: rest =>
      let bad := d.bad true || paceBad d
      let x := { Xfer.new (some i) none d with endSt := if bad then some 6 else none }
      let s1 := setChState (s.modChan c (fun y => { y with ahead := rest, xfer := some x })) c (if bad then 2 else 3)
      if !bad && !dmaStill s && d.f 18 2 = 0 && (d.srcSpace != 2 || !k.emits.isEmpty) then xferRelease s1 c else s1
    | [] => setChState s c (if k.empty then 1 else 2)

/-- A channel that drains has no owned transfer left (Table 13.10). -/
def closable (s : State) (c : Nat) : Bool :=
  let k := s.chan c
  k.draining && k.xfer.isNone && (chState s c == 5 || !k.started || (k.ahead.isEmpty && k.empty))

/-- It closes then. -/
def closeCheck (s : State) (c : Nat) : State := if closable s c then chanClose s c else s

/-! ### Bursts -/

/-- Checksum bytes still to be appended (R356). -/
def Xfer.toAppend (x : Xfer) : Nat := if x.head.append && x.head.csum != 0 && x.last then 4 - x.appended else 0

/-- All data of a transfer have been written (R351). -/
def Xfer.whole (x : Xfer) : Bool := x.cur.isSome && x.last && x.wroteAll && x.toAppend == 0

/-- Bytes up to the next multiple of `m`. -/
def toBound (a m : Nat) : Nat := m - a % m

/-- The read that a transfer issues next: its space, address and length (R353, R355). -/
def readPlan (s : State) (x : Xfer) : Option (Nat × Nat × Nat) :=
  match x.cur with
  | none => none
  | some d =>
    let left := x.len - x.rd
    let room := 4096 - x.kept.length
    let w := widthOf (d.f 8 2)
    if left = 0 then none
    else if x.given.isSome || d.srcSpace = 2 then (if room = 0 then none else some (2, 0, min left room))
    else if w ≠ 0 then
      if room < w then none
      else some (d.srcSpace, if d.f 12 1 = 1 then d.src else if d.down then d.src + left - w else d.src + x.rd, w)
    else if d.down then
      let e := d.src + left
      let lim := if d.srcSpace = 1 then min s.dma.mrrs (if e % 4096 = 0 then 4096 else e % 4096) else (if e % 64 = 0 then 64 else e % 64)
      let n := min left lim
      if room < n then none else some (d.srcSpace, e - n, n)
    else
      let a := d.src + x.rd
      let lim := if d.srcSpace = 1 then min s.dma.mrrs (toBound a 4096) else toBound a 64
      let n := min left lim
      if room < n then none else some (d.srcSpace, a, n)

/-- The checksum bytes at the end of what stands in a kept buffer. -/
def Xfer.crcBytes (x : Xfer) : List (Byte × Bool) :=
  ((natBytes 4 (crc32End x.crc)).drop x.appended).map (fun b => (b, false))

/-- The write that a transfer issues next: space, address, data bytes, checksum bytes (R353, R355, R356). The checksum
follows the data in one write where a stream side goes upwards, else in a write of its own. -/
def writePlan (s : State) (x : Xfer) : Option (Nat × Nat × Nat × Nat) :=
  match x.cur with
  | none => none
  | some d =>
    let have_ := x.kept.length
    let w := widthOf (d.f 10 2)
    let left := x.len - x.wr
    if left = 0 then
      if x.toAppend = 0 then none
      else
        let a := x.lastDst.2 + x.appended
        let lim := if x.lastDst.1 = 1 then min (toBound a s.dma.mps) (toBound a 4096) else toBound a 64
        some (x.lastDst.1, a, 0, min x.toAppend lim)
    else if have_ = 0 then none
    else if w ≠ 0 then
      if have_ < w then none
      else some (d.dstSpace, if d.f 13 1 = 1 then d.dst else if d.down then d.dst + left - w else d.dst + x.wr, w, 0)
    else if d.down then
      let e := d.dst + left
      let lim := if d.dstSpace = 1 then (let r := e % min s.dma.mps 4096; if r = 0 then min s.dma.mps 4096 else r)
        else (if e % 64 = 0 then 64 else e % 64)
      let n := min have_ (min left lim)
      some (d.dstSpace, e - n, n, 0)
    else
      let a := d.dst + x.wr
      let lim := if d.dstSpace = 1 then min (toBound a s.dma.mps) (toBound a 4096) else toBound a 64
      let n := min have_ (min left lim)
      some (d.dstSpace, a, n, if n = left then min x.toAppend (lim - n) else 0)

/-- What a channel would do with a burst. -/
inductive Burst where
  | none
  | mem
  | read (space a n : Nat)
  | write (space a n k : Nat)
deriving DecidableEq, Repr

/-- The next burst of a channel: a read while its kept buffer has room, else a write; one to DRAM waits for MEMC (R375),
one to host memory for tokens (R361). -/
def nextBurst (s : State) (c : Nat) : Burst :=
  match (s.chan c).xfer with
  | none => .none
  | some x =>
    if x.released.isNone || x.endSt.isSome then .none
    else
      let b := bucketNow s (chCtx s c)
      let memOff := !s.domOn .memc
      match readPlan s x, writePlan s x with
      | some (sp, a, n), w =>
        if (needsMem sp a && memOff) || (sp = 1 && b.h2d < 1000 * n) then
          match w with
          | some (wsp, wa, wn, wk) =>
            if needsMem wsp wa && memOff then .mem
            else if wsp = 1 && b.d2h < 1000 * (wn + wk) then .none else .write wsp wa wn wk
          | none => if needsMem sp a && memOff then .mem else .none
        else .read sp a n
      | none, some (wsp, wa, wn, wk) =>
        if needsMem wsp wa && memOff then .mem
        else if wsp = 1 && b.d2h < 1000 * (wn + wk) then .none else .write wsp wa wn wk
      | none, none => .none

/-- Bytes read enter the kept buffer and the checksum (R356, R358). -/
def Xfer.take (x : Xfer) (bs : List (Byte × Bool)) : Xfer :=
  let down := match x.cur with | some d => d.down | none => false
  let raw := bs.map (fun b => b.1)
  let poly := if x.head.csum = 2 then poly32 else polyC
  let desc := if down then raw ++ x.desc else []
  let rd := x.rd + bs.length
  let crc := if x.head.csum = 0 then x.crc
    else if down then (if rd = x.len then crc32Run poly x.crc desc else x.crc)
    else crc32Run poly x.crc raw
  { x with rd := rd, tries := 0, kept := if down then bs ++ x.kept else x.kept ++ bs, desc := desc, crc := crc,
           poisoned := x.poisoned || bs.any (fun b => b.2) }

/-- The bytes that a write takes out of the kept buffer, and the transfer after it. -/
def Xfer.give (x : Xfer) (n k : Nat) : List (Byte × Bool) × Xfer :=
  let down := match x.cur with | some d => d.down | none => false
  let i := x.kept.length - n
  let out := if down then x.kept.drop i else x.kept.take n
  let x1 := { x with
    wr := x.wr + n, kept := if down then x.kept.take i else x.kept.drop n, done := x.done + n, tries := 0,
    appended := x.appended + k,
    overlap := x.overlap || (n != 0 && (match x.cur with | some d => d.overlaps | none => false)),
    lastDst := match x.cur with
      | some d => if n = 0 then x.lastDst
          else (d.dstSpace, if d.f 13 1 = 1 then d.dst + widthOf (d.f 10 2) else d.dst + x.len)
      | none => x.lastDst }
  (out ++ x.crcBytes.take k, x1)

/-- Bytes moved by a group and a channel. -/
def dmaCount (s : State) (c n : Nat) : State :=
  let g := c / 16
  let s1 := s.wr64 (R_DMA_G_BYTES_LO g) (R_DMA_G_BYTES_HI g) (satAdd 64 (s.rd64 (R_DMA_G_BYTES_LO g) (R_DMA_G_BYTES_HI g)) n)
  s1.wr64 (R_DMA_C_BYTES_LO c) (R_DMA_C_BYTES_HI c) (satAdd 64 (s1.rd64 (R_DMA_C_BYTES_LO c) (R_DMA_C_BYTES_HI c)) n)

/-- A read burst: `data` is what host memory returns. -/
def burstRead (s : State) (c space a n : Nat) (data : List Byte) (ue : Bool) : State :=
  match (s.chan c).xfer with
  | none => s
  | some x =>
    if space = 2 then
      let src : List (Byte × Bool) := match x.given, x.emit with
        | some b, _ => ((b.drop x.rd).take n).map (fun y => (y, false))
        | none, some e => ((e.bytes.drop x.rd).take n).map (fun y => (y, e.bad))
        | none, none => []
      s.modXfer c (fun y => Xfer.take y (src.map (fun (b : Byte × Bool) => (b.1, b.2 || ue))))
    else if !mayAccess s (chCtx s c) space a n false then xferStop (accessFail s c space a n false) c 3
    else
      let r := if space = 1 then (((List.range n).map (fun i => (data.getD i 0, false))), bucketTake s (chCtx s c) 0 n)
        else internalRead s c a n
      r.2.modXfer c (fun y => Xfer.take y (r.1.map (fun (b : Byte × Bool) => (b.1, b.2 || ue))))

/-- A write burst. -/
def burstWrite (s : State) (c space a n k : Nat) : State :=
  match (s.chan c).xfer with
  | none => s
  | some x =>
    if !mayAccess s (chCtx s c) space a (n + k) true then xferStop (accessFail s c space a (n + k) true) c 3
    else
      let r := x.give n k
      let s1 := if space = 1 then bucketTake s (chCtx s c) (n + k) 0 else s
      let s2 := spaceWrite s1 c space a r.1
      xferHop (dmaCount (s2.modXfer c (fun _ => { r.2 with wroteAt := some s.now })) c (n + k)) c

/-- A channel's burst; `ue`: a word of its kept buffer or output chute is uncorrectable (Table 13.8). -/
def chanBurst (s : State) (c : Nat) (data : List Byte) (ue : Bool) : State :=
  let s0 := setChState s c 2
  let s1 := if ue then s0.raise 10 0x05 2 (resIndex c) 0 else s0
  let s2 := match nextBurst s c with
    | .read sp a n => burstRead s1 c sp a n data ue
    | .write sp a n k =>
      let s3 := if ue then s1.modXfer c (fun x => { x with
          kept := x.kept.map (fun (b : Byte × Bool) => (b.1, true)), poisoned := true }) else s1
      burstWrite s3 c sp a n k
    | _ => s0
  s2.wr (F_DMA_C_CSUM_VALUE c) (match (s2.chan c).xfer with | some x => crc32End x.crc | none => s2.rd (F_DMA_C_CSUM_VALUE c))

/-- The channels of a group from the one after a given one on. -/
def grpOrder (g last : Nat) : List Nat := (List.range 16).map (fun i => 16 * g + (last + 1 + i) % 16)

/-- The channel a group serves: the highest priority that is ready, equals in turn (R358). -/
def grpPick (s : State) (g : Nat) : Option Nat :=
  let ready := (grpOrder g (s.dma.last.getD g 0 % 16)).filter (fun c =>
    match nextBurst s c with | .read _ _ _ | .write _ _ _ _ => true | _ => false)
  ready.foldl (fun m c => match m with
    | none => some c
    | some b => if s.rd (F_DMA_C_CFG_PRIO c) > s.rd (F_DMA_C_CFG_PRIO b) then some c else m) none

/-- Channels whose next access needs MEMC wait for it (R375). -/
def waitMem (s : State) (g : Nat) : State :=
  (List.range 16).foldl (fun t i =>
    let c := 16 * g + i
    match nextBurst t c with
    | .mem => if chState t c = 2 then setChState t c 4 else t
    | _ => if chState t c = 4 then setChState t c 2 else t) s

/-- A group's burst after a higher priority has become ready while a transfer stands counts as a pre-emption. -/
def preempts (s : State) (g c : Nat) : Bool :=
  let l := s.dma.last.getD g 0
  l != c && decide (s.rd (F_DMA_C_CFG_PRIO c) > s.rd (F_DMA_C_CFG_PRIO l))
    && (match (s.chan l).xfer with | some x => x.released.isSome && x.endSt.isNone && !x.whole && decide (x.rd > 0) | none => false)

/-- In Containment the ring channels of a group halt (R377). -/
def grpContain (s : State) (g : Nat) : State :=
  if !s.err.contained then s
  else
    (List.range 16).foldl (fun t i =>
      let c := 16 * g + i
      match (t.chan c).xfer with
      | some x => if x.claim.isSome then t else haltNow t c 8
      | none => if (t.chan c).started then haltNow t c 8 else t) s

/-- One burst of a group. -/
def grpBurst (s : State) (g : Nat) (data : List Byte) (ue : Bool) : State :=
  match grpPick s g with
  | none => s
  | some c =>
    let s1 := if preempts s g c then s.bump (F_DMA_G_PREEMPT_COUNT g) else s
    chanBurst (s1.modDma (fun d => { d with last := d.last.set g c })) c data ue

/-! ### Ends -/

/-- What follows the end of a transfer: a halt its status calls for, a halt asked for, a close, or the next one. -/
def afterEnd (s : State) (c st retries : Nat) (ring : Option Nat) : State :=
  let cause := match st with | 1 => 1 | 2 => 2 | 3 => 3 | 6 => 4 | _ => 0
  let s1 :=
    if ring.isSome && cause != 0 then chanHalt s c cause retries st false ring
    else if (s.chan c).haltAfter then chanHalt s c 5 retries st
    else chanNext s c
  crRetry (closeCheck s1 c) (fun k => k / 16 == c / 16 && k < 128)

/-- The status a transfer ends with (Table 13.3). -/
def Xfer.status (x : Xfer) : Nat :=
  match x.endSt with
  | some e => e
  | none =>
    let over_ := match x.emit, x.cur with | some e, some d => decide (e.bytes.length > d.len) | _, _ => false
    if x.poisoned then 4 else if over_ then 7 else 0

end Sys2Proof.Machine
end

