-- ==== Sys2Proof/Machine/Dma.lean ====
section
/-!
DEFINITION. The commands of the DMA block (chapter 13).
-/

namespace Sys2Proof.Machine

/-! ### Opcodes (R382, Table 13.10) -/

/-- The channel a packet names. -/
def dmaChan (p : Packet) : Nat := pf p 2 0 7

/-- The channel is open and belongs to the issuing context. -/
def ownChan (p : Packet) (s : State) : Bool := s.on (F_DMA_C_CFG_OPEN (dmaChan p)) && chCtx s (dmaChan p) == pCtx p

/-- An opcode that needs a contract (R309, R382). -/
def withCon (p : Packet) (s : State) (f : Contract → FcpOut) : FcpOut :=
  match contractOf s (pCtx p) with
  | none => fSt .noBudget s
  | some k => f k

/-- The channel a DMA_CHAN_OPEN takes: the one named, or with 127 the lowest closed one. -/
def wantChan (p : Packet) (s : State) : Option Nat :=
  if dmaChan p = 127 then (List.range 128).find? (fun c => !s.on (F_DMA_C_CFG_OPEN c)) else some (dmaChan p)

/-- A channel opens for a context, IDLE. -/
def chanOpen (p : Packet) (s : State) (c : Nat) : State :=
  let s1 := s.wrs [(F_DMA_C_CFG_CONTEXT c, pCtx p), (F_DMA_C_CFG_OPEN c, 1), (F_DMA_C_CFG_PRIO c, pf p 2 8 2)]
  (setChState s1 c 1).modChan c (fun _ => Chan.reset)

/-- DMA_CHAN_OPEN. -/
def execDmaChanOpen (p : Packet) (s : State) : Out :=
  fcpStep { op := 0x60, valid := fun p s => dmaChan p == 127 || !s.on (F_DMA_C_CFG_OPEN (dmaChan p)),
            run := fun p s => withCon p s (fun k =>
              if k.broken then fSt .contractBroken s
              else if (chansOf s (pCtx p)).length ≥ k.f 12 8 8 then .final { st := .noBudget, r0 := k.f 12 8 8 } s
              else
                match wantChan p s with
                | none => .final { st := .noBudget, r0 := k.f 12 8 8 } s
                | some c => .final (okR (c + (grpMaster c <<< 8)) 0 0 0) (chanOpen p s c)) } p s

/-- A close without DRAIN ends the transfer in hand. -/
def chanCut (s : State) (c : Nat) : State :=
  match (s.chan c).xfer with
  | some x => if x.index.isSome && x.released.isSome then xferEnd s c 5 else s
  | none => s

/-- DMA_CHAN_CLOSE. -/
def execDmaChanClose (p : Packet) (s : State) : Out :=
  fcpStep { op := 0x61, permit := ownChan,
            run := fun p s => withCon p s (fun _ =>
              let c := dmaChan p
              if pb p 2 8 then
                let s1 := s.modChan c (fun k => { k with draining := true })
                if closable s1 c then .final (okR (s.chan c).completed 0 0 0) (chanClose s1 c) else .wait .dmaClose c 0 s1
              else .final (okR ((chanCut s c).chan c).completed 0 0 0) (chanClose (chanCut s c) c)) } p s

/-- A channel takes a ring (R348). -/
def ringTake (p : Packet) (s : State) : State :=
  let c := dmaChan p
  let s1 := (s.wr64 (R_DMA_C_RING_LO c) (R_DMA_C_RING_HI c) (pq p 3)).wrs [(F_DMA_C_CFG_RING_SPACE c, pf p 2 8 1),
    (F_DMA_C_RING_SIZE_ENTRIES c, pf p 5 0 13), (F_DMA_C_RING_SIZE_POLL c, pf p 5 16 16),
    (F_DMA_C_STATE_INDEX c, pf p 6 0 12)]
  s1.modChan c (fun k => { k with
    ring := true, started := false, ahead := [], fetch := pf p 6 0 12, empty := false, fetchTries := 0, owned := none })

/-- DMA_RING_SET. -/
def execDmaRingSet (p : Packet) (s : State) : Out :=
  fcpStep { op := 0x62, permit := ownChan, aligned := fun p _ => pq p 3 % 64 == 0,
            valid := fun p _ => decide (2 ≤ pf p 5 0 13 ∧ pf p 5 0 13 ≤ 4096 ∧ pf p 6 0 12 < pf p 5 0 13),
            allowed := fun p s => !chRunning s (dmaChan p),
            run := fun p s => withCon p s (fun _ => fOk (ringTake p s)) } p s

/-- What DMA_START does with the transfer that a halt left owned: SKIP ends it, an overlapped one ends INCOMPLETE, any
other is run again (R366). -/
def startOwned (s : State) (c : Nat) (skip : Bool) : State :=
  match (s.chan c).owned with
  | none => s
  | some x =>
    let s1 := s.modChan c (fun k => { k with owned := none })
    match x.index with
    | none => s1
    | some i =>
      if skip || x.overlap then
        (backWrite s1 c i (if skip then 5 else 9) x false).modChan c (fun k => { k with
          ahead := k.ahead.drop 1, completed := k.completed + 1 })
      else s1

/-- A channel starts on its ring; CSUM restarts when asked, a halt ends (R366). -/
def chanStart (p : Packet) (s : State) : State :=
  let c := dmaChan p
  let s1 := if pb p 2 9 then (s.modChan c (fun k => { k with crc := 4294967295 })).wr (F_DMA_C_CSUM_VALUE c) 0 else s
  let s2 := if chState s c = 5 then
      (startOwned s1 c (pb p 2 8)).wrs [(F_DMA_C_STATE_CAUSE c, 0), (F_DMA_C_STATE_WB_FAIL c, 0)] else s1
  let s3 := s2.modChan c (fun k => { k with started := true, empty := false, haltAfter := false })
  if (s3.chan c).xfer.isSome then s3 else chanNext s3 c

/-- DMA_START. -/
def execDmaStart (p : Packet) (s : State) : Out :=
  fcpStep { op := 0x63, permit := ownChan, allowed := fun p s => (s.chan (dmaChan p)).ring,
            run := fun p s => withCon p s (fun _ =>
              .final (okR ((chanStart p s).reg (R_DMA_C_STATE (dmaChan p))).toNat 0 0 0) (chanStart p s)) } p s

/-- A channel halts at once: what it has in hand is dropped, its COPY aborted. -/
def chanDrop (s : State) (c : Nat) : State := chanHalt (xferDrop (endCopy s c .aborted) c) c 5 0 0

/-- The transfer in hand has been released, or is at its end. -/
def xferGoing (s : State) (c : Nat) : Bool :=
  match (s.chan c).xfer with | some x => x.released.isSome || x.endSt.isSome | none => false

/-- DMA_HALT. -/
def execDmaHalt (p : Packet) (s : State) : Out :=
  fcpStep { op := 0x64, permit := ownChan,
            run := fun p s => withCon p s (fun _ =>
              let c := dmaChan p
              if chState s c = 5 then .final (okR (s.rd (F_DMA_C_STATE_INDEX c)) 0 0 0) s
              else if !pb p 2 8 && xferGoing s c then .wait .dmaHalt c 0 (s.modChan c (fun k => { k with haltAfter := true }))
              else .final (okR ((chanDrop s c).rd (F_DMA_C_STATE_INDEX c)) 0 0 0) (chanDrop s c)) } p s

/-- The counts of a channel. -/
def dmaCounts (c : Nat) : List Fld :=
  [F_DMA_C_BYTES_LO_BYTES c, F_DMA_C_BYTES_HI_BYTES c, F_DMA_C_COUNTS_RETRIES c, F_DMA_C_COUNTS_LATE c, F_DMA_C_EMIT_LOST c]

/-- DMA_STATUS. -/
def execDmaStatus (p : Packet) (s : State) : Out :=
  fcpStep { op := 0x65, permit := ownChan,
            run := fun p s => withCon p s (fun _ =>
              let c := dmaChan p
              .final (okR (s.reg (R_DMA_C_STATE c)).toNat (s.reg (R_DMA_C_COUNTS c)).toNat (s.reg (R_DMA_C_BYTES_LO c)).toNat
                (s.reg (R_DMA_C_EMIT c)).toNat) (if pb p 2 8 then s.zeroFields (dmaCounts c) else s)) } p s

/-- The descriptor that a DMA_COPY stands for. -/
def copyDesc (p : Packet) : DDesc :=
  { src := pq p 3, dst := pq p 5, len := pdw p 7 + pf p 8 0 8 * 4294967296,
    ctrl := (pf p 2 8 2 <<< 4) + (pf p 2 10 2 <<< 6) + (pf p 2 12 2 <<< 14) + (pf p 2 14 1 <<< 16), next := 0, tag := 0, pace := 0, rsv := 0 }

/-- A COPY waits for its release on its channel. -/
def copyQueue (p : Packet) (s : State) : State :=
  let c := dmaChan p
  let s1 := setChState (s.modChan c (fun k => { k with xfer := some (Xfer.new none (some (p.qid, pTag p)) (copyDesc p)) })) c 3
  if mayRelease s1 c then xferRelease s1 c else s1

/-- A COPY's descriptor and the ranges it may reach. -/
def copyOk (p : Packet) (s : State) : Bool :=
  let d := copyDesc p
  !d.bad true && (d.srcSpace == 2 || d.len == 0 || mayAccess s (pCtx p) d.srcSpace d.src d.len false)
    && (d.len == 0 || mayAccess s (pCtx p) d.dstSpace d.dst d.len true)

/-- DMA_COPY. -/
def execDmaCopy (p : Packet) (s : State) : Out :=
  fcpStep { op := 0x66, permit := ownChan, aligned := fun p _ => pq p 3 % 64 == 0 && pq p 5 % 64 == 0,
            valid := copyOk,
            allowed := fun p s => chState s (dmaChan p) == 1,
            run := fun p s => withCon p s (fun _ => .wait .dmaCopy (dmaChan p) 0 (copyQueue p s)) } p s

/-- A write of DMA_CTRL. -/
def dmaCtrlWrite (v : Nat) (s : State) : State :=
  if v.testBit 0 then
    s.zeroFields ((List.range 128).flatMap dmaCounts ++ (List.range 8).flatMap (fun g =>
      [F_DMA_G_BYTES_LO_BYTES g, F_DMA_G_BYTES_HI_BYTES g, F_DMA_G_PREEMPT_COUNT g]))
  else s

/-- DMA_CLR_COUNTERS. -/
def execDmaClrCounters (m : Nat) (v : Word) (s : State) : Out := .next (s.writeBy m R_DMA_CTRL (dmaCtrlWrite v.toNat))

/-! ### The channels at work -/

/-- 64 bytes of a descriptor: from the ring's space, or what host memory returns. -/
def descBytes (s : State) (c a : Nat) (bytes : List Byte) : List Byte :=
  if ringSpace s c = 1 then (List.range 64).map (fun i => bytes.getD i 0) else s.dramRead a 64

/-- The fetch of a chained descriptor (R350). -/
def fetchChained (s : State) (c : Nat) (x : Xfer) (bytes : List Byte) : State :=
  if x.hops ≥ 1024 then xferStop (s.raise 10 0x02 0 (resIndex c) 0 (grpMaster c)) c 1
  else if !mayAccess s (chCtx s c) (ringSpace s c) x.nextAt 64 false then
    xferStop (accessFail s c (ringSpace s c) x.nextAt 64 false) c 3
  else if needsMem (ringSpace s c) x.nextAt && !s.domOn .memc then s
  else
    let d := DDesc.parse (descBytes s c x.nextAt bytes)
    if d.bad false then xferStop s c 6
    else if d.srcSpace = 2 && (s.chan c).emits.isEmpty then s
    else
      let s1 := s.modXfer c (fun y => { y with cur := some d, hops := y.hops + 1, nextAt := d.next, rd := 0, wr := 0, desc := [], tries := 0 })
      xferHop (if d.srcSpace = 2 then takePacket s1 c else s1) c

/-- The fetch of the next ring descriptor (R349). -/
def fetchRing (s : State) (c : Nat) (bytes : List Byte) : State :=
  let k := s.chan c
  let a := ringAddr s c k.fetch
  let held := k.ahead.length + (match k.xfer with | some x => b2n x.index.isSome | none => 0)
  if !k.started || k.empty || k.ahead.length ≥ 4 || held ≥ s.rd (F_DMA_C_RING_SIZE_ENTRIES c) then s
  else if !mayAccess s (chCtx s c) (ringSpace s c) a 64 false then
    (if k.xfer.isSome then s else chanHalt (accessFail s c (ringSpace s c) a 64 false) c 3 0 0)
  else if needsMem (ringSpace s c) a && !s.domOn .memc then s
  else
    let d := DDesc.parse (descBytes s c a bytes)
    if d.f 0 1 = 0 then
      closeCheck (chanNext (s.modChan c (fun y => { y with
        empty := true, fetchTries := 0, pollAt := s.up + s.rd (F_DMA_C_RING_SIZE_POLL c) * 1000 })) c) c
    else
      chanNext (s.modChan c (fun y => { y with
        ahead := y.ahead ++ [(y.fetch, d)], fetch := nextIndex s c y.fetch, fetchTries := 0 })) c

/-- A channel reads its next descriptor. -/
def chanFetch (s : State) (c : Nat) (bytes : List Byte) : State :=
  if s.err.contained then s
  else
    match (s.chan c).xfer with
    | some x => if x.released.isSome && x.cur.isNone && x.endSt.isNone then fetchChained s c x bytes else fetchRing s c bytes
    | none => fetchRing s c bytes

/-- DMA_DESCRIPTOR_FETCH: `bytes` is what host memory returns. -/
def execDmaDescriptorFetch (c : Nat) (bytes : List Byte) (s : State) : Out := .next (chanFetch s c bytes)

/-- DMA_RING_POLL: an idle channel reads its slot again (R349). -/
def execDmaRingPoll (c : Nat) (bytes : List Byte) (s : State) : Out :=
  let k := s.chan c
  if !k.started || !k.empty || s.rd (F_DMA_C_RING_SIZE_POLL c) = 0 || s.up < k.pollAt then .next s
  else .next (chanFetch (s.modChan c (fun y => { y with empty := false })) c bytes)

/-- A paced transfer takes one credit (R360). -/
def paceTake (s : State) (c : Nat) : State :=
  if (match (s.chan c).xfer with | some x => x.head.f 18 2 % 2 == 1 | none => false) then
    s.wr (F_DMA_C_PACE_CREDIT c) (s.rd (F_DMA_C_PACE_CREDIT c) - 1)
  else s

/-- DMA_TRANSFER_RELEASE: pacing lets the waiting transfer go (R360). -/
def execDmaTransferRelease (c : Nat) (s : State) : Out :=
  if s.err.contained || !mayRelease s c then .next s
  else .next (xferRelease (paceTake s c) c)

/-- DMA_BURST: one burst of a group; `data` is what a read of host memory returns, `ue` an uncorrectable word met. -/
def execDmaBurst (g : Nat) (data : List Byte) (ue : Bool) (s : State) : Out :=
  let s1 := crRetry (grpContain s g) (fun k => k / 16 == g && k < 128)
  .next (grpBurst (waitMem s1 g) g data ue)

/-- One retry more of a channel. -/
def dmaRetry (s : State) (c : Nat) : State := s.bump (F_DMA_C_COUNTS_RETRIES c)

/-- The address of the access that fails. -/
def failAddr (s : State) (x : Xfer) : Nat :=
  match readPlan s x, writePlan s x with
  | some (_, a, _), _ => a
  | none, some (_, a, _, _) => a
  | none, none => 0

/-- A data access fails: it is issued again, or ends the transfer (R364). -/
def dataFail (s : State) (c : Nat) (x : Xfer) : State :=
  if x.released.isNone || x.endSt.isSome || x.whole || x.cur.isNone then s
  else if x.tries < s.rd F_DMA_RETRY_COUNT then
    (dmaRetry s c).modXfer c (fun y => { y with tries := y.tries + 1, retries := y.retries + 1 })
  else
    let s1 := s.wr64 (R_DMA_C_ERR_ADDR_LO c) (R_DMA_C_ERR_ADDR_HI c) (failAddr s x)
    xferStop (s1.raise 10 0x01 0 (resIndex c) 0 (grpMaster c)) c 2

/-- A descriptor fetch fails (R365). -/
def fetchFail (s : State) (c : Nat) : State :=
  let k := s.chan c
  let chained := match k.xfer with | some x => x.released.isSome && x.cur.isNone && x.endSt.isNone | none => false
  if !chained && (!k.started || k.empty || k.ahead.length ≥ 4) then s
  else if k.fetchTries < s.rd F_DMA_RETRY_COUNT then (dmaRetry s c).modChan c (fun y => { y with fetchTries := y.fetchTries + 1 })
  else if !chained && k.xfer.isSome then s
  else closeCheck (chanHalt (xferDrop (s.modChan c (fun y => { y with fetchTries := 0 })) c) c 9 k.fetchTries 0) c

/-- A write-back to a ring in internal memory fails (R365). -/
def backFail (s : State) (c : Nat) (x : Xfer) : State :=
  if x.index.isNone || !(x.endSt.isSome || x.whole) || ringSpace s c ≠ 0 then s
  else if x.tries < s.rd F_DMA_RETRY_COUNT then
    (dmaRetry s c).modXfer c (fun y => { y with tries := y.tries + 1, retries := y.retries + 1 })
  else
    let late := xferLate s c x
    let s1 := (xferCount s c late).wr64 (R_DMA_C_LAST_LEN_LO c) (R_DMA_C_LAST_LEN_HI c) x.doneLen
    let s2 := (s1.setReg (R_DMA_C_LAST_CTRL c) (BitVec.ofNat 32 (backCtrl x x.status late))).raise 10 0x03 0 (resIndex c) 0 (grpMaster c)
    let cause := match x.status with | 1 => 1 | 2 => 2 | 3 => 3 | 6 => 4 | _ => 0
    let s3 := s2.modChan c (fun k => { k with xfer := none, crc := x.crc })
    let s4 := chanHalt s3 c cause x.retries x.status true
    closeCheck (s4.wr (F_DMA_C_STATE_INDEX c) (nextIndex s c (s.rd (F_DMA_C_STATE_INDEX c)))) c

/-- DMA_READ_FAIL: an access of a channel fails. -/
def execDmaReadFail (c : Nat) (what : DmaFail) (s : State) : Out :=
  match what, (s.chan c).xfer with
  | .data, some x => .next (dataFail s c x)
  | .data, none => .next s
  | .fetch, _ => .next (fetchFail s c)
  | .writeBack, some x => .next (backFail s c x)
  | .writeBack, none => .next s

/-- The transfer in hand ends with its status; a claim read to its end may be released. -/
def xferFinish (s : State) (c : Nat) (x : Xfer) : State :=
  let s1 := xferEnd s c x.status
  afterEnd (if x.status = 0 ∨ x.status = 4 then claimAfter s1 x.claim else s1) c x.status x.retries x.index

/-- DMA_TRANSFER_COMPLETE: the transfer in hand is at its end and is written back, or replied to (R351). -/
def execDmaTransferComplete (c : Nat) (s : State) : Out :=
  match (s.chan c).xfer with
  | none => .next s
  | some x =>
    if !(x.endSt.isSome || x.whole) then .next s
    else if x.index.isSome && s.err.contained then .next (haltNow s c 8)
    else if x.index.isSome && needsMem (ringSpace s c) (ringAddr s c 0) && !s.domOn .memc then .next s
    else .next (xferFinish s c x)

end Sys2Proof.Machine
end

