-- ==== Sys2Proof/Machine/Cmp.lean ====
section
/-!
DEFINITION. The commands of the compression block (chapter 13).
-/

namespace Sys2Proof.Machine

/-! ### CMP_JOB -/

def cjList (p : Packet) : Nat := pf p 9 0 11
def cjChan (p : Packet) : Nat := pf p 2 8 7
def cjLen (p : Packet) : Nat := pdw p 5 + pf p 6 0 8 * 4294967296
def cjPart (p : Packet) : Nat := pf p 2 5 2

/-- An output list, as host memory returned it or from internal memory. -/
def listOf (s : State) (host : Bool) (addr n : Nat) (buf : List Byte) : Option (List OutEnt) :=
  parseList n (if host then (List.range (16 * n)).map (fun i => buf.getD i 0) else s.dramRead addr (16 * n))

/-- The list a CMP_JOB names, and where its input begins in what host memory returned. -/
def cjEnts (p : Packet) (s : State) : Option (List OutEnt) := listOf s (pb p 2 16) (pq p 7) (cjList p) p.buf

/-- Every entry of a list lies where the context may write (R347). -/
def entsOk (s : State) (ctx : Nat) (l : List OutEnt) : Bool := l.all (fun e => mayAccess s ctx e.space e.addr e.len true)

/-- Table 13.11, R347, R370. -/
def cjValid (p : Packet) (s : State) : Bool :=
  let part := cjPart p
  let ctx := pCtx p
  pf p 2 1 2 != 3 && decide (1 ≤ cjList p ∧ cjList p ≤ 1024) && ((part == 0) == (pf p 2 20 12 == 0)) && (part == 0 || pb p 2 7)
    && mayAccess s ctx (pf p 2 16 1) (pq p 7) (16 * cjList p) false
    && (cjLen p == 0 || mayAccess s ctx (pf p 2 15 1) (pq p 3) (cjLen p) false)
    && (!pb p 2 7 || part ≥ 2 || (mayAccess s ctx 0 (pq p 10) 40960 true && needsMem 0 (pq p 10)))
    && (match cjEnts p s with | some l => entsOk s ctx l | none => false)

/-- Input of a CMP_JOB with its poison. -/
def cjInput (p : Packet) (s : State) : List (Byte × Bool) × State :=
  if pb p 2 15 then
    let o := if pb p 2 16 then 16 * cjList p else 0
    ((List.range (cjLen p)).map (fun i => (p.buf.getD (o + i) 0, false)), s)
  else internalRead s (cjChan p) (pq p 3) (cjLen p)

/-- The job that a CMP_JOB asks for. -/
def cjJob (p : Packet) (s : State) : CmpJob :=
  let r := cjInput p s
  { id := s.cmp.nextId, ctx := pCtx p, func := p.func, cmd := some (p.qid, pTag p), stream := pf p 2 20 12,
    part := cjPart p, save := pb p 2 7, saveAddr := pq p 10, chan := cjChan p, engine := none, state := 0,
    inp := r.1.map (fun b => b.1), inHost := pb p 2 15, resumed := false, list := (cjEnts p s).getD [], inN := 0,
    outN := 0, outq := [], produced := false, st := CmpState.new (pf p 2 0 1) (pf p 2 1 2) (pf p 2 3 2),
    abort := false, suspend := false, poisoned := r.1.any (fun b => b.2), claim := none, at_ := s.up }

/-- CMP_JOB. -/
def execCmpJob (p : Packet) (s : State) : Out :=
  fcpStep { op := 0x70, permit := fun p s => s.on (F_DMA_C_CFG_OPEN (cjChan p)) && chCtx s (cjChan p) == pCtx p,
            aligned := fun p _ => pq p 3 % 64 == 0 && pq p 7 % 64 == 0 && (!pb p 2 7 || cjPart p ≥ 2 || pq p 10 % 64 == 0),
            valid := cjValid, allowed := fun _ s => s.inRecord,
            run := fun p s => withCon p s (fun k =>
              if k.broken then fSt .contractBroken s
              else .wait .cmpJob (cjJob p s).id 0 (jobQueue (cjInput p s).2 (cjJob p s))) }
    p s

/-! ### Running -/

/-- The job on an engine. -/
def jobOn (s : State) (e : Nat) : Option CmpJob := s.cmp.jobs.find? (fun j => j.engine == some e && j.state == 1)

/-- The bytes of host memory that a job's run read and wrote, from the job before and after. -/
def hostMoved (a b : CmpJob) : Nat × Nat :=
  let left (j : CmpJob) := ((j.list.filter (fun e => e.space == 1)).map (fun e => e.len)).foldl (· + ·) 0
  (left a - left b, if a.inHost then b.inN - a.inN else 0)

/-- The tokens of a job's context cover what a run moves to and from host memory (R361). -/
def tokensFor (s : State) (j : CmpJob) (m : Nat × Nat) : Bool :=
  let b := bucketNow s j.ctx
  let d := match contractOf s j.ctx with | some k => (k.f 10 0 32, k.f 11 0 32) | none => (0, 0)
  !(b.d2h < min (1000 * m.1) (bucketDepth d.1) || b.h2d < min (1000 * m.2) (bucketDepth d.2))

/-- What a run of a job leaves: tokens taken, the engine's counts, what follows for the job. -/
def runSettle (e : Nat) (j : CmpJob) (r : State × CmpJob × CmpEnd) : State :=
  let m := hostMoved j r.2.1
  let s1 := if m = (0, 0) then r.1 else bucketTake r.1 j.ctx m.1 m.2
  jobSettle (cmpCount s1 e (r.2.1.inN - j.inN) (r.2.1.outN - j.outN), r.2.1, r.2.2)

/-- A run of a job: held back while its context's tokens do not cover what it moves to and from host memory (R361); the
engine's counts; what follows for the job, when that is what `want` waits for. -/
def cmpRun (s : State) (e : Nat) (n : Nat → Nat) (want : CmpEnd → Bool) : State :=
  match jobOn s e with
  | none => s
  | some j =>
    let r := cmpBlocks (n (j.inp.length + j.st.inp.length + 4)) s j
    if !want r.2.2 || !tokensFor s j (hostMoved j r.2.1) then s else runSettle e j r

/-- CMP_BLOCK_BOUNDARY: the job of an engine comes to the end of a block within its part (R373). -/
def execCmpBlockBoundary (e : Nat) (s : State) : Out :=
  .next (cmpKick (cmpRun (cmpKick s) e (fun _ => 1) (fun r => r == .going)))

/-- CMP_JOB_END: the job of an engine comes to the end of its part, or to a fault (R368, R369). -/
def execCmpJobEnd (e : Nat) (s : State) : Out :=
  .next (cmpKick (cmpRun (cmpKick s) e id (fun r => match r with | .done => true | .fault _ => true | _ => false)))

/-- CMP_LIST_EXHAUSTED: the output list of an engine's job runs out (R372). -/
def execCmpListExhausted (e : Nat) (s : State) : Out :=
  .next (cmpKick (cmpRun (cmpKick s) e id (fun r => r == .full)))

/-! ### The other opcodes -/

def cmpJobOf (s : State) (id : Nat) : Option CmpJob := s.cmp.jobs.find? (fun j => j.id == id)

/-- The list of a CMP_RESUME. -/
def crsEnts (p : Packet) (s : State) : Option (List OutEnt) := listOf s (pb p 2 16) (pq p 3) (pf p 5 0 11) p.buf

/-- A suspended job takes its new list (R372). -/
def resumeJob (p : Packet) (s : State) (j : CmpJob) : State :=
  let st := if j.st.op = 1 then { j.st with inTotal := j.st.inTotal + j.inN } else j.st
  cmpKick (cmpRefresh (setJob s { j with
    cmd := some (p.qid, pTag p), list := (crsEnts p s).getD [], inN := 0, outN := 0, st := st,
    state := if j.state = 2 then 1 else 0, resumed := j.state == 3 }))

/-- CMP_RESUME. -/
def execCmpResume (p : Packet) (s : State) : Out :=
  fcpStep { op := 0x71,
            permit := fun p s => match cmpJobOf s (pf p 2 0 12) with | some j => j.ctx == pCtx p | none => true,
            aligned := fun p _ => pq p 3 % 64 == 0,
            valid := fun p s =>
              (match cmpJobOf s (pf p 2 0 12) with | some j => j.state ≥ 2 | none => false)
                && decide (1 ≤ pf p 5 0 11 ∧ pf p 5 0 11 ≤ 1024)
                && mayAccess s (pCtx p) (pf p 2 16 1) (pq p 3) (16 * pf p 5 0 11) false
                && (match crsEnts p s with | some l => entsOk s (pCtx p) l | none => false),
            allowed := fun _ s => s.inRecord,
            run := fun p s => withCon p s (fun _ =>
              match cmpJobOf s (pf p 2 0 12) with
              | none => fSt .badParam s
              | some j => .wait .cmpJob j.id 0 (resumeJob p s j)) } p s

/-- A job that a CMP_ABORT names. -/
def abHit (p : Packet) (j : CmpJob) : Bool :=
  if pb p 2 31 then j.ctx == pCtx p && j.part != 0 && j.stream == pf p 2 16 12 else j.id == pf p 2 0 12

/-- The jobs that a CMP_ABORT names leave, and the streams with them. -/
def abortJobs (p : Packet) (s : State) : State :=
  let js := s.cmp.jobs.filter (abHit p)
  let s1 := js.foldl (fun t j => jobLeave t j (jobReply j .aborted j.eng false false 0)) s
  cmpKick (s1.modCmp (fun c => { c with streams := c.streams.filter (fun x => !(x.ctx == pCtx p
    && ((pb p 2 31 && x.no == pf p 2 16 12) || js.any (fun j => j.part != 0 && j.stream == x.no)))) }))

/-- CMP_ABORT: jobs, or a stream with its jobs, end (R373). -/
def execCmpAbort (p : Packet) (s : State) : Out :=
  fcpStep { op := 0x72,
            permit := fun p s => pb p 2 31 || (match cmpJobOf s (pf p 2 0 12) with | some j => j.ctx == pCtx p | none => true),
            valid := fun p s => s.cmp.jobs.any (abHit p)
              || (pb p 2 31 && s.cmp.streams.any (fun x => x.ctx == pCtx p && x.no == pf p 2 16 12)),
            run := fun p s => withCon p s (fun _ => .final (okR (s.cmp.jobs.filter (abHit p)).length 0 0 0) (abortJobs p s)) } p s

/-- CMP_STATUS: with the domain off its registers read 0 (R532). -/
def execCmpStatus (p : Packet) (s : State) : Out :=
  fcpStep { op := 0x73,
            run := fun p s => withCon p s (fun _ =>
              let e := pf p 2 0 3
              if s.dom .cmp = 0 then .final (okR 0 0 0 0) s
              else .final (okR (s.reg (R_CMP_E_STATUS e)).toNat (s.reg (R_CMP_E_IN_LO e)).toNat (s.reg (R_CMP_E_OUT_LO e)).toNat
                (s.reg R_CMP_STATUS).toNat) s) } p s

/-- A write of CMP_CTRL. -/
def cmpCtrlWrite (v : Nat) (s : State) : State :=
  if v.testBit 0 then
    s.zeroFields (F_CMP_EXPIRED_COUNT :: (List.range 8).flatMap (fun e =>
      [F_CMP_E_IN_LO_BYTES e, F_CMP_E_IN_HI_BYTES e, F_CMP_E_OUT_LO_BYTES e, F_CMP_E_OUT_HI_BYTES e, F_CMP_E_ERRORS_DATA e,
       F_CMP_E_ERRORS_FAULT e]))
  else s

/-- CMP_CLR_COUNTERS. -/
def execCmpClrCounters (m : Nat) (v : Word) (s : State) : Out := .next (s.writeBy m R_CMP_CTRL (cmpCtrlWrite v.toNat))

/-- The stream of a job that ends for good is gone with it. -/
def dropStream (s : State) (j : CmpJob) : State :=
  s.modCmp (fun c => { c with streams := c.streams.filter (fun x => !(x.ctx == j.ctx && x.no == j.stream && j.part != 0)) })

/-- A suspended job expires: aborted, counted, recorded, its context told. -/
def jobExpire (s : State) (j : CmpJob) (id : Nat) : State :=
  let s1 := (dropStream (jobLeave s j { st := .aborted }) j).bump F_CMP_EXPIRED_COUNT
  cmpKick ((s1.raise 11 0x03 0 (resIndex id) 0).postEvent j.ctx 0x0B01 [id, j.stream])

/-- CMP_SUSPEND_EXPIRY: a job has been suspended for CMP_SUSPEND_MAX seconds (R372). -/
def execCmpSuspendExpiry (id : Nat) (s : State) : Out :=
  match cmpJobOf s id with
  | none => .next s
  | some j =>
    let lim := s.rd F_CMP_SUSPEND_MAX_S
    if j.state < 2 ∨ lim = 0 ∨ s.up < j.at_ + lim * 1000000000 then .next s
    else .next (jobExpire s j id)

/-- An engine leaves service: recorded, counted, its job ends with HW_ERROR (R374). -/
def cmpEngineOut (s : State) (e : Nat) : State :=
  let s1 := (s.raise 11 0x01 2 (resIndex e) 0).bump (F_CMP_E_ERRORS_FAULT e)
  let s2 := s1.wr F_CMP_STATUS_AVAIL (s.rd F_CMP_STATUS_AVAIL - 2 ^ e)
  let s3 := match s.cmp.jobs.find? (fun j => j.engine == some e) with
    | some j => dropStream (jobLeave s2 j (jobReply j .hwError e false false 0)) j
    | none => s2
  cmpKick (wantRerun (cmpRefresh s3) 4)

/-- CMP_ENGINE_FAULT: an uncorrectable error inside an engine (R374). -/
def execCmpEngineFault (e : Nat) (s : State) : Out :=
  if e ≥ 8 ∨ s.dom .cmp ≠ 2 ∨ (s.rd F_CMP_STATUS_AVAIL >>> e) % 2 = 0 then .next s
  else .next (cmpEngineOut s e)

end Sys2Proof.Machine
end

