-- ==== Sys2Proof/Machine/Dfu.lean ====
section
/-!
DEFINITION. The filter units' opcodes (R93), commits and DSYNCs (R72, R82), anchoring (R74), and temperature (R71).
-/

namespace Sys2Proof.Machine

/-- Whether a capture is armed: the units run (R90). -/
def dfuArmed (s : State) : Bool := s.on F_JIN_STATUS_ARMED

/-- The units of a mask. -/
def unitsOf (mask : Nat) : List Nat := (List.range 12).filter (fun u => (mask >>> u) % 2 == 1)

/-- A mode of Table 3.2 with a format it allows (R67, R75). -/
def fmtValid (mode fmt : Nat) : Bool :=
  match mode with
  | 0 | 1 | 2 => fmt < 2
  | 3 => fmt == 1 || fmt == 2
  | 4 => fmt < 3
  | _ => false

/-- An entry of Table 3.2 with a format it allows. -/
def modeValid (mode fmt d a b : Nat) : Bool :=
  fmtValid mode fmt && (match mode with
  | 0 => decide (1 ≤ d ∧ d ≤ 1048576)
  | 1 | 2 => decide (2 ≤ d ∧ d ≤ 1048576)
  | 3 => (List.range 16).any (fun k => d == 2 ^ (k + 1))
  | _ => decide (a ≤ 16 ∧ b ≤ 2 ∧ a + b ≥ 1))

/-- DFU_MODE on one unit: its mode, derived figures, histories cleared. -/
def modeUnit (p : Packet) (t : State) (u : Nat) : State :=
  let t1 := t.wrs [(F_DFU_MODE_DEC_MODE u, pf p 2 12 3), (F_DFU_MODE_FMT u, pf p 2 15 2),
    (F_DFU_MODE_SHARP u, pf p 2 17 1), (F_DFU_MODE_INPUT_EN u, pf p 2 18 4)]
  let t2 := if pf p 2 12 3 = 4 then t1.wrs [(F_DFU_MODE_A u, pf p 3 0 5), (F_DFU_MODE_B u, pf p 3 8 2)]
    else t1.wr (F_DFU_DEC_FACTOR_D u) (pdw p 3)
  dsyncUnit (dfuDerive t2 u) u

/-- DFU_MODE. -/
def execDfuMode (p : Packet) (s : State) : Out :=
  fcpStep { op := 0x28, pfOnly := true, dom := some .intake,
            valid := fun p _ => modeValid (pf p 2 12 3) (pf p 2 15 2) (pdw p 3) (pf p 3 0 5) (pf p 3 8 2)
              && (pf p 2 12 3 != 4 || pdw p 3 == pf p 3 0 5 + 256 * pf p 3 8 2),
            allowed := fun _ s => !dfuArmed s,
            run := fun p s =>
              let us := unitsOf (pf p 2 0 12)
              let t := us.foldl (modeUnit p) s
              let u0 := us.headD 0
              .final (okR (t.rd (F_DFU_SETTLE_SPAN u0)) (t.rd (F_DFU_GROUP_DELAY_GD u0)) 0 0) t } p s

/-- The shadows that DFU_CORR writes, and the saved set it may keep. -/
def corrShadows (p : Packet) (s : State) : State :=
  let u := pf p 2 0 4
  let t1 := ((List.range 4).filter (fun m => pb p 2 (4 + m))).foldl (fun t m =>
    (t.setReg (R_DFU_M_OG u m) (p.dws.getD (3 + 2 * m) 0)).setReg (R_DFU_M_SKEW u m) (p.dws.getD (4 + 2 * m) 0)) s
  let t2 := t1.wr (F_DFU_TEMP_T_REF u) (pf p 11 0 16)
  if pb p 2 9 then t2.modDu u (fun d => { d with saved := some (savedSet t2 u) }) else t2

/-- DFU_CORR: shadows, perhaps a commit, perhaps a saved set. -/
def execDfuCorr (p : Packet) (s : State) : Out :=
  fcpStep { op := 0x29, pfOnly := true, dom := some .intake, valid := fun p _ => pf p 2 0 4 ≤ 11,
            run := fun p s =>
              let u := pf p 2 0 4
              let t3 := corrShadows p s
              if !pb p 2 8 then fOk t3
              else if t3.on F_JIN_STATUS_ALIGNED then .wait .corr u 0 (corrCommit t3 (2 ^ u))
              else
                let t4 := corrCommit t3 (2 ^ u)
                let idx := t4.rd64 (R_DFU_CORR_APPLIED_IDX_LO u) (R_DFU_CORR_APPLIED_IDX_HI u)
                let ts := t4.rdTs (R_DFU_CORR_APPLIED_W u 0)
                .final (okR idx (idx / ns1) (ts / ns1) (ts / ns1 / ns1)) t4 } p s

/-- DFU_SYNC: the DSYNC of R82; it completes when the write has been made. -/
def execDfuSync (p : Packet) (s : State) : Out :=
  fcpStep { op := 0x2A, pfOnly := true, dom := some .intake, allowed := fun _ s => !dfuArmed s,
            run := fun p s => fOk (dsyncGo s (pf p 2 0 12)) } p s

/-- DFU_PRESET. -/
def execDfuPreset (p : Packet) (s : State) : Out :=
  fcpStep { op := 0x2B, pfOnly := true, dom := some .intake,
            valid := fun p s => pf p 2 12 4 ≤ 3
              && (pf p 2 12 4 != 2 || (unitsOf (pf p 2 0 12)).all (fun u => (s.du u).saved.isSome)),
            allowed := fun p s => !(dfuArmed s && (pf p 2 12 4 == 0 || pf p 2 12 4 == 3)),
            run := fun p s => fOk ((unitsOf (pf p 2 0 12)).foldl (fun t u => applyPreset t u (pf p 2 12 4)) s) } p s

/-- The resampler of a unit as RESAMPLE_CFG sets it: LOCK, MAXDEV and NOMINAL wait for a synchronous cycle start; unless armed
the histories clear (R90). -/
def rsCfg (p : Packet) (s : State) : State :=
  let u := pf p 2 0 4
  let t := s.wrs [(F_DFU_RS_CTRL_EN u, pf p 2 4 1), (F_DFU_RS_CTRL_FUND_SRC u, pf p 2 5 3),
    (F_DFU_RS_CTRL_N_CODE u, pf p 2 8 3), (F_DFU_RS_CTRL_LOCK u, pf p 2 11 1), (F_DFU_RS_CTRL_SRC u, pf p 2 12 1),
    (F_DFU_RS_CTRL_HB u, pf p 2 13 4), (F_DFU_RS_MAXDEV_MAXDEV u, pf p 3 0 10),
    (F_DFU_RS_NOMINAL_LO_P_LO u, pdw p 4), (F_DFU_RS_NOMINAL_HI_P_HI u, pf p 5 0 8)]
  if s.on F_JIN_STATUS_ARMED then t else dsyncUnit t u

/-- The fields that are frozen while armed keep their values (R90). -/
def rsFrozenSame (p : Packet) (s : State) : Bool :=
  let u := pf p 2 0 4
  s.rd (F_DFU_RS_CTRL_EN u) == pf p 2 4 1 && s.rd (F_DFU_RS_CTRL_FUND_SRC u) == pf p 2 5 3
    && s.rd (F_DFU_RS_CTRL_N_CODE u) == pf p 2 8 3 && s.rd (F_DFU_RS_CTRL_SRC u) == pf p 2 12 1
    && s.rd (F_DFU_RS_CTRL_HB u) == pf p 2 13 4

/-- Whether NOMINAL gives a step within the limits (R88). -/
def rsStepOk (p : Packet) (s : State) : Bool :=
  let st := rsStep (rsCfg p s) (pf p 2 0 4) (pdw p 4 + pf p 5 0 8 * ns1) 0 false
  decide (stepMin ≤ st ∧ st ≤ stepMax)

/-- RESAMPLE_CFG. -/
def execResampleCfg (p : Packet) (s : State) : Out :=
  fcpStep { op := 0x2C, pfOnly := true, dom := some .intake,
            valid := fun p s => pf p 2 0 4 ≤ 11 && pf p 2 13 4 ≤ 12
              && rsStepOk p s,
            allowed := fun p s => !dfuArmed s || rsFrozenSame p s,
            run := fun p s =>
              let u := pf p 2 0 4
              .final (okR (s.reg (R_DFU_RS_STEP_LO u)).toNat (s.reg (R_DFU_RS_STEP_HI u)).toNat 0 0) (rsCfg p s) } p s

/-- The counters of a unit (CLR_COUNTERS, CLEAR). -/
def dfuCounters (u : Nat) : List Fld :=
  (List.range 4).map (F_DFU_I_SAT_COUNT u) ++ [F_DFU_RS_COUNTS_REJECTED u, F_DFU_RS_COUNTS_COAST u]

/-- DFU_STATUS. -/
def execDfuStatus (p : Packet) (s : State) : Out :=
  fcpStep { op := 0x2D, dom := some .intake, valid := fun p _ => pf p 2 0 4 ≤ 11,
            run := fun p s =>
              let u := pf p 2 0 4
              .final (okR (s.reg (R_DFU_STATUS u)).toNat
                  (((List.range 4).map (fun i => s.rd (F_DFU_I_SAT_COUNT u i))).foldl (satAdd 32) 0)
                  (s.reg (R_DFU_RS_COUNTS u)).toNat (s.reg (R_DFU_RS_CYCLE_LO u)).toNat)
                (if pb p 2 8 then s.zeroFields (dfuCounters u) else s) } p s

/-- DFU_ANCHOR: with READ it waits for a window to close, at most 10 s. -/
def execDfuAnchor (p : Packet) (s : State) : Out :=
  fcpStep { op := 0x2E, pfOnly := true, dom := some .intake, valid := fun p _ => pf p 2 0 4 ≤ 11,
            run := fun p s =>
              let u := pf p 2 0 4
              let m := pf p 2 6 2
              let t := s.wr (F_DFU_CTRL_ANCHOR_EN u) (pf p 2 4 1)
              if !pb p 2 8 then fOk t
              else if t.on (F_DFU_STATUS_ANCHOR_READY u) then
                .final (anchReply t u m) (t.wr (F_DFU_STATUS_ANCHOR_READY u) 0)
              else .wait .anchor u ((t.up + 10000000000) * 4 + m) t } p s

/-! ### Register writes with an effect, and events -/

/-- DFU_CORR_COMMIT_GO. -/
def execDfuCorrCommitGo (m : Nat) (v : Word) (s : State) : Out :=
  .next (s.writeBy m (R_DFU_CORR_COMMIT) (fun t => corrCommit t (v.toNat % 4096)))

/-- DFU_SYNC_GO_WRITE. -/
def execDfuSyncGoWrite (m : Nat) (v : Word) (s : State) : Out :=
  .next (s.writeBy m (R_DFU_SYNC) (fun t => dsyncGo t (v.toNat % 4096)))

/-- A write of DFU_CTRL of a unit. -/
def dfuCtrlWrite (u v : Nat) (s : State) : State :=
  let s1 := plainWrite s (R_DFU_CTRL u) (dfuArmed s) (F_DFU_STATUS_WRITE_REFUSED u) v
  if v.testBit 1 then s1.zeroFields (dfuCounters u) else s1

/-- DFU_CLR_COUNTERS of a unit. -/
def execDfuClrCounters (m u : Nat) (v : Word) (s : State) : Out :=
  if 12 ≤ u then .next s else .next (s.writeBy m (R_DFU_CTRL u) (dfuCtrlWrite u v.toNat))

/-- Whether an LEMC edge has passed since a count of them, or there are none (R8, R72, R82). -/
def edgePassed (s : State) (n : Nat) : Bool := !s.on F_JIN_STATUS_ALIGNED || lemcEdges s s.now != n

/-- CORR_APPLY: an LEMC edge with commits pending; all of them apply together (R72). -/
def execCorrApply (s : State) : Out :=
  if !s.domOn .intake then .next s
  else .next (((List.range 12).filter (fun u => s.on (F_DFU_STATUS_CORR_PENDING u) && edgePassed s (s.du u).corrEdge)).foldl corrApplyUnit s)

/-- DSYNC_APPLY: an LEMC edge with DSYNCs pending; all of them act together (R82). -/
def execDsyncApply (s : State) : Out :=
  if !s.domOn .intake then .next s
  else .next (((List.range 12).filter (fun u => (s.du u).syncPend && edgePassed s (s.du u).syncEdge)).foldl dsyncUnit s)

/-- DFU_TEMP_UPDATE: PMU delivers T_NOW; the new SKEW_EFF takes effect at the next LEMC edge, at once where there is
none (R71). -/
def execDfuTempUpdate (t : Nat) (s : State) : Out :=
  if !s.domOn .intake then .next s
  else .next ((List.range 12).foldl (fun a u =>
    let b := a.wr (F_DFU_TEMP_T_NOW u) (t % 65536)
    let l := (List.range 4).map (skewEff b u)
    if b.on F_JIN_STATUS_ALIGNED then b.modDu u (fun d => { d with skewPend := some l }) else setSkewEff b u l) s)

/-- Put pending temperature corrections into effect at an LEMC edge (R71). -/
def skewAtEdge (s : State) : State :=
  (List.range 12).foldl (fun a u =>
    match (a.du u).skewPend with
    | none => a
    | some l => (setSkewEff a u l).modDu u (fun d => { d with skewPend := none })) s

/-- A step limited, and whether it was clipped (R74 step 6). -/
def clipStep (x lim : Int) : Int × Bool :=
  if x > lim then (lim, true) else if x < -lim then (-lim, true) else (x, false)

/-- SUM_m / COUNT_m and SUMSQ_m / COUNT_m of a closed window. -/
def accMean (s : State) (u m : Nat) : Int × Nat :=
  (sext 48 (s.rd64 (R_DFU_M_ACC_SUM_LO u m) (R_DFU_M_ACC_SUM_HI u m)), s.rd (F_DFU_M_ACC_COUNT_VALUE u m))
def accSq (s : State) (u m : Nat) : Nat := s.rd64 (R_DFU_M_ACC_SUMSQ_LO u m) (R_DFU_M_ACC_SUMSQ_HI u m)

/-- The members of the interleave group of a member. -/
def groupOf (s : State) (u m : Nat) : List Nat :=
  ((groupsOf (unitMode s u)).find? (fun g => m ∈ g)).getD [m]

/-- ΔGAIN of step 5 of R74: GAIN × √(mean of SUMSQ/COUNT over members ÷ SUMSQ_m/COUNT_m), smoothed by α. The root is
taken to 2^-16. -/
def gainEqual (s : State) (u m : Nat) (gain : Nat) : Int :=
  let g := groupOf s u m
  let own := accSq s u m
  let cnt := (accMean s u m).2
  if g.length < 2 || own = 0 || cnt = 0 then 0
  else
    let avg16 := (g.map (fun k => accSq s u k * 65536 / max 1 (accMean s u k).2)).foldl (· + ·) 0 / g.length
    let r := isqrt (gain * gain * avg16 * cnt / own * 65536)
    roundNE ((r : Int) - gain * 65536) (8 * 65536)

/-- ΔOFS of a member with a target (R74 steps 2 and 3). -/
def ofsStep (s : State) (u m : Nat) (gain : Nat) : Int :=
  match (s.du u).targ.getD m none with
  | none => 0
  | some (tn, td, _) =>
    let (sum, cnt) := accMean s u m
    roundNE ((sum * td - tn * cnt) * 32768) (8 * cnt * td * max 1 gain)

/-- A window at one of two levels of the calibration source is kept for the gain of its member (R74 step 4). -/
def anchLevel (s : State) (u m : Nat) : State :=
  match (s.du u).targ.getD m none with
  | some (tn, td, lvl + 1) =>
    let (sum, cnt) := accMean s u m
    s.modDu u (fun d => { d with levels := listMod d.levels (3 * m + lvl + 1) (fun _ => some (tn, td, sum, cnt)) })
  | _ => s

/-- ΔGAIN of step 4 of R74 for a member that alternates between two levels: GAIN × (t_hi − t_lo) / (mean_hi − mean_lo), smoothed
by α. -/
def gainLevel (s : State) (u m : Nat) (gain : Nat) : Int :=
  let two := match (s.du u).targ.getD m none with
    | some (_, _, lvl) => lvl != 0
    | none => false
  match (s.du u).levels.getD (3 * m + 1) none, (s.du u).levels.getD (3 * m + 2) none with
  | some (ah, bh, mh, ch), some (al, bl, ml, cl) =>
    let num := (ah * bl - al * bh) * ch * cl
    let den := (mh * cl - ml * ch) * bh * bl
    if den = 0 || !two then 0
    else
      let n2 := gain * (num - den)
      if den > 0 then roundNE n2 (8 * den.toNat) else roundNE (-n2) (8 * (-den).toNat)
  | _, _ => 0

/-- One member's update: new OFS and GAIN shadows and whether the update was clipped, by one limit for the whole step of GAIN
(R74 steps 2 to 6). DESIGN CHOICE (log entry 39): the smoothed gains of steps 4 and 5 are rounded to a GAIN LSB to nearest, ties
to even; R74 gives a rounding for OFS only. -/
def anchorMember (s : State) (u m : Nat) : State × Bool :=
  let gain := s.rd (F_DFU_M_OG_GAIN u m)
  let ofs := sext 16 (s.rd (F_DFU_M_OG_OFS u m))
  let g4 := ((gain : Int) + gainLevel s u m gain).toNat
  let (dO, c1) := clipStep (ofsStep s u m gain) 64
  let (dG, c2) := clipStep ((g4 : Int) - gain + gainEqual s u m g4) 32
  ((s.wr (F_DFU_M_OG_OFS u m) (wrapTo 16 (satTo 16 (ofs + dO)))).wr (F_DFU_M_OG_GAIN u m) ((max 0 (min 65535 (gain + dG))).toNat), c1 || c2)

/-- The members of a unit that have a target. -/
def anchMembers (s : State) (u : Nat) : List Nat := (List.range 4).filter (fun m => ((s.du u).targ.getD m none).isSome)

/-- The members that an update moves: those with a target, and every member of an interleave group that holds one (R74 step 5). -/
def anchScope (s : State) (u : Nat) : List Nat :=
  (List.range 4).filter (fun m => (groupOf s u m).any (fun k => (anchMembers s u).contains k))

/-- A closed window is discarded: a member without conversions, or with more than 1 % excluded (R74). -/
def anchBad (s : State) (u : Nat) : Bool :=
  (anchMembers s u).any (fun m => s.rd (F_DFU_M_ACC_COUNT_EXCL_VALUE u m) * 100 > (accMean s u m).2 || (accMean s u m).2 == 0)

/-- A window that counts is worked off; whether a step was clipped. -/
def anchAll (s : State) (u : Nat) : State × Bool :=
  let s1 := (s.wr (F_DFU_STATUS_ANCHOR_READY u) 0).modDu u (fun d => { d with discards := 0 })
  (anchScope s u).foldl (fun (a : State × Bool) m =>
    let r := anchorMember a.1 u m
    (r.1, a.2 || r.2)) ((anchMembers s u).foldl (fun t m => anchLevel t u m) s1, false)

/-- ANCHOR_UPDATE: firmware works off a closed window of a unit (R74); three windows discarded in a row bring back
LAST_GOOD (Table 3.4). In Containment firmware stops anchoring. -/
def execAnchorUpdate (u : Nat) (s : State) : Out :=
  if !s.domOn .intake || s.err.contained || u ≥ 12 || !s.on (F_DFU_STATUS_ANCHOR_READY u) then .next s
  else
    let s0 := s.wr (F_DFU_STATUS_ANCHOR_READY u) 0
    if anchMembers s u = [] then .next s0
    else if anchBad s u then
      let n := (s.du u).discards + 1
      let s1 := s0.modDu u (fun d => { d with discards := n % 3 })
      .next (if n = 3 && (s.du u).saved.isSome then applyPreset s1 u 2 else s1)
    else
      let r := anchAll s u
      .next (corrCommit (if r.2 then r.1.raiseAt (nextLabel s u) 5 7 0 (resIndex u) 0 else r.1) (2 ^ u))

end Sys2Proof.Machine
end

