-- ==== Sys2Proof/Machine/DfuOut.lean ====
section
/-!
DEFINITION. What the filter units deliver: primary outputs to TRG, TIM, CAP and the barns (R22, R80, R81), and the
synchronous streams with their cycles (R86 to R89).
-/

namespace Sys2Proof.Machine

/-! ### The synchronous stream -/

/-- Offset of a resampler input's label from its first input, in half inputs of the unit (R80). -/
def rsOfs2 (s : State) (u : Nat) : Nat :=
  if s.on (F_DFU_RS_CTRL_SRC u) && s.rd (F_DFU_MODE_DEC_MODE u) == 3 then unitD s u - 1 else 0

/-- Where a time lies among the resampler's inputs: the index, and the fraction in 2^-32. -/
def rsPlace (s : State) (u t : Nat) : Int × Nat :=
  let g : Int := (unitG s u : Nat)
  let num := 2 * ((t : Int) - (ts0 s u : Int)) * g - (rsOfs2 s u * tConv s : Nat)
  let den : Int := (2 * rsDec s u * max 1 (tConv s) : Nat)
  let k := num / den
  (k, ((num - k * den) * 4294967296 / den).toNat)

/-- The time of sample `k` of the cycle in progress. -/
def rsTime (s : State) (u k : Nat) : Nat :=
  let r := (s.du u).rs
  r.sc + (roundNE ((k * r.step * tConv s * rsDec s u : Nat) : Int) (4294967296 * unitG s u)).toNat

/-- The inputs of a unit that are resampled. -/
def rsInputs (s : State) (u : Nat) : List Nat :=
  (List.range 4).filter (fun i => (groupsOf (unitMode s u)).any (fun g => g.headD 9 == i) && (s.rd (F_DFU_MODE_INPUT_EN u) >>> i) % 2 == 1)

/-- The flag byte of a descriptor (Table 3.5). -/
def rsFlags (s : State) (u : Nat) : Nat :=
  let r := (s.du u).rs
  b2n (s.onE (F_DFU_RS_CTRL_LOCK u)) + 2 * b2n r.coasting + 4 * b2n r.clamped + 8 * b2n r.rejFlag + 16 * b2n r.resync + 32 * r.fl

/-- The descriptor of the cycle in progress (Table 3.5). -/
def rsDesc (s : State) (u : Nat) : List Byte :=
  let r := (s.du u).rs
  natBytes 8 r.cyc ++ natBytes 12 r.sc ++ natBytes 5 r.p ++ natBytes 1 (s.rd (F_DFU_RS_CTRL_N_CODE u) + 16 * u) ++ natBytes 1 (rsFlags s u)
    ++ natBytes 1 (((rsInputs s u).map (fun i => 2 ^ i)).foldl (· + ·) 0 + 16 * s.rd (F_DFU_RS_CTRL_FUND_SRC u))
    ++ natBytes 4 (wrapTo 32 (roundNE r.phase 16777216))

/-- A coefficient of RS48's prototype: 512 phases of each of 48 taps, symmetric about its group delay of 24 inputs (R78). -/
def rs48Tap (n : Nat) : Int := (Config.rs48Half (min n (24576 - n))).toInt

/-- The polyphase sum over 48 inputs, newest first, at a fraction of an input period in 2^-32: each coefficient is interpolated
linearly between adjacent phases, and the exact sum goes to S16 by rc (R86). -/
def rs48 (xs : List Int) (frac : Nat) : Int :=
  let p := frac / 8388608
  let f : Int := (frac % 8388608 : Nat)
  rc ((xs.mapIdx (fun i x => (rs48Tap (512 * i + p) * (8388608 - f) + rs48Tap (512 * i + p + 1) * f) * x)).foldl (· + ·) 0) 48

/-- The synchronous sample of one input at a place: 48 inputs around it, newest first (R86). -/
def rsSample (s : State) (u i : Nat) (place : Int × Nat) : DSample :=
  let r := (s.du u).rs
  let newest : Int := r.nIn.getD i 0 - 1
  let win := (((r.hist.getD i []).drop (newest - (place.1 + 24)).toNat).take 48)
  let y := rs48 (win.map (fun x => x.v)) place.2
  { (win.foldl orFlags DSample.zero) with
    v := satTo 16 y, valid := win.all (fun x => x.valid), ovr := (win.any (fun x => x.ovr)) || decide (satTo 16 y ≠ y) }

/-- Whether the next sample of the cycle can be formed. -/
def rsReady (s : State) (u : Nat) : Bool :=
  let r := (s.du u).rs
  let p := rsPlace s u (rsTime s u r.pos)
  let ins := rsInputs s u
  r.started && r.step != 0 && decide (r.pos < rsN s u) && !ins.isEmpty
    && ins.all (fun i => decide (p.1 + 24 < r.nIn.getD i 0))

/-- The descriptor of the cycle whose last sample is out reaches the barns with it (R89, R214). -/
def rsDeliver (s : State) (u : Nat) : State :=
  let d := rsDesc s u
  let s1 := s.modDu u (fun x => { x with rs := { x.rs with desc := d } })
  if s.jin.valid then (rsInputs s u).foldl (fun a i => landDesc a (0x80 + 4 * u + i) d) s1 else s1

/-- The next sample of the cycle goes to the barns, where all its inputs carry VALID (R52, R214); inputs that no later sample
needs are forgotten. -/
def rsEmit (s : State) (u : Nat) : State :=
  let r := (s.du u).rs
  let t := rsTime s u r.pos
  let p := rsPlace s u t
  let ins := rsInputs s u
  let uns := decide ((s.du u).settled < s.rd (F_DFU_SETTLE_SPAN u))
  let vs := ins.map (fun i => (i, rsSample s u i p))
  let nx := rsTime s u (r.pos + 1)
  let fl := vs.foldl (fun a x => a ||| (b2n x.2.fill + 2 * b2n x.2.ovr)) (4 * b2n uns)
  let keep (i : Nat) : Nat := (r.nIn.getD i 0 - p.1 + 24).toNat
  let s1 := s.modDu u (fun d => { d with rs := { d.rs with
    pos := d.rs.pos + 1, fl := d.rs.fl ||| fl, hist := d.rs.hist.mapIdx (fun i h => h.take (keep i)) } })
  let s2 := (vs.filter (fun x => x.2.valid && s.cap.armed)).foldl (fun a x => landFeed a (0x80 + 4 * u + x.1) {
    j := r.cyc * rsN s u + r.pos, ts := t, nx := nx, vals := [x.2.v],
    flags := b2n x.2.suspect + 2 * b2n x.2.ovr + 4 * b2n x.2.fill + 8 * b2n r.coasting + 32 * b2n uns }) s1
  if r.pos + 1 = rsN s u then rsDeliver s2 u else s2

/-- Every sample that can be formed. -/
def rsRun (u : Nat) : Nat → State → State
  | 0, s => s
  | n + 1, s => if rsReady s u then rsRun u n (rsEmit s u) else s

/-- At most as many samples as there are inputs, the step being at least 2.5. -/
def rsAll (s : State) (u : Nat) : State :=
  rsRun u (((s.du u).rs.hist.map (fun h => h.length)).foldl max 0 + 1) s

/-- A step within its limits, and whether it was clamped (R88). -/
def rsClamp (x : Nat) : Nat × Bool := (max stepMin (min stepMax x), decide (x < stepMin ∨ stepMax < x))

/-- A cycle starts (R87 to R89): the loaded step comes into use with its RATE_LIMIT, and the next one is loaded. DESIGN CHOICE
(log entry 39): where no period report waits, e_c is taken as 0, so that PHASE_ERR is 0 and LOCK corrects nothing; R87 gives e_c
from a reported edge only. -/
def rsCycle (s0 : State) (u : Nat) : State :=
  let r0 := (s0.du u).rs
  let first := r0.step = 0
  let s := s0.applyRegs [R_DFU_RS_CTRL u, R_DFU_RS_MAXDEV u, R_DFU_RS_NOMINAL_LO u, R_DFU_RS_NOMINAL_HI u]
  let sc := if first then r0.sc else r0.sc + cycleLen s u r0.step
  let p := match r0.waiting with | some w => w.1 | none => if r0.accepted then r0.p else rsNominal s u
  let e : Int := match r0.waiting with
    | some w =>
      let a : Int := (sc : Int) - (w.2 : Int)
      let b : Int := (r0.sc : Int) - (w.2 : Int)
      if !first && b.natAbs < a.natAbs then b else a
    | none => 0
  let cur := if first then rsClamp (rsStep s u p 0 false) else (r0.next, r0.nextClamped)
  let load := if r0.coasting then (cur.1, cur.2) else rsClamp (rsStep s u p e (s.onE (F_DFU_RS_CTRL_LOCK u)))
  let s1 := s.modDu u (fun d => { d with rs := { d.rs with
    p := p, accepted := d.rs.accepted || d.rs.waiting.isSome, waiting := none, scPrev := r0.sc, sc := sc, cyc := if first then 0 else d.rs.cyc + 1,
    pos := 0, step := cur.1, next := load.1, clamped := cur.2, nextClamped := load.2, phase := e, fl := 0,
    rejFlag := first && d.rs.rejFlag, resync := first && d.rs.resync } })
  let s2 := if cur.2 && !r0.clamped then s1.raiseAt sc 5 5 0 (resIndex u) 0 else s1
  let c := (s2.du u).rs.cyc
  let s3 := (((s2.wr64 (R_DFU_RS_STEP_LO u) (R_DFU_RS_STEP_HI u) cur.1).wr64 (R_DFU_RS_CYCLE_LO u) (R_DFU_RS_CYCLE_HI u) c).wrTs
    (R_DFU_RS_START_W u 0) sc).wrs [(F_DFU_STATUS_RATE_LIMIT u, b2n cur.2),
      (F_DFU_STATUS_RS_LOCKED u, b2n ((s2.du u).rs.accepted && !r0.coasting))]
  let s4 := if r0.coasting then s3.bump (F_DFU_RS_COUNTS_COAST u) else s3
  drains (rsAll (s4.modDu u (fun d => { d with rs := { d.rs with desc := rsDesc s4 u } })) u)

/-- RESAMPLER_CYCLE_START: all samples of the cycle before are out. -/
def execResamplerCycleStart (u : Nat) (s : State) : Out :=
  let r := (s.du u).rs
  if 12 ≤ u || !s.domOn .intake || !s.on (F_DFU_RS_CTRL_EN u) || !s.jin.valid || !r.started || (r.step != 0 && r.pos < rsN s u) then .next s
  else .next (rsCycle s u)

/-- RESAMPLER_COAST: no report for 2 × P (R88). -/
def execResamplerCoast (u : Nat) (s : State) : Out :=
  let r := (s.du u).rs
  let p := if r.accepted then r.p else rsNominal s u
  match r.last with
  | none => .next s
  | some t =>
    if 12 ≤ u || !s.domOn .intake || !s.on (F_DFU_RS_CTRL_EN u) || r.coasting || s.now ≤ t + 2 * p * 16777216 then .next s
    else
      .next (((s.modDu u (fun d => { d with rs := { d.rs with coasting := true } })).wrs
        [(F_DFU_STATUS_FUND_LOST u, 1), (F_DFU_STATUS_RS_LOCKED u, 0)]).raiseAt
          (if r.started then rsTime s u r.pos else s.now) 5 3 0 (resIndex u) 0)

/-- The first sample of the synchronous stream may lie at an edge: past the settling span and the resampler's own (R89). -/
def rsMayStart (s : State) (u e : Nat) : Bool :=
  let d := if s.on (F_DFU_RS_CTRL_SRC u) then unitD s u else 1
  let span := s.rd (F_DFU_SETTLE_SPAN u) + d * (stageSpan (hbStages s u) 1 + 48 * 2 ^ s.rd (F_DFU_RS_CTRL_HB u))
  decide (ts0 s u * unitG s u + span * tConv s ≤ e * unitG s u)

/-- A flag of the cycle in progress: where its last sample is out, its descriptor follows (R88, R89). -/
def rsFlag (s : State) (u : Nat) (g : Rs → Rs) : State :=
  let t := s.modDu u (fun d => { d with rs := g d.rs })
  let r := (t.du u).rs
  if r.step != 0 && decide (rsN s u ≤ r.pos) then rsDeliver t u else t

/-- A period report reaches a resampler (R88). The first edge late enough starts the synchronous stream, whatever becomes of its
period (R89). -/
def rsReport (s : State) (u : Nat) (p e : Nat) : State :=
  let r := (s.du u).rs
  let cur := match r.waiting with | some w => w.1 | none => if r.accepted then r.p else rsNominal s u
  let dev := (p : Int) - (cur : Int)
  let far := !r.coasting && decide (dev.natAbs * 1024 > s.rdE (F_DFU_RS_MAXDEV_MAXDEV u) * cur)
  let third := far && decide (r.rejects ≥ 2)
  let start := !r.started && s.jin.valid && rsMayStart s u e
  let s1 := s.modDu u (fun d => { d with rs := { d.rs with
    last := some s.now, started := d.rs.started || start, sc := if start then e else d.rs.sc } })
  let s2 := if far then (rsFlag s1 u (fun x => { x with rejects := x.rejects + 1, rejFlag := true })).bump
    (F_DFU_RS_COUNTS_REJECTED u) else s1
  if far && !third then s2
  else
    let s3 := if third then (rsFlag s2 u (fun x => { x with resync := true })).raiseAt
        (if r.started then rsTime s u r.pos else s.now) 5 4 0 (resIndex u) 0 else s2
    (s3.modDu u (fun d => { d with rs := { d.rs with waiting := some (p, e), rejects := 0, coasting := false } })).wr
      (F_DFU_STATUS_FUND_LOST u) 0

/-- A report goes to every resampler that names its output. -/
def dfuReport (s : State) (x : Report) : State :=
  ((List.range 12).filter (fun u => s.domOn .intake && s.on (F_DFU_RS_CTRL_EN u) && s.rd (F_DFU_RS_CTRL_FUND_SRC u) == x.fp)).foldl
    (fun t u => rsReport t u x.p x.e) s

/-! ### Primary outputs -/

/-- The high and low value of an output, in S16, for comparators: H32 by its bits [31:16] (R99). -/
def outHiLo (s : State) (u : Nat) (v : OutVal) : Int × Int :=
  let m := s.rd (F_DFU_MODE_DEC_MODE u)
  let x (i : Nat) : Int := let y := v.vals.getD i 0; if m = 3 || m = 4 then y / 65536 else y
  if m = 2 then (x 1, x 0) else (x 0, x 0)

/-- An output reaches the top notes and, in direct mode, placement (R95, R99). -/
def outTrg (s : State) (u : Nat) (o : PrimOut) : State :=
  if !trgActive s then s
  else
    let r := o.ins.foldl (fun (a : State × List (Nat × NEv × Option Nat)) x =>
      let hl := outHiLo a.1 u x.2
      notesSample a.1 (4 * u + x.1) hl.1 hl.2 o.ts (x.2.fill || o.unsettled) x.2.suspect x.2.ovr a.2) (s, [])
    trgRefresh (directAll r.1 71 r.2)

/-- An output reaches the virtual edges that watch it (R165). -/
def outVe (s : State) (u : Nat) (o : PrimOut) : State :=
  if !s.cap.armed then s
  else
    o.ins.foldl (fun a x =>
      let hl := outHiLo a u x.2
      ((List.range 16).filter (fun v => veDelivers a v && a.rd (F_TIM_VE_CFG_SRC v) == 4 * u + x.1)).foldl
        (fun t v => veSample t v hl.1 hl.2 o.ts (x.2.fill || o.unsettled) (x.2.suspect || x.2.ovr)) a) s

/-- An index joins the run of a flag that ends before it, or begins one. -/
def runAdd (l : List (Nat × Nat × Nat)) (k j : Nat) : List (Nat × Nat × Nat) :=
  if l.any (fun r => r.1 == k && r.2.1 + r.2.2 == j) then
    l.map (fun r => if r.1 = k ∧ r.2.1 + r.2.2 = j then (k, r.2.1, r.2.2 + 1) else r)
  else l ++ [(k, j, 1)]

/-- A flag of an output is kept for the jobs that read its stream (R223). -/
def noteFlag (s : State) (id k j : Nat) (flag : Bool) : State :=
  if !flag then s else s.modCs id (fun c => { c with flagRuns := runAdd c.flagRuns k j })

/-- An output reaches CAP (R183, R191). -/
def outCap (s : State) (u : Nat) (o : PrimOut) : State :=
  if !s.cap.armed then s
  else
    let s1 := capNotes (capRuns s u o.ts o.j (o.ins.any (fun x => x.2.fill)) (o.ins.any (fun x => x.2.suspect)))
    o.ins.foldl (fun a x => if (a.cs (4 * u + x.1)).on then
        noteFlag (noteFlag (pushValues a (4 * u + x.1) x.2.vals o.ts) (4 * u + x.1) 2 o.j x.2.ovr) (4 * u + x.1) 32 o.j o.unsettled
      else a) s1

/-- An output lands on the chains that name its feed (R213). -/
def outLand (s : State) (u : Nat) (o : PrimOut) : State :=
  if !s.cap.armed then s
  else
    o.ins.foldl (fun a x => landFeed a (4 * u + x.1) {
      j := o.j, ts := o.ts, nx := outTime a u (o.j + 1), vals := x.2.vals,
      flags := b2n x.2.suspect + 2 * b2n x.2.ovr + 4 * b2n x.2.fill + 32 * b2n o.unsettled }) s

/-- The primary stream as the resampler's source (R86): words of 24 bits, the minimum in ENVELOPE. -/
def outRs (s : State) (u : Nat) (o : PrimOut) : State :=
  if !s.on (F_DFU_RS_CTRL_SRC u) then s
  else
    let m := s.rd (F_DFU_MODE_DEC_MODE u)
    s.modDu u (fun d => o.ins.foldl (fun a x =>
      let v := x.2.vals.getD 0 0
      let w := if m = 3 || m = 4 then satTo 24 (rc v 8) else v * 256
      rsPush s u x.1 a (o.j : Int) { v := w, valid := o.valid, fill := x.2.fill, suspect := x.2.suspect, ovr := x.2.ovr }) d)

/-- Periods that a link holds for its unit. -/
def linkDepth (s : State) (u : Nat) : Nat := ((s.link u).out.map (fun q => q.length)).foldl max 0

/-- A parity error of a coefficient fetch: 1 corrected by a refetch, 2 not (Table 3.6). The output that waits was formed with it. -/
def coefParity (s : State) (u parity ts : Nat) : State :=
  if parity = 1 then s.raiseAt ts 5 1 1 (resIndex u) 0
  else if parity = 2 then s.raiseAt ts 5 1 2 (resIndex u) 0
  else s

/-- An output formed with a coefficient that could not be fetched carries SUSPECT (Table 3.6). -/
def PrimOut.marked (o : PrimOut) (bad : Bool) : PrimOut :=
  if bad then { o with ins := o.ins.map (fun x => (x.1, { x.2 with suspect := true })) } else o

/-- An output is delivered: to the resampler, and with VALID to TRG, TIM, CAP and the barns (R22, R52). -/
def outDeliver (s : State) (u : Nat) (o : PrimOut) : State :=
  let s1 := outRs (satCount s u o) u o
  if o.valid then outLand (outCap (outVe (outTrg s1 u o) u o) u o) u o else s1

/-- DFU_OUTPUT: unit `u` works off what its link has delivered until an output is formed, and delivers it. A coefficient
fetch may meet a parity error (Table 3.6). -/
def execDfuOutput (u parity : Nat) (s : State) : Out :=
  if 12 ≤ u || !s.domOn .intake then .next s
  else
    let s1 := dfuRun u (parity == 2) (linkDepth s u + 1) s
    match (s1.du u).outq with
    | [] => .next (drains (rsAll (coefParity s1 u parity (nextLabel s u)) u))
    | o :: os =>
      let s2 := coefParity (s1.modDu u (fun d => { d with outq := os })) u parity o.ts
      .next (drains (rsAll (outDeliver s2 u (o.marked (parity == 2))) u))

end Sys2Proof.Machine
end

