-- ==== Sys2Proof/Machine/DisOps.lean ====
section
/-!
DEFINITION. The display's shared operations (chapter 16): mode checks, reservation and latency tolerance, pixels and their
CRC, taking up modes and layers.
-/

namespace Sys2Proof.Machine

def State.modDis (s : State) (g : Dis → Dis) : State := { s with dis := g s.dis }
def State.dl (s : State) (k : Nat) : DLayer := s.dis.layers.getD k DLayer.reset
def State.modDl (s : State) (k : Nat) (g : DLayer → DLayer) : State := s.modDis (fun d => { d with layers := listMod d.layers k g })

/-- What a figure is computed from: the values written, or those in effect. -/
abbrev Reader := Fld → Nat

/-! ### State -/

/-- STATE, or what it was before HELD. -/
def disState (s : State) : Nat := if s.rd F_DIS_STATUS_STATE = 5 then s.dis.heldFrom else s.rd F_DIS_STATUS_STATE

/-- STATE changes; behind HELD it stays HELD. -/
def disSet (s : State) (st : Nat) : State :=
  if s.rd F_DIS_STATUS_STATE = 5 then s.modDis (fun d => { d with heldFrom := st }) else s.wr F_DIS_STATUS_STATE st

/-- EDP_VDD_EN and EDP_BL_EN as DIS_PANEL has them (R448). -/
def disPins (s : State) : State :=
  { s with pins := { s.pins with edpVddEn := s.on F_DIS_PANEL_VDD_EN, edpBlEn := s.on F_DIS_PANEL_BL_EN } }

/-- LINK_CHANGED (R450, R465). -/
def linkChanged (s : State) : State :=
  s.postEvent 0 0x0D02 [s.rd F_DIS_STATUS_STATE + (s.rd F_DIS_STATUS_HPD <<< 4) + (s.rdE F_DIS_LINK_RATE <<< 5)
    + (s.rdE F_DIS_LINK_LANES <<< 8), 0, 0, 0]

/-! ### Modes (R451) -/

/-- The shadowed registers of the mode and of a layer (R452, R462). -/
def modeRegs : List Nat := [R_DIS_LINK, R_DIS_PCLK, R_DIS_HACT, R_DIS_HSYNC, R_DIS_VACT, R_DIS_VSYNC, R_DIS_BG]
def layerRegs (k : Nat) : List Nat :=
  [R_DIS_L_CFG k, R_DIS_L_BASE_LO k, R_DIS_L_BASE_HI k, R_DIS_L_STRIDE k, R_DIS_L_SIZE k, R_DIS_L_POS k, R_DIS_L_COLOR k, R_DIS_L_LUT k]

/-- HTOTAL and VTOTAL. -/
def hTotal (g : Reader) : Nat := g F_DIS_HACT_HACTIVE + g F_DIS_HACT_HFP + g F_DIS_HSYNC_HSW + g F_DIS_HSYNC_HBP
def vTotal (g : Reader) : Nat := g F_DIS_VACT_VACTIVE + g F_DIS_VACT_VFP + g F_DIS_VSYNC_VSW + g F_DIS_VSYNC_VBP

/-- Lane rate in Mb/s, lanes and bits per component of their codes (R448). -/
def laneMbps (r : Nat) : Nat := [1620, 2700, 5400, 8100].getD r 0
def laneCount (l : Nat) : Nat := [1, 2, 4].getD l 0
def bpcOf (b : Nat) : Nat := [6, 8, 10].getD b 0

/-- A mode is accepted (R451). -/
def modeOk (g : Reader) : Bool :=
  let pclk := g F_DIS_PCLK_KHZ
  let h := g F_DIS_HACT_HACTIVE
  let v := g F_DIS_VACT_VACTIVE
  let pos := [F_DIS_HACT_HFP, F_DIS_HSYNC_HSW, F_DIS_HSYNC_HBP, F_DIS_VACT_VFP, F_DIS_VSYNC_VSW, F_DIS_VSYNC_VBP].all (fun f => 1 ≤ g f)
  25000 ≤ pclk && pclk ≤ 600000 && 64 ≤ h && h ≤ 3840 && 1 ≤ v && v ≤ 2160 && pos && hTotal g ≤ 8192 && vTotal g ≤ 4096
    && g F_DIS_LINK_LANES != 3 && g F_DIS_LINK_BPC != 3
    && pclk * 3 * bpcOf (g F_DIS_LINK_BPC) ≤ 776 * laneCount (g F_DIS_LINK_LANES) * laneMbps (g F_DIS_LINK_RATE)

/-! ### Layers (R453, R457) -/

/-- A layer's geometry. -/
structure Geo where
  on : Bool
  fmt : Nat
  opq : Bool
  alpha : Nat
  map : Nat
  hs : Nat
  vs : Nat
  base : Nat
  stride : Nat
  w : Nat
  h : Nat
  x : Nat
  y : Nat

/-- A layer's fields; formats 6 and 7 act as disabled, the low 6 bits of BASE and STRIDE are ignored. -/
def geoOf (g : Reader) (k : Nat) : Geo :=
  { on := g (F_DIS_L_CFG_EN k) == 1 && g (F_DIS_L_CFG_FMT k) < 6, fmt := g (F_DIS_L_CFG_FMT k), opq := g (F_DIS_L_CFG_OPAQUE k) == 1,
    alpha := g (F_DIS_L_CFG_ALPHA k), map := g (F_DIS_L_CFG_MAP k), hs := g (F_DIS_L_CFG_HSCALE_M1 k) + 1,
    vs := g (F_DIS_L_CFG_VSCALE_M1 k) + 1,
    base := (g (F_DIS_L_BASE_LO_BASE k) + g (F_DIS_L_BASE_HI_BASE k) * 4294967296) / 64 * 64,
    stride := g (F_DIS_L_STRIDE_BYTES k) / 64 * 64, w := g (F_DIS_L_SIZE_W k), h := g (F_DIS_L_SIZE_H k),
    x := g (F_DIS_L_POS_X k), y := g (F_DIS_L_POS_Y k) }

/-- Bytes of a pixel. -/
def fmtBytes (f : Nat) : Nat := if f = 2 then 2 else if f = 0 ∨ f = 1 ∨ f = 3 then 4 else 0

/-- Source columns and lines that reach the screen. -/
def visCols (g : Reader) (l : Geo) : Nat := min l.w (cdiv (g F_DIS_HACT_HACTIVE - l.x) l.hs)
def visLines (g : Reader) (l : Geo) : Nat := min l.h (cdiv (g F_DIS_VACT_VACTIVE - l.y) l.vs)

/-- The enabled layers that fetch. -/
def fetching (g : Reader) : List Nat := (List.range 3).filter (fun k => (geoOf g k).on && (geoOf g k).fmt != 5)

/-- A layer's share of the line buffers (R457). -/
def lineShare (g : Reader) : Nat := 499712 / max 1 (fetching g).length

/-- Bytes a layer fetches per frame (R460). -/
def frameBytes (s : State) (g : Reader) (l : Geo) : Nat :=
  if l.fmt = 4 then visCols g l * (cdiv (l.h * mapCB s l.map) 64 * 64) else visCols g l * fmtBytes l.fmt * visLines g l

/-- DIS_RESERVE for some values, in MB/s (R460). -/
def disNeed (s : State) (g : Reader) : Nat :=
  let b := ((fetching g).map (fun k => frameBytes s g (geoOf g k))).foldl (· + ·) 0
  cdiv (b * g F_DIS_PCLK_KHZ) (max 1 (hTotal g * vTotal g * 1000))

/-- The time in ns that half a layer's share lasts at its peak rate (R459). -/
def layerTol (s : State) (g : Reader) (l : Geo) : Option Nat :=
  let half := lineShare g / 2
  let pclk := g F_DIS_PCLK_KHZ
  let (bytes, px) := if l.fmt = 4 then (visCols g l * 64, 64 / mapCB s l.map * l.vs * hTotal g)
    else (visCols g l * fmtBytes l.fmt, g F_DIS_HACT_HACTIVE)
  if bytes * pclk = 0 then none else some (half * px * 1000000 / (bytes * pclk))

/-- T_TOL in ns: the least over the fetching layers (R459). -/
def disTol (s : State) (g : Reader) : Option Nat :=
  ((fetching g).filterMap (fun k => layerTol s g (geoOf g k))).foldl (fun (m : Option Nat) t => match m with
    | none => some t
    | some x => some (min x t)) none

/-- What R303 leaves the display, in MB/s. -/
def disAvail (s : State) : Nat := dramCap s - (dramUse s (poolsBut s none) - s.rd F_DIS_RESERVE_MBPS)

/-- The figures at an apply (R459, R460). -/
def disFigures (s : State) : State :=
  let s1 := if s.on F_DIS_CTRL_EN then s.wr F_DIS_RESERVE_MBPS (disNeed s s.rdE) else s.wr F_DIS_RESERVE_MBPS 0
  admRegs (match disTol s1 s1.rdE with
    | none => s1.wr F_DIS_TOL_NS 0
    | some t => (s1.wr F_DIS_TOL_NS t).wr (F_MEM_PORT_QOS_LAT_TARGET 1) (min 65535 (t / 2)))

/-- The reservation covers what has been accepted as well as what is in effect. -/
def disReserve (s : State) : State :=
  if s.on F_DIS_CTRL_EN then
    admRegs (s.wr F_DIS_RESERVE_MBPS (max (s.rd F_DIS_RESERVE_MBPS) (max (disNeed s s.rd) (disNeed s s.rdE))))
  else s

/-! ### Pixels (R453 to R455) -/

/-- x / 255 rounded to nearest (R454). -/
def d255 (x : Nat) : Nat := (x + 128 + ((x + 128) >>> 8)) >>> 8

/-- A pixel: α and 10-bit components. -/
structure Pix where
  a : Nat
  r : Nat
  g : Nat
  b : Nat
deriving DecidableEq, Repr

def up8 (c : Nat) : Nat := c * 4 + (c >>> 6)

/-- An ARGB8888 word (Table 16.1). -/
def pixArgb (v : Nat) : Pix := { a := bitsOf v 24 8, r := up8 (bitsOf v 16 8), g := up8 (bitsOf v 8 8), b := up8 (bitsOf v 0 8) }

/-- A stored pixel of an image format (Table 16.1). -/
def pixImage (fmt v : Nat) : Pix :=
  match fmt with
  | 0 => pixArgb v
  | 1 => { pixArgb v with a := 255 }
  | 2 =>
    let r := bitsOf v 11 5
    let g := bitsOf v 5 6
    let b := bitsOf v 0 5
    { a := 255, r := r * 32 + r, g := g * 16 + (g >>> 2), b := b * 32 + b }
  | _ => { a := 85 * bitsOf v 30 2, r := bitsOf v 20 10, g := bitsOf v 10 10, b := bitsOf v 0 10 }

/-- The LUT index of a count (R455). -/
def lutIndex (log : Bool) (shift n : Nat) : Nat :=
  let m := n >>> shift
  if m = 0 then 0
  else if log then
    let p := m.log2
    let f := if p ≥ 6 then (m >>> (p - 6)) % 64 else (m <<< (6 - p)) % 64
    min 1023 (1 + 64 * p + f)
  else min 1023 m

/-- The bank of the LUT in use, and its entries. -/
def lutBank (s : State) (k b : Nat) : List (Nat × Word) := if b = 0 then (s.dl k).lut0 else (s.dl k).lut1
def lutEntry (s : State) (k i : Nat) : Word := cellGet 0 (lutBank s k (s.rd (F_DIS_L_LUT_BANK k))) i

/-- A layer's pixel at a screen position, where it has one. -/
def layerPix (s : State) (k x y : Nat) : Option Pix :=
  let l := geoOf s.rdE k
  let c := (x - l.x) / l.hs
  let r := (y - l.y) / l.vs
  if !l.on || x < l.x || y < l.y || c ≥ l.w || r ≥ l.h then none
  else
    let p : Option Pix :=
      if l.fmt = 5 then some (pixArgb (s.rdE (F_DIS_L_COLOR_ARGB k)))
      else if l.fmt = 4 then
        match (s.dl k).bank with
        | none => none
        | some b =>
          let row := l.h - 1 - r
          let h := s.rd (F_MAP_GEOM_H l.map)
          if row ≥ h || c ≥ s.rd (F_MAP_GEOM_W l.map) then none
          else
            let cb := mapCB s l.map
            let n := leNat (s.dramRead (bankAddr s l.map b + (c * h + row) * cb) cb)
            some (pixArgb (lutEntry s k (lutIndex (s.onE (F_DIS_L_LUT_LOG k)) (s.rdE (F_DIS_L_LUT_SHIFT k)) n)).toNat)
      else
        let n := fmtBytes l.fmt
        some (pixImage l.fmt (leNat (s.dramRead (l.base + r * l.stride + c * n) n)))
    p.map (fun q => if l.opq then { q with a := 255 } else q)

/-- One layer over what lies below it (R454). -/
def blend (q : Pix) (alpha : Nat) (out : Pix) : Pix :=
  let a := d255 (q.a * alpha)
  let f (c o : Nat) : Nat := d255 (c * a + o * (255 - a))
  { a := 255, r := f q.r out.r, g := f q.g out.g, b := f q.b out.b }

/-- The background. -/
def bgPix (s : State) : Pix :=
  let v := s.rdE F_DIS_BG_RGB
  { a := 255, r := bitsOf v 20 10, g := bitsOf v 10 10, b := bitsOf v 0 10 }

/-- The blended pixel at a screen position of the frame under way (R454, R459). -/
def disPixel (s : State) (x y : Nat) : Pix :=
  if s.dis.badLines.contains y || s.dis.missing.contains { x := x, y := y } then bgPix s
  else (List.range 3).foldl (fun out k => match layerPix s k x y with
    | none => out
    | some q => blend q (s.rdE (F_DIS_L_CFG_ALPHA k)) out) (bgPix s)

/-- A pixel's components as the link carries them, at 6, 8 or 10 bits per component (R454). -/
def linkPix (s : State) (x y : Nat) : List Nat :=
  let p := disPixel s x y
  let n := 10 - bpcOf (s.rdE F_DIS_LINK_BPC)
  [p.r, p.g, p.b].map (fun v => if n = 0 then v else min (2 ^ (10 - n) - 1) (rc v n).toNat)

/-- A pixel as the CRC takes it (R463). -/
def pixWord (p : Pix) : Nat := p.r % 1024 * 1048576 + p.g % 1024 * 1024 + p.b % 1024

/-- The window in effect, within the active area: first and last column, first and last line. -/
def crcWindow (s : State) : Nat × Nat × Nat × Nat :=
  (s.rdE F_DIS_CRC_WIN0_X, min (s.rdE F_DIS_CRC_WIN1_X) (s.rdE F_DIS_HACT_HACTIVE - 1), s.rdE F_DIS_CRC_WIN0_Y,
    min (s.rdE F_DIS_CRC_WIN1_Y) (s.rdE F_DIS_VACT_VACTIVE - 1))

/-- The CRC of the frame under way (R463). -/
def frameCrc (s : State) : Nat :=
  let (x0, x1, y0, y1) := crcWindow s
  crc32End ((List.range (y1 + 1 - y0)).foldl (fun c j => (List.range (x1 + 1 - x0)).foldl (fun c i =>
    crc32Run polyC c (natBytes 4 (pixWord (disPixel s (x0 + i) (y0 + j))))) c) 0xFFFFFFFF)

/-- A pixel of the window underran in the frame (R463). -/
def crcUnder (s : State) : Bool :=
  let (x0, x1, y0, y1) := crcWindow s
  s.dis.missing.any (fun m => x0 ≤ m.x && m.x ≤ x1 && y0 ≤ m.y && m.y ≤ y1)

/-! ### Cover (R458) -/

/-- The screen rectangle of a layer that shows, clipped: left, right, top, bottom, the ends not within. -/
def layerRect (s : State) (k : Nat) : Nat × Nat × Nat × Nat :=
  let l := geoOf s.rdE k
  if !l.on || (l.fmt == 4 && (s.dl k).bank.isNone) then (0, 0, 0, 0)
  else (l.x, min (l.x + l.w * l.hs) (s.rdE F_DIS_HACT_HACTIVE), l.y, min (l.y + l.h * l.vs) (s.rdE F_DIS_VACT_VACTIVE))

/-- A layer is opaque. -/
def layerOpaque (s : State) (k : Nat) : Bool :=
  let l := geoOf s.rdE k
  l.alpha == 255 && (l.fmt == 1 || l.fmt == 2 || l.opq)

/-- A rectangle within another. -/
def rectIn (a b : Nat × Nat × Nat × Nat) : Bool := b.1 ≤ a.1 && a.2.1 ≤ b.2.1 && b.2.2.1 ≤ a.2.2.1 && a.2.2.2 ≤ b.2.2.2

/-- A rectangle within the union of two. -/
def rectIn2 (a b c : Nat × Nat × Nat × Nat) : Bool :=
  let cut (x y : Nat × Nat × Nat × Nat) : Bool :=
    let wide (r : Nat × Nat × Nat × Nat) : Bool := r.1 ≤ a.1 && a.2.1 ≤ r.2.1
    let tall (r : Nat × Nat × Nat × Nat) : Bool := r.2.2.1 ≤ a.2.2.1 && a.2.2.2 ≤ r.2.2.2
    (wide x && wide y && x.2.2.1 ≤ a.2.2.1 && y.2.2.1 ≤ x.2.2.2 && a.2.2.2 ≤ y.2.2.2)
      || (tall x && tall y && x.1 ≤ a.1 && y.1 ≤ x.2.1 && a.2.1 ≤ y.2.1)
  rectIn a b || rectIn a c || cut b c || cut c b

/-- The layer shows and lies wholly under opaque layers. -/
def layerCovered (s : State) (k : Nat) : Bool :=
  let r := layerRect s k
  let over_ (j : Nat) : Nat × Nat × Nat × Nat := if k < j && layerOpaque s j then layerRect s j else (0, 0, 0, 0)
  r.1 < r.2.1 && r.2.2.1 < r.2.2.2 && rectIn2 r (over_ 1) (over_ 2)

/-- COVERED of every layer, and the addresses in effect. -/
def disLayersShow (s : State) : State :=
  (List.range 3).foldl (fun t k =>
    let l := geoOf t.rdE k
    let a := if l.fmt = 4 then (match (t.dl k).bank with | some b => bankAddr t l.map b | none => 0) else l.base
    (t.wr64 (R_DIS_L_BASE_EFF_LO k) (R_DIS_L_BASE_EFF_HI k) a).wrB (F_DIS_L_OWNER_COVERED k) (layerCovered t k)) s

/-! ### Frames (R461) -/

/-- The frame number. -/
def frameNo (s : State) : Nat := s.rd64 R_DIS_FRAME_NO_LO R_DIS_FRAME_NO_HI

/-- Lines of a mode in ns of the frame that began at `frameAt`. -/
def linesAt (s : State) (lines : Nat) : Nat :=
  s.dis.frameAt + (lines * hTotal s.rdE * 1000000 + s.dis.frameRem) / max 1 (s.rdE F_DIS_PCLK_KHZ)

/-- A frame's length in ns. -/
def framePeriod (g : Reader) : Nat := vTotal g * hTotal g * 1000000 / max 1 (g F_DIS_PCLK_KHZ)

/-! ### Bringing the link up and taking it down (R449, R464) -/

/-- Training begins. -/
def trainLink (s : State) : State := (disSet s 1).modDis (fun d => { d with trainAt := s.up, inFrame := false })

/-- The mode registers take effect while no frame runs; their DIS_MODE completes at the first frame (R452). -/
def modeNow (s : State) (retrain : Bool) : State :=
  let s1 := (disFigures (s.applyRegs modeRegs)).wr F_DIS_STATUS_MODE_PENDING 0
  let s2 := s1.modDis (fun d => { d with applied := some retrain })
  { s2 with fcp := { s2.fcp with inflight := s2.fcp.inflight.map (fun c => if c.kind = .disMode then { c with due := 1 } else c) } }

/-- Scan-out starts in Record: the domain, the panel's supply, the link (R464). -/
def disPowerOn (s : State) : State :=
  let s1 := disPins ((s.setDom .dis 2).wrs [(F_DIS_STATUS_HPD, b2n s.pins.hpd), (F_DIS_PANEL_VDD_EN, 1), (F_DIS_STATUS_STATE, 0)])
  let s2 := if s1.on F_DIS_STATUS_MODE_PENDING then modeNow s1 true else s1
  let s3 := (List.range 3).foldl (fun t k => t.modDl k (fun l => { l with bank := none })) s2
  disLayersShow (disFigures ((trainLink s3).modDis (fun d => { d with
    applied := d.applied.map (fun _ => true), light := true, notBefore := s.up, missing := [], badLines := [] })))

/-- Scan-out stops: backlight off, lanes idle, domain off; FRAME_NO, registers and pending commits are kept (R464). -/
def disPowerOff (s : State) : State :=
  if s.dom .dis = 0 then s
  else
    let s1 := s.wrs [(F_DIS_PANEL_BL_EN, 0), (F_DIS_STATUS_STATE, 0), (F_DIS_STATUS_WRITE_REFUSED, 0), (F_DIS_AUX_CTRL_BUSY, 0)]
    (disPins (s1.setDom .dis 0)).modDis (fun d => { d with inFrame := false, light := false, lost := false })

/-! ### Commits (R462) -/

/-- A commit of a layer; one that waits already is replaced and its DIS_FLIP is dropped. -/
def disCommit (s : State) (k : Nat) : State :=
  let s1 := if (s.dl k).commit then
      let t := s.bump F_DIS_DROPPED_FLIPS_COUNT
      { t with fcp := { t.fcp with inflight := t.fcp.inflight.map (fun c =>
          if c.kind = .disFlip ∧ c.key.testBit k = true ∧ c.due < 2 then { c with due := 1 } else c) } }
    else s
  s1.modDl k (fun l => { l with commit := true })

/-- Commits of several layers. -/
def disCommits (s : State) (mask : Nat) : State := ((List.range 3).filter (fun k => mask.testBit k)).foldl disCommit s

/-- A function reset disables its contexts' layers at the next latch (R464). -/
def disFnReset (s : State) (f : Nat) : State :=
  (List.range 3).foldl (fun t k =>
    if t.on (F_DIS_L_CFG_EN k) && t.ctxFunc (t.rd (F_DIS_L_OWNER_CONTEXT k)) == f then t.modDl k (fun l => { l with off := true }) else t) s

/-- The layers with a commit that waits. -/
def committed (s : State) : List Nat := (List.range 3).filter (fun k => (s.dl k).commit)

/-- Layers' registers take effect. -/
def takeLayers (s : State) (ks : List Nat) : State :=
  ks.foldl (fun t k => (t.applyRegs (layerRegs k)).modDl k (fun l => { l with commit := false, taken := true })) s

/-- The commits taken up at a latch: all that fit the reservation (R460, R462). -/
def latchLayers (s : State) : State :=
  let ks := committed s
  let all := takeLayers s ks
  if ks.isEmpty then s
  else if disNeed all all.rdE ≤ s.rd F_DIS_RESERVE_MBPS then all.wr F_DIS_STATUS_OVER_BUDGET 0
  else
    ks.foldl (fun t k =>
      let u := takeLayers t [k]
      if disNeed u u.rdE ≤ t.rd F_DIS_RESERVE_MBPS then u
      else
        ((t.modDl k (fun l => { l with commit := false })).wr F_DIS_STATUS_OVER_BUDGET 1).wake .disLayer k { st := .noBudget }) s

end Sys2Proof.Machine
end

