-- ==== Sys2Proof/Machine/Dis.lean ====
section
/-!
DEFINITION. The display's commands and events (chapter 16).
-/

namespace Sys2Proof.Machine

/-- Whether a context owns a layer, or belongs to the physical function (R466). -/
def layerOwned (p : Packet) (s : State) (k : Nat) : Bool :=
  k ≥ 3 || s.ctxFunc (pCtx p) == 0 || s.rd (F_DIS_L_OWNER_CONTEXT k) == pCtx p

/-! ### Opcodes -/

/-- The mode registers as a DIS_MODE gives them. -/
def modeFields (p : Packet) (s : State) : State :=
  s.wrs [(F_DIS_LINK_RATE, pf p 2 1 2), (F_DIS_LINK_LANES, pf p 2 3 2), (F_DIS_LINK_BPC, pf p 2 5 2), (F_DIS_LINK_HPOL, pf p 2 7 1),
    (F_DIS_LINK_VPOL, pf p 2 8 1), (F_DIS_PCLK_KHZ, pf p 3 0 20), (F_DIS_HACT_HACTIVE, pf p 4 0 12), (F_DIS_HACT_HFP, pf p 4 16 12),
    (F_DIS_HSYNC_HSW, pf p 5 0 12), (F_DIS_HSYNC_HBP, pf p 5 16 12), (F_DIS_VACT_VACTIVE, pf p 6 0 12), (F_DIS_VACT_VFP, pf p 6 16 12),
    (F_DIS_VSYNC_VSW, pf p 7 0 12), (F_DIS_VSYNC_VBP, pf p 7 16 12), (F_DIS_BG_RGB, pf p 8 0 30), (F_DIS_CTRL_EN, pf p 2 0 1)]

/-- A mode commit: at the next latch while frames run, else at once; a dark link trains again (R449, R452). -/
def modeCommit (s : State) : State :=
  if !s.domOn .dis || s.rd F_DIS_STATUS_STATE = 0 then modeNow s false
  else if disState s = 1 ∨ disState s = 4 then
    let t := modeNow s true
    if t.on F_DIS_STATUS_HPD || disState s = 1 then trainLink t else t
  else s.wr F_DIS_STATUS_MODE_PENDING 1

/-- The reply of a DIS_MODE or DIS_LAYER. -/
def disReply (s : State) (frame retrained : Nat) : Reply :=
  okR (s.rd F_DIS_RESERVE_MBPS) (s.rd F_DIS_TOL_NS) (frame % 4294967296) retrained

/-- Whether values written need more than what is reserved and free (R460). -/
def overBudget (s t : State) : Bool :=
  t.on F_DIS_CTRL_EN && (disNeed t t.rd > s.rd F_DIS_RESERVE_MBPS && disNeed t t.rd > disAvail s)

/-- Scan-out is switched off by a DIS_MODE. -/
def modeOff (p : Packet) (s : State) : State := disFigures (modeNow (disPowerOff (modeFields p s)) false)

/-- A DIS_MODE's mode is reserved and committed. -/
def modeOn (p : Packet) (s : State) : State := modeCommit (disReserve (modeFields p s))

/-- DIS is powered. -/
def modeLit (s : State) : State := if s.domOn .dis then s else disPowerOn s

/-- DIS_MODE. -/
def execDisMode (p : Packet) (s : State) : Out :=
  fcpStep { op := 0xA0, pfOnly := true, valid := fun p s => modeOk (modeFields p s).rd,
            run := fun p s =>
              if overBudget s (modeFields p s) then .final { st := .noBudget, r0 := disAvail s } s
              else if !pb p 2 0 then .final (disReply (modeOff p s) (frameNo (modeOff p s) + 1) 0) (modeOff p s)
              else if !s.inRecord then .final (disReply (modeOn p s) (frameNo (modeOn p s) + 1) 0) (modeOn p s)
              else .wait .disMode 0 (b2n (!(modeLit (modeOn p s)).on F_DIS_STATUS_MODE_PENDING)) (modeLit (modeOn p s)) } p s

/-- A layer's registers as a DIS_LAYER gives them. -/
def layerFields (p : Packet) (s : State) : State :=
  let k := pf p 2 0 2
  s.wrs [(F_DIS_L_CFG_EN k, pf p 2 2 1), (F_DIS_L_CFG_FMT k, pf p 2 3 3), (F_DIS_L_CFG_OPAQUE k, pf p 2 6 1),
    (F_DIS_L_CFG_ALPHA k, pf p 2 8 8), (F_DIS_L_CFG_MAP k, pf p 2 16 4), (F_DIS_L_CFG_HSCALE_M1 k, pf p 2 20 3),
    (F_DIS_L_CFG_VSCALE_M1 k, pf p 2 24 3), (F_DIS_L_OWNER_CONTEXT k, pf p 3 0 12), (F_DIS_L_BASE_LO_BASE k, pdw p 4),
    (F_DIS_L_BASE_HI_BASE k, pf p 5 0 16), (F_DIS_L_STRIDE_BYTES k, pf p 6 0 20), (F_DIS_L_SIZE_W k, pf p 7 0 14),
    (F_DIS_L_SIZE_H k, pf p 7 16 13), (F_DIS_L_POS_X k, pf p 8 0 12), (F_DIS_L_POS_Y k, pf p 8 16 12), (F_DIS_L_COLOR_ARGB k, pdw p 9)]

/-- The rules of R456 on a MAP layer. -/
def mapLayerOk (s : State) (k : Nat) : Bool :=
  let l := geoOf s.rd k
  l.fmt != 4 || (s.rd (F_MAP_CLEAR_CLEAR_DELAY l.map) * 1000 ≥ framePeriod s.rd && 2 * visCols s.rd l * 64 ≤ lineShare s.rd)

/-- DIS_LAYER. -/
def execDisLayer (p : Packet) (s : State) : Out :=
  fcpStep { op := 0xA1, pfOnly := true,
            aligned := fun p _ => pf p 4 0 6 == 0 && pf p 6 0 6 == 0,
            valid := fun p s =>
              pf p 2 0 2 != 3 && pf p 2 3 3 < 6 && 1 ≤ pf p 7 0 14 && pf p 7 0 14 ≤ 8192 && 1 ≤ pf p 7 16 13 && pf p 7 16 13 ≤ 4096
                && mapLayerOk (layerFields p s) (pf p 2 0 2),
            run := fun p s =>
              let t := layerFields p s
              if overBudget s t then .final { st := .noBudget, r0 := disAvail s } s
              else .wait .disLayer (pf p 2 0 2) 0 (disCommit (disReserve t) (pf p 2 0 2)) } p s

/-- The layers a DIS_FLIP names, and their new bases. -/
def flipLayers (p : Packet) : List Nat := (List.range 3).filter (fun k => (pf p 2 0 3).testBit k)
def flipBases (p : Packet) (s : State) : State :=
  (flipLayers p).foldl (fun t k =>
    t.wrs [(F_DIS_L_BASE_LO_BASE k, pdw p (3 + 2 * k)), (F_DIS_L_BASE_HI_BASE k, pf p (4 + 2 * k) 0 16)]) s

/-- DIS_FLIP: `key` is the layer mask, `due` 1 once dropped, plus 2 once taken up. -/
def execDisFlip (p : Packet) (s : State) : Out :=
  fcpStep { op := 0xA2,
            permit := fun p s => (flipLayers p).all (layerOwned p s),
            aligned := fun p _ => (flipLayers p).all (fun k => pf p (3 + 2 * k) 0 6 == 0),
            valid := fun p s => (flipLayers p).all (fun k => s.rd (F_DIS_L_CFG_FMT k) != 4 && s.rd (F_DIS_L_CFG_FMT k) != 5),
            run := fun p s => .wait .disFlip (pf p 2 0 3) 0 (disCommits (flipBases p s) (pf p 2 0 3)) } p s

/-- An entry of a layer's inactive bank. -/
def lutPut (s : State) (k i : Nat) (v : Word) : State :=
  s.modDl k (fun l => if s.rd (F_DIS_L_LUT_BANK k) = 0 then { l with lut1 := cellPut 0 l.lut1 i v } else { l with lut0 := cellPut 0 l.lut0 i v })

/-- The inactive bank is loaded from the host's table, and the swap waits for a latch. -/
def lutLoad (p : Packet) (s : State) : State :=
  let k := pf p 2 0 2
  let t := (List.range 1024).foldl (fun t i => lutPut t k i (BitVec.ofNat 32 (dwordAt p.buf i))) s
  let u := t.wrs [(F_DIS_L_LUT_LOG k, pf p 2 2 1), (F_DIS_L_LUT_SHIFT k, pf p 2 3 5), (F_DIS_L_LUT_SWAP k, 1)]
  u.modDl k (fun l => { l with swap := true, swapCmd := true })

/-- DIS_LUT. -/
def execDisLut (p : Packet) (s : State) : Out :=
  fcpStep { op := 0xA3,
            permit := fun p s => layerOwned p s (pf p 2 0 2),
            aligned := fun p _ => pf p 3 0 6 == 0,
            valid := fun p _ => pf p 2 0 2 != 3,
            run := fun p s => .wait .disLut (pf p 2 0 2) 0 (lutLoad p s) } p s

/-- The window of a DIS_CRC. -/
def crcWindowSet (p : Packet) (s : State) : State :=
  s.wrs [(F_DIS_CRC_WIN0_X, pf p 2 0 12), (F_DIS_CRC_WIN0_Y, pf p 2 16 12), (F_DIS_CRC_WIN1_X, pf p 3 0 12),
    (F_DIS_CRC_WIN1_Y, pf p 3 16 12)]

/-- DIS_CRC: `key` is the frame it waits for; with none started for 1 s it ends at `due`. -/
def execDisCrc (p : Packet) (s : State) : Out :=
  fcpStep { op := 0xA4,
            valid := fun p _ => pf p 2 0 12 ≤ pf p 3 0 12 && pf p 2 16 12 ≤ pf p 3 16 12,
            run := fun p s => .wait .disCrc (max (pq p 4) (frameNo s + 1)) (s.up + 1000000000) (crcWindowSet p s) } p s

/-- The display's counts. -/
def disClear (s : State) : State := s.zeroFields [F_DIS_DROPPED_FLIPS_COUNT, F_DIS_UNDERRUN_COUNT]

/-- DIS_STATUS. -/
def execDisStatus (p : Packet) (s : State) : Out :=
  fcpStep { op := 0xA5,
            run := fun p s =>
              let w (a : Nat) : Nat := if s.dom .dis = 0 then 0 else (s.reg a).toNat
              .final (okR (w R_DIS_STATUS) (w R_DIS_FRAME_NO_LO) (w R_DIS_DROPPED_FLIPS) (w R_DIS_UNDERRUN))
                (if pb p 2 8 then disClear s else s) } p s

/-! ### Register writes -/

/-- Scan-out is enabled (R460): its reservation is held from now on when it fits; else no layer shows. -/
def disEnable (s : State) : State :=
  let t := s.wr F_DIS_CTRL_EN 1
  let t1 := if overBudget s t then t.wr F_DIS_STATUS_OVER_BUDGET 1 else disReserve t
  if s.inRecord then disPowerOn t1 else t1

/-- A write of DIS_CTRL. -/
def disCtrlWrite (v : Nat) (s : State) : State :=
  let s1 := s.wr F_DIS_CTRL_CRC_EN (v / 4)
  let s2 := if v.testBit 1 then disClear s1 else s1
  if v.testBit 0 && !s.on F_DIS_CTRL_EN then disEnable s2
  else if !v.testBit 0 && s.on F_DIS_CTRL_EN then disFigures (disPowerOff (s2.wr F_DIS_CTRL_EN 0)) else s2

/-- DIS_SCANOUT_ENABLE. -/
def execDisScanoutEnable (m : Nat) (v : Word) (s : State) : Out := .next (s.writeBy m R_DIS_CTRL (disCtrlWrite v.toNat))

/-- DIS_CLR_COUNTERS. -/
def execDisClrCounters (m : Nat) (v : Word) (s : State) : Out := .next (s.writeBy m R_DIS_CTRL (disCtrlWrite v.toNat))

/-- HELD accepts no commit (R464). -/
def disHeld (s : State) : Bool := s.rd F_DIS_STATUS_STATE == 5

/-- A write of DIS_MODE_COMMIT; a mode that R451 does not accept, or that needs more than DIS_RESERVE, is not applied
(R460). -/
def modeCommitWrite (v : Nat) (s : State) : State :=
  if !v.testBit 0 || disHeld s || !modeOk s.rd then s
  else if disNeed s s.rd > s.rd F_DIS_RESERVE_MBPS && s.on F_DIS_CTRL_EN then s.wr F_DIS_STATUS_OVER_BUDGET 1
  else modeCommit s

/-- DIS_MODE_COMMIT_GO. -/
def execDisModeCommitGo (m : Nat) (v : Word) (s : State) : Out := .next (s.writeBy m R_DIS_MODE_COMMIT (modeCommitWrite v.toNat))

/-- A write of DIS_COMMIT. -/
def layerCommitWrite (v : Nat) (s : State) : State := if disHeld s then s else disCommits s v

/-- DIS_LAYER_COMMIT_GO. -/
def execDisLayerCommitGo (m : Nat) (v : Word) (s : State) : Out := .next (s.writeBy m R_DIS_COMMIT (layerCommitWrite v.toNat))

/-- A write of DIS_Lk_LUT. -/
def disLutWrite (k v : Nat) (s : State) : State :=
  let s1 := s.wrs [(F_DIS_L_LUT_LOG k, v), (F_DIS_L_LUT_SHIFT k, v / 2)]
  if v.testBit 8 && !disHeld s then (s1.wr (F_DIS_L_LUT_SWAP k) 1).modDl k (fun l => { l with swap := true }) else s1

/-- DIS_LUT_SWAP. -/
def execDisLutSwap (m k : Nat) (v : Word) (s : State) : Out :=
  if 3 ≤ k then .next s else .next (s.writeBy m (R_DIS_L_LUT k) (disLutWrite k v.toNat))

/-- A write of the LUT window. -/
def disLutData (i : Nat) (v : Word) (s : State) : State :=
  let k := s.rd F_DIS_LUT_CTRL_SEL
  if 3 ≤ k then s else lutPut s k i v

/-- DIS_LUT_DATA_WRITE. -/
def execDisLutDataWrite (m i : Nat) (v : Word) (s : State) : Out :=
  if 1024 ≤ i then .next s else .next (s.writeBy m (R_DIS_LUT_DATA i) (disLutData i v))

/-- A write of DIS_AUX_CTRL: its fields are frozen and GO is ignored while BUSY (R464, Table 16.4). DESIGN CHOICE (log entry
39): GO starts the transfer and is not kept, so that it always reads 0; R5 does not say when such a bit falls. -/
def disAuxWrite (v : Nat) (s : State) : State :=
  let busy := s.on F_DIS_AUX_CTRL_BUSY
  let s1 := plainWrite s R_DIS_AUX_CTRL busy F_DIS_STATUS_WRITE_REFUSED v (fun f => f.lo < 28)
  if v.testBit 31 && !busy then (s1.wr F_DIS_AUX_CTRL_BUSY 1).modDis (fun d => { d with auxAt := s.up }) else s1

/-- DIS_AUX_GO. -/
def execDisAuxGo (m : Nat) (v : Word) (s : State) : Out := .next (s.writeBy m R_DIS_AUX_CTRL (disAuxWrite v.toNat))

/-! ### Events -/

/-- Bytes placed in DIS_AUX_DATA from byte `i` on. -/
def auxPut (s : State) : Nat → List Byte → State
  | _, [] => s
  | i, b :: bs => auxPut (s.wr ⟨R_DIS_AUX_DATA (i / 4), i % 4 * 8, 8⟩ b.toNat) (i + 1) bs

/-- AUX_TRANSFER_DONE: the reply, and the bytes that a read brought; no reply within four times 400 µs is TIMEOUT (R450). -/
def execAuxTransferDone (reply : Nat) (data : List Byte) (s : State) : Out :=
  let r := reply % 4
  if !s.on F_DIS_AUX_CTRL_BUSY || !s.domOn .dis || (r == 3 && s.up < s.dis.auxAt + 1600000) then .next s
  else
    let cmd := s.rd F_DIS_AUX_CTRL_CMD
    let s1 := s.wrs [(F_DIS_AUX_CTRL_BUSY, 0), (F_DIS_AUX_STATUS_REPLY, r)]
    let s2 := if r = 0 ∧ (cmd = 1 ∨ cmd = 5) then auxPut s1 0 (data.take (s.rd F_DIS_AUX_CTRL_LEN_M1 + 1)) else s1
    .next (if r = 3 then s2.raise 13 0x05 0 resNone 0 else s2)

/-- Frames run. -/
def scanning (s : State) : Bool := s.domOn .dis && disState s == 2

/-- The mode at a latch: with clock and lanes unchanged it governs the next frame, else the link goes idle, and retrains
when its rate or lanes change (R452). -/
def latchMode (s : State) : State :=
  if !s.on F_DIS_STATUS_MODE_PENDING then s
  else if !modeOk s.rd || disNeed (s.applyRegs modeRegs) (s.applyRegs modeRegs).rdE > s.rd F_DIS_RESERVE_MBPS then
    s.wrs [(F_DIS_STATUS_MODE_PENDING, 0), (F_DIS_STATUS_OVER_BUDGET, 1)]
  else
    let same (f : Fld) : Bool := s.rd f == s.rdE f
    let link := same F_DIS_LINK_RATE && same F_DIS_LINK_LANES
    let period := framePeriod s.rdE
    let s1 := modeNow s (!link)
    if link && same F_DIS_PCLK_KHZ then s1
    else
      let s2 := s1.modDis (fun d => { d with notBefore := s.up + period, frameRem := 0 })
      if link then disSet s2 3 else trainLink s2

/-- The banks of the LUTs exchange (R455). -/
def latchLuts (s : State) : State :=
  (List.range 3).foldl (fun t k =>
    if !(t.dl k).swap then t
    else
      let t1 := if (t.dl k).swapCmd then t.applyReg (R_DIS_L_LUT k) else t
      let t2 := (t1.wrs [(F_DIS_L_LUT_BANK k, 1 - t.rd (F_DIS_L_LUT_BANK k)), (F_DIS_L_LUT_SWAP k, 0)]).modDl k (fun l => { l with swap := false, swapCmd := false })
      t2.wake .disLut k (okR ((frameNo s + 1) % 4294967296) 0 0 0)) s

/-- The layers of a reset function go; MAP layers take their map's final bank (R456, R464). -/
def latchBanks (s : State) : State :=
  (List.range 3).foldl (fun t k =>
    let t1 := if (t.dl k).off then ((t.wr (F_DIS_L_CFG_EN k) 0).applyReg (R_DIS_L_CFG k)).modDl k (fun l => { l with off := false }) else t
    let m := (geoOf t1.rdE k).map
    t1.modDl k (fun l => { l with
      bank := if mapOn t1 m && t1.on (F_MAP_STATUS_FINAL_VALID m) then some (t1.rd (F_MAP_STATUS_FINAL_BANK m)) else none })) s

/-- The frame's CRC, where one is wanted (R463). -/
def latchCrc (s : State) : State :=
  let f := frameNo s
  let due (c : Inflight) : Bool := c.kind == .disCrc && c.key ≤ f
  if !s.on F_DIS_CTRL_CRC_EN && !s.fcp.inflight.any due then s
  else
    let v := frameCrc s
    let u := b2n (crcUnder s)
    let s1 := ((s.setReg R_DIS_CRC_VALUE (BitVec.ofNat 32 v)).wr64 R_DIS_CRC_FRAME_LO R_DIS_CRC_FRAME_HI f).wr F_DIS_CRC_FLAGS_CRC_UNDERRUN u
    s1.finishAll due (okR v (f % 4294967296) u 0)

/-- What a latch takes up (R461). -/
def latchTake (s : State) : State :=
  let f := (frameNo s + 1) % 4294967296
  let ks := committed s
  let s1 := latchLayers (latchMode s)
  let s2 := disLayersShow (disFigures (latchBanks (latchLuts s1)))
  let s3 := ks.foldl (fun t k => t.wake .disLayer k (disReply t f 0)) s2
  { s3 with fcp := { s3.fcp with inflight := s3.fcp.inflight.map (fun c =>
      if c.kind = .disFlip ∧ c.due < 2 then { c with due := c.due + 2 } else c) } }

/-- A frame's last active line is over: its CRC, and when the next frame is due (R451, R463). -/
def frameEnd (s : State) : State :=
  let total := vTotal s.rdE * hTotal s.rdE * 1000000 + s.dis.frameRem
  let pclk := max 1 (s.rdE F_DIS_PCLK_KHZ)
  (latchCrc s).modDis (fun d => { d with inFrame := false, notBefore := s.dis.frameAt + total / pclk, frameRem := total % pclk })

/-- FRAME_LATCH: the start of line VACTIVE; while HELD nothing is taken up (R461, R464). -/
def execFrameLatch (s : State) : Out :=
  if !scanning s || !s.dis.inFrame || s.up < linesAt s (s.rdE F_DIS_VACT_VACTIVE) then .next s
  else .next (if disHeld s then frameEnd s else latchTake (frameEnd s))

/-- UNDERRUN and LBUF_UE of a frame (R459, R465). -/
def frameErrors (s : State) (missing : List Missing) (ue : List (Nat × Nat)) : State :=
  let s1 := s.bumpBy F_DIS_UNDERRUN_COUNT missing.length
  let quiet := match s.dis.urAt with | some t => decide (s.up < t + 1000000000) | none => false
  let s2 := if missing.isEmpty || quiet then s1 else (s1.modDis (fun d => { d with urAt := some s.up })).raise 13 0x01 0 resNone 0
  ((ue.map (fun e => min 3 e.1)).eraseDups).foldl (fun t k => t.raise 13 0x02 2 (resIndex k) 0) s2

/-- Layers whose commit takes effect in the frame that starts (R462). -/
def frameFlips (s : State) : State :=
  (List.range 3).foldl (fun t k =>
    if !(t.dl k).taken then t
    else ((t.wr64 (R_DIS_L_FLIP_FRAME_LO k) (R_DIS_L_FLIP_FRAME_HI k) (frameNo t)).wrTs (R_DIS_L_FLIP_W k 0) t.now).modDl k (fun l =>
      { l with taken := false })) s

/-- The first frame of a mode (R452). -/
def frameMode (s : State) : State :=
  match s.dis.applied with
  | none => s
  | some r =>
    let f := frameNo s
    let w := tsWords s.now
    let s1 := (s.modDis (fun d => { d with applied := none })).postEvent 0 0x0D01 [f, b2n r, (w.getD 1 0).toNat, (w.getD 2 0).toNat]
    s1.finishAll (fun c => c.kind == .disMode && c.due == 1) (disReply s1 f (b2n r))

/-- A frame starts: its number and time, what it shows, its errors, and the commands that waited for it (R452, R461, R462). -/
def frameBegin (missing ue : List (Nat × Nat)) (s : State) : State :=
  let inAct (m : Nat × Nat) : Bool := m.1 < s.rdE F_DIS_HACT_HACTIVE && m.2 < s.rdE F_DIS_VACT_VACTIVE
  let ms := ((missing.filter inAct).map (fun m => ({ x := m.1, y := m.2 } : Missing))).eraseDups
  let s1 := ((disSet s 2).wr64 R_DIS_FRAME_NO_LO R_DIS_FRAME_NO_HI ((frameNo s + 1) % 2 ^ 64)).wrTs (R_DIS_FRAME_W 0) s.now
  let s2 := (s1.applyRegs [R_DIS_CRC_WIN0, R_DIS_CRC_WIN1]).modDis (fun d => { d with
    inFrame := true, frameAt := s.up, frameRem := if s.up = d.notBefore then d.frameRem else 0, missing := ms,
    badLines := ue.map (fun e => e.2), light := false })
  let s3 := if s.dis.light && !disHeld s then disPins (s2.wr F_DIS_PANEL_BL_EN 1) else s2
  let s4 := frameMode (frameFlips (frameErrors s3 ms ue))
  let ws := tsWords s.now
  let flip (drop : Nat) (t : State) : State := t.finishAll (fun c => c.kind == .disFlip && c.due == 2 + drop)
    (okR drop (frameNo s4 % 4294967296) (ws.getD 1 0).toNat (ws.getD 2 0).toNat)
  let s5 := flip 1 (flip 0 s4)
  { s5 with fcp := { s5.fcp with inflight := s5.fcp.inflight.map (fun c =>
      if c.kind = .disCrc then { c with due := s.up + 1000000000 } else c) } }

/-- FRAME_START: the first active pixel is launched. `missing` are the pixels of this frame whose data come too late, `ue`
the lines lost to an uncorrectable word, each with its layer, or 3 for a LUT (R459, R461, R465). -/
def execFrameStart (missing : List (Nat × Nat)) (ue : List (Nat × Nat)) (s : State) : Out :=
  if !s.domOn .dis || !(disState s == 2 || disState s == 3) || s.dis.inFrame || s.up < s.dis.notBefore then .next s
  else .next (frameBegin missing ue s)

/-- DIS_LINK_TRAINING: training succeeds, or has not within 100 ms (R449). -/
def execDisLinkTraining (ok : Bool) (s : State) : Out :=
  if !s.domOn .dis || disState s ≠ 1 then .next s
  else if ok then
    let s1 := disSet s 3
    .next (if s.dis.lost then linkChanged (s1.modDis (fun d => { d with lost := false })) else s1)
  else if s.up < s.dis.trainAt + 100000000 then .next s
  else
    let s1 := (disSet s 4).raise 13 0x03 0 resNone 0
    .next (s1.finishAll (fun c => c.kind == .disMode && c.due == 1) { st := .timeout })

/-- HPD_LOSS: EDP_HPD has been low for 2 ms (R450). -/
def execHpdLoss (s : State) : Out :=
  let s0 := { s with pins := { s.pins with hpd := false } }
  if !s.domOn .dis || s.rd F_DIS_STATUS_STATE = 0 then .next s0
  else
    let s1 := (disSet s0 4).wr F_DIS_STATUS_HPD 0
    if !s.on F_DIS_STATUS_HPD then .next s1
    else .next (linkChanged ((s1.modDis (fun d => { d with lost := true, inFrame := false })).raise 13 0x04 0 resNone 0))

/-- IRQ_HPD: `lost` says that the panel's lane status shows lock or alignment lost (R449, R450). -/
def execIrqHpd (lost : Bool) (s : State) : Out :=
  if !s.domOn .dis || !s.on F_DIS_STATUS_HPD then .next s
  else if disState s = 4 then .next (trainLink s)
  else if lost && (disState s == 2 || disState s == 3) then
    .next (linkChanged ((trainLink s).modDis (fun d => { d with lost := true })))
  else .next s

/-- HPD_RISE: EDP_HPD rises; a panel that had gone is trained afresh (R450). -/
def execHpdRise (s : State) : Out :=
  let s0 := { s with pins := { s.pins with hpd := true } }
  if !s.domOn .dis || s.rd F_DIS_STATUS_STATE = 0 then .next s0
  else
    let s1 := s0.wr F_DIS_STATUS_HPD 1
    .next (if disState s = 4 then trainLink s1 else s1)

end Sys2Proof.Machine
end

