-- ==== Sys2Proof/Machine/Eng.lean ====
section
/-!
DEFINITION. The engines' commands (chapter 8): loading and running chains, jobs from ready to commit, faults, fences and
spares.
-/

namespace Sys2Proof.Machine

/-! ### Loading (R240, R309) -/

/-- A context's contract is in force. -/
def conHeld (p : Packet) (s : State) : Bool := (contractOf s (pCtx p)).isSome

/-- A chain as a load asks for it. -/
structure ChainAsk where
  img : Image
  lib : Option (List Word)
  cjob : Nat
  load : Nat
  units : Nat
  pin : Option Nat
  start : Bool
  at_ : Nat
  n : Nat
  c : Nat

/-- Bytes of retention in ns that the replayable feeds of a chain need at most (R229). -/
def retention (s : State) (f : Nat) : Rat :=
  if s.inWatch then granarySpan s - (if streamRate s f = 0 then 0 else 64 / streamRate s f) else siloSpan s

/-- A replayable feed is admitted only within its retention (R229). -/
def replayFits (s : State) (i : Image) : Bool :=
  (imgFeeds i).all (fun f => !replayable s f.1
    || decide ((if i.trigger = 2 then (i.win : Rat) else (i.win : Rat) * feedPer s f.1 / (ns1 : Rat)) + (i.deadline : Rat) ≤ retention s f.1))

/-- R263 for the maps that a new chain references. -/
def mapsAdmit (s : State) (a : ChainAsk) (ctx n : Nat) : Bool :=
  (imgMaps a.img).all (fun m => !mapOn s m || mapAdmit s m (settleOf s m (chainWorst s a.img a.cjob a.units ctx n 0)))

/-- The context's free pieces whose envelope holds the chain, by engine (R309), where the engine and its barn have room and the
barn's mirror total stays within ENG_MIRROR_LIMIT (R213, R229, Table 8.6). -/
def fitPieces (s : State) (a : ChainAsk) (k : Contract) : List Nat :=
  let es := ((k.pieces.filter (fun p => p.chain.isNone && (match a.pin with | some b => p.eng / 8 == b | none => true))).map (fun p => p.eng))
  let ready := chainReady s a.img
  let mirror := mirrorBytes s a.img
  let w := worldBut s none
  let ok := a.cjob ≤ k.f 4 0 24 && a.load ≤ k.f 3 0 32 && decide (ready ≤ (k.f 14 0 16 : Rat)) && a.units ≤ k.f 14 16 16
    && mirror ≤ k.f 15 24 8 * 2048 && k.f 5 0 32 ≤ commitDeadline s a.img a.lib && replayFits s a.img
  let held (n : Nat) : Bool := !guarded s (n / 8) || decide ((mirror : Int) ≤ mirrorFree s (n / 8) w + (k.f 15 24 8 * 2048 : Nat))
  if ok then es.filter (fun n => (chainsOn s n).length < 4 && chainRoom s w a.img n && held n && mapsAdmit s a k.ctx n) else []

/-- The NO_BUDGET reply of a load (Table 8.8). -/
def loadRefusal (s : State) (a : ChainAsk) (k : Contract) : Reply :=
  let free := k.pieces.filter (fun p => p.chain.isNone)
  let barn := match a.pin, free with | some b, _ => b | none, p :: _ => p.eng / 8 | none, [] => 0
  { st := .noBudget, r0 := free.length * k.f 3 0 32, r1 := (max 0 (mirrorFree s barn (worldBut s none))).toNat }

/-- A new chain on an engine. -/
def chainNew (s : State) (ctx : Nat) (a : ChainAsk) (e id : Nat) : Chain :=
  { id := id, ctx := ctx, eng := e, img := a.img, lib := a.lib, cycN := a.n, cycC := a.c, running := a.start,
    parked := !s.domOn (.barn (e / 8)) && !s.inRecord, startTs := if a.at_ = 0 then s.now else a.at_, stopping := false, lastW := none,
    rings := (imgFeeds a.img).map (fun _ => []), nextW := none, lastSeq := none, lastEnd := 0, lastLen := 0, committed := 0, abandoned := 0, rerun := 0,
    hostRuns := 0, st := ChSt.reset, cjob := a.cjob, load := a.load, ready := (chainReady s a.img).ceil.toNat,
    mirror := mirrorBytes s a.img, outUnits := a.units }

/-- A chain takes its piece; its barn has power. -/
def chainPut (s : State) (c : Chain) : State :=
  let s1 := (s.modEng (fun g => { g with chains := g.chains ++ [c] })).modCon (fun q => { q with list := q.list.map (fun x =>
    if x.ctx = c.ctx then
      { x with pieces :=
        let i := x.pieces.findIdx (fun p => p.eng == c.eng && p.chain.isNone)
        listMod x.pieces i (fun p => { p with chain := some c.id }) }
    else x) })
  admRegs (barnPower s1 (c.eng / 8))

/-- What a load answers, from the state it leaves. -/
def chainReply (s : State) (a : ChainAsk) (c : Chain) : Reply :=
  okR (c.id + (engMaster c.eng <<< 16)) a.cjob (chainWorst s a.img a.cjob a.units c.ctx c.eng c.id) c.mirror

/-- A chain is placed on the lowest fitting engine and loaded. -/
def chainPlace (s : State) (ctx : Nat) (a : ChainAsk) : FcpOut :=
  match contractOf s ctx with
  | none => fSt .notPermitted s
  | some k =>
    if k.broken then fSt .contractBroken s
    else
      match fitPieces s a k, lowestFree (s.eng.chains.map (fun c => c.id)) 1 65535 with
      | n :: ns, some id =>
        let c := chainNew s ctx a (ns.foldl min n) id
        .final (chainReply (chainPut s c) a c) (chainPut s c)
      | _, _ => .final (loadRefusal s a k) s

/-- The image of a CHAIN_LOAD packet. -/
def loadBytes (p : Packet) : List Byte := p.buf.take (pf p 5 0 10)

/-- Why a CHAIN_LOAD packet is refused with BAD_PARAM: result dword 0. -/
def loadBad (p : Packet) (s : State) : Option Nat :=
  if pb p 2 1 && pf p 2 4 4 > 11 then some (31 + 4 * 256)
  else (imgCheck (imgEnv s (pCtx p)) (loadBytes p)).map (fun r => r.1 + r.2 * 256)

/-- What a CHAIN_LOAD asks for. -/
def loadAsk (p : Packet) (s : State) : ChainAsk :=
  let i := Image.parse (loadBytes p)
  let cj := chainCost i.bufs i.ops
  { img := i, lib := none, cjob := cj, load := chainLoad s i cj, units := imgOut s i, pin := if pb p 2 1 then some (pf p 2 4 4) else none,
    start := pb p 2 0, at_ := pTs p 6, n := 0, c := 0 }

/-- CHAIN_LOAD. -/
def execChainLoad (p : Packet) (s : State) : Out :=
  fcpStep { op := 0x50, permit := conHeld, aligned := fun p _ => pq p 3 % 64 == 0,
            valid := fun p s => conBroken s (pCtx p) || (loadBad p s).isNone,
            badRes := fun p s => ((loadBad p s).getD 0, 0),
            run := fun p s => chainPlace s (pCtx p) (loadAsk p s) } p s

/-! ### Unloading, starting, status -/

/-- The chain a packet names, of its own context. -/
def ownChain (p : Packet) (s : State) : Option Chain :=
  match s.chain? (pf p 2 0 16) with
  | some c => if c.ctx = pCtx p then some c else none
  | none => none

/-- CHAIN_UNLOAD. -/
def execChainUnload (p : Packet) (s : State) : Out :=
  fcpStep { op := 0x51, permit := conHeld, valid := fun p s => (ownChain p s).isSome,
            run := fun p s =>
              match ownChain p s with
              | none => fSt .badParam s
              | some c =>
                if pb p 2 16 then
                  let s1 := s.modChain c.id (stopChain s)
                  let c1 := stopChain s c
                  if drained s1 c1 then .final (okR c.committed 0 0 0) ((admRegs (unloadChain s1 c.id)))
                  else .wait .chainDrain c.id 0 s1
                else .final (okR c.committed (jobsOf s c.id).length 0 0) ((admRegs (unloadChain s c.id))) } p s

/-- A chain starts at a time, 0 for now; one that runs takes the new start. -/
def chainBegin (s : State) (id t : Nat) : State :=
  s.modChain id (fun c => if c.running then { c with startTs := if t = 0 then s.now else t }
    else { c with running := true, startTs := if t = 0 then s.now else t, nextW := none })

/-- CHAIN_START. -/
def execChainStart (p : Packet) (s : State) : Out :=
  fcpStep { op := 0x52, permit := conHeld, valid := fun p s => (ownChain p s).isSome,
            run := fun p s =>
              let id := pf p 2 0 16
              if conBroken s (pCtx p) then fSt .contractBroken s
              else if pb p 2 16 then fOk (drains (s.modChain id (fun c => { c with running := false, nextW := none })))
              else fOk (chainBegin s id (pTs p 3)) } p s

/-- The oldest time from which every STORE_IN of an image is held. -/
def storeOldest (s : State) (i : Image) : Nat :=
  ((i.ops.filter (fun o => o.code == 2)).map (fun o => oldestHeld s (o.p0 % 128))).foldl max 0

/-- A CHAIN_RUN's job waits for its engine. -/
def hostRun (p : Packet) (s : State) (c : Chain) : State :=
  let j : Job := {
    chain := c.id, eng := c.eng, seq := c.hostRuns, start := pTs p 3, wend := pTs p 3 + c.img.win * ns1, flags := 0,
    cmd := some (p.qid, pTag p), retried := false, ins := [], state := 0, at_ := s.up, out := none }
  barnRegs ((s.modEng (fun e => { e with jobs := e.jobs ++ [j] })).modChain c.id (fun x => { x with hostRuns := x.hostRuns + 1 })) (c.eng / 8)

/-- CHAIN_RUN. -/
def execChainRun (p : Packet) (s : State) : Out :=
  fcpStep { op := 0x53, permit := conHeld,
            valid := fun p s => match ownChain p s with | some c => c.img.trigger == 4 | none => conBroken s (pCtx p),
            run := fun p s =>
              match ownChain p s with
              | none => fSt .contractBroken s
              | some c =>
                if pTs p 3 < storeOldest s c.img then .final (notRetainedR (storeOldest s c.img)) s
                else .wait .chainRun c.id 0 (hostRun p s c) } p s

/-- What a CHAIN_STATUS answers. -/
def chainStatusReply (c : Chain) : Reply :=
  okR ((if c.parked then 2 else b2n c.running) + (c.eng <<< 8)) c.committed (c.lastSeq.getD 0)
    (min 65535 c.abandoned + (min 65535 c.rerun <<< 16))

/-- CHAIN_STATUS. -/
def execChainStatus (p : Packet) (s : State) : Out :=
  fcpStep { op := 0x54, permit := conHeld, valid := fun p s => (ownChain p s).isSome,
            run := fun p s =>
              match ownChain p s with
              | none => fSt .badParam s
              | some c => .final (chainStatusReply c) s } p s

/-- The barn's counters. -/
def barnCounters (b : Nat) : List Fld :=
  [F_ENG_COMMITS_LO_COUNT b, F_ENG_COMMITS_HI_COUNT b, F_ENG_DUP_COUNT b, F_ENG_RETRIED_COUNT b, F_ENG_INPUT_LOST_COUNT b,
   F_ENG_FEED_OVERRUN_COUNT b, F_ENG_RES_LOST_COUNT b]
  ++ (List.range 8).flatMap (fun e => [F_ENG_E_BUSY_LO_CYCLES b e, F_ENG_E_BUSY_HI_CYCLES b e, F_ENG_E_JOBS_COUNT b e,
    F_ENG_E_CE_TOTAL b e])

/-- A barn's register, 0 while its domain is off. -/
def barnReg (s : State) (b a : Nat) : Nat := if s.dom (.barn b) = 0 then 0 else (s.reg a).toNat

/-- ENG_STATUS. -/
def execEngStatus (p : Packet) (s : State) : Out :=
  fcpStep { op := 0x55, permit := conHeld, valid := fun p _ => pf p 2 0 4 ≤ 11,
            run := fun p s =>
              let b := pf p 2 0 4
              .final (okR (barnReg s b (R_ENG_STATUS b)) (barnReg s b (R_ENG_MIRROR_USED b)) (barnReg s b (R_ENG_RETRIED b))
                (barnReg s b (R_ENG_INPUT_LOST b))) (if pb p 2 8 then s.zeroFields (barnCounters b) else s) } p s


/-! ### Commit (R226 to R228) -/

/-- Change a job. -/
def State.modEJob (s : State) (id seq : Nat) (g : Job → Job) : State :=
  s.modEng (fun e => { e with jobs := e.jobs.map (fun j => if j.chain = id ∧ j.seq = seq then g j else j) })

/-- A job leaves without a commit. -/
def State.dropJob (s : State) (id seq : Nat) : State :=
  s.modEng (fun e => { e with jobs := e.jobs.filter (fun j => !(j.chain == id && j.seq == seq)) })

/-- Records go to CAP; in Watch they wait in the commit unit's chute of 1024 (R228). -/
def resultOut (s : State) (n stream : Nat) (bs : List Byte) (wend : Nat) : State :=
  let b := n / 8
  if s.recording then pushResult s stream bs wend
  else if s.eng.chute.length < 1024 then s.modEng (fun e => { e with chute := e.chute ++ [(stream, wend, bs)] })
  else engOnce (s.bump (F_ENG_RES_LOST_COUNT b)) b 0x0B wend (resMaster (engMaster n))

/-- A job's flags as its outputs carry them. -/
def outFlags (j : Job) : Nat := j.flags ||| (if j.retried then 16 else 0)

/-- Result records: those of a group's members go to the finisher, and to CAP only with KEEP_BASIC (R249). -/
def commitRes (s : State) (c : Chain) (j : Job) (rs : List ResOut) : State :=
  rs.foldl (fun t r =>
    let wlen := (j.wend - j.start) / ns1
    let grp := match c.lib with | some d => libGroup d != 0 | none => false
    let keep := match c.lib with | some d => libKeep d || libGroup d == 0 | none => true
    let t1 := if grp then t.modEng (fun e => { e with recs := e.recs ++ [{
    ctx := c.ctx, group := (match c.lib with | some d => libGroup d | none => 0), at_ := t.up, chain := c.id, seq := j.seq, kind := r.kind, wend := j.wend, wlen := wlen, flags := outFlags j, vals := r.vals }] }) else t
    if keep then resultOut t1 j.eng r.stream
      (resBytes j.wend wlen c.id j.seq r.kind (outFlags j) r.vals r.stream (engMaster j.eng)) j.wend else t1) s

/-- Base-note records, to TRG. -/
def commitBns (s : State) (j : Job) (l : List (Nat × Nat)) : State :=
  l.foldl (fun t x =>
    if !t.domOn .intake || !trgActive t then t
    else trgRefresh (bnArrive t {
      value := x.2, wend := j.wend, wlen := (j.wend - j.start) / ns1, bn := x.1, flags := outFlags j,
                                  engine := engMaster j.eng, seq := j.seq })) s

/-- Host output, to the DMA channels that the chain's context owns. -/
def commitHost (s : State) (c : Chain) (j : Job) (l : List (Nat × Nat × List Byte)) : State :=
  l.foldl (fun t x =>
    if t.on (F_DMA_C_CFG_OPEN x.1) && chCtx t x.1 == c.ctx then
      emitPush t x.1 { chain := c.id, tag := x.2.1, seq := j.seq, bytes := x.2.2, bad := false }
    else t) s

/-- A gap in the SEQ numbers of a FLICKER chain: its next Pst carries UNSETTLED (R254). -/
def flickGap (s : State) (id : Nat) : State :=
  s.modEng (fun e => { e with flicks := e.flicks.map (fun f => if f.chain = id then { f with fresh := true } else f) })

/-- The delivery of a sealed job's outputs in the order of R226. -/
def commitJob (s : State) (c : Chain) (j : Job) (o : Staged) : State :=
  let b := j.eng / 8
  let s1 := s.modChain c.id (fun x => { x with st := o.st, committed := x.committed + 1, lastSeq := some j.seq, lastEnd := j.wend, lastLen := (j.wend - j.start) / ns1 })
  let s1 := if c.lastSeq.any (fun q => q + 1 != j.seq) then flickGap s1 c.id else s1
  let s2 := mapCommit s1 c j.wend (outFlags j) o.maps
  let s3 := commitRes s2 c j o.res
  let s4 := commitBns s3 j o.bns
  let s5 := commitHost s4 c j o.host
  let s6 := match j.cmd with
    | some (q, t) => match s5.inflight? q t with
      | some cmd => s5.finish cmd { st := .ok, r0 := j.seq, r1 := j.seq / 4294967296, r2 := outFlags j, r3 := o.bytes, retried := j.retried }
      | none => s5
    | none => s5
  ((s6.dropJob j.chain j.seq).bump64 (R_ENG_COMMITS_LO b) (R_ENG_COMMITS_HI b)).bump (F_ENG_E_JOBS_COUNT b (j.eng % 8))

/-- The oldest sealed job of a barn. -/
def sealedIn (s : State) (b : Nat) : Option Job := s.eng.jobs.find? (fun j => j.eng / 8 == b && j.state == 2)

/-- The commit unit delivers a sealed job's outputs; a SEQ that is not new is discarded whole (R227). -/
def commitSealed (s : State) (c : Chain) (j : Job) (o : Staged) : State :=
  if (match c.lastSeq with | some q => decide (j.seq ≤ q) | none => false) then
    ((s.dropJob j.chain j.seq).bump (F_ENG_DUP_COUNT (j.eng / 8))).raiseAt j.wend 9 0x0A 0 (resMaster (engMaster j.eng)) 0 (engMaster j.eng)
  else commitJob s c j o

/-- Jobs that were sealed before a fault commit, before a chain of theirs is unloaded for it (R227, R231). -/
def commitBefore (s : State) (test : Chain → Job → Bool) : State :=
  (s.eng.jobs.filter (fun j => j.state == 2)).foldl (fun t j =>
    match t.chain? j.chain, j.out with
    | some c, some o => if test c j then commitSealed t c j o else t
    | _, _ => t) s

/-! ### Fences (R231 to R235) -/

/-- Chains, their pieces and their unsealed jobs move from one engine to another. -/
def moveEngine (s : State) (n sp : Nat) : State :=
  (s.modEng (fun e => { e with
    chains := e.chains.map (fun c => if c.eng = n then { c with eng := sp } else c),
    jobs := e.jobs.map (fun j => if j.eng = n ∧ j.state ≠ 2 then { j with eng := sp } else j) })).modCon (fun k => { k with
      list := k.list.map (fun x => { x with pieces := x.pieces.map (fun p => if p.eng = n then { p with eng := sp } else p) }) })

/-- In-flight jobs of an engine run again (R232, R235). -/
def rerunOn (s : State) (n : Nat) : State × Nat :=
  let js := s.eng.jobs.filter (fun j => j.eng == n && j.state == 3)
  (js.foldl (fun t j =>
    ((t.modEng (fun e => { e with jobs := e.jobs.map (fun x =>
      if x.chain = j.chain ∧ x.seq = j.seq ∧ x.state = 3 then { x with state := 0, retried := true } else x) })).modChain j.chain
        (fun c => { c with rerun := c.rerun + 1 })).bump (F_ENG_RETRIED_COUNT (n / 8))) s, js.length)

/-- ENGINE_FENCED to the physical function and to every context that had a chain on the engine (R235). -/
def fenceEvent (s : State) (ctxs : List Nat) (n sp typ jobs mask broken : Nat) : State :=
  ((0 :: ctxs.filter (· != 0)).eraseDups).foldl (fun t c =>
    t.postEvent c 0x0901 [engMaster n + sp * 256 + typ * 65536, jobs, mask, broken]) s

/-- An engine stops: blocked, its unsealed jobs in flight, its locks released, its fence registers written. A predictive
fence leaves its jobs to run (R231). -/
def fenceMark (s : State) (n typ ts : Nat) (predict : Bool) : State :=
  let b := n / 8
  let e := n % 8
  let s1 := s.modEng (fun g => { g with
    fenced := g.fenced ++ [n], predict := g.predict.filter (· != n), testing := g.testing.filter (fun t => t.1 != n),
    jobs := if predict then g.jobs else g.jobs.map (fun j => if j.eng = n ∧ j.state < 2 then { j with state := 3 } else j) })
  let s2 := s1.wrs [(F_ENG_E_FENCE_CAUSE_TYPE b e, typ), (F_ENG_E_FENCE_CAUSE_PREDICTIVE b e, b2n predict),
    (F_ENG_E_FENCE_CAUSE_RERUN b e, 0)]
  lockForceOf (s2.wrTs (R_ENG_E_FENCE_W b e 0) ts) 2 (fun m => m == engMaster n)

/-- An engine is fenced for a record of a type at a time (R231 to R235). -/
def fence (s : State) (n typ ts : Nat) (predict : Bool) : State :=
  if s.eng.fenced.contains n then s
  else
    let b := n / 8
    let ctxs := (chainsOn s n).map (fun c => c.ctx)
    let s0 := s.raiseAt ts 9 typ (if predict then 1 else 2) (resMaster (engMaster n)) 0 (engMaster n)
    let wasSpare := spareOf s n == some n || spareOf s b == some n
    let s1 := fenceMark s0 n typ ts predict
    if wasSpare then
      let s2 := (s1.modEng (fun g => { g with spare := listMod g.spare b (fun _ => none) })).wr (F_ENG_STATUS_UNGUARDED b) 1
      fenceEvent (budgetCheck (barnRegs s2 b) true) ctxs n 0 typ 0 1 0
    else
      match spareOf s1 b with
      | some sp =>
        let s2 := (s1.modEng (fun g => { g with spare := listMod g.spare b (fun _ => none), act := listMod g.act b (fun _ => some sp) })).wr
          (F_ENG_STATUS_UNGUARDED b) 1
        let (s3, k) := rerunOn (moveEngine s2 n sp) sp
        let s4 := s3.wr (F_ENG_E_FENCE_CAUSE_RERUN b (n % 8)) (min 255 k)
        fenceEvent (budgetCheck (barnRegs s4 b) true) ctxs n (engMaster sp) typ k 1 0
      | none =>
        let (s2, br, k) := admitRerun (commitBefore s1 (fun c _ => ctxs.contains c.ctx)) 1 (engMaster n)
        let s3 := (barnRegs s2 b).wr (F_ENG_E_FENCE_CAUSE_RERUN b (n % 8)) (min 255 k)
        drains (fenceEvent s3 ctxs n 0 typ k (s3.rd (F_ENG_STATUS_UNGUARDED b) + 2) br)

/-- The running job of an engine. -/
def runningOn (s : State) (n : Nat) : Option Job := s.eng.jobs.find? (fun j => j.eng == n && j.state == 1)

/-- The time of a fence's record: the WEND of the running job (R231). -/
def fenceTs (s : State) (n : Nat) : Nat := match runningOn s n with | some j => j.wend | none => s.now

/-- An engine acts: its barn is on, it is not fenced, the machine is not in Containment. -/
def engLive (s : State) (n : Nat) : Bool :=
  n < 96 && s.domOn (.barn (n / 8)) && !s.eng.fenced.contains n && !s.err.contained

/-- A corrected local-memory error (R231, Table 8.7). -/
def lmemCe (s : State) (n : Nat) : State :=
  let b := n / 8
  let s1 := (s.modEng (fun e => { e with ces := e.ces.filter (fun c => decide (s.up < c.2 + 1000000000)) ++ [(n, s.up)] })).raise 9 0x01 1
    (resMaster (engMaster n)) 0 (engMaster n)
  let k := (cesNow s1 n).length
  let s2 := (s1.bump (F_ENG_E_CE_TOTAL b (n % 8))).wr (F_ENG_E_CE_LAST_S b (n % 8)) (min 65535 k)
  let lim := s.rd (F_ENG_CE_LIMIT_PER_S b)
  if lim = 0 ∨ k ≤ lim ∨ s2.eng.predict.contains n then s2
  else if (runningOn s2 n).isSome then s2.modEng (fun e => { e with predict := e.predict ++ [n] })
  else fence s2 n 6 (fenceTs s2 n) true

/-- ENGINE_FAULT: a corrected local-memory error (1), an uncorrectable word (2), or a residue check (3). -/
def execEngineFault (n typ : Nat) (s : State) : Out :=
  if !engLive s n then .next s
  else if typ = 1 then .next (lmemCe s n)
  else if typ = 2 ∨ typ = 3 then .next (fence s n typ (fenceTs s n) false)
  else .next s

/-- Nanoseconds of a number of FCLK cycles. -/
def fclkNs (s : State) (n : Nat) : Nat := cdiv (n * 1000000) (max 1 s.clk.fkhz)

/-- C_job of a job's chain. -/
def jobCycles (s : State) (j : Job) : Nat := match s.chain? j.chain with | some c => c.cjob | none => 0

/-- ENGINE_WATCHDOG: a job has run C_job + 2000 FCLK without sealing (R231). -/
def execEngineWatchdog (n : Nat) (s : State) : Out :=
  match runningOn s n with
  | none => .next s
  | some j =>
    if !engLive s n || s.up < j.at_ + fclkNs s (jobCycles s j + 2000) then .next s else .next (fence s n 4 j.wend false)

/-- SPARE_ACTIVATE: the spare holds the fenced engine's chains and runs (R232). -/
def execSpareActivate (b : Nat) (s : State) : Out :=
  if s.err.contained then .next s else .next (barnRegs (s.modEng (fun e => { e with act := listMod e.act b (fun _ => none) })) b)

/-- A barn is fenced for its commit unit (R234). -/
def fenceBarn (s : State) (b : Nat) : State :=
  let es := ((List.range 8).map (fun e => 8 * b + e)).filter (fun n => !s.eng.fenced.contains n)
  let ctxOf := es.map (fun n => (n, (chainsOn s n).map (fun c => c.ctx)))
  let s0 := s.raise 9 0x07 2 (resIndex b) 0
  let s1 := es.foldl (fun t n => fenceMark t n 7 s0.now false) s0
  let s2 := (s1.modEng (fun g => { g with
    spare := listMod g.spare b (fun _ => none), act := listMod g.act b (fun _ => none),
    jobs := g.jobs.map (fun j => if j.eng / 8 = b ∧ j.state = 2 then { j with state := 3, out := none } else j) })).wrs
      [(F_ENG_STATUS_BARN_FENCED b, 1), (F_ENG_STATUS_UNGUARDED b, 1)]
  let (s3, br, k) := admitRerun (commitBefore s2 (fun c _ => ctxOf.any (fun x => x.2.contains c.ctx))) 1 (engMaster (8 * b))
  let again (n : Nat) : Nat := (s2.eng.jobs.filter (fun j => j.eng == n && j.state == 3
    && s3.eng.jobs.any (fun x => x.chain == j.chain && x.seq == j.seq && x.retried))).length
  let s4 := es.foldl (fun t n => t.wr (F_ENG_E_FENCE_CAUSE_RERUN b (n % 8)) (min 255 (again n))) (barnRegs s3 b)
  drains (ctxOf.foldl (fun t x => fenceEvent t x.2 x.1 0 7 k 7 br) s4)

/-- COMMIT_UNIT_ERROR: retried once; `ok` when the retry succeeds (R234). -/
def execCommitUnitError (b : Nat) (ok : Bool) (s : State) : Out :=
  if !s.domOn (.barn b) || s.err.contained || b > 11 then .next s
  else if ok then .next (s.raise 9 0x07 1 (resIndex b) 0)
  else .next (fenceBarn s b)

/-- ENG_UNFENCE. -/
def execEngUnfence (p : Packet) (s : State) : Out :=
  fcpStep { op := 0x56, pfOnly := true, valid := fun p s => s.eng.fenced.contains (pf p 2 0 7) && !s.eng.testing.any (fun t => t.1 == pf p 2 0 7),
            run := fun p s =>
              let n := pf p 2 0 7
              let s1 := s.modEng (fun e => { e with testing := e.testing ++ [(n, p.qid, pTag p)] })
              .wait .unfence n (s.up + 5000000) (barnRegs s1 (n / 8)) } p s

/-- The self-test of an engine has ended. -/
def testEnd (s : State) (n : Nat) : State := s.modEng (fun e => { e with testing := e.testing.filter (fun t => t.1 != n) })

/-- An engine is back: not fenced, its record acknowledged, the barn's spare again where there is none (R240). -/
def engReturn (s : State) (n : Nat) : State :=
  let b := n / 8
  let s2 := ackResource (s.modEng (fun e => { e with fenced := e.fenced.filter (· != n) })) 9 (resMaster (0x40 + n))
  let spare := s2.on (F_ENG_CTRL_GUARD b) && (spareOf s2 b).isNone
  let s3 := if spare then
      (s2.modEng (fun e => { e with spare := listMod e.spare b (fun _ => some n) })).wr (F_ENG_STATUS_UNGUARDED b) 0
    else s2
  if ((List.range 8).any (fun e => s3.eng.fenced.contains (8 * b + e))) then s3 else s3.wr (F_ENG_STATUS_BARN_FENCED b) 0

/-- UNFENCE_SELF_TEST_DONE: the 5 ms self-test of an engine ends (R240). -/
def execUnfenceSelfTestDone (n : Nat) (ok : Bool) (s : State) : Out :=
  if !(s.fcp.inflight.any (fun c => c.kind == .unfence && c.key == n && decide (c.due ≤ s.up))) then .next s
  else
    if !ok then .next (barnRegs ((testEnd s n).wake .unfence n { st := .hwError }) (n / 8))
    else
      let r := (engReturn (testEnd s n) n).takeBits 32
      .next ((capRisen (admRegs (barnRegs r.2 (n / 8)))).wake .unfence n (okR r.1 0 0 0))

/-- The position that is a barn's guard and spare. -/
def guardPos (b sel : Nat) (g : Bool) : Option Nat := if g then some (8 * b + sel) else none

/-- A barn with another guard and spare position, or none when its pieces would no longer pass (R313). -/
def guardBarn (s : State) (b : Nat) (g : Bool) (sel : Nat) : Option State :=
  let sp := 8 * b + sel
  if s.on (F_ENG_CTRL_GUARD b) == g && s.rd (F_ENG_CTRL_SPARE_SEL b) == sel && (spareOf s b == guardPos b sel g) then some s
  else if g && (s.eng.fenced.contains sp || s.eng.testing.any (fun t => t.1 == sp)) then none
  else
    let s1 := (s.wrs [(F_ENG_CTRL_GUARD b, b2n g), (F_ENG_CTRL_SPARE_SEL b, sel), (F_ENG_STATUS_UNGUARDED b, 0)]).modEng (fun e =>
      { e with spare := listMod e.spare b (fun _ => guardPos b sel g) })
    let s2? := (activeCons s1).foldl (fun (acc : Option State) c =>
      match acc with
      | none => none
      | some t =>
        if !c.pieces.any (fun p => p.eng / 8 == b) then some t
        else if !g && c.f 2 12 1 == 0 then none
        else
          let ps := c.pieces.map (fun p => if p.eng / 8 = b then { p with guard := g } else p)
          let here := ps.filter (fun p => p.eng == sp && g)
          if here.isEmpty then some (applyMoves t c.ctx ps)
          else
            let w := (worldBut t (some c.ctx)) ++ (ps.filter (fun p => !(p.eng == sp && g))).map (fun p => WPiece.mk p.eng c p.guard p.chain)
            let es := placeEach t c true true (here.map (fun p => p.chain)) w
            if es.length < here.length then none
            else some (applyMoves t c.ctx ((ps.filter (fun p => !(p.eng == sp && g)))
              ++ (here.zip es).map (fun x => Piece.mk x.2 x.1.chain (guarded t (x.2 / 8)))))) (some s1)
    match s2? with
    | none => none
    | some t =>
      let w := worldBut t none
      if (List.range 8).all (fun e => engineTest ((onEng w (8 * b + e)).map (fun q => (q.con, q.guard)))) && mirrorFree t b w ≥ 0 then some t
      else none

/-- A write of ENG_CTRL of a barn: while chains are loaded GUARD and SPARE_SEL are frozen, else the spare follows them
where admission finds it can (R230, R313), and the barn stays without one where it cannot. -/
def engCtrlWrite (b v : Nat) (s : State) : State :=
  let s1 := plainWrite s (R_ENG_CTRL b) (!(chainsIn s b).isEmpty) (F_ENG_STATUS_WRITE_REFUSED b) v
  let s2 := if !(chainsIn s b).isEmpty then s1
    else
      let t := match guardBarn s b (v.testBit 0) (bitsOf v 1 3) with
        | some t => t
        | none => s1.modEng (fun e => { e with spare := listMod e.spare b (fun _ => none) })
      barnRegs t b
  if v.testBit 4 then s2.zeroFields (barnCounters b) else s2

/-- ENG_CLR_COUNTERS: a write of ENG_CTRL of barn `b`. -/
def execEngClrCounters (m b : Nat) (v : Word) (s : State) : Out :=
  if 12 ≤ b then .next s else .next (s.writeBy m (R_ENG_CTRL b) (engCtrlWrite b v.toNat))

/-- ENG_GUARD over its barns: the state, the barns changed, the barns that cannot follow. -/
def guardAll (p : Packet) (s : State) : State × Nat × Nat :=
  ((List.range 12).filter (fun b => pb p 2 b)).foldl (fun (acc : State × Nat × Nat) b =>
    match guardBarn acc.1 b (pb p 2 12) (pf p 2 13 3) with
    | none => (acc.1, acc.2.1, acc.2.2 + 2 ^ b)
    | some t => (t, acc.2.1 + (if t = acc.1 then 0 else 2 ^ b), acc.2.2)) (s, 0, 0)

/-- ENG_GUARD. -/
def execEngGuard (p : Packet) (s : State) : Out :=
  fcpStep { op := 0x57, pfOnly := true,
            run := fun p s =>
              let r := guardAll p s
              if r.2.2 ≠ 0 then .final { st := .noBudget, r1 := r.2.2 } s
              else .final (okR r.2.1 0 0 0) (budgetCheck (allBarnRegs r.1) true) } p s

/-! ### Jobs (R222 to R226) -/

/-- LIVE_WINDOW_READY: the last sample of a chain's next window has landed on every feed. -/
def execLiveWindowReady (id : Nat) (s : State) : Out :=
  match s.chain? id with
  | none => .next s
  | some c =>
    match c.nextW with
    | none => .next s
    | some w =>
      if !liveReady s c then .next s else .next (windowReady s c w)

/-- The STORE_IN operators of a chain with what each finds for a job. -/
def jobStores (s : State) (c : Chain) (j : Job) : List (OpE × StoreGot) :=
  (c.img.ops.filter (fun o => o.code == 2)).map (fun o => (o, storeIn s o j.start))

/-- A job whose stored input is gone (R223). -/
def inputLost (s : State) (j : Job) : State :=
  let b := j.eng / 8
  let s1 := ((s.dropJob j.chain j.seq).bump (F_ENG_INPUT_LOST_COUNT b)).raiseAt j.wend 9 0x08 0 (resMaster (engMaster j.eng)) 0
    (engMaster j.eng)
  let s2 := match j.cmd with
    | some (q, t) => match s1.inflight? q t with
      | some cmd =>
        let o := match s1.chain? j.chain with | some c => storeOldest s1 c.img | none => 0
        s1.finish cmd { st := .notRetained, r0 := o, r1 := o / ns1, r2 := o / ns1 / ns1 }
      | none => s1
    | none => s1
  drains (barnRegs s2 b)

/-- The absolute deadline of a job (R224). -/
def jobDue (s : State) (j : Job) : Nat := j.wend + (match s.chain? j.chain with | some c => c.img.deadline | none => 0) * ns1

/-- Whether a job's stored inputs exist, or are gone: it is not held back by data to come. -/
def jobTakable (s : State) (j : Job) : Bool :=
  match s.chain? j.chain with
  | none => false
  | some c => !c.parked && (jobStores s c j).all (fun x => x.2 != .wait)

/-- The ready job an engine takes: the earliest deadline, then the lower chain (R224). -/
def nextJob (s : State) (n : Nat) : Option Job :=
  (s.eng.jobs.filter (fun j => j.eng == n && j.state == 0 && jobTakable s j)).foldl (fun a j =>
    match a with
    | none => some j
    | some b =>
      if jobDue s j < jobDue s b ∨ (jobDue s j = jobDue s b ∧ (j.chain < b.chain ∨ (j.chain = b.chain ∧ j.seq < b.seq))) then some j
      else some b) none

/-- An engine takes a job with what its STORE_INs find. -/
def takeJob (s : State) (c : Chain) (j : Job) : State :=
  let st := jobStores s c j
  let ins := st.map (fun x => match x.2 with | .got v => v | _ => [])
  let fl := st.foldl (fun a x => a ||| storeInFlags s x.1 j.start) j.flags
  s.modEJob j.chain j.seq (fun x => { x with state := 1, at_ := s.up, ins := (x.ins.take c.rings.length) ++ ins, flags := fl })

/-- JOB_DISPATCH: an engine takes its next ready job. -/
def execJobDispatch (n : Nat) (s : State) : Out :=
  if !engLive s n || !engUsable s n || s.eng.act.getD (n / 8) none == some n || (runningOn s n).isSome then .next s
  else
    match nextJob s n with
    | none => .next s
    | some j =>
      match s.chain? j.chain with
      | none => .next s
      | some c =>
        if (jobStores s c j).any (fun x => x.2 == .gone) then .next (inputLost s j)
        else .next (barnRegs (takeJob s c j) (n / 8))

/-- The state a job starts from: that of the newest sealed job before it, else the chain's. -/
def jobState (s : State) (c : Chain) : ChSt :=
  match ((jobsOf s c.id).filter (fun j => j.state == 2)).getLast? with
  | some j => match j.out with | some o => o.st | none => c.st
  | none => c.st

/-- What a job stages, and its cycles. -/
def jobRun (s : State) (c : Chain) (j : Job) : Staged × Nat :=
  match c.lib with
  | some d => libRun s c d (jobState s c) j.ins
  | none => runImage 0 c.img (jobState s c) (mapPar s) (bitsOf j.flags 2 1 == 1) j.ins

/-- The running job of an engine seals what it stages, and its cycles count. -/
def sealJob (s : State) (n : Nat) (c : Chain) (j : Job) : State :=
  let b := n / 8
  let r := jobRun s c j
  let busy := s.rd64 (R_ENG_E_BUSY_LO b (n % 8)) (R_ENG_E_BUSY_HI b (n % 8))
  (s.modEng (fun e => { e with jobs := (e.jobs.filter (fun x => !(x.chain == j.chain && x.seq == j.seq)))
    ++ [{ j with state := 2, at_ := s.up, out := some r.1, flags := j.flags ||| (if r.1.ovr then 2 else 0) }] })).wr64
    (R_ENG_E_BUSY_LO b (n % 8)) (R_ENG_E_BUSY_HI b (n % 8)) (satAdd 64 busy r.2)

/-- JOB_SEAL: the running job of an engine ends and seals its staging (R226). A fence that waits for the job boundary
follows. -/
def execJobSeal (n : Nat) (s : State) : Out :=
  match runningOn s n with
  | none => .next s
  | some j =>
    match s.chain? j.chain with
    | none => .next s
    | some c =>
      if !engLive s n then .next s
      else
        let s1 := sealJob s n c j
        .next (barnRegs (if s1.eng.predict.contains n then fence s1 n 6 j.wend true else s1) (n / 8))

/-! ### Commits of the commit unit (R226, R227) -/

/-- A seal fails its check: the job runs again, its engine is fenced unless it is already. -/
def sealBad (s : State) (b : Nat) (c : Chain) (j : Job) : State :=
  let gone := s.eng.fenced.contains j.eng
  let s1 := s.modEJob j.chain j.seq (fun x =>
    { x with state := if gone then 0 else 1, out := none, retried := x.retried || gone, eng := if gone then c.eng else x.eng })
  if gone then barnRegs ((s1.bump (F_ENG_RETRIED_COUNT b)).modChain c.id (fun x => { x with rerun := x.rerun + 1 })) b
  else fence s1 j.eng 5 j.wend false

/-- JOB_COMMIT: a barn's commit unit takes its oldest sealed job; `bad` when the seal fails its check. -/
def execJobCommit (b : Nat) (bad : Bool) (s : State) : Out :=
  match sealedIn s b with
  | none => .next s
  | some j =>
    match s.chain? j.chain, j.out with
    | some c, some o =>
      if s.err.contained || !s.domOn (.barn b) then .next s
      else if bad then .next (drains (sealBad s b c j))
      else .next (drains (barnRegs (commitSealed s c j o) b))
    | _, _ => .next (s.dropJob j.chain j.seq)

end Sys2Proof.Machine
end

