-- ==== Sys2Proof/Machine/Err.lean ====
section
/-!
DEFINITION. The error log and the Sheaf: their commands, register writes and events (chapter 18).
-/

namespace Sys2Proof.Machine

/-! ### The log (R490 to R493, R499) -/

/-- The slot's contents. -/
def logSlot (s : State) (slot : Nat) : Option LogSlot := (s.err.log.find? (fun e => e.1 == slot)).map (fun e => e.2)

/-- The record with a SEQ, where its slot still holds it. -/
def logRec (s : State) (q : Nat) : Option ErrRec :=
  match logSlot s (q % 4096) with
  | some l => if l.record.seq = q ∧ l.destroyed = false then some l.record else none
  | none => none

/-- The chute that ERR drains next: one with a fatal record at its head, else round-robin (R490). -/
def drainNext (s : State) : Option Nat :=
  let full (b : Nat) : Bool := !(s.err.chutes.getD b []).isEmpty
  let fatal (b : Nat) : Bool := match s.err.chutes.getD b [] with | r :: _ => r.cls == 3 | [] => false
  match (List.range 17).find? fatal with
  | some b => some b
  | none => ((List.range 17).map (fun i => (s.err.rrNext + i) % 17)).find? full

/-- A record is stored with the next SEQ: log, event, Sheaf, Containment (R492, R494, R495, R500, R501). -/
def logStore (s : State) (r0 : ErrRec) : State :=
  let q := s.rd F_ERR_LOG_HEAD_NEXT_SEQ
  let r := { r0 with seq := q, acked := decide (r0.cls < 2) }
  let s1 := { s with err := { s.err with
    log := s.err.log.filter (fun e => e.1 != q % 4096) ++ [(q % 4096, { record := r, destroyed := false })],
    unacked := if r.cls = 2 then s.err.unacked ++ [q] else s.err.unacked } }
  let s2 := (if r.cls = 2 then openTag s1 r (some q) else s1).wr F_ERR_LOG_HEAD_NEXT_SEQ ((q + 1) % 65536)
  let s3 := s2.wr F_ERR_UNACKED_COUNT (min 8191 s2.err.unacked.length)
  let s4 := if r.cls ≥ s3.rd F_ERR_CTRL_EVT_CLASS then
      s3.postEvent 0 0x0F01 [recDw0 r, r.resource % 4294967296, r.resource / 4294967296, r.detail]
    else s3
  let first := r.cls = 3 ∧ s4.err.contained = false
  let s5 := if s4.on F_SHF_CTRL_ERR_EN && r.cls ≥ s4.rd F_SHF_CTRL_ERR_CLASS && !first then sheafDecide s4 5 (sheafTf s4 s4.now) else s4
  if r.cls = 3 then enterContain (s5.bump F_ERR_FATAL_COUNT_COUNT) r else s5

/-- A drained record: escalation, then the log; one that would overwrite an unacknowledged uncorrected record is
discarded unless fatal (R492, R493). The second value is the SEQ it took. -/
def logTake (s : State) (r0 : ErrRec) : State × Option Nat :=
  let r1 := match if r0.cls = 2 then matchTag s r0 else none with
    | some t => { r0 with cls := 3, escalated := true, linkSeq := t.seq.getD 65535 }
    | none => r0
  let q := s.rd F_ERR_LOG_HEAD_NEXT_SEQ
  let held := s.err.unacked.any (fun x => x % 4096 == q % 4096)
  if held && r1.cls != 3 then
    let s1 := (s.bump F_ERR_LOG_LOST_COUNT).wr F_ERR_STATUS_LOG_BLOCKED 1
    (if r1.cls = 2 then openTag s1 r1 none else s1, none)
  else (logStore s r1, some q)

/-- One record is drained: its block and the SEQ it took. -/
def logDrain (s : State) : State × Option (Nat × Option Nat) :=
  match drainNext s with
  | none => (s, none)
  | some b =>
    match s.err.chutes.getD b [] with
    | [] => (s, none)
    | r :: rs =>
      let s1 := { s with err := { s.err with
        chutes := listMod s.err.chutes b (fun _ => rs), lost := listMod s.err.lost b (fun _ => false), rrNext := (b + 1) % 17 } }
      let t := logTake s1 { r with lostBefore := s.err.lost.getD b false }
      (t.1, some (b, t.2))

/-- Records are drained until a block's chute is empty; the SEQ that its last one took. -/
def drainBlock (b : Nat) : Nat → State → Option Nat → State × Option Nat
  | 0, s, q => (s, q)
  | n + 1, s, q =>
    if (s.err.chutes.getD b []).isEmpty then (s, q)
    else
      let t := logDrain s
      drainBlock b n t.1 (match t.2 with | some (c, x) => if c = b then x else q | none => q)

/-- An uncorrectable word is found in a slot of the log (R499). -/
def logDestroy (s : State) (k : Nat) : State :=
  match logSlot s k with
  | none => s
  | some l =>
    if l.destroyed then s
    else
      let log := s.err.log.map (fun (e : Nat × LogSlot) => if e.1 = k then (e.1, { e.2 with destroyed := true }) else e)
      ({ s with err := { s.err with log := log } }).raise 15 0x03 2 (resIndex k) 0

/-- An uncorrectable word is found in message `j` of a direction of a mailbox set: the message is discarded and counted (R343). -/
def msgUe (s : State) (i : Nat) (inbound : Bool) (j : Nat) : State :=
  let x := s.mset i
  let c := if inbound then x.inb else x.outb
  if c.items.length ≤ j then s
  else
    let d := Chute.close { c with items := c.items.eraseIdx j }
    let s1 := s.modSet i (fun y => if inbound then { y with inb := d } else { y with outb := d })
    let s2 := s1.bump (if inbound then F_MBX_S_COUNTS_REFUSED_IN i else F_MBX_S_COUNTS_REFUSED_OUT i)
    (mbxFill (if c.full then dbRaise s2 i (!inbound) 2 else s2) i 16).raise 3 0x03 2 (resIndex i) 0

/-- An uncorrectable word is found in the storage of a lock: it is released by force (R343). -/
def lockUe (s : State) (n : Nat) : State := (lockForce s 5 n).raise 3 0x03 2 (resIndex (256 + n)) 0

/-- An uncorrectable word is found in the AON memories of Table 1.3: 0 to 4095 are the slots of the log; the messages of the
mailbox sets follow, 16 places to each direction, inbound first; then the locks. -/
def storeUe (s : State) (k : Nat) : State :=
  if k < 4096 then logDestroy s k
  else if k < 5120 then msgUe s ((k - 4096) / 32) ((k - 4096) / 16 % 2 == 0) (k % 16)
  else if k < 5184 then lockUe s (k - 5120)
  else s

/-- ERR_RECORD_DRAIN: one record is taken from the chutes. `ue` are the places in the AON memories in which an uncorrectable
word is found before that (R343, R499; DESIGN CHOICE, log 45: which row brings them). -/
def execErrRecordDrain (ue : List Nat) (s : State) : Out := .next (logDrain (ue.foldl storeUe s)).1

/-- CC_HANG: a control core gives no heartbeat (R499). -/
def execCcHang (core : Nat) (s : State) : Out := .next (s.raise 15 0x02 3 (resIndex (core % 4)) 0)

/-! ### Opcodes (R506) -/

/-- Issued from a context that holds DIAG. -/
def hasDiag (p : Packet) (s : State) : Bool := s.hasPriv (pCtx p) 2

/-- SNAP_FIRE. -/
def execSnapFire (p : Packet) (s : State) : Out :=
  fcpStep { op := 0xC0, contain := true, permit := hasDiag,
            valid := fun p s => pTs p 2 == 0 || (s.now ≤ pTs p 2 && pTs p 2 ≤ s.now + 60 * sec96),
            allowed := fun _ s => !s.on F_SHF_STATUS_LOCKED,
            run := fun p s => .wait .snapFire 0 0 (sheafDecide s 1 (if pTs p 2 = 0 then sheafTf s s.now else pTs p 2)) } p s
where sec96 : Nat := 1000000000 * ns1

/-- The 120 entries of the image (Table 18.7). -/
def snapEntries (s : State) : List Byte :=
  snapTable.flatMap (fun x =>
    let on := s.shf.latched.contains x.1
    natBytes 3 x.1 ++ natBytes 1 (b2n on + 2 * blockOf x.1) ++ natBytes 4 (if on then (s.reg x.1).toNat else 0))

/-- The Sheaf image (Table 18.7). -/
def snapImage (s : State) : List Byte :=
  withCheck (natBytes 4 0x53484631 ++ natBytes 12 (s.rdTs (R_SHF_FIRE_W 0)) ++ natBytes 1 (s.rd F_SHF_STATUS_SOURCE)
    ++ natBytes 3 (s.rd F_SHF_VALID_BLOCKS) ++ natBytes 4 (s.rd F_SHF_COUNT_COUNT) ++ natBytes 2 120 ++ natBytes 36 0)
    ++ snapEntries s

/-- LOCKED and REPLACED clear; a fire that is decided and not latched is cancelled (R503). -/
def sheafRearm (s : State) : State := (sheafCancel s).wrs [(F_SHF_STATUS_LOCKED, 0), (F_SHF_STATUS_REPLACED, 0)]

/-- The image is written to the host, and the Sheaf rearmed where asked. -/
def snapCopy (p : Packet) (s : State) : State :=
  let t := s.hostWrite (pq p 2) (snapImage s)
  if pb p 4 0 then sheafRearm t else t

/-- SNAP_READ. -/
def execSnapRead (p : Packet) (s : State) : Out :=
  fcpStep { op := 0xC1, contain := true, permit := fun p s => !pb p 4 0 || hasDiag p s,
            aligned := fun p _ => pf p 2 0 6 == 0, allowed := fun _ s => s.shf.everFired,
            run := fun p s => .final (okR (s.rd F_SHF_STATUS_SOURCE) (s.rd F_SHF_COUNT_COUNT) 0 0) (snapCopy p s) } p s

/-- The SEQs that ERR_READ copies: from the first asked for, or from the oldest record still in the log. -/
def readSeqs (s : State) (first count : Nat) : List Nat :=
  let head := s.rd F_ERR_LOG_HEAD_NEXT_SEQ
  let behind := (head + 65536 - first) % 65536
  let back := if behind > 32768 then 0 else min behind s.err.log.length
  (List.range (min count back)).map (fun i => (head + 65536 - back + i) % 65536)

/-- The fatal pair as the registers hold it, and the records that an ERR_READ copies. -/
def fatalBytes (s : State) : List Byte := dwordBytes ((List.range 16).map (fun i => s.reg (R_ERR_FATAL_W i)))
def readList (p : Packet) (s : State) : List Nat :=
  (readSeqs s (pf p 2 0 16) (pf p 2 16 13)).filter (fun q => (logRec s q).isSome)
def readBytes (p : Packet) (s : State) : List Byte :=
  (readList p s).flatMap (fun q => match logRec s q with | some r => r.bytes | none => [])

/-- ERR_READ. -/
def execErrRead (p : Packet) (s : State) : Out :=
  fcpStep { op := 0xC2, contain := true, aligned := fun p _ => pf p 3 0 6 == 0,
            valid := fun p _ => pb p 2 31 || (1 ≤ pf p 2 16 13 && pf p 2 16 13 ≤ 4096),
            run := fun p s =>
              let head := s.rd F_ERR_LOG_HEAD_NEXT_SEQ
              let un := s.rd F_ERR_UNACKED_COUNT
              if pb p 2 31 then .final (okR 2 0 head un) (s.hostWrite (pq p 3) (fatalBytes s))
              else .final (okR (readList p s).length ((readList p s).headD (pf p 2 0 16)) head un)
                (s.hostWrite (pq p 3) (readBytes p s)) } p s

/-- What ERR_ACK acknowledges: every record, or a run of SEQs; the count that were not acknowledged before. -/
def ackTake (p : Packet) (s : State) : State × Nat :=
  if pb p 2 31 then ackAll s else ackSeqs s ((List.range (pf p 2 16 12 + 1)).map (fun i => (pf p 2 0 16 + i) % 65536))

/-- ERR_ACK. -/
def execErrAck (p : Packet) (s : State) : Out :=
  fcpStep { op := 0xC3, contain := true, permit := hasDiag,
            run := fun p s =>
              .final (okR (ackTake p s).2 ((ackTake p s).1.rd F_ERR_UNACKED_COUNT) 0 0) (ackTake p s).1 } p s

/-- The record of an ERR_INJECT enters its block's chute; and, with room there, it is drained. -/
def injectRec (p : Packet) (s : State) : State :=
  s.raiseRec { ts := s.now, blk := pf p 2 0 5, cls := pf p 2 16 2, typ := pf p 2 8 8, master := 0, lostBefore := false, injected := true,
               acked := false, escalated := false, resource := pq p 3, detail := pf p 5 0 16, linkSeq := 0, seq := 0 }
def injectSeq (p : Packet) (s : State) : State × Option Nat := drainBlock (pf p 2 0 5) 128 (injectRec p s) none

/-- ERR_INJECT: the record goes the way of any other, and the command waits for the SEQ it takes. -/
def execErrInject (p : Packet) (s : State) : Out :=
  fcpStep { op := 0xC4, contain := true, pfOnly := true, permit := hasDiag, valid := fun p _ => pf p 2 0 5 ≤ 16,
            run := fun p s =>
              if (s.err.chutes.getD (pf p 2 0 5) []).length ≥ 4 then .final (okR 0xFFFFFFFF 0 0 0) (injectRec p s)
              else .final (okR ((injectSeq p s).2.getD 0xFFFFFFFF) 0 0 0) (injectSeq p s).1 } p s

/-! ### Register writes -/

/-- A write of ERR_CTRL (R507). -/
def errCtrlWrite (v : Nat) (s : State) : State :=
  let s1 := s.wr F_ERR_CTRL_EVT_CLASS (v / 2)
  if v.testBit 0 then
    s1.zeroFields ([F_ERR_LOG_LOST_COUNT, F_ERR_FATAL_COUNT_COUNT] ++ (List.range 17).flatMap (fun b =>
      [F_ERR_B_COUNTS_RAISED b, F_ERR_B_COUNTS_OVF b, F_ERR_B_COUNTS_TAG_FULL b]))
  else s1

/-- ERR_CLR_COUNTERS. -/
def execErrClrCounters (m : Nat) (v : Word) (s : State) : Out := .next (s.writeBy m R_ERR_CTRL (errCtrlWrite v.toNat))

/-- A write of the ERR_ACK register (R492, R493). -/
def errAckWrite (v : Nat) (s : State) : State := if v.testBit 31 then (ackAll s).1 else (ackSeq s (v % 65536)).1

/-- ERR_ACK_WRITE. -/
def execErrAckWrite (m : Nat) (v : Word) (s : State) : Out := .next (s.writeBy m R_ERR_ACK (errAckWrite v.toNat))

/-- The selected record, as ERR_LOG_W0 to W7 show it (Table 18.9). -/
def logWord (s : State) (i : Nat) : Word :=
  match logRec s (s.rd F_ERR_LOG_SEL_SEQ) with
  | some r => r.words.getD i 0
  | none => 0

/-- A write of SHF_CTRL: enables; ALARM_EN set arms the Sheaf alarm (R530); REARM, then FIRE (R503). -/
def shfCtrlWrite (v : Nat) (s : State) : State :=
  let arm := v.testBit 3 && !s.on F_SHF_CTRL_ALARM_EN
  let s1 := s.wrs [(F_SHF_CTRL_IN_EN, v / 4), (F_SHF_CTRL_ALARM_EN, v / 8), (F_SHF_CTRL_SEG_EN, v / 16), (F_SHF_CTRL_ERR_EN, v / 32),
    (F_SHF_CTRL_ERR_CLASS, v / 64), (F_SHF_CTRL_IN_POL, v / 256)]
  let s2 := if arm then { s1 with shf := { s1.shf with alarmArmed := true } } else s1
  let s3 := if v.testBit 1 then sheafRearm s2 else s2
  if v.testBit 0 then sheafDecide s3 1 (sheafTf s3 s3.now) else s3

/-- SHF_FIRE_WRITE. -/
def execShfFireWrite (m : Nat) (v : Word) (s : State) : Out := .next (s.writeBy m R_SHF_CTRL (shfCtrlWrite v.toNat))

/-- SHF_REARM_WRITE. -/
def execShfRearmWrite (m : Nat) (v : Word) (s : State) : Out := .next (s.writeBy m R_SHF_CTRL (shfCtrlWrite v.toNat))

/-! ### Pins and the latch -/

/-- SNAP_IN_EDGE: SNAP_IN has changed to a level and held it for 10 ns (R504). -/
def execSnapInEdge (level : Bool) (s : State) : Out :=
  let s1 := { s with pins := { s.pins with snapIn := level } }
  if s.pins.snapIn == level || !s.on F_SHF_CTRL_IN_EN || level == s.on F_SHF_CTRL_IN_POL then .next s1
  else .next (sheafDecide s1 2 (sheafTf s1 (s1.now - 10 * ns1)))

/-- SHEAF_LATCH: T_f has come (R502). -/
def execSheafLatch (s : State) : Out :=
  match s.shf.decided with
  | none => .next s
  | some (src, tf) => if s.now < tf then .next s else .next (sheafLatch s src tf)

end Sys2Proof.Machine
end

