-- ==== Sys2Proof/Machine/Pq.lean ====
section
/-!
DEFINITION. The library's and the finisher's commands (chapter 9): PQ_LOAD, PQ_CLOCK, PQ_STATUS, records, timeouts, ticks.
-/

namespace Sys2Proof.Machine

/-! ### PQ_LOAD (R242 to R244, R268) -/

/-- The role that a function takes in a group; roles 0 to 2 are phases, 4 and 5 the SEQ chains, 6 the half-cycle chain. -/
def roleOk (d : List Word) : Bool :=
  match libFunc d with
  | 1 => libPhase d == 6
  | 2 => libPhase d ≤ 2
  | 3 => libPhase d == 4 || libPhase d == 5
  | _ => true

/-- Functions of which a group holds one chain per role. -/
def roleOne (d : List Word) : Bool := libFunc d == 1 || libFunc d == 2 || libFunc d == 3

/-- A resampler's setup without its status (R243). -/
def rsSetup (s : State) (f : Nat) : Nat := bitsOf (s.reg (R_DFU_RS_CTRL (feedUnit f))).toNat 0 13

/-- The feeds match the function. -/
def feedsMatch (d : List Word) : Bool :=
  let fs := libFeeds d
  fs.all feedOk && (if libFunc d = 6 then fs.all feedSync || fs.all (fun f => !feedSync f) else fs.all feedSync)

/-- R243 within the chain and across its group. -/
def setupOk (s : State) (ctx : Nat) (d : List Word) : Bool :=
  let fs := libFeeds d
  let f0 := fs.headD 0
  let same (f : Nat) : Bool := if feedSync f0 then rsSetup s f == rsSetup s f0 else feedRate s f == feedRate s f0
  let cOk := libFunc d == 1 || libFunc d == 6 || lf d 2 10 2 < 2
    || (libFunc d != 4 && lf d 2 10 2 == 2 && decide (1 ≤ lf d 4 16 9 ∧ lf d 4 16 9 ≤ 256))
  fs.all same && cOk && (libFunc d != 4 || decide (128 ≤ rsN s (feedUnit f0)))
    && (members s ctx (libGroup d)).all (fun c => (libFeeds (libOf c)).all (fun f => !feedSync f || !feedSync f0 || rsSetup s f == rsSetup s f0))

/-- The chain fits the group it names (R249, R252). -/
def groupOk (s : State) (ctx : Nat) (d : List Word) : Bool :=
  let ms := members s ctx (libGroup d)
  libGroup d == 0 || (roleOk d && ms.all (fun c => libDrop (libOf c) == libDrop d)
    && !(roleOne d && ms.any (fun c => libFunc (libOf c) == libFunc d && libPhase (libOf c) == libPhase d)))

/-- A PQ_LOAD packet is well formed. -/
def pqOk (p : Packet) (s : State) : Bool :=
  let d := p.dws
  let i := libImage s d
  1 ≤ libFunc d && libFunc d ≤ 6 && feedsMatch d && setupOk s (pCtx p) d && groupOk s (pCtx p) d
    && (libPubs d).all (fun k => (libPubOk d).testBit k) && lf d 4 8 5 + (libPubs d).length ≤ 32
    && (!pb p 2 8 || pf p 2 4 4 ≤ 11) && i.win != 0
    && (libFunc d != 6 || s.rd (F_MAP_CTRL_CONTEXT (lf d 5 0 4)) == pCtx p)

/-- A group without a member starts anew. -/
def grpFresh (s : State) (ctx g : Nat) : State :=
  if (members s ctx g).isEmpty then
    s.modEng (fun e => { e with grps := e.grps.filter (fun x => !(x.ctx == ctx && x.group == g)),
                                aggs := e.aggs.filter (fun x => !(x.ctx == ctx && x.group == g)) })
  else s

/-- A FLICKER member's share of the finisher begins. -/
def flickStart (s : State) (id : Nat) (d : List Word) : State :=
  if libFunc d = 5 ∧ libGroup d ≠ 0 then
    s.modEng (fun e => { e with flicks := e.flicks ++ [{ chain := id, copy := List.replicate 1024 0, tick := tickK s 600 s.now, fresh := true, psts := [] }] })
  else s

/-- What PQ_LOAD asks for. -/
def pqAsk (p : Packet) (s : State) : ChainAsk :=
  let d := p.dws
  let i := libImage s d
  let cj := libCost s d
  { img := i, lib := some d, cjob := cj, load := chainLoad s i cj, units := libOut s d i, pin := if pb p 2 8 then some (pf p 2 4 4) else none,
    start := pb p 2 9, at_ := pTs p 10, n := rsN s (feedUnit ((libFeeds d).headD 0)), c := libC d }

/-- A chain of the library is placed, and its flicker state begins (R325). -/
def pqPlace (p : Packet) (s : State) : FcpOut :=
  match chainPlace (grpFresh s (pCtx p) (libGroup p.dws)) (pCtx p) (pqAsk p s) with
  | .final r t => .final r (if r.st = .ok then flickStart t (r.r0 % 65536) p.dws else t)
  | w => w

/-- The effect of PQ_LOAD. -/
def pqLoad (p : Packet) (s : State) : FcpOut :=
  let d := p.dws
  let n := chainRate s (libImage s d) d
  match contractOf s (pCtx p) with
  | some k =>
    if !k.broken && (libFinish d || libAgg d) && pqOver s k n && n ≠ 0 then .final (loadRefusal s (pqAsk p s) k) s
    else pqPlace p s
  | none => chainPlace s (pCtx p) (pqAsk p s)

/-- Why the image that a PQ_LOAD builds is refused, as CHAIN_LOAD would (R219, R242). -/
def pqBad (p : Packet) (s : State) : Option (Nat × Nat) := imgFails (imgEnv s (pCtx p)) (fun _ => true) (libImage s p.dws)

/-- PQ_LOAD. -/
def execPqLoad (p : Packet) (s : State) : Out :=
  fcpStep { op := 0x58, permit := conHeld, valid := fun p s => conBroken s (pCtx p) || (pqOk p s && (pqBad p s).isNone),
            badRes := fun p s => (match pqBad p s with | some r => r.1 + r.2 * 256 | none => 0, 0), run := pqLoad } p s

/-- PQ_CLOCK. -/
def execPqClock (p : Packet) (s : State) : Out :=
  fcpStep { op := 0x59, pfOnly := true,
            allowed := fun p s => pf p 2 0 8 == s.rd F_ENG_PQ_CTRL_CLOCK_OFS
              || !s.eng.chains.any (fun c => match c.lib with | some d => libAgg d | none => false),
            run := fun p s => fOk (drainWake (s.wrs [(F_ENG_PQ_CTRL_CLOCK_OFS, pf p 2 0 8), (F_ENG_PQ_CTRL_DRAIN_WAKE, pf p 2 8 1)])) } p s

/-- PQ_STATUS. -/
def execPqStatus (p : Packet) (s : State) : Out :=
  fcpStep { op := 0x5D,
            run := fun p s =>
              .final (okR (min 4294967295 (pqRate s)) (s.rd F_ENG_PQ_OUT_COUNT) (s.rd F_ENG_PQ_LATE_COUNT) (s.rd F_ENG_PQ_LOST_COUNT))
                (if pb p 2 8 then s.zeroFields [F_ENG_PQ_OUT_COUNT, F_ENG_PQ_LATE_COUNT, F_ENG_PQ_LOST_COUNT] else s) } p s

/-! ### The finisher's events -/

/-- FINISHER_RECORD: the finisher takes the oldest record handed to it. -/
def execFinisherRecord (s : State) : Out :=
  match s.eng.recs with
  | [] => .next s
  | r :: rs =>
    let s1 := s.modEng (fun e => { e with recs := rs })
    match s.chain? r.chain with
    | none => .next s1
    | some c => if s.err.contained then .next s else .next (finTake s1 r c)

/-- FINISHER_MEMBER_TIMEOUT: a window that waits for part 2 is given up at its end plus twice its length. -/
def execFinisherMemberTimeout (ctx g w : Nat) (s : State) : Out :=
  match s.grp? ctx g, (grpWins s ctx g).find? (fun r => r.seq == w && kindType r.kind == 1) with
  | some x, some r =>
    if !x.open2.contains w || s.now < r.wend + 2 * r.wlen * ns1 then .next s
    else .next (pqPrune (s.modGrp ctx g (fun y => { y with open2 := y.open2.filter (· != w) })) ctx g)
  | _, _ => .next s

/-- AGGREGATION_TICK: an interval of a group ends (1: 150/180 cycles, 2: 10 min, 3: 2 h). -/
def execAggregationTick (ctx g ival : Nat) (s : State) : Out :=
  match s.grp? ctx g with
  | none => .next s
  | some x =>
    if s.err.contained || (aggMembers (members s ctx g)).isEmpty then .next s
    else
      match ival with
      | 1 => .next (cycleEnd s x)
      | 2 => .next (tenMinEnd s x)
      | 3 => .next (twoHourEnd s x)
      | _ => .next s

/-- FLICKER_TICK. -/
def execFlickerTick (id : Nat) (s : State) : Out :=
  match s.chain? id, s.eng.flicks.find? (fun f => f.chain == id) with
  | some c, some f => if s.err.contained then .next s else .next (flickTick s c f)
  | _, _ => .next s

end Sys2Proof.Machine
end

