-- ==== Sys2Proof/Machine/MapCmd.lean ====
section
/-!
DEFINITION. The maps' commands (chapter 9): MAP_SET, MAP_CLEAR, MAP_STATUS, the enable bit, epochs and passes.
-/

namespace Sys2Proof.Machine

/-- A context may act on a map: its own, a free one, or any for the physical function (R268). -/
def mapOwned (p : Packet) (s : State) : Bool :=
  let m := pf p 2 0 4
  !s.on (F_MAP_CTRL_EN m) || s.rd (F_MAP_CTRL_CONTEXT m) == pCtx p || s.ctxFunc (pCtx p) == 0

/-- The map's registers as a MAP_SET gives them. -/
def mapFields (p : Packet) (s : State) : State :=
  let m := pf p 2 0 4
  let s1 := if pf p 2 8 4 < 12 then s.wr (F_MAP_CTRL_OWNER m) (pf p 2 8 4) else s
  s1.wrs [(F_MAP_CTRL_CB32 m, pf p 2 5 1), (F_MAP_CTRL_EDGE m, pf p 2 6 1), (F_MAP_BASE_BASE m, pf p 3 0 25), (F_MAP_GEOM_W m, pf p 4 0 14),
    (F_MAP_GEOM_H m, pf p 4 16 13), (F_MAP_EPOCH_US m, pf p 5 0 24), (F_MAP_DECAY_DECAY m, pf p 6 0 9), (F_MAP_CLEAR_CLEAR_DELAY m, pf p 7 0 24)]

/-- Field ranges of Table 9.8. -/
def mapRanges (s : State) (m : Nat) : Bool :=
  let w := s.rd (F_MAP_GEOM_W m)
  let h := s.rd (F_MAP_GEOM_H m)
  let us := s.rd (F_MAP_EPOCH_US m)
  1 ≤ w && w ≤ 8192 && 1 ≤ h && h ≤ 4096 && 1000 ≤ us && us ≤ 10000000 && s.rd (F_MAP_CLEAR_CLEAR_DELAY m) ≤ 10000000

/-- MAP_SET changes nothing but DECAY. -/
def mapSame (p : Packet) (s : State) : Bool :=
  let m := pf p 2 0 4
  let t := (mapFields p s).wr (F_MAP_DECAY_DECAY m) (s.rd (F_MAP_DECAY_DECAY m))
  [R_MAP_CTRL m, R_MAP_BASE m, R_MAP_GEOM m, R_MAP_EPOCH m, R_MAP_CLEAR m].all (fun a => t.reg a == s.reg a)

/-- BANK in 64 KiB units, SETTLE in µs, the carry pass in µs. -/
def mapReply (s : State) (m : Nat) : Reply :=
  okR (mapBank s m / 65536) (settleOf s m 0) (cdiv (3 * mapBank s m) 32000) 0

/-- MAP_SET. -/
def execMapSet (p : Packet) (s : State) : Out :=
  fcpStep { op := 0x5A, permit := mapOwned,
            valid := fun p s =>
              let m := pf p 2 0 4
              let t := mapFields p s
              pb p 2 12 || (mapRanges t m && (!pb p 2 4 || mapFits t m)),
            allowed := fun p s =>
              let m := pf p 2 0 4
              !s.on (F_MAP_CTRL_EN m) || pb p 2 12 || (if pb p 2 4 then mapSame p s && pf p 6 0 9 == s.rd (F_MAP_DECAY_DECAY m)
                else (mapChains s m).isEmpty),
            run := fun p s =>
              let m := pf p 2 0 4
              if pb p 2 12 then
                let t := s.wr (F_MAP_DECAY_DECAY m) (pf p 6 0 9)
                .final (mapReply t m) t
              else
                let t := mapFields p s
                if pb p 2 4 then
                  if s.on (F_MAP_CTRL_EN m) then .final (mapReply s m) s
                  else if !mapAdmit t m (settleOf t m 0) then .final { st := .noBudget } s
                  else .final (mapReply t m) (mapEnable (t.wr (F_MAP_CTRL_CONTEXT m) (pCtx p)) m)
                else .final (mapReply t m) (mapDisable (t.wr (F_MAP_CTRL_CONTEXT m) 0) m) } p s

/-- MAP_CLEAR. -/
def execMapClear (p : Packet) (s : State) : Out :=
  fcpStep { op := 0x5B, permit := mapOwned,
            run := fun p s =>
              let m := pf p 2 0 4
              if !mapOn s m then fOk s
              else
                let t := mapStart s m
                let t0 := (t.mp m).t0.getD 0
                .final (okR t0 (t0 / ns1) (t0 / ns1 / ns1) 0) t } p s

/-- MAP_STATUS. -/
def execMapStatus (p : Packet) (s : State) : Out :=
  fcpStep { op := 0x5C, permit := mapOwned,
            run := fun p s =>
              let m := pf p 2 0 4
              .final (okR (s.reg (R_MAP_STATUS m)).toNat (s.rd (F_MAP_EPOCH_NO_LO_VALUE m)) (s.rd (F_MAP_CLIP_COUNT m))
                  (s.rd (F_MAP_DROPPED_COUNT m)))
                (if pb p 2 8 then s.zeroFields [F_MAP_CLIP_COUNT m, F_MAP_SAT_COUNT m, F_MAP_LATE_COUNT m, F_MAP_DROPPED_COUNT m] else s) } p s

/-- A write of MAPk_CTRL: EN enables or disables; the frozen fields stay while the map runs; OWNER 12 to 15 is ignored. -/
def mapCtrlWrite (k : Nat) (v : Nat) (s : State) : State :=
  let run := s.on (F_MAP_CTRL_EN k)
  let keep (f : FieldRow) : Bool := f.lo != 0 && (f.lo != 4 || bitsOf v 4 4 < 12)
  let s1 := plainWrite s (R_MAP_CTRL k) run (F_MAP_STATUS_WRITE_REFUSED k) v keep
  if v.testBit 0 then (if run then s1 else mapEnable s1 k) else if run then mapDisable s1 k else s1

/-- MAP_ENABLE_WRITE. -/
def execMapEnableWrite (m k : Nat) (v : Word) (s : State) : Out :=
  if 16 ≤ k then .next s else .next (s.writeBy m (R_MAP_CTRL k) (mapCtrlWrite k v.toNat))

/-! ### Epochs and passes (R262) -/

/-- Nanoseconds that a pass over some bytes takes at 32 GB/s. -/
def passNs (bytes : Nat) : Nat := cdiv bytes 32

/-- T_e+1 + SETTLE, in TS96. -/
def finalAt (s : State) (m : Nat) : Option Nat :=
  (s.mp m).t0.map (fun t0 => t0 + ((s.mp m).epoch + 1) * mapEpoch s m + settleOf s m 0 * 1000 * ns1)

/-- An epoch's bank becomes final and its carry pass starts. -/
def epochFinal (s : State) (m : Nat) : State :=
  let x := s.mp m
  let e := x.epoch
  let t1 := x.t0.getD 0 + (e + 1) * mapEpoch s m
  let s1 := ((s.wrs [(F_MAP_STATUS_FINAL_BANK m, e % 3), (F_MAP_STATUS_FINAL_VALID m, 1), (F_MAP_STATUS_PASS_BUSY m, 1)]).wrTs (R_MAP_FINAL_W m 0) t1).bump64
    (R_MAP_EPOCH_NO_LO m) (R_MAP_EPOCH_NO_HI m)
  let s2 := mapCarry s1 m (e % 3)
  paceEpoch (s2.modMp m (fun y => { y with
    epoch := e + 1, passEnd := some (s.up + passNs (3 * mapBank s m)),
    clearAt := some (s.up + s.rd (F_MAP_CLEAR_CLEAR_DELAY m) * 1000, (e + 2) % 3) })) m

/-- MAP_EPOCH_FINAL. -/
def execMapEpochFinal (k : Nat) (s : State) : Out :=
  match finalAt s k with
  | none => .next s
  | some t => if !mapOn s k || !mapsRun s || s.now < t then .next s else .next (epochFinal s k)

/-- MAP_CLEAR_START: the zeroing of the next bank. -/
def execMapClearStart (k : Nat) (s : State) : Out :=
  match (s.mp k).clearAt with
  | none => .next s
  | some (t, b) =>
    if !mapOn s k || !mapsRun s || s.up < t then .next s
    else
      let s1 := dramClear s (bankAddr s k b) (mapBank s k)
      .next ((s1.wr (F_MAP_STATUS_PASS_BUSY k) 1).modMp k (fun y => { y with
        clearAt := none, clearing := some b, passEnd := some (max (y.passEnd.getD 0) (s.up + passNs (mapBank s k))) }))

/-- MAP_PASS_COMPLETE. -/
def execMapPassComplete (k : Nat) (s : State) : Out :=
  match (s.mp k).passEnd with
  | none => .next s
  | some t =>
    if !mapOn s k || !mapsRun s || s.up < t then .next s
    else .next ((s.wr (F_MAP_STATUS_PASS_BUSY k) 0).modMp k (fun y => { y with passEnd := none, clearing := none }))

end Sys2Proof.Machine
end

