-- ==== Sys2Proof/Machine/McvOps.lean ====
section
/-!
DEFINITION. The metrology converter's shared operations (chapter 17): choosing and starting conversions, requests, results,
calibration, the domain.
-/

namespace Sys2Proof.Machine

def State.modMcv (s : State) (g : Mcv → Mcv) : State := { s with mcv := g s.mcv }
def State.modConv (s : State) (g : McvConv → McvConv) : State := s.modMcv (fun m => { m with conv := m.conv.map g })

/-- The converter runs: domain on and EN (R531). -/
def mcvRuns (s : State) : Bool := s.domOn .mcv && s.on F_MCV_CTRL_EN

/-! ### The test DAC (R481) -/

/-- The DAC code in effect. -/
def dacCode (s : State) : Nat := if s.on F_MCV_DAC_CTRL_SEL_B then s.rd F_MCV_DAC_CODE_B else s.rd F_MCV_DAC_CODE_A

/-- MCV_DAC_OUT follows; in Containment it holds its level (R33). -/
def dacPin (s : State) : State :=
  if s.err.contained then s
  else { s with pins := { s.pins with mcvDac := if s.domOn .mcv && s.on F_MCV_DAC_CTRL_EN then some (dacCode s) else none } }

/-! ### Words of a conversion -/

def cSrc (c : McvConv) : Nat := bitsOf c.cfg 0 4
def cGain (c : McvConv) : Nat := bitsOf c.cfg 4 2
def cOrder (c : McvConv) : Nat := bitsOf c.cfg 6 2 + 1
def cMains (c : McvConv) : Bool := bitsOf c.cfg 8 1 == 1

/-- CFG and WIN words within their ranges (R469, R471). -/
def mcvWordsOk (cfg win : Nat) : Bool :=
  bitsOf cfg 4 2 != 3
    && (if bitsOf cfg 8 1 = 1 then 1 ≤ bitsOf win 0 24 && bitsOf win 0 24 ≤ 255 else 100 ≤ bitsOf win 0 24 && bitsOf win 0 24 ≤ 10000000)

/-- P of R472, in 2^-8 ns. -/
def mcvP (s : State) : Nat := s.mcv.period.getD (s.rd F_MCV_NOMINAL_NS * 256)

/-- The converter coasts. -/
def mcvCoasting (s : State) : Bool := s.on F_MCV_STATUS_COAST

/-- The gains that entries 0 to SEQ_LEN use. -/
def tableGains (s : State) : Nat :=
  (List.range 3).foldl (fun v g => if (List.range (s.rd F_MCV_CTRL_SEQ_LEN + 1)).any (fun i => s.rd (F_MCV_E_CFG_GAIN i) == g) then v + 2 ^ g else v) 0

/-! ### Starting (R470, R471) -/

/-- The pending bits of MCV_STATUS follow the slots. -/
def mcvBits (s : State) : State :=
  s.wrs [(F_MCV_STATUS_INJ_PENDING, b2n s.mcv.inj.isSome), (F_MCV_STATUS_CAL_PENDING, b2n s.mcv.cal.isSome)]

/-- A conversion's dwell starts; DAC_SET 1 or 2 loads A or B. -/
def startConv (s : State) (kind entry cfg win cmd : Nat) : State :=
  let d := bitsOf cfg 9 2
  let s1 := if d = 1 ∨ d = 2 then dacPin (s.wr F_MCV_DAC_CTRL_SEL_B (d - 1)) else s
  let s2 := s1.wr F_MCV_STATUS_STATE (kind + 2)
  let c : McvConv :=
    { kind := kind, entry := entry, cfg := cfg, win := win, cmd := cmd, phase := .dwell,
      dwellEnd := s.up + bitsOf cfg 16 16 * 1000, start := 0, startUp := 0, spanEnd := none, reports := 0, len := 0, dac := 0,
      coast := false, suspect := false }
  mcvBits (s2.modMcv (fun m => { m with conv := some c }))

/-- The steps of a calibration of some gains (R478). -/
def calSteps (mask : Nat) : List (Nat × Nat) :=
  (List.range 3).flatMap (fun g =>
    if mask.testBit g then [(g, 8), (g, [9, 11, 12].getD g 9)] ++ (if g = 0 then [(0, 14)] else []) else [])

/-- The next step of the calibration that runs. -/
def startCalStep (s : State) : State :=
  match s.mcv.run with
  | some r =>
    match r.steps with
    | (g, src) :: _ => startConv s 2 31 (src + g * 16 + 100 * 65536) (max 100 (s.rd F_MCV_CAL_WIN_US)) 0
    | [] => s
  | none => s

/-- The first entry from one on that has no parity error. -/
def nextGood (s : State) (n : Nat) : Nat → Nat → Option Nat
  | _, 0 => none
  | i, k + 1 => if s.mcv.bad.contains (i % n) then nextGood s n (i + 1) k else some (i % n)

/-- A regular entry starts: its shadowed fields take effect (R476). -/
def startRegular (s : State) : State :=
  let n := s.rd F_MCV_CTRL_SEQ_LEN + 1
  match nextGood s n (s.rd F_MCV_STATUS_ENTRY) n with
  | none => s.wr F_MCV_STATUS_STATE 1
  | some i =>
    let s1 := (s.applyRegs [R_MCV_E_CFG i, R_MCV_E_WIN i, R_MCV_E_ANCHOR i, R_MCV_E_K i]).wr F_MCV_STATUS_ENTRY i
    startConv s1 0 i (regGet s1.eff (R_MCV_E_CFG i)).toNat (regGet s1.eff (R_MCV_E_WIN i)).toNat 0

/-- The next work: a pending injection, a pending calibration, the regular sequence (R480). In Containment none (R483). -/
def mcvChoose (s0 : State) : State :=
  let s := s0.modMcv (fun m => { m with conv := none })
  if !mcvRuns s || s.err.contained then s.wr F_MCV_STATUS_STATE (if mcvRuns s then 1 else 0)
  else
    match s.mcv.inj with
    | some q =>
      let s1 := (s.modMcv (fun m => { m with inj := none })).applyRegs [R_MCV_INJ_CFG, R_MCV_INJ_WIN]
      let w := q.words.getD ((regGet s1.eff R_MCV_INJ_CFG).toNat, (regGet s1.eff R_MCV_INJ_WIN).toNat)
      startConv s1 1 31 w.1 w.2 q.cmd
    | none =>
      match s.mcv.cal with
      | some q => startCalStep (s.modMcv (fun m => { m with
          cal := none, run := some { req := q, steps := calSteps q.mask, zero := 0, passed := 0, failed := 0 } }))
      | none =>
        let mode := s.rd F_MCV_CTRL_SEQ_MODE
        if mode = 2 ∨ (mode = 1 ∧ s.mcv.pass = true) then startRegular s else mcvBits (s.wr F_MCV_STATUS_STATE 1)

/-- Nothing converts: look for work. -/
def mcvKick (s : State) : State := if mcvRuns s && s.mcv.conv.isNone then mcvChoose s else mcvBits s

/-- The filter unit's window of an anchored entry is given up. -/
def anchDrop (s : State) (c : McvConv) : State :=
  let u := s.rdE (F_MCV_E_ANCHOR_UNIT c.entry)
  if c.kind = 0 && c.phase == .span && s.onE (F_MCV_E_ANCHOR_EN c.entry) && u < 12 then
    s.modDu u (fun d => { d with acc := List.replicate 4 AnchAcc.zero, aStart := none, aEnd := none })
  else s

/-- A running regular conversion is abandoned; the integrator discharges (R470, R480). -/
def mcvAbandon (s : State) : State :=
  match s.mcv.conv with
  | none => s
  | some c =>
    if c.kind ≠ 0 ∨ c.phase = .discharge then s
    else (anchDrop (s.bump F_MCV_COUNTS_REG_ABORTED) c).modConv (fun x => { x with phase := .discharge })

/-- An injection is requested; `false` when its slot is full (R480). -/
def injRequest (s : State) (q : InjReq) : State × Bool :=
  if s.mcv.inj.isSome then (s.bump F_MCV_COUNTS_INJ_DROP, false)
  else (mcvKick (mcvAbandon (s.modMcv (fun m => { m with inj := some q }))), true)

/-- A calibration is requested; `false` when its slot is full (R480). -/
def calRequest (s : State) (q : CalReq) : State × Bool :=
  if s.mcv.cal.isSome then (s.bump F_MCV_COUNTS_CAL_DROP, false)
  else
    let s1 := s.modMcv (fun m => { m with cal := some q })
    (mcvKick (if s.mcv.inj.isSome then s1 else mcvAbandon s1), true)

/-- An automatic request for every gain that the table uses (R479). -/
def calAuto (s : State) : State := (calRequest s { mask := tableGains s, cmd := 0 }).1

/-! ### Spans (R471, R472, R477) -/

/-- The span begins. -/
def spanStart (s : State) : State :=
  match s.mcv.conv with
  | none => s
  | some c =>
    let n := cOrder c * bitsOf c.win 0 24
    let coast := cMains c && mcvCoasting s
    let stop := if coast then some (s.up + n * mcvP s / 256) else if cMains c then none else some (s.up + n * 1000)
    let s1 := s.modConv (fun x => { x with
      phase := .span, start := s.now, startUp := s.up, spanEnd := stop, reports := n, dac := dacCode s, coast := coast })
    let u := s.rdE (F_MCV_E_ANCHOR_UNIT c.entry)
    if c.kind = 0 && s.onE (F_MCV_E_ANCHOR_EN c.entry) && u < 12 && s.on (F_DFU_CTRL_ANCHOR_EN u) && s.domOn .intake then
      let s2 := if (s1.du u).aEnd.isSome then anchClose s1 u else s1
      s2.modDu u (fun d => { d with aStart := some s.now, aEnd := none, acc := List.replicate 4 AnchAcc.zero })
    else s1

/-- The span ends at an uptime that has been reached; run-down begins. -/
def spanStop (s : State) (at_ : Nat) : State :=
  match s.mcv.conv with
  | none => s
  | some c =>
    let late := s.up - at_
    let stop := s.now - late * ns1
    let len := at_ - c.startUp
    let s1 := s.modConv (fun x => { x with phase := .rundown, len := len, suspect := decide (stop ≠ c.start + len * ns1) })
    let u := s.rdE (F_MCV_E_ANCHOR_UNIT c.entry)
    if c.kind = 0 && s.onE (F_MCV_E_ANCHOR_EN c.entry) && u < 12 && (s1.du u).aStart.isSome then
      s1.modDu u (fun d => { d with aEnd := some stop })
    else s1

/-- A period report of the MCV's source (R471, R472). -/
def mcvReport (s : State) (x : Report) : State :=
  if !mcvRuns s || s.rd F_MCV_CTRL_FUND_SRC ≠ x.fp then s
  else
    let s1 := (s.modMcv (fun m => { m with period := some x.p, lastRep := s.up })).wr F_MCV_STATUS_COAST 0
    match s1.mcv.conv with
    | none => s1
    | some c =>
      if !cMains c then s1
      else if c.phase = .report then spanStart s1
      else if c.phase = .span ∧ c.spanEnd = none then
        (if c.reports ≤ 1 then spanStop s1 s.up else s1.modConv (fun y => { y with reports := y.reports - 1 }))
      else s1

/-! ### Results (R473, R475) -/

/-- Coefficients of the k-fold self-convolution of sixteen ones. -/
def conv16 (l : List Nat) : List Nat :=
  (List.range (l.length + 15)).map (fun j => ((List.range 16).map (fun i => if i ≤ j then l.getD (j - i) 0 else 0)).foldl (· + ·) 0)
def convW : Nat → List Nat
  | 0 => [1]
  | k + 1 => conv16 (convW k)

/-- The raw value of the sub-windows' charges, in 2^-32 of q_REF, and lengths in ns (R473). -/
def mcvRaw (gain k : Nat) (sub : List (Int × Nat)) : Int :=
  let w := convW k
  let g : Nat := [1, 8, 64].getD gain 1
  let num := ((sub.zip w).map (fun x => x.1.1 * (x.2 : Int))).foldl (· + ·) 0
  let den := ((sub.zip w).map (fun x => x.1.2 * x.2)).foldl (· + ·) 0
  roundNE (num * 4194304 * (g : Int)) (max 1 den * 4294967296)

/-- sat24. -/
def sat24 (x : Int) : Int := max (-8388607) (min 8388607 x)

/-- CODE before saturation, with a gain's constants (R473). -/
def mcvCode (s : State) (g : Nat) (raw : Int) : Int := roundNE ((raw - s.rdS (F_MCV_OFS_OFS g)) * (s.rd (F_MCV_GCAL_GCAL g) : Int)) 1073741824

/-- The head of the result chute shows in MCV_RES_W0 to W7. -/
def resHead (s : State) : State :=
  let h := s.mcv.results.headD []
  ((List.range 8).foldl (fun t i => t.setReg (R_MCV_RES_W i) (BitVec.ofNat 32 (dwordAt h i))) s).wr F_MCV_RES_DEPTH_DEPTH s.mcv.results.length

/-- Byte 23 of a record. -/
def mcvFlags (s : State) (c : McvConv) (ovr : Bool) : Nat :=
  b2n ovr + 2 * b2n c.coast + 4 * b2n (c.suspect || s.on F_MCV_STATUS_REF_FAULT) + 8 * b2n (!s.mcv.passed.testBit (cGain c))

/-- A record (Table 17.3). -/
def mcvRecord (s : State) (c : McvConv) (code : Int) (flags : Nat) : List Byte :=
  withCheck (natBytes 12 c.start ++ natBytes 6 c.len ++ natBytes 3 (wrapTo 24 code) ++ natBytes 1 (c.entry + 32 * c.kind)
    ++ natBytes 1 (c.cfg % 256) ++ natBytes 1 flags ++ natBytes 4 (s.rd F_MCV_NUM_NUM) ++ natBytes 2 c.dac)

/-- A record enters the chute, or is lost (R475). -/
def mcvPush (s : State) (c : McvConv) (r : List Byte) : State :=
  if s.mcv.results.length < 64 then resHead (s.modMcv (fun m => { m with results := m.results ++ [r] }))
  else
    let s1 := s.bump F_MCV_RES_LOST_COUNT
    if s.mcv.lostRaised then s1 else (s1.modMcv (fun m => { m with lostRaised := true })).raiseAt c.start 14 0x04 0 resNone 0

/-- K × CODE as a fraction, from a binary32 K; none for an infinity or a NaN. -/
def kTimes (k : Nat) (code : Int) : Option (Int × Nat) :=
  let e := bitsOf k 23 8
  let m := bitsOf k 0 23 + (if e = 0 then 0 else 8388608)
  let x := max e 1
  if e = 255 then none
  else
    let n : Int := (if k.testBit 31 then -1 else 1) * (m : Int) * code
    if x ≥ 150 then some (n * (2 ^ (x - 150) : Nat), 1) else some (n, 2 ^ (150 - x))

/-- The result of an anchored entry goes to firmware (R477); in Containment firmware stops anchoring. -/
def anchResult (s : State) (c : McvConv) (code : Int) : State :=
  let u := s.rdE (F_MCV_E_ANCHOR_UNIT c.entry)
  if c.kind ≠ 0 || !s.onE (F_MCV_E_ANCHOR_EN c.entry) || u ≥ 12 || s.err.contained then s
  else
    match kTimes (s.rdE (F_MCV_E_K_K c.entry)) code with
    | none => s
    | some (n, d) =>
      s.modDu u (fun x => { x with
        targ := listMod (List.replicate 4 none) (s.rdE (F_MCV_E_ANCHOR_MEMBER c.entry)) (fun _ => some (n, d, s.rdE (F_MCV_E_ANCHOR_LEVEL c.entry))) })

/-! ### Calibration (R478) -/

/-- A gain's constants pass. -/
def calOk (ofs gcal : Int) : Bool := (ofs.natAbs ≤ 65536) && 9 * 1073741824 ≤ 10 * gcal && 10 * gcal ≤ 11 * 1073741824

/-- The dwords of CAL_DONE. -/
def calDone (s : State) (r : CalRun) : List Nat :=
  [r.passed + 16 * r.failed, (s.reg (R_MCV_OFS 0)).toNat, (s.reg (R_MCV_GCAL 0)).toNat, (s.reg R_MCV_CAL_REFCHK).toNat]

/-- The calibration has ended. -/
def calEnd (s : State) (r : CalRun) : State :=
  let all := s.mcv.passed
  let valid := (List.range 3).all (fun g => !(tableGains s).testBit g || all.testBit g)
  let s1 := ((s.wr F_MCV_CAL_TEMP_TEMP (s.rd F_PMU_TEMP_T_NOW)).wrTs (R_MCV_CAL_W 0) s.now).wr F_MCV_STATUS_CAL_VALID
    (if valid then 1 else s.rd F_MCV_STATUS_CAL_VALID)
  let s2 := (s1.modMcv (fun m => { m with run := none, calUp := s.up, askedPeriod := false, askedTemp := false })).postEvent 0 0x0E01 (calDone s1 r)
  let d := calDone s1 r
  if r.req.cmd = 0 then s2
  else s2.wake .mcvCal r.req.cmd { st := if r.failed = 0 then .ok else .hwError, r0 := d.getD 0 0, r1 := d.getD 1 0, r2 := d.getD 2 0, r3 := d.getD 3 0 }

/-- What a calibration conversion's raw value does. -/
def calStep (s : State) (c : McvConv) (raw : Int) (r : CalRun) : State :=
  let g := cGain c
  let next (t : State) (x : CalRun) : State := t.modMcv (fun m => { m with run := some { x with steps := r.steps.drop 1 } })
  if cSrc c = 8 then next s { r with zero := raw }
  else if cSrc c = 14 then
    let bg := max 1 Config.bgExpect
    let ppm := roundNE ((sat24 (mcvCode s 0 raw) - (bg : Int)) * 1000000) bg
    let s1 := s.wrS F_MCV_CAL_REFCHK_PPM ppm
    let s2 := if ppm.natAbs > 20000 then (s1.wr F_MCV_STATUS_REF_FAULT 1).raiseAt c.start 14 0x02 2 (resIndex 0x20) 0
      else if r.passed.testBit 0 then s1.wr F_MCV_STATUS_REF_FAULT 0 else s1
    next s2 r
  else
    let diff := raw - r.zero
    let gcal : Int := if diff ≤ 0 then 0 else roundNE 4503599627370496 diff.toNat
    if calOk r.zero gcal then
      next ((s.wrS (F_MCV_OFS_OFS g) r.zero).wrS (F_MCV_GCAL_GCAL g) gcal |>.modMcv (fun m => { m with
        passed := if m.passed.testBit g then m.passed else m.passed + 2 ^ g })) { r with passed := r.passed + 2 ^ g }
    else next (s.raiseAt c.start 14 0x01 2 (resIndex g) 0) { r with failed := r.failed + 2 ^ g }

/-! ### EN and the domain (R531, R482) -/

/-- EN rises: NUM starts at 0, a calibration comes first (R475, R479). -/
def mcvEnRise (s : State) : State :=
  let s1 := (s.wrs [(F_MCV_CTRL_EN, 1), (F_MCV_NUM_NUM, 0), (F_MCV_STATUS_COAST, 0), (F_MCV_STATUS_ENTRY, 0)]).modMcv (fun m => { m with
    lostRaised := false, period := none, lastRep := s.up })
  mcvKick (if s1.mcv.cal.isSome then s1 else calAuto s1)

/-- Conversions stop: a regular one is abandoned and counted, an injected one ends its command, a calibration waits again. -/
def mcvStop (s : State) : State :=
  let s1 := match s.mcv.conv with
    | none => s
    | some c =>
      let t := mcvAbandon s
      if c.kind = 1 && c.cmd != 0 then t.wake .mcvInject c.cmd { st := .aborted } else t
  let cal := match s1.mcv.cal, s1.mcv.run with
    | none, some r => some r.req
    | x, _ => x
  mcvBits ((s1.wr F_MCV_STATUS_STATE 0).modMcv (fun m => { m with conv := none, run := none, cal := cal }))

/-- EN falls: a pass ends with it. -/
def mcvEnFall (s : State) : State :=
  (mcvStop (s.wrs [(F_MCV_CTRL_EN, 0), (F_MCV_STATUS_START_PENDING, 0)])).modMcv (fun m => { m with pass := false })

/-- EN follows the MCV enable. -/
def mcvMirror (s : State) : State :=
  if s.mcv.enable == s.on F_MCV_CTRL_EN then s else if s.mcv.enable then mcvEnRise s else mcvEnFall s

/-- R479's automatic reasons for a calibration. -/
def calPeriodDue (s : State) : Bool :=
  s.rd F_MCV_CAL_CFG_CAL_PERIOD != 0 && !s.mcv.askedPeriod && s.up ≥ s.mcv.calUp + s.rd F_MCV_CAL_CFG_CAL_PERIOD * 1000000000
def calTempDue (s : State) : Bool :=
  s.rd F_MCV_CAL_CFG_CAL_DT != 0 && !s.mcv.askedTemp
    && (s.rdS F_PMU_TEMP_T_NOW - s.rdS F_MCV_CAL_TEMP_TEMP).natAbs ≥ 16 * s.rd F_MCV_CAL_CFG_CAL_DT

/-- The temperature has moved (R479). -/
def mcvTemp (s : State) : State :=
  if mcvRuns s && calTempDue s then calAuto (s.modMcv (fun m => { m with askedTemp := true })) else s

/-- The domain is wanted (R531, Table 1.8); codes 4 to 7 are transitions. -/
def mcvWanted (s : State) (ps : Nat) : Bool :=
  if ps = 2 then s.mcv.enable else if ps = 1 then s.onE F_GLB_CTRL_WATCH_MCV else false

/-- The domain turns on: what was saved is restored, a calibration comes first where R479 calls for one (R482). -/
def mcvPowerOn (s : State) : State :=
  let s1 := dacPin (s.setDom .mcv 2)
  let s2 := mcvMirror (s1.wr F_MCV_STATUS_STATE (if s1.on F_MCV_CTRL_EN then 1 else 0))
  let s3 := s2.modMcv (fun m => { m with lastRep := s.up })
  let s4 := if mcvRuns s3 && calPeriodDue s3 then calAuto (s3.modMcv (fun m => { m with askedPeriod := true })) else s3
  mcvKick (mcvTemp s4)

/-- The domain turns off (R482). -/
def mcvPowerOff (s : State) : State := dacPin ((mcvStop (s.wr F_MCV_STATUS_WRITE_REFUSED 0)).setDom .mcv 0)

/-- The domain follows a power state. -/
def mcvPower (s : State) (ps : Nat) : State :=
  if mcvWanted s ps && s.dom .mcv == 0 then mcvPowerOn s
  else if !mcvWanted s ps && s.dom .mcv != 0 then mcvPowerOff s else s

end Sys2Proof.Machine
end

