-- ==== Sys2Proof/Machine/Mcv.lean ====
section
/-!
DEFINITION. The metrology converter's commands and events (chapter 17), and the arrival of period reports (R88, R471).
-/

namespace Sys2Proof.Machine

/-! ### Opcodes -/

/-- The fields that MCV_CONFIG may not change while EN = 1. -/
def mcvFrozenSame (p : Packet) (s : State) : Bool :=
  s.rd F_MCV_CTRL_SEQ_MODE == pf p 2 1 2 && s.rd F_MCV_CTRL_SEQ_LEN == pf p 2 3 5 && s.rd F_MCV_CTRL_FUND_SRC == pf p 2 8 3
    && s.rd F_MCV_CAL_WIN_US == pf p 4 0 24

/-- The MCV enable takes a value: EN and the domain follow (R531). No domain changes during a transition. -/
def mcvEnable (s : State) (en : Bool) : State :=
  let s1 := s.modMcv (fun m => { m with enable := en })
  let power (t : State) : State := if t.pstate ≤ 2 then mcvPower t t.pstate else t
  let mirror (t : State) : State := if t.domOn .mcv then mcvMirror t else t
  if en then mirror (power s1) else power (mirror s1)

/-- The settings of MCV_CONFIG, the enable last. -/
def mcvCfg (p : Packet) (s : State) : State :=
  mcvKick (mcvEnable (s.wrs [(F_MCV_CTRL_SEQ_MODE, pf p 2 1 2), (F_MCV_CTRL_SEQ_LEN, pf p 2 3 5),
    (F_MCV_CTRL_FUND_SRC, pf p 2 8 3), (F_MCV_CAL_CFG_CAL_PERIOD, pf p 3 0 16), (F_MCV_CAL_CFG_CAL_DT, pf p 3 16 8),
    (F_MCV_CAL_WIN_US, pf p 4 0 24), (F_MCV_NOMINAL_NS, pdw p 5)]) (pb p 2 0))

/-- MCV_CONFIG. -/
def execMcvConfig (p : Packet) (s : State) : Out :=
  fcpStep { op := 0xB0, pfOnly := true,
            valid := fun p _ => pf p 2 1 2 != 3 && 100 ≤ pf p 4 0 24 && pf p 4 0 24 ≤ 10000000,
            allowed := fun p s => !s.mcv.enable || mcvFrozenSame p s,
            run := fun p s => fOk (mcvCfg p s) } p s

/-- An entry of the sequence is written; an error it showed is gone. -/
def mcvEntry (p : Packet) (s : State) : State :=
  let i := pf p 2 0 5
  mcvKick (((s.wrs [(F_MCV_E_WIN_WIN i, pf p 4 0 24), (⟨R_MCV_E_CFG i, 0, 11⟩, pf p 3 0 11), (F_MCV_E_CFG_DWELL i, pf p 3 16 16),
    (⟨R_MCV_E_ANCHOR i, 0, 9⟩, pf p 5 0 9)]).setReg (R_MCV_E_K i) (p.dws.getD 6 0)).modMcv (fun m => { m with bad := m.bad.filter (fun b => b != i) }))

/-- MCV_SEQ. -/
def execMcvSeq (p : Packet) (s : State) : Out :=
  fcpStep { op := 0xB1, pfOnly := true,
            valid := fun p _ =>
              mcvWordsOk (pdw p 3) (pdw p 4) && pf p 5 0 4 < 12 && (!pb p 5 8 || (pf p 3 0 4 < 8 && pf p 3 6 2 == 0)),
            run := fun p s => fOk (mcvEntry p s) } p s

/-- The next number for a command that waits. -/
def mcvId (s : State) : Nat × State := (s.mcv.next, s.modMcv (fun m => { m with next := m.next + 1 }))

/-- What MCV_INJECT and MCV_CAL ask for, under the number the command then waits for. -/
def injAsk (p : Packet) (s : State) : InjReq := { words := some (pdw p 2, pdw p 3), cmd := (mcvId s).1 }
def injNow (p : Packet) (s : State) : State × Bool := injRequest (mcvId s).2 (injAsk p s)
def injLater (p : Packet) (s : State) : State :=
  ((mcvId s).2.wrTs (R_MCV_INJ_AT_W 0) (pTs p 4)).modMcv (fun m => { m with timed := some (injAsk p s) })
def calNow (p : Packet) (s : State) : State × Bool := calRequest (mcvId s).2 { mask := pf p 2 0 3, cmd := (mcvId s).1 }

/-- MCV_INJECT. -/
def execMcvInject (p : Packet) (s : State) : Out :=
  fcpStep { op := 0xB2, pfOnly := true, dom := some .mcv, valid := fun p _ => mcvWordsOk (pdw p 2) (pdw p 3),
            run := fun p s =>
              if pTs p 4 = 0 then
                if (injNow p s).2 then .wait .mcvInject s.mcv.next 0 (injNow p s).1 else fSt .notPermitted (injNow p s).1
              else if s.mcv.timed.isSome then fSt .notPermitted ((mcvId s).2.bump F_MCV_COUNTS_INJ_DROP)
              else .wait .mcvInject s.mcv.next 0 (injLater p s) } p s

/-- MCV_CAL. -/
def execMcvCal (p : Packet) (s : State) : Out :=
  fcpStep { op := 0xB3, pfOnly := true, dom := some .mcv, valid := fun p _ => pf p 2 0 3 != 0,
            run := fun p s =>
              if (calNow p s).2 then .wait .mcvCal s.mcv.next 0 (calNow p s).1 else fSt .notPermitted (calNow p s).1 } p s

/-- MCV_DAC. -/
def execMcvDac (p : Packet) (s : State) : Out :=
  fcpStep { op := 0xB4, pfOnly := true, dom := some .mcv,
            run := fun p s => fOk (dacPin (s.wrs [(F_MCV_DAC_CTRL_EN, pf p 2 0 1), (F_MCV_DAC_CODE_A, pf p 3 0 16), (F_MCV_DAC_CODE_B, pf p 3 16 16)])) } p s

/-- The converter's counts. -/
def mcvClear (s : State) : State :=
  s.zeroFields [F_MCV_COUNTS_REG_ABORTED, F_MCV_COUNTS_INJ_DROP, F_MCV_COUNTS_START_DROP, F_MCV_COUNTS_CAL_DROP, F_MCV_RES_LOST_COUNT]

/-- MCV_STATUS. -/
def execMcvStatus (p : Packet) (s : State) : Out :=
  fcpStep { op := 0xB5,
            run := fun p s =>
              let w (a : Nat) : Nat := if s.dom .mcv = 0 then 0 else (s.reg a).toNat
              .final (okR (w R_MCV_STATUS) (w (R_MCV_E_LAST (pf p 2 0 5))) (w R_MCV_COUNTS) (w R_MCV_CAL_REFCHK))
                (if pb p 2 8 then mcvClear s else s) } p s

/-! ### Register writes -/

/-- A START (R476). -/
def mcvStart (s : State) : State :=
  if !s.on F_MCV_CTRL_EN || s.rd F_MCV_CTRL_SEQ_MODE ≠ 1 then s
  else if !s.mcv.pass then mcvKick ((s.modMcv (fun m => { m with pass := true })).wr F_MCV_STATUS_ENTRY 0)
  else if s.on F_MCV_STATUS_START_PENDING then s.bump F_MCV_COUNTS_START_DROP
  else s.wr F_MCV_STATUS_START_PENDING 1

/-- A write of MCV_CTRL (Table 17.5, R531). -/
def mcvCtrlWrite (v : Nat) (s : State) : State :=
  let s1 := plainWrite s R_MCV_CTRL (s.on F_MCV_CTRL_EN) F_MCV_STATUS_WRITE_REFUSED v (fun f => 1 ≤ f.lo && f.lo ≤ 8)
  let s2 := if v.testBit 12 then mcvClear s1 else s1
  let s3 := if v.testBit 0 != s2.on F_MCV_CTRL_EN then mcvEnable s2 (v.testBit 0) else s2
  let s4 := if v.testBit 13 then mcvStart s3 else s3
  let s5 := if v.testBit 14 then (injRequest s4 { words := none, cmd := 0 }).1 else s4
  if v.testBit 15 then calAuto s5 else s5

/-- MCV_EN_WRITE. -/
def execMcvEnWrite (m : Nat) (v : Word) (s : State) : Out := .next (s.writeBy m R_MCV_CTRL (mcvCtrlWrite v.toNat))

/-- MCV_START_WRITE. -/
def execMcvStartWrite (m : Nat) (v : Word) (s : State) : Out := .next (s.writeBy m R_MCV_CTRL (mcvCtrlWrite v.toNat))

/-- MCV_INJ_GO. -/
def execMcvInjGo (m : Nat) (v : Word) (s : State) : Out := .next (s.writeBy m R_MCV_CTRL (mcvCtrlWrite v.toNat))

/-- MCV_CAL_GO. -/
def execMcvCalGo (m : Nat) (v : Word) (s : State) : Out := .next (s.writeBy m R_MCV_CTRL (mcvCtrlWrite v.toNat))

/-- MCV_CLR_COUNTERS. -/
def execMcvClrCounters (m : Nat) (v : Word) (s : State) : Out := .next (s.writeBy m R_MCV_CTRL (mcvCtrlWrite v.toNat))

/-- A write of MCV_RES_POP: the head is removed (R475). -/
def resPop (v : Nat) (s : State) : State :=
  if v.testBit 0 then resHead (s.modMcv (fun m => { m with results := m.results.drop 1 })) else s

/-- MCV_RES_POP. -/
def execMcvResPop (m : Nat) (v : Word) (s : State) : Out := .next (s.writeBy m R_MCV_RES_POP (resPop v.toNat))

/-! ### Events -/

/-- PERIOD_REPORT_ARRIVAL: the oldest report of output `f` on its way reaches the resamplers and MCV (R173). -/
def execPeriodReportArrival (f : Nat) (s : State) : Out :=
  match s.tim.reports.find? (fun r => r.fp == f) with
  | none => .next s
  | some r =>
    if s.now < r.due then .next s
    else
      let s1 := s.modTim (fun t => { t with reports := t.reports.eraseP (fun x => x.fp == f) })
      .next (mcvReport (dfuReport s1 r) r)

/-- The injection that INJ_AT holds is requested; a command that is turned away ends (R480). -/
def injAt (s : State) : State :=
  let q := s.mcv.timed.getD { words := none, cmd := 0 }
  let r := injRequest ((s.wrTs (R_MCV_INJ_AT_W 0) 0).modMcv (fun m => { m with timed := none })) q
  if r.2 || q.cmd == 0 then r.1 else r.1.wake .mcvInject q.cmd { st := .notPermitted }

/-- MCV_INJ_AT: TS96 has reached MCV_INJ_AT (R480). -/
def execMcvInjAt (s : State) : Out :=
  let t := s.rdTs (R_MCV_INJ_AT_W 0)
  if t = 0 || s.now < t || !s.domOn .mcv || s.err.contained then .next s
  else .next (injAt s)

/-- An entry of the sequence with a parity error is skipped until it is written (R484). -/
def entryBad (s : State) (e : Nat) : State :=
  mcvChoose ((s.modMcv (fun m => { m with bad := e :: m.bad })).raise 14 0x05 2 (resIndex (0x100 + e)) 0)

/-- MCV_DWELL_END: the dwell is over; `bad` says that the entry has a parity error (R470, R471, R484). -/
def execMcvDwellEnd (bad : Bool) (s : State) : Out :=
  match s.mcv.conv with
  | none => .next s
  | some c =>
    if c.phase ≠ .dwell || s.up < c.dwellEnd || !mcvRuns s then .next s
    else if bad && c.kind == 0 then .next (entryBad s c.entry)
    else if cMains c && !mcvCoasting s then .next (s.modConv (fun x => { x with phase := .report }))
    else .next (spanStart s)

/-- MCV_SPAN_END: a timed span is over. -/
def execMcvSpanEnd (s : State) : Out :=
  match s.mcv.conv with
  | none => .next s
  | some c =>
    match c.spanEnd with
    | none => .next s
    | some t => if c.phase ≠ .span || s.up < t || !mcvRuns s then .next s else .next (spanStop s t)

/-- MCV_ABANDON: the integrator has discharged after an abandoned conversion (R470). -/
def execMcvAbandon (s : State) : Out :=
  match s.mcv.conv with
  | none => .next s
  | some c => if c.phase ≠ .discharge then .next s else .next (mcvChoose s)

/-- The converter coasts: a span that waits for a report starts, one under way ends by the period as last known (R472). -/
def coastNow (s : State) (c : McvConv) : State :=
  let s1 := (s.wr F_MCV_STATUS_COAST 1).raise 14 0x03 0 resNone 0
  if c.phase = .report then spanStart s1
  else if c.phase = .span then
    s1.modConv (fun x => { x with
      coast := true, spanEnd := some (x.startUp + cOrder c * bitsOf c.win 0 24 * mcvP s / 256) })
  else s1

/-- MCV_COAST: no report within 2 × P (R472). -/
def execMcvCoast (s : State) : Out :=
  match s.mcv.conv with
  | none => .next s
  | some c =>
    if !mcvRuns s || !cMains c || mcvCoasting s || s.up < s.mcv.lastRep + 2 * mcvP s / 256 then .next s
    else .next (coastNow s c)

/-- MCV_CAL_PERIOD: CAL_PERIOD seconds have passed since the last calibration (R479). -/
def execMcvCalPeriod (s : State) : Out :=
  if mcvRuns s && calPeriodDue s then .next (calAuto (s.modMcv (fun m => { m with askedPeriod := true }))) else .next s

/-- What follows a regular conversion in the sequence (R476). -/
def seqNext (s : State) (c : McvConv) (num : Nat) : State :=
  let n := s.rd F_MCV_CTRL_SEQ_LEN + 1
  let last := (List.range n).all (fun i => i ≤ c.entry || s.mcv.bad.contains i)
  let s1 := s.wr F_MCV_STATUS_ENTRY (if last then 0 else c.entry + 1)
  if !last || s.rd F_MCV_CTRL_SEQ_MODE ≠ 1 then s1
  else
    let s2 := s1.postEvent 0 0x0E02 [num, 0, 0, 0]
    (s2.modMcv (fun m => { m with pass := s.on F_MCV_STATUS_START_PENDING })).wr F_MCV_STATUS_START_PENDING 0

/-- The calibration goes on, or ends (R478, R480, R483). -/
def calNext (s : State) (c : McvConv) (raw : Int) : State :=
  match s.mcv.run with
  | none => mcvChoose s
  | some r =>
    let s1 := calStep s c raw r
    match s1.mcv.run with
    | none => mcvChoose s1
    | some r1 =>
      if r1.steps.isEmpty then mcvChoose (calEnd s1 r1)
      else if s1.err.contained then mcvChoose s1 else startCalStep s1

/-- The result before and after the coefficients, its flags, and the state with the record pushed (R469, R473, R475). -/
def runRaw (c : McvConv) (sub : List (Int × Nat)) (overload : Bool) : Int :=
  let r := mcvRaw (cGain c) (cOrder c) sub
  if overload then (if r < 0 then -8388607 else 8388607) else r
def runCode (s : State) (c : McvConv) (sub : List (Int × Nat)) (overload : Bool) : Int :=
  if overload then runRaw c sub true else sat24 (mcvCode s (cGain c) (runRaw c sub false))
def runFlags (s : State) (c : McvConv) (sub : List (Int × Nat)) (overload : Bool) : Nat :=
  mcvFlags s c (overload || decide (runCode s c sub overload ≠ mcvCode s (cGain c) (runRaw c sub overload)))
def runPush (s : State) (c : McvConv) (sub : List (Int × Nat)) (overload : Bool) : State :=
  (mcvPush s c (mcvRecord s c (runCode s c sub overload) (runFlags s c sub overload))).wr F_MCV_NUM_NUM
    ((s.rd F_MCV_NUM_NUM + 1) % 4294967296)

/-- What follows: a regular conversion's entry and sequence, an injected one's command, a calibration's next step. -/
def runNext (s : State) (c : McvConv) (sub : List (Int × Nat)) (overload : Bool) : State :=
  let code := runCode s c sub overload
  let fl := runFlags s c sub overload
  let s1 := runPush s c sub overload
  if c.kind = 0 then
    let s2 := (s1.wrS (F_MCV_E_LAST_CODE c.entry) code).wr (F_MCV_E_LAST_FLAGS c.entry) fl
    mcvChoose (seqNext (anchResult s2 c code) c (s.rd F_MCV_NUM_NUM))
  else if c.kind = 1 then
    let w := tsWords c.start
    mcvChoose (if c.cmd = 0 then s1
      else s1.wake .mcvInject c.cmd (okR (wrapTo 32 code) fl (w.getD 1 0).toNat (w.getD 2 0).toNat))
  else calNext s1 c (runRaw c sub overload)

/-- MCV_RUNDOWN_DONE: the charges and lengths of the sub-windows, and whether the modulator was overloaded, give the result
(R469, R473, R475). -/
def execMcvRundownDone (sub : List (Int × Nat)) (overload : Bool) (s : State) : Out :=
  match s.mcv.conv with
  | none => .next s
  | some c =>
    if c.phase ≠ .rundown || !mcvRuns s then .next s
    else .next (runNext s c sub overload)

end Sys2Proof.Machine
end

