-- ==== Sys2Proof/Machine/Power.lean ====
section
/-!
DEFINITION. The power states: requests, wakes and transitions (R31, R32, R435 to R440, R446).
-/

namespace Sys2Proof.Machine

/-! ### Requests -/

/-- TRG's policy keeps Record while armed (R142). -/
def recordHeld (s : State) : Bool :=
  decide (2 ≤ trgState s) && s.on F_TRG_RETAIN_STATUS_SHORT_WATCH && s.on F_TRG_CTRL_WAKE_EN && !s.on F_TRG_PLACE_RETAIN_POLICY

/-- The next leg of the state that is wanted begins: towards Rest TRG is disarmed first, out of Record CAP stops (R32,
R438, R439). -/
def psNext (s : State) : State :=
  match s.clk.want with
  | none => s
  | some w =>
    if s.err.contained || s.clk.trans.isSome then s
    else if s.pstate = w.target then s.modClk (fun c => { c with want := none })
    else
      match legCode s.pstate w.target with
      | 5 => recordStart s
      | 6 => capStop (psStart s w)
      | 7 =>
        let n := s.rd64 R_TRG_DECISIONS_LO R_TRG_DECISIONS_HI
        psStart ((trgDisarm s).modClk (fun c => { c with disarmed := sat32 n })) w
      | _ => psStart s w

/-- A transition has reached its end: PSTATE, PMU_TRANS, PSTATE_CHANGED, the commands that waited, and what is wanted
next (R440, R444). -/
def psReach (s : State) (lost : Nat) : State :=
  match s.clk.trans with
  | none => s
  | some t =>
    let us := (s.up - t.start) / 1000
    let dec := if t.dst = 0 then s.clk.disarmed else 0
    let s1 := (s.wrs [(F_GLB_STATE_PSTATE, t.dst), (F_PMU_STATUS_PSTATE, t.dst), (F_PMU_TRANS_US, us), (F_PMU_TRANS_FROM, t.src),
      (F_PMU_TRANS_TO, t.dst)]).modClk (fun c => { c with trans := none })
    let s2 := crefPin (trigPin (s1.postEvent 0 0x0103 [t.dst + (t.cause <<< 8), us, lost, dec]))
    psNext (s2.wake .psWant t.dst (okR t.dst ((s.up - t.begun) / 1000) dec lost))

/-- What PSTATE_SET asks for; the deadline of its wait. -/
def psAsk (p : Packet) : PsWant := { target := pf p 2 0 2, cause := 1, begun := none, cmd := some (p.qid, pTag p) }
def psDue (p : Packet) (s : State) : Nat := s.up + (if pf p 3 0 16 = 0 then 1000 else pf p 3 0 16) * 1000000

/-- The request is latched, unless a transition to its state is under way already. -/
def psSet (p : Packet) (s : State) : State :=
  if (match s.clk.trans with | some t => t.dst == pf p 2 0 2 | none => false) then s else psNext (latchWant s (psAsk p))

/-- PSTATE_SET. -/
def execPstateSet (p : Packet) (s : State) : Out :=
  fcpStep { op := 0xE0, priv := some 3, valid := fun p _ => pf p 2 0 2 != 3,
            allowed := fun p s => !(decide (pf p 2 0 2 < 2) && recordHeld s && (s.pstate == 2 || s.pstate == 5)),
            run := fun p s =>
              let tgt := pf p 2 0 2
              let ready := s.on F_GLB_STATE_DRAM_READY
              if s.clk.trans.isNone && s.pstate == tgt then .final (okR tgt 0 0 0) s
              else if tgt = 2 && !ready && s.mem.training.isNone && failMask s != 0 then fSt .hwError s
              else if tgt = 2 && !ready then .pend .psWant tgt (psDue p s) (psSet p s)
              else .wait .psWant tgt (psDue p s) (psSet p s) } p s

/-- PSTATE_STATUS. -/
def execPstateStatus (p : Packet) (s : State) : Out :=
  fcpStep { op := 0xE1, contain := true,
            run := fun _ s => .final (okR (s.reg R_GLB_STATE).toNat (s.reg R_PMU_DOM_LO).toNat (s.reg R_PMU_TRANS).toNat
              (s.reg R_PMU_TEMP).toNat) s } p s

/-- Whether a contract with WATCH set holds pieces. -/
def watchHeld (s : State) : Bool := (activeCons s).any (fun c => c.f 2 13 1 == 1 && !c.pieces.isEmpty)

/-- The settings of WATCH_CONFIG. -/
def watchSet (p : Packet) (s : State) : State :=
  let s1 := s.wrs [(F_GLB_CTRL_WATCH_BARN, pf p 2 0 4), (F_GLB_CTRL_WATCH_MCV, pf p 2 4 1),
    (F_PMU_CTRL_WAKE_PIN_EN, pf p 2 8 1), (F_PMU_CTRL_WAKE_ALARM_EN, pf p 2 9 1)]
  (s1.wrTs (R_PMU_WAKE_AT_W 0) (pTs p 3)).modClk (fun c => { c with wakeArmed := true })

/-- WATCH_CONFIG: GLB_CTRL, PMU_CTRL, PMU_WAKE_AT (R38, R435, R530). -/
def execWatchConfig (p : Packet) (s : State) : Out :=
  fcpStep { op := 0xE2, priv := some 3, valid := fun p _ => pf p 2 0 4 ≤ 11,
            allowed := fun p s => pf p 2 0 4 == s.rd F_GLB_CTRL_WATCH_BARN || !watchHeld s,
            run := fun p s => fOk (watchSet p s) } p s

/-! ### Wakes -/

/-- A wake from Rest. -/
def askWatch (s : State) (cause : Nat) : State :=
  if s.err.contained || s.pstate != 0 then s
  else psNext (latchWant s { target := 1, cause := cause, begun := none, cmd := none })

/-- WAKE_N_ASSERT: WAKE_N has been low for 1 µs. -/
def execWakeNAssert (s : State) : Out :=
  let s1 := { s with pins := { s.pins with wakeN := false } }
  .next (if s.on F_PMU_CTRL_WAKE_PIN_EN then askWatch s1 5 else s1)

/-- ALARM_FIRE: the Sheaf alarm or the wake alarm, armed, enabled and reached (R530). -/
def execAlarmFire (sheaf : Bool) (s : State) : Out :=
  if sheaf then
    if !s.shf.alarmArmed || !s.on F_SHF_CTRL_ALARM_EN || s.now < s.rdTs (R_SHF_ALARM_W 0) then .next s
    else
      let s1 := { s with shf := { s.shf with alarmArmed := false } }
      .next (sheafDecide s1 3 (sheafTf s1 s1.now))
  else if !s.clk.wakeArmed || !s.on F_PMU_CTRL_WAKE_ALARM_EN || s.now < s.rdTs (R_PMU_WAKE_AT_W 0) then .next s
  else .next (askWatch (s.modClk (fun c => { c with wakeArmed := false })) 6)

/-- TEMP_SAMPLE: T_NOW, what PMU does with it, and MCV's calibration request (R424, R479). -/
def execTempSample (t : Nat) (s : State) : Out := .next (mcvTemp (tempTake s t))

/-! ### HOSTLINK in Rest (R31, R435) -/

/-- FPLL is off. -/
def fpllOff (s : State) : State := setKhz (s.wr (F_CKG_P_STATUS_STATE 0) 0) 0 0

/-- REST_HOSTLINK_RETURN: 10 ms after the last access. -/
def execRestHostlinkReturn (s : State) : Out :=
  if s.pstate = 0 ∧ s.dom .hostlink = 2 ∧ s.clk.access + 10000000 ≤ s.up then .next (fpllOff (hostSleep s)) else .next s

/-! ### Rest → Watch (R436) -/

/-- The Watch barn and WATCH_MCV take effect at an entry to Watch (Table 1.23). -/
def watchApply (s : State) : State :=
  let s1 := s.applyReg R_GLB_CTRL
  s1.wr F_GLB_STATE_WATCH_BARN_EFF (s1.rdE F_GLB_CTRL_WATCH_BARN)

/-- MEMC's state in Watch: retention, on while training runs (R30, R407). -/
def memWatch (s : State) : Nat := if s.mem.training.isSome then 2 else 1

/-- Parked chains of a barn that is powered are restored. -/
def barnRestore (s : State) (b : Nat) : State :=
  barnRegs (unparkBarn (setBarn s b true) b (chainsIn s b).length) b

/-- JIN and the filter units are restored: RUN, SYSREF, LAST_GOOD, DSYNC (R62, R91). -/
def intakeRestore (s : State) : State :=
  let s1 := jinStart s
  let s2 := if s1.rdE F_JIN_SYSREF_CTRL_MODE = 3 then { s1 with jin := { s1.jin with nextPulse := s1.up, begun := false } }
    else sysrefGo s1
  let s3 := (List.range 12).foldl (fun t u => if (t.du u).saved.isSome then applyPreset t u 2 else t) s2
  dsyncGo s3 4095

/-- TIM is restored; its calibration stands unless the temperature has moved by more than 10 °C (R179). -/
def timRestore (s : State) : State :=
  let far := decide (160 < (s.rdS F_PMU_TEMP_T_NOW - s.clk.restTemp).natAbs)
  timRunSet (if far then s.wr F_TIM_STATUS_CAL_VALID 0 else s) true

/-- FPLL and MPLL start (R436 step 2). -/
def pllRestore (s : State) : State :=
  let f := s.clk.fBefore
  let s1 := setKhz (avsWrite (s.wr (F_CKG_P_STATUS_STATE 0) 3) (avsTarget s (f / 1000))) 0 f
  let s2 := setKhz (s1.wr (F_CKG_P_STATUS_STATE 1) 3) 1 s1.clk.mkhz
  let tgt := s2.rd (F_CKG_P_CTRL_TARGET 0)
  if f = tgt * 1000 then s2 else setFreq s2 0 tgt

/-- Channels resume: transfers that wait only for this are released (R375). -/
def dmaResume (s : State) : State :=
  (List.range 128).foldl (fun t c =>
    match (t.chan c).xfer with
    | some x => if x.head.f 18 2 = 0 && mayRelease t c then xferRelease t c else t
    | none => t) s

/-- Rest is left for Watch: clocks, HOSTLINK, INTAKE, MEMC, MCV and the Watch barn; commands that waited complete (R436). -/
def restWatch (s : State) : State :=
  let s1 := watchApply (pllRestore s)
  let s2 := ((hostWake s1).setDom .intake 2).setDom .memc (memWatch s)
  let s3 := mcvPower (timRestore (intakeRestore s2)) 1
  let s4 := s3.modEng (fun e => { e with lostTold := false })
  dmaResume (psReach (barnRestore s4 (s4.rd F_GLB_STATE_WATCH_BARN_EFF)) 0)

/-- REST_TO_WATCH. -/
def execRestToWatch (s : State) : Out :=
  if s.err.contained || s.pstate != 4 then .next s else .next (restWatch s)

/-! ### Watch → Record (R437) -/

/-- A channel that a wake brings out of self-refresh has no more to wait for here. -/
def memAwake (s : State) : Bool := (List.range 8).all (fun c => mcState s c != 3 || (s.mch c).drift)

/-- Record is reached: barns with chains, CMP, DIS, MCV, the maps, and CAP's flush from the request's time (R437). -/
def watchRecord (s : State) (ts : Nat) : State :=
  let s1 := (s.wr F_GLB_STATE_PSTATE 2).wr F_PMU_STATUS_PSTATE 2
  let s2 := (List.range 12).foldl (fun u b =>
    if u.dom (.barn b) = 0 && !(chainsIn u b).isEmpty then barnRestore u b else u) s1
  let s3 := cmpPower s2
  let s4 := mcvPower (if s3.on F_DIS_CTRL_EN then disPowerOn s3 else s3) 2
  psReach (capFlushStart (mapsRecord s4) ts) 0

/-- WATCH_TO_RECORD: at the request MEMC has left retention; once its channels are READY, the barns, CMP, DIS and MCV
are powered and CAP's flush starts. -/
def execWatchToRecord (s : State) : Out :=
  match s.clk.trans with
  | none => .next s
  | some t =>
    if s.err.contained || s.pstate != 5 || !memAwake s then .next s
    else .next (watchRecord s t.ts)

/-- Device firmware leaves Record again after a drain, unless TRG's policy keeps it or something else is wanted (R256). -/
def drainLeave (s : State) : State :=
  if s.on F_ENG_PQ_CTRL_DRAIN_WAKE && s.rd F_PMU_STATUS_WAKE_CAUSE == 3 && s.pstate == 2 && s.clk.trans.isNone && s.clk.want.isNone
      && !recordHeld s then
    psNext (latchWant s { target := 1, cause := 3, begun := none, cmd := none })
  else s

/-- CAP has caught up: what waited in the chutes of engines and finisher is delivered (R228, R256). -/
def flushDone (s : State) : State :=
  let s1 := capCatchup s
  let s2 := (s1.eng.chute ++ s1.eng.held).foldl (fun t x => pushResult t x.1 x.2.2 x.2.1) s1
  drainLeave (pqRegs (s2.modEng (fun e => { e with chute := [], held := [] })))

/-- FLUSH_CATCHUP_DONE: every stream's lag is within R190; the records that waited in the chutes reach CAP (R201, R228,
R256). -/
def execFlushCatchupDone (s : State) : Out :=
  if s.err.contained || capState s ≠ 3 || !caughtUp s then .next s
  else .next (flushDone s)

/-! ### Record → Watch (R438) -/

/-- Barns that turn off as Record is left. -/
def barnsDown (s : State) : List Nat :=
  (List.range 12).filter (fun b => s.dom (.barn b) == 2 && b != s.rdE F_GLB_CTRL_WATCH_BARN)

/-- A barn's domain turns off, its chains parked (R237). -/
def barnOff (s : State) (b : Nat) : State :=
  barnRegs (setBarn (parkBarn s b) b false) b

/-- Whether jobs of windows that ended before the request stand uncommitted in the barns that turn off. -/
def jobsOwed (s : State) (bs : List Nat) (ts : Nat) : Bool :=
  s.eng.jobs.any (fun j => bs.contains (j.eng / 8) && decide (j.wend ≤ ts))

/-- CMP turns off. -/
def cmpOff (s : State) : State := (cmpPower (cmpParkAll s false)).wr F_CMP_STATUS_WRITE_REFUSED 0

/-- Record is left for Watch: barns, CMP, DIS and MCV turn off, the channels enter self-refresh, the maps leave (R438). -/
def recordWatch (s : State) : State :=
  let s0 := watchApply s
  let eff := s0.rd F_GLB_STATE_WATCH_BARN_EFF
  let s1 := (barnsDown s0).foldl barnOff (capStopped s0)
  let s2 := if s1.dom (.barn eff) = 0 then barnRestore s1 eff else s1
  let s3 := mcvPower (disPowerOff (cmpOff s2)) 1
  let s4 := ((List.range 8).foldl selfRefresh s3).setDom .memc (memWatch s)
  psReach (mapsLeave (s4.modEng (fun e => { e with lostTold := false }))) 0

/-- RECORD_TO_WATCH. -/
def execRecordToWatch (s : State) : Out :=
  match s.clk.trans with
  | none => .next s
  | some t =>
    if s.err.contained || s.pstate != 6 || jobsOwed s (barnsDown (watchApply s)) t.ts then .next s
    else .next (recordWatch s)

/-! ### Watch → Rest (R439) -/

/-- Every channel has finished its current transfer. -/
def dmaQuiet (s : State) : Bool :=
  (List.range 128).all (fun c => match (s.chan c).xfer with | some x => x.released.isNone && x.endSt.isNone | none => true)

/-- The WRITE_REFUSED flags of blocks whose domain turns off are lost (Table 1.21). -/
def refusedLost (s : State) : State :=
  s.zeroFields ([F_JIN_STATUS_WRITE_REFUSED, F_TRG_STATUS_WRITE_REFUSED, F_TIM_STATUS_WRITE_REFUSED, F_CAP_STATUS_WRITE_REFUSED]
    ++ (List.range 12).map F_DFU_STATUS_WRITE_REFUSED ++ (List.range 8).map F_MEM_C_STATUS_WRITE_REFUSED)

/-- Watch is left for Rest: the Watch barn, CAP, JIN, TIM, MEMC, MCV, MPLL and FPLL stop, at 650 mV (R439). -/
def watchRest (s : State) : State :=
  let s1 := barnOff s (s.rd F_GLB_STATE_WATCH_BARN_EFF)
  let (s2, lost) := capRest s1
  let s3 := sysrefCut (jinStop (timRunSet s2 false))
  let s4 := mcvPowerOff (refusedLost ((s3.setDom .intake 0).setDom .memc 0))
  let s5 := (s4.wr (F_CKG_P_STATUS_STATE 1) 0).wr (F_CKG_P_FREQ_KHZ 1) 0
  let s6 := s5.modClk (fun c => { c with fBefore := c.fkhz, glides := [none, none], restTemp := s.rdS F_PMU_TEMP_T_NOW })
  psReach (avsWrite (fpllOff (hostSleep s6)) 650) lost

/-- WATCH_TO_REST. -/
def execWatchToRest (s : State) : Out :=
  if s.err.contained || s.pstate != 7 || !dmaQuiet s then .next s
  else .next (watchRest s)

end Sys2Proof.Machine
end

