-- ==== Sys2Proof/Machine/Reset.lean ====
section
/-!
DEFINITION. Start-up, the resets of R29, supply loss, and the test access port (R30, R295, R296, R441, R442, R498, R509,
R516, R526 to R528).
-/

namespace Sys2Proof.Machine

/-! ### Power-on and pin reset -/

/-- The outputs while the device is in reset (R509), and what the input pins keep. -/
def pinsHeld (p : Pins) : Pins :=
  { Pins.reset with suppliesValid := p.suppliesValid, released := false, resetN := p.resetN, perstN := p.perstN,
                    wakeN := p.wakeN, snapIn := p.snapIn, testEn := p.testEn, hpd := p.hpd, snapOut := .z, ppsOut := .z,
                    trigOut := .z, tapIr := p.tapIr, scan := p.scan }

/-- The pins once the internal reset has released (Table 19.1). -/
def pinsFree (p : Pins) : Pins :=
  { Pins.reset with suppliesValid := true, released := true, resetN := true, perstN := p.perstN, wakeN := p.wakeN,
                    snapIn := p.snapIn, testEn := p.testEn, hpd := p.hpd, tapIr := p.tapIr, scan := p.scan, disturbed := p.disturbed }

/-- The state after a reset of the whole device: what stands outside it is kept. -/
def freshState (s : State) (p : Pins) : State :=
  { State.reset with host := s.host, fcp := { Fcp.reset with msgs := s.fcp.msgs, lastDone := s.fcp.lastDone }, pins := p,
                     free := s.free, pending := s.pending }

/-- POWER_ON_RESET: the supplies become valid, with TEST_EN and RESET_N as given; GLB_RESET_CAUSE is POR only (R29). -/
def execPowerOnReset (testEn resetN : Bool) (s : State) : Out :=
  let p := { s.pins with suppliesValid := true, resetN := resetN, testEn := testEn, tapIr := 1, scan := [], disturbed := false }
  .next (freshState s (if resetN then pinsFree p else pinsHeld p))

/-- RAIL_LOSS: the internal power-on reset is asserted (R516). -/
def execRailLoss (s : State) : Out :=
  .next (freshState s (pinsHeld { s.pins with suppliesValid := false, tapIr := 1, scan := [], disturbed := false }))

/-- GLB_RESET_CAUSE after a pin or soft reset (Table 1.19, R498). -/
def causeOr (s : State) (bit : Nat) : Word :=
  s.reg R_GLB_RESET_CAUSE ||| BitVec.ofNat 32 (2 ^ bit + (if s.err.contained then 16 else 0))

/-- PIN_RESET: RESET_N falls (R29). -/
def execPinReset (s : State) : Out :=
  .next ((freshState s (pinsHeld { s.pins with resetN := false, disturbed := false })).setReg R_GLB_RESET_CAUSE (causeOr s 1))

/-- RESET_N_RELEASE: RESET_N rises, with TEST_EN as given; with the supplies valid the internal reset releases (R30). -/
def execResetNRelease (testEn : Bool) (s : State) : Out :=
  if s.pins.resetN then .next s
  else
    let p := { s.pins with resetN := true, testEn := testEn }
    .next { s with pins := if p.suppliesValid then pinsFree p else p }

/-! ### Start-up (Table 15.4) -/

/-- Every band table is measured; a soft reset keeps them (R417, R442). -/
def bandCal (s : State) : State :=
  if s.clk.bandsCal then s
  else
    let s1 := (List.range 3).foldl (fun t p => (List.range 16).foldl (fun u i => u.setReg (R_CKG_P_BAND p i) (Config.band p i)) t) s
    (((s1.applyRegs (bandRegs 0)).applyRegs (bandRegs 1)).applyRegs (bandRegs 2)).modClk (fun c => { c with bandsCal := true })

/-- The clocks of start-up: TPLL, FPLL at 1000 MHz, MPLL, and the core voltage (Table 15.4 steps 2, 4, 6). -/
def startClocks (s : State) : State :=
  let s1 := bandCal s
  let s2 := if s1.rd (F_CKG_P_STATUS_STATE 2) = 0 then s1.wrs [(F_CKG_P_STATUS_STATE 2, 3), (F_CKG_P_FREQ_KHZ 2, 1000000)] else s1
  let s3 := setKhz (s2.wr (F_CKG_P_STATUS_STATE 0) 3) 0 1000000
  let s4 := setKhz (s3.wrs [(F_CKG_P_STATUS_STATE 1, 3), (F_CKG_P_CTRL_TARGET 1, s3.clk.mkhz / 1000)]) 1 s3.clk.mkhz
  let v := avsTarget s4 1000
  s4.wrs [(F_PMU_AVS_STATUS_TARGET, v), (F_PMU_AVS_STATUS_VOUT, v)]

/-- The domains of Watch, MEMC on for training, and the mailbox sets (Table 15.4 steps 5 and 6, R331). -/
def startDomains (s : State) : State :=
  let s1 := watchApply (((hostWake s).setDom .intake 2).setDom .memc 2)
  let s2 := setBarn s1 (s1.rd F_GLB_STATE_WATCH_BARN_EFF) true
  [0, 29, 30, 31].foldl (fun t i => mbxEnable t i true) s2

/-- HOSTLINK has powered up: the patches are copied from CC0 memory to CC1 to CC3 memory (R25). -/
def startPatch (s : State) : State := { s with fcp := { s.fcp with ccRun := s.fcp.cc0 } }

/-- DRAM at start-up: a training after power-on or pin reset; after a soft reset the channels leave self-refresh
(R398, R409). -/
def startDram (s : State) : State :=
  match s.mem.training with
  | some t => trainStart s t.fresh t.full t.rate
  | none => s

/-- What the end of start-up shows: TIM calibrated, commands accepted, the Granary ready, Watch; CLKREQ# low, DRAM out of reset. -/
def startShow (s : State) : State :=
  { s.wrs [(F_TIM_STATUS_CAL_VALID, 1), (F_TIM_CAL_STATUS_T_CAL, s.rd F_PMU_TEMP_T_NOW), (F_TIM_CAL_STATUS_AGE, 0),
      (F_GLB_STATE_CMD_READY, 1), (F_GLB_STATE_GRANARY_READY, 1), (F_GLB_STATE_PSTATE, 1), (F_PMU_STATUS_PSTATE, 1),
      (F_GLB_READY_CMD_COUNT, sat32 ((s.up - s.clk.upBase) / 40))] with
    pins := { s.pins with clkreqLow := true, ddrResetN := 255 } }

/-- The presets that firmware applies before CMD_READY (Table 3.4): after a soft reset LAST_GOOD where a set was saved, else
NOMINAL. -/
def startPresets (soft : Bool) (s : State) : State :=
  (List.range 12).foldl (fun t u =>
    if !soft then applyPreset t u 1 else if (t.du u).saved.isSome then applyPreset t u 2 else t) s

/-- The block at the end of start-up (Table 15.4). -/
def startEnd (s : State) : State :=
  admRegs (allBarnRegs (mcvPower (startShow (startDram (startPresets s.clk.bandsCal (startDomains (startPatch (startClocks s)))))) 1))

/-- STARTUP_CMD_READY: start-up has come to its end; with TEST_EN high firmware never starts (R510). -/
def execStartupCmdReady (s : State) : Out :=
  if !s.pins.released || s.pins.testEn || s.on F_GLB_STATE_CMD_READY || s.err.contained then .next s
  else
    let t := startEnd s
    .next (crefPin (t.modCon (fun k => { k with pools := poolCaps t })))

/-! ### Soft reset -/

/-- Registers of TBS, TPLL and the band tables, which a soft reset keeps (R442). -/
def softKeepClk (a : Nat) : Bool :=
  (0x012000 ≤ a && a < 0x012060) || (0x011200 ≤ a && a < 0x011300) || (0x011040 ≤ a && a < 0x011080) || (0x011140 ≤ a && a < 0x011180)

/-- MEM's trained values, kept in CC0 memory: population, ranks, spare, migration, delays, mapping, capacity, progress of
initialisation (R409). -/
def softKeepMem (a : Nat) : Bool :=
  (List.range 8).any (fun c =>
      [R_MEM_C_POP c, R_MEM_C_SPARE c, R_MEM_C_MIG c].contains a
        || (R_MEM_C_R_ERR c 0 ≤ a && a ≤ R_MEM_C_R_ERR c 7) || (R_MEM_C_DLY c 0 ≤ a && a < R_MEM_C_DLY c 0 + 0x200))
    || [R_MEM_CFG, R_MEM_GSTATUS, R_MEM_CAPACITY_LO, R_MEM_CAPACITY_HI, R_MEM_INIT_PTR_LO, R_MEM_INIT_PTR_HI].contains a

/-- Whether DRAM holds what a soft reset keeps: it has been trained. -/
def dramTrained (s : State) : Bool :=
  match s.mem.training with
  | none => failMask s == 0
  | some t => !t.fresh

/-- MEM across a soft reset: every rank in self-refresh, nothing owed, regions not yet initialised back to zeros (R409). -/
def softMem (s : State) : Mem × List Host.Cell :=
  if dramTrained s then
    let chans := s.mem.chans.map (fun x => { x with owed := List.replicate 8 0, burstAt := List.replicate 8 none, wq := [],
                                                    frozenAt := none, drift := false, failed := none })
    ({ s.mem with chans := chans, training := none, early := [], mpll := none },
     match s.mem.initPtr with
     | some p => s.dram.filter (fun c => c.1 < p)
     | none => s.dram)
  else (Mem.reset, [])

/-- The clock block across a soft reset: TBS and the band tables stay (R442). -/
def softClk (s : State) : Clk :=
  { s.clk with fkhz := 1000000, glides := [none, none], fBefore := 1000000, deferred := none, avsAt := none, avsTries := 0,
               preThr := 0, thrAt := 0, below := none, setAt := none, wakeArmed := false, want := none, trans := none,
               disarmed := 0, restTemp := 0, upBase := s.up }

/-- Registers that a soft reset keeps: of TBS and TPLL, and of a DRAM that had trained (R29, R409). -/
def softKeep (s : State) (a : Nat) : Bool := softKeepClk a || (dramTrained s && softKeepMem a)

/-- What a soft reset keeps, over a fresh state (R29, R295, R296, R409, R442, R498). -/
def softBase (s : State) : State :=
  { freshState s { pinsFree s.pins with ppsOut := s.pins.ppsOut, crefRunning := s.pins.crefRunning, ddrResetN := s.pins.ddrResetN } with
    regs := s.regs.filter (fun c => softKeep s c.1), eff := s.eff.filter (fun c => softKeep s c.1), now := s.now, up := s.up,
    dram := (softMem s).2, mem := (softMem s).1, clk := softClk s,
    dfu := s.dfu.map (fun (d : DUnit) => { DUnit.reset with saved := d.saved }),
    cap := { Cap.reset with saved := s.cap.saved },
    fcp := { Fcp.reset with msgs := s.fcp.msgs, lastDone := s.fcp.lastDone, cc0 := s.fcp.cc0 } }

/-- The fatal record that stood in Containment, in ERR_PREV_FATAL (R498). -/
def softFatal (s t : State) : State :=
  match s.err.cc0Fatal with
  | some r => if s.err.contained then t.setWords (R_ERR_PREV_FATAL_W 0) r.words else t
  | none => t

/-- The channels of a DRAM that had trained: in self-refresh, their counts at zero (R29, R409). -/
def softChannels (s t : State) : State :=
  if dramTrained s then
    (List.range 8).foldl (fun t c => (List.range 8).foldl (fun u p =>
      u.wrs [(F_MEM_C_R_ERR_CE c p, 0), (F_MEM_C_R_ERR_UE c p, 0)]) (setMc t c 3)) (t.wr F_MEM_CFG_SCRUB_H 24)
  else t

/-- A soft reset of the whole device but TBS and TPLL (R29, R295, R296, R409, R442, R498). -/
def softReset (s : State) : State :=
  let s1 := ((softBase s).setReg R_GLB_RESET_CAUSE (causeOr s 2)).wrs
    [(F_HIF_PATCH_VERSION, s.rd F_HIF_PATCH_VERSION), (F_GLB_STATE_PATCH_ACTIVE, s.rd F_GLB_STATE_PATCH_ACTIVE)]
  ppsPin (crefPin (softChannels s (softFatal s s1)))

/-- A write of GLB_SOFT_RESET: GO with the key (Table 1.20). -/
def softResetWrite (v : Nat) (s : State) : State := if v.testBit 0 && v / 65536 == 0x9648 then softReset s else s

/-- SOFT_RESET: a write of GLB_SOFT_RESET with GO and the key (Table 1.20). -/
def execSoftReset (m : Nat) (v : Word) (s : State) : Out :=
  .next (s.writeBy m R_GLB_SOFT_RESET (softResetWrite v.toNat))

/-! ### Link reset -/

/-- Commands that lose their pair run on, and their entries are discarded (R296). They are numbered apart, so that a later
pair of the same ID does not meet them. -/
def orphan (s : State) (test : Nat → Bool) : State :=
  let q' (q : Nat) : Nat := if q < 512 && test q then 512 * (s.fcp.orphans + 1) + q else q
  let c' (c : Option (Nat × Nat)) : Option (Nat × Nat) := c.map (fun x => (q' x.1, x.2))
  let fl := s.fcp.inflight.map (fun c => if q' c.qid = c.qid then c else { c with qid := q' c.qid, discard := true })
  { s with
    fcp := { s.fcp with inflight := fl, orphans := s.fcp.orphans + 1 },
    clk := { s.clk with want := s.clk.want.map (fun w => { w with cmd := c' w.cmd }) },
    jin := { s.jin with cspi := s.jin.cspi.map (fun j => { j with qid := q' j.qid }) },
    eng := { s.eng with jobs := s.eng.jobs.map (fun j => { j with cmd := c' j.cmd }) },
    dma := { s.dma with chans := s.dma.chans.map (fun k => { k with xfer := k.xfer.map (fun x => { x with cmd := c' x.cmd }) }) },
    cmp := { s.cmp with jobs := s.cmp.jobs.map (fun j => { j with cmd := c' j.cmd }) } }

/-- Pairs go at once: their commands are orphans, and a QUEUE_DELETE that waited for one of them ends. -/
def dropPairs (s : State) (test : QPair → Bool) : State :=
  let gone := s.fcp.pairs.filter test
  let ids := gone.map (fun q => q.qid)
  let s1 := orphan (gone.foldl (fun t q => t.dropPair q) s) (fun q => ids.contains q)
  (s1.fcp.inflight.filter (fun c => c.kind == .drainPair && ids.contains c.key)).foldl (fun t c =>
    t.finish c { st := .ok, r0 := c.due }) s1

/-- The HIF counts (Table 10.11). -/
def hifCounters : List Fld :=
  [F_HIF_DENIED_COUNT_COUNT, F_HIF_WIN_BLOCKED_COUNT] ++ (List.range 17).map F_HIF_F_EVT_LOST_COUNT

/-- Channels halt with cause LINK; but for the transfer that stays owned, what was fetched ahead is dropped, and the fetch
goes back to it (R349, R366, R376). -/
def dmaLink (s : State) : State :=
  (List.range 128).foldl (fun t c =>
    let u := haltNow t c 7
    let i := u.rd (F_DMA_C_STATE_INDEX c)
    u.modChan c (fun k => if k.owned.isSome then { k with ahead := k.ahead.take 1, fetch := nextIndex u c i }
      else { k with ahead := [], fetch := i })) s

/-- Registers of HIF and DMA in HOSTLINK of which firmware keeps no copy in CC0 memory: all but the windows and quotas, the patch,
and each channel's owner, ring settings and state (R29, R296, R376). -/
def linkRegs : List Nat :=
  [R_HIF_DENIED_OFS, R_HIF_DENIED_SRC, R_HIF_SNAP_STATUS, R_HIF_SNAP_INFLIGHT, R_DMA_CPL_TIMEOUT, R_DMA_RETRY, R_DMA_SNAP_STATUS,
    R_DMA_SNAP_RUNNING0] ++
  (List.range 8).flatMap (fun g => [R_DMA_G_BYTES_LO g, R_DMA_G_BYTES_HI g, R_DMA_G_PREEMPT g]) ++
  (List.range 128).flatMap (fun c => [R_DMA_C_CSUM c, R_DMA_C_PACE c, R_DMA_C_LAST_CTRL c, R_DMA_C_LAST_LEN_LO c, R_DMA_C_LAST_LEN_HI c,
    R_DMA_C_ERR_ADDR_LO c, R_DMA_C_ERR_ADDR_HI c, R_DMA_C_BYTES_LO c, R_DMA_C_BYTES_HI c, R_DMA_C_COUNTS c, R_DMA_C_EMIT c])

/-- The output chutes of DMA are emptied with HOSTLINK (R29). -/
def emitsLost (s : State) : State :=
  s.modDma (fun d => { d with chans := d.chans.map (fun k => { k with emits := [], emitTold := false }) })

/-- A link reset (R29, R296, R342, R376). -/
def linkReset (s : State) : State :=
  let s1 := dropPairs s (fun _ => true)
  let clear (f : Fn) : Fn :=
    { f with aqSqBase := 0, aqCqBase := 0, aqSize := 0x003F003F, aqCtrl := 0, aqError := false, masked := [], msixPending := [] }
  let s2 := { s1 with fcp := { s1.fcp with fns := s1.fcp.fns.map clear } }
  let s3 := s2.zeroFields ([F_HIF_STATUS_LINK_SPEED, F_HIF_STATUS_LINK_WIDTH, F_HIF_STATUS_LINK_UP, F_HIF_STATUS_L1_2,
    F_HIF_STATUS_WRITE_REFUSED, F_DMA_STATUS_WRITE_REFUSED] ++ hifCounters)
  let s4 := (s3.cmp.jobs.filter (fun j => j.state == 1)).foldl (fun t j =>
    match t.cmp.jobs.find? (fun x => x.id == j.id) with
    | some x => jobPark t x
    | none => t) (dmaLink s3)
  let s5 := (List.range 17).foldl mbxFlush ((emitsLost s4).clearRegs linkRegs)
  lockForceOf (s5.wr F_GLB_RESET_CAUSE_LINK 1) 3 isHost

/-- LINK_RESET. -/
def execLinkReset (s : State) : Out := if !s.pins.released then .next s else .next (admRegs (cmpPower (linkReset s)))

/-! ### Test access port (R526 to R528) -/

/-- Cells of the boundary-scan register: 388 per DDR channel, 86 in the top band, 68 in the bottom band (R527). -/
def scanLength : Nat := 8 * 388 + 86 + 68

/-- JTAG_INSTRUCTION: a code is selected; EXTEST and SAMPLE/PRELOAD may load the boundary-scan register. EXTEST, CLAMP and
HIGHZ stop refresh, and DIMM contents are lost. -/
def execJtagInstruction (code : Nat) (cells : Option (List Bool)) (s : State) : Out :=
  if code = 0x40 ∧ Config.debugLocked = false ∧ s.pins.testEn = true then .refused .factoryAccess
  else
    let ir := if [0x00, 0x01, 0x02, 0x04, 0x05].contains code then code else 0xFF
    let scan := match cells with
      | some l => if (ir = 0 ∨ ir = 2) ∧ l.length = scanLength then l else s.pins.scan
      | none => s.pins.scan
    let hard := ir == 0 || ir == 4 || ir == 5
    let s1 := { s with pins := { s.pins with tapIr := ir, scan := scan, disturbed := s.pins.disturbed || hard } }
    .next (if hard then { s1 with dram := [] } else s1)

end Sys2Proof.Machine
end

