-- ==== Sys2Proof/Machine/HifOps.lean ====
section
/-!
DEFINITION. Shared operations of the command protocol's own commands (chapter 10): ending commands, closing contexts,
function resets, queue pairs in ERROR, fetching.
-/

namespace Sys2Proof.Machine

def State.modFcp (s : State) (g : Fcp → Fcp) : State := { s with fcp := g s.fcp }

/-! ### Ending a command (Table 10.7, ABORT) -/

/-- Whether a command waits for a frame of DIS. -/
def waitsFrame (k : WaitKind) : Bool := k == .disMode || k == .disLayer || k == .disFlip || k == .disLut || k == .disCrc

/-- Whether a command has not started, or waits where its chapter lists ABORTED. -/
def abortable (s : State) (c : Inflight) : Bool :=
  match c.kind with
  | .fetched | .fenced | .psWant => true
  | .chainRun => s.eng.jobs.any (fun j => j.cmd == some (c.qid, c.tag) && j.state == 0)
  | .cmpJob => s.cmp.jobs.any (fun j => j.cmd == some (c.qid, c.tag) && j.state != 1)
  | .mcvInject => (s.mcv.inj.toList ++ s.mcv.timed.toList).any (fun q => q.cmd == c.key)
  | .snapFire => s.shf.decided.isSome
  | k => waitsFrame k

/-- What a command that ends early leaves behind is withdrawn: a job, a request, a decided fire (R503). -/
def withdraw (s : State) (c : Inflight) : State :=
  match c.kind with
  | .chainRun => s.modEng (fun e => { e with jobs := e.jobs.filter (fun j => !(j.cmd == some (c.qid, c.tag) && j.state == 0)) })
  | .cmpJob =>
    (match s.cmp.jobs.find? (fun j => j.cmd == some (c.qid, c.tag)) with
    | some j => jobLeave s j (jobReply j .aborted (j.engine.getD 0) false false 0)
    | none => s)
  | .psWant => s.modClk (fun k => { k with want := k.want.filter (fun w => w.cmd != some (c.qid, c.tag)) })
  | .mcvInject =>
    s.modMcv (fun m => { m with inj := m.inj.filter (fun q => q.cmd != c.key), timed := m.timed.filter (fun q => q.cmd != c.key) })
  | .snapFire => sheafRearm s
  | _ => s

/-- A command ends with ABORTED, if it still stands. -/
def endAborted (s : State) (c : Inflight) : State :=
  let t := withdraw s c
  match t.fcp.inflight.find? (fun x => x.qid == c.qid && x.tag == c.tag && x.discard == c.discard) with
  | some x => t.finish x { st := .aborted }
  | none => t

/-- Every command that meets a test ends with ABORTED. -/
def endAll (s : State) (test : State → Inflight → Bool) : State :=
  s.fcp.inflight.foldl (fun t c => if test t c then endAborted t c else t) s

/-! ### Contexts (R273 to R275) -/

/-- The open contexts; HIF_CTX_USED counts them. -/
def setCtxs (s : State) (l : List Ctx) : State := (s.modFcp (fun f => { f with ctxs := l })).wr F_HIF_CTX_USED_COUNT l.length

/-- What a context holds outside CAP is given back: contract, chains, channels, maps. -/
def ctxStop (s : State) (c : Nat) : State :=
  (List.range 16).foldl (fun t m =>
    if t.on (F_MAP_CTRL_EN m) && t.rd (F_MAP_CTRL_CONTEXT m) == c then mapDisable t m else t) (conRelease s c)

/-- What a context holds is given back, its claims too (Table 10.7, CTX_CLOSE). Chains unloaded and claims released. -/
def ctxFree (s : State) (c : Nat) : State × Nat × Nat :=
  let claims := s.cap.claims.filter (fun (k : CapClaim) => k.ctx == c)
  (ctxStop (claims.foldl (fun t k => (releaseClaim t k).1) s) c, (chainsOfCtx s c).length, claims.length)

/-- A context closes; `but` is the command that closes it. -/
def ctxClose (s : State) (c : Nat) (but : Option (Nat × Nat)) : State × Nat × Nat :=
  let f := s.ctxFunc c
  let (s1, n, k) := ctxFree s c
  let s2 := endAll s1 (fun _ x => x.ctx == c && but != some (x.qid, x.tag))
  ((setCtxs s2 (s2.fcp.ctxs.filter (fun x => x.id != c))).postEvent f 0x0204 [c], n, k)

/-- Contexts of a function. -/
def ctxsOf (s : State) (f : Nat) : List Ctx := s.fcp.ctxs.filter (fun x => x.func == f)

/-- Queue pairs a function has, its base pair among them. -/
def funcPairs (s : State) (f : Nat) : Nat := (s.fcp.pairs.filter (fun q => q.func == f && q.index != 0)).length + 1

/-- The lowest device-wide queue ID that is free. -/
def freeQid (s : State) : Option Nat := lowestFree (s.fcp.pairs.map (fun q => q.qid)) 0 512

/-- Vectors of a function's MSI-X table (R275). -/
def vectorsOf (f : Nat) : Nat := if f = 0 then 1024 else 64

/-! ### Function reset (R296, R317, R341, R342, R376, R464) -/

/-- The function's pairs and contexts go, its other contexts as by CTX_CLOSE (Table 10.9); its base context is bare again,
and keeps its claims, since CAP is left unchanged (R204). -/
def fnReset (s : State) (f : Nat) : State :=
  let s0 := endAll s (fun t c => c.func == f && abortable t c)
  let s1 := dropPairs s0 (fun q => q.func == f)
  let s2 := (ctxsOf s1 f).foldl (fun t x => if x.id ≤ 16 then ctxStop t x.id else (ctxClose t x.id none).1) s1
  let bare (x : Ctx) : Ctx :=
    if x.id = f then { x with priv := if f = 0 then 15 else 0, route := none, mask := 0, broken := false } else x
  let s3 := setCtxs s2 (s2.fcp.ctxs.map bare)
  let s4 := s3.modFn f (fun x => { Fn.reset f with enabled := x.enabled, bar2Gib := x.bar2Gib })
  lockForceOf (mbxFlush (disFnReset s4 f) f) 4 (fun m => m == 1 + f)

/-- FUNCTION_RESET. -/
def execFunctionReset (f : Nat) (s : State) : Out := if f ≤ 16 && (s.fn f).enabled then .next (fnReset s f) else .next s

/-- VF v appears: its base context, its mailbox set. -/
def vfOn (s : State) (v : Nat) : State :=
  let s1 := s.modFn v (fun _ => { Fn.reset v with enabled := true, regCtx := 0 })
  mbxEnable (setCtxs s1 (s1.fcp.ctxs ++ [{ id := v, func := v, priv := 0, route := none, mask := 0, broken := false }])) v true

/-- VF v goes. -/
def vfOff (s : State) (v : Nat) : State :=
  let s1 := fnReset s v
  mbxEnable ((setCtxs s1 (s1.fcp.ctxs.filter (fun x => x.func != v))).modFn v (fun _ => Fn.reset v)) v false

/-- VF_ENABLE: the host sets how many VFs are enabled (R273). -/
def execVfEnable (n : Nat) (s : State) : Out :=
  if n > 16 then .next s
  else
    let was := s.rd F_HIF_NUM_VF_VFS
    let off := ((List.range 17).filter (fun v => n < v && v ≤ was)).foldl vfOff s
    .next ((((List.range 17).filter (fun v => was < v && v ≤ n)).foldl vfOn off).wr F_HIF_NUM_VF_VFS n)

/-! ### Pairs (R276, R277) -/

/-- A pair enters ERROR. -/
def pairError (s : State) (q : QPair) : State :=
  let s1 := s.modPair q.qid (fun x => { x with st := .error })
  let s2 := if q.index = 0 then s1.modFn q.func (fun x => { x with aqError := true }) else s1
  (s2.raise 2 0x01 0 (resIndex q.qid) 0).postEvent q.func 0x0202 [q.index]

/-- A pair as it starts: head, tail 0 and PHASE 1. -/
def newPair (qid f i : Nat) (urgent : Bool) (sqBase cqBase sqSize cqSize vec cnt time : Nat) : QPair :=
  { qid := qid, func := f, index := i, urgent := urgent, sqBase := sqBase, cqBase := cqBase, sqSize := sqSize, cqSize := cqSize,
    vector := vec, irqCount := cnt, irqTime := time, sqHead := 0, sqTail := 0, cqHead := 0, cqTail := 0, phase := true,
    unreleased := 0, unsignalled := 0, firstAt := 0, st := .running }

/-- AQ_CTRL.EN is set: the admin pair starts, or enters ERROR at a bad size or base (R276). -/
def aqStart (s : State) (f : Nat) : State :=
  let x := s.fn f
  let sq := bitsOf x.aqSize.toNat 0 12 + 1
  let cq := bitsOf x.aqSize.toNat 16 12 + 1
  if sq < 2 || cq < sq || x.aqSqBase % 4096 != 0 || x.aqCqBase % 4096 != 0 then
    ((s.modFn f (fun y => { y with aqError := true })).raise 2 0x01 0 (resMaster (1 + f)) 0).postEvent f 0x0202 [0]
  else
    match freeQid s with
    | none => s
    | some q => s.setPairs (s.fcp.pairs ++ [newPair q f 0 false x.aqSqBase x.aqCqBase sq cq (bitsOf x.aqCtrl.toNat 16 11) 256 0])

/-- A write of AQ_CTRL (Table 10.10): VECTOR is frozen while EN = 1. -/
def aqCtrlWrite (s : State) (f : Nat) (v : Word) : State :=
  let old := (s.fn f).aqCtrl.toNat
  let en := v.toNat.testBit 0
  let set (t : State) (vec : Nat) (e : Bool) : State := t.modFn f (fun x => { x with aqCtrl := BitVec.ofNat 32 (vec * 65536 + b2n e) })
  let vec := bitsOf v.toNat 16 11
  if old.testBit 0 then
    let s1 := if vec = bitsOf old 16 11 then s else s.wr F_HIF_STATUS_WRITE_REFUSED 1
    if en then s1
    else (set (dropPairs s1 (fun q => q.func == f && q.index == 0)) (bitsOf old 16 11) false).modFn f (fun x => { x with aqError := false })
  else
    let s1 := set s vec en
    if en then aqStart s1 f else s1

/-! ### Fetching (R278) -/

/-- The device may fetch from a pair. -/
def fetchable (s : State) (q : QPair) : Bool :=
  q.st == .running && q.sqHead != q.sqTail && s.inflightOn q.qid + q.unreleased + 1 < q.cqSize

/-- The lowest queue ID of a list of pairs, from an ID on. -/
def lowestPair (l : List QPair) (start : Nat) : Option QPair :=
  (l.filter (fun q => start ≤ q.qid)).foldl (fun (m : Option QPair) q => match m with
    | none => some q
    | some x => if q.qid < x.qid then some q else m) none

/-- The pair that is served next. -/
def pickPair (s : State) : Option QPair :=
  if !s.on F_GLB_STATE_CMD_READY || s.fcp.inflight.length ≥ 4096 then none
  else
    let l := s.fcp.pairs.filter (fetchable s)
    match lowestPair (l.filter (fun q => q.urgent)) 0 with
    | some q => some q
    | none =>
      let r := l.filter (fun q => !q.urgent)
      match r.find? (fun q => q.qid == s.fcp.rrCur && s.fcp.rrCount < 8) with
      | some q => some q
      | none => match lowestPair r (s.fcp.rrCur + 1) with
        | some q => some q
        | none => lowestPair r 0

/-- The opcodes of Table 10.6. -/
def opAssigned (op : Nat) : Bool :=
  [(0x00, 8), (0x10, 9), (0x20, 8), (0x28, 7), (0x30, 12), (0x40, 8), (0x50, 14), (0x60, 7), (0x70, 4), (0x80, 5), (0x90, 7),
   (0xA0, 6), (0xB0, 6), (0xC0, 5), (0xD0, 4), (0xE0, 3)].any (fun (r : Nat × Nat) => r.1 ≤ op && op < r.1 + r.2)

/-- A packet leaves an SQ: it is put in flight, or ends at once with BAD_OPCODE or DUP_TAG (R284, R287 steps 1 and 2). -/
def fetched (s : State) (q : QPair) (dws : List Word) : State :=
  let p : Packet := { qid := q.qid, func := q.func, dws := dws, buf := [] }
  let c := inflightOf (pOp p) p
  let turn := if q.urgent then s else s.modFcp (fun f => { f with rrCur := q.qid, rrCount := if f.rrCur = q.qid then f.rrCount % 8 + 1 else 1 })
  let s1 := turn.modPair q.qid (fun x => { x with sqHead := (x.sqHead + 1) % x.sqSize })
  if !opAssigned (pOp p) then (s1.noteDone c { st := .badOpcode } false).writeReply c { st := .badOpcode } false
  else if (s1.inflight? q.qid (pTag p)).isSome then s1.finish c { st := .badParam } true
  else s1.addInflight c

end Sys2Proof.Machine
end

