-- ==== Sys2Proof/Machine/Hif.lean ====
section
/-!
DEFINITION. The commands and events of the command protocol itself (chapter 10): queues, contexts, events, aborts, patches,
doorbells, fetching, timeouts, the link.
-/

namespace Sys2Proof.Machine

/-! ### Device and queues (Table 10.7) -/

/-- NOP. -/
def execNop (p : Packet) (s : State) : Out := fcpStep { op := 0x00, contain := true, run := fun _ s => fOk s } p s

/-- DEVICE_INFO. -/
def execDeviceInfo (p : Packet) (s : State) : Out :=
  fcpStep { op := 0x01, contain := true,
            run := fun p s => .final (okR (s.reg R_GLB_REV).toNat (s.reg R_GLB_STATE).toNat
              (p.func + (s.rd (F_HIF_F_QUOTA_QP p.func) <<< 16)) (s.rd (F_HIF_F_QUOTA_CTX p.func) - (ctxsOf s p.func).length)) s } p s

/-- QUEUE_CREATE. -/
def execQueueCreate (p : Packet) (s : State) : Out :=
  fcpStep { op := 0x02, contain := true, aligned := fun p _ => pq p 4 % 4096 == 0 && pq p 6 % 4096 == 0,
            valid := fun p s => pf p 2 0 9 != 0 && (s.pairAt? p.func (pf p 2 0 9)).isNone && pf p 3 0 12 != 0
              && pf p 3 0 12 ≤ pf p 3 16 12 && pf p 8 0 11 < vectorsOf p.func,
            run := fun p s =>
              let quota := s.rd (F_HIF_F_QUOTA_QP p.func)
              match freeQid s with
              | none => .final { st := .noBudget, r0 := quota } s
              | some q =>
                if quota ≤ funcPairs s p.func then .final { st := .noBudget, r0 := quota } s
                else
                  let cnt := if pf p 8 16 8 = 0 then 256 else pf p 8 16 8
                  let x := newPair q p.func (pf p 2 0 9) (pb p 2 9) (pq p 4) (pq p 6) (pf p 3 0 12 + 1) (pf p 3 16 12 + 1) (pf p 8 0 11) cnt
                    (pf p 9 0 16)
                  .final (okR q 0 0 0) (s.setPairs (s.fcp.pairs ++ [x])) } p s

/-- The commands of a pair that end with ABORTED when it is deleted at once. -/
def endsWith (q : QPair) (s : State) (c : Inflight) : Bool := c.qid == q.qid && !c.discard && abortable s c

/-- A pair deleted at once: what has not started, or waits, ends with ABORTED and no entry; the rest runs on (R296). -/
def deleteNow (s : State) (q : QPair) : State :=
  let s1 := s.modFcp (fun f => { f with inflight := f.inflight.map (fun c => if endsWith q s c then { c with discard := true } else c) })
  dropPairs (endAll s1 (fun t c => c.qid == q.qid && abortable t c)) (fun x => x.qid == q.qid)

/-- QUEUE_DELETE. -/
def execQueueDelete (p : Packet) (s : State) : Out :=
  fcpStep { op := 0x03, contain := true,
            valid := fun p s => pf p 2 0 9 != 0 && (match s.pairAt? p.func (pf p 2 0 9) with
              | some q => q.qid != p.qid
              | none => false),
            run := fun p s =>
              match s.pairAt? p.func (pf p 2 0 9) with
              | none => fSt .badParam s
              | some q =>
                let n := s.inflightOn q.qid
                if pb p 2 16 && n != 0 then .wait .drainPair q.qid n (s.modPair q.qid (fun x => { x with st := .draining }))
                else if pb p 2 16 then .final (okR 0 0 0 0) (s.dropPair q)
                else
                  let k := (s.fcp.inflight.filter (endsWith q s)).length
                  .final (okR (n - k) k 0 0) (deleteNow s q) } p s

/-- EVENT_ROUTE. -/
def execEventRoute (p : Packet) (s : State) : Out :=
  fcpStep { op := 0x04, contain := true, valid := fun p s => (s.pairAt? p.func (pf p 2 0 9)).isSome,
            run := fun p s => fOk (s.modCtx (pCtx p) (fun x => { x with route := some (pf p 2 0 9), mask := pf p 3 0 17 })) } p s

/-- ABORT. -/
def execAbortCmd (p : Packet) (s : State) : Out :=
  fcpStep { op := 0x05, contain := true,
            permit := fun p s => (match s.pair? (pf p 2 0 9) with | some q => q.func == p.func | none => true),
            valid := fun p s => (s.pair? (pf p 2 0 9)).isSome,
            run := fun p s =>
              match s.inflight? (pf p 2 0 9) (pf p 3 0 12) with
              | none => .final (okR 2 0 0 0) s
              | some c => if abortable s c && !(c.qid == p.qid && c.tag == pTag p) then .final (okR 1 0 0 0) (endAborted s c)
                else .final (okR 0 0 0 0) s } p s

/-! ### Patches (R293, R294) -/

/-- The version in force, or accepted and not yet applied. -/
def patchVersion (s : State) : Nat := s.fcp.patchNew.getD (s.rd F_HIF_PATCH_VERSION)

/-- Why an image is refused; none where it is accepted. -/
def patchReason (p : Packet) (s : State) : Option Nat :=
  let b := p.buf
  let n := dwordAt b 2
  let total := pf p 4 0 18
  let hash := (List.range 12).flatMap (fun i => wordBytes (s.reg (R_GLB_KEYHASH i)))
  let pub := (b.drop 16).take 97
  let ver := (b.getD 5 0).toNat
  if !s.on F_GLB_FUSE_STATUS_KEYHASH_VALID then some 1
  else if !(dwordAt b 0 == 0x46503031 && b.getD 4 0 == 1 && n % 64 == 0 && 64 ≤ n && n ≤ 196608 && total == 224 + n) then some 7
  else if sha384 pub != hash then some 2
  else if !ecdsaOk pub ((b.drop (128 + n)).take 96) (sha384 (b.take (128 + n))) then some 3
  else if ver < s.rd F_GLB_FUSE_STATUS_PATCH_FLOOR then some 4
  else if ver < patchVersion s then some 5
  else if leNat ((b.drop 6).take 2) != s.rd F_GLB_REV_ROM_VERSION then some 6
  else none

/-- PATCH_LOAD. -/
def execPatchLoad (p : Packet) (s : State) : Out :=
  fcpStep { op := 0x06, contain := true, pfOnly := true, priv := some 1, aligned := fun p _ => pq p 2 % 64 == 0,
            run := fun p s =>
              match patchReason p s with
              | some r =>
                .final { st := if r = 7 then .badParam else .notPermitted, r1 := r } ((s.wr F_HIF_PATCH_REASON r).raise 2 0x03 0 resNone 0)
              | none =>
                let v := (p.buf.getD 5 0).toNat
                .final (okR v 0 0 0) (s.modFcp (fun f => { f with patchNew := some v, patchImg := p.buf })) } p s

/-- PATCH_APPLY: between commands, the accepted patch comes into force. -/
def execPatchApply (s : State) : Out :=
  match s.fcp.patchNew with
  | none => .next s
  | some v =>
    let s1 := (s.wrs [(F_GLB_STATE_PATCH_ACTIVE, 1), (F_HIF_PATCH_VERSION, v)]).modFcp (fun f =>
      { f with patchNew := none, patchImg := [], cc0 := f.patchImg, ccRun := f.patchImg })
    .next (s1.postEvent 0 0x0203 [v])

/-- PATCH_STATUS. -/
def execPatchStatus (p : Packet) (s : State) : Out :=
  fcpStep { op := 0x07, contain := true,
            run := fun _ s => .final (okR (s.rd F_HIF_PATCH_VERSION + (s.rd F_GLB_STATE_PATCH_ACTIVE <<< 8))
              (s.rd F_GLB_FUSE_STATUS_PATCH_FLOOR) (s.rd F_HIF_PATCH_REASON) 0) s } p s

/-! ### Contexts -/

/-- CTX_OPEN. -/
def execCtxOpen (p : Packet) (s : State) : Out :=
  fcpStep { op := 0x10,
            run := fun p s =>
              let quota := s.rd (F_HIF_F_QUOTA_CTX p.func)
              match lowestFree (s.fcp.ctxs.map (fun x => x.id)) 17 4079 with
              | none => .final { st := .noBudget, r0 := quota } s
              | some c =>
                if quota ≤ (ctxsOf s p.func).length then .final { st := .noBudget, r0 := quota } s
                else .final (okR c 0 0 0) (setCtxs s (s.fcp.ctxs ++ [{ id := c, func := p.func, priv := 0, route := none, mask := 0,
                                                                       broken := false }])) } p s

/-- CTX_CLOSE. -/
def execCtxClose (p : Packet) (s : State) : Out :=
  fcpStep { op := 0x11, contain := true,
            permit := fun p s => p.func == 0 || (match s.ctx? (pf p 2 0 12) with | some x => x.func == p.func | none => true),
            valid := fun p s => 17 ≤ pf p 2 0 12 && (s.ctx? (pf p 2 0 12)).isSome,
            run := fun p s =>
              let r := ctxClose s (pf p 2 0 12) (some (p.qid, pTag p))
              .final (okR r.2.1 r.2.2 0 0) r.1 } p s

/-- CTX_PRIV: PATCH and PSTATE only for the physical function (Table 10.2). -/
def execCtxPriv (p : Packet) (s : State) : Out :=
  fcpStep { op := 0x12, pfOnly := true,
            valid := fun p s => pf p 2 0 12 != 0 && (match s.ctx? (pf p 2 0 12) with
              | some x => x.func == 0 || (!pb p 3 1 && !pb p 3 3)
              | none => false),
            run := fun p s => fOk (s.modCtx (pf p 2 0 12) (fun x => { x with priv := pf p 3 0 4 })) } p s

/-- A sum over the VFs but one. -/
def vfSum (s : State) (but : Nat) (f : Nat → Fld) : Nat :=
  (((List.range 17).filter (fun v => v != 0 && v != but)).map (fun v => s.rd (f v))).foldl (· + ·) 0

/-- Function 0 holds what the VF quotas leave (R275). -/
def quotaRest (s : State) : State :=
  s.wrs [(F_HIF_F_QUOTA_QP 0, 512 - vfSum s 0 F_HIF_F_QUOTA_QP), (F_HIF_F_QUOTA_CTX 0, 4096 - vfSum s 0 F_HIF_F_QUOTA_CTX)]

/-- CTX_QUOTA. -/
def execCtxQuota (p : Packet) (s : State) : Out :=
  fcpStep { op := 0x13, pfOnly := true,
            valid := fun p s =>
              let v := pf p 2 0 5
              1 ≤ v && v ≤ 16 && vfSum s v F_HIF_F_QUOTA_QP + pf p 3 0 10 ≤ 511 && vfSum s v F_HIF_F_QUOTA_CTX + pf p 3 16 13 ≤ 4079,
            run := fun p s =>
              let v := pf p 2 0 5
              fOk (quotaRest (s.wrs [(F_HIF_F_QUOTA_QP v, pf p 3 0 10), (F_HIF_F_QUOTA_CTX v, pf p 3 16 13), (F_HIF_F_WIN_BASE v, pf p 4 0 11),
                (F_HIF_F_WIN_RD v, pf p 4 16 1), (F_HIF_F_WIN_WR v, pf p 4 17 1)])) } p s

/-! ### Doorbells and BAR4 (R277, R297) -/

/-- DOORBELL_SQ_TAIL: a write to the doorbell of pair `i` of function `f`. -/
def execDoorbellSqTail (f i : Nat) (v : Word) (s : State) : Out :=
  let s0 := hostAccess s
  match s0.pairAt? f i with
  | none => .next s0
  | some q =>
    let t := v.toNat % 4096
    if q.st = .error then .next s0
    else if t ≥ q.sqSize then .next (pairError s0 q)
    else .next (s0.modPair q.qid (fun x => { x with sqTail := t }))

/-- DOORBELL_CQ_HEAD. -/
def execDoorbellCqHead (f i : Nat) (v : Word) (s : State) : Out :=
  let s0 := hostAccess s
  match s0.pairAt? f i with
  | none => .next s0
  | some q =>
    let h := v.toNat % 4096
    let d := (h + q.cqSize - q.cqHead) % q.cqSize
    if q.st = .error then .next s0
    else if h ≥ q.cqSize || d > q.unreleased then .next (pairError s0 q)
    else .next (s0.modPair q.qid (fun x => { x with cqHead := h, unreleased := x.unreleased - d }))

/-- AQ_ENABLE: a write of AQ_CTRL of a function. -/
def execAqEnable (f : Nat) (v : Word) (s : State) : Out :=
  if f ≤ 16 && (s.fn f).enabled then .next (aqCtrlWrite (hostAccess s) f v) else .next s

/-! ### Fetching and starting -/

/-- COMMAND_FETCH: the device reads the next entry of the pair whose turn it is, or meets a fault (R277, R278, R299). -/
def execCommandFetch (r : FetchRes) (s : State) : Out :=
  match r with
  | .entry ws =>
    (match pickPair s with
    | none => .next s
    | some q => .next (fetched s q ws))
  | .sqError =>
    (match pickPair s with
    | none => .next s
    | some q => .next (pairError s q))
  | .cqFail q =>
    (match s.pair? q with
    | none => .next s
    | some x => .next (if x.st = .error then s else pairError s x))
  | .ctxParity c =>
    if (s.ctx? c).isNone then .next s
    else
      let s1 := s.raise 2 0x04 2 (resIndex c) 0
      .next (if c ≤ 16 then (ctxFree s1 c).1 else (ctxClose s1 c none).1)

/-- FENCE_START: a command that had to wait for its turn may start (R279). -/
def execFenceStart (q t : Nat) (s : State) : Out :=
  match s.inflight? q t with
  | none => .next s
  | some c =>
    if c.kind = .fenced && mayStart s c then .next (s.modInflight q t (fun x => { x with kind := .fetched })) else .next s

/-- IRQ_TIME_EXPIRY (R281). -/
def execIrqTimeExpiry (q : Nat) (s : State) : Out :=
  match s.pair? q with
  | none => .next s
  | some x =>
    if x.unsignalled = 0 || x.irqTime = 0 || s.up < x.firstAt + 1000 * x.irqTime then .next s
    else .next ((s.modPair q (fun y => { y with unsignalled := 0 })).sendMsix x.func x.vector)

/-- The pair that its context's route gives an event (R288). -/
def routedTo (s : State) (f : Nat) (e : Ev) : Option QPair :=
  match s.ctx? e.ctx with
  | some x => x.route.bind (fun i => s.pairAt? f i)
  | none => none

/-- EVENT_DELIVERY: the event that has waited longest in a function's chute (R288, R289). -/
def execEventDelivery (f : Nat) (s : State) : Out :=
  match (s.fn f).chute with
  | [] => .next s
  | e :: rest =>
    match (routedTo s f e).or (s.pairAt? f 0) with
    | none => .next s
    | some q =>
      if q.st = .error || !(s.inflightOn q.qid + q.unreleased + 1 < q.cqSize) then .next s
      else
        let lost := (s.fn f).lostFlag
        let s1 := s.modFn f (fun x => { x with chute := rest, lostFlag := false })
        .next (s1.writeCq q false (fun phase =>
          cqEntry 0 0 0 e.ctx q.qid phase true false lost false q.sqHead e.code (e.d.map (fun w => w.toNat))))

/-- A write of HIF_CTRL. -/
def hifCtrlWrite (v : Nat) (s : State) : State := if v.testBit 0 then s.zeroFields hifCounters else s

/-- HIF_CLR_COUNTERS: a write of HIF_CTRL. -/
def execHifClrCounters (m : Nat) (v : Word) (s : State) : Out := .next (s.writeBy m R_HIF_CTRL (hifCtrlWrite v.toNat))

/-- MSIX_VECTOR_UNMASK: the host masks a vector, or unmasks it and the message that waits is sent (R281). -/
def execMsixVectorUnmask (f v : Nat) (mask : Bool) (s : State) : Out :=
  if f > 16 || v ≥ vectorsOf f then .next s
  else if mask then .next (s.modFn f (fun x => { x with masked := if v ∈ x.masked then x.masked else x.masked ++ [v] }))
  else
    let wait := v ∈ (s.fn f).msixPending
    let s1 := s.modFn f (fun x => { x with masked := x.masked.filter (· != v), msixPending := x.msixPending.filter (· != v) })
    .next (if wait then s1.sendMsix f v else s1)

/-! ### The link -/

/-- A change of the link's capacity: a re-run of admission, or news of a rise (R314). -/
def linkChange (s : State) (was : Nat) : State :=
  let t := admRegs s
  if linkCap t < was || (was == 0 && !t.con.list.isEmpty) then wantRerun t 2 else if was < linkCap t then capRisen t else t

/-- PCIE_LINK_UP: speed, width, MaxPayload, MaxReadRequest, and the size the host gives BAR2 of the PF in GiB. -/
def execPcieLinkUp (speed width mps mrrs bar2 : Nat) (s : State) : Out :=
  if !s.pins.released || !(1 ≤ speed && speed ≤ 5) || !([1, 2, 4, 8].contains width) then .next s
  else
    let s1 := s.wrs [(F_HIF_STATUS_LINK_SPEED, speed), (F_HIF_STATUS_LINK_WIDTH, width), (F_HIF_STATUS_LINK_UP, 1), (F_HIF_STATUS_L1_2, 0)]
    let s2 := s1.modDma (fun d => { d with mps := mps, mrrs := mrrs })
    let size := if [1, 2, 4, 8, 16, 32, 64].contains bar2 then bar2 else 1
    .next (linkChange (s2.modFn 0 (fun x => { x with bar2Gib := size })) (linkCap s))

/-- PCIE_LINK_RETRAIN. -/
def execPcieLinkRetrain (speed width : Nat) (s : State) : Out :=
  if !s.on F_HIF_STATUS_LINK_UP || !(1 ≤ speed && speed ≤ 5) || !([1, 2, 4, 8].contains width) then .next s
  else .next (linkChange (s.wrs [(F_HIF_STATUS_LINK_SPEED, speed), (F_HIF_STATUS_LINK_WIDTH, width)]) (linkCap s))

/-! ### Timeouts (R286) -/

/-- A Watch → Rest that PSTATE_SET's timeout stops: the device stays in Watch, TRG disarmed (R439). -/
def restGiveUp (s : State) : State :=
  let s1 := (s.wrs [(F_GLB_STATE_PSTATE, 1), (F_PMU_STATUS_PSTATE, 1)]).modClk (fun c => { c with trans := none })
  dmaResume (psNext (trigPin s1))

/-- COMMAND_TIMEOUT: a command that waits has reached its deadline. -/
def execCommandTimeout (q t : Nat) (s : State) : Out :=
  match s.inflight? q t with
  | none => .next s
  | some c =>
    match c.kind with
    | .intakeStart => if s.up < c.due then .next s else .next (s.finish c (startReply s .timeout))
    | .regPoll => if s.up < c.due then .next s else .next (s.finish c { st := .timeout, r0 := c.key })
    | .anchor => if s.up < c.due / 4 then .next s else .next (s.finish c { st := .timeout })
    | .timeSet =>
      if s.up < c.due then .next s else .next ((s.modClk (fun k => { k with setAt := none })).finish c { st := .timeout })
    | .psWant =>
      if s.up < c.due || s.pstate ≠ 7 || c.key ≠ 0 then .next s
      else .next (restGiveUp (s.finish c { st := .timeout, r0 := 1, r2 := s.clk.disarmed }))
    | .disCrc => if s.up < c.due then .next s else .next (s.finish c { st := .timeout })
    | _ => .next s

end Sys2Proof.Machine
end

