-- ==== Sys2Proof/Machine/RegAccess.lean ====
section
/-!
DEFINITION. Register access as a whole (R5 to R12, R20, R24, R271, R272, R291, R338): what a read returns and latches, what
a write does in every block, and the rows that read and write registers and the BAR2 window.
-/

namespace Sys2Proof.Machine

/-! ### Running, refused (R7, R10) -/

/-- The index of an address in a table of equal entries. -/
def ixOf (a base stride : Nat) : Nat := (a - base) / stride

/-- The WRITE_REFUSED flags that a write of a register may set (R7); GLB, ERR and SHF have no frozen field. -/
def flagsOf (a : Nat) : List Fld :=
  match blockOf a with
  | 1 => [F_PMU_STATUS_WRITE_REFUSED]
  | 2 => [F_HIF_STATUS_WRITE_REFUSED]
  | 3 => [F_MBX_STATUS_WRITE_REFUSED]
  | 4 => [F_JIN_STATUS_WRITE_REFUSED]
  | 5 => if a = R_DFU_SYNC then (List.range 12).map F_DFU_STATUS_WRITE_REFUSED
      else [F_DFU_STATUS_WRITE_REFUSED (ixOf a 0x080000 0x4000)]
  | 6 => [F_TRG_STATUS_WRITE_REFUSED]
  | 7 => [F_TIM_STATUS_WRITE_REFUSED]
  | 8 => [F_CAP_STATUS_WRITE_REFUSED]
  | 9 =>
    if a < 0x1E0000 then [F_ENG_STATUS_WRITE_REFUSED (ixOf a 0x120000 0x10000)]
    else if a < 0x1E0400 then [F_MAP_STATUS_WRITE_REFUSED (ixOf a 0x1E0000 0x40)]
    else if a < 0x1E0800 then [F_ENG_PQ_STATUS_WRITE_REFUSED]
    else [F_MAP_STATUS_WRITE_REFUSED (ixOf a 0x1E0800 4)]
  | 10 => [F_DMA_STATUS_WRITE_REFUSED]
  | 11 => [F_CMP_STATUS_WRITE_REFUSED]
  | 12 => [F_MEM_C_STATUS_WRITE_REFUSED (ixOf a 0x280000 0x8000)]
  | 13 => [F_DIS_STATUS_WRITE_REFUSED]
  | 14 => [F_MCV_STATUS_WRITE_REFUSED]
  | _ => []

/-- The flag of the block, or of the part of it, that holds a register. -/
def flagOf (a : Nat) : Fld := (flagsOf a).headD F_ERR_STATUS_WRITE_REFUSED

/-- The finisher runs (R269). -/
def finRuns (s : State) : Bool := s.eng.chains.any (fun c => libFinish (libOf c) || libAgg (libOf c))

/-- CMP runs: a job runs or is held (R383). -/
def cmpRuns (s : State) : Bool := s.cmp.jobs.any (fun j => j.state == 1 || j.state == 2)

/-- Whether the block of a register, or the part of it that freezes the register, runs in the sense of R7 (R60, R90, R118,
R177, R207, R241, R269, R383, R409, R442, R464, R486). -/
def regRuns (s : State) (a : Nat) : Bool :=
  match blockOf a with
  | 1 => if a = R_TBS_CREF then s.on F_TBS_CREF_EN else true
  | 4 => if 0x043000 ≤ a ∧ a < 0x043024 then cspiBusy s else jinRun s
  | 5 => dfuArmed s
  | 6 => trgRunning s
  | 7 => if 0x0E4000 ≤ a ∧ a < 0x0E4800 then s.on (F_TIM_MU_CFG_EN (ixOf a 0x0E4000 0x80)) else timRun s
  | 8 => capRunning s
  | 9 =>
    if a < 0x1E0000 then !(chainsIn s (ixOf a 0x120000 0x10000)).isEmpty
    else if a < 0x1E0400 then s.on (F_MAP_CTRL_EN (ixOf a 0x1E0000 0x40))
    else if a < 0x1E0800 then finRuns s
    else s.on (F_MAP_CTRL_EN (ixOf a 0x1E0800 4))
  | 10 => if 0x201000 ≤ a ∧ a < 0x205000 then chRunning s (ixOf a 0x201000 0x80) else false
  | 11 => cmpRuns s
  | 12 => mcRunning s (ixOf a 0x280000 0x8000)
  | 13 => s.on F_DIS_AUX_CTRL_BUSY
  | 14 => s.on F_MCV_CTRL_EN
  | _ => false

/-- Fields whose table says that a value is ignored. -/
def valueIgnored (a v : Nat) (f : FieldRow) : Bool :=
  let x := bitsOf v f.lo f.w
  match blockOf a with
  | 0 => a == R_GLB_CTRL && f.lo == 0 && 12 ≤ x
  | 4 =>
    (a == R_JIN_PARAMS && f.lo == 2 && x == 3) || (a == R_JIN_SYSREF_CTRL && f.lo == 8 && x == 0)
      || (a == R_JIN_SYSREF_PERIOD && x == 0) || (0x041000 ≤ a && a < 0x041C00 && a % 256 == 0 && f.lo == 4 && x == 3)
  | 5 => (a - 0x080000) % 0x4000 == 0x200 && f.lo == 8 && 13 ≤ x
  | 6 => a == R_TRG_OUT_CTRL && f.lo == 0 && 5 ≤ x
  | 8 => a == R_CAP_SEG_ENTRIES && !(10 ≤ x && x ≤ 24)
  | 14 => (a == R_MCV_INJ_CFG || (0x2D0100 ≤ a && a < 0x2D0300 && a % 16 == 0)) && f.lo == 4 && x == 3
  | _ => false

/-- The fields of a register take a value by their access codes and classes (R5, R7, R10). -/
def storeReg (s : State) (a v : Nat) : State :=
  plainWrite s a (regRuns s a) (flagOf a) v (fun f => !valueIgnored a v f)

/-! ### What a write does, block by block -/

/-- GLB (Tables 1.20, 1.22). -/
def glbWrite (a v : Nat) (s : State) : State :=
  if a = R_GLB_SOFT_RESET then softResetWrite v s
  else if a = R_GLB_OFF_ACCESS then (if v.testBit 31 then s.setReg R_GLB_OFF_ACCESS 0 else s)
  else storeReg s a v

/-- PMU, CKG and TBS (Table 15.8): writes of alarm words arm the alarm (R530), a change of MARGIN moves the voltage
(R423), a rewritten band table stands for itself (R417). -/
def pmuWrite (a v : Nat) (s : State) : State :=
  let t := storeReg s a v
  if a = R_PMU_CTRL then pmuCtrlWrite s (BitVec.ofNat 32 v)
  else if a = R_TBS_CTRL then tbsCtrlWrite s (BitVec.ofNat 32 v)
  else if 0x010010 ≤ a ∧ a < 0x01001C then t.modClk (fun c => { c with wakeArmed := true })
  else if a = R_PMU_AVS_CTRL then (if t.pstate = 0 then t else avsWrite t (avsTarget t (t.clk.fkhz / 1000)))
  else if 0x011000 ≤ a ∧ a < 0x011300 ∧ 0x40 ≤ a % 256 then
    t.modClk (fun c => { c with measured := listMod c.measured (ixOf a 0x011000 0x100) (fun _ => false) })
  else if a = R_TBS_PPS_OUT ∨ a = R_TBS_PPS_OUT_OFS then ppsSettle t
  else if a = R_TBS_CREF then crefPin t
  else t

/-- HIF (Table 10.11): the quota of function 0 is the rest of the others' (R275). -/
def hifWrite (a v : Nat) (s : State) : State :=
  if a = R_HIF_CTRL then hifCtrlWrite v s
  else if a = R_HIF_F_QUOTA 0 then s
  else if 0x020180 ≤ a ∧ a < 0x0201C4 then quotaRest (storeReg s a v)
  else storeReg s a v

/-- JIN (Table 2.5): SYSREF's fields apply at once while no train runs (R60), derived fields and ORDER_BAD follow. -/
def jinWrite (a v : Nat) (s : State) : State :=
  let t := storeReg s a v
  if a = R_JIN_CTRL then jinCtrlWrite v s
  else if a = R_JIN_SYSREF_ISSUE then sysrefIssueWrite v s
  else if a = R_JIN_CSPI_CTRL then cspiCtrlWrite v s
  else if a ∈ sysrefRegs then sysrefApplyIfIdle t
  else if a = R_JIN_RBD then
    (if jinRun s then t else { t with jin := { t.jin with autoRbd := false } })
  else if 0x041000 ≤ a ∧ a < 0x041C00 then orderFlag t (ixOf a 0x041000 0x100)
  else if a < 0x040020 then jinDerive t
  else t

/-- DFU (Table 3.5): commits, DSYNCs, and the fields whose write clears a unit's histories while it is not armed (R82,
R90). -/
def dfuWrite (a v : Nat) (s : State) : State :=
  let u := ixOf a 0x080000 0x4000
  let o := (a - 0x080000) % 0x4000
  let t := storeReg s a v
  if a = R_DFU_CORR_COMMIT then corrCommit s (v % 4096)
  else if a = R_DFU_SYNC then dsyncGo s (v % 4096)
  else if o = 0 then dfuCtrlWrite u v s
  else if o = 0x08 ∧ fmtValid (bitsOf v 0 3) (bitsOf v 3 2) = false then s.wr (F_DFU_STATUS_WRITE_REFUSED u) 1
  else if dfuArmed s then t
  else if o = 0x08 ∨ o = 0x0C then dsyncUnit (dfuDerive t u) u
  else if o = 0x200 then dsyncUnit t u
  else t

/-- TRG and placement (Tables 4.6, 5.8): a rewritten note or state is free of a parity error (R128), BAD and
SHADOW_PENDING follow. -/
def trgWrite (a v : Nat) (s : State) : State :=
  let t := storeReg s a v
  if a = R_TRG_CTRL then trgCtrlWrite v s
  else if a = R_TRG_COMMIT then trgCommitWrite v s
  else if a = R_TRG_OUT_CTRL then
    (if t.rd F_TRG_OUT_CTRL_MODE = s.rd F_TRG_OUT_CTRL_MODE ∧ t.rd F_TRG_OUT_CTRL_OUT_TN = s.rd F_TRG_OUT_CTRL_OUT_TN
      then trigPin t else outMode t)
  else if 0x0C1000 ≤ a ∧ a < 0x0C2000 then
    trgFlags (if trgRunning s then t else t.modNote (ixOf a 0x0C1000 0x40) (fun x => { x with parity := false }))
  else if 0x0C2000 ≤ a ∧ a < 0x0C2400 then
    (if trgRunning s then t
      else t.modTrg (fun x => { x with parityHs := x.parityHs.filter (· != ixOf a 0x0C2000 0x40) }))
  else trgFlags t

/-- TIM (Table 6.7): EN of a unit starts it anew or drops its open gate (R174, R177). -/
def timWrite (a v : Nat) (s : State) : State :=
  let t := storeReg s a v
  let u := ixOf a 0x0E4000 0x80
  if a = R_TIM_CTRL then timCtrlWrite v s
  else if 0x0E1000 ≤ a ∧ a < 0x0E1820 then
    (if timRun s then t else lossNow (t.modIn (ixOf a 0x0E1000 0x20) (fun x => { x with parity := false })))
  else if 0x0E2000 ≤ a ∧ a < 0x0E2200 then
    (if timRun s then t else t.modTim (fun x => { x with badVes := x.badVes.filter (· != ixOf a 0x0E2000 0x20) }))
  else if 0x0E3000 ≤ a ∧ a < 0x0E3100 then
    (if timRun s then t else t.modTim (fun x => { x with badFps := x.badFps.filter (· != ixOf a 0x0E3000 0x20) }))
  else if 0x0E4000 ≤ a ∧ a < 0x0E4800 then
    (if a = R_TIM_MU_RES_POP u then muPopWrite u v s
     else if a = R_TIM_MU_CFG u ∧ s.on (F_TIM_MU_CFG_EN u) ≠ t.on (F_TIM_MU_CFG_EN u) then
       t.modMu u (fun x => { TMu.reset with gateStart := t.now, res := x.res })
     else if s.on (F_TIM_MU_CFG_EN u) then t
     else t.modMu u (fun x => { x with parity := false }))
  else t

/-- CAP (Table 7.11). -/
def capWrite (a v : Nat) (s : State) : State :=
  if a = R_CAP_CTRL then capCtrlWrite v s else capSpans (storeReg s a v)

/-- ENG, maps and the finisher (Tables 8.10, 9.8). -/
def engWrite (a v : Nat) (s : State) : State :=
  let b := ixOf a 0x120000 0x10000
  let m := ixOf a 0x1E0000 0x40
  if a < 0x1E0000 then (if a = R_ENG_CTRL b then engCtrlWrite b v s else storeReg s a v)
  else if a < 0x1E0400 ∧ a = R_MAP_CTRL m then mapCtrlWrite m v s
  else storeReg s a v

/-- MEM (Table 14.9). -/
def memWriteReg (a v : Nat) (s : State) : State :=
  let c := ixOf a 0x280000 0x8000
  if a = R_MEM_C_CTRL c then memCtrlWrite c v s
  else if a = R_MEM_C_REF c then refClamp (storeReg s a v) c
  else if a = R_MEM_C_TRN_CTRL c then trnWrite s c (BitVec.ofNat 32 v)
  else storeReg s a v

/-- DIS (Table 16.4). -/
def disWrite (a v : Nat) (s : State) : State :=
  let k := ixOf a 0x2C0100 0x40
  if a = R_DIS_CTRL then disCtrlWrite v s
  else if a = R_DIS_MODE_COMMIT then modeCommitWrite v s
  else if a = R_DIS_COMMIT then layerCommitWrite v s
  else if a = R_DIS_AUX_CTRL then disAuxWrite v s
  else if a = R_DIS_PANEL then disPins (storeReg s a v)
  else if 0x2C0100 ≤ a ∧ a < 0x2C01C0 ∧ a = R_DIS_L_LUT k then disLutWrite k v s
  else if 0x2C1000 ≤ a ∧ a < 0x2C2000 then disLutData (ixOf a 0x2C1000 4) (BitVec.ofNat 32 v) s
  else storeReg s a v

/-- MCV (Table 17.5): a rewritten entry is good again (R484). -/
def mcvWrite (a v : Nat) (s : State) : State :=
  let t := storeReg s a v
  if a = R_MCV_CTRL then mcvCtrlWrite v s
  else if a = R_MCV_RES_POP then resPop v s
  else if a = R_MCV_DAC_CTRL ∨ a = R_MCV_DAC_CODE then dacPin t
  else if 0x2D0100 ≤ a ∧ a < 0x2D0300 then t.modMcv (fun x => { x with bad := x.bad.filter (· != ixOf a 0x2D0100 0x10) })
  else t

/-- SHF (Table 18.10): a write of an alarm word arms the alarm (R530). -/
def shfWrite (a v : Nat) (s : State) : State :=
  let t := storeReg s a v
  if a = R_SHF_CTRL then shfCtrlWrite v s
  else if 0x2F0028 ≤ a ∧ a < 0x2F0034 then { t with shf := { t.shf with alarmArmed := true } }
  else t

/-- A register write that has reached a powered block. -/
def writeReg (m a : Nat) (v : Word) (s : State) : State :=
  let n := v.toNat
  match blockOf a with
  | 0 => glbWrite a n s
  | 1 => pmuWrite a n s
  | 2 => hifWrite a n s
  | 3 => mbxWrite m a v s
  | 4 => jinWrite a n s
  | 5 => dfuWrite a n s
  | 6 => trgWrite a n s
  | 7 => timWrite a n s
  | 8 => capWrite a n s
  | 9 => engWrite a n s
  | 10 => if a = R_DMA_CTRL then dmaCtrlWrite n s else storeReg s a n
  | 11 => if a = R_CMP_CTRL then cmpCtrlWrite n s else storeReg s a n
  | 12 => memWriteReg a n s
  | 13 => disWrite a n s
  | 14 => mcvWrite a n s
  | 15 => if a = R_ERR_CTRL then errCtrlWrite n s else if a = R_ERR_ACK then errAckWrite n s else storeReg s a n
  | 16 => shfWrite a n s
  | _ => s

/-! ### What a read returns -/

/-- Counts of ACLK, 40 ns each, since the last reset (R30). -/
def uptime (s : State) : Nat := (s.up - s.clk.upBase) / 40

/-- Whether any of some flags is set. -/
def anyOn (s : State) (l : List Fld) : Bool := l.any s.on

/-- The mirrored flags of a block, of its powered parts (Table 1.21). -/
def mirrored (s : State) (i : Nat) : Bool :=
  let when_ (d : Dom) (l : List Fld) : Bool := s.dom d != 0 && anyOn s l
  match i with
  | 1 => s.on F_PMU_STATUS_WRITE_REFUSED
  | 2 => when_ .hostlink [F_HIF_STATUS_WRITE_REFUSED]
  | 3 => s.on F_MBX_STATUS_WRITE_REFUSED
  | 4 => when_ .intake [F_JIN_STATUS_WRITE_REFUSED]
  | 5 => when_ .intake ((List.range 12).map F_DFU_STATUS_WRITE_REFUSED)
  | 6 => when_ .intake [F_TRG_STATUS_WRITE_REFUSED]
  | 7 => when_ .intake [F_TIM_STATUS_WRITE_REFUSED]
  | 8 => when_ .intake [F_CAP_STATUS_WRITE_REFUSED]
  | 9 => (List.range 12).any (fun b => when_ (.barn b) [F_ENG_STATUS_WRITE_REFUSED b])
      || when_ .hostlink (F_ENG_PQ_STATUS_WRITE_REFUSED :: (List.range 16).map F_MAP_STATUS_WRITE_REFUSED)
  | 10 => when_ .hostlink [F_DMA_STATUS_WRITE_REFUSED]
  | 11 => when_ .cmp [F_CMP_STATUS_WRITE_REFUSED]
  | 12 => when_ .memc ((List.range 8).map F_MEM_C_STATUS_WRITE_REFUSED)
  | 13 => when_ .dis [F_DIS_STATUS_WRITE_REFUSED]
  | 14 => when_ .mcv [F_MCV_STATUS_WRITE_REFUSED]
  | 15 => s.on F_ERR_STATUS_WRITE_REFUSED
  | 16 => s.on F_SHF_STATUS_WRITE_REFUSED
  | _ => false

/-- The urgency that port 0 drives: 3 while any stream's drain lag exceeds a quarter of the Granary's span (R391). -/
def capUrgency (s : State) : Nat :=
  let lag (i : Nat) : Rat :=
    let q := streamRate s i
    if q = 0 then 0 else ((((s.cs i).bytes / 64 - (s.cs i).drained) * 64 : Nat) : Rat) / q
  if siloLive s && (storedSet s).any (fun i => decide (lag i > granarySpan s / 4)) then 3 else 0

/-- The current value of a register; figures that follow other state are worked out here. -/
def liveReg (s : State) (a : Nat) : Word :=
  if a = R_GLB_WRITE_REFUSED then BitVec.ofNat 32 (((List.range 17).map (fun i => b2n (mirrored s i) * 2 ^ i)).sum)
  else if a = R_GLB_UPTIME_LO then BitVec.ofNat 32 (uptime s)
  else if a = R_GLB_UPTIME_HI then BitVec.ofNat 32 (uptime s / 4294967296)
  else if a = R_TBS_TS_W 0 then BitVec.ofNat 32 s.now
  else if a = R_TBS_TS_W 1 then BitVec.ofNat 32 (s.now / 4294967296)
  else if a = R_TBS_TS_W 2 then BitVec.ofNat 32 (s.now / 18446744073709551616)
  else if a = R_ADM_STATUS then
    BitVec.ofNat 32 (setBits (setBits (s.reg a).toNat 8 1 (b2n (admRuns s))) 9 1 (b2n s.con.rerun.isSome))
  else if a = R_JIN_AGE then BitVec.ofNat 32 (jinAge s)
  else if a = R_ENG_PQ_LOAD then BitVec.ofNat 32 (min 4294967295 (pqRate s))
  else if 0x1E0000 ≤ a ∧ a < 0x1E0400 ∧ a % 0x40 = 0x14 then BitVec.ofNat 32 (settleOf s (ixOf a 0x1E0000 0x40) 0)
  else if 0x120000 ≤ a ∧ a < 0x1E0000 ∧ a % 0x10000 / 0x800 = 2 ∧ a % 0x100 = 0x28 then
    BitVec.ofNat 32 (setBits (s.reg a).toNat 16 4 (curOp s ((a - 0x120000) / 0x10000 * 8 + a / 0x100 % 8)))
  else if 0x120000 ≤ a ∧ a < 0x1E0000 ∧ a % 0x10000 / 0x800 = 2 ∧ a % 0x100 = 0x14 then
    BitVec.ofNat 32 (setBits (s.reg a).toNat 16 16 (min 65535 (cesNow s ((a - 0x120000) / 0x10000 * 8 + a / 0x100 % 8)).length))
  else if a = R_MEM_PORT_QOS 0 then BitVec.ofNat 32 (setBits (s.reg a).toNat 16 2 (capUrgency s))
  else if 0x2E0120 ≤ a ∧ a < 0x2E0140 then logWord s (ixOf a 0x2E0120 4)
  else statusReg s a

/-- The words that a read of a register latches (R338). -/
def latchOf (a : Nat) : List Nat :=
  if a = R_TBS_TS_W 0 then [a + 4, a + 8]
  else if a = R_GLB_UPTIME_LO ∨ a = R_JIN_EMB_COUNT_LO ∨ a = R_TRG_DECISIONS_LO ∨ a = R_TIM_STORED_LO ∨ a = R_DIS_FRAME_NO_LO
      ∨ (0x120000 ≤ a ∧ a < 0x1E0000 ∧ a % 0x10000 = 0x20) ∨ (0x1E0000 ≤ a ∧ a < 0x1E0400 ∧ a % 0x40 = 0x1C)
      ∨ (0x200100 ≤ a ∧ a < 0x200180 ∧ a % 0x10 = 0) ∨ (0x201000 ≤ a ∧ a < 0x205000 ∧ a % 0x80 = 0x30) then [a + 4]
  else []

/-- Whether a register reads as latched. -/
def latched (a : Nat) : Bool := (4 ≤ a && (latchOf (a - 4)).contains a) || (8 ≤ a && (latchOf (a - 8)).contains a)

/-- What a read of a register returns: the latched word where there is one, else the current value. -/
def readReg (s : State) (a : Nat) : Word := if latched a then cellGet 0 s.latch a else liveReg s a

/-- The effect of a read: the words it latches. -/
def latchRead (s : State) (a : Nat) : State :=
  { s with latch := (latchOf a).foldl (fun l b => cellPut 0 l b (liveReg s b)) s.latch }

/-- A register read by a master, host or other; `direct` as for MBX_LOCKn_TRY (R12, R20, R24, R338). -/
def readBy (s : State) (m a : Nat) (direct : Bool) : Word × State :=
  if s.blocked m then (0, s)
  else if !(isHost m || mayReach m a) then (0, violation s (regAddr a) m)
  else if s.dom (domOf a) = 0 then (0, s.offAccess a m false)
  else if 0x030100 ≤ a ∧ a < 0x030200 ∧ a % 4 = 0 then
    let r := lockTry s m (ixOf a 0x030100 4) direct
    (BitVec.ofNat 32 r.1, r.2)
  else (readReg s a, latchRead s a)

/-! ### BAR4 (Table 10.10) -/

/-- A register of a function's BAR4. -/
def bar4Read (s : State) (f o : Nat) : Word :=
  let x := s.fn f
  let n : Nat :=
    if o = 0x00 then x.aqSqBase
    else if o = 0x04 then x.aqSqBase / 4294967296
    else if o = 0x08 then x.aqCqBase
    else if o = 0x0C then x.aqCqBase / 4294967296
    else if o = 0x10 then x.aqSize.toNat
    else if o = 0x14 then x.aqCtrl.toNat
    else if o = 0x18 then
      let run := match s.pairAt? f 0 with | some q => decide (q.st = .running) | none => false
      b2n run + 2 * b2n x.aqError
    else if o = 0x1C then x.regCtx
    else if o = 0x20 then f + s.rd (F_HIF_F_QUOTA_QP f) * 65536
    else if 0x10000 ≤ o ∧ o < 0x18000 then
      match s.pairAt? f ((o - 0x10000) / 64) with
      | none => if o = 0x1000C ∧ x.aqError then 2 else 0
      | some q =>
        if o % 64 = 8 then q.sqHead
        else if o % 64 = 12 then (match q.st with | .running => 1 | .error => 2 | .draining => 3)
        else 0
    else 0
  BitVec.ofNat 32 n

/-- One half of a base address takes a word. -/
def halfSet (base : Nat) (hi : Bool) (v : Word) : Nat :=
  if hi then base % 4294967296 + v.toNat * 4294967296 else base / 4294967296 * 4294967296 + v.toNat

/-- A write of a register of a function's BAR4: the admin set-up is frozen while EN = 1. -/
def bar4Write (s : State) (f o : Nat) (v : Word) : State :=
  let x := s.fn f
  let v1 := v &&& 0x0FFF0FFF
  let frozen (same : Bool) (g : Fn → Fn) : State :=
    if x.aqCtrl.toNat.testBit 0 then (if same then s else s.wr F_HIF_STATUS_WRITE_REFUSED 1) else s.modFn f g
  if o = 0x00 ∨ o = 0x04 then
    let b := halfSet x.aqSqBase (o == 4) v
    frozen (b == x.aqSqBase) (fun y => { y with aqSqBase := b })
  else if o = 0x08 ∨ o = 0x0C then
    let b := halfSet x.aqCqBase (o == 12) v
    frozen (b == x.aqCqBase) (fun y => { y with aqCqBase := b })
  else if o = 0x10 then frozen (v1 == x.aqSize) (fun y => { y with aqSize := v1 })
  else if o = 0x14 then aqCtrlWrite s f v
  else if o = 0x1C then s.modFn f (fun y => { y with regCtx := v.toNat % 4096 })
  else s

/-! ### Rows of the fabric -/

/-- BAR0 addresses are dword addresses in 16 MiB. -/
def bar0 (a : Nat) : Nat := a % 16777216 / 4 * 4

/-- BAR0_HOST_WRITE by function `f` (R272). -/
def execBar0HostWrite (f a : Nat) (v : Word) (s : State) : Out :=
  if 16 < f then .next s else .next (s.writeBy (1 + f) (bar0 a) (writeReg (1 + f) (bar0 a) v))

/-- REGISTER_WRITE by a master (R5, R7, R10), at BAR0, or of a function at its own BAR4. -/
def execRegisterWrite (m a : Nat) (v : Word) (bar4 : Bool) (s : State) : Out :=
  if bar4 then
    (if isHost m && (s.fn (m - 1)).enabled then .next (bar4Write (hostAccess s) (m - 1) (a % 1048576 / 4 * 4) v) else .next s)
  else .next (s.writeBy m (bar0 a) (writeReg m (bar0 a) v))

/-- LATCHING_READ: a register read by a master, with the words it latches (R338). -/
def execLatchingRead (m a : Nat) (bar4 : Bool) (s : State) : Out :=
  let t := if isHost m then hostAccess s else s
  if bar4 then
    (if isHost m && (s.fn (m - 1)).enabled then .next { t with rdata := [(m, bar4Read t (m - 1) (a % 1048576 / 4 * 4))] } else .next s)
  else if isHost m && !(s.fn (m - 1)).enabled then .next s
  else
    let r := readBy t m (bar0 a) (tryDirect t m)
    .next { r.2 with rdata := [(m, r.1)] }

/-- GLB_OFF_ACCESS_CLEAR: a write of GLB_OFF_ACCESS (Table 1.22). -/
def execGlbOffAccessClear (m : Nat) (v : Word) (s : State) : Out :=
  .next (s.writeBy m R_GLB_OFF_ACCESS (glbWrite R_GLB_OFF_ACCESS v.toNat))

/-! ### The DRAM window (R271) -/

/-- Bytes of DRAM as a window read returns them: those of a poisoned granule are free values (R401). -/
def windowBytes (a : Nat) : Nat → State → List Byte × State
  | 0, s => ([], s)
  | n + 1, s =>
    let x := if s.dramPoison a 1 then s.takeBits 8 else ((memGet s.dram a).toNat, s)
    let r := windowBytes (a + 1) n x.2
    (BitVec.ofNat 8 x.1 :: r.1, r.2)

/-- Words of a byte string, the last one filled with zeros. -/
def bytesWords (bs : List Byte) : List Word :=
  (List.range (cdiv bs.length 4)).map (fun i => BitVec.ofNat 32 (dwordAt bs i))



/-- BAR2_ACCESS: a read of `n` bytes at an offset of a function's BAR2, or a write of bytes there. -/
def execBar2Access (f ofs n : Nat) (data : Option (List Byte)) (s : State) : Out :=
  let size := (if f = 0 then (s.fn 0).bar2Gib else 1) * 1073741824
  let len := match data with | some bs => bs.length | none => n
  let a := s.rd (F_HIF_F_WIN_BASE f) * 1073741824 + ofs
  let t := { hostAccess s with rdata := [] }
  let zero (u : State) : State :=
    if data.isSome then u else { u with rdata := (bytesWords (List.replicate len 0)).map (fun w => (1 + f, w)) }
  let open_ := match data with
    | some _ => t.on (F_HIF_F_WIN_WR f) && !t.err.contained
    | none => t.on (F_HIF_F_WIN_RD f)
  if 16 < f || !(s.fn f).enabled || size < ofs + len then .next s
  else if !open_ || !t.domOn .memc then .next (zero (t.bump F_HIF_WIN_BLOCKED_COUNT))
  else if capacity t < a + len then .next (zero (violation t a (1 + f)))
  else
    match data with
    | some bs => .next (t.dramWrite a bs)
    | none =>
      let r := windowBytes a len t
      .next { r.2 with rdata := (bytesWords r.1).map (fun w => (1 + f, w)) }

/-! ### Opcodes 0xD0 to 0xD3 (R291, R292) -/

/-- Offset and count of a register command. -/
def regOfs (p : Packet) : Nat := pf p 2 0 24
def regAligned (p : Packet) (_ : State) : Bool := regOfs p % 4 == 0

/-- A register write of a command under its function's master ID: the state, whether it was refused in part (R10), whether
the block was off (R20). -/
def cmdWrite (m a : Nat) (v : Word) (s : State) : State × Bool × Bool :=
  if s.dom (domOf a) = 0 then (s.offAccess a m true, false, true)
  else
    let fl := (flagsOf a).filter (fun x => x.addr != a)
    let t := writeReg m a v (s.zeroFields fl)
    (fl.foldl (fun u x => if s.on x then u.wr x 1 else u) t, anyOn t fl, false)

/-- The reads of a REG_READ, in ascending order: the values, and the state they leave. -/
def regReads (p : Packet) (s : State) : List Nat × State :=
  (List.range (pf p 2 24 2 + 1)).foldl (fun (x : List Nat × State) i =>
    let y := readBy x.2 (1 + p.func) (regOfs p + 4 * i) (x.2.hasPriv (pCtx p) 0)
    (x.1 ++ [y.1.toNat], y.2)) ([], s)

/-- The writes of a REG_WRITE, in ascending order: the state they leave, those refused in part, those to a block that is off. -/
def regWrites (p : Packet) (s : State) : State × Nat × Nat :=
  (List.range (pf p 2 24 2 + 1)).foldl (fun (x : State × Nat × Nat) i =>
    let y := cmdWrite (1 + p.func) (regOfs p + 4 * i) (p.dws.getD (3 + i) 0) x.1
    (y.1, x.2.1 + b2n y.2.1 * 2 ^ i, x.2.2 + b2n y.2.2 * 2 ^ i)) (s, 0, 0)

/-- REG_READ. -/
def execRegRead (p : Packet) (s : State) : Out :=
  fcpStep { op := 0xD0, aligned := regAligned, contain := true,
            run := fun p s =>
              let r := regReads p s
              .final (okR (r.1.getD 0 0) (r.1.getD 1 0) (r.1.getD 2 0) (r.1.getD 3 0)) r.2 } p s

/-- REG_WRITE. -/
def execRegWrite (p : Packet) (s : State) : Out :=
  fcpStep { op := 0xD1, priv := some 0, aligned := regAligned, contain := true,
            run := fun p s =>
              let r := regWrites p s
              .final (okR r.2.1 r.2.2 0 0) r.1 } p s

/-- REG_RMW. -/
def execRegRmw (p : Packet) (s : State) : Out :=
  fcpStep { op := 0xD2, priv := some 0, aligned := regAligned, contain := true,
            run := fun p s =>
              let m := 1 + p.func
              let old := readBy s m (regOfs p) true
              let mask := p.dws.getD 3 0
              let t := cmdWrite m (regOfs p) ((old.1 &&& ~~~mask) ||| (p.dws.getD 4 0 &&& mask)) old.2
              .final (okR old.1.toNat 0 0 0) t.1 } p s

/-- REG_POLL: the first read. -/
def execRegPoll (p : Packet) (s : State) : Out :=
  fcpStep { op := 0xD3, aligned := regAligned, contain := true,
            valid := fun p _ => decide (1 ≤ pf p 5 0 20 ∧ pf p 5 0 20 ≤ 1000000),
            run := fun p s =>
              let r := readBy s (1 + p.func) (regOfs p) (s.hasPriv (pCtx p) 0)
              if r.1.toNat &&& pdw p 3 = pdw p 4 then .final (okR r.1.toNat 0 0 0) r.2
              else .wait .regPoll r.1.toNat (s.up + pf p 5 0 20 * 1000) r.2 } p s

/-- REG_POLL_SAMPLE: a whole number of µs after its start a REG_POLL reads again. -/
def execRegPollSample (q t : Nat) (s : State) : Out :=
  match s.inflight? q t with
  | none => .next s
  | some c =>
    let dw (i : Nat) : Nat := (c.dws.getD i 0).toNat
    if c.kind ≠ .regPoll ∨ c.due < s.up ∨ (c.due - s.up) % 1000 ≠ 0 ∨ c.due = s.up + bitsOf (dw 5) 0 20 * 1000 then .next s
    else
      let r := readBy s (1 + c.func) (bitsOf (dw 2) 0 24) (s.hasPriv c.ctx 0)
      if r.1.toNat &&& dw 3 = dw 4 then .next (r.2.finish c (okR r.1.toNat 0 0 0))
      else .next (r.2.modInflight q t (fun x => { x with key := r.1.toNat }))

end Sys2Proof.Machine
end

