-- ==== Sys2Proof/Machine/Dispatch.lean ====
section
/-!
DEFINITION. One arm per command: each calls that command's meaning.
-/

namespace Sys2Proof.Machine

/-- The effect of a command on everything but the queue. -/
def exec (i : Instr) (s : State) : Host.Outcome State Fault Refusal :=
  match i with
  | .nop p => Sys2Proof.Machine.execNop p s
  | .deviceInfo p => Sys2Proof.Machine.execDeviceInfo p s
  | .queueCreate p => Sys2Proof.Machine.execQueueCreate p s
  | .queueDelete p => Sys2Proof.Machine.execQueueDelete p s
  | .eventRoute p => Sys2Proof.Machine.execEventRoute p s
  | .abortCmd p => Sys2Proof.Machine.execAbortCmd p s
  | .patchLoad p => Sys2Proof.Machine.execPatchLoad p s
  | .patchApply => Sys2Proof.Machine.execPatchApply s
  | .patchStatus p => Sys2Proof.Machine.execPatchStatus p s
  | .ctxOpen p => Sys2Proof.Machine.execCtxOpen p s
  | .ctxClose p => Sys2Proof.Machine.execCtxClose p s
  | .ctxPriv p => Sys2Proof.Machine.execCtxPriv p s
  | .ctxQuota p => Sys2Proof.Machine.execCtxQuota p s
  | .contractRequest p => Sys2Proof.Machine.execContractRequest p s
  | .contractModify p => Sys2Proof.Machine.execContractModify p s
  | .contractRelease p => Sys2Proof.Machine.execContractRelease p s
  | .contractStatus p => Sys2Proof.Machine.execContractStatus p s
  | .budgetQuery p => Sys2Proof.Machine.execBudgetQuery p s
  | .admissionRerun => Sys2Proof.Machine.execAdmissionRerun s
  | .intakeConfig p => Sys2Proof.Machine.execIntakeConfig p s
  | .intakeLink p => Sys2Proof.Machine.execIntakeLink p s
  | .intakeStart p => Sys2Proof.Machine.execIntakeStart p s
  | .intakeStop p => Sys2Proof.Machine.execIntakeStop p s
  | .intakeStatus p => Sys2Proof.Machine.execIntakeStatus p s
  | .sysrefSet p => Sys2Proof.Machine.execSysrefSet p s
  | .laneTest p => Sys2Proof.Machine.execLaneTest p s
  | .cspiXfer p => Sys2Proof.Machine.execCspiXfer p s
  | .cspiTransferDone miso => Sys2Proof.Machine.execCspiTransferDone miso s
  | .jinRunWrite m v => Sys2Proof.Machine.execJinRunWrite m v s
  | .jinClrCounters m v => Sys2Proof.Machine.execJinClrCounters m v s
  | .sysrefIssueGo m v => Sys2Proof.Machine.execSysrefIssueGo m v s
  | .cspiGo m v => Sys2Proof.Machine.execCspiGo m v s
  | .sysrefLaunch => Sys2Proof.Machine.execSysrefLaunch s
  | .sysrefPulseCheck => Sys2Proof.Machine.execSysrefPulseCheck s
  | .laneLockLoss lane what => Sys2Proof.Machine.execLaneLockLoss lane what s
  | .jinBlockArrival lane blk => Sys2Proof.Machine.execJinBlockArrival lane blk s
  | .linkRelock k => Sys2Proof.Machine.execLinkRelock k s
  | .jinRelease k => Sys2Proof.Machine.execJinRelease k s
  | .dfuOutput u parity => Sys2Proof.Machine.execDfuOutput u parity s
  | .anchorUpdate u => Sys2Proof.Machine.execAnchorUpdate u s
  | .dfuTempUpdate t => Sys2Proof.Machine.execDfuTempUpdate t s
  | .dfuMode p => Sys2Proof.Machine.execDfuMode p s
  | .dfuCorr p => Sys2Proof.Machine.execDfuCorr p s
  | .dfuSync p => Sys2Proof.Machine.execDfuSync p s
  | .dfuPreset p => Sys2Proof.Machine.execDfuPreset p s
  | .resampleCfg p => Sys2Proof.Machine.execResampleCfg p s
  | .dfuStatus p => Sys2Proof.Machine.execDfuStatus p s
  | .dfuAnchor p => Sys2Proof.Machine.execDfuAnchor p s
  | .dfuCorrCommitGo m v => Sys2Proof.Machine.execDfuCorrCommitGo m v s
  | .corrApply => Sys2Proof.Machine.execCorrApply s
  | .dfuSyncGoWrite m v => Sys2Proof.Machine.execDfuSyncGoWrite m v s
  | .dsyncApply => Sys2Proof.Machine.execDsyncApply s
  | .dfuClrCounters m u v => Sys2Proof.Machine.execDfuClrCounters m u v s
  | .periodReportArrival f => Sys2Proof.Machine.execPeriodReportArrival f s
  | .resamplerCycleStart u => Sys2Proof.Machine.execResamplerCycleStart u s
  | .resamplerCoast u => Sys2Proof.Machine.execResamplerCoast u s
  | .trigArm p => Sys2Proof.Machine.execTrigArm p s
  | .armTakeEffect => Sys2Proof.Machine.execArmTakeEffect s
  | .trigDisarm p => Sys2Proof.Machine.execTrigDisarm p s
  | .trigForce p => Sys2Proof.Machine.execTrigForce p s
  | .topnoteSet p => Sys2Proof.Machine.execTopnoteSet p s
  | .heartSet p => Sys2Proof.Machine.execHeartSet p s
  | .heartLimits p => Sys2Proof.Machine.execHeartLimits p s
  | .trigRoute p => Sys2Proof.Machine.execTrigRoute p s
  | .trigOutSet p => Sys2Proof.Machine.execTrigOutSet p s
  | .trgCommitGo m v => Sys2Proof.Machine.execTrgCommitGo m v s
  | .trgShadowApply => Sys2Proof.Machine.execTrgShadowApply s
  | .trgClrCounters m v => Sys2Proof.Machine.execTrgClrCounters m v s
  | .heartTick => Sys2Proof.Machine.execHeartTick s
  | .heartTimerExpiry k => Sys2Proof.Machine.execHeartTimerExpiry k s
  | .topnoteTimeout n => Sys2Proof.Machine.execTopnoteTimeout n s
  | .trigOutLaunch => Sys2Proof.Machine.execTrigOutLaunch s
  | .trigOutPulseEnd => Sys2Proof.Machine.execTrigOutPulseEnd s
  | .baseValueArrival rec => Sys2Proof.Machine.execBaseValueArrival rec s
  | .baseSet p => Sys2Proof.Machine.execBaseSet p s
  | .placeSet p => Sys2Proof.Machine.execPlaceSet p s
  | .placeStatus p => Sys2Proof.Machine.execPlaceStatus p s
  | .baseStatus p => Sys2Proof.Machine.execBaseStatus p s
  | .segmentHandoff => Sys2Proof.Machine.execSegmentHandoff s
  | .logicEdge n ball level => Sys2Proof.Machine.execLogicEdge n ball level s
  | .edgeAccept n => Sys2Proof.Machine.execEdgeAccept n s
  | .timLossResume n => Sys2Proof.Machine.execTimLossResume n s
  | .storeGapEnd src => Sys2Proof.Machine.execStoreGapEnd src s
  | .transitionRecordHandoff => Sys2Proof.Machine.execTransitionRecordHandoff s
  | .tdcCalSwap report => Sys2Proof.Machine.execTdcCalSwap report s
  | .measGateClose u => Sys2Proof.Machine.execMeasGateClose u s
  | .timResPop u m v => Sys2Proof.Machine.execTimResPop u m v s
  | .timRunWrite m v => Sys2Proof.Machine.execTimRunWrite m v s
  | .timClrCounters m v => Sys2Proof.Machine.execTimClrCounters m v s
  | .capConfig p => Sys2Proof.Machine.execCapConfig p s
  | .capStatus p => Sys2Proof.Machine.execCapStatus p s
  | .claimCmd p => Sys2Proof.Machine.execClaimCmd p s
  | .claimRelease p => Sys2Proof.Machine.execClaimRelease p s
  | .segInfo p => Sys2Proof.Machine.execSegInfo p s
  | .claimRead p => Sys2Proof.Machine.execClaimRead p s
  | .siloLocate p => Sys2Proof.Machine.execSiloLocate p s
  | .capRebuild p => Sys2Proof.Machine.execCapRebuild p s
  | .capAutoRebuild => Sys2Proof.Machine.execCapAutoRebuild s
  | .granuleDrain id check => Sys2Proof.Machine.execGranuleDrain id check s
  | .gapNoneHeartbeat => Sys2Proof.Machine.execGapNoneHeartbeat s
  | .capClrCounters m v => Sys2Proof.Machine.execCapClrCounters m v s
  | .chainLoad p => Sys2Proof.Machine.execChainLoad p s
  | .chainUnload p => Sys2Proof.Machine.execChainUnload p s
  | .chainStart p => Sys2Proof.Machine.execChainStart p s
  | .chainRun p => Sys2Proof.Machine.execChainRun p s
  | .chainStatus p => Sys2Proof.Machine.execChainStatus p s
  | .engStatus p => Sys2Proof.Machine.execEngStatus p s
  | .engUnfence p => Sys2Proof.Machine.execEngUnfence p s
  | .engGuard p => Sys2Proof.Machine.execEngGuard p s
  | .engClrCounters m b v => Sys2Proof.Machine.execEngClrCounters m b v s
  | .liveWindowReady id => Sys2Proof.Machine.execLiveWindowReady id s
  | .jobDispatch n => Sys2Proof.Machine.execJobDispatch n s
  | .jobSeal n => Sys2Proof.Machine.execJobSeal n s
  | .jobCommit b bad => Sys2Proof.Machine.execJobCommit b bad s
  | .engineWatchdog n => Sys2Proof.Machine.execEngineWatchdog n s
  | .engineFault n typ => Sys2Proof.Machine.execEngineFault n typ s
  | .spareActivate b => Sys2Proof.Machine.execSpareActivate b s
  | .commitUnitError b ok => Sys2Proof.Machine.execCommitUnitError b ok s
  | .pqLoad p => Sys2Proof.Machine.execPqLoad p s
  | .pqClock p => Sys2Proof.Machine.execPqClock p s
  | .mapSet p => Sys2Proof.Machine.execMapSet p s
  | .mapClear p => Sys2Proof.Machine.execMapClear p s
  | .mapStatus p => Sys2Proof.Machine.execMapStatus p s
  | .pqStatus p => Sys2Proof.Machine.execPqStatus p s
  | .mapEnableWrite m k v => Sys2Proof.Machine.execMapEnableWrite m k v s
  | .finisherRecord => Sys2Proof.Machine.execFinisherRecord s
  | .finisherMemberTimeout ctx g w => Sys2Proof.Machine.execFinisherMemberTimeout ctx g w s
  | .aggregationTick ctx g ival => Sys2Proof.Machine.execAggregationTick ctx g ival s
  | .flickerTick id => Sys2Proof.Machine.execFlickerTick id s
  | .mapEpochFinal k => Sys2Proof.Machine.execMapEpochFinal k s
  | .mapClearStart k => Sys2Proof.Machine.execMapClearStart k s
  | .doorbellSqTail f ix v => Sys2Proof.Machine.execDoorbellSqTail f ix v s
  | .doorbellCqHead f ix v => Sys2Proof.Machine.execDoorbellCqHead f ix v s
  | .aqEnable f v => Sys2Proof.Machine.execAqEnable f v s
  | .commandFetch r => Sys2Proof.Machine.execCommandFetch r s
  | .fenceStart q t => Sys2Proof.Machine.execFenceStart q t s
  | .irqTimeExpiry q => Sys2Proof.Machine.execIrqTimeExpiry q s
  | .eventDelivery f => Sys2Proof.Machine.execEventDelivery f s
  | .bar0HostWrite f a v => Sys2Proof.Machine.execBar0HostWrite f a v s
  | .bar2Access f ofs n data => Sys2Proof.Machine.execBar2Access f ofs n data s
  | .regRead p => Sys2Proof.Machine.execRegRead p s
  | .regWrite p => Sys2Proof.Machine.execRegWrite p s
  | .regRmw p => Sys2Proof.Machine.execRegRmw p s
  | .regPoll p => Sys2Proof.Machine.execRegPoll p s
  | .registerWrite m a v bar4 => Sys2Proof.Machine.execRegisterWrite m a v bar4 s
  | .latchingRead m a bar4 => Sys2Proof.Machine.execLatchingRead m a bar4 s
  | .glbOffAccessClear m v => Sys2Proof.Machine.execGlbOffAccessClear m v s
  | .hifClrCounters m v => Sys2Proof.Machine.execHifClrCounters m v s
  | .lockTryRead m n others => Sys2Proof.Machine.execLockTryRead m n others s
  | .lockTryWrite m n v => Sys2Proof.Machine.execLockTryWrite m n v s
  | .lockForceWrite m v => Sys2Proof.Machine.execLockForceWrite m v s
  | .mailboxStageWrite m ix inbound j v => Sys2Proof.Machine.execMailboxStageWrite m ix inbound j v s
  | .mailboxPush m ix inbound ws => Sys2Proof.Machine.execMailboxPush m ix inbound ws s
  | .mailboxPop m ix v => Sys2Proof.Machine.execMailboxPop m ix v s
  | .doorbellSet m ix toF v => Sys2Proof.Machine.execDoorbellSet m ix toF v s
  | .doorbellClear m ix toF v => Sys2Proof.Machine.execDoorbellClear m ix toF v s
  | .doorbellMaskWrite m ix toF v => Sys2Proof.Machine.execDoorbellMaskWrite m ix toF v s
  | .mbxClrCounters m v => Sys2Proof.Machine.execMbxClrCounters m v s
  | .hostServicePop ix => Sys2Proof.Machine.execHostServicePop ix s
  | .mailboxCross ix => Sys2Proof.Machine.execMailboxCross ix s
  | .dmaChanOpen p => Sys2Proof.Machine.execDmaChanOpen p s
  | .dmaChanClose p => Sys2Proof.Machine.execDmaChanClose p s
  | .dmaRingSet p => Sys2Proof.Machine.execDmaRingSet p s
  | .dmaStart p => Sys2Proof.Machine.execDmaStart p s
  | .dmaHalt p => Sys2Proof.Machine.execDmaHalt p s
  | .dmaStatus p => Sys2Proof.Machine.execDmaStatus p s
  | .dmaCopy p => Sys2Proof.Machine.execDmaCopy p s
  | .dmaClrCounters m v => Sys2Proof.Machine.execDmaClrCounters m v s
  | .dmaDescriptorFetch c bytes => Sys2Proof.Machine.execDmaDescriptorFetch c bytes s
  | .dmaRingPoll c bytes => Sys2Proof.Machine.execDmaRingPoll c bytes s
  | .dmaTransferRelease c => Sys2Proof.Machine.execDmaTransferRelease c s
  | .dmaBurst g data ue => Sys2Proof.Machine.execDmaBurst g data ue s
  | .dmaReadFail c what => Sys2Proof.Machine.execDmaReadFail c what s
  | .dmaTransferComplete c => Sys2Proof.Machine.execDmaTransferComplete c s
  | .cmpJob p => Sys2Proof.Machine.execCmpJob p s
  | .cmpResume p => Sys2Proof.Machine.execCmpResume p s
  | .cmpAbort p => Sys2Proof.Machine.execCmpAbort p s
  | .cmpStatus p => Sys2Proof.Machine.execCmpStatus p s
  | .cmpClrCounters m v => Sys2Proof.Machine.execCmpClrCounters m v s
  | .cmpJobEnd e => Sys2Proof.Machine.execCmpJobEnd e s
  | .cmpListExhausted e => Sys2Proof.Machine.execCmpListExhausted e s
  | .cmpSuspendExpiry id => Sys2Proof.Machine.execCmpSuspendExpiry id s
  | .cmpEngineFault e => Sys2Proof.Machine.execCmpEngineFault e s
  | .memConfig p => Sys2Proof.Machine.execMemConfig p s
  | .memStatus p => Sys2Proof.Machine.execMemStatus p s
  | .memRelease p => Sys2Proof.Machine.execMemRelease p s
  | .memSpare p => Sys2Proof.Machine.execMemSpare p s
  | .memTrain p => Sys2Proof.Machine.execMemTrain p s
  | .memClrCounters m c v => Sys2Proof.Machine.execMemClrCounters m c v s
  | .trnGo m c v => Sys2Proof.Machine.execTrnGo m c v s
  | .trnStepDone c lanes => Sys2Proof.Machine.execTrnStepDone c lanes s
  | .trainingStepTimeout c step rank => Sys2Proof.Machine.execTrainingStepTimeout c step rank s
  | .dramTrainingDone found => Sys2Proof.Machine.execDramTrainingDone found s
  | .dramInitRegion => Sys2Proof.Machine.execDramInitRegion s
  | .dramRead addr port ns res => Sys2Proof.Machine.execDramRead addr port ns res s
  | .rankMigrationDone c => Sys2Proof.Machine.execRankMigrationDone c s
  | .scrubRead res => Sys2Proof.Machine.execScrubRead res s
  | .refreshSlotDue c p busy => Sys2Proof.Machine.execRefreshSlotDue c p busy s
  | .mr4Poll c p ind => Sys2Proof.Machine.execMr4Poll c p ind s
  | .spdHubPoll c d t => Sys2Proof.Machine.execSpdHubPoll c d t s
  | .writeAgeExpiry c sc => Sys2Proof.Machine.execWriteAgeExpiry c sc s
  | .caParityAlert c cmds index rank => Sys2Proof.Machine.execCaParityAlert c cmds index rank s
  | .caAutoRelease c => Sys2Proof.Machine.execCaAutoRelease c s
  | .selfRefreshExit c ok => Sys2Proof.Machine.execSelfRefreshExit c ok s
  | .driftRecentre c => Sys2Proof.Machine.execDriftRecentre c s
  | .clkSet p => Sys2Proof.Machine.execClkSet p s
  | .clkStatus p => Sys2Proof.Machine.execClkStatus p s
  | .glideStep p => Sys2Proof.Machine.execGlideStep p s
  | .pllLockLoss p => Sys2Proof.Machine.execPllLockLoss p s
  | .pllRelock p => Sys2Proof.Machine.execPllRelock p s
  | .mpllLockLoss => Sys2Proof.Machine.execMpllLockLoss s
  | .mpllReacquire => Sys2Proof.Machine.execMpllReacquire s
  | .aclkLoss => Sys2Proof.Machine.execAclkLoss s
  | .avsWriteTimeout => Sys2Proof.Machine.execAvsWriteTimeout s
  | .tempSample t => Sys2Proof.Machine.execTempSample t s
  | .throttleStep => Sys2Proof.Machine.execThrottleStep s
  | .throttleRelease => Sys2Proof.Machine.execThrottleRelease s
  | .undervolt => Sys2Proof.Machine.execUndervolt s
  | .tbsRef p => Sys2Proof.Machine.execTbsRef p s
  | .tbsStatus p => Sys2Proof.Machine.execTbsStatus p s
  | .tbsAck p => Sys2Proof.Machine.execTbsAck p s
  | .timeSet p => Sys2Proof.Machine.execTimeSet p s
  | .ppsOut p => Sys2Proof.Machine.execPpsOut p s
  | .tbsModeWrite m v => Sys2Proof.Machine.execTbsModeWrite m v s
  | .tbsClrCounters m v => Sys2Proof.Machine.execTbsClrCounters m v s
  | .pmuClrCounters m v => Sys2Proof.Machine.execPmuClrCounters m v s
  | .ppsInEdge ts => Sys2Proof.Machine.execPpsInEdge ts s
  | .timeStepApply => Sys2Proof.Machine.execTimeStepApply s
  | .ref10mGate dev => Sys2Proof.Machine.execRef10mGate dev s
  | .refQualified pps => Sys2Proof.Machine.execRefQualified pps s
  | .refLoss pps => Sys2Proof.Machine.execRefLoss pps s
  | .slewComplete => Sys2Proof.Machine.execSlewComplete s
  | .ppsOutPulse => Sys2Proof.Machine.execPpsOutPulse s
  | .alarmFire sheaf => Sys2Proof.Machine.execAlarmFire sheaf s
  | .wakeNAssert => Sys2Proof.Machine.execWakeNAssert s
  | .restHostlinkReturn => Sys2Proof.Machine.execRestHostlinkReturn s
  | .pstateSet p => Sys2Proof.Machine.execPstateSet p s
  | .pstateStatus p => Sys2Proof.Machine.execPstateStatus p s
  | .watchConfig p => Sys2Proof.Machine.execWatchConfig p s
  | .restToWatch => Sys2Proof.Machine.execRestToWatch s
  | .watchToRecord => Sys2Proof.Machine.execWatchToRecord s
  | .flushCatchupDone => Sys2Proof.Machine.execFlushCatchupDone s
  | .recordToWatch => Sys2Proof.Machine.execRecordToWatch s
  | .watchToRest => Sys2Proof.Machine.execWatchToRest s
  | .powerOnReset testEn resetN => Sys2Proof.Machine.execPowerOnReset testEn resetN s
  | .startupCmdReady => Sys2Proof.Machine.execStartupCmdReady s
  | .pinReset => Sys2Proof.Machine.execPinReset s
  | .softReset m v => Sys2Proof.Machine.execSoftReset m v s
  | .linkReset => Sys2Proof.Machine.execLinkReset s
  | .functionReset f => Sys2Proof.Machine.execFunctionReset f s
  | .railLoss => Sys2Proof.Machine.execRailLoss s
  | .disMode p => Sys2Proof.Machine.execDisMode p s
  | .disLayer p => Sys2Proof.Machine.execDisLayer p s
  | .disFlip p => Sys2Proof.Machine.execDisFlip p s
  | .disLut p => Sys2Proof.Machine.execDisLut p s
  | .disCrc p => Sys2Proof.Machine.execDisCrc p s
  | .disStatus p => Sys2Proof.Machine.execDisStatus p s
  | .disScanoutEnable m v => Sys2Proof.Machine.execDisScanoutEnable m v s
  | .disClrCounters m v => Sys2Proof.Machine.execDisClrCounters m v s
  | .disModeCommitGo m v => Sys2Proof.Machine.execDisModeCommitGo m v s
  | .disLayerCommitGo m v => Sys2Proof.Machine.execDisLayerCommitGo m v s
  | .disLutSwap m k v => Sys2Proof.Machine.execDisLutSwap m k v s
  | .disLutDataWrite m ix v => Sys2Proof.Machine.execDisLutDataWrite m ix v s
  | .disAuxGo m v => Sys2Proof.Machine.execDisAuxGo m v s
  | .auxTransferDone reply data => Sys2Proof.Machine.execAuxTransferDone reply data s
  | .frameLatch => Sys2Proof.Machine.execFrameLatch s
  | .frameStart missing ue => Sys2Proof.Machine.execFrameStart missing ue s
  | .disLinkTraining ok => Sys2Proof.Machine.execDisLinkTraining ok s
  | .hpdLoss => Sys2Proof.Machine.execHpdLoss s
  | .irqHpd lost => Sys2Proof.Machine.execIrqHpd lost s
  | .hpdRise => Sys2Proof.Machine.execHpdRise s
  | .mcvConfig p => Sys2Proof.Machine.execMcvConfig p s
  | .mcvSeq p => Sys2Proof.Machine.execMcvSeq p s
  | .mcvInject p => Sys2Proof.Machine.execMcvInject p s
  | .mcvCal p => Sys2Proof.Machine.execMcvCal p s
  | .mcvDac p => Sys2Proof.Machine.execMcvDac p s
  | .mcvStatus p => Sys2Proof.Machine.execMcvStatus p s
  | .mcvEnWrite m v => Sys2Proof.Machine.execMcvEnWrite m v s
  | .mcvStartWrite m v => Sys2Proof.Machine.execMcvStartWrite m v s
  | .mcvInjGo m v => Sys2Proof.Machine.execMcvInjGo m v s
  | .mcvCalGo m v => Sys2Proof.Machine.execMcvCalGo m v s
  | .mcvClrCounters m v => Sys2Proof.Machine.execMcvClrCounters m v s
  | .mcvResPop m v => Sys2Proof.Machine.execMcvResPop m v s
  | .mcvInjAt => Sys2Proof.Machine.execMcvInjAt s
  | .mcvDwellEnd bad => Sys2Proof.Machine.execMcvDwellEnd bad s
  | .mcvSpanEnd => Sys2Proof.Machine.execMcvSpanEnd s
  | .mcvRundownDone sub overload => Sys2Proof.Machine.execMcvRundownDone sub overload s
  | .mcvAbandon => Sys2Proof.Machine.execMcvAbandon s
  | .mcvCoast => Sys2Proof.Machine.execMcvCoast s
  | .mcvCalPeriod => Sys2Proof.Machine.execMcvCalPeriod s
  | .snapFire p => Sys2Proof.Machine.execSnapFire p s
  | .snapRead p => Sys2Proof.Machine.execSnapRead p s
  | .errRead p => Sys2Proof.Machine.execErrRead p s
  | .errAck p => Sys2Proof.Machine.execErrAck p s
  | .errInject p => Sys2Proof.Machine.execErrInject p s
  | .errAckWrite m v => Sys2Proof.Machine.execErrAckWrite m v s
  | .errClrCounters m v => Sys2Proof.Machine.execErrClrCounters m v s
  | .errRecordDrain ue => Sys2Proof.Machine.execErrRecordDrain ue s
  | .ccHang core => Sys2Proof.Machine.execCcHang core s
  | .shfFireWrite m v => Sys2Proof.Machine.execShfFireWrite m v s
  | .shfRearmWrite m v => Sys2Proof.Machine.execShfRearmWrite m v s
  | .snapInEdge level => Sys2Proof.Machine.execSnapInEdge level s
  | .sheafLatch => Sys2Proof.Machine.execSheafLatch s
  | .pcieLinkUp speed width mps mrrs bar2 => Sys2Proof.Machine.execPcieLinkUp speed width mps mrrs bar2 s
  | .pcieLinkRetrain speed width => Sys2Proof.Machine.execPcieLinkRetrain speed width s
  | .vfEnable n => Sys2Proof.Machine.execVfEnable n s
  | .msixVectorUnmask f v mask => Sys2Proof.Machine.execMsixVectorUnmask f v mask s
  | .resetNRelease testEn => Sys2Proof.Machine.execResetNRelease testEn s
  | .jtagInstruction code cells => Sys2Proof.Machine.execJtagInstruction code cells s
  | .commandTimeout q t => Sys2Proof.Machine.execCommandTimeout q t s
  | .regPollSample q t => Sys2Proof.Machine.execRegPollSample q t s
  | .laneTestEnd errs unlocked => Sys2Proof.Machine.execLaneTestEnd errs unlocked s
  | .unfenceSelfTestDone n ok => Sys2Proof.Machine.execUnfenceSelfTestDone n ok s
  | .mapPassComplete k => Sys2Proof.Machine.execMapPassComplete k s
  | .cmpBlockBoundary e => Sys2Proof.Machine.execCmpBlockBoundary e s

end Sys2Proof.Machine
end

