-- ==== Sys2Proof/Machine/Tick.lean ====
section
/-!
DEFINITION. What happens by the passage of time alone: with no command waiting, one nanosecond passes. Everything that has a
row of its own in the table of operations and events is not done here.
-/

namespace Sys2Proof.Machine

/-- The counters of time advance by a nanosecond (R425). -/
def timePasses (s : State) : State := { s with now := s.now + ns1, up := s.up + 1 }

/-- An LEMC edge has passed since an earlier TS96: it is counted, and temperature corrections take effect (R49, R71). -/
def tickLemc (was : Nat) (s : State) : State :=
  if !s.domOn .intake || s.jin.lemc.isNone || lemcEdges s s.now = lemcEdges s was then s
  else skewAtEdge (embCount s)

/-- Pulses of SYSREF, PPS_OUT and SNAP_OUT end; in Containment the outputs hold (R33, R47, R432, R502). -/
def tickPins (s : State) : State :=
  if s.err.contained then s
  else
    let s1 := if s.jin.pulseEnd ≤ s.up then { s with pins := { s.pins with sysref := 0 } } else s
    let s2 := match s1.clk.ppsEnd with
      | some t => if t ≤ s1.up then ppsPin (s1.modClk (fun c => { c with ppsEnd := none })) else s1
      | none => s1
    if s2.pins.snapOut = .high ∧ s2.shf.outEnd ≤ s2.up then { s2 with pins := { s2.pins with snapOut := .low } } else s2

/-- A voltage write that no timeout has been reported for is acknowledged (R423; DESIGN CHOICE, log 45: by 200 µs at the latest). -/
def tickAvs (s : State) : State :=
  match s.clk.avsAt with
  | some t => if t + 200000 < s.up then avsAck s else s
  | none => s

/-- TBS's registers that follow time: the slew and the length of a holdover (Table 15.8). -/
def tickTbs (s : State) : State :=
  let s1 := if s.clk.slew.isSome then steerRegs s else s
  if tbsState s1 = 3 ∨ tbsState s1 = 5 then s1.wr F_TBS_HOLDOVER_S (min 4294967295 ((s1.up - s1.clk.hoStart) / 1000000000)) else s1

/-- The age of TIM's calibration in ms (Table 6.7). -/
def tickTim (s : State) : State :=
  if s.domOn .intake ∧ s.up % 1000000 = 0 then s.bump F_TIM_CAL_STATUS_AGE else s

/-- Corrected errors of engines that are a second old leave the count of the last second (Table 8.10). -/
def tickEng (s : State) : State :=
  let old := s.eng.ces.filter (fun c => decide (c.2 + 1000000000 ≤ s.up))
  if old.isEmpty then s
  else
    let s1 := s.modEng (fun e => { e with ces := e.ces.filter (fun c => decide (s.up < c.2 + 1000000000)) })
    old.foldl (fun t c => t.wr (F_ENG_E_CE_LAST_S (c.1 / 8) (c.1 % 8)) (min 65535 (cesNow t c.1).length)) s1

/-- DECAY of a running map takes effect at each epoch boundary (R262, Table 9.8). -/
def tickMaps (was : Nat) (s : State) : State :=
  if !mapsRun s then s
  else
    (List.range 16).foldl (fun t m =>
      match (t.mp m).t0 with
      | none => t
      | some t0 =>
        if mapOn t m && decide ((t.now - t0) / max 1 (mapEpoch t m) ≠ (was - t0) / max 1 (mapEpoch t m)) then
          t.applyReg (R_MAP_DECAY m)
        else t) s

/-- A nanosecond passes; none is counted while the device is held in reset. -/
def tick (s : State) : State :=
  if !s.pins.released then s
  else
    let was := s.now
    let s1 := tickAvs (tickTbs (tickPins (tickLemc was (timePasses s))))
    let s2 := tickMaps was (tickEng (tickTim s1))
    let s3 := if trgActive s2 then trgRefresh (notesSettle (pipeRun s2)) else s2
    if s3.err.contained then (List.range 8).foldl grpContain s3 else s3

end Sys2Proof.Machine
end

