-- ==== Sys2Proof/Safety.lean ====
section
/-!
DEFINITION. What counts as a safe run: every step goes on, and what is stored stays in its one canonical form. And the words in
which claims speak of commands: a packet that starts, completes or waits; a register write that reaches its block.
-/

namespace Sys2Proof.Machine

/-- A step neither faults nor refuses. -/
def stepsOn (s : State) : Bool := match step s with | .next _ => true | _ => false

/-- The registers, the shadowed values in effect, DRAM, host memory and on-chip SRAM stand in canonical form: addresses strictly
rising, no entry equal to what an unlisted address reads as. -/
structure State.Canonical (s : State) : Prop where
  regs : cellWf regReset s.regs = true
  eff : cellWf regReset s.eff = true
  dram : Memory.wf s.dram = true
  host : Memory.wf s.host = true
  sram : sramWf s.sram = true


/-- No block's chute of error records holds more than its 4 entries (R490, R491). -/
def chutesFit (l : List (List ErrRec)) : Bool := l.all (fun c => decide (c.length ≤ 4))

/-- Each of the log's 4096 slots holds one record at most (R492). -/
def logFits (l : List (Nat × LogSlot)) : Bool := l.all (fun e => decide (e.1 < 4096)) && decide ((l.map (fun e => e.1)).Nodup)

/-- A sound state: its stores stand in canonical form, the TS96 counter holds whole nanoseconds (R425), and chutes and log hold no
more than fits (R490, R492). -/
structure State.Sound (s : State) : Prop where
  canon : s.Canonical
  whole : s.now % ns1 = 0
  chutes : chutesFit s.err.chutes = true
  log : logFits s.err.log = true

/-- The parts of the block that the manual numbers have each their place: links, filter units, inputs and measurement units, barns,
channels, mailbox sets, layers, the chutes of error records, functions. -/
structure State.Shaped (s : State) : Prop where
  links : s.jin.links.length = 12
  units : s.dfu.length = 12
  inputs : s.tim.ins.length = 65
  measures : s.tim.mus.length = 16
  spares : s.eng.act.length = 12
  dma : s.dma.chans.length = 128
  memory : s.mem.chans.length = 8
  sets : s.mbx.sets.length = 32
  layers : s.dis.layers.length = 3
  chutes : s.err.chutes.length = 17
  fns : s.fcp.fns.length = 17

/-- Rows that reset the device, or that may write GLB_SOFT_RESET and so reset it. -/
def mayReset : Instr → Bool
  | .powerOnReset _ _ | .railLoss | .pinReset | .softReset _ _ => true
  | .bar0HostWrite _ _ _ | .registerWrite _ _ _ _ | .regWrite _ | .regRmw _ => true
  | _ => false

/-- Rows that may write DRAM: those that store samples, results, records and windows, those that reset, clear or train the
memory, and those that may set such work going. -/
def mayStore : Instr → Bool
  | .admissionRerun .. | .aggregationTick .. | .alarmFire .. | .armTakeEffect .. | .bar0HostWrite .. | .bar2Access ..
  | .capAutoRebuild .. | .capConfig .. | .capRebuild .. | .claimCmd .. | .claimRead .. | .claimRelease ..
  | .cmpBlockBoundary .. | .cmpJobEnd .. | .cmpListExhausted .. | .commandFetch .. | .commandTimeout ..
  | .commitUnitError .. | .ctxClose .. | .dfuOutput .. | .dmaBurst .. | .dmaChanClose .. | .dmaStart ..
  | .dmaTransferComplete .. | .dramRead .. | .dramTrainingDone .. | .engineFault .. | .engineWatchdog ..
  | .finisherRecord .. | .flickerTick .. | .flushCatchupDone .. | .functionReset .. | .gapNoneHeartbeat ..
  | .granuleDrain .. | .jobCommit .. | .jobSeal .. | .jtagInstruction .. | .linkReset .. | .mapClear ..
  | .mapClearStart .. | .mapEnableWrite .. | .mapEpochFinal .. | .mapSet .. | .memSpare .. | .pinReset ..
  | .powerOnReset .. | .pstateSet .. | .railLoss .. | .recordToWatch .. | .regRmw .. | .regWrite .. | .registerWrite ..
  | .restToWatch .. | .scrubRead .. | .segmentHandoff .. | .selfRefreshExit .. | .softReset .. | .timeStepApply ..
  | .transitionRecordHandoff .. | .trigDisarm .. | .trigForce .. | .vfEnable .. | .wakeNAssert .. | .watchToRecord ..
  | .watchToRest .. => true
  | _ => false

/-- The row that gives a context a privilege (R274). -/
def isCtxPriv : Instr → Bool
  | .ctxPriv _ => true
  | _ => false

/-- Rows that may set or step the TS96 counter: the resets that power brings (R29), and the ways R431 gives a program. -/
def mayMoveTime : Instr → Bool
  | .powerOnReset .. | .railLoss | .pinReset | .timeSet _ | .timeStepApply | .ppsInEdge .. => true
  | _ => false

/-! ### Command packets -/

/-- The state in which a packet's command stands among those in flight. -/
def issued (op : Nat) (p : Packet) (s : State) : State := s.addInflight (inflightOf op p)

/-- Nothing keeps a packet's command from its row's own rules: its tag is not in flight (R284), R279 lets it start, its
reserved bits are 0 and its context is open and its function's (R287, steps 2 and 3). -/
def starts (op : Nat) (p : Packet) (s : State) : Bool :=
  (s.inflight? p.qid (pTag p)).isNone && mayStart (issued op p s) (inflightOf op p) && reservedOk p && ctxOk p s

/-- The row's command completes at once with a reply, after an effect that leaves `u`. -/
def Completes (i : Instr) (op : Nat) (p : Packet) (s : State) (r : Reply) (u : State) : Prop :=
  exec i s = .next (u.finish (inflightOf op p) r)

/-- The row's command takes effect, leaving `u`, and then waits for what its key names, with a deadline or a figure. -/
def Waits (i : Instr) (p : Packet) (s : State) (k : WaitKind) (key due : Nat) (u : State) : Prop :=
  exec i s = .next (u.modInflight p.qid (pTag p) (fun x => { x with kind := k, key := key, due := due }))

/-- It waits likewise, and tells its queue so with an intermediate entry (R285). -/
def Pends (i : Instr) (op : Nat) (p : Packet) (s : State) (k : WaitKind) (key due : Nat) (u : State) : Prop :=
  exec i s = .next ((u.modInflight p.qid (pTag p) (fun x => { x with kind := k, key := key, due := due })).writePending (inflightOf op p))

/-! ### The packet rows -/

/-- A row that is a command packet: its opcode (Table 10.6) and the packet. -/
def packetOf (i : Instr) : Option (Nat × Packet) :=
  match i with
  | .nop p => some (0x00, p)
  | .deviceInfo p => some (0x01, p)
  | .queueCreate p => some (0x02, p)
  | .queueDelete p => some (0x03, p)
  | .eventRoute p => some (0x04, p)
  | .abortCmd p => some (0x05, p)
  | .patchLoad p => some (0x06, p)
  | .patchStatus p => some (0x07, p)
  | .ctxOpen p => some (0x10, p)
  | .ctxClose p => some (0x11, p)
  | .ctxPriv p => some (0x12, p)
  | .ctxQuota p => some (0x13, p)
  | .contractRequest p => some (0x14, p)
  | .contractModify p => some (0x15, p)
  | .contractRelease p => some (0x16, p)
  | .contractStatus p => some (0x17, p)
  | .budgetQuery p => some (0x18, p)
  | .intakeConfig p => some (0x20, p)
  | .intakeLink p => some (0x21, p)
  | .intakeStart p => some (0x22, p)
  | .intakeStop p => some (0x23, p)
  | .intakeStatus p => some (0x24, p)
  | .sysrefSet p => some (0x25, p)
  | .laneTest p => some (0x26, p)
  | .cspiXfer p => some (0x27, p)
  | .dfuMode p => some (0x28, p)
  | .dfuCorr p => some (0x29, p)
  | .dfuSync p => some (0x2A, p)
  | .dfuPreset p => some (0x2B, p)
  | .resampleCfg p => some (0x2C, p)
  | .dfuStatus p => some (0x2D, p)
  | .dfuAnchor p => some (0x2E, p)
  | .trigArm p => some (0x30, p)
  | .trigDisarm p => some (0x31, p)
  | .trigForce p => some (0x32, p)
  | .topnoteSet p => some (0x33, p)
  | .heartSet p => some (0x34, p)
  | .heartLimits p => some (0x35, p)
  | .trigRoute p => some (0x36, p)
  | .trigOutSet p => some (0x37, p)
  | .baseSet p => some (0x38, p)
  | .placeSet p => some (0x39, p)
  | .placeStatus p => some (0x3A, p)
  | .baseStatus p => some (0x3B, p)
  | .capConfig p => some (0x40, p)
  | .capStatus p => some (0x41, p)
  | .claimCmd p => some (0x42, p)
  | .claimRelease p => some (0x43, p)
  | .segInfo p => some (0x44, p)
  | .claimRead p => some (0x45, p)
  | .siloLocate p => some (0x46, p)
  | .capRebuild p => some (0x47, p)
  | .chainLoad p => some (0x50, p)
  | .chainUnload p => some (0x51, p)
  | .chainStart p => some (0x52, p)
  | .chainRun p => some (0x53, p)
  | .chainStatus p => some (0x54, p)
  | .engStatus p => some (0x55, p)
  | .engUnfence p => some (0x56, p)
  | .engGuard p => some (0x57, p)
  | .pqLoad p => some (0x58, p)
  | .pqClock p => some (0x59, p)
  | .mapSet p => some (0x5A, p)
  | .mapClear p => some (0x5B, p)
  | .mapStatus p => some (0x5C, p)
  | .pqStatus p => some (0x5D, p)
  | .dmaChanOpen p => some (0x60, p)
  | .dmaChanClose p => some (0x61, p)
  | .dmaRingSet p => some (0x62, p)
  | .dmaStart p => some (0x63, p)
  | .dmaHalt p => some (0x64, p)
  | .dmaStatus p => some (0x65, p)
  | .dmaCopy p => some (0x66, p)
  | .cmpJob p => some (0x70, p)
  | .cmpResume p => some (0x71, p)
  | .cmpAbort p => some (0x72, p)
  | .cmpStatus p => some (0x73, p)
  | .memConfig p => some (0x80, p)
  | .memStatus p => some (0x81, p)
  | .memRelease p => some (0x82, p)
  | .memSpare p => some (0x83, p)
  | .memTrain p => some (0x84, p)
  | .clkSet p => some (0x90, p)
  | .clkStatus p => some (0x91, p)
  | .tbsRef p => some (0x92, p)
  | .tbsStatus p => some (0x93, p)
  | .tbsAck p => some (0x94, p)
  | .timeSet p => some (0x95, p)
  | .ppsOut p => some (0x96, p)
  | .disMode p => some (0xA0, p)
  | .disLayer p => some (0xA1, p)
  | .disFlip p => some (0xA2, p)
  | .disLut p => some (0xA3, p)
  | .disCrc p => some (0xA4, p)
  | .disStatus p => some (0xA5, p)
  | .mcvConfig p => some (0xB0, p)
  | .mcvSeq p => some (0xB1, p)
  | .mcvInject p => some (0xB2, p)
  | .mcvCal p => some (0xB3, p)
  | .mcvDac p => some (0xB4, p)
  | .mcvStatus p => some (0xB5, p)
  | .snapFire p => some (0xC0, p)
  | .snapRead p => some (0xC1, p)
  | .errRead p => some (0xC2, p)
  | .errAck p => some (0xC3, p)
  | .errInject p => some (0xC4, p)
  | .regRead p => some (0xD0, p)
  | .regWrite p => some (0xD1, p)
  | .regRmw p => some (0xD2, p)
  | .regPoll p => some (0xD3, p)
  | .pstateSet p => some (0xE0, p)
  | .pstateStatus p => some (0xE1, p)
  | .watchConfig p => some (0xE2, p)
  | _ => none

/-- The opcodes that Containment accepts (R287): 0x0x and 0xDx, CTX_CLOSE, CONTRACT_STATUS and BUDGET_QUERY, the CAP opcodes of
R206, 0xCx and PSTATE_STATUS. -/
def containOps (op : Nat) : Bool :=
  op / 16 == 0 || op / 16 == 13 || op / 16 == 12
    || [0x11, 0x17, 0x18, 0x41, 0x44, 0x45, 0x46, 0xE1].contains op

/-- The checks of R287 that the opcodes share are passed: the command starts; the function and privilege rules of its opcode are
met (step 3); Containment lets it in; and the domain of its block is not off (step 6, R532). -/
def passes (op : Nat) (pfOnly : Bool) (priv : Option Nat) (dom : Option Dom) (p : Packet) (s : State) : Bool :=
  starts op p s && (!pfOnly || p.func == 0) && (match priv with | some b => s.hasPriv (pCtx p) b | none => true)
    && (!s.err.contained || containOps op) && (match dom with | some d => s.dom d != 0 | none => true)

/-! ### Register writes -/

/-- The state that a register write finds: a write of the host brings HOSTLINK out of retention (R31). -/
def arrived (m : Nat) (s : State) : State := if isHost m then hostAccess s else s

/-- A master's write of a register takes effect: a function under R272, another under Table 1.4 unless it is a fenced engine
(R231), and the block has power (R20). -/
def reaches (m a : Nat) (s : State) : Bool :=
  (if isHost m then ((arrived m s).fn (m - 1)).enabled && regCtxDirect (arrived m s) (m - 1) else !s.blocked m && mayReach m a)
    && (arrived m s).dom (domOf a) != 0

end Sys2Proof.Machine
end

