-- ==== Sys2Proof/Certificates/Slice0/Obligations.lean ====
section
/-!
DEFINITION. The statements for the provers. Where a premise says that registers stand in canonical form (`cellWf`), it is
what every step keeps from a sound state (`Obligations.StepKeepsSound`).
-/

open Sys2Proof Sys2Proof.Machine

/-- INTAKE_CONFIG, INTAKE_LINK and SYSREF_SET (R40 to R48, R64): with valid parameters and, for the first two, the intake
stopped, they complete with OK and the registers hold the packet's values; RBD 255 asks INTAKE_START to choose it. -/
def Obligations.IntakeSettingsAreStored : Prop :=
  ∀ (p : Packet) (s : State), cellWf regReset s.regs = true →
    (passes 0x20 true none (some .intake) p s = true → jinRun s = false → intakeConfigValid p s = true →
      ∃ u, Completes (.intakeConfig p) 0x20 p s { st := .ok } u ∧ u.rd F_JIN_LINK_EN_LINK_EN = pf p 2 0 12 ∧
        u.rd F_JIN_PARAMS_L = pf p 2 12 1 ∧ u.rd F_JIN_PARAMS_NP = pf p 2 13 1 ∧ u.rd F_JIN_PARAMS_S = pf p 2 14 2 ∧
        u.rd F_JIN_PARAMS_CS = pf p 2 16 3 ∧ u.rd F_JIN_PARAMS_OFFSET_BIN = pf p 2 19 1 ∧ u.rd F_JIN_LANE_RATE_RATE = pf p 3 0 16 ∧
        u.rd F_JIN_TS_PERIOD_LO_FRAC = pdw p 5 ∧ u.rd F_JIN_TS_PERIOD_HI_NS = pf p 6 0 16 ∧ u.rd F_JIN_RBD_RBD = pf p 7 0 8 ∧
        (∀ k, k < 12 → u.rd (F_JIN_L_CFG_INTERLEAVE k) = pf p 4 (2 * k) 2) ∧ (u.jin.autoRbd = true ↔ pf p 7 0 8 = 255) ∧
        u.dram = s.dram ∧ u.pins = s.pins) ∧
    (passes 0x21 true none (some .intake) p s = true → pf p 2 0 4 ≤ 11 →
      pb p 2 31 = true ∨ (jinRun s = false ∧ orderOk (s.rd (F_JIN_L_CFG_INTERLEAVE (pf p 2 0 4))) (pf p 2 8 8) = true) →
      ∃ u, Completes (.intakeLink p) 0x21 p s { st := .ok } u ∧ u.rd (F_JIN_L_LAT_COMP_LAT_COMP (pf p 2 0 4)) = pdw p 3 ∧
        (pb p 2 31 = false → u.rd (F_JIN_L_CFG_LANE_SWAP (pf p 2 0 4)) = pf p 2 4 1 ∧ u.rd (F_JIN_L_CFG_POL (pf p 2 0 4)) = pf p 2 5 2 ∧
          u.rd (F_JIN_L_CFG_PHASE_ORDER (pf p 2 0 4)) = pf p 2 8 8) ∧
        (pb p 2 31 = true → ∀ f : Fld, f.addr ≠ R_JIN_L_LAT_COMP (pf p 2 0 4) → f.addr ≠ R_HIF_INFLIGHT → u.rd f = s.rd f) ∧
        u.jin = s.jin) ∧
    (passes 0x25 true none (some .intake) p s = true → periodOk (pdw p 3) (s.rd F_JIN_LANE_RATE_RATE) (jinE s) = true → 1 ≤ pf p 2 8 8 →
      ∃ u, Completes (.sysrefSet p) 0x25 p s { st := .ok } u ∧ u.rd F_JIN_SYSREF_CTRL_MODE = pf p 2 0 2 ∧
        u.rd F_JIN_SYSREF_CTRL_OUT_EN = pf p 2 2 6 ∧ u.rd F_JIN_SYSREF_CTRL_PULSE_W = pf p 2 8 8 ∧
        u.rd F_JIN_SYSREF_CTRL_COUNT = pf p 2 16 16 ∧ u.rd F_JIN_SYSREF_PERIOD_PERIOD = pdw p 3 ∧ u.rd F_JIN_SYSREF_DLY_DLY = pf p 4 0 30 ∧
        (sysrefBusy s = true → u.eff = s.eff) ∧
        (cellWf regReset s.eff = true → sysrefBusy s = false → ∀ f : Fld, f.addr ∈ sysrefRegs → u.rdE f = u.rd f))

/-- INTAKE_START, INTAKE_STOP, INTAKE_STATUS, LANE_TEST, CSPI_XFER and the ends of a lane test and of a transfer (R50, R60, R63,
R64): a start sets RUN, shows the enabled links as filling and waits for them, and while RUN is set completes at once; a stop clears
RUN and every link's state; the status gives the link's registers and clears its counters only when asked; a lane test sets its
selection and waits for its time, after which the selection is 0 again and no test waits; a transfer takes the port and drives its
CS line, and its end frees both.

LANE_LOCK_LOSS, JIN_BLOCK_ARRIVAL, LINK_RELOCK and JIN_RELEASE (R50, R54 to R57): a lane that loses lock takes its link out of
UP into fill; an invalid header is counted; a block of a locked lane enters the lane's elastic buffer; a link whose lanes all have
lock and arrive in the window is UP; a block that is due leaves the link, and before it is due none leaves. -/
def Obligations.IntakeRunsStopsTestsAndRelocks : Prop :=
  (∀ (p : Packet) (s : State), cellWf regReset s.regs = true →
    (passes 0x22 true none (some .intake) p s = true → jinRun s = true →
      Completes (.intakeStart p) 0x22 p s (startReply s .ok) (issued 0x22 p s)) ∧
    (passes 0x22 true none (some .intake) p s = true → jinRun s = false → startAllowed s = true → enLinks s ≠ [] →
      ∃ u, Waits (.intakeStart p) p s .intakeStart 0 (s.up + (if pf p 2 0 16 = 0 then 100 else pf p 2 0 16) * 1000000) u ∧
        u.rd F_JIN_CTRL_RUN = 1 ∧ (∀ k ∈ enLinks s, u.rd (F_JIN_L_STATUS_FILLING k) = 1) ∧ u.jin.pulseNew = false) ∧
    (passes 0x23 true none (some .intake) p s = true → s.on F_JIN_STATUS_ARMED = false →
      ∃ u, Completes (.intakeStop p) 0x23 p s { st := .ok } u ∧ u.rd F_JIN_CTRL_RUN = 0 ∧ u.rd F_JIN_STATUS_UP = 0 ∧
        u.rd F_JIN_STATUS_ALIGNED = 0 ∧ u.jin.lemc = none ∧
        ∀ k, k < 12 → u.rd (F_JIN_L_STATUS_UP k) = 0 ∧ u.rd (F_JIN_L_STATUS_LATE k) = 0 ∧ u.rd (F_JIN_L_STATUS_FILLING k) = 0 ∧
          ∀ f ∈ linkCounters k, u.rd f = s.rd f) ∧
    (passes 0x24 false none (some .intake) p s = true → pf p 2 0 4 ≤ 11 →
      ∃ u, Completes (.intakeStatus p) 0x24 p s (okR (s.reg (R_JIN_L_STATUS (pf p 2 0 4))).toNat (s.reg (R_JIN_L_CRC_ERR (pf p 2 0 4))).toNat
          (s.reg (R_JIN_L_SH_ERR (pf p 2 0 4))).toNat (s.reg (R_JIN_L_LOSS (pf p 2 0 4))).toNat) u ∧
        (pb p 2 8 = false → u = issued 0x24 p s) ∧ (pb p 2 8 = true → ∀ f ∈ linkCounters (pf p 2 0 4), u.rd f = 0)) ∧
    (passes 0x26 true none (some .intake) p s = true → jinRun s = false →
      ∃ u, Waits (.laneTest p) p s .laneTest 0 (s.up + pf p 2 16 16 * 1000000) u ∧ u.rd F_JIN_CTRL_PRBS_SEL = pf p 2 0 3 ∧
        u.jin.testMask = pf p 3 0 24) ∧
    (∀ errs unlocked, s.fcp.inflight.any (fun c => c.kind == .laneTest && decide (c.due ≤ s.up)) = true →
      ∃ t, exec (.laneTestEnd errs unlocked) s = .next t ∧ t.rd F_JIN_CTRL_PRBS_SEL = 0 ∧ t.jin.testMask = 0 ∧
        t.fcp.inflight.any (fun c => c.kind == .laneTest && c.key == 0) = false) ∧
    (passes 0x27 true none (some .intake) p s = true → 1 ≤ pf p 2 16 5 → pf p 2 16 5 ≤ 16 → s.on F_JIN_CSPI_CTRL_BUSY = false → s.jin.cspi = [] →
      ∃ u, Waits (.cspiXfer p) p s .cspi 0 0 u ∧ u.rd F_JIN_CSPI_CTRL_BUSY = 1 ∧ u.rd F_JIN_CSPI_CTRL_CS = pf p 2 0 3 ∧
        u.pins.cspiCsN = 255 - 2 ^ pf p 2 0 3) ∧
    (∀ miso j, s.on F_JIN_CSPI_CTRL_BUSY = true → s.jin.cspi = [j] →
      ∃ t, exec (.cspiTransferDone miso) s = .next t ∧ t.rd F_JIN_CSPI_CTRL_BUSY = 0 ∧ t.jin.cspi = [] ∧ t.pins.cspiCsN = 255)) ∧
  (∀ (s : State), cellWf regReset s.regs = true → s.domOn .intake = true → jinRun s = true →
    (∀ (lane : Nat) (what : LaneLock), lane < 24 → linkEn s (lane / 2) = true → (linkLanes s (lane / 2)).contains lane = true →
      ∃ t, exec (.laneLockLoss lane what) s = .next t ∧ t.rd (F_JIN_L_STATUS_UP (lane / 2)) = 0 ∧
        t.rd (F_JIN_L_STATUS_FILLING (lane / 2)) = 1 ∧ t.rd (laneBit 4 lane) = 0 ∧
        (s.on (F_JIN_L_STATUS_UP (lane / 2)) = true →
          t.rd (F_JIN_L_LOSS_LOSS (lane / 2)) = satInc (F_JIN_L_LOSS_LOSS (lane / 2)).w (s.rd (F_JIN_L_LOSS_LOSS (lane / 2))))) ∧
    (∀ (lane : Nat) (b : LaneBlock), lane < 24 → linkEn s (lane / 2) = true → (linkLanes s (lane / 2)).contains lane = true →
      b.valid = false → s.on (laneBit 2 lane) = false →
      ∃ t, exec (.jinBlockArrival lane b) s = .next t ∧ t.rd (laneBit 0 lane) = 1 ∧
        t.rd (F_JIN_L_SH_ERR_COUNT (lane / 2)) = satInc 32 (s.rd (F_JIN_L_SH_ERR_COUNT (lane / 2))) ∧ t.rd (laneBit 2 lane) = 0) ∧
    (∀ (lane n : Nat) (b : LaneBlock), lane < 24 → s.jin.lanes.length = 24 → linkEn s (lane / 2) = true →
      (linkLanes s (lane / 2)).contains lane = true → b.valid = true → b.marker = false → s.on (laneBit 2 lane) = true →
      s.on (laneBit 4 lane) = true → (s.lane lane).sinceMark = some n → n + 1 < 32 * jinE s →
      ((true :: (s.lane lane).headers).take 64 |>.filter (fun v => !v)).length < 16 →
      ∃ t, exec (.jinBlockArrival lane b) s = .next t ∧ (t.lane lane).sinceMark = some (n + 1) ∧
        (t.lane lane).buf = ((s.lane lane).buf ++ [(n, b.octets.map (fun o => Octet.mk o false))]).drop ((s.lane lane).buf.length - 31) ∧
        t.rd (laneBit 0 lane) = 1 ∧ t.dram = s.dram ∧ t.err = s.err) ∧
    (∀ (k : Nat), k < 12 → linkEn s k = true → s.on F_JIN_STATUS_ALIGNED = true → allEmb s k = true → (s.link k).dead = false →
      s.on (F_JIN_L_STATUS_UP k) = false → s.jin.autoRbd = false → arrivalCheck s k = none →
      ∃ t, exec (.linkRelock k) s = .next t ∧ t.rd (F_JIN_L_STATUS_UP k) = 1) ∧
    (∀ (k : Nat), k < 12 → linkEn s k = true → s.jin.links.length = 12 →
      (blockDue s k = true → ∃ t, exec (.jinRelease k) s = .next t ∧ (t.link k).blk = (s.link k).blk + 1 ∧ t.dram = s.dram ∧ t.err = s.err) ∧
      (blockDue s k = false → exec (.jinRelease k) s = .next s)))

/-- Writes of JIN_CTRL, JIN_SYSREF_ISSUE and JIN_CSPI_CTRL, and SYSREF_LAUNCH and SYSREF_PULSE_CHECK (R47, R49, R60, R63): RUN starts
the intake; RUN = 0 stops it, but while a capture is armed is refused; GO starts a pulse or a burst unless one is being
launched; GO of the SPI port takes the port unless it is busy; a launched pulse of a burst shows its TS96, drives the enabled
outputs and leaves one pulse less; the first pulse after RUN aligns the LEMC, and a later pulse on an edge leaves it and raises
nothing, unless it is not its burst's first and the period in effect is no multiple of the multiblock's. -/
def Obligations.IntakeRegisterWritesAndSysref : Prop :=
  ∀ (s : State), cellWf regReset s.regs = true →
    (∀ (m : Nat) (v : Word), reaches m R_JIN_CTRL s = true →
      (v.toNat.testBit 0 = true → jinRun s = false → v.toNat.testBit 1 = false →
        ∃ t, exec (.jinRunWrite m v) s = .next t ∧ t.rd F_JIN_CTRL_RUN = 1 ∧ ∀ k ∈ enLinks s, t.rd (F_JIN_L_STATUS_FILLING k) = 1) ∧
      (v.toNat.testBit 0 = false → jinRun s = true → s.on F_JIN_STATUS_ARMED = false →
        ∃ t, exec (.jinRunWrite m v) s = .next t ∧ t.rd F_JIN_CTRL_RUN = 0 ∧ t.rd F_JIN_STATUS_UP = 0 ∧ t.jin.lemc = none) ∧
      (v.toNat.testBit 0 = false → jinRun s = true → s.on F_JIN_STATUS_ARMED = true →
        ∃ t, exec (.jinRunWrite m v) s = .next t ∧ t.rd F_JIN_CTRL_RUN = s.rd F_JIN_CTRL_RUN ∧ t.rd F_JIN_STATUS_WRITE_REFUSED = 1)) ∧
    (∀ (m : Nat) (v : Word), reaches m R_JIN_SYSREF_ISSUE s = true → v.toNat.testBit 0 = true →
      (s.jin.pulses ≠ 0 → exec (.sysrefIssueGo m v) s = .next (arrived m s)) ∧
      (s.jin.pulses = 0 → s.rdE F_JIN_SYSREF_CTRL_MODE = 1 → ∃ t, exec (.sysrefIssueGo m v) s = .next t ∧ t.jin.pulses = 1 ∧ t.regs = (arrived m s).regs) ∧
      (s.jin.pulses = 0 → s.rdE F_JIN_SYSREF_CTRL_MODE = 2 →
        ∃ t, exec (.sysrefIssueGo m v) s = .next t ∧ t.jin.pulses = max 1 (s.rdE F_JIN_SYSREF_CTRL_COUNT) ∧ t.regs = (arrived m s).regs)) ∧
    (∀ (m : Nat) (v : Word), reaches m R_JIN_CSPI_CTRL s = true → v.toNat.testBit 31 = true →
      (s.on F_JIN_CSPI_CTRL_BUSY = true → ∃ t, exec (.cspiGo m v) s = .next t ∧ t.jin = (arrived m s).jin ∧ t.pins = s.pins) ∧
      (s.on F_JIN_CSPI_CTRL_BUSY = false → s.jin.cspi = [] → 1 ≤ bitsOf v.toNat 16 6 → bitsOf v.toNat 16 6 ≤ 32 →
        ∃ t, exec (.cspiGo m v) s = .next t ∧ t.rd F_JIN_CSPI_CTRL_BUSY = 1 ∧ t.pins.cspiCsN = 255 - 2 ^ bitsOf v.toNat 0 3)) ∧
    (s.domOn .intake = true → s.err.contained = false → s.jin.nextPulse ≤ s.up → s.jin.pulses ≠ 0 → s.rd F_JIN_SYSREF_CTRL_MODE = 2 →
      cellWf regReset s.eff = true →
      ∃ t, exec .sysrefLaunch s = .next t ∧ t.jin.pulses = s.jin.pulses - 1 ∧ t.jin.pulseNew = true ∧
        t.pins.sysref = (if tpllBypass s = true then 0 else s.rd F_JIN_SYSREF_CTRL_OUT_EN) ∧ t.jin.nextPulse = s.up + s.rd F_JIN_SYSREF_PERIOD_PERIOD ∧
        (s.now < 2 ^ 96 → t.rdTs (R_JIN_SYSREF_LAST_W 0) = s.now)) ∧
    (s.domOn .intake = true → jinRun s = true → s.jin.pulseNew = true →
      (s.jin.lemc = none →
        ∃ t, exec .sysrefPulseCheck s = .next t ∧ t.jin.lemc = some (s.rdTs (R_JIN_SYSREF_LAST_W 0)) ∧ t.rd F_JIN_STATUS_ALIGNED = 1 ∧
          t.jin.pulseNew = false) ∧
      (∀ t0, s.jin.lemc = some t0 → onEdge s (s.rdTs (R_JIN_SYSREF_LAST_W 0)) t0 = true →
        s.jin.later = false ∨ periodOk (s.rdE F_JIN_SYSREF_PERIOD_PERIOD) (s.rd F_JIN_LANE_RATE_RATE) (jinE s) = true →
        ∃ t, exec .sysrefPulseCheck s = .next t ∧ t.jin.lemc = some t0 ∧ t.jin.pulseNew = false ∧ t.regs = s.regs ∧ t.err = s.err))

/-- DFU_MODE, DFU_SYNC, DFU_PRESET, RESAMPLE_CFG, DFU_STATUS and DFU_ANCHOR (R75, R82, R85, R87, R73, R93): the units of the mask take
the mode; their histories clear, at once where the LEMC is not aligned, else from a pending DSYNC; a preset is shown in DFU_STATUS; the
resampler's fields are stored, and while armed no value in effect changes; the status gives the unit's registers; an anchoring read
completes with the window that stands ready, or waits 10 s at most for one. -/
def Obligations.FilterUnitCommandsComplete : Prop :=
  ∀ (p : Packet) (s : State), cellWf regReset s.regs = true → s.dfu.length = 12 →
    (passes 0x28 true none (some .intake) p s = true → s.on F_JIN_STATUS_ARMED = false →
      modeValid (pf p 2 12 3) (pf p 2 15 2) (pdw p 3) (pf p 3 0 5) (pf p 3 8 2) = true →
      pf p 2 12 3 ≠ 4 ∨ pdw p 3 = pf p 3 0 5 + 256 * pf p 3 8 2 →
      ∃ r u, Completes (.dfuMode p) 0x28 p s r u ∧ r.st = .ok ∧
        ∀ n ∈ unitsOf (pf p 2 0 12), u.rd (F_DFU_MODE_DEC_MODE n) = pf p 2 12 3 ∧ u.rd (F_DFU_MODE_FMT n) = pf p 2 15 2 ∧
          u.rd (F_DFU_MODE_SHARP n) = pf p 2 17 1 ∧ u.rd (F_DFU_MODE_INPUT_EN n) = pf p 2 18 4 ∧
          (pf p 2 12 3 ≠ 4 → u.rd (F_DFU_DEC_FACTOR_D n) = pdw p 3) ∧
          (pf p 2 12 3 = 4 → u.rd (F_DFU_MODE_A n) = pf p 3 0 5 ∧ u.rd (F_DFU_MODE_B n) = pf p 3 8 2) ∧
          u.rd (F_DFU_STATUS_SETTLED n) = 0 ∧ (u.du n).outq = [] ∧ (u.du n).slots = (s.du n).slots.map Slot.cleared) ∧
    (passes 0x2A true none (some .intake) p s = true → s.on F_JIN_STATUS_ARMED = false →
      ∃ u, Completes (.dfuSync p) 0x2A p s { st := .ok } u ∧
        ∀ n ∈ unitsOf (pf p 2 0 12), if s.on F_JIN_STATUS_ALIGNED = true then (u.du n).syncPend = true
          else (u.du n).syncPend = false ∧ (u.du n).settled = 0 ∧ (u.du n).slots = (s.du n).slots.map Slot.cleared) ∧
    (passes 0x2B true none (some .intake) p s = true → s.on F_JIN_STATUS_ARMED = false → pf p 2 12 4 ≤ 3 →
      (pf p 2 12 4 = 2 → ∀ n ∈ unitsOf (pf p 2 0 12), (s.du n).saved.isSome = true) →
      ∃ u, Completes (.dfuPreset p) 0x2B p s { st := .ok } u ∧ u.dram = s.dram ∧
        ∀ n ∈ unitsOf (pf p 2 0 12), u.rd (F_DFU_STATUS_PRESET n) = pf p 2 12 4 ∧ u.rd (F_DFU_STATUS_SETTLED n) = 0 ∧
          (pf p 2 12 4 = 3 → u.rd (F_DFU_CTRL_TESTGEN_EN n) = 1)) ∧
    (passes 0x2C true none (some .intake) p s = true → pf p 2 0 4 ≤ 11 → pf p 2 13 4 ≤ 12 → rsStepOk p (issued 0x2C p s) = true →
      s.on F_JIN_STATUS_ARMED = false ∨ rsFrozenSame p s = true →
      ∃ u, Completes (.resampleCfg p) 0x2C p s (okR (s.reg (R_DFU_RS_STEP_LO (pf p 2 0 4))).toNat (s.reg (R_DFU_RS_STEP_HI (pf p 2 0 4))).toNat 0 0) u ∧
        u.rd (F_DFU_RS_CTRL_EN (pf p 2 0 4)) = pf p 2 4 1 ∧ u.rd (F_DFU_RS_CTRL_FUND_SRC (pf p 2 0 4)) = pf p 2 5 3 ∧
        u.rd (F_DFU_RS_CTRL_N_CODE (pf p 2 0 4)) = pf p 2 8 3 ∧ u.rd (F_DFU_RS_CTRL_LOCK (pf p 2 0 4)) = pf p 2 11 1 ∧
        u.rd (F_DFU_RS_CTRL_SRC (pf p 2 0 4)) = pf p 2 12 1 ∧ u.rd (F_DFU_RS_CTRL_HB (pf p 2 0 4)) = pf p 2 13 4 ∧
        u.rd (F_DFU_RS_MAXDEV_MAXDEV (pf p 2 0 4)) = pf p 3 0 10 ∧ u.rd (F_DFU_RS_NOMINAL_LO_P_LO (pf p 2 0 4)) = pdw p 4 ∧
        u.rd (F_DFU_RS_NOMINAL_HI_P_HI (pf p 2 0 4)) = pf p 5 0 8 ∧
        (s.on F_JIN_STATUS_ARMED = true → u.eff = s.eff ∧ u.dfu = s.dfu)) ∧
    (passes 0x2D false none (some .intake) p s = true → pf p 2 0 4 ≤ 11 →
      ∃ r u, Completes (.dfuStatus p) 0x2D p s r u ∧ r.st = .ok ∧ r.r0 = (s.reg (R_DFU_STATUS (pf p 2 0 4))).toNat ∧
        r.r2 = (s.reg (R_DFU_RS_COUNTS (pf p 2 0 4))).toNat ∧ r.r3 = (s.reg (R_DFU_RS_CYCLE_LO (pf p 2 0 4))).toNat ∧
        (pb p 2 8 = false → u = issued 0x2D p s) ∧ (pb p 2 8 = true → ∀ f ∈ dfuCounters (pf p 2 0 4), u.rd f = 0)) ∧
    (passes 0x2E true none (some .intake) p s = true → pf p 2 0 4 ≤ 11 →
      (pb p 2 8 = false → ∃ u, Completes (.dfuAnchor p) 0x2E p s { st := .ok } u ∧ u.rd (F_DFU_CTRL_ANCHOR_EN (pf p 2 0 4)) = pf p 2 4 1) ∧
      (pb p 2 8 = true → s.on (F_DFU_STATUS_ANCHOR_READY (pf p 2 0 4)) = true →
        ∃ v u, Completes (.dfuAnchor p) 0x2E p s (anchReply v (pf p 2 0 4) (pf p 2 6 2)) u ∧ v.dfu = s.dfu ∧
          u.rd (F_DFU_STATUS_ANCHOR_READY (pf p 2 0 4)) = 0 ∧ u.rd (F_DFU_CTRL_ANCHOR_EN (pf p 2 0 4)) = pf p 2 4 1 ∧
          ∀ f : Fld, f.addr ≠ R_DFU_CTRL (pf p 2 0 4) → f.addr ≠ R_HIF_INFLIGHT → v.rd f = s.rd f) ∧
      (pb p 2 8 = true → s.on (F_DFU_STATUS_ANCHOR_READY (pf p 2 0 4)) = false →
        ∃ u, Waits (.dfuAnchor p) p s .anchor (pf p 2 0 4) ((s.up + 10000000000) * 4 + pf p 2 6 2) u ∧
          u.rd (F_DFU_CTRL_ANCHOR_EN (pf p 2 0 4)) = pf p 2 4 1))

/-- Corrections (R70 to R72, R74): DFU_CORR and DFU_CORR_COMMIT.GO leave a commit pending while the LEMC is aligned, and apply it at
once where it is not; each pending commit whose edge has passed applies, so that the offset and gain in effect are the shadow, and
one whose edge has not passed stays pending; a temperature is shown in every unit, and while the LEMC is aligned the skews it gives
wait for the edge; a closed anchoring window with no member, or a bad one, leaves the corrections as they are, and a good one moves
the offset of each member of its scope by 64 LSB at most and its gain by 32 at most, and asks for a commit. -/
def Obligations.CorrectionsCommitAtTheEdge : Prop :=
  ∀ (p : Packet) (s : State), cellWf regReset s.regs = true → s.dfu.length = 12 →
    (passes 0x29 true none (some .intake) p s = true → pf p 2 0 4 ≤ 11 →
      (pb p 2 8 = false → ∃ u, Completes (.dfuCorr p) 0x29 p s { st := .ok } u ∧ u.eff = s.eff ∧
        ∀ m, m < 4 → pb p 2 (4 + m) = true → u.reg (R_DFU_M_OG (pf p 2 0 4) m) = p.dws.getD (3 + 2 * m) 0 ∧
          u.reg (R_DFU_M_SKEW (pf p 2 0 4) m) = p.dws.getD (4 + 2 * m) 0) ∧
      (pb p 2 8 = true → s.on F_JIN_STATUS_ALIGNED = true →
        ∃ u, Waits (.dfuCorr p) p s .corr (pf p 2 0 4) 0 u ∧ u.rd (F_DFU_STATUS_CORR_PENDING (pf p 2 0 4)) = 1 ∧ u.eff = s.eff) ∧
      (pb p 2 8 = true → s.on F_JIN_STATUS_ALIGNED = false →
        ∃ r u, Completes (.dfuCorr p) 0x29 p s r u ∧ r.st = .ok ∧ u.rd (F_DFU_STATUS_CORR_PENDING (pf p 2 0 4)) = 0 ∧
          ∀ m, m < 4 → pb p 2 (4 + m) = true → u.reg (R_DFU_M_OG_EFF (pf p 2 0 4) m) = p.dws.getD (3 + 2 * m) 0)) ∧
    (∀ (m : Nat) (v : Word), reaches m R_DFU_CORR_COMMIT s = true →
      (s.on F_JIN_STATUS_ALIGNED = true → ∃ t, exec (.dfuCorrCommitGo m v) s = .next t ∧ t.eff = (arrived m s).eff ∧
        ∀ n, n < 12 → v.toNat.testBit n = true → t.rd (F_DFU_STATUS_CORR_PENDING n) = 1) ∧
      (s.on F_JIN_STATUS_ALIGNED = false → ∃ t, exec (.dfuCorrCommitGo m v) s = .next t ∧
        ∀ n k, n < 12 → k < 4 → v.toNat.testBit n = true →
          t.rd (F_DFU_STATUS_CORR_PENDING n) = 0 ∧ t.reg (R_DFU_M_OG_EFF n k) = s.reg (R_DFU_M_OG n k))) ∧
    (s.domOn .intake = true →
      ∃ t, exec .corrApply s = .next t ∧ ∀ n m, n < 12 → m < 4 → s.on (F_DFU_STATUS_CORR_PENDING n) = true →
        if edgePassed s (s.du n).corrEdge = true then
          t.rd (F_DFU_STATUS_CORR_PENDING n) = 0 ∧ t.reg (R_DFU_M_OG_EFF n m) = s.reg (R_DFU_M_OG n m)
        else t.rd (F_DFU_STATUS_CORR_PENDING n) = 1 ∧ t.reg (R_DFU_M_OG_EFF n m) = s.reg (R_DFU_M_OG_EFF n m)) ∧
    (∀ T, s.domOn .intake = true →
      ∃ t, exec (.dfuTempUpdate T) s = .next t ∧ (∀ n, n < 12 → t.rd (F_DFU_TEMP_T_NOW n) = T % 65536) ∧ t.eff = s.eff ∧
        (s.on F_JIN_STATUS_ALIGNED = true → ∀ n m, n < 12 → m < 4 →
          (t.du n).skewPend.isSome = true ∧ t.rd (F_DFU_M_SKEW_EFF_SKEW_EFF n m) = s.rd (F_DFU_M_SKEW_EFF_SKEW_EFF n m))) ∧
    (∀ n, s.domOn .intake = true → s.err.contained = false → n < 12 → s.on (F_DFU_STATUS_ANCHOR_READY n) = true →
      (anchMembers s n = [] → ∃ t, exec (.anchorUpdate n) s = .next t ∧ t.rd (F_DFU_STATUS_ANCHOR_READY n) = 0 ∧
        ∀ m, m < 4 → t.reg (R_DFU_M_OG n m) = s.reg (R_DFU_M_OG n m)) ∧
      (anchMembers s n ≠ [] → anchBad s n = true → (s.du n).discards < 2 →
        ∃ t, exec (.anchorUpdate n) s = .next t ∧ t.rd (F_DFU_STATUS_ANCHOR_READY n) = 0 ∧ (t.du n).discards = (s.du n).discards + 1 ∧
          ∀ m, m < 4 → t.reg (R_DFU_M_OG n m) = s.reg (R_DFU_M_OG n m)) ∧
      (anchMembers s n ≠ [] → anchBad s n = false →
        ∃ t, exec (.anchorUpdate n) s = .next t ∧ t.rd (F_DFU_STATUS_ANCHOR_READY n) = 0 ∧ (t.du n).discards = 0 ∧
          (s.on F_JIN_STATUS_ALIGNED = true → t.rd (F_DFU_STATUS_CORR_PENDING n) = 1) ∧
          ∀ m, m < 4 → if m ∈ anchScope s n then
              t.rd (F_DFU_M_OG_GAIN n m) ≤ s.rd (F_DFU_M_OG_GAIN n m) + 32 ∧ s.rd (F_DFU_M_OG_GAIN n m) ≤ t.rd (F_DFU_M_OG_GAIN n m) + 32 ∧
              (sext 16 (t.rd (F_DFU_M_OG_OFS n m)) - sext 16 (s.rd (F_DFU_M_OG_OFS n m))).natAbs ≤ 64
            else t.reg (R_DFU_M_OG n m) = s.reg (R_DFU_M_OG n m)))

/-- DSYNC, primary outputs and the resampler's cycles (R80, R82, R87, R88): GO leaves a DSYNC pending while the LEMC is aligned, clears
the histories at once where it is not, and while armed is refused; each pending DSYNC whose edge has passed clears its unit's
histories; where no primary output forms, a coefficient parity error is still raised; where one forms, the oldest leaves its unit's
queue and is delivered, with SUSPECT where a second fetch failed; a report that is due leaves its chute for the filter units and the
converter; a cycle start shows its cycle, its start and its step and takes its samples; without a report for 2 × P the resampler
coasts and shows FUND_LOST. -/
def Obligations.DsyncOutputsAndResamplerCycles : Prop :=
  ∀ (s : State), cellWf regReset s.regs = true → s.dfu.length = 12 →
    (∀ (m : Nat) (v : Word), reaches m R_DFU_SYNC s = true →
      (s.on F_JIN_STATUS_ARMED = true → ∃ t, exec (.dfuSyncGoWrite m v) s = .next t ∧ t.dfu = s.dfu ∧
        ∀ n, n < 12 → v.toNat.testBit n = true → t.rd (F_DFU_STATUS_WRITE_REFUSED n) = 1) ∧
      (s.on F_JIN_STATUS_ARMED = false → s.on F_JIN_STATUS_ALIGNED = true → ∃ t, exec (.dfuSyncGoWrite m v) s = .next t ∧
        ∀ n, n < 12 → (v.toNat.testBit n = true → (t.du n).syncPend = true) ∧ (v.toNat.testBit n = false → t.du n = s.du n)) ∧
      (s.on F_JIN_STATUS_ARMED = false → s.on F_JIN_STATUS_ALIGNED = false → ∃ t, exec (.dfuSyncGoWrite m v) s = .next t ∧
        ∀ n, n < 12 → (v.toNat.testBit n = true → (t.du n).syncPend = false ∧ (t.du n).settled = 0 ∧ (t.du n).outq = [] ∧
            (t.du n).slots = (s.du n).slots.map Slot.cleared ∧ t.rd (F_DFU_STATUS_SETTLED n) = 0) ∧
          (v.toNat.testBit n = false → t.du n = s.du n))) ∧
    (s.domOn .intake = true →
      ∃ t, exec .dsyncApply s = .next t ∧ ∀ n, n < 12 → (s.du n).syncPend = true →
        if edgePassed s (s.du n).syncEdge = true then
          (t.du n).syncPend = false ∧ (t.du n).slots = (s.du n).slots.map Slot.cleared ∧ (t.du n).settled = 0 ∧ (t.du n).outq = [] ∧
            t.rd (F_DFU_STATUS_SETTLED n) = 0
        else t.du n = s.du n) ∧
    (∀ n par v, n < 12 → s.domOn .intake = true → v = dfuRun n (par == 2) (linkDepth s n + 1) s →
      ((v.du n).outq = [] → exec (.dfuOutput n par) s = .next (drains (rsAll (coefParity v n par (nextLabel s n)) n))) ∧
      (∀ o os, (v.du n).outq = o :: os →
        exec (.dfuOutput n par) s = .next (drains (rsAll (outDeliver (coefParity (v.modDu n (fun d => { d with outq := os })) n par o.ts) n
          (o.marked (par == 2))) n)))) ∧
    (∀ f r, s.tim.reports.find? (fun x => x.fp == f) = some r → r.due ≤ s.now →
      exec (.periodReportArrival f) s = .next (mcvReport (dfuReport (s.modTim (fun t =>
        { t with reports := t.reports.eraseP (fun x => x.fp == f) })) r) r)) ∧
    (∀ n, n < 12 → s.domOn .intake = true → s.on (F_DFU_RS_CTRL_EN n) = true → s.jin.valid = true → (s.du n).rs.started = true →
      (s.du n).rs.step = 0 ∨ rsN s n ≤ (s.du n).rs.pos →
      ∃ v, exec (.resamplerCycleStart n) s = .next (drains (rsAll v n)) ∧ (v.du n).rs.pos = 0 ∧ (v.du n).rs.waiting = none ∧
        v.rdTs (R_DFU_RS_START_W n 0) = (v.du n).rs.sc % 2 ^ 96 ∧ v.rd64 (R_DFU_RS_STEP_LO n) (R_DFU_RS_STEP_HI n) = (v.du n).rs.step % 2 ^ 64 ∧
        ((s.du n).rs.step = 0 → v.rd64 (R_DFU_RS_CYCLE_LO n) (R_DFU_RS_CYCLE_HI n) = 0 ∧ (v.du n).rs.sc = (s.du n).rs.sc) ∧
        ((s.du n).rs.step ≠ 0 → v.rd64 (R_DFU_RS_CYCLE_LO n) (R_DFU_RS_CYCLE_HI n) = ((s.du n).rs.cyc + 1) % 2 ^ 64 ∧
          (v.du n).rs.step = (s.du n).rs.next)) ∧
    (∀ n e, n < 12 → s.domOn .intake = true → s.on (F_DFU_RS_CTRL_EN n) = true → (s.du n).rs.coasting = false → (s.du n).rs.last = some e →
      e + 2 * (if (s.du n).rs.accepted then (s.du n).rs.p else rsNominal s n) * 16777216 < s.now →
      ∃ t, exec (.resamplerCoast n) s = .next t ∧ (t.du n).rs.coasting = true ∧ t.rd (F_DFU_STATUS_FUND_LOST n) = 1 ∧
        t.rd (F_DFU_STATUS_RS_LOCKED n) = 0)

/-- TRIG_ARM, TRIG_DISARM, TRIG_FORCE and ARM_TAKE_EFFECT (R119 to R121): with a valid time, an intake that runs and room in the
budget, TRIG_ARM leaves TRG ARMED_PENDING and waits; the arm takes effect at the release edge and not before its time; TRIG_DISARM
completes with the decisions it discards and those counted, and in IDLE changes nothing; a force is one decision and tells whether it
was taken. -/
def Obligations.TriggerArmsDisarmsAndForces : Prop :=
  ∀ (p : Packet) (s : State), cellWf regReset s.regs = true →
    (passes 0x30 true none (some .intake) p s = true → pTs p 2 ≤ s.now + 60000000000 * ns1 → badNote (issued 0x30 p s) = none →
      jinRun s = true → trgState s = 0 → armBudget (issued 0x30 p s) (pCtx p) (mbps (rateG (issued 0x30 p s))) = none →
      ∃ u, Waits (.trigArm p) p s .arm 0 0 u ∧ u.rd F_TRG_STATUS_STATE = 1 ∧ u.trg.armAt = some (max (pTs p 2) s.now) ∧
        u.trg.armCtx = pCtx p ∧ u.dram = s.dram) ∧
    (∀ t ts, s.trg.armAt = some t → trgState s = 1 → s.domOn .intake = true → s.err.contained = false → fclkReady s = true →
      releaseEdge s = some ts →
      (lemcAtOrAfter s ts < lemcAtOrAfter s t → exec .armTakeEffect s = .next s) ∧
      (lemcAtOrAfter s t ≤ lemcAtOrAfter s ts → exec .armTakeEffect s = .next ((armEffect s ts).wake .arm 0
        (okR ((armEffect s ts).reg (R_TRG_ARM_W 0)).toNat ((armEffect s ts).reg (R_TRG_ARM_W 1)).toNat
          ((armEffect s ts).reg (R_TRG_ARM_W 2)).toNat ((armEffect s ts).rd F_TRG_ALIGN_ALIGN))))) ∧
    (passes 0x31 true none (some .intake) p s = true →
      Completes (.trigDisarm p) 0x31 p s (okR s.trg.pipe.length (s.reg R_TRG_DECISIONS_LO).toNat (s.reg R_TRG_DECISIONS_HI).toNat 0)
        (trgDisarm (issued 0x31 p s)) ∧ (trgState s = 0 → trgDisarm (issued 0x31 p s) = issued 0x31 p s)) ∧
    (passes 0x32 true none (some .intake) p s = true → 2 ≤ trgState s →
      ∃ d : Dec, d.ts = forceTime (issued 0x32 p s) ∧ d.cause = 0xFE ∧
        Completes (.trigForce p) 0x32 p s (okR d.ts (d.ts / ns1) (d.ts / ns1 / ns1) (b2n (decideOn (issued 0x32 p s) d).2))
          (decideOn (issued 0x32 p s) d).1)

/-- The trigger's configuration commands (Tables 4.5 and 5.7): outside a run, or with only the fields that may change in one, the
registers hold the packet's values; a command with COMMIT waits for the apply, one without completes at once; nothing takes
effect before the apply; the status commands give their counts and clear them only when asked. -/
def Obligations.TriggerConfigurationIsStored : Prop :=
  ∀ (p : Packet) (s : State), cellWf regReset s.regs = true →
    (passes 0x33 true none (some .intake) p s = true → topValid p s = true → pb p 2 9 = true ∨ trgRunning s = false →
      ∃ u, (pb p 2 8 = false → Completes (.topnoteSet p) 0x33 p s { st := .ok } u) ∧
        (pb p 2 8 = true → Waits (.topnoteSet p) p s .trgApply 0 0 u ∧ u.trg.applyAt = some (cdiv s.now half * half)) ∧
        u.eff = s.eff ∧ u.rd (F_TN_LEVEL_LEVEL_A (pf p 2 0 6)) = pf p 4 0 16 ∧ u.rd (F_TN_LEVEL_LEVEL_B (pf p 2 0 6)) = pf p 4 16 16 ∧
        u.rd (F_TN_HYST_HYST (pf p 2 0 6)) = pf p 5 0 16 ∧ u.rd (F_TN_TMIN_LO_T_LO (pf p 2 0 6)) = pdw p 6 ∧
        u.rd (F_TN_TMAX_HI_T_HI (pf p 2 0 6)) = pf p 9 0 16 ∧
        (pb p 2 9 = false → u.rd (F_TN_CFG_TYPE (pf p 2 0 6)) = pf p 3 0 4 ∧ u.rd (F_TN_CFG_SRC (pf p 2 0 6)) = pf p 3 16 8 ∧
          u.rd (F_TN_PMASK_LO_VALUE (pf p 2 0 6)) = pdw p 10) ∧
        (pb p 2 9 = true → u.reg (R_TN_CFG (pf p 2 0 6)) = s.reg (R_TN_CFG (pf p 2 0 6)))) ∧
    (passes 0x34 true none (some .intake) p s = true → termsOk (pdw p 3) = true → termsOk (pdw p 6) = true → trgRunning s = false →
      ∃ u, Completes (.heartSet p) 0x34 p s { st := .ok } u ∧ u.rd (F_HS_CTRL_STORE (pf p 2 0 4)) = pf p 2 4 1 ∧
        (u.reg (R_HS_B_TERMS (pf p 2 0 4) 0)).toNat = pdw p 3 ∧ (u.reg (R_HS_B_TERMS (pf p 2 0 4) 1)).toNat = pdw p 6 ∧
        (u.reg (R_HS_B_ACTION (pf p 2 0 4) 0)).toNat = pf p 5 0 24 ∧ (u.reg (R_HS_B_ACTION (pf p 2 0 4) 1)).toNat = pf p 8 0 24 ∧
        u.eff = s.eff) ∧
    (passes 0x35 true none (some .intake) p s = true → trgRunning s = false →
      ∃ u, Completes (.heartLimits p) 0x35 p s { st := .ok } u ∧ u.trg = s.trg ∧
        ∀ k, k < 4 → u.rd (F_TRG_CT_LIMIT_LIMIT k) = pdw p (2 + k) ∧ u.rd (F_TRG_TM_LIMIT_LO_LIMIT_LO k) = pdw p (6 + 2 * k) ∧
          u.rd (F_TRG_TM_LIMIT_HI_LIMIT_HI k) = pf p (7 + 2 * k) 0 16) ∧
    (passes 0x36 true none (some .intake) p s = true → trgRunning s = false ∨ routeSame p s = true →
      ∃ u, Completes (.trigRoute p) 0x36 p s (okR (alignBy u u.rd) 0 0 0) u ∧ u.rd F_TRG_CTRL_MODE = pf p 2 0 1 ∧ u.rd F_TRG_CTRL_WAKE_EN = pf p 2 1 1 ∧
        u.rd F_TRG_CTRL_HEART_START = pf p 2 4 4 ∧ u.rd F_TRG_DIRECT_TN_LO_MASK = pdw p 3 ∧ u.rd F_TRG_DIRECT_TN_HI_MASK = pdw p 4 ∧
        u.rd F_TRG_DIRECT_BN_MASK = pdw p 5 ∧ (pb p 2 8 = true ∨ trgRunning s = true → u.trg.applyAt = some (cdiv s.now half * half))) ∧
    (passes 0x37 true none (some .intake) p s = true → pf p 2 0 3 ≤ 4 →
      ∃ u, Completes (.trigOutSet p) 0x37 p s { st := .ok } u ∧ u.rd F_TRG_OUT_CTRL_MODE = pf p 2 0 3 ∧ u.rd F_TRG_OUT_CTRL_POL = pf p 2 3 1 ∧
        u.rd F_TRG_OUT_CTRL_OE = pf p 2 4 1 ∧ u.rd F_TRG_OUT_CTRL_ALIGNED = pf p 2 5 1 ∧ u.rd F_TRG_OUT_CTRL_OUT_TN = pf p 2 8 6 ∧ u.rd F_TRG_OUT_WIDTH_WIDTH = pf p 3 0 24 ∧
        u.rd F_TRG_OUT_LAT_LAT = pf p 4 0 24 ∧ u.trg.out = [] ∧ u.trg.outEnd = none) ∧
    (passes 0x38 true none (some .intake) p s = true → baseValid p (issued 0x38 p s) = true → pb p 2 9 = true ∨ trgRunning s = false →
      ∃ r u, r.st = .ok ∧ (pb p 2 8 = false → Completes (.baseSet p) 0x38 p s r u) ∧
        (pb p 2 8 = true → Waits (.baseSet p) p s .trgApply 1 0 u ∧ u.trg.applyAt = some (cdiv s.now half * half)) ∧ u.eff = s.eff ∧
        u.rd (F_BN_LEVEL_A_VALUE (pf p 2 0 5)) = pdw p 4 ∧ u.rd (F_BN_LEVEL_B_VALUE (pf p 2 0 5)) = pdw p 5 ∧
        u.rd (F_BN_HYST_VALUE (pf p 2 0 5)) = pdw p 6 ∧
        (pb p 2 9 = false → u.rd (F_BN_CFG_TYPE (pf p 2 0 5)) = pf p 3 0 3 ∧ u.rd (F_BN_LAT_US (pf p 2 0 5)) = pf p 7 0 24 ∧
          u.rd (F_BN_WLEN_MAX_US (pf p 2 0 5)) = pdw p 8)) ∧
    (passes 0x39 true none (some .intake) p s = true → pf p 10 0 25 ≤ 16777216 → pb p 2 8 = true ∨ trgRunning s = false →
      ∃ r u, Completes (.placeSet p) 0x39 p s r u ∧ r.st = .ok ∧ u.eff = s.eff ∧ u.rd F_TRG_PRE_LO_NS_LO = pdw p 3 ∧
        u.rd F_TRG_PRE_HI_NS_HI = pf p 4 0 12 ∧ u.rd F_TRG_POST_LO_NS_LO = pdw p 5 ∧ u.rd F_TRG_POST_HI_NS_HI = pf p 6 0 12 ∧
        u.rd F_TRG_HOLD_NS_LO_NS_LO = pdw p 7 ∧ u.rd F_TRG_HOLD_EV_COUNT = pf p 9 0 16 ∧
        (pb p 2 8 = false → u.rd F_TRG_PLACE_INTERP = pf p 2 0 1 ∧ u.rd F_TRG_SEG_LIMIT_LIMIT = pf p 10 0 25)) ∧
    (passes 0x3A false none (some .intake) p s = true →
      ∃ r u, Completes (.placeStatus p) 0x3A p s r u ∧ r.st = .ok ∧ r.r0 = s.rd F_TRG_SEG_COUNT_COUNT ∧ r.r1 = s.rd F_TRG_HOLD_COUNT_COUNT ∧
        r.r2 = s.rd F_TRG_OVL_COUNT_COUNT ∧ u.rd F_TRG_SEG_COUNT_COUNT = s.rd F_TRG_SEG_COUNT_COUNT ∧
        (pb p 2 0 = false → u = issued 0x3A p s) ∧ (pb p 2 0 = true → u.rd F_TRG_HOLD_COUNT_COUNT = 0 ∧ u.rd F_TRG_OVL_COUNT_COUNT = 0)) ∧
    (passes 0x3B false none (some .intake) p s = true → pf p 2 0 8 ≤ 31 →
      ∃ u, Completes (.baseStatus p) 0x3B p s (okR (s.rd (F_BN_VALUE_VALUE (pf p 2 0 5))) (s.reg (R_BN_STATE (pf p 2 0 5))).toNat
          (s.rd (F_BN_COUNT_COUNT (pf p 2 0 5))) (s.rd (F_BN_LATE_COUNT (pf p 2 0 5)))) u ∧
        (pb p 2 8 = false → u = issued 0x3B p s) ∧
        (pb p 2 8 = true → u.rd (F_BN_COUNT_COUNT (pf p 2 0 5)) = 0 ∧ u.rd (F_BN_LATE_COUNT (pf p 2 0 5)) = 0))

/-- The trigger's own events (R102 to R104, R108, R114, R123, R126, R132, R145): GO asks for an apply at the next tick boundary,
at which the shadowed values come into effect; the heart, where TRG runs with it, evaluates its next tick once every source can have
delivered for it; a note's time runs out once every edge before
it can have been delivered; the earliest TRIG_OUT edge is launched when its time comes, and counts as late where it is; a pulse ends at
its end; a value from a barn goes to its base note; a segment is handed to CAP when its wait is over, and the last one is told to the
context that armed. -/
def Obligations.TriggerEventsTakeEffect : Prop :=
  ∀ (s : State), cellWf regReset s.regs = true → cellWf regReset s.eff = true →
    (∀ (m : Nat) (v : Word), reaches m R_TRG_COMMIT s = true →
      (v.toNat.testBit 0 = true → ∃ t, exec (.trgCommitGo m v) s = .next t ∧ t.regs = (arrived m s).regs ∧
        t.trg.applyAt = some (cdiv s.now half * half)) ∧
      (v.toNat.testBit 0 = false → exec (.trgCommitGo m v) s = .next (arrived m s))) ∧
    (∀ T, s.trg.applyAt = some T → s.domOn .intake = true → s.err.contained = false →
      (s.now < T → exec .trgShadowApply s = .next s) ∧
      (T ≤ s.now → ∃ t, exec .trgShadowApply s = .next t ∧ t.trg.applyAt = none ∧
        (∀ a ∈ trgShadowRegs, regGet t.eff a = s.reg a) ∧ t.dram = s.dram)) ∧
    (s.domOn .intake = true → trgActive s = true →
      (s.on F_TRG_CTRL_MODE = true → heartDue s = true → exec .heartTick s = .next (trgRefresh (heartStep s))) ∧
      (s.on F_TRG_CTRL_MODE = false ∨ heartDue s = false → exec .heartTick s = .next s)) ∧
    (∀ k, s.domOn .intake = true → trgActive s = true → k ≤ 3 → tmExpired s k (s.trg.tick * half) = true →
      exec (.heartTimerExpiry k) s = .next (heartStatus s (s.trg.tick * half))) ∧
    (∀ n t, timeoutAt (timeoutAsk s n).1 (timeoutAsk s n).2 n = some t → (timeoutAsk s n).1.domOn .intake = true →
      trgActive (timeoutAsk s n).1 = true → n ≤ 63 → noteCaught (timeoutAsk s n).1 n t = true →
      exec (.topnoteTimeout n) s = .next (timeFires (timeoutAsk s n).1 n t)) ∧
    (∀ e, nextOut s = some e → s.err.contained = false → e.at_ ≤ s.now → 1 ≤ s.pstate → s.pstate ≤ 3 →
      ∃ t, exec .trigOutLaunch s = .next t ∧ t.trg.out = s.trg.out.erase e ∧ t.trg.outHigh = decide (e.act ≤ 1) ∧
        t.trg.outEnd = (if e.act = 0 then
            some ((if e.late = true then s.now else e.at_) + max 4 (s.rd F_TRG_OUT_WIDTH_WIDTH) * ns1) else none) ∧
        t.rd F_TRG_OUT_COUNTS_LATE = (if e.late = true then satInc F_TRG_OUT_COUNTS_LATE.w (s.rd F_TRG_OUT_COUNTS_LATE)
          else s.rd F_TRG_OUT_COUNTS_LATE)) ∧
    (∀ e, s.trg.outEnd = some e → s.err.contained = false → e ≤ s.now →
      ∃ t, exec .trigOutPulseEnd s = .next t ∧ t.trg.outHigh = false ∧ t.trg.outEnd = none ∧ t.regs = s.regs) ∧
    (∀ rec, s.domOn .intake = true → trgActive s = true →
      exec (.baseValueArrival rec) s = .next (trgRefresh (bnArrive s (BnRec.parse rec)))) ∧
    (∀ g, s.trg.segs.find? (fun x => !x.handed) = some g → s.domOn .intake = true → s.err.contained = false →
      (s.now < g.handAt → exec .segmentHandoff s = .next s) ∧
      (g.handAt ≤ s.now → g.last = false → exec .segmentHandoff s = .next (trgRefresh (handSegment s g))) ∧
      (g.handAt ≤ s.now → g.last = true → exec .segmentHandoff s = .next (trgRefresh
        (((handSegment s g).takeWords 4).2.postEvent g.ctx 0x0601 ((handSegment s g).takeWords 4).1))))

/-- LOGIC_EDGE, EDGE_ACCEPT and TIM_LOSS_RESUME (R159, R161, R162, R164): an edge that moves nothing is none; an input that does not
deliver only follows its ball; in a loss interval edges are counted; an edge enters the deglitch filter with its timestamp and
level, and one within the hold-off of the last takes that one out and counts a glitch; one for which there is no room begins a
loss; the second edge of a pulse too narrow to be sure of may drop the pulse; a held edge is accepted once it is due; a drained input
leaves its loss. -/
def Obligations.EdgesPassTheDeglitchFilter : Prop :=
  ∀ (s : State) (n ball : Nat) (level : Bool), cellWf regReset s.regs = true → s.tim.ins.length = 65 → n ≤ 64 → s.domOn .intake = true →
    (level = (s.tin n).raw → exec (.logicEdge n ball level) s = .next s) ∧
    (level ≠ (s.tin n).raw → inDelivers s n = false →
      ∃ t, exec (.logicEdge n ball level) s = .next t ∧ (t.tin n).raw = level ∧ (t.tin n).pend = (s.tin n).pend ∧ t.regs = s.regs) ∧
    (level ≠ (s.tin n).raw → inDelivers s n = true → (s.tin n).loss.isSome = true →
      ∃ t, exec (.logicEdge n ball level) s = .next t ∧ (t.tin n).missed = (s.tin n).missed + 1 ∧ (t.tin n).loss = (s.tin n).loss ∧
        t.rd (F_TIM_IN_LOST_COUNT n) = satInc 32 (s.rd (F_TIM_IN_LOST_COUNT n))) ∧
    (level ≠ (s.tin n).raw → inDelivers s n = true → (s.tin n).loss = none → edgeNarrow s n ball = false → edgeBusy s n ball = true →
      exec (.logicEdge n ball level) s = .next (lossBegin (rawLevel s n level) n (edgeTs s n ball))) ∧
    (level ≠ (s.tin n).raw → inDelivers s n = true → (s.tin n).loss = none → edgeNarrow s n ball = false → edgeBusy s n ball = false →
      ((s.tin n).pend = [] → ∃ t e, exec (.logicEdge n ball level) s = .next t ∧ (t.tin n).pend = [e] ∧ e.ball = ball ∧
        e.ts = edgeTs s n ball ∧ e.level = (level != s.on (F_TIM_IN_CFG_INV n)) ∧ t.regs = s.regs) ∧
      (∀ e, (s.tin n).pend.getLast? = some e → edgeTs s n ball < e.ts + s.rd (F_TIM_IN_CFG_DEGLITCH n) * ns1 →
        ∃ t, exec (.logicEdge n ball level) s = .next t ∧ (t.tin n).pend = (s.tin n).pend.dropLast ∧
          t.rd (F_TIM_IN_GLITCH_COUNT n) = satInc 32 (s.rd (F_TIM_IN_GLITCH_COUNT n))) ∧
      (∀ e, (s.tin n).pend.getLast? = some e → e.ts + s.rd (F_TIM_IN_CFG_DEGLITCH n) * ns1 ≤ edgeTs s n ball →
        ∃ t x, exec (.logicEdge n ball level) s = .next t ∧ (t.tin n).pend = (s.tin n).pend ++ [x] ∧ x.ball = ball ∧
          x.ts = edgeTs s n ball ∧ x.level = (level != s.on (F_TIM_IN_CFG_INV n)) ∧ t.regs = s.regs)) ∧
    (level ≠ (s.tin n).raw → inDelivers s n = true → (s.tin n).loss = none → edgeNarrow s n ball = true → pulseOpen s n = true →
      exec (.logicEdge n ball level) s = .next (pulseDrop ((rawLevel s n level).takeBits 1).2 n) ∨
      (edgeBusy s n ball = false ∧ exec (.logicEdge n ball level) s = .next (edgeEnter ((rawLevel s n level).takeBits 1).2 n ball
        (edgeTs s n ball) (inLevel (rawLevel s n level) n)))) ∧
    (level ≠ (s.tin n).raw → inDelivers s n = true → (s.tin n).loss = none → edgeNarrow s n ball = true → pulseOpen s n = false →
      exec (.logicEdge n ball level) s = .next (if edgeBusy s n ball = true then
          lossBegin ((rawLevel s n level).takeBits 1).2 n (edgeTs s n ball)
        else edgeEnter ((rawLevel s n level).takeBits 1).2 n ball (edgeTs s n ball) (inLevel (rawLevel s n level) n))) ∧
    (∀ e es, (s.tin n).pend = e :: es →
      (s.now < deliverAt s n e → exec (.edgeAccept n) s = .next s) ∧
      (deliverAt s n e ≤ s.now → exec (.edgeAccept n) s = .next (edgeAccept s e))) ∧
    ((s.tin n).loss.isSome = true →
      (128 < chuteNow s n s.now → exec (.timLossResume n) s = .next s) ∧
      (chuteNow s n s.now ≤ 128 → exec (.timLossResume n) s = .next (lossEnd s n)))

/-- STORE_GAP_END, TRANSITION_RECORD_HANDOFF, TDC_CAL_SWAP, MEAS_GATE_CLOSE, TIM_RES_POP and TIM_RUN_WRITE (R160, R169, R170, R175 to
R177): a gap ends; the oldest record goes to CAP when its time has come and it need not wait for another; a calibration is valid,
and its age 0, from the swap on, and marks the inputs that failed it; a parity error found with it (the model's choice, log entry 40)
leaves an input acting as disabled, or a heart state as terminal; a result is posted once its gate has ended; a pop takes the oldest result; RUN starts TIM, and is not cleared while a capture is armed. -/
def Obligations.TimingStoresMeasuresAndRuns : Prop :=
  ∀ (s : State), cellWf regReset s.regs = true → s.tim.ins.length = 65 → s.tim.mus.length = 16 →
    (∀ src, s.domOn .intake = true → src < 96 → exec (.storeGapEnd src) s =
      .next (gapClose (groupsRun s) src ((groupsRun s).now - gapLag s src) (srcLevel (groupsRun s) src))) ∧
    (s.domOn .intake = true →
      ((gapsRun (groupsRun s)).tim.mq = [] → exec .transitionRecordHandoff s = .next (gapsRun (groupsRun s))) ∧
      (∀ r rs, (gapsRun (groupsRun s)).tim.mq = r :: rs →
        r.ts + (gapsRun (groupsRun s)).rd F_TIM_STORE_ALIGN_ALIGN * 16777216 ≤ (gapsRun (groupsRun s)).now →
        (recWaits (gapsRun (groupsRun s)) r = true → exec .transitionRecordHandoff s = .next (gapsRun (groupsRun s))) ∧
        (recWaits (gapsRun (groupsRun s)) r = false →
          ∃ u, exec .transitionRecordHandoff s = .next ((pushTransition u r.bytes r.ts).bump64 R_TIM_STORED_LO R_TIM_STORED_HI) ∧
            u.tim.mq = rs ∧ u.regs = (gapsRun (groupsRun s)).regs))) ∧
    (∀ r, s.domOn .intake = true →
      ∃ t, exec (.tdcCalSwap r) s = .next t ∧ t.rd F_TIM_STATUS_CAL_VALID = 1 ∧ t.rd F_TIM_CAL_STATUS_AGE = 0 ∧
        ∀ n, n < 65 → (r.fails.testBit n = false → (t.tin n).calBad = false) ∧
          (r.fails.testBit n = true → s.on (F_TIM_IN_CFG_EN n) = true → (t.tin n).calBad = true) ∧
          (r.trg = none → r.tim = some n → (t.tin n).parity = true ∧ (t.tin n).pend = []) ∧
          (r.tim = none → r.trg = some (0x80 + n) → n < 16 → trgActive s = true → n ∈ t.trg.parityHs)) ∧
    (∀ u r rs, s.domOn .intake = true → u < 16 → muMode s u ≠ 0 → ((muGatesNow s u).mu u).closed = r :: rs →
      r.endTs + (muDelay s u + 8 * ns1) ≤ s.now →
      exec (.measGateClose u) s = .next (muPost ((muGatesNow s u).modMu u (fun y => { y with closed := rs })) u r)) ∧
    (∀ u m v, u < 16 → reaches m (R_TIM_MU_RES_POP u) s = true →
      (v.toNat.testBit 0 = true → ∃ t, exec (.timResPop u m v) s = .next t ∧ (t.mu u).res = (s.mu u).res.drop 1) ∧
      (v.toNat.testBit 0 = false → exec (.timResPop u m v) s = .next (arrived m s))) ∧
    (∀ (m : Nat) (v : Word), reaches m R_TIM_CTRL s = true → v.toNat.testBit 1 = false →
      (v.toNat.testBit 0 = true → timRun s = false → ∃ t, exec (.timRunWrite m v) s = .next t ∧ t.rd F_TIM_CTRL_RUN = 1) ∧
      (v.toNat.testBit 0 = false → timRun s = true → s.cap.armed = true →
        ∃ t, exec (.timRunWrite m v) s = .next t ∧ t.rd F_TIM_CTRL_RUN = s.rd F_TIM_CTRL_RUN ∧ t.rd F_TIM_STATUS_WRITE_REFUSED = 1 ∧
          t.tim = s.tim) ∧
      (v.toNat.testBit 0 = false → timRun s = true → s.cap.armed = false →
        ∃ t, exec (.timRunWrite m v) s = .next t ∧ t.rd F_TIM_CTRL_RUN = 0 ∧ ∀ n, n < 65 → (t.tin n).pend = [] ∧ (t.tin n).loss = none))

/-- CAP_CONFIG, CAP_STATUS, CLAIM, CLAIM_RELEASE, SEG_INFO, CLAIM_READ and SILO_LOCATE (R197 to R199, R203, R204, Table 7.9): the
configuration is stored, and with INIT the tables of pages and claims are empty; while the DRAM is not ready it waits with an
intermediate entry; the status of a block that is off is all zero; a claim whose start is retained and whose pages fit takes the lowest
free number; a start no longer retained is refused with the oldest time that could be had; a release completes with the pages it
unpins; SEG_INFO writes the headers it finds to host memory; a read waits for its data or its transfer. -/
def Obligations.CaptureIsConfiguredClaimedAndRead : Prop :=
  ∀ (p : Packet) (s : State), cellWf regReset s.regs = true →
    (passes 0x40 true none none p s = true → capConfigValid p (issued 0x40 p s) = true → capRunning s = false →
      (s.on F_GLB_STATE_DRAM_READY = false → ∃ u, Pends (.capConfig p) 0x40 p s .capInit 0 0 u ∧ u.cap.cfgPend = some (pb p 2 0) ∧
        u.rd F_CAP_STATUS_STATE = 1 ∧ u.rd F_CAP_SILO_BASE_BASE = pf p 3 0 20 ∧ u.rd F_CAP_SILO_PAGES_PAGES = pf p 4 0 21 ∧
        u.rd F_CAP_META_BASE_BASE = pf p 5 0 20 ∧ u.rd F_CAP_STORE_LO_STREAMS = pdw p 7 ∧ u.rd F_CAP_HEARTBEAT_US = pf p 10 0 24 ∧
        u.dram = s.dram) ∧
      (s.on F_GLB_STATE_DRAM_READY = true → pb p 2 0 = true → ∃ r u, Completes (.capConfig p) 0x40 p s r u ∧ r.st = .ok ∧
        u.rd F_CAP_SILO_BASE_BASE = pf p 3 0 20 ∧ u.rd F_CAP_SILO_PAGES_PAGES = pf p 4 0 21 ∧ u.rd F_CAP_STORE_LO_STREAMS = pdw p 7 ∧
        u.cap.tbl = [] ∧ u.cap.claims = []) ∧
      (s.on F_GLB_STATE_DRAM_READY = true → pb p 2 0 = false → Completes (.capConfig p) 0x40 p s
        (capConfigReply (capSiloPart (capTake p (issued 0x40 p s)) false false).1 (capSiloPart (capTake p (issued 0x40 p s)) false false).2)
        (capSiloPart (capTake p (issued 0x40 p s)) false false).1)) ∧
    (passes 0x41 false none none p s = true →
      ∃ r u, Completes (.capStatus p) 0x41 p s r u ∧ r.st = .ok ∧
        (s.domOn .intake = true → r.r1 = s.rd F_CAP_GRANARY_SPAN_US ∧ r.r2 = s.rd F_CAP_SILO_SPAN_MS ∧ r.r3 = s.rd F_CAP_PINNED_PAGES) ∧
        (s.domOn .intake = false → r = okR 0 0 0 0) ∧
        (pb p 2 0 = false → u = issued 0x41 p s) ∧ (pb p 2 0 = true → ∀ f ∈ capCounters, u.rd f = 0)) ∧
    (passes 0x42 false none none p s = true → clT0 p < clT1 p → clT1 p ≤ s.now + 60000000000 * ns1 →
      clStreams p ≠ 0 ∨ pf p 10 0 16 ≠ 0 → siloReady s = true →
      ((clIds p).all (fun i => retained (issued 0x42 p s) i (clT0 p)) = false → Completes (.claimCmd p) 0x42 p s
        (notRetainedR (((clIds p).map (oldestClaimable (issued 0x42 p s))).foldl max 0)) (issued 0x42 p s)) ∧
      (∀ id, (clIds p).all (fun i => retained (issued 0x42 p s) i (clT0 p)) = true →
        lowestFree (s.cap.claims.map (fun c => c.id)) 1 65535 = some id →
        pinnedPages (issued 0x42 p s) + clExtra p (issued 0x42 p s) ≤ pinCeiling (issued 0x42 p s) →
        ∃ r, r.st = .ok ∧ r.r0 = id ∧ r.r1 = (clCover p (issued 0x42 p s)).length ∧
          Completes (.claimCmd p) 0x42 p s r (clPlace (issued 0x42 p s) (clNew p (issued 0x42 p s) id)))) ∧
    (passes 0x43 false none none p s = true →
      (pb p 2 17 = true → siloReady s = true → Completes (.claimRelease p) 0x43 p s (okR (relAll p (issued 0x43 p s)).2 0 0 0)
        (relAll p (issued 0x43 p s)).1) ∧
      (∀ g, pb p 2 17 = false → pb p 2 16 = true → relSeg p s = some g → ownsOr s (pCtx p) g.ctx = true →
        siloReady s = true ∨ g.queued = true →
        Completes (.claimRelease p) 0x43 p s (okR g.pages.length 0 0 0) (releaseSeg (issued 0x43 p s) g).1) ∧
      (∀ c, pb p 2 17 = false → pb p 2 16 = false → relClaim p s = some c → ownsOr s (pCtx p) c.ctx = true → siloReady s = true →
        Completes (.claimRelease p) 0x43 p s (okR c.pages.length 0 0 0) (releaseClaim (issued 0x43 p s) c).1)) ∧
    (∀ hs bad, passes 0x44 false none none p s = true → s.domOn .intake = true → pq p 4 % 64 = 0 → 1 ≤ pf p 3 16 13 →
      pf p 3 16 13 ≤ 4096 → hs = segHeaders p (issued 0x44 p s) → bad = segHeaderBad p (issued 0x44 p s) hs.length →
      ∃ v, Completes (.segInfo p) 0x44 p s (okR hs.length (pf p 2 0 24 + hs.length) 0 0) (metaCheck v bad) ∧
        v.host = memWrite s.host (pq p 4) hs.flatten ∧ v.cap = s.cap ∧ v.dram = s.dram ∧ v.regs = (issued 0x44 p s).regs) ∧
    (passes 0x45 false none none p s = true → crValid p (issued 0x45 p s) = true → pq p 9 % 64 = 0 →
      s.on (F_DMA_C_CFG_OPEN (crChan p)) = true → chCtx (issued 0x45 p s) (crChan p) = pCtx p → crAllowed p (issued 0x45 p s) = true →
      Waits (.claimRead p) p s .claimRead (if (crTry p (issued 0x45 p s)).2 then crChan p else 128) 0 (crTry p (issued 0x45 p s)).1) ∧
    (passes 0x46 false none none p s = true → s.domOn .intake = true →
      ((streamPages s (pf p 2 0 7)).isEmpty = true ∨ pTs p 3 < locOldest s (pf p 2 0 7) →
        Completes (.siloLocate p) 0x46 p s (notRetainedR (locOldest s (pf p 2 0 7))) (issued 0x46 p s)) ∧
      (∀ h, (streamPages s (pf p 2 0 7)).isEmpty = false → locOldest s (pf p 2 0 7) ≤ pTs p 3 →
        locHit (issued 0x46 p s) (pf p 2 0 7) (pTs p 3) = some h →
        Completes (.siloLocate p) 0x46 p s (okR h.1 (h.1 / ns1) h.2 (h.2 / ns1)) (issued 0x46 p s)))

/-- CAP_REBUILD, CAP_AUTO_REBUILD, GRANULE_DRAIN and GAP_NONE_HEARTBEAT (R190, R192, R205): a rebuild completes with what it found and
leaves CAP idle and rebuilt; after a soft reset the configuration kept is restored first; the oldest granules of a stream are
drained, by whole drain units while CAP is armed; a heartbeat is due again after its interval, and notes the time it was made unless
a gap has been noted since the last. -/
def Obligations.CaptureRebuildsAndDrains : Prop :=
  ∀ (s : State), cellWf regReset s.regs = true →
    (∀ p, passes 0x47 true none none p s = true → capRunning s = false → siloReady s = true →
      ∃ u r1 r2 r3 r4, Completes (.capRebuild p) 0x47 p s (okR r1 r2 r3 r4) u ∧ u.rd F_CAP_STATUS_STATE = 1 ∧ u.rd F_CAP_STATUS_REBUILT = 1 ∧
        rebuild (issued 0x47 p s) false = (u, r1, r2, r3, r4)) ∧
    (capState s = 0 → s.cap.saved ≠ [] → s.on F_GLB_STATE_DRAM_READY = true → s.err.contained = false → s.domOn .intake = true →
      exec .capAutoRebuild s = .next (rebuild (s.cap.saved.foldl (fun t x => t.setReg x.1 x.2) s) true).1) ∧
    (∀ id check v, siloLive s = true → capState s ≠ 5 → id < 49 → v = granMark s id check →
      (v.cap.armed = true → (undrained v id).length < drainUnit v id → exec (.granuleDrain id check) s = .next v) ∧
      (v.cap.armed = false ∨ drainUnit v id ≤ (undrained v id).length → exec (.granuleDrain id check) s =
        .next (capSpans (claimsClose (capLag (((undrained v id).take (drainUnit v id)).foldl (fun t g => drainOne t id g) v) id))))) ∧
    (capState s = 4 → s.rd F_CAP_HEARTBEAT_US ≠ 0 → s.cap.hbAt ≤ s.up → s.err.contained = false →
      ∃ t, exec .gapNoneHeartbeat s = .next t ∧ t.cap.hbGap = false ∧ t.cap.hbAt = s.up + s.rd F_CAP_HEARTBEAT_US * 1000 ∧
        (s.cap.hbGap = false → t.cap.hbLast = s.now) ∧
        (s.cap.hbGap = true → t.cap.hbLast = s.cap.hbLast ∧ t.regs = s.regs ∧ t.dram = s.dram))

/-- CHAIN_LOAD, CHAIN_UNLOAD, CHAIN_START, CHAIN_RUN, CHAIN_STATUS, ENG_STATUS, ENG_UNFENCE and ENG_GUARD (R230, R240, R309, Tables 8.8
and 8.9): a chain that fits a free piece of its contract takes the lowest free number and the lowest such engine; one that fits none
is refused with NO_BUDGET; an unload forces its jobs out or waits until it has drained; a start sets its time; a run from a time no
longer held is refused; a fenced engine's self-test is awaited for 5 ms; the guards change all or none. -/
def Obligations.ChainsAreLoadedStartedAndGuarded : Prop :=
  ∀ (p : Packet) (s : State), cellWf regReset s.regs = true →
    (∀ k, passes 0x50 false none none p s = true → contractOf s (pCtx p) = some k → k.broken = false → pq p 3 % 64 = 0 →
      loadBad p (issued 0x50 p s) = none →
      (∀ n ns id, fitPieces (issued 0x50 p s) (loadAsk p (issued 0x50 p s)) k = n :: ns →
        lowestFree (s.eng.chains.map (fun c => c.id)) 1 65535 = some id →
        ∃ c, Completes (.chainLoad p) 0x50 p s (chainReply (chainPut (issued 0x50 p s) c) (loadAsk p (issued 0x50 p s)) c) (chainPut (issued 0x50 p s) c) ∧
          c.id = id ∧ c.ctx = pCtx p ∧ c.eng = ns.foldl min n ∧ c.running = pb p 2 0 ∧ c.committed = 0 ∧
          c.startTs = (if pTs p 6 = 0 then s.now else pTs p 6)) ∧
      (fitPieces (issued 0x50 p s) (loadAsk p (issued 0x50 p s)) k = [] →
        ∃ r, r.st = .noBudget ∧ Completes (.chainLoad p) 0x50 p s r (issued 0x50 p s))) ∧
    (∀ c, passes 0x51 false none none p s = true → conHeld p s = true → ownChain p s = some c →
      (pb p 2 16 = false → Completes (.chainUnload p) 0x51 p s (okR c.committed (jobsOf s c.id).length 0 0)
        (admRegs (unloadChain (issued 0x51 p s) c.id))) ∧
      (pb p 2 16 = true → drained ((issued 0x51 p s).modChain c.id (stopChain (issued 0x51 p s))) (stopChain (issued 0x51 p s) c) = false →
        Waits (.chainUnload p) p s .chainDrain c.id 0 ((issued 0x51 p s).modChain c.id (stopChain (issued 0x51 p s)))) ∧
      (pb p 2 16 = true → drained ((issued 0x51 p s).modChain c.id (stopChain (issued 0x51 p s))) (stopChain (issued 0x51 p s) c) = true →
        Completes (.chainUnload p) 0x51 p s (okR c.committed 0 0 0)
          (admRegs (unloadChain ((issued 0x51 p s).modChain c.id (stopChain (issued 0x51 p s))) c.id)))) ∧
    (∀ c, passes 0x52 false none none p s = true → conHeld p s = true → ownChain p s = some c → conBroken s (pCtx p) = false →
      pb p 2 16 = false →
      ∃ u c', Completes (.chainStart p) 0x52 p s { st := .ok } u ∧ u.chain? c.id = some c' ∧ c'.running = true ∧
        c'.startTs = (if pTs p 3 = 0 then s.now else pTs p 3) ∧ c'.img = c.img ∧ u.regs = (issued 0x52 p s).regs ∧ u.eng.jobs = s.eng.jobs) ∧
    (∀ c, passes 0x53 false none none p s = true → conHeld p s = true → ownChain p s = some c → c.img.trigger = 4 →
      (pTs p 3 < storeOldest (issued 0x53 p s) c.img →
        Completes (.chainRun p) 0x53 p s (notRetainedR (storeOldest (issued 0x53 p s) c.img)) (issued 0x53 p s)) ∧
      (storeOldest (issued 0x53 p s) c.img ≤ pTs p 3 → ∃ u j, Waits (.chainRun p) p s .chainRun c.id 0 u ∧
        u.eng.jobs = s.eng.jobs ++ [j] ∧ j.chain = c.id ∧ j.eng = c.eng ∧ j.start = pTs p 3 ∧ j.wend = pTs p 3 + c.img.win * ns1 ∧ j.state = 0)) ∧
    (∀ c, passes 0x54 false none none p s = true → conHeld p s = true → ownChain p s = some c →
      ∃ r, Completes (.chainStatus p) 0x54 p s r (issued 0x54 p s) ∧ r.st = .ok ∧ r.r1 = c.committed ∧ r.r2 = c.lastSeq.getD 0 ∧
        (c.parked = false → c.running = true → r.r0 = 1 + c.eng * 256)) ∧
    (passes 0x55 false none none p s = true → conHeld p s = true → pf p 2 0 4 ≤ 11 →
      ∃ r u, Completes (.engStatus p) 0x55 p s r u ∧ r.st = .ok ∧
        (s.dom (.barn (pf p 2 0 4)) ≠ 0 → r.r0 = (s.reg (R_ENG_STATUS (pf p 2 0 4))).toNat) ∧
        (s.dom (.barn (pf p 2 0 4)) = 0 → r.r0 = 0) ∧ (pb p 2 8 = false → u = issued 0x55 p s) ∧
        (pb p 2 8 = true → ∀ f ∈ barnCounters (pf p 2 0 4), u.rd f = 0)) ∧
    (passes 0x56 true none none p s = true → s.eng.fenced.contains (pf p 2 0 7) = true → s.eng.testing.any (fun t => t.1 == pf p 2 0 7) = false →
      ∃ u, Waits (.engUnfence p) p s .unfence (pf p 2 0 7) (s.up + 5000000) u ∧
        u.eng.testing = s.eng.testing ++ [(pf p 2 0 7, p.qid, pTag p)] ∧ u.eng.fenced = s.eng.fenced) ∧
    (passes 0x57 true none none p s = true →
      ((guardAll p (issued 0x57 p s)).2.2 ≠ 0 →
        ∃ r, r.st = .noBudget ∧ r.r1 = (guardAll p (issued 0x57 p s)).2.2 ∧ Completes (.engGuard p) 0x57 p s r (issued 0x57 p s)) ∧
      ((guardAll p (issued 0x57 p s)).2.2 = 0 → Completes (.engGuard p) 0x57 p s (okR (guardAll p (issued 0x57 p s)).2.1 0 0 0)
        (budgetCheck (allBarnRegs (guardAll p (issued 0x57 p s)).1) true)))

/-- A job from its window to its commit (R222 to R226): a chain's window is taken up once it has landed; a free engine takes its next
ready job, or gives up one whose stored input is gone; the running job seals what it stages; the barn's oldest sealed job commits,
and one that has already been committed leaves with no effect but its count and its record.

Fences and spares (R231 to R235, R240): an engine that does not act ignores its faults; an uncorrectable word, a failed residue
check, and a job that overruns its watchdog fence their engine; a failed commit unit fences its barn, and one whose retry succeeds
only records it; the activated spare runs; a self-test that passes unfences, one that fails does not. -/
def Obligations.JobsCommitAndFaultyEnginesAreFenced : Prop :=
  (∀ (s : State), cellWf regReset s.regs = true →
    (∀ id c w, s.chain? id = some c → c.nextW = some w →
      (liveReady s c = false → exec (.liveWindowReady id) s = .next s) ∧
      (liveReady s c = true → exec (.liveWindowReady id) s = .next (windowReady s c w))) ∧
    (∀ n j c, engLive s n = true → engUsable s n = true → s.eng.act.getD (n / 8) none ≠ some n → runningOn s n = none →
      nextJob s n = some j → s.chain? j.chain = some c →
      ((jobStores s c j).any (fun x => x.2 == .gone) = true → exec (.jobDispatch n) s = .next (inputLost s j)) ∧
      ((jobStores s c j).any (fun x => x.2 == .gone) = false →
        ∃ t, exec (.jobDispatch n) s = .next t ∧ t.eng.jobs.length = s.eng.jobs.length ∧ t.dram = s.dram ∧
          ∀ x ∈ t.eng.jobs, x.chain = j.chain → x.seq = j.seq → x.state = 1 ∧ x.at_ = s.up)) ∧
    (∀ n j c, runningOn s n = some j → s.chain? j.chain = some c → engLive s n = true → s.eng.predict.contains n = false →
      ∃ t, exec (.jobSeal n) s = .next t ∧ t.dram = s.dram ∧
        ∃ x, x ∈ t.eng.jobs ∧ x.chain = j.chain ∧ x.seq = j.seq ∧ x.state = 2 ∧ x.out = some (jobRun s c j).1) ∧
    (∀ b j c o, sealedIn s b = some j → s.chain? j.chain = some c → j.out = some o → s.err.contained = false → s.domOn (.barn b) = true →
      (exec (.jobCommit b true) s = .next (drains (sealBad s b c j))) ∧
      ((∀ q, c.lastSeq = some q → q < j.seq) → exec (.jobCommit b false) s = .next (drains (barnRegs (commitJob s c j o) b))) ∧
      (∀ q, c.lastSeq = some q → j.seq ≤ q → exec (.jobCommit b false) s =
        .next (drains (barnRegs (((s.dropJob j.chain j.seq).bump (F_ENG_DUP_COUNT (j.eng / 8))).raiseAt j.wend 9 0x0A 0
          (resMaster (engMaster j.eng)) 0 (engMaster j.eng)) b))))) ∧
  (∀ (s : State), cellWf regReset s.regs = true →
    (∀ n typ, engLive s n = false → exec (.engineFault n typ) s = .next s) ∧
    (∀ n, engLive s n = true → exec (.engineFault n 1) s = .next (lmemCe s n) ∧
      exec (.engineFault n 2) s = .next (fence s n 2 (fenceTs s n) false) ∧ exec (.engineFault n 3) s = .next (fence s n 3 (fenceTs s n) false)) ∧
    (∀ n j, runningOn s n = some j → engLive s n = true →
      (s.up < j.at_ + fclkNs s (jobCycles s j + 2000) → exec (.engineWatchdog n) s = .next s) ∧
      (j.at_ + fclkNs s (jobCycles s j + 2000) ≤ s.up → exec (.engineWatchdog n) s = .next (fence s n 4 j.wend false))) ∧
    (∀ b, b < 12 → s.eng.act.length = 12 →
      if s.err.contained = true then exec (.spareActivate b) s = .next s
      else ∃ t, exec (.spareActivate b) s = .next t ∧ t.eng.act.getD b none = none ∧ t.eng.chains = s.eng.chains ∧ t.eng.jobs = s.eng.jobs) ∧
    (∀ b, s.domOn (.barn b) = true → s.err.contained = false → b ≤ 11 →
      exec (.commitUnitError b true) s = .next (s.raise 9 0x07 1 (resIndex b) 0) ∧ exec (.commitUnitError b false) s = .next (fenceBarn s b)) ∧
    (∀ n, s.fcp.inflight.any (fun c => c.kind == .unfence && c.key == n && decide (c.due ≤ s.up)) = true →
      (exec (.unfenceSelfTestDone n false) s = .next (barnRegs ((testEnd s n).wake .unfence n { st := .hwError }) (n / 8))) ∧
      (∃ r, exec (.unfenceSelfTestDone n true) s = .next ((capRisen (admRegs (barnRegs
        ((engReturn (testEnd s n) n).takeBits 32).2 (n / 8)))).wake .unfence n (okR r 0 0 0)))))

/-- PQ_LOAD, PQ_CLOCK, PQ_STATUS and the finisher's events (R242 to R244, R249 to R254): a library chain that fits is placed like any
chain and carries its packet; the clock offset and the drain bit are stored; the counts are given, and cleared only when asked; the
finisher takes the oldest record; a window given up no longer waits for its part 2; an interval ends for the group it names. -/
def Obligations.LibraryChainsAndFinisher : Prop :=
  ∀ (p : Packet) (s : State), cellWf regReset s.regs = true →
    (∀ k n ns id, passes 0x58 false none none p s = true → contractOf s (pCtx p) = some k → k.broken = false → pqOk p (issued 0x58 p s) = true →
      pqBad p (issued 0x58 p s) = none →
      (libFinish p.dws || libAgg p.dws) = false ∨
        pqOver (issued 0x58 p s) k (chainRate (issued 0x58 p s) (libImage (issued 0x58 p s) p.dws) p.dws) = false →
      fitPieces (grpFresh (issued 0x58 p s) (pCtx p) (libGroup p.dws)) (pqAsk p (issued 0x58 p s)) k = n :: ns →
      lowestFree (s.eng.chains.map (fun c => c.id)) 1 65535 = some id →
      ∃ r c, r.st = .ok ∧ r.r0 % 65536 = id ∧ c.id = id ∧ c.ctx = pCtx p ∧ c.eng = ns.foldl min n ∧ c.lib = some p.dws ∧
        Completes (.pqLoad p) 0x58 p s r
          (flickStart (chainPut (grpFresh (issued 0x58 p s) (pCtx p) (libGroup p.dws)) c) id p.dws)) ∧
    (passes 0x59 true none none p s = true → pf p 2 0 8 = s.rd F_ENG_PQ_CTRL_CLOCK_OFS ∨
        s.eng.chains.any (fun c => match c.lib with | some d => libAgg d | none => false) = false →
      ∃ u, Completes (.pqClock p) 0x59 p s { st := .ok } u ∧ u.rd F_ENG_PQ_CTRL_CLOCK_OFS = pf p 2 0 8 ∧
        u.rd F_ENG_PQ_CTRL_DRAIN_WAKE = pf p 2 8 1 ∧ (pb p 2 8 = false → u.eng = s.eng ∧ u.clk = s.clk)) ∧
    (passes 0x5D false none none p s = true →
      ∃ r u, Completes (.pqStatus p) 0x5D p s r u ∧ r.st = .ok ∧ r.r1 = s.rd F_ENG_PQ_OUT_COUNT ∧ r.r2 = s.rd F_ENG_PQ_LATE_COUNT ∧
        r.r3 = s.rd F_ENG_PQ_LOST_COUNT ∧ (pb p 2 8 = false → u = issued 0x5D p s) ∧
        (pb p 2 8 = true → u.rd F_ENG_PQ_OUT_COUNT = 0 ∧ u.rd F_ENG_PQ_LATE_COUNT = 0 ∧ u.rd F_ENG_PQ_LOST_COUNT = 0)) ∧
    (∀ r rs c, s.eng.recs = r :: rs → s.chain? r.chain = some c → s.err.contained = false →
      exec .finisherRecord s = .next (finTake (s.modEng (fun e => { e with recs := rs })) r c)) ∧
    (∀ ctx g w x r, s.grp? ctx g = some x → (grpWins s ctx g).find? (fun y => y.seq == w && kindType y.kind == 1) = some r →
      x.open2.contains w = true →
      (s.now < r.wend + 2 * r.wlen * ns1 → exec (.finisherMemberTimeout ctx g w) s = .next s) ∧
      (r.wend + 2 * r.wlen * ns1 ≤ s.now → exec (.finisherMemberTimeout ctx g w) s =
        .next (pqPrune (s.modGrp ctx g (fun y => { y with open2 := y.open2.filter (· != w) })) ctx g))) ∧
    (∀ ctx g x, s.grp? ctx g = some x → s.err.contained = false → (aggMembers (members s ctx g)).isEmpty = false →
      exec (.aggregationTick ctx g 1) s = .next (cycleEnd s x) ∧ exec (.aggregationTick ctx g 2) s = .next (tenMinEnd s x) ∧
      exec (.aggregationTick ctx g 3) s = .next (twoHourEnd s x)) ∧
    (∀ id c f, s.chain? id = some c → s.eng.flicks.find? (fun f => f.chain == id) = some f → s.err.contained = false →
      exec (.flickerTick id) s = .next (flickTick s c f))

/-- The maps (R259 to R268, Table 9.8): MAP_SET stores DECAY alone when asked for that, enables a map that fits and passes admission,
refuses one that does not pass, and disables; MAP_CLEAR starts the map anew; a write of EN enables a map, which stores nothing while it is BAD, or disables it; an epoch's bank is final SETTLE after the epoch's end;
the next bank is zeroed, and nothing else in DRAM; a pass that ends leaves PASS_BUSY 0. -/
def Obligations.MapsAreSetClearedAndPassed : Prop :=
  ∀ (p : Packet) (s : State), cellWf regReset s.regs = true →
    (passes 0x5A false none none p s = true → mapOwned p s = true →
      (pb p 2 12 = true → ∃ r u, Completes (.mapSet p) 0x5A p s r u ∧ r.st = .ok ∧ u.rd (F_MAP_DECAY_DECAY (pf p 2 0 4)) = pf p 6 0 9 ∧
        u.eng = s.eng ∧ u.dram = s.dram) ∧
      (pb p 2 12 = false → pb p 2 4 = true → s.on (F_MAP_CTRL_EN (pf p 2 0 4)) = false →
        mapRanges (mapFields p (issued 0x5A p s)) (pf p 2 0 4) = true → mapFits (mapFields p (issued 0x5A p s)) (pf p 2 0 4) = true →
        (mapAdmit (mapFields p (issued 0x5A p s)) (pf p 2 0 4) (settleOf (mapFields p (issued 0x5A p s)) (pf p 2 0 4) 0) = true →
          ∃ r, r.st = .ok ∧ Completes (.mapSet p) 0x5A p s r
            (mapEnable ((mapFields p (issued 0x5A p s)).wr (F_MAP_CTRL_CONTEXT (pf p 2 0 4)) (pCtx p)) (pf p 2 0 4))) ∧
        (mapAdmit (mapFields p (issued 0x5A p s)) (pf p 2 0 4) (settleOf (mapFields p (issued 0x5A p s)) (pf p 2 0 4) 0) = false →
          Completes (.mapSet p) 0x5A p s { st := .noBudget } (issued 0x5A p s))) ∧
      (pb p 2 12 = false → pb p 2 4 = false → s.on (F_MAP_CTRL_EN (pf p 2 0 4)) = false ∨ mapChains (issued 0x5A p s) (pf p 2 0 4) = [] →
        mapRanges (mapFields p (issued 0x5A p s)) (pf p 2 0 4) = true →
        ∃ r u, Completes (.mapSet p) 0x5A p s r u ∧ r.st = .ok ∧ u.rd (F_MAP_CTRL_EN (pf p 2 0 4)) = 0 ∧
          u.rd (F_MAP_GEOM_W (pf p 2 0 4)) = pf p 4 0 14 ∧ u.rd (F_MAP_EPOCH_US (pf p 2 0 4)) = pf p 5 0 24 ∧ u.dram = s.dram)) ∧
    (passes 0x5B false none none p s = true → mapOwned p s = true →
      (mapOn s (pf p 2 0 4) = false → Completes (.mapClear p) 0x5B p s { st := .ok } (issued 0x5B p s)) ∧
      (mapOn s (pf p 2 0 4) = true → ∃ r, r.st = .ok ∧
        r.r0 = ((mapStart (issued 0x5B p s) (pf p 2 0 4)).mp (pf p 2 0 4)).t0.getD 0 ∧
        Completes (.mapClear p) 0x5B p s r (mapStart (issued 0x5B p s) (pf p 2 0 4)))) ∧
    (passes 0x5C false none none p s = true → mapOwned p s = true →
      ∃ u, Completes (.mapStatus p) 0x5C p s (okR (s.reg (R_MAP_STATUS (pf p 2 0 4))).toNat (s.rd (F_MAP_EPOCH_NO_LO_VALUE (pf p 2 0 4)))
          (s.rd (F_MAP_CLIP_COUNT (pf p 2 0 4))) (s.rd (F_MAP_DROPPED_COUNT (pf p 2 0 4)))) u ∧ (pb p 2 8 = false → u = issued 0x5C p s) ∧
        (pb p 2 8 = true → u.rd (F_MAP_CLIP_COUNT (pf p 2 0 4)) = 0 ∧ u.rd (F_MAP_DROPPED_COUNT (pf p 2 0 4)) = 0)) ∧
    (∀ m k v, k < 16 → reaches m (R_MAP_CTRL k) s = true → s.on (F_MAP_CTRL_EN k) = true → v.toNat.testBit 0 = false →
      ∃ t, exec (.mapEnableWrite m k v) s = .next t ∧ t.rd (F_MAP_CTRL_EN k) = 0 ∧ t.rd (F_MAP_STATUS_FINAL_VALID k) = 0 ∧
        t.mp k = MapSt.reset ∧ t.dram = s.dram) ∧
    (∀ m k v, k < 16 → reaches m (R_MAP_CTRL k) s = true → s.on (F_MAP_CTRL_EN k) = false → v.toNat.testBit 0 = true →
      ∃ t, exec (.mapEnableWrite m k v) s = .next t ∧ t.rd (F_MAP_CTRL_EN k) = 1 ∧ (t.rd (F_MAP_STATUS_BAD k) = 1 → t.dram = s.dram) ∧
        (t.rd (F_MAP_STATUS_BAD k) = 0 → t.rd (F_MAP_STATUS_FINAL_VALID k) = 0 ∧ t.rd (F_MAP_STATUS_PASS_BUSY k) = 0)) ∧
    (∀ k T, finalAt s k = some T → mapOn s k = true → mapsRun s = true →
      (s.now < T → exec (.mapEpochFinal k) s = .next s) ∧ (T ≤ s.now → exec (.mapEpochFinal k) s = .next (epochFinal s k))) ∧
    (∀ k t b, (s.mp k).clearAt = some (t, b) → mapOn s k = true → mapsRun s = true → t ≤ s.up → Memory.wf s.dram = true →
      ∃ u, exec (.mapClearStart k) s = .next u ∧ u.rd (F_MAP_STATUS_PASS_BUSY k) = 1 ∧ (u.mp k).clearAt = none ∧ (u.mp k).clearing = some b ∧
        ∀ a, memGet u.dram a = if bankAddr s k b ≤ a ∧ a < bankAddr s k b + mapBank s k then 0 else memGet s.dram a) ∧
    (∀ k t, (s.mp k).passEnd = some t → mapOn s k = true → mapsRun s = true → t ≤ s.up →
      ∃ u, exec (.mapPassComplete k) s = .next u ∧ u.rd (F_MAP_STATUS_PASS_BUSY k) = 0 ∧ (u.mp k).passEnd = none ∧ (u.mp k).clearing = none ∧
        u.dram = s.dram)

/-- NOP, DEVICE_INFO and PATCH_STATUS complete with OK and the results of Table 10.7, and change nothing else (R291).

QUEUE_CREATE, QUEUE_DELETE, EVENT_ROUTE and ABORT (Tables 10.7, 10.10; R276, R288): a new pair takes the lowest free queue
ID and starts with head and tail 0 and PHASE 1; without quota the command ends with NO_BUDGET and creates none; a pair that
drains waits for its commands, a pair deleted at once is gone; a route and a mask are set for the issuing context; a command
that has not started, or that waits where it may be ended, is ended with ABORTED, another goes on, and a tag that is not in flight
answers NOT_FOUND. -/
def Obligations.ReadingAndQueueCommandsComplete : Prop :=
  (∀ (p : Packet) (s : State),
    (starts 0x00 p s = true → Completes (.nop p) 0x00 p s { st := .ok } (issued 0x00 p s)) ∧
    (starts 0x01 p s = true →
      Completes (.deviceInfo p) 0x01 p s
        (okR (s.reg R_GLB_REV).toNat (s.reg R_GLB_STATE).toNat (p.func + s.rd (F_HIF_F_QUOTA_QP p.func) * 65536)
          (s.rd (F_HIF_F_QUOTA_CTX p.func) - (s.fcp.ctxs.filter (fun x => x.func == p.func)).length)) (issued 0x01 p s)) ∧
    (starts 0x07 p s = true →
      Completes (.patchStatus p) 0x07 p s
        (okR (s.rd F_HIF_PATCH_VERSION + s.rd F_GLB_STATE_PATCH_ACTIVE * 256) (s.rd F_GLB_FUSE_STATUS_PATCH_FLOOR)
          (s.rd F_HIF_PATCH_REASON) 0) (issued 0x07 p s))) ∧
  (∀ (p : Packet) (s : State),
    (∀ n, starts 0x02 p s = true → pq p 4 % 4096 = 0 → pq p 6 % 4096 = 0 → 1 ≤ pf p 2 0 9 → s.pairAt? p.func (pf p 2 0 9) = none →
      1 ≤ pf p 3 0 12 → pf p 3 0 12 ≤ pf p 3 16 12 → pf p 8 0 11 < (if p.func = 0 then 1024 else 64) →
      lowestFree (s.fcp.pairs.map (fun q => q.qid)) 0 512 = some n →
      if (s.fcp.pairs.filter (fun q => q.func == p.func && q.index != 0)).length + 1 < s.rd (F_HIF_F_QUOTA_QP p.func) then
        Completes (.queueCreate p) 0x02 p s (okR n 0 0 0)
          ((issued 0x02 p s).setPairs (s.fcp.pairs ++
            [{ qid := n, func := p.func, index := pf p 2 0 9, urgent := pb p 2 9, sqSize := pf p 3 0 12 + 1, cqSize := pf p 3 16 12 + 1,
               sqBase := pq p 4, cqBase := pq p 6, vector := pf p 8 0 11, irqCount := if pf p 8 16 8 = 0 then 256 else pf p 8 16 8,
               irqTime := pf p 9 0 16, sqHead := 0, sqTail := 0, cqHead := 0, cqTail := 0, phase := true, unreleased := 0,
               unsignalled := 0, firstAt := 0, st := .running }]))
      else
        Completes (.queueCreate p) 0x02 p s { st := .noBudget, r0 := s.rd (F_HIF_F_QUOTA_QP p.func) } (issued 0x02 p s)) ∧
    (∀ q, starts 0x03 p s = true → 1 ≤ pf p 2 0 9 → s.pairAt? p.func (pf p 2 0 9) = some q → q.qid ≠ p.qid →
      if pb p 2 16 = true then
        if s.inflightOn q.qid = 0 then Completes (.queueDelete p) 0x03 p s (okR 0 0 0 0) ((issued 0x03 p s).dropPair q)
        else Waits (.queueDelete p) p s .drainPair q.qid (s.inflightOn q.qid)
          ((issued 0x03 p s).modPair q.qid (fun x => { x with st := .draining }))
      else
        ∃ u, Completes (.queueDelete p) 0x03 p s
            (okR (s.inflightOn q.qid - (s.fcp.inflight.filter (endsWith q s)).length) (s.fcp.inflight.filter (endsWith q s)).length 0 0) u
          ∧ ∀ x ∈ u.fcp.pairs, x.qid ≠ q.qid) ∧
    (starts 0x04 p s = true → (s.pairAt? p.func (pf p 2 0 9)).isSome = true →
      Completes (.eventRoute p) 0x04 p s { st := .ok }
        ((issued 0x04 p s).modCtx (pCtx p) (fun x => { x with route := some (pf p 2 0 9), mask := pf p 3 0 17 }))) ∧
    (∀ q, starts 0x05 p s = true → s.pair? (pf p 2 0 9) = some q → q.func = p.func →
      ((pf p 2 0 9 ≠ p.qid ∨ pf p 3 0 12 ≠ pTag p) → s.inflight? (pf p 2 0 9) (pf p 3 0 12) = none →
        Completes (.abortCmd p) 0x05 p s (okR 2 0 0 0) (issued 0x05 p s)) ∧
      (pf p 2 0 9 = p.qid → pf p 3 0 12 = pTag p → Completes (.abortCmd p) 0x05 p s (okR 0 0 0 0) (issued 0x05 p s)) ∧
      (∀ c, (issued 0x05 p s).inflight? (pf p 2 0 9) (pf p 3 0 12) = some c → (pf p 2 0 9 ≠ p.qid ∨ pf p 3 0 12 ≠ pTag p) →
        Completes (.abortCmd p) 0x05 p s (okR (b2n (abortable (issued 0x05 p s) c)) 0 0 0)
          (if abortable (issued 0x05 p s) c = true then endAborted (issued 0x05 p s) c else issued 0x05 p s)) ∧
      (∀ c, s.inflight? (pf p 2 0 9) (pf p 3 0 12) = some c → c.kind = .fetched ∨ c.kind = .fenced →
        ∃ x, (issued 0x05 p s).fcp.inflight.find? (fun y => y.qid == c.qid && y.tag == c.tag && y.discard == c.discard) = some x ∧
          Completes (.abortCmd p) 0x05 p s (okR 1 0 0 0) ((issued 0x05 p s).finish x { st := .aborted }))))

/-- CTX_OPEN, CTX_CLOSE, CTX_PRIV and CTX_QUOTA (R273 to R275, Table 10.7): the lowest free ID from 17 on goes to the issuing
function, with no privilege; a closed context is no longer open; privileges and quotas are as written, and function 0
holds what the VF quotas leave. -/
def Obligations.ContextCommandsComplete : Prop :=
  ∀ (p : Packet) (s : State),
    (∀ c, starts 0x10 p s = true → s.err.contained = false → lowestFree (s.fcp.ctxs.map (fun x => x.id)) 17 4079 = some c →
      if (s.fcp.ctxs.filter (fun x => x.func == p.func)).length < s.rd (F_HIF_F_QUOTA_CTX p.func) then
        ∃ u, Completes (.ctxOpen p) 0x10 p s (okR c 0 0 0) u ∧
          u.fcp.ctxs = s.fcp.ctxs ++ [{ id := c, func := p.func, priv := 0, route := none, mask := 0, broken := false }] ∧
          u.dram = s.dram ∧ u.host = s.host
      else
        Completes (.ctxOpen p) 0x10 p s { st := .noBudget, r0 := s.rd (F_HIF_F_QUOTA_CTX p.func) } (issued 0x10 p s)) ∧
    (∀ x, starts 0x11 p s = true → 17 ≤ pf p 2 0 12 → s.ctx? (pf p 2 0 12) = some x → p.func = 0 ∨ x.func = p.func →
      ∃ r u, Completes (.ctxClose p) 0x11 p s r u ∧ r.st = .ok ∧ r.r0 = (chainsOfCtx s (pf p 2 0 12)).length ∧
        u.ctx? (pf p 2 0 12) = none) ∧
    (∀ x, starts 0x12 p s = true → s.err.contained = false → p.func = 0 → 1 ≤ pf p 2 0 12 → s.ctx? (pf p 2 0 12) = some x →
      x.func = 0 ∨ (pb p 3 1 = false ∧ pb p 3 3 = false) →
      Completes (.ctxPriv p) 0x12 p s { st := .ok } ((issued 0x12 p s).modCtx (pf p 2 0 12) (fun y => { y with priv := pf p 3 0 4 }))) ∧
    (starts 0x13 p s = true → s.err.contained = false → p.func = 0 → cellWf regReset s.regs = true → 1 ≤ pf p 2 0 5 → pf p 2 0 5 ≤ 16 →
      vfSum s (pf p 2 0 5) F_HIF_F_QUOTA_QP + pf p 3 0 10 ≤ 511 → vfSum s (pf p 2 0 5) F_HIF_F_QUOTA_CTX + pf p 3 16 13 ≤ 4079 →
      ∃ u, Completes (.ctxQuota p) 0x13 p s { st := .ok } u ∧ u.rd (F_HIF_F_QUOTA_QP (pf p 2 0 5)) = pf p 3 0 10 ∧
        u.rd (F_HIF_F_QUOTA_CTX (pf p 2 0 5)) = pf p 3 16 13 ∧ u.rd (F_HIF_F_WIN_BASE (pf p 2 0 5)) = pf p 4 0 11 ∧
        u.rd (F_HIF_F_WIN_RD (pf p 2 0 5)) = pf p 4 16 1 ∧ u.rd (F_HIF_F_WIN_WR (pf p 2 0 5)) = pf p 4 17 1 ∧
        u.rd (F_HIF_F_QUOTA_QP 0) = 512 - vfSum s (pf p 2 0 5) F_HIF_F_QUOTA_QP - pf p 3 0 10 ∧
        u.rd (F_HIF_F_QUOTA_CTX 0) = 4096 - vfSum s (pf p 2 0 5) F_HIF_F_QUOTA_CTX - pf p 3 16 13)

/-- PATCH_LOAD and PATCH_APPLY (R293, R294): an image that no check of R293 refuses is accepted, and its version is
returned; a refusal carries its reason and leaves the patch in force; applying an accepted patch sets PATCH_ACTIVE and
HIF_PATCH.VERSION and posts PATCH_APPLIED to context 0. -/
def Obligations.PatchIsLoadedThenApplied : Prop :=
  (∀ (p : Packet) (s : State), starts 0x06 p s = true → p.func = 0 → s.hasPriv (pCtx p) 1 = true → pq p 2 % 64 = 0 →
    match patchReason p s with
    | none => ∃ u, Completes (.patchLoad p) 0x06 p s (okR (p.buf.getD 5 0).toNat 0 0 0) u ∧
        u.fcp.patchNew = some (p.buf.getD 5 0).toNat ∧ u.regs = (issued 0x06 p s).regs
    | some r => ∃ u, Completes (.patchLoad p) 0x06 p s { st := if r = 7 then .badParam else .notPermitted, r1 := r } u ∧
        u.fcp.patchNew = s.fcp.patchNew ∧
        (cellWf regReset s.regs = true → u.rd F_HIF_PATCH_REASON = r ∧ u.rd F_HIF_PATCH_VERSION = s.rd F_HIF_PATCH_VERSION)) ∧
  (∀ (s : State) (v : Nat), s.fcp.patchNew = some v → cellWf regReset s.regs = true →
    ∃ t, exec .patchApply s = .next t ∧ t.rd F_GLB_STATE_PATCH_ACTIVE = 1 ∧ t.rd F_HIF_PATCH_VERSION = v % 256 ∧
      t.fcp.patchNew = none ∧ t.fcp.cc0 = s.fcp.patchImg ∧ t.fcp.pairs = s.fcp.pairs ∧ t.dram = s.dram ∧
      (∀ x, s.ctx? 0 = some x → (x.mask >>> 2) % 2 = 0 → (s.fn x.func).chute.length < 256 → x.func < s.fcp.fns.length →
        (t.fn x.func).chute = (s.fn x.func).chute ++ [{ ctx := 0, code := 0x0203, d := [BitVec.ofNat 32 v] }]))

/-- The doorbells and AQ_CTRL (R276, R277, Table 10.10): a tail below the SQ size is taken; a head between the current
head and the last entry written releases the entries before it; any other value puts the pair in ERROR; a doorbell of a
pair that does not exist or is in ERROR changes no pair; EN starts pair 0 with head and tail 0. -/
def Obligations.DoorbellsMoveTheQueues : Prop :=
  ∀ (f i : Nat) (v : Word) (s : State),
    (s.pairAt? f i = none → exec (.doorbellSqTail f i v) s = .next (hostAccess s) ∧ exec (.doorbellCqHead f i v) s = .next (hostAccess s)) ∧
    (∀ q, s.pairAt? f i = some q →
      (q.st = .error → exec (.doorbellSqTail f i v) s = .next (hostAccess s) ∧ exec (.doorbellCqHead f i v) s = .next (hostAccess s)) ∧
      (q.st ≠ .error → v.toNat % 4096 < q.sqSize →
        exec (.doorbellSqTail f i v) s = .next ((hostAccess s).modPair q.qid (fun x => { x with sqTail := v.toNat % 4096 }))) ∧
      (q.st ≠ .error → q.sqSize ≤ v.toNat % 4096 →
        ∃ t, exec (.doorbellSqTail f i v) s = .next t ∧
          t.fcp.pairs = s.fcp.pairs.map (fun x => if x.qid = q.qid then { x with st := .error } else x)) ∧
      (q.st ≠ .error → v.toNat % 4096 < q.cqSize → (v.toNat % 4096 + q.cqSize - q.cqHead) % q.cqSize ≤ q.unreleased →
        exec (.doorbellCqHead f i v) s = .next ((hostAccess s).modPair q.qid (fun x =>
          { x with cqHead := v.toNat % 4096, unreleased := x.unreleased - (v.toNat % 4096 + q.cqSize - q.cqHead) % q.cqSize }))) ∧
      (q.st ≠ .error → q.cqSize ≤ v.toNat % 4096 ∨ q.unreleased < (v.toNat % 4096 + q.cqSize - q.cqHead) % q.cqSize →
        ∃ t, exec (.doorbellCqHead f i v) s = .next t ∧
          t.fcp.pairs = s.fcp.pairs.map (fun x => if x.qid = q.qid then { x with st := .error } else x))) ∧
    (∀ n, f ≤ 16 → (s.fn f).enabled = true → f < s.fcp.fns.length → (s.fn f).aqCtrl.toNat.testBit 0 = false → v.toNat.testBit 0 = true →
      1 ≤ bitsOf (s.fn f).aqSize.toNat 0 12 → bitsOf (s.fn f).aqSize.toNat 0 12 ≤ bitsOf (s.fn f).aqSize.toNat 16 12 →
      (s.fn f).aqSqBase % 4096 = 0 → (s.fn f).aqCqBase % 4096 = 0 → lowestFree (s.fcp.pairs.map (fun q => q.qid)) 0 512 = some n →
      ∃ t, exec (.aqEnable f v) s = .next t ∧ (t.fn f).aqCtrl.toNat.testBit 0 = true ∧
        t.fcp.pairs = s.fcp.pairs ++ [newPair n f 0 false (s.fn f).aqSqBase (s.fn f).aqCqBase (bitsOf (s.fn f).aqSize.toNat 0 12 + 1)
          (bitsOf (s.fn f).aqSize.toNat 16 12 + 1) (bitsOf v.toNat 16 11) 256 0])

/-- COMMAND_FETCH, FENCE_START, IRQ_TIME_EXPIRY, EVENT_DELIVERY and MSIX_VECTOR_UNMASK (R278 to R281, R284, R289): the fetched
command stands among those in flight and SQ_HEAD moves on; a fenced command starts once nothing earlier of its SQ is in
flight; the expiry and the unmasking send the message that waits; the oldest event is written at the CQ tail. -/
def Obligations.FetchFenceInterruptsAndEvents : Prop :=
  ∀ (s : State),
    (∀ (ws : List Word) (q : QPair), pickPair s = some q → opAssigned ((ws.getD 0 0).toNat % 256) = true →
      s.inflight? q.qid ((ws.getD 1 0).toNat % 4096) = none →
      ∃ t c, exec (.commandFetch (.entry ws)) s = .next t ∧ t.fcp.inflight = s.fcp.inflight ++ [c] ∧ c.qid = q.qid ∧ c.dws = ws ∧
        c.tag = (ws.getD 1 0).toNat % 4096 ∧ c.op = (ws.getD 0 0).toNat % 256 ∧ c.kind = .fetched ∧
        t.fcp.pairs = s.fcp.pairs.map (fun x => if x.qid = q.qid then { x with sqHead := (x.sqHead + 1) % x.sqSize } else x)) ∧
    (∀ (q : QPair), pickPair s = some q →
      q.st = .running ∧ s.inflightOn q.qid + q.unreleased + 1 < q.cqSize ∧ s.fcp.inflight.length < 4096) ∧
    (∀ (q t : Nat) (c : Inflight), s.inflight? q t = some c → c.kind = .fenced → mayStart s c = true →
      exec (.fenceStart q t) s = .next (s.modInflight q t (fun x => { x with kind := .fetched }))) ∧
    (∀ (q : Nat) (x : QPair), s.pair? q = some x → x.unsignalled ≠ 0 → x.irqTime ≠ 0 → x.firstAt + 1000 * x.irqTime ≤ s.up →
      exec (.irqTimeExpiry q) s = .next ((s.modPair q (fun y => { y with unsignalled := 0 })).sendMsix x.func x.vector)) ∧
    (∀ (f : Nat) (e : Ev) (rest : List Ev) (q : QPair), (s.fn f).chute = e :: rest → (routedTo s f e).or (s.pairAt? f 0) = some q →
      q.st ≠ .error → s.inflightOn q.qid + q.unreleased + 1 < q.cqSize → f < s.fcp.fns.length →
      ∃ t, exec (.eventDelivery f) s = .next t ∧ (t.fn f).chute = rest ∧ (t.fn f).lostFlag = false ∧
        t.host = memWrite s.host (q.cqBase + 32 * q.cqTail) (dwordBytes (cqEntry 0 0 0 e.ctx q.qid q.phase true false (s.fn f).lostFlag
          false q.sqHead e.code (e.d.map (fun w => w.toNat))))) ∧
    (∀ (f v : Nat), f ≤ 16 → v < (if f = 0 then 1024 else 64) → f < s.fcp.fns.length →
      (∃ t, exec (.msixVectorUnmask f v true) s = .next t ∧ v ∈ (t.fn f).masked ∧ t.fcp.msgs = s.fcp.msgs) ∧
      (∃ t, exec (.msixVectorUnmask f v false) s = .next t ∧ v ∉ (t.fn f).masked ∧ v ∉ (t.fn f).msixPending ∧
        t.fcp.msgs = if v ∈ (s.fn f).msixPending then s.fcp.msgs ++ [(f, v)] else s.fcp.msgs))

/-- REG_READ, REG_WRITE, REG_RMW, REG_POLL, REG_POLL_SAMPLE and COMMAND_TIMEOUT (R286, R291, R292): the values that the reads give;
with DIRECT the writes are made, and a single one under the master ID of the issuing function; the old value of a read-modify-write;
a poll that matches completes, one that does not waits, is read again every microsecond, and at its timeout ends with TIMEOUT. -/
def Obligations.RegisterCommandsComplete : Prop :=
  ∀ (p : Packet) (s : State),
    (starts 0xD0 p s = true → pf p 2 0 24 % 4 = 0 → pf p 2 24 2 = 0 →
      ∀ r, readBy (issued 0xD0 p s) (1 + p.func) (pf p 2 0 24) (s.hasPriv (pCtx p) 0) = r →
        Completes (.regRead p) 0xD0 p s (okR r.1.toNat 0 0 0) r.2) ∧
    (starts 0xD0 p s = true → pf p 2 0 24 % 4 = 0 → ∀ l u, regReads p (issued 0xD0 p s) = (l, u) →
      Completes (.regRead p) 0xD0 p s (okR (l.getD 0 0) (l.getD 1 0) (l.getD 2 0) (l.getD 3 0)) u) ∧
    (starts 0xD1 p s = true → pf p 2 0 24 % 4 = 0 → s.hasPriv (pCtx p) 0 = true →
      ∀ u part off, regWrites p (issued 0xD1 p s) = (u, part, off) → Completes (.regWrite p) 0xD1 p s (okR part off 0 0) u) ∧
    (starts 0xD1 p s = true → pf p 2 0 24 % 4 = 0 → s.hasPriv (pCtx p) 0 = true → pf p 2 24 2 = 0 →
      ∀ r, cmdWrite (1 + p.func) (pf p 2 0 24) (p.dws.getD 3 0) (issued 0xD1 p s) = r →
        Completes (.regWrite p) 0xD1 p s (okR (b2n r.2.1) (b2n r.2.2) 0 0) r.1) ∧
    (starts 0xD2 p s = true → pf p 2 0 24 % 4 = 0 → s.hasPriv (pCtx p) 0 = true →
      ∀ o, readBy (issued 0xD2 p s) (1 + p.func) (pf p 2 0 24) true = o →
        Completes (.regRmw p) 0xD2 p s (okR o.1.toNat 0 0 0)
          (cmdWrite (1 + p.func) (pf p 2 0 24) ((o.1 &&& ~~~(p.dws.getD 3 0)) ||| (p.dws.getD 4 0 &&& p.dws.getD 3 0)) o.2).1) ∧
    (starts 0xD3 p s = true → pf p 2 0 24 % 4 = 0 → 1 ≤ pf p 5 0 20 → pf p 5 0 20 ≤ 1000000 →
      ∀ r, readBy (issued 0xD3 p s) (1 + p.func) (pf p 2 0 24) (s.hasPriv (pCtx p) 0) = r →
        if r.1.toNat &&& pdw p 3 = pdw p 4 then Completes (.regPoll p) 0xD3 p s (okR r.1.toNat 0 0 0) r.2
        else Waits (.regPoll p) p s .regPoll r.1.toNat (s.up + pf p 5 0 20 * 1000) r.2) ∧
    (∀ (q t : Nat) (c : Inflight), s.inflight? q t = some c → c.kind = .regPoll →
      (s.up ≤ c.due → (c.due - s.up) % 1000 = 0 → c.due ≠ s.up + bitsOf (c.dws.getD 5 0).toNat 0 20 * 1000 →
        ∀ r, readBy s (1 + c.func) (bitsOf (c.dws.getD 2 0).toNat 0 24) (s.hasPriv c.ctx 0) = r →
          exec (.regPollSample q t) s = .next (if r.1.toNat &&& (c.dws.getD 3 0).toNat = (c.dws.getD 4 0).toNat
            then r.2.finish c (okR r.1.toNat 0 0 0) else r.2.modInflight q t (fun x => { x with key := r.1.toNat }))) ∧
      (c.due ≤ s.up → exec (.commandTimeout q t) s = .next (s.finish c { st := .timeout, r0 := c.key })))

/-- BAR0_HOST_WRITE, REGISTER_WRITE, LATCHING_READ, BAR2_ACCESS and GLB_OFF_ACCESS_CLEAR (R12, R20, R25, R231, R271, R272): a write
that reaches a powered block acts, whichever master makes it; a host write without DIRECT is discarded, recorded and counted; a read
gives the register's value, and of a block whose domain is off 0, which is recorded in GLB_OFF_ACCESS; a window access moves bytes of
DRAM while the window permits it, and otherwise moves none, reads 0 and is counted. -/
def Obligations.RegisterAndWindowAccess : Prop :=
  ∀ (s : State),
    (∀ (f a : Nat) (v : Word), f ≤ 16 → a < 16777216 → a % 4 = 0 →
      (reaches (1 + f) a s = true →
        exec (.bar0HostWrite f a v) s = .next (writeReg (1 + f) a v (hostAccess s)) ∧
        exec (.registerWrite (1 + f) a v false) s = .next (writeReg (1 + f) a v (hostAccess s))) ∧
      (∀ m, reaches m a s = true → exec (.registerWrite m a v false) s = .next (writeReg m a v (arrived m s))) ∧
      (regCtxDirect s f = false → cellWf regReset s.regs = true →
        ∃ t, exec (.bar0HostWrite f a v) s = .next t ∧ t.rd F_HIF_DENIED_OFS_OFFSET = a ∧ t.rd F_HIF_DENIED_SRC_FUNCTION = f ∧
          t.rd F_HIF_DENIED_SRC_CONTEXT = (s.fn f).regCtx % 4096 ∧
          t.rd F_HIF_DENIED_COUNT_COUNT = satInc 32 (s.rd F_HIF_DENIED_COUNT_COUNT) ∧ t.dram = s.dram ∧ t.eff = (hostAccess s).eff)) ∧
    (∀ (f a : Nat), f ≤ 16 → a < 16777216 → a % 4 = 0 → ¬(0x030100 ≤ a ∧ a < 0x030200) → (s.fn f).enabled = true →
      (hostAccess s).dom (domOf a) ≠ 0 →
      ∃ t, exec (.latchingRead (1 + f) a false) s = .next t ∧ t.rdata = [(1 + f, readReg (hostAccess s) a)] ∧
        t.regs = (hostAccess s).regs ∧ t.dram = s.dram) ∧
    (∀ (m a : Nat), a < 16777216 → a % 4 = 0 → isHost m = false → s.blocked m = false → mayReach m a = true →
      (s.dom (domOf a) ≠ 0 → ¬(0x030100 ≤ a ∧ a < 0x030200) →
        ∃ t, exec (.latchingRead m a false) s = .next t ∧ t.rdata = [(m, readReg s a)] ∧ t.regs = s.regs ∧ t.dram = s.dram) ∧
      (s.dom (domOf a) = 0 → cellWf regReset s.regs = true →
        ∃ t, exec (.latchingRead m a false) s = .next t ∧ t.rdata = [(m, 0)] ∧ t.rd F_GLB_OFF_ACCESS_MASTER = m % 256 ∧
          t.rd F_GLB_OFF_ACCESS_BLOCK = blockOf a % 32 ∧ t.rd F_GLB_OFF_ACCESS_WRITE = 0 ∧
          t.rd F_GLB_OFF_ACCESS_COUNT = satInc 15 (s.rd F_GLB_OFF_ACCESS_COUNT))) ∧
    (∀ (f ofs : Nat) (bs : List Byte), f ≤ 16 → (s.fn f).enabled = true →
      ofs + bs.length ≤ (if f = 0 then (s.fn 0).bar2Gib else 1) * 1073741824 → s.err.contained = false → (hostAccess s).domOn .memc = true →
      (hostAccess s).rd (F_HIF_F_WIN_WR f) = 1 → s.rd (F_HIF_F_WIN_BASE f) * 1073741824 + ofs + bs.length ≤ capacity (hostAccess s) →
      s.mem.dead = [] →
      ∃ t, exec (.bar2Access f ofs 0 (some bs)) s = .next t ∧
        t.dram = memWrite s.dram (s.rd (F_HIF_F_WIN_BASE f) * 1073741824 + ofs) bs) ∧
    (∀ (f ofs n : Nat) (l : List Byte) (u : State), f ≤ 16 → (s.fn f).enabled = true →
      ofs + n ≤ (if f = 0 then (s.fn 0).bar2Gib else 1) * 1073741824 → (hostAccess s).domOn .memc = true →
      (hostAccess s).rd (F_HIF_F_WIN_RD f) = 1 → s.rd (F_HIF_F_WIN_BASE f) * 1073741824 + ofs + n ≤ capacity (hostAccess s) →
      windowBytes (s.rd (F_HIF_F_WIN_BASE f) * 1073741824 + ofs) n { hostAccess s with rdata := [] } = (l, u) →
      exec (.bar2Access f ofs n none) s = .next { u with rdata := (bytesWords l).map (fun w => (1 + f, w)) }) ∧
    (∀ (f ofs n : Nat), f ≤ 16 → (s.fn f).enabled = true → ofs + n ≤ (if f = 0 then (s.fn 0).bar2Gib else 1) * 1073741824 →
      (hostAccess s).rd (F_HIF_F_WIN_RD f) = 0 ∨ (hostAccess s).domOn .memc = false →
      ∃ t, exec (.bar2Access f ofs n none) s = .next t ∧ t.dram = s.dram ∧ (∀ x ∈ t.rdata, x.1 = 1 + f ∧ x.2 = 0) ∧
        (cellWf regReset s.regs = true → t.rd F_HIF_WIN_BLOCKED_COUNT = satInc 32 (s.rd F_HIF_WIN_BLOCKED_COUNT))) ∧
    (∀ (m : Nat) (v : Word), reaches m R_GLB_OFF_ACCESS s = true → v.toNat.testBit 31 = true →
      exec (.glbOffAccessClear m v) s = .next ((arrived m s).setReg R_GLB_OFF_ACCESS 0))

/-- PCIE_LINK_UP, PCIE_LINK_RETRAIN, VF_ENABLE and FUNCTION_RESET (R29, R273, R295, R296): HIF_STATUS shows the link; enabling
VFs gives each its base context without privileges; a function reset leaves the function no pair and no opened context. -/
def Obligations.LinkAndFunctions : Prop :=
  ∀ (s : State), cellWf regReset s.regs = true →
    (∀ (speed width mps mrrs bar2 : Nat), s.pins.released = true → 1 ≤ speed → speed ≤ 5 → width ∈ [1, 2, 4, 8] →
      ∃ t, exec (.pcieLinkUp speed width mps mrrs bar2) s = .next t ∧ t.rd F_HIF_STATUS_LINK_SPEED = speed ∧
        t.rd F_HIF_STATUS_LINK_WIDTH = width ∧ t.rd F_HIF_STATUS_LINK_UP = 1 ∧ t.fcp.pairs = s.fcp.pairs) ∧
    (∀ (speed width : Nat), s.on F_HIF_STATUS_LINK_UP = true → 1 ≤ speed → speed ≤ 5 → width ∈ [1, 2, 4, 8] →
      ∃ t, exec (.pcieLinkRetrain speed width) s = .next t ∧ t.rd F_HIF_STATUS_LINK_SPEED = speed ∧
        t.rd F_HIF_STATUS_LINK_WIDTH = width ∧ t.rd F_HIF_STATUS_LINK_UP = 1) ∧
    (∀ (n : Nat), n ≤ 16 → s.rd F_HIF_NUM_VF_VFS ≤ n → s.fcp.fns.length = 17 →
      ∃ t, exec (.vfEnable n) s = .next t ∧ t.rd F_HIF_NUM_VF_VFS = n ∧
        (∀ v, s.rd F_HIF_NUM_VF_VFS < v → v ≤ n → (t.fn v).enabled = true ∧
          { id := v, func := v, priv := 0, route := none, mask := 0, broken := false } ∈ t.fcp.ctxs)) ∧
    (∀ (f : Nat), f ≤ 16 → (s.fn f).enabled = true →
      ∃ t, exec (.functionReset f) s = .next t ∧ (∀ q ∈ t.fcp.pairs, q.func ≠ f) ∧ ∀ x ∈ t.fcp.ctxs, x.func = f → x.id ≤ 16)

/-- CONTRACT_REQUEST and CONTRACT_MODIFY (R304 to R308, R312, R316): a request that fits is in force whole, with the fields of
its packet; it completes at once or, while FCLK rises to its floor, waits for that; one that does not fit is refused with
its quote, counted in ADM_REFUSED, and leaves every contract as it was; a broken contract answers CONTRACT_BROKEN; an
envelope that does not cover what is loaded or open answers BAD_PARAM with the check's number. -/
def Obligations.ContractsAreAcceptedWholeOrRefused : Prop :=
  ∀ (p : Packet) (s : State), s.err.contained = false → conFieldsOk p s = true →
    (starts 0x14 p s = true → contractOf s (pCtx p) = none →
      if (quoteOf (issued 0x14 p s) (packetCon p s.con.next) none []).fails = [] then
        ∃ u c, contractOf u (pCtx p) = some c ∧ c.broken = false ∧ c.order = s.con.next ∧
          c.dws = (List.range 14).map (fun i => BitVec.ofNat 32 (pdw p (i + 2))) ∧ u.dram = s.dram ∧
          if fclkRises u = true then Waits (.contractRequest p) p s .admission (pCtx p) 0 u
          else Completes (.contractRequest p) 0x14 p s (conReply u (pCtx p)) u
      else
        Completes (.contractRequest p) 0x14 p s (quoteOf (issued 0x14 p s) (packetCon p s.con.next) none []).reply
          ((issued 0x14 p s).bump F_ADM_REFUSED_COUNT)) ∧
    (∀ old, starts 0x15 p s = true → contractOf s (pCtx p) = some old →
      (old.broken = true → Completes (.contractModify p) 0x15 p s { st := .contractBroken } (issued 0x15 p s)) ∧
      (old.broken = false →
        (∀ k, coverFail (issued 0x15 p s) (pCtx p) old (packetCon p old.order) = some k →
          Completes (.contractModify p) 0x15 p s { st := .badParam, r0 := k } (issued 0x15 p s)) ∧
        (coverFail (issued 0x15 p s) (pCtx p) old (packetCon p old.order) = none →
          ∀ fixed q, (heldPieces old).map (fun x => WPiece.mk x.eng (packetCon p old.order) x.guard x.chain) = fixed →
            quoteOf (issued 0x15 p s) (packetCon p old.order) (some (pCtx p)) fixed = q →
            if q.fails = [] then
              ∃ u c, contractOf u (pCtx p) = some c ∧ c.broken = false ∧ c.order = old.order ∧
                c.dws = (List.range 14).map (fun i => BitVec.ofNat 32 (pdw p (i + 2))) ∧
                if fclkRises u = true then Waits (.contractModify p) p s .admission (pCtx p) 0 u
                else Completes (.contractModify p) 0x15 p s (conReply u (pCtx p)) u
            else Completes (.contractModify p) 0x15 p s q.reply ((issued 0x15 p s).bump F_ADM_REFUSED_COUNT))))

/-- CONTRACT_RELEASE, CONTRACT_STATUS, BUDGET_QUERY and ADMISSION_RERUN (R314, R316, R318, R319): a released context has no
contract; with DRAIN the release waits while jobs are in flight; the status gives state, pieces, free budget and order; the
budget record goes to the host buffer and nowhere else; a re-run after a rise compares the pools anew. -/
def Obligations.ContractsReleaseStatusAndBudget : Prop :=
  ∀ (p : Packet) (s : State),
    (starts 0x16 p s = true → s.err.contained = false → armedBy s (pCtx p) = false →
      (pb p 2 0 = false →
        ∃ u, Completes (.contractRelease p) 0x16 p s (okR (chainsOfCtx s (pCtx p)).length 0 0 0) u ∧ contractOf u (pCtx p) = none) ∧
      (pb p 2 0 = true →
        if (chainsOfCtx (stopCtx (issued 0x16 p s) (pCtx p)) (pCtx p)).all (fun k => drained (stopCtx (issued 0x16 p s) (pCtx p)) k) = true then
          ∃ u, Completes (.contractRelease p) 0x16 p s (okR (chainsOfCtx s (pCtx p)).length 0 0 0) u ∧ contractOf u (pCtx p) = none
        else
          Waits (.contractRelease p) p s .admission (4096 + pCtx p) 0 (stopCtx (issued 0x16 p s) (pCtx p)))) ∧
    (starts 0x17 p s = true → pb p 2 12 = false ∨ s.ctxFunc (pCtx p) = 0 →
      (pb p 2 12 = true → s.ctx? (pf p 2 0 12) = none → Completes (.contractStatus p) 0x17 p s { st := .badParam } (issued 0x17 p s)) ∧
      ∀ ctx, (if pb p 2 12 then pf p 2 0 12 else pCtx p) = ctx → (s.ctx? ctx).isSome = true →
        (contractOf s ctx = none → Completes (.contractStatus p) 0x17 p s (okR 0 0 (topF s) 0) (issued 0x17 p s)) ∧
        (∀ c, contractOf s ctx = some c → c.broken = true →
          ∃ r, Completes (.contractStatus p) 0x17 p s r (issued 0x17 p s) ∧ r.st = .ok ∧ r.r0 % 256 = 2 ∧ r.r2 = topF s ∧ r.r3 = c.order) ∧
        (∀ c, contractOf s ctx = some c → c.broken = false → s.inRecord = true →
          ∃ r, Completes (.contractStatus p) 0x17 p s r (issued 0x17 p s) ∧ r.st = .ok ∧ r.r0 % 256 = 1 ∧
            r.r1 = (c.pieces.length - (c.pieces.filter (fun x => x.chain.isSome)).length) * c.f 3 0 32 ∧ r.r2 = topF s ∧ r.r3 = c.order)) ∧
    (starts 0x18 p s = true → pq p 2 % 64 = 0 →
      ∃ u, Completes (.budgetQuery p) 0x18 p s { st := .ok } u ∧ u.host = memWrite s.host (pq p 2) (budgetRecord s) ∧
        u.regs = (issued 0x18 p s).regs ∧ u.dram = s.dram) ∧
    (s.err.contained = true → exec .admissionRerun s = .next s) ∧
    (∀ cause, s.err.contained = false → s.con.rerun = some cause → exec .admissionRerun s = .next (drains (admitRerun s cause s.con.rerunEng).1)) ∧
    (s.err.contained = false → s.con.rerun = none → s.con.risen = true →
      ∃ t, exec .admissionRerun s = .next t ∧ t.con.risen = false ∧ t.con.pools = poolCaps s ∧ t.con.list = s.con.list)

/-- Locks (R338 to R341): a read of TRY by a master that may acquire takes a free lock and returns the reader's master ID; of a held lock
it returns the owner and takes nothing; 0 written by the owner releases, anything else counts in LOCK_BAD; a forced release by the
host's function 0 or by firmware frees a held lock, marks it and counts it, and by any other master counts in LOCK_BAD. -/
def Obligations.LocksAreTakenReleasedAndForced : Prop :=
  ∀ (m n : Nat) (v : Word) (s : State), cellWf regReset s.regs = true → 1 ≤ m → m < 256 → n < 64 →
    (isHost m = true ∨ mayReach m (R_MBX_LOCK_TRY n) = true → s.blocked m = false → tryDirect s m = true →
      (lockOwner s n = 0 → ∃ t, exec (.lockTryRead m n []) s = .next t ∧ lockOwner t n = m ∧ t.rdata = [(m, BitVec.ofNat 32 m)] ∧
        ∀ k, k < 64 → k ≠ n → lockOwner t k = lockOwner s k) ∧
      (lockOwner s n ≠ 0 → ∃ t, exec (.lockTryRead m n []) s = .next t ∧ t.regs = (arrived m s).regs ∧ t.rdata = [(m, BitVec.ofNat 32 (lockOwner s n))])) ∧
    (reaches m (R_MBX_LOCK_TRY n) s = true →
      (v = 0 → lockOwner s n = m → ∃ t, exec (.lockTryWrite m n v) s = .next t ∧ lockOwner t n = 0 ∧
        t.rd F_MBX_LOCK_BAD_COUNT = s.rd F_MBX_LOCK_BAD_COUNT) ∧
      (v ≠ 0 ∨ lockOwner s n ≠ m → ∃ t, exec (.lockTryWrite m n v) s = .next t ∧ lockOwner t n = lockOwner s n ∧
        t.rd F_MBX_LOCK_BAD_COUNT = satInc F_MBX_LOCK_BAD_COUNT.w (s.rd F_MBX_LOCK_BAD_COUNT))) ∧
    (reaches m R_MBX_LOCK_FORCE s = true → v.toNat % 64 = n →
      (m = 1 ∨ (0x20 ≤ m ∧ m ≤ 0x23) → lockOwner s n ≠ 0 → ∃ t, exec (.lockForceWrite m v) s = .next t ∧ lockOwner t n = 0 ∧
        t.rd (F_MBX_LOCK_OWNER_FORCED n) = 1 ∧ t.rd F_MBX_LOCK_FORCED_COUNT = satInc F_MBX_LOCK_FORCED_COUNT.w (s.rd F_MBX_LOCK_FORCED_COUNT)) ∧
      (m = 1 ∨ (0x20 ≤ m ∧ m ≤ 0x23) → lockOwner s n = 0 → exec (.lockForceWrite m v) s = .next (arrived m s)) ∧
      (m ≠ 1 → m < 0x20 ∨ 0x23 < m → ∃ t, exec (.lockForceWrite m v) s = .next t ∧ lockOwner t n = lockOwner s n ∧
        t.rd F_MBX_LOCK_BAD_COUNT = satInc F_MBX_LOCK_BAD_COUNT.w (s.rd F_MBX_LOCK_BAD_COUNT)))

/-- Mailboxes and doorbells (R331 to R337): a doorbell takes the bits the sending side sets and loses those the receiving side clears;
a staged word waits for its message; W3 pushes the message, and a full chute refuses it; a pop takes the oldest message; device
firmware pops what the host sent it; a message that stays 10 ms in a full outbound chute is withdrawn. -/
def Obligations.MailboxesAndDoorbellsCarryMessages : Prop :=
  ∀ (m i : Nat) (toF : Bool) (v : Word) (s : State), cellWf regReset s.regs = true → s.mbx.sets.length = 32 → i < 32 →
    (mbxEn s i = true → (if toF then sideH i m else sideF i m) = true →
      (reaches m (if toF then R_MBX_S_DB_F_SET i else R_MBX_S_DB_H_SET i) s = true →
        ∃ t, exec (.doorbellSet m i toF v) s = .next t ∧ t.rd (dbBits i toF) = s.rd (dbBits i toF) ||| (v.toNat / 4 * 4)) ∧
      (reaches m (if toF then R_MBX_S_IN_W i 0 else R_MBX_S_OUT_W i 0) s = true →
        (if toF then (s.mset i).stIn else (s.mset i).stOut) = none →
        ∃ t, exec (.mailboxStageWrite m i toF 0 v) s = .next t ∧ t.regs = (arrived m s).regs ∧
          (if toF then (t.mset i).stIn else (t.mset i).stOut) = some { owner := m, words := [some v.toNat, none, none, none] }) ∧
      (∀ a b c x, reaches m (if toF then R_MBX_S_IN_W i 3 else R_MBX_S_OUT_W i 3) s = true →
        (if toF then (s.mset i).stIn else (s.mset i).stOut) = some { owner := m, words := [some a, some b, some c, x] } →
        ((if toF then (s.mset i).inb else (s.mset i).outb).full = false → (if toF then (s.mset i).inb else (s.mset i).outb).dropping = false →
          ∃ t, exec (.mailboxPush m i toF [v]) s = .next t ∧ (if toF then (t.mset i).inb else (t.mset i).outb).items =
            (if toF then (s.mset i).inb else (s.mset i).outb).items ++ [[a, b, c, v.toNat]] ∧
            (if toF then (t.mset i).stIn else (t.mset i).stOut) = none) ∧
        ((if toF then (s.mset i).inb else (s.mset i).outb).full = true → (if toF then (s.mset i).inb else (s.mset i).outb).dropping = false →
          ∃ t, exec (.mailboxPush m i toF [v]) s = .next t ∧ (if toF then (t.mset i).inb else (t.mset i).outb) =
            (if toF then (s.mset i).inb else (s.mset i).outb) ∧
            t.rd (if toF then F_MBX_S_STATUS_REFUSED_IN i else F_MBX_S_STATUS_REFUSED_OUT i) = 1))) ∧
    (mbxEn s i = true → (if toF then sideF i m else sideH i m) = true →
      (reaches m (if toF then R_MBX_S_DB_F_CLR i else R_MBX_S_DB_H_CLR i) s = true →
        ∃ t, exec (.doorbellClear m i toF v) s = .next t ∧
          t.rd (dbBits i toF) = s.rd (dbBits i toF) - (s.rd (dbBits i toF) &&& v.toNat)) ∧
      (reaches m (if toF then R_MBX_S_DB_F_MASK i else R_MBX_S_DB_H_MASK i) s = true →
        ∃ t, exec (.doorbellMaskWrite m i toF v) s = .next t ∧ t.rd (dbMask i toF) = v.toNat ∧ t.rd (dbBits i toF) = s.rd (dbBits i toF))) ∧
    (mbxEn s i = true → sideF i m = true → v = 1 → reaches m (R_MBX_S_POP i) s = true → (s.mset i).inb.head? ≠ none →
      ∃ t, exec (.mailboxPop m i v) s = .next t ∧ (t.mset i).inb.items = (s.mset i).inb.items.drop 1) ∧
    (∀ w, i ≤ 16 → (s.mset i).inb.head? = some w → (s.mset i).backlog.length < 16 →
      exec (.hostServicePop i) s = .next (serviceReply (mbxPop s i true) i w)) ∧
    (∀ T w, (s.mset i).fullAt = some T → (s.mset i).outb.head? = some w →
      (s.up < T + 10000000 → exec (.mailboxCross i) s = .next s) ∧
      (T + 10000000 ≤ s.up → ∃ t, exec (.mailboxCross i) s = .next t ∧ t.rd (F_MBX_S_STATUS_WITHDRAWN i) = 1 ∧
        t.rd (F_MBX_S_WDRAWN_W_WORD i 0) = w.getD 0 0 % 4294967296))

/-- CMP_JOB, CMP_RESUME, CMP_ABORT and CMP_STATUS, and the ends of a suspension and of an engine (R368 to R374, R532, Table 13.11): a job
in Record under a contract joins those that wait under the next number; a suspended one takes its new list; an abort completes with
how many jobs it names; with the domain off the status reads 0; a job suspended too long is aborted; a failed engine leaves service.

The work of a compression engine (R361, R368, R369, R372, R373): after the waiting jobs have been dealt out, the engine's job runs to
the next block boundary, to the end of its part or a fault, or to the end of its output list, whichever the event names; what the
run does not come to leaves the state as it was. -/
def Obligations.CompressionJobsAreCommandedAndRun : Prop :=
  (∀ (p : Packet) (s : State), cellWf regReset s.regs = true →
    (∀ k, passes 0x70 false none none p s = true → s.on (F_DMA_C_CFG_OPEN (cjChan p)) = true → chCtx s (cjChan p) = pCtx p →
      pq p 3 % 64 = 0 → pq p 7 % 64 = 0 → pb p 2 7 = false ∨ 2 ≤ cjPart p ∨ pq p 10 % 64 = 0 → cjValid p (issued 0x70 p s) = true →
      s.inRecord = true → contractOf s (pCtx p) = some k → k.broken = false →
      ∃ j, Waits (.cmpJob p) p s .cmpJob s.cmp.nextId 0 (jobQueue (cjInput p (issued 0x70 p s)).2 j) ∧ j.id = s.cmp.nextId ∧ j.ctx = pCtx p ∧
        j.stream = pf p 2 20 12 ∧ j.part = cjPart p ∧ j.chan = cjChan p ∧ j.state = 0 ∧ j.cmd = some (p.qid, pTag p) ∧
        j.inp = (cjInput p (issued 0x70 p s)).1.map (fun b => b.1)) ∧
    (∀ k j l, passes 0x71 false none none p s = true → cmpJobOf s (pf p 2 0 12) = some j → j.ctx = pCtx p → 2 ≤ j.state → pq p 3 % 64 = 0 →
      1 ≤ pf p 5 0 11 → pf p 5 0 11 ≤ 1024 → mayAccess (issued 0x71 p s) (pCtx p) (pf p 2 16 1) (pq p 3) (16 * pf p 5 0 11) false = true →
      crsEnts p s = some l → entsOk (issued 0x71 p s) (pCtx p) l = true → s.inRecord = true → contractOf s (pCtx p) = some k →
      Waits (.cmpResume p) p s .cmpJob j.id 0 (resumeJob p (issued 0x71 p s) j)) ∧
    (∀ k, passes 0x72 false none none p s = true → pb p 2 31 = true → s.cmp.jobs.any (abHit p) = true → contractOf s (pCtx p) = some k →
      Completes (.cmpAbort p) 0x72 p s (okR (s.cmp.jobs.filter (abHit p)).length 0 0 0) (abortJobs p (issued 0x72 p s))) ∧
    (∀ k j, passes 0x72 false none none p s = true → pb p 2 31 = false → cmpJobOf s (pf p 2 0 12) = some j → j.ctx = pCtx p →
      contractOf s (pCtx p) = some k →
      Completes (.cmpAbort p) 0x72 p s (okR (s.cmp.jobs.filter (abHit p)).length 0 0 0) (abortJobs p (issued 0x72 p s))) ∧
    (∀ k, passes 0x73 false none none p s = true → contractOf s (pCtx p) = some k →
      (s.dom .cmp = 0 → Completes (.cmpStatus p) 0x73 p s (okR 0 0 0 0) (issued 0x73 p s)) ∧
      (s.dom .cmp ≠ 0 → Completes (.cmpStatus p) 0x73 p s (okR (s.reg (R_CMP_E_STATUS (pf p 2 0 3))).toNat
        (s.reg (R_CMP_E_IN_LO (pf p 2 0 3))).toNat (s.reg (R_CMP_E_OUT_LO (pf p 2 0 3))).toNat (s.reg R_CMP_STATUS).toNat) (issued 0x73 p s))) ∧
    (∀ id j, cmpJobOf s id = some j → 2 ≤ j.state → s.rd F_CMP_SUSPEND_MAX_S ≠ 0 →
      (s.up < j.at_ + s.rd F_CMP_SUSPEND_MAX_S * 1000000000 → exec (.cmpSuspendExpiry id) s = .next s) ∧
      (j.at_ + s.rd F_CMP_SUSPEND_MAX_S * 1000000000 ≤ s.up → exec (.cmpSuspendExpiry id) s = .next (jobExpire s j id))) ∧
    (∀ e, e < 8 → s.dom .cmp = 2 → (s.rd F_CMP_STATUS_AVAIL).testBit e = true → exec (.cmpEngineFault e) s = .next (cmpEngineOut s e))) ∧
  (∀ (e : Nat) (s : State),
    (∀ j, jobOn (cmpKick s) e = some j →
      (tokensFor (cmpKick s) j (hostMoved j (cmpBlocks 1 (cmpKick s) j).2.1) = true → (cmpBlocks 1 (cmpKick s) j).2.2 = .going →
        exec (.cmpBlockBoundary e) s = .next (cmpKick (runSettle e j (cmpBlocks 1 (cmpKick s) j)))) ∧
      (∀ n, n = j.inp.length + j.st.inp.length + 4 → tokensFor (cmpKick s) j (hostMoved j (cmpBlocks n (cmpKick s) j).2.1) = true →
        ((cmpBlocks n (cmpKick s) j).2.2 = .done → exec (.cmpJobEnd e) s = .next (cmpKick (runSettle e j (cmpBlocks n (cmpKick s) j)))) ∧
        (∀ f, (cmpBlocks n (cmpKick s) j).2.2 = .fault f → exec (.cmpJobEnd e) s = .next (cmpKick (runSettle e j (cmpBlocks n (cmpKick s) j)))) ∧
        ((cmpBlocks n (cmpKick s) j).2.2 = .full → exec (.cmpListExhausted e) s = .next (cmpKick (runSettle e j (cmpBlocks n (cmpKick s) j)))) ∧
        ((cmpBlocks n (cmpKick s) j).2.2 = .full → exec (.cmpJobEnd e) s = .next (cmpKick (cmpKick s))))) ∧
    (jobOn (cmpKick s) e = none → exec (.cmpBlockBoundary e) s = .next (cmpKick (cmpKick s)) ∧
      exec (.cmpJobEnd e) s = .next (cmpKick (cmpKick s)) ∧ exec (.cmpListExhausted e) s = .next (cmpKick (cmpKick s))))

/-- DMA_CHAN_OPEN, DMA_CHAN_CLOSE, DMA_RING_SET, DMA_START, DMA_HALT, DMA_STATUS and DMA_COPY (R346, R348, R366, R382, Table 13.10): a
channel opens IDLE for its context; it closes at once or, with DRAIN, when it has drained; a ring is stored for a channel that does
not run; a start answers the channel's state; a halted channel answers its index at once, one with a transfer going waits for its
end; a copy waits for its transfer; without a contract there is no budget. -/
def Obligations.DmaChannelsAreOpenedAndCommanded : Prop :=
  ∀ (p : Packet) (s : State), cellWf regReset s.regs = true → s.dma.chans.length = 128 →
    (∀ k c, passes 0x60 false none none p s = true → dmaChan p = 127 ∨ s.on (F_DMA_C_CFG_OPEN (dmaChan p)) = false →
      contractOf s (pCtx p) = some k → k.broken = false → (chansOf s (pCtx p)).length < k.f 12 8 8 → wantChan p s = some c →
      ∃ u, Completes (.dmaChanOpen p) 0x60 p s (okR (c + grpMaster c * 256) 0 0 0) u ∧ u.rd (F_DMA_C_CFG_OPEN c) = 1 ∧ chCtx u c = pCtx p ∧
        u.rd (F_DMA_C_CFG_PRIO c) = pf p 2 8 2 ∧ chState u c = 1 ∧ u.chan c = Chan.reset ∧ u.dram = s.dram) ∧
    (passes 0x60 false none none p s = true → dmaChan p = 127 ∨ s.on (F_DMA_C_CFG_OPEN (dmaChan p)) = false →
      contractOf s (pCtx p) = none → Completes (.dmaChanOpen p) 0x60 p s { st := .noBudget } (issued 0x60 p s)) ∧
    (∀ k, passes 0x61 false none none p s = true → ownChan p s = true → contractOf s (pCtx p) = some k →
      (pb p 2 8 = false → Completes (.dmaChanClose p) 0x61 p s (okR ((chanCut (issued 0x61 p s) (dmaChan p)).chan (dmaChan p)).completed 0 0 0)
        (chanClose (chanCut (issued 0x61 p s) (dmaChan p)) (dmaChan p))) ∧
      (pb p 2 8 = true → closable ((issued 0x61 p s).modChan (dmaChan p) (fun k => { k with draining := true })) (dmaChan p) = false →
        ∃ u, Waits (.dmaChanClose p) p s .dmaClose (dmaChan p) 0 u ∧ (u.chan (dmaChan p)).draining = true ∧ u.rd (F_DMA_C_CFG_OPEN (dmaChan p)) = 1)) ∧
    (∀ k, passes 0x62 false none none p s = true → ownChan p s = true → contractOf s (pCtx p) = some k → pq p 3 % 64 = 0 →
      2 ≤ pf p 5 0 13 → pf p 5 0 13 ≤ 4096 → pf p 6 0 12 < pf p 5 0 13 → chRunning s (dmaChan p) = false →
      ∃ u, Completes (.dmaRingSet p) 0x62 p s { st := .ok } u ∧ u.rd64 (R_DMA_C_RING_LO (dmaChan p)) (R_DMA_C_RING_HI (dmaChan p)) = pq p 3 ∧
        u.rd (F_DMA_C_RING_SIZE_ENTRIES (dmaChan p)) = pf p 5 0 13 ∧ u.rd (F_DMA_C_RING_SIZE_POLL (dmaChan p)) = pf p 5 16 16 ∧
        u.rd (F_DMA_C_STATE_INDEX (dmaChan p)) = pf p 6 0 12 ∧ (u.chan (dmaChan p)).ring = true ∧ (u.chan (dmaChan p)).started = false ∧
        (u.chan (dmaChan p)).fetch = pf p 6 0 12 ∧ ∀ c, c ≠ dmaChan p → u.chan c = s.chan c) ∧
    (∀ k, passes 0x63 false none none p s = true → ownChan p s = true → contractOf s (pCtx p) = some k → (s.chan (dmaChan p)).ring = true →
      Completes (.dmaStart p) 0x63 p s (okR ((chanStart p (issued 0x63 p s)).reg (R_DMA_C_STATE (dmaChan p))).toNat 0 0 0)
        (chanStart p (issued 0x63 p s))) ∧
    (∀ k, passes 0x64 false none none p s = true → ownChan p s = true → contractOf s (pCtx p) = some k →
      (chState s (dmaChan p) = 5 → Completes (.dmaHalt p) 0x64 p s (okR (s.rd (F_DMA_C_STATE_INDEX (dmaChan p))) 0 0 0) (issued 0x64 p s)) ∧
      (chState s (dmaChan p) ≠ 5 → pb p 2 8 = false → xferGoing s (dmaChan p) = true →
        ∃ u, Waits (.dmaHalt p) p s .dmaHalt (dmaChan p) 0 u ∧ (u.chan (dmaChan p)).haltAfter = true ∧ u.dram = s.dram) ∧
      (chState s (dmaChan p) ≠ 5 → pb p 2 8 = true ∨ xferGoing s (dmaChan p) = false → Completes (.dmaHalt p) 0x64 p s
        (okR ((chanDrop (issued 0x64 p s) (dmaChan p)).rd (F_DMA_C_STATE_INDEX (dmaChan p))) 0 0 0) (chanDrop (issued 0x64 p s) (dmaChan p)))) ∧
    (∀ k, passes 0x65 false none none p s = true → ownChan p s = true → contractOf s (pCtx p) = some k →
      ∃ u, Completes (.dmaStatus p) 0x65 p s (okR (s.reg (R_DMA_C_STATE (dmaChan p))).toNat (s.reg (R_DMA_C_COUNTS (dmaChan p))).toNat
          (s.reg (R_DMA_C_BYTES_LO (dmaChan p))).toNat (s.reg (R_DMA_C_EMIT (dmaChan p))).toNat) u ∧ (pb p 2 8 = false → u = issued 0x65 p s) ∧
        (pb p 2 8 = true → ∀ f ∈ dmaCounts (dmaChan p), u.rd f = 0)) ∧
    (∀ k, passes 0x66 false none none p s = true → ownChan p s = true → contractOf s (pCtx p) = some k → pq p 3 % 64 = 0 → pq p 5 % 64 = 0 →
      copyOk p (issued 0x66 p s) = true → chState s (dmaChan p) = 1 →
      Waits (.dmaCopy p) p s .dmaCopy (dmaChan p) 0 (copyQueue p (issued 0x66 p s)))

/-- The channels at work (R349 to R351, R360, R364, R365): in Containment no descriptor is read; an idle channel reads its slot again
after its interval; a waiting transfer is released when pacing lets it go, at the cost of a credit where it is paced by credits; an
access that fails is tried again while tries are left, and counted; a transfer at its end is written back or replied to. -/
def Obligations.DmaTransfersRunAndRetry : Prop :=
  ∀ (c : Nat) (s : State), cellWf regReset s.regs = true → s.dma.chans.length = 128 → c < 128 →
    (∀ bytes, (s.err.contained = true → exec (.dmaDescriptorFetch c bytes) s = .next s) ∧
      (s.err.contained = false → (s.chan c).xfer = none → exec (.dmaDescriptorFetch c bytes) s = .next (fetchRing s c bytes)) ∧
      (∀ x, s.err.contained = false → (s.chan c).xfer = some x → x.released.isSome = true → x.cur = none → x.endSt = none →
        exec (.dmaDescriptorFetch c bytes) s = .next (fetchChained s c x bytes))) ∧
    (∀ bytes, (s.chan c).started = true → (s.chan c).empty = true → s.rd (F_DMA_C_RING_SIZE_POLL c) ≠ 0 →
      (s.up < (s.chan c).pollAt → exec (.dmaRingPoll c bytes) s = .next s) ∧
      ((s.chan c).pollAt ≤ s.up → exec (.dmaRingPoll c bytes) s = .next (chanFetch (s.modChan c (fun y => { y with empty := false })) c bytes))) ∧
    (s.err.contained = false →
      (mayRelease s c = true → exec (.dmaTransferRelease c) s = .next (xferRelease (paceTake s c) c)) ∧
      (mayRelease s c = false → exec (.dmaTransferRelease c) s = .next s)) ∧
    (∀ g data ue, exec (.dmaBurst g data ue) s =
      .next (grpBurst (waitMem (crRetry (grpContain s g) (fun k => k / 16 == g && decide (k < 128))) g) g data ue)) ∧
    (∀ x, (s.chan c).xfer = some x → x.released.isSome = true → x.endSt = none → x.whole = false → x.cur.isSome = true →
      x.tries < s.rd F_DMA_RETRY_COUNT →
      ∃ t, exec (.dmaReadFail c .data) s = .next t ∧ (t.chan c).xfer = some { x with tries := x.tries + 1, retries := x.retries + 1 } ∧
        t.rd (F_DMA_C_COUNTS_RETRIES c) = satInc (F_DMA_C_COUNTS_RETRIES c).w (s.rd (F_DMA_C_COUNTS_RETRIES c)) ∧ t.dram = s.dram ∧ t.host = s.host) ∧
    (∀ x, (s.chan c).xfer = some x → x.index.isSome = true → x.endSt.isSome = true ∨ x.whole = true → ringSpace s c = 0 →
      x.tries < s.rd F_DMA_RETRY_COUNT →
      ∃ t, exec (.dmaReadFail c .writeBack) s = .next t ∧ (t.chan c).xfer = some { x with tries := x.tries + 1, retries := x.retries + 1 } ∧
        t.rd (F_DMA_C_COUNTS_RETRIES c) = satInc (F_DMA_C_COUNTS_RETRIES c).w (s.rd (F_DMA_C_COUNTS_RETRIES c)) ∧ t.host = s.host) ∧
    ((s.chan c).xfer = none → (s.chan c).started = true → (s.chan c).empty = false → (s.chan c).ahead = [] →
      (s.chan c).fetchTries < s.rd F_DMA_RETRY_COUNT →
      ∃ t, exec (.dmaReadFail c .fetch) s = .next t ∧ (t.chan c).fetchTries = (s.chan c).fetchTries + 1 ∧
        t.rd (F_DMA_C_COUNTS_RETRIES c) = satInc (F_DMA_C_COUNTS_RETRIES c).w (s.rd (F_DMA_C_COUNTS_RETRIES c))) ∧
    (∀ x, (s.chan c).xfer = some x →
      (x.endSt = none → x.whole = false → exec (.dmaTransferComplete c) s = .next s) ∧
      (x.endSt.isSome = true ∨ x.whole = true → x.index = none ∨ (s.err.contained = false ∧
          (needsMem (ringSpace s c) (ringAddr s c 0) = false ∨ s.domOn .memc = true)) → exec (.dmaTransferComplete c) s = .next (xferFinish s c x)))

/-- MEM_CONFIG, MEM_STATUS, MEM_RELEASE, MEM_SPARE, MEM_TRAIN, and writes of MEM_Cc_TRN_CTRL (R399, R404, R406, R414, Table 14.8): the
configuration is kept for the next training, and each channel's limits are stored; a released channel is no longer frozen; MEM_SPARE
names the spare rank; a training is awaited with an intermediate entry; GO makes a step BUSY, and is ignored while one is. -/
def Obligations.MemoryIsConfiguredSparedAndTrained : Prop :=
  ∀ (p : Packet) (s : State), cellWf regReset s.regs = true → s.mem.chans.length = 8 →
    (passes 0x80 true none none p s = true → memCfgOk p = true →
      ∃ r u, Completes (.memConfig p) 0x80 p s r u ∧ r.st = .ok ∧ r.r0 = s.rd F_MEM_GSTATUS_DATA_RATE ∧
        u.mem = { s.mem with nextOrder := pf p 2 0 1, nextHash := pf p 2 1 1, nextInit := pf p 2 8 8, limit := pf p 3 0 16,
                             chans := u.mem.chans } ∧ u.mem.chans.length = 8 ∧
        u.rd F_MEM_CFG_SCRUB_H = pf p 2 16 12 ∧ u.dram = s.dram ∧
        ∀ c, c < 8 → u.rd (F_MEM_C_RANK_UE_LIMIT_LIMIT c) = pf p 4 0 8 ∧ u.rd (F_MEM_C_REF_CEIL c) = pf p 4 8 4 ∧
          u.rd (F_MEM_C_MIG_RATE_GBPS c) = pf p 4 16 8 ∧ ∀ q, q < 8 → owed u c q = min (pf p 4 8 4) (owed s c q)) ∧
    (passes 0x81 false none (some .memc) p s = true →
      ∃ u, Completes (.memStatus p) 0x81 p s (okR (s.reg (R_MEM_C_STATUS (pf p 2 0 3))).toNat (s.reg (R_MEM_C_CE_TOTAL (pf p 2 0 3))).toNat
          (s.reg (R_MEM_C_UE_TOTAL (pf p 2 0 3))).toNat (s.reg (R_MEM_C_COUNTS (pf p 2 0 3))).toNat) u ∧
        (pb p 2 8 = false → u = issued 0x81 p s) ∧ (pb p 2 8 = true → ∀ f ∈ mcCounters (pf p 2 0 3), u.rd f = 0)) ∧
    (passes 0x82 true none (some .memc) p s = true → mcState s (pf p 2 0 3) = 4 →
      ∃ u, Completes (.memRelease p) 0x82 p s (okR (s.reg (R_MEM_C_CAPT_INFO (pf p 2 0 3))).toNat 0 0 0) u ∧
        mcState u (pf p 2 0 3) = (s.mch (pf p 2 0 3)).before % 8 ∧ (u.mch (pf p 2 0 3)).frozenAt = none ∧ u.dram = s.dram) ∧
    (passes 0x83 true none (some .memc) p s = true → rankThere s (pf p 2 0 3) (pf p 2 4 3) = true →
      (pb p 2 8 = true → pb p 2 9 = false → s.on F_GLB_STATE_DRAM_READY = false →
        ∃ r u, Completes (.memSpare p) 0x83 p s r u ∧ r.st = .ok ∧ u.rd (F_MEM_C_SPARE_RANK (pf p 2 0 3)) = pf p 2 4 3 ∧
          u.rd (F_MEM_C_SPARE_EN (pf p 2 0 3)) = 1 ∧ u.mem = s.mem ∧ u.dram = s.dram) ∧
      (pb p 2 8 = false → pb p 2 9 = true → migrating s (pf p 2 0 3) = false → rankSt s (pf p 2 0 3) (pf p 2 4 3) ≠ 0 →
        rankSt s (pf p 2 0 3) (pf p 2 4 3) ≠ 2 → rankSt s (pf p 2 0 3) (pf p 2 4 3) ≠ 4 →
        (rankRetire (issued 0x83 p s) (pf p 2 0 3) (pf p 2 4 3)).2 = true →
        Pends (.memSpare p) 0x83 p s .memSpare (pf p 2 0 3) 0 (rankRetire (issued 0x83 p s) (pf p 2 0 3) (pf p 2 4 3)).1)) ∧
    (passes 0x84 true (some 2) (some .memc) p s = true → capRunning s = false → (List.range 16).all (fun m => !s.on (F_MAP_CTRL_EN m)) = true →
      (activeCons s).all (fun c => c.f 9 0 32 == 0) = true →
      Pends (.memTrain p) 0x84 p s .memTrain 0 0
        (trainStart ((issued 0x84 p s).setDom .memc 2) (s.mem.training.any (fun t => t.fresh)) (pb p 2 0) 0)) ∧
    (∀ m c v, c < 8 → reaches m (R_MEM_C_TRN_CTRL c) s = true → v.toNat.testBit 0 = true → mcRunning s c = true →
      (s.on (F_MEM_C_TRN_STATUS_BUSY c) = false → ∃ t, exec (.trnGo m c v) s = .next t ∧ t.rd (F_MEM_C_TRN_STATUS_BUSY c) = 1 ∧
        t.rd (F_MEM_C_TRN_STATUS_DONE c) = 0 ∧ t.mem = s.mem) ∧
      (s.on (F_MEM_C_TRN_STATUS_BUSY c) = true → ∃ t, exec (.trnGo m c v) s = .next t ∧ t.rd (F_MEM_C_TRN_STATUS_BUSY c) = 1 ∧
        t.rd (F_MEM_C_TRN_STATUS_DONE c) = s.rd (F_MEM_C_TRN_STATUS_DONE c)))

/-- Training, initialisation and self-refresh (R398 to R401, R404, R408, R409): a step that ends leaves DONE and its lanes; a step that
times out at a rank with a spare names that rank, and without one fails its channel; training ends well with what the SPDs say, or fails; each
region initialised advances the pointer; a channel whose drift check passes is READY, one whose check fails is centred again. -/
def Obligations.TrainingAndInitialisationRun : Prop :=
  ∀ (s : State), cellWf regReset s.regs = true → s.mem.chans.length = 8 →
    (∀ c lanes, c < 8 → s.on (F_MEM_C_TRN_STATUS_BUSY c) = true → s.mem.mpll = none → lanes < 2 ^ 80 →
      ∃ t, exec (.trnStepDone c lanes) s = .next t ∧ t.rd (F_MEM_C_TRN_STATUS_BUSY c) = 0 ∧ t.rd (F_MEM_C_TRN_STATUS_DONE c) = 1 ∧
        t.rd (F_MEM_C_TRN_ERRLANES_LANES c 0) + t.rd (F_MEM_C_TRN_ERRLANES_LANES c 1) * 2 ^ 32 +
          t.rd (F_MEM_C_TRN_ERRLANES_LANES c 2) * 2 ^ 64 = lanes ∧ t.mem = s.mem) ∧
    (∀ c step rank t, c < 8 → s.mem.training = some t → s.err.contained = false → mcState s c ≠ 6 →
      (spareHelps s c rank = true → 4 ≤ step →
        ∃ u, exec (.trainingStepTimeout c step rank) s = .next u ∧ (u.mch c).failed = some (step, rank) ∧ u.regs = s.regs ∧ u.err = s.err) ∧
      (s.on (F_MEM_C_SPARE_EN c) = false → exec (.trainingStepTimeout c step rank) s = .next (trainFail s c step rank))) ∧
    (∀ found t, s.mem.training = some t → s.err.contained = false → s.dom .memc ≠ 0 →
      (popOk found = true → (∀ c, c < 8 → (s.mch c).failed = none) →
        (failMask s = 0 → exec (.dramTrainingDone found) s = .next (trainGood s found t)) ∧
        (failMask s ≠ 0 → exec (.dramTrainingDone found) s = .next (trainEndFail s)))) ∧
    (∀ q, s.mem.initPtr = some q → s.domOn .memc = true → allReady s = true →
      exec .dramInitRegion s = .next (initReach s (initNext s q)) ∧
      (initNext s q < capacity s → capacity s < 2 ^ 64 →
        ∃ t, exec .dramInitRegion s = .next t ∧ t.rd64 R_MEM_INIT_PTR_LO R_MEM_INIT_PTR_HI = initNext s q ∧ t.mem.initPtr = some (initNext s q))) ∧
    (∀ c, c < 8 → mcState s c = 3 → s.domOn .memc = true → mpllHeld s = false → s.err.contained = false →
      exec (.selfRefreshExit c true) s = .next (softDone (mcReady s c)) ∧
      (s.on F_GLB_STATE_DRAM_READY = true → ∃ t, exec (.selfRefreshExit c false) s = .next t ∧ (t.mch c).drift = true ∧ t.regs = s.regs)) ∧
    (∀ c, (s.mch c).drift = true → mcState s c = 3 → s.domOn .memc = true → mpllHeld s = false →
      exec (.driftRecentre c) s = .next ((mcReady s c).raise 12 0x09 0 (resIndex c) 0))

/-- DRAM in service (R392, R393, R395, R397, R403, R404, R406): a queued write serves a read; the scrubber goes on past the granule it
read; a refresh slot of an idle rank owes nothing, one of a busy rank a slot more up to its ceiling; polled temperatures are stored;
an old write is issued; a CA parity error freezes its channel until the release; a migrated rank's spare takes its place. -/
def Obligations.MemoryServesAndIsCaredFor : Prop :=
  ∀ (s : State), cellWf regReset s.regs = true → s.mem.chans.length = 8 →
    (∀ addr port ns res, s.domOn .memc = true → addr / 64 * 64 + 64 ≤ capacity s → port < 5 →
      (wqHas s (addr / 64 * 64) = true → exec (.dramRead addr port ns res) s =
        .next (latMax (s.bump (F_MEM_C_FWD_COUNT (s.mem.map.decode (addr / 64 * 64)).ch)) port (min ns 20))) ∧
      (wqHas s (addr / 64 * 64) = false → mcState s (s.mem.map.decode (addr / 64 * 64)).ch = 2 →
        exec (.dramRead addr port ns res) s = .next (granRead (latMax s port ns) (addr / 64 * 64) res))) ∧
    (∀ res, s.domOn .memc = true → s.rd F_MEM_CFG_SCRUB_H ≠ 0 → capacity s ≠ 0 →
      (uninit s (scrubAt s) = true → ∃ t, exec (.scrubRead res) s = .next t ∧ t.mem.scrub = scrubAt s + 64 ∧ t.regs = s.regs ∧ t.dram = s.dram) ∧
      (uninit s (scrubAt s) = false → mcState s (s.mem.map.decode (scrubAt s)).ch = 2 →
        exec (.scrubRead res) s = .next (granRead (s.modMem (fun m => { m with scrub := scrubAt s + 64 })) (scrubAt s) res))) ∧
    (∀ c p, s.domOn .memc = true → mcRunning s c = true → rankSt s c p ≠ 0 →
      (mcState s c = 4 → ∀ busy, exec (.refreshSlotDue c p busy) s = .next s) ∧
      (mcState s c ≠ 4 → exec (.refreshSlotDue c p false) s = .next (setOwed s c p 0) ∧
        exec (.refreshSlotDue c p true) s = .next (setOwed s c p (min (refCeil s c) (owed s c p + 1))))) ∧
    (∀ c p ind, s.domOn .memc = true → mcState s c = 2 → rankSt s c p ≠ 0 →
      (ind < 2 → exec (.mr4Poll c p ind) s = .next (setRate s c p (ind != 0))) ∧
      (2 ≤ ind → exec (.mr4Poll c p ind) s = .next ((setRate s c p true).raise 12 0x07 0 (resRank c p) 0))) ∧
    (∀ c d x, c < 8 → d < 2 → s.domOn .memc = true →
      (∃ t, exec (.spdHubPoll c d (some x)) s = .next t ∧ t.rd (F_MEM_C_D_TEMP_TEMP c d) = x % 2 ^ (F_MEM_C_D_TEMP_TEMP c d).w ∧ t.mem = s.mem) ∧
      exec (.spdHubPoll c d none) s = .next (s.raise 12 0x08 0 (resDimm c d) 0)) ∧
    (∀ c sc e, (s.mch c).wq.find? (fun e => e.sc == sc) = some e →
      (s.up < e.at_ + 1000 * s.rd (F_MEM_C_WQ_WR_AGE_MAX c) → exec (.writeAgeExpiry c sc) s = .next s) ∧
      (e.at_ + 1000 * s.rd (F_MEM_C_WQ_WR_AGE_MAX c) ≤ s.up → mcState s c ≠ 4 →
        ∃ t, exec (.writeAgeExpiry c sc) s = .next t ∧ (t.mch c).wq = (s.mch c).wq.filter (fun y => y != e) ∧ t.regs = s.regs)) ∧
    (∀ c cmds index rank, c < 8 → s.domOn .memc = true → mcRunning s c = true → mcState s c ≠ 4 → s.err.contained = false →
      ∃ t, exec (.caParityAlert c cmds index rank) s = .next t ∧ t = caFreeze s c cmds index rank ∧ (t.mch c).before = mcState s c ∧
        (t.mch c).frozenAt = some s.up) ∧
    (∀ c T, c < 8 → (s.mch c).frozenAt = some T → s.rd (F_MEM_C_CTRL_AUTO_RELEASE c) ≠ 0 →
      (s.up < T + 1000 * s.rd (F_MEM_C_CTRL_AUTO_RELEASE c) → exec (.caAutoRelease c) s = .next s) ∧
      (T + 1000 * s.rd (F_MEM_C_CTRL_AUTO_RELEASE c) ≤ s.up → ∃ t, exec (.caAutoRelease c) s = .next t ∧
        mcState t c = (s.mch c).before % 8 ∧ (t.mch c).frozenAt = none)) ∧
    (∀ c, s.err.contained = false → mcState s c = 5 → s.domOn .memc = true → exec (.rankMigrationDone c) s = .next (migDone s c))

/-- CLK_SET, CLK_STATUS and the PLLs (R400, R418 to R422): FPLL takes a target above the floor at once, glides to it or defers it to TRG or
to the end of throttling; MPLL changes while no channel runs; a PLL that loses lock switches to ACLK or holds its code, and comes
back at its start frequency; the loss of ACLK holds every PLL that is on. -/
def Obligations.ClocksAreSetLostAndRegained : Prop :=
  ∀ (p : Packet) (s : State), cellWf regReset s.regs = true →
    (passes 0x90 true none none p s = true → clkSetValid p (issued 0x90 p s) = true → pf p 2 0 2 = 0 →
      (pf p 3 0 12 < fFloor (issued 0x90 p s) (pf p 2 2 2) →
        ∃ r, r.st = .notPermitted ∧ r.r0 = fFloor (issued 0x90 p s) (pf p 2 2 2) ∧ Completes (.clkSet p) 0x90 p s r (issued 0x90 p s)) ∧
      (fFloor (issued 0x90 p s) (pf p 2 2 2) ≤ pf p 3 0 12 → fFloor (issued 0x90 p s) (pf p 2 2 2) ≤ 2000 →
        (trgBusy s = true → pf p 2 2 2 ≠ 0 ∨ pf p 3 0 12 < s.rd (F_CKG_P_CTRL_TARGET 0) →
          ∃ r u, Completes (.clkSet p) 0x90 p s r u ∧ r.st = .deferred ∧ r.r0 = s.clk.fkhz / 1000 ∧
            u.clk.deferred = some (pf p 3 0 12, pf p 2 2 2) ∧ u.regs = (issued 0x90 p s).regs) ∧
        (trgBusy s = false → s.on F_PMU_STATUS_THROTTLED = true →
          ∃ r u, Completes (.clkSet p) 0x90 p s r u ∧ r.st = .deferred ∧ u.clk.preThr = pf p 3 0 12 ∧ u.rd (F_CKG_P_CTRL_SSC 0) = pf p 2 2 2 ∧
            u.clk.fkhz = s.clk.fkhz) ∧
        (trgBusy s = false → s.on F_PMU_STATUS_THROTTLED = false →
          (fpllSettled (clkSetGo (issued 0x90 p s) (pf p 3 0 12) (pf p 2 2 2)) = true →
            ∃ r, r.st = .ok ∧ r.r0 = (clkSetGo (issued 0x90 p s) (pf p 3 0 12) (pf p 2 2 2)).clk.fkhz / 1000 ∧
              Completes (.clkSet p) 0x90 p s r (clkSetGo (issued 0x90 p s) (pf p 3 0 12) (pf p 2 2 2))) ∧
          (fpllSettled (clkSetGo (issued 0x90 p s) (pf p 3 0 12) (pf p 2 2 2)) = false →
            Waits (.clkSet p) p s .clkGlide 0 0 (clkSetGo (issued 0x90 p s) (pf p 3 0 12) (pf p 2 2 2)))))) ∧
    (passes 0x90 true none none p s = true → clkSetValid p (issued 0x90 p s) = true → pf p 2 0 2 = 1 → s.clk.mkhz ≠ pf p 3 0 12 * 1000 →
      (List.range 8).any (fun c => s.on (F_MEM_C_TRN_STATUS_BUSY c)) = false →
      ((List.range 8).all (fun c => mcState s c == 1 || mcState s c == 3) = true →
        ∃ r, r.st = .ok ∧ r.r0 = pf p 3 0 12 ∧ Completes (.clkSet p) 0x90 p s r (mpllChange (issued 0x90 p s) (pf p 3 0 12))) ∧
      ((List.range 8).all (fun c => mcState s c == 1 || mcState s c == 3) = false →
        Completes (.clkSet p) 0x90 p s { st := .notPermitted } (issued 0x90 p s))) ∧
    (passes 0x91 false none none p s = true → pf p 2 0 2 ≠ 3 →
      Completes (.clkStatus p) 0x91 p s (okR (s.reg (R_CKG_P_STATUS (pf p 2 0 2))).toNat (s.reg (R_CKG_P_FREQ (pf p 2 0 2))).toNat
        (s.reg (R_CKG_P_COUNTS (pf p 2 0 2))).toNat (s.reg R_PMU_AVS_STATUS).toNat) (issued 0x91 p s)) ∧
    (∀ n g, s.clk.glides.getD n none = some g → n ≤ 1 →
      (s.up < g.at_ → exec (.glideStep n) s = .next s) ∧
      (g.at_ ≤ s.up → pllState s n = 3 ∨ pllState s n = 4 → exec (.glideStep n) s = .next (admWake (glideStep s n g)))) ∧
    (pllState s 0 = 3 ∨ pllState s 0 = 4 → exec (.pllLockLoss 0) s = .next (fpllLost s)) ∧
    (pllState s 2 = 3 ∨ pllState s 2 = 4 → exec (.pllLockLoss 2) s = .next (tpllLost s)) ∧
    (pllState s 0 = 5 → exec (.pllRelock 0) s = .next (fpllBack s)) ∧
    (pllState s 2 = 5 → exec (.pllRelock 2) s = .next (tpllBack s)) ∧
    (pllState s 1 = 3 ∨ pllState s 1 = 4 → exec .mpllLockLoss s = .next (mpllLost s)) ∧
    (pllState s 1 = 6 → ∃ t, exec .mpllReacquire s = .next t ∧ pllState t 1 = 3 ∧ t.mem = s.mem ∧ ∀ n, n ≠ 1 → n < 3 → pllState t n = pllState s n) ∧
    (∃ t, exec .aclkLoss s = .next t ∧ t.dram = s.dram ∧
      ∀ n, n < 3 → pllState t n = if pllState s n = 0 then 0 else 6)

/-- Voltage and temperature (R423, R424): a voltage write unanswered for 100 µs is tried twice again and then has failed; the temperature
sample is shown, and throttles from its threshold on; a throttling step falls while the die stays hot, and the end of throttling
waits a second below the release; an undervoltage is a fatal record of PMU. -/
def Obligations.VoltageAndTemperatureAreWatched : Prop :=
  ∀ (s : State), cellWf regReset s.regs = true →
    (∀ t, s.clk.avsAt = some t →
      (s.up < t + 100000 → exec .avsWriteTimeout s = .next s) ∧
      (t + 100000 ≤ s.up → s.clk.avsTries < 2 → ∃ u, exec .avsWriteTimeout s = .next u ∧ u.clk.avsAt = some s.up ∧
        u.clk.avsTries = s.clk.avsTries + 1 ∧ u.regs = s.regs) ∧
      (t + 100000 ≤ s.up → 2 ≤ s.clk.avsTries → exec .avsWriteTimeout s = .next (avsFailed s))) ∧
    (∀ T, T < 65536 → sext 16 T < min (s.rdS F_PMU_THERM_TRIP) 0x0730 →
      exec (.tempSample T) s = .next (mcvTemp (tempTake s T)) ∧ (tempTake s T).rd F_PMU_TEMP_T_NOW = T ∧
      (s.on F_PMU_STATUS_THROTTLED = false → s.rdS F_PMU_THERM_THROTTLE ≤ sext 16 T → (tempTake s T).rd F_PMU_STATUS_THROTTLED = 1 ∧
        (tempTake s T).clk.preThr = s.rd (F_CKG_P_CTRL_TARGET 0)) ∧
      (sext 16 T < s.rdS F_PMU_THERM_THROTTLE → (tempTake s T).rd F_PMU_STATUS_THROTTLED = s.rd F_PMU_STATUS_THROTTLED)) ∧
    (s.on F_PMU_STATUS_THROTTLED = true → s.rdS F_PMU_THERM_THROTTLE ≤ s.rdS F_PMU_TEMP_T_NOW → inTransition s = false →
      500 < s.rd (F_CKG_P_CTRL_TARGET 0) →
      (s.up < s.clk.thrAt → exec .throttleStep s = .next s) ∧ (s.clk.thrAt ≤ s.up → exec .throttleStep s = .next (throttleFall s))) ∧
    (∀ t, s.clk.below = some t → s.on F_PMU_STATUS_THROTTLED = true →
      (s.up < t + 1000000000 → exec .throttleRelease s = .next s) ∧ (t + 1000000000 ≤ s.up → exec .throttleRelease s = .next (throttleEnd s))) ∧
    (exec .undervolt s = .next (s.raise 1 0x0B 3 resNone 0) ∧
      ((s.err.chutes.getD 1 []).length < 4 → s.err.chutes.length = 17 →
        ∃ r, (s.raise 1 0x0B 3 resNone 0).err.chutes.getD 1 [] = s.err.chutes.getD 1 [] ++ [r] ∧ r.typ = 0x0B ∧ r.cls = 3 ∧ r.ts = s.now ∧
          (s.raise 1 0x0B 3 resNone 0).err.contained = s.err.contained))

/-- TBS_REF, TBS_STATUS, TBS_ACK, TIME_SET, PPS_OUT and writes of TBS_CTRL (R426, R429 to R432): the settings are stored and qualification
starts over; the status gives the registers; an acknowledged jump is stepped or slewed; TIME_SET sets TS96 at once, or waits for the
PPS's edge for 2 s at most; PPS_OUT's settings are stored. -/
def Obligations.TimebaseIsCommanded : Prop :=
  ∀ (p : Packet) (s : State), cellWf regReset s.regs = true →
    (passes 0x92 true none none p s = true → pf p 2 2 2 ≠ 3 → 1 ≤ pf p 4 0 16 → pf p 4 0 16 ≤ 1000 → 1 ≤ pf p 5 24 5 → pf p 5 24 5 ≤ 20 →
      ∃ u, Completes (.tbsRef p) 0x92 p s { st := .ok } u ∧ (∀ x ∈ tbsRefWrites p, u.rd x.1 = x.2) ∧ u.clk.slew = none ∧ u.clk.ppsUsed = false ∧
        u.clk.refUsed = false ∧ u.rd F_TBS_STATE_PPS_VALID = 0 ∧ u.rd F_TBS_STATE_REF10_VALID = 0 ∧ u.now = s.now) ∧
    (passes 0x93 false none none p s = true →
      Completes (.tbsStatus p) 0x93 p s (okR (s.reg R_TBS_STATE).toNat (s.reg R_TBS_STEER).toNat (s.reg R_TBS_PHASE_ERR_LO).toNat
        (s.reg R_TBS_HOLDOVER).toNat) (issued 0x93 p s)) ∧
    (passes 0x94 true none none p s = true → tbsState s = 5 →
      (pb p 2 0 = true → ∃ r u d, Completes (.tbsAck p) 0x94 p s r u ∧ r.st = .ok ∧ u.clk.step = some d ∧ d.1 = -roundNE s.clk.held ns1 ∧
        u.regs = (issued 0x94 p s).regs) ∧
      (pb p 2 0 = false → Completes (.tbsAck p) 0x94 p s (okR 0 0 0 0) (startSlew (issued 0x94 p s) s.clk.held))) ∧
    (passes 0x95 true none none p s = true → pdw p 2 = 0 → s.on F_JIN_STATUS_ARMED = false →
      (pb p 5 0 = false → ∃ u, Completes (.timeSet p) 0x95 p s (okR s.now (s.now / ns1) (s.now / ns1 / 4294967296) 0) u ∧ u.now = pTs p 2 ∧
        u.up = s.up ∧ u.clk.slew = none ∧ u.clk.step = none) ∧
      (pb p 5 0 = true → pTs p 2 % sec1 = 0 → usesPps s = true →
        ∃ u, Waits (.timeSet p) p s .timeSet 0 (s.up + 2000000000) u ∧ u.clk.setAt = some (pTs p 2 / sec1) ∧ u.now = s.now)) ∧
    (passes 0x96 true none none p s = true → 1 ≤ pf p 2 8 10 → pf p 2 8 10 ≤ 500 → (sext 32 (pdw p 3)).natAbs < 500000000 →
      ∃ u, Completes (.ppsOut p) 0x96 p s { st := .ok } u ∧ u.rd F_TBS_PPS_OUT_EN = pf p 2 0 1 ∧ u.rd F_TBS_PPS_OUT_POL = pf p 2 1 1 ∧
        u.rd F_TBS_PPS_OUT_WIDTH = pf p 2 8 10 ∧ u.rd F_TBS_PPS_OUT_OFS_OFS = pdw p 3 ∧ u.now = s.now) ∧
    (∀ m (v : Word), reaches m R_TBS_CTRL s = true → v.toNat.testBit 4 = false →
      ∃ t, exec (.tbsModeWrite m v) s = .next t ∧ t.rd F_TBS_CTRL_MODE = v.toNat % 4 ∧ t.rd F_TBS_CTRL_TBJ_MODE = v.toNat / 4 % 4 ∧
        t.reg R_TBS_COUNTS = s.reg R_TBS_COUNTS ∧ t.now = s.now ∧
        (tpllBypass s = false → tbsState t = if v.toNat % 4 = 0 then 0 else 1))

/-- The timebase's events (R426 to R432): an edge of a PPS that is not used is none; a pending step moves TS96 by whole nanoseconds when
its time comes; a gate outside the tolerance loses a valid reference; a reference valid for 2 s is used; a PPS silent for 1.1 s is
lost; a slew ends with its offset; each second PPS_OUT pulses. -/
def Obligations.TimebaseFollowsItsReferences : Prop :=
  ∀ (s : State), cellWf regReset s.regs = true →
    (∀ ts, usesPps s = false → exec (.ppsInEdge ts) s = .next s) ∧
    (∀ ts, usesPps s = true →
      (∀ v, (ppsTake s (ts / 33554432 * 33554432)).clk.setAt = some v →
        exec (.ppsInEdge ts) s = .next (ppsSet (ppsTake s (ts / 33554432 * 33554432)) (ts / 33554432 * 33554432) v)) ∧
      ((ppsTake s (ts / 33554432 * 33554432)).clk.setAt = none → (ppsTake s (ts / 33554432 * 33554432)).clk.ppsUsed = true →
        exec (.ppsInEdge ts) s = .next (ppsUse (ppsTake s (ts / 33554432 * 33554432)) (ts / 33554432 * 33554432)))) ∧
    (∀ d T, s.clk.step = some (d, T) → jinRun s = false ∨ s.jin.lemc = none ∨ T ≤ lemcNow s →
      ∃ t, exec .timeStepApply s = .next t ∧ t = stepNow s d ∧ t.now = shiftTs s.now (d * (ns1 : Int)) ∧ t.clk.step = none) ∧
    (∀ d T, s.clk.step = some (d, T) → jinRun s = true → s.jin.lemc ≠ none → lemcNow s < T → exec .timeStepApply s = .next s) ∧
    (∀ dev : Int, usesRef s = true →
      (s.rd F_TBS_REF_TOL_REF_TOL * 1099511627776 < dev.natAbs * 1000000 →
        (s.on F_TBS_STATE_REF10_VALID = true → exec (.ref10mGate dev) s = .next (refLost s false s.now)) ∧
        (s.on F_TBS_STATE_REF10_VALID = false → exec (.ref10mGate dev) s = .next s)) ∧
      (dev.natAbs * 1000000 ≤ s.rd F_TBS_REF_TOL_REF_TOL * 1099511627776 → exec (.ref10mGate dev) s = .next (gateGood s dev))) ∧
    (∀ t, s.clk.ppsSince = some t → s.clk.ppsUsed = false → usesPps s = true →
      (s.up < t + 2000000000 → exec (.refQualified true) s = .next s) ∧
      (t + 2000000000 ≤ s.up → ∃ u, exec (.refQualified true) s = .next u ∧ u.clk.ppsUsed = true ∧ u.clk.ppsFirst = true)) ∧
    (∀ t, s.clk.refSince = some t → s.clk.refUsed = false → usesRef s = true →
      (s.up < t + 2000000000 → exec (.refQualified false) s = .next s) ∧
      (t + 2000000000 ≤ s.up → ∃ u, exec (.refQualified false) s = .next u ∧ u.clk.refUsed = true ∧ u.now = s.now)) ∧
    (s.on F_TBS_STATE_REF10_VALID = true → usesRef s = true → exec (.refLoss false) s = .next (refLost s false s.now)) ∧
    (∀ ts up, s.clk.ppsLast = some (ts, up) → s.on F_TBS_STATE_PPS_VALID = true → usesPps s = true →
      (s.up < up + 1100000000 → exec (.refLoss true) s = .next s) ∧
      (up + 1100000000 ≤ s.up → exec (.refLoss true) s = .next (refLost s true (ts + 1100000000 * ns1)))) ∧
    (∀ w, s.clk.slew = some w → w.lost = false →
      (s.up < w.start + (2 * w.ramp + w.hold) → exec .slewComplete s = .next s) ∧
      (w.start + (2 * w.ramp + w.hold) ≤ s.up → ∃ t, exec .slewComplete s = .next t ∧ t.clk.slew = none ∧ t.now = s.now ∧
        (tpllBypass s = false → tbsState t = 2))) ∧
    (s.on F_TBS_PPS_OUT_EN = true → s.err.contained = false → tpllBypass s = false →
      (ppsSecond s ≤ s.clk.ppsSec → exec .ppsOutPulse s = .next s) ∧
      (s.clk.ppsSec < ppsSecond s → ∃ t, exec .ppsOutPulse s = .next t ∧ t.clk.ppsSec = ppsSecond s ∧ t.regs = s.regs ∧
        t.clk.ppsEnd = some (s.up + max 1 (min 500 (s.rd F_TBS_PPS_OUT_WIDTH)) * 1000000)))

/-- The DIS opcodes (R451, R452, R455, R460 to R463, R466): a mode or layer beyond the budget is turned away with the bandwidth free; a
mode that switches scan-out off, or that comes outside Record, completes at once, else it waits for its first frame; layers, flips,
tables and CRCs wait for a latch or a frame, and what is in effect stays until then. -/
def Obligations.DisplayOpcodesComplete : Prop :=
  ∀ (p : Packet) (s : State), cellWf regReset s.regs = true → cellWf regReset s.eff = true →
    (passes 0xA0 true none none p s = true → modeOk (modeFields p s).rd = true →
      (overBudget (issued 0xA0 p s) (modeFields p (issued 0xA0 p s)) = true →
        Completes (.disMode p) 0xA0 p s { st := .noBudget, r0 := disAvail (issued 0xA0 p s) } (issued 0xA0 p s)) ∧
      (overBudget (issued 0xA0 p s) (modeFields p (issued 0xA0 p s)) = false → pb p 2 0 = false →
        ∃ r u, Completes (.disMode p) 0xA0 p s r u ∧ r.st = .ok ∧ u.dom .dis = 0 ∧ u.rd F_DIS_CTRL_EN = 0 ∧ u.rdE F_DIS_PCLK_KHZ = pf p 3 0 20 ∧
          u.rdE F_DIS_HACT_HACTIVE = pf p 4 0 12 ∧ u.rdE F_DIS_VACT_VACTIVE = pf p 6 0 12 ∧ r.r2 = (frameNo s + 1) % 4294967296) ∧
      (overBudget (issued 0xA0 p s) (modeFields p (issued 0xA0 p s)) = false → pb p 2 0 = true → s.inRecord = false →
        Completes (.disMode p) 0xA0 p s (disReply (modeOn p (issued 0xA0 p s)) (frameNo s + 1) 0) (modeOn p (issued 0xA0 p s))) ∧
      (overBudget (issued 0xA0 p s) (modeFields p (issued 0xA0 p s)) = false → pb p 2 0 = true → s.inRecord = true →
        Waits (.disMode p) p s .disMode 0 (b2n (!(modeLit (modeOn p (issued 0xA0 p s))).on F_DIS_STATUS_MODE_PENDING))
          (modeLit (modeOn p (issued 0xA0 p s))))) ∧
    (passes 0xA1 true none none p s = true → pf p 4 0 6 = 0 → pf p 6 0 6 = 0 → pf p 2 0 2 ≠ 3 → pf p 2 3 3 < 6 → 1 ≤ pf p 7 0 14 →
      pf p 7 0 14 ≤ 8192 → 1 ≤ pf p 7 16 13 → pf p 7 16 13 ≤ 4096 → mapLayerOk (layerFields p (issued 0xA1 p s)) (pf p 2 0 2) = true →
      (overBudget (issued 0xA1 p s) (layerFields p (issued 0xA1 p s)) = true →
        Completes (.disLayer p) 0xA1 p s { st := .noBudget, r0 := disAvail (issued 0xA1 p s) } (issued 0xA1 p s)) ∧
      (overBudget (issued 0xA1 p s) (layerFields p (issued 0xA1 p s)) = false →
        ∃ u, Waits (.disLayer p) p s .disLayer (pf p 2 0 2) 0 u ∧ u.eff = s.eff ∧ u.rd (F_DIS_L_SIZE_W (pf p 2 0 2)) = pf p 7 0 14 ∧
          u.rd (F_DIS_L_SIZE_H (pf p 2 0 2)) = pf p 7 16 13 ∧ u.rd (F_DIS_L_BASE_LO_BASE (pf p 2 0 2)) = pdw p 4 ∧
          u.rd (F_DIS_L_OWNER_CONTEXT (pf p 2 0 2)) = pf p 3 0 12 ∧ (s.dis.layers.length = 3 → (u.dl (pf p 2 0 2)).commit = true))) ∧
    (passes 0xA2 false none none p s = true → (flipLayers p).all (layerOwned p s) = true →
      (∀ k ∈ flipLayers p, pf p (3 + 2 * k) 0 6 = 0 ∧ s.rd (F_DIS_L_CFG_FMT k) ≠ 4 ∧ s.rd (F_DIS_L_CFG_FMT k) ≠ 5) →
      ∃ u, Waits (.disFlip p) p s .disFlip (pf p 2 0 3) 0 u ∧ u.eff = s.eff ∧ (∀ k ∈ flipLayers p, u.rd (F_DIS_L_BASE_LO_BASE k) = pdw p (3 + 2 * k) ∧
        u.rd (F_DIS_L_BASE_HI_BASE k) = pf p (4 + 2 * k) 0 16) ∧
        (s.dis.layers.length = 3 → ∀ k ∈ flipLayers p, (u.dl k).commit = true) ∧
        ∀ k, k < 3 → k ∉ flipLayers p → u.dl k = s.dl k ∧ u.rd (F_DIS_L_BASE_LO_BASE k) = s.rd (F_DIS_L_BASE_LO_BASE k)) ∧
    (passes 0xA3 false none none p s = true → layerOwned p s (pf p 2 0 2) = true → pf p 3 0 6 = 0 → pf p 2 0 2 ≠ 3 →
      ∃ u, Waits (.disLut p) p s .disLut (pf p 2 0 2) 0 u ∧ u = lutLoad p (issued 0xA3 p s) ∧ u.rd (F_DIS_L_LUT_SWAP (pf p 2 0 2)) = 1 ∧
        ∀ k i, k < 3 → lutEntry u k i = lutEntry s k i) ∧
    (passes 0xA4 false none none p s = true → pf p 2 0 12 ≤ pf p 3 0 12 → pf p 2 16 12 ≤ pf p 3 16 12 →
      ∃ u, Waits (.disCrc p) p s .disCrc (max (pq p 4) (frameNo s + 1)) (s.up + 1000000000) u ∧ u.rd F_DIS_CRC_WIN0_X = pf p 2 0 12 ∧
        u.rd F_DIS_CRC_WIN0_Y = pf p 2 16 12 ∧ u.rd F_DIS_CRC_WIN1_X = pf p 3 0 12 ∧ u.rd F_DIS_CRC_WIN1_Y = pf p 3 16 12 ∧ u.eff = s.eff) ∧
    (passes 0xA5 false none none p s = true →
      ∃ r u, Completes (.disStatus p) 0xA5 p s r u ∧ r.st = .ok ∧
        r.r0 = (if s.dom .dis = 0 then 0 else (s.reg R_DIS_STATUS).toNat) ∧ r.r2 = (if s.dom .dis = 0 then 0 else (s.reg R_DIS_DROPPED_FLIPS).toNat) ∧
        (pb p 2 8 = false → u = issued 0xA5 p s) ∧
        (pb p 2 8 = true → u.rd F_DIS_DROPPED_FLIPS_COUNT = 0 ∧ u.rd F_DIS_UNDERRUN_COUNT = 0))

/-- Writes of DIS registers (R452, R455, R460, R462, R464, Tables 16.4 and 16.6): EN switches scan-out on and off; a commit takes effect or
waits unless DIS is HELD; a LUT swap is asked for, and entries are written to the bank that is not in use; AUX_CTRL's GO starts one
transfer at a time. -/
def Obligations.DisplayRegistersAct : Prop :=
  ∀ (m : Nat) (v : Word) (s a : State), a = arrived m s → cellWf regReset a.regs = true →
    (reaches m R_DIS_CTRL s = true → v.toNat.testBit 1 = false →
      (v.toNat.testBit 0 = a.on F_DIS_CTRL_EN →
        ∃ t, exec (.disScanoutEnable m v) s = .next t ∧ t.rd F_DIS_CTRL_CRC_EN = v.toNat / 4 % 2 ∧ t.rd F_DIS_CTRL_EN = a.rd F_DIS_CTRL_EN ∧
          t.dis = a.dis ∧ t.eff = a.eff) ∧
      (v.toNat.testBit 0 = true → a.on F_DIS_CTRL_EN = false →
        ∃ t, exec (.disScanoutEnable m v) s = .next t ∧ t.rd F_DIS_CTRL_EN = 1 ∧ (a.inRecord = true → t.dom .dis = 2 ∧ disState t = 1)) ∧
      (v.toNat.testBit 0 = false → a.on F_DIS_CTRL_EN = true →
        ∃ t, exec (.disScanoutEnable m v) s = .next t ∧ t.rd F_DIS_CTRL_EN = 0 ∧ t.dom .dis = 0 ∧ t.rd F_DIS_RESERVE_MBPS = 0)) ∧
    (reaches m R_DIS_MODE_COMMIT s = true →
      (v.toNat.testBit 0 = false ∨ disHeld a = true ∨ modeOk a.rd = false → exec (.disModeCommitGo m v) s = .next a) ∧
      (v.toNat.testBit 0 = true → disHeld a = false → modeOk a.rd = true →
        (a.rd F_DIS_RESERVE_MBPS < disNeed a a.rd → a.on F_DIS_CTRL_EN = true →
          exec (.disModeCommitGo m v) s = .next (a.wr F_DIS_STATUS_OVER_BUDGET 1)) ∧
        (disNeed a a.rd ≤ a.rd F_DIS_RESERVE_MBPS ∨ a.on F_DIS_CTRL_EN = false →
          exec (.disModeCommitGo m v) s = .next (modeCommit a) ∧
          (a.domOn .dis = true → a.rd F_DIS_STATUS_STATE ≠ 0 → disState a ≠ 1 → disState a ≠ 4 →
            (modeCommit a).rd F_DIS_STATUS_MODE_PENDING = 1 ∧ (modeCommit a).eff = a.eff)))) ∧
    (reaches m R_DIS_COMMIT s = true →
      (disHeld a = true → exec (.disLayerCommitGo m v) s = .next a) ∧
      (disHeld a = false → ∃ t, exec (.disLayerCommitGo m v) s = .next t ∧ t.eff = a.eff ∧
        (a.dis.layers.length = 3 → ∀ k, k < 3 → (t.dl k).commit = (v.toNat.testBit k || (a.dl k).commit)))) ∧
    (∀ k, 3 ≤ k → exec (.disLutSwap m k v) s = .next s) ∧
    (∀ k, k < 3 → reaches m (R_DIS_L_LUT k) s = true →
      ∃ t, exec (.disLutSwap m k v) s = .next t ∧ t.rd (F_DIS_L_LUT_LOG k) = v.toNat % 2 ∧ t.rd (F_DIS_L_LUT_SHIFT k) = v.toNat / 2 % 32 ∧ t.eff = a.eff ∧
        (v.toNat.testBit 8 = true → disHeld a = false → t.rd (F_DIS_L_LUT_SWAP k) = 1 ∧ (a.dis.layers.length = 3 → (t.dl k).swap = true)) ∧
        (v.toNat.testBit 8 = false ∨ disHeld a = true → t.dis = a.dis ∧ t.rd (F_DIS_L_LUT_SWAP k) = a.rd (F_DIS_L_LUT_SWAP k))) ∧
    (∀ i, 1024 ≤ i → exec (.disLutDataWrite m i v) s = .next s) ∧
    (∀ i, i < 1024 → reaches m (R_DIS_LUT_DATA i) s = true →
      (a.rd F_DIS_LUT_CTRL_SEL = 3 → exec (.disLutDataWrite m i v) s = .next a) ∧
      (a.rd F_DIS_LUT_CTRL_SEL < 3 → ∃ t, exec (.disLutDataWrite m i v) s = .next t ∧ t = lutPut a (a.rd F_DIS_LUT_CTRL_SEL) i v ∧ t.regs = a.regs ∧
        ∀ k j, lutEntry t k j = lutEntry a k j)) ∧
    (reaches m R_DIS_AUX_CTRL s = true →
      (a.on F_DIS_AUX_CTRL_BUSY = true →
        ∃ t, exec (.disAuxGo m v) s = .next t ∧ t.reg R_DIS_AUX_CTRL = a.reg R_DIS_AUX_CTRL ∧ t.dis = a.dis) ∧
      (a.on F_DIS_AUX_CTRL_BUSY = false →
        ∃ t, exec (.disAuxGo m v) s = .next t ∧ t.rd F_DIS_AUX_CTRL_CMD = v.toNat / 16777216 % 16 ∧ t.rd F_DIS_AUX_CTRL_LEN_M1 = v.toNat / 1048576 % 16 ∧
          (v.toNat.testBit 31 = true → t.rd F_DIS_AUX_CTRL_BUSY = 1 ∧ t.dis.auxAt = a.up) ∧
          (v.toNat.testBit 31 = false → t.rd F_DIS_AUX_CTRL_BUSY = 0 ∧ t.dis = a.dis)))

/-- The display's events (R449, R450, R452, R461 to R465): a frame starts no earlier than it is due and takes the next number; at the
latch every waiting commit is taken up or turned away, unless DIS is HELD; training ends in idle or in failure after 100 ms; the panel's
hot-plug line takes the link down and up; an AUX transfer ends with its reply. -/
def Obligations.DisplayFramesAndLinkRun : Prop :=
  ∀ (s : State), cellWf regReset s.regs = true →
    (∀ missing ue, s.domOn .dis = false ∨ s.dis.inFrame = true ∨ s.up < s.dis.notBefore → exec (.frameStart missing ue) s = .next s) ∧
    (∀ missing ue, s.domOn .dis = true → disState s = 2 ∨ disState s = 3 → s.dis.inFrame = false → s.dis.notBefore ≤ s.up →
      ∃ t, exec (.frameStart missing ue) s = .next t ∧ frameNo t = (frameNo s + 1) % 2 ^ 64 ∧ t.dis.inFrame = true ∧ t.dis.frameAt = s.up) ∧
    (scanning s = false ∨ s.dis.inFrame = false ∨ s.up < linesAt s (s.rdE F_DIS_VACT_VACTIVE) → exec .frameLatch s = .next s) ∧
    (scanning s = true → s.dis.inFrame = true → linesAt s (s.rdE F_DIS_VACT_VACTIVE) ≤ s.up →
      (disHeld s = true → exec .frameLatch s = .next (frameEnd s) ∧ (frameEnd s).eff = s.eff) ∧
      (disHeld s = false → ∃ t, exec .frameLatch s = .next t ∧ t = latchTake (frameEnd s) ∧ t.dis.inFrame = false ∧ frameNo t = frameNo s ∧
        ∀ k, k < 3 → (t.dl k).commit = false)) ∧
    (s.domOn .dis = true → disState s = 1 →
      (∃ t, exec (.disLinkTraining true) s = .next t ∧ disState t = 3 ∧ t.eff = s.eff) ∧
      (s.up < s.dis.trainAt + 100000000 → exec (.disLinkTraining false) s = .next s) ∧
      (s.dis.trainAt + 100000000 ≤ s.up → ∃ t, exec (.disLinkTraining false) s = .next t ∧ disState t = 4 ∧ t.eff = s.eff)) ∧
    (s.domOn .dis = false ∨ disState s ≠ 1 → ∀ ok, exec (.disLinkTraining ok) s = .next s) ∧
    (s.domOn .dis = true → s.rd F_DIS_STATUS_STATE ≠ 0 →
      (∃ t, exec .hpdLoss s = .next t ∧ t.pins.hpd = false ∧ t.rd F_DIS_STATUS_HPD = 0 ∧ disState t = 4 ∧
        (s.on F_DIS_STATUS_HPD = true → t.dis.inFrame = false ∧ t.dis.lost = true)) ∧
      (∃ t, exec .hpdRise s = .next t ∧ t.pins.hpd = true ∧ t.rd F_DIS_STATUS_HPD = 1 ∧ disState t = (if disState s = 4 then 1 else disState s))) ∧
    (s.domOn .dis = false ∨ s.rd F_DIS_STATUS_STATE = 0 →
      exec .hpdLoss s = .next { s with pins := { s.pins with hpd := false } } ∧ exec .hpdRise s = .next { s with pins := { s.pins with hpd := true } }) ∧
    (∀ lost, s.domOn .dis = false ∨ s.on F_DIS_STATUS_HPD = false → exec (.irqHpd lost) s = .next s) ∧
    (∀ lost, s.domOn .dis = true → s.on F_DIS_STATUS_HPD = true →
      (disState s = 4 ∨ lost = true ∧ (disState s = 2 ∨ disState s = 3) → ∃ t, exec (.irqHpd lost) s = .next t ∧ disState t = 1 ∧ t.dis.trainAt = s.up) ∧
      (disState s ≠ 4 → lost = false ∨ disState s = 1 → exec (.irqHpd lost) s = .next s)) ∧
    (∀ reply data, s.on F_DIS_AUX_CTRL_BUSY = false ∨ s.domOn .dis = false ∨ reply % 4 = 3 ∧ s.up < s.dis.auxAt + 1600000 →
      exec (.auxTransferDone reply data) s = .next s) ∧
    (∀ reply data, s.on F_DIS_AUX_CTRL_BUSY = true → s.domOn .dis = true → reply % 4 = 3 → s.dis.auxAt + 1600000 ≤ s.up →
      ∃ t, exec (.auxTransferDone reply data) s = .next t ∧ t.rd F_DIS_AUX_CTRL_BUSY = 0 ∧ t.rd F_DIS_AUX_STATUS_REPLY = 3) ∧
    (∀ reply data, s.on F_DIS_AUX_CTRL_BUSY = true → s.domOn .dis = true → reply % 4 ≠ 3 →
      ∃ t, exec (.auxTransferDone reply data) s = .next t ∧ t.rd F_DIS_AUX_CTRL_BUSY = 0 ∧ t.rd F_DIS_AUX_STATUS_REPLY = reply % 4 ∧ t.dis = s.dis ∧
        (reply % 4 = 0 → s.rd F_DIS_AUX_CTRL_CMD = 1 ∨ s.rd F_DIS_AUX_CTRL_CMD = 5 → ∀ i (h : i < data.length), i ≤ s.rd F_DIS_AUX_CTRL_LEN_M1 →
          t.rd ⟨R_DIS_AUX_DATA (i / 4), i % 4 * 8, 8⟩ = (data[i]).toNat))

/-- The MCV opcodes (R469, R471, R475, R476, R478, R480, R481, R485, R531): settings and sequence entries are stored, and what is frozen
may not change while the MCV enable is set; an injection or a calibration takes its slot and waits, and is turned away and counted when
the slot is full; the test DAC follows its codes; the status gives the registers. -/
def Obligations.ConverterOpcodesComplete : Prop :=
  ∀ (p : Packet) (s : State), cellWf regReset s.regs = true →
    (passes 0xB0 true none none p s = true → pf p 2 1 2 ≠ 3 → 100 ≤ pf p 4 0 24 → pf p 4 0 24 ≤ 10000000 →
      (s.mcv.enable = true → mcvFrozenSame p s = false → Completes (.mcvConfig p) 0xB0 p s { st := .notPermitted } (issued 0xB0 p s)) ∧
      (s.mcv.enable = false ∨ mcvFrozenSame p s = true →
        ∃ u, Completes (.mcvConfig p) 0xB0 p s { st := .ok } u ∧ u.mcv.enable = pb p 2 0 ∧ u.rd F_MCV_NOMINAL_NS = pdw p 5 ∧
          u.rd F_MCV_CAL_WIN_US = pf p 4 0 24 ∧ u.rd F_MCV_CTRL_SEQ_MODE = pf p 2 1 2 ∧ u.rd F_MCV_CTRL_SEQ_LEN = pf p 2 3 5)) ∧
    (passes 0xB1 true none none p s = true → mcvWordsOk (pdw p 3) (pdw p 4) = true → pf p 5 0 4 < 12 →
      pb p 5 8 = false ∨ pf p 3 0 4 < 8 ∧ pf p 3 6 2 = 0 →
      ∃ u, Completes (.mcvSeq p) 0xB1 p s { st := .ok } u ∧ u.rd (F_MCV_E_WIN_WIN (pf p 2 0 5)) = pf p 4 0 24 ∧
        u.rd (F_MCV_E_CFG_DWELL (pf p 2 0 5)) = pf p 3 16 16 ∧ u.reg (R_MCV_E_K (pf p 2 0 5)) = p.dws.getD 6 0 ∧
        pf p 2 0 5 ∉ u.mcv.bad ∧ u.mcv.results = s.mcv.results) ∧
    (passes 0xB2 true none (some .mcv) p s = true → mcvWordsOk (pdw p 2) (pdw p 3) = true →
      (pTs p 4 = 0 → s.mcv.inj = none → Waits (.mcvInject p) p s .mcvInject s.mcv.next 0 (injNow p (issued 0xB2 p s)).1) ∧
      (pTs p 4 = 0 → s.mcv.inj ≠ none →
        ∃ u, Completes (.mcvInject p) 0xB2 p s { st := .notPermitted } u ∧ u.mcv.inj = s.mcv.inj ∧
          u.rd F_MCV_COUNTS_INJ_DROP = satInc F_MCV_COUNTS_INJ_DROP.w (s.rd F_MCV_COUNTS_INJ_DROP)) ∧
      (pTs p 4 ≠ 0 → s.mcv.timed = none →
        ∃ u, Waits (.mcvInject p) p s .mcvInject s.mcv.next 0 u ∧ u.rdTs (R_MCV_INJ_AT_W 0) = pTs p 4 ∧ u.mcv.inj = s.mcv.inj ∧
          u.mcv.timed = some { words := some (pdw p 2, pdw p 3), cmd := s.mcv.next }) ∧
      (pTs p 4 ≠ 0 → s.mcv.timed ≠ none →
        ∃ u, Completes (.mcvInject p) 0xB2 p s { st := .notPermitted } u ∧ u.mcv.timed = s.mcv.timed ∧
          u.rd F_MCV_COUNTS_INJ_DROP = satInc F_MCV_COUNTS_INJ_DROP.w (s.rd F_MCV_COUNTS_INJ_DROP))) ∧
    (passes 0xB3 true none (some .mcv) p s = true → pf p 2 0 3 ≠ 0 →
      (s.mcv.cal = none → Waits (.mcvCal p) p s .mcvCal s.mcv.next 0 (calNow p (issued 0xB3 p s)).1) ∧
      (s.mcv.cal ≠ none →
        ∃ u, Completes (.mcvCal p) 0xB3 p s { st := .notPermitted } u ∧ u.mcv.cal = s.mcv.cal ∧
          u.rd F_MCV_COUNTS_CAL_DROP = satInc F_MCV_COUNTS_CAL_DROP.w (s.rd F_MCV_COUNTS_CAL_DROP))) ∧
    (passes 0xB4 true none (some .mcv) p s = true →
      ∃ u, Completes (.mcvDac p) 0xB4 p s { st := .ok } u ∧ u.rd F_MCV_DAC_CODE_A = pf p 3 0 16 ∧ u.rd F_MCV_DAC_CODE_B = pf p 3 16 16 ∧
        u.rd F_MCV_DAC_CTRL_EN = pf p 2 0 1 ∧ u.mcv = s.mcv ∧
        (s.domOn .mcv = true → u.pins.mcvDac =
          (if pb p 2 0 then some (if s.on F_MCV_DAC_CTRL_SEL_B then pf p 3 16 16 else pf p 3 0 16) else none))) ∧
    (passes 0xB5 false none none p s = true →
      ∃ r u, Completes (.mcvStatus p) 0xB5 p s r u ∧ r.st = .ok ∧
        r.r0 = (if s.dom .mcv = 0 then 0 else (s.reg R_MCV_STATUS).toNat) ∧
        r.r1 = (if s.dom .mcv = 0 then 0 else (s.reg (R_MCV_E_LAST (pf p 2 0 5))).toNat) ∧
        (pb p 2 8 = false → u = issued 0xB5 p s) ∧
        (pb p 2 8 = true → u.rd F_MCV_RES_LOST_COUNT = 0 ∧ u.rd F_MCV_COUNTS_REG_ABORTED = 0 ∧ u.mcv = s.mcv))

/-- Writes of MCV_CTRL and MCV_RES_POP (R475, R476, R480, R531, Table 17.5): in Record, EN = 1 starts the converter, and EN = 0 stops it and
takes its domain down; SEQ_MODE, SEQ_LEN and FUND_SRC are frozen while EN = 1; START runs one pass, holds one more, and counts the rest;
injections and calibrations take their slots or are counted; a pop removes the head. -/
def Obligations.ConverterRegistersAct : Prop :=
  ∀ (m : Nat) (v : Word) (s a : State), a = arrived m s → cellWf regReset a.regs = true →
    (reaches m R_MCV_CTRL s = true → v.toNat / 4096 % 16 = 0 →
      (v.toNat.testBit 0 = false → a.on F_MCV_CTRL_EN = false →
        ∃ t, exec (.mcvEnWrite m v) s = .next t ∧ t.rd F_MCV_CTRL_SEQ_MODE = v.toNat / 2 % 4 ∧ t.rd F_MCV_CTRL_SEQ_LEN = v.toNat / 8 % 32 ∧
          t.rd F_MCV_CTRL_FUND_SRC = v.toNat / 256 % 8 ∧ t.mcv = a.mcv) ∧
      (v.toNat.testBit 0 = true → a.on F_MCV_CTRL_EN = true →
        ∃ t, exec (.mcvEnWrite m v) s = .next t ∧ t.reg R_MCV_CTRL = a.reg R_MCV_CTRL ∧ t.mcv = a.mcv ∧
          (a.rd F_MCV_CTRL_SEQ_MODE ≠ v.toNat / 2 % 4 → t.rd F_MCV_STATUS_WRITE_REFUSED = 1)) ∧
      (v.toNat.testBit 0 = true → a.on F_MCV_CTRL_EN = false → a.pstate = 2 → a.domOn .mcv = true →
        ∃ t, exec (.mcvEnWrite m v) s = .next t ∧ t.mcv.enable = true ∧ t.rd F_MCV_CTRL_EN = 1 ∧ t.rd F_MCV_NUM_NUM = 0) ∧
      (v.toNat.testBit 0 = false → a.on F_MCV_CTRL_EN = true → a.pstate = 2 → a.domOn .mcv = true →
        ∃ t, exec (.mcvEnWrite m v) s = .next t ∧ t.mcv.enable = false ∧ t.rd F_MCV_CTRL_EN = 0 ∧ t.mcv.conv = none ∧ t.dom .mcv = 0)) ∧
    (reaches m R_MCV_CTRL s = true → a.on F_MCV_CTRL_EN = true → a.rd F_MCV_CTRL_SEQ_MODE = 1 → v.toNat.testBit 0 = true →
      v.toNat / 4096 % 16 = 2 →
      (a.mcv.pass = false → ∃ t, exec (.mcvStartWrite m v) s = .next t ∧ t.mcv.pass = true) ∧
      (a.mcv.pass = true → a.on F_MCV_STATUS_START_PENDING = false →
        ∃ t, exec (.mcvStartWrite m v) s = .next t ∧ t.rd F_MCV_STATUS_START_PENDING = 1 ∧ t.mcv = a.mcv) ∧
      (a.mcv.pass = true → a.on F_MCV_STATUS_START_PENDING = true →
        ∃ t, exec (.mcvStartWrite m v) s = .next t ∧ t.mcv = a.mcv ∧
          t.rd F_MCV_COUNTS_START_DROP = satInc F_MCV_COUNTS_START_DROP.w (a.rd F_MCV_COUNTS_START_DROP))) ∧
    (reaches m R_MCV_CTRL s = true → v.toNat.testBit 0 = a.on F_MCV_CTRL_EN → v.toNat / 4096 % 16 = 4 →
      (a.mcv.inj ≠ none → ∃ t, exec (.mcvInjGo m v) s = .next t ∧ t.mcv = a.mcv ∧
        t.rd F_MCV_COUNTS_INJ_DROP = satInc F_MCV_COUNTS_INJ_DROP.w (a.rd F_MCV_COUNTS_INJ_DROP)) ∧
      (a.mcv.inj = none → mcvRuns a = false → ∃ t, exec (.mcvInjGo m v) s = .next t ∧ t.mcv.inj = some { words := none, cmd := 0 } ∧
        t.rd F_MCV_STATUS_INJ_PENDING = 1) ∧
      (∀ c, a.mcv.inj = none → mcvRuns a = true → a.mcv.conv = some c → c.kind = 0 → c.phase ≠ .discharge →
        ∃ t, exec (.mcvInjGo m v) s = .next t ∧ t.mcv.inj = some { words := none, cmd := 0 } ∧
          t.rd F_MCV_COUNTS_REG_ABORTED = satInc F_MCV_COUNTS_REG_ABORTED.w (a.rd F_MCV_COUNTS_REG_ABORTED) ∧
          t.mcv.conv = some { c with phase := .discharge })) ∧
    (reaches m R_MCV_CTRL s = true → v.toNat.testBit 0 = a.on F_MCV_CTRL_EN → v.toNat / 4096 % 16 = 8 →
      (a.mcv.cal ≠ none → ∃ t, exec (.mcvCalGo m v) s = .next t ∧ t.mcv = a.mcv ∧
        t.rd F_MCV_COUNTS_CAL_DROP = satInc F_MCV_COUNTS_CAL_DROP.w (a.rd F_MCV_COUNTS_CAL_DROP)) ∧
      (a.mcv.cal = none → mcvRuns a = false → ∃ t, exec (.mcvCalGo m v) s = .next t ∧ t.mcv.cal.isSome = true ∧ t.rd F_MCV_STATUS_CAL_PENDING = 1) ∧
      (∀ c, a.mcv.cal = none → a.mcv.inj = none → mcvRuns a = true → a.mcv.conv = some c → c.kind = 0 → c.phase ≠ .discharge →
        ∃ t, exec (.mcvCalGo m v) s = .next t ∧ t.mcv.cal.isSome = true ∧
          t.rd F_MCV_COUNTS_REG_ABORTED = satInc F_MCV_COUNTS_REG_ABORTED.w (a.rd F_MCV_COUNTS_REG_ABORTED) ∧
          t.mcv.conv = some { c with phase := .discharge }) ∧
      (∀ c, a.mcv.cal = none → a.mcv.conv = some c → c.kind = 1 →
        ∃ t, exec (.mcvCalGo m v) s = .next t ∧ t.mcv.cal ≠ none ∧ t.mcv.conv = some c ∧ t.rd F_MCV_STATUS_CAL_PENDING = 1)) ∧
    (reaches m R_MCV_RES_POP s = true →
      (v.toNat.testBit 0 = false → exec (.mcvResPop m v) s = .next a) ∧
      (v.toNat.testBit 0 = true → ∃ t, exec (.mcvResPop m v) s = .next t ∧ t.mcv.results = a.mcv.results.drop 1 ∧
        (a.mcv.results.length ≤ 64 → t.rd F_MCV_RES_DEPTH_DEPTH = a.mcv.results.length - 1)))

/-- A conversion's course (R470 to R473, R479, R480, R484): the dwell over, the span starts at once, or with the next report when it is
locked to the mains; a timed span ends at its time; the run-down gives the result; an abandoned conversion gives way; without reports
for two periods the converter coasts; an injection at a time and a periodic calibration are asked for when their time comes. -/
def Obligations.ConversionsRun : Prop :=
  ∀ (s : State), cellWf regReset s.regs = true →
    (s.mcv.conv = none → (∀ bad, exec (.mcvDwellEnd bad) s = .next s) ∧ exec .mcvSpanEnd s = .next s ∧ exec .mcvAbandon s = .next s ∧
      exec .mcvCoast s = .next s ∧ ∀ sub ov, exec (.mcvRundownDone sub ov) s = .next s) ∧
    (∀ c, s.mcv.conv = some c → mcvRuns s = true →
      (c.phase = .dwell → s.up < c.dwellEnd → ∀ bad, exec (.mcvDwellEnd bad) s = .next s) ∧
      (c.phase = .dwell → c.dwellEnd ≤ s.up → c.kind = 0 → ∃ t, exec (.mcvDwellEnd true) s = .next t ∧ t = entryBad s c.entry ∧ c.entry ∈ t.mcv.bad) ∧
      (c.phase = .dwell → c.dwellEnd ≤ s.up → cMains c = true → mcvCoasting s = false →
        exec (.mcvDwellEnd false) s = .next (s.modConv (fun x => { x with phase := .report }))) ∧
      (c.phase = .dwell → c.dwellEnd ≤ s.up → cMains c = false →
        ∃ t d, exec (.mcvDwellEnd false) s = .next t ∧ t.mcv.conv = some d ∧ d.phase = .span ∧ d.start = s.now ∧
          d.spanEnd = some (s.up + cOrder c * bitsOf c.win 0 24 * 1000) ∧ d.dac = dacCode s) ∧
      (∀ x, c.spanEnd = some x → c.phase = .span →
        (s.up < x → exec .mcvSpanEnd s = .next s) ∧
        (x ≤ s.up → ∃ t d, exec .mcvSpanEnd s = .next t ∧ t.mcv.conv = some d ∧ d.phase = .rundown ∧ d.len = x - c.startUp)) ∧
      (∀ sub ov, c.phase = .rundown → exec (.mcvRundownDone sub ov) s = .next (runNext s c sub ov)) ∧
      (∀ sub ov, c.phase ≠ .rundown → exec (.mcvRundownDone sub ov) s = .next s) ∧
      (cMains c = true → mcvCoasting s = false →
        (s.up < s.mcv.lastRep + 2 * mcvP s / 256 → exec .mcvCoast s = .next s) ∧
        (s.mcv.lastRep + 2 * mcvP s / 256 ≤ s.up → ∃ t, exec .mcvCoast s = .next t ∧ t.rd F_MCV_STATUS_COAST = 1 ∧ t = coastNow s c)) ∧
      (cMains c = false ∨ mcvCoasting s = true → exec .mcvCoast s = .next s)) ∧
    (∀ c, s.mcv.conv = some c → (c.phase = .discharge → exec .mcvAbandon s = .next (mcvChoose s)) ∧
      (c.phase ≠ .discharge → exec .mcvAbandon s = .next s)) ∧
    (s.rdTs (R_MCV_INJ_AT_W 0) ≠ 0 → s.domOn .mcv = true → s.err.contained = false →
      (s.now < s.rdTs (R_MCV_INJ_AT_W 0) → exec .mcvInjAt s = .next s) ∧
      (s.rdTs (R_MCV_INJ_AT_W 0) ≤ s.now → ∃ t, exec .mcvInjAt s = .next t ∧ t = injAt s ∧ t.rdTs (R_MCV_INJ_AT_W 0) = 0 ∧ t.mcv.timed = none)) ∧
    (s.rdTs (R_MCV_INJ_AT_W 0) = 0 ∨ s.domOn .mcv = false ∨ s.err.contained = true → exec .mcvInjAt s = .next s) ∧
    (mcvRuns s = true → calPeriodDue s = true → ∃ t, exec .mcvCalPeriod s = .next t ∧ t.mcv.askedPeriod = true) ∧
    (mcvRuns s = false ∨ calPeriodDue s = false → exec .mcvCalPeriod s = .next s)

/-- The error log (R490 to R495, R499, R506): ERR_READ copies the fatal pair or the records asked for; ERR_ACK and a write of ERR_ACK leave
nothing unacknowledged of what they name; ERR_INJECT raises its record; a drained record stands in the log under the next SEQ, and a
fatal one enters Containment; a control core without heartbeat is a fatal record. -/
def Obligations.ErrorLogWorks : Prop :=
  ∀ (p : Packet) (s : State), cellWf regReset s.regs = true →
    (passes 0xC2 false none none p s = true → pf p 3 0 6 = 0 →
      (pb p 2 31 = true → Completes (.errRead p) 0xC2 p s (okR 2 0 (s.rd F_ERR_LOG_HEAD_NEXT_SEQ) (s.rd F_ERR_UNACKED_COUNT))
        ((issued 0xC2 p s).hostWrite (pq p 3) (fatalBytes s))) ∧
      (pb p 2 31 = false → 1 ≤ pf p 2 16 13 → pf p 2 16 13 ≤ 4096 →
        Completes (.errRead p) 0xC2 p s (okR (readList p s).length ((readList p s).headD (pf p 2 0 16)) (s.rd F_ERR_LOG_HEAD_NEXT_SEQ)
          (s.rd F_ERR_UNACKED_COUNT)) ((issued 0xC2 p s).hostWrite (pq p 3) (readBytes p s)) ∧
        (readBytes p s).length = 32 * (readList p s).length ∧ (readList p s).length ≤ pf p 2 16 13)) ∧
    (passes 0xC3 false none none p s = true → hasDiag p s = true →
      ∃ r u, Completes (.errAck p) 0xC3 p s r u ∧ r.st = .ok ∧ r.r1 = u.rd F_ERR_UNACKED_COUNT ∧
        (pb p 2 31 = true → u.err.unacked = [] ∧ u.err.tags = []) ∧
        (pb p 2 31 = false → ∀ i, i ≤ pf p 2 16 12 → (pf p 2 0 16 + i) % 65536 ∉ u.err.unacked) ∧
        ∀ q ∈ u.err.unacked, q ∈ s.err.unacked) ∧
    (passes 0xC4 true none none p s = true → hasDiag p s = true → pf p 2 0 5 ≤ 16 →
      (4 ≤ (s.err.chutes.getD (pf p 2 0 5) []).length →
        Completes (.errInject p) 0xC4 p s (okR 0xFFFFFFFF 0 0 0) (injectRec p (issued 0xC4 p s))) ∧
      ((s.err.chutes.getD (pf p 2 0 5) []).length < 4 →
        Completes (.errInject p) 0xC4 p s (okR ((injectSeq p (issued 0xC4 p s)).2.getD 0xFFFFFFFF) 0 0 0) (injectSeq p (issued 0xC4 p s)).1)) ∧
    (∀ m (v : Word), reaches m R_ERR_ACK s = true →
      ∃ t, exec (.errAckWrite m v) s = .next t ∧ (∀ q ∈ t.err.unacked, q ∈ s.err.unacked) ∧
        (v.toNat.testBit 31 = true → t.err.unacked = [] ∧ t.err.tags = []) ∧
        (v.toNat.testBit 31 = false → v.toNat % 65536 ∉ t.err.unacked ∧
          ∀ q ∈ s.err.unacked, q ≠ v.toNat % 65536 → q ∈ t.err.unacked)) ∧
    ((∀ b, b < 17 → s.err.chutes.getD b [] = []) → exec (.errRecordDrain []) s = .next s) ∧
    (∀ b r rs, drainNext s = some b → s.err.chutes.getD b [] = r :: rs →
      (r.cls = 3 → ∃ t, exec (.errRecordDrain []) s = .next t ∧ t.err.contained = true) ∧
      (r.cls < 2 ∨ r.cls = 2 ∧ matchTag s r = none → s.ctxFunc 0 = 0 →
        s.err.unacked.any (fun x => x % 4096 == s.rd F_ERR_LOG_HEAD_NEXT_SEQ % 4096) = false →
        ∃ t, exec (.errRecordDrain []) s = .next t ∧ t.err.chutes.getD b [] = rs ∧ t.err.contained = s.err.contained ∧
          t.rd F_ERR_LOG_HEAD_NEXT_SEQ = (s.rd F_ERR_LOG_HEAD_NEXT_SEQ + 1) % 65536 ∧ t.err.unacked = (if r.cls = 2 then s.err.unacked ++ [s.rd F_ERR_LOG_HEAD_NEXT_SEQ] else s.err.unacked) ∧
          logRec t (s.rd F_ERR_LOG_HEAD_NEXT_SEQ) = some { r with seq := s.rd F_ERR_LOG_HEAD_NEXT_SEQ, acked := decide (r.cls < 2), lostBefore := s.err.lost.getD b false })) ∧
    (∀ core, s.err.chutes.length = 17 →
      ((s.err.chutes.getD 15 []).length < 4 → ∃ t r, exec (.ccHang core) s = .next t ∧ t.err.chutes.getD 15 [] = s.err.chutes.getD 15 [] ++ [r] ∧
        r.typ = 2 ∧ r.cls = 3 ∧ r.resource = resIndex (core % 4) ∧ r.ts = s.now ∧ t.err.contained = s.err.contained) ∧
      (4 ≤ (s.err.chutes.getD 15 []).length → ∃ t, exec (.ccHang core) s = .next t ∧ t.err.contained = true))

/-- The Sheaf (R501 to R506): SNAP_FIRE, a write of FIRE and an edge of SNAP_IN decide a fire and lock it, and one that finds it locked is
counted and ignored; REARM cancels and unlocks; at its time the fire latches; SNAP_READ copies the image of 1024 bytes. -/
def Obligations.SheafFiresAndLatches : Prop :=
  ∀ (p : Packet) (s : State), cellWf regReset s.regs = true →
    (passes 0xC0 false none none p s = true → hasDiag p s = true → pTs p 2 = 0 ∨ s.now ≤ pTs p 2 ∧ pTs p 2 ≤ s.now + 60 * (1000000000 * ns1) →
      (s.on F_SHF_STATUS_LOCKED = true → Completes (.snapFire p) 0xC0 p s { st := .notPermitted } (issued 0xC0 p s)) ∧
      (s.on F_SHF_STATUS_LOCKED = false →
        ∃ u, Waits (.snapFire p) p s .snapFire 0 0 u ∧ u.shf.decided = some (1, if pTs p 2 = 0 then sheafTf s s.now else pTs p 2) ∧
          u.rd F_SHF_STATUS_LOCKED = 1 ∧ u.rd F_SHF_STATUS_SOURCE = 1)) ∧
    (passes 0xC1 false none none p s = true → pb p 4 0 = false ∨ hasDiag p s = true → pf p 2 0 6 = 0 →
      (s.shf.everFired = false → Completes (.snapRead p) 0xC1 p s { st := .notPermitted } (issued 0xC1 p s)) ∧
      (s.shf.everFired = true →
        Completes (.snapRead p) 0xC1 p s (okR (s.rd F_SHF_STATUS_SOURCE) (s.rd F_SHF_COUNT_COUNT) 0 0) (snapCopy p (issued 0xC1 p s)) ∧
        (snapImage s).length = 1024 ∧
        (pb p 4 0 = false → (snapCopy p (issued 0xC1 p s)).regs = (issued 0xC1 p s).regs ∧ (snapCopy p (issued 0xC1 p s)).shf = s.shf) ∧
        (pb p 4 0 = true → (snapCopy p (issued 0xC1 p s)).rd F_SHF_STATUS_LOCKED = 0 ∧ (snapCopy p (issued 0xC1 p s)).shf.decided = none))) ∧
    (∀ m (v : Word) a, a = arrived m s → cellWf regReset a.regs = true → reaches m R_SHF_CTRL s = true →
      (v.toNat.testBit 0 = true → v.toNat.testBit 1 = false →
        (a.on F_SHF_STATUS_LOCKED = false → ∃ t, exec (.shfFireWrite m v) s = .next t ∧ t.shf.decided = some (1, sheafTf a a.now) ∧
          t.rd F_SHF_STATUS_LOCKED = 1) ∧
        (a.on F_SHF_STATUS_LOCKED = true → sheafTwin a = none → ∃ t, exec (.shfFireWrite m v) s = .next t ∧ t.shf.decided = a.shf.decided ∧
          t.rd F_SHF_IGNORED_COUNT = satInc F_SHF_IGNORED_COUNT.w (a.rd F_SHF_IGNORED_COUNT))) ∧
      (v.toNat.testBit 0 = false → v.toNat.testBit 1 = true →
        ∃ t, exec (.shfRearmWrite m v) s = .next t ∧ t.rd F_SHF_STATUS_LOCKED = 0 ∧ t.rd F_SHF_STATUS_REPLACED = 0 ∧ t.shf.decided = none ∧
          t.rd F_SHF_CTRL_IN_EN = v.toNat / 4 % 2 ∧ t.rd F_SHF_CTRL_ERR_CLASS = v.toNat / 64 % 4)) ∧
    (∀ level, s.pins.snapIn = level ∨ s.on F_SHF_CTRL_IN_EN = false ∨ level = s.on F_SHF_CTRL_IN_POL →
      exec (.snapInEdge level) s = .next { s with pins := { s.pins with snapIn := level } }) ∧
    (∀ level, s.pins.snapIn ≠ level → s.on F_SHF_CTRL_IN_EN = true → level ≠ s.on F_SHF_CTRL_IN_POL →
      ∃ t, exec (.snapInEdge level) s = .next t ∧ t.pins.snapIn = level ∧
        (s.on F_SHF_STATUS_LOCKED = false → t.shf.decided = some (2, sheafTf s (s.now - 10 * ns1)) ∧ t.rd F_SHF_STATUS_SOURCE = 2) ∧
        (s.on F_SHF_STATUS_LOCKED = true → sheafTwin s = none → t.shf = s.shf)) ∧
    (s.shf.decided = none → exec .sheafLatch s = .next s) ∧
    (∀ src tf, s.shf.decided = some (src, tf) →
      (s.now < tf → exec .sheafLatch s = .next s) ∧
      (tf ≤ s.now → ∃ t, exec .sheafLatch s = .next t ∧ t = sheafLatch s src tf ∧ t.shf.decided = none ∧ t.shf.everFired = true ∧
        t.err = s.err ∧ t.rd F_SHF_COUNT_COUNT = satInc F_SHF_COUNT_COUNT.w (s.rd F_SHF_COUNT_COUNT) ∧
        (src ≠ 6 → t.pins.snapOut = .high)))

/-- PSTATE_SET, PSTATE_STATUS, WATCH_CONFIG, the wakes and HOSTLINK's return (R31, R435, R440, R530): in the state asked for the command
completes at once, else it waits for it; the watch settings are stored and arm the wake alarm; a low WAKE_N wakes only where the pin
is enabled; an alarm fires once; HOSTLINK and FPLL return to rest 10 ms after the last access.

The transitions (R436 to R440, R201): each takes place only in its own state of transition, outside Containment, and once what it
waits for is done; the catch-up of a flush is over when every stream's lag is within its limit. -/
def Obligations.PowerStatesAreAskedForAndTaken : Prop :=
  (∀ (p : Packet) (s : State), cellWf regReset s.regs = true →
    (passes 0xE0 false (some 3) none p s = true → pf p 2 0 2 ≠ 3 → recordHeld s = false →
      (s.clk.trans = none → s.pstate = pf p 2 0 2 → Completes (.pstateSet p) 0xE0 p s (okR (pf p 2 0 2) 0 0 0) (issued 0xE0 p s)) ∧
      (s.clk.trans = none → s.pstate ≠ pf p 2 0 2 → pf p 2 0 2 ≠ 2 ∨ s.on F_GLB_STATE_DRAM_READY = true →
        Waits (.pstateSet p) p s .psWant (pf p 2 0 2) (psDue p s) (psSet p (issued 0xE0 p s))) ∧
      (s.clk.trans = none → s.pstate ≠ 2 → pf p 2 0 2 = 2 → s.on F_GLB_STATE_DRAM_READY = false → s.mem.training ≠ none →
        Pends (.pstateSet p) 0xE0 p s .psWant 2 (psDue p s) (psSet p (issued 0xE0 p s)))) ∧
    (passes 0xE1 false none none p s = true →
      Completes (.pstateStatus p) 0xE1 p s (okR (s.reg R_GLB_STATE).toNat (s.reg R_PMU_DOM_LO).toNat (s.reg R_PMU_TRANS).toNat
        (s.reg R_PMU_TEMP).toNat) (issued 0xE1 p s)) ∧
    (passes 0xE2 false (some 3) none p s = true → pf p 2 0 4 ≤ 11 → watchHeld s = false →
      ∃ u, Completes (.watchConfig p) 0xE2 p s { st := .ok } u ∧ u.rd F_GLB_CTRL_WATCH_BARN = pf p 2 0 4 ∧ u.rd F_GLB_CTRL_WATCH_MCV = pf p 2 4 1 ∧
        u.rd F_PMU_CTRL_WAKE_PIN_EN = pf p 2 8 1 ∧ u.rd F_PMU_CTRL_WAKE_ALARM_EN = pf p 2 9 1 ∧ u.rdTs (R_PMU_WAKE_AT_W 0) = pTs p 3 ∧
        u.clk.wakeArmed = true ∧ u.eff = s.eff) ∧
    (s.on F_PMU_CTRL_WAKE_PIN_EN = false → ∃ t, exec .wakeNAssert s = .next t ∧ t.pins.wakeN = false ∧ t.regs = s.regs ∧ t.clk = s.clk) ∧
    (s.on F_PMU_CTRL_WAKE_PIN_EN = true → exec .wakeNAssert s = .next (askWatch { s with pins := { s.pins with wakeN := false } } 5)) ∧
    (s.clk.wakeArmed = true → s.on F_PMU_CTRL_WAKE_ALARM_EN = true →
      (s.now < s.rdTs (R_PMU_WAKE_AT_W 0) → exec (.alarmFire false) s = .next s) ∧
      (s.rdTs (R_PMU_WAKE_AT_W 0) ≤ s.now → s.pstate ≠ 0 → ∃ t, exec (.alarmFire false) s = .next t ∧ t.clk.wakeArmed = false ∧ t.regs = s.regs) ∧
      (s.rdTs (R_PMU_WAKE_AT_W 0) ≤ s.now → exec (.alarmFire false) s = .next (askWatch (s.modClk (fun c => { c with wakeArmed := false })) 6))) ∧
    (s.shf.alarmArmed = true → s.on F_SHF_CTRL_ALARM_EN = true → s.rdTs (R_SHF_ALARM_W 0) ≤ s.now →
      ∃ t, exec (.alarmFire true) s = .next t ∧ t = sheafDecide { s with shf := { s.shf with alarmArmed := false } } 3
        (sheafTf { s with shf := { s.shf with alarmArmed := false } } s.now)) ∧
    (s.pstate = 0 → s.dom .hostlink = 2 →
      (s.up < s.clk.access + 10000000 → exec .restHostlinkReturn s = .next s) ∧
      (s.clk.access + 10000000 ≤ s.up → ∃ t, exec .restHostlinkReturn s = .next t ∧ t.dom .hostlink = 1 ∧ pllState t 0 = 0 ∧ t.clk.fkhz = 0))) ∧
  (∀ (s : State),
    (s.err.contained = true → exec .restToWatch s = .next s ∧ exec .watchToRecord s = .next s ∧ exec .recordToWatch s = .next s ∧
      exec .watchToRest s = .next s ∧ exec .flushCatchupDone s = .next s) ∧
    (s.err.contained = false →
      (s.pstate = 4 → exec .restToWatch s = .next (restWatch s)) ∧ (s.pstate ≠ 4 → exec .restToWatch s = .next s) ∧
      (∀ t, s.clk.trans = some t → s.pstate = 5 → memAwake s = true → exec .watchToRecord s = .next (watchRecord s t.ts)) ∧
      (capState s = 3 → caughtUp s = true → exec .flushCatchupDone s = .next (flushDone s)) ∧
      (capState s = 3 → caughtUp s = false → exec .flushCatchupDone s = .next s) ∧
      (∀ t, s.clk.trans = some t → s.pstate = 6 → jobsOwed s (barnsDown (watchApply s)) t.ts = false →
        exec .recordToWatch s = .next (recordWatch s)) ∧
      (∀ t, s.clk.trans = some t → s.pstate = 6 → jobsOwed s (barnsDown (watchApply s)) t.ts = true → exec .recordToWatch s = .next s) ∧
      (s.pstate = 7 → dmaQuiet s = true → exec .watchToRest s = .next (watchRest s)) ∧
      (s.pstate = 7 → dmaQuiet s = false → exec .watchToRest s = .next s)))

/-- Resets, start-up and the test access port (R29, R30, R296, R409, R442, R509, R510, R516, R526 to R528): power-on, supply loss and pin
reset leave the block as after reset, but for the cause, and the pins; a soft reset needs its key, keeps TS96, and keeps DRAM that had
been trained; RESET_N's rise releases the device with its supplies valid; JTAG selects its instruction, and EXTEST, CLAMP and HIGHZ
lose the DIMM contents. What the host wrote or has queued stands in every case. -/
def Obligations.ResetsLeaveTheStateTheyName : Prop :=
  ∀ (s : State), cellWf regReset s.regs = true →
    (∀ testEn resetN, ∃ t, exec (.powerOnReset testEn resetN) s = .next t ∧ t.regs = [] ∧ t.eff = [] ∧ t.now = 0 ∧ t.up = 0 ∧ t.dram = [] ∧
      t.err = Err.reset ∧ t.cap = Cap.reset ∧ t.clk = Clk.reset ∧ t.pins.released = resetN ∧ t.pins.testEn = testEn ∧ t.host = s.host ∧
      t.pending = s.pending) ∧
    (∃ t, exec .railLoss s = .next t ∧ t.regs = [] ∧ t.dram = [] ∧ t.now = 0 ∧ t.pins.released = false ∧ t.pins.suppliesValid = false ∧
      t.pins.snapOut = .z ∧ t.pins.ppsOut = .z ∧ t.pins.trigOut = .z ∧ t.host = s.host ∧ t.pending = s.pending) ∧
    (∃ t, exec .pinReset s = .next t ∧ t.reg R_GLB_RESET_CAUSE = causeOr s 1 ∧ t.eff = [] ∧ t.now = 0 ∧ t.pins.resetN = false ∧
      t.pins.released = false ∧ t.err = Err.reset ∧ t.host = s.host ∧ t.pending = s.pending) ∧
    (∀ testEn, (s.pins.resetN = true → exec (.resetNRelease testEn) s = .next s) ∧
      (s.pins.resetN = false → ∃ t, exec (.resetNRelease testEn) s = .next t ∧ t.pins.resetN = true ∧ t.pins.testEn = testEn ∧
        (s.pins.suppliesValid = true → t.pins.released = true) ∧ t.regs = s.regs)) ∧
    (s.pins.released = true → s.err.contained = false → s.on F_GLB_STATE_CMD_READY = false →
      (s.pins.testEn = true → exec .startupCmdReady s = .next s) ∧
      (s.pins.testEn = false → exec .startupCmdReady s = .next (crefPin ((startEnd s).modCon (fun k => { k with pools := poolCaps (startEnd s) }))))) ∧
    (∀ m (v : Word), reaches m R_GLB_SOFT_RESET s = true →
      (v.toNat.testBit 0 = false ∨ v.toNat / 65536 ≠ 0x9648 → exec (.softReset m v) s = .next (arrived m s)) ∧
      (v.toNat.testBit 0 = true → v.toNat / 65536 = 0x9648 → ∃ t, exec (.softReset m v) s = .next t ∧ t.now = s.now ∧ t.up = s.up ∧
        t.err = Err.reset ∧ t.fcp.pairs = [] ∧ t.fcp.inflight = [] ∧ t.trg = Trg.reset ∧ t.host = s.host ∧ t.pending = s.pending ∧
        (dramTrained s = true → s.mem.initPtr = none → t.dram = s.dram) ∧ (dramTrained s = false → t.dram = []))) ∧
    (s.pins.released = false → exec .linkReset s = .next s) ∧
    (s.pins.released = true → exec .linkReset s = .next (admRegs (cmpPower (linkReset s)))) ∧
    (∀ code cells, code ≠ 0x40 ∨ s.pins.testEn = false →
      ∃ t, exec (.jtagInstruction code cells) s = .next t ∧ t.regs = s.regs ∧
        t.pins.tapIr = (if code = 0 ∨ code = 1 ∨ code = 2 ∨ code = 4 ∨ code = 5 then code else 255) ∧
        (code = 0 ∨ code = 4 ∨ code = 5 → t.dram = [] ∧ t.pins.disturbed = true) ∧
        (code ≠ 0 → code ≠ 4 → code ≠ 5 → t.dram = s.dram))

/-- A write of a block's control register with CLR_COUNTERS sets every count it names to 0, and moves no time; without the bit it is
another write of the same register. -/
def Obligations.ClearWritesClearTheirCounts : Prop :=
  ∀ (m : Nat) (v : Word) (s : State), cellWf regReset s.regs = true →
    (reaches m R_JIN_CTRL s = true → v.toNat.testBit 0 = jinRun (arrived m s) → v.toNat.testBit 1 = true →
      ∃ t, exec (.jinClrCounters m v) s = .next t ∧ (∀ f ∈ (List.range 12).flatMap linkCounters, t.rd f = 0) ∧ t.now = s.now) ∧
    (∀ u, 12 ≤ u → exec (.dfuClrCounters m u v) s = .next s) ∧
    (∀ u, u < 12 → reaches m (R_DFU_CTRL u) s = true → v.toNat.testBit 1 = true →
      ∃ t, exec (.dfuClrCounters m u v) s = .next t ∧ (∀ f ∈ dfuCounters u, t.rd f = 0) ∧ t.now = s.now) ∧
    (reaches m R_TRG_CTRL s = true → v.toNat.testBit 8 = true →
      ∃ t, exec (.trgClrCounters m v) s = .next t ∧ (∀ f ∈ trgCounters, t.rd f = 0) ∧ t.now = s.now) ∧
    (reaches m R_TIM_CTRL s = true → v.toNat.testBit 1 = true →
      ∃ t, exec (.timClrCounters m v) s = .next t ∧ (∀ f ∈ timCounters, t.rd f = 0) ∧ t.now = s.now) ∧
    (reaches m R_CAP_CTRL s = true → v.toNat.testBit 2 = true →
      ∃ t, exec (.capClrCounters m v) s = .next t ∧ (∀ f ∈ capCounters, t.rd f = 0) ∧ t.now = s.now) ∧
    (∀ b, 12 ≤ b → exec (.engClrCounters m b v) s = .next s) ∧
    (∀ b, b < 12 → reaches m (R_ENG_CTRL b) s = true → v.toNat.testBit 4 = true →
      ∃ t, exec (.engClrCounters m b v) s = .next t ∧ (∀ f ∈ barnCounters b, t.rd f = 0) ∧ t.now = s.now) ∧
    (reaches m R_HIF_CTRL s = true →
      (v.toNat.testBit 0 = true → ∃ t, exec (.hifClrCounters m v) s = .next t ∧ (∀ f ∈ hifCounters, t.rd f = 0) ∧ t.now = s.now) ∧
      (v.toNat.testBit 0 = false → exec (.hifClrCounters m v) s = .next (arrived m s))) ∧
    (reaches m R_MBX_CTRL s = true →
      (v.toNat.testBit 0 = true → ∃ t, exec (.mbxClrCounters m v) s = .next t ∧ (∀ f ∈ mbxCounts, t.rd f = 0) ∧ t.now = s.now) ∧
      (v.toNat.testBit 0 = false → exec (.mbxClrCounters m v) s = .next (arrived m s))) ∧
    (reaches m R_DMA_CTRL s = true →
      (v.toNat.testBit 0 = true → ∃ t, exec (.dmaClrCounters m v) s = .next t ∧ (∀ c f, c < 128 → f ∈ dmaCounts c → t.rd f = 0) ∧ t.dma = s.dma ∧
        t.now = s.now) ∧
      (v.toNat.testBit 0 = false → exec (.dmaClrCounters m v) s = .next (arrived m s))) ∧
    (reaches m R_CMP_CTRL s = true →
      (v.toNat.testBit 0 = true → ∃ t, exec (.cmpClrCounters m v) s = .next t ∧ t.rd F_CMP_EXPIRED_COUNT = 0 ∧ t.cmp = s.cmp ∧
        ∀ e, e < 8 → t.rd (F_CMP_E_ERRORS_DATA e) = 0 ∧ t.rd (F_CMP_E_ERRORS_FAULT e) = 0 ∧ t.rd (F_CMP_E_IN_LO_BYTES e) = 0) ∧
      (v.toNat.testBit 0 = false → exec (.cmpClrCounters m v) s = .next (arrived m s))) ∧
    (∀ c, 8 ≤ c → exec (.memClrCounters m c v) s = .next s) ∧
    (∀ c, c < 8 → reaches m (R_MEM_C_CTRL c) s = true → v.toNat.testBit 0 = true →
      ∃ t, exec (.memClrCounters m c v) s = .next t ∧ (∀ f ∈ mcCounters c, t.rd f = 0) ∧ t.dram = s.dram ∧
        t.rd (F_MEM_C_CTRL_AUTO_RELEASE c) = v.toNat / 65536 % 2 ^ (F_MEM_C_CTRL_AUTO_RELEASE c).w) ∧
    (reaches m R_TBS_CTRL s = true → v.toNat.testBit 4 = true →
      ∃ t, exec (.tbsClrCounters m v) s = .next t ∧ t.rd F_TBS_COUNTS_REF_LOSS = 0 ∧ t.rd F_TBS_COUNTS_JUMPS = 0 ∧ t.rd F_TBS_COUNTS_STEPS = 0 ∧
        t.rd F_TBS_COUNTS_SLEWS = 0 ∧ t.now = s.now) ∧
    (reaches m R_PMU_CTRL s = true → v.toNat.testBit 0 = true →
      ∃ t, exec (.pmuClrCounters m v) s = .next t ∧ t.rd F_PMU_COUNTS_WAKES = 0 ∧ t.rd F_PMU_COUNTS_THROTTLES = 0 ∧ t.rd F_PMU_COUNTS_AVS_FAILS = 0 ∧
        t.rd F_PMU_CTRL_WAKE_PIN_EN = v.toNat / 2 % 2 ∧ t.rd F_PMU_CTRL_WAKE_ALARM_EN = v.toNat / 4 % 2 ∧
        ∀ n, n < 3 → t.rd (F_CKG_P_COUNTS_LOCK_LOSS n) = 0 ∧ t.rd (F_CKG_P_COUNTS_CHANGES n) = 0) ∧
    (reaches m R_DIS_CTRL s = true → v.toNat.testBit 1 = true →
      ∃ t, exec (.disClrCounters m v) s = .next t ∧ t.rd F_DIS_DROPPED_FLIPS_COUNT = 0 ∧ t.rd F_DIS_UNDERRUN_COUNT = 0 ∧ frameNo t = frameNo s) ∧
    (reaches m R_MCV_CTRL s = true → v.toNat.testBit 0 = (arrived m s).on F_MCV_CTRL_EN → v.toNat / 4096 % 16 = 1 →
      ∃ t, exec (.mcvClrCounters m v) s = .next t ∧ t.mcv = s.mcv ∧ ∀ f ∈ [F_MCV_COUNTS_REG_ABORTED, F_MCV_COUNTS_INJ_DROP,
        F_MCV_COUNTS_START_DROP, F_MCV_COUNTS_CAL_DROP, F_MCV_RES_LOST_COUNT], t.rd f = 0) ∧
    (reaches m R_ERR_CTRL s = true → v.toNat.testBit 0 = true →
      ∃ t, exec (.errClrCounters m v) s = .next t ∧ t.rd F_ERR_LOG_LOST_COUNT = 0 ∧ t.rd F_ERR_FATAL_COUNT_COUNT = 0 ∧ t.err = s.err ∧
        t.rd F_ERR_CTRL_EVT_CLASS = v.toNat / 2 % 4 ∧ ∀ b, b < 17 → t.rd (F_ERR_B_COUNTS_RAISED b) = 0 ∧ t.rd (F_ERR_B_COUNTS_OVF b) = 0)

/-- A step carries out the command at the front of the queue with the queue's rest. With no command waiting a nanosecond passes, and none
while the device is held in reset; that an empty queue lets time pass is the model's choice (assumption 4). -/
def Obligations.StepRunsTheFrontCommand : Prop :=
  (∀ (c : Instr) (cs : List Instr) (s : State), step { s with pending := c :: cs } = exec c { s with pending := cs }) ∧
  ∀ (s : State), s.pending = [] →
    (s.pins.released = true → ∃ t, step s = .next t ∧ t.now = s.now + ns1 ∧ t.up = s.up + 1 ∧ t.pending = []) ∧
    (s.pins.released = false → step s = .next s)

/-- Every command goes on to a next state. The one refusal is that of JTAG code 0x40, which Table 19.14 keeps for factory use, on a part
whose fuse leaves debugging open and with TEST_EN high. -/
def Obligations.NothingStopsButFactoryAccess : Prop :=
  ∀ (i : Instr) (s : State), (∃ t, exec i s = .next t ∧ t.pending = s.pending) ∨
    (exec i s = .refused .factoryAccess ∧ s.pins.testEn = true ∧ Config.debugLocked = false ∧ ∃ cells, i = .jtagInstruction 0x40 cells)

/-- Every step keeps the stores canonical, TS96 at whole nanoseconds, and chutes and log within their sizes. -/
def Obligations.StepKeepsSound : Prop :=
 ∀ s t, s.Sound → step s = .next t → t.Sound

/-- Every step leaves each numbered part of the block in its place. -/
def Obligations.StepKeepsShape : Prop :=
 ∀ s t, s.Shaped → step s = .next t → t.Shaped

/-- After reset the state is sound and every part in its place: nothing listed, time at 0, Rest, no record, no command in flight or waiting; context 0 holds every
privilege. -/
def Obligations.ResetIsSound : Prop :=
  State.reset.Sound ∧ State.reset.Shaped ∧ State.reset.now = 0 ∧ State.reset.pstate = 0 ∧ State.reset.err.contained = false ∧ State.reset.err.log = [] ∧
    State.reset.fcp.inflight = [] ∧ State.reset.fcp.pairs.length ≤ 17 ∧ State.reset.pending = [] ∧ (∀ b, b < 4 → State.reset.hasPriv 0 b = true) ∧
    State.reset.rd (F_HIF_F_QUOTA_QP 0) = 512

/-- The checks that every command packet meets first (R282, R284, R287): a tag in flight, a reserved bit, a context that is not open or not
the function's, or an opcode that Containment does not accept ends the command, with no effect of its own. -/
def Obligations.PacketsAreCheckedFirst : Prop :=
  ∀ (i : Instr) (op : Nat) (p : Packet) (s : State), packetOf i = some (op, p) →
    (∀ x, s.inflight? p.qid (pTag p) = some x → ¬ ((x.kind = .fetched ∨ x.kind = .fenced) ∧ x.dws = p.dws ∧ x.op = op) →
      exec i s = .next (s.finish (inflightOf op p) { st := .badParam } true) ∧
      (s.fcp.pairs.all (fun q => !(q.st == .draining && s.inflightOn q.qid == 0)) = true →
        (s.finish (inflightOf op p) { st := .badParam } true).fcp.inflight = s.fcp.inflight)) ∧
    (∀ x, s.inflight? p.qid (pTag p) = some x → x.kind = .fetched → x.dws = p.dws → x.op = op → mayStart s x = true →
      reservedOk p = false → exec i s = .next (s.finish x { st := .badParam })) ∧
    (s.inflight? p.qid (pTag p) = none → mayStart (issued op p s) (inflightOf op p) = true →
      (reservedOk p = false → Completes i op p s { st := .badParam } (issued op p s)) ∧
      (reservedOk p = true → ctxOk p s = false → Completes i op p s { st := .notPermitted } (issued op p s)) ∧
      (reservedOk p = true → ctxOk p s = true → s.err.contained = true → containOps op = false →
        ∃ r, (r.st = .notPermitted ∨ r.st = .misaligned ∨ r.st = .badParam) ∧ Completes i op p s r (issued op p s))) ∧
    (s.inflight? p.qid (pTag p) = none → mayStart (issued op p s) (inflightOf op p) = false →
      exec i s = .next ((issued op p s).modInflight p.qid (pTag p) (fun x => { x with kind := .fenced })))

/-- Containment ends only through a reset (R498). -/
def Obligations.ContainmentLasts : Prop :=
  ∀ i s t, s.Sound → mayReset i = false → s.err.contained = true → exec i s = .next t → t.err.contained = true

/-- Rows that store nothing and set nothing going that stores leave every byte of DRAM as it was. -/
def Obligations.OtherRowsLeaveDramAlone : Prop :=
  ∀ i s t, s.Sound → mayStore i = false → exec i s = .next t → ∀ a, s.dramRead a 1 = t.dramRead a 1

/-- Privileges (R274): from reset context 0 holds all four and every other context none; CTX_PRIV grants what it names; and no other row
gives a context but 0 a privilege that it did not hold. -/
def Obligations.OnlyCtxPrivGrants : Prop :=
  (∀ b, b < 4 → State.reset.hasPriv 0 b = true ∧ ∀ c, c ≠ 0 → State.reset.hasPriv c b = false) ∧
  (∀ (p : Packet) (s : State) x, starts 0x12 p s = true → s.err.contained = false → p.func = 0 → 1 ≤ pf p 2 0 12 →
    s.ctx? (pf p 2 0 12) = some x → x.func = 0 ∨ (pb p 3 1 = false ∧ pb p 3 3 = false) →
    ∃ u, Completes (.ctxPriv p) 0x12 p s { st := .ok } u ∧ ∀ b, b < 4 → u.hasPriv (pf p 2 0 12) b = pb p 3 b) ∧
  ∀ i s t, s.Sound → isCtxPriv i = false → exec i s = .next t → ∀ x ∈ t.fcp.ctxs, x.id ≠ 0 → x.priv ≠ 0 →
    ∃ y ∈ s.fcp.ctxs, y.id = x.id ∧ y.priv = x.priv

/-- TS96 and the uptime move by the passage of time, by the resets that power brings, and by the rows through which R431 and R429 set or
step the counter: by no other command. -/
def Obligations.OtherRowsLeaveTimeAlone : Prop :=
  ∀ i s t, s.Sound → mayMoveTime i = false → exec i s = .next t → t.now = s.now ∧ t.up = s.up
end

