-- ==== Sys2Proof/Laws/Cells.lean ====
section
/-!
SUPPORT. The laws of the sparse stores: what a read finds after a write, and that every operation keeps the canonical form.
-/

namespace Sys2Proof.Machine

/-! ### Reading after writing -/

/-- No entry of a store with all addresses above `a` stands at `a`. -/
theorem cellFind_of_above {β : Type} {l : List (Nat × β)} {a b : Nat} (h : cellRising (some b) l = true) (hb : a ≤ b) :
    cellFind l a = none := by
  induction l generalizing b with
  | nil => rfl
  | cons c l ih =>
    simp only [cellRising, Bool.and_eq_true, decide_eq_true_eq] at h
    have hne : a ≠ c.1 := by omega
    rw [show c = (c.1, c.2) from rfl, cellFind, if_neg hne]
    exact ih h.2 (by omega)

/-- A rising list stays rising under a lower bound. -/
theorem cellRising_lower {β : Type} {l : List (Nat × β)} {a b : Nat} (h : cellRising (some b) l = true) (hab : a ≤ b) :
    cellRising (some a) l = true := by
  cases l with
  | nil => rfl
  | cons c l =>
    simp only [cellRising, Bool.and_eq_true, decide_eq_true_eq] at h ⊢
    exact ⟨by omega, h.2⟩

/-- A list that rises above a bound rises. -/
theorem cellRising_none {β : Type} {l : List (Nat × β)} {b : Nat} (h : cellRising (some b) l = true) :
    cellRising none l = true := by
  cases l with
  | nil => rfl
  | cons c l =>
    simp only [cellRising, Bool.and_eq_true] at h ⊢
    exact h.2

theorem cellFind_insert_same {β : Type} (l : List (Nat × β)) (a : Nat) (x : β) : cellFind (cellInsert l a x) a = some x := by
  induction l with
  | nil => simp [cellInsert, cellFind]
  | cons c l ih =>
    obtain ⟨k, v⟩ := c
    simp only [cellInsert]
    split
    · simp [cellFind]
    · split
      · simp [cellFind]
      · rename_i h
        simp [cellFind, h, ih]

theorem cellFind_insert_other {β : Type} (l : List (Nat × β)) {a b : Nat} (x : β) (h : b ≠ a) :
    cellFind (cellInsert l a x) b = cellFind l b := by
  induction l with
  | nil => simp [cellInsert, cellFind, h]
  | cons c l ih =>
    obtain ⟨k, v⟩ := c
    simp only [cellInsert]
    split
    · simp [cellFind, h]
    · split
      · rename_i h2
        subst h2
        simp [cellFind, h]
      · simp [cellFind, ih]

theorem cellFind_erase_other {β : Type} (l : List (Nat × β)) {a b : Nat} (h : b ≠ a) :
    cellFind (cellErase l a) b = cellFind l b := by
  induction l with
  | nil => rfl
  | cons c l ih =>
    obtain ⟨k, v⟩ := c
    simp only [cellErase]
    split
    · rename_i h2
      subst h2
      simp [cellFind, h]
    · simp [cellFind, ih]

theorem cellFind_erase_same {β : Type} {l : List (Nat × β)} {o : Option Nat} (a : Nat) (h : cellRising o l = true) :
    cellFind (cellErase l a) a = none := by
  induction l generalizing o with
  | nil => rfl
  | cons c l ih =>
    obtain ⟨k, v⟩ := c
    have hl : cellRising (some k) l = true := by
      cases o with
      | none => exact h
      | some b =>
        simp only [cellRising, Bool.and_eq_true] at h
        exact h.2
    simp only [cellErase]
    split
    · rename_i h2
      subst h2
      exact cellFind_of_above hl (Nat.le_refl _)
    · rename_i h2
      simp [cellFind, h2, ih hl]

/-- What was written is read: at the address written, in a rising store. -/
theorem cellGet_put_same {β : Type} [DecidableEq β] {l : List (Nat × β)} (d x : β) (a : Nat) (h : cellRising none l = true) :
    cellGet d (cellPut d l a x) a = x := by
  unfold cellGet cellPut
  split
  · rename_i hx
    rw [cellFind_erase_same a h, hx]
    rfl
  · rw [cellFind_insert_same]
    rfl

/-- A write leaves what is read at every other address. -/
theorem cellGet_put_other {β : Type} [DecidableEq β] (l : List (Nat × β)) (d e x : β) {a b : Nat} (h : b ≠ a) :
    cellGet e (cellPut d l a x) b = cellGet e l b := by
  unfold cellGet cellPut
  split
  · rw [cellFind_erase_other l h]
  · rw [cellFind_insert_other l x h]

/-! ### The canonical form -/

theorem cellRising_erase {β : Type} {l : List (Nat × β)} {o : Option Nat} (a : Nat) (h : cellRising o l = true) :
    cellRising o (cellErase l a) = true := by
  induction l generalizing o with
  | nil => exact h
  | cons c l ih =>
    obtain ⟨k, v⟩ := c
    simp only [cellErase]
    cases o with
    | none =>
      split
      · exact cellRising_none h
      · exact ih h
    | some b =>
      simp only [cellRising, Bool.and_eq_true, decide_eq_true_eq] at h
      split
      · exact cellRising_lower h.2 (by omega)
      · simp only [cellRising, Bool.and_eq_true, decide_eq_true_eq]
        exact ⟨h.1, ih h.2⟩

theorem cellRising_insert {β : Type} {l : List (Nat × β)} {o : Option Nat} (a : Nat) (x : β) (h : cellRising o l = true)
    (ho : ∀ b, o = some b → b < a) : cellRising o (cellInsert l a x) = true := by
  induction l generalizing o with
  | nil =>
    cases o with
    | none => rfl
    | some b => simp [cellInsert, cellRising, ho b rfl]
  | cons c l ih =>
    obtain ⟨k, v⟩ := c
    have hl : cellRising (some k) l = true := by
      cases o with
      | none => exact h
      | some b =>
        simp only [cellRising, Bool.and_eq_true] at h
        exact h.2
    have hk : ∀ b, o = some b → b < k := by
      intro b hb
      subst hb
      simp only [cellRising, Bool.and_eq_true, decide_eq_true_eq] at h
      exact h.1
    simp only [cellInsert]
    split
    · rename_i h1
      cases o with
      | none => simp [cellRising, h1, hl]
      | some b => simp [cellRising, h1, hl, ho b rfl]
    · split
      · rename_i h2
        subst h2
        cases o with
        | none => simpa [cellRising] using hl
        | some b => simp [cellRising, hl, ho b rfl]
      · rename_i h1 h2
        have := ih hl (fun b hb => by
          cases hb
          omega)
        cases o with
        | none => simpa [cellRising] using this
        | some b => simp [cellRising, this, hk b rfl]

theorem mem_erase {β : Type} {l : List (Nat × β)} {a : Nat} {c : Nat × β} (h : c ∈ cellErase l a) : c ∈ l := by
  induction l with
  | nil => exact h
  | cons e l ih =>
    obtain ⟨k, v⟩ := e
    simp only [cellErase] at h
    split at h
    · exact List.mem_cons_of_mem _ h
    · rcases List.mem_cons.mp h with h | h
      · exact h ▸ List.mem_cons_self
      · exact List.mem_cons_of_mem _ (ih h)

theorem mem_insert {β : Type} {l : List (Nat × β)} {a : Nat} {x : β} {c : Nat × β} (h : c ∈ cellInsert l a x) :
    c = (a, x) ∨ c ∈ l := by
  induction l with
  | nil => exact .inl (by simpa [cellInsert] using h)
  | cons e l ih =>
    obtain ⟨k, v⟩ := e
    simp only [cellInsert] at h
    split at h
    · rcases List.mem_cons.mp h with h | h
      · exact .inl h
      · exact .inr h
    · split at h
      · rcases List.mem_cons.mp h with h | h
        · exact .inl h
        · exact .inr (List.mem_cons_of_mem _ h)
      · rcases List.mem_cons.mp h with h | h
        · exact .inr (h ▸ List.mem_cons_self)
        · rcases ih h with h | h
          · exact .inl h
          · exact .inr (List.mem_cons_of_mem _ h)

/-- A write keeps the canonical form. -/
theorem cellWf_put {β : Type} [DecidableEq β] {l : List (Nat × β)} (d : Nat → β) (a : Nat) (x : β) (h : cellWf d l = true) :
    cellWf d (cellPut (d a) l a x) = true := by
  simp only [cellWf, Bool.and_eq_true, List.all_eq_true, decide_eq_true_eq] at h ⊢
  unfold cellPut
  split
  · exact ⟨cellRising_erase a h.1, fun c hc => h.2 c (mem_erase hc)⟩
  · rename_i hx
    refine ⟨cellRising_insert a x h.1 (fun b hb => by cases hb), fun c hc => ?_⟩
    rcases mem_insert hc with hc | hc
    · subst hc
      exact hx
    · exact h.2 c hc

/-- A store from which entries have been taken out keeps the canonical form. -/
theorem cellWf_filter {β : Type} [DecidableEq β] {l : List (Nat × β)} (d : Nat → β) (p : Nat × β → Bool) (h : cellWf d l = true) :
    cellWf d (l.filter p) = true := by
  simp only [cellWf, Bool.and_eq_true, List.all_eq_true, decide_eq_true_eq] at h ⊢
  refine ⟨?_, fun c hc => h.2 c (List.mem_filter.mp hc).1⟩
  have gen : ∀ (o : Option Nat), cellRising o l = true → cellRising o (l.filter p) = true := by
    have hr := h.1
    clear h
    induction l with
    | nil => exact fun _ ho => ho
    | cons c l ih =>
      intro o ho
      obtain ⟨k, v⟩ := c
      have hk : cellRising (some k) l = true := by
        cases o with
        | none => exact ho
        | some b =>
          simp only [cellRising, Bool.and_eq_true] at ho
          exact ho.2
      simp only [List.filter_cons]
      split
      · cases o with
        | none => exact ih (cellRising_none hk) _ hk
        | some b =>
          simp only [cellRising, Bool.and_eq_true, decide_eq_true_eq] at ho ⊢
          exact ⟨ho.1, ih (cellRising_none hk) _ hk⟩
      · cases o with
        | none => exact ih (cellRising_none hk) _ (cellRising_none hk)
        | some b =>
          simp only [cellRising, Bool.and_eq_true, decide_eq_true_eq] at ho
          exact ih (cellRising_none hk) _ (cellRising_lower hk (by omega))
  exact gen none h.1

/-! ### Registers and memory -/

/-- The canonical form of a register store. -/
def regsWf (l : List (Nat × Word)) : Bool := cellWf regReset l

theorem regGet_put_same {l : List (Nat × Word)} (a : Nat) (v : Word) (h : regsWf l = true) : regGet (regPut l a v) a = v := by
  simp only [regsWf, cellWf, Bool.and_eq_true] at h
  exact cellGet_put_same _ _ _ h.1

theorem regGet_put_other (l : List (Nat × Word)) {a b : Nat} (v : Word) (h : b ≠ a) : regGet (regPut l a v) b = regGet l b :=
  cellGet_put_other l _ _ v h

theorem regsWf_put {l : List (Nat × Word)} (a : Nat) (v : Word) (h : regsWf l = true) : regsWf (regPut l a v) = true :=
  cellWf_put regReset a v h

theorem memGet_put_same {m : List Host.Cell} (a : Nat) (b : Byte) (h : Memory.wf m = true) : memGet (memPut m a b) a = b := by
  simp only [Memory.wf, cellWf, Bool.and_eq_true] at h
  exact cellGet_put_same _ _ _ h.1

theorem memGet_put_other (m : List Host.Cell) {a c : Nat} (b : Byte) (h : c ≠ a) : memGet (memPut m a b) c = memGet m c :=
  cellGet_put_other m _ _ b h

theorem memWf_put {m : List Host.Cell} (a : Nat) (b : Byte) (h : Memory.wf m = true) : Memory.wf (memPut m a b) = true :=
  cellWf_put (fun _ => (0 : Byte)) a b h

theorem memWf_write {m : List Host.Cell} (a : Nat) (bs : List Byte) (h : Memory.wf m = true) : Memory.wf (memWrite m a bs) = true := by
  induction bs generalizing m a with
  | nil => exact h
  | cons b bs ih => exact ih (a + 1) (memWf_put a b h)

theorem memWf_writeLive {m : List Host.Cell} (dead : Nat → Bool) (a : Nat) (bs : List Byte) (h : Memory.wf m = true) :
    Memory.wf (memWriteLive dead m a bs) = true := by
  induction bs generalizing m a with
  | nil => exact h
  | cons b bs ih =>
    simp only [memWriteLive]
    split
    · exact ih (a + 1) h
    · exact ih (a + 1) (memWf_put a b h)

/-- A write of bytes leaves every byte outside them. -/
theorem memGet_write_other (m : List Host.Cell) (a : Nat) (bs : List Byte) {c : Nat} (h : c < a ∨ a + bs.length ≤ c) :
    memGet (memWrite m a bs) c = memGet m c := by
  induction bs generalizing m a with
  | nil => rfl
  | cons b bs ih =>
    simp only [List.length_cons] at h
    simp only [memWrite]
    rw [ih (memPut m a b) (a + 1) (by omega), memGet_put_other m b (by omega)]

/-- Bytes written are read back. -/
theorem memRead_write_same {m : List Host.Cell} (a : Nat) (bs : List Byte) (h : Memory.wf m = true) :
    memRead (memWrite m a bs) a bs.length = bs := by
  induction bs generalizing m a with
  | nil => rfl
  | cons b bs ih =>
    simp only [List.length_cons, memRead, memWrite]
    rw [memGet_write_other _ (a + 1) bs (by omega), memGet_put_same a b h, ih (a + 1) (memWf_put a b h)]

end Sys2Proof.Machine
end

