-- ==== Sys2Proof/Laws/State.lean ====
section
/-!
SUPPORT. What each update of State leaves: one lemma for every field that an update does not touch, so that no proof unfolds a
record update.
-/

namespace Sys2Proof.Machine


/-! ### setReg -/

@[simp] theorem State.setReg_eff (s : State) (a : Nat) (v : Word) : (s.setReg a v).eff = s.eff := rfl
@[simp] theorem State.setReg_latch (s : State) (a : Nat) (v : Word) : (s.setReg a v).latch = s.latch := rfl
@[simp] theorem State.setReg_now (s : State) (a : Nat) (v : Word) : (s.setReg a v).now = s.now := rfl
@[simp] theorem State.setReg_up (s : State) (a : Nat) (v : Word) : (s.setReg a v).up = s.up := rfl
@[simp] theorem State.setReg_dram (s : State) (a : Nat) (v : Word) : (s.setReg a v).dram = s.dram := rfl
@[simp] theorem State.setReg_host (s : State) (a : Nat) (v : Word) : (s.setReg a v).host = s.host := rfl
@[simp] theorem State.setReg_sram (s : State) (a : Nat) (v : Word) : (s.setReg a v).sram = s.sram := rfl
@[simp] theorem State.setReg_fcp (s : State) (a : Nat) (v : Word) : (s.setReg a v).fcp = s.fcp := rfl
@[simp] theorem State.setReg_err (s : State) (a : Nat) (v : Word) : (s.setReg a v).err = s.err := rfl
@[simp] theorem State.setReg_shf (s : State) (a : Nat) (v : Word) : (s.setReg a v).shf = s.shf := rfl
@[simp] theorem State.setReg_pins (s : State) (a : Nat) (v : Word) : (s.setReg a v).pins = s.pins := rfl
@[simp] theorem State.setReg_clk (s : State) (a : Nat) (v : Word) : (s.setReg a v).clk = s.clk := rfl
@[simp] theorem State.setReg_jin (s : State) (a : Nat) (v : Word) : (s.setReg a v).jin = s.jin := rfl
@[simp] theorem State.setReg_dfu (s : State) (a : Nat) (v : Word) : (s.setReg a v).dfu = s.dfu := rfl
@[simp] theorem State.setReg_cap (s : State) (a : Nat) (v : Word) : (s.setReg a v).cap = s.cap := rfl
@[simp] theorem State.setReg_tim (s : State) (a : Nat) (v : Word) : (s.setReg a v).tim = s.tim := rfl
@[simp] theorem State.setReg_trg (s : State) (a : Nat) (v : Word) : (s.setReg a v).trg = s.trg := rfl
@[simp] theorem State.setReg_con (s : State) (a : Nat) (v : Word) : (s.setReg a v).con = s.con := rfl
@[simp] theorem State.setReg_eng (s : State) (a : Nat) (v : Word) : (s.setReg a v).eng = s.eng := rfl
@[simp] theorem State.setReg_dma (s : State) (a : Nat) (v : Word) : (s.setReg a v).dma = s.dma := rfl
@[simp] theorem State.setReg_cmp (s : State) (a : Nat) (v : Word) : (s.setReg a v).cmp = s.cmp := rfl
@[simp] theorem State.setReg_mem (s : State) (a : Nat) (v : Word) : (s.setReg a v).mem = s.mem := rfl
@[simp] theorem State.setReg_mbx (s : State) (a : Nat) (v : Word) : (s.setReg a v).mbx = s.mbx := rfl
@[simp] theorem State.setReg_dis (s : State) (a : Nat) (v : Word) : (s.setReg a v).dis = s.dis := rfl
@[simp] theorem State.setReg_mcv (s : State) (a : Nat) (v : Word) : (s.setReg a v).mcv = s.mcv := rfl
@[simp] theorem State.setReg_rdata (s : State) (a : Nat) (v : Word) : (s.setReg a v).rdata = s.rdata := rfl
@[simp] theorem State.setReg_free (s : State) (a : Nat) (v : Word) : (s.setReg a v).free = s.free := rfl
@[simp] theorem State.setReg_pending (s : State) (a : Nat) (v : Word) : (s.setReg a v).pending = s.pending := rfl

/-! ### wr -/

@[simp] theorem State.wr_eff (s : State) (f : Fld) (v : Nat) : (s.wr f v).eff = s.eff := rfl
@[simp] theorem State.wr_latch (s : State) (f : Fld) (v : Nat) : (s.wr f v).latch = s.latch := rfl
@[simp] theorem State.wr_now (s : State) (f : Fld) (v : Nat) : (s.wr f v).now = s.now := rfl
@[simp] theorem State.wr_up (s : State) (f : Fld) (v : Nat) : (s.wr f v).up = s.up := rfl
@[simp] theorem State.wr_dram (s : State) (f : Fld) (v : Nat) : (s.wr f v).dram = s.dram := rfl
@[simp] theorem State.wr_host (s : State) (f : Fld) (v : Nat) : (s.wr f v).host = s.host := rfl
@[simp] theorem State.wr_sram (s : State) (f : Fld) (v : Nat) : (s.wr f v).sram = s.sram := rfl
@[simp] theorem State.wr_fcp (s : State) (f : Fld) (v : Nat) : (s.wr f v).fcp = s.fcp := rfl
@[simp] theorem State.wr_err (s : State) (f : Fld) (v : Nat) : (s.wr f v).err = s.err := rfl
@[simp] theorem State.wr_shf (s : State) (f : Fld) (v : Nat) : (s.wr f v).shf = s.shf := rfl
@[simp] theorem State.wr_pins (s : State) (f : Fld) (v : Nat) : (s.wr f v).pins = s.pins := rfl
@[simp] theorem State.wr_clk (s : State) (f : Fld) (v : Nat) : (s.wr f v).clk = s.clk := rfl
@[simp] theorem State.wr_jin (s : State) (f : Fld) (v : Nat) : (s.wr f v).jin = s.jin := rfl
@[simp] theorem State.wr_dfu (s : State) (f : Fld) (v : Nat) : (s.wr f v).dfu = s.dfu := rfl
@[simp] theorem State.wr_cap (s : State) (f : Fld) (v : Nat) : (s.wr f v).cap = s.cap := rfl
@[simp] theorem State.wr_tim (s : State) (f : Fld) (v : Nat) : (s.wr f v).tim = s.tim := rfl
@[simp] theorem State.wr_trg (s : State) (f : Fld) (v : Nat) : (s.wr f v).trg = s.trg := rfl
@[simp] theorem State.wr_con (s : State) (f : Fld) (v : Nat) : (s.wr f v).con = s.con := rfl
@[simp] theorem State.wr_eng (s : State) (f : Fld) (v : Nat) : (s.wr f v).eng = s.eng := rfl
@[simp] theorem State.wr_dma (s : State) (f : Fld) (v : Nat) : (s.wr f v).dma = s.dma := rfl
@[simp] theorem State.wr_cmp (s : State) (f : Fld) (v : Nat) : (s.wr f v).cmp = s.cmp := rfl
@[simp] theorem State.wr_mem (s : State) (f : Fld) (v : Nat) : (s.wr f v).mem = s.mem := rfl
@[simp] theorem State.wr_mbx (s : State) (f : Fld) (v : Nat) : (s.wr f v).mbx = s.mbx := rfl
@[simp] theorem State.wr_dis (s : State) (f : Fld) (v : Nat) : (s.wr f v).dis = s.dis := rfl
@[simp] theorem State.wr_mcv (s : State) (f : Fld) (v : Nat) : (s.wr f v).mcv = s.mcv := rfl
@[simp] theorem State.wr_rdata (s : State) (f : Fld) (v : Nat) : (s.wr f v).rdata = s.rdata := rfl
@[simp] theorem State.wr_free (s : State) (f : Fld) (v : Nat) : (s.wr f v).free = s.free := rfl
@[simp] theorem State.wr_pending (s : State) (f : Fld) (v : Nat) : (s.wr f v).pending = s.pending := rfl

/-! ### wrB -/

@[simp] theorem State.wrB_eff (s : State) (f : Fld) (b : Bool) : (s.wrB f b).eff = s.eff := rfl
@[simp] theorem State.wrB_latch (s : State) (f : Fld) (b : Bool) : (s.wrB f b).latch = s.latch := rfl
@[simp] theorem State.wrB_now (s : State) (f : Fld) (b : Bool) : (s.wrB f b).now = s.now := rfl
@[simp] theorem State.wrB_up (s : State) (f : Fld) (b : Bool) : (s.wrB f b).up = s.up := rfl
@[simp] theorem State.wrB_dram (s : State) (f : Fld) (b : Bool) : (s.wrB f b).dram = s.dram := rfl
@[simp] theorem State.wrB_host (s : State) (f : Fld) (b : Bool) : (s.wrB f b).host = s.host := rfl
@[simp] theorem State.wrB_sram (s : State) (f : Fld) (b : Bool) : (s.wrB f b).sram = s.sram := rfl
@[simp] theorem State.wrB_fcp (s : State) (f : Fld) (b : Bool) : (s.wrB f b).fcp = s.fcp := rfl
@[simp] theorem State.wrB_err (s : State) (f : Fld) (b : Bool) : (s.wrB f b).err = s.err := rfl
@[simp] theorem State.wrB_shf (s : State) (f : Fld) (b : Bool) : (s.wrB f b).shf = s.shf := rfl
@[simp] theorem State.wrB_pins (s : State) (f : Fld) (b : Bool) : (s.wrB f b).pins = s.pins := rfl
@[simp] theorem State.wrB_clk (s : State) (f : Fld) (b : Bool) : (s.wrB f b).clk = s.clk := rfl
@[simp] theorem State.wrB_jin (s : State) (f : Fld) (b : Bool) : (s.wrB f b).jin = s.jin := rfl
@[simp] theorem State.wrB_dfu (s : State) (f : Fld) (b : Bool) : (s.wrB f b).dfu = s.dfu := rfl
@[simp] theorem State.wrB_cap (s : State) (f : Fld) (b : Bool) : (s.wrB f b).cap = s.cap := rfl
@[simp] theorem State.wrB_tim (s : State) (f : Fld) (b : Bool) : (s.wrB f b).tim = s.tim := rfl
@[simp] theorem State.wrB_trg (s : State) (f : Fld) (b : Bool) : (s.wrB f b).trg = s.trg := rfl
@[simp] theorem State.wrB_con (s : State) (f : Fld) (b : Bool) : (s.wrB f b).con = s.con := rfl
@[simp] theorem State.wrB_eng (s : State) (f : Fld) (b : Bool) : (s.wrB f b).eng = s.eng := rfl
@[simp] theorem State.wrB_dma (s : State) (f : Fld) (b : Bool) : (s.wrB f b).dma = s.dma := rfl
@[simp] theorem State.wrB_cmp (s : State) (f : Fld) (b : Bool) : (s.wrB f b).cmp = s.cmp := rfl
@[simp] theorem State.wrB_mem (s : State) (f : Fld) (b : Bool) : (s.wrB f b).mem = s.mem := rfl
@[simp] theorem State.wrB_mbx (s : State) (f : Fld) (b : Bool) : (s.wrB f b).mbx = s.mbx := rfl
@[simp] theorem State.wrB_dis (s : State) (f : Fld) (b : Bool) : (s.wrB f b).dis = s.dis := rfl
@[simp] theorem State.wrB_mcv (s : State) (f : Fld) (b : Bool) : (s.wrB f b).mcv = s.mcv := rfl
@[simp] theorem State.wrB_rdata (s : State) (f : Fld) (b : Bool) : (s.wrB f b).rdata = s.rdata := rfl
@[simp] theorem State.wrB_free (s : State) (f : Fld) (b : Bool) : (s.wrB f b).free = s.free := rfl
@[simp] theorem State.wrB_pending (s : State) (f : Fld) (b : Bool) : (s.wrB f b).pending = s.pending := rfl

/-! ### wrS -/

@[simp] theorem State.wrS_eff (s : State) (f : Fld) (v : Int) : (s.wrS f v).eff = s.eff := rfl
@[simp] theorem State.wrS_latch (s : State) (f : Fld) (v : Int) : (s.wrS f v).latch = s.latch := rfl
@[simp] theorem State.wrS_now (s : State) (f : Fld) (v : Int) : (s.wrS f v).now = s.now := rfl
@[simp] theorem State.wrS_up (s : State) (f : Fld) (v : Int) : (s.wrS f v).up = s.up := rfl
@[simp] theorem State.wrS_dram (s : State) (f : Fld) (v : Int) : (s.wrS f v).dram = s.dram := rfl
@[simp] theorem State.wrS_host (s : State) (f : Fld) (v : Int) : (s.wrS f v).host = s.host := rfl
@[simp] theorem State.wrS_sram (s : State) (f : Fld) (v : Int) : (s.wrS f v).sram = s.sram := rfl
@[simp] theorem State.wrS_fcp (s : State) (f : Fld) (v : Int) : (s.wrS f v).fcp = s.fcp := rfl
@[simp] theorem State.wrS_err (s : State) (f : Fld) (v : Int) : (s.wrS f v).err = s.err := rfl
@[simp] theorem State.wrS_shf (s : State) (f : Fld) (v : Int) : (s.wrS f v).shf = s.shf := rfl
@[simp] theorem State.wrS_pins (s : State) (f : Fld) (v : Int) : (s.wrS f v).pins = s.pins := rfl
@[simp] theorem State.wrS_clk (s : State) (f : Fld) (v : Int) : (s.wrS f v).clk = s.clk := rfl
@[simp] theorem State.wrS_jin (s : State) (f : Fld) (v : Int) : (s.wrS f v).jin = s.jin := rfl
@[simp] theorem State.wrS_dfu (s : State) (f : Fld) (v : Int) : (s.wrS f v).dfu = s.dfu := rfl
@[simp] theorem State.wrS_cap (s : State) (f : Fld) (v : Int) : (s.wrS f v).cap = s.cap := rfl
@[simp] theorem State.wrS_tim (s : State) (f : Fld) (v : Int) : (s.wrS f v).tim = s.tim := rfl
@[simp] theorem State.wrS_trg (s : State) (f : Fld) (v : Int) : (s.wrS f v).trg = s.trg := rfl
@[simp] theorem State.wrS_con (s : State) (f : Fld) (v : Int) : (s.wrS f v).con = s.con := rfl
@[simp] theorem State.wrS_eng (s : State) (f : Fld) (v : Int) : (s.wrS f v).eng = s.eng := rfl
@[simp] theorem State.wrS_dma (s : State) (f : Fld) (v : Int) : (s.wrS f v).dma = s.dma := rfl
@[simp] theorem State.wrS_cmp (s : State) (f : Fld) (v : Int) : (s.wrS f v).cmp = s.cmp := rfl
@[simp] theorem State.wrS_mem (s : State) (f : Fld) (v : Int) : (s.wrS f v).mem = s.mem := rfl
@[simp] theorem State.wrS_mbx (s : State) (f : Fld) (v : Int) : (s.wrS f v).mbx = s.mbx := rfl
@[simp] theorem State.wrS_dis (s : State) (f : Fld) (v : Int) : (s.wrS f v).dis = s.dis := rfl
@[simp] theorem State.wrS_mcv (s : State) (f : Fld) (v : Int) : (s.wrS f v).mcv = s.mcv := rfl
@[simp] theorem State.wrS_rdata (s : State) (f : Fld) (v : Int) : (s.wrS f v).rdata = s.rdata := rfl
@[simp] theorem State.wrS_free (s : State) (f : Fld) (v : Int) : (s.wrS f v).free = s.free := rfl
@[simp] theorem State.wrS_pending (s : State) (f : Fld) (v : Int) : (s.wrS f v).pending = s.pending := rfl

/-! ### bump -/

@[simp] theorem State.bump_eff (s : State) (f : Fld) : (s.bump f).eff = s.eff := rfl
@[simp] theorem State.bump_latch (s : State) (f : Fld) : (s.bump f).latch = s.latch := rfl
@[simp] theorem State.bump_now (s : State) (f : Fld) : (s.bump f).now = s.now := rfl
@[simp] theorem State.bump_up (s : State) (f : Fld) : (s.bump f).up = s.up := rfl
@[simp] theorem State.bump_dram (s : State) (f : Fld) : (s.bump f).dram = s.dram := rfl
@[simp] theorem State.bump_host (s : State) (f : Fld) : (s.bump f).host = s.host := rfl
@[simp] theorem State.bump_sram (s : State) (f : Fld) : (s.bump f).sram = s.sram := rfl
@[simp] theorem State.bump_fcp (s : State) (f : Fld) : (s.bump f).fcp = s.fcp := rfl
@[simp] theorem State.bump_err (s : State) (f : Fld) : (s.bump f).err = s.err := rfl
@[simp] theorem State.bump_shf (s : State) (f : Fld) : (s.bump f).shf = s.shf := rfl
@[simp] theorem State.bump_pins (s : State) (f : Fld) : (s.bump f).pins = s.pins := rfl
@[simp] theorem State.bump_clk (s : State) (f : Fld) : (s.bump f).clk = s.clk := rfl
@[simp] theorem State.bump_jin (s : State) (f : Fld) : (s.bump f).jin = s.jin := rfl
@[simp] theorem State.bump_dfu (s : State) (f : Fld) : (s.bump f).dfu = s.dfu := rfl
@[simp] theorem State.bump_cap (s : State) (f : Fld) : (s.bump f).cap = s.cap := rfl
@[simp] theorem State.bump_tim (s : State) (f : Fld) : (s.bump f).tim = s.tim := rfl
@[simp] theorem State.bump_trg (s : State) (f : Fld) : (s.bump f).trg = s.trg := rfl
@[simp] theorem State.bump_con (s : State) (f : Fld) : (s.bump f).con = s.con := rfl
@[simp] theorem State.bump_eng (s : State) (f : Fld) : (s.bump f).eng = s.eng := rfl
@[simp] theorem State.bump_dma (s : State) (f : Fld) : (s.bump f).dma = s.dma := rfl
@[simp] theorem State.bump_cmp (s : State) (f : Fld) : (s.bump f).cmp = s.cmp := rfl
@[simp] theorem State.bump_mem (s : State) (f : Fld) : (s.bump f).mem = s.mem := rfl
@[simp] theorem State.bump_mbx (s : State) (f : Fld) : (s.bump f).mbx = s.mbx := rfl
@[simp] theorem State.bump_dis (s : State) (f : Fld) : (s.bump f).dis = s.dis := rfl
@[simp] theorem State.bump_mcv (s : State) (f : Fld) : (s.bump f).mcv = s.mcv := rfl
@[simp] theorem State.bump_rdata (s : State) (f : Fld) : (s.bump f).rdata = s.rdata := rfl
@[simp] theorem State.bump_free (s : State) (f : Fld) : (s.bump f).free = s.free := rfl
@[simp] theorem State.bump_pending (s : State) (f : Fld) : (s.bump f).pending = s.pending := rfl

/-! ### bumpBy -/

@[simp] theorem State.bumpBy_eff (s : State) (f : Fld) (n : Nat) : (s.bumpBy f n).eff = s.eff := rfl
@[simp] theorem State.bumpBy_latch (s : State) (f : Fld) (n : Nat) : (s.bumpBy f n).latch = s.latch := rfl
@[simp] theorem State.bumpBy_now (s : State) (f : Fld) (n : Nat) : (s.bumpBy f n).now = s.now := rfl
@[simp] theorem State.bumpBy_up (s : State) (f : Fld) (n : Nat) : (s.bumpBy f n).up = s.up := rfl
@[simp] theorem State.bumpBy_dram (s : State) (f : Fld) (n : Nat) : (s.bumpBy f n).dram = s.dram := rfl
@[simp] theorem State.bumpBy_host (s : State) (f : Fld) (n : Nat) : (s.bumpBy f n).host = s.host := rfl
@[simp] theorem State.bumpBy_sram (s : State) (f : Fld) (n : Nat) : (s.bumpBy f n).sram = s.sram := rfl
@[simp] theorem State.bumpBy_fcp (s : State) (f : Fld) (n : Nat) : (s.bumpBy f n).fcp = s.fcp := rfl
@[simp] theorem State.bumpBy_err (s : State) (f : Fld) (n : Nat) : (s.bumpBy f n).err = s.err := rfl
@[simp] theorem State.bumpBy_shf (s : State) (f : Fld) (n : Nat) : (s.bumpBy f n).shf = s.shf := rfl
@[simp] theorem State.bumpBy_pins (s : State) (f : Fld) (n : Nat) : (s.bumpBy f n).pins = s.pins := rfl
@[simp] theorem State.bumpBy_clk (s : State) (f : Fld) (n : Nat) : (s.bumpBy f n).clk = s.clk := rfl
@[simp] theorem State.bumpBy_jin (s : State) (f : Fld) (n : Nat) : (s.bumpBy f n).jin = s.jin := rfl
@[simp] theorem State.bumpBy_dfu (s : State) (f : Fld) (n : Nat) : (s.bumpBy f n).dfu = s.dfu := rfl
@[simp] theorem State.bumpBy_cap (s : State) (f : Fld) (n : Nat) : (s.bumpBy f n).cap = s.cap := rfl
@[simp] theorem State.bumpBy_tim (s : State) (f : Fld) (n : Nat) : (s.bumpBy f n).tim = s.tim := rfl
@[simp] theorem State.bumpBy_trg (s : State) (f : Fld) (n : Nat) : (s.bumpBy f n).trg = s.trg := rfl
@[simp] theorem State.bumpBy_con (s : State) (f : Fld) (n : Nat) : (s.bumpBy f n).con = s.con := rfl
@[simp] theorem State.bumpBy_eng (s : State) (f : Fld) (n : Nat) : (s.bumpBy f n).eng = s.eng := rfl
@[simp] theorem State.bumpBy_dma (s : State) (f : Fld) (n : Nat) : (s.bumpBy f n).dma = s.dma := rfl
@[simp] theorem State.bumpBy_cmp (s : State) (f : Fld) (n : Nat) : (s.bumpBy f n).cmp = s.cmp := rfl
@[simp] theorem State.bumpBy_mem (s : State) (f : Fld) (n : Nat) : (s.bumpBy f n).mem = s.mem := rfl
@[simp] theorem State.bumpBy_mbx (s : State) (f : Fld) (n : Nat) : (s.bumpBy f n).mbx = s.mbx := rfl
@[simp] theorem State.bumpBy_dis (s : State) (f : Fld) (n : Nat) : (s.bumpBy f n).dis = s.dis := rfl
@[simp] theorem State.bumpBy_mcv (s : State) (f : Fld) (n : Nat) : (s.bumpBy f n).mcv = s.mcv := rfl
@[simp] theorem State.bumpBy_rdata (s : State) (f : Fld) (n : Nat) : (s.bumpBy f n).rdata = s.rdata := rfl
@[simp] theorem State.bumpBy_free (s : State) (f : Fld) (n : Nat) : (s.bumpBy f n).free = s.free := rfl
@[simp] theorem State.bumpBy_pending (s : State) (f : Fld) (n : Nat) : (s.bumpBy f n).pending = s.pending := rfl

/-! ### wr64 -/

@[simp] theorem State.wr64_eff (s : State) (lo hi v : Nat) : (s.wr64 lo hi v).eff = s.eff := rfl
@[simp] theorem State.wr64_latch (s : State) (lo hi v : Nat) : (s.wr64 lo hi v).latch = s.latch := rfl
@[simp] theorem State.wr64_now (s : State) (lo hi v : Nat) : (s.wr64 lo hi v).now = s.now := rfl
@[simp] theorem State.wr64_up (s : State) (lo hi v : Nat) : (s.wr64 lo hi v).up = s.up := rfl
@[simp] theorem State.wr64_dram (s : State) (lo hi v : Nat) : (s.wr64 lo hi v).dram = s.dram := rfl
@[simp] theorem State.wr64_host (s : State) (lo hi v : Nat) : (s.wr64 lo hi v).host = s.host := rfl
@[simp] theorem State.wr64_sram (s : State) (lo hi v : Nat) : (s.wr64 lo hi v).sram = s.sram := rfl
@[simp] theorem State.wr64_fcp (s : State) (lo hi v : Nat) : (s.wr64 lo hi v).fcp = s.fcp := rfl
@[simp] theorem State.wr64_err (s : State) (lo hi v : Nat) : (s.wr64 lo hi v).err = s.err := rfl
@[simp] theorem State.wr64_shf (s : State) (lo hi v : Nat) : (s.wr64 lo hi v).shf = s.shf := rfl
@[simp] theorem State.wr64_pins (s : State) (lo hi v : Nat) : (s.wr64 lo hi v).pins = s.pins := rfl
@[simp] theorem State.wr64_clk (s : State) (lo hi v : Nat) : (s.wr64 lo hi v).clk = s.clk := rfl
@[simp] theorem State.wr64_jin (s : State) (lo hi v : Nat) : (s.wr64 lo hi v).jin = s.jin := rfl
@[simp] theorem State.wr64_dfu (s : State) (lo hi v : Nat) : (s.wr64 lo hi v).dfu = s.dfu := rfl
@[simp] theorem State.wr64_cap (s : State) (lo hi v : Nat) : (s.wr64 lo hi v).cap = s.cap := rfl
@[simp] theorem State.wr64_tim (s : State) (lo hi v : Nat) : (s.wr64 lo hi v).tim = s.tim := rfl
@[simp] theorem State.wr64_trg (s : State) (lo hi v : Nat) : (s.wr64 lo hi v).trg = s.trg := rfl
@[simp] theorem State.wr64_con (s : State) (lo hi v : Nat) : (s.wr64 lo hi v).con = s.con := rfl
@[simp] theorem State.wr64_eng (s : State) (lo hi v : Nat) : (s.wr64 lo hi v).eng = s.eng := rfl
@[simp] theorem State.wr64_dma (s : State) (lo hi v : Nat) : (s.wr64 lo hi v).dma = s.dma := rfl
@[simp] theorem State.wr64_cmp (s : State) (lo hi v : Nat) : (s.wr64 lo hi v).cmp = s.cmp := rfl
@[simp] theorem State.wr64_mem (s : State) (lo hi v : Nat) : (s.wr64 lo hi v).mem = s.mem := rfl
@[simp] theorem State.wr64_mbx (s : State) (lo hi v : Nat) : (s.wr64 lo hi v).mbx = s.mbx := rfl
@[simp] theorem State.wr64_dis (s : State) (lo hi v : Nat) : (s.wr64 lo hi v).dis = s.dis := rfl
@[simp] theorem State.wr64_mcv (s : State) (lo hi v : Nat) : (s.wr64 lo hi v).mcv = s.mcv := rfl
@[simp] theorem State.wr64_rdata (s : State) (lo hi v : Nat) : (s.wr64 lo hi v).rdata = s.rdata := rfl
@[simp] theorem State.wr64_free (s : State) (lo hi v : Nat) : (s.wr64 lo hi v).free = s.free := rfl
@[simp] theorem State.wr64_pending (s : State) (lo hi v : Nat) : (s.wr64 lo hi v).pending = s.pending := rfl

/-! ### bump64 -/

@[simp] theorem State.bump64_eff (s : State) (lo hi : Nat) : (s.bump64 lo hi).eff = s.eff := State.wr64_eff s lo hi _
@[simp] theorem State.bump64_latch (s : State) (lo hi : Nat) : (s.bump64 lo hi).latch = s.latch := State.wr64_latch s lo hi _
@[simp] theorem State.bump64_now (s : State) (lo hi : Nat) : (s.bump64 lo hi).now = s.now := State.wr64_now s lo hi _
@[simp] theorem State.bump64_up (s : State) (lo hi : Nat) : (s.bump64 lo hi).up = s.up := State.wr64_up s lo hi _
@[simp] theorem State.bump64_dram (s : State) (lo hi : Nat) : (s.bump64 lo hi).dram = s.dram := State.wr64_dram s lo hi _
@[simp] theorem State.bump64_host (s : State) (lo hi : Nat) : (s.bump64 lo hi).host = s.host := State.wr64_host s lo hi _
@[simp] theorem State.bump64_sram (s : State) (lo hi : Nat) : (s.bump64 lo hi).sram = s.sram := State.wr64_sram s lo hi _
@[simp] theorem State.bump64_fcp (s : State) (lo hi : Nat) : (s.bump64 lo hi).fcp = s.fcp := State.wr64_fcp s lo hi _
@[simp] theorem State.bump64_err (s : State) (lo hi : Nat) : (s.bump64 lo hi).err = s.err := State.wr64_err s lo hi _
@[simp] theorem State.bump64_shf (s : State) (lo hi : Nat) : (s.bump64 lo hi).shf = s.shf := State.wr64_shf s lo hi _
@[simp] theorem State.bump64_pins (s : State) (lo hi : Nat) : (s.bump64 lo hi).pins = s.pins := State.wr64_pins s lo hi _
@[simp] theorem State.bump64_clk (s : State) (lo hi : Nat) : (s.bump64 lo hi).clk = s.clk := State.wr64_clk s lo hi _
@[simp] theorem State.bump64_jin (s : State) (lo hi : Nat) : (s.bump64 lo hi).jin = s.jin := State.wr64_jin s lo hi _
@[simp] theorem State.bump64_dfu (s : State) (lo hi : Nat) : (s.bump64 lo hi).dfu = s.dfu := State.wr64_dfu s lo hi _
@[simp] theorem State.bump64_cap (s : State) (lo hi : Nat) : (s.bump64 lo hi).cap = s.cap := State.wr64_cap s lo hi _
@[simp] theorem State.bump64_tim (s : State) (lo hi : Nat) : (s.bump64 lo hi).tim = s.tim := State.wr64_tim s lo hi _
@[simp] theorem State.bump64_trg (s : State) (lo hi : Nat) : (s.bump64 lo hi).trg = s.trg := State.wr64_trg s lo hi _
@[simp] theorem State.bump64_con (s : State) (lo hi : Nat) : (s.bump64 lo hi).con = s.con := State.wr64_con s lo hi _
@[simp] theorem State.bump64_eng (s : State) (lo hi : Nat) : (s.bump64 lo hi).eng = s.eng := State.wr64_eng s lo hi _
@[simp] theorem State.bump64_dma (s : State) (lo hi : Nat) : (s.bump64 lo hi).dma = s.dma := State.wr64_dma s lo hi _
@[simp] theorem State.bump64_cmp (s : State) (lo hi : Nat) : (s.bump64 lo hi).cmp = s.cmp := State.wr64_cmp s lo hi _
@[simp] theorem State.bump64_mem (s : State) (lo hi : Nat) : (s.bump64 lo hi).mem = s.mem := State.wr64_mem s lo hi _
@[simp] theorem State.bump64_mbx (s : State) (lo hi : Nat) : (s.bump64 lo hi).mbx = s.mbx := State.wr64_mbx s lo hi _
@[simp] theorem State.bump64_dis (s : State) (lo hi : Nat) : (s.bump64 lo hi).dis = s.dis := State.wr64_dis s lo hi _
@[simp] theorem State.bump64_mcv (s : State) (lo hi : Nat) : (s.bump64 lo hi).mcv = s.mcv := State.wr64_mcv s lo hi _
@[simp] theorem State.bump64_rdata (s : State) (lo hi : Nat) : (s.bump64 lo hi).rdata = s.rdata := State.wr64_rdata s lo hi _
@[simp] theorem State.bump64_free (s : State) (lo hi : Nat) : (s.bump64 lo hi).free = s.free := State.wr64_free s lo hi _
@[simp] theorem State.bump64_pending (s : State) (lo hi : Nat) : (s.bump64 lo hi).pending = s.pending := State.wr64_pending s lo hi _

/-! ### wrTs -/

@[simp] theorem State.wrTs_eff (s : State) (a t : Nat) : (s.wrTs a t).eff = s.eff := rfl
@[simp] theorem State.wrTs_latch (s : State) (a t : Nat) : (s.wrTs a t).latch = s.latch := rfl
@[simp] theorem State.wrTs_now (s : State) (a t : Nat) : (s.wrTs a t).now = s.now := rfl
@[simp] theorem State.wrTs_up (s : State) (a t : Nat) : (s.wrTs a t).up = s.up := rfl
@[simp] theorem State.wrTs_dram (s : State) (a t : Nat) : (s.wrTs a t).dram = s.dram := rfl
@[simp] theorem State.wrTs_host (s : State) (a t : Nat) : (s.wrTs a t).host = s.host := rfl
@[simp] theorem State.wrTs_sram (s : State) (a t : Nat) : (s.wrTs a t).sram = s.sram := rfl
@[simp] theorem State.wrTs_fcp (s : State) (a t : Nat) : (s.wrTs a t).fcp = s.fcp := rfl
@[simp] theorem State.wrTs_err (s : State) (a t : Nat) : (s.wrTs a t).err = s.err := rfl
@[simp] theorem State.wrTs_shf (s : State) (a t : Nat) : (s.wrTs a t).shf = s.shf := rfl
@[simp] theorem State.wrTs_pins (s : State) (a t : Nat) : (s.wrTs a t).pins = s.pins := rfl
@[simp] theorem State.wrTs_clk (s : State) (a t : Nat) : (s.wrTs a t).clk = s.clk := rfl
@[simp] theorem State.wrTs_jin (s : State) (a t : Nat) : (s.wrTs a t).jin = s.jin := rfl
@[simp] theorem State.wrTs_dfu (s : State) (a t : Nat) : (s.wrTs a t).dfu = s.dfu := rfl
@[simp] theorem State.wrTs_cap (s : State) (a t : Nat) : (s.wrTs a t).cap = s.cap := rfl
@[simp] theorem State.wrTs_tim (s : State) (a t : Nat) : (s.wrTs a t).tim = s.tim := rfl
@[simp] theorem State.wrTs_trg (s : State) (a t : Nat) : (s.wrTs a t).trg = s.trg := rfl
@[simp] theorem State.wrTs_con (s : State) (a t : Nat) : (s.wrTs a t).con = s.con := rfl
@[simp] theorem State.wrTs_eng (s : State) (a t : Nat) : (s.wrTs a t).eng = s.eng := rfl
@[simp] theorem State.wrTs_dma (s : State) (a t : Nat) : (s.wrTs a t).dma = s.dma := rfl
@[simp] theorem State.wrTs_cmp (s : State) (a t : Nat) : (s.wrTs a t).cmp = s.cmp := rfl
@[simp] theorem State.wrTs_mem (s : State) (a t : Nat) : (s.wrTs a t).mem = s.mem := rfl
@[simp] theorem State.wrTs_mbx (s : State) (a t : Nat) : (s.wrTs a t).mbx = s.mbx := rfl
@[simp] theorem State.wrTs_dis (s : State) (a t : Nat) : (s.wrTs a t).dis = s.dis := rfl
@[simp] theorem State.wrTs_mcv (s : State) (a t : Nat) : (s.wrTs a t).mcv = s.mcv := rfl
@[simp] theorem State.wrTs_rdata (s : State) (a t : Nat) : (s.wrTs a t).rdata = s.rdata := rfl
@[simp] theorem State.wrTs_free (s : State) (a t : Nat) : (s.wrTs a t).free = s.free := rfl
@[simp] theorem State.wrTs_pending (s : State) (a t : Nat) : (s.wrTs a t).pending = s.pending := rfl

/-! ### applyReg -/

@[simp] theorem State.applyReg_regs (s : State) (a : Nat) : (s.applyReg a).regs = s.regs := rfl
@[simp] theorem State.applyReg_latch (s : State) (a : Nat) : (s.applyReg a).latch = s.latch := rfl
@[simp] theorem State.applyReg_now (s : State) (a : Nat) : (s.applyReg a).now = s.now := rfl
@[simp] theorem State.applyReg_up (s : State) (a : Nat) : (s.applyReg a).up = s.up := rfl
@[simp] theorem State.applyReg_dram (s : State) (a : Nat) : (s.applyReg a).dram = s.dram := rfl
@[simp] theorem State.applyReg_host (s : State) (a : Nat) : (s.applyReg a).host = s.host := rfl
@[simp] theorem State.applyReg_sram (s : State) (a : Nat) : (s.applyReg a).sram = s.sram := rfl
@[simp] theorem State.applyReg_fcp (s : State) (a : Nat) : (s.applyReg a).fcp = s.fcp := rfl
@[simp] theorem State.applyReg_err (s : State) (a : Nat) : (s.applyReg a).err = s.err := rfl
@[simp] theorem State.applyReg_shf (s : State) (a : Nat) : (s.applyReg a).shf = s.shf := rfl
@[simp] theorem State.applyReg_pins (s : State) (a : Nat) : (s.applyReg a).pins = s.pins := rfl
@[simp] theorem State.applyReg_clk (s : State) (a : Nat) : (s.applyReg a).clk = s.clk := rfl
@[simp] theorem State.applyReg_jin (s : State) (a : Nat) : (s.applyReg a).jin = s.jin := rfl
@[simp] theorem State.applyReg_dfu (s : State) (a : Nat) : (s.applyReg a).dfu = s.dfu := rfl
@[simp] theorem State.applyReg_cap (s : State) (a : Nat) : (s.applyReg a).cap = s.cap := rfl
@[simp] theorem State.applyReg_tim (s : State) (a : Nat) : (s.applyReg a).tim = s.tim := rfl
@[simp] theorem State.applyReg_trg (s : State) (a : Nat) : (s.applyReg a).trg = s.trg := rfl
@[simp] theorem State.applyReg_con (s : State) (a : Nat) : (s.applyReg a).con = s.con := rfl
@[simp] theorem State.applyReg_eng (s : State) (a : Nat) : (s.applyReg a).eng = s.eng := rfl
@[simp] theorem State.applyReg_dma (s : State) (a : Nat) : (s.applyReg a).dma = s.dma := rfl
@[simp] theorem State.applyReg_cmp (s : State) (a : Nat) : (s.applyReg a).cmp = s.cmp := rfl
@[simp] theorem State.applyReg_mem (s : State) (a : Nat) : (s.applyReg a).mem = s.mem := rfl
@[simp] theorem State.applyReg_mbx (s : State) (a : Nat) : (s.applyReg a).mbx = s.mbx := rfl
@[simp] theorem State.applyReg_dis (s : State) (a : Nat) : (s.applyReg a).dis = s.dis := rfl
@[simp] theorem State.applyReg_mcv (s : State) (a : Nat) : (s.applyReg a).mcv = s.mcv := rfl
@[simp] theorem State.applyReg_rdata (s : State) (a : Nat) : (s.applyReg a).rdata = s.rdata := rfl
@[simp] theorem State.applyReg_free (s : State) (a : Nat) : (s.applyReg a).free = s.free := rfl
@[simp] theorem State.applyReg_pending (s : State) (a : Nat) : (s.applyReg a).pending = s.pending := rfl

/-! ### wrs -/

@[simp] theorem State.wrs_eff (s : State) (l : List (Fld × Nat)) : (s.wrs l).eff = s.eff := by
  induction l generalizing s with
  | nil => rfl
  | cons c l ih => exact ih _
@[simp] theorem State.wrs_latch (s : State) (l : List (Fld × Nat)) : (s.wrs l).latch = s.latch := by
  induction l generalizing s with
  | nil => rfl
  | cons c l ih => exact ih _
@[simp] theorem State.wrs_now (s : State) (l : List (Fld × Nat)) : (s.wrs l).now = s.now := by
  induction l generalizing s with
  | nil => rfl
  | cons c l ih => exact ih _
@[simp] theorem State.wrs_up (s : State) (l : List (Fld × Nat)) : (s.wrs l).up = s.up := by
  induction l generalizing s with
  | nil => rfl
  | cons c l ih => exact ih _
@[simp] theorem State.wrs_dram (s : State) (l : List (Fld × Nat)) : (s.wrs l).dram = s.dram := by
  induction l generalizing s with
  | nil => rfl
  | cons c l ih => exact ih _
@[simp] theorem State.wrs_host (s : State) (l : List (Fld × Nat)) : (s.wrs l).host = s.host := by
  induction l generalizing s with
  | nil => rfl
  | cons c l ih => exact ih _
@[simp] theorem State.wrs_sram (s : State) (l : List (Fld × Nat)) : (s.wrs l).sram = s.sram := by
  induction l generalizing s with
  | nil => rfl
  | cons c l ih => exact ih _
@[simp] theorem State.wrs_fcp (s : State) (l : List (Fld × Nat)) : (s.wrs l).fcp = s.fcp := by
  induction l generalizing s with
  | nil => rfl
  | cons c l ih => exact ih _
@[simp] theorem State.wrs_err (s : State) (l : List (Fld × Nat)) : (s.wrs l).err = s.err := by
  induction l generalizing s with
  | nil => rfl
  | cons c l ih => exact ih _
@[simp] theorem State.wrs_shf (s : State) (l : List (Fld × Nat)) : (s.wrs l).shf = s.shf := by
  induction l generalizing s with
  | nil => rfl
  | cons c l ih => exact ih _
@[simp] theorem State.wrs_pins (s : State) (l : List (Fld × Nat)) : (s.wrs l).pins = s.pins := by
  induction l generalizing s with
  | nil => rfl
  | cons c l ih => exact ih _
@[simp] theorem State.wrs_clk (s : State) (l : List (Fld × Nat)) : (s.wrs l).clk = s.clk := by
  induction l generalizing s with
  | nil => rfl
  | cons c l ih => exact ih _
@[simp] theorem State.wrs_jin (s : State) (l : List (Fld × Nat)) : (s.wrs l).jin = s.jin := by
  induction l generalizing s with
  | nil => rfl
  | cons c l ih => exact ih _
@[simp] theorem State.wrs_dfu (s : State) (l : List (Fld × Nat)) : (s.wrs l).dfu = s.dfu := by
  induction l generalizing s with
  | nil => rfl
  | cons c l ih => exact ih _
@[simp] theorem State.wrs_cap (s : State) (l : List (Fld × Nat)) : (s.wrs l).cap = s.cap := by
  induction l generalizing s with
  | nil => rfl
  | cons c l ih => exact ih _
@[simp] theorem State.wrs_tim (s : State) (l : List (Fld × Nat)) : (s.wrs l).tim = s.tim := by
  induction l generalizing s with
  | nil => rfl
  | cons c l ih => exact ih _
@[simp] theorem State.wrs_trg (s : State) (l : List (Fld × Nat)) : (s.wrs l).trg = s.trg := by
  induction l generalizing s with
  | nil => rfl
  | cons c l ih => exact ih _
@[simp] theorem State.wrs_con (s : State) (l : List (Fld × Nat)) : (s.wrs l).con = s.con := by
  induction l generalizing s with
  | nil => rfl
  | cons c l ih => exact ih _
@[simp] theorem State.wrs_eng (s : State) (l : List (Fld × Nat)) : (s.wrs l).eng = s.eng := by
  induction l generalizing s with
  | nil => rfl
  | cons c l ih => exact ih _
@[simp] theorem State.wrs_dma (s : State) (l : List (Fld × Nat)) : (s.wrs l).dma = s.dma := by
  induction l generalizing s with
  | nil => rfl
  | cons c l ih => exact ih _
@[simp] theorem State.wrs_cmp (s : State) (l : List (Fld × Nat)) : (s.wrs l).cmp = s.cmp := by
  induction l generalizing s with
  | nil => rfl
  | cons c l ih => exact ih _
@[simp] theorem State.wrs_mem (s : State) (l : List (Fld × Nat)) : (s.wrs l).mem = s.mem := by
  induction l generalizing s with
  | nil => rfl
  | cons c l ih => exact ih _
@[simp] theorem State.wrs_mbx (s : State) (l : List (Fld × Nat)) : (s.wrs l).mbx = s.mbx := by
  induction l generalizing s with
  | nil => rfl
  | cons c l ih => exact ih _
@[simp] theorem State.wrs_dis (s : State) (l : List (Fld × Nat)) : (s.wrs l).dis = s.dis := by
  induction l generalizing s with
  | nil => rfl
  | cons c l ih => exact ih _
@[simp] theorem State.wrs_mcv (s : State) (l : List (Fld × Nat)) : (s.wrs l).mcv = s.mcv := by
  induction l generalizing s with
  | nil => rfl
  | cons c l ih => exact ih _
@[simp] theorem State.wrs_rdata (s : State) (l : List (Fld × Nat)) : (s.wrs l).rdata = s.rdata := by
  induction l generalizing s with
  | nil => rfl
  | cons c l ih => exact ih _
@[simp] theorem State.wrs_free (s : State) (l : List (Fld × Nat)) : (s.wrs l).free = s.free := by
  induction l generalizing s with
  | nil => rfl
  | cons c l ih => exact ih _
@[simp] theorem State.wrs_pending (s : State) (l : List (Fld × Nat)) : (s.wrs l).pending = s.pending := by
  induction l generalizing s with
  | nil => rfl
  | cons c l ih => exact ih _

/-! ### applyRegs -/

@[simp] theorem State.applyRegs_regs (s : State) (l : List Nat) : (s.applyRegs l).regs = s.regs := by
  induction l generalizing s with
  | nil => rfl
  | cons c l ih => exact ih _
@[simp] theorem State.applyRegs_latch (s : State) (l : List Nat) : (s.applyRegs l).latch = s.latch := by
  induction l generalizing s with
  | nil => rfl
  | cons c l ih => exact ih _
@[simp] theorem State.applyRegs_now (s : State) (l : List Nat) : (s.applyRegs l).now = s.now := by
  induction l generalizing s with
  | nil => rfl
  | cons c l ih => exact ih _
@[simp] theorem State.applyRegs_up (s : State) (l : List Nat) : (s.applyRegs l).up = s.up := by
  induction l generalizing s with
  | nil => rfl
  | cons c l ih => exact ih _
@[simp] theorem State.applyRegs_dram (s : State) (l : List Nat) : (s.applyRegs l).dram = s.dram := by
  induction l generalizing s with
  | nil => rfl
  | cons c l ih => exact ih _
@[simp] theorem State.applyRegs_host (s : State) (l : List Nat) : (s.applyRegs l).host = s.host := by
  induction l generalizing s with
  | nil => rfl
  | cons c l ih => exact ih _
@[simp] theorem State.applyRegs_sram (s : State) (l : List Nat) : (s.applyRegs l).sram = s.sram := by
  induction l generalizing s with
  | nil => rfl
  | cons c l ih => exact ih _
@[simp] theorem State.applyRegs_fcp (s : State) (l : List Nat) : (s.applyRegs l).fcp = s.fcp := by
  induction l generalizing s with
  | nil => rfl
  | cons c l ih => exact ih _
@[simp] theorem State.applyRegs_err (s : State) (l : List Nat) : (s.applyRegs l).err = s.err := by
  induction l generalizing s with
  | nil => rfl
  | cons c l ih => exact ih _
@[simp] theorem State.applyRegs_shf (s : State) (l : List Nat) : (s.applyRegs l).shf = s.shf := by
  induction l generalizing s with
  | nil => rfl
  | cons c l ih => exact ih _
@[simp] theorem State.applyRegs_pins (s : State) (l : List Nat) : (s.applyRegs l).pins = s.pins := by
  induction l generalizing s with
  | nil => rfl
  | cons c l ih => exact ih _
@[simp] theorem State.applyRegs_clk (s : State) (l : List Nat) : (s.applyRegs l).clk = s.clk := by
  induction l generalizing s with
  | nil => rfl
  | cons c l ih => exact ih _
@[simp] theorem State.applyRegs_jin (s : State) (l : List Nat) : (s.applyRegs l).jin = s.jin := by
  induction l generalizing s with
  | nil => rfl
  | cons c l ih => exact ih _
@[simp] theorem State.applyRegs_dfu (s : State) (l : List Nat) : (s.applyRegs l).dfu = s.dfu := by
  induction l generalizing s with
  | nil => rfl
  | cons c l ih => exact ih _
@[simp] theorem State.applyRegs_cap (s : State) (l : List Nat) : (s.applyRegs l).cap = s.cap := by
  induction l generalizing s with
  | nil => rfl
  | cons c l ih => exact ih _
@[simp] theorem State.applyRegs_tim (s : State) (l : List Nat) : (s.applyRegs l).tim = s.tim := by
  induction l generalizing s with
  | nil => rfl
  | cons c l ih => exact ih _
@[simp] theorem State.applyRegs_trg (s : State) (l : List Nat) : (s.applyRegs l).trg = s.trg := by
  induction l generalizing s with
  | nil => rfl
  | cons c l ih => exact ih _
@[simp] theorem State.applyRegs_con (s : State) (l : List Nat) : (s.applyRegs l).con = s.con := by
  induction l generalizing s with
  | nil => rfl
  | cons c l ih => exact ih _
@[simp] theorem State.applyRegs_eng (s : State) (l : List Nat) : (s.applyRegs l).eng = s.eng := by
  induction l generalizing s with
  | nil => rfl
  | cons c l ih => exact ih _
@[simp] theorem State.applyRegs_dma (s : State) (l : List Nat) : (s.applyRegs l).dma = s.dma := by
  induction l generalizing s with
  | nil => rfl
  | cons c l ih => exact ih _
@[simp] theorem State.applyRegs_cmp (s : State) (l : List Nat) : (s.applyRegs l).cmp = s.cmp := by
  induction l generalizing s with
  | nil => rfl
  | cons c l ih => exact ih _
@[simp] theorem State.applyRegs_mem (s : State) (l : List Nat) : (s.applyRegs l).mem = s.mem := by
  induction l generalizing s with
  | nil => rfl
  | cons c l ih => exact ih _
@[simp] theorem State.applyRegs_mbx (s : State) (l : List Nat) : (s.applyRegs l).mbx = s.mbx := by
  induction l generalizing s with
  | nil => rfl
  | cons c l ih => exact ih _
@[simp] theorem State.applyRegs_dis (s : State) (l : List Nat) : (s.applyRegs l).dis = s.dis := by
  induction l generalizing s with
  | nil => rfl
  | cons c l ih => exact ih _
@[simp] theorem State.applyRegs_mcv (s : State) (l : List Nat) : (s.applyRegs l).mcv = s.mcv := by
  induction l generalizing s with
  | nil => rfl
  | cons c l ih => exact ih _
@[simp] theorem State.applyRegs_rdata (s : State) (l : List Nat) : (s.applyRegs l).rdata = s.rdata := by
  induction l generalizing s with
  | nil => rfl
  | cons c l ih => exact ih _
@[simp] theorem State.applyRegs_free (s : State) (l : List Nat) : (s.applyRegs l).free = s.free := by
  induction l generalizing s with
  | nil => rfl
  | cons c l ih => exact ih _
@[simp] theorem State.applyRegs_pending (s : State) (l : List Nat) : (s.applyRegs l).pending = s.pending := by
  induction l generalizing s with
  | nil => rfl
  | cons c l ih => exact ih _

/-! ### zeroFields -/

@[simp] theorem State.zeroFields_eff (s : State) (l : List Fld) : (s.zeroFields l).eff = s.eff := by
  induction l generalizing s with
  | nil => rfl
  | cons c l ih => exact ih _
@[simp] theorem State.zeroFields_latch (s : State) (l : List Fld) : (s.zeroFields l).latch = s.latch := by
  induction l generalizing s with
  | nil => rfl
  | cons c l ih => exact ih _
@[simp] theorem State.zeroFields_now (s : State) (l : List Fld) : (s.zeroFields l).now = s.now := by
  induction l generalizing s with
  | nil => rfl
  | cons c l ih => exact ih _
@[simp] theorem State.zeroFields_up (s : State) (l : List Fld) : (s.zeroFields l).up = s.up := by
  induction l generalizing s with
  | nil => rfl
  | cons c l ih => exact ih _
@[simp] theorem State.zeroFields_dram (s : State) (l : List Fld) : (s.zeroFields l).dram = s.dram := by
  induction l generalizing s with
  | nil => rfl
  | cons c l ih => exact ih _
@[simp] theorem State.zeroFields_host (s : State) (l : List Fld) : (s.zeroFields l).host = s.host := by
  induction l generalizing s with
  | nil => rfl
  | cons c l ih => exact ih _
@[simp] theorem State.zeroFields_sram (s : State) (l : List Fld) : (s.zeroFields l).sram = s.sram := by
  induction l generalizing s with
  | nil => rfl
  | cons c l ih => exact ih _
@[simp] theorem State.zeroFields_fcp (s : State) (l : List Fld) : (s.zeroFields l).fcp = s.fcp := by
  induction l generalizing s with
  | nil => rfl
  | cons c l ih => exact ih _
@[simp] theorem State.zeroFields_err (s : State) (l : List Fld) : (s.zeroFields l).err = s.err := by
  induction l generalizing s with
  | nil => rfl
  | cons c l ih => exact ih _
@[simp] theorem State.zeroFields_shf (s : State) (l : List Fld) : (s.zeroFields l).shf = s.shf := by
  induction l generalizing s with
  | nil => rfl
  | cons c l ih => exact ih _
@[simp] theorem State.zeroFields_pins (s : State) (l : List Fld) : (s.zeroFields l).pins = s.pins := by
  induction l generalizing s with
  | nil => rfl
  | cons c l ih => exact ih _
@[simp] theorem State.zeroFields_clk (s : State) (l : List Fld) : (s.zeroFields l).clk = s.clk := by
  induction l generalizing s with
  | nil => rfl
  | cons c l ih => exact ih _
@[simp] theorem State.zeroFields_jin (s : State) (l : List Fld) : (s.zeroFields l).jin = s.jin := by
  induction l generalizing s with
  | nil => rfl
  | cons c l ih => exact ih _
@[simp] theorem State.zeroFields_dfu (s : State) (l : List Fld) : (s.zeroFields l).dfu = s.dfu := by
  induction l generalizing s with
  | nil => rfl
  | cons c l ih => exact ih _
@[simp] theorem State.zeroFields_cap (s : State) (l : List Fld) : (s.zeroFields l).cap = s.cap := by
  induction l generalizing s with
  | nil => rfl
  | cons c l ih => exact ih _
@[simp] theorem State.zeroFields_tim (s : State) (l : List Fld) : (s.zeroFields l).tim = s.tim := by
  induction l generalizing s with
  | nil => rfl
  | cons c l ih => exact ih _
@[simp] theorem State.zeroFields_trg (s : State) (l : List Fld) : (s.zeroFields l).trg = s.trg := by
  induction l generalizing s with
  | nil => rfl
  | cons c l ih => exact ih _
@[simp] theorem State.zeroFields_con (s : State) (l : List Fld) : (s.zeroFields l).con = s.con := by
  induction l generalizing s with
  | nil => rfl
  | cons c l ih => exact ih _
@[simp] theorem State.zeroFields_eng (s : State) (l : List Fld) : (s.zeroFields l).eng = s.eng := by
  induction l generalizing s with
  | nil => rfl
  | cons c l ih => exact ih _
@[simp] theorem State.zeroFields_dma (s : State) (l : List Fld) : (s.zeroFields l).dma = s.dma := by
  induction l generalizing s with
  | nil => rfl
  | cons c l ih => exact ih _
@[simp] theorem State.zeroFields_cmp (s : State) (l : List Fld) : (s.zeroFields l).cmp = s.cmp := by
  induction l generalizing s with
  | nil => rfl
  | cons c l ih => exact ih _
@[simp] theorem State.zeroFields_mem (s : State) (l : List Fld) : (s.zeroFields l).mem = s.mem := by
  induction l generalizing s with
  | nil => rfl
  | cons c l ih => exact ih _
@[simp] theorem State.zeroFields_mbx (s : State) (l : List Fld) : (s.zeroFields l).mbx = s.mbx := by
  induction l generalizing s with
  | nil => rfl
  | cons c l ih => exact ih _
@[simp] theorem State.zeroFields_dis (s : State) (l : List Fld) : (s.zeroFields l).dis = s.dis := by
  induction l generalizing s with
  | nil => rfl
  | cons c l ih => exact ih _
@[simp] theorem State.zeroFields_mcv (s : State) (l : List Fld) : (s.zeroFields l).mcv = s.mcv := by
  induction l generalizing s with
  | nil => rfl
  | cons c l ih => exact ih _
@[simp] theorem State.zeroFields_rdata (s : State) (l : List Fld) : (s.zeroFields l).rdata = s.rdata := by
  induction l generalizing s with
  | nil => rfl
  | cons c l ih => exact ih _
@[simp] theorem State.zeroFields_free (s : State) (l : List Fld) : (s.zeroFields l).free = s.free := by
  induction l generalizing s with
  | nil => rfl
  | cons c l ih => exact ih _
@[simp] theorem State.zeroFields_pending (s : State) (l : List Fld) : (s.zeroFields l).pending = s.pending := by
  induction l generalizing s with
  | nil => rfl
  | cons c l ih => exact ih _

/-! ### clearRegs -/

@[simp] theorem State.clearRegs_eff (s : State) (l : List Nat) : (s.clearRegs l).eff = s.eff := by
  induction l generalizing s with
  | nil => rfl
  | cons c l ih => exact ih _
@[simp] theorem State.clearRegs_latch (s : State) (l : List Nat) : (s.clearRegs l).latch = s.latch := by
  induction l generalizing s with
  | nil => rfl
  | cons c l ih => exact ih _
@[simp] theorem State.clearRegs_now (s : State) (l : List Nat) : (s.clearRegs l).now = s.now := by
  induction l generalizing s with
  | nil => rfl
  | cons c l ih => exact ih _
@[simp] theorem State.clearRegs_up (s : State) (l : List Nat) : (s.clearRegs l).up = s.up := by
  induction l generalizing s with
  | nil => rfl
  | cons c l ih => exact ih _
@[simp] theorem State.clearRegs_dram (s : State) (l : List Nat) : (s.clearRegs l).dram = s.dram := by
  induction l generalizing s with
  | nil => rfl
  | cons c l ih => exact ih _
@[simp] theorem State.clearRegs_host (s : State) (l : List Nat) : (s.clearRegs l).host = s.host := by
  induction l generalizing s with
  | nil => rfl
  | cons c l ih => exact ih _
@[simp] theorem State.clearRegs_sram (s : State) (l : List Nat) : (s.clearRegs l).sram = s.sram := by
  induction l generalizing s with
  | nil => rfl
  | cons c l ih => exact ih _
@[simp] theorem State.clearRegs_fcp (s : State) (l : List Nat) : (s.clearRegs l).fcp = s.fcp := by
  induction l generalizing s with
  | nil => rfl
  | cons c l ih => exact ih _
@[simp] theorem State.clearRegs_err (s : State) (l : List Nat) : (s.clearRegs l).err = s.err := by
  induction l generalizing s with
  | nil => rfl
  | cons c l ih => exact ih _
@[simp] theorem State.clearRegs_shf (s : State) (l : List Nat) : (s.clearRegs l).shf = s.shf := by
  induction l generalizing s with
  | nil => rfl
  | cons c l ih => exact ih _
@[simp] theorem State.clearRegs_pins (s : State) (l : List Nat) : (s.clearRegs l).pins = s.pins := by
  induction l generalizing s with
  | nil => rfl
  | cons c l ih => exact ih _
@[simp] theorem State.clearRegs_clk (s : State) (l : List Nat) : (s.clearRegs l).clk = s.clk := by
  induction l generalizing s with
  | nil => rfl
  | cons c l ih => exact ih _
@[simp] theorem State.clearRegs_jin (s : State) (l : List Nat) : (s.clearRegs l).jin = s.jin := by
  induction l generalizing s with
  | nil => rfl
  | cons c l ih => exact ih _
@[simp] theorem State.clearRegs_dfu (s : State) (l : List Nat) : (s.clearRegs l).dfu = s.dfu := by
  induction l generalizing s with
  | nil => rfl
  | cons c l ih => exact ih _
@[simp] theorem State.clearRegs_cap (s : State) (l : List Nat) : (s.clearRegs l).cap = s.cap := by
  induction l generalizing s with
  | nil => rfl
  | cons c l ih => exact ih _
@[simp] theorem State.clearRegs_tim (s : State) (l : List Nat) : (s.clearRegs l).tim = s.tim := by
  induction l generalizing s with
  | nil => rfl
  | cons c l ih => exact ih _
@[simp] theorem State.clearRegs_trg (s : State) (l : List Nat) : (s.clearRegs l).trg = s.trg := by
  induction l generalizing s with
  | nil => rfl
  | cons c l ih => exact ih _
@[simp] theorem State.clearRegs_con (s : State) (l : List Nat) : (s.clearRegs l).con = s.con := by
  induction l generalizing s with
  | nil => rfl
  | cons c l ih => exact ih _
@[simp] theorem State.clearRegs_eng (s : State) (l : List Nat) : (s.clearRegs l).eng = s.eng := by
  induction l generalizing s with
  | nil => rfl
  | cons c l ih => exact ih _
@[simp] theorem State.clearRegs_dma (s : State) (l : List Nat) : (s.clearRegs l).dma = s.dma := by
  induction l generalizing s with
  | nil => rfl
  | cons c l ih => exact ih _
@[simp] theorem State.clearRegs_cmp (s : State) (l : List Nat) : (s.clearRegs l).cmp = s.cmp := by
  induction l generalizing s with
  | nil => rfl
  | cons c l ih => exact ih _
@[simp] theorem State.clearRegs_mem (s : State) (l : List Nat) : (s.clearRegs l).mem = s.mem := by
  induction l generalizing s with
  | nil => rfl
  | cons c l ih => exact ih _
@[simp] theorem State.clearRegs_mbx (s : State) (l : List Nat) : (s.clearRegs l).mbx = s.mbx := by
  induction l generalizing s with
  | nil => rfl
  | cons c l ih => exact ih _
@[simp] theorem State.clearRegs_dis (s : State) (l : List Nat) : (s.clearRegs l).dis = s.dis := by
  induction l generalizing s with
  | nil => rfl
  | cons c l ih => exact ih _
@[simp] theorem State.clearRegs_mcv (s : State) (l : List Nat) : (s.clearRegs l).mcv = s.mcv := by
  induction l generalizing s with
  | nil => rfl
  | cons c l ih => exact ih _
@[simp] theorem State.clearRegs_rdata (s : State) (l : List Nat) : (s.clearRegs l).rdata = s.rdata := by
  induction l generalizing s with
  | nil => rfl
  | cons c l ih => exact ih _
@[simp] theorem State.clearRegs_free (s : State) (l : List Nat) : (s.clearRegs l).free = s.free := by
  induction l generalizing s with
  | nil => rfl
  | cons c l ih => exact ih _
@[simp] theorem State.clearRegs_pending (s : State) (l : List Nat) : (s.clearRegs l).pending = s.pending := by
  induction l generalizing s with
  | nil => rfl
  | cons c l ih => exact ih _

/-! ### setDom -/

@[simp] theorem State.setDom_eff (s : State) (d : Dom) (v : Nat) : (s.setDom d v).eff = s.eff := by
  unfold State.setDom
  split
  · exact State.wr_eff s _ v
  · exact State.wr_eff s _ v
@[simp] theorem State.setDom_latch (s : State) (d : Dom) (v : Nat) : (s.setDom d v).latch = s.latch := by
  unfold State.setDom
  split
  · exact State.wr_latch s _ v
  · exact State.wr_latch s _ v
@[simp] theorem State.setDom_now (s : State) (d : Dom) (v : Nat) : (s.setDom d v).now = s.now := by
  unfold State.setDom
  split
  · exact State.wr_now s _ v
  · exact State.wr_now s _ v
@[simp] theorem State.setDom_up (s : State) (d : Dom) (v : Nat) : (s.setDom d v).up = s.up := by
  unfold State.setDom
  split
  · exact State.wr_up s _ v
  · exact State.wr_up s _ v
@[simp] theorem State.setDom_dram (s : State) (d : Dom) (v : Nat) : (s.setDom d v).dram = s.dram := by
  unfold State.setDom
  split
  · exact State.wr_dram s _ v
  · exact State.wr_dram s _ v
@[simp] theorem State.setDom_host (s : State) (d : Dom) (v : Nat) : (s.setDom d v).host = s.host := by
  unfold State.setDom
  split
  · exact State.wr_host s _ v
  · exact State.wr_host s _ v
@[simp] theorem State.setDom_sram (s : State) (d : Dom) (v : Nat) : (s.setDom d v).sram = s.sram := by
  unfold State.setDom
  split
  · exact State.wr_sram s _ v
  · exact State.wr_sram s _ v
@[simp] theorem State.setDom_fcp (s : State) (d : Dom) (v : Nat) : (s.setDom d v).fcp = s.fcp := by
  unfold State.setDom
  split
  · exact State.wr_fcp s _ v
  · exact State.wr_fcp s _ v
@[simp] theorem State.setDom_err (s : State) (d : Dom) (v : Nat) : (s.setDom d v).err = s.err := by
  unfold State.setDom
  split
  · exact State.wr_err s _ v
  · exact State.wr_err s _ v
@[simp] theorem State.setDom_shf (s : State) (d : Dom) (v : Nat) : (s.setDom d v).shf = s.shf := by
  unfold State.setDom
  split
  · exact State.wr_shf s _ v
  · exact State.wr_shf s _ v
@[simp] theorem State.setDom_pins (s : State) (d : Dom) (v : Nat) : (s.setDom d v).pins = s.pins := by
  unfold State.setDom
  split
  · exact State.wr_pins s _ v
  · exact State.wr_pins s _ v
@[simp] theorem State.setDom_clk (s : State) (d : Dom) (v : Nat) : (s.setDom d v).clk = s.clk := by
  unfold State.setDom
  split
  · exact State.wr_clk s _ v
  · exact State.wr_clk s _ v
@[simp] theorem State.setDom_jin (s : State) (d : Dom) (v : Nat) : (s.setDom d v).jin = s.jin := by
  unfold State.setDom
  split
  · exact State.wr_jin s _ v
  · exact State.wr_jin s _ v
@[simp] theorem State.setDom_dfu (s : State) (d : Dom) (v : Nat) : (s.setDom d v).dfu = s.dfu := by
  unfold State.setDom
  split
  · exact State.wr_dfu s _ v
  · exact State.wr_dfu s _ v
@[simp] theorem State.setDom_cap (s : State) (d : Dom) (v : Nat) : (s.setDom d v).cap = s.cap := by
  unfold State.setDom
  split
  · exact State.wr_cap s _ v
  · exact State.wr_cap s _ v
@[simp] theorem State.setDom_tim (s : State) (d : Dom) (v : Nat) : (s.setDom d v).tim = s.tim := by
  unfold State.setDom
  split
  · exact State.wr_tim s _ v
  · exact State.wr_tim s _ v
@[simp] theorem State.setDom_trg (s : State) (d : Dom) (v : Nat) : (s.setDom d v).trg = s.trg := by
  unfold State.setDom
  split
  · exact State.wr_trg s _ v
  · exact State.wr_trg s _ v
@[simp] theorem State.setDom_con (s : State) (d : Dom) (v : Nat) : (s.setDom d v).con = s.con := by
  unfold State.setDom
  split
  · exact State.wr_con s _ v
  · exact State.wr_con s _ v
@[simp] theorem State.setDom_eng (s : State) (d : Dom) (v : Nat) : (s.setDom d v).eng = s.eng := by
  unfold State.setDom
  split
  · exact State.wr_eng s _ v
  · exact State.wr_eng s _ v
@[simp] theorem State.setDom_dma (s : State) (d : Dom) (v : Nat) : (s.setDom d v).dma = s.dma := by
  unfold State.setDom
  split
  · exact State.wr_dma s _ v
  · exact State.wr_dma s _ v
@[simp] theorem State.setDom_cmp (s : State) (d : Dom) (v : Nat) : (s.setDom d v).cmp = s.cmp := by
  unfold State.setDom
  split
  · exact State.wr_cmp s _ v
  · exact State.wr_cmp s _ v
@[simp] theorem State.setDom_mem (s : State) (d : Dom) (v : Nat) : (s.setDom d v).mem = s.mem := by
  unfold State.setDom
  split
  · exact State.wr_mem s _ v
  · exact State.wr_mem s _ v
@[simp] theorem State.setDom_mbx (s : State) (d : Dom) (v : Nat) : (s.setDom d v).mbx = s.mbx := by
  unfold State.setDom
  split
  · exact State.wr_mbx s _ v
  · exact State.wr_mbx s _ v
@[simp] theorem State.setDom_dis (s : State) (d : Dom) (v : Nat) : (s.setDom d v).dis = s.dis := by
  unfold State.setDom
  split
  · exact State.wr_dis s _ v
  · exact State.wr_dis s _ v
@[simp] theorem State.setDom_mcv (s : State) (d : Dom) (v : Nat) : (s.setDom d v).mcv = s.mcv := by
  unfold State.setDom
  split
  · exact State.wr_mcv s _ v
  · exact State.wr_mcv s _ v
@[simp] theorem State.setDom_rdata (s : State) (d : Dom) (v : Nat) : (s.setDom d v).rdata = s.rdata := by
  unfold State.setDom
  split
  · exact State.wr_rdata s _ v
  · exact State.wr_rdata s _ v
@[simp] theorem State.setDom_free (s : State) (d : Dom) (v : Nat) : (s.setDom d v).free = s.free := by
  unfold State.setDom
  split
  · exact State.wr_free s _ v
  · exact State.wr_free s _ v
@[simp] theorem State.setDom_pending (s : State) (d : Dom) (v : Nat) : (s.setDom d v).pending = s.pending := by
  unfold State.setDom
  split
  · exact State.wr_pending s _ v
  · exact State.wr_pending s _ v

/-! ### hostWrite -/

@[simp] theorem State.hostWrite_regs (s : State) (a : Nat) (bs : List Byte) : (s.hostWrite a bs).regs = s.regs := rfl
@[simp] theorem State.hostWrite_eff (s : State) (a : Nat) (bs : List Byte) : (s.hostWrite a bs).eff = s.eff := rfl
@[simp] theorem State.hostWrite_latch (s : State) (a : Nat) (bs : List Byte) : (s.hostWrite a bs).latch = s.latch := rfl
@[simp] theorem State.hostWrite_now (s : State) (a : Nat) (bs : List Byte) : (s.hostWrite a bs).now = s.now := rfl
@[simp] theorem State.hostWrite_up (s : State) (a : Nat) (bs : List Byte) : (s.hostWrite a bs).up = s.up := rfl
@[simp] theorem State.hostWrite_dram (s : State) (a : Nat) (bs : List Byte) : (s.hostWrite a bs).dram = s.dram := rfl
@[simp] theorem State.hostWrite_sram (s : State) (a : Nat) (bs : List Byte) : (s.hostWrite a bs).sram = s.sram := rfl
@[simp] theorem State.hostWrite_fcp (s : State) (a : Nat) (bs : List Byte) : (s.hostWrite a bs).fcp = s.fcp := rfl
@[simp] theorem State.hostWrite_err (s : State) (a : Nat) (bs : List Byte) : (s.hostWrite a bs).err = s.err := rfl
@[simp] theorem State.hostWrite_shf (s : State) (a : Nat) (bs : List Byte) : (s.hostWrite a bs).shf = s.shf := rfl
@[simp] theorem State.hostWrite_pins (s : State) (a : Nat) (bs : List Byte) : (s.hostWrite a bs).pins = s.pins := rfl
@[simp] theorem State.hostWrite_clk (s : State) (a : Nat) (bs : List Byte) : (s.hostWrite a bs).clk = s.clk := rfl
@[simp] theorem State.hostWrite_jin (s : State) (a : Nat) (bs : List Byte) : (s.hostWrite a bs).jin = s.jin := rfl
@[simp] theorem State.hostWrite_dfu (s : State) (a : Nat) (bs : List Byte) : (s.hostWrite a bs).dfu = s.dfu := rfl
@[simp] theorem State.hostWrite_cap (s : State) (a : Nat) (bs : List Byte) : (s.hostWrite a bs).cap = s.cap := rfl
@[simp] theorem State.hostWrite_tim (s : State) (a : Nat) (bs : List Byte) : (s.hostWrite a bs).tim = s.tim := rfl
@[simp] theorem State.hostWrite_trg (s : State) (a : Nat) (bs : List Byte) : (s.hostWrite a bs).trg = s.trg := rfl
@[simp] theorem State.hostWrite_con (s : State) (a : Nat) (bs : List Byte) : (s.hostWrite a bs).con = s.con := rfl
@[simp] theorem State.hostWrite_eng (s : State) (a : Nat) (bs : List Byte) : (s.hostWrite a bs).eng = s.eng := rfl
@[simp] theorem State.hostWrite_dma (s : State) (a : Nat) (bs : List Byte) : (s.hostWrite a bs).dma = s.dma := rfl
@[simp] theorem State.hostWrite_cmp (s : State) (a : Nat) (bs : List Byte) : (s.hostWrite a bs).cmp = s.cmp := rfl
@[simp] theorem State.hostWrite_mem (s : State) (a : Nat) (bs : List Byte) : (s.hostWrite a bs).mem = s.mem := rfl
@[simp] theorem State.hostWrite_mbx (s : State) (a : Nat) (bs : List Byte) : (s.hostWrite a bs).mbx = s.mbx := rfl
@[simp] theorem State.hostWrite_dis (s : State) (a : Nat) (bs : List Byte) : (s.hostWrite a bs).dis = s.dis := rfl
@[simp] theorem State.hostWrite_mcv (s : State) (a : Nat) (bs : List Byte) : (s.hostWrite a bs).mcv = s.mcv := rfl
@[simp] theorem State.hostWrite_rdata (s : State) (a : Nat) (bs : List Byte) : (s.hostWrite a bs).rdata = s.rdata := rfl
@[simp] theorem State.hostWrite_free (s : State) (a : Nat) (bs : List Byte) : (s.hostWrite a bs).free = s.free := rfl
@[simp] theorem State.hostWrite_pending (s : State) (a : Nat) (bs : List Byte) : (s.hostWrite a bs).pending = s.pending := rfl

/-! ### dramWrite -/

@[simp] theorem State.dramWrite_regs (s : State) (a : Nat) (bs : List Byte) : (s.dramWrite a bs).regs = s.regs := rfl
@[simp] theorem State.dramWrite_eff (s : State) (a : Nat) (bs : List Byte) : (s.dramWrite a bs).eff = s.eff := rfl
@[simp] theorem State.dramWrite_latch (s : State) (a : Nat) (bs : List Byte) : (s.dramWrite a bs).latch = s.latch := rfl
@[simp] theorem State.dramWrite_now (s : State) (a : Nat) (bs : List Byte) : (s.dramWrite a bs).now = s.now := rfl
@[simp] theorem State.dramWrite_up (s : State) (a : Nat) (bs : List Byte) : (s.dramWrite a bs).up = s.up := rfl
@[simp] theorem State.dramWrite_host (s : State) (a : Nat) (bs : List Byte) : (s.dramWrite a bs).host = s.host := rfl
@[simp] theorem State.dramWrite_sram (s : State) (a : Nat) (bs : List Byte) : (s.dramWrite a bs).sram = s.sram := rfl
@[simp] theorem State.dramWrite_fcp (s : State) (a : Nat) (bs : List Byte) : (s.dramWrite a bs).fcp = s.fcp := rfl
@[simp] theorem State.dramWrite_err (s : State) (a : Nat) (bs : List Byte) : (s.dramWrite a bs).err = s.err := rfl
@[simp] theorem State.dramWrite_shf (s : State) (a : Nat) (bs : List Byte) : (s.dramWrite a bs).shf = s.shf := rfl
@[simp] theorem State.dramWrite_pins (s : State) (a : Nat) (bs : List Byte) : (s.dramWrite a bs).pins = s.pins := rfl
@[simp] theorem State.dramWrite_clk (s : State) (a : Nat) (bs : List Byte) : (s.dramWrite a bs).clk = s.clk := rfl
@[simp] theorem State.dramWrite_jin (s : State) (a : Nat) (bs : List Byte) : (s.dramWrite a bs).jin = s.jin := rfl
@[simp] theorem State.dramWrite_dfu (s : State) (a : Nat) (bs : List Byte) : (s.dramWrite a bs).dfu = s.dfu := rfl
@[simp] theorem State.dramWrite_cap (s : State) (a : Nat) (bs : List Byte) : (s.dramWrite a bs).cap = s.cap := rfl
@[simp] theorem State.dramWrite_tim (s : State) (a : Nat) (bs : List Byte) : (s.dramWrite a bs).tim = s.tim := rfl
@[simp] theorem State.dramWrite_trg (s : State) (a : Nat) (bs : List Byte) : (s.dramWrite a bs).trg = s.trg := rfl
@[simp] theorem State.dramWrite_con (s : State) (a : Nat) (bs : List Byte) : (s.dramWrite a bs).con = s.con := rfl
@[simp] theorem State.dramWrite_eng (s : State) (a : Nat) (bs : List Byte) : (s.dramWrite a bs).eng = s.eng := rfl
@[simp] theorem State.dramWrite_dma (s : State) (a : Nat) (bs : List Byte) : (s.dramWrite a bs).dma = s.dma := rfl
@[simp] theorem State.dramWrite_cmp (s : State) (a : Nat) (bs : List Byte) : (s.dramWrite a bs).cmp = s.cmp := rfl
@[simp] theorem State.dramWrite_mbx (s : State) (a : Nat) (bs : List Byte) : (s.dramWrite a bs).mbx = s.mbx := rfl
@[simp] theorem State.dramWrite_dis (s : State) (a : Nat) (bs : List Byte) : (s.dramWrite a bs).dis = s.dis := rfl
@[simp] theorem State.dramWrite_mcv (s : State) (a : Nat) (bs : List Byte) : (s.dramWrite a bs).mcv = s.mcv := rfl
@[simp] theorem State.dramWrite_rdata (s : State) (a : Nat) (bs : List Byte) : (s.dramWrite a bs).rdata = s.rdata := rfl
@[simp] theorem State.dramWrite_free (s : State) (a : Nat) (bs : List Byte) : (s.dramWrite a bs).free = s.free := rfl
@[simp] theorem State.dramWrite_pending (s : State) (a : Nat) (bs : List Byte) : (s.dramWrite a bs).pending = s.pending := rfl

/-! ### modFcp -/

@[simp] theorem State.modFcp_regs (s : State) (g : Fcp → Fcp) : (s.modFcp g).regs = s.regs := rfl
@[simp] theorem State.modFcp_eff (s : State) (g : Fcp → Fcp) : (s.modFcp g).eff = s.eff := rfl
@[simp] theorem State.modFcp_latch (s : State) (g : Fcp → Fcp) : (s.modFcp g).latch = s.latch := rfl
@[simp] theorem State.modFcp_now (s : State) (g : Fcp → Fcp) : (s.modFcp g).now = s.now := rfl
@[simp] theorem State.modFcp_up (s : State) (g : Fcp → Fcp) : (s.modFcp g).up = s.up := rfl
@[simp] theorem State.modFcp_dram (s : State) (g : Fcp → Fcp) : (s.modFcp g).dram = s.dram := rfl
@[simp] theorem State.modFcp_host (s : State) (g : Fcp → Fcp) : (s.modFcp g).host = s.host := rfl
@[simp] theorem State.modFcp_sram (s : State) (g : Fcp → Fcp) : (s.modFcp g).sram = s.sram := rfl
@[simp] theorem State.modFcp_err (s : State) (g : Fcp → Fcp) : (s.modFcp g).err = s.err := rfl
@[simp] theorem State.modFcp_shf (s : State) (g : Fcp → Fcp) : (s.modFcp g).shf = s.shf := rfl
@[simp] theorem State.modFcp_pins (s : State) (g : Fcp → Fcp) : (s.modFcp g).pins = s.pins := rfl
@[simp] theorem State.modFcp_clk (s : State) (g : Fcp → Fcp) : (s.modFcp g).clk = s.clk := rfl
@[simp] theorem State.modFcp_jin (s : State) (g : Fcp → Fcp) : (s.modFcp g).jin = s.jin := rfl
@[simp] theorem State.modFcp_dfu (s : State) (g : Fcp → Fcp) : (s.modFcp g).dfu = s.dfu := rfl
@[simp] theorem State.modFcp_cap (s : State) (g : Fcp → Fcp) : (s.modFcp g).cap = s.cap := rfl
@[simp] theorem State.modFcp_tim (s : State) (g : Fcp → Fcp) : (s.modFcp g).tim = s.tim := rfl
@[simp] theorem State.modFcp_trg (s : State) (g : Fcp → Fcp) : (s.modFcp g).trg = s.trg := rfl
@[simp] theorem State.modFcp_con (s : State) (g : Fcp → Fcp) : (s.modFcp g).con = s.con := rfl
@[simp] theorem State.modFcp_eng (s : State) (g : Fcp → Fcp) : (s.modFcp g).eng = s.eng := rfl
@[simp] theorem State.modFcp_dma (s : State) (g : Fcp → Fcp) : (s.modFcp g).dma = s.dma := rfl
@[simp] theorem State.modFcp_cmp (s : State) (g : Fcp → Fcp) : (s.modFcp g).cmp = s.cmp := rfl
@[simp] theorem State.modFcp_mem (s : State) (g : Fcp → Fcp) : (s.modFcp g).mem = s.mem := rfl
@[simp] theorem State.modFcp_mbx (s : State) (g : Fcp → Fcp) : (s.modFcp g).mbx = s.mbx := rfl
@[simp] theorem State.modFcp_dis (s : State) (g : Fcp → Fcp) : (s.modFcp g).dis = s.dis := rfl
@[simp] theorem State.modFcp_mcv (s : State) (g : Fcp → Fcp) : (s.modFcp g).mcv = s.mcv := rfl
@[simp] theorem State.modFcp_rdata (s : State) (g : Fcp → Fcp) : (s.modFcp g).rdata = s.rdata := rfl
@[simp] theorem State.modFcp_free (s : State) (g : Fcp → Fcp) : (s.modFcp g).free = s.free := rfl
@[simp] theorem State.modFcp_pending (s : State) (g : Fcp → Fcp) : (s.modFcp g).pending = s.pending := rfl

/-! ### modClk -/

@[simp] theorem State.modClk_regs (s : State) (g : Clk → Clk) : (s.modClk g).regs = s.regs := rfl
@[simp] theorem State.modClk_eff (s : State) (g : Clk → Clk) : (s.modClk g).eff = s.eff := rfl
@[simp] theorem State.modClk_latch (s : State) (g : Clk → Clk) : (s.modClk g).latch = s.latch := rfl
@[simp] theorem State.modClk_now (s : State) (g : Clk → Clk) : (s.modClk g).now = s.now := rfl
@[simp] theorem State.modClk_up (s : State) (g : Clk → Clk) : (s.modClk g).up = s.up := rfl
@[simp] theorem State.modClk_dram (s : State) (g : Clk → Clk) : (s.modClk g).dram = s.dram := rfl
@[simp] theorem State.modClk_host (s : State) (g : Clk → Clk) : (s.modClk g).host = s.host := rfl
@[simp] theorem State.modClk_sram (s : State) (g : Clk → Clk) : (s.modClk g).sram = s.sram := rfl
@[simp] theorem State.modClk_fcp (s : State) (g : Clk → Clk) : (s.modClk g).fcp = s.fcp := rfl
@[simp] theorem State.modClk_err (s : State) (g : Clk → Clk) : (s.modClk g).err = s.err := rfl
@[simp] theorem State.modClk_shf (s : State) (g : Clk → Clk) : (s.modClk g).shf = s.shf := rfl
@[simp] theorem State.modClk_pins (s : State) (g : Clk → Clk) : (s.modClk g).pins = s.pins := rfl
@[simp] theorem State.modClk_jin (s : State) (g : Clk → Clk) : (s.modClk g).jin = s.jin := rfl
@[simp] theorem State.modClk_dfu (s : State) (g : Clk → Clk) : (s.modClk g).dfu = s.dfu := rfl
@[simp] theorem State.modClk_cap (s : State) (g : Clk → Clk) : (s.modClk g).cap = s.cap := rfl
@[simp] theorem State.modClk_tim (s : State) (g : Clk → Clk) : (s.modClk g).tim = s.tim := rfl
@[simp] theorem State.modClk_trg (s : State) (g : Clk → Clk) : (s.modClk g).trg = s.trg := rfl
@[simp] theorem State.modClk_con (s : State) (g : Clk → Clk) : (s.modClk g).con = s.con := rfl
@[simp] theorem State.modClk_eng (s : State) (g : Clk → Clk) : (s.modClk g).eng = s.eng := rfl
@[simp] theorem State.modClk_dma (s : State) (g : Clk → Clk) : (s.modClk g).dma = s.dma := rfl
@[simp] theorem State.modClk_cmp (s : State) (g : Clk → Clk) : (s.modClk g).cmp = s.cmp := rfl
@[simp] theorem State.modClk_mem (s : State) (g : Clk → Clk) : (s.modClk g).mem = s.mem := rfl
@[simp] theorem State.modClk_mbx (s : State) (g : Clk → Clk) : (s.modClk g).mbx = s.mbx := rfl
@[simp] theorem State.modClk_dis (s : State) (g : Clk → Clk) : (s.modClk g).dis = s.dis := rfl
@[simp] theorem State.modClk_mcv (s : State) (g : Clk → Clk) : (s.modClk g).mcv = s.mcv := rfl
@[simp] theorem State.modClk_rdata (s : State) (g : Clk → Clk) : (s.modClk g).rdata = s.rdata := rfl
@[simp] theorem State.modClk_free (s : State) (g : Clk → Clk) : (s.modClk g).free = s.free := rfl
@[simp] theorem State.modClk_pending (s : State) (g : Clk → Clk) : (s.modClk g).pending = s.pending := rfl

/-! ### modCap -/

@[simp] theorem State.modCap_regs (s : State) (g : Cap → Cap) : (s.modCap g).regs = s.regs := rfl
@[simp] theorem State.modCap_eff (s : State) (g : Cap → Cap) : (s.modCap g).eff = s.eff := rfl
@[simp] theorem State.modCap_latch (s : State) (g : Cap → Cap) : (s.modCap g).latch = s.latch := rfl
@[simp] theorem State.modCap_now (s : State) (g : Cap → Cap) : (s.modCap g).now = s.now := rfl
@[simp] theorem State.modCap_up (s : State) (g : Cap → Cap) : (s.modCap g).up = s.up := rfl
@[simp] theorem State.modCap_dram (s : State) (g : Cap → Cap) : (s.modCap g).dram = s.dram := rfl
@[simp] theorem State.modCap_host (s : State) (g : Cap → Cap) : (s.modCap g).host = s.host := rfl
@[simp] theorem State.modCap_sram (s : State) (g : Cap → Cap) : (s.modCap g).sram = s.sram := rfl
@[simp] theorem State.modCap_fcp (s : State) (g : Cap → Cap) : (s.modCap g).fcp = s.fcp := rfl
@[simp] theorem State.modCap_err (s : State) (g : Cap → Cap) : (s.modCap g).err = s.err := rfl
@[simp] theorem State.modCap_shf (s : State) (g : Cap → Cap) : (s.modCap g).shf = s.shf := rfl
@[simp] theorem State.modCap_pins (s : State) (g : Cap → Cap) : (s.modCap g).pins = s.pins := rfl
@[simp] theorem State.modCap_clk (s : State) (g : Cap → Cap) : (s.modCap g).clk = s.clk := rfl
@[simp] theorem State.modCap_jin (s : State) (g : Cap → Cap) : (s.modCap g).jin = s.jin := rfl
@[simp] theorem State.modCap_dfu (s : State) (g : Cap → Cap) : (s.modCap g).dfu = s.dfu := rfl
@[simp] theorem State.modCap_tim (s : State) (g : Cap → Cap) : (s.modCap g).tim = s.tim := rfl
@[simp] theorem State.modCap_trg (s : State) (g : Cap → Cap) : (s.modCap g).trg = s.trg := rfl
@[simp] theorem State.modCap_con (s : State) (g : Cap → Cap) : (s.modCap g).con = s.con := rfl
@[simp] theorem State.modCap_eng (s : State) (g : Cap → Cap) : (s.modCap g).eng = s.eng := rfl
@[simp] theorem State.modCap_dma (s : State) (g : Cap → Cap) : (s.modCap g).dma = s.dma := rfl
@[simp] theorem State.modCap_cmp (s : State) (g : Cap → Cap) : (s.modCap g).cmp = s.cmp := rfl
@[simp] theorem State.modCap_mem (s : State) (g : Cap → Cap) : (s.modCap g).mem = s.mem := rfl
@[simp] theorem State.modCap_mbx (s : State) (g : Cap → Cap) : (s.modCap g).mbx = s.mbx := rfl
@[simp] theorem State.modCap_dis (s : State) (g : Cap → Cap) : (s.modCap g).dis = s.dis := rfl
@[simp] theorem State.modCap_mcv (s : State) (g : Cap → Cap) : (s.modCap g).mcv = s.mcv := rfl
@[simp] theorem State.modCap_rdata (s : State) (g : Cap → Cap) : (s.modCap g).rdata = s.rdata := rfl
@[simp] theorem State.modCap_free (s : State) (g : Cap → Cap) : (s.modCap g).free = s.free := rfl
@[simp] theorem State.modCap_pending (s : State) (g : Cap → Cap) : (s.modCap g).pending = s.pending := rfl

/-! ### modTim -/

@[simp] theorem State.modTim_regs (s : State) (g : Tim → Tim) : (s.modTim g).regs = s.regs := rfl
@[simp] theorem State.modTim_eff (s : State) (g : Tim → Tim) : (s.modTim g).eff = s.eff := rfl
@[simp] theorem State.modTim_latch (s : State) (g : Tim → Tim) : (s.modTim g).latch = s.latch := rfl
@[simp] theorem State.modTim_now (s : State) (g : Tim → Tim) : (s.modTim g).now = s.now := rfl
@[simp] theorem State.modTim_up (s : State) (g : Tim → Tim) : (s.modTim g).up = s.up := rfl
@[simp] theorem State.modTim_dram (s : State) (g : Tim → Tim) : (s.modTim g).dram = s.dram := rfl
@[simp] theorem State.modTim_host (s : State) (g : Tim → Tim) : (s.modTim g).host = s.host := rfl
@[simp] theorem State.modTim_sram (s : State) (g : Tim → Tim) : (s.modTim g).sram = s.sram := rfl
@[simp] theorem State.modTim_fcp (s : State) (g : Tim → Tim) : (s.modTim g).fcp = s.fcp := rfl
@[simp] theorem State.modTim_err (s : State) (g : Tim → Tim) : (s.modTim g).err = s.err := rfl
@[simp] theorem State.modTim_shf (s : State) (g : Tim → Tim) : (s.modTim g).shf = s.shf := rfl
@[simp] theorem State.modTim_pins (s : State) (g : Tim → Tim) : (s.modTim g).pins = s.pins := rfl
@[simp] theorem State.modTim_clk (s : State) (g : Tim → Tim) : (s.modTim g).clk = s.clk := rfl
@[simp] theorem State.modTim_jin (s : State) (g : Tim → Tim) : (s.modTim g).jin = s.jin := rfl
@[simp] theorem State.modTim_dfu (s : State) (g : Tim → Tim) : (s.modTim g).dfu = s.dfu := rfl
@[simp] theorem State.modTim_cap (s : State) (g : Tim → Tim) : (s.modTim g).cap = s.cap := rfl
@[simp] theorem State.modTim_trg (s : State) (g : Tim → Tim) : (s.modTim g).trg = s.trg := rfl
@[simp] theorem State.modTim_con (s : State) (g : Tim → Tim) : (s.modTim g).con = s.con := rfl
@[simp] theorem State.modTim_eng (s : State) (g : Tim → Tim) : (s.modTim g).eng = s.eng := rfl
@[simp] theorem State.modTim_dma (s : State) (g : Tim → Tim) : (s.modTim g).dma = s.dma := rfl
@[simp] theorem State.modTim_cmp (s : State) (g : Tim → Tim) : (s.modTim g).cmp = s.cmp := rfl
@[simp] theorem State.modTim_mem (s : State) (g : Tim → Tim) : (s.modTim g).mem = s.mem := rfl
@[simp] theorem State.modTim_mbx (s : State) (g : Tim → Tim) : (s.modTim g).mbx = s.mbx := rfl
@[simp] theorem State.modTim_dis (s : State) (g : Tim → Tim) : (s.modTim g).dis = s.dis := rfl
@[simp] theorem State.modTim_mcv (s : State) (g : Tim → Tim) : (s.modTim g).mcv = s.mcv := rfl
@[simp] theorem State.modTim_rdata (s : State) (g : Tim → Tim) : (s.modTim g).rdata = s.rdata := rfl
@[simp] theorem State.modTim_free (s : State) (g : Tim → Tim) : (s.modTim g).free = s.free := rfl
@[simp] theorem State.modTim_pending (s : State) (g : Tim → Tim) : (s.modTim g).pending = s.pending := rfl

/-! ### modTrg -/

@[simp] theorem State.modTrg_regs (s : State) (g : Trg → Trg) : (s.modTrg g).regs = s.regs := rfl
@[simp] theorem State.modTrg_eff (s : State) (g : Trg → Trg) : (s.modTrg g).eff = s.eff := rfl
@[simp] theorem State.modTrg_latch (s : State) (g : Trg → Trg) : (s.modTrg g).latch = s.latch := rfl
@[simp] theorem State.modTrg_now (s : State) (g : Trg → Trg) : (s.modTrg g).now = s.now := rfl
@[simp] theorem State.modTrg_up (s : State) (g : Trg → Trg) : (s.modTrg g).up = s.up := rfl
@[simp] theorem State.modTrg_dram (s : State) (g : Trg → Trg) : (s.modTrg g).dram = s.dram := rfl
@[simp] theorem State.modTrg_host (s : State) (g : Trg → Trg) : (s.modTrg g).host = s.host := rfl
@[simp] theorem State.modTrg_sram (s : State) (g : Trg → Trg) : (s.modTrg g).sram = s.sram := rfl
@[simp] theorem State.modTrg_fcp (s : State) (g : Trg → Trg) : (s.modTrg g).fcp = s.fcp := rfl
@[simp] theorem State.modTrg_err (s : State) (g : Trg → Trg) : (s.modTrg g).err = s.err := rfl
@[simp] theorem State.modTrg_shf (s : State) (g : Trg → Trg) : (s.modTrg g).shf = s.shf := rfl
@[simp] theorem State.modTrg_pins (s : State) (g : Trg → Trg) : (s.modTrg g).pins = s.pins := rfl
@[simp] theorem State.modTrg_clk (s : State) (g : Trg → Trg) : (s.modTrg g).clk = s.clk := rfl
@[simp] theorem State.modTrg_jin (s : State) (g : Trg → Trg) : (s.modTrg g).jin = s.jin := rfl
@[simp] theorem State.modTrg_dfu (s : State) (g : Trg → Trg) : (s.modTrg g).dfu = s.dfu := rfl
@[simp] theorem State.modTrg_cap (s : State) (g : Trg → Trg) : (s.modTrg g).cap = s.cap := rfl
@[simp] theorem State.modTrg_tim (s : State) (g : Trg → Trg) : (s.modTrg g).tim = s.tim := rfl
@[simp] theorem State.modTrg_con (s : State) (g : Trg → Trg) : (s.modTrg g).con = s.con := rfl
@[simp] theorem State.modTrg_eng (s : State) (g : Trg → Trg) : (s.modTrg g).eng = s.eng := rfl
@[simp] theorem State.modTrg_dma (s : State) (g : Trg → Trg) : (s.modTrg g).dma = s.dma := rfl
@[simp] theorem State.modTrg_cmp (s : State) (g : Trg → Trg) : (s.modTrg g).cmp = s.cmp := rfl
@[simp] theorem State.modTrg_mem (s : State) (g : Trg → Trg) : (s.modTrg g).mem = s.mem := rfl
@[simp] theorem State.modTrg_mbx (s : State) (g : Trg → Trg) : (s.modTrg g).mbx = s.mbx := rfl
@[simp] theorem State.modTrg_dis (s : State) (g : Trg → Trg) : (s.modTrg g).dis = s.dis := rfl
@[simp] theorem State.modTrg_mcv (s : State) (g : Trg → Trg) : (s.modTrg g).mcv = s.mcv := rfl
@[simp] theorem State.modTrg_rdata (s : State) (g : Trg → Trg) : (s.modTrg g).rdata = s.rdata := rfl
@[simp] theorem State.modTrg_free (s : State) (g : Trg → Trg) : (s.modTrg g).free = s.free := rfl
@[simp] theorem State.modTrg_pending (s : State) (g : Trg → Trg) : (s.modTrg g).pending = s.pending := rfl

/-! ### modCon -/

@[simp] theorem State.modCon_regs (s : State) (g : Con → Con) : (s.modCon g).regs = s.regs := rfl
@[simp] theorem State.modCon_eff (s : State) (g : Con → Con) : (s.modCon g).eff = s.eff := rfl
@[simp] theorem State.modCon_latch (s : State) (g : Con → Con) : (s.modCon g).latch = s.latch := rfl
@[simp] theorem State.modCon_now (s : State) (g : Con → Con) : (s.modCon g).now = s.now := rfl
@[simp] theorem State.modCon_up (s : State) (g : Con → Con) : (s.modCon g).up = s.up := rfl
@[simp] theorem State.modCon_dram (s : State) (g : Con → Con) : (s.modCon g).dram = s.dram := rfl
@[simp] theorem State.modCon_host (s : State) (g : Con → Con) : (s.modCon g).host = s.host := rfl
@[simp] theorem State.modCon_sram (s : State) (g : Con → Con) : (s.modCon g).sram = s.sram := rfl
@[simp] theorem State.modCon_fcp (s : State) (g : Con → Con) : (s.modCon g).fcp = s.fcp := rfl
@[simp] theorem State.modCon_err (s : State) (g : Con → Con) : (s.modCon g).err = s.err := rfl
@[simp] theorem State.modCon_shf (s : State) (g : Con → Con) : (s.modCon g).shf = s.shf := rfl
@[simp] theorem State.modCon_pins (s : State) (g : Con → Con) : (s.modCon g).pins = s.pins := rfl
@[simp] theorem State.modCon_clk (s : State) (g : Con → Con) : (s.modCon g).clk = s.clk := rfl
@[simp] theorem State.modCon_jin (s : State) (g : Con → Con) : (s.modCon g).jin = s.jin := rfl
@[simp] theorem State.modCon_dfu (s : State) (g : Con → Con) : (s.modCon g).dfu = s.dfu := rfl
@[simp] theorem State.modCon_cap (s : State) (g : Con → Con) : (s.modCon g).cap = s.cap := rfl
@[simp] theorem State.modCon_tim (s : State) (g : Con → Con) : (s.modCon g).tim = s.tim := rfl
@[simp] theorem State.modCon_trg (s : State) (g : Con → Con) : (s.modCon g).trg = s.trg := rfl
@[simp] theorem State.modCon_eng (s : State) (g : Con → Con) : (s.modCon g).eng = s.eng := rfl
@[simp] theorem State.modCon_dma (s : State) (g : Con → Con) : (s.modCon g).dma = s.dma := rfl
@[simp] theorem State.modCon_cmp (s : State) (g : Con → Con) : (s.modCon g).cmp = s.cmp := rfl
@[simp] theorem State.modCon_mem (s : State) (g : Con → Con) : (s.modCon g).mem = s.mem := rfl
@[simp] theorem State.modCon_mbx (s : State) (g : Con → Con) : (s.modCon g).mbx = s.mbx := rfl
@[simp] theorem State.modCon_dis (s : State) (g : Con → Con) : (s.modCon g).dis = s.dis := rfl
@[simp] theorem State.modCon_mcv (s : State) (g : Con → Con) : (s.modCon g).mcv = s.mcv := rfl
@[simp] theorem State.modCon_rdata (s : State) (g : Con → Con) : (s.modCon g).rdata = s.rdata := rfl
@[simp] theorem State.modCon_free (s : State) (g : Con → Con) : (s.modCon g).free = s.free := rfl
@[simp] theorem State.modCon_pending (s : State) (g : Con → Con) : (s.modCon g).pending = s.pending := rfl

/-! ### modEng -/

@[simp] theorem State.modEng_regs (s : State) (g : Eng → Eng) : (s.modEng g).regs = s.regs := rfl
@[simp] theorem State.modEng_eff (s : State) (g : Eng → Eng) : (s.modEng g).eff = s.eff := rfl
@[simp] theorem State.modEng_latch (s : State) (g : Eng → Eng) : (s.modEng g).latch = s.latch := rfl
@[simp] theorem State.modEng_now (s : State) (g : Eng → Eng) : (s.modEng g).now = s.now := rfl
@[simp] theorem State.modEng_up (s : State) (g : Eng → Eng) : (s.modEng g).up = s.up := rfl
@[simp] theorem State.modEng_dram (s : State) (g : Eng → Eng) : (s.modEng g).dram = s.dram := rfl
@[simp] theorem State.modEng_host (s : State) (g : Eng → Eng) : (s.modEng g).host = s.host := rfl
@[simp] theorem State.modEng_sram (s : State) (g : Eng → Eng) : (s.modEng g).sram = s.sram := rfl
@[simp] theorem State.modEng_fcp (s : State) (g : Eng → Eng) : (s.modEng g).fcp = s.fcp := rfl
@[simp] theorem State.modEng_err (s : State) (g : Eng → Eng) : (s.modEng g).err = s.err := rfl
@[simp] theorem State.modEng_shf (s : State) (g : Eng → Eng) : (s.modEng g).shf = s.shf := rfl
@[simp] theorem State.modEng_pins (s : State) (g : Eng → Eng) : (s.modEng g).pins = s.pins := rfl
@[simp] theorem State.modEng_clk (s : State) (g : Eng → Eng) : (s.modEng g).clk = s.clk := rfl
@[simp] theorem State.modEng_jin (s : State) (g : Eng → Eng) : (s.modEng g).jin = s.jin := rfl
@[simp] theorem State.modEng_dfu (s : State) (g : Eng → Eng) : (s.modEng g).dfu = s.dfu := rfl
@[simp] theorem State.modEng_cap (s : State) (g : Eng → Eng) : (s.modEng g).cap = s.cap := rfl
@[simp] theorem State.modEng_tim (s : State) (g : Eng → Eng) : (s.modEng g).tim = s.tim := rfl
@[simp] theorem State.modEng_trg (s : State) (g : Eng → Eng) : (s.modEng g).trg = s.trg := rfl
@[simp] theorem State.modEng_con (s : State) (g : Eng → Eng) : (s.modEng g).con = s.con := rfl
@[simp] theorem State.modEng_dma (s : State) (g : Eng → Eng) : (s.modEng g).dma = s.dma := rfl
@[simp] theorem State.modEng_cmp (s : State) (g : Eng → Eng) : (s.modEng g).cmp = s.cmp := rfl
@[simp] theorem State.modEng_mem (s : State) (g : Eng → Eng) : (s.modEng g).mem = s.mem := rfl
@[simp] theorem State.modEng_mbx (s : State) (g : Eng → Eng) : (s.modEng g).mbx = s.mbx := rfl
@[simp] theorem State.modEng_dis (s : State) (g : Eng → Eng) : (s.modEng g).dis = s.dis := rfl
@[simp] theorem State.modEng_mcv (s : State) (g : Eng → Eng) : (s.modEng g).mcv = s.mcv := rfl
@[simp] theorem State.modEng_rdata (s : State) (g : Eng → Eng) : (s.modEng g).rdata = s.rdata := rfl
@[simp] theorem State.modEng_free (s : State) (g : Eng → Eng) : (s.modEng g).free = s.free := rfl
@[simp] theorem State.modEng_pending (s : State) (g : Eng → Eng) : (s.modEng g).pending = s.pending := rfl

/-! ### modDma -/

@[simp] theorem State.modDma_regs (s : State) (g : Dma → Dma) : (s.modDma g).regs = s.regs := rfl
@[simp] theorem State.modDma_eff (s : State) (g : Dma → Dma) : (s.modDma g).eff = s.eff := rfl
@[simp] theorem State.modDma_latch (s : State) (g : Dma → Dma) : (s.modDma g).latch = s.latch := rfl
@[simp] theorem State.modDma_now (s : State) (g : Dma → Dma) : (s.modDma g).now = s.now := rfl
@[simp] theorem State.modDma_up (s : State) (g : Dma → Dma) : (s.modDma g).up = s.up := rfl
@[simp] theorem State.modDma_dram (s : State) (g : Dma → Dma) : (s.modDma g).dram = s.dram := rfl
@[simp] theorem State.modDma_host (s : State) (g : Dma → Dma) : (s.modDma g).host = s.host := rfl
@[simp] theorem State.modDma_sram (s : State) (g : Dma → Dma) : (s.modDma g).sram = s.sram := rfl
@[simp] theorem State.modDma_fcp (s : State) (g : Dma → Dma) : (s.modDma g).fcp = s.fcp := rfl
@[simp] theorem State.modDma_err (s : State) (g : Dma → Dma) : (s.modDma g).err = s.err := rfl
@[simp] theorem State.modDma_shf (s : State) (g : Dma → Dma) : (s.modDma g).shf = s.shf := rfl
@[simp] theorem State.modDma_pins (s : State) (g : Dma → Dma) : (s.modDma g).pins = s.pins := rfl
@[simp] theorem State.modDma_clk (s : State) (g : Dma → Dma) : (s.modDma g).clk = s.clk := rfl
@[simp] theorem State.modDma_jin (s : State) (g : Dma → Dma) : (s.modDma g).jin = s.jin := rfl
@[simp] theorem State.modDma_dfu (s : State) (g : Dma → Dma) : (s.modDma g).dfu = s.dfu := rfl
@[simp] theorem State.modDma_cap (s : State) (g : Dma → Dma) : (s.modDma g).cap = s.cap := rfl
@[simp] theorem State.modDma_tim (s : State) (g : Dma → Dma) : (s.modDma g).tim = s.tim := rfl
@[simp] theorem State.modDma_trg (s : State) (g : Dma → Dma) : (s.modDma g).trg = s.trg := rfl
@[simp] theorem State.modDma_con (s : State) (g : Dma → Dma) : (s.modDma g).con = s.con := rfl
@[simp] theorem State.modDma_eng (s : State) (g : Dma → Dma) : (s.modDma g).eng = s.eng := rfl
@[simp] theorem State.modDma_cmp (s : State) (g : Dma → Dma) : (s.modDma g).cmp = s.cmp := rfl
@[simp] theorem State.modDma_mem (s : State) (g : Dma → Dma) : (s.modDma g).mem = s.mem := rfl
@[simp] theorem State.modDma_mbx (s : State) (g : Dma → Dma) : (s.modDma g).mbx = s.mbx := rfl
@[simp] theorem State.modDma_dis (s : State) (g : Dma → Dma) : (s.modDma g).dis = s.dis := rfl
@[simp] theorem State.modDma_mcv (s : State) (g : Dma → Dma) : (s.modDma g).mcv = s.mcv := rfl
@[simp] theorem State.modDma_rdata (s : State) (g : Dma → Dma) : (s.modDma g).rdata = s.rdata := rfl
@[simp] theorem State.modDma_free (s : State) (g : Dma → Dma) : (s.modDma g).free = s.free := rfl
@[simp] theorem State.modDma_pending (s : State) (g : Dma → Dma) : (s.modDma g).pending = s.pending := rfl

/-! ### modCmp -/

@[simp] theorem State.modCmp_regs (s : State) (g : Cmp → Cmp) : (s.modCmp g).regs = s.regs := rfl
@[simp] theorem State.modCmp_eff (s : State) (g : Cmp → Cmp) : (s.modCmp g).eff = s.eff := rfl
@[simp] theorem State.modCmp_latch (s : State) (g : Cmp → Cmp) : (s.modCmp g).latch = s.latch := rfl
@[simp] theorem State.modCmp_now (s : State) (g : Cmp → Cmp) : (s.modCmp g).now = s.now := rfl
@[simp] theorem State.modCmp_up (s : State) (g : Cmp → Cmp) : (s.modCmp g).up = s.up := rfl
@[simp] theorem State.modCmp_dram (s : State) (g : Cmp → Cmp) : (s.modCmp g).dram = s.dram := rfl
@[simp] theorem State.modCmp_host (s : State) (g : Cmp → Cmp) : (s.modCmp g).host = s.host := rfl
@[simp] theorem State.modCmp_sram (s : State) (g : Cmp → Cmp) : (s.modCmp g).sram = s.sram := rfl
@[simp] theorem State.modCmp_fcp (s : State) (g : Cmp → Cmp) : (s.modCmp g).fcp = s.fcp := rfl
@[simp] theorem State.modCmp_err (s : State) (g : Cmp → Cmp) : (s.modCmp g).err = s.err := rfl
@[simp] theorem State.modCmp_shf (s : State) (g : Cmp → Cmp) : (s.modCmp g).shf = s.shf := rfl
@[simp] theorem State.modCmp_pins (s : State) (g : Cmp → Cmp) : (s.modCmp g).pins = s.pins := rfl
@[simp] theorem State.modCmp_clk (s : State) (g : Cmp → Cmp) : (s.modCmp g).clk = s.clk := rfl
@[simp] theorem State.modCmp_jin (s : State) (g : Cmp → Cmp) : (s.modCmp g).jin = s.jin := rfl
@[simp] theorem State.modCmp_dfu (s : State) (g : Cmp → Cmp) : (s.modCmp g).dfu = s.dfu := rfl
@[simp] theorem State.modCmp_cap (s : State) (g : Cmp → Cmp) : (s.modCmp g).cap = s.cap := rfl
@[simp] theorem State.modCmp_tim (s : State) (g : Cmp → Cmp) : (s.modCmp g).tim = s.tim := rfl
@[simp] theorem State.modCmp_trg (s : State) (g : Cmp → Cmp) : (s.modCmp g).trg = s.trg := rfl
@[simp] theorem State.modCmp_con (s : State) (g : Cmp → Cmp) : (s.modCmp g).con = s.con := rfl
@[simp] theorem State.modCmp_eng (s : State) (g : Cmp → Cmp) : (s.modCmp g).eng = s.eng := rfl
@[simp] theorem State.modCmp_dma (s : State) (g : Cmp → Cmp) : (s.modCmp g).dma = s.dma := rfl
@[simp] theorem State.modCmp_mem (s : State) (g : Cmp → Cmp) : (s.modCmp g).mem = s.mem := rfl
@[simp] theorem State.modCmp_mbx (s : State) (g : Cmp → Cmp) : (s.modCmp g).mbx = s.mbx := rfl
@[simp] theorem State.modCmp_dis (s : State) (g : Cmp → Cmp) : (s.modCmp g).dis = s.dis := rfl
@[simp] theorem State.modCmp_mcv (s : State) (g : Cmp → Cmp) : (s.modCmp g).mcv = s.mcv := rfl
@[simp] theorem State.modCmp_rdata (s : State) (g : Cmp → Cmp) : (s.modCmp g).rdata = s.rdata := rfl
@[simp] theorem State.modCmp_free (s : State) (g : Cmp → Cmp) : (s.modCmp g).free = s.free := rfl
@[simp] theorem State.modCmp_pending (s : State) (g : Cmp → Cmp) : (s.modCmp g).pending = s.pending := rfl

/-! ### modMem -/

@[simp] theorem State.modMem_regs (s : State) (g : Mem → Mem) : (s.modMem g).regs = s.regs := rfl
@[simp] theorem State.modMem_eff (s : State) (g : Mem → Mem) : (s.modMem g).eff = s.eff := rfl
@[simp] theorem State.modMem_latch (s : State) (g : Mem → Mem) : (s.modMem g).latch = s.latch := rfl
@[simp] theorem State.modMem_now (s : State) (g : Mem → Mem) : (s.modMem g).now = s.now := rfl
@[simp] theorem State.modMem_up (s : State) (g : Mem → Mem) : (s.modMem g).up = s.up := rfl
@[simp] theorem State.modMem_dram (s : State) (g : Mem → Mem) : (s.modMem g).dram = s.dram := rfl
@[simp] theorem State.modMem_host (s : State) (g : Mem → Mem) : (s.modMem g).host = s.host := rfl
@[simp] theorem State.modMem_sram (s : State) (g : Mem → Mem) : (s.modMem g).sram = s.sram := rfl
@[simp] theorem State.modMem_fcp (s : State) (g : Mem → Mem) : (s.modMem g).fcp = s.fcp := rfl
@[simp] theorem State.modMem_err (s : State) (g : Mem → Mem) : (s.modMem g).err = s.err := rfl
@[simp] theorem State.modMem_shf (s : State) (g : Mem → Mem) : (s.modMem g).shf = s.shf := rfl
@[simp] theorem State.modMem_pins (s : State) (g : Mem → Mem) : (s.modMem g).pins = s.pins := rfl
@[simp] theorem State.modMem_clk (s : State) (g : Mem → Mem) : (s.modMem g).clk = s.clk := rfl
@[simp] theorem State.modMem_jin (s : State) (g : Mem → Mem) : (s.modMem g).jin = s.jin := rfl
@[simp] theorem State.modMem_dfu (s : State) (g : Mem → Mem) : (s.modMem g).dfu = s.dfu := rfl
@[simp] theorem State.modMem_cap (s : State) (g : Mem → Mem) : (s.modMem g).cap = s.cap := rfl
@[simp] theorem State.modMem_tim (s : State) (g : Mem → Mem) : (s.modMem g).tim = s.tim := rfl
@[simp] theorem State.modMem_trg (s : State) (g : Mem → Mem) : (s.modMem g).trg = s.trg := rfl
@[simp] theorem State.modMem_con (s : State) (g : Mem → Mem) : (s.modMem g).con = s.con := rfl
@[simp] theorem State.modMem_eng (s : State) (g : Mem → Mem) : (s.modMem g).eng = s.eng := rfl
@[simp] theorem State.modMem_dma (s : State) (g : Mem → Mem) : (s.modMem g).dma = s.dma := rfl
@[simp] theorem State.modMem_cmp (s : State) (g : Mem → Mem) : (s.modMem g).cmp = s.cmp := rfl
@[simp] theorem State.modMem_mbx (s : State) (g : Mem → Mem) : (s.modMem g).mbx = s.mbx := rfl
@[simp] theorem State.modMem_dis (s : State) (g : Mem → Mem) : (s.modMem g).dis = s.dis := rfl
@[simp] theorem State.modMem_mcv (s : State) (g : Mem → Mem) : (s.modMem g).mcv = s.mcv := rfl
@[simp] theorem State.modMem_rdata (s : State) (g : Mem → Mem) : (s.modMem g).rdata = s.rdata := rfl
@[simp] theorem State.modMem_free (s : State) (g : Mem → Mem) : (s.modMem g).free = s.free := rfl
@[simp] theorem State.modMem_pending (s : State) (g : Mem → Mem) : (s.modMem g).pending = s.pending := rfl

/-! ### modDis -/

@[simp] theorem State.modDis_regs (s : State) (g : Dis → Dis) : (s.modDis g).regs = s.regs := rfl
@[simp] theorem State.modDis_eff (s : State) (g : Dis → Dis) : (s.modDis g).eff = s.eff := rfl
@[simp] theorem State.modDis_latch (s : State) (g : Dis → Dis) : (s.modDis g).latch = s.latch := rfl
@[simp] theorem State.modDis_now (s : State) (g : Dis → Dis) : (s.modDis g).now = s.now := rfl
@[simp] theorem State.modDis_up (s : State) (g : Dis → Dis) : (s.modDis g).up = s.up := rfl
@[simp] theorem State.modDis_dram (s : State) (g : Dis → Dis) : (s.modDis g).dram = s.dram := rfl
@[simp] theorem State.modDis_host (s : State) (g : Dis → Dis) : (s.modDis g).host = s.host := rfl
@[simp] theorem State.modDis_sram (s : State) (g : Dis → Dis) : (s.modDis g).sram = s.sram := rfl
@[simp] theorem State.modDis_fcp (s : State) (g : Dis → Dis) : (s.modDis g).fcp = s.fcp := rfl
@[simp] theorem State.modDis_err (s : State) (g : Dis → Dis) : (s.modDis g).err = s.err := rfl
@[simp] theorem State.modDis_shf (s : State) (g : Dis → Dis) : (s.modDis g).shf = s.shf := rfl
@[simp] theorem State.modDis_pins (s : State) (g : Dis → Dis) : (s.modDis g).pins = s.pins := rfl
@[simp] theorem State.modDis_clk (s : State) (g : Dis → Dis) : (s.modDis g).clk = s.clk := rfl
@[simp] theorem State.modDis_jin (s : State) (g : Dis → Dis) : (s.modDis g).jin = s.jin := rfl
@[simp] theorem State.modDis_dfu (s : State) (g : Dis → Dis) : (s.modDis g).dfu = s.dfu := rfl
@[simp] theorem State.modDis_cap (s : State) (g : Dis → Dis) : (s.modDis g).cap = s.cap := rfl
@[simp] theorem State.modDis_tim (s : State) (g : Dis → Dis) : (s.modDis g).tim = s.tim := rfl
@[simp] theorem State.modDis_trg (s : State) (g : Dis → Dis) : (s.modDis g).trg = s.trg := rfl
@[simp] theorem State.modDis_con (s : State) (g : Dis → Dis) : (s.modDis g).con = s.con := rfl
@[simp] theorem State.modDis_eng (s : State) (g : Dis → Dis) : (s.modDis g).eng = s.eng := rfl
@[simp] theorem State.modDis_dma (s : State) (g : Dis → Dis) : (s.modDis g).dma = s.dma := rfl
@[simp] theorem State.modDis_cmp (s : State) (g : Dis → Dis) : (s.modDis g).cmp = s.cmp := rfl
@[simp] theorem State.modDis_mem (s : State) (g : Dis → Dis) : (s.modDis g).mem = s.mem := rfl
@[simp] theorem State.modDis_mbx (s : State) (g : Dis → Dis) : (s.modDis g).mbx = s.mbx := rfl
@[simp] theorem State.modDis_mcv (s : State) (g : Dis → Dis) : (s.modDis g).mcv = s.mcv := rfl
@[simp] theorem State.modDis_rdata (s : State) (g : Dis → Dis) : (s.modDis g).rdata = s.rdata := rfl
@[simp] theorem State.modDis_free (s : State) (g : Dis → Dis) : (s.modDis g).free = s.free := rfl
@[simp] theorem State.modDis_pending (s : State) (g : Dis → Dis) : (s.modDis g).pending = s.pending := rfl

/-! ### modMcv -/

@[simp] theorem State.modMcv_regs (s : State) (g : Mcv → Mcv) : (s.modMcv g).regs = s.regs := rfl
@[simp] theorem State.modMcv_eff (s : State) (g : Mcv → Mcv) : (s.modMcv g).eff = s.eff := rfl
@[simp] theorem State.modMcv_latch (s : State) (g : Mcv → Mcv) : (s.modMcv g).latch = s.latch := rfl
@[simp] theorem State.modMcv_now (s : State) (g : Mcv → Mcv) : (s.modMcv g).now = s.now := rfl
@[simp] theorem State.modMcv_up (s : State) (g : Mcv → Mcv) : (s.modMcv g).up = s.up := rfl
@[simp] theorem State.modMcv_dram (s : State) (g : Mcv → Mcv) : (s.modMcv g).dram = s.dram := rfl
@[simp] theorem State.modMcv_host (s : State) (g : Mcv → Mcv) : (s.modMcv g).host = s.host := rfl
@[simp] theorem State.modMcv_sram (s : State) (g : Mcv → Mcv) : (s.modMcv g).sram = s.sram := rfl
@[simp] theorem State.modMcv_fcp (s : State) (g : Mcv → Mcv) : (s.modMcv g).fcp = s.fcp := rfl
@[simp] theorem State.modMcv_err (s : State) (g : Mcv → Mcv) : (s.modMcv g).err = s.err := rfl
@[simp] theorem State.modMcv_shf (s : State) (g : Mcv → Mcv) : (s.modMcv g).shf = s.shf := rfl
@[simp] theorem State.modMcv_pins (s : State) (g : Mcv → Mcv) : (s.modMcv g).pins = s.pins := rfl
@[simp] theorem State.modMcv_clk (s : State) (g : Mcv → Mcv) : (s.modMcv g).clk = s.clk := rfl
@[simp] theorem State.modMcv_jin (s : State) (g : Mcv → Mcv) : (s.modMcv g).jin = s.jin := rfl
@[simp] theorem State.modMcv_dfu (s : State) (g : Mcv → Mcv) : (s.modMcv g).dfu = s.dfu := rfl
@[simp] theorem State.modMcv_cap (s : State) (g : Mcv → Mcv) : (s.modMcv g).cap = s.cap := rfl
@[simp] theorem State.modMcv_tim (s : State) (g : Mcv → Mcv) : (s.modMcv g).tim = s.tim := rfl
@[simp] theorem State.modMcv_trg (s : State) (g : Mcv → Mcv) : (s.modMcv g).trg = s.trg := rfl
@[simp] theorem State.modMcv_con (s : State) (g : Mcv → Mcv) : (s.modMcv g).con = s.con := rfl
@[simp] theorem State.modMcv_eng (s : State) (g : Mcv → Mcv) : (s.modMcv g).eng = s.eng := rfl
@[simp] theorem State.modMcv_dma (s : State) (g : Mcv → Mcv) : (s.modMcv g).dma = s.dma := rfl
@[simp] theorem State.modMcv_cmp (s : State) (g : Mcv → Mcv) : (s.modMcv g).cmp = s.cmp := rfl
@[simp] theorem State.modMcv_mem (s : State) (g : Mcv → Mcv) : (s.modMcv g).mem = s.mem := rfl
@[simp] theorem State.modMcv_mbx (s : State) (g : Mcv → Mcv) : (s.modMcv g).mbx = s.mbx := rfl
@[simp] theorem State.modMcv_dis (s : State) (g : Mcv → Mcv) : (s.modMcv g).dis = s.dis := rfl
@[simp] theorem State.modMcv_rdata (s : State) (g : Mcv → Mcv) : (s.modMcv g).rdata = s.rdata := rfl
@[simp] theorem State.modMcv_free (s : State) (g : Mcv → Mcv) : (s.modMcv g).free = s.free := rfl
@[simp] theorem State.modMcv_pending (s : State) (g : Mcv → Mcv) : (s.modMcv g).pending = s.pending := rfl

/-! ### modFn -/

@[simp] theorem State.modFn_regs (s : State) (f : Nat) (g : Fn → Fn) : (s.modFn f g).regs = s.regs := rfl
@[simp] theorem State.modFn_eff (s : State) (f : Nat) (g : Fn → Fn) : (s.modFn f g).eff = s.eff := rfl
@[simp] theorem State.modFn_latch (s : State) (f : Nat) (g : Fn → Fn) : (s.modFn f g).latch = s.latch := rfl
@[simp] theorem State.modFn_now (s : State) (f : Nat) (g : Fn → Fn) : (s.modFn f g).now = s.now := rfl
@[simp] theorem State.modFn_up (s : State) (f : Nat) (g : Fn → Fn) : (s.modFn f g).up = s.up := rfl
@[simp] theorem State.modFn_dram (s : State) (f : Nat) (g : Fn → Fn) : (s.modFn f g).dram = s.dram := rfl
@[simp] theorem State.modFn_host (s : State) (f : Nat) (g : Fn → Fn) : (s.modFn f g).host = s.host := rfl
@[simp] theorem State.modFn_sram (s : State) (f : Nat) (g : Fn → Fn) : (s.modFn f g).sram = s.sram := rfl
@[simp] theorem State.modFn_err (s : State) (f : Nat) (g : Fn → Fn) : (s.modFn f g).err = s.err := rfl
@[simp] theorem State.modFn_shf (s : State) (f : Nat) (g : Fn → Fn) : (s.modFn f g).shf = s.shf := rfl
@[simp] theorem State.modFn_pins (s : State) (f : Nat) (g : Fn → Fn) : (s.modFn f g).pins = s.pins := rfl
@[simp] theorem State.modFn_clk (s : State) (f : Nat) (g : Fn → Fn) : (s.modFn f g).clk = s.clk := rfl
@[simp] theorem State.modFn_jin (s : State) (f : Nat) (g : Fn → Fn) : (s.modFn f g).jin = s.jin := rfl
@[simp] theorem State.modFn_dfu (s : State) (f : Nat) (g : Fn → Fn) : (s.modFn f g).dfu = s.dfu := rfl
@[simp] theorem State.modFn_cap (s : State) (f : Nat) (g : Fn → Fn) : (s.modFn f g).cap = s.cap := rfl
@[simp] theorem State.modFn_tim (s : State) (f : Nat) (g : Fn → Fn) : (s.modFn f g).tim = s.tim := rfl
@[simp] theorem State.modFn_trg (s : State) (f : Nat) (g : Fn → Fn) : (s.modFn f g).trg = s.trg := rfl
@[simp] theorem State.modFn_con (s : State) (f : Nat) (g : Fn → Fn) : (s.modFn f g).con = s.con := rfl
@[simp] theorem State.modFn_eng (s : State) (f : Nat) (g : Fn → Fn) : (s.modFn f g).eng = s.eng := rfl
@[simp] theorem State.modFn_dma (s : State) (f : Nat) (g : Fn → Fn) : (s.modFn f g).dma = s.dma := rfl
@[simp] theorem State.modFn_cmp (s : State) (f : Nat) (g : Fn → Fn) : (s.modFn f g).cmp = s.cmp := rfl
@[simp] theorem State.modFn_mem (s : State) (f : Nat) (g : Fn → Fn) : (s.modFn f g).mem = s.mem := rfl
@[simp] theorem State.modFn_mbx (s : State) (f : Nat) (g : Fn → Fn) : (s.modFn f g).mbx = s.mbx := rfl
@[simp] theorem State.modFn_dis (s : State) (f : Nat) (g : Fn → Fn) : (s.modFn f g).dis = s.dis := rfl
@[simp] theorem State.modFn_mcv (s : State) (f : Nat) (g : Fn → Fn) : (s.modFn f g).mcv = s.mcv := rfl
@[simp] theorem State.modFn_rdata (s : State) (f : Nat) (g : Fn → Fn) : (s.modFn f g).rdata = s.rdata := rfl
@[simp] theorem State.modFn_free (s : State) (f : Nat) (g : Fn → Fn) : (s.modFn f g).free = s.free := rfl
@[simp] theorem State.modFn_pending (s : State) (f : Nat) (g : Fn → Fn) : (s.modFn f g).pending = s.pending := rfl

/-! ### modPair -/

@[simp] theorem State.modPair_regs (s : State) (q : Nat) (g : QPair → QPair) : (s.modPair q g).regs = s.regs := rfl
@[simp] theorem State.modPair_eff (s : State) (q : Nat) (g : QPair → QPair) : (s.modPair q g).eff = s.eff := rfl
@[simp] theorem State.modPair_latch (s : State) (q : Nat) (g : QPair → QPair) : (s.modPair q g).latch = s.latch := rfl
@[simp] theorem State.modPair_now (s : State) (q : Nat) (g : QPair → QPair) : (s.modPair q g).now = s.now := rfl
@[simp] theorem State.modPair_up (s : State) (q : Nat) (g : QPair → QPair) : (s.modPair q g).up = s.up := rfl
@[simp] theorem State.modPair_dram (s : State) (q : Nat) (g : QPair → QPair) : (s.modPair q g).dram = s.dram := rfl
@[simp] theorem State.modPair_host (s : State) (q : Nat) (g : QPair → QPair) : (s.modPair q g).host = s.host := rfl
@[simp] theorem State.modPair_sram (s : State) (q : Nat) (g : QPair → QPair) : (s.modPair q g).sram = s.sram := rfl
@[simp] theorem State.modPair_err (s : State) (q : Nat) (g : QPair → QPair) : (s.modPair q g).err = s.err := rfl
@[simp] theorem State.modPair_shf (s : State) (q : Nat) (g : QPair → QPair) : (s.modPair q g).shf = s.shf := rfl
@[simp] theorem State.modPair_pins (s : State) (q : Nat) (g : QPair → QPair) : (s.modPair q g).pins = s.pins := rfl
@[simp] theorem State.modPair_clk (s : State) (q : Nat) (g : QPair → QPair) : (s.modPair q g).clk = s.clk := rfl
@[simp] theorem State.modPair_jin (s : State) (q : Nat) (g : QPair → QPair) : (s.modPair q g).jin = s.jin := rfl
@[simp] theorem State.modPair_dfu (s : State) (q : Nat) (g : QPair → QPair) : (s.modPair q g).dfu = s.dfu := rfl
@[simp] theorem State.modPair_cap (s : State) (q : Nat) (g : QPair → QPair) : (s.modPair q g).cap = s.cap := rfl
@[simp] theorem State.modPair_tim (s : State) (q : Nat) (g : QPair → QPair) : (s.modPair q g).tim = s.tim := rfl
@[simp] theorem State.modPair_trg (s : State) (q : Nat) (g : QPair → QPair) : (s.modPair q g).trg = s.trg := rfl
@[simp] theorem State.modPair_con (s : State) (q : Nat) (g : QPair → QPair) : (s.modPair q g).con = s.con := rfl
@[simp] theorem State.modPair_eng (s : State) (q : Nat) (g : QPair → QPair) : (s.modPair q g).eng = s.eng := rfl
@[simp] theorem State.modPair_dma (s : State) (q : Nat) (g : QPair → QPair) : (s.modPair q g).dma = s.dma := rfl
@[simp] theorem State.modPair_cmp (s : State) (q : Nat) (g : QPair → QPair) : (s.modPair q g).cmp = s.cmp := rfl
@[simp] theorem State.modPair_mem (s : State) (q : Nat) (g : QPair → QPair) : (s.modPair q g).mem = s.mem := rfl
@[simp] theorem State.modPair_mbx (s : State) (q : Nat) (g : QPair → QPair) : (s.modPair q g).mbx = s.mbx := rfl
@[simp] theorem State.modPair_dis (s : State) (q : Nat) (g : QPair → QPair) : (s.modPair q g).dis = s.dis := rfl
@[simp] theorem State.modPair_mcv (s : State) (q : Nat) (g : QPair → QPair) : (s.modPair q g).mcv = s.mcv := rfl
@[simp] theorem State.modPair_rdata (s : State) (q : Nat) (g : QPair → QPair) : (s.modPair q g).rdata = s.rdata := rfl
@[simp] theorem State.modPair_free (s : State) (q : Nat) (g : QPair → QPair) : (s.modPair q g).free = s.free := rfl
@[simp] theorem State.modPair_pending (s : State) (q : Nat) (g : QPair → QPair) : (s.modPair q g).pending = s.pending := rfl

/-! ### modInflight -/

@[simp] theorem State.modInflight_regs (s : State) (q t : Nat) (g : Inflight → Inflight) : (s.modInflight q t g).regs = s.regs := rfl
@[simp] theorem State.modInflight_eff (s : State) (q t : Nat) (g : Inflight → Inflight) : (s.modInflight q t g).eff = s.eff := rfl
@[simp] theorem State.modInflight_latch (s : State) (q t : Nat) (g : Inflight → Inflight) : (s.modInflight q t g).latch = s.latch := rfl
@[simp] theorem State.modInflight_now (s : State) (q t : Nat) (g : Inflight → Inflight) : (s.modInflight q t g).now = s.now := rfl
@[simp] theorem State.modInflight_up (s : State) (q t : Nat) (g : Inflight → Inflight) : (s.modInflight q t g).up = s.up := rfl
@[simp] theorem State.modInflight_dram (s : State) (q t : Nat) (g : Inflight → Inflight) : (s.modInflight q t g).dram = s.dram := rfl
@[simp] theorem State.modInflight_host (s : State) (q t : Nat) (g : Inflight → Inflight) : (s.modInflight q t g).host = s.host := rfl
@[simp] theorem State.modInflight_sram (s : State) (q t : Nat) (g : Inflight → Inflight) : (s.modInflight q t g).sram = s.sram := rfl
@[simp] theorem State.modInflight_err (s : State) (q t : Nat) (g : Inflight → Inflight) : (s.modInflight q t g).err = s.err := rfl
@[simp] theorem State.modInflight_shf (s : State) (q t : Nat) (g : Inflight → Inflight) : (s.modInflight q t g).shf = s.shf := rfl
@[simp] theorem State.modInflight_pins (s : State) (q t : Nat) (g : Inflight → Inflight) : (s.modInflight q t g).pins = s.pins := rfl
@[simp] theorem State.modInflight_clk (s : State) (q t : Nat) (g : Inflight → Inflight) : (s.modInflight q t g).clk = s.clk := rfl
@[simp] theorem State.modInflight_jin (s : State) (q t : Nat) (g : Inflight → Inflight) : (s.modInflight q t g).jin = s.jin := rfl
@[simp] theorem State.modInflight_dfu (s : State) (q t : Nat) (g : Inflight → Inflight) : (s.modInflight q t g).dfu = s.dfu := rfl
@[simp] theorem State.modInflight_cap (s : State) (q t : Nat) (g : Inflight → Inflight) : (s.modInflight q t g).cap = s.cap := rfl
@[simp] theorem State.modInflight_tim (s : State) (q t : Nat) (g : Inflight → Inflight) : (s.modInflight q t g).tim = s.tim := rfl
@[simp] theorem State.modInflight_trg (s : State) (q t : Nat) (g : Inflight → Inflight) : (s.modInflight q t g).trg = s.trg := rfl
@[simp] theorem State.modInflight_con (s : State) (q t : Nat) (g : Inflight → Inflight) : (s.modInflight q t g).con = s.con := rfl
@[simp] theorem State.modInflight_eng (s : State) (q t : Nat) (g : Inflight → Inflight) : (s.modInflight q t g).eng = s.eng := rfl
@[simp] theorem State.modInflight_dma (s : State) (q t : Nat) (g : Inflight → Inflight) : (s.modInflight q t g).dma = s.dma := rfl
@[simp] theorem State.modInflight_cmp (s : State) (q t : Nat) (g : Inflight → Inflight) : (s.modInflight q t g).cmp = s.cmp := rfl
@[simp] theorem State.modInflight_mem (s : State) (q t : Nat) (g : Inflight → Inflight) : (s.modInflight q t g).mem = s.mem := rfl
@[simp] theorem State.modInflight_mbx (s : State) (q t : Nat) (g : Inflight → Inflight) : (s.modInflight q t g).mbx = s.mbx := rfl
@[simp] theorem State.modInflight_dis (s : State) (q t : Nat) (g : Inflight → Inflight) : (s.modInflight q t g).dis = s.dis := rfl
@[simp] theorem State.modInflight_mcv (s : State) (q t : Nat) (g : Inflight → Inflight) : (s.modInflight q t g).mcv = s.mcv := rfl
@[simp] theorem State.modInflight_rdata (s : State) (q t : Nat) (g : Inflight → Inflight) : (s.modInflight q t g).rdata = s.rdata := rfl
@[simp] theorem State.modInflight_free (s : State) (q t : Nat) (g : Inflight → Inflight) : (s.modInflight q t g).free = s.free := rfl
@[simp] theorem State.modInflight_pending (s : State) (q t : Nat) (g : Inflight → Inflight) : (s.modInflight q t g).pending = s.pending := rfl

/-! ### setInflight -/

@[simp] theorem State.setInflight_eff (s : State) (l : List Inflight) : (s.setInflight l).eff = s.eff := rfl
@[simp] theorem State.setInflight_latch (s : State) (l : List Inflight) : (s.setInflight l).latch = s.latch := rfl
@[simp] theorem State.setInflight_now (s : State) (l : List Inflight) : (s.setInflight l).now = s.now := rfl
@[simp] theorem State.setInflight_up (s : State) (l : List Inflight) : (s.setInflight l).up = s.up := rfl
@[simp] theorem State.setInflight_dram (s : State) (l : List Inflight) : (s.setInflight l).dram = s.dram := rfl
@[simp] theorem State.setInflight_host (s : State) (l : List Inflight) : (s.setInflight l).host = s.host := rfl
@[simp] theorem State.setInflight_sram (s : State) (l : List Inflight) : (s.setInflight l).sram = s.sram := rfl
@[simp] theorem State.setInflight_err (s : State) (l : List Inflight) : (s.setInflight l).err = s.err := rfl
@[simp] theorem State.setInflight_shf (s : State) (l : List Inflight) : (s.setInflight l).shf = s.shf := rfl
@[simp] theorem State.setInflight_pins (s : State) (l : List Inflight) : (s.setInflight l).pins = s.pins := rfl
@[simp] theorem State.setInflight_clk (s : State) (l : List Inflight) : (s.setInflight l).clk = s.clk := rfl
@[simp] theorem State.setInflight_jin (s : State) (l : List Inflight) : (s.setInflight l).jin = s.jin := rfl
@[simp] theorem State.setInflight_dfu (s : State) (l : List Inflight) : (s.setInflight l).dfu = s.dfu := rfl
@[simp] theorem State.setInflight_cap (s : State) (l : List Inflight) : (s.setInflight l).cap = s.cap := rfl
@[simp] theorem State.setInflight_tim (s : State) (l : List Inflight) : (s.setInflight l).tim = s.tim := rfl
@[simp] theorem State.setInflight_trg (s : State) (l : List Inflight) : (s.setInflight l).trg = s.trg := rfl
@[simp] theorem State.setInflight_con (s : State) (l : List Inflight) : (s.setInflight l).con = s.con := rfl
@[simp] theorem State.setInflight_eng (s : State) (l : List Inflight) : (s.setInflight l).eng = s.eng := rfl
@[simp] theorem State.setInflight_dma (s : State) (l : List Inflight) : (s.setInflight l).dma = s.dma := rfl
@[simp] theorem State.setInflight_cmp (s : State) (l : List Inflight) : (s.setInflight l).cmp = s.cmp := rfl
@[simp] theorem State.setInflight_mem (s : State) (l : List Inflight) : (s.setInflight l).mem = s.mem := rfl
@[simp] theorem State.setInflight_mbx (s : State) (l : List Inflight) : (s.setInflight l).mbx = s.mbx := rfl
@[simp] theorem State.setInflight_dis (s : State) (l : List Inflight) : (s.setInflight l).dis = s.dis := rfl
@[simp] theorem State.setInflight_mcv (s : State) (l : List Inflight) : (s.setInflight l).mcv = s.mcv := rfl
@[simp] theorem State.setInflight_rdata (s : State) (l : List Inflight) : (s.setInflight l).rdata = s.rdata := rfl
@[simp] theorem State.setInflight_free (s : State) (l : List Inflight) : (s.setInflight l).free = s.free := rfl
@[simp] theorem State.setInflight_pending (s : State) (l : List Inflight) : (s.setInflight l).pending = s.pending := rfl

/-! ### addInflight -/

@[simp] theorem State.addInflight_eff (s : State) (c : Inflight) : (s.addInflight c).eff = s.eff := rfl
@[simp] theorem State.addInflight_latch (s : State) (c : Inflight) : (s.addInflight c).latch = s.latch := rfl
@[simp] theorem State.addInflight_now (s : State) (c : Inflight) : (s.addInflight c).now = s.now := rfl
@[simp] theorem State.addInflight_up (s : State) (c : Inflight) : (s.addInflight c).up = s.up := rfl
@[simp] theorem State.addInflight_dram (s : State) (c : Inflight) : (s.addInflight c).dram = s.dram := rfl
@[simp] theorem State.addInflight_host (s : State) (c : Inflight) : (s.addInflight c).host = s.host := rfl
@[simp] theorem State.addInflight_sram (s : State) (c : Inflight) : (s.addInflight c).sram = s.sram := rfl
@[simp] theorem State.addInflight_err (s : State) (c : Inflight) : (s.addInflight c).err = s.err := rfl
@[simp] theorem State.addInflight_shf (s : State) (c : Inflight) : (s.addInflight c).shf = s.shf := rfl
@[simp] theorem State.addInflight_pins (s : State) (c : Inflight) : (s.addInflight c).pins = s.pins := rfl
@[simp] theorem State.addInflight_clk (s : State) (c : Inflight) : (s.addInflight c).clk = s.clk := rfl
@[simp] theorem State.addInflight_jin (s : State) (c : Inflight) : (s.addInflight c).jin = s.jin := rfl
@[simp] theorem State.addInflight_dfu (s : State) (c : Inflight) : (s.addInflight c).dfu = s.dfu := rfl
@[simp] theorem State.addInflight_cap (s : State) (c : Inflight) : (s.addInflight c).cap = s.cap := rfl
@[simp] theorem State.addInflight_tim (s : State) (c : Inflight) : (s.addInflight c).tim = s.tim := rfl
@[simp] theorem State.addInflight_trg (s : State) (c : Inflight) : (s.addInflight c).trg = s.trg := rfl
@[simp] theorem State.addInflight_con (s : State) (c : Inflight) : (s.addInflight c).con = s.con := rfl
@[simp] theorem State.addInflight_eng (s : State) (c : Inflight) : (s.addInflight c).eng = s.eng := rfl
@[simp] theorem State.addInflight_dma (s : State) (c : Inflight) : (s.addInflight c).dma = s.dma := rfl
@[simp] theorem State.addInflight_cmp (s : State) (c : Inflight) : (s.addInflight c).cmp = s.cmp := rfl
@[simp] theorem State.addInflight_mem (s : State) (c : Inflight) : (s.addInflight c).mem = s.mem := rfl
@[simp] theorem State.addInflight_mbx (s : State) (c : Inflight) : (s.addInflight c).mbx = s.mbx := rfl
@[simp] theorem State.addInflight_dis (s : State) (c : Inflight) : (s.addInflight c).dis = s.dis := rfl
@[simp] theorem State.addInflight_mcv (s : State) (c : Inflight) : (s.addInflight c).mcv = s.mcv := rfl
@[simp] theorem State.addInflight_rdata (s : State) (c : Inflight) : (s.addInflight c).rdata = s.rdata := rfl
@[simp] theorem State.addInflight_free (s : State) (c : Inflight) : (s.addInflight c).free = s.free := rfl
@[simp] theorem State.addInflight_pending (s : State) (c : Inflight) : (s.addInflight c).pending = s.pending := rfl

/-! ### setPairs -/

@[simp] theorem State.setPairs_eff (s : State) (l : List QPair) : (s.setPairs l).eff = s.eff := rfl
@[simp] theorem State.setPairs_latch (s : State) (l : List QPair) : (s.setPairs l).latch = s.latch := rfl
@[simp] theorem State.setPairs_now (s : State) (l : List QPair) : (s.setPairs l).now = s.now := rfl
@[simp] theorem State.setPairs_up (s : State) (l : List QPair) : (s.setPairs l).up = s.up := rfl
@[simp] theorem State.setPairs_dram (s : State) (l : List QPair) : (s.setPairs l).dram = s.dram := rfl
@[simp] theorem State.setPairs_host (s : State) (l : List QPair) : (s.setPairs l).host = s.host := rfl
@[simp] theorem State.setPairs_sram (s : State) (l : List QPair) : (s.setPairs l).sram = s.sram := rfl
@[simp] theorem State.setPairs_err (s : State) (l : List QPair) : (s.setPairs l).err = s.err := rfl
@[simp] theorem State.setPairs_shf (s : State) (l : List QPair) : (s.setPairs l).shf = s.shf := rfl
@[simp] theorem State.setPairs_pins (s : State) (l : List QPair) : (s.setPairs l).pins = s.pins := rfl
@[simp] theorem State.setPairs_clk (s : State) (l : List QPair) : (s.setPairs l).clk = s.clk := rfl
@[simp] theorem State.setPairs_jin (s : State) (l : List QPair) : (s.setPairs l).jin = s.jin := rfl
@[simp] theorem State.setPairs_dfu (s : State) (l : List QPair) : (s.setPairs l).dfu = s.dfu := rfl
@[simp] theorem State.setPairs_cap (s : State) (l : List QPair) : (s.setPairs l).cap = s.cap := rfl
@[simp] theorem State.setPairs_tim (s : State) (l : List QPair) : (s.setPairs l).tim = s.tim := rfl
@[simp] theorem State.setPairs_trg (s : State) (l : List QPair) : (s.setPairs l).trg = s.trg := rfl
@[simp] theorem State.setPairs_con (s : State) (l : List QPair) : (s.setPairs l).con = s.con := rfl
@[simp] theorem State.setPairs_eng (s : State) (l : List QPair) : (s.setPairs l).eng = s.eng := rfl
@[simp] theorem State.setPairs_dma (s : State) (l : List QPair) : (s.setPairs l).dma = s.dma := rfl
@[simp] theorem State.setPairs_cmp (s : State) (l : List QPair) : (s.setPairs l).cmp = s.cmp := rfl
@[simp] theorem State.setPairs_mem (s : State) (l : List QPair) : (s.setPairs l).mem = s.mem := rfl
@[simp] theorem State.setPairs_mbx (s : State) (l : List QPair) : (s.setPairs l).mbx = s.mbx := rfl
@[simp] theorem State.setPairs_dis (s : State) (l : List QPair) : (s.setPairs l).dis = s.dis := rfl
@[simp] theorem State.setPairs_mcv (s : State) (l : List QPair) : (s.setPairs l).mcv = s.mcv := rfl
@[simp] theorem State.setPairs_rdata (s : State) (l : List QPair) : (s.setPairs l).rdata = s.rdata := rfl
@[simp] theorem State.setPairs_free (s : State) (l : List QPair) : (s.setPairs l).free = s.free := rfl
@[simp] theorem State.setPairs_pending (s : State) (l : List QPair) : (s.setPairs l).pending = s.pending := rfl

/-! ### noteDone -/

@[simp] theorem State.noteDone_regs (s : State) (c : Inflight) (r : Reply) (dup : Bool) : (s.noteDone c r dup).regs = s.regs := rfl
@[simp] theorem State.noteDone_eff (s : State) (c : Inflight) (r : Reply) (dup : Bool) : (s.noteDone c r dup).eff = s.eff := rfl
@[simp] theorem State.noteDone_latch (s : State) (c : Inflight) (r : Reply) (dup : Bool) : (s.noteDone c r dup).latch = s.latch := rfl
@[simp] theorem State.noteDone_now (s : State) (c : Inflight) (r : Reply) (dup : Bool) : (s.noteDone c r dup).now = s.now := rfl
@[simp] theorem State.noteDone_up (s : State) (c : Inflight) (r : Reply) (dup : Bool) : (s.noteDone c r dup).up = s.up := rfl
@[simp] theorem State.noteDone_dram (s : State) (c : Inflight) (r : Reply) (dup : Bool) : (s.noteDone c r dup).dram = s.dram := rfl
@[simp] theorem State.noteDone_host (s : State) (c : Inflight) (r : Reply) (dup : Bool) : (s.noteDone c r dup).host = s.host := rfl
@[simp] theorem State.noteDone_sram (s : State) (c : Inflight) (r : Reply) (dup : Bool) : (s.noteDone c r dup).sram = s.sram := rfl
@[simp] theorem State.noteDone_err (s : State) (c : Inflight) (r : Reply) (dup : Bool) : (s.noteDone c r dup).err = s.err := rfl
@[simp] theorem State.noteDone_shf (s : State) (c : Inflight) (r : Reply) (dup : Bool) : (s.noteDone c r dup).shf = s.shf := rfl
@[simp] theorem State.noteDone_pins (s : State) (c : Inflight) (r : Reply) (dup : Bool) : (s.noteDone c r dup).pins = s.pins := rfl
@[simp] theorem State.noteDone_clk (s : State) (c : Inflight) (r : Reply) (dup : Bool) : (s.noteDone c r dup).clk = s.clk := rfl
@[simp] theorem State.noteDone_jin (s : State) (c : Inflight) (r : Reply) (dup : Bool) : (s.noteDone c r dup).jin = s.jin := rfl
@[simp] theorem State.noteDone_dfu (s : State) (c : Inflight) (r : Reply) (dup : Bool) : (s.noteDone c r dup).dfu = s.dfu := rfl
@[simp] theorem State.noteDone_cap (s : State) (c : Inflight) (r : Reply) (dup : Bool) : (s.noteDone c r dup).cap = s.cap := rfl
@[simp] theorem State.noteDone_tim (s : State) (c : Inflight) (r : Reply) (dup : Bool) : (s.noteDone c r dup).tim = s.tim := rfl
@[simp] theorem State.noteDone_trg (s : State) (c : Inflight) (r : Reply) (dup : Bool) : (s.noteDone c r dup).trg = s.trg := rfl
@[simp] theorem State.noteDone_con (s : State) (c : Inflight) (r : Reply) (dup : Bool) : (s.noteDone c r dup).con = s.con := rfl
@[simp] theorem State.noteDone_eng (s : State) (c : Inflight) (r : Reply) (dup : Bool) : (s.noteDone c r dup).eng = s.eng := rfl
@[simp] theorem State.noteDone_dma (s : State) (c : Inflight) (r : Reply) (dup : Bool) : (s.noteDone c r dup).dma = s.dma := rfl
@[simp] theorem State.noteDone_cmp (s : State) (c : Inflight) (r : Reply) (dup : Bool) : (s.noteDone c r dup).cmp = s.cmp := rfl
@[simp] theorem State.noteDone_mem (s : State) (c : Inflight) (r : Reply) (dup : Bool) : (s.noteDone c r dup).mem = s.mem := rfl
@[simp] theorem State.noteDone_mbx (s : State) (c : Inflight) (r : Reply) (dup : Bool) : (s.noteDone c r dup).mbx = s.mbx := rfl
@[simp] theorem State.noteDone_dis (s : State) (c : Inflight) (r : Reply) (dup : Bool) : (s.noteDone c r dup).dis = s.dis := rfl
@[simp] theorem State.noteDone_mcv (s : State) (c : Inflight) (r : Reply) (dup : Bool) : (s.noteDone c r dup).mcv = s.mcv := rfl
@[simp] theorem State.noteDone_rdata (s : State) (c : Inflight) (r : Reply) (dup : Bool) : (s.noteDone c r dup).rdata = s.rdata := rfl
@[simp] theorem State.noteDone_free (s : State) (c : Inflight) (r : Reply) (dup : Bool) : (s.noteDone c r dup).free = s.free := rfl
@[simp] theorem State.noteDone_pending (s : State) (c : Inflight) (r : Reply) (dup : Bool) : (s.noteDone c r dup).pending = s.pending := rfl

/-! ### modDu -/

@[simp] theorem State.modDu_regs (s : State) (u : Nat) (g : DUnit → DUnit) : (s.modDu u g).regs = s.regs := rfl
@[simp] theorem State.modDu_eff (s : State) (u : Nat) (g : DUnit → DUnit) : (s.modDu u g).eff = s.eff := rfl
@[simp] theorem State.modDu_latch (s : State) (u : Nat) (g : DUnit → DUnit) : (s.modDu u g).latch = s.latch := rfl
@[simp] theorem State.modDu_now (s : State) (u : Nat) (g : DUnit → DUnit) : (s.modDu u g).now = s.now := rfl
@[simp] theorem State.modDu_up (s : State) (u : Nat) (g : DUnit → DUnit) : (s.modDu u g).up = s.up := rfl
@[simp] theorem State.modDu_dram (s : State) (u : Nat) (g : DUnit → DUnit) : (s.modDu u g).dram = s.dram := rfl
@[simp] theorem State.modDu_host (s : State) (u : Nat) (g : DUnit → DUnit) : (s.modDu u g).host = s.host := rfl
@[simp] theorem State.modDu_sram (s : State) (u : Nat) (g : DUnit → DUnit) : (s.modDu u g).sram = s.sram := rfl
@[simp] theorem State.modDu_fcp (s : State) (u : Nat) (g : DUnit → DUnit) : (s.modDu u g).fcp = s.fcp := rfl
@[simp] theorem State.modDu_err (s : State) (u : Nat) (g : DUnit → DUnit) : (s.modDu u g).err = s.err := rfl
@[simp] theorem State.modDu_shf (s : State) (u : Nat) (g : DUnit → DUnit) : (s.modDu u g).shf = s.shf := rfl
@[simp] theorem State.modDu_pins (s : State) (u : Nat) (g : DUnit → DUnit) : (s.modDu u g).pins = s.pins := rfl
@[simp] theorem State.modDu_clk (s : State) (u : Nat) (g : DUnit → DUnit) : (s.modDu u g).clk = s.clk := rfl
@[simp] theorem State.modDu_jin (s : State) (u : Nat) (g : DUnit → DUnit) : (s.modDu u g).jin = s.jin := rfl
@[simp] theorem State.modDu_cap (s : State) (u : Nat) (g : DUnit → DUnit) : (s.modDu u g).cap = s.cap := rfl
@[simp] theorem State.modDu_tim (s : State) (u : Nat) (g : DUnit → DUnit) : (s.modDu u g).tim = s.tim := rfl
@[simp] theorem State.modDu_trg (s : State) (u : Nat) (g : DUnit → DUnit) : (s.modDu u g).trg = s.trg := rfl
@[simp] theorem State.modDu_con (s : State) (u : Nat) (g : DUnit → DUnit) : (s.modDu u g).con = s.con := rfl
@[simp] theorem State.modDu_eng (s : State) (u : Nat) (g : DUnit → DUnit) : (s.modDu u g).eng = s.eng := rfl
@[simp] theorem State.modDu_dma (s : State) (u : Nat) (g : DUnit → DUnit) : (s.modDu u g).dma = s.dma := rfl
@[simp] theorem State.modDu_cmp (s : State) (u : Nat) (g : DUnit → DUnit) : (s.modDu u g).cmp = s.cmp := rfl
@[simp] theorem State.modDu_mem (s : State) (u : Nat) (g : DUnit → DUnit) : (s.modDu u g).mem = s.mem := rfl
@[simp] theorem State.modDu_mbx (s : State) (u : Nat) (g : DUnit → DUnit) : (s.modDu u g).mbx = s.mbx := rfl
@[simp] theorem State.modDu_dis (s : State) (u : Nat) (g : DUnit → DUnit) : (s.modDu u g).dis = s.dis := rfl
@[simp] theorem State.modDu_mcv (s : State) (u : Nat) (g : DUnit → DUnit) : (s.modDu u g).mcv = s.mcv := rfl
@[simp] theorem State.modDu_rdata (s : State) (u : Nat) (g : DUnit → DUnit) : (s.modDu u g).rdata = s.rdata := rfl
@[simp] theorem State.modDu_free (s : State) (u : Nat) (g : DUnit → DUnit) : (s.modDu u g).free = s.free := rfl
@[simp] theorem State.modDu_pending (s : State) (u : Nat) (g : DUnit → DUnit) : (s.modDu u g).pending = s.pending := rfl

/-! ### modSet -/

@[simp] theorem State.modSet_regs (s : State) (i : Nat) (g : MSet → MSet) : (s.modSet i g).regs = s.regs := rfl
@[simp] theorem State.modSet_eff (s : State) (i : Nat) (g : MSet → MSet) : (s.modSet i g).eff = s.eff := rfl
@[simp] theorem State.modSet_latch (s : State) (i : Nat) (g : MSet → MSet) : (s.modSet i g).latch = s.latch := rfl
@[simp] theorem State.modSet_now (s : State) (i : Nat) (g : MSet → MSet) : (s.modSet i g).now = s.now := rfl
@[simp] theorem State.modSet_up (s : State) (i : Nat) (g : MSet → MSet) : (s.modSet i g).up = s.up := rfl
@[simp] theorem State.modSet_dram (s : State) (i : Nat) (g : MSet → MSet) : (s.modSet i g).dram = s.dram := rfl
@[simp] theorem State.modSet_host (s : State) (i : Nat) (g : MSet → MSet) : (s.modSet i g).host = s.host := rfl
@[simp] theorem State.modSet_sram (s : State) (i : Nat) (g : MSet → MSet) : (s.modSet i g).sram = s.sram := rfl
@[simp] theorem State.modSet_fcp (s : State) (i : Nat) (g : MSet → MSet) : (s.modSet i g).fcp = s.fcp := rfl
@[simp] theorem State.modSet_err (s : State) (i : Nat) (g : MSet → MSet) : (s.modSet i g).err = s.err := rfl
@[simp] theorem State.modSet_shf (s : State) (i : Nat) (g : MSet → MSet) : (s.modSet i g).shf = s.shf := rfl
@[simp] theorem State.modSet_pins (s : State) (i : Nat) (g : MSet → MSet) : (s.modSet i g).pins = s.pins := rfl
@[simp] theorem State.modSet_clk (s : State) (i : Nat) (g : MSet → MSet) : (s.modSet i g).clk = s.clk := rfl
@[simp] theorem State.modSet_jin (s : State) (i : Nat) (g : MSet → MSet) : (s.modSet i g).jin = s.jin := rfl
@[simp] theorem State.modSet_dfu (s : State) (i : Nat) (g : MSet → MSet) : (s.modSet i g).dfu = s.dfu := rfl
@[simp] theorem State.modSet_cap (s : State) (i : Nat) (g : MSet → MSet) : (s.modSet i g).cap = s.cap := rfl
@[simp] theorem State.modSet_tim (s : State) (i : Nat) (g : MSet → MSet) : (s.modSet i g).tim = s.tim := rfl
@[simp] theorem State.modSet_trg (s : State) (i : Nat) (g : MSet → MSet) : (s.modSet i g).trg = s.trg := rfl
@[simp] theorem State.modSet_con (s : State) (i : Nat) (g : MSet → MSet) : (s.modSet i g).con = s.con := rfl
@[simp] theorem State.modSet_eng (s : State) (i : Nat) (g : MSet → MSet) : (s.modSet i g).eng = s.eng := rfl
@[simp] theorem State.modSet_dma (s : State) (i : Nat) (g : MSet → MSet) : (s.modSet i g).dma = s.dma := rfl
@[simp] theorem State.modSet_cmp (s : State) (i : Nat) (g : MSet → MSet) : (s.modSet i g).cmp = s.cmp := rfl
@[simp] theorem State.modSet_mem (s : State) (i : Nat) (g : MSet → MSet) : (s.modSet i g).mem = s.mem := rfl
@[simp] theorem State.modSet_dis (s : State) (i : Nat) (g : MSet → MSet) : (s.modSet i g).dis = s.dis := rfl
@[simp] theorem State.modSet_mcv (s : State) (i : Nat) (g : MSet → MSet) : (s.modSet i g).mcv = s.mcv := rfl
@[simp] theorem State.modSet_rdata (s : State) (i : Nat) (g : MSet → MSet) : (s.modSet i g).rdata = s.rdata := rfl
@[simp] theorem State.modSet_free (s : State) (i : Nat) (g : MSet → MSet) : (s.modSet i g).free = s.free := rfl
@[simp] theorem State.modSet_pending (s : State) (i : Nat) (g : MSet → MSet) : (s.modSet i g).pending = s.pending := rfl

end Sys2Proof.Machine
end

