-- ==== Sys2Proof/Laws/Regs.lean ====
section
/-!
SUPPORT. What a register field reads after a write of a field: that field, other bits of the register, other registers.
-/

namespace Sys2Proof

/-! ### Bit fields -/

/-- The bits of a number below, in and above a field. -/
theorem bits_split (x lo w : Nat) : x = x % 2 ^ lo + bitsOf x lo w * 2 ^ lo + x / 2 ^ (lo + w) * 2 ^ (lo + w) := by
  unfold bitsOf
  rw [Nat.shiftRight_eq_div_pow, Nat.pow_add]
  have h1 := Nat.mod_add_div x (2 ^ lo)
  have h2 := Nat.mod_add_div (x / 2 ^ lo) (2 ^ w)
  rw [Nat.div_div_eq_div_mul] at h2
  calc x = x % 2 ^ lo + 2 ^ lo * (x / 2 ^ lo) := h1.symm
    _ = x % 2 ^ lo + 2 ^ lo * (x / 2 ^ lo % 2 ^ w + 2 ^ w * (x / (2 ^ lo * 2 ^ w))) := by rw [h2]
    _ = _ := by grind

/-- A number with a field replaced: its bits below, the new field, its bits above. -/
theorem setBits_eq (x lo w v : Nat) :
    setBits x lo w v = x % 2 ^ lo + v % 2 ^ w * 2 ^ lo + x / 2 ^ (lo + w) * 2 ^ (lo + w) := by
  unfold setBits
  rw [Nat.shiftLeft_eq, Nat.shiftLeft_eq]
  have h := bits_split x lo w
  omega

theorem setBits_lt {x lo w v : Nat} (hx : x < 2 ^ 32) (h : lo + w ≤ 32) : setBits x lo w v < 2 ^ 32 := by
  rw [setBits_eq]
  have h1 : x % 2 ^ lo < 2 ^ lo := Nat.mod_lt _ (Nat.two_pow_pos lo)
  have h2 : v % 2 ^ w < 2 ^ w := Nat.mod_lt _ (Nat.two_pow_pos w)
  have e : 2 ^ 32 = 2 ^ (lo + w) * 2 ^ (32 - (lo + w)) := by rw [← Nat.pow_add, Nat.add_sub_cancel' h]
  have h3 : x / 2 ^ (lo + w) < 2 ^ (32 - (lo + w)) := Nat.div_lt_of_lt_mul (e ▸ hx)
  have h4 : v % 2 ^ w * 2 ^ lo + 2 ^ lo ≤ 2 ^ (lo + w) := by
    rw [Nat.pow_add]
    have := Nat.mul_le_mul_right (2 ^ lo) (Nat.succ_le_of_lt h2)
    rw [Nat.succ_mul] at this
    rwa [Nat.mul_comm (2 ^ w)] at this
  have h5 : x / 2 ^ (lo + w) * 2 ^ (lo + w) + 2 ^ (lo + w) ≤ 2 ^ 32 := by
    rw [e]
    have := Nat.mul_le_mul_right (2 ^ (lo + w)) (Nat.succ_le_of_lt h3)
    rw [Nat.succ_mul] at this
    rwa [Nat.mul_comm (2 ^ (32 - (lo + w)))] at this
  omega

/-- The field that was replaced. -/
theorem bitsOf_setBits_same (x lo w v : Nat) : bitsOf (setBits x lo w v) lo w = v % 2 ^ w := by
  have h1 : x % 2 ^ lo < 2 ^ lo := Nat.mod_lt _ (Nat.two_pow_pos lo)
  unfold bitsOf
  rw [setBits_eq, Nat.shiftRight_eq_div_pow, Nat.pow_add]
  have e : x % 2 ^ lo + v % 2 ^ w * 2 ^ lo + x / (2 ^ lo * 2 ^ w) * (2 ^ lo * 2 ^ w)
      = x % 2 ^ lo + 2 ^ lo * (v % 2 ^ w + 2 ^ w * (x / (2 ^ lo * 2 ^ w))) := by grind
  rw [e, Nat.add_mul_div_left _ _ (Nat.two_pow_pos lo), Nat.div_eq_of_lt h1, Nat.zero_add, Nat.add_mul_mod_self_left,
    Nat.mod_mod]

/-- A field below the one replaced. -/
theorem bitsOf_setBits_below {x lo w v lo' w' : Nat} (h : lo' + w' ≤ lo) : bitsOf (setBits x lo w v) lo' w' = bitsOf x lo' w' := by
  have key : setBits x lo w v % 2 ^ lo = x % 2 ^ lo := by
    rw [setBits_eq, Nat.pow_add]
    have e : x % 2 ^ lo + v % 2 ^ w * 2 ^ lo + x / (2 ^ lo * 2 ^ w) * (2 ^ lo * 2 ^ w)
        = x % 2 ^ lo + 2 ^ lo * (v % 2 ^ w + 2 ^ w * (x / (2 ^ lo * 2 ^ w))) := by grind
    rw [e, Nat.add_mul_mod_self_left, Nat.mod_mod]
  have low (y : Nat) : bitsOf y lo' w' = bitsOf (y % 2 ^ lo) lo' w' := by
    unfold bitsOf
    rw [Nat.shiftRight_eq_div_pow, Nat.shiftRight_eq_div_pow]
    apply Nat.eq_of_testBit_eq
    intro i
    rw [Nat.testBit_mod_two_pow, Nat.testBit_mod_two_pow, Nat.testBit_div_two_pow, Nat.testBit_div_two_pow, Nat.testBit_mod_two_pow]
    by_cases hi : i < w'
    · have : i + lo' < lo := by omega
      simp [hi, this]
    · simp [hi]
  rw [low, key, ← low]

/-- A field above the one replaced. -/
theorem bitsOf_setBits_above {x lo w v lo' w' : Nat} (h : lo + w ≤ lo') : bitsOf (setBits x lo w v) lo' w' = bitsOf x lo' w' := by
  have h1 : x % 2 ^ lo < 2 ^ lo := Nat.mod_lt _ (Nat.two_pow_pos lo)
  have h2 : v % 2 ^ w < 2 ^ w := Nat.mod_lt _ (Nat.two_pow_pos w)
  have key : setBits x lo w v / 2 ^ (lo + w) = x / 2 ^ (lo + w) := by
    rw [setBits_eq]
    have h4 : x % 2 ^ lo + v % 2 ^ w * 2 ^ lo < 2 ^ (lo + w) := by
      rw [Nat.pow_add]
      have := Nat.mul_le_mul_right (2 ^ lo) (Nat.succ_le_of_lt h2)
      rw [Nat.succ_mul] at this
      rw [Nat.mul_comm (2 ^ lo)]
      omega
    rw [Nat.add_mul_div_right _ _ (Nat.two_pow_pos _), Nat.div_eq_of_lt h4, Nat.zero_add]
  have high (y : Nat) : bitsOf y lo' w' = bitsOf (y / 2 ^ (lo + w)) (lo' - (lo + w)) w' := by
    unfold bitsOf
    rw [Nat.shiftRight_eq_div_pow, Nat.shiftRight_eq_div_pow, Nat.div_div_eq_div_mul, ← Nat.pow_add, Nat.add_sub_cancel' h]
  rw [high, key, ← high]

namespace Machine

/-! ### Register fields -/

/-- A field within its register. -/
def Fld.ok (f : Fld) : Prop := f.lo + f.w ≤ 32

/-- Two fields share no bit. -/
def Fld.apart (f g : Fld) : Prop := g.addr ≠ f.addr ∨ g.lo + g.w ≤ f.lo ∨ f.lo + f.w ≤ g.lo

theorem toNat_ofNat_setBits (x : Word) {lo w : Nat} (v : Nat) (h : lo + w ≤ 32) :
    (BitVec.ofNat 32 (setBits x.toNat lo w v)).toNat = setBits x.toNat lo w v := by
  rw [BitVec.toNat_ofNat]
  exact Nat.mod_eq_of_lt (setBits_lt x.isLt h)

/-- A field reads what was written to it, in its width. -/
theorem State.rd_wr_same {s : State} (f : Fld) (v : Nat) (hs : regsWf s.regs = true) (hf : f.ok) : (s.wr f v).rd f = v % 2 ^ f.w := by
  simp only [State.rd, State.wr]
  rw [regGet_put_same _ _ hs, toNat_ofNat_setBits _ _ hf, bitsOf_setBits_same]

/-- A field that shares no bit with the one written reads as before. -/
theorem State.rd_wr_apart {s : State} {f g : Fld} (v : Nat) (hs : regsWf s.regs = true) (hf : f.ok) (h : f.apart g) :
    (s.wr f v).rd g = s.rd g := by
  simp only [State.rd, State.wr]
  by_cases ha : g.addr = f.addr
  · rw [ha, regGet_put_same _ _ hs, toNat_ofNat_setBits _ _ hf]
    rcases h with h | h | h
    · exact absurd ha h
    · exact bitsOf_setBits_below h
    · exact bitsOf_setBits_above h
  · rw [regGet_put_other _ _ ha]

/-- A field of another register reads as before. -/
theorem State.rd_wr_other (s : State) {f g : Fld} (v : Nat) (h : g.addr ≠ f.addr) : (s.wr f v).rd g = s.rd g := by
  simp only [State.rd, State.wr]
  rw [regGet_put_other _ _ h]

theorem State.rd_setReg_other (s : State) {a : Nat} {g : Fld} (v : Word) (h : g.addr ≠ a) : (s.setReg a v).rd g = s.rd g := by
  simp only [State.rd, State.setReg]
  rw [regGet_put_other _ _ h]

theorem State.reg_setReg_same {s : State} (a : Nat) (v : Word) (hs : regsWf s.regs = true) : (s.setReg a v).reg a = v :=
  regGet_put_same a v hs

theorem State.reg_setReg_other (s : State) {a b : Nat} (v : Word) (h : b ≠ a) : (s.setReg a v).reg b = s.reg b :=
  regGet_put_other _ v h

theorem State.reg_wr_other (s : State) {f : Fld} {b : Nat} (v : Nat) (h : b ≠ f.addr) : (s.wr f v).reg b = s.reg b :=
  regGet_put_other _ _ h

theorem State.regsWf_setReg {s : State} (a : Nat) (v : Word) (hs : regsWf s.regs = true) : regsWf (s.setReg a v).regs = true :=
  regsWf_put a v hs

theorem State.regsWf_wr {s : State} (f : Fld) (v : Nat) (hs : regsWf s.regs = true) : regsWf (s.wr f v).regs = true :=
  regsWf_put _ _ hs

theorem State.regsWf_wrs {s : State} (l : List (Fld × Nat)) (hs : regsWf s.regs = true) : regsWf (s.wrs l).regs = true := by
  induction l generalizing s with
  | nil => exact hs
  | cons c l ih => exact ih (State.regsWf_wr c.1 c.2 hs)

/-- A field that no listed one shares a bit with reads as before. -/
theorem State.rd_wrs_apart {s : State} {g : Fld} (l : List (Fld × Nat)) (hs : regsWf s.regs = true)
    (h : ∀ c ∈ l, c.1.ok ∧ c.1.apart g) : (s.wrs l).rd g = s.rd g := by
  induction l generalizing s with
  | nil => rfl
  | cons c l ih =>
    have hc := h c List.mem_cons_self
    exact (ih (State.regsWf_wr c.1 c.2 hs) (fun d hd => h d (List.mem_cons_of_mem _ hd))).trans (State.rd_wr_apart c.2 hs hc.1 hc.2)

/-- The field that a list writes last among those that share a bit with it. -/
theorem State.rd_wrs_same {s : State} (f : Fld) (v : Nat) (l : List (Fld × Nat)) (hs : regsWf s.regs = true) (hf : f.ok)
    (h : ∀ c ∈ l, c.1.ok ∧ c.1.apart f) : (s.wrs ((f, v) :: l)).rd f = v % 2 ^ f.w := by
  exact (State.rd_wrs_apart l (State.regsWf_wr f v hs) h).trans (State.rd_wr_same f v hs hf)

end Machine

end Sys2Proof
end

