-- ==== Sys2Proof/Laws/Canon.lean ====
section
/-!
SUPPORT. The canonical form of what is stored, and the queue of commands, under the operations of Machine/Ops.lean and under
the ways in which meanings are put together.
-/

namespace Sys2Proof.Machine

/-- What a meaning keeps beside the canonical form: the queue, Containment where `cont` says so, and DRAM,
the privileges of contexts and the counters of time where they are named. -/
structure Kept where
  queue : List Instr
  cont : Bool
  mem : Option (List Host.Cell)
  privs : Option (List (Nat × Nat))
  time : Option (Nat × Nat)

/-- Privileges that contexts other than 0 hold are among those listed. -/
def privsIn (l : List Ctx) (m : List (Nat × Nat)) : Prop := ∀ x ∈ l, x.id = 0 ∨ x.priv = 0 ∨ (x.id, x.priv) ∈ m

/-- The TS96 counter holds whole nanoseconds, and it and the uptime are those named. -/
abbrev timeIs (rq : Kept) (n u : Nat) : Prop := n % ns1 = 0 ∧ (rq.time = none ∨ rq.time = some (n, u))

/-- A canonical state with a given queue, in Containment where asked, whose TS96 counter holds whole nanoseconds, whose error
chutes and log hold what fits: what every meaning keeps; a reset alone ends Containment (R425, R490, R492, R498). -/
structure State.Good (s : State) (rq : Kept) : Prop where
  regs : cellWf regReset s.regs = true
  eff : cellWf regReset s.eff = true
  dram : Memory.wf s.dram = true
  host : Memory.wf s.host = true
  pending : s.pending = rq.queue
  cont : rq.cont = true → s.err.contained = true
  whole : timeIs rq s.now s.up
  chutes : chutesFit s.err.chutes = true
  log : logFits s.err.log = true
  same : ∀ d, rq.mem = some d → s.dram = d
  privs : ∀ m, rq.privs = some m → privsIn s.fcp.ctxs m
  sram : sramWf s.sram = true

theorem State.Canonical.good {s : State} (h : s.Canonical) (hn : s.now % ns1 = 0) (hc : chutesFit s.err.chutes = true)
    (hl : logFits s.err.log = true) : s.Good ⟨s.pending, s.err.contained, some s.dram, some (s.fcp.ctxs.map (fun x => (x.id, x.priv))), some (s.now, s.up)⟩ :=
  ⟨h.regs, h.eff, h.dram, h.host, rfl, id, ⟨hn, Or.inr rfl⟩, hc, hl, fun _ e => Option.some.inj e,
    fun _ e x hx => Or.inr (Or.inr (Option.some.inj e ▸ List.mem_map.mpr ⟨x, hx, rfl⟩)), h.sram⟩

theorem State.Good.canonical {s : State} {rq : Kept} (h : s.Good rq) : s.Canonical := ⟨h.regs, h.eff, h.dram, h.host, h.sram⟩

variable {rq : Kept}

/-! ### Putting meanings together -/

/-- What a command's own effect leaves is canonical. -/
def FcpOut.Good (w : FcpOut) (rq : Kept) : Prop :=
  match w with
  | .final _ t => t.Good rq
  | .wait _ _ _ t => t.Good rq
  | .pend _ _ _ t => t.Good rq

/-- A next state is canonical. -/
def OutGood (rq : Kept) : Out → Prop
  | .next t => t.Good rq
  | _ => True

theorem canon_next {t : State} (h : t.Good rq) : OutGood rq (.next t) := h

theorem canon_refused (r : Refusal) : OutGood rq (.refused r) := trivial

theorem canon_noCells : Memory.wf ([] : List Host.Cell) = true := rfl

theorem canon_final {r : Reply} {t : State} (h : t.Good rq) : (FcpOut.final r t).Good rq := h

theorem canon_wait {k : WaitKind} {a b : Nat} {t : State} (h : t.Good rq) : (FcpOut.wait k a b t).Good rq := h

theorem canon_pend {k : WaitKind} {a b : Nat} {t : State} (h : t.Good rq) : (FcpOut.pend k a b t).Good rq := h

theorem canon_ite {c : Prop} [Decidable c] {a b : State} (ha : a.Good rq) (hb : b.Good rq) :
    (if c then a else b).Good rq := by
  split <;> assumption

theorem canon_iteF {c : Prop} [Decidable c] {a b : FcpOut} (ha : a.Good rq) (hb : b.Good rq) :
    (if c then a else b).Good rq := by
  split <;> assumption

theorem canon_iteO {c : Prop} [Decidable c] {a b : Out} (ha : OutGood rq a) (hb : OutGood rq b) :
    OutGood rq (if c then a else b) := by
  split <;> assumption

theorem canon_ite1 {α : Type} {c : Prop} [Decidable c] {a b : State × α} (ha : a.1.Good rq) (hb : b.1.Good rq) :
    (if c then a else b).1.Good rq := by
  split <;> assumption

theorem canon_ite2 {α : Type} {c : Prop} [Decidable c] {a b : α × State} (ha : a.2.Good rq) (hb : b.2.Good rq) :
    (if c then a else b).2.Good rq := by
  split <;> assumption

theorem canon_foldl {α : Type} {f : State → α → State} {l : List α} {s : State} (hf : ∀ t x, t.Good rq → (f t x).Good rq)
    (hs : s.Good rq) : (l.foldl f s).Good rq := by
  induction l generalizing s with
  | nil => exact hs
  | cons x l ih => exact ih (hf s x hs)

theorem canon_foldl1 {α β : Type} {f : State × β → α → State × β} {l : List α} {p : State × β}
    (hf : ∀ t x, t.1.Good rq → (f t x).1.Good rq) (hs : p.1.Good rq) : (l.foldl f p).1.Good rq := by
  induction l generalizing p with
  | nil => exact hs
  | cons x l ih => exact ih (hf p x hs)

theorem canon_foldl2 {α β : Type} {f : β × State → α → β × State} {l : List α} {p : β × State}
    (hf : ∀ t x, t.2.Good rq → (f t x).2.Good rq) (hs : p.2.Good rq) : (l.foldl f p).2.Good rq := by
  induction l generalizing p with
  | nil => exact hs
  | cons x l ih => exact ih (hf p x hs)

theorem canon_fst_of {α : Type} {p : State × α} {a : State} {b : α} (e : p = (a, b)) (h : p.1.Good rq) : a.Good rq := by
  rw [e] at h
  exact h

theorem canon_snd_of {α : Type} {p : α × State} {a : α} {b : State} (e : p = (a, b)) (h : p.2.Good rq) : b.Good rq := by
  rw [e] at h
  exact h

/-- A state put together from parts. -/
theorem canon_mk {regs eff latch : List (Nat × Word)} {now up : Nat} {dram host : List Host.Cell} {sram : List (Nat × Option Byte)} {fcp : Fcp} {err : Err} {shf : Shf}
    {pins : Pins} {clk : Clk} {jin : Jin} {dfu : List DUnit} {cap : Cap} {tim : Tim} {trg : Trg} {con : Con} {eng : Eng} {dma : Dma}
    {cmp : Cmp} {mem : Mem} {mbx : Mbx} {dis : Dis} {mcv : Mcv} {rdata : List (Nat × Word)} {free : Nat} {pending : List Instr}
    (h1 : cellWf regReset regs = true) (h2 : cellWf regReset eff = true) (h3 : Memory.wf dram = true) (h4 : Memory.wf host = true) (h5 : pending = rq.queue)
    (h6 : rq.cont = true → err.contained = true) (h7 : timeIs rq now up) (h8 : chutesFit err.chutes = true) (h9 : logFits err.log = true)
    (h10 : ∀ d, rq.mem = some d → dram = d)
    (h11 : ∀ m, rq.privs = some m → privsIn fcp.ctxs m) (h12 : sramWf sram = true) :
    (State.mk regs eff latch now up dram host sram fcp err shf pins clk jin dfu cap tim trg con eng dma cmp mem mbx dis mcv rdata free
      pending).Good rq :=
  ⟨h1, h2, h3, h4, h5, h6, h7, h8, h9, h10, h11, h12⟩

/-! ### Privileges -/

theorem privsIn_map {l : List Ctx} {f : Ctx → Ctx} {m : List (Nat × Nat)} (h : privsIn l m)
    (hf : ∀ x, (f x).id = x.id ∧ ((f x).priv = x.priv ∨ x.id = 0 ∨ (f x).priv = 0)) : privsIn (l.map f) m := by
  intro y hy
  obtain ⟨x, hx, rfl⟩ := List.mem_map.mp hy
  obtain ⟨h1, h2⟩ := hf x
  rw [h1]
  rcases h2 with h2 | h2 | h2
  · rw [h2]
    exact h x hx
  · exact Or.inl h2
  · exact Or.inr (Or.inl h2)

theorem privsIn_filter {l : List Ctx} {f : Ctx → Bool} {m : List (Nat × Nat)} (h : privsIn l m) : privsIn (l.filter f) m :=
  fun x hx => h x (List.mem_filter.mp hx).1

theorem privsIn_add {l : List Ctx} {c : Ctx} {m : List (Nat × Nat)} (h : privsIn l m) (hc : c.priv = 0) : privsIn (l ++ [c]) m := by
  intro x hx
  rcases List.mem_append.mp hx with hx | hx
  · exact h x hx
  · rw [List.mem_singleton.mp hx]
    exact Or.inr (Or.inl hc)

theorem privsIn_zero {m : List (Nat × Nat)} : privsIn [Ctx.zero] m := by
  intro x hx
  rw [List.mem_singleton.mp hx]
  exact Or.inl rfl

/-! ### The error log's queues -/

theorem chutesFit_mod {l : List (List ErrRec)} {b : Nat} {f : List ErrRec → List ErrRec} (h : chutesFit l = true)
    (hf : (l.getD b []).length ≤ 4 → (f (l.getD b [])).length ≤ 4) : chutesFit (listMod l b f) = true := by
  induction l generalizing b with
  | nil => rfl
  | cons x l ih =>
    simp only [chutesFit, List.all_cons, Bool.and_eq_true, decide_eq_true_eq] at h
    cases b with
    | zero =>
      simp only [listMod, chutesFit, List.all_cons, Bool.and_eq_true, decide_eq_true_eq]
      exact ⟨hf h.1, h.2⟩
    | succ b =>
      simp only [listMod, chutesFit, List.all_cons, Bool.and_eq_true, decide_eq_true_eq]
      exact ⟨h.1, ih h.2 hf⟩

theorem chutesFit_push {l : List (List ErrRec)} {b : Nat} {r : ErrRec} (h : chutesFit l = true) (hb : (l.getD b []).length < 4) :
    chutesFit (listMod l b (fun x => x ++ [r])) = true :=
  chutesFit_mod h (fun _ => by simp only [List.length_append, List.length_cons, List.length_nil]; omega)

theorem chutesFit_tail {l : List (List ErrRec)} {b : Nat} {r : ErrRec} {rs : List ErrRec} (h : chutesFit l = true)
    (hb : l.getD b [] = r :: rs) : chutesFit (listMod l b (fun _ => rs)) = true :=
  chutesFit_mod h (fun h4 => by rw [hb] at h4; simp only [List.length_cons] at h4; omega)

theorem apply_ite_fst {α β : Type} {c : Prop} [Decidable c] (a b : α × β) (x : α) (ha : a.1 = x) (hb : b.1 = x) :
    (if c then a else b).1 = x := by
  split <;> assumption

theorem logFits_map {l : List (Nat × LogSlot)} {f : Nat × LogSlot → Nat × LogSlot} (h : logFits l = true) (hf : ∀ e, (f e).1 = e.1) :
    logFits (l.map f) = true := by
  simp only [logFits, Bool.and_eq_true, List.all_eq_true, decide_eq_true_eq, List.map_map] at h ⊢
  have e : ((fun (e : Nat × LogSlot) => e.1) ∘ f) = (fun e => e.1) := funext hf
  rw [e]
  refine ⟨fun x hx => ?_, h.2⟩
  obtain ⟨y, hy, rfl⟩ := List.mem_map.mp hx
  rw [hf]
  exact h.1 y hy

theorem logFits_put {l : List (Nat × LogSlot)} {q : Nat} {v : LogSlot} (h : logFits l = true) :
    logFits (l.filter (fun e => e.1 != q % 4096) ++ [(q % 4096, v)]) = true := by
  simp only [logFits, Bool.and_eq_true, List.all_eq_true, decide_eq_true_eq, List.map_append, List.map_cons, List.map_nil] at h ⊢
  constructor
  · intro x hx
    rcases List.mem_append.mp hx with hx | hx
    · exact h.1 x (List.mem_filter.mp hx).1
    · rw [List.mem_singleton.mp hx]
      exact Nat.mod_lt _ (by decide)
  · rw [List.nodup_append]
    refine ⟨((List.filter_sublist).map _).nodup h.2, by simp, ?_⟩
    intro a ha b hb
    obtain ⟨x, hx, rfl⟩ := List.mem_map.mp ha
    rw [List.mem_singleton.mp hb]
    exact (by simpa using (List.mem_filter.mp hx).2)

/-! ### Registers -/

theorem State.setReg_canon {s : State} (a : Nat) (v : Word) (h : s.Good rq) : (s.setReg a v).Good rq :=
  ⟨regsWf_put a v h.regs, h.eff, h.dram, h.host, h.pending, h.cont, h.whole, h.chutes, h.log, h.same, h.privs, h.sram⟩

theorem State.wr_canon {s : State} (f : Fld) (v : Nat) (h : s.Good rq) : (s.wr f v).Good rq :=
  ⟨regsWf_put _ _ h.regs, h.eff, h.dram, h.host, h.pending, h.cont, h.whole, h.chutes, h.log, h.same, h.privs, h.sram⟩

theorem State.wrB_canon {s : State} (f : Fld) (b : Bool) (h : s.Good rq) : (s.wrB f b).Good rq := State.wr_canon f _ h

theorem State.wrS_canon {s : State} (f : Fld) (v : Int) (h : s.Good rq) : (s.wrS f v).Good rq := State.wr_canon f _ h

theorem State.bump_canon {s : State} (f : Fld) (h : s.Good rq) : (s.bump f).Good rq := State.wr_canon f _ h

theorem State.bumpBy_canon {s : State} (f : Fld) (n : Nat) (h : s.Good rq) : (s.bumpBy f n).Good rq := State.wr_canon f _ h

theorem State.wrs_canon {s : State} (l : List (Fld × Nat)) (h : s.Good rq) : (s.wrs l).Good rq := by
  induction l generalizing s with
  | nil => exact h
  | cons c l ih => exact ih (State.wr_canon c.1 c.2 h)

theorem State.zeroFields_canon {s : State} (l : List Fld) (h : s.Good rq) : (s.zeroFields l).Good rq := by
  induction l generalizing s with
  | nil => exact h
  | cons c l ih => exact ih (State.wr_canon c 0 h)

theorem State.clearRegs_canon {s : State} (l : List Nat) (h : s.Good rq) : (s.clearRegs l).Good rq := by
  induction l generalizing s with
  | nil => exact h
  | cons c l ih => exact ih (State.setReg_canon c _ h)

theorem State.applyReg_canon {s : State} (a : Nat) (h : s.Good rq) : (s.applyReg a).Good rq :=
  ⟨h.regs, regsWf_put a _ h.eff, h.dram, h.host, h.pending, h.cont, h.whole, h.chutes, h.log, h.same, h.privs, h.sram⟩

theorem State.applyRegs_canon {s : State} (l : List Nat) (h : s.Good rq) : (s.applyRegs l).Good rq := by
  induction l generalizing s with
  | nil => exact h
  | cons c l ih => exact ih (State.applyReg_canon c h)

theorem State.wr64_canon {s : State} (lo hi v : Nat) (h : s.Good rq) : (s.wr64 lo hi v).Good rq :=
  State.setReg_canon _ _ (State.setReg_canon _ _ h)

theorem State.bump64_canon {s : State} (lo hi : Nat) (h : s.Good rq) : (s.bump64 lo hi).Good rq := State.wr64_canon _ _ _ h

theorem State.wrTs_canon {s : State} (a t : Nat) (h : s.Good rq) : (s.wrTs a t).Good rq :=
  State.setReg_canon _ _ (State.setReg_canon _ _ (State.setReg_canon _ _ h))

theorem State.setDom_canon {s : State} (d : Dom) (v : Nat) (h : s.Good rq) : (s.setDom d v).Good rq := by
  unfold State.setDom
  split
  · exact State.wr_canon _ _ h
  · exact State.wr_canon _ _ h

theorem State.offAccess_canon {s : State} (a m : Nat) (w : Bool) (h : s.Good rq) : (s.offAccess a m w).Good rq :=
  State.bump_canon _ (State.wrs_canon _ h)

theorem State.gated_canon {s : State} (m a : Nat) (w : Bool) {f : State → State} (hf : ∀ t, t.Good rq → (f t).Good rq)
    (h : s.Good rq) : (s.gated m a w f).Good rq :=
  canon_ite (State.offAccess_canon _ _ _ h) (hf s h)

/-! ### Memory and free values -/

theorem State.hostWrite_canon {s : State} (a : Nat) (bs : List Byte) (h : s.Good rq) : (s.hostWrite a bs).Good rq :=
  ⟨h.regs, h.eff, h.dram, memWf_write a bs h.host, h.pending, h.cont, h.whole, h.chutes, h.log, h.same, h.privs, h.sram⟩

theorem State.dramWrite_canon {s : State} (a : Nat) (bs : List Byte) (hd : rq.mem = none) (h : s.Good rq) :
    (s.dramWrite a bs).Good rq := by
  refine ⟨h.regs, h.eff, ?_, h.host, h.pending, h.cont, h.whole, h.chutes, h.log, (fun _ e => nomatch hd.symm.trans e), h.privs, h.sram⟩
  simp only [State.dramWrite]
  split
  · exact memWf_write a bs h.dram
  · exact memWf_writeLive _ a bs h.dram

theorem State.takeFree_canon {s : State} (h : s.Good rq) : s.takeFree.2.Good rq := ⟨h.regs, h.eff, h.dram, h.host, h.pending, h.cont, h.whole, h.chutes, h.log, h.same, h.privs, h.sram⟩

theorem State.takeBits_canon {s : State} (w : Nat) (h : s.Good rq) : (s.takeBits w).2.Good rq :=
  ⟨h.regs, h.eff, h.dram, h.host, h.pending, h.cont, h.whole, h.chutes, h.log, h.same, h.privs, h.sram⟩

theorem State.takeWords_canon {s : State} (n : Nat) (h : s.Good rq) : (s.takeWords n).2.Good rq := by
  induction n generalizing s with
  | zero => exact h
  | succ n ih => exact ih (State.takeBits_canon 32 h)

end Sys2Proof.Machine
end

