-- ==== Sys2Proof/Laws/CanonFcpOps.lean ====
section
/-!
SUPPORT. What Machine/FcpOps.lean defines keeps the canonical form of what is stored.
-/

namespace Sys2Proof.Machine

variable {rq : Kept}

theorem State.modFn_canon (s : State) (f : Nat) (g : Fn → Fn) (hs : s.Good rq) :
    (State.modFn s f g).Good rq := by
  unfold State.modFn
  repeat' with_reducible first
    | assumption | intro _ | split | dsimp only | apply canon_mk | apply State.Good.regs | apply State.Good.eff
    | apply State.Good.dram | apply State.Good.host | apply State.Good.pending | apply State.Good.cont
    | apply State.Good.whole | apply State.Good.chutes | apply State.Good.log | apply State.Good.same | apply State.Good.privs
    | apply State.Good.sram

theorem State.modCtx_canon (s : State) (c : Nat) (g : Ctx → Ctx) (hg : (∀ x, (g x).id = x.id ∧ (g x).priv = x.priv) ∨ rq.privs = none)
    (hs : s.Good rq) : (s.modCtx c g).Good rq := by
  refine canon_mk hs.regs hs.eff hs.dram hs.host hs.pending hs.cont hs.whole hs.chutes hs.log hs.same ?_ hs.sram
  intro m hm
  rcases hg with hg | hg
  · refine privsIn_map (hs.privs m hm) (fun x => ?_)
    split
    · exact ⟨(hg x).1, Or.inl (hg x).2⟩
    · exact ⟨rfl, Or.inl rfl⟩
  · exact nomatch hg.symm.trans hm

theorem State.modPair_canon (s : State) (q : Nat) (g : QPair → QPair) (hs : s.Good rq) :
    (State.modPair s q g).Good rq := by
  unfold State.modPair
  repeat' with_reducible first
    | assumption | intro _ | apply canon_ite | split | dsimp only | apply canon_mk | apply State.Good.regs
    | apply State.Good.eff | apply State.Good.dram | apply State.Good.host | apply State.Good.pending | apply State.Good.cont
    | apply State.Good.whole | apply State.Good.chutes | apply State.Good.log | apply State.Good.same | apply State.Good.privs
    | apply State.Good.sram

theorem State.setInflight_canon (s : State) (l : List Inflight) (hs : s.Good rq) :
    (State.setInflight s l).Good rq := by
  unfold State.setInflight
  repeat' with_reducible first
    | assumption | intro _ | apply State.wr_canon | split | dsimp only | apply canon_mk | apply State.Good.regs
    | apply State.Good.eff | apply State.Good.dram | apply State.Good.host | apply State.Good.pending | apply State.Good.cont
    | apply State.Good.whole | apply State.Good.chutes | apply State.Good.log | apply State.Good.same | apply State.Good.privs
    | apply State.Good.sram

theorem State.sendMsix_canon (s : State) (f v : Nat) (hs : s.Good rq) :
    (State.sendMsix s f v).Good rq := by
  unfold State.sendMsix
  repeat' with_reducible first
    | assumption | intro _ | apply State.modFn_canon | apply canon_ite | split | dsimp only | apply canon_mk
    | apply State.Good.regs | apply State.Good.eff | apply State.Good.dram | apply State.Good.host | apply State.Good.pending
    | apply State.Good.cont | apply State.Good.whole | apply State.Good.chutes | apply State.Good.log | apply State.Good.same
    | apply State.Good.privs
    | apply State.Good.sram

theorem State.writeCq_canon (s : State) (q : QPair) (urgent : Bool) (entry : Bool → List Word) (hs : s.Good rq) :
    (State.writeCq s q urgent entry).Good rq := by
  unfold State.writeCq
  repeat' with_reducible first
    | assumption | intro _ | apply State.hostWrite_canon | apply State.modPair_canon | apply State.sendMsix_canon
    | apply canon_ite | split | dsimp only | apply canon_mk | apply State.Good.regs | apply State.Good.eff
    | apply State.Good.dram | apply State.Good.host | apply State.Good.pending | apply State.Good.cont
    | apply State.Good.whole | apply State.Good.chutes | apply State.Good.log | apply State.Good.same | apply State.Good.privs
    | apply State.Good.sram

theorem State.writeReply_canon (s : State) (c : Inflight) (r : Reply) (dup : Bool) (hs : s.Good rq) :
    (State.writeReply s c r dup).Good rq := by
  unfold State.writeReply
  repeat' with_reducible first
    | assumption | intro _ | apply State.writeCq_canon | apply canon_ite | refine canon_fst_of (by assumption) ?_
    | refine canon_snd_of (by assumption) ?_ | split | dsimp only | apply canon_mk | apply State.Good.regs
    | apply State.Good.eff | apply State.Good.dram | apply State.Good.host | apply State.Good.pending | apply State.Good.cont
    | apply State.Good.whole | apply State.Good.chutes | apply State.Good.log | apply State.Good.same | apply State.Good.privs
    | apply State.Good.sram

theorem State.noteDone_canon (s : State) (c : Inflight) (r : Reply) (dup : Bool) (hs : s.Good rq) :
    (State.noteDone s c r dup).Good rq := by
  unfold State.noteDone
  repeat' with_reducible first
    | assumption | intro _ | split | dsimp only | apply canon_mk | apply State.Good.regs | apply State.Good.eff
    | apply State.Good.dram | apply State.Good.host | apply State.Good.pending | apply State.Good.cont
    | apply State.Good.whole | apply State.Good.chutes | apply State.Good.log | apply State.Good.same | apply State.Good.privs
    | apply State.Good.sram

theorem State.finishOne_canon (s : State) (c : Inflight) (r : Reply) (dup : Bool) (hs : s.Good rq) :
    (State.finishOne s c r dup).Good rq := by
  unfold State.finishOne
  repeat' with_reducible first
    | assumption | intro _ | apply State.noteDone_canon | apply State.setInflight_canon | apply State.writeReply_canon
    | apply canon_ite | split | dsimp only

theorem State.setPairs_canon (s : State) (l : List QPair) (hs : s.Good rq) :
    (State.setPairs s l).Good rq := by
  unfold State.setPairs
  repeat' with_reducible first
    | assumption | intro _ | apply State.wr_canon | split | dsimp only | apply canon_mk | apply State.Good.regs
    | apply State.Good.eff | apply State.Good.dram | apply State.Good.host | apply State.Good.pending | apply State.Good.cont
    | apply State.Good.whole | apply State.Good.chutes | apply State.Good.log | apply State.Good.same | apply State.Good.privs
    | apply State.Good.sram

theorem State.dropPair_canon (s : State) (q : QPair) (hs : s.Good rq) : (s.dropPair q).Good rq := by
  unfold State.dropPair
  have h := State.setPairs_canon s (s.fcp.pairs.filter (fun x => x.qid != q.qid)) hs
  refine canon_mk h.regs h.eff h.dram h.host h.pending h.cont h.whole h.chutes h.log h.same (fun m hm => ?_) h.sram
  refine privsIn_map (h.privs m hm) (fun x => ?_)
  split
  · exact ⟨rfl, Or.inl rfl⟩
  · exact ⟨rfl, Or.inl rfl⟩

theorem State.drainPairs_canon (s : State) (n : Nat) (hs : s.Good rq) : (s.drainPairs n).Good rq := by
  induction n generalizing s with
  | zero => exact hs
  | succ n ih =>
    simp only [State.drainPairs]
    split
    · exact hs
    · exact ih _ (canon_foldl (fun t x ht => State.finishOne_canon t x _ false ht) (State.dropPair_canon _ _ hs))

theorem State.finish_canon (s : State) (c : Inflight) (r : Reply) (dup : Bool) (hs : s.Good rq) :
    (State.finish s c r dup).Good rq := by
  unfold State.finish
  repeat' with_reducible first
    | assumption | intro _ | apply State.drainPairs_canon | apply State.finishOne_canon | split | dsimp only

theorem State.finishAll_canon (s : State) (test : Inflight → Bool) (r : Reply) (hs : s.Good rq) :
    (State.finishAll s test r).Good rq := by
  unfold State.finishAll
  repeat' with_reducible first
    | assumption | intro _ | apply State.finish_canon | apply canon_foldl | apply canon_foldl1 | apply canon_foldl2 | split
    | dsimp only

theorem State.wake_canon (s : State) (k : WaitKind) (key : Nat) (r : Reply) (hs : s.Good rq) :
    (State.wake s k key r).Good rq := by
  unfold State.wake
  repeat' with_reducible first
    | assumption | intro _ | apply State.finishAll_canon | split | dsimp only

theorem State.wakeKind_canon (s : State) (k : WaitKind) (r : Reply) (hs : s.Good rq) :
    (State.wakeKind s k r).Good rq := by
  unfold State.wakeKind
  repeat' with_reducible first
    | assumption | intro _ | apply State.finishAll_canon | split | dsimp only

theorem State.writePending_canon (s : State) (c : Inflight) (hs : s.Good rq) :
    (State.writePending s c).Good rq := by
  unfold State.writePending
  repeat' with_reducible first
    | assumption | intro _ | apply State.writeCq_canon | apply canon_ite | refine canon_fst_of (by assumption) ?_
    | refine canon_snd_of (by assumption) ?_ | split | dsimp only | apply canon_mk | apply State.Good.regs
    | apply State.Good.eff | apply State.Good.dram | apply State.Good.host | apply State.Good.pending | apply State.Good.cont
    | apply State.Good.whole | apply State.Good.chutes | apply State.Good.log | apply State.Good.same | apply State.Good.privs
    | apply State.Good.sram

theorem State.postEvent_canon (s : State) (c code : Nat) (d : List Nat) (hs : s.Good rq) :
    (State.postEvent s c code d).Good rq := by
  unfold State.postEvent
  repeat' with_reducible first
    | assumption | intro _ | apply State.bump_canon | apply State.modFn_canon | apply canon_ite
    | refine canon_fst_of (by assumption) ?_ | refine canon_snd_of (by assumption) ?_ | split | dsimp only | apply canon_mk
    | apply State.Good.regs | apply State.Good.eff | apply State.Good.dram | apply State.Good.host | apply State.Good.pending
    | apply State.Good.cont | apply State.Good.whole | apply State.Good.chutes | apply State.Good.log | apply State.Good.same
    | apply State.Good.privs
    | apply State.Good.sram

theorem State.modInflight_canon (s : State) (q t : Nat) (g : Inflight → Inflight) (hs : s.Good rq) :
    (State.modInflight s q t g).Good rq := by
  unfold State.modInflight
  repeat' with_reducible first
    | assumption | intro _ | apply canon_ite | split | dsimp only | apply canon_mk | apply State.Good.regs
    | apply State.Good.eff | apply State.Good.dram | apply State.Good.host | apply State.Good.pending | apply State.Good.cont
    | apply State.Good.whole | apply State.Good.chutes | apply State.Good.log | apply State.Good.same | apply State.Good.privs
    | apply State.Good.sram

theorem State.addInflight_canon (s : State) (c : Inflight) (hs : s.Good rq) :
    (State.addInflight s c).Good rq := by
  unfold State.addInflight
  repeat' with_reducible first
    | assumption | intro _ | apply State.setInflight_canon | split | dsimp only

theorem runCmd_canon (spec : CmdSpec) (c : Inflight) (p : Packet) (s : State)
    (hspec : ∀ p t, t.Good rq → (spec.run p t).Good rq) (hs : s.Good rq) : (runCmd spec c p s).Good rq := by
  have hr := hspec p s hs
  unfold runCmd
  split
  · exact State.finish_canon _ _ _ _ hs
  · split
    · rename_i e
      rw [e] at hr
      exact State.finish_canon _ _ _ _ hr
    · rename_i e
      rw [e] at hr
      exact State.modInflight_canon _ _ _ _ hr
    · rename_i e
      rw [e] at hr
      exact State.writePending_canon _ _ (State.modInflight_canon _ _ _ _ hr)

theorem fcp_canon (spec : CmdSpec) (p : Packet) (s : State) (hspec : ∀ p t, t.Good rq → (spec.run p t).Good rq) (hs : s.Good rq) :
    (fcp spec p s).Good rq := by
  unfold fcp
  repeat' with_reducible first
    | assumption | intro _ | apply hspec | apply State.addInflight_canon | apply State.finish_canon
    | apply State.modInflight_canon | apply runCmd_canon | apply canon_ite | refine canon_fst_of (by assumption) ?_
    | refine canon_snd_of (by assumption) ?_ | split | dsimp only | apply canon_mk | apply State.Good.regs
    | apply State.Good.eff | apply State.Good.dram | apply State.Good.host | apply State.Good.pending | apply State.Good.cont
    | apply State.Good.whole | apply State.Good.chutes | apply State.Good.log | apply State.Good.same | apply State.Good.privs
    | apply State.Good.sram

theorem fcpStep_canon (spec : CmdSpec) (p : Packet) (s : State) (hspec : ∀ p t, t.Good rq → (spec.run p t).Good rq) (hs : s.Good rq) :
    OutGood rq (fcpStep spec p s) := by
  unfold fcpStep
  repeat' with_reducible first
    | assumption | intro _ | apply hspec | apply fcp_canon | apply canon_next | apply canon_iteO | split | dsimp only

theorem fOk_canon (s : State) (hs : s.Good rq) :
    (fOk s).Good rq := by
  unfold fOk
  repeat' with_reducible first
    | assumption | intro _ | apply canon_iteF | apply canon_final | apply canon_wait | apply canon_pend | split | dsimp only

theorem fSt_canon (st : Status) (s : State) (hs : s.Good rq) :
    (fSt st s).Good rq := by
  unfold fSt
  repeat' with_reducible first
    | assumption | intro _ | apply canon_iteF | apply canon_final | apply canon_wait | apply canon_pend | split | dsimp only

end Sys2Proof.Machine
end

