-- ==== Sys2Proof/Laws/CanonMbxOps.lean ====
section
/-!
SUPPORT. What Machine/MbxOps.lean defines keeps the canonical form of what is stored.
-/

namespace Sys2Proof.Machine

variable {rq : Kept}

theorem State.modSet_canon (s : State) (i : Nat) (g : MSet → MSet) (hs : s.Good rq) :
    (State.modSet s i g).Good rq := by
  unfold State.modSet
  repeat' with_reducible first
    | assumption | intro _ | split | dsimp only | apply canon_mk | apply State.Good.regs | apply State.Good.eff
    | apply State.Good.dram | apply State.Good.host | apply State.Good.pending | apply State.Good.cont
    | apply State.Good.whole | apply State.Good.chutes | apply State.Good.log | apply State.Good.same | apply State.Good.privs
    | apply State.Good.sram

theorem dbSignal_canon (s : State) (i : Nat) (toF : Bool) (was : Nat) (hs : s.Good rq) :
    (dbSignal s i toF was).Good rq := by
  unfold dbSignal
  repeat' with_reducible first
    | assumption | intro _ | apply State.sendMsix_canon | apply canon_ite | split | dsimp only

theorem dbPut_canon (s : State) (i : Nat) (toF : Bool) (v : Nat) (hs : s.Good rq) :
    (dbPut s i toF v).Good rq := by
  unfold dbPut
  repeat' with_reducible first
    | assumption | intro _ | apply State.wrs_canon | apply dbSignal_canon | split | dsimp only

theorem dbRaise_canon (s : State) (i : Nat) (toF : Bool) (bits : Nat) (hs : s.Good rq) :
    (dbRaise s i toF bits).Good rq := by
  unfold dbRaise
  repeat' with_reducible first
    | assumption | intro _ | apply dbPut_canon | split | dsimp only

theorem dbClear_canon (s : State) (i : Nat) (toF : Bool) (bits : Nat) (hs : s.Good rq) :
    (dbClear s i toF bits).Good rq := by
  unfold dbClear
  repeat' with_reducible first
    | assumption | intro _ | apply dbPut_canon | split | dsimp only

theorem dbMaskPut_canon (s : State) (i : Nat) (toF : Bool) (v : Nat) (hs : s.Good rq) :
    (dbMaskPut s i toF v).Good rq := by
  unfold dbMaskPut
  repeat' with_reducible first
    | assumption | intro _ | apply State.wr_canon | apply dbSignal_canon | split | dsimp only

theorem mbxRegs_canon (s : State) (i : Nat) (hs : s.Good rq) :
    (mbxRegs s i).Good rq := by
  unfold mbxRegs
  repeat' with_reducible first
    | assumption | intro _ | apply State.modSet_canon | apply State.wr_canon | apply State.wrs_canon | apply canon_ite
    | apply canon_foldl | apply canon_foldl1 | apply canon_foldl2 | refine canon_fst_of (by assumption) ?_
    | refine canon_snd_of (by assumption) ?_ | split | dsimp only | apply canon_mk | apply State.Good.regs
    | apply State.Good.eff | apply State.Good.dram | apply State.Good.host | apply State.Good.pending | apply State.Good.cont
    | apply State.Good.whole | apply State.Good.chutes | apply State.Good.log | apply State.Good.same | apply State.Good.privs
    | apply State.Good.sram

theorem mbxPush_canon (s : State) (i : Nat) (inbound : Bool) (m : Msg) (hs : s.Good rq) :
    (mbxPush s i inbound m).Good rq := by
  unfold mbxPush
  repeat' with_reducible first
    | assumption | intro _ | apply State.bump_canon | apply State.modSet_canon | apply State.wr_canon | apply dbRaise_canon
    | apply mbxRegs_canon | apply canon_ite | apply canon_ite1 | apply canon_ite2 | split | dsimp only | apply canon_mk
    | apply State.Good.regs | apply State.Good.eff | apply State.Good.dram | apply State.Good.host | apply State.Good.pending
    | apply State.Good.cont | apply State.Good.whole | apply State.Good.chutes | apply State.Good.log | apply State.Good.same
    | apply State.Good.privs
    | apply State.Good.sram

theorem mbxFill_canon (s : State) (i n : Nat) (hs : s.Good rq) : (mbxFill s i n).Good rq := by
  induction n generalizing s with
  | zero => exact mbxRegs_canon s i hs
  | succ n ih =>
    simp only [mbxFill]
    split
    · exact mbxRegs_canon s i hs
    · exact canon_ite (mbxRegs_canon s i hs) (ih _ (mbxPush_canon _ i _ _ (State.modSet_canon s i _ hs)))

theorem mbxPop_canon (s : State) (i : Nat) (inbound : Bool) (hs : s.Good rq) :
    (mbxPop s i inbound).Good rq := by
  unfold mbxPop
  repeat' with_reducible first
    | assumption | intro _ | apply State.modSet_canon | apply dbRaise_canon | apply mbxFill_canon | apply canon_ite
    | apply canon_ite1 | apply canon_ite2 | refine canon_fst_of (by assumption) ?_ | refine canon_snd_of (by assumption) ?_
    | split | dsimp only | apply canon_mk | apply State.Good.regs | apply State.Good.eff | apply State.Good.dram
    | apply State.Good.host | apply State.Good.pending | apply State.Good.cont | apply State.Good.whole
    | apply State.Good.chutes | apply State.Good.log | apply State.Good.same | apply State.Good.privs
    | apply State.Good.sram

theorem mbxSend_canon (s : State) (i code echo : Nat) (w : List Nat) (hs : s.Good rq) :
    (mbxSend s i code echo w).Good rq := by
  unfold mbxSend
  repeat' with_reducible first
    | assumption | intro _ | apply State.bump_canon | apply State.modSet_canon | apply State.wr_canon | apply mbxFill_canon
    | apply canon_ite | split | dsimp only | apply canon_mk | apply State.Good.regs | apply State.Good.eff
    | apply State.Good.dram | apply State.Good.host | apply State.Good.pending | apply State.Good.cont
    | apply State.Good.whole | apply State.Good.chutes | apply State.Good.log | apply State.Good.same | apply State.Good.privs
    | apply State.Good.sram

theorem mbxTell_canon (s : State) (all : Bool) (code : Nat) (w : List Nat) (hs : s.Good rq) :
    (mbxTell s all code w).Good rq := by
  unfold mbxTell
  repeat' with_reducible first
    | assumption | intro _ | apply mbxSend_canon | apply canon_ite | apply canon_foldl | apply canon_foldl1
    | apply canon_foldl2 | split | dsimp only

theorem mbxFlush_canon (s : State) (i : Nat) (hs : s.Good rq) :
    (mbxFlush s i).Good rq := by
  unfold mbxFlush
  repeat' with_reducible first
    | assumption | intro _ | apply State.modSet_canon | apply dbRaise_canon | apply mbxRegs_canon | apply canon_ite | split
    | dsimp only | apply canon_mk | apply State.Good.regs | apply State.Good.eff | apply State.Good.dram
    | apply State.Good.host | apply State.Good.pending | apply State.Good.cont | apply State.Good.whole
    | apply State.Good.chutes | apply State.Good.log | apply State.Good.same | apply State.Good.privs
    | apply State.Good.sram

theorem mbxEnable_canon (s : State) (i : Nat) (b : Bool) (hs : s.Good rq) :
    (mbxEnable s i b).Good rq := by
  unfold mbxEnable
  repeat' with_reducible first
    | assumption | intro _ | apply State.wrB_canon | split | dsimp only

end Sys2Proof.Machine
end

