-- ==== Sys2Proof/Laws/CanonErrOps.lean ====
section
/-!
SUPPORT. What Machine/ErrOps.lean defines keeps the canonical form of what is stored.
-/

namespace Sys2Proof.Machine

variable {rq : Kept}

theorem latchAll_canon (src : State) (l : List (Nat × Nat × Dom)) (t : State) (ht : t.Good rq) : (latchAll src l t).Good rq := by
  induction l generalizing t with
  | nil => exact ht
  | cons x l ih => exact ih _ (canon_ite (State.setReg_canon _ _ ht) ht)

theorem sheafLatch_canon (s : State) (src tf : Nat) (hs : s.Good rq) :
    (sheafLatch s src tf).Good rq := by
  unfold sheafLatch
  repeat' with_reducible first
    | assumption | intro _ | apply State.bump_canon | apply State.postEvent_canon | apply State.wake_canon
    | apply State.wr_canon | apply State.wrTs_canon | apply latchAll_canon | apply canon_ite | apply canon_ite1
    | apply canon_ite2 | split | dsimp only | apply canon_mk | apply State.Good.regs | apply State.Good.eff
    | apply State.Good.dram | apply State.Good.host | apply State.Good.pending | apply State.Good.cont
    | apply State.Good.whole | apply State.Good.chutes | apply State.Good.log | apply State.Good.same | apply State.Good.privs
    | apply State.Good.sram

theorem sheafCancel_canon (s : State) (hs : s.Good rq) :
    (sheafCancel s).Good rq := by
  unfold sheafCancel
  repeat' with_reducible first
    | assumption | intro _ | apply State.wake_canon | refine canon_fst_of (by assumption) ?_
    | refine canon_snd_of (by assumption) ?_ | split | dsimp only | apply canon_mk | apply State.Good.regs
    | apply State.Good.eff | apply State.Good.dram | apply State.Good.host | apply State.Good.pending | apply State.Good.cont
    | apply State.Good.whole | apply State.Good.chutes | apply State.Good.log | apply State.Good.same | apply State.Good.privs
    | apply State.Good.sram

theorem sheafDecide_canon (s : State) (src tf : Nat) (hs : s.Good rq) :
    (sheafDecide s src tf).Good rq := by
  unfold sheafDecide sheafPut
  repeat' with_reducible first
    | assumption | intro _ | apply State.bump_canon | apply State.wr_canon | apply State.wrTs_canon | apply canon_ite | split
    | dsimp only | apply canon_mk | apply State.Good.regs | apply State.Good.eff | apply State.Good.dram
    | apply State.Good.host | apply State.Good.pending | apply State.Good.cont | apply State.Good.whole
    | apply State.Good.chutes | apply State.Good.log | apply State.Good.same | apply State.Good.privs
    | apply State.Good.sram

theorem sheafFatal_canon (s : State) (hs : s.Good rq) :
    (sheafFatal s).Good rq := by
  unfold sheafFatal
  repeat' with_reducible first
    | assumption | intro _ | apply State.wr_canon | apply State.wrTs_canon | apply sheafCancel_canon | apply sheafLatch_canon
    | apply canon_ite | split | dsimp only

theorem containEngines_canon (s : State) (hs : s.Good rq) :
    (containEngines s).Good rq := by
  unfold containEngines
  repeat' with_reducible first
    | assumption | intro _ | apply State.wr_canon | apply canon_ite | apply canon_ite1 | apply canon_ite2
    | apply canon_foldl | apply canon_foldl1 | apply canon_foldl2 | split | dsimp only | apply canon_mk
    | apply State.Good.regs | apply State.Good.eff | apply State.Good.dram | apply State.Good.host
    | apply State.Good.pending | apply State.Good.cont | apply State.Good.whole | apply State.Good.chutes
    | apply State.Good.log | apply State.Good.same | apply State.Good.privs | apply State.Good.sram

theorem containBlocks_canon (s : State) (hs : s.Good rq) :
    (containBlocks s).Good rq := by
  unfold containBlocks
  repeat' with_reducible first
    | assumption | intro _ | apply State.wr_canon | apply canon_ite | apply containEngines_canon | apply canon_ite1
    | apply canon_ite2 | split | dsimp only | apply canon_mk | apply State.Good.regs | apply State.Good.eff
    | apply State.Good.dram | apply State.Good.host | apply State.Good.pending | apply State.Good.cont
    | apply State.Good.whole | apply State.Good.chutes | apply State.Good.log | apply State.Good.same
    | apply State.Good.privs | apply State.Good.sram

theorem State.setWords_canon (s : State) (a : Nat) (ws : List Word) (hs : s.Good rq) : (s.setWords a ws).Good rq := by
  induction ws generalizing s a with
  | nil => exact hs
  | cons w ws ih => exact ih _ _ (State.setReg_canon _ _ hs)

theorem enterContain_canon (s : State) (r : ErrRec) (hs : s.Good rq) :
    (enterContain s r).Good rq := by
  unfold enterContain
  repeat' with_reducible first
    | assumption | intro _ | apply State.postEvent_canon | apply State.setWords_canon | apply State.wakeKind_canon
    | apply State.wr_canon | apply State.zeroFields_canon | apply containBlocks_canon | apply mbxTell_canon
    | apply sheafFatal_canon | apply canon_ite | split | dsimp only | apply canon_mk | apply State.Good.regs
    | apply State.Good.eff | apply State.Good.dram | apply State.Good.host | apply State.Good.pending | apply State.Good.cont
    | apply State.Good.whole | apply State.Good.chutes | apply State.Good.log | apply State.Good.same | apply State.Good.privs
    | apply State.Good.sram

theorem State.setTags_canon (s : State) (l : List Tag) (b : Nat) (hs : s.Good rq) :
    (State.setTags s l b).Good rq := by
  unfold State.setTags
  repeat' with_reducible first
    | assumption | intro _ | apply State.wr_canon | split | dsimp only | apply canon_mk | apply State.Good.regs
    | apply State.Good.eff | apply State.Good.dram | apply State.Good.host | apply State.Good.pending | apply State.Good.cont
    | apply State.Good.whole | apply State.Good.chutes | apply State.Good.log | apply State.Good.same | apply State.Good.privs
    | apply State.Good.sram

theorem openTag_canon (s : State) (r : ErrRec) (seq : Option Nat) (hs : s.Good rq) :
    (openTag s r seq).Good rq := by
  unfold openTag
  repeat' with_reducible first
    | assumption | intro _ | apply State.bump_canon | apply State.setTags_canon | apply canon_ite | split | dsimp only

theorem closeTags_canon (s : State) (test : Tag → Bool) (hs : s.Good rq) :
    (closeTags s test).Good rq := by
  unfold closeTags
  repeat' with_reducible first
    | assumption | intro _ | apply State.setTags_canon | apply canon_ite | apply canon_foldl | apply canon_foldl1
    | apply canon_foldl2 | split | dsimp only | apply canon_mk | apply State.Good.regs | apply State.Good.eff
    | apply State.Good.dram | apply State.Good.host | apply State.Good.pending | apply State.Good.cont
    | apply State.Good.whole | apply State.Good.chutes | apply State.Good.log | apply State.Good.same | apply State.Good.privs
    | apply State.Good.sram

theorem ackRegs_canon (s : State) (hs : s.Good rq) :
    (ackRegs s).Good rq := by
  unfold ackRegs
  repeat' with_reducible first
    | assumption | intro _ | apply State.wr_canon | apply canon_ite | split | dsimp only

theorem ackSeq_canon (s : State) (q : Nat) (hs : s.Good rq) :
    (ackSeq s q).1.Good rq := by
  unfold ackSeq
  repeat' with_reducible first
    | assumption | intro _ | exact logFits_map hs.log (fun e => apply_ite_fst _ _ _ rfl rfl) | apply ackRegs_canon
    | apply closeTags_canon | apply canon_ite | apply canon_ite1 | apply canon_ite2 | split | dsimp only | apply canon_mk
    | apply State.Good.regs | apply State.Good.eff | apply State.Good.dram | apply State.Good.host | apply State.Good.pending
    | apply State.Good.cont | apply State.Good.whole | apply State.Good.chutes | apply State.Good.log | apply State.Good.same
    | apply State.Good.privs
    | apply State.Good.sram

theorem ackSeqs_canon (s : State) (qs : List Nat) (hs : s.Good rq) :
    (ackSeqs s qs).1.Good rq := by
  unfold ackSeqs
  repeat' with_reducible first
    | assumption | intro _ | apply ackSeq_canon | apply canon_ite1 | apply canon_ite2 | apply canon_foldl | apply canon_foldl1
    | apply canon_foldl2 | split | dsimp only

theorem ackAll_canon (s : State) (hs : s.Good rq) :
    (ackAll s).1.Good rq := by
  unfold ackAll
  repeat' with_reducible first
    | assumption | intro _ | apply ackSeqs_canon | apply closeTags_canon | apply canon_ite1 | apply canon_ite2 | split
    | dsimp only

theorem ackResource_canon (s : State) (blk res : Nat) (hs : s.Good rq) :
    (ackResource s blk res).Good rq := by
  unfold ackResource
  repeat' with_reducible first
    | assumption | intro _ | apply ackSeqs_canon | apply closeTags_canon | apply canon_ite1 | apply canon_ite2 | split
    | dsimp only

theorem State.raiseRec_canon (s : State) (r : ErrRec) (hs : s.Good rq) : (s.raiseRec r).Good rq := by
  have h1 : (s.bump (F_ERR_B_COUNTS_RAISED r.blk)).Good rq := State.bump_canon _ hs
  unfold State.raiseRec
  dsimp only
  generalize s.bump (F_ERR_B_COUNTS_RAISED r.blk) = t at h1 ⊢
  by_cases hb : (t.err.chutes.getD r.blk []).length < 4
  · rw [if_pos hb]
    exact canon_mk h1.regs h1.eff h1.dram h1.host h1.pending h1.cont h1.whole (chutesFit_push h1.chutes hb) h1.log h1.same h1.privs h1.sram
  · rw [if_neg hb]
    repeat' with_reducible first
      | assumption | intro _ | apply State.bump_canon | apply enterContain_canon | apply openTag_canon | apply canon_ite | split
      | dsimp only | apply canon_mk | apply State.Good.regs | apply State.Good.eff | apply State.Good.dram | apply State.Good.host
      | apply State.Good.pending | apply State.Good.cont | apply State.Good.whole | apply State.Good.chutes | apply State.Good.log
      | apply State.Good.same | apply State.Good.privs | apply State.Good.sram

theorem State.raiseAt_canon (s : State) (ts blk typ cls resource detail : Nat) (master : Nat) (hs : s.Good rq) :
    (State.raiseAt s ts blk typ cls resource detail master).Good rq := by
  unfold State.raiseAt
  repeat' with_reducible first
    | assumption | intro _ | apply State.raiseRec_canon | split | dsimp only

theorem State.raise_canon (s : State) (blk typ cls resource detail : Nat) (master : Nat) (hs : s.Good rq) :
    (State.raise s blk typ cls resource detail master).Good rq := by
  unfold State.raise
  repeat' with_reducible first
    | assumption | intro _ | apply State.raiseAt_canon | split | dsimp only

end Sys2Proof.Machine
end

