-- ==== Sys2Proof/Laws/CanonClkOps.lean ====
section
/-!
SUPPORT. What Machine/ClkOps.lean defines keeps the canonical form of what is stored.
-/

namespace Sys2Proof.Machine

variable {rq : Kept}

theorem State.modClk_canon (s : State) (g : Clk → Clk) (hs : s.Good rq) :
    (State.modClk s g).Good rq := by
  unfold State.modClk
  repeat' with_reducible first
    | assumption | intro _ | split | dsimp only | apply canon_mk | apply State.Good.regs | apply State.Good.eff
    | apply State.Good.dram | apply State.Good.host | apply State.Good.pending | apply State.Good.cont
    | apply State.Good.whole | apply State.Good.chutes | apply State.Good.log | apply State.Good.same | apply State.Good.privs
    | apply State.Good.sram

theorem avsAck_canon (s : State) (hs : s.Good rq) :
    (avsAck s).Good rq := by
  unfold avsAck
  repeat' with_reducible first
    | assumption | intro _ | apply State.modClk_canon | apply State.wr_canon | refine canon_fst_of (by assumption) ?_
    | refine canon_snd_of (by assumption) ?_ | split | dsimp only | apply canon_mk | apply State.Good.regs
    | apply State.Good.eff | apply State.Good.dram | apply State.Good.host | apply State.Good.pending | apply State.Good.cont
    | apply State.Good.whole | apply State.Good.chutes | apply State.Good.log | apply State.Good.same | apply State.Good.privs
    | apply State.Good.sram

theorem avsWrite_canon (s : State) (mv : Nat) (hs : s.Good rq) :
    (avsWrite s mv).Good rq := by
  unfold avsWrite
  repeat' with_reducible first
    | assumption | intro _ | apply State.modClk_canon | apply State.wr_canon | apply avsAck_canon | apply canon_ite | split
    | dsimp only | apply canon_mk | apply State.Good.regs | apply State.Good.eff | apply State.Good.dram
    | apply State.Good.host | apply State.Good.pending | apply State.Good.cont | apply State.Good.whole
    | apply State.Good.chutes | apply State.Good.log | apply State.Good.same | apply State.Good.privs
    | apply State.Good.sram

theorem setKhz_canon (s : State) (p khz : Nat) (hs : s.Good rq) :
    (setKhz s p khz).Good rq := by
  unfold setKhz
  repeat' with_reducible first
    | assumption | intro _ | apply State.modClk_canon | apply State.wr_canon | apply State.wrs_canon | apply canon_ite
    | refine canon_fst_of (by assumption) ?_ | refine canon_snd_of (by assumption) ?_ | split | dsimp only | apply canon_mk
    | apply State.Good.regs | apply State.Good.eff | apply State.Good.dram | apply State.Good.host | apply State.Good.pending
    | apply State.Good.cont | apply State.Good.whole | apply State.Good.chutes | apply State.Good.log | apply State.Good.same
    | apply State.Good.privs
    | apply State.Good.sram

theorem mpllTo_canon (s : State) (khz : Nat) (hs : s.Good rq) :
    (mpllTo s khz).Good rq := by
  unfold mpllTo
  repeat' with_reducible first
    | assumption | intro _ | apply State.applyRegs_canon | apply setKhz_canon | split | dsimp only

theorem freqSettled_canon (s : State) (p start : Nat) (hs : s.Good rq) :
    (freqSettled s p start).Good rq := by
  unfold freqSettled
  repeat' with_reducible first
    | assumption | intro _ | apply State.modClk_canon | apply State.wake_canon | apply State.wr_canon | split | dsimp only
    | apply canon_mk | apply State.Good.regs | apply State.Good.eff | apply State.Good.dram | apply State.Good.host
    | apply State.Good.pending | apply State.Good.cont | apply State.Good.whole | apply State.Good.chutes
    | apply State.Good.log | apply State.Good.same | apply State.Good.privs
    | apply State.Good.sram

theorem setFreq_canon (s : State) (p mhz0 : Nat) (hs : s.Good rq) :
    (setFreq s p mhz0).Good rq := by
  unfold setFreq
  repeat' with_reducible first
    | assumption | intro _ | apply State.applyRegs_canon | apply State.bump_canon | apply State.modClk_canon
    | apply State.wr_canon | apply avsWrite_canon | apply freqSettled_canon | apply setKhz_canon | apply canon_ite | split
    | dsimp only | apply canon_mk | apply State.Good.regs | apply State.Good.eff | apply State.Good.dram
    | apply State.Good.host | apply State.Good.pending | apply State.Good.cont | apply State.Good.whole
    | apply State.Good.chutes | apply State.Good.log | apply State.Good.same | apply State.Good.privs
    | apply State.Good.sram

theorem glideStep_canon (s : State) (p : Nat) (g : Glide) (hs : s.Good rq) :
    (glideStep s p g).Good rq := by
  unfold glideStep
  repeat' with_reducible first
    | assumption | intro _ | apply State.bump_canon | apply State.modClk_canon | apply avsAck_canon | apply avsWrite_canon
    | apply freqSettled_canon | apply setKhz_canon | apply canon_ite | split | dsimp only | apply canon_mk
    | apply State.Good.regs | apply State.Good.eff | apply State.Good.dram | apply State.Good.host | apply State.Good.pending
    | apply State.Good.cont | apply State.Good.whole | apply State.Good.chutes | apply State.Good.log | apply State.Good.same
    | apply State.Good.privs
    | apply State.Good.sram

theorem fclkForTrg_canon (s : State) (hs : s.Good rq) :
    (fclkForTrg s).Good rq := by
  unfold fclkForTrg
  repeat' with_reducible first
    | assumption | intro _ | apply State.modClk_canon | apply State.wr_canon | apply setFreq_canon | apply canon_ite | split
    | dsimp only | apply canon_mk | apply State.Good.regs | apply State.Good.eff | apply State.Good.dram
    | apply State.Good.host | apply State.Good.pending | apply State.Good.cont | apply State.Good.whole
    | apply State.Good.chutes | apply State.Good.log | apply State.Good.same | apply State.Good.privs
    | apply State.Good.sram

theorem fclkDeferred_canon (s : State) (hs : s.Good rq) :
    (fclkDeferred s).Good rq := by
  unfold fclkDeferred
  repeat' with_reducible first
    | assumption | intro _ | apply State.modClk_canon | apply State.wr_canon | apply setFreq_canon
    | refine canon_fst_of (by assumption) ?_ | refine canon_snd_of (by assumption) ?_ | split | dsimp only | apply canon_mk
    | apply State.Good.regs | apply State.Good.eff | apply State.Good.dram | apply State.Good.host | apply State.Good.pending
    | apply State.Good.cont | apply State.Good.whole | apply State.Good.chutes | apply State.Good.log | apply State.Good.same
    | apply State.Good.privs
    | apply State.Good.sram

theorem crefPin_canon (s : State) (hs : s.Good rq) :
    (crefPin s).Good rq := by
  unfold crefPin
  repeat' with_reducible first
    | assumption | intro _ | split | dsimp only | apply canon_mk | apply State.Good.regs | apply State.Good.eff
    | apply State.Good.dram | apply State.Good.host | apply State.Good.pending | apply State.Good.cont
    | apply State.Good.whole | apply State.Good.chutes | apply State.Good.log | apply State.Good.same | apply State.Good.privs
    | apply State.Good.sram

theorem ppsPin_canon (s : State) (hs : s.Good rq) :
    (ppsPin s).Good rq := by
  unfold ppsPin
  repeat' with_reducible first
    | assumption | intro _ | apply canon_ite | split | dsimp only | apply canon_mk | apply State.Good.regs
    | apply State.Good.eff | apply State.Good.dram | apply State.Good.host | apply State.Good.pending | apply State.Good.cont
    | apply State.Good.whole | apply State.Good.chutes | apply State.Good.log | apply State.Good.same | apply State.Good.privs
    | apply State.Good.sram

theorem trigQuiet_canon (s : State) (hs : s.Good rq) :
    (trigQuiet s).Good rq := by
  unfold trigQuiet
  repeat' with_reducible first
    | assumption | intro _ | apply canon_ite | split | dsimp only | apply canon_mk | apply State.Good.regs
    | apply State.Good.eff | apply State.Good.dram | apply State.Good.host | apply State.Good.pending | apply State.Good.cont
    | apply State.Good.whole | apply State.Good.chutes | apply State.Good.log | apply State.Good.same | apply State.Good.privs
    | apply State.Good.sram

theorem psStart_canon (s : State) (w : PsWant) (hs : s.Good rq) :
    (psStart s w).Good rq := by
  unfold psStart
  repeat' with_reducible first
    | assumption | intro _ | apply State.bump_canon | apply State.modClk_canon | apply State.setDom_canon
    | apply State.wr_canon | apply State.wrs_canon | apply trigQuiet_canon | apply canon_ite | split | dsimp only
    | apply canon_mk | apply State.Good.regs | apply State.Good.eff | apply State.Good.dram | apply State.Good.host
    | apply State.Good.pending | apply State.Good.cont | apply State.Good.whole | apply State.Good.chutes
    | apply State.Good.log | apply State.Good.same | apply State.Good.privs
    | apply State.Good.sram

theorem latchWant_canon (s : State) (w : PsWant) (hs : s.Good rq) :
    (latchWant s w).Good rq := by
  unfold latchWant
  repeat' with_reducible first
    | assumption | intro _ | apply State.finish_canon | apply State.modClk_canon | refine canon_fst_of (by assumption) ?_
    | refine canon_snd_of (by assumption) ?_ | split | dsimp only | apply canon_mk | apply State.Good.regs
    | apply State.Good.eff | apply State.Good.dram | apply State.Good.host | apply State.Good.pending | apply State.Good.cont
    | apply State.Good.whole | apply State.Good.chutes | apply State.Good.log | apply State.Good.same | apply State.Good.privs
    | apply State.Good.sram

theorem recordStart_canon (s : State) (hs : s.Good rq) :
    (recordStart s).Good rq := by
  unfold recordStart
  repeat' with_reducible first
    | assumption | intro _ | apply psStart_canon | apply canon_ite | refine canon_fst_of (by assumption) ?_
    | refine canon_snd_of (by assumption) ?_ | split | dsimp only | apply canon_mk | apply State.Good.regs
    | apply State.Good.eff | apply State.Good.dram | apply State.Good.host | apply State.Good.pending | apply State.Good.cont
    | apply State.Good.whole | apply State.Good.chutes | apply State.Good.log | apply State.Good.same | apply State.Good.privs
    | apply State.Good.sram

theorem askRecord_canon (s : State) (cause : Nat) (hs : s.Good rq) :
    (askRecord s cause).Good rq := by
  unfold askRecord
  repeat' with_reducible first
    | assumption | intro _ | apply latchWant_canon | apply recordStart_canon | apply canon_ite
    | refine canon_fst_of (by assumption) ?_ | refine canon_snd_of (by assumption) ?_ | split | dsimp only | apply canon_mk
    | apply State.Good.regs | apply State.Good.eff | apply State.Good.dram | apply State.Good.host | apply State.Good.pending
    | apply State.Good.cont | apply State.Good.whole | apply State.Good.chutes | apply State.Good.log | apply State.Good.same
    | apply State.Good.privs
    | apply State.Good.sram

end Sys2Proof.Machine
end

