-- ==== Sys2Proof/Laws/CanonAccess.lean ====
section
/-!
SUPPORT. What Machine/Access.lean defines keeps the canonical form of what is stored.
-/

namespace Sys2Proof.Machine

variable {rq : Kept}

theorem hostSleep_canon (s : State) (hs : s.Good rq) :
    (hostSleep s).Good rq := by
  unfold hostSleep
  repeat' with_reducible first
    | assumption | intro _ | apply State.setDom_canon | apply State.wrB_canon | split | dsimp only

theorem hostWake_canon (s : State) (hs : s.Good rq) :
    (hostWake s).Good rq := by
  unfold hostWake
  repeat' with_reducible first
    | assumption | intro _ | apply State.setDom_canon | apply State.wr_canon | split | dsimp only

theorem hostAccess_canon (s : State) (hs : s.Good rq) :
    (hostAccess s).Good rq := by
  unfold hostAccess
  repeat' with_reducible first
    | assumption | intro _ | apply State.modClk_canon | apply State.wr_canon | apply hostWake_canon | apply setKhz_canon
    | apply canon_ite | split | dsimp only | apply canon_mk | apply State.Good.regs | apply State.Good.eff
    | apply State.Good.dram | apply State.Good.host | apply State.Good.pending | apply State.Good.cont
    | apply State.Good.whole | apply State.Good.chutes | apply State.Good.log | apply State.Good.same | apply State.Good.privs
    | apply State.Good.sram

theorem violation_canon (s : State) (addr m : Nat) (hs : s.Good rq) :
    (violation s addr m).Good rq := by
  unfold violation
  repeat' with_reducible first
    | assumption | intro _ | apply State.raise_canon | split | dsimp only

theorem denyWrite_canon (s : State) (f a : Nat) (hs : s.Good rq) :
    (denyWrite s f a).Good rq := by
  unfold denyWrite
  repeat' with_reducible first
    | assumption | intro _ | apply State.bump_canon | apply State.modFn_canon | apply State.postEvent_canon
    | apply State.raise_canon | apply State.wrs_canon | apply canon_ite | refine canon_fst_of (by assumption) ?_
    | refine canon_snd_of (by assumption) ?_ | split | dsimp only | apply canon_mk | apply State.Good.regs
    | apply State.Good.eff | apply State.Good.dram | apply State.Good.host | apply State.Good.pending | apply State.Good.cont
    | apply State.Good.whole | apply State.Good.chutes | apply State.Good.log | apply State.Good.same | apply State.Good.privs
    | apply State.Good.sram

theorem State.writeBy_canon (s : State) (m a : Nat) (f : State → State) (hs : s.Good rq) (hf : ∀ t, t.Good rq → (f t).Good rq) :
    (State.writeBy s m a f).Good rq := by
  unfold State.writeBy
  repeat' with_reducible first
    | assumption | intro _ | apply hf | apply State.gated_canon | apply denyWrite_canon | apply hostAccess_canon
    | apply violation_canon | apply canon_ite | split | dsimp only

theorem setLock_canon (s : State) (n m : Nat) (hs : s.Good rq) :
    (setLock s n m).Good rq := by
  unfold setLock
  repeat' with_reducible first
    | assumption | intro _ | apply State.wrs_canon | apply canon_ite | split | dsimp only

theorem lockForce_canon (s : State) (cause n : Nat) (hs : s.Good rq) :
    (lockForce s cause n).Good rq := by
  unfold lockForce
  repeat' with_reducible first
    | assumption | intro _ | apply State.bump_canon | apply State.postEvent_canon | apply State.raise_canon
    | apply State.wr_canon | apply setLock_canon | apply canon_ite | split | dsimp only

theorem lockForceOf_canon (s : State) (cause : Nat) (p : Nat → Bool) (hs : s.Good rq) :
    (lockForceOf s cause p).Good rq := by
  unfold lockForceOf
  repeat' with_reducible first
    | assumption | intro _ | apply lockForce_canon | apply canon_ite | apply canon_foldl | apply canon_foldl1
    | apply canon_foldl2 | split | dsimp only

end Sys2Proof.Machine
end

