-- ==== Sys2Proof/Laws/CanonRegWrite.lean ====
section
/-!
SUPPORT. What Machine/RegWrite.lean defines keeps the canonical form of what is stored.
-/

namespace Sys2Proof.Machine

variable {rq : Kept}

theorem fieldWrite_canon (s : State) (a : Nat) (run : Bool) (f : FieldRow) (v : Nat) (hs : s.Good rq) :
    (fieldWrite s a run f v).1.Good rq := by
  unfold fieldWrite
  repeat' with_reducible first
    | assumption | intro _ | apply State.wr_canon | apply canon_ite | apply canon_ite1
    | refine canon_fst_of (by assumption) ?_ | refine canon_snd_of (by assumption) ?_ | split | dsimp only | apply canon_mk
    | apply State.Good.regs | apply State.Good.eff | apply State.Good.dram | apply State.Good.host | apply State.Good.pending
    | apply State.Good.cont | apply State.Good.whole | apply State.Good.chutes | apply State.Good.log | apply State.Good.same
    | apply State.Good.privs
    | apply State.Good.sram

theorem fieldsWrite_canon (a : Nat) (run : Bool) (v : Nat) (l : List FieldRow) (s : State) (hs : s.Good rq) :
    (fieldsWrite a run v l s).1.Good rq := by
  induction l generalizing s with
  | nil => exact hs
  | cons f l ih => exact ih _ (fieldWrite_canon s a run f v hs)

theorem plainWrite_canon (s : State) (a : Nat) (run : Bool) (flag : Fld) (v : Nat) (keep : FieldRow → Bool) (hs : s.Good rq) :
    (plainWrite s a run flag v keep).Good rq := by
  unfold plainWrite
  repeat' with_reducible first
    | assumption | intro _ | apply State.wr_canon | apply fieldsWrite_canon | apply canon_ite | apply canon_ite1
    | apply canon_ite2 | refine canon_fst_of (by assumption) ?_ | refine canon_snd_of (by assumption) ?_ | split | dsimp only
    | apply canon_mk | apply State.Good.regs | apply State.Good.eff | apply State.Good.dram | apply State.Good.host
    | apply State.Good.pending | apply State.Good.cont | apply State.Good.whole | apply State.Good.chutes
    | apply State.Good.log | apply State.Good.same | apply State.Good.privs
    | apply State.Good.sram

end Sys2Proof.Machine
end

