-- ==== Sys2Proof/Laws/CanonJin.lean ====
section
/-!
SUPPORT. What Machine/Jin.lean defines keeps the canonical form of what is stored.
-/

namespace Sys2Proof.Machine

variable {rq : Kept}

theorem jinDerive_canon (s : State) (hs : s.Good rq) :
    (jinDerive s).Good rq := by
  unfold jinDerive
  repeat' with_reducible first
    | assumption | intro _ | apply State.wr_canon | split | dsimp only

theorem orderFlag_canon (s : State) (k : Nat) (hs : s.Good rq) :
    (orderFlag s k).Good rq := by
  unfold orderFlag
  repeat' with_reducible first
    | assumption | intro _ | apply State.wrB_canon | split | dsimp only

theorem State.modLane_canon (s : State) (l : Nat) (g : Lane → Lane) (hs : s.Good rq) :
    (State.modLane s l g).Good rq := by
  unfold State.modLane
  repeat' with_reducible first
    | assumption | intro _ | split | dsimp only | apply canon_mk | apply State.Good.regs | apply State.Good.eff
    | apply State.Good.dram | apply State.Good.host | apply State.Good.pending | apply State.Good.cont
    | apply State.Good.whole | apply State.Good.chutes | apply State.Good.log | apply State.Good.same | apply State.Good.privs
    | apply State.Good.sram

theorem State.modLink_canon (s : State) (k : Nat) (g : Link → Link) (hs : s.Good rq) :
    (State.modLink s k g).Good rq := by
  unfold State.modLink
  repeat' with_reducible first
    | assumption | intro _ | split | dsimp only | apply canon_mk | apply State.Good.regs | apply State.Good.eff
    | apply State.Good.dram | apply State.Good.host | apply State.Good.pending | apply State.Good.cont
    | apply State.Good.whole | apply State.Good.chutes | apply State.Good.log | apply State.Good.same | apply State.Good.privs
    | apply State.Good.sram

theorem embCount_canon (s : State) (hs : s.Good rq) :
    (embCount s).Good rq := by
  unfold embCount
  repeat' with_reducible first
    | assumption | intro _ | apply State.wr64_canon | split | dsimp only

theorem lemcAlign_canon (s : State) (t : Nat) (hs : s.Good rq) :
    (lemcAlign s t).Good rq := by
  unfold lemcAlign
  repeat' with_reducible first
    | assumption | intro _ | apply State.modLink_canon | apply State.wr_canon | apply embCount_canon | apply canon_foldl
    | apply canon_foldl1 | apply canon_foldl2 | split | dsimp only | apply canon_mk | apply State.Good.regs
    | apply State.Good.eff | apply State.Good.dram | apply State.Good.host | apply State.Good.pending
    | apply State.Good.cont | apply State.Good.whole | apply State.Good.chutes | apply State.Good.log
    | apply State.Good.same | apply State.Good.privs | apply State.Good.sram

theorem jinArm_canon (s : State) (t : Nat) (hs : s.Good rq) :
    (jinArm s t).Good rq := by
  unfold jinArm
  repeat' with_reducible first
    | assumption | intro _ | apply State.applyRegs_canon | apply State.modLink_canon | apply State.wr_canon
    | apply State.wrTs_canon | apply canon_foldl | apply canon_foldl1 | apply canon_foldl2 | split | dsimp only
    | apply canon_mk | apply State.Good.regs | apply State.Good.eff | apply State.Good.dram | apply State.Good.host
    | apply State.Good.pending | apply State.Good.cont | apply State.Good.whole | apply State.Good.chutes
    | apply State.Good.log | apply State.Good.same | apply State.Good.privs
    | apply State.Good.sram

theorem jinDisarm_canon (s : State) (hs : s.Good rq) :
    (jinDisarm s).Good rq := by
  unfold jinDisarm
  repeat' with_reducible first
    | assumption | intro _ | apply State.wr_canon | split | dsimp only | apply canon_mk | apply State.Good.regs
    | apply State.Good.eff | apply State.Good.dram | apply State.Good.host | apply State.Good.pending | apply State.Good.cont
    | apply State.Good.whole | apply State.Good.chutes | apply State.Good.log | apply State.Good.same | apply State.Good.privs
    | apply State.Good.sram

theorem linkDown_canon (s : State) (k : Nat) (hs : s.Good rq) :
    (linkDown s k).Good rq := by
  unfold linkDown
  repeat' with_reducible first
    | assumption | intro _ | apply State.bump_canon | apply State.modLink_canon | apply State.wr_canon | apply State.wrs_canon
    | apply canon_ite | split | dsimp only | apply canon_mk | apply State.Good.regs | apply State.Good.eff
    | apply State.Good.dram | apply State.Good.host | apply State.Good.pending | apply State.Good.cont
    | apply State.Good.whole | apply State.Good.chutes | apply State.Good.log | apply State.Good.same | apply State.Good.privs
    | apply State.Good.sram

theorem linkUp_canon (s : State) (k : Nat) (hs : s.Good rq) :
    (linkUp s k).Good rq := by
  unfold linkUp
  repeat' with_reducible first
    | assumption | intro _ | apply State.wr_canon | split | dsimp only

theorem dropEmb_canon (s : State) (l : Nat) (hs : s.Good rq) :
    (dropEmb s l).Good rq := by
  unfold dropEmb
  repeat' with_reducible first
    | assumption | intro _ | apply State.modLane_canon | apply State.wr_canon | split | dsimp only | apply canon_mk
    | apply State.Good.regs | apply State.Good.eff | apply State.Good.dram | apply State.Good.host | apply State.Good.pending
    | apply State.Good.cont | apply State.Good.whole | apply State.Good.chutes | apply State.Good.log | apply State.Good.same
    | apply State.Good.privs
    | apply State.Good.sram

theorem dropLink_canon (s : State) (k : Nat) (hs : s.Good rq) :
    (dropLink s k).Good rq := by
  unfold dropLink
  repeat' with_reducible first
    | assumption | intro _ | apply dropEmb_canon | apply linkDown_canon | apply canon_foldl | apply canon_foldl1
    | apply canon_foldl2 | split | dsimp only

theorem laneLoss_canon (s : State) (l : Nat) (what : LaneLock) (hs : s.Good rq) :
    (laneLoss s l what).Good rq := by
  unfold laneLoss
  repeat' with_reducible first
    | assumption | intro _ | apply State.modLane_canon | apply State.raiseAt_canon | apply State.wr_canon
    | apply dropEmb_canon | apply linkDown_canon | apply canon_ite | refine canon_fst_of (by assumption) ?_
    | refine canon_snd_of (by assumption) ?_ | split | dsimp only | apply canon_mk | apply State.Good.regs
    | apply State.Good.eff | apply State.Good.dram | apply State.Good.host | apply State.Good.pending | apply State.Good.cont
    | apply State.Good.whole | apply State.Good.chutes | apply State.Good.log | apply State.Good.same | apply State.Good.privs
    | apply State.Good.sram

theorem startCheck_canon (s : State) (hs : s.Good rq) :
    (startCheck s).Good rq := by
  unfold startCheck
  repeat' with_reducible first
    | assumption | intro _ | apply State.wakeKind_canon | apply canon_ite | split | dsimp only

theorem jinStop_canon (s : State) (hs : s.Good rq) :
    (jinStop s).Good rq := by
  unfold jinStop
  repeat' with_reducible first
    | assumption | intro _ | apply State.wr_canon | apply canon_foldl | apply canon_foldl1 | apply canon_foldl2
    | apply embCount_canon | split | dsimp only | apply canon_mk | apply State.Good.regs | apply State.Good.eff
    | apply State.Good.dram | apply State.Good.host | apply State.Good.pending | apply State.Good.cont
    | apply State.Good.whole | apply State.Good.chutes | apply State.Good.log | apply State.Good.same
    | apply State.Good.privs | apply State.Good.sram

theorem linkTry_canon (s : State) (k : Nat) (hs : s.Good rq) :
    (linkTry s k).Good rq := by
  unfold linkTry
  repeat' with_reducible first
    | assumption | intro _ | apply State.modLink_canon | apply State.raiseAt_canon | apply State.wr_canon
    | apply linkDown_canon | apply linkUp_canon | apply startCheck_canon | apply canon_ite
    | refine canon_fst_of (by assumption) ?_ | refine canon_snd_of (by assumption) ?_ | apply canon_ite1 | apply canon_ite2
    | apply canon_foldl | apply canon_foldl1 | apply canon_foldl2 | split | dsimp only | apply canon_mk
    | apply State.Good.regs | apply State.Good.eff | apply State.Good.dram | apply State.Good.host
    | apply State.Good.pending | apply State.Good.cont | apply State.Good.whole | apply State.Good.chutes
    | apply State.Good.log | apply State.Good.same | apply State.Good.privs | apply State.Good.sram

theorem autoRbd_canon (s : State) (hs : s.Good rq) :
    (autoRbd s).Good rq := by
  unfold autoRbd
  repeat' with_reducible first
    | assumption | intro _ | apply State.wakeKind_canon | apply State.wr_canon | apply jinStop_canon | apply canon_ite | split
    | dsimp only | apply canon_mk | apply State.Good.regs | apply State.Good.eff | apply State.Good.dram
    | apply State.Good.host | apply State.Good.pending | apply State.Good.cont | apply State.Good.whole
    | apply State.Good.chutes | apply State.Good.log | apply State.Good.same | apply State.Good.privs
    | apply State.Good.sram

theorem sysrefApplyIfIdle_canon (s : State) (hs : s.Good rq) :
    (sysrefApplyIfIdle s).Good rq := by
  unfold sysrefApplyIfIdle
  repeat' with_reducible first
    | assumption | intro _ | apply State.applyRegs_canon | apply canon_ite | split | dsimp only | apply canon_mk
    | apply State.Good.regs | apply State.Good.eff | apply State.Good.dram | apply State.Good.host | apply State.Good.pending
    | apply State.Good.cont | apply State.Good.whole | apply State.Good.chutes | apply State.Good.log | apply State.Good.same
    | apply State.Good.privs
    | apply State.Good.sram

theorem sysrefGo_canon (s : State) (hs : s.Good rq) :
    (sysrefGo s).Good rq := by
  unfold sysrefGo
  repeat' with_reducible first
    | assumption | intro _ | apply canon_ite | refine canon_fst_of (by assumption) ?_ | refine canon_snd_of (by assumption) ?_
    | split | dsimp only | apply canon_mk | apply State.Good.regs | apply State.Good.eff | apply State.Good.dram
    | apply State.Good.host | apply State.Good.pending | apply State.Good.cont | apply State.Good.whole
    | apply State.Good.chutes | apply State.Good.log | apply State.Good.same | apply State.Good.privs
    | apply State.Good.sram

theorem sysrefCut_canon (s : State) (hs : s.Good rq) :
    (sysrefCut s).Good rq := by
  unfold sysrefCut
  repeat' with_reducible first
    | assumption | intro _ | split | dsimp only | apply canon_mk | apply State.Good.regs | apply State.Good.eff
    | apply State.Good.dram | apply State.Good.host | apply State.Good.pending | apply State.Good.cont
    | apply State.Good.whole | apply State.Good.chutes | apply State.Good.log | apply State.Good.same
    | apply State.Good.privs | apply State.Good.sram

theorem execIntakeConfig_canon (p : Packet) (s : State) (hs : s.Good rq) :
    OutGood rq (execIntakeConfig p s) := by
  unfold execIntakeConfig
  repeat' with_reducible first
    | assumption | intro _ | apply State.wr_canon | apply State.wrs_canon | apply autoRbd_canon | apply fOk_canon
    | apply fcpStep_canon | apply jinDerive_canon | apply orderFlag_canon | apply canon_next | apply canon_iteO
    | apply canon_iteF | apply canon_final | apply canon_wait | apply canon_pend | apply canon_foldl | apply canon_foldl1
    | apply canon_foldl2 | split | dsimp only | apply canon_mk | apply State.Good.regs | apply State.Good.eff
    | apply State.Good.dram | apply State.Good.host | apply State.Good.pending | apply State.Good.cont
    | apply State.Good.whole | apply State.Good.chutes | apply State.Good.log | apply State.Good.same | apply State.Good.privs
    | apply State.Good.sram

theorem execIntakeLink_canon (p : Packet) (s : State) (hs : s.Good rq) :
    OutGood rq (execIntakeLink p s) := by
  unfold execIntakeLink
  repeat' with_reducible first
    | assumption | intro _ | apply State.wr_canon | apply State.wrs_canon | apply fOk_canon | apply fcpStep_canon
    | apply orderFlag_canon | apply canon_next | apply canon_iteO | apply canon_iteF | apply canon_final | apply canon_wait
    | apply canon_pend | apply canon_ite | split | dsimp only

theorem jinStart_canon (s : State) (hs : s.Good rq) :
    (jinStart s).Good rq := by
  unfold jinStart
  repeat' with_reducible first
    | assumption | intro _ | apply State.wr_canon | apply canon_foldl | apply canon_foldl1 | apply canon_foldl2 | split
    | dsimp only | apply canon_mk | apply State.Good.regs | apply State.Good.eff | apply State.Good.dram
    | apply State.Good.host | apply State.Good.pending | apply State.Good.cont | apply State.Good.whole
    | apply State.Good.chutes | apply State.Good.log | apply State.Good.same | apply State.Good.privs
    | apply State.Good.sram

theorem execIntakeStart_canon (p : Packet) (s : State) (hs : s.Good rq) :
    OutGood rq (execIntakeStart p s) := by
  unfold execIntakeStart
  repeat' with_reducible first
    | assumption | intro _ | apply fcpStep_canon | apply jinStart_canon | apply sysrefGo_canon | apply canon_next
    | apply canon_iteO | apply canon_iteF | apply canon_final | apply canon_wait | apply canon_pend | apply canon_ite | split
    | dsimp only

theorem execIntakeStop_canon (p : Packet) (s : State) (hs : s.Good rq) :
    OutGood rq (execIntakeStop p s) := by
  unfold execIntakeStop
  repeat' with_reducible first
    | assumption | intro _ | apply fOk_canon | apply fcpStep_canon | apply jinStop_canon | apply canon_next | apply canon_iteO
    | apply canon_iteF | apply canon_final | apply canon_wait | apply canon_pend | split | dsimp only

theorem execIntakeStatus_canon (p : Packet) (s : State) (hs : s.Good rq) :
    OutGood rq (execIntakeStatus p s) := by
  unfold execIntakeStatus
  repeat' with_reducible first
    | assumption | intro _ | apply State.zeroFields_canon | apply fcpStep_canon | apply canon_next | apply canon_iteO
    | apply canon_iteF | apply canon_final | apply canon_wait | apply canon_pend | apply canon_ite | split | dsimp only

theorem execSysrefSet_canon (p : Packet) (s : State) (hs : s.Good rq) :
    OutGood rq (execSysrefSet p s) := by
  unfold execSysrefSet
  repeat' with_reducible first
    | assumption | intro _ | apply State.wrs_canon | apply fOk_canon | apply fcpStep_canon | apply sysrefApplyIfIdle_canon
    | apply sysrefGo_canon | apply canon_next | apply canon_iteO | apply canon_iteF | apply canon_final | apply canon_wait
    | apply canon_pend | apply canon_ite | split | dsimp only

theorem execLaneTest_canon (p : Packet) (s : State) (hs : s.Good rq) :
    OutGood rq (execLaneTest p s) := by
  unfold execLaneTest
  repeat' with_reducible first
    | assumption | intro _ | apply State.wr_canon | apply fcpStep_canon | apply canon_next | apply canon_iteO
    | apply canon_iteF | apply canon_final | apply canon_wait | apply canon_pend | split | dsimp only | apply canon_mk
    | apply State.Good.regs | apply State.Good.eff | apply State.Good.dram | apply State.Good.host | apply State.Good.pending
    | apply State.Good.cont | apply State.Good.whole | apply State.Good.chutes | apply State.Good.log | apply State.Good.same
    | apply State.Good.privs
    | apply State.Good.sram

theorem execLaneTestEnd_canon (errs : List Nat) (unlocked : Nat) (s : State) (hs : s.Good rq) :
    OutGood rq (execLaneTestEnd errs unlocked s) := by
  unfold execLaneTestEnd
  repeat' with_reducible first
    | assumption | intro _ | apply State.bumpBy_canon | apply State.wake_canon | apply State.wr_canon | apply canon_next
    | apply canon_iteO | apply canon_ite | apply canon_foldl | apply canon_foldl1 | apply canon_foldl2 | split | dsimp only
    | apply canon_mk | apply State.Good.regs | apply State.Good.eff | apply State.Good.dram | apply State.Good.host
    | apply State.Good.pending | apply State.Good.cont | apply State.Good.whole | apply State.Good.chutes
    | apply State.Good.log | apply State.Good.same | apply State.Good.privs
    | apply State.Good.sram

theorem cspiData_canon (s : State) (bs : List Byte) (hs : s.Good rq) :
    (cspiData s bs).Good rq := by
  unfold cspiData
  repeat' with_reducible first
    | assumption | intro _ | apply State.setReg_canon | apply canon_foldl | apply canon_foldl1 | apply canon_foldl2 | split
    | dsimp only

theorem cspiStart_canon (s : State) (hs : s.Good rq) :
    (cspiStart s).Good rq := by
  unfold cspiStart
  repeat' with_reducible first
    | assumption | intro _ | apply State.setReg_canon | apply State.wrs_canon | apply canon_ite | apply canon_foldl
    | apply canon_foldl1 | apply canon_foldl2 | refine canon_fst_of (by assumption) ?_
    | refine canon_snd_of (by assumption) ?_ | apply cspiData_canon | apply canon_ite1 | apply canon_ite2 | split
    | dsimp only | apply canon_mk | apply State.Good.regs | apply State.Good.eff | apply State.Good.dram
    | apply State.Good.host | apply State.Good.pending | apply State.Good.cont | apply State.Good.whole
    | apply State.Good.chutes | apply State.Good.log | apply State.Good.same | apply State.Good.privs
    | apply State.Good.sram

theorem execCspiXfer_canon (p : Packet) (s : State) (hs : s.Good rq) :
    OutGood rq (execCspiXfer p s) := by
  unfold execCspiXfer
  repeat' with_reducible first
    | assumption | intro _ | apply cspiStart_canon | apply fcpStep_canon | apply canon_next | apply canon_iteO
    | apply canon_iteF | apply canon_final | apply canon_wait | apply canon_pend | split | dsimp only | apply canon_mk
    | apply State.Good.regs | apply State.Good.eff | apply State.Good.dram | apply State.Good.host | apply State.Good.pending
    | apply State.Good.cont | apply State.Good.whole | apply State.Good.chutes | apply State.Good.log | apply State.Good.same
    | apply State.Good.privs
    | apply State.Good.sram

theorem cspiGo_canon (s : State) (hs : s.Good rq) :
    (cspiGo s).Good rq := by
  unfold cspiGo
  repeat' with_reducible first
    | assumption | intro _ | apply cspiStart_canon | apply canon_ite | split | dsimp only | apply canon_mk
    | apply State.Good.regs | apply State.Good.eff | apply State.Good.dram | apply State.Good.host | apply State.Good.pending
    | apply State.Good.cont | apply State.Good.whole | apply State.Good.chutes | apply State.Good.log | apply State.Good.same
    | apply State.Good.privs
    | apply State.Good.sram

theorem execCspiTransferDone_canon (miso : List Byte) (s : State) (hs : s.Good rq) :
    OutGood rq (execCspiTransferDone miso s) := by
  unfold execCspiTransferDone
  repeat' with_reducible first
    | assumption | intro _ | apply State.finishAll_canon | apply State.setReg_canon | apply State.wr_canon
    | apply cspiStart_canon | apply canon_next | apply canon_iteO | apply canon_ite | apply canon_foldl | apply canon_foldl1
    | apply canon_foldl2 | refine canon_fst_of (by assumption) ?_ | refine canon_snd_of (by assumption) ?_
    | apply cspiData_canon | apply canon_ite1 | apply canon_ite2 | split | dsimp only | apply canon_mk
    | apply State.Good.regs | apply State.Good.eff | apply State.Good.dram | apply State.Good.host
    | apply State.Good.pending | apply State.Good.cont | apply State.Good.whole | apply State.Good.chutes
    | apply State.Good.log | apply State.Good.same | apply State.Good.privs | apply State.Good.sram

theorem jinClr_canon (s : State) (hs : s.Good rq) :
    (jinClr s).Good rq := by
  unfold jinClr
  repeat' with_reducible first
    | assumption | intro _ | apply State.zeroFields_canon | split | dsimp only

theorem jinCtrlWrite_canon (v : Nat) (s : State) (hs : s.Good rq) :
    (jinCtrlWrite v s).Good rq := by
  unfold jinCtrlWrite
  repeat' with_reducible first
    | assumption | intro _ | apply State.wr_canon | apply jinClr_canon | apply jinStart_canon | apply jinStop_canon
    | apply canon_ite | split | dsimp only

theorem cspiCtrlWrite_canon (v : Nat) (s : State) (hs : s.Good rq) :
    (cspiCtrlWrite v s).Good rq := by
  unfold cspiCtrlWrite
  repeat' with_reducible first
    | assumption | intro _ | apply cspiGo_canon | apply plainWrite_canon | apply canon_ite | split | dsimp only

theorem sysrefIssueWrite_canon (v : Nat) (s : State) (hs : s.Good rq) :
    (sysrefIssueWrite v s).Good rq := by
  unfold sysrefIssueWrite
  repeat' with_reducible first
    | assumption | intro _ | apply sysrefGo_canon | apply canon_ite | split | dsimp only

theorem execJinRunWrite_canon (m : Nat) (v : Word) (s : State) (hs : s.Good rq) :
    OutGood rq (execJinRunWrite m v s) := by
  unfold execJinRunWrite
  repeat' with_reducible first
    | assumption | intro _ | apply State.writeBy_canon | apply jinCtrlWrite_canon | apply canon_next | apply canon_iteO
    | split | dsimp only

theorem execJinClrCounters_canon (m : Nat) (v : Word) (s : State) (hs : s.Good rq) :
    OutGood rq (execJinClrCounters m v s) := by
  unfold execJinClrCounters
  repeat' with_reducible first
    | assumption | intro _ | apply State.writeBy_canon | apply jinCtrlWrite_canon | apply canon_next | apply canon_iteO
    | split | dsimp only

theorem execSysrefIssueGo_canon (m : Nat) (v : Word) (s : State) (hs : s.Good rq) :
    OutGood rq (execSysrefIssueGo m v s) := by
  unfold execSysrefIssueGo
  repeat' with_reducible first
    | assumption | intro _ | apply State.writeBy_canon | apply sysrefIssueWrite_canon | apply canon_next | apply canon_iteO
    | split | dsimp only

theorem execCspiGo_canon (m : Nat) (v : Word) (s : State) (hs : s.Good rq) :
    OutGood rq (execCspiGo m v s) := by
  unfold execCspiGo
  repeat' with_reducible first
    | assumption | intro _ | apply State.writeBy_canon | apply cspiCtrlWrite_canon | apply canon_next | apply canon_iteO
    | split | dsimp only

theorem execSysrefLaunch_canon (s : State) (hs : s.Good rq) :
    OutGood rq (execSysrefLaunch s) := by
  unfold execSysrefLaunch
  repeat' with_reducible first
    | assumption | intro _ | apply State.applyRegs_canon | apply State.wrTs_canon | apply canon_next | apply canon_iteO
    | apply canon_ite | split | dsimp only | apply canon_mk | apply State.Good.regs | apply State.Good.eff
    | apply State.Good.dram | apply State.Good.host | apply State.Good.pending | apply State.Good.cont
    | apply State.Good.whole | apply State.Good.chutes | apply State.Good.log | apply State.Good.same | apply State.Good.privs
    | apply State.Good.sram

theorem pulseTaken_canon (s : State) (hs : s.Good rq) :
    (pulseTaken s).Good rq := by
  unfold pulseTaken
  repeat' with_reducible first
    | assumption | intro _ | split | dsimp only | apply canon_mk | apply State.Good.regs | apply State.Good.eff
    | apply State.Good.dram | apply State.Good.host | apply State.Good.pending | apply State.Good.cont
    | apply State.Good.whole | apply State.Good.chutes | apply State.Good.log | apply State.Good.same | apply State.Good.privs
    | apply State.Good.sram

theorem phaseErrs_canon (s : State) (hs : s.Good rq) :
    (phaseErrs s).Good rq := by
  unfold phaseErrs
  repeat' with_reducible first
    | assumption | intro _ | apply State.bump_canon | apply State.raiseAt_canon | apply canon_foldl | apply canon_foldl1
    | apply canon_foldl2 | split | dsimp only

theorem execSysrefPulseCheck_canon (s0 : State) (hs0 : s0.Good rq) :
    OutGood rq (execSysrefPulseCheck s0) := by
  unfold execSysrefPulseCheck
  repeat' with_reducible first
    | assumption | intro _ | apply State.wr_canon | apply dropLink_canon | apply phaseErrs_canon | apply pulseTaken_canon
    | apply canon_next | apply canon_iteO | apply canon_ite | apply canon_foldl | apply canon_foldl1 | apply canon_foldl2
    | refine canon_fst_of (by assumption) ?_ | refine canon_snd_of (by assumption) ?_ | apply lemcAlign_canon
    | apply canon_ite1 | apply canon_ite2 | split | dsimp only | apply canon_mk | apply State.Good.regs
    | apply State.Good.eff | apply State.Good.dram | apply State.Good.host | apply State.Good.pending
    | apply State.Good.cont | apply State.Good.whole | apply State.Good.chutes | apply State.Good.log
    | apply State.Good.same | apply State.Good.privs | apply State.Good.sram

theorem execLaneLockLoss_canon (lane : Nat) (what : LaneLock) (s : State) (hs : s.Good rq) :
    OutGood rq (execLaneLockLoss lane what s) := by
  unfold execLaneLockLoss
  repeat' with_reducible first
    | assumption | intro _ | apply laneLoss_canon | apply canon_next | apply canon_iteO | apply canon_ite | split | dsimp only

theorem laneArrive_canon (s : State) (l pos : Nat) (hs : s.Good rq) :
    (laneArrive s l pos).Good rq := by
  unfold laneArrive
  repeat' with_reducible first
    | assumption | intro _ | apply State.wr_canon | apply autoRbd_canon | apply canon_ite | apply canon_foldl
    | apply canon_foldl1 | apply canon_foldl2 | split | dsimp only

theorem crcCheck_canon (s : State) (l : Nat) (ok : Bool) (hs : s.Good rq) :
    (crcCheck s l ok).Good rq := by
  unfold crcCheck
  repeat' with_reducible first
    | assumption | intro _ | apply State.bump_canon | apply State.modLane_canon | apply State.modLink_canon
    | apply State.raiseAt_canon | apply dropLink_canon | apply canon_ite | split | dsimp only | apply canon_mk
    | apply State.Good.regs | apply State.Good.eff | apply State.Good.dram | apply State.Good.host | apply State.Good.pending
    | apply State.Good.cont | apply State.Good.whole | apply State.Good.chutes | apply State.Good.log | apply State.Good.same
    | apply State.Good.privs
    | apply State.Good.sram

theorem blockArrive_canon (s : State) (l : Nat) (b : LaneBlock) (hs : s.Good rq) :
    (blockArrive s l b).Good rq := by
  unfold blockArrive
  repeat' with_reducible first
    | assumption | intro _ | apply State.bump_canon | apply State.modLane_canon | apply State.wr_canon | apply crcCheck_canon
    | apply laneArrive_canon | apply laneLoss_canon | apply canon_ite | split | dsimp only | apply canon_mk
    | apply State.Good.regs | apply State.Good.eff | apply State.Good.dram | apply State.Good.host | apply State.Good.pending
    | apply State.Good.cont | apply State.Good.whole | apply State.Good.chutes | apply State.Good.log | apply State.Good.same
    | apply State.Good.privs
    | apply State.Good.sram

theorem execJinBlockArrival_canon (lane : Nat) (blk : LaneBlock) (s : State) (hs : s.Good rq) :
    OutGood rq (execJinBlockArrival lane blk s) := by
  unfold execJinBlockArrival
  repeat' with_reducible first
    | assumption | intro _ | apply blockArrive_canon | apply canon_next | apply canon_iteO | apply canon_ite | split
    | dsimp only

theorem execLinkRelock_canon (k : Nat) (s : State) (hs : s.Good rq) :
    OutGood rq (execLinkRelock k s) := by
  unfold execLinkRelock
  repeat' with_reducible first
    | assumption | intro _ | apply linkTry_canon | apply canon_next | apply canon_iteO | apply canon_ite | split | dsimp only

theorem jinReleaseBlock_canon (s : State) (k : Nat) (hs : s.Good rq) :
    (jinReleaseBlock s k).Good rq := by
  unfold jinReleaseBlock
  repeat' with_reducible first
    | assumption | intro _ | apply State.bump_canon | apply State.modLane_canon | apply State.modLink_canon
    | apply State.wrB_canon | apply canon_ite | apply canon_ite1 | apply canon_ite2 | apply canon_foldl | apply canon_foldl1
    | apply canon_foldl2 | refine canon_fst_of (by assumption) ?_ | refine canon_snd_of (by assumption) ?_
    | apply place_canon | split | dsimp only | apply canon_mk | apply State.Good.regs | apply State.Good.eff
    | apply State.Good.dram | apply State.Good.host | apply State.Good.pending | apply State.Good.cont
    | apply State.Good.whole | apply State.Good.chutes | apply State.Good.log | apply State.Good.same
    | apply State.Good.privs | apply State.Good.sram

theorem execJinRelease_canon (k : Nat) (s : State) (hs : s.Good rq) :
    OutGood rq (execJinRelease k s) := by
  unfold execJinRelease
  repeat' with_reducible first
    | assumption | intro _ | apply jinReleaseBlock_canon | apply canon_next | apply canon_iteO | apply canon_ite | split
    | dsimp only

end Sys2Proof.Machine
end

