-- ==== Sys2Proof/Laws/CanonDfuOps.lean ====
section
/-!
SUPPORT. What Machine/DfuOps.lean defines keeps the canonical form of what is stored.
-/

namespace Sys2Proof.Machine

variable {rq : Kept}

theorem State.modDu_canon (s : State) (u : Nat) (g : DUnit → DUnit) (hs : s.Good rq) :
    (State.modDu s u g).Good rq := by
  unfold State.modDu
  repeat' with_reducible first
    | assumption | intro _ | split | dsimp only | apply canon_mk | apply State.Good.regs | apply State.Good.eff
    | apply State.Good.dram | apply State.Good.host | apply State.Good.pending | apply State.Good.cont
    | apply State.Good.whole | apply State.Good.chutes | apply State.Good.log | apply State.Good.same | apply State.Good.privs
    | apply State.Good.sram

theorem dfuDerive_canon (s : State) (u : Nat) (hs : s.Good rq) :
    (dfuDerive s u).Good rq := by
  unfold dfuDerive
  repeat' with_reducible first
    | assumption | intro _ | apply State.wr_canon | split | dsimp only

theorem dsyncUnit_canon (s : State) (u : Nat) (hs : s.Good rq) :
    (dsyncUnit s u).Good rq := by
  unfold dsyncUnit
  repeat' with_reducible first
    | assumption | intro _ | apply State.modDu_canon | apply State.wr_canon | split | dsimp only | apply canon_mk
    | apply State.Good.regs | apply State.Good.eff | apply State.Good.dram | apply State.Good.host | apply State.Good.pending
    | apply State.Good.cont | apply State.Good.whole | apply State.Good.chutes | apply State.Good.log | apply State.Good.same
    | apply State.Good.privs
    | apply State.Good.sram

theorem anchClose_canon (s : State) (u : Nat) (hs : s.Good rq) :
    (anchClose s u).Good rq := by
  unfold anchClose
  repeat' with_reducible first
    | assumption | intro _ | apply State.modDu_canon | apply State.raise_canon | apply State.wr_canon
    | apply State.wr64_canon | apply canon_ite | apply canon_foldl | apply canon_foldl1 | apply canon_foldl2
    | apply State.raiseAt_canon | apply canon_ite1 | apply canon_ite2 | split | dsimp only | apply canon_mk
    | apply State.Good.regs | apply State.Good.eff | apply State.Good.dram | apply State.Good.host
    | apply State.Good.pending | apply State.Good.cont | apply State.Good.whole | apply State.Good.chutes
    | apply State.Good.log | apply State.Good.same | apply State.Good.privs | apply State.Good.sram

theorem anchCheck_canon (s : State) (u t : Nat) (hs : s.Good rq) :
    (anchCheck s u t).Good rq := by
  unfold anchCheck
  repeat' with_reducible first
    | assumption | intro _ | apply State.finish_canon | apply State.wr_canon | apply anchClose_canon | apply canon_ite
    | apply canon_foldl | apply canon_foldl1 | apply canon_foldl2 | refine canon_fst_of (by assumption) ?_
    | refine canon_snd_of (by assumption) ?_ | split | dsimp only | apply canon_mk | apply State.Good.regs
    | apply State.Good.eff | apply State.Good.dram | apply State.Good.host | apply State.Good.pending | apply State.Good.cont
    | apply State.Good.whole | apply State.Good.chutes | apply State.Good.log | apply State.Good.same | apply State.Good.privs
    | apply State.Good.sram

theorem dfuFeed_canon (s : State) (u : Nat) (suspect : Bool) (hs : s.Good rq) :
    (dfuFeed s u suspect).Good rq := by
  unfold dfuFeed
  repeat' with_reducible first
    | assumption | intro _ | apply State.modDu_canon | apply State.modLink_canon | apply State.wr_canon
    | apply anchCheck_canon | apply canon_ite | apply canon_ite1 | apply canon_ite2 | apply canon_foldl | apply canon_foldl1
    | apply canon_foldl2 | refine canon_fst_of (by assumption) ?_ | refine canon_snd_of (by assumption) ?_ | split
    | dsimp only | apply canon_mk | apply State.Good.regs | apply State.Good.eff | apply State.Good.dram
    | apply State.Good.host | apply State.Good.pending | apply State.Good.cont | apply State.Good.whole
    | apply State.Good.chutes | apply State.Good.log | apply State.Good.same | apply State.Good.privs
    | apply State.Good.sram

theorem dfuRun_canon (u : Nat) (suspect : Bool) (n : Nat) (s : State) (hs : s.Good rq) : (dfuRun u suspect n s).Good rq := by
  induction n generalizing s with
  | zero => exact hs
  | succ n ih => exact canon_ite hs (ih _ (dfuFeed_canon s u suspect hs))

theorem satCount_canon (s : State) (u : Nat) (o : PrimOut) (hs : s.Good rq) :
    (satCount s u o).Good rq := by
  unfold satCount
  repeat' with_reducible first
    | assumption | intro _ | apply State.bumpBy_canon | apply State.modDu_canon | apply State.raiseAt_canon | apply canon_ite
    | apply canon_ite1 | apply canon_foldl | apply canon_foldl1 | apply canon_foldl2 | split | dsimp only | apply canon_mk
    | apply State.Good.regs | apply State.Good.eff | apply State.Good.dram | apply State.Good.host | apply State.Good.pending
    | apply State.Good.cont | apply State.Good.whole | apply State.Good.chutes | apply State.Good.log | apply State.Good.same
    | apply State.Good.privs
    | apply State.Good.sram

theorem setSkewEff_canon (s : State) (u : Nat) (l : List Int) (hs : s.Good rq) :
    (setSkewEff s u l).Good rq := by
  unfold setSkewEff
  repeat' with_reducible first
    | assumption | intro _ | apply State.wr_canon | apply canon_foldl | apply canon_foldl1 | apply canon_foldl2 | split
    | dsimp only

theorem corrRecord_canon (s : State) (u idx : Nat) (hs : s.Good rq) :
    (corrRecord s u idx).Good rq := by
  unfold corrRecord
  repeat' with_reducible first
    | assumption | intro _ | apply State.wr64_canon | apply State.wrTs_canon | split | dsimp only | apply canon_mk
    | apply State.Good.regs | apply State.Good.eff | apply State.Good.dram | apply State.Good.host
    | apply State.Good.pending | apply State.Good.cont | apply State.Good.whole | apply State.Good.chutes
    | apply State.Good.log | apply State.Good.same | apply State.Good.privs | apply State.Good.sram

theorem corrAtArm_canon (s : State) (edge : Nat) (hs : s.Good rq) :
    (corrAtArm s edge).Good rq := by
  unfold corrAtArm
  repeat' with_reducible first
    | assumption | intro _ | apply corrRecord_canon | apply canon_ite | apply canon_ite1 | apply canon_ite2
    | apply canon_foldl | apply canon_foldl1 | apply canon_foldl2 | split | dsimp only

theorem corrApplyUnit_canon (s : State) (u : Nat) (hs : s.Good rq) :
    (corrApplyUnit s u).Good rq := by
  unfold corrApplyUnit
  repeat' with_reducible first
    | assumption | intro _ | apply State.applyRegs_canon | apply State.modDu_canon | apply State.setReg_canon
    | apply State.wake_canon | apply State.wr_canon | apply State.wr64_canon | apply State.wrTs_canon
    | apply setSkewEff_canon | apply canon_ite | apply canon_foldl | apply canon_foldl1 | apply canon_foldl2
    | apply corrRecord_canon | apply canon_ite1 | apply canon_ite2 | split | dsimp only | apply canon_mk
    | apply State.Good.regs | apply State.Good.eff | apply State.Good.dram | apply State.Good.host
    | apply State.Good.pending | apply State.Good.cont | apply State.Good.whole | apply State.Good.chutes
    | apply State.Good.log | apply State.Good.same | apply State.Good.privs | apply State.Good.sram

theorem corrCommit_canon (s : State) (mask : Nat) (hs : s.Good rq) :
    (corrCommit s mask).Good rq := by
  unfold corrCommit
  repeat' with_reducible first
    | assumption | intro _ | apply State.modDu_canon | apply State.wr_canon | apply corrApplyUnit_canon | apply canon_ite
    | apply canon_foldl | apply canon_foldl1 | apply canon_foldl2 | split | dsimp only | apply canon_mk
    | apply State.Good.regs | apply State.Good.eff | apply State.Good.dram | apply State.Good.host | apply State.Good.pending
    | apply State.Good.cont | apply State.Good.whole | apply State.Good.chutes | apply State.Good.log | apply State.Good.same
    | apply State.Good.privs
    | apply State.Good.sram

theorem dsyncGo_canon (s : State) (mask : Nat) (hs : s.Good rq) :
    (dsyncGo s mask).Good rq := by
  unfold dsyncGo
  repeat' with_reducible first
    | assumption | intro _ | apply State.modDu_canon | apply State.wr_canon | apply dsyncUnit_canon | apply canon_ite
    | apply canon_foldl | apply canon_foldl1 | apply canon_foldl2 | split | dsimp only | apply canon_mk
    | apply State.Good.regs | apply State.Good.eff | apply State.Good.dram | apply State.Good.host | apply State.Good.pending
    | apply State.Good.cont | apply State.Good.whole | apply State.Good.chutes | apply State.Good.log | apply State.Good.same
    | apply State.Good.privs
    | apply State.Good.sram

theorem restoreSet_canon (s : State) (u : Nat) (l : List Word) (hs : s.Good rq) :
    (restoreSet s u l).Good rq := by
  unfold restoreSet
  repeat' with_reducible first
    | assumption | intro _ | apply State.setReg_canon | apply State.wr_canon | apply canon_ite | apply canon_ite1
    | apply canon_ite2 | apply canon_foldl | apply canon_foldl1 | apply canon_foldl2 | split | dsimp only

theorem bypassCorr_canon (s : State) (u : Nat) (hs : s.Good rq) :
    (bypassCorr s u).Good rq := by
  unfold bypassCorr
  repeat' with_reducible first
    | assumption | intro _ | apply State.setReg_canon | apply canon_foldl | apply canon_foldl1 | apply canon_foldl2 | split
    | dsimp only

theorem applyPreset_canon (s : State) (u id : Nat) (hs : s.Good rq) :
    (applyPreset s u id).Good rq := by
  unfold applyPreset
  repeat' with_reducible first
    | assumption | intro _ | apply State.modDu_canon | apply State.wr_canon | apply State.wrs_canon | apply bypassCorr_canon
    | apply corrCommit_canon | apply dfuDerive_canon | apply dsyncUnit_canon | apply restoreSet_canon
    | refine canon_fst_of (by assumption) ?_ | refine canon_snd_of (by assumption) ?_ | split | dsimp only | apply canon_mk
    | apply State.Good.regs | apply State.Good.eff | apply State.Good.dram | apply State.Good.host | apply State.Good.pending
    | apply State.Good.cont | apply State.Good.whole | apply State.Good.chutes | apply State.Good.log | apply State.Good.same
    | apply State.Good.privs
    | apply State.Good.sram

end Sys2Proof.Machine
end

