-- ==== Sys2Proof/Laws/CanonCapOps.lean ====
section
/-!
SUPPORT. What Machine/CapOps.lean defines keeps the canonical form of what is stored.
-/

namespace Sys2Proof.Machine

variable {rq : Kept}

theorem State.modCap_canon (s : State) (g : Cap → Cap) (hs : s.Good rq) :
    (State.modCap s g).Good rq := by
  unfold State.modCap
  repeat' with_reducible first
    | assumption | intro _ | split | dsimp only | apply canon_mk | apply State.Good.regs | apply State.Good.eff
    | apply State.Good.dram | apply State.Good.host | apply State.Good.pending | apply State.Good.cont
    | apply State.Good.whole | apply State.Good.chutes | apply State.Good.log | apply State.Good.same | apply State.Good.privs
    | apply State.Good.sram

theorem State.modCs_canon (s : State) (id : Nat) (g : CStream → CStream) (hs : s.Good rq) :
    (State.modCs s id g).Good rq := by
  unfold State.modCs
  repeat' with_reducible first
    | assumption | intro _ | apply State.modCap_canon | split | dsimp only | apply canon_mk | apply State.Good.regs
    | apply State.Good.eff | apply State.Good.dram | apply State.Good.host | apply State.Good.pending | apply State.Good.cont
    | apply State.Good.whole | apply State.Good.chutes | apply State.Good.log | apply State.Good.same | apply State.Good.privs
    | apply State.Good.sram

theorem capSpans_canon (s : State) (hs : s.Good rq) :
    (capSpans s).Good rq := by
  unfold capSpans
  repeat' with_reducible first
    | assumption | intro _ | apply State.wr_canon | apply State.wrs_canon | apply canon_foldl | apply canon_foldl1
    | apply canon_foldl2 | split | dsimp only

theorem capOnce_canon (s : State) (typ ts : Nat) (hs : s.Good rq) :
    (capOnce s typ ts).Good rq := by
  unfold capOnce
  repeat' with_reducible first
    | assumption | intro _ | apply State.modCap_canon | apply State.raiseAt_canon | apply canon_ite | split | dsimp only
    | apply canon_mk | apply State.Good.regs | apply State.Good.eff | apply State.Good.dram | apply State.Good.host
    | apply State.Good.pending | apply State.Good.cont | apply State.Good.whole | apply State.Good.chutes
    | apply State.Good.log | apply State.Good.same | apply State.Good.privs
    | apply State.Good.sram

theorem State.setPage_canon (s : State) (p : Nat) (x : Page) (hd : rq.mem = none) (hs : s.Good rq) :
    (State.setPage s p x).Good rq := by
  unfold State.setPage
  repeat' with_reducible first
    | assumption | intro _ | apply State.dramWrite_canon | apply State.modCap_canon | split | dsimp only | apply canon_mk
    | apply State.Good.regs | apply State.Good.eff | apply State.Good.dram | apply State.Good.host | apply State.Good.pending
    | apply State.Good.cont | apply State.Good.whole | apply State.Good.chutes | apply State.Good.log | apply State.Good.same
    | apply State.Good.privs
    | apply State.Good.sram

theorem pinRegs_canon (s : State) (id : Nat) (hs : s.Good rq) :
    (pinRegs s id).Good rq := by
  unfold pinRegs
  repeat' with_reducible first
    | assumption | intro _ | apply State.wrs_canon | split | dsimp only

theorem pinPage_canon (s : State) (p : Nat) (hd : rq.mem = none) (hs : s.Good rq) :
    (pinPage s p).Good rq := by
  unfold pinPage
  repeat' with_reducible first
    | assumption | intro _ | apply State.modCs_canon | apply State.setPage_canon | apply canon_ite | apply pinRegs_canon
    | apply canon_ite1 | apply canon_ite2 | split | dsimp only | apply canon_mk | apply State.Good.regs
    | apply State.Good.eff | apply State.Good.dram | apply State.Good.host | apply State.Good.pending
    | apply State.Good.cont | apply State.Good.whole | apply State.Good.chutes | apply State.Good.log
    | apply State.Good.same | apply State.Good.privs | apply State.Good.sram

theorem unpinPage_canon (s : State) (p : Nat) (hd : rq.mem = none) (hs : s.Good rq) :
    (unpinPage s p).Good rq := by
  unfold unpinPage
  repeat' with_reducible first
    | assumption | intro _ | apply State.modCs_canon | apply State.setPage_canon | apply canon_ite | apply pinRegs_canon
    | apply canon_ite1 | apply canon_ite2 | split | dsimp only | apply canon_mk | apply State.Good.regs
    | apply State.Good.eff | apply State.Good.dram | apply State.Good.host | apply State.Good.pending
    | apply State.Good.cont | apply State.Good.whole | apply State.Good.chutes | apply State.Good.log
    | apply State.Good.same | apply State.Good.privs | apply State.Good.sram

theorem State.modClaim_canon (s : State) (id : Nat) (g : CapClaim → CapClaim) (hd : rq.mem = none) (hs : s.Good rq) :
    (State.modClaim s id g).Good rq := by
  unfold State.modClaim
  repeat' with_reducible first
    | assumption | intro _ | apply canon_ite | apply canon_ite1 | apply canon_ite2 | apply State.dramWrite_canon
    | apply State.modCap_canon | split | dsimp only | apply canon_mk | apply State.Good.regs | apply State.Good.eff
    | apply State.Good.dram | apply State.Good.host | apply State.Good.pending | apply State.Good.cont
    | apply State.Good.whole | apply State.Good.chutes | apply State.Good.log | apply State.Good.same
    | apply State.Good.privs | apply State.Good.sram

theorem notePin_canon (s : State) (who : Sum Nat Nat) (p : Nat) (hd : rq.mem = none) (hs : s.Good rq) :
    (notePin s who p).Good rq := by
  unfold notePin
  repeat' with_reducible first
    | assumption | intro _ | apply canon_ite | refine canon_fst_of (by assumption) ?_
    | refine canon_snd_of (by assumption) ?_ | apply canon_ite1 | apply canon_ite2 | apply State.modCap_canon
    | apply State.modClaim_canon | split | dsimp only | apply canon_mk | apply State.Good.regs | apply State.Good.eff
    | apply State.Good.dram | apply State.Good.host | apply State.Good.pending | apply State.Good.cont
    | apply State.Good.whole | apply State.Good.chutes | apply State.Good.log | apply State.Good.same
    | apply State.Good.privs | apply State.Good.sram

theorem pinOpen_canon (s : State) (p : Nat) (hd : rq.mem = none) (hs : s.Good rq) :
    (pinOpen s p).Good rq := by
  unfold pinOpen
  repeat' with_reducible first
    | assumption | intro _ | apply notePin_canon | apply pinPage_canon | apply canon_ite | apply canon_foldl
    | apply canon_foldl1 | apply canon_foldl2 | refine canon_fst_of (by assumption) ?_
    | refine canon_snd_of (by assumption) ?_ | split | dsimp only | apply canon_mk | apply State.Good.regs
    | apply State.Good.eff | apply State.Good.dram | apply State.Good.host | apply State.Good.pending | apply State.Good.cont
    | apply State.Good.whole | apply State.Good.chutes | apply State.Good.log | apply State.Good.same | apply State.Good.privs
    | apply State.Good.sram

theorem closePage_canon (s : State) (id : Nat) (isPartial : Bool) (endTs : Nat) (hd : rq.mem = none) (hs : s.Good rq) :
    (closePage s id isPartial endTs).Good rq := by
  unfold closePage
  repeat' with_reducible first
    | assumption | intro _ | apply State.modCs_canon | apply State.setPage_canon | apply pinOpen_canon
    | refine canon_fst_of (by assumption) ?_ | refine canon_snd_of (by assumption) ?_ | split | dsimp only | apply canon_mk
    | apply State.Good.regs | apply State.Good.eff | apply State.Good.dram | apply State.Good.host | apply State.Good.pending
    | apply State.Good.cont | apply State.Good.whole | apply State.Good.chutes | apply State.Good.log | apply State.Good.same
    | apply State.Good.privs
    | apply State.Good.sram

theorem takePage_canon (s : State) (id pos ts : Nat) (hd : rq.mem = none) (hs : s.Good rq) :
    (takePage s id pos ts).Good rq := by
  unfold takePage
  repeat' with_reducible first
    | assumption | intro _ | apply State.modCs_canon | apply State.setPage_canon | apply State.wr_canon | apply pinOpen_canon
    | apply canon_ite | refine canon_fst_of (by assumption) ?_ | refine canon_snd_of (by assumption) ?_ | split | dsimp only
    | apply canon_mk | apply State.Good.regs | apply State.Good.eff | apply State.Good.dram | apply State.Good.host
    | apply State.Good.pending | apply State.Good.cont | apply State.Good.whole | apply State.Good.chutes
    | apply State.Good.log | apply State.Good.same | apply State.Good.privs
    | apply State.Good.sram

theorem siloWrite_canon (id : Nat) (stale : Bool) (ts n pos : Nat) (bs : List Byte) (s : State) (hd : rq.mem = none) (hs : s.Good rq) :
    (siloWrite id stale ts n pos bs s).Good rq := by
  induction n generalizing pos bs s with
  | zero => exact hs
  | succ n ih =>
    simp only [siloWrite]
    refine canon_ite hs ?_
    split
    · exact canon_ite hs (ih _ _ _ (takePage_canon s id pos ts hd hs))
    · refine ih _ _ _ (canon_ite (closePage_canon _ _ _ _ hd ?_) ?_) <;>
        exact canon_ite (State.setPage_canon s _ _ hd hs) (State.setPage_canon _ _ _ hd (State.dramWrite_canon _ _ hd hs))

theorem markNow_canon (s : State) (m : Marker) (hd : rq.mem = none) (hs : s.Good rq) :
    (markNow s m).Good rq := by
  unfold markNow
  repeat' with_reducible first
    | assumption | intro _ | apply State.modCap_canon | apply State.modCs_canon | apply siloWrite_canon
    | apply State.dramWrite_canon | apply State.setPage_canon | apply closePage_canon | apply takePage_canon
    | apply canon_ite | apply canon_ite1 | apply canon_ite2 | split | dsimp only | apply canon_mk | apply State.Good.regs
    | apply State.Good.eff | apply State.Good.dram | apply State.Good.host | apply State.Good.pending
    | apply State.Good.cont | apply State.Good.whole | apply State.Good.chutes | apply State.Good.log
    | apply State.Good.same | apply State.Good.privs | apply State.Good.sram

theorem markWrite_canon (s : State) (m : Marker) (hd : rq.mem = none) (hs : s.Good rq) :
    (markWrite s m).Good rq := by
  unfold markWrite
  repeat' with_reducible first
    | assumption | intro _ | apply State.modCap_canon | apply markNow_canon | apply canon_ite | split | dsimp only
    | apply canon_mk | apply State.Good.regs | apply State.Good.eff | apply State.Good.dram | apply State.Good.host
    | apply State.Good.pending | apply State.Good.cont | apply State.Good.whole | apply State.Good.chutes
    | apply State.Good.log | apply State.Good.same | apply State.Good.privs
    | apply State.Good.sram

theorem addMarker_canon (s : State) (kind ts stream aux : Nat) (data : List Byte) (hd : rq.mem = none) (hs : s.Good rq) :
    (addMarker s kind ts stream aux data).Good rq := by
  unfold addMarker
  repeat' with_reducible first
    | assumption | intro _ | apply State.bump_canon | apply State.modCap_canon | apply State.raiseAt_canon
    | apply markWrite_canon | apply canon_ite | split | dsimp only | apply canon_mk | apply State.Good.regs
    | apply State.Good.eff | apply State.Good.dram | apply State.Good.host | apply State.Good.pending | apply State.Good.cont
    | apply State.Good.whole | apply State.Good.chutes | apply State.Good.log | apply State.Good.same | apply State.Good.privs
    | apply State.Good.sram

theorem capLag_canon (s : State) (id : Nat) (hs : s.Good rq) :
    (capLag s id).Good rq := by
  unfold capLag
  repeat' with_reducible first
    | assumption | intro _ | apply State.wr_canon | apply canon_ite | split | dsimp only

theorem siloGap_canon (s : State) (id : Nat) (g : Gran) (next : Nat) (hd : rq.mem = none) (hs : s.Good rq) :
    (siloGap s id g next).Good rq := by
  unfold siloGap
  repeat' with_reducible first
    | assumption | intro _ | apply State.bump_canon | apply State.modCap_canon | apply State.modCs_canon
    | apply addMarker_canon | apply capOnce_canon | apply siloWrite_canon | apply State.modClaim_canon | apply canon_foldl
    | apply canon_foldl1 | apply canon_foldl2 | split | dsimp only | apply canon_mk | apply State.Good.regs
    | apply State.Good.eff | apply State.Good.dram | apply State.Good.host | apply State.Good.pending
    | apply State.Good.cont | apply State.Good.whole | apply State.Good.chutes | apply State.Good.log
    | apply State.Good.same | apply State.Good.privs | apply State.Good.sram

theorem heldSpans_canon (s : State) (hs : s.Good rq) :
    (heldSpans s).Good rq := by
  unfold heldSpans
  repeat' with_reducible first
    | assumption | intro _ | apply State.wrs_canon | split | dsimp only

theorem pushGranule_canon (s : State) (id : Nat) (bs : List Byte) (ts : Nat) (hd : rq.mem = none) (hs : s.Good rq) :
    (pushGranule s id bs ts).Good rq := by
  unfold pushGranule
  repeat' with_reducible first
    | assumption | intro _ | apply State.modCs_canon | apply capLag_canon | apply heldSpans_canon | apply siloGap_canon
    | apply canon_ite | refine canon_fst_of (by assumption) ?_ | refine canon_snd_of (by assumption) ?_ | split | dsimp only
    | apply canon_mk | apply State.Good.regs | apply State.Good.eff | apply State.Good.dram | apply State.Good.host
    | apply State.Good.pending | apply State.Good.cont | apply State.Good.whole | apply State.Good.chutes
    | apply State.Good.log | apply State.Good.same | apply State.Good.privs
    | apply State.Good.sram

theorem pushBytes_canon (s : State) (id : Nat) (bs : List Byte) (ts : Nat) (t : Nat) (hd : rq.mem = none) (hs : s.Good rq) :
    (pushBytes s id bs ts t).Good rq := by
  unfold pushBytes
  repeat' with_reducible first
    | assumption | intro _ | apply State.modCs_canon | apply pushGranule_canon | apply canon_ite
    | refine canon_fst_of (by assumption) ?_ | refine canon_snd_of (by assumption) ?_ | split | dsimp only | apply canon_mk
    | apply State.Good.regs | apply State.Good.eff | apply State.Good.dram | apply State.Good.host | apply State.Good.pending
    | apply State.Good.cont | apply State.Good.whole | apply State.Good.chutes | apply State.Good.log | apply State.Good.same
    | apply State.Good.privs
    | apply State.Good.sram

theorem pushValues_canon (s : State) (id : Nat) (vs : List Int) (ts : Nat) (hd : rq.mem = none) (hs : s.Good rq) :
    (pushValues s id vs ts).Good rq := by
  unfold pushValues
  repeat' with_reducible first
    | assumption | intro _ | apply State.modCs_canon | apply pushBytes_canon | apply canon_ite | split | dsimp only
    | apply canon_mk | apply State.Good.regs | apply State.Good.eff | apply State.Good.dram | apply State.Good.host
    | apply State.Good.pending | apply State.Good.cont | apply State.Good.whole | apply State.Good.chutes
    | apply State.Good.log | apply State.Good.same | apply State.Good.privs
    | apply State.Good.sram

theorem pushTransition_canon (s : State) (bs : List Byte) (ts : Nat) (hd : rq.mem = none) (hs : s.Good rq) :
    (pushTransition s bs ts).Good rq := by
  unfold pushTransition
  repeat' with_reducible first
    | assumption | intro _ | apply pushBytes_canon | apply canon_ite | split | dsimp only

theorem pushResult_canon (s : State) (k : Nat) (bs : List Byte) (ts : Nat) (hd : rq.mem = none) (hs : s.Good rq) :
    (pushResult s k bs ts).Good rq := by
  unfold pushResult
  repeat' with_reducible first
    | assumption | intro _ | apply State.modCs_canon | apply siloWrite_canon | apply canon_ite | split | dsimp only
    | apply canon_mk | apply State.Good.regs | apply State.Good.eff | apply State.Good.dram | apply State.Good.host
    | apply State.Good.pending | apply State.Good.cont | apply State.Good.whole | apply State.Good.chutes
    | apply State.Good.log | apply State.Good.same | apply State.Good.privs
    | apply State.Good.sram

theorem State.modSeg_canon (s : State) (k : Nat × Nat) (g : Seg → Seg) (hs : s.Good rq) :
    (State.modSeg s k g).Good rq := by
  unfold State.modSeg
  repeat' with_reducible first
    | assumption | intro _ | apply canon_ite | apply canon_ite1 | apply canon_ite2 | apply State.modCap_canon | split
    | dsimp only | apply canon_mk | apply State.Good.regs | apply State.Good.eff | apply State.Good.dram
    | apply State.Good.host | apply State.Good.pending | apply State.Good.cont | apply State.Good.whole
    | apply State.Good.chutes | apply State.Good.log | apply State.Good.same | apply State.Good.privs
    | apply State.Good.sram

theorem putHeader_canon (s : State) (k : Nat × Nat) (hd : rq.mem = none) (hs : s.Good rq) :
    (putHeader s k).Good rq := by
  unfold putHeader
  repeat' with_reducible first
    | assumption | intro _ | apply canon_ite | refine canon_fst_of (by assumption) ?_
    | refine canon_snd_of (by assumption) ?_ | apply canon_ite1 | apply canon_ite2 | apply State.bump_canon
    | apply State.dramWrite_canon | apply State.modCap_canon | apply State.modSeg_canon | split | dsimp only
    | apply canon_mk | apply State.Good.regs | apply State.Good.eff | apply State.Good.dram | apply State.Good.host
    | apply State.Good.pending | apply State.Good.cont | apply State.Good.whole | apply State.Good.chutes
    | apply State.Good.log | apply State.Good.same | apply State.Good.privs | apply State.Good.sram

theorem freeze_canon (s : State) (no t0 t1 : Nat) (hs : s.Good rq) :
    (freeze s no t0 t1).Good rq := by
  unfold freeze
  repeat' with_reducible first
    | assumption | intro _ | apply State.modCs_canon | apply canon_foldl | apply canon_foldl1 | apply canon_foldl2 | split
    | dsimp only | apply canon_mk | apply State.Good.regs | apply State.Good.eff | apply State.Good.dram
    | apply State.Good.host | apply State.Good.pending | apply State.Good.cont | apply State.Good.whole
    | apply State.Good.chutes | apply State.Good.log | apply State.Good.same | apply State.Good.privs
    | apply State.Good.sram

theorem thaw_canon (s : State) (k : Nat × Nat) (hs : s.Good rq) :
    (thaw s k).Good rq := by
  unfold thaw
  repeat' with_reducible first
    | assumption | intro _ | apply State.modCap_canon | split | dsimp only | apply canon_mk | apply State.Good.regs
    | apply State.Good.eff | apply State.Good.dram | apply State.Good.host | apply State.Good.pending
    | apply State.Good.cont | apply State.Good.whole | apply State.Good.chutes | apply State.Good.log
    | apply State.Good.same | apply State.Good.privs | apply State.Good.sram

theorem capAccept_canon (s : State) (g0 : Seg) (hd : rq.mem = none) (hs : s.Good rq) :
    (capAccept s g0).1.Good rq := by
  unfold capAccept
  repeat' with_reducible first
    | assumption | intro _ | apply canon_ite | apply canon_ite1 | apply canon_foldl | apply canon_foldl1
    | apply canon_foldl2 | apply canon_ite2 | apply State.bump_canon | apply State.modCap_canon | apply State.raiseAt_canon
    | apply addMarker_canon | apply capOnce_canon | apply capSpans_canon | apply freeze_canon | apply notePin_canon
    | apply pinPage_canon | apply putHeader_canon | split | dsimp only | apply canon_mk | apply State.Good.regs
    | apply State.Good.eff | apply State.Good.dram | apply State.Good.host | apply State.Good.pending
    | apply State.Good.cont | apply State.Good.whole | apply State.Good.chutes | apply State.Good.log
    | apply State.Good.same | apply State.Good.privs | apply State.Good.sram

theorem capHandoff_canon (s : State) (k : Nat × Nat) (ovl firstOvl : Nat) (hd : rq.mem = none) (hs : s.Good rq) :
    (capHandoff s k ovl firstOvl).Good rq := by
  unfold capHandoff
  repeat' with_reducible first
    | assumption | intro _ | apply canon_ite | apply canon_ite1 | apply canon_ite2 | refine canon_fst_of (by assumption) ?_
    | refine canon_snd_of (by assumption) ?_ | apply State.modSeg_canon | apply State.postEvent_canon
    | apply putHeader_canon | split | dsimp only | apply canon_mk | apply State.Good.regs | apply State.Good.eff
    | apply State.Good.dram | apply State.Good.host | apply State.Good.pending | apply State.Good.cont
    | apply State.Good.whole | apply State.Good.chutes | apply State.Good.log | apply State.Good.same
    | apply State.Good.privs | apply State.Good.sram

end Sys2Proof.Machine
end

