-- ==== Sys2Proof/Laws/CanonConOps.lean ====
section
/-!
SUPPORT. What Machine/ConOps.lean defines keeps the canonical form of what is stored.
-/

namespace Sys2Proof.Machine

variable {rq : Kept}

theorem State.modCon_canon (s : State) (g : Con → Con) (hs : s.Good rq) :
    (State.modCon s g).Good rq := by
  unfold State.modCon
  repeat' with_reducible first
    | assumption | intro _ | split | dsimp only | apply canon_mk | apply State.Good.regs | apply State.Good.eff
    | apply State.Good.dram | apply State.Good.host | apply State.Good.pending | apply State.Good.cont
    | apply State.Good.whole | apply State.Good.chutes | apply State.Good.log | apply State.Good.same | apply State.Good.privs
    | apply State.Good.sram

theorem setResRates_canon (s : State) (hs : s.Good rq) :
    (setResRates s).Good rq := by
  unfold setResRates
  repeat' with_reducible first
    | assumption | intro _ | apply State.wr_canon | apply canon_foldl | apply canon_foldl1 | apply canon_foldl2 | split
    | dsimp only

end Sys2Proof.Machine
end

