-- ==== Sys2Proof/Laws/CanonMbx.lean ====
section
/-!
SUPPORT. What Machine/Mbx.lean defines keeps the canonical form of what is stored.
-/

namespace Sys2Proof.Machine

variable {rq : Kept}

theorem lockTry_canon (s : State) (m n : Nat) (direct : Bool) (hs : s.Good rq) :
    (lockTry s m n direct).2.Good rq := by
  unfold lockTry
  repeat' with_reducible first
    | assumption | intro _ | apply setLock_canon | apply canon_ite | apply canon_ite2 | split | dsimp only

theorem lockWrite_canon (s : State) (m n : Nat) (v : Word) (hs : s.Good rq) :
    (lockWrite s m n v).Good rq := by
  unfold lockWrite
  repeat' with_reducible first
    | assumption | intro _ | apply State.bump_canon | apply setLock_canon | apply canon_ite | split | dsimp only

theorem lockAccess_canon (s : State) (n : Nat) (x : Nat × Option Word) (hs : s.Good rq) :
    (lockAccess s n x).Good rq := by
  unfold lockAccess
  repeat' with_reducible first
    | assumption | intro _ | apply hostAccess_canon | apply State.writeBy_canon | apply lockTry_canon | apply lockWrite_canon | apply violation_canon
    | apply canon_ite | apply canon_ite1 | apply canon_ite2 | refine canon_fst_of (by assumption) ?_
    | refine canon_snd_of (by assumption) ?_ | split | dsimp only | apply canon_mk | apply State.Good.regs
    | apply State.Good.eff | apply State.Good.dram | apply State.Good.host | apply State.Good.pending | apply State.Good.cont
    | apply State.Good.whole | apply State.Good.chutes | apply State.Good.log | apply State.Good.same | apply State.Good.privs
    | apply State.Good.sram

theorem execLockTryRead_canon (m n : Nat) (others : List (Nat × Option Word)) (s : State) (hs : s.Good rq) :
    OutGood rq (execLockTryRead m n others s) := by
  unfold execLockTryRead
  repeat' with_reducible first
    | assumption | intro _ | apply lockAccess_canon | apply canon_next | apply canon_iteO | apply canon_foldl
    | apply canon_foldl1 | apply canon_foldl2 | split | dsimp only | apply canon_mk | apply State.Good.regs
    | apply State.Good.eff | apply State.Good.dram | apply State.Good.host | apply State.Good.pending | apply State.Good.cont
    | apply State.Good.whole | apply State.Good.chutes | apply State.Good.log | apply State.Good.same | apply State.Good.privs
    | apply State.Good.sram

theorem execLockTryWrite_canon (m n : Nat) (v : Word) (s : State) (hs : s.Good rq) :
    OutGood rq (execLockTryWrite m n v s) := by
  unfold execLockTryWrite
  repeat' with_reducible first
    | assumption | intro _ | apply lockAccess_canon | apply canon_next | apply canon_iteO | split | dsimp only

theorem lockForceWrite_canon (s : State) (m : Nat) (v : Word) (hs : s.Good rq) :
    (lockForceWrite s m v).Good rq := by
  unfold lockForceWrite
  repeat' with_reducible first
    | assumption | intro _ | apply State.bump_canon | apply lockForce_canon | apply canon_ite | split | dsimp only

theorem execLockForceWrite_canon (m : Nat) (v : Word) (s : State) (hs : s.Good rq) :
    OutGood rq (execLockForceWrite m v s) := by
  unfold execLockForceWrite
  repeat' with_reducible first
    | assumption | intro _ | apply State.writeBy_canon | apply lockForceWrite_canon | apply canon_next | apply canon_iteO
    | split | dsimp only

theorem mbxDenied_canon (s : State) (i : Nat) (hs : s.Good rq) :
    (mbxDenied s i).Good rq := by
  unfold mbxDenied
  repeat' with_reducible first
    | assumption | intro _ | apply State.bump_canon | split | dsimp only

theorem mbxCfg_canon (s : State) (i v : Nat) (hs : s.Good rq) :
    (mbxCfg s i v).Good rq := by
  unfold mbxCfg
  repeat' with_reducible first
    | assumption | intro _ | apply State.wr_canon | apply State.wrs_canon | apply canon_ite | split | dsimp only

theorem mbxStatusClear_canon (s : State) (i v : Nat) (hs : s.Good rq) :
    (mbxStatusClear s i v).Good rq := by
  unfold mbxStatusClear
  repeat' with_reducible first
    | assumption | intro _ | apply State.wr_canon | apply canon_ite | apply canon_foldl | apply canon_foldl1
    | apply canon_foldl2 | split | dsimp only

theorem stagedMsg_canon (s : State) (l : List (Option Nat)) (hs : s.Good rq) : (stagedMsg s l).2.Good rq := by
  induction l generalizing s with
  | nil => exact hs
  | cons x l ih =>
    cases x with
    | some w => exact ih s hs
    | none => exact ih _ (State.takeBits_canon 32 hs)

theorem mbxStage_canon (s : State) (i : Nat) (inbound : Bool) (m j v : Nat) (hs : s.Good rq) :
    (mbxStage s i inbound m j v).Good rq := by
  unfold mbxStage
  repeat' with_reducible first
    | assumption | intro _ | apply State.modSet_canon | apply State.wr_canon | apply mbxPush_canon | apply stagedMsg_canon
    | apply canon_ite | apply canon_ite1 | apply canon_ite2 | refine canon_fst_of (by assumption) ?_
    | refine canon_snd_of (by assumption) ?_ | split | dsimp only | apply canon_mk | apply State.Good.regs
    | apply State.Good.eff | apply State.Good.dram | apply State.Good.host | apply State.Good.pending | apply State.Good.cont
    | apply State.Good.whole | apply State.Good.chutes | apply State.Good.log | apply State.Good.same | apply State.Good.privs
    | apply State.Good.sram

theorem mbxSetWrite_canon (s : State) (i o m : Nat) (v : Word) (hs : s.Good rq) :
    (mbxSetWrite s i o m v).Good rq := by
  unfold mbxSetWrite
  repeat' with_reducible first
    | assumption | intro _ | apply dbClear_canon | apply dbMaskPut_canon | apply dbRaise_canon | apply mbxCfg_canon
    | apply mbxDenied_canon | apply mbxPop_canon | apply mbxStage_canon | apply mbxStatusClear_canon | apply canon_ite | split
    | dsimp only

theorem mbxWrite_canon (m a : Nat) (v : Word) (s : State) (hs : s.Good rq) :
    (mbxWrite m a v s).Good rq := by
  unfold mbxWrite
  repeat' with_reducible first
    | assumption | intro _ | apply State.wr_canon | apply State.zeroFields_canon | apply lockForceWrite_canon
    | apply lockWrite_canon | apply mbxSetWrite_canon | apply canon_ite | split | dsimp only

theorem mbxBy_canon (m a : Nat) (v : Word) (s : State) (hs : s.Good rq) :
    (mbxBy m a v s).Good rq := by
  unfold mbxBy
  repeat' with_reducible first
    | assumption | intro _ | apply State.writeBy_canon | apply mbxWrite_canon | split | dsimp only

theorem execMailboxStageWrite_canon (m i : Nat) (inbound : Bool) (j : Nat) (v : Word) (s : State) (hs : s.Good rq) :
    OutGood rq (execMailboxStageWrite m i inbound j v s) := by
  unfold execMailboxStageWrite
  repeat' with_reducible first
    | assumption | intro _ | apply mbxBy_canon | apply canon_next | apply canon_iteO | apply canon_ite | split | dsimp only

theorem stageAccess_canon (m i : Nat) (inbound : Bool) (j : Nat) (ws : List Word) (s : State) (hs : s.Good rq) :
    (stageAccess m i inbound j ws s).Good rq := by
  induction ws generalizing j s with
  | nil => exact hs
  | cons w ws ih => exact ih _ _ (mbxBy_canon m _ w s hs)

theorem execMailboxPush_canon (m i : Nat) (inbound : Bool) (ws : List Word) (s : State) (hs : s.Good rq) :
    OutGood rq (execMailboxPush m i inbound ws s) := by
  unfold execMailboxPush
  repeat' with_reducible first
    | assumption | intro _ | apply stageAccess_canon | apply canon_next | apply canon_iteO | split | dsimp only

theorem execMailboxPop_canon (m i : Nat) (v : Word) (s : State) (hs : s.Good rq) :
    OutGood rq (execMailboxPop m i v s) := by
  unfold execMailboxPop
  repeat' with_reducible first
    | assumption | intro _ | apply mbxBy_canon | apply canon_next | apply canon_iteO | split | dsimp only

theorem execDoorbellSet_canon (m i : Nat) (toF : Bool) (v : Word) (s : State) (hs : s.Good rq) :
    OutGood rq (execDoorbellSet m i toF v s) := by
  unfold execDoorbellSet
  repeat' with_reducible first
    | assumption | intro _ | apply mbxBy_canon | apply canon_next | apply canon_iteO | apply canon_ite | split | dsimp only

theorem execDoorbellClear_canon (m i : Nat) (toF : Bool) (v : Word) (s : State) (hs : s.Good rq) :
    OutGood rq (execDoorbellClear m i toF v s) := by
  unfold execDoorbellClear
  repeat' with_reducible first
    | assumption | intro _ | apply mbxBy_canon | apply canon_next | apply canon_iteO | apply canon_ite | split | dsimp only

theorem execDoorbellMaskWrite_canon (m i : Nat) (toF : Bool) (v : Word) (s : State) (hs : s.Good rq) :
    OutGood rq (execDoorbellMaskWrite m i toF v s) := by
  unfold execDoorbellMaskWrite
  repeat' with_reducible first
    | assumption | intro _ | apply mbxBy_canon | apply canon_next | apply canon_iteO | apply canon_ite | split | dsimp only

theorem execMbxClrCounters_canon (m : Nat) (v : Word) (s : State) (hs : s.Good rq) :
    OutGood rq (execMbxClrCounters m v s) := by
  unfold execMbxClrCounters
  repeat' with_reducible first
    | assumption | intro _ | apply mbxBy_canon | apply canon_next | apply canon_iteO | split | dsimp only

theorem serviceReply_canon (s : State) (i : Nat) (w : Msg) (hs : s.Good rq) :
    (serviceReply s i w).Good rq := by
  unfold serviceReply
  repeat' with_reducible first
    | assumption | intro _ | apply mbxSend_canon | apply canon_ite | split | dsimp only

theorem execHostServicePop_canon (i : Nat) (s : State) (hs : s.Good rq) :
    OutGood rq (execHostServicePop i s) := by
  unfold execHostServicePop
  repeat' with_reducible first
    | assumption | intro _ | apply State.bump_canon | apply State.wr_canon | apply mbxPop_canon | apply serviceReply_canon
    | apply canon_next | apply canon_iteO | apply canon_ite | refine canon_fst_of (by assumption) ?_
    | refine canon_snd_of (by assumption) ?_ | split | dsimp only | apply canon_mk | apply State.Good.regs
    | apply State.Good.eff | apply State.Good.dram | apply State.Good.host | apply State.Good.pending | apply State.Good.cont
    | apply State.Good.whole | apply State.Good.chutes | apply State.Good.log | apply State.Good.same | apply State.Good.privs
    | apply State.Good.sram

theorem execMailboxCross_canon (i : Nat) (s : State) (hs : s.Good rq) :
    OutGood rq (execMailboxCross i s) := by
  unfold execMailboxCross
  repeat' with_reducible first
    | assumption | intro _ | apply State.bump_canon | apply State.postEvent_canon | apply State.raise_canon
    | apply State.wr_canon | apply mbxPop_canon | apply canon_next | apply canon_iteO | apply canon_ite | apply canon_foldl
    | apply canon_foldl1 | apply canon_foldl2 | refine canon_fst_of (by assumption) ?_
    | refine canon_snd_of (by assumption) ?_ | split | dsimp only | apply canon_mk | apply State.Good.regs
    | apply State.Good.eff | apply State.Good.dram | apply State.Good.host | apply State.Good.pending | apply State.Good.cont
    | apply State.Good.whole | apply State.Good.chutes | apply State.Good.log | apply State.Good.same | apply State.Good.privs
    | apply State.Good.sram

end Sys2Proof.Machine
end

