-- ==== Sys2Proof/Laws/CanonSpace.lean ====
section
/-!
SUPPORT. What Machine/Space.lean defines keeps the canonical form of what is stored.
-/

namespace Sys2Proof.Machine

variable {rq : Kept}

theorem sramWf_write {m : List (Nat × Option Byte)} (a : Nat) (bs : List (Option Byte)) (h : sramWf m = true) :
    sramWf (sramWrite m a bs) = true := by
  induction bs generalizing m a with
  | nil => exact h
  | cons b bs ih => exact ih _ (cellWf_put _ a b h)

theorem sramForget_canon (s : State) (p : Nat → Bool) (hs : s.Good rq) : (sramForget s p).Good rq :=
  canon_mk hs.regs hs.eff hs.dram hs.host hs.pending hs.cont hs.whole hs.chutes hs.log hs.same hs.privs
    (cellWf_filter _ _ hs.sram)

theorem lmemWrite_canon (s : State) (a : Nat) (bs : List Byte) (hs : s.Good rq) : (lmemWrite s a bs).Good rq :=
  canon_mk hs.regs hs.eff hs.dram hs.host hs.pending hs.cont hs.whole hs.chutes hs.log hs.same hs.privs
    (sramWf_write _ _ hs.sram)

theorem lmemRead_canon (s : State) (a n : Nat) (hs : s.Good rq) : (lmemRead s a n).2.Good rq :=
  State.takeWords_canon _ hs

theorem mbxReadBy_canon (s : State) (m a n : Nat) (hs : s.Good rq) : (mbxReadBy s m a n).2.Good rq := by
  induction n generalizing s a with
  | zero => exact hs
  | succ n ih => exact ih _ _ (canon_ite2 (lockTry_canon s m _ true hs) hs)

theorem mbxWriteBy_canon (m a : Nat) (ws : List (List Byte)) (s : State) (hs : s.Good rq) : (mbxWriteBy m a ws s).Good rq := by
  induction ws generalizing a s with
  | nil => exact hs
  | cons w ws ih => exact ih _ _ (mbxBy_canon m _ _ s hs)

theorem internalRead_canon (s : State) (c a n : Nat) (hs : s.Good rq) :
    (internalRead s c a n).2.Good rq := by
  unfold internalRead
  repeat' with_reducible first
    | assumption | intro _ | apply lmemRead_canon | apply mbxReadBy_canon | apply canon_ite | apply canon_ite1
    | apply canon_ite2 | split | dsimp only

theorem poisonOn_canon (s : State) (a : Nat) (bs : List (Byte × Bool)) (hs : s.Good rq) :
    (poisonOn s a bs).Good rq := by
  unfold poisonOn
  repeat' with_reducible first
    | assumption | intro _ | apply canon_ite | apply canon_ite1 | apply canon_ite2 | split | dsimp only | apply canon_mk
    | apply State.Good.regs | apply State.Good.eff | apply State.Good.dram | apply State.Good.host | apply State.Good.pending
    | apply State.Good.cont | apply State.Good.whole | apply State.Good.chutes | apply State.Good.log | apply State.Good.same
    | apply State.Good.privs
    | apply State.Good.sram

theorem spaceWrite_canon (s : State) (c space a : Nat) (bs : List (Byte × Bool)) (hd : rq.mem = none) (hs : s.Good rq) :
    (spaceWrite s c space a bs).Good rq := by
  unfold spaceWrite
  repeat' with_reducible first
    | assumption | intro _ | apply State.dramWrite_canon | apply State.hostWrite_canon | apply mbxWriteBy_canon
    | apply poisonOn_canon | apply canon_ite | apply canon_ite1 | apply lmemWrite_canon | apply canon_ite2 | split
    | dsimp only

theorem putSpace_canon (s : State) (c space addr : Nat) (bs : List Byte) (hd : rq.mem = none) (hs : s.Good rq) :
    (putSpace s c space addr bs).Good rq := by
  unfold putSpace
  repeat' with_reducible first
    | assumption | intro _ | apply State.dramWrite_canon | apply State.hostWrite_canon | apply canon_ite
    | apply spaceWrite_canon | split | dsimp only

end Sys2Proof.Machine
end

