-- ==== Sys2Proof/Laws/CanonDmaOps.lean ====
section
/-!
SUPPORT. What Machine/DmaOps.lean defines keeps the canonical form of what is stored.
-/

namespace Sys2Proof.Machine

variable {rq : Kept}

theorem State.modDma_canon (s : State) (g : Dma → Dma) (hs : s.Good rq) :
    (State.modDma s g).Good rq := by
  unfold State.modDma
  repeat' with_reducible first
    | assumption | intro _ | split | dsimp only | apply canon_mk | apply State.Good.regs | apply State.Good.eff
    | apply State.Good.dram | apply State.Good.host | apply State.Good.pending | apply State.Good.cont
    | apply State.Good.whole | apply State.Good.chutes | apply State.Good.log | apply State.Good.same | apply State.Good.privs
    | apply State.Good.sram

theorem State.modChan_canon (s : State) (c : Nat) (g : Chan → Chan) (hs : s.Good rq) :
    (State.modChan s c g).Good rq := by
  unfold State.modChan
  repeat' with_reducible first
    | assumption | intro _ | apply State.modDma_canon | split | dsimp only | apply canon_mk | apply State.Good.regs
    | apply State.Good.eff | apply State.Good.dram | apply State.Good.host | apply State.Good.pending | apply State.Good.cont
    | apply State.Good.whole | apply State.Good.chutes | apply State.Good.log | apply State.Good.same | apply State.Good.privs
    | apply State.Good.sram

theorem State.modXfer_canon (s : State) (c : Nat) (g : Xfer → Xfer) (hs : s.Good rq) :
    (State.modXfer s c g).Good rq := by
  unfold State.modXfer
  repeat' with_reducible first
    | assumption | intro _ | apply State.modChan_canon | split | dsimp only | apply canon_mk | apply State.Good.regs
    | apply State.Good.eff | apply State.Good.dram | apply State.Good.host | apply State.Good.pending | apply State.Good.cont
    | apply State.Good.whole | apply State.Good.chutes | apply State.Good.log | apply State.Good.same | apply State.Good.privs
    | apply State.Good.sram

theorem State.modCmp_canon (s : State) (g : Cmp → Cmp) (hs : s.Good rq) :
    (State.modCmp s g).Good rq := by
  unfold State.modCmp
  repeat' with_reducible first
    | assumption | intro _ | split | dsimp only | apply canon_mk | apply State.Good.regs | apply State.Good.eff
    | apply State.Good.dram | apply State.Good.host | apply State.Good.pending | apply State.Good.cont
    | apply State.Good.whole | apply State.Good.chutes | apply State.Good.log | apply State.Good.same | apply State.Good.privs
    | apply State.Good.sram

theorem setChState_canon (s : State) (c st : Nat) (hs : s.Good rq) :
    (setChState s c st).Good rq := by
  unfold setChState
  repeat' with_reducible first
    | assumption | intro _ | apply State.wr_canon | split | dsimp only

theorem postHalted_canon (s : State) (c cause index retries st : Nat) (wbFail : Bool) (hs : s.Good rq) :
    (postHalted s c cause index retries st wbFail).Good rq := by
  unfold postHalted
  repeat' with_reducible first
    | assumption | intro _ | apply State.postEvent_canon | split | dsimp only

theorem chanHalt_canon (s : State) (c cause retries st : Nat) (wbFail : Bool) (i : Option Nat) (hs : s.Good rq) :
    (chanHalt s c cause retries st wbFail i).Good rq := by
  unfold chanHalt
  repeat' with_reducible first
    | assumption | intro _ | apply State.modChan_canon | apply State.wake_canon | apply State.wrs_canon
    | apply postHalted_canon | apply setChState_canon | split | dsimp only | apply canon_mk | apply State.Good.regs
    | apply State.Good.eff | apply State.Good.dram | apply State.Good.host | apply State.Good.pending | apply State.Good.cont
    | apply State.Good.whole | apply State.Good.chutes | apply State.Good.log | apply State.Good.same | apply State.Good.privs
    | apply State.Good.sram

theorem xferCount_canon (s : State) (c : Nat) (late : Bool) (hs : s.Good rq) :
    (xferCount s c late).Good rq := by
  unfold xferCount
  repeat' with_reducible first
    | assumption | intro _ | apply State.bump_canon | apply canon_ite | split | dsimp only

theorem backWrite_canon (s : State) (c i st : Nat) (x : Xfer) (late : Bool) (hd : rq.mem = none) (hs : s.Good rq) :
    (backWrite s c i st x late).Good rq := by
  unfold backWrite
  repeat' with_reducible first
    | assumption | intro _ | apply State.postEvent_canon | apply State.wr_canon | apply putSpace_canon | apply canon_ite
    | refine canon_fst_of (by assumption) ?_ | refine canon_snd_of (by assumption) ?_ | split | dsimp only | apply canon_mk
    | apply State.Good.regs | apply State.Good.eff | apply State.Good.dram | apply State.Good.host | apply State.Good.pending
    | apply State.Good.cont | apply State.Good.whole | apply State.Good.chutes | apply State.Good.log | apply State.Good.same
    | apply State.Good.privs
    | apply State.Good.sram

theorem xferEnd_canon (s : State) (c st : Nat) (hd : rq.mem = none) (hs : s.Good rq) :
    (xferEnd s c st).Good rq := by
  unfold xferEnd
  repeat' with_reducible first
    | assumption | intro _ | apply State.finish_canon | apply State.modChan_canon | apply State.wr_canon
    | apply backWrite_canon | apply setChState_canon | apply xferCount_canon | refine canon_fst_of (by assumption) ?_
    | refine canon_snd_of (by assumption) ?_ | split | dsimp only | apply canon_mk | apply State.Good.regs
    | apply State.Good.eff | apply State.Good.dram | apply State.Good.host | apply State.Good.pending | apply State.Good.cont
    | apply State.Good.whole | apply State.Good.chutes | apply State.Good.log | apply State.Good.same | apply State.Good.privs
    | apply State.Good.sram

theorem xferDrop_canon (s : State) (c : Nat) (hs : s.Good rq) :
    (xferDrop s c).Good rq := by
  unfold xferDrop
  repeat' with_reducible first
    | assumption | intro _ | apply State.modChan_canon | refine canon_fst_of (by assumption) ?_
    | refine canon_snd_of (by assumption) ?_ | split | dsimp only | apply canon_mk | apply State.Good.regs
    | apply State.Good.eff | apply State.Good.dram | apply State.Good.host | apply State.Good.pending | apply State.Good.cont
    | apply State.Good.whole | apply State.Good.chutes | apply State.Good.log | apply State.Good.same | apply State.Good.privs
    | apply State.Good.sram

theorem endCopy_canon (s : State) (c : Nat) (st : Status) (hs : s.Good rq) :
    (endCopy s c st).Good rq := by
  unfold endCopy
  repeat' with_reducible first
    | assumption | intro _ | apply State.finish_canon | apply State.modChan_canon | refine canon_fst_of (by assumption) ?_
    | refine canon_snd_of (by assumption) ?_ | split | dsimp only | apply canon_mk | apply State.Good.regs
    | apply State.Good.eff | apply State.Good.dram | apply State.Good.host | apply State.Good.pending | apply State.Good.cont
    | apply State.Good.whole | apply State.Good.chutes | apply State.Good.log | apply State.Good.same | apply State.Good.privs
    | apply State.Good.sram

theorem haltNow_canon (s : State) (c cause : Nat) (hs : s.Good rq) :
    (haltNow s c cause).Good rq := by
  unfold haltNow
  repeat' with_reducible first
    | assumption | intro _ | apply chanHalt_canon | apply endCopy_canon | apply xferDrop_canon | apply canon_ite | split
    | dsimp only

theorem chanClose_canon (s : State) (c : Nat) (hs : s.Good rq) :
    (chanClose s c).Good rq := by
  unfold chanClose
  repeat' with_reducible first
    | assumption | intro _ | apply State.clearRegs_canon | apply State.modChan_canon | apply State.wake_canon
    | apply endCopy_canon | apply setChState_canon | split | dsimp only

theorem emitPush_canon (s : State) (c : Nat) (e : EmitPkt) (hs : s.Good rq) :
    (emitPush s c e).Good rq := by
  unfold emitPush
  repeat' with_reducible first
    | assumption | intro _ | apply State.bump_canon | apply State.modChan_canon | apply State.postEvent_canon
    | apply State.raise_canon | apply State.wr_canon | apply canon_ite | apply canon_foldl | apply canon_foldl1
    | apply canon_foldl2 | split | dsimp only | apply canon_mk | apply State.Good.regs | apply State.Good.eff
    | apply State.Good.dram | apply State.Good.host | apply State.Good.pending | apply State.Good.cont
    | apply State.Good.whole | apply State.Good.chutes | apply State.Good.log | apply State.Good.same | apply State.Good.privs
    | apply State.Good.sram

theorem paceCredit_canon (s : State) (test : Nat → Bool) (hs : s.Good rq) :
    (paceCredit s test).Good rq := by
  unfold paceCredit
  repeat' with_reducible first
    | assumption | intro _ | apply State.bump_canon | apply canon_foldl | apply canon_foldl1 | apply canon_foldl2 | split
    | dsimp only

theorem paceSegment_canon (s : State) (ctx : Nat) (hs : s.Good rq) :
    (paceSegment s ctx).Good rq := by
  unfold paceSegment
  repeat' with_reducible first
    | assumption | intro _ | apply paceCredit_canon | refine canon_fst_of (by assumption) ?_
    | refine canon_snd_of (by assumption) ?_ | split | dsimp only | apply canon_mk | apply State.Good.regs
    | apply State.Good.eff | apply State.Good.dram | apply State.Good.host | apply State.Good.pending | apply State.Good.cont
    | apply State.Good.whole | apply State.Good.chutes | apply State.Good.log | apply State.Good.same | apply State.Good.privs
    | apply State.Good.sram

theorem paceEpoch_canon (s : State) (m : Nat) (hs : s.Good rq) :
    (paceEpoch s m).Good rq := by
  unfold paceEpoch
  repeat' with_reducible first
    | assumption | intro _ | apply paceCredit_canon | refine canon_fst_of (by assumption) ?_
    | refine canon_snd_of (by assumption) ?_ | split | dsimp only | apply canon_mk | apply State.Good.regs
    | apply State.Good.eff | apply State.Good.dram | apply State.Good.host | apply State.Good.pending | apply State.Good.cont
    | apply State.Good.whole | apply State.Good.chutes | apply State.Good.log | apply State.Good.same | apply State.Good.privs
    | apply State.Good.sram

theorem bucketTake_canon (s : State) (ctx d2h h2d : Nat) (hs : s.Good rq) :
    (bucketTake s ctx d2h h2d).Good rq := by
  unfold bucketTake
  repeat' with_reducible first
    | assumption | intro _ | apply State.modDma_canon | split | dsimp only | apply canon_mk | apply State.Good.regs
    | apply State.Good.eff | apply State.Good.dram | apply State.Good.host | apply State.Good.pending | apply State.Good.cont
    | apply State.Good.whole | apply State.Good.chutes | apply State.Good.log | apply State.Good.same | apply State.Good.privs
    | apply State.Good.sram

theorem cmpRefresh_canon (s : State) (hs : s.Good rq) :
    (cmpRefresh s).Good rq := by
  unfold cmpRefresh
  repeat' with_reducible first
    | assumption | intro _ | apply State.wr_canon | apply State.wrs_canon | apply canon_ite | apply canon_foldl
    | apply canon_foldl1 | apply canon_foldl2 | refine canon_fst_of (by assumption) ?_
    | refine canon_snd_of (by assumption) ?_ | split | dsimp only | apply canon_mk | apply State.Good.regs
    | apply State.Good.eff | apply State.Good.dram | apply State.Good.host | apply State.Good.pending | apply State.Good.cont
    | apply State.Good.whole | apply State.Good.chutes | apply State.Good.log | apply State.Good.same | apply State.Good.privs
    | apply State.Good.sram

theorem State.modJob_canon (s : State) (id : Nat) (g : CmpJob → CmpJob) (hs : s.Good rq) :
    (State.modJob s id g).Good rq := by
  unfold State.modJob
  repeat' with_reducible first
    | assumption | intro _ | apply State.modCmp_canon | apply canon_ite | split | dsimp only | apply canon_mk
    | apply State.Good.regs | apply State.Good.eff | apply State.Good.dram | apply State.Good.host | apply State.Good.pending
    | apply State.Good.cont | apply State.Good.whole | apply State.Good.chutes | apply State.Good.log | apply State.Good.same
    | apply State.Good.privs
    | apply State.Good.sram

theorem jobLeave_canon (s : State) (j : CmpJob) (r : Reply) (hs : s.Good rq) :
    (jobLeave s j r).Good rq := by
  unfold jobLeave
  repeat' with_reducible first
    | assumption | intro _ | apply State.finish_canon | apply State.modCmp_canon | apply cmpRefresh_canon
    | refine canon_fst_of (by assumption) ?_ | refine canon_snd_of (by assumption) ?_ | split | dsimp only | apply canon_mk
    | apply State.Good.regs | apply State.Good.eff | apply State.Good.dram | apply State.Good.host | apply State.Good.pending
    | apply State.Good.cont | apply State.Good.whole | apply State.Good.chutes | apply State.Good.log | apply State.Good.same
    | apply State.Good.privs
    | apply State.Good.sram

theorem cmpDrop_canon (s : State) (ctx : Nat) (st : Status) (hs : s.Good rq) :
    (cmpDrop s ctx st).Good rq := by
  unfold cmpDrop
  repeat' with_reducible first
    | assumption | intro _ | apply State.modCmp_canon | apply jobLeave_canon | apply canon_foldl | apply canon_foldl1
    | apply canon_foldl2 | split | dsimp only | apply canon_mk | apply State.Good.regs | apply State.Good.eff
    | apply State.Good.dram | apply State.Good.host | apply State.Good.pending | apply State.Good.cont
    | apply State.Good.whole | apply State.Good.chutes | apply State.Good.log | apply State.Good.same | apply State.Good.privs
    | apply State.Good.sram

theorem dmaBreak_canon (s : State) (ctx : Nat) (hd : rq.mem = none) (hs : s.Good rq) :
    (dmaBreak s ctx).Good rq := by
  unfold dmaBreak
  repeat' with_reducible first
    | assumption | intro _ | apply chanHalt_canon | apply cmpDrop_canon | apply xferEnd_canon | apply canon_foldl
    | apply canon_foldl1 | apply canon_foldl2 | refine canon_fst_of (by assumption) ?_
    | refine canon_snd_of (by assumption) ?_ | split | dsimp only | apply canon_mk | apply State.Good.regs
    | apply State.Good.eff | apply State.Good.dram | apply State.Good.host | apply State.Good.pending | apply State.Good.cont
    | apply State.Good.whole | apply State.Good.chutes | apply State.Good.log | apply State.Good.same | apply State.Good.privs
    | apply State.Good.sram

theorem dmaCloseCtx_canon (s : State) (ctx : Nat) (hs : s.Good rq) :
    (dmaCloseCtx s ctx).Good rq := by
  unfold dmaCloseCtx
  repeat' with_reducible first
    | assumption | intro _ | apply chanClose_canon | apply cmpDrop_canon | apply canon_foldl | apply canon_foldl1
    | apply canon_foldl2 | split | dsimp only

end Sys2Proof.Machine
end

