-- ==== Sys2Proof/Laws/CanonTimOps.lean ====
section
/-!
SUPPORT. What Machine/TimOps.lean defines keeps the canonical form of what is stored.
-/

namespace Sys2Proof.Machine

variable {rq : Kept}

theorem State.modTim_canon (s : State) (g : Tim → Tim) (hs : s.Good rq) :
    (State.modTim s g).Good rq := by
  unfold State.modTim
  repeat' with_reducible first
    | assumption | intro _ | split | dsimp only | apply canon_mk | apply State.Good.regs | apply State.Good.eff
    | apply State.Good.dram | apply State.Good.host | apply State.Good.pending | apply State.Good.cont
    | apply State.Good.whole | apply State.Good.chutes | apply State.Good.log | apply State.Good.same | apply State.Good.privs
    | apply State.Good.sram

theorem State.modIn_canon (s : State) (n : Nat) (g : TInput → TInput) (hs : s.Good rq) :
    (State.modIn s n g).Good rq := by
  unfold State.modIn
  repeat' with_reducible first
    | assumption | intro _ | apply State.modTim_canon | split | dsimp only | apply canon_mk | apply State.Good.regs
    | apply State.Good.eff | apply State.Good.dram | apply State.Good.host | apply State.Good.pending | apply State.Good.cont
    | apply State.Good.whole | apply State.Good.chutes | apply State.Good.log | apply State.Good.same | apply State.Good.privs
    | apply State.Good.sram

theorem State.modSt_canon (s : State) (c : Nat) (g : TStore → TStore) (hs : s.Good rq) :
    (State.modSt s c g).Good rq := by
  unfold State.modSt
  repeat' with_reducible first
    | assumption | intro _ | apply State.modTim_canon | split | dsimp only | apply canon_mk | apply State.Good.regs
    | apply State.Good.eff | apply State.Good.dram | apply State.Good.host | apply State.Good.pending | apply State.Good.cont
    | apply State.Good.whole | apply State.Good.chutes | apply State.Good.log | apply State.Good.same | apply State.Good.privs
    | apply State.Good.sram

theorem State.modMu_canon (s : State) (u : Nat) (g : TMu → TMu) (hs : s.Good rq) :
    (State.modMu s u g).Good rq := by
  unfold State.modMu
  repeat' with_reducible first
    | assumption | intro _ | apply State.modTim_canon | split | dsimp only | apply canon_mk | apply State.Good.regs
    | apply State.Good.eff | apply State.Good.dram | apply State.Good.host | apply State.Good.pending | apply State.Good.cont
    | apply State.Good.whole | apply State.Good.chutes | apply State.Good.log | apply State.Good.same | apply State.Good.privs
    | apply State.Good.sram

theorem emitRec_canon (s : State) (src kind ts : Nat) (level susp : Bool) (data : Nat) (hs : s.Good rq) :
    (emitRec s src kind ts level susp data).Good rq := by
  unfold emitRec
  repeat' with_reducible first
    | assumption | intro _ | apply State.modSt_canon | apply State.modTim_canon | split | dsimp only | apply canon_mk
    | apply State.Good.regs | apply State.Good.eff | apply State.Good.dram | apply State.Good.host | apply State.Good.pending
    | apply State.Good.cont | apply State.Good.whole | apply State.Good.chutes | apply State.Good.log | apply State.Good.same
    | apply State.Good.privs
    | apply State.Good.sram

theorem setTokens_canon (s : State) (src m ts : Nat) (hs : s.Good rq) :
    (setTokens s src m ts).Good rq := by
  unfold setTokens
  repeat' with_reducible first
    | assumption | intro _ | apply State.modSt_canon | split | dsimp only | apply canon_mk | apply State.Good.regs
    | apply State.Good.eff | apply State.Good.dram | apply State.Good.host | apply State.Good.pending | apply State.Good.cont
    | apply State.Good.whole | apply State.Good.chutes | apply State.Good.log | apply State.Good.same | apply State.Good.privs
    | apply State.Good.sram

theorem unstored_canon (s : State) (n : Nat) (hs : s.Good rq) :
    (unstored s n).Good rq := by
  unfold unstored
  repeat' with_reducible first
    | assumption | intro _ | apply State.bump_canon | apply canon_ite | split | dsimp only

theorem gapClose_canon (s : State) (src ts : Nat) (level : Bool) (hs : s.Good rq) :
    (gapClose s src ts level).Good rq := by
  unfold gapClose
  repeat' with_reducible first
    | assumption | intro _ | apply State.modSt_canon | apply emitRec_canon | apply canon_ite
    | refine canon_fst_of (by assumption) ?_ | refine canon_snd_of (by assumption) ?_ | split | dsimp only | apply canon_mk
    | apply State.Good.regs | apply State.Good.eff | apply State.Good.dram | apply State.Good.host | apply State.Good.pending
    | apply State.Good.cont | apply State.Good.whole | apply State.Good.chutes | apply State.Good.log | apply State.Good.same
    | apply State.Good.privs
    | apply State.Good.sram

theorem storeRec_canon (s0 : State) (src n kind ts : Nat) (level before susp : Bool) (data : Nat) (hs0 : s0.Good rq) :
    (storeRec s0 src n kind ts level before susp data).1.Good rq := by
  unfold storeRec
  repeat' with_reducible first
    | assumption | intro _ | apply State.modSt_canon | apply State.modTim_canon | apply State.raiseAt_canon
    | apply emitRec_canon | apply gapClose_canon | apply setTokens_canon | apply unstored_canon | apply canon_ite
    | apply canon_ite1 | refine canon_fst_of (by assumption) ?_ | refine canon_snd_of (by assumption) ?_ | split | dsimp only
    | apply canon_mk | apply State.Good.regs | apply State.Good.eff | apply State.Good.dram | apply State.Good.host
    | apply State.Good.pending | apply State.Good.cont | apply State.Good.whole | apply State.Good.chutes
    | apply State.Good.log | apply State.Good.same | apply State.Good.privs
    | apply State.Good.sram

theorem groupQueue_canon (s : State) (n ts : Nat) (level susp store : Bool) (hs : s.Good rq) :
    (groupQueue s n ts level susp store).Good rq := by
  unfold groupQueue
  repeat' with_reducible first
    | assumption | intro _ | apply State.modTim_canon | apply canon_ite | split | dsimp only | apply canon_mk
    | apply State.Good.regs | apply State.Good.eff | apply State.Good.dram | apply State.Good.host | apply State.Good.pending
    | apply State.Good.cont | apply State.Good.whole | apply State.Good.chutes | apply State.Good.log | apply State.Good.same
    | apply State.Good.privs
    | apply State.Good.sram

theorem groupEdge_canon (s0 : State) (e : TGEdge) (hs0 : s0.Good rq) :
    (groupEdge s0 e).Good rq := by
  unfold groupEdge
  repeat' with_reducible first
    | assumption | intro _ | apply State.modTim_canon | apply storeRec_canon | apply unstored_canon | apply canon_ite
    | apply canon_ite1 | apply canon_ite2 | refine canon_fst_of (by assumption) ?_ | refine canon_snd_of (by assumption) ?_
    | split | dsimp only | apply canon_mk | apply State.Good.regs | apply State.Good.eff | apply State.Good.dram
    | apply State.Good.host | apply State.Good.pending | apply State.Good.cont | apply State.Good.whole
    | apply State.Good.chutes | apply State.Good.log | apply State.Good.same | apply State.Good.privs
    | apply State.Good.sram

theorem groupsRun_canon (s : State) (hs : s.Good rq) :
    (groupsRun s).Good rq := by
  unfold groupsRun
  repeat' with_reducible first
    | assumption | intro _ | apply State.modTim_canon | apply groupEdge_canon | apply canon_foldl | apply canon_foldl1
    | apply canon_foldl2 | split | dsimp only | apply canon_mk | apply State.Good.regs | apply State.Good.eff
    | apply State.Good.dram | apply State.Good.host | apply State.Good.pending | apply State.Good.cont
    | apply State.Good.whole | apply State.Good.chutes | apply State.Good.log | apply State.Good.same | apply State.Good.privs
    | apply State.Good.sram

theorem storeQual_canon (s : State) (e : QEdge) (hs : s.Good rq) :
    (storeQual s e).Good rq := by
  unfold storeQual
  repeat' with_reducible first
    | assumption | intro _ | apply gapClose_canon | apply storeRec_canon | apply canon_ite | apply canon_ite1
    | apply canon_ite2 | split | dsimp only

theorem qualRun_canon (s : State) (hs : s.Good rq) :
    (qualRun s).Good rq := by
  unfold qualRun
  repeat' with_reducible first
    | assumption | intro _ | apply State.modTim_canon | apply storeQual_canon | apply canon_foldl | apply canon_foldl1
    | apply canon_foldl2 | split | dsimp only | apply canon_mk | apply State.Good.regs | apply State.Good.eff
    | apply State.Good.dram | apply State.Good.host | apply State.Good.pending | apply State.Good.cont
    | apply State.Good.whole | apply State.Good.chutes | apply State.Good.log | apply State.Good.same
    | apply State.Good.privs | apply State.Good.sram

theorem storeEdge_canon (s : State) (src ts : Nat) (level susp : Bool) (hs : s.Good rq) :
    (storeEdge s src ts level susp).Good rq := by
  unfold storeEdge
  repeat' with_reducible first
    | assumption | intro _ | apply storeRec_canon | apply canon_ite | apply canon_ite1
    | refine canon_fst_of (by assumption) ?_ | refine canon_snd_of (by assumption) ?_ | apply State.modTim_canon
    | apply storeQual_canon | apply canon_ite2 | split | dsimp only | apply canon_mk | apply State.Good.regs
    | apply State.Good.eff | apply State.Good.dram | apply State.Good.host | apply State.Good.pending
    | apply State.Good.cont | apply State.Good.whole | apply State.Good.chutes | apply State.Good.log
    | apply State.Good.same | apply State.Good.privs | apply State.Good.sram

theorem storeQEdge_canon (s : State) (ts : Nat) (rise : Bool) (hs : s.Good rq) :
    (storeQEdge s ts rise).Good rq := by
  unfold storeQEdge
  repeat' with_reducible first
    | assumption | intro _ | apply emitRec_canon | apply canon_ite | apply canon_foldl | apply canon_foldl1
    | apply canon_foldl2 | split | dsimp only

theorem lossRec_canon (s : State) (src kind ts : Nat) (level : Bool) (data : Nat) (hs : s.Good rq) :
    (lossRec s src kind ts level data).Good rq := by
  unfold lossRec
  repeat' with_reducible first
    | assumption | intro _ | apply emitRec_canon | apply canon_ite | split | dsimp only

theorem gapsRun_canon (s : State) (hs : s.Good rq) :
    (gapsRun s).Good rq := by
  unfold gapsRun
  repeat' with_reducible first
    | assumption | intro _ | apply gapClose_canon | apply canon_foldl | apply canon_foldl1 | apply canon_foldl2 | split
    | dsimp only

theorem handRec_canon (s : State) (hd : rq.mem = none) (hs : s.Good rq) :
    (handRec s).Good rq := by
  unfold handRec
  repeat' with_reducible first
    | assumption | intro _ | apply canon_ite | apply canon_ite1 | apply canon_ite2 | apply State.bump64_canon
    | apply State.modTim_canon | apply pushTransition_canon | split | dsimp only | apply canon_mk | apply State.Good.regs
    | apply State.Good.eff | apply State.Good.dram | apply State.Good.host | apply State.Good.pending
    | apply State.Good.cont | apply State.Good.whole | apply State.Good.chutes | apply State.Good.log
    | apply State.Good.same | apply State.Good.privs | apply State.Good.sram

theorem timSettle_canon (s : State) (hd : rq.mem = none) (hs : s.Good rq) :
    (timSettle s).Good rq := by
  unfold timSettle
  repeat' with_reducible first
    | assumption | intro _ | apply canon_foldl | apply canon_foldl1 | apply canon_foldl2 | apply State.modTim_canon
    | apply groupEdge_canon | apply handRec_canon | apply storeQual_canon | split | dsimp only | apply canon_mk
    | apply State.Good.regs | apply State.Good.eff | apply State.Good.dram | apply State.Good.host
    | apply State.Good.pending | apply State.Good.cont | apply State.Good.whole | apply State.Good.chutes
    | apply State.Good.log | apply State.Good.same | apply State.Good.privs | apply State.Good.sram

theorem lossNow_canon (s : State) (hs : s.Good rq) :
    (lossNow s).Good rq := by
  unfold lossNow
  repeat' with_reducible first
    | assumption | intro _ | apply State.wrB_canon | split | dsimp only

theorem timFresh_canon (s : State) (ts : Nat) (hs : s.Good rq) :
    (timFresh s ts).Good rq := by
  unfold timFresh
  repeat' with_reducible first
    | assumption | intro _ | apply State.modTim_canon | split | dsimp only | apply canon_mk | apply State.Good.regs
    | apply State.Good.eff | apply State.Good.dram | apply State.Good.host | apply State.Good.pending
    | apply State.Good.cont | apply State.Good.whole | apply State.Good.chutes | apply State.Good.log
    | apply State.Good.same | apply State.Good.privs | apply State.Good.sram

theorem timSums_canon (s : State) (ts : Nat) (hs : s.Good rq) :
    (timSums s ts).Good rq := by
  unfold timSums
  repeat' with_reducible first
    | assumption | intro _ | apply State.raiseAt_canon | apply State.wr_canon | apply State.wrB_canon | apply canon_ite
    | apply canon_ite1 | apply canon_ite2 | apply canon_foldl | apply canon_foldl1 | apply canon_foldl2 | split | dsimp only

theorem timArm_canon (s : State) (ts : Nat) (hd : rq.mem = none) (hs : s.Good rq) :
    (timArm s ts).Good rq := by
  unfold timArm
  repeat' with_reducible first
    | assumption | intro _ | apply State.applyRegs_canon | apply State.zeroFields_canon | apply emitRec_canon
    | apply lossNow_canon | apply timFresh_canon | apply timSettle_canon | apply timSums_canon | apply canon_foldl
    | apply canon_foldl1 | apply canon_foldl2 | split | dsimp only

theorem fpEdge_canon (s : State) (f ts del : Nat) (hs : s.Good rq) :
    (fpEdge s f ts del).Good rq := by
  unfold fpEdge
  repeat' with_reducible first
    | assumption | intro _ | apply State.bump_canon | apply State.modTim_canon | apply State.wrTs_canon
    | apply State.wrs_canon | apply canon_ite | refine canon_fst_of (by assumption) ?_
    | refine canon_snd_of (by assumption) ?_ | split | dsimp only | apply canon_mk | apply State.Good.regs
    | apply State.Good.eff | apply State.Good.dram | apply State.Good.host | apply State.Good.pending | apply State.Good.cont
    | apply State.Good.whole | apply State.Good.chutes | apply State.Good.log | apply State.Good.same | apply State.Good.privs
    | apply State.Good.sram

theorem fpEdges_canon (s : State) (src ts del : Nat) (level : Bool) (hs : s.Good rq) :
    (fpEdges s src ts del level).Good rq := by
  unfold fpEdges
  repeat' with_reducible first
    | assumption | intro _ | apply fpEdge_canon | apply canon_foldl | apply canon_foldl1 | apply canon_foldl2 | split
    | dsimp only

theorem fpLoss_canon (s : State) (src : Nat) (hs : s.Good rq) :
    (fpLoss s src).Good rq := by
  unfold fpLoss
  repeat' with_reducible first
    | assumption | intro _ | apply State.modTim_canon | apply canon_foldl | apply canon_foldl1 | apply canon_foldl2 | split
    | dsimp only | apply canon_mk | apply State.Good.regs | apply State.Good.eff | apply State.Good.dram
    | apply State.Good.host | apply State.Good.pending | apply State.Good.cont | apply State.Good.whole
    | apply State.Good.chutes | apply State.Good.log | apply State.Good.same | apply State.Good.privs
    | apply State.Good.sram

theorem muClose_canon (s : State) (u endTs : Nat) (hs : s.Good rq) :
    (muClose s u endTs).Good rq := by
  unfold muClose
  repeat' with_reducible first
    | assumption | intro _ | apply State.modMu_canon | split | dsimp only | apply canon_mk | apply State.Good.regs
    | apply State.Good.eff | apply State.Good.dram | apply State.Good.host | apply State.Good.pending | apply State.Good.cont
    | apply State.Good.whole | apply State.Good.chutes | apply State.Good.log | apply State.Good.same | apply State.Good.privs
    | apply State.Good.sram

theorem muGates_canon (u n : Nat) (s : State) (hs : s.Good rq) : (muGates u n s).Good rq := by
  induction n generalizing s with
  | zero => exact hs
  | succ n ih => exact ih _ (muClose_canon s u _ hs)

theorem muTimeGates_canon (u ts : Nat) (s : State) (hs : s.Good rq) :
    (muTimeGates u ts s).Good rq := by
  unfold muTimeGates
  repeat' with_reducible first
    | assumption | intro _ | apply muGates_canon | apply canon_ite | split | dsimp only

theorem muAdd_canon (s : State) (u d d2 ext ts from_ : Nat) (susp : Bool) (hs : s.Good rq) :
    (muAdd s u d d2 ext ts from_ susp).Good rq := by
  unfold muAdd
  repeat' with_reducible first
    | assumption | intro _ | apply State.modMu_canon | apply muClose_canon | apply canon_ite | split | dsimp only
    | apply canon_mk | apply State.Good.regs | apply State.Good.eff | apply State.Good.dram | apply State.Good.host
    | apply State.Good.pending | apply State.Good.cont | apply State.Good.whole | apply State.Good.chutes
    | apply State.Good.log | apply State.Good.same | apply State.Good.privs
    | apply State.Good.sram

theorem muStart_canon (s : State) (u ts : Nat) (susp : Bool) (hs : s.Good rq) :
    (muStart s u ts susp).Good rq := by
  unfold muStart
  repeat' with_reducible first
    | assumption | intro _ | apply State.modMu_canon | apply muAdd_canon | apply canon_ite
    | refine canon_fst_of (by assumption) ?_ | refine canon_snd_of (by assumption) ?_ | split | dsimp only | apply canon_mk
    | apply State.Good.regs | apply State.Good.eff | apply State.Good.dram | apply State.Good.host | apply State.Good.pending
    | apply State.Good.cont | apply State.Good.whole | apply State.Good.chutes | apply State.Good.log | apply State.Good.same
    | apply State.Good.privs
    | apply State.Good.sram

theorem muStop_canon (s : State) (u ts : Nat) (susp : Bool) (hs : s.Good rq) :
    (muStop s u ts susp).Good rq := by
  unfold muStop
  repeat' with_reducible first
    | assumption | intro _ | apply State.modMu_canon | apply muAdd_canon | apply canon_ite
    | refine canon_fst_of (by assumption) ?_ | refine canon_snd_of (by assumption) ?_ | split | dsimp only | apply canon_mk
    | apply State.Good.regs | apply State.Good.eff | apply State.Good.dram | apply State.Good.host | apply State.Good.pending
    | apply State.Good.cont | apply State.Good.whole | apply State.Good.chutes | apply State.Good.log | apply State.Good.same
    | apply State.Good.privs
    | apply State.Good.sram

theorem muEvent_canon (u : Nat) (s : State) (e : TMuEv) (hs : s.Good rq) :
    (muEvent u s e).Good rq := by
  unfold muEvent
  repeat' with_reducible first
    | assumption | intro _ | apply State.modMu_canon | apply muClose_canon | apply muStart_canon | apply muStop_canon
    | apply muTimeGates_canon | apply canon_ite | split | dsimp only | apply canon_mk | apply State.Good.regs
    | apply State.Good.eff | apply State.Good.dram | apply State.Good.host | apply State.Good.pending | apply State.Good.cont
    | apply State.Good.whole | apply State.Good.chutes | apply State.Good.log | apply State.Good.same | apply State.Good.privs
    | apply State.Good.sram

theorem muRun_canon (u : Nat) (s : State) (hs : s.Good rq) :
    (muRun u s).Good rq := by
  unfold muRun
  repeat' with_reducible first
    | assumption | intro _ | apply State.modMu_canon | apply muEvent_canon | apply canon_foldl | apply canon_foldl1
    | apply canon_foldl2 | split | dsimp only | apply canon_mk | apply State.Good.regs | apply State.Good.eff
    | apply State.Good.dram | apply State.Good.host | apply State.Good.pending | apply State.Good.cont
    | apply State.Good.whole | apply State.Good.chutes | apply State.Good.log | apply State.Good.same | apply State.Good.privs
    | apply State.Good.sram

theorem muEvents_canon (s : State) (e : TMuEv) (hs : s.Good rq) :
    (muEvents s e).Good rq := by
  unfold muEvents
  repeat' with_reducible first
    | assumption | intro _ | apply State.modMu_canon | apply muRun_canon | apply canon_foldl | apply canon_foldl1
    | apply canon_foldl2 | split | dsimp only | apply canon_mk | apply State.Good.regs | apply State.Good.eff
    | apply State.Good.dram | apply State.Good.host | apply State.Good.pending | apply State.Good.cont
    | apply State.Good.whole | apply State.Good.chutes | apply State.Good.log | apply State.Good.same | apply State.Good.privs
    | apply State.Good.sram

theorem muEdges_canon (s : State) (src ts : Nat) (level susp : Bool) (hs : s.Good rq) :
    (muEdges s src ts level susp).Good rq := by
  unfold muEdges
  repeat' with_reducible first
    | assumption | intro _ | apply muEvents_canon | split | dsimp only

theorem muLoss_canon (s : State) (src ts : Nat) (hs : s.Good rq) :
    (muLoss s src ts).Good rq := by
  unfold muLoss
  repeat' with_reducible first
    | assumption | intro _ | apply muEvents_canon | split | dsimp only

theorem muShow_canon (s : State) (u : Nat) (hs : s.Good rq) :
    (muShow s u).Good rq := by
  unfold muShow
  repeat' with_reducible first
    | assumption | intro _ | apply State.wrTs_canon | apply State.wrs_canon | split | dsimp only

theorem muPost_canon (s : State) (u : Nat) (r : MuRes) (hs : s.Good rq) :
    (muPost s u r).Good rq := by
  unfold muPost
  repeat' with_reducible first
    | assumption | intro _ | apply State.bump_canon | apply State.modMu_canon | apply State.raise_canon | apply muShow_canon
    | apply canon_ite | split | dsimp only | apply canon_mk | apply State.Good.regs | apply State.Good.eff
    | apply State.Good.dram | apply State.Good.host | apply State.Good.pending | apply State.Good.cont
    | apply State.Good.whole | apply State.Good.chutes | apply State.Good.log | apply State.Good.same | apply State.Good.privs
    | apply State.Good.sram

end Sys2Proof.Machine
end

