-- ==== Sys2Proof/Laws/CanonTrgOps.lean ====
section
/-!
SUPPORT. What Machine/TrgOps.lean defines keeps the canonical form of what is stored.
-/

namespace Sys2Proof.Machine

variable {rq : Kept}

theorem State.modTrg_canon (s : State) (g : Trg → Trg) (hs : s.Good rq) :
    (State.modTrg s g).Good rq := by
  unfold State.modTrg
  repeat' with_reducible first
    | assumption | intro _ | split | dsimp only | apply canon_mk | apply State.Good.regs | apply State.Good.eff
    | apply State.Good.dram | apply State.Good.host | apply State.Good.pending | apply State.Good.cont
    | apply State.Good.whole | apply State.Good.chutes | apply State.Good.log | apply State.Good.same | apply State.Good.privs
    | apply State.Good.sram

theorem State.modNote_canon (s : State) (n : Nat) (g : TNote → TNote) (hs : s.Good rq) :
    (State.modNote s n g).Good rq := by
  unfold State.modNote
  repeat' with_reducible first
    | assumption | intro _ | apply State.modTrg_canon | split | dsimp only | apply canon_mk | apply State.Good.regs
    | apply State.Good.eff | apply State.Good.dram | apply State.Good.host | apply State.Good.pending | apply State.Good.cont
    | apply State.Good.whole | apply State.Good.chutes | apply State.Good.log | apply State.Good.same | apply State.Good.privs
    | apply State.Good.sram

theorem State.modBn_canon (s : State) (i : Nat) (g : BNote → BNote) (hs : s.Good rq) :
    (State.modBn s i g).Good rq := by
  unfold State.modBn
  repeat' with_reducible first
    | assumption | intro _ | apply State.modTrg_canon | split | dsimp only | apply canon_mk | apply State.Good.regs
    | apply State.Good.eff | apply State.Good.dram | apply State.Good.host | apply State.Good.pending | apply State.Good.cont
    | apply State.Good.whole | apply State.Good.chutes | apply State.Good.log | apply State.Good.same | apply State.Good.privs
    | apply State.Good.sram

theorem trgOnce_canon (s : State) (typ ts res : Nat) (hs : s.Good rq) :
    (trgOnce s typ ts res).Good rq := by
  unfold trgOnce
  repeat' with_reducible first
    | assumption | intro _ | apply State.modTrg_canon | apply State.raiseAt_canon | apply canon_ite | split | dsimp only
    | apply canon_mk | apply State.Good.regs | apply State.Good.eff | apply State.Good.dram | apply State.Good.host
    | apply State.Good.pending | apply State.Good.cont | apply State.Good.whole | apply State.Good.chutes
    | apply State.Good.log | apply State.Good.same | apply State.Good.privs
    | apply State.Good.sram

theorem trigPin_canon (s : State) (hs : s.Good rq) :
    (trigPin s).Good rq := by
  unfold trigPin
  repeat' with_reducible first
    | assumption | intro _ | apply canon_ite | split | dsimp only | apply canon_mk | apply State.Good.regs
    | apply State.Good.eff | apply State.Good.dram | apply State.Good.host | apply State.Good.pending | apply State.Good.cont
    | apply State.Good.whole | apply State.Good.chutes | apply State.Good.log | apply State.Good.same | apply State.Good.privs
    | apply State.Good.sram

theorem outRequest_canon (s : State) (act ts : Nat) (hs : s.Good rq) :
    (outRequest s act ts).Good rq := by
  unfold outRequest
  repeat' with_reducible first
    | assumption | intro _ | apply State.modTrg_canon | apply canon_ite | split | dsimp only | apply canon_mk
    | apply State.Good.regs | apply State.Good.eff | apply State.Good.dram | apply State.Good.host | apply State.Good.pending
    | apply State.Good.cont | apply State.Good.whole | apply State.Good.chutes | apply State.Good.log | apply State.Good.same
    | apply State.Good.privs
    | apply State.Good.sram

theorem noteLevel_canon (s : State) (n ts : Nat) (v : Bool) (hs : s.Good rq) :
    (noteLevel s n ts v).Good rq := by
  unfold noteLevel
  repeat' with_reducible first
    | assumption | intro _ | apply State.modTrg_canon | apply State.wrB_canon | apply outRequest_canon | apply canon_ite
    | split | dsimp only | apply canon_mk | apply State.Good.regs | apply State.Good.eff | apply State.Good.dram
    | apply State.Good.host | apply State.Good.pending | apply State.Good.cont | apply State.Good.whole
    | apply State.Good.chutes | apply State.Good.log | apply State.Good.same | apply State.Good.privs
    | apply State.Good.sram

theorem noteStore_canon (s : State) (n ts : Nat) (c : NCfg) (k : Comps) (up dn : Option Meas) (hs : s.Good rq) :
    (noteStore s n ts c k up dn).Good rq := by
  unfold noteStore
  repeat' with_reducible first
    | assumption | intro _ | apply State.modNote_canon | apply State.wrs_canon | apply noteLevel_canon | split | dsimp only
    | apply canon_mk | apply State.Good.regs | apply State.Good.eff | apply State.Good.dram | apply State.Good.host
    | apply State.Good.pending | apply State.Good.cont | apply State.Good.whole | apply State.Good.chutes
    | apply State.Good.log | apply State.Good.same | apply State.Good.privs
    | apply State.Good.sram

theorem noteSkip_canon (s : State) (n ts : Nat) (hs : s.Good rq) :
    (noteSkip s n ts).Good rq := by
  unfold noteSkip
  repeat' with_reducible first
    | assumption | intro _ | apply State.bumpBy_canon | apply State.modNote_canon | apply State.wr_canon
    | apply noteLevel_canon | apply canon_ite | split | dsimp only | apply canon_mk | apply State.Good.regs
    | apply State.Good.eff | apply State.Good.dram | apply State.Good.host | apply State.Good.pending | apply State.Good.cont
    | apply State.Good.whole | apply State.Good.chutes | apply State.Good.log | apply State.Good.same | apply State.Good.privs
    | apply State.Good.sram

theorem trgParity_canon (i : Nat) (s : State) (hs : s.Good rq) :
    (trgParity i s).Good rq := by
  unfold trgParity
  repeat' with_reducible first
    | assumption | intro _ | apply State.modNote_canon | apply State.modTrg_canon | apply State.raiseAt_canon
    | apply noteSkip_canon | apply canon_ite | apply canon_ite1 | apply canon_ite2 | split | dsimp only | apply canon_mk
    | apply State.Good.regs | apply State.Good.eff | apply State.Good.dram | apply State.Good.host
    | apply State.Good.pending | apply State.Good.cont | apply State.Good.whole | apply State.Good.chutes
    | apply State.Good.log | apply State.Good.same | apply State.Good.privs | apply State.Good.sram

theorem noteSilent_canon (s : State) (n ts : Nat) (level : Bool) (hs : s.Good rq) :
    (noteSilent s n ts level).Good rq := by
  unfold noteSilent
  repeat' with_reducible first
    | assumption | intro _ | apply State.modNote_canon | apply State.wr_canon | apply noteLevel_canon | apply noteStore_canon
    | apply canon_ite | refine canon_fst_of (by assumption) ?_ | refine canon_snd_of (by assumption) ?_ | split | dsimp only
    | apply canon_mk | apply State.Good.regs | apply State.Good.eff | apply State.Good.dram | apply State.Good.host
    | apply State.Good.pending | apply State.Good.cont | apply State.Good.whole | apply State.Good.chutes
    | apply State.Good.log | apply State.Good.same | apply State.Good.privs
    | apply State.Good.sram

theorem noteRedo_canon (s : State) (n ts : Nat) (hs : s.Good rq) :
    (noteRedo s n ts).Good rq := by
  unfold noteRedo
  repeat' with_reducible first
    | assumption | intro _ | apply State.modNote_canon | apply noteSilent_canon | apply noteSkip_canon | apply canon_ite
    | refine canon_fst_of (by assumption) ?_ | refine canon_snd_of (by assumption) ?_ | split | dsimp only | apply canon_mk
    | apply State.Good.regs | apply State.Good.eff | apply State.Good.dram | apply State.Good.host | apply State.Good.pending
    | apply State.Good.cont | apply State.Good.whole | apply State.Good.chutes | apply State.Good.log | apply State.Good.same
    | apply State.Good.privs
    | apply State.Good.sram

theorem noteSample_canon (s : State) (n : Nat) (hi lo : Int) (ts : Nat) (susp ovr : Bool) (hs : s.Good rq) :
    (noteSample s n hi lo ts susp ovr).1.Good rq := by
  unfold noteSample
  repeat' with_reducible first
    | assumption | intro _ | apply State.modNote_canon | apply noteStore_canon | apply canon_ite | apply canon_ite1
    | refine canon_fst_of (by assumption) ?_ | refine canon_snd_of (by assumption) ?_ | split | dsimp only | apply canon_mk
    | apply State.Good.regs | apply State.Good.eff | apply State.Good.dram | apply State.Good.host | apply State.Good.pending
    | apply State.Good.cont | apply State.Good.whole | apply State.Good.chutes | apply State.Good.log | apply State.Good.same
    | apply State.Good.privs
    | apply State.Good.sram

theorem State.modPSeg_canon (s : State) (cap no : Nat) (g : PSeg → PSeg) (hs : s.Good rq) :
    (State.modPSeg s cap no g).Good rq := by
  unfold State.modPSeg
  repeat' with_reducible first
    | assumption | intro _ | apply canon_ite | apply State.modTrg_canon | apply canon_ite1 | apply canon_ite2 | split
    | dsimp only | apply canon_mk | apply State.Good.regs | apply State.Good.eff | apply State.Good.dram
    | apply State.Good.host | apply State.Good.pending | apply State.Good.cont | apply State.Good.whole
    | apply State.Good.chutes | apply State.Good.log | apply State.Good.same | apply State.Good.privs
    | apply State.Good.sram

theorem holdBoundary_canon (s : State) (t : Nat) (hs : s.Good rq) :
    (holdBoundary s t).Good rq := by
  unfold holdBoundary
  repeat' with_reducible first
    | assumption | intro _ | apply canon_ite | refine canon_fst_of (by assumption) ?_
    | refine canon_snd_of (by assumption) ?_ | apply State.applyRegs_canon | apply State.modPSeg_canon | apply canon_ite1
    | apply canon_ite2 | split | dsimp only | apply canon_mk | apply State.Good.regs | apply State.Good.eff
    | apply State.Good.dram | apply State.Good.host | apply State.Good.pending | apply State.Good.cont
    | apply State.Good.whole | apply State.Good.chutes | apply State.Good.log | apply State.Good.same
    | apply State.Good.privs | apply State.Good.sram

theorem trgRefresh_canon (s : State) (hs : s.Good rq) :
    (trgRefresh s).Good rq := by
  unfold trgRefresh
  repeat' with_reducible first
    | assumption | intro _ | apply State.wr_canon | apply holdBoundary_canon | apply trigPin_canon | apply canon_ite
    | refine canon_fst_of (by assumption) ?_ | refine canon_snd_of (by assumption) ?_ | split | dsimp only | apply canon_mk
    | apply State.Good.regs | apply State.Good.eff | apply State.Good.dram | apply State.Good.host | apply State.Good.pending
    | apply State.Good.cont | apply State.Good.whole | apply State.Good.chutes | apply State.Good.log | apply State.Good.same
    | apply State.Good.privs
    | apply State.Good.sram

theorem placeAccept_canon (s : State) (d : Dec) (hd : rq.mem = none) (hs : s.Good rq) :
    (placeAccept s d).Good rq := by
  unfold placeAccept
  repeat' with_reducible first
    | assumption | intro _ | apply State.modTrg_canon | apply State.wrTs_canon | apply State.wrs_canon | apply askRecord_canon
    | apply capAccept_canon | apply holdBoundary_canon | apply outRequest_canon | apply sheafDecide_canon
    | apply trgOnce_canon | apply trgRefresh_canon | apply canon_ite | refine canon_fst_of (by assumption) ?_
    | refine canon_snd_of (by assumption) ?_ | split | dsimp only | apply canon_mk | apply State.Good.regs
    | apply State.Good.eff | apply State.Good.dram | apply State.Good.host | apply State.Good.pending | apply State.Good.cont
    | apply State.Good.whole | apply State.Good.chutes | apply State.Good.log | apply State.Good.same | apply State.Good.privs
    | apply State.Good.sram

theorem placeOrder_canon (s : State) (d : Dec) (hs : s.Good rq) :
    (placeOrder s d).Good rq := by
  unfold placeOrder
  repeat' with_reducible first
    | assumption | intro _ | apply State.bump_canon | apply State.raiseAt_canon | split | dsimp only

theorem placeHold_canon (s : State) (hs : s.Good rq) :
    (placeHold s).Good rq := by
  unfold placeHold
  repeat' with_reducible first
    | assumption | intro _ | apply State.bump_canon | apply State.modPSeg_canon | apply State.modTrg_canon | split
    | dsimp only | apply canon_mk | apply State.Good.regs | apply State.Good.eff | apply State.Good.dram
    | apply State.Good.host | apply State.Good.pending | apply State.Good.cont | apply State.Good.whole
    | apply State.Good.chutes | apply State.Good.log | apply State.Good.same | apply State.Good.privs
    | apply State.Good.sram

theorem placeOver_canon (s : State) (g : PSeg) (d : Dec) (hs : s.Good rq) :
    (placeOver s g d).Good rq := by
  unfold placeOver
  repeat' with_reducible first
    | assumption | intro _ | apply State.bump_canon | apply State.modPSeg_canon | apply State.raiseAt_canon
    | apply canon_ite | apply canon_ite1 | apply canon_ite2 | split | dsimp only | apply canon_mk | apply State.Good.regs
    | apply State.Good.eff | apply State.Good.dram | apply State.Good.host | apply State.Good.pending
    | apply State.Good.cont | apply State.Good.whole | apply State.Good.chutes | apply State.Good.log
    | apply State.Good.same | apply State.Good.privs | apply State.Good.sram

theorem place_canon (s : State) (d : Dec) (hd : rq.mem = none) (hs : s.Good rq) :
    (place s d).1.Good rq := by
  unfold place
  repeat' with_reducible first
    | assumption | intro _ | apply placeAccept_canon | apply placeHold_canon | apply placeOrder_canon
    | apply placeOver_canon | apply canon_ite | apply canon_ite1 | apply canon_ite2 | split | dsimp only

theorem decideOn_canon (s : State) (d : Dec) (hd : rq.mem = none) (hs : s.Good rq) :
    (decideOn s d).1.Good rq := by
  unfold decideOn
  repeat' with_reducible first
    | assumption | intro _ | apply State.bump64_canon | apply State.wrTs_canon | apply State.wrs_canon | apply place_canon
    | split | dsimp only

theorem pipePut_canon (s : State) (fclk turn : Nat) (d : Dec) (hs : s.Good rq) :
    (pipePut s fclk turn d).Good rq := by
  unfold pipePut
  repeat' with_reducible first
    | assumption | intro _ | apply State.modTrg_canon | split | dsimp only | apply canon_mk | apply State.Good.regs
    | apply State.Good.eff | apply State.Good.dram | apply State.Good.host | apply State.Good.pending
    | apply State.Good.cont | apply State.Good.whole | apply State.Good.chutes | apply State.Good.log
    | apply State.Good.same | apply State.Good.privs | apply State.Good.sram

theorem pipeRun_canon (s : State) (hd : rq.mem = none) (hs : s.Good rq) :
    (pipeRun s).Good rq := by
  unfold pipeRun
  repeat' with_reducible first
    | assumption | intro _ | apply State.modTrg_canon | apply decideOn_canon | apply canon_ite | apply canon_ite1
    | apply canon_ite2 | apply canon_foldl | apply canon_foldl1 | apply canon_foldl2 | split | dsimp only | apply canon_mk
    | apply State.Good.regs | apply State.Good.eff | apply State.Good.dram | apply State.Good.host
    | apply State.Good.pending | apply State.Good.cont | apply State.Good.whole | apply State.Good.chutes
    | apply State.Good.log | apply State.Good.same | apply State.Good.privs | apply State.Good.sram

theorem heartEvent_canon (s : State) (sel ts flags : Nat) (point : Option Nat) (base : Bool) (hs : s.Good rq) :
    (heartEvent s sel ts flags point base).Good rq := by
  unfold heartEvent
  repeat' with_reducible first
    | assumption | intro _ | apply State.bump_canon | apply State.modTrg_canon | apply trgOnce_canon | apply canon_ite | split
    | dsimp only | apply canon_mk | apply State.Good.regs | apply State.Good.eff | apply State.Good.dram
    | apply State.Good.host | apply State.Good.pending | apply State.Good.cont | apply State.Good.whole
    | apply State.Good.chutes | apply State.Good.log | apply State.Good.same | apply State.Good.privs
    | apply State.Good.sram

theorem noteEvents_canon (s : State) (n : Nat) (l : List (NEv × Option Nat)) (acc : List (Nat × NEv × Option Nat)) (hs : s.Good rq) :
    (noteEvents s n l acc).1.Good rq := by
  unfold noteEvents
  repeat' with_reducible first
    | assumption | intro _ | apply State.bump_canon | apply State.modNote_canon | apply heartEvent_canon | apply trgOnce_canon
    | apply canon_ite | apply canon_ite1 | apply canon_ite2 | apply canon_foldl | apply canon_foldl1 | apply canon_foldl2
    | refine canon_fst_of (by assumption) ?_ | refine canon_snd_of (by assumption) ?_ | split | dsimp only | apply canon_mk
    | apply State.Good.regs | apply State.Good.eff | apply State.Good.dram | apply State.Good.host | apply State.Good.pending
    | apply State.Good.cont | apply State.Good.whole | apply State.Good.chutes | apply State.Good.log | apply State.Good.same
    | apply State.Good.privs
    | apply State.Good.sram

theorem directJoin_canon (s : State) (d : Dec) (hs : s.Good rq) :
    (directJoin s d).Good rq := by
  unfold directJoin
  repeat' with_reducible first
    | assumption | intro _ | apply State.bump_canon | apply State.modTrg_canon | apply canon_ite | apply canon_ite1
    | apply canon_ite2 | split | dsimp only | apply canon_mk | apply State.Good.regs | apply State.Good.eff
    | apply State.Good.dram | apply State.Good.host | apply State.Good.pending | apply State.Good.cont
    | apply State.Good.whole | apply State.Good.chutes | apply State.Good.log | apply State.Good.same
    | apply State.Good.privs | apply State.Good.sram

theorem directAll_canon (s : State) (fclk : Nat) (l : List (Nat × NEv × Option Nat)) (hs : s.Good rq) :
    (directAll s fclk l).Good rq := by
  unfold directAll
  repeat' with_reducible first
    | assumption | intro _ | apply canon_ite | apply canon_ite1 | apply canon_foldl | apply canon_foldl1
    | apply canon_foldl2 | refine canon_fst_of (by assumption) ?_ | refine canon_snd_of (by assumption) ?_
    | apply canon_ite2 | apply State.modTrg_canon | apply directJoin_canon | apply pipePut_canon | split | dsimp only
    | apply canon_mk | apply State.Good.regs | apply State.Good.eff | apply State.Good.dram | apply State.Good.host
    | apply State.Good.pending | apply State.Good.cont | apply State.Good.whole | apply State.Good.chutes
    | apply State.Good.log | apply State.Good.same | apply State.Good.privs | apply State.Good.sram

theorem notesSample_canon (s : State) (c : Nat) (hi lo : Int) (ts : Nat) (skip susp ovr : Bool) (acc : List (Nat × NEv × Option Nat)) (hs : s.Good rq) :
    (notesSample s c hi lo ts skip susp ovr acc).1.Good rq := by
  unfold notesSample
  repeat' with_reducible first
    | assumption | intro _ | apply noteEvents_canon | apply noteRedo_canon | apply noteSample_canon | apply noteSkip_canon
    | apply canon_ite | apply canon_ite1 | apply canon_ite2 | apply canon_foldl | apply canon_foldl1 | apply canon_foldl2
    | refine canon_fst_of (by assumption) ?_ | refine canon_snd_of (by assumption) ?_ | split | dsimp only | apply canon_mk
    | apply State.Good.regs | apply State.Good.eff | apply State.Good.dram | apply State.Good.host | apply State.Good.pending
    | apply State.Good.cont | apply State.Good.whole | apply State.Good.chutes | apply State.Good.log | apply State.Good.same
    | apply State.Good.privs
    | apply State.Good.sram

theorem notesEdge_canon (s : State) (src ts : Nat) (level susp : Bool) (hs : s.Good rq) :
    (notesEdge s src ts level susp).Good rq := by
  unfold notesEdge
  repeat' with_reducible first
    | assumption | intro _ | apply canon_ite | apply canon_ite1 | apply canon_ite2 | apply canon_foldl | apply canon_foldl1
    | apply canon_foldl2 | refine canon_fst_of (by assumption) ?_ | refine canon_snd_of (by assumption) ?_
    | apply directAll_canon | apply noteEvents_canon | apply noteRedo_canon | apply noteStore_canon | split | dsimp only
    | apply canon_mk | apply State.Good.regs | apply State.Good.eff | apply State.Good.dram | apply State.Good.host
    | apply State.Good.pending | apply State.Good.cont | apply State.Good.whole | apply State.Good.chutes
    | apply State.Good.log | apply State.Good.same | apply State.Good.privs | apply State.Good.sram

theorem notesPattern_canon (s : State) (ts : Nat) (susp : Bool) (hs : s.Good rq) :
    (notesPattern s ts susp).Good rq := by
  unfold notesPattern
  repeat' with_reducible first
    | assumption | intro _ | apply canon_ite | apply canon_ite1 | apply canon_ite2 | apply canon_foldl | apply canon_foldl1
    | apply canon_foldl2 | refine canon_fst_of (by assumption) ?_ | refine canon_snd_of (by assumption) ?_
    | apply State.modNote_canon | apply State.wr_canon | apply directAll_canon | apply noteEvents_canon
    | apply noteLevel_canon | apply noteRedo_canon | split | dsimp only | apply canon_mk | apply State.Good.regs
    | apply State.Good.eff | apply State.Good.dram | apply State.Good.host | apply State.Good.pending
    | apply State.Good.cont | apply State.Good.whole | apply State.Good.chutes | apply State.Good.log
    | apply State.Good.same | apply State.Good.privs | apply State.Good.sram

theorem notesLoss_canon (s : State) (src ts : Nat) (hs : s.Good rq) :
    (notesLoss s src ts).Good rq := by
  unfold notesLoss
  repeat' with_reducible first
    | assumption | intro _ | apply noteSkip_canon | apply canon_ite | apply canon_foldl | apply canon_foldl1
    | apply canon_foldl2 | split | dsimp only

theorem notesInit_canon (s : State) (src ts : Nat) (level : Bool) (hs : s.Good rq) :
    (notesInit s src ts level).Good rq := by
  unfold notesInit
  repeat' with_reducible first
    | assumption | intro _ | apply noteSilent_canon | apply canon_foldl | apply canon_foldl1 | apply canon_foldl2
    | refine canon_fst_of (by assumption) ?_ | refine canon_snd_of (by assumption) ?_ | split | dsimp only

theorem notesSettle_canon (s : State) (hs : s.Good rq) :
    (notesSettle s).Good rq := by
  unfold notesSettle
  repeat' with_reducible first
    | assumption | intro _ | apply noteRedo_canon | apply canon_foldl | apply canon_foldl1 | apply canon_foldl2 | split
    | dsimp only

theorem heartStatus_canon (s : State) (t : Nat) (hs : s.Good rq) :
    (heartStatus s t).Good rq := by
  unfold heartStatus
  repeat' with_reducible first
    | assumption | intro _ | apply State.wrs_canon | apply canon_ite | apply canon_foldl | apply canon_foldl1
    | apply canon_foldl2 | refine canon_fst_of (by assumption) ?_ | refine canon_snd_of (by assumption) ?_ | split
    | dsimp only | apply canon_mk | apply State.Good.regs | apply State.Good.eff | apply State.Good.dram
    | apply State.Good.host | apply State.Good.pending | apply State.Good.cont | apply State.Good.whole
    | apply State.Good.chutes | apply State.Good.log | apply State.Good.same | apply State.Good.privs
    | apply State.Good.sram

theorem heartEnter_canon (s : State) (st t : Nat) (hs : s.Good rq) :
    (heartEnter s st t).Good rq := by
  unfold heartEnter
  repeat' with_reducible first
    | assumption | intro _ | apply State.modTrg_canon | apply State.wr_canon | apply storeQEdge_canon | apply canon_ite
    | apply canon_ite2 | refine canon_fst_of (by assumption) ?_ | refine canon_snd_of (by assumption) ?_ | split | dsimp only
    | apply canon_mk | apply State.Good.regs | apply State.Good.eff | apply State.Good.dram | apply State.Good.host
    | apply State.Good.pending | apply State.Good.cont | apply State.Good.whole | apply State.Good.chutes
    | apply State.Good.log | apply State.Good.same | apply State.Good.privs
    | apply State.Good.sram

theorem heartReset_canon (s : State) (t : Nat) (hs : s.Good rq) :
    (heartReset s t).Good rq := by
  unfold heartReset
  repeat' with_reducible first
    | assumption | intro _ | apply State.modTrg_canon | apply State.zeroFields_canon | apply heartEnter_canon
    | apply heartStatus_canon | split | dsimp only | apply canon_mk | apply State.Good.regs | apply State.Good.eff
    | apply State.Good.dram | apply State.Good.host | apply State.Good.pending | apply State.Good.cont
    | apply State.Good.whole | apply State.Good.chutes | apply State.Good.log | apply State.Good.same | apply State.Good.privs
    | apply State.Good.sram

theorem heartActions_canon (s : State) (h b t : Nat) (hs : s.Good rq) :
    (heartActions s h b t).Good rq := by
  unfold heartActions
  repeat' with_reducible first
    | assumption | intro _ | apply State.bump_canon | apply State.modTrg_canon | apply State.wr_canon | apply State.wrs_canon
    | apply canon_ite | apply canon_foldl | apply canon_foldl1 | apply canon_foldl2 | refine canon_fst_of (by assumption) ?_
    | refine canon_snd_of (by assumption) ?_ | split | dsimp only | apply canon_mk | apply State.Good.regs
    | apply State.Good.eff | apply State.Good.dram | apply State.Good.host | apply State.Good.pending | apply State.Good.cont
    | apply State.Good.whole | apply State.Good.chutes | apply State.Good.log | apply State.Good.same | apply State.Good.privs
    | apply State.Good.sram

theorem heartStep_canon (s : State) (hd : rq.mem = none) (hs : s.Good rq) :
    (heartStep s).Good rq := by
  unfold heartStep
  repeat' with_reducible first
    | assumption | intro _ | apply State.modTrg_canon | apply decideOn_canon | apply heartActions_canon
    | apply heartEnter_canon | apply heartReset_canon | apply heartStatus_canon | apply outRequest_canon | apply canon_ite
    | apply canon_ite1 | apply canon_ite2 | apply canon_foldl | apply canon_foldl1 | apply canon_foldl2
    | refine canon_fst_of (by assumption) ?_ | refine canon_snd_of (by assumption) ?_ | apply pipePut_canon
    | apply qualRun_canon | split | dsimp only | apply canon_mk | apply State.Good.regs | apply State.Good.eff
    | apply State.Good.dram | apply State.Good.host | apply State.Good.pending | apply State.Good.cont
    | apply State.Good.whole | apply State.Good.chutes | apply State.Good.log | apply State.Good.same
    | apply State.Good.privs | apply State.Good.sram

theorem bnQuiet_canon (s : State) (i : Nat) (hs : s.Good rq) :
    (bnQuiet s i).Good rq := by
  unfold bnQuiet
  repeat' with_reducible first
    | assumption | intro _ | apply State.wrs_canon | split | dsimp only

theorem bnOutcome_canon (s : State) (i tE flags : Nat) (hd : rq.mem = none) (hs : s.Good rq) :
    (bnOutcome s i tE flags).Good rq := by
  unfold bnOutcome
  repeat' with_reducible first
    | assumption | intro _ | apply State.bump_canon | apply decideOn_canon | apply heartEvent_canon | apply canon_ite
    | apply canon_ite1 | apply pipePut_canon | apply canon_ite2 | split | dsimp only | apply canon_mk
    | apply State.Good.regs | apply State.Good.eff | apply State.Good.dram | apply State.Good.host
    | apply State.Good.pending | apply State.Good.cont | apply State.Good.whole | apply State.Good.chutes
    | apply State.Good.log | apply State.Good.same | apply State.Good.privs | apply State.Good.sram

theorem bnEval_canon (s : State) (i : Nat) (r : BnRec) (init late : Bool) (hd : rq.mem = none) (hs : s.Good rq) :
    (bnEval s i r init late).Good rq := by
  unfold bnEval
  repeat' with_reducible first
    | assumption | intro _ | apply State.modBn_canon | apply State.wrTs_canon | apply State.wrs_canon
    | apply bnOutcome_canon | apply canon_ite | refine canon_fst_of (by assumption) ?_
    | refine canon_snd_of (by assumption) ?_ | apply bnQuiet_canon | apply canon_ite1 | apply canon_ite2 | split
    | dsimp only | apply canon_mk | apply State.Good.regs | apply State.Good.eff | apply State.Good.dram
    | apply State.Good.host | apply State.Good.pending | apply State.Good.cont | apply State.Good.whole
    | apply State.Good.chutes | apply State.Good.log | apply State.Good.same | apply State.Good.privs
    | apply State.Good.sram

theorem bnArrive_canon (s : State) (r : BnRec) (hd : rq.mem = none) (hs : s.Good rq) :
    (bnArrive s r).Good rq := by
  unfold bnArrive
  repeat' with_reducible first
    | assumption | intro _ | apply State.bump_canon | apply State.modBn_canon | apply State.raiseAt_canon | apply bnEval_canon
    | apply canon_ite | refine canon_fst_of (by assumption) ?_ | refine canon_snd_of (by assumption) ?_ | split | dsimp only
    | apply canon_mk | apply State.Good.regs | apply State.Good.eff | apply State.Good.dram | apply State.Good.host
    | apply State.Good.pending | apply State.Good.cont | apply State.Good.whole | apply State.Good.chutes
    | apply State.Good.log | apply State.Good.same | apply State.Good.privs
    | apply State.Good.sram

end Sys2Proof.Machine
end

