-- ==== Sys2Proof/Laws/CanonEngOps.lean ====
section
/-!
SUPPORT. What Machine/EngOps.lean defines keeps the canonical form of what is stored.
-/

namespace Sys2Proof.Machine

variable {rq : Kept}

theorem State.modEng_canon (s : State) (g : Eng → Eng) (hs : s.Good rq) :
    (State.modEng s g).Good rq := by
  unfold State.modEng
  repeat' with_reducible first
    | assumption | intro _ | split | dsimp only | apply canon_mk | apply State.Good.regs | apply State.Good.eff
    | apply State.Good.dram | apply State.Good.host | apply State.Good.pending | apply State.Good.cont
    | apply State.Good.whole | apply State.Good.chutes | apply State.Good.log | apply State.Good.same | apply State.Good.privs
    | apply State.Good.sram

theorem State.modChain_canon (s : State) (id : Nat) (g : Chain → Chain) (hs : s.Good rq) :
    (State.modChain s id g).Good rq := by
  unfold State.modChain
  repeat' with_reducible first
    | assumption | intro _ | apply State.modEng_canon | apply canon_ite | split | dsimp only | apply canon_mk
    | apply State.Good.regs | apply State.Good.eff | apply State.Good.dram | apply State.Good.host | apply State.Good.pending
    | apply State.Good.cont | apply State.Good.whole | apply State.Good.chutes | apply State.Good.log | apply State.Good.same
    | apply State.Good.privs
    | apply State.Good.sram

theorem feedRegs_canon (s : State) (b : Nat) (hs : s.Good rq) :
    (feedRegs s b).Good rq := by
  unfold feedRegs
  repeat' with_reducible first
    | assumption | intro _ | apply State.setReg_canon | apply State.wrs_canon | apply canon_foldl | apply canon_foldl1
    | apply canon_foldl2 | refine canon_fst_of (by assumption) ?_ | refine canon_snd_of (by assumption) ?_ | split
    | dsimp only | apply canon_mk | apply State.Good.regs | apply State.Good.eff | apply State.Good.dram
    | apply State.Good.host | apply State.Good.pending | apply State.Good.cont | apply State.Good.whole
    | apply State.Good.chutes | apply State.Good.log | apply State.Good.same | apply State.Good.privs
    | apply State.Good.sram

theorem engineRegs_canon (s : State) (b e : Nat) (hs : s.Good rq) :
    (engineRegs s b e).Good rq := by
  unfold engineRegs
  repeat' with_reducible first
    | assumption | intro _ | apply State.wrs_canon | apply canon_ite | apply canon_ite1 | apply canon_foldl
    | apply canon_foldl1 | apply canon_foldl2 | refine canon_fst_of (by assumption) ?_
    | refine canon_snd_of (by assumption) ?_ | split | dsimp only | apply canon_mk | apply State.Good.regs
    | apply State.Good.eff | apply State.Good.dram | apply State.Good.host | apply State.Good.pending | apply State.Good.cont
    | apply State.Good.whole | apply State.Good.chutes | apply State.Good.log | apply State.Good.same | apply State.Good.privs
    | apply State.Good.sram

theorem barnRegs_canon (s : State) (b : Nat) (hs : s.Good rq) :
    (barnRegs s b).Good rq := by
  unfold barnRegs
  repeat' with_reducible first
    | assumption | intro _ | apply State.wrs_canon | apply engineRegs_canon | apply feedRegs_canon | apply canon_foldl
    | apply canon_foldl1 | apply canon_foldl2 | refine canon_fst_of (by assumption) ?_
    | refine canon_snd_of (by assumption) ?_ | split | dsimp only | apply canon_mk | apply State.Good.regs
    | apply State.Good.eff | apply State.Good.dram | apply State.Good.host | apply State.Good.pending | apply State.Good.cont
    | apply State.Good.whole | apply State.Good.chutes | apply State.Good.log | apply State.Good.same | apply State.Good.privs
    | apply State.Good.sram

theorem allBarnRegs_canon (s : State) (hs : s.Good rq) :
    (allBarnRegs s).Good rq := by
  unfold allBarnRegs
  repeat' with_reducible first
    | assumption | intro _ | apply barnRegs_canon | apply canon_foldl | apply canon_foldl1 | apply canon_foldl2 | split
    | dsimp only

theorem setBarn_canon (s : State) (b : Nat) (up : Bool) (hs : s.Good rq) :
    (setBarn s b up).Good rq := by
  unfold setBarn
  repeat' with_reducible first
    | assumption | intro _ | apply State.setDom_canon | apply State.wr_canon | apply mbxEnable_canon | apply mbxFlush_canon
    | apply canon_ite | apply sramForget_canon | apply canon_ite1 | apply canon_ite2 | split | dsimp only

theorem chainsPlaced_canon (s : State) (hs : s.Good rq) :
    (chainsPlaced s).Good rq := by
  unfold chainsPlaced
  repeat' with_reducible first
    | assumption | intro _ | apply sramForget_canon | split | dsimp only

theorem barnPower_canon (s : State) (b : Nat) (hs : s.Good rq) :
    (barnPower s b).Good rq := by
  unfold barnPower
  repeat' with_reducible first
    | assumption | intro _ | apply barnRegs_canon | apply setBarn_canon | apply canon_ite | apply chainsPlaced_canon
    | apply canon_ite1 | apply canon_ite2 | split | dsimp only

theorem chainWakes_canon (s : State) (id : Nat) (runSt : Status) (hs : s.Good rq) :
    (chainWakes s id runSt).Good rq := by
  unfold chainWakes
  repeat' with_reducible first
    | assumption | intro _ | apply State.finishAll_canon | apply State.wake_canon | refine canon_fst_of (by assumption) ?_
    | refine canon_snd_of (by assumption) ?_ | split | dsimp only | apply canon_mk | apply State.Good.regs
    | apply State.Good.eff | apply State.Good.dram | apply State.Good.host | apply State.Good.pending | apply State.Good.cont
    | apply State.Good.whole | apply State.Good.chutes | apply State.Good.log | apply State.Good.same | apply State.Good.privs
    | apply State.Good.sram

theorem unloadChain_canon (s : State) (id : Nat) (runSt : Status) (hs : s.Good rq) :
    (unloadChain s id runSt).Good rq := by
  unfold unloadChain
  repeat' with_reducible first
    | assumption | intro _ | apply State.modCon_canon | apply State.modEng_canon | apply barnPower_canon
    | apply chainWakes_canon | apply canon_ite | refine canon_fst_of (by assumption) ?_
    | refine canon_snd_of (by assumption) ?_ | split | dsimp only | apply canon_mk | apply State.Good.regs
    | apply State.Good.eff | apply State.Good.dram | apply State.Good.host | apply State.Good.pending | apply State.Good.cont
    | apply State.Good.whole | apply State.Good.chutes | apply State.Good.log | apply State.Good.same | apply State.Good.privs
    | apply State.Good.sram

theorem unloadCtx_canon (s : State) (ctx : Nat) (runSt : Status) (hs : s.Good rq) :
    (unloadCtx s ctx runSt).Good rq := by
  unfold unloadCtx
  repeat' with_reducible first
    | assumption | intro _ | apply unloadChain_canon | apply canon_foldl | apply canon_foldl1 | apply canon_foldl2 | split
    | dsimp only

theorem drainCheck_canon (s : State) (hs : s.Good rq) :
    (drainCheck s).Good rq := by
  unfold drainCheck
  repeat' with_reducible first
    | assumption | intro _ | apply unloadChain_canon | apply canon_foldl | apply canon_foldl1 | apply canon_foldl2 | split
    | dsimp only

theorem engOnce_canon (s : State) (b typ ts res : Nat) (hs : s.Good rq) :
    (engOnce s b typ ts res).Good rq := by
  unfold engOnce
  repeat' with_reducible first
    | assumption | intro _ | apply State.modEng_canon | apply State.raiseAt_canon | apply canon_ite | split | dsimp only
    | apply canon_mk | apply State.Good.regs | apply State.Good.eff | apply State.Good.dram | apply State.Good.host
    | apply State.Good.pending | apply State.Good.cont | apply State.Good.whole | apply State.Good.chutes
    | apply State.Good.log | apply State.Good.same | apply State.Good.privs
    | apply State.Good.sram

theorem overrun_canon (s : State) (c : Chain) (ts : Nat) (hs : s.Good rq) :
    (overrun s c ts).Good rq := by
  unfold overrun
  repeat' with_reducible first
    | assumption | intro _ | apply State.bump_canon | apply State.modChain_canon | apply engOnce_canon | split | dsimp only
    | apply canon_mk | apply State.Good.regs | apply State.Good.eff | apply State.Good.dram | apply State.Good.host
    | apply State.Good.pending | apply State.Good.cont | apply State.Good.whole | apply State.Good.chutes
    | apply State.Good.log | apply State.Good.same | apply State.Good.privs
    | apply State.Good.sram

theorem landOn_canon (s : State) (id i f : Nat) (l : Land) (hs : s.Good rq) :
    (landOn s id i f l).Good rq := by
  unfold landOn
  repeat' with_reducible first
    | assumption | intro _ | apply State.modChain_canon | apply State.modEng_canon | apply overrun_canon | apply canon_ite
    | apply canon_foldl | apply canon_foldl1 | apply canon_foldl2 | refine canon_fst_of (by assumption) ?_
    | refine canon_snd_of (by assumption) ?_ | split | dsimp only | apply canon_mk | apply State.Good.regs
    | apply State.Good.eff | apply State.Good.dram | apply State.Good.host | apply State.Good.pending | apply State.Good.cont
    | apply State.Good.whole | apply State.Good.chutes | apply State.Good.log | apply State.Good.same | apply State.Good.privs
    | apply State.Good.sram

theorem landFeed_canon (s : State) (f : Nat) (l : Land) (hs : s.Good rq) :
    (landFeed s f l).Good rq := by
  unfold landFeed
  repeat' with_reducible first
    | assumption | intro _ | apply landOn_canon | apply canon_ite | apply canon_ite1 | apply canon_ite2 | apply canon_foldl
    | apply canon_foldl1 | apply canon_foldl2 | split | dsimp only

theorem landDesc_canon (s : State) (f : Nat) (d : List Byte) (hs : s.Good rq) :
    (landDesc s f d).Good rq := by
  unfold landDesc
  repeat' with_reducible first
    | assumption | intro _ | apply State.modChain_canon | apply canon_ite | apply canon_ite1 | apply canon_ite2
    | apply canon_foldl | apply canon_foldl1 | apply canon_foldl2 | split | dsimp only | apply canon_mk
    | apply State.Good.regs | apply State.Good.eff | apply State.Good.dram | apply State.Good.host
    | apply State.Good.pending | apply State.Good.cont | apply State.Good.whole | apply State.Good.chutes
    | apply State.Good.log | apply State.Good.same | apply State.Good.privs | apply State.Good.sram

theorem windowReady_canon (s : State) (c : Chain) (w : Nat) (hs : s.Good rq) :
    (windowReady s c w).Good rq := by
  unfold windowReady
  repeat' with_reducible first
    | assumption | intro _ | apply State.modChain_canon | apply State.modEng_canon | apply barnRegs_canon | split | dsimp only
    | apply canon_mk | apply State.Good.regs | apply State.Good.eff | apply State.Good.dram | apply State.Good.host
    | apply State.Good.pending | apply State.Good.cont | apply State.Good.whole | apply State.Good.chutes
    | apply State.Good.log | apply State.Good.same | apply State.Good.privs
    | apply State.Good.sram

theorem engSegment_canon (s : State) (ctx no tS pre post : Nat) (hs : s.Good rq) :
    (engSegment s ctx no tS pre post).Good rq := by
  unfold engSegment
  repeat' with_reducible first
    | assumption | intro _ | apply State.modEng_canon | apply barnRegs_canon | apply canon_foldl | apply canon_foldl1
    | apply canon_foldl2 | split | dsimp only | apply canon_mk | apply State.Good.regs | apply State.Good.eff
    | apply State.Good.dram | apply State.Good.host | apply State.Good.pending | apply State.Good.cont
    | apply State.Good.whole | apply State.Good.chutes | apply State.Good.log | apply State.Good.same | apply State.Good.privs
    | apply State.Good.sram

theorem windowsReady_canon (id n : Nat) (s : State) (hs : s.Good rq) : (windowsReady id n s).Good rq := by
  induction n generalizing s with
  | zero => exact hs
  | succ n ih =>
    simp only [windowsReady]
    split
    · exact hs
    · split
      · exact hs
      · exact canon_ite (ih _ (windowReady_canon s _ _ hs)) hs

theorem engDisarm_canon (s : State) (hs : s.Good rq) :
    (engDisarm s).Good rq := by
  unfold engDisarm
  repeat' with_reducible first
    | assumption | intro _ | apply State.modChain_canon | apply windowsReady_canon | apply canon_foldl | apply canon_foldl1
    | apply canon_foldl2 | split | dsimp only | apply canon_mk | apply State.Good.regs | apply State.Good.eff
    | apply State.Good.dram | apply State.Good.host | apply State.Good.pending | apply State.Good.cont
    | apply State.Good.whole | apply State.Good.chutes | apply State.Good.log | apply State.Good.same | apply State.Good.privs
    | apply State.Good.sram

theorem engArm_canon (s : State) (hs : s.Good rq) :
    (engArm s).Good rq := by
  unfold engArm
  repeat' with_reducible first
    | assumption | intro _ | apply State.modEng_canon | apply canon_ite | split | dsimp only | apply canon_mk
    | apply State.Good.regs | apply State.Good.eff | apply State.Good.dram | apply State.Good.host | apply State.Good.pending
    | apply State.Good.cont | apply State.Good.whole | apply State.Good.chutes | apply State.Good.log | apply State.Good.same
    | apply State.Good.privs
    | apply State.Good.sram

theorem parkBarn_canon (s : State) (b : Nat) (hs : s.Good rq) :
    (parkBarn s b).Good rq := by
  unfold parkBarn
  repeat' with_reducible first
    | assumption | intro _ | apply State.modEng_canon | apply State.wake_canon | apply drainCheck_canon | apply canon_ite
    | apply canon_foldl | apply canon_foldl1 | apply canon_foldl2 | split | dsimp only | apply canon_mk
    | apply State.Good.regs | apply State.Good.eff | apply State.Good.dram | apply State.Good.host | apply State.Good.pending
    | apply State.Good.cont | apply State.Good.whole | apply State.Good.chutes | apply State.Good.log | apply State.Good.same
    | apply State.Good.privs
    | apply State.Good.sram

theorem unparkBarn_canon (s : State) (b n : Nat) (hs : s.Good rq) :
    (unparkBarn s b n).Good rq := by
  unfold unparkBarn
  repeat' with_reducible first
    | assumption | intro _ | apply State.modEng_canon | apply canon_ite | split | dsimp only | apply canon_mk
    | apply State.Good.regs | apply State.Good.eff | apply State.Good.dram | apply State.Good.host | apply State.Good.pending
    | apply State.Good.cont | apply State.Good.whole | apply State.Good.chutes | apply State.Good.log | apply State.Good.same
    | apply State.Good.privs
    | apply State.Good.sram

end Sys2Proof.Machine
end

