-- ==== Sys2Proof/Laws/CanonAdm.lean ====
section
/-!
SUPPORT. What Machine/Adm.lean defines keeps the canonical form of what is stored.
-/

namespace Sys2Proof.Machine

variable {rq : Kept}

theorem admRegs_canon (s : State) (hs : s.Good rq) :
    (admRegs s).Good rq := by
  unfold admRegs
  repeat' with_reducible first
    | assumption | intro _ | apply State.wrs_canon | apply allBarnRegs_canon | apply setResRates_canon | apply canon_ite1
    | apply canon_ite2 | apply canon_foldl | apply canon_foldl1 | apply canon_foldl2 | split | dsimp only

theorem budgetCheck_canon (s : State) (tell : Bool) (hs : s.Good rq) :
    (budgetCheck s tell).Good rq := by
  unfold budgetCheck
  repeat' with_reducible first
    | assumption | intro _ | apply State.modCon_canon | apply State.postEvent_canon | apply admRegs_canon | apply canon_ite
    | apply canon_ite1 | apply canon_ite2 | apply canon_foldl | apply canon_foldl1 | apply canon_foldl2 | split | dsimp only
    | apply canon_mk | apply State.Good.regs | apply State.Good.eff | apply State.Good.dram | apply State.Good.host
    | apply State.Good.pending | apply State.Good.cont | apply State.Good.whole | apply State.Good.chutes
    | apply State.Good.log | apply State.Good.same | apply State.Good.privs
    | apply State.Good.sram

theorem dropCon_canon (s : State) (ctx : Nat) (hs : s.Good rq) :
    (dropCon s ctx).Good rq := by
  unfold dropCon
  repeat' with_reducible first
    | assumption | intro _ | apply State.modCon_canon | split | dsimp only | apply canon_mk | apply State.Good.regs
    | apply State.Good.eff | apply State.Good.dram | apply State.Good.host | apply State.Good.pending | apply State.Good.cont
    | apply State.Good.whole | apply State.Good.chutes | apply State.Good.log | apply State.Good.same | apply State.Good.privs
    | apply State.Good.sram

theorem conBreak_canon (s : State) (ctx cause code eng : Nat) (hd : rq.mem = none) (hs : s.Good rq) :
    (conBreak s ctx cause code eng).Good rq := by
  unfold conBreak
  repeat' with_reducible first
    | assumption | intro _ | apply State.bump_canon | apply State.modCon_canon | apply State.postEvent_canon
    | apply State.raise_canon | apply dmaBreak_canon | apply unloadCtx_canon | apply canon_ite
    | refine canon_fst_of (by assumption) ?_ | refine canon_snd_of (by assumption) ?_ | split | dsimp only | apply canon_mk
    | apply State.Good.regs | apply State.Good.eff | apply State.Good.dram | apply State.Good.host | apply State.Good.pending
    | apply State.Good.cont | apply State.Good.whole | apply State.Good.chutes | apply State.Good.log | apply State.Good.same
    | apply State.Good.privs
    | apply State.Good.sram

theorem applyMoves_canon (s : State) (ctx : Nat) (ps : List Piece) (hs : s.Good rq) :
    (applyMoves s ctx ps).Good rq := by
  unfold applyMoves
  repeat' with_reducible first
    | assumption | intro _ | apply State.modCon_canon | apply State.modEng_canon | apply barnPower_canon | apply canon_ite
    | apply canon_foldl | apply canon_foldl1 | apply canon_foldl2 | refine canon_fst_of (by assumption) ?_
    | refine canon_snd_of (by assumption) ?_ | split | dsimp only | apply canon_mk | apply State.Good.regs
    | apply State.Good.eff | apply State.Good.dram | apply State.Good.host | apply State.Good.pending | apply State.Good.cont
    | apply State.Good.whole | apply State.Good.chutes | apply State.Good.log | apply State.Good.same | apply State.Good.privs
    | apply State.Good.sram

theorem rerunMoved_canon (s : State) (cause : Nat) (eng : Nat) (lost : List Nat) (hd : rq.mem = none) (hs : s.Good rq) :
    (rerunMoved s cause eng lost).1.Good rq := by
  unfold rerunMoved
  repeat' with_reducible first
    | assumption | intro _ | apply State.bump_canon | apply State.modChain_canon | apply State.modEng_canon
    | apply conBreak_canon | apply canon_ite | apply canon_ite1 | apply canon_foldl | apply canon_foldl1 | apply canon_foldl2
    | split | dsimp only | apply canon_mk | apply State.Good.regs | apply State.Good.eff | apply State.Good.dram
    | apply State.Good.host | apply State.Good.pending | apply State.Good.cont | apply State.Good.whole
    | apply State.Good.chutes | apply State.Good.log | apply State.Good.same | apply State.Good.privs
    | apply State.Good.sram

theorem admitRerun_canon (s : State) (cause eng : Nat) (hd : rq.mem = none) (hs : s.Good rq) :
    (admitRerun s cause eng).1.Good rq := by
  unfold admitRerun
  repeat' with_reducible first
    | assumption | intro _ | apply State.modCon_canon | apply applyMoves_canon | apply budgetCheck_canon
    | apply conBreak_canon | apply drainCheck_canon | apply rerunMoved_canon | apply canon_ite | apply canon_ite1
    | apply canon_ite2 | apply canon_foldl | apply canon_foldl1 | apply canon_foldl2 | refine canon_fst_of (by assumption) ?_
    | refine canon_snd_of (by assumption) ?_ | split | dsimp only | apply canon_mk | apply State.Good.regs
    | apply State.Good.eff | apply State.Good.dram | apply State.Good.host | apply State.Good.pending | apply State.Good.cont
    | apply State.Good.whole | apply State.Good.chutes | apply State.Good.log | apply State.Good.same | apply State.Good.privs
    | apply State.Good.sram

theorem wantRerun_canon (s : State) (cause : Nat) (hs : s.Good rq) :
    (wantRerun s cause).Good rq := by
  unfold wantRerun
  repeat' with_reducible first
    | assumption | intro _ | apply State.modCon_canon | split | dsimp only | apply canon_mk | apply State.Good.regs
    | apply State.Good.eff | apply State.Good.dram | apply State.Good.host | apply State.Good.pending | apply State.Good.cont
    | apply State.Good.whole | apply State.Good.chutes | apply State.Good.log | apply State.Good.same | apply State.Good.privs
    | apply State.Good.sram

theorem capRisen_canon (s : State) (hs : s.Good rq) :
    (capRisen s).Good rq := by
  unfold capRisen
  repeat' with_reducible first
    | assumption | intro _ | apply State.modCon_canon | split | dsimp only | apply canon_mk | apply State.Good.regs
    | apply State.Good.eff | apply State.Good.dram | apply State.Good.host | apply State.Good.pending | apply State.Good.cont
    | apply State.Good.whole | apply State.Good.chutes | apply State.Good.log | apply State.Good.same | apply State.Good.privs
    | apply State.Good.sram

end Sys2Proof.Machine
end

