-- ==== Sys2Proof/Laws/CanonTim.lean ====
section
/-!
SUPPORT. What Machine/Tim.lean defines keeps the canonical form of what is stored.
-/

namespace Sys2Proof.Machine

variable {rq : Kept}

theorem chutePush_canon (s : State) (n t : Nat) (hs : s.Good rq) :
    (chutePush s n t).Good rq := by
  unfold chutePush
  repeat' with_reducible first
    | assumption | intro _ | apply State.modIn_canon | apply canon_ite | split | dsimp only | apply canon_mk
    | apply State.Good.regs | apply State.Good.eff | apply State.Good.dram | apply State.Good.host | apply State.Good.pending
    | apply State.Good.cont | apply State.Good.whole | apply State.Good.chutes | apply State.Good.log | apply State.Good.same
    | apply State.Good.privs
    | apply State.Good.sram

theorem setLevel_canon (s : State) (n : Nat) (v : Bool) (hs : s.Good rq) :
    (setLevel s n v).Good rq := by
  unfold setLevel
  repeat' with_reducible first
    | assumption | intro _ | apply State.modIn_canon | apply State.wr_canon | apply State.wrB_canon | apply canon_ite | split
    | dsimp only | apply canon_mk | apply State.Good.regs | apply State.Good.eff | apply State.Good.dram
    | apply State.Good.host | apply State.Good.pending | apply State.Good.cont | apply State.Good.whole
    | apply State.Good.chutes | apply State.Good.log | apply State.Good.same | apply State.Good.privs
    | apply State.Good.sram

theorem edgeDeliver_canon (s : State) (n : Nat) (e : TEdge) (hd : rq.mem = none) (hs : s.Good rq) :
    (edgeDeliver s n e).Good rq := by
  unfold edgeDeliver
  repeat' with_reducible first
    | assumption | intro _ | apply State.bump_canon | apply fpEdges_canon | apply groupQueue_canon | apply muEdges_canon
    | apply notesEdge_canon | apply storeEdge_canon | apply canon_ite | split | dsimp only

theorem edgeOut_canon (s : State) (n : Nat) (e : TEdge) (hd : rq.mem = none) (hs : s.Good rq) :
    (edgeOut s n e).Good rq := by
  unfold edgeOut
  repeat' with_reducible first
    | assumption | intro _ | apply chutePush_canon | apply edgeDeliver_canon | apply notesPattern_canon | apply setLevel_canon
    | apply canon_ite | split | dsimp only

theorem lossOpen_canon (s : State) (n ts k : Nat) (hs : s.Good rq) :
    (lossOpen s n ts k).Good rq := by
  unfold lossOpen
  repeat' with_reducible first
    | assumption | intro _ | apply State.bumpBy_canon | apply State.modIn_canon | apply State.raiseAt_canon
    | apply fpLoss_canon | apply lossNow_canon | apply lossRec_canon | apply muLoss_canon | apply notesLoss_canon
    | apply canon_ite | split | dsimp only | apply canon_mk | apply State.Good.regs | apply State.Good.eff
    | apply State.Good.dram | apply State.Good.host | apply State.Good.pending | apply State.Good.cont
    | apply State.Good.whole | apply State.Good.chutes | apply State.Good.log | apply State.Good.same | apply State.Good.privs
    | apply State.Good.sram

theorem edgesOut_canon (n : Nat) (es : List TEdge) (s : State) (hd : rq.mem = none) (hs : s.Good rq) : (edgesOut n es s).1.Good rq := by
  induction es generalizing s with
  | nil => exact hs
  | cons e es ih =>
    simp only [edgesOut]
    exact canon_ite1 hs (ih _ (edgeOut_canon s n e hd hs))

theorem lossBegin_canon (s : State) (n ts : Nat) (hd : rq.mem = none) (hs : s.Good rq) :
    (lossBegin s n ts).Good rq := by
  unfold lossBegin
  repeat' with_reducible first
    | assumption | intro _ | apply State.modIn_canon | apply edgesOut_canon | apply lossOpen_canon | apply canon_ite
    | apply canon_ite1 | apply canon_ite2 | apply canon_foldl | apply canon_foldl1 | apply canon_foldl2
    | refine canon_fst_of (by assumption) ?_ | refine canon_snd_of (by assumption) ?_ | split | dsimp only | apply canon_mk
    | apply State.Good.regs | apply State.Good.eff | apply State.Good.dram | apply State.Good.host | apply State.Good.pending
    | apply State.Good.cont | apply State.Good.whole | apply State.Good.chutes | apply State.Good.log | apply State.Good.same
    | apply State.Good.privs
    | apply State.Good.sram

theorem rawLevel_canon (s : State) (n : Nat) (level : Bool) (hs : s.Good rq) :
    (rawLevel s n level).Good rq := by
  unfold rawLevel
  repeat' with_reducible first
    | assumption | intro _ | apply State.modIn_canon | split | dsimp only | apply canon_mk | apply State.Good.regs
    | apply State.Good.eff | apply State.Good.dram | apply State.Good.host | apply State.Good.pending | apply State.Good.cont
    | apply State.Good.whole | apply State.Good.chutes | apply State.Good.log | apply State.Good.same | apply State.Good.privs
    | apply State.Good.sram

theorem edgeEnter_canon (s : State) (n ball ts : Nat) (lv : Bool) (hs : s.Good rq) :
    (edgeEnter s n ball ts lv).Good rq := by
  unfold edgeEnter
  repeat' with_reducible first
    | assumption | intro _ | apply State.bump_canon | apply State.modIn_canon | apply canon_ite
    | refine canon_fst_of (by assumption) ?_ | refine canon_snd_of (by assumption) ?_ | split | dsimp only | apply canon_mk
    | apply State.Good.regs | apply State.Good.eff | apply State.Good.dram | apply State.Good.host | apply State.Good.pending
    | apply State.Good.cont | apply State.Good.whole | apply State.Good.chutes | apply State.Good.log | apply State.Good.same
    | apply State.Good.privs
    | apply State.Good.sram

theorem pulseDrop_canon (s : State) (n : Nat) (hs : s.Good rq) :
    (pulseDrop s n).Good rq := by
  unfold pulseDrop
  repeat' with_reducible first
    | assumption | intro _ | apply State.modIn_canon | apply State.wr_canon | split | dsimp only | apply canon_mk
    | apply State.Good.regs | apply State.Good.eff | apply State.Good.dram | apply State.Good.host
    | apply State.Good.pending | apply State.Good.cont | apply State.Good.whole | apply State.Good.chutes
    | apply State.Good.log | apply State.Good.same | apply State.Good.privs | apply State.Good.sram

theorem execLogicEdge_canon (n ball : Nat) (level : Bool) (s : State) (hd : rq.mem = none) (hs : s.Good rq) :
    OutGood rq (execLogicEdge n ball level s) := by
  unfold execLogicEdge
  repeat' with_reducible first
    | assumption | intro _ | apply State.bump_canon | apply State.modIn_canon | apply State.takeBits_canon
    | apply edgeEnter_canon | apply lossBegin_canon | apply rawLevel_canon | apply canon_next | apply canon_iteO
    | apply canon_ite | apply canon_ite1 | apply canon_ite2 | apply pulseDrop_canon | split | dsimp only | apply canon_mk
    | apply State.Good.regs | apply State.Good.eff | apply State.Good.dram | apply State.Good.host
    | apply State.Good.pending | apply State.Good.cont | apply State.Good.whole | apply State.Good.chutes
    | apply State.Good.log | apply State.Good.same | apply State.Good.privs | apply State.Good.sram

theorem edgeAccept_canon (s : State) (e : TEdge) (hd : rq.mem = none) (hs : s.Good rq) :
    (edgeAccept s e).Good rq := by
  unfold edgeAccept
  repeat' with_reducible first
    | assumption | intro _ | apply State.modIn_canon | apply chutePush_canon | apply edgeDeliver_canon | apply lossOpen_canon
    | apply notesPattern_canon | apply setLevel_canon | apply canon_ite | apply canon_foldl | apply canon_foldl1
    | apply canon_foldl2 | split | dsimp only | apply canon_mk | apply State.Good.regs | apply State.Good.eff
    | apply State.Good.dram | apply State.Good.host | apply State.Good.pending | apply State.Good.cont
    | apply State.Good.whole | apply State.Good.chutes | apply State.Good.log | apply State.Good.same | apply State.Good.privs
    | apply State.Good.sram

theorem execEdgeAccept_canon (n : Nat) (s : State) (hd : rq.mem = none) (hs : s.Good rq) :
    OutGood rq (execEdgeAccept n s) := by
  unfold execEdgeAccept
  repeat' with_reducible first
    | assumption | intro _ | apply edgeAccept_canon | apply canon_next | apply canon_iteO | apply canon_ite
    | refine canon_fst_of (by assumption) ?_ | refine canon_snd_of (by assumption) ?_ | split | dsimp only | apply canon_mk
    | apply State.Good.regs | apply State.Good.eff | apply State.Good.dram | apply State.Good.host | apply State.Good.pending
    | apply State.Good.cont | apply State.Good.whole | apply State.Good.chutes | apply State.Good.log | apply State.Good.same
    | apply State.Good.privs
    | apply State.Good.sram

theorem lossEnd_canon (s : State) (n : Nat) (hs : s.Good rq) :
    (lossEnd s n).Good rq := by
  unfold lossEnd
  repeat' with_reducible first
    | assumption | intro _ | apply State.modIn_canon | apply groupQueue_canon | apply lossNow_canon | apply lossRec_canon
    | apply notesInit_canon | apply setLevel_canon | apply canon_ite | split | dsimp only | apply canon_mk
    | apply State.Good.regs | apply State.Good.eff | apply State.Good.dram | apply State.Good.host | apply State.Good.pending
    | apply State.Good.cont | apply State.Good.whole | apply State.Good.chutes | apply State.Good.log | apply State.Good.same
    | apply State.Good.privs
    | apply State.Good.sram

theorem execTimLossResume_canon (n : Nat) (s : State) (hs : s.Good rq) :
    OutGood rq (execTimLossResume n s) := by
  unfold execTimLossResume
  repeat' with_reducible first
    | assumption | intro _ | apply lossEnd_canon | apply canon_next | apply canon_iteO | apply canon_ite | split | dsimp only

theorem execStoreGapEnd_canon (src : Nat) (s : State) (hs : s.Good rq) :
    OutGood rq (execStoreGapEnd src s) := by
  unfold execStoreGapEnd
  repeat' with_reducible first
    | assumption | intro _ | apply gapClose_canon | apply groupsRun_canon | apply canon_next | apply canon_iteO
    | apply canon_ite | split | dsimp only

theorem execTransitionRecordHandoff_canon (s0 : State) (hd : rq.mem = none) (hs0 : s0.Good rq) :
    OutGood rq (execTransitionRecordHandoff s0) := by
  unfold execTransitionRecordHandoff
  repeat' with_reducible first
    | assumption | intro _ | apply State.bump64_canon | apply State.modTim_canon | apply gapsRun_canon
    | apply groupsRun_canon | apply pushTransition_canon | apply canon_next | apply canon_iteO | apply canon_ite
    | refine canon_fst_of (by assumption) ?_ | refine canon_snd_of (by assumption) ?_ | apply handRec_canon
    | apply canon_ite1 | apply canon_ite2 | split | dsimp only | apply canon_mk | apply State.Good.regs
    | apply State.Good.eff | apply State.Good.dram | apply State.Good.host | apply State.Good.pending
    | apply State.Good.cont | apply State.Good.whole | apply State.Good.chutes | apply State.Good.log
    | apply State.Good.same | apply State.Good.privs | apply State.Good.sram

theorem timParity_canon (i : Nat) (s : State) (hs : s.Good rq) :
    (timParity i s).Good rq := by
  unfold timParity
  repeat' with_reducible first
    | assumption | intro _ | apply State.modIn_canon | apply State.modMu_canon | apply State.modTim_canon
    | apply State.raise_canon | apply lossNow_canon | apply canon_ite | apply canon_ite1 | apply canon_ite2 | split
    | dsimp only | apply canon_mk | apply State.Good.regs | apply State.Good.eff | apply State.Good.dram
    | apply State.Good.host | apply State.Good.pending | apply State.Good.cont | apply State.Good.whole
    | apply State.Good.chutes | apply State.Good.log | apply State.Good.same | apply State.Good.privs
    | apply State.Good.sram

theorem parityFound_canon (r : CalReport) (s : State) (hs : s.Good rq) :
    (parityFound r s).Good rq := by
  unfold parityFound
  repeat' with_reducible first
    | assumption | intro _ | apply timParity_canon | apply trgParity_canon | split | dsimp only

theorem execTdcCalSwap_canon (report : CalReport) (s0 : State) (hs0 : s0.Good rq) :
    OutGood rq (execTdcCalSwap report s0) := by
  unfold execTdcCalSwap
  repeat' with_reducible first
    | assumption | intro _ | apply canon_next | apply canon_iteO | apply canon_ite | apply canon_foldl | apply canon_foldl1
    | apply canon_foldl2 | apply canon_ite1 | apply canon_ite2 | apply State.modIn_canon | apply State.raise_canon
    | apply State.wrs_canon | apply parityFound_canon | split | dsimp only | apply canon_mk | apply State.Good.regs
    | apply State.Good.eff | apply State.Good.dram | apply State.Good.host | apply State.Good.pending
    | apply State.Good.cont | apply State.Good.whole | apply State.Good.chutes | apply State.Good.log
    | apply State.Good.same | apply State.Good.privs | apply State.Good.sram

theorem muGatesNow_canon (s : State) (u : Nat) (hs : s.Good rq) :
    (muGatesNow s u).Good rq := by
  unfold muGatesNow
  repeat' with_reducible first
    | assumption | intro _ | apply muClose_canon | apply muRun_canon | apply canon_ite | split | dsimp only

theorem execMeasGateClose_canon (u : Nat) (s : State) (hs : s.Good rq) :
    OutGood rq (execMeasGateClose u s) := by
  unfold execMeasGateClose
  repeat' with_reducible first
    | assumption | intro _ | apply State.modMu_canon | apply muGatesNow_canon | apply muPost_canon | apply canon_next
    | apply canon_iteO | apply canon_ite | refine canon_fst_of (by assumption) ?_ | refine canon_snd_of (by assumption) ?_
    | split | dsimp only | apply canon_mk | apply State.Good.regs | apply State.Good.eff | apply State.Good.dram
    | apply State.Good.host | apply State.Good.pending | apply State.Good.cont | apply State.Good.whole
    | apply State.Good.chutes | apply State.Good.log | apply State.Good.same | apply State.Good.privs
    | apply State.Good.sram

theorem muPopWrite_canon (u v : Nat) (s : State) (hs : s.Good rq) :
    (muPopWrite u v s).Good rq := by
  unfold muPopWrite
  repeat' with_reducible first
    | assumption | intro _ | apply State.modMu_canon | apply muShow_canon | apply canon_ite | split | dsimp only
    | apply canon_mk | apply State.Good.regs | apply State.Good.eff | apply State.Good.dram | apply State.Good.host
    | apply State.Good.pending | apply State.Good.cont | apply State.Good.whole | apply State.Good.chutes
    | apply State.Good.log | apply State.Good.same | apply State.Good.privs
    | apply State.Good.sram

theorem execTimResPop_canon (u m : Nat) (v : Word) (s : State) (hs : s.Good rq) :
    OutGood rq (execTimResPop u m v s) := by
  unfold execTimResPop
  repeat' with_reducible first
    | assumption | intro _ | apply State.writeBy_canon | apply muPopWrite_canon | apply canon_next | apply canon_iteO
    | apply canon_ite | split | dsimp only

theorem timRunSet_canon (s : State) (v : Bool) (hs : s.Good rq) :
    (timRunSet s v).Good rq := by
  unfold timRunSet
  repeat' with_reducible first
    | assumption | intro _ | apply State.modTim_canon | apply State.wr_canon | apply lossNow_canon | apply setLevel_canon
    | apply canon_ite | apply canon_foldl | apply canon_foldl1 | apply canon_foldl2 | split | dsimp only | apply canon_mk
    | apply State.Good.regs | apply State.Good.eff | apply State.Good.dram | apply State.Good.host | apply State.Good.pending
    | apply State.Good.cont | apply State.Good.whole | apply State.Good.chutes | apply State.Good.log | apply State.Good.same
    | apply State.Good.privs
    | apply State.Good.sram

theorem timCtrlWrite_canon (v : Nat) (s : State) (hs : s.Good rq) :
    (timCtrlWrite v s).Good rq := by
  unfold timCtrlWrite
  repeat' with_reducible first
    | assumption | intro _ | apply State.zeroFields_canon | apply timRunSet_canon | apply canon_ite | split | dsimp only

theorem execTimRunWrite_canon (m : Nat) (v : Word) (s : State) (hs : s.Good rq) :
    OutGood rq (execTimRunWrite m v s) := by
  unfold execTimRunWrite
  repeat' with_reducible first
    | assumption | intro _ | apply State.writeBy_canon | apply timCtrlWrite_canon | apply canon_next | apply canon_iteO
    | split | dsimp only

theorem execTimClrCounters_canon (m : Nat) (v : Word) (s : State) (hs : s.Good rq) :
    OutGood rq (execTimClrCounters m v s) := by
  unfold execTimClrCounters
  repeat' with_reducible first
    | assumption | intro _ | apply State.writeBy_canon | apply timCtrlWrite_canon | apply canon_next | apply canon_iteO
    | split | dsimp only

theorem veDeliver_canon (s : State) (v ts : Nat) (level susp : Bool) (hs : s.Good rq) :
    (veDeliver s v ts level susp).Good rq := by
  unfold veDeliver
  repeat' with_reducible first
    | assumption | intro _ | apply State.bump_canon | apply fpEdges_canon | apply muEdges_canon | apply storeEdge_canon
    | split | dsimp only

theorem veSample_canon (s : State) (v : Nat) (hi lo : Int) (ts : Nat) (skip susp : Bool) (hs : s.Good rq) :
    (veSample s v hi lo ts skip susp).Good rq := by
  unfold veSample
  repeat' with_reducible first
    | assumption | intro _ | apply State.modTim_canon | apply fpLoss_canon | apply lossNow_canon | apply lossOpen_canon
    | apply lossRec_canon | apply muLoss_canon | apply veDeliver_canon | apply canon_ite | apply canon_ite2
    | refine canon_fst_of (by assumption) ?_ | refine canon_snd_of (by assumption) ?_ | split | dsimp only | apply canon_mk
    | apply State.Good.regs | apply State.Good.eff | apply State.Good.dram | apply State.Good.host | apply State.Good.pending
    | apply State.Good.cont | apply State.Good.whole | apply State.Good.chutes | apply State.Good.log | apply State.Good.same
    | apply State.Good.privs
    | apply State.Good.sram

end Sys2Proof.Machine
end

