-- ==== Sys2Proof/Laws/CanonCap.lean ====
section
/-!
SUPPORT. What Machine/Cap.lean defines keeps the canonical form of what is stored.
-/

namespace Sys2Proof.Machine

variable {rq : Kept}

theorem closeAll_canon (s : State) (hd : rq.mem = none) (hs : s.Good rq) :
    (closeAll s).Good rq := by
  unfold closeAll
  repeat' with_reducible first
    | assumption | intro _ | apply closePage_canon | apply canon_foldl | apply canon_foldl1 | apply canon_foldl2 | split
    | dsimp only

theorem capAllocate_canon (s : State) (hs : s.Good rq) :
    (capAllocate s).Good rq := by
  unfold capAllocate
  repeat' with_reducible first
    | assumption | intro _ | apply State.modCs_canon | apply canon_ite1 | apply canon_ite2 | apply canon_foldl
    | apply canon_foldl1 | apply canon_foldl2 | split | dsimp only | apply canon_mk | apply State.Good.regs
    | apply State.Good.eff | apply State.Good.dram | apply State.Good.host | apply State.Good.pending | apply State.Good.cont
    | apply State.Good.whole | apply State.Good.chutes | apply State.Good.log | apply State.Good.same | apply State.Good.privs
    | apply State.Good.sram

theorem marksSettle_canon (s : State) (hs : s.Good rq) :
    (marksSettle s).Good rq := by
  unfold marksSettle
  repeat' with_reducible first
    | assumption | intro _ | apply State.modCap_canon | apply canon_foldl | apply canon_foldl1 | apply canon_foldl2 | split
    | dsimp only | apply canon_mk | apply State.Good.regs | apply State.Good.eff | apply State.Good.dram
    | apply State.Good.host | apply State.Good.pending | apply State.Good.cont | apply State.Good.whole
    | apply State.Good.chutes | apply State.Good.log | apply State.Good.same | apply State.Good.privs
    | apply State.Good.sram

theorem capArm_canon (s : State) (ts ctx : Nat) (hd : rq.mem = none) (hs : s.Good rq) :
    (capArm s ts ctx).Good rq := by
  unfold capArm
  repeat' with_reducible first
    | assumption | intro _ | apply State.applyRegs_canon | apply State.modCap_canon | apply State.modCs_canon
    | apply State.wr_canon | apply State.wrs_canon | apply State.zeroFields_canon | apply addMarker_canon
    | apply capAllocate_canon | apply capSpans_canon | apply closeAll_canon | apply canon_ite | apply canon_foldl
    | apply canon_foldl1 | apply canon_foldl2 | apply marksSettle_canon | apply canon_ite1 | apply canon_ite2 | split
    | dsimp only | apply canon_mk | apply State.Good.regs | apply State.Good.eff | apply State.Good.dram
    | apply State.Good.host | apply State.Good.pending | apply State.Good.cont | apply State.Good.whole
    | apply State.Good.chutes | apply State.Good.log | apply State.Good.same | apply State.Good.privs
    | apply State.Good.sram

theorem runMark_canon (s : State) (kind id aux : Nat) (r : Nat × Nat × Nat) (hd : rq.mem = none) (hs : s.Good rq) :
    (runMark s kind id aux r).Good rq := by
  unfold runMark
  repeat' with_reducible first
    | assumption | intro _ | apply State.modCs_canon | apply addMarker_canon | apply canon_ite1 | apply canon_ite2 | split
    | dsimp only | apply canon_mk | apply State.Good.regs | apply State.Good.eff | apply State.Good.dram
    | apply State.Good.host | apply State.Good.pending | apply State.Good.cont | apply State.Good.whole
    | apply State.Good.chutes | apply State.Good.log | apply State.Good.same | apply State.Good.privs
    | apply State.Good.sram

theorem runStep_canon (s : State) (kind id aux : Nat) (get : CStream → Option (Nat × Nat × Nat)) (set : CStream → Option (Nat × Nat × Nat) → CStream) (flag : Bool) (ts j : Nat) (hd : rq.mem = none) (hs : s.Good rq) :
    (runStep s kind id aux get set flag ts j).Good rq := by
  unfold runStep
  repeat' with_reducible first
    | assumption | intro _ | apply State.modCs_canon | apply runMark_canon | apply canon_ite | apply canon_ite1
    | apply canon_ite2 | refine canon_fst_of (by assumption) ?_ | refine canon_snd_of (by assumption) ?_ | split | dsimp only
    | apply canon_mk | apply State.Good.regs | apply State.Good.eff | apply State.Good.dram | apply State.Good.host
    | apply State.Good.pending | apply State.Good.cont | apply State.Good.whole | apply State.Good.chutes
    | apply State.Good.log | apply State.Good.same | apply State.Good.privs
    | apply State.Good.sram

theorem capRuns_canon (s : State) (u ts j : Nat) (fill susp : Bool) (hd : rq.mem = none) (hs : s.Good rq) :
    (capRuns s u ts j fill susp).Good rq := by
  unfold capRuns
  repeat' with_reducible first
    | assumption | intro _ | apply runStep_canon | split | dsimp only | apply canon_mk | apply State.Good.regs
    | apply State.Good.eff | apply State.Good.dram | apply State.Good.host | apply State.Good.pending | apply State.Good.cont
    | apply State.Good.whole | apply State.Good.chutes | apply State.Good.log | apply State.Good.same | apply State.Good.privs
    | apply State.Good.sram

theorem capNotes_canon (s : State) (hd : rq.mem = none) (hs : s.Good rq) :
    (capNotes s).Good rq := by
  unfold capNotes
  repeat' with_reducible first
    | assumption | intro _ | apply addMarker_canon | apply runMark_canon | apply canon_ite1 | apply canon_ite2
    | apply canon_foldl | apply canon_foldl1 | apply canon_foldl2 | refine canon_fst_of (by assumption) ?_
    | refine canon_snd_of (by assumption) ?_ | split | dsimp only | apply canon_mk | apply State.Good.regs
    | apply State.Good.eff | apply State.Good.dram | apply State.Good.host | apply State.Good.pending | apply State.Good.cont
    | apply State.Good.whole | apply State.Good.chutes | apply State.Good.log | apply State.Good.same | apply State.Good.privs
    | apply State.Good.sram

theorem capDisarm_canon (s : State) (ts : Nat) (hd : rq.mem = none) (hs : s.Good rq) :
    (capDisarm s ts).Good rq := by
  unfold capDisarm
  repeat' with_reducible first
    | assumption | intro _ | apply State.modCap_canon | apply State.wr_canon | apply addMarker_canon | apply capRuns_canon
    | apply canon_ite | apply canon_foldl | apply canon_foldl1 | apply canon_foldl2 | split | dsimp only | apply canon_mk
    | apply State.Good.regs | apply State.Good.eff | apply State.Good.dram | apply State.Good.host | apply State.Good.pending
    | apply State.Good.cont | apply State.Good.whole | apply State.Good.chutes | apply State.Good.log | apply State.Good.same
    | apply State.Good.privs
    | apply State.Good.sram

theorem granUe_canon (s : State) (id : Nat) (g : Gran) (hd : rq.mem = none) (hs : s.Good rq) :
    (granUe s id g).Good rq := by
  unfold granUe
  repeat' with_reducible first
    | assumption | intro _ | apply canon_ite | apply canon_ite1 | apply canon_ite2 | apply State.raiseAt_canon
    | apply addMarker_canon | split | dsimp only

theorem drainOne_canon (s : State) (id : Nat) (g : Gran) (hd : rq.mem = none) (hs : s.Good rq) :
    (drainOne s id g).Good rq := by
  unfold drainOne
  repeat' with_reducible first
    | assumption | intro _ | apply canon_ite | apply State.modCs_canon | apply granUe_canon | apply siloWrite_canon | split
    | dsimp only | apply canon_mk | apply State.Good.regs | apply State.Good.eff | apply State.Good.dram
    | apply State.Good.host | apply State.Good.pending | apply State.Good.cont | apply State.Good.whole
    | apply State.Good.chutes | apply State.Good.log | apply State.Good.same | apply State.Good.privs
    | apply State.Good.sram

theorem claimsClose_canon (s : State) (hd : rq.mem = none) (hs : s.Good rq) :
    (claimsClose s).Good rq := by
  unfold claimsClose
  repeat' with_reducible first
    | assumption | intro _ | apply State.dramWrite_canon | apply State.modCap_canon | apply canon_ite | apply canon_foldl
    | apply canon_foldl1 | apply canon_foldl2 | apply State.modClaim_canon | split | dsimp only | apply canon_mk
    | apply State.Good.regs | apply State.Good.eff | apply State.Good.dram | apply State.Good.host
    | apply State.Good.pending | apply State.Good.cont | apply State.Good.whole | apply State.Good.chutes
    | apply State.Good.log | apply State.Good.same | apply State.Good.privs | apply State.Good.sram

theorem granMark_canon (s : State) (id : Nat) (check : DrainCheck) (hs : s.Good rq) :
    (granMark s id check).Good rq := by
  unfold granMark
  repeat' with_reducible first
    | assumption | intro _ | apply State.modCap_canon | apply State.modCs_canon | split | dsimp only | apply canon_mk
    | apply State.Good.regs | apply State.Good.eff | apply State.Good.dram | apply State.Good.host
    | apply State.Good.pending | apply State.Good.cont | apply State.Good.whole | apply State.Good.chutes
    | apply State.Good.log | apply State.Good.same | apply State.Good.privs | apply State.Good.sram

theorem execGranuleDrain_canon (id : Nat) (check : DrainCheck) (s0 : State) (hd : rq.mem = none) (hs0 : s0.Good rq) :
    OutGood rq (execGranuleDrain id check s0) := by
  unfold execGranuleDrain
  repeat' with_reducible first
    | assumption | intro _ | apply canon_next | apply canon_iteO | apply canon_ite | apply canon_foldl | apply canon_foldl1
    | apply canon_foldl2 | apply canon_ite1 | apply canon_ite2 | apply capLag_canon | apply capSpans_canon
    | apply claimsClose_canon | apply drainOne_canon | apply granMark_canon | split | dsimp only

theorem execGapNoneHeartbeat_canon (s : State) (hd : rq.mem = none) (hs : s.Good rq) :
    OutGood rq (execGapNoneHeartbeat s) := by
  unfold execGapNoneHeartbeat
  repeat' with_reducible first
    | assumption | intro _ | apply State.modCap_canon | apply addMarker_canon | apply canon_next | apply canon_iteO
    | apply canon_ite | split | dsimp only | apply canon_mk | apply State.Good.regs | apply State.Good.eff
    | apply State.Good.dram | apply State.Good.host | apply State.Good.pending | apply State.Good.cont
    | apply State.Good.whole | apply State.Good.chutes | apply State.Good.log | apply State.Good.same | apply State.Good.privs
    | apply State.Good.sram

theorem flushFrom_canon (t : State) (id : Nat) (ht : t.Good rq) :
    (flushFrom t id).Good rq := by
  unfold flushFrom
  repeat' with_reducible first
    | assumption | intro _ | apply State.bumpBy_canon | apply State.modCs_canon | apply canon_ite | apply canon_ite1
    | apply canon_ite2 | split | dsimp only | apply canon_mk | apply State.Good.regs | apply State.Good.eff
    | apply State.Good.dram | apply State.Good.host | apply State.Good.pending | apply State.Good.cont
    | apply State.Good.whole | apply State.Good.chutes | apply State.Good.log | apply State.Good.same
    | apply State.Good.privs | apply State.Good.sram

theorem capFlushStart_canon (s : State) (tw : Nat) (hd : rq.mem = none) (hs : s.Good rq) :
    (capFlushStart s tw).Good rq := by
  unfold capFlushStart
  repeat' with_reducible first
    | assumption | intro _ | apply State.bumpBy_canon | apply State.modCap_canon | apply State.modCs_canon
    | apply State.wr_canon | apply capSpans_canon | apply closePage_canon | apply canon_ite | apply canon_foldl
    | apply canon_foldl1 | apply canon_foldl2 | refine canon_fst_of (by assumption) ?_
    | refine canon_snd_of (by assumption) ?_ | apply flushFrom_canon | apply canon_ite1 | apply canon_ite2 | split
    | dsimp only | apply canon_mk | apply State.Good.regs | apply State.Good.eff | apply State.Good.dram
    | apply State.Good.host | apply State.Good.pending | apply State.Good.cont | apply State.Good.whole
    | apply State.Good.chutes | apply State.Good.log | apply State.Good.same | apply State.Good.privs
    | apply State.Good.sram

theorem copyPage_canon (s : State) (id : Nat) (k : Nat × Nat) (pin : Bool) (p : Nat) (g : Gran) (part : List Gran) (hd : rq.mem = none) (hs : s.Good rq) :
    (copyPage s id k pin p g part).Good rq := by
  unfold copyPage
  repeat' with_reducible first
    | assumption | intro _ | apply canon_ite | apply canon_ite1 | apply canon_ite2 | apply canon_foldl | apply canon_foldl1
    | apply canon_foldl2 | apply State.dramWrite_canon | apply State.modCs_canon | apply State.modSeg_canon
    | apply State.setPage_canon | apply granUe_canon | split | dsimp only | apply canon_mk | apply State.Good.regs
    | apply State.Good.eff | apply State.Good.dram | apply State.Good.host | apply State.Good.pending
    | apply State.Good.cont | apply State.Good.whole | apply State.Good.chutes | apply State.Good.log
    | apply State.Good.same | apply State.Good.privs | apply State.Good.sram

theorem copyPages_canon (id : Nat) (k : Nat × Nat) (pin : Bool) (n : Nat) (gs : List Gran) (s : State) (hd : rq.mem = none)
    (hs : s.Good rq) : (copyPages id k pin n gs s).Good rq := by
  induction n generalizing gs s with
  | zero => exact hs
  | succ n ih =>
    simp only [copyPages]
    split
    · exact ih _ _ (copyPage_canon _ id k pin _ _ _ hd (State.modCs_canon s id _ hs))
    · exact hs

theorem copyHeld_canon (s : State) (g : Seg) (hd : rq.mem = none) (hs : s.Good rq) : (copyHeld s g).Good rq := by
  unfold copyHeld
  refine putHeader_canon _ _ hd (thaw_canon _ _ ?_)
  refine canon_foldl (fun t id ht => copyPages_canon _ _ _ _ _ _ hd ht) (State.modSeg_canon _ _ _ ?_)
  exact canon_ite hs (capOnce_canon _ _ _ (State.bump_canon _ hs))

theorem capCatchup_canon (s : State) (hd : rq.mem = none) (hs : s.Good rq) :
    (capCatchup s).Good rq := by
  unfold capCatchup
  repeat' with_reducible first
    | assumption | intro _ | apply State.modCap_canon | apply State.raiseAt_canon | apply State.wr_canon
    | apply State.wrTs_canon | apply addMarker_canon | apply capSpans_canon | apply copyHeld_canon | apply markWrite_canon
    | apply putHeader_canon | apply canon_ite | apply canon_foldl | apply canon_foldl1 | apply canon_foldl2 | split
    | dsimp only | apply canon_mk | apply State.Good.regs | apply State.Good.eff | apply State.Good.dram
    | apply State.Good.host | apply State.Good.pending | apply State.Good.cont | apply State.Good.whole
    | apply State.Good.chutes | apply State.Good.log | apply State.Good.same | apply State.Good.privs
    | apply State.Good.sram

theorem claimStop_canon (stop : Nat) (s : State) (c : CapClaim) (hd : rq.mem = none) (hs : s.Good rq) :
    (claimStop stop s c).Good rq := by
  unfold claimStop
  repeat' with_reducible first
    | assumption | intro _ | apply State.dramWrite_canon | apply State.modCap_canon | apply State.postEvent_canon
    | apply addMarker_canon | apply canon_ite | apply State.modClaim_canon | apply canon_ite1 | apply canon_ite2 | split
    | dsimp only | apply canon_mk | apply State.Good.regs | apply State.Good.eff | apply State.Good.dram
    | apply State.Good.host | apply State.Good.pending | apply State.Good.cont | apply State.Good.whole
    | apply State.Good.chutes | apply State.Good.log | apply State.Good.same | apply State.Good.privs
    | apply State.Good.sram

theorem drainAll_canon (s : State) (id : Nat) (hd : rq.mem = none) (hs : s.Good rq) :
    (drainAll s id).Good rq := by
  unfold drainAll
  repeat' with_reducible first
    | assumption | intro _ | apply canon_foldl | apply canon_foldl1 | apply canon_foldl2 | apply capLag_canon
    | apply drainOne_canon | split | dsimp only

theorem capStop_canon (s : State) (hd : rq.mem = none) (hs : s.Good rq) :
    (capStop s).Good rq := by
  unfold capStop
  repeat' with_reducible first
    | assumption | intro _ | apply State.wr_canon | apply addMarker_canon | apply capSpans_canon | apply claimStop_canon
    | apply closePage_canon | apply drainAll_canon | apply canon_ite | apply canon_foldl | apply canon_foldl1
    | apply canon_foldl2 | split | dsimp only

theorem capStopped_canon (s : State) (hd : rq.mem = none) (hs : s.Good rq) :
    (capStopped s).Good rq := by
  unfold capStopped
  repeat' with_reducible first
    | assumption | intro _ | apply State.wr_canon | apply capSpans_canon | apply closeAll_canon | apply canon_ite | split
    | dsimp only

theorem capRest_canon (s : State) (hs : s.Good rq) :
    (capRest s).1.Good rq := by
  unfold capRest
  repeat' with_reducible first
    | assumption | intro _ | apply State.bumpBy_canon | apply State.modCap_canon | apply capSpans_canon | split | dsimp only
    | apply canon_mk | apply State.Good.regs | apply State.Good.eff | apply State.Good.dram | apply State.Good.host
    | apply State.Good.pending | apply State.Good.cont | apply State.Good.whole | apply State.Good.chutes
    | apply State.Good.log | apply State.Good.same | apply State.Good.privs | apply State.Good.sram

theorem metaCheck_canon (s : State) (bad : List Nat) (hs : s.Good rq) :
    (metaCheck s bad).Good rq := by
  unfold metaCheck
  repeat' with_reducible first
    | assumption | intro _ | apply State.raise_canon | split | dsimp only

theorem capRenumber_canon (s : State) (found : Nat) (hs : s.Good rq) :
    (capRenumber s found).Good rq := by
  unfold capRenumber
  repeat' with_reducible first
    | assumption | intro _ | apply State.modCap_canon | apply State.modTrg_canon | apply State.wr_canon | split | dsimp only
    | apply canon_mk | apply State.Good.regs | apply State.Good.eff | apply State.Good.dram | apply State.Good.host
    | apply State.Good.pending | apply State.Good.cont | apply State.Good.whole | apply State.Good.chutes
    | apply State.Good.log | apply State.Good.same | apply State.Good.privs | apply State.Good.sram

theorem rebuild_canon (s : State) (fresh : Bool) (hd : rq.mem = none) (hs : s.Good rq) :
    (rebuild s fresh).1.Good rq := by
  unfold rebuild
  repeat' with_reducible first
    | assumption | intro _ | apply canon_ite | apply canon_ite1 | apply canon_ite2 | apply canon_foldl | apply canon_foldl1
    | apply canon_foldl2 | refine canon_fst_of (by assumption) ?_ | refine canon_snd_of (by assumption) ?_
    | apply State.dramWrite_canon | apply State.modCap_canon | apply State.postEvent_canon | apply State.setPage_canon
    | apply State.wrs_canon | apply capRenumber_canon | apply capSpans_canon | apply metaCheck_canon | apply pinPage_canon
    | split | dsimp only | apply canon_mk | apply State.Good.regs | apply State.Good.eff | apply State.Good.dram
    | apply State.Good.host | apply State.Good.pending | apply State.Good.cont | apply State.Good.whole
    | apply State.Good.chutes | apply State.Good.log | apply State.Good.same | apply State.Good.privs
    | apply State.Good.sram

theorem dramClear_canon (s : State) (a n : Nat) (hd : rq.mem = none) (hs : s.Good rq) : (dramClear s a n).Good rq :=
  ⟨hs.regs, hs.eff, cellWf_filter _ _ hs.dram, hs.host, hs.pending, hs.cont, hs.whole, hs.chutes, hs.log, (fun _ e => nomatch hd.symm.trans e), hs.privs, hs.sram⟩

theorem capSiloPart_canon (s : State) (init fresh : Bool) (hd : rq.mem = none) (hs : s.Good rq) :
    (capSiloPart s init fresh).1.Good rq := by
  unfold capSiloPart
  repeat' with_reducible first
    | assumption | intro _ | apply canon_ite | apply canon_ite1 | apply canon_ite2 | apply State.modCap_canon
    | apply capSpans_canon | apply dramClear_canon | apply rebuild_canon | split | dsimp only | apply canon_mk
    | apply State.Good.regs | apply State.Good.eff | apply State.Good.dram | apply State.Good.host
    | apply State.Good.pending | apply State.Good.cont | apply State.Good.whole | apply State.Good.chutes
    | apply State.Good.log | apply State.Good.same | apply State.Good.privs | apply State.Good.sram

theorem capTake_canon (p : Packet) (s : State) (hs : s.Good rq) :
    (capTake p s).Good rq := by
  unfold capTake
  repeat' with_reducible first
    | assumption | intro _ | apply State.modCap_canon | apply State.wrs_canon | apply capSpans_canon | split | dsimp only
    | apply canon_mk | apply State.Good.regs | apply State.Good.eff | apply State.Good.dram | apply State.Good.host
    | apply State.Good.pending | apply State.Good.cont | apply State.Good.whole | apply State.Good.chutes
    | apply State.Good.log | apply State.Good.same | apply State.Good.privs
    | apply State.Good.sram

theorem execCapConfig_canon (p : Packet) (s : State) (hd : rq.mem = none) (hs : s.Good rq) :
    OutGood rq (execCapConfig p s) := by
  unfold execCapConfig
  repeat' with_reducible first
    | assumption | intro _ | apply canon_next | apply canon_iteO | apply canon_iteF | apply canon_final | apply canon_wait
    | apply canon_pend | apply canon_ite | apply canon_ite1 | apply canon_ite2 | apply State.modCap_canon
    | apply capSiloPart_canon | apply capTake_canon | apply fcpStep_canon | split | dsimp only | apply canon_mk
    | apply State.Good.regs | apply State.Good.eff | apply State.Good.dram | apply State.Good.host
    | apply State.Good.pending | apply State.Good.cont | apply State.Good.whole | apply State.Good.chutes
    | apply State.Good.log | apply State.Good.same | apply State.Good.privs | apply State.Good.sram

theorem capDramReady_canon (s0 : State) (hd : rq.mem = none) (hs0 : s0.Good rq) :
    (capDramReady s0).Good rq := by
  unfold capDramReady
  repeat' with_reducible first
    | assumption | intro _ | refine canon_fst_of (by assumption) ?_ | refine canon_snd_of (by assumption) ?_
    | apply canon_ite | apply canon_ite1 | apply canon_ite2 | apply State.modCap_canon | apply State.wake_canon
    | apply State.wr_canon | apply capSiloPart_canon | apply capSpans_canon | split | dsimp only | apply canon_mk
    | apply State.Good.regs | apply State.Good.eff | apply State.Good.dram | apply State.Good.host
    | apply State.Good.pending | apply State.Good.cont | apply State.Good.whole | apply State.Good.chutes
    | apply State.Good.log | apply State.Good.same | apply State.Good.privs | apply State.Good.sram

theorem execCapStatus_canon (p : Packet) (s : State) (hs : s.Good rq) :
    OutGood rq (execCapStatus p s) := by
  unfold execCapStatus
  repeat' with_reducible first
    | assumption | intro _ | apply State.zeroFields_canon | apply fcpStep_canon | apply canon_next | apply canon_iteO
    | apply canon_iteF | apply canon_final | apply canon_wait | apply canon_pend | apply canon_ite | split | dsimp only

theorem capCtrlWrite_canon (v : Nat) (s : State) (hs : s.Good rq) :
    (capCtrlWrite v s).Good rq := by
  unfold capCtrlWrite
  repeat' with_reducible first
    | assumption | intro _ | apply State.zeroFields_canon | apply plainWrite_canon | apply canon_ite | split | dsimp only

theorem execCapClrCounters_canon (m : Nat) (v : Word) (s : State) (hs : s.Good rq) :
    OutGood rq (execCapClrCounters m v s) := by
  unfold execCapClrCounters
  repeat' with_reducible first
    | assumption | intro _ | apply State.writeBy_canon | apply capCtrlWrite_canon | apply canon_next | apply canon_iteO
    | split | dsimp only

theorem clPlace_canon (s : State) (c : CapClaim) (hd : rq.mem = none) (hs : s.Good rq) :
    (clPlace s c).Good rq := by
  unfold clPlace
  repeat' with_reducible first
    | assumption | intro _ | apply State.dramWrite_canon | apply State.modCap_canon | apply addMarker_canon
    | apply capSpans_canon | apply claimsClose_canon | apply pinPage_canon | apply canon_foldl | apply canon_foldl1
    | apply canon_foldl2 | split | dsimp only | apply canon_mk | apply State.Good.regs | apply State.Good.eff
    | apply State.Good.dram | apply State.Good.host | apply State.Good.pending | apply State.Good.cont
    | apply State.Good.whole | apply State.Good.chutes | apply State.Good.log | apply State.Good.same | apply State.Good.privs
    | apply State.Good.sram

theorem execClaimCmd_canon (p : Packet) (s : State) (hd : rq.mem = none) (hs : s.Good rq) :
    OutGood rq (execClaimCmd p s) := by
  unfold execClaimCmd
  repeat' with_reducible first
    | assumption | intro _ | apply clPlace_canon | apply fcpStep_canon | apply canon_next | apply canon_iteO
    | apply canon_iteF | apply canon_final | apply canon_wait | apply canon_pend | apply canon_ite | apply canon_foldl
    | apply canon_foldl1 | apply canon_foldl2 | refine canon_fst_of (by assumption) ?_
    | refine canon_snd_of (by assumption) ?_ | split | dsimp only | apply canon_mk | apply State.Good.regs
    | apply State.Good.eff | apply State.Good.dram | apply State.Good.host | apply State.Good.pending | apply State.Good.cont
    | apply State.Good.whole | apply State.Good.chutes | apply State.Good.log | apply State.Good.same | apply State.Good.privs
    | apply State.Good.sram

theorem releaseClaim_canon (s : State) (c : CapClaim) (hd : rq.mem = none) (hs : s.Good rq) :
    (releaseClaim s c).1.Good rq := by
  unfold releaseClaim
  repeat' with_reducible first
    | assumption | intro _ | apply State.dramWrite_canon | apply State.modCap_canon | apply addMarker_canon
    | apply capSpans_canon | apply unpinPage_canon | apply canon_foldl | apply canon_foldl1 | apply canon_foldl2 | split
    | dsimp only | apply canon_mk | apply State.Good.regs | apply State.Good.eff | apply State.Good.dram
    | apply State.Good.host | apply State.Good.pending | apply State.Good.cont | apply State.Good.whole
    | apply State.Good.chutes | apply State.Good.log | apply State.Good.same | apply State.Good.privs
    | apply State.Good.sram

theorem releaseSeg_canon (s : State) (g : Seg) (hd : rq.mem = none) (hs : s.Good rq) :
    (releaseSeg s g).1.Good rq := by
  unfold releaseSeg
  repeat' with_reducible first
    | assumption | intro _ | apply State.dramWrite_canon | apply State.modCap_canon | apply capSpans_canon
    | apply unpinPage_canon | apply canon_ite | apply canon_ite1 | apply canon_foldl | apply canon_foldl1
    | apply canon_foldl2 | apply State.modSeg_canon | apply thaw_canon | split | dsimp only | apply canon_mk
    | apply State.Good.regs | apply State.Good.eff | apply State.Good.dram | apply State.Good.host
    | apply State.Good.pending | apply State.Good.cont | apply State.Good.whole | apply State.Good.chutes
    | apply State.Good.log | apply State.Good.same | apply State.Good.privs | apply State.Good.sram

theorem relAll_canon (p : Packet) (s : State) (hd : rq.mem = none) (hs : s.Good rq) :
    (relAll p s).1.Good rq := by
  unfold relAll
  repeat' with_reducible first
    | assumption | intro _ | apply releaseClaim_canon | apply canon_ite1 | apply canon_ite2 | apply canon_foldl
    | apply canon_foldl1 | apply canon_foldl2 | split | dsimp only

theorem execClaimRelease_canon (p : Packet) (s : State) (hd : rq.mem = none) (hs : s.Good rq) :
    OutGood rq (execClaimRelease p s) := by
  unfold execClaimRelease
  repeat' with_reducible first
    | assumption | intro _ | apply fSt_canon | apply fcpStep_canon | apply relAll_canon | apply releaseClaim_canon
    | apply releaseSeg_canon | apply canon_next | apply canon_iteO | apply canon_iteF | apply canon_final | apply canon_wait
    | apply canon_pend | apply canon_ite | apply canon_ite1 | apply canon_ite2 | refine canon_fst_of (by assumption) ?_
    | refine canon_snd_of (by assumption) ?_ | split | dsimp only | apply canon_mk | apply State.Good.regs
    | apply State.Good.eff | apply State.Good.dram | apply State.Good.host | apply State.Good.pending | apply State.Good.cont
    | apply State.Good.whole | apply State.Good.chutes | apply State.Good.log | apply State.Good.same | apply State.Good.privs
    | apply State.Good.sram

theorem execSegInfo_canon (p : Packet) (s : State) (hs : s.Good rq) :
    OutGood rq (execSegInfo p s) := by
  unfold execSegInfo
  repeat' with_reducible first
    | assumption | intro _ | apply State.hostWrite_canon | apply fcpStep_canon | apply canon_next | apply canon_iteO
    | apply canon_iteF | apply canon_final | apply canon_wait | apply canon_pend | apply metaCheck_canon | split
    | dsimp only | apply canon_mk | apply State.Good.regs | apply State.Good.eff | apply State.Good.dram
    | apply State.Good.host | apply State.Good.pending | apply State.Good.cont | apply State.Good.whole
    | apply State.Good.chutes | apply State.Good.log | apply State.Good.same | apply State.Good.privs
    | apply State.Good.sram

theorem execSiloLocate_canon (p : Packet) (s : State) (hs : s.Good rq) :
    OutGood rq (execSiloLocate p s) := by
  unfold execSiloLocate
  repeat' with_reducible first
    | assumption | intro _ | apply fcpStep_canon | apply canon_next | apply canon_iteO | apply canon_iteF | apply canon_final
    | apply canon_wait | apply canon_pend | apply canon_ite | apply canon_ite1 | apply canon_ite2
    | refine canon_fst_of (by assumption) ?_ | refine canon_snd_of (by assumption) ?_ | split | dsimp only | apply canon_mk
    | apply State.Good.regs | apply State.Good.eff | apply State.Good.dram | apply State.Good.host | apply State.Good.pending
    | apply State.Good.cont | apply State.Good.whole | apply State.Good.chutes | apply State.Good.log | apply State.Good.same
    | apply State.Good.privs
    | apply State.Good.sram

theorem execCapRebuild_canon (p : Packet) (s : State) (hd : rq.mem = none) (hs : s.Good rq) :
    OutGood rq (execCapRebuild p s) := by
  unfold execCapRebuild
  repeat' with_reducible first
    | assumption | intro _ | apply canon_next | apply canon_iteO | apply canon_iteF | apply canon_final | apply canon_wait
    | apply canon_pend | apply canon_ite1 | apply canon_ite2 | apply fcpStep_canon | apply rebuild_canon | split
    | dsimp only | apply canon_mk | apply State.Good.regs | apply State.Good.eff | apply State.Good.dram
    | apply State.Good.host | apply State.Good.pending | apply State.Good.cont | apply State.Good.whole
    | apply State.Good.chutes | apply State.Good.log | apply State.Good.same | apply State.Good.privs
    | apply State.Good.sram

theorem execCapAutoRebuild_canon (s : State) (hd : rq.mem = none) (hs : s.Good rq) :
    OutGood rq (execCapAutoRebuild s) := by
  unfold execCapAutoRebuild
  repeat' with_reducible first
    | assumption | intro _ | apply canon_next | apply canon_iteO | apply canon_ite | apply canon_ite1 | apply canon_ite2
    | apply canon_foldl | apply canon_foldl1 | apply canon_foldl2 | apply State.setReg_canon | apply rebuild_canon | split
    | dsimp only

end Sys2Proof.Machine
end

