-- ==== Sys2Proof/Laws/CanonCmpOps.lean ====
section
/-!
SUPPORT. What Machine/CmpOps.lean defines keeps the canonical form of what is stored.
-/

namespace Sys2Proof.Machine

variable {rq : Kept}

theorem listWrite_canon (s : State) (c n : Nat) (es : List OutEnt) (bs : List Byte) (hd : rq.mem = none) (hs : s.Good rq) :
    (listWrite s c n es bs).1.Good rq := by
  induction n generalizing s es bs with
  | zero => exact hs
  | succ n ih =>
    cases es with
    | nil => exact hs
    | cons e es =>
      simp only [listWrite]
      exact canon_ite1 hs (ih _ _ _ (putSpace_canon s _ _ _ _ hd hs))

theorem cmpDrain_canon (s : State) (j : CmpJob) (hd : rq.mem = none) (hs : s.Good rq) : (cmpDrain s j).1.Good rq :=
  listWrite_canon _ _ _ _ _ hd hs

theorem cmpBlock_canon (s : State) (j : CmpJob) (hd : rq.mem = none) (hs : s.Good rq) :
    (cmpBlock s j).1.Good rq := by
  unfold cmpBlock
  repeat' with_reducible first
    | assumption | intro _ | apply cmpDrain_canon | apply canon_ite | apply canon_ite1 | apply canon_ite2
    | refine canon_fst_of (by assumption) ?_ | refine canon_snd_of (by assumption) ?_ | split | dsimp only | apply canon_mk
    | apply State.Good.regs | apply State.Good.eff | apply State.Good.dram | apply State.Good.host | apply State.Good.pending
    | apply State.Good.cont | apply State.Good.whole | apply State.Good.chutes | apply State.Good.log | apply State.Good.same
    | apply State.Good.privs
    | apply State.Good.sram

theorem cmpBlocks_canon (n : Nat) (s : State) (j : CmpJob) (hd : rq.mem = none) (hs : s.Good rq) : (cmpBlocks n s j).1.Good rq := by
  induction n generalizing s j with
  | zero => exact hs
  | succ n ih =>
    have h := cmpBlock_canon s j hd hs
    simp only [cmpBlocks]
    split
    · rename_i e
      rw [e] at h
      exact ih _ _ h
    · exact h

theorem cmpCount_canon (s : State) (e inN outN : Nat) (hs : s.Good rq) :
    (cmpCount s e inN outN).Good rq := by
  unfold cmpCount
  repeat' with_reducible first
    | assumption | intro _ | apply State.wr64_canon | split | dsimp only

theorem saveWrite_canon (s : State) (j : CmpJob) (id : Nat) (hd : rq.mem = none) (hs : s.Good rq) :
    (saveWrite s j id).Good rq := by
  unfold saveWrite
  repeat' with_reducible first
    | assumption | intro _ | apply State.dramWrite_canon | split | dsimp only | apply canon_mk | apply State.Good.regs
    | apply State.Good.eff | apply State.Good.dram | apply State.Good.host | apply State.Good.pending | apply State.Good.cont
    | apply State.Good.whole | apply State.Good.chutes | apply State.Good.log | apply State.Good.same | apply State.Good.privs
    | apply State.Good.sram

theorem setJob_canon (s : State) (j : CmpJob) (hs : s.Good rq) :
    (setJob s j).Good rq := by
  unfold setJob
  repeat' with_reducible first
    | assumption | intro _ | apply State.modJob_canon | split | dsimp only

theorem jobAnswer_canon (s : State) (j : CmpJob) (r : Reply) (hs : s.Good rq) :
    (jobAnswer s j r).Good rq := by
  unfold jobAnswer
  repeat' with_reducible first
    | assumption | intro _ | apply State.finish_canon | refine canon_fst_of (by assumption) ?_
    | refine canon_snd_of (by assumption) ?_ | split | dsimp only | apply canon_mk | apply State.Good.regs
    | apply State.Good.eff | apply State.Good.dram | apply State.Good.host | apply State.Good.pending | apply State.Good.cont
    | apply State.Good.whole | apply State.Good.chutes | apply State.Good.log | apply State.Good.same | apply State.Good.privs
    | apply State.Good.sram

theorem claimAfter_canon (s : State) (i : Option ClaimInfo) (hd : rq.mem = none) (hs : s.Good rq) :
    (claimAfter s i).Good rq := by
  unfold claimAfter
  repeat' with_reducible first
    | assumption | intro _ | apply releaseClaim_canon | apply releaseSeg_canon | apply canon_ite1
    | refine canon_fst_of (by assumption) ?_ | refine canon_snd_of (by assumption) ?_ | split | dsimp only | apply canon_mk
    | apply State.Good.regs | apply State.Good.eff | apply State.Good.dram | apply State.Good.host | apply State.Good.pending
    | apply State.Good.cont | apply State.Good.whole | apply State.Good.chutes | apply State.Good.log | apply State.Good.same
    | apply State.Good.privs
    | apply State.Good.sram

theorem streamAfter_canon (s : State) (j : CmpJob) (hd : rq.mem = none) (hs : s.Good rq) :
    (streamAfter s j).Good rq := by
  unfold streamAfter
  repeat' with_reducible first
    | assumption | intro _ | apply State.modCmp_canon | apply saveWrite_canon | apply canon_ite | split | dsimp only
    | apply canon_mk | apply State.Good.regs | apply State.Good.eff | apply State.Good.dram | apply State.Good.host
    | apply State.Good.pending | apply State.Good.cont | apply State.Good.whole | apply State.Good.chutes
    | apply State.Good.log | apply State.Good.same | apply State.Good.privs
    | apply State.Good.sram

theorem jobDone_canon (s : State) (j : CmpJob) (hd : rq.mem = none) (hs : s.Good rq) :
    (jobDone s j).Good rq := by
  unfold jobDone
  repeat' with_reducible first
    | assumption | intro _ | apply claimAfter_canon | apply jobLeave_canon | apply streamAfter_canon | apply canon_ite | split
    | dsimp only

theorem jobFault_canon (s : State) (j : CmpJob) (reason : Nat) (hs : s.Good rq) :
    (jobFault s j reason).Good rq := by
  unfold jobFault
  repeat' with_reducible first
    | assumption | intro _ | apply State.bump_canon | apply State.modCmp_canon | apply State.raise_canon
    | apply jobLeave_canon | apply canon_ite | refine canon_fst_of (by assumption) ?_ | refine canon_snd_of (by assumption) ?_
    | split | dsimp only | apply canon_mk | apply State.Good.regs | apply State.Good.eff | apply State.Good.dram
    | apply State.Good.host | apply State.Good.pending | apply State.Good.cont | apply State.Good.whole
    | apply State.Good.chutes | apply State.Good.log | apply State.Good.same | apply State.Good.privs
    | apply State.Good.sram

theorem jobSuspend_canon (s : State) (j : CmpJob) (hd : rq.mem = none) (hs : s.Good rq) :
    (jobSuspend s j).Good rq := by
  unfold jobSuspend
  repeat' with_reducible first
    | assumption | intro _ | apply cmpRefresh_canon | apply jobAnswer_canon | apply saveWrite_canon | apply setJob_canon
    | apply canon_ite | split | dsimp only | apply canon_mk | apply State.Good.regs | apply State.Good.eff
    | apply State.Good.dram | apply State.Good.host | apply State.Good.pending | apply State.Good.cont
    | apply State.Good.whole | apply State.Good.chutes | apply State.Good.log | apply State.Good.same | apply State.Good.privs
    | apply State.Good.sram

theorem jobPark_canon (s : State) (j : CmpJob) (hd : rq.mem = none) (hs : s.Good rq) :
    (jobPark s j).Good rq := by
  unfold jobPark
  repeat' with_reducible first
    | assumption | intro _ | apply jobLeave_canon | apply jobSuspend_canon | apply canon_ite | split | dsimp only

theorem jobSettle_canon (r : State × CmpJob × CmpEnd) (hd : rq.mem = none) (hr : r.1.Good rq) :
    (jobSettle r).Good rq := by
  unfold jobSettle
  repeat' with_reducible first
    | assumption | intro _ | apply cmpRefresh_canon | apply jobDone_canon | apply jobFault_canon | apply jobSuspend_canon
    | apply setJob_canon | refine canon_fst_of (by assumption) ?_ | refine canon_snd_of (by assumption) ?_ | split
    | dsimp only | apply canon_mk | apply State.Good.regs | apply State.Good.eff | apply State.Good.dram
    | apply State.Good.host | apply State.Good.pending | apply State.Good.cont | apply State.Good.whole
    | apply State.Good.chutes | apply State.Good.log | apply State.Good.same | apply State.Good.privs
    | apply State.Good.sram

theorem cmpPower_canon (s : State) (hs : s.Good rq) :
    (cmpPower s).Good rq := by
  unfold cmpPower
  repeat' with_reducible first
    | assumption | intro _ | apply State.setDom_canon | apply canon_ite | split | dsimp only

theorem cmpStart_canon (s : State) (n : Nat) (hs : s.Good rq) : (cmpStart s n).Good rq := by
  induction n generalizing s with
  | zero => exact hs
  | succ n ih =>
    simp only [cmpStart]
    refine canon_ite hs ?_
    split
    · exact hs
    · split
      · exact hs
      · split
        · exact ih _ (jobFault_canon s _ _ hs)
        · exact canon_ite (ih _ (cmpRefresh_canon _ (setJob_canon s _ hs))) (ih _ (jobFault_canon s _ _ hs))

theorem cmpKick_canon (s : State) (hs : s.Good rq) :
    (cmpKick s).Good rq := by
  unfold cmpKick
  repeat' with_reducible first
    | assumption | intro _ | apply cmpPower_canon | apply cmpStart_canon | split | dsimp only

theorem cmpParkAll_canon (s : State) (keepClaims : Bool) (hd : rq.mem = none) (hs : s.Good rq) :
    (cmpParkAll s keepClaims).Good rq := by
  unfold cmpParkAll
  repeat' with_reducible first
    | assumption | intro _ | apply jobPark_canon | apply canon_foldl | apply canon_foldl1 | apply canon_foldl2
    | refine canon_fst_of (by assumption) ?_ | refine canon_snd_of (by assumption) ?_ | split | dsimp only | apply canon_mk
    | apply State.Good.regs | apply State.Good.eff | apply State.Good.dram | apply State.Good.host | apply State.Good.pending
    | apply State.Good.cont | apply State.Good.whole | apply State.Good.chutes | apply State.Good.log | apply State.Good.same
    | apply State.Good.privs
    | apply State.Good.sram

end Sys2Proof.Machine
end

