-- ==== Sys2Proof/Laws/CanonClaimRead.lean ====
section
/-!
SUPPORT. What Machine/ClaimRead.lean defines keeps the canonical form of what is stored.
-/

namespace Sys2Proof.Machine

variable {rq : Kept}

theorem jobQueue_canon (s : State) (j : CmpJob) (hs : s.Good rq) :
    (jobQueue s j).Good rq := by
  unfold jobQueue
  repeat' with_reducible first
    | assumption | intro _ | apply State.modCmp_canon | apply cmpKick_canon | split | dsimp only | apply canon_mk
    | apply State.Good.regs | apply State.Good.eff | apply State.Good.dram | apply State.Good.host | apply State.Good.pending
    | apply State.Good.cont | apply State.Good.whole | apply State.Good.chutes | apply State.Good.log | apply State.Good.same
    | apply State.Good.privs
    | apply State.Good.sram

theorem crUe_canon (p : Packet) (s : State) (rs : List Stretch) (hd : rq.mem = none) (hs : s.Good rq) :
    (crUe p s rs).Good rq := by
  unfold crUe
  repeat' with_reducible first
    | assumption | intro _ | apply canon_foldl | apply canon_foldl1 | apply canon_foldl2 | apply granUe_canon | split
    | dsimp only

theorem crTry_canon (p : Packet) (s : State) (hd : rq.mem = none) (hs : s.Good rq) :
    (crTry p s).1.Good rq := by
  unfold crTry
  repeat' with_reducible first
    | assumption | intro _ | apply canon_ite | apply canon_ite1 | refine canon_fst_of (by assumption) ?_
    | refine canon_snd_of (by assumption) ?_ | apply canon_ite2 | apply State.modChan_canon | apply crUe_canon
    | apply jobQueue_canon | apply setChState_canon | split | dsimp only | apply canon_mk | apply State.Good.regs
    | apply State.Good.eff | apply State.Good.dram | apply State.Good.host | apply State.Good.pending
    | apply State.Good.cont | apply State.Good.whole | apply State.Good.chutes | apply State.Good.log
    | apply State.Good.same | apply State.Good.privs | apply State.Good.sram

theorem execClaimRead_canon (p : Packet) (s : State) (hd : rq.mem = none) (hs : s.Good rq) :
    OutGood rq (execClaimRead p s) := by
  unfold execClaimRead
  repeat' with_reducible first
    | assumption | intro _ | apply canon_next | apply canon_iteO | apply canon_iteF | apply canon_final | apply canon_wait
    | apply canon_pend | apply canon_ite | apply canon_ite1 | apply canon_ite2 | apply crTry_canon | apply fcpStep_canon
    | split | dsimp only | apply canon_mk | apply State.Good.regs | apply State.Good.eff | apply State.Good.dram
    | apply State.Good.host | apply State.Good.pending | apply State.Good.cont | apply State.Good.whole
    | apply State.Good.chutes | apply State.Good.log | apply State.Good.same | apply State.Good.privs
    | apply State.Good.sram

theorem crRetry_canon (s : State) (test : Nat → Bool) (hd : rq.mem = none) (hs : s.Good rq) :
    (crRetry s test).Good rq := by
  unfold crRetry
  repeat' with_reducible first
    | assumption | intro _ | apply canon_ite | apply canon_ite1 | apply canon_ite2 | apply canon_foldl | apply canon_foldl1
    | apply canon_foldl2 | apply State.finish_canon | apply State.modInflight_canon | apply crTry_canon | split | dsimp only
    | apply canon_mk | apply State.Good.regs | apply State.Good.eff | apply State.Good.dram | apply State.Good.host
    | apply State.Good.pending | apply State.Good.cont | apply State.Good.whole | apply State.Good.chutes
    | apply State.Good.log | apply State.Good.same | apply State.Good.privs | apply State.Good.sram

end Sys2Proof.Machine
end

