-- ==== Sys2Proof/Laws/CanonContract.lean ====
section
/-!
SUPPORT. What Machine/Contract.lean defines keeps the canonical form of what is stored.
-/

namespace Sys2Proof.Machine

variable {rq : Kept}

theorem raiseFclk_canon (s : State) (hs : s.Good rq) :
    (raiseFclk s).Good rq := by
  unfold raiseFclk
  repeat' with_reducible first
    | assumption | intro _ | apply setFreq_canon | apply canon_ite | split | dsimp only

theorem conInsert_canon (s : State) (c : Contract) (hs : s.Good rq) :
    (conInsert s c).Good rq := by
  unfold conInsert
  repeat' with_reducible first
    | assumption | intro _ | apply State.modCon_canon | split | dsimp only | apply canon_mk | apply State.Good.regs
    | apply State.Good.eff | apply State.Good.dram | apply State.Good.host | apply State.Good.pending | apply State.Good.cont
    | apply State.Good.whole | apply State.Good.chutes | apply State.Good.log | apply State.Good.same | apply State.Good.privs
    | apply State.Good.sram

theorem conInForce_canon (s : State) (c : Contract) (hs : s.Good rq) :
    (conInForce s c).Good rq := by
  unfold conInForce
  repeat' with_reducible first
    | assumption | intro _ | apply admRegs_canon | apply conInsert_canon | apply raiseFclk_canon | split | dsimp only

theorem conAccept_canon (s : State) (c : Contract) (hs : s.Good rq) :
    (conAccept s c).Good rq := by
  unfold conAccept
  repeat' with_reducible first
    | assumption | intro _ | apply conInForce_canon | apply canon_iteF | apply canon_final | apply canon_wait
    | apply canon_pend | apply canon_ite | split | dsimp only

theorem admWake_canon (s : State) (hs : s.Good rq) :
    (admWake s).Good rq := by
  unfold admWake
  repeat' with_reducible first
    | assumption | intro _ | apply State.finish_canon | apply canon_ite | apply canon_foldl | apply canon_foldl1
    | apply canon_foldl2 | split | dsimp only

theorem conRefuse_canon (s : State) (q : Quote) (hs : s.Good rq) :
    (conRefuse s q).Good rq := by
  unfold conRefuse
  repeat' with_reducible first
    | assumption | intro _ | apply State.bump_canon | apply canon_iteF | apply canon_final | apply canon_wait
    | apply canon_pend | split | dsimp only

theorem conRequest_canon (p : Packet) (s : State) (hs : s.Good rq) :
    (conRequest p s).Good rq := by
  unfold conRequest
  repeat' with_reducible first
    | assumption | intro _ | apply conAccept_canon | apply conRefuse_canon | apply canon_iteF | apply canon_final
    | apply canon_wait | apply canon_pend | apply canon_ite | split | dsimp only

theorem execContractRequest_canon (p : Packet) (s : State) (hs : s.Good rq) :
    OutGood rq (execContractRequest p s) := by
  unfold execContractRequest
  repeat' with_reducible first
    | assumption | intro _ | apply conRequest_canon | apply fcpStep_canon | apply canon_next | apply canon_iteO
    | apply canon_iteF | apply canon_final | apply canon_wait | apply canon_pend | split | dsimp only

theorem conModify_canon (s : State) (old c : Contract) (hs : s.Good rq) :
    (conModify s old c).Good rq := by
  unfold conModify
  repeat' with_reducible first
    | assumption | intro _ | apply conAccept_canon | apply conRefuse_canon | apply canon_iteF | apply canon_final
    | apply canon_wait | apply canon_pend | apply canon_ite | refine canon_fst_of (by assumption) ?_
    | refine canon_snd_of (by assumption) ?_ | split | dsimp only | apply canon_mk | apply State.Good.regs
    | apply State.Good.eff | apply State.Good.dram | apply State.Good.host | apply State.Good.pending | apply State.Good.cont
    | apply State.Good.whole | apply State.Good.chutes | apply State.Good.log | apply State.Good.same | apply State.Good.privs
    | apply State.Good.sram

theorem execContractModify_canon (p : Packet) (s : State) (hs : s.Good rq) :
    OutGood rq (execContractModify p s) := by
  unfold execContractModify
  repeat' with_reducible first
    | assumption | intro _ | apply conModify_canon | apply fSt_canon | apply fcpStep_canon | apply canon_next
    | apply canon_iteO | apply canon_iteF | apply canon_final | apply canon_wait | apply canon_pend | apply canon_ite
    | refine canon_fst_of (by assumption) ?_ | refine canon_snd_of (by assumption) ?_ | split | dsimp only | apply canon_mk
    | apply State.Good.regs | apply State.Good.eff | apply State.Good.dram | apply State.Good.host | apply State.Good.pending
    | apply State.Good.cont | apply State.Good.whole | apply State.Good.chutes | apply State.Good.log | apply State.Good.same
    | apply State.Good.privs
    | apply State.Good.sram

theorem conRelease_canon (s : State) (ctx : Nat) (hs : s.Good rq) :
    (conRelease s ctx).Good rq := by
  unfold conRelease
  repeat' with_reducible first
    | assumption | intro _ | apply admRegs_canon | apply dmaCloseCtx_canon | apply dropCon_canon | apply unloadCtx_canon
    | split | dsimp only

theorem relCheck_canon (s : State) (hs : s.Good rq) :
    (relCheck s).Good rq := by
  unfold relCheck
  repeat' with_reducible first
    | assumption | intro _ | apply State.finish_canon | apply conRelease_canon | apply canon_foldl | apply canon_foldl1
    | apply canon_foldl2 | split | dsimp only

theorem drains_canon (s : State) (hs : s.Good rq) :
    (drains s).Good rq := by
  unfold drains
  repeat' with_reducible first
    | assumption | intro _ | apply drainCheck_canon | apply relCheck_canon | split | dsimp only

theorem stopCtx_canon (s : State) (ctx : Nat) (hs : s.Good rq) :
    (stopCtx s ctx).Good rq := by
  unfold stopCtx
  repeat' with_reducible first
    | assumption | intro _ | apply State.modEng_canon | apply canon_ite | split | dsimp only | apply canon_mk
    | apply State.Good.regs | apply State.Good.eff | apply State.Good.dram | apply State.Good.host | apply State.Good.pending
    | apply State.Good.cont | apply State.Good.whole | apply State.Good.chutes | apply State.Good.log | apply State.Good.same
    | apply State.Good.privs
    | apply State.Good.sram

theorem execContractRelease_canon (p : Packet) (s : State) (hs : s.Good rq) :
    OutGood rq (execContractRelease p s) := by
  unfold execContractRelease
  repeat' with_reducible first
    | assumption | intro _ | apply conRelease_canon | apply fcpStep_canon | apply stopCtx_canon | apply canon_next
    | apply canon_iteO | apply canon_iteF | apply canon_final | apply canon_wait | apply canon_pend | apply canon_ite | split
    | dsimp only

theorem execContractStatus_canon (p : Packet) (s : State) (hs : s.Good rq) :
    OutGood rq (execContractStatus p s) := by
  unfold execContractStatus
  repeat' with_reducible first
    | assumption | intro _ | apply fcpStep_canon | apply canon_next | apply canon_iteO | apply canon_iteF | apply canon_final
    | apply canon_wait | apply canon_pend | apply canon_ite | refine canon_fst_of (by assumption) ?_
    | refine canon_snd_of (by assumption) ?_ | split | dsimp only | apply canon_mk | apply State.Good.regs
    | apply State.Good.eff | apply State.Good.dram | apply State.Good.host | apply State.Good.pending | apply State.Good.cont
    | apply State.Good.whole | apply State.Good.chutes | apply State.Good.log | apply State.Good.same | apply State.Good.privs
    | apply State.Good.sram

theorem execBudgetQuery_canon (p : Packet) (s : State) (hs : s.Good rq) :
    OutGood rq (execBudgetQuery p s) := by
  unfold execBudgetQuery
  repeat' with_reducible first
    | assumption | intro _ | apply State.hostWrite_canon | apply fOk_canon | apply fcpStep_canon | apply canon_next
    | apply canon_iteO | apply canon_iteF | apply canon_final | apply canon_wait | apply canon_pend | split | dsimp only

theorem execAdmissionRerun_canon (s : State) (hd : rq.mem = none) (hs : s.Good rq) :
    OutGood rq (execAdmissionRerun s) := by
  unfold execAdmissionRerun
  repeat' with_reducible first
    | assumption | intro _ | apply admitRerun_canon | apply budgetCheck_canon | apply drains_canon | apply canon_next
    | apply canon_iteO | apply canon_ite | apply canon_ite1 | refine canon_fst_of (by assumption) ?_
    | refine canon_snd_of (by assumption) ?_ | split | dsimp only | apply canon_mk | apply State.Good.regs
    | apply State.Good.eff | apply State.Good.dram | apply State.Good.host | apply State.Good.pending | apply State.Good.cont
    | apply State.Good.whole | apply State.Good.chutes | apply State.Good.log | apply State.Good.same | apply State.Good.privs
    | apply State.Good.sram

end Sys2Proof.Machine
end

