-- ==== Sys2Proof/Laws/CanonMemOps.lean ====
section
/-!
SUPPORT. What Machine/MemOps.lean defines keeps the canonical form of what is stored.
-/

namespace Sys2Proof.Machine

variable {rq : Kept}

theorem State.modMem_canon (s : State) (g : Mem → Mem) (hs : s.Good rq) :
    (State.modMem s g).Good rq := by
  unfold State.modMem
  repeat' with_reducible first
    | assumption | intro _ | split | dsimp only | apply canon_mk | apply State.Good.regs | apply State.Good.eff
    | apply State.Good.dram | apply State.Good.host | apply State.Good.pending | apply State.Good.cont
    | apply State.Good.whole | apply State.Good.chutes | apply State.Good.log | apply State.Good.same | apply State.Good.privs
    | apply State.Good.sram

theorem State.modMch_canon (s : State) (c : Nat) (g : MChan → MChan) (hs : s.Good rq) :
    (State.modMch s c g).Good rq := by
  unfold State.modMch
  repeat' with_reducible first
    | assumption | intro _ | apply State.modMem_canon | split | dsimp only | apply canon_mk | apply State.Good.regs
    | apply State.Good.eff | apply State.Good.dram | apply State.Good.host | apply State.Good.pending | apply State.Good.cont
    | apply State.Good.whole | apply State.Good.chutes | apply State.Good.log | apply State.Good.same | apply State.Good.privs
    | apply State.Good.sram

theorem eachCh_canon (s : State) (f : State → Nat → State) (hf : ∀ t c, t.Good rq → (f t c).Good rq) (hs : s.Good rq) :
    (eachCh s f).Good rq :=
  canon_foldl hf hs

theorem setMc_canon (s : State) (c v : Nat) (hs : s.Good rq) :
    (setMc s c v).Good rq := by
  unfold setMc
  repeat' with_reducible first
    | assumption | intro _ | apply State.wr_canon | split | dsimp only

theorem setRank_canon (s : State) (c p v : Nat) (hs : s.Good rq) :
    (setRank s c p v).Good rq := by
  unfold setRank
  repeat' with_reducible first
    | assumption | intro _ | apply State.wr_canon | split | dsimp only

theorem setOwed_canon (s : State) (c p v : Nat) (hs : s.Good rq) :
    (setOwed s c p v).Good rq := by
  unfold setOwed
  repeat' with_reducible first
    | assumption | intro _ | apply State.modMch_canon | apply State.wr_canon | split | dsimp only | apply canon_mk
    | apply State.Good.regs | apply State.Good.eff | apply State.Good.dram | apply State.Good.host | apply State.Good.pending
    | apply State.Good.cont | apply State.Good.whole | apply State.Good.chutes | apply State.Good.log | apply State.Good.same
    | apply State.Good.privs
    | apply State.Good.sram

theorem payAll_canon (s : State) (c : Nat) (hs : s.Good rq) :
    (payAll s c).Good rq := by
  unfold payAll
  repeat' with_reducible first
    | assumption | intro _ | apply setOwed_canon | apply canon_foldl | apply canon_foldl1 | apply canon_foldl2 | split
    | dsimp only

theorem setRate_canon (s : State) (c p : Nat) (x2 : Bool) (hs : s.Good rq) :
    (setRate s c p x2).Good rq := by
  unfold setRate
  repeat' with_reducible first
    | assumption | intro _ | apply State.bump_canon | apply State.modMch_canon | apply State.raise_canon
    | apply State.wrB_canon | apply setOwed_canon | apply canon_ite | refine canon_fst_of (by assumption) ?_
    | refine canon_snd_of (by assumption) ?_ | split | dsimp only | apply canon_mk | apply State.Good.regs
    | apply State.Good.eff | apply State.Good.dram | apply State.Good.host | apply State.Good.pending | apply State.Good.cont
    | apply State.Good.whole | apply State.Good.chutes | apply State.Good.log | apply State.Good.same | apply State.Good.privs
    | apply State.Good.sram

theorem refClamp_canon (s : State) (c : Nat) (hs : s.Good rq) : (refClamp s c).Good rq := by
  unfold refClamp
  repeat' with_reducible first
    | assumption | intro _ | apply setOwed_canon | apply canon_foldl | apply canon_foldl1 | apply canon_foldl2 | apply canon_ite | split
    | dsimp only

theorem pinRange_canon (s : State) (lo n : Nat) (hd : rq.mem = none) (hs : s.Good rq) :
    (pinRange s lo n).Good rq := by
  unfold pinRange
  repeat' with_reducible first
    | assumption | intro _ | apply State.setPage_canon | apply capSpans_canon | apply pinPage_canon | apply canon_foldl
    | apply canon_foldl1 | apply canon_foldl2 | split | dsimp only | apply canon_mk | apply State.Good.regs
    | apply State.Good.eff | apply State.Good.dram | apply State.Good.host | apply State.Good.pending | apply State.Good.cont
    | apply State.Good.whole | apply State.Good.chutes | apply State.Good.log | apply State.Good.same | apply State.Good.privs
    | apply State.Good.sram

theorem retireInPlace_canon (s : State) (c p : Nat) (hd : rq.mem = none) (hs : s.Good rq) :
    (retireInPlace s c p).Good rq := by
  unfold retireInPlace
  repeat' with_reducible first
    | assumption | intro _ | apply State.modMem_canon | apply State.postEvent_canon | apply State.raise_canon
    | apply pinRange_canon | apply setRank_canon | apply wantRerun_canon | split | dsimp only | apply canon_mk
    | apply State.Good.regs | apply State.Good.eff | apply State.Good.dram | apply State.Good.host | apply State.Good.pending
    | apply State.Good.cont | apply State.Good.whole | apply State.Good.chutes | apply State.Good.log | apply State.Good.same
    | apply State.Good.privs
    | apply State.Good.sram

theorem rankRetire_canon (s : State) (c p : Nat) (hd : rq.mem = none) (hs : s.Good rq) :
    (rankRetire s c p).1.Good rq := by
  unfold rankRetire
  repeat' with_reducible first
    | assumption | intro _ | apply State.modMch_canon | apply State.wrs_canon | apply retireInPlace_canon | apply setMc_canon
    | apply setRank_canon | apply canon_ite | apply canon_ite1 | refine canon_fst_of (by assumption) ?_
    | refine canon_snd_of (by assumption) ?_ | split | dsimp only | apply canon_mk | apply State.Good.regs
    | apply State.Good.eff | apply State.Good.dram | apply State.Good.host | apply State.Good.pending | apply State.Good.cont
    | apply State.Good.whole | apply State.Good.chutes | apply State.Good.log | apply State.Good.same | apply State.Good.privs
    | apply State.Good.sram

theorem granRead_canon (s : State) (g : Nat) (res : ReadCheck) (hd : rq.mem = none) (hs : s.Good rq) :
    (granRead s g res).Good rq := by
  unfold granRead
  repeat' with_reducible first
    | assumption | intro _ | apply State.bump_canon | apply State.modMem_canon | apply State.raise_canon
    | apply State.wr64_canon | apply rankRetire_canon | apply canon_ite | apply canon_ite1
    | refine canon_fst_of (by assumption) ?_ | refine canon_snd_of (by assumption) ?_ | split | dsimp only | apply canon_mk
    | apply State.Good.regs | apply State.Good.eff | apply State.Good.dram | apply State.Good.host | apply State.Good.pending
    | apply State.Good.cont | apply State.Good.whole | apply State.Good.chutes | apply State.Good.log | apply State.Good.same
    | apply State.Good.privs
    | apply State.Good.sram

theorem selfRefresh_canon (s : State) (c : Nat) (hs : s.Good rq) :
    (selfRefresh s c).Good rq := by
  unfold selfRefresh
  repeat' with_reducible first
    | assumption | intro _ | apply State.modMch_canon | apply payAll_canon | apply setMc_canon | apply canon_ite | split
    | dsimp only | apply canon_mk | apply State.Good.regs | apply State.Good.eff | apply State.Good.dram
    | apply State.Good.host | apply State.Good.pending | apply State.Good.cont | apply State.Good.whole
    | apply State.Good.chutes | apply State.Good.log | apply State.Good.same | apply State.Good.privs
    | apply State.Good.sram

theorem mcReady_canon (s : State) (c : Nat) (hs : s.Good rq) :
    (mcReady s c).Good rq := by
  unfold mcReady
  repeat' with_reducible first
    | assumption | intro _ | apply State.modMch_canon | apply payAll_canon | apply setMc_canon | split | dsimp only
    | apply canon_mk | apply State.Good.regs | apply State.Good.eff | apply State.Good.dram | apply State.Good.host
    | apply State.Good.pending | apply State.Good.cont | apply State.Good.whole | apply State.Good.chutes
    | apply State.Good.log | apply State.Good.same | apply State.Good.privs
    | apply State.Good.sram

theorem trainStart_canon (s : State) (fresh full : Bool) (rate : Nat) (hs : s.Good rq) :
    (trainStart s fresh full rate).Good rq := by
  unfold trainStart
  repeat' with_reducible first
    | assumption | intro _ | apply State.modMch_canon | apply State.modMem_canon | apply State.wr_canon
    | apply State.wrs_canon | apply eachCh_canon | split | dsimp only | apply canon_mk | apply State.Good.regs
    | apply State.Good.eff | apply State.Good.dram | apply State.Good.host | apply State.Good.pending | apply State.Good.cont
    | apply State.Good.whole | apply State.Good.chutes | apply State.Good.log | apply State.Good.same | apply State.Good.privs
    | apply State.Good.sram

theorem trainFail_canon (s : State) (c step rank : Nat) (hs : s.Good rq) :
    (trainFail s c step rank).Good rq := by
  unfold trainFail
  repeat' with_reducible first
    | assumption | intro _ | apply State.raise_canon | apply State.wrs_canon | split | dsimp only

theorem remapDram_canon (s : State) (new : MemMap) (hd : rq.mem = none) (hs : s.Good rq) : (remapDram s new).Good rq := by
  have key : ∀ (l : List Host.Cell) (m : List Host.Cell), Memory.wf m = true →
      Memory.wf (l.foldl (fun m c => memPut m (remapAddr s.mem.map new c.1) c.2) m) = true := by
    intro l
    induction l with
    | nil => exact fun m h => h
    | cons c l ih => exact fun m h => ih _ (memWf_put _ _ h)
  unfold remapDram
  refine canon_ite hs ?_
  exact canon_mk hs.regs hs.eff (key _ _ rfl) hs.host hs.pending hs.cont hs.whole hs.chutes hs.log (fun _ e => nomatch hd.symm.trans e) hs.privs hs.sram

theorem rankSetup_canon (s : State) (f : Population) (c : Nat) (hs : s.Good rq) :
    (rankSetup s f c).Good rq := by
  unfold rankSetup
  repeat' with_reducible first
    | assumption | intro _ | apply State.modMch_canon | apply setRank_canon | apply canon_ite | apply canon_foldl
    | apply canon_foldl1 | apply canon_foldl2 | split | dsimp only | apply canon_mk | apply State.Good.regs
    | apply State.Good.eff | apply State.Good.dram | apply State.Good.host | apply State.Good.pending | apply State.Good.cont
    | apply State.Good.whole | apply State.Good.chutes | apply State.Good.log | apply State.Good.same | apply State.Good.privs
    | apply State.Good.sram

theorem spareTakes_canon (s : State) (c p q rows : Nat) (hs : s.Good rq) :
    (spareTakes s c p q rows).Good rq := by
  unfold spareTakes
  repeat' with_reducible first
    | assumption | intro _ | apply State.modMch_canon | apply State.postEvent_canon | apply State.raise_canon | apply setRank_canon
    | split | dsimp only

theorem rankSwap_canon (s : State) (c : Nat) (hd : rq.mem = none) (hs : s.Good rq) :
    (rankSwap s c).Good rq := by
  unfold rankSwap
  split
  · refine State.modMch_canon _ _ _ (spareTakes_canon _ _ _ _ _ ?_)
    exact ⟨hs.regs, hs.eff, cellWf_filter _ _ hs.dram, hs.host, hs.pending, hs.cont, hs.whole, hs.chutes, hs.log,
      (fun _ e => nomatch hd.symm.trans e), hs.privs, hs.sram⟩
  · exact hs

theorem popRegs_canon (s : State) (f : Population) (rate : Nat) (hs : s.Good rq) :
    (popRegs s f rate).Good rq := by
  unfold popRegs
  repeat' with_reducible first
    | assumption | intro _ | apply State.wrs_canon | apply eachCh_canon | apply setKhz_canon | apply mpllTo_canon | split
    | dsimp only

theorem mapSetup_canon (s : State) (f : Population) (hd : rq.mem = none) (hs : s.Good rq) :
    (mapSetup s f).Good rq := by
  unfold mapSetup
  repeat' with_reducible first
    | assumption | intro _ | apply State.modMem_canon | apply State.wr64_canon | apply State.wrs_canon | apply remapDram_canon
    | apply canon_foldl | apply canon_foldl1 | apply canon_foldl2 | split | dsimp only | apply canon_mk
    | apply State.Good.regs | apply State.Good.eff | apply State.Good.dram | apply State.Good.host | apply State.Good.pending
    | apply State.Good.cont | apply State.Good.whole | apply State.Good.chutes | apply State.Good.log | apply State.Good.same
    | apply State.Good.privs
    | apply State.Good.sram

theorem initStart_canon (s : State) (ptr : Nat) (hs : s.Good rq) :
    (initStart s ptr).Good rq := by
  unfold initStart
  repeat' with_reducible first
    | assumption | intro _ | apply State.modMem_canon | apply State.wr_canon | apply State.wr64_canon | split | dsimp only
    | apply canon_mk | apply State.Good.regs | apply State.Good.eff | apply State.Good.dram | apply State.Good.host
    | apply State.Good.pending | apply State.Good.cont | apply State.Good.whole | apply State.Good.chutes
    | apply State.Good.log | apply State.Good.same | apply State.Good.privs
    | apply State.Good.sram

theorem dramReady_canon (s : State) (hd : rq.mem = none) (hs : s.Good rq) :
    (dramReady s).Good rq := by
  unfold dramReady
  repeat' with_reducible first
    | assumption | intro _ | apply State.setDom_canon | apply State.wr_canon | apply admRegs_canon | apply capDramReady_canon
    | apply capRisen_canon | apply eachCh_canon | apply recordStart_canon | apply selfRefresh_canon | apply canon_ite | split
    | dsimp only

end Sys2Proof.Machine
end

