-- ==== Sys2Proof/Laws/CanonMem.lean ====
section
/-!
SUPPORT. What Machine/Mem.lean defines keeps the canonical form of what is stored.
-/

namespace Sys2Proof.Machine

variable {rq : Kept}

theorem memTake_canon (p : Packet) (s : State) (hs : s.Good rq) :
    (memTake p s).Good rq := by
  unfold memTake
  repeat' with_reducible first
    | assumption | intro _ | apply State.modMem_canon | apply State.wr_canon | apply refClamp_canon | apply State.wrs_canon
    | apply eachCh_canon | split | dsimp only | apply canon_mk | apply State.Good.regs | apply State.Good.eff | apply State.Good.dram
    | apply State.Good.host | apply State.Good.pending | apply State.Good.cont | apply State.Good.whole
    | apply State.Good.chutes | apply State.Good.log | apply State.Good.same | apply State.Good.privs
    | apply State.Good.sram

theorem execMemConfig_canon (p : Packet) (s : State) (hs : s.Good rq) :
    OutGood rq (execMemConfig p s) := by
  unfold execMemConfig
  repeat' with_reducible first
    | assumption | intro _ | apply fcpStep_canon | apply memTake_canon | apply canon_next | apply canon_iteO
    | apply canon_iteF | apply canon_final | apply canon_wait | apply canon_pend | split | dsimp only

theorem execMemStatus_canon (p : Packet) (s : State) (hs : s.Good rq) :
    OutGood rq (execMemStatus p s) := by
  unfold execMemStatus
  repeat' with_reducible first
    | assumption | intro _ | apply State.zeroFields_canon | apply fcpStep_canon | apply canon_next | apply canon_iteO
    | apply canon_iteF | apply canon_final | apply canon_wait | apply canon_pend | apply canon_ite | split | dsimp only

theorem unfreeze_canon (s : State) (c : Nat) (hs : s.Good rq) :
    (unfreeze s c).Good rq := by
  unfold unfreeze
  repeat' with_reducible first
    | assumption | intro _ | apply State.modMch_canon | apply setMc_canon | split | dsimp only | apply canon_mk
    | apply State.Good.regs | apply State.Good.eff | apply State.Good.dram | apply State.Good.host | apply State.Good.pending
    | apply State.Good.cont | apply State.Good.whole | apply State.Good.chutes | apply State.Good.log | apply State.Good.same
    | apply State.Good.privs
    | apply State.Good.sram

theorem execMemRelease_canon (p : Packet) (s : State) (hs : s.Good rq) :
    OutGood rq (execMemRelease p s) := by
  unfold execMemRelease
  repeat' with_reducible first
    | assumption | intro _ | apply fcpStep_canon | apply unfreeze_canon | apply canon_next | apply canon_iteO
    | apply canon_iteF | apply canon_final | apply canon_wait | apply canon_pend | split | dsimp only

theorem spareSet_canon (p : Packet) (s : State) (hs : s.Good rq) :
    (spareSet p s).Good rq := by
  unfold spareSet
  repeat' with_reducible first
    | assumption | intro _ | apply State.wrs_canon | apply canon_ite | split | dsimp only

theorem spareRetire_canon (s : State) (c r : Nat) (hs : s.Good rq) : (spareRetire s c r).Good rq := by
  unfold spareRetire
  repeat' with_reducible first
    | assumption | intro _ | apply State.postEvent_canon | apply State.raise_canon | apply setRank_canon

theorem execMemSpare_canon (p : Packet) (s : State) (hd : rq.mem = none) (hs : s.Good rq) :
    OutGood rq (execMemSpare p s) := by
  unfold execMemSpare
  repeat' with_reducible first
    | assumption | intro _ | apply spareRetire_canon | apply State.raise_canon | apply fcpStep_canon | apply rankRetire_canon | apply setRank_canon
    | apply spareSet_canon | apply canon_next | apply canon_iteO | apply canon_iteF | apply canon_final | apply canon_wait
    | apply canon_pend | apply canon_ite | apply canon_ite1 | apply canon_ite2 | split | dsimp only

theorem execMemTrain_canon (p : Packet) (s : State) (hs : s.Good rq) :
    OutGood rq (execMemTrain p s) := by
  unfold execMemTrain
  repeat' with_reducible first
    | assumption | intro _ | apply State.setDom_canon | apply fcpStep_canon | apply trainStart_canon | apply canon_next
    | apply canon_iteO | apply canon_iteF | apply canon_final | apply canon_wait | apply canon_pend | split | dsimp only

theorem memCtrlWrite_canon (c v : Nat) (s : State) (hs : s.Good rq) :
    (memCtrlWrite c v s).Good rq := by
  unfold memCtrlWrite
  repeat' with_reducible first
    | assumption | intro _ | apply State.wr_canon | apply State.zeroFields_canon | apply canon_ite | split | dsimp only

theorem execMemClrCounters_canon (m c : Nat) (v : Word) (s : State) (hs : s.Good rq) :
    OutGood rq (execMemClrCounters m c v s) := by
  unfold execMemClrCounters
  repeat' with_reducible first
    | assumption | intro _ | apply State.writeBy_canon | apply memCtrlWrite_canon | apply canon_next | apply canon_iteO
    | apply canon_ite | split | dsimp only

theorem trnWrite_canon (s : State) (c : Nat) (v : Word) (hs : s.Good rq) :
    (trnWrite s c v).Good rq := by
  unfold trnWrite
  repeat' with_reducible first
    | assumption | intro _ | apply State.wrs_canon | apply State.zeroFields_canon | apply plainWrite_canon | apply canon_ite
    | split | dsimp only

theorem execTrnGo_canon (m c : Nat) (v : Word) (s : State) (hs : s.Good rq) :
    OutGood rq (execTrnGo m c v s) := by
  unfold execTrnGo
  repeat' with_reducible first
    | assumption | intro _ | apply State.writeBy_canon | apply trnWrite_canon | apply canon_next | apply canon_iteO
    | apply canon_ite | split | dsimp only

theorem mpllChange_canon (s : State) (mhz : Nat) (hs : s.Good rq) :
    (mpllChange s mhz).Good rq := by
  unfold mpllChange
  repeat' with_reducible first
    | assumption | intro _ | apply State.bump_canon | apply State.modMem_canon | apply State.setDom_canon
    | apply State.wr_canon | apply setKhz_canon | apply trainStart_canon | apply canon_ite
    | refine canon_fst_of (by assumption) ?_ | refine canon_snd_of (by assumption) ?_ | apply mpllTo_canon
    | apply canon_ite1 | apply canon_ite2 | split | dsimp only | apply canon_mk | apply State.Good.regs
    | apply State.Good.eff | apply State.Good.dram | apply State.Good.host | apply State.Good.pending
    | apply State.Good.cont | apply State.Good.whole | apply State.Good.chutes | apply State.Good.log
    | apply State.Good.same | apply State.Good.privs | apply State.Good.sram

theorem stepDone_canon (s : State) (c lanes : Nat) (hs : s.Good rq) :
    (stepDone s c lanes).Good rq := by
  unfold stepDone
  repeat' with_reducible first
    | assumption | intro _ | apply State.wrs_canon | split | dsimp only

theorem lanesDrop_canon (s : State) (hs : s.Good rq) :
    (lanesDrop s).Good rq := by
  unfold lanesDrop
  repeat' with_reducible first
    | assumption | intro _ | apply State.zeroFields_canon | apply eachCh_canon | split | dsimp only

theorem execTrnStepDone_canon (c lanes : Nat) (s : State) (hs : s.Good rq) :
    OutGood rq (execTrnStepDone c lanes s) := by
  unfold execTrnStepDone
  repeat' with_reducible first
    | assumption | intro _ | apply State.wake_canon | apply lanesDrop_canon | apply mpllChange_canon | apply stepDone_canon
    | apply canon_next | apply canon_iteO | apply canon_ite | refine canon_fst_of (by assumption) ?_
    | refine canon_snd_of (by assumption) ?_ | split | dsimp only | apply canon_mk | apply State.Good.regs
    | apply State.Good.eff | apply State.Good.dram | apply State.Good.host | apply State.Good.pending | apply State.Good.cont
    | apply State.Good.whole | apply State.Good.chutes | apply State.Good.log | apply State.Good.same | apply State.Good.privs
    | apply State.Good.sram

theorem trainEndFail_canon (s : State) (hs : s.Good rq) :
    (trainEndFail s).Good rq := by
  unfold trainEndFail
  repeat' with_reducible first
    | assumption | intro _ | apply State.finishAll_canon | apply State.modClk_canon | apply State.modMem_canon
    | apply State.wake_canon | refine canon_fst_of (by assumption) ?_ | refine canon_snd_of (by assumption) ?_ | split
    | dsimp only | apply canon_mk | apply State.Good.regs | apply State.Good.eff | apply State.Good.dram
    | apply State.Good.host | apply State.Good.pending | apply State.Good.cont | apply State.Good.whole
    | apply State.Good.chutes | apply State.Good.log | apply State.Good.same | apply State.Good.privs
    | apply State.Good.sram

theorem execTrainingStepTimeout_canon (c step rank : Nat) (s : State) (hs : s.Good rq) :
    OutGood rq (execTrainingStepTimeout c step rank s) := by
  unfold execTrainingStepTimeout
  repeat' with_reducible first
    | assumption | intro _ | apply State.modMch_canon | apply trainFail_canon | apply canon_next | apply canon_iteO
    | apply canon_ite | refine canon_fst_of (by assumption) ?_ | refine canon_snd_of (by assumption) ?_ | split | dsimp only
    | apply canon_mk | apply State.Good.regs | apply State.Good.eff | apply State.Good.dram | apply State.Good.host
    | apply State.Good.pending | apply State.Good.cont | apply State.Good.whole | apply State.Good.chutes
    | apply State.Good.log | apply State.Good.same | apply State.Good.privs
    | apply State.Good.sram

theorem spareMissing_canon (s : State) (f : Population) (c : Nat) (hs : s.Good rq) : (spareMissing s f c).Good rq := by
  unfold spareMissing
  repeat' with_reducible first
    | assumption | intro _ | apply trainFail_canon | apply canon_ite | split

theorem trainGood_canon (s : State) (found : Population) (t : Training) (hd : rq.mem = none) (hs : s.Good rq) :
    (trainGood s found t).Good rq := by
  unfold trainGood
  repeat' with_reducible first
    | assumption | intro _ | apply State.modMem_canon | apply State.wake_canon | apply dramReady_canon | apply eachCh_canon
    | apply initStart_canon | apply mapSetup_canon | apply mcReady_canon | apply popRegs_canon | apply rankSwap_canon | apply rankSetup_canon
    | apply canon_ite | split | dsimp only | apply canon_mk | apply State.Good.regs | apply State.Good.eff
    | apply State.Good.dram | apply State.Good.host | apply State.Good.pending | apply State.Good.cont
    | apply State.Good.whole | apply State.Good.chutes | apply State.Good.log | apply State.Good.same | apply State.Good.privs
    | apply State.Good.sram

theorem trainVerdict_canon (s : State) (found : Population) (t : Training) (hd : rq.mem = none) (hs : s.Good rq) :
    (trainVerdict s found t).Good rq :=
  canon_ite (trainEndFail_canon s hs) (trainGood_canon s found t hd hs)

theorem execDramTrainingDone_canon (found : Population) (s : State) (hd : rq.mem = none) (hs : s.Good rq) :
    OutGood rq (execDramTrainingDone found s) := by
  unfold execDramTrainingDone
  repeat' with_reducible first
    | assumption | intro _ | apply eachCh_canon | apply trainEndFail_canon | apply spareMissing_canon | apply trainFail_canon | apply trainVerdict_canon
    | apply canon_next | apply canon_iteO | apply canon_ite | refine canon_fst_of (by assumption) ?_
    | refine canon_snd_of (by assumption) ?_ | split | dsimp only | apply canon_mk | apply State.Good.regs
    | apply State.Good.eff | apply State.Good.dram | apply State.Good.host | apply State.Good.pending | apply State.Good.cont
    | apply State.Good.whole | apply State.Good.chutes | apply State.Good.log | apply State.Good.same | apply State.Good.privs
    | apply State.Good.sram

theorem initReach_canon (s : State) (q : Nat) (hs : s.Good rq) :
    (initReach s q).Good rq := by
  unfold initReach
  repeat' with_reducible first
    | assumption | intro _ | apply State.modMem_canon | apply State.postEvent_canon | apply State.wr_canon
    | apply State.wr64_canon | apply budgetCheck_canon | apply canon_ite | split | dsimp only | apply canon_mk
    | apply State.Good.regs | apply State.Good.eff | apply State.Good.dram | apply State.Good.host | apply State.Good.pending
    | apply State.Good.cont | apply State.Good.whole | apply State.Good.chutes | apply State.Good.log | apply State.Good.same
    | apply State.Good.privs
    | apply State.Good.sram

theorem execDramInitRegion_canon (s : State) (hs : s.Good rq) :
    OutGood rq (execDramInitRegion s) := by
  unfold execDramInitRegion
  repeat' with_reducible first
    | assumption | intro _ | apply initReach_canon | apply canon_next | apply canon_iteO | apply canon_ite
    | refine canon_fst_of (by assumption) ?_ | refine canon_snd_of (by assumption) ?_ | split | dsimp only | apply canon_mk
    | apply State.Good.regs | apply State.Good.eff | apply State.Good.dram | apply State.Good.host | apply State.Good.pending
    | apply State.Good.cont | apply State.Good.whole | apply State.Good.chutes | apply State.Good.log | apply State.Good.same
    | apply State.Good.privs
    | apply State.Good.sram

theorem latMax_canon (s : State) (port n : Nat) (hs : s.Good rq) :
    (latMax s port n).Good rq := by
  unfold latMax
  repeat' with_reducible first
    | assumption | intro _ | apply State.wr_canon | apply canon_ite | split | dsimp only

theorem execDramRead_canon (addr port ns : Nat) (res : ReadCheck) (s : State) (hd : rq.mem = none) (hs : s.Good rq) :
    OutGood rq (execDramRead addr port ns res s) := by
  unfold execDramRead
  repeat' with_reducible first
    | assumption | intro _ | apply State.bump_canon | apply granRead_canon | apply latMax_canon | apply canon_next
    | apply canon_iteO | apply canon_ite | split | dsimp only

theorem execScrubRead_canon (res : ReadCheck) (s : State) (hd : rq.mem = none) (hs : s.Good rq) :
    OutGood rq (execScrubRead res s) := by
  unfold execScrubRead
  repeat' with_reducible first
    | assumption | intro _ | apply State.modMem_canon | apply granRead_canon | apply canon_next | apply canon_iteO
    | apply canon_ite | split | dsimp only | apply canon_mk | apply State.Good.regs | apply State.Good.eff
    | apply State.Good.dram | apply State.Good.host | apply State.Good.pending | apply State.Good.cont
    | apply State.Good.whole | apply State.Good.chutes | apply State.Good.log | apply State.Good.same | apply State.Good.privs
    | apply State.Good.sram

theorem migDone_canon (s : State) (c : Nat) (hs : s.Good rq) :
    (migDone s c).Good rq := by
  unfold migDone
  repeat' with_reducible first
    | assumption | intro _ | apply spareTakes_canon | apply State.modMch_canon | apply State.postEvent_canon | apply State.raise_canon
    | apply State.wake_canon | apply State.wr_canon | apply setMc_canon | apply setRank_canon | apply canon_ite | split
    | dsimp only | apply canon_mk | apply State.Good.regs | apply State.Good.eff | apply State.Good.dram
    | apply State.Good.host | apply State.Good.pending | apply State.Good.cont | apply State.Good.whole
    | apply State.Good.chutes | apply State.Good.log | apply State.Good.same | apply State.Good.privs
    | apply State.Good.sram

theorem execRankMigrationDone_canon (c : Nat) (s : State) (hs : s.Good rq) :
    OutGood rq (execRankMigrationDone c s) := by
  unfold execRankMigrationDone
  repeat' with_reducible first
    | assumption | intro _ | apply migDone_canon | apply canon_next | apply canon_iteO | apply canon_ite | split | dsimp only

theorem execRefreshSlotDue_canon (c p : Nat) (busy : Bool) (s : State) (hs : s.Good rq) :
    OutGood rq (execRefreshSlotDue c p busy s) := by
  unfold execRefreshSlotDue
  repeat' with_reducible first
    | assumption | intro _ | apply setOwed_canon | apply canon_next | apply canon_iteO | apply canon_ite | split | dsimp only

theorem execMr4Poll_canon (c p ind : Nat) (s : State) (hs : s.Good rq) :
    OutGood rq (execMr4Poll c p ind s) := by
  unfold execMr4Poll
  repeat' with_reducible first
    | assumption | intro _ | apply State.raise_canon | apply setRate_canon | apply canon_next | apply canon_iteO
    | apply canon_ite | split | dsimp only

theorem execSpdHubPoll_canon (c d : Nat) (t : Option Nat) (s : State) (hs : s.Good rq) :
    OutGood rq (execSpdHubPoll c d t s) := by
  unfold execSpdHubPoll
  repeat' with_reducible first
    | assumption | intro _ | apply State.raise_canon | apply State.wr_canon | apply canon_next | apply canon_iteO
    | apply canon_ite | refine canon_fst_of (by assumption) ?_ | refine canon_snd_of (by assumption) ?_ | split | dsimp only
    | apply canon_mk | apply State.Good.regs | apply State.Good.eff | apply State.Good.dram | apply State.Good.host
    | apply State.Good.pending | apply State.Good.cont | apply State.Good.whole | apply State.Good.chutes
    | apply State.Good.log | apply State.Good.same | apply State.Good.privs
    | apply State.Good.sram

theorem execWriteAgeExpiry_canon (c sc : Nat) (s : State) (hs : s.Good rq) :
    OutGood rq (execWriteAgeExpiry c sc s) := by
  unfold execWriteAgeExpiry
  repeat' with_reducible first
    | assumption | intro _ | apply State.modMch_canon | apply canon_next | apply canon_iteO | apply canon_ite
    | refine canon_fst_of (by assumption) ?_ | refine canon_snd_of (by assumption) ?_ | split | dsimp only | apply canon_mk
    | apply State.Good.regs | apply State.Good.eff | apply State.Good.dram | apply State.Good.host | apply State.Good.pending
    | apply State.Good.cont | apply State.Good.whole | apply State.Good.chutes | apply State.Good.log | apply State.Good.same
    | apply State.Good.privs
    | apply State.Good.sram

theorem caFreeze_canon (s : State) (c : Nat) (cmds : List Nat) (index rank : Nat) (hs : s.Good rq) :
    (caFreeze s c cmds index rank).Good rq := by
  unfold caFreeze
  repeat' with_reducible first
    | assumption | intro _ | apply State.bump_canon | apply State.modMch_canon | apply State.postEvent_canon
    | apply State.raise_canon | apply State.wr_canon | apply State.wrs_canon | apply setMc_canon | apply canon_ite
    | apply canon_foldl | apply canon_foldl1 | apply canon_foldl2 | split | dsimp only | apply canon_mk
    | apply State.Good.regs | apply State.Good.eff | apply State.Good.dram | apply State.Good.host | apply State.Good.pending
    | apply State.Good.cont | apply State.Good.whole | apply State.Good.chutes | apply State.Good.log | apply State.Good.same
    | apply State.Good.privs
    | apply State.Good.sram

theorem execCaParityAlert_canon (c : Nat) (cmds : List Nat) (index rank : Nat) (s : State) (hs : s.Good rq) :
    OutGood rq (execCaParityAlert c cmds index rank s) := by
  unfold execCaParityAlert
  repeat' with_reducible first
    | assumption | intro _ | apply caFreeze_canon | apply canon_next | apply canon_iteO | apply canon_ite | split | dsimp only

theorem execCaAutoRelease_canon (c : Nat) (s : State) (hs : s.Good rq) :
    OutGood rq (execCaAutoRelease c s) := by
  unfold execCaAutoRelease
  repeat' with_reducible first
    | assumption | intro _ | apply unfreeze_canon | apply canon_next | apply canon_iteO | apply canon_ite
    | refine canon_fst_of (by assumption) ?_ | refine canon_snd_of (by assumption) ?_ | split | dsimp only | apply canon_mk
    | apply State.Good.regs | apply State.Good.eff | apply State.Good.dram | apply State.Good.host | apply State.Good.pending
    | apply State.Good.cont | apply State.Good.whole | apply State.Good.chutes | apply State.Good.log | apply State.Good.same
    | apply State.Good.privs
    | apply State.Good.sram

theorem softDone_canon (s : State) (hd : rq.mem = none) (hs : s.Good rq) :
    (softDone s).Good rq := by
  unfold softDone
  repeat' with_reducible first
    | assumption | intro _ | apply dramReady_canon | apply canon_ite | split | dsimp only

theorem execSelfRefreshExit_canon (c : Nat) (ok : Bool) (s : State) (hd : rq.mem = none) (hs : s.Good rq) :
    OutGood rq (execSelfRefreshExit c ok s) := by
  unfold execSelfRefreshExit
  repeat' with_reducible first
    | assumption | intro _ | apply State.modMch_canon | apply mcReady_canon | apply softDone_canon | apply trainStart_canon
    | apply canon_next | apply canon_iteO | apply canon_ite | split | dsimp only | apply canon_mk | apply State.Good.regs
    | apply State.Good.eff | apply State.Good.dram | apply State.Good.host | apply State.Good.pending | apply State.Good.cont
    | apply State.Good.whole | apply State.Good.chutes | apply State.Good.log | apply State.Good.same | apply State.Good.privs
    | apply State.Good.sram

theorem execDriftRecentre_canon (c : Nat) (s : State) (hs : s.Good rq) :
    OutGood rq (execDriftRecentre c s) := by
  unfold execDriftRecentre
  repeat' with_reducible first
    | assumption | intro _ | apply State.raise_canon | apply mcReady_canon | apply canon_next | apply canon_iteO
    | apply canon_ite | split | dsimp only

end Sys2Proof.Machine
end

