-- ==== Sys2Proof/Laws/CanonTrg.lean ====
section
/-!
SUPPORT. What Machine/Trg.lean defines keeps the canonical form of what is stored.
-/

namespace Sys2Proof.Machine

variable {rq : Kept}

theorem trgFlags_canon (s : State) (hs : s.Good rq) :
    (trgFlags s).Good rq := by
  unfold trgFlags
  repeat' with_reducible first
    | assumption | intro _ | apply State.wrB_canon | apply canon_foldl | apply canon_foldl1 | apply canon_foldl2
    | apply bnQuiet_canon | apply canon_ite | apply canon_ite1 | apply canon_ite2 | split | dsimp only

theorem trgApply_canon (s : State) (t : Nat) (hs : s.Good rq) :
    (trgApply s t).Good rq := by
  unfold trgApply
  repeat' with_reducible first
    | assumption | intro _ | apply State.applyRegs_canon | apply State.setReg_canon | apply State.wrTs_canon
    | apply trgFlags_canon | apply canon_foldl | apply canon_foldl1 | apply canon_foldl2 | split | dsimp only

theorem ovlRenew_canon (s : State) (hs : s.Good rq) :
    (ovlRenew s).Good rq := by
  unfold ovlRenew
  repeat' with_reducible first
    | assumption | intro _ | apply State.modTrg_canon | apply State.wr_canon | apply canon_ite | apply canon_ite1
    | apply canon_ite2 | split | dsimp only | apply canon_mk | apply State.Good.regs | apply State.Good.eff
    | apply State.Good.dram | apply State.Good.host | apply State.Good.pending | apply State.Good.cont
    | apply State.Good.whole | apply State.Good.chutes | apply State.Good.log | apply State.Good.same
    | apply State.Good.privs | apply State.Good.sram

theorem commitsEnd_canon (s : State) (hs : s.Good rq) :
    (commitsEnd s).Good rq := by
  unfold commitsEnd
  repeat' with_reducible first
    | assumption | intro _ | apply State.wake_canon | split | dsimp only | apply canon_mk | apply State.Good.regs
    | apply State.Good.eff | apply State.Good.dram | apply State.Good.host | apply State.Good.pending
    | apply State.Good.cont | apply State.Good.whole | apply State.Good.chutes | apply State.Good.log
    | apply State.Good.same | apply State.Good.privs | apply State.Good.sram

theorem trgApplyAt_canon (s : State) (t : Nat) (hs : s.Good rq) :
    (trgApplyAt s t).Good rq := by
  unfold trgApplyAt
  repeat' with_reducible first
    | assumption | intro _ | apply State.modBn_canon | apply State.modNote_canon | apply State.modTrg_canon
    | apply trgApply_canon | apply canon_ite | apply canon_foldl | apply canon_foldl1 | apply canon_foldl2
    | apply ovlRenew_canon | apply canon_ite1 | apply canon_ite2 | split | dsimp only | apply canon_mk
    | apply State.Good.regs | apply State.Good.eff | apply State.Good.dram | apply State.Good.host
    | apply State.Good.pending | apply State.Good.cont | apply State.Good.whole | apply State.Good.chutes
    | apply State.Good.log | apply State.Good.same | apply State.Good.privs | apply State.Good.sram

theorem trgCommitGo_canon (s : State) (hs : s.Good rq) :
    (trgCommitGo s).Good rq := by
  unfold trgCommitGo
  repeat' with_reducible first
    | assumption | intro _ | apply State.modTrg_canon | split | dsimp only | apply canon_mk | apply State.Good.regs
    | apply State.Good.eff | apply State.Good.dram | apply State.Good.host | apply State.Good.pending | apply State.Good.cont
    | apply State.Good.whole | apply State.Good.chutes | apply State.Good.log | apply State.Good.same | apply State.Good.privs
    | apply State.Good.sram

theorem trgCommitWrite_canon (v : Nat) (s : State) (hs : s.Good rq) :
    (trgCommitWrite v s).Good rq := by
  unfold trgCommitWrite
  repeat' with_reducible first
    | assumption | intro _ | apply trgCommitGo_canon | apply canon_ite | split | dsimp only

theorem execTrgCommitGo_canon (m : Nat) (v : Word) (s : State) (hs : s.Good rq) :
    OutGood rq (execTrgCommitGo m v s) := by
  unfold execTrgCommitGo
  repeat' with_reducible first
    | assumption | intro _ | apply State.writeBy_canon | apply trgCommitWrite_canon | apply canon_next | apply canon_iteO
    | split | dsimp only

theorem execTrgShadowApply_canon (s : State) (hs : s.Good rq) :
    OutGood rq (execTrgShadowApply s) := by
  unfold execTrgShadowApply
  repeat' with_reducible first
    | assumption | intro _ | apply State.modTrg_canon | apply State.wake_canon | apply trgApplyAt_canon | apply canon_next
    | apply canon_iteO | apply canon_ite | refine canon_fst_of (by assumption) ?_ | refine canon_snd_of (by assumption) ?_
    | apply commitsEnd_canon | apply canon_ite1 | apply canon_ite2 | split | dsimp only | apply canon_mk
    | apply State.Good.regs | apply State.Good.eff | apply State.Good.dram | apply State.Good.host
    | apply State.Good.pending | apply State.Good.cont | apply State.Good.whole | apply State.Good.chutes
    | apply State.Good.log | apply State.Good.same | apply State.Good.privs | apply State.Good.sram

theorem execTrigArm_canon (p : Packet) (s : State) (hs : s.Good rq) :
    OutGood rq (execTrigArm p s) := by
  unfold execTrigArm
  repeat' with_reducible first
    | assumption | intro _ | apply State.modTrg_canon | apply State.wr_canon | apply fclkForTrg_canon | apply fcpStep_canon
    | apply canon_next | apply canon_iteO | apply canon_iteF | apply canon_final | apply canon_wait | apply canon_pend
    | apply canon_ite | refine canon_fst_of (by assumption) ?_ | refine canon_snd_of (by assumption) ?_ | split | dsimp only
    | apply canon_mk | apply State.Good.regs | apply State.Good.eff | apply State.Good.dram | apply State.Good.host
    | apply State.Good.pending | apply State.Good.cont | apply State.Good.whole | apply State.Good.chutes
    | apply State.Good.log | apply State.Good.same | apply State.Good.privs
    | apply State.Good.sram

theorem armBn_canon (s : State) (hs : s.Good rq) :
    (armBn s).Good rq := by
  unfold armBn
  repeat' with_reducible first
    | assumption | intro _ | apply State.modTrg_canon | apply State.wrs_canon | apply canon_foldl | apply canon_foldl1
    | apply canon_foldl2 | split | dsimp only | apply canon_mk | apply State.Good.regs | apply State.Good.eff
    | apply State.Good.dram | apply State.Good.host | apply State.Good.pending | apply State.Good.cont
    | apply State.Good.whole | apply State.Good.chutes | apply State.Good.log | apply State.Good.same | apply State.Good.privs
    | apply State.Good.sram

theorem armRetain_canon (s : State) (ts : Nat) (hs : s.Good rq) :
    (armRetain s ts).Good rq := by
  unfold armRetain
  repeat' with_reducible first
    | assumption | intro _ | apply State.raiseAt_canon | apply State.wrs_canon | apply askRecord_canon | apply canon_ite
    | split | dsimp only

theorem armEffect_canon (s : State) (ts : Nat) (hd : rq.mem = none) (hs : s.Good rq) :
    (armEffect s ts).Good rq := by
  unfold armEffect
  repeat' with_reducible first
    | assumption | intro _ | apply State.applyRegs_canon | apply State.modTrg_canon | apply State.wr_canon
    | apply State.wrTs_canon | apply State.zeroFields_canon | apply armBn_canon | apply armRetain_canon | apply capArm_canon
    | apply engArm_canon | apply heartReset_canon | apply jinArm_canon | apply notesInit_canon | apply timArm_canon
    | apply trgApply_canon | apply trgFlags_canon | apply trigPin_canon | apply canon_ite | apply canon_foldl
    | apply canon_foldl1 | apply canon_foldl2 | apply commitsEnd_canon | apply corrAtArm_canon | apply noteLevel_canon
    | apply ovlRenew_canon | apply canon_ite1 | apply canon_ite2 | split | dsimp only | apply canon_mk
    | apply State.Good.regs | apply State.Good.eff | apply State.Good.dram | apply State.Good.host
    | apply State.Good.pending | apply State.Good.cont | apply State.Good.whole | apply State.Good.chutes
    | apply State.Good.log | apply State.Good.same | apply State.Good.privs | apply State.Good.sram

theorem execArmTakeEffect_canon (s : State) (hd : rq.mem = none) (hs : s.Good rq) :
    OutGood rq (execArmTakeEffect s) := by
  unfold execArmTakeEffect
  repeat' with_reducible first
    | assumption | intro _ | apply State.wake_canon | apply armEffect_canon | apply canon_next | apply canon_iteO
    | apply canon_ite | refine canon_fst_of (by assumption) ?_ | refine canon_snd_of (by assumption) ?_ | split | dsimp only
    | apply canon_mk | apply State.Good.regs | apply State.Good.eff | apply State.Good.dram | apply State.Good.host
    | apply State.Good.pending | apply State.Good.cont | apply State.Good.whole | apply State.Good.chutes
    | apply State.Good.log | apply State.Good.same | apply State.Good.privs
    | apply State.Good.sram

theorem trgDisarm_canon (s : State) (hd : rq.mem = none) (hs : s.Good rq) :
    (trgDisarm s).Good rq := by
  unfold trgDisarm
  repeat' with_reducible first
    | assumption | intro _ | apply State.modCon_canon | apply State.modTim_canon | apply State.modTrg_canon
    | apply State.wake_canon | apply State.wr_canon | apply admRegs_canon | apply capDisarm_canon | apply drains_canon
    | apply engDisarm_canon | apply fclkDeferred_canon | apply heartStatus_canon | apply jinDisarm_canon
    | apply trigPin_canon | apply canon_ite | apply canon_ite1 | apply State.bumpBy_canon | apply qualRun_canon
    | apply canon_ite2 | split | dsimp only | apply canon_mk | apply State.Good.regs | apply State.Good.eff
    | apply State.Good.dram | apply State.Good.host | apply State.Good.pending | apply State.Good.cont
    | apply State.Good.whole | apply State.Good.chutes | apply State.Good.log | apply State.Good.same
    | apply State.Good.privs | apply State.Good.sram

theorem execTrigDisarm_canon (p : Packet) (s : State) (hd : rq.mem = none) (hs : s.Good rq) :
    OutGood rq (execTrigDisarm p s) := by
  unfold execTrigDisarm
  repeat' with_reducible first
    | assumption | intro _ | apply fcpStep_canon | apply trgDisarm_canon | apply canon_next | apply canon_iteO
    | apply canon_iteF | apply canon_final | apply canon_wait | apply canon_pend | split | dsimp only

theorem execTrigForce_canon (p : Packet) (s : State) (hd : rq.mem = none) (hs : s.Good rq) :
    OutGood rq (execTrigForce p s) := by
  unfold execTrigForce
  repeat' with_reducible first
    | assumption | intro _ | apply decideOn_canon | apply fcpStep_canon | apply canon_next | apply canon_iteO
    | apply canon_iteF | apply canon_final | apply canon_wait | apply canon_pend | refine canon_fst_of (by assumption) ?_
    | refine canon_snd_of (by assumption) ?_ | split | dsimp only

theorem commitEnd_canon (s : State) (go : Bool) (key : Nat) (r : Reply) (hs : s.Good rq) :
    (commitEnd s go key r).Good rq := by
  unfold commitEnd
  repeat' with_reducible first
    | assumption | intro _ | apply canon_iteF | apply canon_final | apply canon_wait | apply canon_pend | apply canon_ite
    | apply trgCommitGo_canon | apply canon_ite1 | apply canon_ite2 | split | dsimp only

theorem topWrites_canon (p : Packet) (s : State) (hs : s.Good rq) :
    (topWrites p s).Good rq := by
  unfold topWrites
  repeat' with_reducible first
    | assumption | intro _ | apply State.modNote_canon | apply State.wrs_canon | apply canon_ite | split | dsimp only
    | apply canon_mk | apply State.Good.regs | apply State.Good.eff | apply State.Good.dram | apply State.Good.host
    | apply State.Good.pending | apply State.Good.cont | apply State.Good.whole | apply State.Good.chutes
    | apply State.Good.log | apply State.Good.same | apply State.Good.privs
    | apply State.Good.sram

theorem execTopnoteSet_canon (p : Packet) (s : State) (hs : s.Good rq) :
    OutGood rq (execTopnoteSet p s) := by
  unfold execTopnoteSet
  repeat' with_reducible first
    | assumption | intro _ | apply canon_next | apply canon_iteO | apply canon_iteF | apply canon_final | apply canon_wait
    | apply canon_pend | apply commitEnd_canon | apply fcpStep_canon | apply topWrites_canon | apply trgFlags_canon | split
    | dsimp only | apply canon_mk | apply State.Good.regs | apply State.Good.eff | apply State.Good.dram
    | apply State.Good.host | apply State.Good.pending | apply State.Good.cont | apply State.Good.whole
    | apply State.Good.chutes | apply State.Good.log | apply State.Good.same | apply State.Good.privs
    | apply State.Good.sram

theorem heartRows_canon (p : Packet) (t : State) (b i : Nat) (ht : t.Good rq) :
    (heartRows p t b i).Good rq := by
  unfold heartRows
  repeat' with_reducible first
    | assumption | intro _ | apply State.setReg_canon | apply State.wrs_canon | split | dsimp only

theorem execHeartSet_canon (p : Packet) (s : State) (hs : s.Good rq) :
    OutGood rq (execHeartSet p s) := by
  unfold execHeartSet
  repeat' with_reducible first
    | assumption | intro _ | apply State.modTrg_canon | apply State.wr_canon | apply fOk_canon | apply fcpStep_canon
    | apply heartRows_canon | apply canon_next | apply canon_iteO | apply canon_iteF | apply canon_final | apply canon_wait
    | apply canon_pend | split | dsimp only | apply canon_mk | apply State.Good.regs | apply State.Good.eff
    | apply State.Good.dram | apply State.Good.host | apply State.Good.pending | apply State.Good.cont
    | apply State.Good.whole | apply State.Good.chutes | apply State.Good.log | apply State.Good.same | apply State.Good.privs
    | apply State.Good.sram

theorem execHeartLimits_canon (p : Packet) (s : State) (hs : s.Good rq) :
    OutGood rq (execHeartLimits p s) := by
  unfold execHeartLimits
  repeat' with_reducible first
    | assumption | intro _ | apply State.wrs_canon | apply fOk_canon | apply fcpStep_canon | apply canon_next
    | apply canon_iteO | apply canon_iteF | apply canon_final | apply canon_wait | apply canon_pend | apply canon_foldl
    | apply canon_foldl1 | apply canon_foldl2 | split | dsimp only

theorem routeWrites_canon (p : Packet) (s : State) (hs : s.Good rq) :
    (routeWrites p s).Good rq := by
  unfold routeWrites
  repeat' with_reducible first
    | assumption | intro _ | apply State.wrs_canon | apply trgCommitGo_canon | apply trgFlags_canon | apply canon_ite | split
    | dsimp only

theorem execTrigRoute_canon (p : Packet) (s : State) (hs : s.Good rq) :
    OutGood rq (execTrigRoute p s) := by
  unfold execTrigRoute
  repeat' with_reducible first
    | assumption | intro _ | apply fcpStep_canon | apply routeWrites_canon | apply canon_next | apply canon_iteO
    | apply canon_iteF | apply canon_final | apply canon_wait | apply canon_pend | split | dsimp only

theorem outMode_canon (s : State) (hs : s.Good rq) :
    (outMode s).Good rq := by
  unfold outMode
  repeat' with_reducible first
    | assumption | intro _ | apply State.modTrg_canon | apply trigPin_canon | split | dsimp only | apply canon_mk
    | apply State.Good.regs | apply State.Good.eff | apply State.Good.dram | apply State.Good.host | apply State.Good.pending
    | apply State.Good.cont | apply State.Good.whole | apply State.Good.chutes | apply State.Good.log | apply State.Good.same
    | apply State.Good.privs
    | apply State.Good.sram

theorem execTrigOutSet_canon (p : Packet) (s : State) (hs : s.Good rq) :
    OutGood rq (execTrigOutSet p s) := by
  unfold execTrigOutSet
  repeat' with_reducible first
    | assumption | intro _ | apply State.wrs_canon | apply fOk_canon | apply fcpStep_canon | apply outMode_canon
    | apply canon_next | apply canon_iteO | apply canon_iteF | apply canon_final | apply canon_wait | apply canon_pend | split
    | dsimp only

theorem baseWrites_canon (p : Packet) (s : State) (hs : s.Good rq) :
    (baseWrites p s).Good rq := by
  unfold baseWrites
  repeat' with_reducible first
    | assumption | intro _ | apply State.wrs_canon | apply canon_ite | split | dsimp only

theorem execBaseSet_canon (p : Packet) (s : State) (hs : s.Good rq) :
    OutGood rq (execBaseSet p s) := by
  unfold execBaseSet
  repeat' with_reducible first
    | assumption | intro _ | apply canon_next | apply canon_iteO | apply canon_iteF | apply canon_final | apply canon_wait
    | apply canon_pend | apply canon_ite1 | apply canon_ite2 | apply baseWrites_canon | apply commitEnd_canon
    | apply fcpStep_canon | apply trgFlags_canon | split | dsimp only | apply canon_mk | apply State.Good.regs
    | apply State.Good.eff | apply State.Good.dram | apply State.Good.host | apply State.Good.pending
    | apply State.Good.cont | apply State.Good.whole | apply State.Good.chutes | apply State.Good.log
    | apply State.Good.same | apply State.Good.privs | apply State.Good.sram

theorem placeWrites_canon (p : Packet) (s : State) (hs : s.Good rq) :
    (placeWrites p s).Good rq := by
  unfold placeWrites
  repeat' with_reducible first
    | assumption | intro _ | apply State.wrs_canon | apply canon_ite | split | dsimp only

theorem execPlaceSet_canon (p : Packet) (s : State) (hs : s.Good rq) :
    OutGood rq (execPlaceSet p s) := by
  unfold execPlaceSet
  repeat' with_reducible first
    | assumption | intro _ | apply fcpStep_canon | apply placeWrites_canon | apply trgFlags_canon | apply canon_next
    | apply canon_iteO | apply canon_iteF | apply canon_final | apply canon_wait | apply canon_pend | split | dsimp only

theorem execPlaceStatus_canon (p : Packet) (s : State) (hs : s.Good rq) :
    OutGood rq (execPlaceStatus p s) := by
  unfold execPlaceStatus
  repeat' with_reducible first
    | assumption | intro _ | apply State.zeroFields_canon | apply fcpStep_canon | apply canon_next | apply canon_iteO
    | apply canon_iteF | apply canon_final | apply canon_wait | apply canon_pend | apply canon_ite | split | dsimp only

theorem execBaseStatus_canon (p : Packet) (s : State) (hs : s.Good rq) :
    OutGood rq (execBaseStatus p s) := by
  unfold execBaseStatus
  repeat' with_reducible first
    | assumption | intro _ | apply State.zeroFields_canon | apply fcpStep_canon | apply canon_next | apply canon_iteO
    | apply canon_iteF | apply canon_final | apply canon_wait | apply canon_pend | apply canon_ite | split | dsimp only

theorem trgCtrlWrite_canon (v : Nat) (s : State) (hs : s.Good rq) :
    (trgCtrlWrite v s).Good rq := by
  unfold trgCtrlWrite
  repeat' with_reducible first
    | assumption | intro _ | apply State.zeroFields_canon | apply plainWrite_canon | apply trgFlags_canon | apply canon_ite
    | split | dsimp only

theorem execTrgClrCounters_canon (m : Nat) (v : Word) (s : State) (hs : s.Good rq) :
    OutGood rq (execTrgClrCounters m v s) := by
  unfold execTrgClrCounters
  repeat' with_reducible first
    | assumption | intro _ | apply State.writeBy_canon | apply trgCtrlWrite_canon | apply canon_next | apply canon_iteO
    | split | dsimp only

theorem execHeartTick_canon (s : State) (hd : rq.mem = none) (hs : s.Good rq) :
    OutGood rq (execHeartTick s) := by
  unfold execHeartTick
  repeat' with_reducible first
    | assumption | intro _ | apply canon_next | apply canon_iteO | apply heartStep_canon | apply trgRefresh_canon | split

theorem execHeartTimerExpiry_canon (k : Nat) (s : State) (hs : s.Good rq) :
    OutGood rq (execHeartTimerExpiry k s) := by
  unfold execHeartTimerExpiry
  repeat' with_reducible first
    | assumption | intro _ | apply heartStatus_canon | apply canon_next | apply canon_iteO | apply canon_ite | split
    | dsimp only

theorem timeFires_canon (s : State) (n t : Nat) (hd : rq.mem = none) (hs : s.Good rq) :
    (timeFires s n t).Good rq := by
  unfold timeFires
  repeat' with_reducible first
    | assumption | intro _ | apply State.modNote_canon | apply State.wr_canon | apply directAll_canon | apply noteEvents_canon
    | apply canon_ite | apply canon_ite1 | apply canon_ite2 | refine canon_fst_of (by assumption) ?_
    | refine canon_snd_of (by assumption) ?_ | split | dsimp only | apply canon_mk | apply State.Good.regs
    | apply State.Good.eff | apply State.Good.dram | apply State.Good.host | apply State.Good.pending | apply State.Good.cont
    | apply State.Good.whole | apply State.Good.chutes | apply State.Good.log | apply State.Good.same | apply State.Good.privs
    | apply State.Good.sram

theorem timeoutAsk_canon (s : State) (n : Nat) (hs : s.Good rq) :
    (timeoutAsk s n).1.Good rq := by
  unfold timeoutAsk
  repeat' with_reducible first
    | assumption | intro _ | apply noteRedo_canon | apply canon_ite | apply canon_ite1
    | refine canon_fst_of (by assumption) ?_ | refine canon_snd_of (by assumption) ?_ | split | dsimp only | apply canon_mk
    | apply State.Good.regs | apply State.Good.eff | apply State.Good.dram | apply State.Good.host | apply State.Good.pending
    | apply State.Good.cont | apply State.Good.whole | apply State.Good.chutes | apply State.Good.log | apply State.Good.same
    | apply State.Good.privs
    | apply State.Good.sram

theorem execTopnoteTimeout_canon (n : Nat) (s0 : State) (hd : rq.mem = none) (hs0 : s0.Good rq) :
    OutGood rq (execTopnoteTimeout n s0) := by
  unfold execTopnoteTimeout
  repeat' with_reducible first
    | assumption | intro _ | apply timeFires_canon | apply timeoutAsk_canon | apply canon_next | apply canon_iteO
    | apply canon_ite | apply canon_ite1 | apply canon_ite2 | refine canon_fst_of (by assumption) ?_
    | refine canon_snd_of (by assumption) ?_ | split | dsimp only | apply canon_mk | apply State.Good.regs
    | apply State.Good.eff | apply State.Good.dram | apply State.Good.host | apply State.Good.pending | apply State.Good.cont
    | apply State.Good.whole | apply State.Good.chutes | apply State.Good.log | apply State.Good.same | apply State.Good.privs
    | apply State.Good.sram

theorem outLaunch_canon (s : State) (e : OutEdge) (hs : s.Good rq) :
    (outLaunch s e).Good rq := by
  unfold outLaunch
  repeat' with_reducible first
    | assumption | intro _ | apply State.bump_canon | apply State.modTrg_canon | apply trgOnce_canon | apply trigPin_canon
    | apply canon_ite | refine canon_fst_of (by assumption) ?_ | refine canon_snd_of (by assumption) ?_ | split | dsimp only
    | apply canon_mk | apply State.Good.regs | apply State.Good.eff | apply State.Good.dram | apply State.Good.host
    | apply State.Good.pending | apply State.Good.cont | apply State.Good.whole | apply State.Good.chutes
    | apply State.Good.log | apply State.Good.same | apply State.Good.privs
    | apply State.Good.sram

theorem execTrigOutLaunch_canon (s : State) (hs : s.Good rq) :
    OutGood rq (execTrigOutLaunch s) := by
  unfold execTrigOutLaunch
  repeat' with_reducible first
    | assumption | intro _ | apply outLaunch_canon | apply canon_next | apply canon_iteO | apply canon_ite
    | refine canon_fst_of (by assumption) ?_ | refine canon_snd_of (by assumption) ?_ | split | dsimp only | apply canon_mk
    | apply State.Good.regs | apply State.Good.eff | apply State.Good.dram | apply State.Good.host | apply State.Good.pending
    | apply State.Good.cont | apply State.Good.whole | apply State.Good.chutes | apply State.Good.log | apply State.Good.same
    | apply State.Good.privs
    | apply State.Good.sram

theorem execTrigOutPulseEnd_canon (s : State) (hs : s.Good rq) :
    OutGood rq (execTrigOutPulseEnd s) := by
  unfold execTrigOutPulseEnd
  repeat' with_reducible first
    | assumption | intro _ | apply State.modTrg_canon | apply trigPin_canon | apply canon_next | apply canon_iteO
    | apply canon_ite | refine canon_fst_of (by assumption) ?_ | refine canon_snd_of (by assumption) ?_ | split | dsimp only
    | apply canon_mk | apply State.Good.regs | apply State.Good.eff | apply State.Good.dram | apply State.Good.host
    | apply State.Good.pending | apply State.Good.cont | apply State.Good.whole | apply State.Good.chutes
    | apply State.Good.log | apply State.Good.same | apply State.Good.privs
    | apply State.Good.sram

theorem execBaseValueArrival_canon (rec : List Byte) (s : State) (hd : rq.mem = none) (hs : s.Good rq) :
    OutGood rq (execBaseValueArrival rec s) := by
  unfold execBaseValueArrival
  repeat' with_reducible first
    | assumption | intro _ | apply bnArrive_canon | apply trgRefresh_canon | apply canon_next | apply canon_iteO
    | apply canon_ite | split | dsimp only

theorem handSegment_canon (s : State) (g : PSeg) (hd : rq.mem = none) (hs : s.Good rq) :
    (handSegment s g).Good rq := by
  unfold handSegment
  repeat' with_reducible first
    | assumption | intro _ | apply State.modPSeg_canon | apply capHandoff_canon | apply engSegment_canon
    | apply paceSegment_canon | refine canon_fst_of (by assumption) ?_ | refine canon_snd_of (by assumption) ?_ | split
    | dsimp only | apply canon_mk | apply State.Good.regs | apply State.Good.eff | apply State.Good.dram
    | apply State.Good.host | apply State.Good.pending | apply State.Good.cont | apply State.Good.whole
    | apply State.Good.chutes | apply State.Good.log | apply State.Good.same | apply State.Good.privs
    | apply State.Good.sram

theorem execSegmentHandoff_canon (s : State) (hd : rq.mem = none) (hs : s.Good rq) :
    OutGood rq (execSegmentHandoff s) := by
  unfold execSegmentHandoff
  repeat' with_reducible first
    | assumption | intro _ | apply State.postEvent_canon | apply State.takeWords_canon | apply handSegment_canon
    | apply trgRefresh_canon | apply canon_next | apply canon_iteO | apply canon_ite | apply canon_ite1 | apply canon_ite2
    | refine canon_fst_of (by assumption) ?_ | refine canon_snd_of (by assumption) ?_ | split | dsimp only | apply canon_mk
    | apply State.Good.regs | apply State.Good.eff | apply State.Good.dram | apply State.Good.host | apply State.Good.pending
    | apply State.Good.cont | apply State.Good.whole | apply State.Good.chutes | apply State.Good.log | apply State.Good.same
    | apply State.Good.privs
    | apply State.Good.sram

end Sys2Proof.Machine
end

