-- ==== Sys2Proof/Laws/CanonTbs.lean ====
section
/-!
SUPPORT. What Machine/Tbs.lean defines keeps the canonical form of what is stored.
-/

namespace Sys2Proof.Machine

variable {rq : Kept}

theorem shiftTs_whole {t : Nat} {d : Int} (h : t % ns1 = 0) (hd : d % (ns1 : Int) = 0) : shiftTs t d % ns1 = 0 := by
  simp only [shiftTs, ns1] at *
  omega

theorem whole_mul (d : Int) : d * (ns1 : Int) % (ns1 : Int) = 0 := Int.mul_emod_left _ _

theorem whole_sub {v t : Nat} (hv : v % ns1 = 0) (ht : t % ns1 = 0) : ((v : Int) - (t : Int)) % (ns1 : Int) = 0 := by
  simp only [ns1] at *
  omega

theorem whole_sec (v : Nat) : v * sec1 % ns1 = 0 := by
  simp only [sec1, ns1]
  omega

theorem tbsSet_canon (s : State) (st : Nat) (hs : s.Good rq) :
    (tbsSet s st).Good rq := by
  unfold tbsSet
  repeat' with_reducible first
    | assumption | intro _ | apply State.modClk_canon | apply State.postEvent_canon | apply State.wr_canon | apply canon_ite
    | split | dsimp only | apply canon_mk | apply State.Good.regs | apply State.Good.eff | apply State.Good.dram
    | apply State.Good.host | apply State.Good.pending | apply State.Good.cont | apply State.Good.whole
    | apply State.Good.chutes | apply State.Good.log | apply State.Good.same | apply State.Good.privs
    | apply State.Good.sram

theorem freqOk_canon (s : State) (hs : s.Good rq) :
    (freqOk s).Good rq := by
  unfold freqOk
  repeat' with_reducible first
    | assumption | intro _ | apply State.wrB_canon | apply canon_ite | split | dsimp only

theorem tpllFreq_canon (s : State) (steer : Int) (hs : s.Good rq) : (tpllFreq s steer).Good rq := by
  unfold tpllFreq
  exact canon_ite (State.wr_canon _ _ hs) hs

theorem steerRegs_canon (s : State) (hs : s.Good rq) :
    (steerRegs s).Good rq := by
  unfold steerRegs
  repeat' with_reducible first
    | assumption | intro _ | apply State.wrS_canon | apply tpllFreq_canon | refine canon_fst_of (by assumption) ?_
    | refine canon_snd_of (by assumption) ?_ | apply State.applyRegs_canon | apply canon_ite | apply canon_ite1
    | apply canon_ite2 | split | dsimp only | apply canon_mk | apply State.Good.regs | apply State.Good.eff
    | apply State.Good.dram | apply State.Good.host | apply State.Good.pending | apply State.Good.cont
    | apply State.Good.whole | apply State.Good.chutes | apply State.Good.log | apply State.Good.same
    | apply State.Good.privs | apply State.Good.sram

theorem loopStep_canon (s : State) (err : Int) (phase : Bool) (hs : s.Good rq) :
    (loopStep s err phase).Good rq := by
  unfold loopStep
  repeat' with_reducible first
    | assumption | intro _ | apply State.modClk_canon | apply steerRegs_canon | apply canon_ite1
    | refine canon_fst_of (by assumption) ?_ | refine canon_snd_of (by assumption) ?_ | split | dsimp only | apply canon_mk
    | apply State.Good.regs | apply State.Good.eff | apply State.Good.dram | apply State.Good.host | apply State.Good.pending
    | apply State.Good.cont | apply State.Good.whole | apply State.Good.chutes | apply State.Good.log | apply State.Good.same
    | apply State.Good.privs
    | apply State.Good.sram

theorem toHoldover_canon (s : State) (hs : s.Good rq) :
    (toHoldover s).Good rq := by
  unfold toHoldover
  repeat' with_reducible first
    | assumption | intro _ | apply State.modClk_canon | apply State.wr_canon | apply steerRegs_canon | apply tbsSet_canon
    | apply canon_ite | split | dsimp only | apply canon_mk | apply State.Good.regs | apply State.Good.eff
    | apply State.Good.dram | apply State.Good.host | apply State.Good.pending | apply State.Good.cont
    | apply State.Good.whole | apply State.Good.chutes | apply State.Good.log | apply State.Good.same | apply State.Good.privs
    | apply State.Good.sram

theorem slewBack_canon (s : State) (hs : s.Good rq) :
    (slewBack s).Good rq := by
  unfold slewBack
  repeat' with_reducible first
    | assumption | intro _ | apply State.modClk_canon | apply canon_ite | refine canon_fst_of (by assumption) ?_
    | refine canon_snd_of (by assumption) ?_ | split | dsimp only | apply canon_mk | apply State.Good.regs
    | apply State.Good.eff | apply State.Good.dram | apply State.Good.host | apply State.Good.pending | apply State.Good.cont
    | apply State.Good.whole | apply State.Good.chutes | apply State.Good.log | apply State.Good.same | apply State.Good.privs
    | apply State.Good.sram

theorem refLost_canon (s : State) (pps : Bool) (ts : Nat) (hs : s.Good rq) :
    (refLost s pps ts).Good rq := by
  unfold refLost
  repeat' with_reducible first
    | assumption | intro _ | apply State.bump_canon | apply State.modClk_canon | apply State.raiseAt_canon
    | apply State.wr_canon | apply freqOk_canon | apply slewBack_canon | apply steerRegs_canon | apply tbsSet_canon
    | apply toHoldover_canon | apply canon_ite | split | dsimp only | apply canon_mk | apply State.Good.regs
    | apply State.Good.eff | apply State.Good.dram | apply State.Good.host | apply State.Good.pending | apply State.Good.cont
    | apply State.Good.whole | apply State.Good.chutes | apply State.Good.log | apply State.Good.same | apply State.Good.privs
    | apply State.Good.sram

theorem qualify_canon (s : State) (pps : Bool) (hs : s.Good rq) :
    (qualify s pps).Good rq := by
  unfold qualify
  repeat' with_reducible first
    | assumption | intro _ | apply State.modClk_canon | apply freqOk_canon | apply tbsSet_canon | apply canon_ite
    | refine canon_fst_of (by assumption) ?_ | refine canon_snd_of (by assumption) ?_ | split | dsimp only | apply canon_mk
    | apply State.Good.regs | apply State.Good.eff | apply State.Good.dram | apply State.Good.host | apply State.Good.pending
    | apply State.Good.cont | apply State.Good.whole | apply State.Good.chutes | apply State.Good.log | apply State.Good.same
    | apply State.Good.privs
    | apply State.Good.sram

theorem execRefQualified_canon (pps : Bool) (s : State) (hs : s.Good rq) :
    OutGood rq (execRefQualified pps s) := by
  unfold execRefQualified
  repeat' with_reducible first
    | assumption | intro _ | apply qualify_canon | apply canon_next | apply canon_iteO | split | dsimp only

theorem execRefLoss_canon (pps : Bool) (s : State) (hs : s.Good rq) :
    OutGood rq (execRefLoss pps s) := by
  unfold execRefLoss
  repeat' with_reducible first
    | assumption | intro _ | apply refLost_canon | apply canon_next | apply canon_iteO | apply canon_ite
    | refine canon_fst_of (by assumption) ?_ | refine canon_snd_of (by assumption) ?_ | split | dsimp only | apply canon_mk
    | apply State.Good.regs | apply State.Good.eff | apply State.Good.dram | apply State.Good.host | apply State.Good.pending
    | apply State.Good.cont | apply State.Good.whole | apply State.Good.chutes | apply State.Good.log | apply State.Good.same
    | apply State.Good.privs
    | apply State.Good.sram

theorem gateGood_canon (s : State) (dev : Int) (hs : s.Good rq) :
    (gateGood s dev).Good rq := by
  unfold gateGood
  repeat' with_reducible first
    | assumption | intro _ | apply State.modClk_canon | apply State.wr_canon | apply loopStep_canon | apply qualify_canon
    | apply canon_ite | split | dsimp only | apply canon_mk | apply State.Good.regs | apply State.Good.eff
    | apply State.Good.dram | apply State.Good.host | apply State.Good.pending | apply State.Good.cont
    | apply State.Good.whole | apply State.Good.chutes | apply State.Good.log | apply State.Good.same | apply State.Good.privs
    | apply State.Good.sram

theorem execRef10mGate_canon (dev : Int) (s : State) (hs : s.Good rq) :
    OutGood rq (execRef10mGate dev s) := by
  unfold execRef10mGate
  repeat' with_reducible first
    | assumption | intro _ | apply gateGood_canon | apply refLost_canon | apply canon_next | apply canon_iteO
    | apply canon_ite | split | dsimp only

theorem rearm_canon (s : State) (old : Nat) (hs : s.Good rq) :
    (rearm s old).Good rq := by
  unfold rearm
  repeat' with_reducible first
    | assumption | intro _ | split | dsimp only | apply canon_mk | apply State.Good.regs | apply State.Good.eff
    | apply State.Good.dram | apply State.Good.host | apply State.Good.pending | apply State.Good.cont
    | apply State.Good.whole | apply State.Good.chutes | apply State.Good.log | apply State.Good.same | apply State.Good.privs
    | apply State.Good.sram

theorem moveTime_canon (s : State) (d : Int) (hd : d % (ns1 : Int) = 0) (ht : rq.time = none) (hs : s.Good rq) :
    (moveTime s d).Good rq := by
  unfold moveTime
  repeat' with_reducible first
    | assumption | intro _ | exact ⟨shiftTs_whole hs.whole.1 hd, Or.inl ht⟩ | apply State.modClk_canon | apply rearm_canon
    | apply canon_ite1 | apply canon_ite2 | split | dsimp only | apply canon_mk | apply State.Good.regs | apply State.Good.eff
    | apply State.Good.dram | apply State.Good.host | apply State.Good.pending | apply State.Good.cont
    | apply State.Good.whole | apply State.Good.chutes | apply State.Good.log | apply State.Good.same | apply State.Good.privs
    | apply State.Good.sram

theorem wantStep_canon (s : State) (e : Int) (hs : s.Good rq) :
    (wantStep s e).Good rq := by
  unfold wantStep
  repeat' with_reducible first
    | assumption | intro _ | apply State.modClk_canon | apply canon_ite | split | dsimp only | apply canon_mk
    | apply State.Good.regs | apply State.Good.eff | apply State.Good.dram | apply State.Good.host | apply State.Good.pending
    | apply State.Good.cont | apply State.Good.whole | apply State.Good.chutes | apply State.Good.log | apply State.Good.same
    | apply State.Good.privs
    | apply State.Good.sram

theorem stepNow_canon (s : State) (d : Int) (hd : rq.mem = none) (ht : rq.time = none) (hs : s.Good rq) :
    (stepNow s d).Good rq := by
  unfold stepNow
  repeat' with_reducible first
    | assumption | intro _ | exact whole_mul _ | apply State.bump_canon | apply State.modClk_canon | apply State.raiseAt_canon
    | apply State.wrTs_canon | apply State.wrs_canon | apply addMarker_canon | apply moveTime_canon | apply tbsSet_canon
    | apply canon_ite | apply canon_foldl | apply canon_foldl1 | apply canon_foldl2 | split | dsimp only | apply canon_mk
    | apply State.Good.regs | apply State.Good.eff | apply State.Good.dram | apply State.Good.host | apply State.Good.pending
    | apply State.Good.cont | apply State.Good.whole | apply State.Good.chutes | apply State.Good.log | apply State.Good.same
    | apply State.Good.privs
    | apply State.Good.sram

theorem execTimeStepApply_canon (s : State) (hd : rq.mem = none) (ht : rq.time = none) (hs : s.Good rq) :
    OutGood rq (execTimeStepApply s) := by
  unfold execTimeStepApply
  repeat' with_reducible first
    | assumption | intro _ | apply stepNow_canon | apply canon_next | apply canon_iteO | apply canon_ite
    | refine canon_fst_of (by assumption) ?_ | refine canon_snd_of (by assumption) ?_ | split | dsimp only | apply canon_mk
    | apply State.Good.regs | apply State.Good.eff | apply State.Good.dram | apply State.Good.host | apply State.Good.pending
    | apply State.Good.cont | apply State.Good.whole | apply State.Good.chutes | apply State.Good.log | apply State.Good.same
    | apply State.Good.privs
    | apply State.Good.sram

theorem startSlew_canon (s : State) (e : Int) (hs : s.Good rq) :
    (startSlew s e).Good rq := by
  unfold startSlew
  repeat' with_reducible first
    | assumption | intro _ | apply State.modClk_canon | apply tbsSet_canon | apply canon_ite | split | dsimp only
    | apply canon_mk | apply State.Good.regs | apply State.Good.eff | apply State.Good.dram | apply State.Good.host
    | apply State.Good.pending | apply State.Good.cont | apply State.Good.whole | apply State.Good.chutes
    | apply State.Good.log | apply State.Good.same | apply State.Good.privs
    | apply State.Good.sram

theorem phaseJump_canon (s : State) (e : Int) (ts : Nat) (hs : s.Good rq) :
    (phaseJump s e ts).Good rq := by
  unfold phaseJump
  repeat' with_reducible first
    | assumption | intro _ | apply State.bump_canon | apply State.modClk_canon | apply State.postEvent_canon
    | apply State.raiseAt_canon | apply State.wr_canon | apply startSlew_canon | apply tbsSet_canon | apply wantStep_canon
    | apply canon_ite | refine canon_fst_of (by assumption) ?_ | refine canon_snd_of (by assumption) ?_ | split | dsimp only
    | apply canon_mk | apply State.Good.regs | apply State.Good.eff | apply State.Good.dram | apply State.Good.host
    | apply State.Good.pending | apply State.Good.cont | apply State.Good.whole | apply State.Good.chutes
    | apply State.Good.log | apply State.Good.same | apply State.Good.privs
    | apply State.Good.sram

theorem applyTime_canon (s : State) (v : Nat) (hv : v % ns1 = 0) (ht : rq.time = none) (hs : s.Good rq) :
    (applyTime s v).Good rq := by
  unfold applyTime
  repeat' with_reducible first
    | assumption | intro _ | exact whole_sub hv hs.whole.1 | apply State.modClk_canon | apply moveTime_canon
    | apply steerRegs_canon | apply tbsSet_canon | apply canon_ite | split | dsimp only | apply canon_mk
    | apply State.Good.regs | apply State.Good.eff | apply State.Good.dram | apply State.Good.host | apply State.Good.pending
    | apply State.Good.cont | apply State.Good.whole | apply State.Good.chutes | apply State.Good.log | apply State.Good.same
    | apply State.Good.privs
    | apply State.Good.sram

theorem execSlewComplete_canon (s : State) (hs : s.Good rq) :
    OutGood rq (execSlewComplete s) := by
  unfold execSlewComplete
  repeat' with_reducible first
    | assumption | intro _ | apply State.bump_canon | apply State.modClk_canon | apply steerRegs_canon | apply tbsSet_canon
    | apply canon_next | apply canon_iteO | apply canon_ite | refine canon_fst_of (by assumption) ?_
    | refine canon_snd_of (by assumption) ?_ | split | dsimp only | apply canon_mk | apply State.Good.regs
    | apply State.Good.eff | apply State.Good.dram | apply State.Good.host | apply State.Good.pending | apply State.Good.cont
    | apply State.Good.whole | apply State.Good.chutes | apply State.Good.log | apply State.Good.same | apply State.Good.privs
    | apply State.Good.sram

theorem ppsUse_canon (s : State) (ts : Nat) (hs : s.Good rq) :
    (ppsUse s ts).Good rq := by
  unfold ppsUse
  repeat' with_reducible first
    | assumption | intro _ | apply State.modClk_canon | apply State.wrs_canon | apply loopStep_canon | apply phaseJump_canon
    | apply tbsSet_canon | apply canon_ite | split | dsimp only | apply canon_mk | apply State.Good.regs
    | apply State.Good.eff | apply State.Good.dram | apply State.Good.host | apply State.Good.pending | apply State.Good.cont
    | apply State.Good.whole | apply State.Good.chutes | apply State.Good.log | apply State.Good.same | apply State.Good.privs
    | apply State.Good.sram

theorem ppsTake_canon (s : State) (ts : Nat) (hs : s.Good rq) :
    (ppsTake s ts).Good rq := by
  unfold ppsTake
  repeat' with_reducible first
    | assumption | intro _ | apply State.modClk_canon | apply State.wr_canon | apply qualify_canon | apply refLost_canon
    | apply canon_ite | split | dsimp only | apply canon_mk | apply State.Good.regs | apply State.Good.eff
    | apply State.Good.dram | apply State.Good.host | apply State.Good.pending | apply State.Good.cont
    | apply State.Good.whole | apply State.Good.chutes | apply State.Good.log | apply State.Good.same | apply State.Good.privs
    | apply State.Good.sram

theorem ppsSet_canon (s : State) (ts v : Nat) (ht : rq.time = none) (hs : s.Good rq) :
    (ppsSet s ts v).Good rq := by
  unfold ppsSet
  repeat' with_reducible first
    | assumption | intro _ | exact shiftTs_whole (whole_sec _) (whole_mul _) | apply State.wake_canon | apply applyTime_canon
    | split | dsimp only

theorem execPpsInEdge_canon (ts0 : Nat) (s : State) (ht : rq.time = none) (hs : s.Good rq) :
    OutGood rq (execPpsInEdge ts0 s) := by
  unfold execPpsInEdge
  repeat' with_reducible first
    | assumption | intro _ | apply ppsSet_canon | apply ppsTake_canon | apply ppsUse_canon | apply canon_next
    | apply canon_iteO | apply canon_ite | refine canon_fst_of (by assumption) ?_ | refine canon_snd_of (by assumption) ?_
    | split | dsimp only | apply canon_mk | apply State.Good.regs | apply State.Good.eff | apply State.Good.dram
    | apply State.Good.host | apply State.Good.pending | apply State.Good.cont | apply State.Good.whole
    | apply State.Good.chutes | apply State.Good.log | apply State.Good.same | apply State.Good.privs
    | apply State.Good.sram

theorem tbsRestart_canon (s : State) (hs : s.Good rq) :
    (tbsRestart s).Good rq := by
  unfold tbsRestart
  repeat' with_reducible first
    | assumption | intro _ | apply State.modClk_canon | apply State.wrs_canon | apply freqOk_canon | apply steerRegs_canon
    | apply tbsSet_canon | apply canon_ite | split | dsimp only | apply canon_mk | apply State.Good.regs
    | apply State.Good.eff | apply State.Good.dram | apply State.Good.host | apply State.Good.pending | apply State.Good.cont
    | apply State.Good.whole | apply State.Good.chutes | apply State.Good.log | apply State.Good.same | apply State.Good.privs
    | apply State.Good.sram

theorem tbsCtrlWrite_canon (s : State) (v : Word) (hs : s.Good rq) :
    (tbsCtrlWrite s v).Good rq := by
  unfold tbsCtrlWrite
  repeat' with_reducible first
    | assumption | intro _ | apply State.wrs_canon | apply State.zeroFields_canon | apply tbsRestart_canon | apply canon_ite
    | split | dsimp only

theorem execTbsModeWrite_canon (m : Nat) (v : Word) (s : State) (hs : s.Good rq) :
    OutGood rq (execTbsModeWrite m v s) := by
  unfold execTbsModeWrite
  repeat' with_reducible first
    | assumption | intro _ | apply State.writeBy_canon | apply tbsCtrlWrite_canon | apply canon_next | apply canon_iteO
    | split | dsimp only

theorem execTbsClrCounters_canon (m : Nat) (v : Word) (s : State) (hs : s.Good rq) :
    OutGood rq (execTbsClrCounters m v s) := by
  unfold execTbsClrCounters
  repeat' with_reducible first
    | assumption | intro _ | apply State.writeBy_canon | apply tbsCtrlWrite_canon | apply canon_next | apply canon_iteO
    | split | dsimp only

theorem execTbsRef_canon (p : Packet) (s : State) (hs : s.Good rq) :
    OutGood rq (execTbsRef p s) := by
  unfold execTbsRef
  repeat' with_reducible first
    | assumption | intro _ | apply State.wrs_canon | apply fOk_canon | apply fcpStep_canon | apply tbsRestart_canon
    | apply canon_next | apply canon_iteO | apply canon_iteF | apply canon_final | apply canon_wait | apply canon_pend | split
    | dsimp only

theorem execTbsStatus_canon (p : Packet) (s : State) (hs : s.Good rq) :
    OutGood rq (execTbsStatus p s) := by
  unfold execTbsStatus
  repeat' with_reducible first
    | assumption | intro _ | apply fcpStep_canon | apply canon_next | apply canon_iteO | apply canon_iteF | apply canon_final
    | apply canon_wait | apply canon_pend | split | dsimp only

theorem execTbsAck_canon (p : Packet) (s : State) (hs : s.Good rq) :
    OutGood rq (execTbsAck p s) := by
  unfold execTbsAck
  repeat' with_reducible first
    | assumption | intro _ | apply fcpStep_canon | apply startSlew_canon | apply wantStep_canon | apply canon_next
    | apply canon_iteO | apply canon_iteF | apply canon_final | apply canon_wait | apply canon_pend | apply canon_ite | split
    | dsimp only

theorem execTimeSet_canon (p : Packet) (s : State) (ht : rq.time = none) (hs : s.Good rq) :
    OutGood rq (execTimeSet p s) := by
  unfold execTimeSet
  repeat' with_reducible first
    | assumption | intro _ | exact Nat.mul_mod_left _ _ | apply State.modClk_canon | apply applyTime_canon
    | apply fcpStep_canon | apply canon_next | apply canon_iteO | apply canon_iteF | apply canon_final | apply canon_wait
    | apply canon_pend | apply canon_ite | split | dsimp only | apply canon_mk | apply State.Good.regs | apply State.Good.eff
    | apply State.Good.dram | apply State.Good.host | apply State.Good.pending | apply State.Good.cont
    | apply State.Good.whole | apply State.Good.chutes | apply State.Good.log | apply State.Good.same | apply State.Good.privs
    | apply State.Good.sram

theorem ppsSettle_canon (s : State) (hs : s.Good rq) :
    (ppsSettle s).Good rq := by
  unfold ppsSettle
  repeat' with_reducible first
    | assumption | intro _ | apply State.modClk_canon | apply ppsPin_canon | apply canon_ite | split | dsimp only
    | apply canon_mk | apply State.Good.regs | apply State.Good.eff | apply State.Good.dram | apply State.Good.host
    | apply State.Good.pending | apply State.Good.cont | apply State.Good.whole | apply State.Good.chutes
    | apply State.Good.log | apply State.Good.same | apply State.Good.privs
    | apply State.Good.sram

theorem execPpsOut_canon (p : Packet) (s : State) (hs : s.Good rq) :
    OutGood rq (execPpsOut p s) := by
  unfold execPpsOut
  repeat' with_reducible first
    | assumption | intro _ | apply State.wrs_canon | apply fOk_canon | apply fcpStep_canon | apply ppsSettle_canon
    | apply canon_next | apply canon_iteO | apply canon_iteF | apply canon_final | apply canon_wait | apply canon_pend | split
    | dsimp only

theorem ppsPulse_canon (s : State) (hs : s.Good rq) :
    (ppsPulse s).Good rq := by
  unfold ppsPulse
  repeat' with_reducible first
    | assumption | intro _ | apply State.modClk_canon | apply ppsPin_canon | split | dsimp only | apply canon_mk
    | apply State.Good.regs | apply State.Good.eff | apply State.Good.dram | apply State.Good.host | apply State.Good.pending
    | apply State.Good.cont | apply State.Good.whole | apply State.Good.chutes | apply State.Good.log | apply State.Good.same
    | apply State.Good.privs
    | apply State.Good.sram

theorem execPpsOutPulse_canon (s : State) (hs : s.Good rq) :
    OutGood rq (execPpsOutPulse s) := by
  unfold execPpsOutPulse
  repeat' with_reducible first
    | assumption | intro _ | apply ppsPulse_canon | apply canon_next | apply canon_iteO | apply canon_ite | split | dsimp only

end Sys2Proof.Machine
end

