-- ==== Sys2Proof/Laws/CanonClk.lean ====
section
/-!
SUPPORT. What Machine/Clk.lean defines keeps the canonical form of what is stored.
-/

namespace Sys2Proof.Machine

variable {rq : Kept}

theorem clkSetGo_canon (s : State) (mhz ssc : Nat) (hs : s.Good rq) :
    (clkSetGo s mhz ssc).Good rq := by
  unfold clkSetGo
  repeat' with_reducible first
    | assumption | intro _ | apply State.modClk_canon | apply State.wr_canon | apply setFreq_canon | split | dsimp only
    | apply canon_mk | apply State.Good.regs | apply State.Good.eff | apply State.Good.dram | apply State.Good.host
    | apply State.Good.pending | apply State.Good.cont | apply State.Good.whole | apply State.Good.chutes
    | apply State.Good.log | apply State.Good.same | apply State.Good.privs
    | apply State.Good.sram

theorem clkSetF_canon (s : State) (mhz ssc : Nat) (hs : s.Good rq) :
    (clkSetF s mhz ssc).Good rq := by
  have h1 := clkSetGo_canon s mhz ssc hs
  unfold clkSetF
  dsimp only
  generalize clkSetGo s mhz ssc = s1 at h1 ⊢
  repeat' with_reducible first
    | assumption | apply canon_iteF | apply canon_final | apply canon_wait | apply State.modClk_canon | apply State.wr_canon

theorem clkSetM_canon (s : State) (mhz : Nat) (hs : s.Good rq) :
    (clkSetM s mhz).Good rq := by
  unfold clkSetM
  repeat' with_reducible first
    | assumption | intro _ | apply State.modMem_canon | apply mpllChange_canon | apply canon_iteF | apply canon_final
    | apply canon_wait | apply canon_pend | apply canon_ite | split | dsimp only | apply canon_mk | apply State.Good.regs
    | apply State.Good.eff | apply State.Good.dram | apply State.Good.host | apply State.Good.pending | apply State.Good.cont
    | apply State.Good.whole | apply State.Good.chutes | apply State.Good.log | apply State.Good.same | apply State.Good.privs
    | apply State.Good.sram

theorem execClkSet_canon (p : Packet) (s : State) (hs : s.Good rq) :
    OutGood rq (execClkSet p s) := by
  unfold execClkSet
  repeat' with_reducible first
    | assumption | intro _ | apply clkSetF_canon | apply clkSetM_canon | apply fcpStep_canon | apply canon_next
    | apply canon_iteO | apply canon_iteF | apply canon_final | apply canon_wait | apply canon_pend | apply canon_ite | split
    | dsimp only

theorem execClkStatus_canon (p : Packet) (s : State) (hs : s.Good rq) :
    OutGood rq (execClkStatus p s) := by
  unfold execClkStatus
  repeat' with_reducible first
    | assumption | intro _ | apply fcpStep_canon | apply canon_next | apply canon_iteO | apply canon_iteF | apply canon_final
    | apply canon_wait | apply canon_pend | split | dsimp only

theorem execGlideStep_canon (p : Nat) (s : State) (hs : s.Good rq) :
    OutGood rq (execGlideStep p s) := by
  unfold execGlideStep
  repeat' with_reducible first
    | assumption | intro _ | apply admWake_canon | apply glideStep_canon | apply canon_next | apply canon_iteO
    | apply canon_ite | refine canon_fst_of (by assumption) ?_ | refine canon_snd_of (by assumption) ?_ | split | dsimp only
    | apply canon_mk | apply State.Good.regs | apply State.Good.eff | apply State.Good.dram | apply State.Good.host
    | apply State.Good.pending | apply State.Good.cont | apply State.Good.whole | apply State.Good.chutes
    | apply State.Good.log | apply State.Good.same | apply State.Good.privs
    | apply State.Good.sram

theorem pllBypass_canon (s : State) (p typ : Nat) (hs : s.Good rq) :
    (pllBypass s p typ).Good rq := by
  unfold pllBypass
  repeat' with_reducible first
    | assumption | intro _ | apply State.bump_canon | apply State.raise_canon | apply State.wr_canon | split | dsimp only

theorem fpllLost_canon (s : State) (hs : s.Good rq) :
    (fpllLost s).Good rq := by
  unfold fpllLost
  repeat' with_reducible first
    | assumption | intro _ | apply State.modClk_canon | apply pllBypass_canon | apply wantRerun_canon | split | dsimp only
    | apply canon_mk | apply State.Good.regs | apply State.Good.eff | apply State.Good.dram | apply State.Good.host
    | apply State.Good.pending | apply State.Good.cont | apply State.Good.whole | apply State.Good.chutes
    | apply State.Good.log | apply State.Good.same | apply State.Good.privs
    | apply State.Good.sram

theorem tpllLost_canon (s : State) (hs : s.Good rq) :
    (tpllLost s).Good rq := by
  unfold tpllLost
  repeat' with_reducible first
    | assumption | intro _ | apply State.modClk_canon | apply crefPin_canon | apply pllBypass_canon | apply ppsPin_canon
    | apply tbsSet_canon | split | dsimp only | apply canon_mk | apply State.Good.regs | apply State.Good.eff
    | apply State.Good.dram | apply State.Good.host | apply State.Good.pending | apply State.Good.cont
    | apply State.Good.whole | apply State.Good.chutes | apply State.Good.log | apply State.Good.same | apply State.Good.privs
    | apply State.Good.sram

theorem execPllLockLoss_canon (p : Nat) (s : State) (hs : s.Good rq) :
    OutGood rq (execPllLockLoss p s) := by
  unfold execPllLockLoss
  repeat' with_reducible first
    | assumption | intro _ | apply fpllLost_canon | apply tpllLost_canon | apply canon_next | apply canon_iteO
    | apply canon_ite | split | dsimp only

theorem fpllBack_canon (s : State) (hs : s.Good rq) :
    (fpllBack s).Good rq := by
  unfold fpllBack
  repeat' with_reducible first
    | assumption | intro _ | apply State.wr_canon | apply capRisen_canon | apply setFreq_canon | apply setKhz_canon | split
    | dsimp only

theorem tpllBack_canon (s : State) (hs : s.Good rq) :
    (tpllBack s).Good rq := by
  unfold tpllBack
  repeat' with_reducible first
    | assumption | intro _ | apply tpllFreq_canon | apply State.wr_canon | apply crefPin_canon | apply ppsPin_canon | apply tbsSet_canon | split
    | dsimp only

theorem execPllRelock_canon (p : Nat) (s : State) (hs : s.Good rq) :
    OutGood rq (execPllRelock p s) := by
  unfold execPllRelock
  repeat' with_reducible first
    | assumption | intro _ | apply fpllBack_canon | apply tpllBack_canon | apply canon_next | apply canon_iteO
    | apply canon_ite | split | dsimp only

theorem mpllLost_canon (s : State) (hs : s.Good rq) :
    (mpllLost s).Good rq := by
  unfold mpllLost
  repeat' with_reducible first
    | assumption | intro _ | apply State.bump_canon | apply State.raise_canon | apply State.wr_canon | apply eachCh_canon
    | apply selfRefresh_canon | apply canon_ite | split | dsimp only

theorem execMpllLockLoss_canon (s : State) (hs : s.Good rq) :
    OutGood rq (execMpllLockLoss s) := by
  unfold execMpllLockLoss
  repeat' with_reducible first
    | assumption | intro _ | apply mpllLost_canon | apply canon_next | apply canon_iteO | apply canon_ite | split | dsimp only

theorem execMpllReacquire_canon (s : State) (hs : s.Good rq) :
    OutGood rq (execMpllReacquire s) := by
  unfold execMpllReacquire
  repeat' with_reducible first
    | assumption | intro _ | apply State.wr_canon | apply canon_next | apply canon_iteO | apply canon_ite | split | dsimp only

theorem execAclkLoss_canon (s : State) (hs : s.Good rq) :
    OutGood rq (execAclkLoss s) := by
  unfold execAclkLoss
  repeat' with_reducible first
    | assumption | intro _ | apply State.modClk_canon | apply State.raise_canon | apply State.wr_canon | apply canon_next
    | apply canon_iteO | apply canon_ite | apply canon_foldl | apply canon_foldl1 | apply canon_foldl2 | split | dsimp only
    | apply canon_mk | apply State.Good.regs | apply State.Good.eff | apply State.Good.dram | apply State.Good.host
    | apply State.Good.pending | apply State.Good.cont | apply State.Good.whole | apply State.Good.chutes
    | apply State.Good.log | apply State.Good.same | apply State.Good.privs
    | apply State.Good.sram

theorem avsFailed_canon (s : State) (hs : s.Good rq) :
    (avsFailed s).Good rq := by
  unfold avsFailed
  repeat' with_reducible first
    | assumption | intro _ | apply State.bump_canon | apply State.modClk_canon | apply State.raise_canon
    | apply State.wr_canon | apply setFreq_canon | apply wantRerun_canon | apply canon_ite | split | dsimp only
    | apply canon_mk | apply State.Good.regs | apply State.Good.eff | apply State.Good.dram | apply State.Good.host
    | apply State.Good.pending | apply State.Good.cont | apply State.Good.whole | apply State.Good.chutes
    | apply State.Good.log | apply State.Good.same | apply State.Good.privs
    | apply State.Good.sram

theorem execAvsWriteTimeout_canon (s : State) (hs : s.Good rq) :
    OutGood rq (execAvsWriteTimeout s) := by
  unfold execAvsWriteTimeout
  repeat' with_reducible first
    | assumption | intro _ | apply State.modClk_canon | apply avsFailed_canon | apply canon_next | apply canon_iteO
    | apply canon_ite | refine canon_fst_of (by assumption) ?_ | refine canon_snd_of (by assumption) ?_ | split | dsimp only
    | apply canon_mk | apply State.Good.regs | apply State.Good.eff | apply State.Good.dram | apply State.Good.host
    | apply State.Good.pending | apply State.Good.cont | apply State.Good.whole | apply State.Good.chutes
    | apply State.Good.log | apply State.Good.same | apply State.Good.privs
    | apply State.Good.sram

theorem postThrottled_canon (s : State) (hs : s.Good rq) :
    (postThrottled s).Good rq := by
  unfold postThrottled
  repeat' with_reducible first
    | assumption | intro _ | apply State.postEvent_canon | split | dsimp only

theorem throttleFall_canon (s : State) (hs : s.Good rq) :
    (throttleFall s).Good rq := by
  unfold throttleFall
  repeat' with_reducible first
    | assumption | intro _ | apply State.modClk_canon | apply postThrottled_canon | apply setFreq_canon
    | apply wantRerun_canon | split | dsimp only | apply canon_mk | apply State.Good.regs | apply State.Good.eff
    | apply State.Good.dram | apply State.Good.host | apply State.Good.pending | apply State.Good.cont
    | apply State.Good.whole | apply State.Good.chutes | apply State.Good.log | apply State.Good.same | apply State.Good.privs
    | apply State.Good.sram

theorem throttleEnd_canon (s : State) (hs : s.Good rq) :
    (throttleEnd s).Good rq := by
  unfold throttleEnd
  repeat' with_reducible first
    | assumption | intro _ | apply State.wr_canon | apply capRisen_canon | apply postThrottled_canon | apply setFreq_canon
    | apply canon_ite | split | dsimp only

theorem execThrottleStep_canon (s : State) (hs : s.Good rq) :
    OutGood rq (execThrottleStep s) := by
  unfold execThrottleStep
  repeat' with_reducible first
    | assumption | intro _ | apply throttleFall_canon | apply canon_next | apply canon_iteO | apply canon_ite | split
    | dsimp only

theorem execThrottleRelease_canon (s : State) (hs : s.Good rq) :
    OutGood rq (execThrottleRelease s) := by
  unfold execThrottleRelease
  repeat' with_reducible first
    | assumption | intro _ | apply throttleEnd_canon | apply canon_next | apply canon_iteO | apply canon_ite
    | refine canon_fst_of (by assumption) ?_ | refine canon_snd_of (by assumption) ?_ | split | dsimp only | apply canon_mk
    | apply State.Good.regs | apply State.Good.eff | apply State.Good.dram | apply State.Good.host | apply State.Good.pending
    | apply State.Good.cont | apply State.Good.whole | apply State.Good.chutes | apply State.Good.log | apply State.Good.same
    | apply State.Good.privs
    | apply State.Good.sram

theorem tempTake_canon (s : State) (t : Nat) (hs : s.Good rq) :
    (tempTake s t).Good rq := by
  unfold tempTake
  repeat' with_reducible first
    | assumption | intro _ | apply State.bump_canon | apply State.modClk_canon | apply State.raise_canon
    | apply State.wr_canon | apply setFreq_canon | apply canon_ite | split | dsimp only | apply canon_mk
    | apply State.Good.regs | apply State.Good.eff | apply State.Good.dram | apply State.Good.host | apply State.Good.pending
    | apply State.Good.cont | apply State.Good.whole | apply State.Good.chutes | apply State.Good.log | apply State.Good.same
    | apply State.Good.privs
    | apply State.Good.sram

theorem execUndervolt_canon (s : State) (hs : s.Good rq) :
    OutGood rq (execUndervolt s) := by
  unfold execUndervolt
  repeat' with_reducible first
    | assumption | intro _ | apply State.raise_canon | apply canon_next | apply canon_iteO | split | dsimp only

theorem pmuCtrlWrite_canon (s : State) (v : Word) (hs : s.Good rq) :
    (pmuCtrlWrite s v).Good rq := by
  unfold pmuCtrlWrite
  repeat' with_reducible first
    | assumption | intro _ | apply State.modClk_canon | apply State.wrs_canon | apply State.zeroFields_canon | apply canon_ite
    | split | dsimp only | apply canon_mk | apply State.Good.regs | apply State.Good.eff | apply State.Good.dram
    | apply State.Good.host | apply State.Good.pending | apply State.Good.cont | apply State.Good.whole
    | apply State.Good.chutes | apply State.Good.log | apply State.Good.same | apply State.Good.privs
    | apply State.Good.sram

theorem execPmuClrCounters_canon (m : Nat) (v : Word) (s : State) (hs : s.Good rq) :
    OutGood rq (execPmuClrCounters m v s) := by
  unfold execPmuClrCounters
  repeat' with_reducible first
    | assumption | intro _ | apply State.writeBy_canon | apply pmuCtrlWrite_canon | apply canon_next | apply canon_iteO
    | split | dsimp only

end Sys2Proof.Machine
end

