-- ==== Sys2Proof/Laws/CanonDmaRun.lean ====
section
/-!
SUPPORT. What Machine/DmaRun.lean defines keeps the canonical form of what is stored.
-/

namespace Sys2Proof.Machine

variable {rq : Kept}

theorem accessFail_canon (s : State) (c space a n : Nat) (w : Bool) (hs : s.Good rq) :
    (accessFail s c space a n w).Good rq := by
  unfold accessFail
  repeat' with_reducible first
    | assumption | intro _ | apply State.raise_canon | apply violation_canon | apply canon_ite | split | dsimp only

theorem xferStop_canon (s : State) (c st : Nat) (hs : s.Good rq) :
    (xferStop s c st).Good rq := by
  unfold xferStop
  repeat' with_reducible first
    | assumption | intro _ | apply State.modXfer_canon | split | dsimp only | apply canon_mk | apply State.Good.regs
    | apply State.Good.eff | apply State.Good.dram | apply State.Good.host | apply State.Good.pending | apply State.Good.cont
    | apply State.Good.whole | apply State.Good.chutes | apply State.Good.log | apply State.Good.same | apply State.Good.privs
    | apply State.Good.sram

theorem takePacket_canon (s : State) (c : Nat) (hs : s.Good rq) :
    (takePacket s c).Good rq := by
  unfold takePacket
  repeat' with_reducible first
    | assumption | intro _ | apply State.modChan_canon | apply State.modXfer_canon | apply State.wr_canon
    | refine canon_fst_of (by assumption) ?_ | refine canon_snd_of (by assumption) ?_ | split | dsimp only | apply canon_mk
    | apply State.Good.regs | apply State.Good.eff | apply State.Good.dram | apply State.Good.host | apply State.Good.pending
    | apply State.Good.cont | apply State.Good.whole | apply State.Good.chutes | apply State.Good.log | apply State.Good.same
    | apply State.Good.privs
    | apply State.Good.sram

theorem xferHop_canon (s : State) (c : Nat) (hs : s.Good rq) :
    (xferHop s c).Good rq := by
  unfold xferHop
  repeat' with_reducible first
    | assumption | intro _ | apply State.modXfer_canon | apply canon_ite | split | dsimp only | apply canon_mk
    | apply State.Good.regs | apply State.Good.eff | apply State.Good.dram | apply State.Good.host | apply State.Good.pending
    | apply State.Good.cont | apply State.Good.whole | apply State.Good.chutes | apply State.Good.log | apply State.Good.same
    | apply State.Good.privs
    | apply State.Good.sram

theorem xferRelease_canon (s : State) (c : Nat) (hs : s.Good rq) :
    (xferRelease s c).Good rq := by
  unfold xferRelease
  repeat' with_reducible first
    | assumption | intro _ | apply State.modChan_canon | apply setChState_canon | apply takePacket_canon | apply xferHop_canon
    | apply canon_ite | refine canon_fst_of (by assumption) ?_ | refine canon_snd_of (by assumption) ?_ | split | dsimp only
    | apply canon_mk | apply State.Good.regs | apply State.Good.eff | apply State.Good.dram | apply State.Good.host
    | apply State.Good.pending | apply State.Good.cont | apply State.Good.whole | apply State.Good.chutes
    | apply State.Good.log | apply State.Good.same | apply State.Good.privs
    | apply State.Good.sram

theorem chanNext_canon (s : State) (c : Nat) (hs : s.Good rq) :
    (chanNext s c).Good rq := by
  unfold chanNext
  repeat' with_reducible first
    | assumption | intro _ | apply State.modChan_canon | apply setChState_canon | apply xferRelease_canon | apply canon_ite
    | refine canon_fst_of (by assumption) ?_ | refine canon_snd_of (by assumption) ?_ | split | dsimp only | apply canon_mk
    | apply State.Good.regs | apply State.Good.eff | apply State.Good.dram | apply State.Good.host | apply State.Good.pending
    | apply State.Good.cont | apply State.Good.whole | apply State.Good.chutes | apply State.Good.log | apply State.Good.same
    | apply State.Good.privs
    | apply State.Good.sram

theorem closeCheck_canon (s : State) (c : Nat) (hs : s.Good rq) :
    (closeCheck s c).Good rq := by
  unfold closeCheck
  repeat' with_reducible first
    | assumption | intro _ | apply chanClose_canon | apply canon_ite | split | dsimp only

theorem dmaCount_canon (s : State) (c n : Nat) (hs : s.Good rq) :
    (dmaCount s c n).Good rq := by
  unfold dmaCount
  repeat' with_reducible first
    | assumption | intro _ | apply State.wr64_canon | split | dsimp only

theorem burstRead_canon (s : State) (c space a n : Nat) (data : List Byte) (ue : Bool) (hs : s.Good rq) :
    (burstRead s c space a n data ue).Good rq := by
  unfold burstRead
  repeat' with_reducible first
    | assumption | intro _ | apply State.modXfer_canon | apply accessFail_canon | apply bucketTake_canon
    | apply internalRead_canon | apply xferStop_canon | apply canon_ite | apply canon_ite1 | apply canon_ite2
    | refine canon_fst_of (by assumption) ?_ | refine canon_snd_of (by assumption) ?_ | split | dsimp only | apply canon_mk
    | apply State.Good.regs | apply State.Good.eff | apply State.Good.dram | apply State.Good.host | apply State.Good.pending
    | apply State.Good.cont | apply State.Good.whole | apply State.Good.chutes | apply State.Good.log | apply State.Good.same
    | apply State.Good.privs
    | apply State.Good.sram

theorem burstWrite_canon (s : State) (c space a n k : Nat) (hd : rq.mem = none) (hs : s.Good rq) :
    (burstWrite s c space a n k).Good rq := by
  unfold burstWrite
  repeat' with_reducible first
    | assumption | intro _ | apply State.modXfer_canon | apply accessFail_canon | apply bucketTake_canon
    | apply dmaCount_canon | apply spaceWrite_canon | apply xferHop_canon | apply xferStop_canon | apply canon_ite
    | apply canon_ite1 | apply canon_ite2 | refine canon_fst_of (by assumption) ?_ | refine canon_snd_of (by assumption) ?_
    | split | dsimp only | apply canon_mk | apply State.Good.regs | apply State.Good.eff | apply State.Good.dram
    | apply State.Good.host | apply State.Good.pending | apply State.Good.cont | apply State.Good.whole
    | apply State.Good.chutes | apply State.Good.log | apply State.Good.same | apply State.Good.privs
    | apply State.Good.sram

theorem chanBurst_canon (s : State) (c : Nat) (data : List Byte) (ue : Bool) (hd : rq.mem = none) (hs : s.Good rq) :
    (chanBurst s c data ue).Good rq := by
  unfold chanBurst
  repeat' with_reducible first
    | assumption | intro _ | apply State.modXfer_canon | apply State.raise_canon | apply State.wr_canon
    | apply burstRead_canon | apply burstWrite_canon | apply setChState_canon | apply canon_ite | apply canon_ite1
    | refine canon_fst_of (by assumption) ?_ | refine canon_snd_of (by assumption) ?_ | split | dsimp only | apply canon_mk
    | apply State.Good.regs | apply State.Good.eff | apply State.Good.dram | apply State.Good.host | apply State.Good.pending
    | apply State.Good.cont | apply State.Good.whole | apply State.Good.chutes | apply State.Good.log | apply State.Good.same
    | apply State.Good.privs
    | apply State.Good.sram

theorem waitMem_canon (s : State) (g : Nat) (hs : s.Good rq) :
    (waitMem s g).Good rq := by
  unfold waitMem
  repeat' with_reducible first
    | assumption | intro _ | apply setChState_canon | apply canon_ite | apply canon_foldl | apply canon_foldl1
    | apply canon_foldl2 | refine canon_fst_of (by assumption) ?_ | refine canon_snd_of (by assumption) ?_ | split
    | dsimp only | apply canon_mk | apply State.Good.regs | apply State.Good.eff | apply State.Good.dram
    | apply State.Good.host | apply State.Good.pending | apply State.Good.cont | apply State.Good.whole
    | apply State.Good.chutes | apply State.Good.log | apply State.Good.same | apply State.Good.privs
    | apply State.Good.sram

theorem grpContain_canon (s : State) (g : Nat) (hs : s.Good rq) :
    (grpContain s g).Good rq := by
  unfold grpContain
  repeat' with_reducible first
    | assumption | intro _ | apply haltNow_canon | apply canon_ite | apply canon_foldl | apply canon_foldl1
    | apply canon_foldl2 | refine canon_fst_of (by assumption) ?_ | refine canon_snd_of (by assumption) ?_ | split
    | dsimp only | apply canon_mk | apply State.Good.regs | apply State.Good.eff | apply State.Good.dram
    | apply State.Good.host | apply State.Good.pending | apply State.Good.cont | apply State.Good.whole
    | apply State.Good.chutes | apply State.Good.log | apply State.Good.same | apply State.Good.privs
    | apply State.Good.sram

theorem grpBurst_canon (s : State) (g : Nat) (data : List Byte) (ue : Bool) (hd : rq.mem = none) (hs : s.Good rq) :
    (grpBurst s g data ue).Good rq := by
  unfold grpBurst
  repeat' with_reducible first
    | assumption | intro _ | apply State.bump_canon | apply State.modDma_canon | apply chanBurst_canon | apply canon_ite
    | refine canon_fst_of (by assumption) ?_ | refine canon_snd_of (by assumption) ?_ | split | dsimp only | apply canon_mk
    | apply State.Good.regs | apply State.Good.eff | apply State.Good.dram | apply State.Good.host | apply State.Good.pending
    | apply State.Good.cont | apply State.Good.whole | apply State.Good.chutes | apply State.Good.log | apply State.Good.same
    | apply State.Good.privs
    | apply State.Good.sram

theorem afterEnd_canon (s : State) (c st retries : Nat) (ring : Option Nat) (hd : rq.mem = none) (hs : s.Good rq) :
    (afterEnd s c st retries ring).Good rq := by
  unfold afterEnd
  repeat' with_reducible first
    | assumption | intro _ | apply canon_ite | refine canon_fst_of (by assumption) ?_
    | refine canon_snd_of (by assumption) ?_ | apply chanHalt_canon | apply chanNext_canon | apply closeCheck_canon
    | apply crRetry_canon | apply canon_ite1 | apply canon_ite2 | split | dsimp only | apply canon_mk
    | apply State.Good.regs | apply State.Good.eff | apply State.Good.dram | apply State.Good.host
    | apply State.Good.pending | apply State.Good.cont | apply State.Good.whole | apply State.Good.chutes
    | apply State.Good.log | apply State.Good.same | apply State.Good.privs | apply State.Good.sram

end Sys2Proof.Machine
end

