-- ==== Sys2Proof/Laws/CanonDma.lean ====
section
/-!
SUPPORT. What Machine/Dma.lean defines keeps the canonical form of what is stored.
-/

namespace Sys2Proof.Machine

variable {rq : Kept}

theorem withCon_canon (p : Packet) (s : State) (f : Contract → FcpOut) (hs : s.Good rq) (hf : ∀ x, (f x).Good rq) :
    (withCon p s f).Good rq := by
  unfold withCon
  repeat' with_reducible first
    | assumption | intro _ | apply hf | apply fSt_canon | apply canon_iteF | apply canon_final | apply canon_wait
    | apply canon_pend | refine canon_fst_of (by assumption) ?_ | refine canon_snd_of (by assumption) ?_ | split | dsimp only
    | apply canon_mk | apply State.Good.regs | apply State.Good.eff | apply State.Good.dram | apply State.Good.host
    | apply State.Good.pending | apply State.Good.cont | apply State.Good.whole | apply State.Good.chutes
    | apply State.Good.log | apply State.Good.same | apply State.Good.privs
    | apply State.Good.sram

theorem chanOpen_canon (p : Packet) (s : State) (c : Nat) (hs : s.Good rq) :
    (chanOpen p s c).Good rq := by
  unfold chanOpen
  repeat' with_reducible first
    | assumption | intro _ | apply State.modChan_canon | apply State.wrs_canon | apply setChState_canon | split | dsimp only

theorem execDmaChanOpen_canon (p : Packet) (s : State) (hs : s.Good rq) :
    OutGood rq (execDmaChanOpen p s) := by
  unfold execDmaChanOpen
  repeat' with_reducible first
    | assumption | intro _ | apply chanOpen_canon | apply fSt_canon | apply fcpStep_canon | apply withCon_canon
    | apply canon_next | apply canon_iteO | apply canon_iteF | apply canon_final | apply canon_wait | apply canon_pend
    | apply canon_ite | refine canon_fst_of (by assumption) ?_ | refine canon_snd_of (by assumption) ?_ | split | dsimp only
    | apply canon_mk | apply State.Good.regs | apply State.Good.eff | apply State.Good.dram | apply State.Good.host
    | apply State.Good.pending | apply State.Good.cont | apply State.Good.whole | apply State.Good.chutes
    | apply State.Good.log | apply State.Good.same | apply State.Good.privs
    | apply State.Good.sram

theorem chanCut_canon (s : State) (c : Nat) (hd : rq.mem = none) (hs : s.Good rq) :
    (chanCut s c).Good rq := by
  unfold chanCut
  repeat' with_reducible first
    | assumption | intro _ | apply xferEnd_canon | apply canon_ite | refine canon_fst_of (by assumption) ?_
    | refine canon_snd_of (by assumption) ?_ | split | dsimp only | apply canon_mk | apply State.Good.regs
    | apply State.Good.eff | apply State.Good.dram | apply State.Good.host | apply State.Good.pending | apply State.Good.cont
    | apply State.Good.whole | apply State.Good.chutes | apply State.Good.log | apply State.Good.same | apply State.Good.privs
    | apply State.Good.sram

theorem execDmaChanClose_canon (p : Packet) (s : State) (hd : rq.mem = none) (hs : s.Good rq) :
    OutGood rq (execDmaChanClose p s) := by
  unfold execDmaChanClose
  repeat' with_reducible first
    | assumption | intro _ | apply State.modChan_canon | apply chanClose_canon | apply chanCut_canon | apply fcpStep_canon
    | apply withCon_canon | apply canon_next | apply canon_iteO | apply canon_iteF | apply canon_final | apply canon_wait
    | apply canon_pend | apply canon_ite | split | dsimp only | apply canon_mk | apply State.Good.regs | apply State.Good.eff
    | apply State.Good.dram | apply State.Good.host | apply State.Good.pending | apply State.Good.cont
    | apply State.Good.whole | apply State.Good.chutes | apply State.Good.log | apply State.Good.same | apply State.Good.privs
    | apply State.Good.sram

theorem ringTake_canon (p : Packet) (s : State) (hs : s.Good rq) :
    (ringTake p s).Good rq := by
  unfold ringTake
  repeat' with_reducible first
    | assumption | intro _ | apply State.modChan_canon | apply State.wr64_canon | apply State.wrs_canon | split | dsimp only
    | apply canon_mk | apply State.Good.regs | apply State.Good.eff | apply State.Good.dram | apply State.Good.host
    | apply State.Good.pending | apply State.Good.cont | apply State.Good.whole | apply State.Good.chutes
    | apply State.Good.log | apply State.Good.same | apply State.Good.privs
    | apply State.Good.sram

theorem execDmaRingSet_canon (p : Packet) (s : State) (hs : s.Good rq) :
    OutGood rq (execDmaRingSet p s) := by
  unfold execDmaRingSet
  repeat' with_reducible first
    | assumption | intro _ | apply fOk_canon | apply fcpStep_canon | apply ringTake_canon | apply withCon_canon
    | apply canon_next | apply canon_iteO | apply canon_iteF | apply canon_final | apply canon_wait | apply canon_pend | split
    | dsimp only | apply canon_mk | apply State.Good.regs | apply State.Good.eff | apply State.Good.dram
    | apply State.Good.host | apply State.Good.pending | apply State.Good.cont | apply State.Good.whole
    | apply State.Good.chutes | apply State.Good.log | apply State.Good.same | apply State.Good.privs
    | apply State.Good.sram

theorem startOwned_canon (s : State) (c : Nat) (skip : Bool) (hd : rq.mem = none) (hs : s.Good rq) :
    (startOwned s c skip).Good rq := by
  unfold startOwned
  repeat' with_reducible first
    | assumption | intro _ | apply State.modChan_canon | apply backWrite_canon | apply canon_ite
    | refine canon_fst_of (by assumption) ?_ | refine canon_snd_of (by assumption) ?_ | split | dsimp only | apply canon_mk
    | apply State.Good.regs | apply State.Good.eff | apply State.Good.dram | apply State.Good.host | apply State.Good.pending
    | apply State.Good.cont | apply State.Good.whole | apply State.Good.chutes | apply State.Good.log | apply State.Good.same
    | apply State.Good.privs
    | apply State.Good.sram

theorem chanStart_canon (p : Packet) (s : State) (hd : rq.mem = none) (hs : s.Good rq) :
    (chanStart p s).Good rq := by
  unfold chanStart
  repeat' with_reducible first
    | assumption | intro _ | apply State.modChan_canon | apply State.wr_canon | apply State.wrs_canon | apply chanNext_canon
    | apply startOwned_canon | apply canon_ite | split | dsimp only | apply canon_mk | apply State.Good.regs
    | apply State.Good.eff | apply State.Good.dram | apply State.Good.host | apply State.Good.pending | apply State.Good.cont
    | apply State.Good.whole | apply State.Good.chutes | apply State.Good.log | apply State.Good.same | apply State.Good.privs
    | apply State.Good.sram

theorem execDmaStart_canon (p : Packet) (s : State) (hd : rq.mem = none) (hs : s.Good rq) :
    OutGood rq (execDmaStart p s) := by
  unfold execDmaStart
  repeat' with_reducible first
    | assumption | intro _ | apply chanStart_canon | apply fcpStep_canon | apply withCon_canon | apply canon_next
    | apply canon_iteO | apply canon_iteF | apply canon_final | apply canon_wait | apply canon_pend | split | dsimp only
    | apply canon_mk | apply State.Good.regs | apply State.Good.eff | apply State.Good.dram | apply State.Good.host
    | apply State.Good.pending | apply State.Good.cont | apply State.Good.whole | apply State.Good.chutes
    | apply State.Good.log | apply State.Good.same | apply State.Good.privs
    | apply State.Good.sram

theorem chanDrop_canon (s : State) (c : Nat) (hs : s.Good rq) :
    (chanDrop s c).Good rq := by
  unfold chanDrop
  repeat' with_reducible first
    | assumption | intro _ | apply chanHalt_canon | apply endCopy_canon | apply xferDrop_canon | split | dsimp only

theorem execDmaHalt_canon (p : Packet) (s : State) (hs : s.Good rq) :
    OutGood rq (execDmaHalt p s) := by
  unfold execDmaHalt
  repeat' with_reducible first
    | assumption | intro _ | apply State.modChan_canon | apply chanDrop_canon | apply fcpStep_canon | apply withCon_canon
    | apply canon_next | apply canon_iteO | apply canon_iteF | apply canon_final | apply canon_wait | apply canon_pend
    | apply canon_ite | split | dsimp only | apply canon_mk | apply State.Good.regs | apply State.Good.eff
    | apply State.Good.dram | apply State.Good.host | apply State.Good.pending | apply State.Good.cont
    | apply State.Good.whole | apply State.Good.chutes | apply State.Good.log | apply State.Good.same | apply State.Good.privs
    | apply State.Good.sram

theorem execDmaStatus_canon (p : Packet) (s : State) (hs : s.Good rq) :
    OutGood rq (execDmaStatus p s) := by
  unfold execDmaStatus
  repeat' with_reducible first
    | assumption | intro _ | apply State.zeroFields_canon | apply fcpStep_canon | apply withCon_canon | apply canon_next
    | apply canon_iteO | apply canon_iteF | apply canon_final | apply canon_wait | apply canon_pend | apply canon_ite | split
    | dsimp only | apply canon_mk | apply State.Good.regs | apply State.Good.eff | apply State.Good.dram
    | apply State.Good.host | apply State.Good.pending | apply State.Good.cont | apply State.Good.whole
    | apply State.Good.chutes | apply State.Good.log | apply State.Good.same | apply State.Good.privs
    | apply State.Good.sram

theorem copyQueue_canon (p : Packet) (s : State) (hs : s.Good rq) :
    (copyQueue p s).Good rq := by
  unfold copyQueue
  repeat' with_reducible first
    | assumption | intro _ | apply State.modChan_canon | apply setChState_canon | apply xferRelease_canon | apply canon_ite
    | split | dsimp only | apply canon_mk | apply State.Good.regs | apply State.Good.eff | apply State.Good.dram
    | apply State.Good.host | apply State.Good.pending | apply State.Good.cont | apply State.Good.whole
    | apply State.Good.chutes | apply State.Good.log | apply State.Good.same | apply State.Good.privs
    | apply State.Good.sram

theorem execDmaCopy_canon (p : Packet) (s : State) (hs : s.Good rq) :
    OutGood rq (execDmaCopy p s) := by
  unfold execDmaCopy
  repeat' with_reducible first
    | assumption | intro _ | apply copyQueue_canon | apply fcpStep_canon | apply withCon_canon | apply canon_next
    | apply canon_iteO | apply canon_iteF | apply canon_final | apply canon_wait | apply canon_pend | split | dsimp only
    | apply canon_mk | apply State.Good.regs | apply State.Good.eff | apply State.Good.dram | apply State.Good.host
    | apply State.Good.pending | apply State.Good.cont | apply State.Good.whole | apply State.Good.chutes
    | apply State.Good.log | apply State.Good.same | apply State.Good.privs
    | apply State.Good.sram

theorem dmaCtrlWrite_canon (v : Nat) (s : State) (hs : s.Good rq) :
    (dmaCtrlWrite v s).Good rq := by
  unfold dmaCtrlWrite
  repeat' with_reducible first
    | assumption | intro _ | apply State.zeroFields_canon | apply canon_ite | split | dsimp only

theorem execDmaClrCounters_canon (m : Nat) (v : Word) (s : State) (hs : s.Good rq) :
    OutGood rq (execDmaClrCounters m v s) := by
  unfold execDmaClrCounters
  repeat' with_reducible first
    | assumption | intro _ | apply State.writeBy_canon | apply dmaCtrlWrite_canon | apply canon_next | apply canon_iteO
    | split | dsimp only

theorem fetchChained_canon (s : State) (c : Nat) (x : Xfer) (bytes : List Byte) (hs : s.Good rq) :
    (fetchChained s c x bytes).Good rq := by
  unfold fetchChained
  repeat' with_reducible first
    | assumption | intro _ | apply State.modXfer_canon | apply State.raise_canon | apply accessFail_canon
    | apply takePacket_canon | apply xferHop_canon | apply xferStop_canon | apply canon_ite | split | dsimp only
    | apply canon_mk | apply State.Good.regs | apply State.Good.eff | apply State.Good.dram | apply State.Good.host
    | apply State.Good.pending | apply State.Good.cont | apply State.Good.whole | apply State.Good.chutes
    | apply State.Good.log | apply State.Good.same | apply State.Good.privs
    | apply State.Good.sram

theorem fetchRing_canon (s : State) (c : Nat) (bytes : List Byte) (hs : s.Good rq) :
    (fetchRing s c bytes).Good rq := by
  unfold fetchRing
  repeat' with_reducible first
    | assumption | intro _ | apply State.modChan_canon | apply accessFail_canon | apply chanHalt_canon | apply chanNext_canon
    | apply closeCheck_canon | apply canon_ite | refine canon_fst_of (by assumption) ?_
    | refine canon_snd_of (by assumption) ?_ | split | dsimp only | apply canon_mk | apply State.Good.regs
    | apply State.Good.eff | apply State.Good.dram | apply State.Good.host | apply State.Good.pending | apply State.Good.cont
    | apply State.Good.whole | apply State.Good.chutes | apply State.Good.log | apply State.Good.same | apply State.Good.privs
    | apply State.Good.sram

theorem chanFetch_canon (s : State) (c : Nat) (bytes : List Byte) (hs : s.Good rq) :
    (chanFetch s c bytes).Good rq := by
  unfold chanFetch
  repeat' with_reducible first
    | assumption | intro _ | apply fetchChained_canon | apply fetchRing_canon | apply canon_ite
    | refine canon_fst_of (by assumption) ?_ | refine canon_snd_of (by assumption) ?_ | split | dsimp only | apply canon_mk
    | apply State.Good.regs | apply State.Good.eff | apply State.Good.dram | apply State.Good.host | apply State.Good.pending
    | apply State.Good.cont | apply State.Good.whole | apply State.Good.chutes | apply State.Good.log | apply State.Good.same
    | apply State.Good.privs
    | apply State.Good.sram

theorem execDmaDescriptorFetch_canon (c : Nat) (bytes : List Byte) (s : State) (hs : s.Good rq) :
    OutGood rq (execDmaDescriptorFetch c bytes s) := by
  unfold execDmaDescriptorFetch
  repeat' with_reducible first
    | assumption | intro _ | apply chanFetch_canon | apply canon_next | apply canon_iteO | split | dsimp only

theorem execDmaRingPoll_canon (c : Nat) (bytes : List Byte) (s : State) (hs : s.Good rq) :
    OutGood rq (execDmaRingPoll c bytes s) := by
  unfold execDmaRingPoll
  repeat' with_reducible first
    | assumption | intro _ | apply State.modChan_canon | apply chanFetch_canon | apply canon_next | apply canon_iteO
    | apply canon_ite | split | dsimp only | apply canon_mk | apply State.Good.regs | apply State.Good.eff
    | apply State.Good.dram | apply State.Good.host | apply State.Good.pending | apply State.Good.cont
    | apply State.Good.whole | apply State.Good.chutes | apply State.Good.log | apply State.Good.same | apply State.Good.privs
    | apply State.Good.sram

theorem paceTake_canon (s : State) (c : Nat) (hs : s.Good rq) :
    (paceTake s c).Good rq := by
  unfold paceTake
  repeat' with_reducible first
    | assumption | intro _ | apply State.wr_canon | apply canon_ite | refine canon_fst_of (by assumption) ?_
    | refine canon_snd_of (by assumption) ?_ | split | dsimp only | apply canon_mk | apply State.Good.regs
    | apply State.Good.eff | apply State.Good.dram | apply State.Good.host | apply State.Good.pending | apply State.Good.cont
    | apply State.Good.whole | apply State.Good.chutes | apply State.Good.log | apply State.Good.same | apply State.Good.privs
    | apply State.Good.sram

theorem execDmaTransferRelease_canon (c : Nat) (s : State) (hs : s.Good rq) :
    OutGood rq (execDmaTransferRelease c s) := by
  unfold execDmaTransferRelease
  repeat' with_reducible first
    | assumption | intro _ | apply paceTake_canon | apply xferRelease_canon | apply canon_next | apply canon_iteO
    | apply canon_ite | split | dsimp only

theorem execDmaBurst_canon (g : Nat) (data : List Byte) (ue : Bool) (s : State) (hd : rq.mem = none) (hs : s.Good rq) :
    OutGood rq (execDmaBurst g data ue s) := by
  unfold execDmaBurst
  repeat' with_reducible first
    | assumption | intro _ | apply crRetry_canon | apply grpBurst_canon | apply grpContain_canon | apply waitMem_canon
    | apply canon_next | apply canon_iteO | split | dsimp only

theorem dmaRetry_canon (s : State) (c : Nat) (hs : s.Good rq) :
    (dmaRetry s c).Good rq := by
  unfold dmaRetry
  repeat' with_reducible first
    | assumption | intro _ | apply State.bump_canon | split | dsimp only

theorem dataFail_canon (s : State) (c : Nat) (x : Xfer) (hs : s.Good rq) :
    (dataFail s c x).Good rq := by
  unfold dataFail
  repeat' with_reducible first
    | assumption | intro _ | apply State.modXfer_canon | apply State.raise_canon | apply State.wr64_canon
    | apply dmaRetry_canon | apply xferStop_canon | apply canon_ite | split | dsimp only | apply canon_mk
    | apply State.Good.regs | apply State.Good.eff | apply State.Good.dram | apply State.Good.host | apply State.Good.pending
    | apply State.Good.cont | apply State.Good.whole | apply State.Good.chutes | apply State.Good.log | apply State.Good.same
    | apply State.Good.privs
    | apply State.Good.sram

theorem fetchFail_canon (s : State) (c : Nat) (hs : s.Good rq) :
    (fetchFail s c).Good rq := by
  unfold fetchFail
  repeat' with_reducible first
    | assumption | intro _ | apply State.modChan_canon | apply chanHalt_canon | apply closeCheck_canon | apply dmaRetry_canon
    | apply xferDrop_canon | apply canon_ite | refine canon_fst_of (by assumption) ?_ | refine canon_snd_of (by assumption) ?_
    | split | dsimp only | apply canon_mk | apply State.Good.regs | apply State.Good.eff | apply State.Good.dram
    | apply State.Good.host | apply State.Good.pending | apply State.Good.cont | apply State.Good.whole
    | apply State.Good.chutes | apply State.Good.log | apply State.Good.same | apply State.Good.privs
    | apply State.Good.sram

theorem backFail_canon (s : State) (c : Nat) (x : Xfer) (hs : s.Good rq) :
    (backFail s c x).Good rq := by
  unfold backFail
  repeat' with_reducible first
    | assumption | intro _ | apply State.modChan_canon | apply State.modXfer_canon | apply State.raise_canon
    | apply State.setReg_canon | apply State.wr_canon | apply State.wr64_canon | apply chanHalt_canon | apply closeCheck_canon
    | apply dmaRetry_canon | apply xferCount_canon | apply canon_ite | refine canon_fst_of (by assumption) ?_
    | refine canon_snd_of (by assumption) ?_ | split | dsimp only | apply canon_mk | apply State.Good.regs
    | apply State.Good.eff | apply State.Good.dram | apply State.Good.host | apply State.Good.pending | apply State.Good.cont
    | apply State.Good.whole | apply State.Good.chutes | apply State.Good.log | apply State.Good.same | apply State.Good.privs
    | apply State.Good.sram

theorem execDmaReadFail_canon (c : Nat) (what : DmaFail) (s : State) (hs : s.Good rq) :
    OutGood rq (execDmaReadFail c what s) := by
  unfold execDmaReadFail
  repeat' with_reducible first
    | assumption | intro _ | apply backFail_canon | apply dataFail_canon | apply fetchFail_canon | apply canon_next
    | apply canon_iteO | refine canon_fst_of (by assumption) ?_ | refine canon_snd_of (by assumption) ?_ | split | dsimp only
    | apply canon_mk | apply State.Good.regs | apply State.Good.eff | apply State.Good.dram | apply State.Good.host
    | apply State.Good.pending | apply State.Good.cont | apply State.Good.whole | apply State.Good.chutes
    | apply State.Good.log | apply State.Good.same | apply State.Good.privs
    | apply State.Good.sram

theorem xferFinish_canon (s : State) (c : Nat) (x : Xfer) (hd : rq.mem = none) (hs : s.Good rq) :
    (xferFinish s c x).Good rq := by
  unfold xferFinish
  repeat' with_reducible first
    | assumption | intro _ | apply afterEnd_canon | apply claimAfter_canon | apply xferEnd_canon | apply canon_ite | split
    | dsimp only

theorem execDmaTransferComplete_canon (c : Nat) (s : State) (hd : rq.mem = none) (hs : s.Good rq) :
    OutGood rq (execDmaTransferComplete c s) := by
  unfold execDmaTransferComplete
  repeat' with_reducible first
    | assumption | intro _ | apply haltNow_canon | apply xferFinish_canon | apply canon_next | apply canon_iteO
    | apply canon_ite | refine canon_fst_of (by assumption) ?_ | refine canon_snd_of (by assumption) ?_ | split | dsimp only
    | apply canon_mk | apply State.Good.regs | apply State.Good.eff | apply State.Good.dram | apply State.Good.host
    | apply State.Good.pending | apply State.Good.cont | apply State.Good.whole | apply State.Good.chutes
    | apply State.Good.log | apply State.Good.same | apply State.Good.privs
    | apply State.Good.sram

end Sys2Proof.Machine
end

