-- ==== Sys2Proof/Laws/CanonCmp.lean ====
section
/-!
SUPPORT. What Machine/Cmp.lean defines keeps the canonical form of what is stored.
-/

namespace Sys2Proof.Machine

variable {rq : Kept}

theorem cjInput_canon (p : Packet) (s : State) (hs : s.Good rq) :
    (cjInput p s).2.Good rq := by
  unfold cjInput
  repeat' with_reducible first
    | assumption | intro _ | apply internalRead_canon | apply canon_ite | apply canon_ite2 | split | dsimp only

theorem execCmpJob_canon (p : Packet) (s : State) (hs : s.Good rq) :
    OutGood rq (execCmpJob p s) := by
  unfold execCmpJob
  repeat' with_reducible first
    | assumption | intro _ | apply cjInput_canon | apply fSt_canon | apply fcpStep_canon | apply jobQueue_canon
    | apply withCon_canon | apply canon_next | apply canon_iteO | apply canon_iteF | apply canon_final | apply canon_wait
    | apply canon_pend | apply canon_ite | apply canon_ite2 | split | dsimp only | apply canon_mk | apply State.Good.regs
    | apply State.Good.eff | apply State.Good.dram | apply State.Good.host | apply State.Good.pending | apply State.Good.cont
    | apply State.Good.whole | apply State.Good.chutes | apply State.Good.log | apply State.Good.same | apply State.Good.privs
    | apply State.Good.sram

theorem runSettle_canon (e : Nat) (j : CmpJob) (r : State × CmpJob × CmpEnd) (hd : rq.mem = none) (hr : r.1.Good rq) :
    (runSettle e j r).Good rq := by
  unfold runSettle
  repeat' with_reducible first
    | assumption | intro _ | apply bucketTake_canon | apply cmpCount_canon | apply jobSettle_canon | apply canon_ite
    | apply canon_ite1 | apply canon_ite2 | split | dsimp only

theorem cmpRun_canon (s : State) (e : Nat) (n : Nat → Nat) (want : CmpEnd → Bool) (hd : rq.mem = none) (hs : s.Good rq) :
    (cmpRun s e n want).Good rq := by
  unfold cmpRun
  repeat' with_reducible first
    | assumption | intro _ | apply cmpBlocks_canon | apply runSettle_canon | apply canon_ite | apply canon_ite1
    | apply canon_ite2 | refine canon_fst_of (by assumption) ?_ | refine canon_snd_of (by assumption) ?_ | split | dsimp only
    | apply canon_mk | apply State.Good.regs | apply State.Good.eff | apply State.Good.dram | apply State.Good.host
    | apply State.Good.pending | apply State.Good.cont | apply State.Good.whole | apply State.Good.chutes
    | apply State.Good.log | apply State.Good.same | apply State.Good.privs
    | apply State.Good.sram

theorem execCmpBlockBoundary_canon (e : Nat) (s : State) (hd : rq.mem = none) (hs : s.Good rq) :
    OutGood rq (execCmpBlockBoundary e s) := by
  unfold execCmpBlockBoundary
  repeat' with_reducible first
    | assumption | intro _ | apply cmpKick_canon | apply cmpRun_canon | apply canon_next | apply canon_iteO | split
    | dsimp only

theorem execCmpJobEnd_canon (e : Nat) (s : State) (hd : rq.mem = none) (hs : s.Good rq) :
    OutGood rq (execCmpJobEnd e s) := by
  unfold execCmpJobEnd
  repeat' with_reducible first
    | assumption | intro _ | apply cmpKick_canon | apply cmpRun_canon | apply canon_next | apply canon_iteO
    | refine canon_fst_of (by assumption) ?_ | refine canon_snd_of (by assumption) ?_ | split | dsimp only | apply canon_mk
    | apply State.Good.regs | apply State.Good.eff | apply State.Good.dram | apply State.Good.host | apply State.Good.pending
    | apply State.Good.cont | apply State.Good.whole | apply State.Good.chutes | apply State.Good.log | apply State.Good.same
    | apply State.Good.privs
    | apply State.Good.sram

theorem execCmpListExhausted_canon (e : Nat) (s : State) (hd : rq.mem = none) (hs : s.Good rq) :
    OutGood rq (execCmpListExhausted e s) := by
  unfold execCmpListExhausted
  repeat' with_reducible first
    | assumption | intro _ | apply cmpKick_canon | apply cmpRun_canon | apply canon_next | apply canon_iteO | split
    | dsimp only

theorem resumeJob_canon (p : Packet) (s : State) (j : CmpJob) (hs : s.Good rq) :
    (resumeJob p s j).Good rq := by
  unfold resumeJob
  repeat' with_reducible first
    | assumption | intro _ | apply cmpKick_canon | apply cmpRefresh_canon | apply setJob_canon | apply canon_ite | split
    | dsimp only | apply canon_mk | apply State.Good.regs | apply State.Good.eff | apply State.Good.dram
    | apply State.Good.host | apply State.Good.pending | apply State.Good.cont | apply State.Good.whole
    | apply State.Good.chutes | apply State.Good.log | apply State.Good.same | apply State.Good.privs
    | apply State.Good.sram

theorem execCmpResume_canon (p : Packet) (s : State) (hs : s.Good rq) :
    OutGood rq (execCmpResume p s) := by
  unfold execCmpResume
  repeat' with_reducible first
    | assumption | intro _ | apply fSt_canon | apply fcpStep_canon | apply resumeJob_canon | apply withCon_canon
    | apply canon_next | apply canon_iteO | apply canon_iteF | apply canon_final | apply canon_wait | apply canon_pend
    | refine canon_fst_of (by assumption) ?_ | refine canon_snd_of (by assumption) ?_ | split | dsimp only | apply canon_mk
    | apply State.Good.regs | apply State.Good.eff | apply State.Good.dram | apply State.Good.host | apply State.Good.pending
    | apply State.Good.cont | apply State.Good.whole | apply State.Good.chutes | apply State.Good.log | apply State.Good.same
    | apply State.Good.privs
    | apply State.Good.sram

theorem abortJobs_canon (p : Packet) (s : State) (hs : s.Good rq) :
    (abortJobs p s).Good rq := by
  unfold abortJobs
  repeat' with_reducible first
    | assumption | intro _ | apply State.modCmp_canon | apply cmpKick_canon | apply jobLeave_canon | apply canon_foldl
    | apply canon_foldl1 | apply canon_foldl2 | split | dsimp only | apply canon_mk | apply State.Good.regs
    | apply State.Good.eff | apply State.Good.dram | apply State.Good.host | apply State.Good.pending | apply State.Good.cont
    | apply State.Good.whole | apply State.Good.chutes | apply State.Good.log | apply State.Good.same | apply State.Good.privs
    | apply State.Good.sram

theorem execCmpAbort_canon (p : Packet) (s : State) (hs : s.Good rq) :
    OutGood rq (execCmpAbort p s) := by
  unfold execCmpAbort
  repeat' with_reducible first
    | assumption | intro _ | apply abortJobs_canon | apply fcpStep_canon | apply withCon_canon | apply canon_next
    | apply canon_iteO | apply canon_iteF | apply canon_final | apply canon_wait | apply canon_pend
    | refine canon_fst_of (by assumption) ?_ | refine canon_snd_of (by assumption) ?_ | split | dsimp only | apply canon_mk
    | apply State.Good.regs | apply State.Good.eff | apply State.Good.dram | apply State.Good.host | apply State.Good.pending
    | apply State.Good.cont | apply State.Good.whole | apply State.Good.chutes | apply State.Good.log | apply State.Good.same
    | apply State.Good.privs
    | apply State.Good.sram

theorem execCmpStatus_canon (p : Packet) (s : State) (hs : s.Good rq) :
    OutGood rq (execCmpStatus p s) := by
  unfold execCmpStatus
  repeat' with_reducible first
    | assumption | intro _ | apply fcpStep_canon | apply withCon_canon | apply canon_next | apply canon_iteO
    | apply canon_iteF | apply canon_final | apply canon_wait | apply canon_pend | apply canon_ite | split | dsimp only
    | apply canon_mk | apply State.Good.regs | apply State.Good.eff | apply State.Good.dram | apply State.Good.host
    | apply State.Good.pending | apply State.Good.cont | apply State.Good.whole | apply State.Good.chutes
    | apply State.Good.log | apply State.Good.same | apply State.Good.privs
    | apply State.Good.sram

theorem cmpCtrlWrite_canon (v : Nat) (s : State) (hs : s.Good rq) :
    (cmpCtrlWrite v s).Good rq := by
  unfold cmpCtrlWrite
  repeat' with_reducible first
    | assumption | intro _ | apply State.zeroFields_canon | apply canon_ite | split | dsimp only

theorem execCmpClrCounters_canon (m : Nat) (v : Word) (s : State) (hs : s.Good rq) :
    OutGood rq (execCmpClrCounters m v s) := by
  unfold execCmpClrCounters
  repeat' with_reducible first
    | assumption | intro _ | apply State.writeBy_canon | apply cmpCtrlWrite_canon | apply canon_next | apply canon_iteO
    | split | dsimp only

theorem dropStream_canon (s : State) (j : CmpJob) (hs : s.Good rq) :
    (dropStream s j).Good rq := by
  unfold dropStream
  repeat' with_reducible first
    | assumption | intro _ | apply State.modCmp_canon | split | dsimp only | apply canon_mk | apply State.Good.regs
    | apply State.Good.eff | apply State.Good.dram | apply State.Good.host | apply State.Good.pending | apply State.Good.cont
    | apply State.Good.whole | apply State.Good.chutes | apply State.Good.log | apply State.Good.same | apply State.Good.privs
    | apply State.Good.sram

theorem jobExpire_canon (s : State) (j : CmpJob) (id : Nat) (hs : s.Good rq) :
    (jobExpire s j id).Good rq := by
  unfold jobExpire
  repeat' with_reducible first
    | assumption | intro _ | apply State.bump_canon | apply State.postEvent_canon | apply State.raise_canon
    | apply cmpKick_canon | apply dropStream_canon | apply jobLeave_canon | split | dsimp only

theorem execCmpSuspendExpiry_canon (id : Nat) (s : State) (hs : s.Good rq) :
    OutGood rq (execCmpSuspendExpiry id s) := by
  unfold execCmpSuspendExpiry
  repeat' with_reducible first
    | assumption | intro _ | apply jobExpire_canon | apply canon_next | apply canon_iteO | apply canon_ite
    | refine canon_fst_of (by assumption) ?_ | refine canon_snd_of (by assumption) ?_ | split | dsimp only | apply canon_mk
    | apply State.Good.regs | apply State.Good.eff | apply State.Good.dram | apply State.Good.host | apply State.Good.pending
    | apply State.Good.cont | apply State.Good.whole | apply State.Good.chutes | apply State.Good.log | apply State.Good.same
    | apply State.Good.privs
    | apply State.Good.sram

theorem cmpEngineOut_canon (s : State) (e : Nat) (hs : s.Good rq) :
    (cmpEngineOut s e).Good rq := by
  unfold cmpEngineOut
  repeat' with_reducible first
    | assumption | intro _ | apply State.bump_canon | apply State.raise_canon | apply State.wr_canon | apply cmpKick_canon
    | apply cmpRefresh_canon | apply dropStream_canon | apply jobLeave_canon | apply wantRerun_canon
    | refine canon_fst_of (by assumption) ?_ | refine canon_snd_of (by assumption) ?_ | split | dsimp only | apply canon_mk
    | apply State.Good.regs | apply State.Good.eff | apply State.Good.dram | apply State.Good.host | apply State.Good.pending
    | apply State.Good.cont | apply State.Good.whole | apply State.Good.chutes | apply State.Good.log | apply State.Good.same
    | apply State.Good.privs
    | apply State.Good.sram

theorem execCmpEngineFault_canon (e : Nat) (s : State) (hs : s.Good rq) :
    OutGood rq (execCmpEngineFault e s) := by
  unfold execCmpEngineFault
  repeat' with_reducible first
    | assumption | intro _ | apply cmpEngineOut_canon | apply canon_next | apply canon_iteO | apply canon_ite | split
    | dsimp only

end Sys2Proof.Machine
end

