-- ==== Sys2Proof/Laws/CanonDfu.lean ====
section
/-!
SUPPORT. What Machine/Dfu.lean defines keeps the canonical form of what is stored.
-/

namespace Sys2Proof.Machine

variable {rq : Kept}

theorem modeUnit_canon (p : Packet) (t : State) (u : Nat) (ht : t.Good rq) :
    (modeUnit p t u).Good rq := by
  unfold modeUnit
  repeat' with_reducible first
    | assumption | intro _ | apply State.wr_canon | apply State.wrs_canon | apply dfuDerive_canon | apply dsyncUnit_canon
    | apply canon_ite | split | dsimp only

theorem execDfuMode_canon (p : Packet) (s : State) (hs : s.Good rq) :
    OutGood rq (execDfuMode p s) := by
  unfold execDfuMode
  repeat' with_reducible first
    | assumption | intro _ | apply fcpStep_canon | apply modeUnit_canon | apply canon_next | apply canon_iteO
    | apply canon_iteF | apply canon_final | apply canon_wait | apply canon_pend | apply canon_foldl | apply canon_foldl1
    | apply canon_foldl2 | split | dsimp only

theorem corrShadows_canon (p : Packet) (s : State) (hs : s.Good rq) :
    (corrShadows p s).Good rq := by
  unfold corrShadows
  repeat' with_reducible first
    | assumption | intro _ | apply State.modDu_canon | apply State.setReg_canon | apply State.wr_canon | apply canon_ite
    | apply canon_foldl | apply canon_foldl1 | apply canon_foldl2 | split | dsimp only | apply canon_mk
    | apply State.Good.regs | apply State.Good.eff | apply State.Good.dram | apply State.Good.host | apply State.Good.pending
    | apply State.Good.cont | apply State.Good.whole | apply State.Good.chutes | apply State.Good.log | apply State.Good.same
    | apply State.Good.privs
    | apply State.Good.sram

theorem execDfuCorr_canon (p : Packet) (s : State) (hs : s.Good rq) :
    OutGood rq (execDfuCorr p s) := by
  unfold execDfuCorr
  repeat' with_reducible first
    | assumption | intro _ | apply corrCommit_canon | apply corrShadows_canon | apply fOk_canon | apply fcpStep_canon
    | apply canon_next | apply canon_iteO | apply canon_iteF | apply canon_final | apply canon_wait | apply canon_pend
    | apply canon_ite | split | dsimp only

theorem execDfuSync_canon (p : Packet) (s : State) (hs : s.Good rq) :
    OutGood rq (execDfuSync p s) := by
  unfold execDfuSync
  repeat' with_reducible first
    | assumption | intro _ | apply dsyncGo_canon | apply fOk_canon | apply fcpStep_canon | apply canon_next | apply canon_iteO
    | apply canon_iteF | apply canon_final | apply canon_wait | apply canon_pend | split | dsimp only

theorem execDfuPreset_canon (p : Packet) (s : State) (hs : s.Good rq) :
    OutGood rq (execDfuPreset p s) := by
  unfold execDfuPreset
  repeat' with_reducible first
    | assumption | intro _ | apply applyPreset_canon | apply fOk_canon | apply fcpStep_canon | apply canon_next
    | apply canon_iteO | apply canon_iteF | apply canon_final | apply canon_wait | apply canon_pend | apply canon_foldl
    | apply canon_foldl1 | apply canon_foldl2 | split | dsimp only

theorem rsCfg_canon (p : Packet) (s : State) (hs : s.Good rq) :
    (rsCfg p s).Good rq := by
  unfold rsCfg
  repeat' with_reducible first
    | assumption | intro _ | apply State.applyRegs_canon | apply State.wrs_canon | apply dsyncUnit_canon | apply canon_ite
    | split | dsimp only

theorem execResampleCfg_canon (p : Packet) (s : State) (hs : s.Good rq) :
    OutGood rq (execResampleCfg p s) := by
  unfold execResampleCfg
  repeat' with_reducible first
    | assumption | intro _ | apply fcpStep_canon | apply rsCfg_canon | apply canon_next | apply canon_iteO | apply canon_iteF
    | apply canon_final | apply canon_wait | apply canon_pend | split | dsimp only

theorem execDfuStatus_canon (p : Packet) (s : State) (hs : s.Good rq) :
    OutGood rq (execDfuStatus p s) := by
  unfold execDfuStatus
  repeat' with_reducible first
    | assumption | intro _ | apply State.zeroFields_canon | apply fcpStep_canon | apply canon_next | apply canon_iteO
    | apply canon_iteF | apply canon_final | apply canon_wait | apply canon_pend | apply canon_ite | apply canon_foldl
    | apply canon_foldl1 | apply canon_foldl2 | split | dsimp only

theorem execDfuAnchor_canon (p : Packet) (s : State) (hs : s.Good rq) :
    OutGood rq (execDfuAnchor p s) := by
  unfold execDfuAnchor
  repeat' with_reducible first
    | assumption | intro _ | apply State.wr_canon | apply fOk_canon | apply fcpStep_canon | apply canon_next
    | apply canon_iteO | apply canon_iteF | apply canon_final | apply canon_wait | apply canon_pend | apply canon_ite | split
    | dsimp only

theorem execDfuCorrCommitGo_canon (m : Nat) (v : Word) (s : State) (hs : s.Good rq) :
    OutGood rq (execDfuCorrCommitGo m v s) := by
  unfold execDfuCorrCommitGo
  repeat' with_reducible first
    | assumption | intro _ | apply State.writeBy_canon | apply corrCommit_canon | apply canon_next | apply canon_iteO | split
    | dsimp only

theorem execDfuSyncGoWrite_canon (m : Nat) (v : Word) (s : State) (hs : s.Good rq) :
    OutGood rq (execDfuSyncGoWrite m v s) := by
  unfold execDfuSyncGoWrite
  repeat' with_reducible first
    | assumption | intro _ | apply State.writeBy_canon | apply dsyncGo_canon | apply canon_next | apply canon_iteO | split
    | dsimp only

theorem dfuCtrlWrite_canon (u v : Nat) (s : State) (hs : s.Good rq) :
    (dfuCtrlWrite u v s).Good rq := by
  unfold dfuCtrlWrite
  repeat' with_reducible first
    | assumption | intro _ | apply State.zeroFields_canon | apply plainWrite_canon | apply canon_ite | split | dsimp only

theorem execDfuClrCounters_canon (m u : Nat) (v : Word) (s : State) (hs : s.Good rq) :
    OutGood rq (execDfuClrCounters m u v s) := by
  unfold execDfuClrCounters
  repeat' with_reducible first
    | assumption | intro _ | apply State.writeBy_canon | apply dfuCtrlWrite_canon | apply canon_next | apply canon_iteO
    | apply canon_ite | split | dsimp only

theorem execCorrApply_canon (s : State) (hs : s.Good rq) :
    OutGood rq (execCorrApply s) := by
  unfold execCorrApply
  repeat' with_reducible first
    | assumption | intro _ | apply corrApplyUnit_canon | apply canon_next | apply canon_iteO | apply canon_ite
    | apply canon_foldl | apply canon_foldl1 | apply canon_foldl2 | split | dsimp only

theorem execDsyncApply_canon (s : State) (hs : s.Good rq) :
    OutGood rq (execDsyncApply s) := by
  unfold execDsyncApply
  repeat' with_reducible first
    | assumption | intro _ | apply dsyncUnit_canon | apply canon_next | apply canon_iteO | apply canon_ite | apply canon_foldl
    | apply canon_foldl1 | apply canon_foldl2 | split | dsimp only

theorem execDfuTempUpdate_canon (t : Nat) (s : State) (hs : s.Good rq) :
    OutGood rq (execDfuTempUpdate t s) := by
  unfold execDfuTempUpdate
  repeat' with_reducible first
    | assumption | intro _ | apply State.modDu_canon | apply State.wr_canon | apply setSkewEff_canon | apply canon_next
    | apply canon_iteO | apply canon_ite | apply canon_foldl | apply canon_foldl1 | apply canon_foldl2 | split | dsimp only
    | apply canon_mk | apply State.Good.regs | apply State.Good.eff | apply State.Good.dram | apply State.Good.host
    | apply State.Good.pending | apply State.Good.cont | apply State.Good.whole | apply State.Good.chutes
    | apply State.Good.log | apply State.Good.same | apply State.Good.privs
    | apply State.Good.sram

theorem skewAtEdge_canon (s : State) (hs : s.Good rq) :
    (skewAtEdge s).Good rq := by
  unfold skewAtEdge
  repeat' with_reducible first
    | assumption | intro _ | apply State.modDu_canon | apply setSkewEff_canon | apply canon_foldl | apply canon_foldl1
    | apply canon_foldl2 | refine canon_fst_of (by assumption) ?_ | refine canon_snd_of (by assumption) ?_ | split
    | dsimp only | apply canon_mk | apply State.Good.regs | apply State.Good.eff | apply State.Good.dram
    | apply State.Good.host | apply State.Good.pending | apply State.Good.cont | apply State.Good.whole
    | apply State.Good.chutes | apply State.Good.log | apply State.Good.same | apply State.Good.privs
    | apply State.Good.sram

theorem anchLevel_canon (s : State) (u m : Nat) (hs : s.Good rq) :
    (anchLevel s u m).Good rq := by
  unfold anchLevel
  repeat' with_reducible first
    | assumption | intro _ | apply State.modDu_canon | split | dsimp only | apply canon_mk | apply State.Good.regs
    | apply State.Good.eff | apply State.Good.dram | apply State.Good.host | apply State.Good.pending
    | apply State.Good.cont | apply State.Good.whole | apply State.Good.chutes | apply State.Good.log
    | apply State.Good.same | apply State.Good.privs | apply State.Good.sram

theorem anchorMember_canon (s : State) (u m : Nat) (hs : s.Good rq) :
    (anchorMember s u m).1.Good rq := by
  unfold anchorMember
  repeat' with_reducible first
    | assumption | intro _ | apply canon_ite | apply canon_ite1 | refine canon_fst_of (by assumption) ?_
    | refine canon_snd_of (by assumption) ?_ | apply State.wr_canon | split | dsimp only | apply canon_mk
    | apply State.Good.regs | apply State.Good.eff | apply State.Good.dram | apply State.Good.host
    | apply State.Good.pending | apply State.Good.cont | apply State.Good.whole | apply State.Good.chutes
    | apply State.Good.log | apply State.Good.same | apply State.Good.privs | apply State.Good.sram

theorem anchAll_canon (s : State) (u : Nat) (hs : s.Good rq) :
    (anchAll s u).1.Good rq := by
  unfold anchAll
  repeat' with_reducible first
    | assumption | intro _ | apply canon_ite1 | apply canon_ite2 | apply canon_foldl | apply canon_foldl1
    | apply canon_foldl2 | refine canon_fst_of (by assumption) ?_ | refine canon_snd_of (by assumption) ?_
    | apply State.modDu_canon | apply State.wr_canon | apply anchLevel_canon | apply anchorMember_canon | split | dsimp only
    | apply canon_mk | apply State.Good.regs | apply State.Good.eff | apply State.Good.dram | apply State.Good.host
    | apply State.Good.pending | apply State.Good.cont | apply State.Good.whole | apply State.Good.chutes
    | apply State.Good.log | apply State.Good.same | apply State.Good.privs | apply State.Good.sram

theorem execAnchorUpdate_canon (u : Nat) (s : State) (hs : s.Good rq) :
    OutGood rq (execAnchorUpdate u s) := by
  unfold execAnchorUpdate
  repeat' with_reducible first
    | assumption | intro _ | apply State.modDu_canon | apply State.raise_canon | apply State.wr_canon | apply anchAll_canon
    | apply applyPreset_canon | apply corrCommit_canon | apply canon_next | apply canon_iteO | apply canon_ite
    | apply canon_ite1 | apply canon_ite2 | apply State.raiseAt_canon | split | dsimp only | apply canon_mk
    | apply State.Good.regs | apply State.Good.eff | apply State.Good.dram | apply State.Good.host
    | apply State.Good.pending | apply State.Good.cont | apply State.Good.whole | apply State.Good.chutes
    | apply State.Good.log | apply State.Good.same | apply State.Good.privs | apply State.Good.sram

end Sys2Proof.Machine
end

