-- ==== Sys2Proof/Laws/CanonDfuOut.lean ====
section
/-!
SUPPORT. What Machine/DfuOut.lean defines keeps the canonical form of what is stored.
-/

namespace Sys2Proof.Machine

variable {rq : Kept}

theorem rsDeliver_canon (s : State) (u : Nat) (hs : s.Good rq) :
    (rsDeliver s u).Good rq := by
  unfold rsDeliver
  repeat' with_reducible first
    | assumption | intro _ | apply State.modDu_canon | apply landDesc_canon | apply canon_ite | apply canon_ite1
    | apply canon_ite2 | apply canon_foldl | apply canon_foldl1 | apply canon_foldl2 | split | dsimp only | apply canon_mk
    | apply State.Good.regs | apply State.Good.eff | apply State.Good.dram | apply State.Good.host
    | apply State.Good.pending | apply State.Good.cont | apply State.Good.whole | apply State.Good.chutes
    | apply State.Good.log | apply State.Good.same | apply State.Good.privs | apply State.Good.sram

theorem rsEmit_canon (s : State) (u : Nat) (hs : s.Good rq) :
    (rsEmit s u).Good rq := by
  unfold rsEmit
  repeat' with_reducible first
    | assumption | intro _ | apply State.modDu_canon | apply landFeed_canon | apply canon_ite | apply canon_ite1
    | apply canon_ite2 | apply canon_foldl | apply canon_foldl1 | apply canon_foldl2 | apply rsDeliver_canon | split
    | dsimp only | apply canon_mk | apply State.Good.regs | apply State.Good.eff | apply State.Good.dram
    | apply State.Good.host | apply State.Good.pending | apply State.Good.cont | apply State.Good.whole
    | apply State.Good.chutes | apply State.Good.log | apply State.Good.same | apply State.Good.privs
    | apply State.Good.sram

theorem rsRun_canon (u n : Nat) (s : State) (hs : s.Good rq) : (rsRun u n s).Good rq := by
  induction n generalizing s with
  | zero => exact hs
  | succ n ih => exact canon_ite (ih _ (rsEmit_canon s u hs)) hs

theorem rsAll_canon (s : State) (u : Nat) (hs : s.Good rq) :
    (rsAll s u).Good rq := by
  unfold rsAll
  repeat' with_reducible first
    | assumption | intro _ | apply rsRun_canon | apply canon_foldl | apply canon_foldl1 | apply canon_foldl2 | split
    | dsimp only

theorem rsCycle_canon (s0 : State) (u : Nat) (hs0 : s0.Good rq) :
    (rsCycle s0 u).Good rq := by
  unfold rsCycle
  repeat' with_reducible first
    | assumption | intro _ | apply State.applyRegs_canon | apply State.bump_canon | apply State.modDu_canon
    | apply State.raiseAt_canon | apply State.wr64_canon | apply State.wrTs_canon | apply State.wrs_canon | apply drains_canon
    | apply rsAll_canon | apply canon_ite | apply canon_ite1 | apply canon_ite2 | refine canon_fst_of (by assumption) ?_
    | refine canon_snd_of (by assumption) ?_ | split | dsimp only | apply canon_mk | apply State.Good.regs
    | apply State.Good.eff | apply State.Good.dram | apply State.Good.host | apply State.Good.pending | apply State.Good.cont
    | apply State.Good.whole | apply State.Good.chutes | apply State.Good.log | apply State.Good.same | apply State.Good.privs
    | apply State.Good.sram

theorem execResamplerCycleStart_canon (u : Nat) (s : State) (hs : s.Good rq) :
    OutGood rq (execResamplerCycleStart u s) := by
  unfold execResamplerCycleStart
  repeat' with_reducible first
    | assumption | intro _ | apply rsCycle_canon | apply canon_next | apply canon_iteO | apply canon_ite | split | dsimp only

theorem execResamplerCoast_canon (u : Nat) (s : State) (hs : s.Good rq) :
    OutGood rq (execResamplerCoast u s) := by
  unfold execResamplerCoast
  repeat' with_reducible first
    | assumption | intro _ | apply State.modDu_canon | apply State.raiseAt_canon | apply State.wrs_canon | apply canon_next
    | apply canon_iteO | apply canon_ite | refine canon_fst_of (by assumption) ?_ | refine canon_snd_of (by assumption) ?_
    | split | dsimp only | apply canon_mk | apply State.Good.regs | apply State.Good.eff | apply State.Good.dram
    | apply State.Good.host | apply State.Good.pending | apply State.Good.cont | apply State.Good.whole
    | apply State.Good.chutes | apply State.Good.log | apply State.Good.same | apply State.Good.privs
    | apply State.Good.sram

theorem rsFlag_canon (s : State) (u : Nat) (g : Rs → Rs) (hs : s.Good rq) :
    (rsFlag s u g).Good rq := by
  unfold rsFlag
  repeat' with_reducible first
    | assumption | intro _ | apply State.modDu_canon | apply rsDeliver_canon | apply canon_ite | apply canon_ite1
    | apply canon_ite2 | split | dsimp only | apply canon_mk | apply State.Good.regs | apply State.Good.eff
    | apply State.Good.dram | apply State.Good.host | apply State.Good.pending | apply State.Good.cont
    | apply State.Good.whole | apply State.Good.chutes | apply State.Good.log | apply State.Good.same
    | apply State.Good.privs | apply State.Good.sram

theorem rsReport_canon (s : State) (u : Nat) (p e : Nat) (hs : s.Good rq) :
    (rsReport s u p e).Good rq := by
  unfold rsReport
  repeat' with_reducible first
    | assumption | intro _ | apply State.bump_canon | apply State.modDu_canon | apply State.raiseAt_canon
    | apply State.wr_canon | apply canon_ite | apply canon_ite1 | refine canon_fst_of (by assumption) ?_
    | refine canon_snd_of (by assumption) ?_ | apply rsFlag_canon | apply canon_ite2 | split | dsimp only | apply canon_mk
    | apply State.Good.regs | apply State.Good.eff | apply State.Good.dram | apply State.Good.host
    | apply State.Good.pending | apply State.Good.cont | apply State.Good.whole | apply State.Good.chutes
    | apply State.Good.log | apply State.Good.same | apply State.Good.privs | apply State.Good.sram

theorem dfuReport_canon (s : State) (x : Report) (hs : s.Good rq) :
    (dfuReport s x).Good rq := by
  unfold dfuReport
  repeat' with_reducible first
    | assumption | intro _ | apply rsReport_canon | apply canon_foldl | apply canon_foldl1 | apply canon_foldl2 | split
    | dsimp only

theorem outTrg_canon (s : State) (u : Nat) (o : PrimOut) (hd : rq.mem = none) (hs : s.Good rq) :
    (outTrg s u o).Good rq := by
  unfold outTrg
  repeat' with_reducible first
    | assumption | intro _ | apply directAll_canon | apply notesSample_canon | apply trgRefresh_canon | apply canon_ite
    | apply canon_ite1 | apply canon_ite2 | apply canon_foldl | apply canon_foldl1 | apply canon_foldl2 | split | dsimp only

theorem outVe_canon (s : State) (u : Nat) (o : PrimOut) (hs : s.Good rq) :
    (outVe s u o).Good rq := by
  unfold outVe
  repeat' with_reducible first
    | assumption | intro _ | apply veSample_canon | apply canon_ite | apply canon_ite1 | apply canon_ite2 | apply canon_foldl
    | apply canon_foldl1 | apply canon_foldl2 | split | dsimp only

theorem noteFlag_canon (s : State) (id k j : Nat) (flag : Bool) (hs : s.Good rq) :
    (noteFlag s id k j flag).Good rq := by
  unfold noteFlag
  repeat' with_reducible first
    | assumption | intro _ | apply State.modCs_canon | apply canon_ite | apply canon_ite1 | apply canon_ite2 | split
    | dsimp only | apply canon_mk | apply State.Good.regs | apply State.Good.eff | apply State.Good.dram
    | apply State.Good.host | apply State.Good.pending | apply State.Good.cont | apply State.Good.whole
    | apply State.Good.chutes | apply State.Good.log | apply State.Good.same | apply State.Good.privs
    | apply State.Good.sram

theorem outCap_canon (s : State) (u : Nat) (o : PrimOut) (hd : rq.mem = none) (hs : s.Good rq) :
    (outCap s u o).Good rq := by
  unfold outCap
  repeat' with_reducible first
    | assumption | intro _ | apply capNotes_canon | apply capRuns_canon | apply pushValues_canon | apply canon_ite
    | apply canon_ite1 | apply canon_ite2 | apply canon_foldl | apply canon_foldl1 | apply canon_foldl2
    | apply noteFlag_canon | split | dsimp only

theorem outLand_canon (s : State) (u : Nat) (o : PrimOut) (hs : s.Good rq) :
    (outLand s u o).Good rq := by
  unfold outLand
  repeat' with_reducible first
    | assumption | intro _ | apply landFeed_canon | apply canon_ite | apply canon_ite1 | apply canon_ite2 | apply canon_foldl
    | apply canon_foldl1 | apply canon_foldl2 | split | dsimp only

theorem outRs_canon (s : State) (u : Nat) (o : PrimOut) (hs : s.Good rq) :
    (outRs s u o).Good rq := by
  unfold outRs
  repeat' with_reducible first
    | assumption | intro _ | apply State.modDu_canon | apply canon_ite | apply canon_ite1 | apply canon_ite2
    | apply canon_foldl | apply canon_foldl1 | apply canon_foldl2 | split | dsimp only

theorem coefParity_canon (s : State) (u parity ts : Nat) (hs : s.Good rq) :
    (coefParity s u parity ts).Good rq := by
  unfold coefParity
  repeat' with_reducible first
    | assumption | intro _ | apply State.raiseAt_canon | apply canon_ite | apply canon_ite1 | apply canon_ite2 | split
    | dsimp only

theorem outDeliver_canon (s : State) (u : Nat) (o : PrimOut) (hd : rq.mem = none) (hs : s.Good rq) :
    (outDeliver s u o).Good rq := by
  unfold outDeliver
  repeat' with_reducible first
    | assumption | intro _ | apply canon_ite | apply canon_ite1 | apply canon_ite2 | apply outCap_canon
    | apply outLand_canon | apply outRs_canon | apply outTrg_canon | apply outVe_canon | apply satCount_canon | split
    | dsimp only

theorem execDfuOutput_canon (u parity : Nat) (s : State) (hd : rq.mem = none) (hs : s.Good rq) :
    OutGood rq (execDfuOutput u parity s) := by
  unfold execDfuOutput
  repeat' with_reducible first
    | assumption | intro _ | apply State.modDu_canon | apply State.raiseAt_canon | apply dfuRun_canon | apply drains_canon
    | apply outCap_canon | apply outLand_canon | apply outRs_canon | apply outTrg_canon | apply outVe_canon
    | apply rsAll_canon | apply satCount_canon | apply canon_next | apply canon_iteO | apply canon_ite
    | refine canon_fst_of (by assumption) ?_ | refine canon_snd_of (by assumption) ?_ | apply coefParity_canon
    | apply outDeliver_canon | apply canon_ite1 | apply canon_ite2 | split | dsimp only | apply canon_mk
    | apply State.Good.regs | apply State.Good.eff | apply State.Good.dram | apply State.Good.host
    | apply State.Good.pending | apply State.Good.cont | apply State.Good.whole | apply State.Good.chutes
    | apply State.Good.log | apply State.Good.same | apply State.Good.privs | apply State.Good.sram

end Sys2Proof.Machine
end

