-- ==== Sys2Proof/Laws/CanonMapOps.lean ====
section
/-!
SUPPORT. What Machine/MapOps.lean defines keeps the canonical form of what is stored.
-/

namespace Sys2Proof.Machine

variable {rq : Kept}

theorem State.modMp_canon (s : State) (m : Nat) (g : MapSt → MapSt) (hs : s.Good rq) :
    (State.modMp s m g).Good rq := by
  unfold State.modMp
  repeat' with_reducible first
    | assumption | intro _ | apply State.modEng_canon | split | dsimp only | apply canon_mk | apply State.Good.regs
    | apply State.Good.eff | apply State.Good.dram | apply State.Good.host | apply State.Good.pending | apply State.Good.cont
    | apply State.Good.whole | apply State.Good.chutes | apply State.Good.log | apply State.Good.same | apply State.Good.privs
    | apply State.Good.sram

theorem mapStart_canon (s : State) (m : Nat) (hd : rq.mem = none) (hs : s.Good rq) :
    (mapStart s m).Good rq := by
  unfold mapStart
  repeat' with_reducible first
    | assumption | intro _ | apply State.applyReg_canon | apply State.modMp_canon | apply State.wrs_canon
    | apply dramClear_canon | apply canon_ite | split | dsimp only | apply canon_mk | apply State.Good.regs
    | apply State.Good.eff | apply State.Good.dram | apply State.Good.host | apply State.Good.pending | apply State.Good.cont
    | apply State.Good.whole | apply State.Good.chutes | apply State.Good.log | apply State.Good.same | apply State.Good.privs
    | apply State.Good.sram

theorem mapEnable_canon (s : State) (m : Nat) (hd : rq.mem = none) (hs : s.Good rq) :
    (mapEnable s m).Good rq := by
  unfold mapEnable
  repeat' with_reducible first
    | assumption | intro _ | apply State.modMp_canon | apply State.wr_canon | apply mapStart_canon | apply canon_ite | split
    | dsimp only | apply canon_mk | apply State.Good.regs | apply State.Good.eff | apply State.Good.dram
    | apply State.Good.host | apply State.Good.pending | apply State.Good.cont | apply State.Good.whole
    | apply State.Good.chutes | apply State.Good.log | apply State.Good.same | apply State.Good.privs
    | apply State.Good.sram

theorem mapDisable_canon (s : State) (m : Nat) (hs : s.Good rq) :
    (mapDisable s m).Good rq := by
  unfold mapDisable
  repeat' with_reducible first
    | assumption | intro _ | apply State.modMp_canon | apply State.wrs_canon | split | dsimp only

theorem mapsLeave_canon (s : State) (hs : s.Good rq) :
    (mapsLeave s).Good rq := by
  unfold mapsLeave
  repeat' with_reducible first
    | assumption | intro _ | apply State.modMp_canon | apply State.wr_canon | apply canon_foldl | apply canon_foldl1
    | apply canon_foldl2 | split | dsimp only | apply canon_mk | apply State.Good.regs | apply State.Good.eff
    | apply State.Good.dram | apply State.Good.host | apply State.Good.pending | apply State.Good.cont
    | apply State.Good.whole | apply State.Good.chutes | apply State.Good.log | apply State.Good.same | apply State.Good.privs
    | apply State.Good.sram

theorem mapsRecord_canon (s : State) (hd : rq.mem = none) (hs : s.Good rq) :
    (mapsRecord s).Good rq := by
  unfold mapsRecord
  repeat' with_reducible first
    | assumption | intro _ | apply mapStart_canon | apply canon_ite | apply canon_foldl | apply canon_foldl1
    | apply canon_foldl2 | split | dsimp only

theorem mapAdd_canon (s : State) (m addr n : Nat) (hd : rq.mem = none) (hs : s.Good rq) :
    (mapAdd s m addr n).Good rq := by
  unfold mapAdd
  repeat' with_reducible first
    | assumption | intro _ | apply State.bump_canon | apply State.dramWrite_canon | apply canon_ite | split | dsimp only

theorem mapApply_canon (s : State) (m wend flags : Nat) (ds : List MapDelta) (hd : rq.mem = none) (hs : s.Good rq) :
    (mapApply s m wend flags ds).Good rq := by
  unfold mapApply
  repeat' with_reducible first
    | assumption | intro _ | apply State.bump_canon | apply State.bumpBy_canon | apply State.modMp_canon
    | apply State.raise_canon | apply mapAdd_canon | apply canon_ite | apply canon_ite1 | apply canon_ite2 | apply canon_foldl
    | apply canon_foldl1 | apply canon_foldl2 | refine canon_fst_of (by assumption) ?_
    | refine canon_snd_of (by assumption) ?_ | split | dsimp only | apply canon_mk | apply State.Good.regs
    | apply State.Good.eff | apply State.Good.dram | apply State.Good.host | apply State.Good.pending | apply State.Good.cont
    | apply State.Good.whole | apply State.Good.chutes | apply State.Good.log | apply State.Good.same | apply State.Good.privs
    | apply State.Good.sram

theorem mapCommit_canon (s : State) (c : Chain) (wend flags : Nat) (ds : List MapDelta) (hd : rq.mem = none) (hs : s.Good rq) :
    (mapCommit s c wend flags ds).Good rq := by
  unfold mapCommit
  repeat' with_reducible first
    | assumption | intro _ | apply mapApply_canon | apply canon_foldl | apply canon_foldl1 | apply canon_foldl2 | split
    | dsimp only

theorem mapCarry_canon (s : State) (m b : Nat) (hd : rq.mem = none) (hs : s.Good rq) :
    (mapCarry s m b).Good rq := by
  unfold mapCarry
  repeat' with_reducible first
    | assumption | intro _ | apply mapAdd_canon | apply canon_ite | apply canon_ite1 | apply canon_foldl | apply canon_foldl1
    | apply canon_foldl2 | split | dsimp only

end Sys2Proof.Machine
end

