-- ==== Sys2Proof/Laws/CanonDisOps.lean ====
section
/-!
SUPPORT. What Machine/DisOps.lean defines keeps the canonical form of what is stored.
-/

namespace Sys2Proof.Machine

variable {rq : Kept}

theorem State.modDis_canon (s : State) (g : Dis → Dis) (hs : s.Good rq) :
    (State.modDis s g).Good rq := by
  unfold State.modDis
  repeat' with_reducible first
    | assumption | intro _ | split | dsimp only | apply canon_mk | apply State.Good.regs | apply State.Good.eff
    | apply State.Good.dram | apply State.Good.host | apply State.Good.pending | apply State.Good.cont
    | apply State.Good.whole | apply State.Good.chutes | apply State.Good.log | apply State.Good.same | apply State.Good.privs
    | apply State.Good.sram

theorem State.modDl_canon (s : State) (k : Nat) (g : DLayer → DLayer) (hs : s.Good rq) :
    (State.modDl s k g).Good rq := by
  unfold State.modDl
  repeat' with_reducible first
    | assumption | intro _ | apply State.modDis_canon | split | dsimp only | apply canon_mk | apply State.Good.regs
    | apply State.Good.eff | apply State.Good.dram | apply State.Good.host | apply State.Good.pending | apply State.Good.cont
    | apply State.Good.whole | apply State.Good.chutes | apply State.Good.log | apply State.Good.same | apply State.Good.privs
    | apply State.Good.sram

theorem disSet_canon (s : State) (st : Nat) (hs : s.Good rq) :
    (disSet s st).Good rq := by
  unfold disSet
  repeat' with_reducible first
    | assumption | intro _ | apply State.modDis_canon | apply State.wr_canon | apply canon_ite | split | dsimp only
    | apply canon_mk | apply State.Good.regs | apply State.Good.eff | apply State.Good.dram | apply State.Good.host
    | apply State.Good.pending | apply State.Good.cont | apply State.Good.whole | apply State.Good.chutes
    | apply State.Good.log | apply State.Good.same | apply State.Good.privs
    | apply State.Good.sram

theorem disPins_canon (s : State) (hs : s.Good rq) :
    (disPins s).Good rq := by
  unfold disPins
  repeat' with_reducible first
    | assumption | intro _ | split | dsimp only | apply canon_mk | apply State.Good.regs | apply State.Good.eff
    | apply State.Good.dram | apply State.Good.host | apply State.Good.pending | apply State.Good.cont
    | apply State.Good.whole | apply State.Good.chutes | apply State.Good.log | apply State.Good.same | apply State.Good.privs
    | apply State.Good.sram

theorem linkChanged_canon (s : State) (hs : s.Good rq) :
    (linkChanged s).Good rq := by
  unfold linkChanged
  repeat' with_reducible first
    | assumption | intro _ | apply State.postEvent_canon | split | dsimp only

theorem disFigures_canon (s : State) (hs : s.Good rq) :
    (disFigures s).Good rq := by
  unfold disFigures
  repeat' with_reducible first
    | assumption | intro _ | apply State.wr_canon | apply admRegs_canon | apply canon_ite
    | refine canon_fst_of (by assumption) ?_ | refine canon_snd_of (by assumption) ?_ | split | dsimp only | apply canon_mk
    | apply State.Good.regs | apply State.Good.eff | apply State.Good.dram | apply State.Good.host | apply State.Good.pending
    | apply State.Good.cont | apply State.Good.whole | apply State.Good.chutes | apply State.Good.log | apply State.Good.same
    | apply State.Good.privs
    | apply State.Good.sram

theorem disReserve_canon (s : State) (hs : s.Good rq) :
    (disReserve s).Good rq := by
  unfold disReserve
  repeat' with_reducible first
    | assumption | intro _ | apply State.wr_canon | apply admRegs_canon | apply canon_ite | split | dsimp only

theorem disLayersShow_canon (s : State) (hs : s.Good rq) :
    (disLayersShow s).Good rq := by
  unfold disLayersShow
  repeat' with_reducible first
    | assumption | intro _ | apply State.wr64_canon | apply State.wrB_canon | apply canon_ite | apply canon_foldl
    | apply canon_foldl1 | apply canon_foldl2 | refine canon_fst_of (by assumption) ?_
    | refine canon_snd_of (by assumption) ?_ | split | dsimp only | apply canon_mk | apply State.Good.regs
    | apply State.Good.eff | apply State.Good.dram | apply State.Good.host | apply State.Good.pending | apply State.Good.cont
    | apply State.Good.whole | apply State.Good.chutes | apply State.Good.log | apply State.Good.same | apply State.Good.privs
    | apply State.Good.sram

theorem trainLink_canon (s : State) (hs : s.Good rq) :
    (trainLink s).Good rq := by
  unfold trainLink
  repeat' with_reducible first
    | assumption | intro _ | apply State.modDis_canon | apply disSet_canon | split | dsimp only | apply canon_mk
    | apply State.Good.regs | apply State.Good.eff | apply State.Good.dram | apply State.Good.host | apply State.Good.pending
    | apply State.Good.cont | apply State.Good.whole | apply State.Good.chutes | apply State.Good.log | apply State.Good.same
    | apply State.Good.privs
    | apply State.Good.sram

theorem modeNow_canon (s : State) (retrain : Bool) (hs : s.Good rq) :
    (modeNow s retrain).Good rq := by
  unfold modeNow
  repeat' with_reducible first
    | assumption | intro _ | apply State.applyRegs_canon | apply State.modDis_canon | apply State.wr_canon
    | apply disFigures_canon | apply fcp_canon | apply canon_ite | split | dsimp only | apply canon_mk | apply State.Good.regs
    | apply State.Good.eff | apply State.Good.dram | apply State.Good.host | apply State.Good.pending | apply State.Good.cont
    | apply State.Good.whole | apply State.Good.chutes | apply State.Good.log | apply State.Good.same | apply State.Good.privs
    | apply State.Good.sram

theorem disPowerOn_canon (s : State) (hs : s.Good rq) :
    (disPowerOn s).Good rq := by
  unfold disPowerOn
  repeat' with_reducible first
    | assumption | intro _ | apply State.modDis_canon | apply State.modDl_canon | apply State.setDom_canon
    | apply State.wrs_canon | apply disFigures_canon | apply disLayersShow_canon | apply disPins_canon | apply modeNow_canon
    | apply trainLink_canon | apply canon_ite | apply canon_foldl | apply canon_foldl1 | apply canon_foldl2 | split
    | dsimp only | apply canon_mk | apply State.Good.regs | apply State.Good.eff | apply State.Good.dram
    | apply State.Good.host | apply State.Good.pending | apply State.Good.cont | apply State.Good.whole
    | apply State.Good.chutes | apply State.Good.log | apply State.Good.same | apply State.Good.privs
    | apply State.Good.sram

theorem disPowerOff_canon (s : State) (hs : s.Good rq) :
    (disPowerOff s).Good rq := by
  unfold disPowerOff
  repeat' with_reducible first
    | assumption | intro _ | apply State.modDis_canon | apply State.setDom_canon | apply State.wrs_canon | apply disPins_canon
    | apply canon_ite | split | dsimp only | apply canon_mk | apply State.Good.regs | apply State.Good.eff
    | apply State.Good.dram | apply State.Good.host | apply State.Good.pending | apply State.Good.cont
    | apply State.Good.whole | apply State.Good.chutes | apply State.Good.log | apply State.Good.same | apply State.Good.privs
    | apply State.Good.sram

theorem disCommit_canon (s : State) (k : Nat) (hs : s.Good rq) :
    (disCommit s k).Good rq := by
  unfold disCommit
  repeat' with_reducible first
    | assumption | intro _ | apply State.bump_canon | apply State.modDl_canon | apply fcp_canon | apply canon_ite | split
    | dsimp only | apply canon_mk | apply State.Good.regs | apply State.Good.eff | apply State.Good.dram
    | apply State.Good.host | apply State.Good.pending | apply State.Good.cont | apply State.Good.whole
    | apply State.Good.chutes | apply State.Good.log | apply State.Good.same | apply State.Good.privs
    | apply State.Good.sram

theorem disCommits_canon (s : State) (mask : Nat) (hs : s.Good rq) :
    (disCommits s mask).Good rq := by
  unfold disCommits
  repeat' with_reducible first
    | assumption | intro _ | apply disCommit_canon | apply canon_foldl | apply canon_foldl1 | apply canon_foldl2 | split
    | dsimp only

theorem disFnReset_canon (s : State) (f : Nat) (hs : s.Good rq) :
    (disFnReset s f).Good rq := by
  unfold disFnReset
  repeat' with_reducible first
    | assumption | intro _ | apply State.modDl_canon | apply canon_ite | apply canon_foldl | apply canon_foldl1
    | apply canon_foldl2 | split | dsimp only | apply canon_mk | apply State.Good.regs | apply State.Good.eff
    | apply State.Good.dram | apply State.Good.host | apply State.Good.pending | apply State.Good.cont
    | apply State.Good.whole | apply State.Good.chutes | apply State.Good.log | apply State.Good.same | apply State.Good.privs
    | apply State.Good.sram

theorem takeLayers_canon (s : State) (ks : List Nat) (hs : s.Good rq) :
    (takeLayers s ks).Good rq := by
  unfold takeLayers
  repeat' with_reducible first
    | assumption | intro _ | apply State.applyRegs_canon | apply State.modDl_canon | apply canon_foldl | apply canon_foldl1
    | apply canon_foldl2 | split | dsimp only | apply canon_mk | apply State.Good.regs | apply State.Good.eff
    | apply State.Good.dram | apply State.Good.host | apply State.Good.pending | apply State.Good.cont
    | apply State.Good.whole | apply State.Good.chutes | apply State.Good.log | apply State.Good.same | apply State.Good.privs
    | apply State.Good.sram

theorem latchLayers_canon (s : State) (hs : s.Good rq) :
    (latchLayers s).Good rq := by
  unfold latchLayers
  repeat' with_reducible first
    | assumption | intro _ | apply State.modDl_canon | apply State.wake_canon | apply State.wr_canon | apply takeLayers_canon
    | apply canon_ite | apply canon_foldl | apply canon_foldl1 | apply canon_foldl2 | split | dsimp only | apply canon_mk
    | apply State.Good.regs | apply State.Good.eff | apply State.Good.dram | apply State.Good.host | apply State.Good.pending
    | apply State.Good.cont | apply State.Good.whole | apply State.Good.chutes | apply State.Good.log | apply State.Good.same
    | apply State.Good.privs
    | apply State.Good.sram

end Sys2Proof.Machine
end

