-- ==== Sys2Proof/Laws/CanonDis.lean ====
section
/-!
SUPPORT. What Machine/Dis.lean defines keeps the canonical form of what is stored.
-/

namespace Sys2Proof.Machine

variable {rq : Kept}

theorem modeFields_canon (p : Packet) (s : State) (hs : s.Good rq) :
    (modeFields p s).Good rq := by
  unfold modeFields
  repeat' with_reducible first
    | assumption | intro _ | apply State.wrs_canon | split | dsimp only

theorem modeCommit_canon (s : State) (hs : s.Good rq) :
    (modeCommit s).Good rq := by
  unfold modeCommit
  repeat' with_reducible first
    | assumption | intro _ | apply State.wr_canon | apply modeNow_canon | apply trainLink_canon | apply canon_ite | split
    | dsimp only

theorem modeOff_canon (p : Packet) (s : State) (hs : s.Good rq) :
    (modeOff p s).Good rq := by
  unfold modeOff
  repeat' with_reducible first
    | assumption | intro _ | apply disFigures_canon | apply disPowerOff_canon | apply modeFields_canon | apply modeNow_canon
    | split | dsimp only

theorem modeOn_canon (p : Packet) (s : State) (hs : s.Good rq) :
    (modeOn p s).Good rq := by
  unfold modeOn
  repeat' with_reducible first
    | assumption | intro _ | apply disReserve_canon | apply modeCommit_canon | apply modeFields_canon | split | dsimp only

theorem modeLit_canon (s : State) (hs : s.Good rq) :
    (modeLit s).Good rq := by
  unfold modeLit
  repeat' with_reducible first
    | assumption | intro _ | apply disPowerOn_canon | apply canon_ite | split | dsimp only

theorem execDisMode_canon (p : Packet) (s : State) (hs : s.Good rq) :
    OutGood rq (execDisMode p s) := by
  unfold execDisMode
  repeat' with_reducible first
    | assumption | intro _ | apply fcpStep_canon | apply modeFields_canon | apply modeLit_canon | apply modeOff_canon
    | apply modeOn_canon | apply canon_next | apply canon_iteO | apply canon_iteF | apply canon_final | apply canon_wait
    | apply canon_pend | apply canon_ite | split | dsimp only

theorem layerFields_canon (p : Packet) (s : State) (hs : s.Good rq) :
    (layerFields p s).Good rq := by
  unfold layerFields
  repeat' with_reducible first
    | assumption | intro _ | apply State.wrs_canon | split | dsimp only

theorem execDisLayer_canon (p : Packet) (s : State) (hs : s.Good rq) :
    OutGood rq (execDisLayer p s) := by
  unfold execDisLayer
  repeat' with_reducible first
    | assumption | intro _ | apply disCommit_canon | apply disReserve_canon | apply fcpStep_canon | apply layerFields_canon
    | apply canon_next | apply canon_iteO | apply canon_iteF | apply canon_final | apply canon_wait | apply canon_pend
    | apply canon_ite | split | dsimp only

theorem flipBases_canon (p : Packet) (s : State) (hs : s.Good rq) :
    (flipBases p s).Good rq := by
  unfold flipBases
  repeat' with_reducible first
    | assumption | intro _ | apply State.wrs_canon | apply canon_foldl | apply canon_foldl1 | apply canon_foldl2 | split
    | dsimp only

theorem execDisFlip_canon (p : Packet) (s : State) (hs : s.Good rq) :
    OutGood rq (execDisFlip p s) := by
  unfold execDisFlip
  repeat' with_reducible first
    | assumption | intro _ | apply disCommits_canon | apply fcpStep_canon | apply flipBases_canon | apply canon_next
    | apply canon_iteO | apply canon_iteF | apply canon_final | apply canon_wait | apply canon_pend | split | dsimp only

theorem lutPut_canon (s : State) (k i : Nat) (v : Word) (hs : s.Good rq) :
    (lutPut s k i v).Good rq := by
  unfold lutPut
  repeat' with_reducible first
    | assumption | intro _ | apply State.modDl_canon | apply canon_ite | split | dsimp only | apply canon_mk
    | apply State.Good.regs | apply State.Good.eff | apply State.Good.dram | apply State.Good.host | apply State.Good.pending
    | apply State.Good.cont | apply State.Good.whole | apply State.Good.chutes | apply State.Good.log | apply State.Good.same
    | apply State.Good.privs
    | apply State.Good.sram

theorem lutLoad_canon (p : Packet) (s : State) (hs : s.Good rq) :
    (lutLoad p s).Good rq := by
  unfold lutLoad
  repeat' with_reducible first
    | assumption | intro _ | apply State.modDl_canon | apply State.wrs_canon | apply lutPut_canon | apply canon_foldl
    | apply canon_foldl1 | apply canon_foldl2 | split | dsimp only | apply canon_mk | apply State.Good.regs
    | apply State.Good.eff | apply State.Good.dram | apply State.Good.host | apply State.Good.pending | apply State.Good.cont
    | apply State.Good.whole | apply State.Good.chutes | apply State.Good.log | apply State.Good.same | apply State.Good.privs
    | apply State.Good.sram

theorem execDisLut_canon (p : Packet) (s : State) (hs : s.Good rq) :
    OutGood rq (execDisLut p s) := by
  unfold execDisLut
  repeat' with_reducible first
    | assumption | intro _ | apply fcpStep_canon | apply lutLoad_canon | apply canon_next | apply canon_iteO
    | apply canon_iteF | apply canon_final | apply canon_wait | apply canon_pend | split | dsimp only

theorem crcWindowSet_canon (p : Packet) (s : State) (hs : s.Good rq) :
    (crcWindowSet p s).Good rq := by
  unfold crcWindowSet
  repeat' with_reducible first
    | assumption | intro _ | apply State.wrs_canon | split | dsimp only

theorem execDisCrc_canon (p : Packet) (s : State) (hs : s.Good rq) :
    OutGood rq (execDisCrc p s) := by
  unfold execDisCrc
  repeat' with_reducible first
    | assumption | intro _ | apply crcWindowSet_canon | apply fcpStep_canon | apply canon_next | apply canon_iteO
    | apply canon_iteF | apply canon_final | apply canon_wait | apply canon_pend | split | dsimp only

theorem disClear_canon (s : State) (hs : s.Good rq) :
    (disClear s).Good rq := by
  unfold disClear
  repeat' with_reducible first
    | assumption | intro _ | apply State.zeroFields_canon | split | dsimp only

theorem execDisStatus_canon (p : Packet) (s : State) (hs : s.Good rq) :
    OutGood rq (execDisStatus p s) := by
  unfold execDisStatus
  repeat' with_reducible first
    | assumption | intro _ | apply disClear_canon | apply fcpStep_canon | apply canon_next | apply canon_iteO
    | apply canon_iteF | apply canon_final | apply canon_wait | apply canon_pend | apply canon_ite | split | dsimp only

theorem disEnable_canon (s : State) (hs : s.Good rq) :
    (disEnable s).Good rq := by
  unfold disEnable
  repeat' with_reducible first
    | assumption | intro _ | apply State.wr_canon | apply disPowerOn_canon | apply disReserve_canon | apply canon_ite | split
    | dsimp only

theorem disCtrlWrite_canon (v : Nat) (s : State) (hs : s.Good rq) :
    (disCtrlWrite v s).Good rq := by
  unfold disCtrlWrite
  repeat' with_reducible first
    | assumption | intro _ | apply State.wr_canon | apply disClear_canon | apply disEnable_canon | apply disFigures_canon
    | apply disPowerOff_canon | apply canon_ite | split | dsimp only

theorem execDisScanoutEnable_canon (m : Nat) (v : Word) (s : State) (hs : s.Good rq) :
    OutGood rq (execDisScanoutEnable m v s) := by
  unfold execDisScanoutEnable
  repeat' with_reducible first
    | assumption | intro _ | apply State.writeBy_canon | apply disCtrlWrite_canon | apply canon_next | apply canon_iteO
    | split | dsimp only

theorem execDisClrCounters_canon (m : Nat) (v : Word) (s : State) (hs : s.Good rq) :
    OutGood rq (execDisClrCounters m v s) := by
  unfold execDisClrCounters
  repeat' with_reducible first
    | assumption | intro _ | apply State.writeBy_canon | apply disCtrlWrite_canon | apply canon_next | apply canon_iteO
    | split | dsimp only

theorem modeCommitWrite_canon (v : Nat) (s : State) (hs : s.Good rq) :
    (modeCommitWrite v s).Good rq := by
  unfold modeCommitWrite
  repeat' with_reducible first
    | assumption | intro _ | apply State.wr_canon | apply modeCommit_canon | apply canon_ite | split | dsimp only

theorem execDisModeCommitGo_canon (m : Nat) (v : Word) (s : State) (hs : s.Good rq) :
    OutGood rq (execDisModeCommitGo m v s) := by
  unfold execDisModeCommitGo
  repeat' with_reducible first
    | assumption | intro _ | apply State.writeBy_canon | apply modeCommitWrite_canon | apply canon_next | apply canon_iteO
    | split | dsimp only

theorem layerCommitWrite_canon (v : Nat) (s : State) (hs : s.Good rq) :
    (layerCommitWrite v s).Good rq := by
  unfold layerCommitWrite
  repeat' with_reducible first
    | assumption | intro _ | apply disCommits_canon | apply canon_ite | split | dsimp only

theorem execDisLayerCommitGo_canon (m : Nat) (v : Word) (s : State) (hs : s.Good rq) :
    OutGood rq (execDisLayerCommitGo m v s) := by
  unfold execDisLayerCommitGo
  repeat' with_reducible first
    | assumption | intro _ | apply State.writeBy_canon | apply layerCommitWrite_canon | apply canon_next | apply canon_iteO
    | split | dsimp only

theorem disLutWrite_canon (k v : Nat) (s : State) (hs : s.Good rq) :
    (disLutWrite k v s).Good rq := by
  unfold disLutWrite
  repeat' with_reducible first
    | assumption | intro _ | apply State.modDl_canon | apply State.wr_canon | apply State.wrs_canon | apply canon_ite | split
    | dsimp only | apply canon_mk | apply State.Good.regs | apply State.Good.eff | apply State.Good.dram
    | apply State.Good.host | apply State.Good.pending | apply State.Good.cont | apply State.Good.whole
    | apply State.Good.chutes | apply State.Good.log | apply State.Good.same | apply State.Good.privs
    | apply State.Good.sram

theorem execDisLutSwap_canon (m k : Nat) (v : Word) (s : State) (hs : s.Good rq) :
    OutGood rq (execDisLutSwap m k v s) := by
  unfold execDisLutSwap
  repeat' with_reducible first
    | assumption | intro _ | apply State.writeBy_canon | apply disLutWrite_canon | apply canon_next | apply canon_iteO
    | apply canon_ite | split | dsimp only

theorem disLutData_canon (i : Nat) (v : Word) (s : State) (hs : s.Good rq) :
    (disLutData i v s).Good rq := by
  unfold disLutData
  repeat' with_reducible first
    | assumption | intro _ | apply lutPut_canon | apply canon_ite | split | dsimp only

theorem execDisLutDataWrite_canon (m i : Nat) (v : Word) (s : State) (hs : s.Good rq) :
    OutGood rq (execDisLutDataWrite m i v s) := by
  unfold execDisLutDataWrite
  repeat' with_reducible first
    | assumption | intro _ | apply State.writeBy_canon | apply disLutData_canon | apply canon_next | apply canon_iteO
    | apply canon_ite | split | dsimp only

theorem disAuxWrite_canon (v : Nat) (s : State) (hs : s.Good rq) :
    (disAuxWrite v s).Good rq := by
  unfold disAuxWrite
  repeat' with_reducible first
    | assumption | intro _ | apply State.modDis_canon | apply State.wr_canon | apply plainWrite_canon | apply canon_ite
    | split | dsimp only | apply canon_mk | apply State.Good.regs | apply State.Good.eff | apply State.Good.dram
    | apply State.Good.host | apply State.Good.pending | apply State.Good.cont | apply State.Good.whole
    | apply State.Good.chutes | apply State.Good.log | apply State.Good.same | apply State.Good.privs
    | apply State.Good.sram

theorem execDisAuxGo_canon (m : Nat) (v : Word) (s : State) (hs : s.Good rq) :
    OutGood rq (execDisAuxGo m v s) := by
  unfold execDisAuxGo
  repeat' with_reducible first
    | assumption | intro _ | apply State.writeBy_canon | apply disAuxWrite_canon | apply canon_next | apply canon_iteO | split
    | dsimp only

theorem auxPut_canon (s : State) (i : Nat) (bs : List Byte) (hs : s.Good rq) : (auxPut s i bs).Good rq := by
  induction bs generalizing i s with
  | nil => exact hs
  | cons b bs ih => exact ih _ _ (State.wr_canon _ _ hs)

theorem execAuxTransferDone_canon (reply : Nat) (data : List Byte) (s : State) (hs : s.Good rq) :
    OutGood rq (execAuxTransferDone reply data s) := by
  unfold execAuxTransferDone
  repeat' with_reducible first
    | assumption | intro _ | apply State.raise_canon | apply State.wrs_canon | apply auxPut_canon | apply canon_next
    | apply canon_iteO | apply canon_ite | split | dsimp only

theorem latchMode_canon (s : State) (hs : s.Good rq) :
    (latchMode s).Good rq := by
  unfold latchMode
  repeat' with_reducible first
    | assumption | intro _ | apply State.applyRegs_canon | apply State.modDis_canon | apply State.wrs_canon
    | apply disSet_canon | apply modeNow_canon | apply trainLink_canon | apply canon_ite | split | dsimp only | apply canon_mk
    | apply State.Good.regs | apply State.Good.eff | apply State.Good.dram | apply State.Good.host | apply State.Good.pending
    | apply State.Good.cont | apply State.Good.whole | apply State.Good.chutes | apply State.Good.log | apply State.Good.same
    | apply State.Good.privs
    | apply State.Good.sram

theorem latchLuts_canon (s : State) (hs : s.Good rq) :
    (latchLuts s).Good rq := by
  unfold latchLuts
  repeat' with_reducible first
    | assumption | intro _ | apply State.applyReg_canon | apply State.modDl_canon | apply State.wake_canon
    | apply State.wrs_canon | apply canon_ite | apply canon_foldl | apply canon_foldl1 | apply canon_foldl2 | split
    | dsimp only | apply canon_mk | apply State.Good.regs | apply State.Good.eff | apply State.Good.dram
    | apply State.Good.host | apply State.Good.pending | apply State.Good.cont | apply State.Good.whole
    | apply State.Good.chutes | apply State.Good.log | apply State.Good.same | apply State.Good.privs
    | apply State.Good.sram

theorem latchBanks_canon (s : State) (hs : s.Good rq) :
    (latchBanks s).Good rq := by
  unfold latchBanks
  repeat' with_reducible first
    | assumption | intro _ | apply State.applyReg_canon | apply State.modDl_canon | apply State.wr_canon | apply canon_ite
    | apply canon_foldl | apply canon_foldl1 | apply canon_foldl2 | split | dsimp only | apply canon_mk
    | apply State.Good.regs | apply State.Good.eff | apply State.Good.dram | apply State.Good.host | apply State.Good.pending
    | apply State.Good.cont | apply State.Good.whole | apply State.Good.chutes | apply State.Good.log | apply State.Good.same
    | apply State.Good.privs
    | apply State.Good.sram

theorem latchCrc_canon (s : State) (hs : s.Good rq) :
    (latchCrc s).Good rq := by
  unfold latchCrc
  repeat' with_reducible first
    | assumption | intro _ | apply State.finishAll_canon | apply State.setReg_canon | apply State.wr_canon
    | apply State.wr64_canon | apply canon_ite | split | dsimp only

theorem latchTake_canon (s : State) (hs : s.Good rq) :
    (latchTake s).Good rq := by
  unfold latchTake
  repeat' with_reducible first
    | assumption | intro _ | apply State.wake_canon | apply disFigures_canon | apply disLayersShow_canon | apply fcp_canon
    | apply latchBanks_canon | apply latchLayers_canon | apply latchLuts_canon | apply latchMode_canon | apply canon_ite
    | apply canon_foldl | apply canon_foldl1 | apply canon_foldl2 | split | dsimp only | apply canon_mk
    | apply State.Good.regs | apply State.Good.eff | apply State.Good.dram | apply State.Good.host | apply State.Good.pending
    | apply State.Good.cont | apply State.Good.whole | apply State.Good.chutes | apply State.Good.log | apply State.Good.same
    | apply State.Good.privs
    | apply State.Good.sram

theorem frameEnd_canon (s : State) (hs : s.Good rq) :
    (frameEnd s).Good rq := by
  unfold frameEnd
  repeat' with_reducible first
    | assumption | intro _ | apply State.modDis_canon | apply latchCrc_canon | split | dsimp only | apply canon_mk
    | apply State.Good.regs | apply State.Good.eff | apply State.Good.dram | apply State.Good.host | apply State.Good.pending
    | apply State.Good.cont | apply State.Good.whole | apply State.Good.chutes | apply State.Good.log | apply State.Good.same
    | apply State.Good.privs
    | apply State.Good.sram

theorem execFrameLatch_canon (s : State) (hs : s.Good rq) :
    OutGood rq (execFrameLatch s) := by
  unfold execFrameLatch
  repeat' with_reducible first
    | assumption | intro _ | apply frameEnd_canon | apply latchTake_canon | apply canon_next | apply canon_iteO
    | apply canon_ite | split | dsimp only

theorem frameErrors_canon (s : State) (missing : List Missing) (ue : List (Nat × Nat)) (hs : s.Good rq) :
    (frameErrors s missing ue).Good rq := by
  unfold frameErrors
  repeat' with_reducible first
    | assumption | intro _ | apply State.bumpBy_canon | apply State.modDis_canon | apply State.raise_canon | apply canon_ite
    | apply canon_ite1 | apply canon_foldl | apply canon_foldl1 | apply canon_foldl2 | refine canon_fst_of (by assumption) ?_
    | refine canon_snd_of (by assumption) ?_ | split | dsimp only | apply canon_mk | apply State.Good.regs
    | apply State.Good.eff | apply State.Good.dram | apply State.Good.host | apply State.Good.pending | apply State.Good.cont
    | apply State.Good.whole | apply State.Good.chutes | apply State.Good.log | apply State.Good.same | apply State.Good.privs
    | apply State.Good.sram

theorem frameFlips_canon (s : State) (hs : s.Good rq) :
    (frameFlips s).Good rq := by
  unfold frameFlips
  repeat' with_reducible first
    | assumption | intro _ | apply State.modDl_canon | apply State.wr64_canon | apply State.wrTs_canon | apply canon_ite
    | apply canon_foldl | apply canon_foldl1 | apply canon_foldl2 | split | dsimp only | apply canon_mk
    | apply State.Good.regs | apply State.Good.eff | apply State.Good.dram | apply State.Good.host | apply State.Good.pending
    | apply State.Good.cont | apply State.Good.whole | apply State.Good.chutes | apply State.Good.log | apply State.Good.same
    | apply State.Good.privs
    | apply State.Good.sram

theorem frameMode_canon (s : State) (hs : s.Good rq) :
    (frameMode s).Good rq := by
  unfold frameMode
  repeat' with_reducible first
    | assumption | intro _ | apply State.finishAll_canon | apply State.modDis_canon | apply State.postEvent_canon
    | refine canon_fst_of (by assumption) ?_ | refine canon_snd_of (by assumption) ?_ | split | dsimp only | apply canon_mk
    | apply State.Good.regs | apply State.Good.eff | apply State.Good.dram | apply State.Good.host | apply State.Good.pending
    | apply State.Good.cont | apply State.Good.whole | apply State.Good.chutes | apply State.Good.log | apply State.Good.same
    | apply State.Good.privs
    | apply State.Good.sram

theorem frameBegin_canon (missing ue : List (Nat × Nat)) (s : State) (hs : s.Good rq) :
    (frameBegin missing ue s).Good rq := by
  unfold frameBegin
  repeat' with_reducible first
    | assumption | intro _ | apply State.applyRegs_canon | apply State.finishAll_canon | apply State.modDis_canon
    | apply State.wr_canon | apply State.wr64_canon | apply State.wrTs_canon | apply disPins_canon | apply disSet_canon
    | apply fcp_canon | apply frameErrors_canon | apply frameFlips_canon | apply frameMode_canon | apply canon_ite
    | apply canon_ite1 | apply canon_ite2 | split | dsimp only | apply canon_mk | apply State.Good.regs | apply State.Good.eff
    | apply State.Good.dram | apply State.Good.host | apply State.Good.pending | apply State.Good.cont
    | apply State.Good.whole | apply State.Good.chutes | apply State.Good.log | apply State.Good.same | apply State.Good.privs
    | apply State.Good.sram

theorem execFrameStart_canon (missing : List (Nat × Nat)) (ue : List (Nat × Nat)) (s : State) (hs : s.Good rq) :
    OutGood rq (execFrameStart missing ue s) := by
  unfold execFrameStart
  repeat' with_reducible first
    | assumption | intro _ | apply frameBegin_canon | apply canon_next | apply canon_iteO | apply canon_ite | split
    | dsimp only

theorem execDisLinkTraining_canon (ok : Bool) (s : State) (hs : s.Good rq) :
    OutGood rq (execDisLinkTraining ok s) := by
  unfold execDisLinkTraining
  repeat' with_reducible first
    | assumption | intro _ | apply State.finishAll_canon | apply State.modDis_canon | apply State.raise_canon
    | apply disSet_canon | apply linkChanged_canon | apply canon_next | apply canon_iteO | apply canon_ite | split
    | dsimp only | apply canon_mk | apply State.Good.regs | apply State.Good.eff | apply State.Good.dram
    | apply State.Good.host | apply State.Good.pending | apply State.Good.cont | apply State.Good.whole
    | apply State.Good.chutes | apply State.Good.log | apply State.Good.same | apply State.Good.privs
    | apply State.Good.sram

theorem execHpdLoss_canon (s : State) (hs : s.Good rq) :
    OutGood rq (execHpdLoss s) := by
  unfold execHpdLoss
  repeat' with_reducible first
    | assumption | intro _ | apply State.modDis_canon | apply State.raise_canon | apply State.wr_canon | apply disSet_canon
    | apply linkChanged_canon | apply canon_next | apply canon_iteO | apply canon_ite | split | dsimp only | apply canon_mk
    | apply State.Good.regs | apply State.Good.eff | apply State.Good.dram | apply State.Good.host | apply State.Good.pending
    | apply State.Good.cont | apply State.Good.whole | apply State.Good.chutes | apply State.Good.log | apply State.Good.same
    | apply State.Good.privs
    | apply State.Good.sram

theorem execIrqHpd_canon (lost : Bool) (s : State) (hs : s.Good rq) :
    OutGood rq (execIrqHpd lost s) := by
  unfold execIrqHpd
  repeat' with_reducible first
    | assumption | intro _ | apply State.modDis_canon | apply linkChanged_canon | apply trainLink_canon | apply canon_next
    | apply canon_iteO | apply canon_ite | split | dsimp only | apply canon_mk | apply State.Good.regs | apply State.Good.eff
    | apply State.Good.dram | apply State.Good.host | apply State.Good.pending | apply State.Good.cont
    | apply State.Good.whole | apply State.Good.chutes | apply State.Good.log | apply State.Good.same | apply State.Good.privs
    | apply State.Good.sram

theorem execHpdRise_canon (s : State) (hs : s.Good rq) :
    OutGood rq (execHpdRise s) := by
  unfold execHpdRise
  repeat' with_reducible first
    | assumption | intro _ | apply State.wr_canon | apply trainLink_canon | apply canon_next | apply canon_iteO
    | apply canon_ite | split | dsimp only | apply canon_mk | apply State.Good.regs | apply State.Good.eff
    | apply State.Good.dram | apply State.Good.host | apply State.Good.pending | apply State.Good.cont
    | apply State.Good.whole | apply State.Good.chutes | apply State.Good.log | apply State.Good.same | apply State.Good.privs
    | apply State.Good.sram

end Sys2Proof.Machine
end

