-- ==== Sys2Proof/Laws/CanonPqOps.lean ====
section
/-!
SUPPORT. What Machine/PqOps.lean defines keeps the canonical form of what is stored.
-/

namespace Sys2Proof.Machine

variable {rq : Kept}

theorem pqRegs_canon (s : State) (hs : s.Good rq) :
    (pqRegs s).Good rq := by
  unfold pqRegs
  repeat' with_reducible first
    | assumption | intro _ | apply State.wr_canon | split | dsimp only

theorem drainWake_canon (s : State) (hs : s.Good rq) :
    (drainWake s).Good rq := by
  unfold drainWake
  repeat' with_reducible first
    | assumption | intro _ | apply askRecord_canon | apply canon_ite | split | dsimp only

theorem finHand_canon (s : State) (stream wend : Nat) (bs : List Byte) (hd : rq.mem = none) (hs : s.Good rq) :
    (finHand s stream wend bs).Good rq := by
  unfold finHand
  repeat' with_reducible first
    | assumption | intro _ | apply State.bump_canon | apply State.modEng_canon | apply State.raise_canon
    | apply drainWake_canon | apply pqRegs_canon | apply pushResult_canon | apply canon_ite | split | dsimp only
    | apply canon_mk | apply State.Good.regs | apply State.Good.eff | apply State.Good.dram | apply State.Good.host
    | apply State.Good.pending | apply State.Good.cont | apply State.Good.whole | apply State.Good.chutes
    | apply State.Good.log | apply State.Good.same | apply State.Good.privs
    | apply State.Good.sram

theorem finEmit_canon (s : State) (drop : Nat) (late : Bool) (o : FinOut) (hd : rq.mem = none) (hs : s.Good rq) :
    (finEmit s drop late o).Good rq := by
  unfold finEmit
  repeat' with_reducible first
    | assumption | intro _ | apply State.bump_canon | apply State.raise_canon | apply finHand_canon | apply canon_ite | split
    | dsimp only

theorem State.modGrp_canon (s : State) (ctx g : Nat) (f : Grp → Grp) (hs : s.Good rq) :
    (State.modGrp s ctx g f).Good rq := by
  unfold State.modGrp
  repeat' with_reducible first
    | assumption | intro _ | apply State.modEng_canon | apply canon_ite | split | dsimp only | apply canon_mk
    | apply State.Good.regs | apply State.Good.eff | apply State.Good.dram | apply State.Good.host | apply State.Good.pending
    | apply State.Good.cont | apply State.Good.whole | apply State.Good.chutes | apply State.Good.log | apply State.Good.same
    | apply State.Good.privs
    | apply State.Good.sram

theorem grpOpen_canon (s : State) (r : MemRec) (hs : s.Good rq) :
    (grpOpen s r).Good rq := by
  unfold grpOpen
  repeat' with_reducible first
    | assumption | intro _ | apply State.modEng_canon | apply canon_ite | split | dsimp only | apply canon_mk
    | apply State.Good.regs | apply State.Good.eff | apply State.Good.dram | apply State.Good.host | apply State.Good.pending
    | apply State.Good.cont | apply State.Good.whole | apply State.Good.chutes | apply State.Good.log | apply State.Good.same
    | apply State.Good.privs
    | apply State.Good.sram

theorem emit01_canon (s : State) (c : Chain) (r : MemRec) (k : Nat) (late : Bool) (seq wend wlen : Nat) (hd : rq.mem = none) (hs : s.Good rq) :
    (emit01 s c r k late seq wend wlen).Good rq := by
  unfold emit01
  repeat' with_reducible first
    | assumption | intro _ | apply finEmit_canon | split | dsimp only

theorem emit2_canon (s : State) (cs : List Chain) (rows : List (Nat × List Nat)) (flags k : Nat) (late : Bool) (seq wend wlen : Nat) (hd : rq.mem = none) (hs : s.Good rq) :
    (emit2 s cs rows flags k late seq wend wlen).Good rq := by
  unfold emit2
  repeat' with_reducible first
    | assumption | intro _ | apply finEmit_canon | apply canon_ite1 | apply canon_ite2
    | refine canon_fst_of (by assumption) ?_ | refine canon_snd_of (by assumption) ?_ | split | dsimp only | apply canon_mk
    | apply State.Good.regs | apply State.Good.eff | apply State.Good.dram | apply State.Good.host | apply State.Good.pending
    | apply State.Good.cont | apply State.Good.whole | apply State.Good.chutes | apply State.Good.log | apply State.Good.same
    | apply State.Good.privs
    | apply State.Good.sram

theorem try2_canon (s : State) (ctx g w : Nat) (hd : rq.mem = none) (hs : s.Good rq) :
    (try2 s ctx g w).Good rq := by
  unfold try2
  repeat' with_reducible first
    | assumption | intro _ | apply State.modGrp_canon | apply emit2_canon | apply canon_ite | apply canon_foldl
    | apply canon_foldl1 | apply canon_foldl2 | refine canon_fst_of (by assumption) ?_
    | refine canon_snd_of (by assumption) ?_ | split | dsimp only | apply canon_mk | apply State.Good.regs
    | apply State.Good.eff | apply State.Good.dram | apply State.Good.host | apply State.Good.pending | apply State.Good.cont
    | apply State.Good.whole | apply State.Good.chutes | apply State.Good.log | apply State.Good.same | apply State.Good.privs
    | apply State.Good.sram

theorem pqPrune_canon (s : State) (ctx g : Nat) (hs : s.Good rq) :
    (pqPrune s ctx g).Good rq := by
  unfold pqPrune
  repeat' with_reducible first
    | assumption | intro _ | apply State.modEng_canon | refine canon_fst_of (by assumption) ?_
    | refine canon_snd_of (by assumption) ?_ | split | dsimp only | apply canon_mk | apply State.Good.regs
    | apply State.Good.eff | apply State.Good.dram | apply State.Good.host | apply State.Good.pending | apply State.Good.cont
    | apply State.Good.whole | apply State.Good.chutes | apply State.Good.log | apply State.Good.same | apply State.Good.privs
    | apply State.Good.sram

theorem finTake_canon (s : State) (r : MemRec) (c : Chain) (hd : rq.mem = none) (hs : s.Good rq) :
    (finTake s r c).Good rq := by
  unfold finTake
  repeat' with_reducible first
    | assumption | intro _ | apply State.modEng_canon | apply State.modGrp_canon | apply emit01_canon | apply grpOpen_canon
    | apply pqPrune_canon | apply try2_canon | apply canon_ite | refine canon_fst_of (by assumption) ?_
    | refine canon_snd_of (by assumption) ?_ | split | dsimp only | apply canon_mk | apply State.Good.regs
    | apply State.Good.eff | apply State.Good.dram | apply State.Good.host | apply State.Good.pending | apply State.Good.cont
    | apply State.Good.whole | apply State.Good.chutes | apply State.Good.log | apply State.Good.same | apply State.Good.privs
    | apply State.Good.sram

theorem emitIval_canon (s : State) (cs : List Chain) (rows : List AggRow) (k seq wend wlen : Nat) (st : List Nat) (late : Bool) (hd : rq.mem = none) (hs : s.Good rq) :
    (emitIval s cs rows k seq wend wlen st late).Good rq := by
  unfold emitIval
  repeat' with_reducible first
    | assumption | intro _ | apply emit01_canon | apply emit2_canon | apply finEmit_canon | apply canon_ite
    | apply canon_foldl | apply canon_foldl1 | apply canon_foldl2 | refine canon_fst_of (by assumption) ?_
    | refine canon_snd_of (by assumption) ?_ | split | dsimp only | apply canon_mk | apply State.Good.regs
    | apply State.Good.eff | apply State.Good.dram | apply State.Good.host | apply State.Good.pending | apply State.Good.cont
    | apply State.Good.whole | apply State.Good.chutes | apply State.Good.log | apply State.Good.same | apply State.Good.privs
    | apply State.Good.sram

theorem cycleEnd_canon (s : State) (x : Grp) (hd : rq.mem = none) (hs : s.Good rq) :
    (cycleEnd s x).Good rq := by
  unfold cycleEnd
  repeat' with_reducible first
    | assumption | intro _ | apply State.modGrp_canon | apply emitIval_canon | apply pqPrune_canon | apply canon_ite
    | apply canon_ite1 | apply canon_ite2 | apply canon_foldl | apply canon_foldl1 | apply canon_foldl2
    | refine canon_fst_of (by assumption) ?_ | refine canon_snd_of (by assumption) ?_ | split | dsimp only | apply canon_mk
    | apply State.Good.regs | apply State.Good.eff | apply State.Good.dram | apply State.Good.host | apply State.Good.pending
    | apply State.Good.cont | apply State.Good.whole | apply State.Good.chutes | apply State.Good.log | apply State.Good.same
    | apply State.Good.privs
    | apply State.Good.sram

theorem tenMinEnd_canon (s : State) (x : Grp) (hd : rq.mem = none) (hs : s.Good rq) :
    (tenMinEnd s x).Good rq := by
  unfold tenMinEnd
  repeat' with_reducible first
    | assumption | intro _ | apply State.modEng_canon | apply State.modGrp_canon | apply emitIval_canon
    | apply pqPrune_canon | apply canon_ite | apply canon_ite1 | apply canon_foldl | apply canon_foldl1 | apply canon_foldl2
    | apply tick_canon | apply canon_ite2 | split | dsimp only | apply canon_mk | apply State.Good.regs
    | apply State.Good.eff | apply State.Good.dram | apply State.Good.host | apply State.Good.pending
    | apply State.Good.cont | apply State.Good.whole | apply State.Good.chutes | apply State.Good.log
    | apply State.Good.same | apply State.Good.privs | apply State.Good.sram

theorem twoHourEnd_canon (s : State) (x : Grp) (hd : rq.mem = none) (hs : s.Good rq) :
    (twoHourEnd s x).Good rq := by
  unfold twoHourEnd
  repeat' with_reducible first
    | assumption | intro _ | apply State.modEng_canon | apply State.modGrp_canon | apply emitIval_canon | apply canon_ite
    | apply canon_foldl | apply canon_foldl1 | apply canon_foldl2 | apply tick_canon | apply canon_ite1 | apply canon_ite2
    | split | dsimp only | apply canon_mk | apply State.Good.regs | apply State.Good.eff | apply State.Good.dram
    | apply State.Good.host | apply State.Good.pending | apply State.Good.cont | apply State.Good.whole
    | apply State.Good.chutes | apply State.Good.log | apply State.Good.same | apply State.Good.privs
    | apply State.Good.sram

theorem flickTick_canon (s : State) (c : Chain) (f : FlickAcc) (hd : rq.mem = none) (hs : s.Good rq) :
    (flickTick s c f).Good rq := by
  unfold flickTick
  repeat' with_reducible first
    | assumption | intro _ | apply State.modEng_canon | apply finEmit_canon | apply canon_ite | apply canon_ite1
    | apply canon_ite2 | apply tick_canon | split | dsimp only | apply canon_mk | apply State.Good.regs
    | apply State.Good.eff | apply State.Good.dram | apply State.Good.host | apply State.Good.pending
    | apply State.Good.cont | apply State.Good.whole | apply State.Good.chutes | apply State.Good.log
    | apply State.Good.same | apply State.Good.privs | apply State.Good.sram

end Sys2Proof.Machine
end

