-- ==== Sys2Proof/Laws/CanonEng.lean ====
section
/-!
SUPPORT. What Machine/Eng.lean defines keeps the canonical form of what is stored.
-/

namespace Sys2Proof.Machine

variable {rq : Kept}

theorem chainPut_canon (s : State) (c : Chain) (hs : s.Good rq) :
    (chainPut s c).Good rq := by
  unfold chainPut
  repeat' with_reducible first
    | assumption | intro _ | apply State.modCon_canon | apply State.modEng_canon | apply admRegs_canon | apply barnPower_canon
    | apply canon_ite | split | dsimp only | apply canon_mk | apply State.Good.regs | apply State.Good.eff
    | apply State.Good.dram | apply State.Good.host | apply State.Good.pending | apply State.Good.cont
    | apply State.Good.whole | apply State.Good.chutes | apply State.Good.log | apply State.Good.same | apply State.Good.privs
    | apply State.Good.sram

theorem chainPlace_canon (s : State) (ctx : Nat) (a : ChainAsk) (hs : s.Good rq) :
    (chainPlace s ctx a).Good rq := by
  unfold chainPlace
  repeat' with_reducible first
    | assumption | intro _ | apply chainPut_canon | apply fSt_canon | apply canon_iteF | apply canon_final | apply canon_wait
    | apply canon_pend | apply canon_ite | apply canon_foldl | apply canon_foldl1 | apply canon_foldl2
    | refine canon_fst_of (by assumption) ?_ | refine canon_snd_of (by assumption) ?_ | split | dsimp only | apply canon_mk
    | apply State.Good.regs | apply State.Good.eff | apply State.Good.dram | apply State.Good.host | apply State.Good.pending
    | apply State.Good.cont | apply State.Good.whole | apply State.Good.chutes | apply State.Good.log | apply State.Good.same
    | apply State.Good.privs
    | apply State.Good.sram

theorem execChainLoad_canon (p : Packet) (s : State) (hs : s.Good rq) :
    OutGood rq (execChainLoad p s) := by
  unfold execChainLoad
  repeat' with_reducible first
    | assumption | intro _ | apply chainPlace_canon | apply fcpStep_canon | apply canon_next | apply canon_iteO
    | apply canon_iteF | apply canon_final | apply canon_wait | apply canon_pend | split | dsimp only

theorem execChainUnload_canon (p : Packet) (s : State) (hs : s.Good rq) :
    OutGood rq (execChainUnload p s) := by
  unfold execChainUnload
  repeat' with_reducible first
    | assumption | intro _ | apply State.modChain_canon | apply admRegs_canon | apply fSt_canon | apply fcpStep_canon
    | apply unloadChain_canon | apply canon_next | apply canon_iteO | apply canon_iteF | apply canon_final | apply canon_wait
    | apply canon_pend | apply canon_ite | refine canon_fst_of (by assumption) ?_ | refine canon_snd_of (by assumption) ?_
    | split | dsimp only | apply canon_mk | apply State.Good.regs | apply State.Good.eff | apply State.Good.dram
    | apply State.Good.host | apply State.Good.pending | apply State.Good.cont | apply State.Good.whole
    | apply State.Good.chutes | apply State.Good.log | apply State.Good.same | apply State.Good.privs
    | apply State.Good.sram

theorem chainBegin_canon (s : State) (id t : Nat) (hs : s.Good rq) :
    (chainBegin s id t).Good rq := by
  unfold chainBegin
  repeat' with_reducible first
    | assumption | intro _ | apply State.modChain_canon | apply canon_ite | split | dsimp only | apply canon_mk
    | apply State.Good.regs | apply State.Good.eff | apply State.Good.dram | apply State.Good.host | apply State.Good.pending
    | apply State.Good.cont | apply State.Good.whole | apply State.Good.chutes | apply State.Good.log | apply State.Good.same
    | apply State.Good.privs
    | apply State.Good.sram

theorem execChainStart_canon (p : Packet) (s : State) (hs : s.Good rq) :
    OutGood rq (execChainStart p s) := by
  unfold execChainStart
  repeat' with_reducible first
    | assumption | intro _ | apply State.modChain_canon | apply chainBegin_canon | apply drains_canon | apply fOk_canon
    | apply fSt_canon | apply fcpStep_canon | apply canon_next | apply canon_iteO | apply canon_iteF | apply canon_final
    | apply canon_wait | apply canon_pend | apply canon_ite | split | dsimp only | apply canon_mk | apply State.Good.regs
    | apply State.Good.eff | apply State.Good.dram | apply State.Good.host | apply State.Good.pending | apply State.Good.cont
    | apply State.Good.whole | apply State.Good.chutes | apply State.Good.log | apply State.Good.same | apply State.Good.privs
    | apply State.Good.sram

theorem hostRun_canon (p : Packet) (s : State) (c : Chain) (hs : s.Good rq) :
    (hostRun p s c).Good rq := by
  unfold hostRun
  repeat' with_reducible first
    | assumption | intro _ | apply State.modChain_canon | apply State.modEng_canon | apply barnRegs_canon | split | dsimp only
    | apply canon_mk | apply State.Good.regs | apply State.Good.eff | apply State.Good.dram | apply State.Good.host
    | apply State.Good.pending | apply State.Good.cont | apply State.Good.whole | apply State.Good.chutes
    | apply State.Good.log | apply State.Good.same | apply State.Good.privs
    | apply State.Good.sram

theorem execChainRun_canon (p : Packet) (s : State) (hs : s.Good rq) :
    OutGood rq (execChainRun p s) := by
  unfold execChainRun
  repeat' with_reducible first
    | assumption | intro _ | apply fSt_canon | apply fcpStep_canon | apply hostRun_canon | apply canon_next | apply canon_iteO
    | apply canon_iteF | apply canon_final | apply canon_wait | apply canon_pend | apply canon_ite
    | refine canon_fst_of (by assumption) ?_ | refine canon_snd_of (by assumption) ?_ | split | dsimp only | apply canon_mk
    | apply State.Good.regs | apply State.Good.eff | apply State.Good.dram | apply State.Good.host | apply State.Good.pending
    | apply State.Good.cont | apply State.Good.whole | apply State.Good.chutes | apply State.Good.log | apply State.Good.same
    | apply State.Good.privs
    | apply State.Good.sram

theorem execChainStatus_canon (p : Packet) (s : State) (hs : s.Good rq) :
    OutGood rq (execChainStatus p s) := by
  unfold execChainStatus
  repeat' with_reducible first
    | assumption | intro _ | apply fSt_canon | apply fcpStep_canon | apply canon_next | apply canon_iteO | apply canon_iteF
    | apply canon_final | apply canon_wait | apply canon_pend | refine canon_fst_of (by assumption) ?_
    | refine canon_snd_of (by assumption) ?_ | split | dsimp only | apply canon_mk | apply State.Good.regs
    | apply State.Good.eff | apply State.Good.dram | apply State.Good.host | apply State.Good.pending | apply State.Good.cont
    | apply State.Good.whole | apply State.Good.chutes | apply State.Good.log | apply State.Good.same | apply State.Good.privs
    | apply State.Good.sram

theorem execEngStatus_canon (p : Packet) (s : State) (hs : s.Good rq) :
    OutGood rq (execEngStatus p s) := by
  unfold execEngStatus
  repeat' with_reducible first
    | assumption | intro _ | apply State.zeroFields_canon | apply fcpStep_canon | apply canon_next | apply canon_iteO
    | apply canon_iteF | apply canon_final | apply canon_wait | apply canon_pend | apply canon_ite | split | dsimp only

theorem State.dropJob_canon (s : State) (id seq : Nat) (hs : s.Good rq) :
    (State.dropJob s id seq).Good rq := by
  unfold State.dropJob
  repeat' with_reducible first
    | assumption | intro _ | apply State.modEng_canon | split | dsimp only | apply canon_mk | apply State.Good.regs
    | apply State.Good.eff | apply State.Good.dram | apply State.Good.host | apply State.Good.pending | apply State.Good.cont
    | apply State.Good.whole | apply State.Good.chutes | apply State.Good.log | apply State.Good.same | apply State.Good.privs
    | apply State.Good.sram

theorem resultOut_canon (s : State) (n stream : Nat) (bs : List Byte) (wend : Nat) (hd : rq.mem = none) (hs : s.Good rq) :
    (resultOut s n stream bs wend).Good rq := by
  unfold resultOut
  repeat' with_reducible first
    | assumption | intro _ | apply State.bump_canon | apply State.modEng_canon | apply engOnce_canon | apply pushResult_canon
    | apply canon_ite | split | dsimp only | apply canon_mk | apply State.Good.regs | apply State.Good.eff
    | apply State.Good.dram | apply State.Good.host | apply State.Good.pending | apply State.Good.cont
    | apply State.Good.whole | apply State.Good.chutes | apply State.Good.log | apply State.Good.same | apply State.Good.privs
    | apply State.Good.sram

theorem commitRes_canon (s : State) (c : Chain) (j : Job) (rs : List ResOut) (hd : rq.mem = none) (hs : s.Good rq) :
    (commitRes s c j rs).Good rq := by
  unfold commitRes
  repeat' with_reducible first
    | assumption | intro _ | apply State.modEng_canon | apply resultOut_canon | apply canon_ite | apply canon_foldl
    | apply canon_foldl1 | apply canon_foldl2 | refine canon_fst_of (by assumption) ?_
    | refine canon_snd_of (by assumption) ?_ | split | dsimp only | apply canon_mk | apply State.Good.regs
    | apply State.Good.eff | apply State.Good.dram | apply State.Good.host | apply State.Good.pending | apply State.Good.cont
    | apply State.Good.whole | apply State.Good.chutes | apply State.Good.log | apply State.Good.same | apply State.Good.privs
    | apply State.Good.sram

theorem commitBns_canon (s : State) (j : Job) (l : List (Nat × Nat)) (hd : rq.mem = none) (hs : s.Good rq) :
    (commitBns s j l).Good rq := by
  unfold commitBns
  repeat' with_reducible first
    | assumption | intro _ | apply bnArrive_canon | apply trgRefresh_canon | apply canon_ite | apply canon_ite1
    | apply canon_ite2 | apply canon_foldl | apply canon_foldl1 | apply canon_foldl2 | split | dsimp only

theorem commitHost_canon (s : State) (c : Chain) (j : Job) (l : List (Nat × Nat × List Byte)) (hs : s.Good rq) :
    (commitHost s c j l).Good rq := by
  unfold commitHost
  repeat' with_reducible first
    | assumption | intro _ | apply emitPush_canon | apply canon_ite | apply canon_ite1 | apply canon_ite2 | apply canon_foldl
    | apply canon_foldl1 | apply canon_foldl2 | split | dsimp only

theorem flickGap_canon (s : State) (id : Nat) (hs : s.Good rq) :
    (flickGap s id).Good rq := by
  unfold flickGap
  repeat' with_reducible first
    | assumption | intro _ | apply State.modEng_canon | apply canon_ite | split | dsimp only | apply canon_mk
    | apply State.Good.regs | apply State.Good.eff | apply State.Good.dram | apply State.Good.host | apply State.Good.pending
    | apply State.Good.cont | apply State.Good.whole | apply State.Good.chutes | apply State.Good.log | apply State.Good.same
    | apply State.Good.privs
    | apply State.Good.sram

theorem commitJob_canon (s : State) (c : Chain) (j : Job) (o : Staged) (hd : rq.mem = none) (hs : s.Good rq) :
    (commitJob s c j o).Good rq := by
  unfold commitJob
  repeat' with_reducible first
    | assumption | intro _ | apply State.bump_canon | apply State.bump64_canon | apply State.dropJob_canon
    | apply State.finish_canon | apply State.modChain_canon | apply commitBns_canon | apply commitHost_canon
    | apply commitRes_canon | apply flickGap_canon | apply mapCommit_canon | apply canon_ite
    | refine canon_fst_of (by assumption) ?_ | refine canon_snd_of (by assumption) ?_ | split | dsimp only | apply canon_mk
    | apply State.Good.regs | apply State.Good.eff | apply State.Good.dram | apply State.Good.host | apply State.Good.pending
    | apply State.Good.cont | apply State.Good.whole | apply State.Good.chutes | apply State.Good.log | apply State.Good.same
    | apply State.Good.privs
    | apply State.Good.sram

theorem commitSealed_canon (s : State) (c : Chain) (j : Job) (o : Staged) (hd : rq.mem = none) (hs : s.Good rq) :
    (commitSealed s c j o).Good rq := by
  unfold commitSealed
  repeat' with_reducible first
    | assumption | intro _ | apply canon_ite | apply canon_ite1 | apply canon_ite2 | apply State.bump_canon
    | apply State.dropJob_canon | apply State.raiseAt_canon | apply commitJob_canon | split | dsimp only

theorem commitBefore_canon (s : State) (test : Chain → Job → Bool) (hd : rq.mem = none) (hs : s.Good rq) :
    (commitBefore s test).Good rq := by
  unfold commitBefore
  repeat' with_reducible first
    | assumption | intro _ | apply canon_ite | apply canon_ite1 | apply canon_ite2 | apply canon_foldl | apply canon_foldl1
    | apply canon_foldl2 | apply commitSealed_canon | split | dsimp only

theorem moveEngine_canon (s : State) (n sp : Nat) (hs : s.Good rq) :
    (moveEngine s n sp).Good rq := by
  unfold moveEngine
  repeat' with_reducible first
    | assumption | intro _ | apply State.modCon_canon | apply State.modEng_canon | apply canon_ite | split | dsimp only
    | apply canon_mk | apply State.Good.regs | apply State.Good.eff | apply State.Good.dram | apply State.Good.host
    | apply State.Good.pending | apply State.Good.cont | apply State.Good.whole | apply State.Good.chutes
    | apply State.Good.log | apply State.Good.same | apply State.Good.privs
    | apply State.Good.sram

theorem rerunOn_canon (s : State) (n : Nat) (hs : s.Good rq) :
    (rerunOn s n).1.Good rq := by
  unfold rerunOn
  repeat' with_reducible first
    | assumption | intro _ | apply State.bump_canon | apply State.modChain_canon | apply State.modEng_canon | apply canon_ite
    | apply canon_ite1 | apply canon_foldl | apply canon_foldl1 | apply canon_foldl2 | split | dsimp only | apply canon_mk
    | apply State.Good.regs | apply State.Good.eff | apply State.Good.dram | apply State.Good.host | apply State.Good.pending
    | apply State.Good.cont | apply State.Good.whole | apply State.Good.chutes | apply State.Good.log | apply State.Good.same
    | apply State.Good.privs
    | apply State.Good.sram

theorem fenceEvent_canon (s : State) (ctxs : List Nat) (n sp typ jobs mask broken : Nat) (hs : s.Good rq) :
    (fenceEvent s ctxs n sp typ jobs mask broken).Good rq := by
  unfold fenceEvent
  repeat' with_reducible first
    | assumption | intro _ | apply State.postEvent_canon | apply canon_foldl | apply canon_foldl1 | apply canon_foldl2 | split
    | dsimp only

theorem fenceMark_canon (s : State) (n typ ts : Nat) (predict : Bool) (hs : s.Good rq) :
    (fenceMark s n typ ts predict).Good rq := by
  unfold fenceMark
  repeat' with_reducible first
    | assumption | intro _ | apply State.modEng_canon | apply State.wrTs_canon | apply State.wrs_canon
    | apply lockForceOf_canon | apply canon_ite | apply canon_ite1 | split | dsimp only | apply canon_mk
    | apply State.Good.regs | apply State.Good.eff | apply State.Good.dram | apply State.Good.host | apply State.Good.pending
    | apply State.Good.cont | apply State.Good.whole | apply State.Good.chutes | apply State.Good.log | apply State.Good.same
    | apply State.Good.privs
    | apply State.Good.sram

theorem fence_canon (s : State) (n typ ts : Nat) (predict : Bool) (hd : rq.mem = none) (hs : s.Good rq) :
    (fence s n typ ts predict).Good rq := by
  unfold fence
  repeat' with_reducible first
    | assumption | intro _ | apply State.modEng_canon | apply State.raiseAt_canon | apply State.wr_canon
    | apply admitRerun_canon | apply barnRegs_canon | apply budgetCheck_canon | apply drains_canon | apply fenceEvent_canon
    | apply fenceMark_canon | apply moveEngine_canon | apply rerunOn_canon | apply canon_ite
    | refine canon_fst_of (by assumption) ?_ | refine canon_snd_of (by assumption) ?_ | apply commitBefore_canon
    | apply canon_ite1 | apply canon_ite2 | split | dsimp only | apply canon_mk | apply State.Good.regs
    | apply State.Good.eff | apply State.Good.dram | apply State.Good.host | apply State.Good.pending
    | apply State.Good.cont | apply State.Good.whole | apply State.Good.chutes | apply State.Good.log
    | apply State.Good.same | apply State.Good.privs | apply State.Good.sram

theorem lmemCe_canon (s : State) (n : Nat) (hd : rq.mem = none) (hs : s.Good rq) :
    (lmemCe s n).Good rq := by
  unfold lmemCe
  repeat' with_reducible first
    | assumption | intro _ | apply State.bump_canon | apply State.modEng_canon | apply State.raise_canon
    | apply State.wr_canon | apply fence_canon | apply canon_ite | apply canon_ite2 | split | dsimp only | apply canon_mk
    | apply State.Good.regs | apply State.Good.eff | apply State.Good.dram | apply State.Good.host | apply State.Good.pending
    | apply State.Good.cont | apply State.Good.whole | apply State.Good.chutes | apply State.Good.log | apply State.Good.same
    | apply State.Good.privs
    | apply State.Good.sram

theorem execEngineFault_canon (n typ : Nat) (s : State) (hd : rq.mem = none) (hs : s.Good rq) :
    OutGood rq (execEngineFault n typ s) := by
  unfold execEngineFault
  repeat' with_reducible first
    | assumption | intro _ | apply fence_canon | apply lmemCe_canon | apply canon_next | apply canon_iteO | apply canon_ite
    | split | dsimp only

theorem execEngineWatchdog_canon (n : Nat) (s : State) (hd : rq.mem = none) (hs : s.Good rq) :
    OutGood rq (execEngineWatchdog n s) := by
  unfold execEngineWatchdog
  repeat' with_reducible first
    | assumption | intro _ | apply fence_canon | apply canon_next | apply canon_iteO | apply canon_ite
    | refine canon_fst_of (by assumption) ?_ | refine canon_snd_of (by assumption) ?_ | split | dsimp only | apply canon_mk
    | apply State.Good.regs | apply State.Good.eff | apply State.Good.dram | apply State.Good.host | apply State.Good.pending
    | apply State.Good.cont | apply State.Good.whole | apply State.Good.chutes | apply State.Good.log | apply State.Good.same
    | apply State.Good.privs
    | apply State.Good.sram

theorem execSpareActivate_canon (b : Nat) (s : State) (hs : s.Good rq) :
    OutGood rq (execSpareActivate b s) := by
  unfold execSpareActivate
  repeat' with_reducible first
    | assumption | intro _ | apply State.modEng_canon | apply barnRegs_canon | apply canon_next | apply canon_iteO | split
    | dsimp only | apply canon_mk | apply State.Good.regs | apply State.Good.eff | apply State.Good.dram
    | apply State.Good.host | apply State.Good.pending | apply State.Good.cont | apply State.Good.whole
    | apply State.Good.chutes | apply State.Good.log | apply State.Good.same | apply State.Good.privs
    | apply State.Good.sram

theorem fenceBarn_canon (s : State) (b : Nat) (hd : rq.mem = none) (hs : s.Good rq) :
    (fenceBarn s b).Good rq := by
  unfold fenceBarn
  repeat' with_reducible first
    | assumption | intro _ | apply State.modEng_canon | apply State.raise_canon | apply State.wrs_canon
    | apply admitRerun_canon | apply barnRegs_canon | apply drains_canon | apply fenceEvent_canon | apply fenceMark_canon
    | apply canon_ite | apply canon_ite1 | apply canon_ite2 | apply canon_foldl | apply canon_foldl1 | apply canon_foldl2
    | refine canon_fst_of (by assumption) ?_ | refine canon_snd_of (by assumption) ?_ | apply State.wr_canon
    | apply commitBefore_canon | split | dsimp only | apply canon_mk | apply State.Good.regs | apply State.Good.eff
    | apply State.Good.dram | apply State.Good.host | apply State.Good.pending | apply State.Good.cont
    | apply State.Good.whole | apply State.Good.chutes | apply State.Good.log | apply State.Good.same
    | apply State.Good.privs | apply State.Good.sram

theorem execCommitUnitError_canon (b : Nat) (ok : Bool) (s : State) (hd : rq.mem = none) (hs : s.Good rq) :
    OutGood rq (execCommitUnitError b ok s) := by
  unfold execCommitUnitError
  repeat' with_reducible first
    | assumption | intro _ | apply State.raise_canon | apply fenceBarn_canon | apply canon_next | apply canon_iteO
    | apply canon_ite | split | dsimp only

theorem execEngUnfence_canon (p : Packet) (s : State) (hs : s.Good rq) :
    OutGood rq (execEngUnfence p s) := by
  unfold execEngUnfence
  repeat' with_reducible first
    | assumption | intro _ | apply State.modEng_canon | apply barnRegs_canon | apply fcpStep_canon | apply canon_next
    | apply canon_iteO | apply canon_iteF | apply canon_final | apply canon_wait | apply canon_pend | apply canon_ite1 | split
    | dsimp only | apply canon_mk | apply State.Good.regs | apply State.Good.eff | apply State.Good.dram
    | apply State.Good.host | apply State.Good.pending | apply State.Good.cont | apply State.Good.whole
    | apply State.Good.chutes | apply State.Good.log | apply State.Good.same | apply State.Good.privs
    | apply State.Good.sram

theorem testEnd_canon (s : State) (n : Nat) (hs : s.Good rq) :
    (testEnd s n).Good rq := by
  unfold testEnd
  repeat' with_reducible first
    | assumption | intro _ | apply State.modEng_canon | apply canon_ite1 | split | dsimp only | apply canon_mk
    | apply State.Good.regs | apply State.Good.eff | apply State.Good.dram | apply State.Good.host | apply State.Good.pending
    | apply State.Good.cont | apply State.Good.whole | apply State.Good.chutes | apply State.Good.log | apply State.Good.same
    | apply State.Good.privs
    | apply State.Good.sram

theorem engReturn_canon (s : State) (n : Nat) (hs : s.Good rq) :
    (engReturn s n).Good rq := by
  unfold engReturn
  repeat' with_reducible first
    | assumption | intro _ | apply State.modEng_canon | apply State.wr_canon | apply ackResource_canon | apply canon_ite
    | split | dsimp only | apply canon_mk | apply State.Good.regs | apply State.Good.eff | apply State.Good.dram
    | apply State.Good.host | apply State.Good.pending | apply State.Good.cont | apply State.Good.whole
    | apply State.Good.chutes | apply State.Good.log | apply State.Good.same | apply State.Good.privs
    | apply State.Good.sram

theorem execUnfenceSelfTestDone_canon (n : Nat) (ok : Bool) (s : State) (hs : s.Good rq) :
    OutGood rq (execUnfenceSelfTestDone n ok s) := by
  unfold execUnfenceSelfTestDone
  repeat' with_reducible first
    | assumption | intro _ | apply State.takeBits_canon | apply State.wake_canon | apply admRegs_canon | apply barnRegs_canon
    | apply capRisen_canon | apply engReturn_canon | apply testEnd_canon | apply canon_next | apply canon_iteO
    | apply canon_ite | apply canon_ite1 | apply canon_ite2 | split | dsimp only

/-- A fold that may give up keeps what each of its steps keeps. -/
theorem canon_foldlO {α : Type} {f : Option State → α → Option State} {l : List α} {a : Option State} {t : State}
    (hf : ∀ a x u, f a x = some u → ∃ w, a = some w ∧ (w.Good rq → u.Good rq)) (ha : ∀ w, a = some w → w.Good rq)
    (h : l.foldl f a = some t) : t.Good rq := by
  induction l generalizing a with
  | nil => exact ha t h
  | cons x l ih =>
    refine ih (fun w hw => ?_) h
    obtain ⟨v, hv, k⟩ := hf a x w hw
    exact k (ha v hv)

theorem canon_someO {a t : State} (h : some a = some t) (ha : a.Good rq) : t.Good rq := by
  injection h with h
  rwa [← h]

theorem guardBarn_canon {s t : State} {b : Nat} {g : Bool} {sel : Nat} (hs : s.Good rq) (h : guardBarn s b g sel = some t) :
    t.Good rq := by
  unfold guardBarn at h
  dsimp only at h
  split at h
  · exact canon_someO h hs
  · split at h
    · contradiction
    · split at h
      · contradiction
      · rename_i s2 e
        split at h
        · refine canon_someO h (canon_foldlO ?_ ?_ e)
          · intro a x u hu
            cases a with
            | none => exact (Option.some_ne_none _ hu.symm).elim
            | some w =>
              refine ⟨w, rfl, fun hw => ?_⟩
              dsimp only at hu
              split at hu
              · exact canon_someO hu hw
              · split at hu
                · contradiction
                · split at hu
                  · exact canon_someO hu (applyMoves_canon _ _ _ hw)
                  · split at hu
                    · contradiction
                    · exact canon_someO hu (applyMoves_canon _ _ _ hw)
          · intro w hw
            exact canon_someO hw (State.modEng_canon _ _ (State.wrs_canon _ hs))
        · contradiction

theorem engCtrlWrite_canon (b v : Nat) (s : State) (hs : s.Good rq) :
    (engCtrlWrite b v s).Good rq := by
  unfold engCtrlWrite
  repeat' with_reducible first
    | assumption | exact guardBarn_canon (by assumption) (by assumption)
    | intro _ | apply State.modEng_canon | apply State.zeroFields_canon | apply barnRegs_canon
    | apply plainWrite_canon | apply canon_ite | split | dsimp only

theorem execEngClrCounters_canon (m b : Nat) (v : Word) (s : State) (hs : s.Good rq) :
    OutGood rq (execEngClrCounters m b v s) := by
  unfold execEngClrCounters
  repeat' with_reducible first
    | assumption | intro _ | apply State.writeBy_canon | apply engCtrlWrite_canon | apply canon_next | apply canon_iteO
    | apply canon_ite | split | dsimp only

theorem guardAll_canon (p : Packet) (s : State) (hs : s.Good rq) :
    (guardAll p s).1.Good rq := by
  unfold guardAll
  refine canon_foldl1 ?_ hs
  intro t x ht
  split
  · exact ht
  · rename_i e
    exact guardBarn_canon ht e

theorem execEngGuard_canon (p : Packet) (s : State) (hs : s.Good rq) :
    OutGood rq (execEngGuard p s) := by
  unfold execEngGuard
  repeat' with_reducible first
    | assumption | intro _ | apply allBarnRegs_canon | apply budgetCheck_canon | apply fcpStep_canon | apply guardAll_canon
    | apply canon_next | apply canon_iteO | apply canon_iteF | apply canon_final | apply canon_wait | apply canon_pend
    | apply canon_ite | apply canon_ite1 | apply canon_ite2 | split | dsimp only

theorem execLiveWindowReady_canon (id : Nat) (s : State) (hs : s.Good rq) :
    OutGood rq (execLiveWindowReady id s) := by
  unfold execLiveWindowReady
  repeat' with_reducible first
    | assumption | intro _ | apply windowReady_canon | apply canon_next | apply canon_iteO | apply canon_ite
    | refine canon_fst_of (by assumption) ?_ | refine canon_snd_of (by assumption) ?_ | split | dsimp only | apply canon_mk
    | apply State.Good.regs | apply State.Good.eff | apply State.Good.dram | apply State.Good.host | apply State.Good.pending
    | apply State.Good.cont | apply State.Good.whole | apply State.Good.chutes | apply State.Good.log | apply State.Good.same
    | apply State.Good.privs
    | apply State.Good.sram

theorem State.modEJob_canon (s : State) (id seq : Nat) (g : Job → Job) (hs : s.Good rq) :
    (State.modEJob s id seq g).Good rq := by
  unfold State.modEJob
  repeat' with_reducible first
    | assumption | intro _ | apply State.modEng_canon | apply canon_ite | split | dsimp only | apply canon_mk
    | apply State.Good.regs | apply State.Good.eff | apply State.Good.dram | apply State.Good.host | apply State.Good.pending
    | apply State.Good.cont | apply State.Good.whole | apply State.Good.chutes | apply State.Good.log | apply State.Good.same
    | apply State.Good.privs
    | apply State.Good.sram

theorem inputLost_canon (s : State) (j : Job) (hs : s.Good rq) :
    (inputLost s j).Good rq := by
  unfold inputLost
  repeat' with_reducible first
    | assumption | intro _ | apply State.bump_canon | apply State.dropJob_canon | apply State.finish_canon
    | apply State.raiseAt_canon | apply barnRegs_canon | apply drains_canon | refine canon_fst_of (by assumption) ?_
    | refine canon_snd_of (by assumption) ?_ | split | dsimp only | apply canon_mk | apply State.Good.regs
    | apply State.Good.eff | apply State.Good.dram | apply State.Good.host | apply State.Good.pending | apply State.Good.cont
    | apply State.Good.whole | apply State.Good.chutes | apply State.Good.log | apply State.Good.same | apply State.Good.privs
    | apply State.Good.sram

theorem takeJob_canon (s : State) (c : Chain) (j : Job) (hs : s.Good rq) :
    (takeJob s c j).Good rq := by
  unfold takeJob
  repeat' with_reducible first
    | assumption | intro _ | apply State.modEJob_canon | apply canon_ite1 | apply canon_ite2 | apply canon_foldl
    | apply canon_foldl1 | apply canon_foldl2 | refine canon_fst_of (by assumption) ?_
    | refine canon_snd_of (by assumption) ?_ | split | dsimp only | apply canon_mk | apply State.Good.regs
    | apply State.Good.eff | apply State.Good.dram | apply State.Good.host | apply State.Good.pending | apply State.Good.cont
    | apply State.Good.whole | apply State.Good.chutes | apply State.Good.log | apply State.Good.same | apply State.Good.privs
    | apply State.Good.sram

theorem execJobDispatch_canon (n : Nat) (s : State) (hs : s.Good rq) :
    OutGood rq (execJobDispatch n s) := by
  unfold execJobDispatch
  repeat' with_reducible first
    | assumption | intro _ | apply barnRegs_canon | apply inputLost_canon | apply takeJob_canon | apply canon_next
    | apply canon_iteO | apply canon_ite | apply canon_ite2 | refine canon_fst_of (by assumption) ?_
    | refine canon_snd_of (by assumption) ?_ | split | dsimp only | apply canon_mk | apply State.Good.regs
    | apply State.Good.eff | apply State.Good.dram | apply State.Good.host | apply State.Good.pending | apply State.Good.cont
    | apply State.Good.whole | apply State.Good.chutes | apply State.Good.log | apply State.Good.same | apply State.Good.privs
    | apply State.Good.sram

theorem sealJob_canon (s : State) (n : Nat) (c : Chain) (j : Job) (hs : s.Good rq) :
    (sealJob s n c j).Good rq := by
  unfold sealJob
  repeat' with_reducible first
    | assumption | intro _ | apply State.modEng_canon | apply State.wr64_canon | apply canon_ite | apply canon_ite1
    | apply canon_ite2 | split | dsimp only | apply canon_mk | apply State.Good.regs | apply State.Good.eff
    | apply State.Good.dram | apply State.Good.host | apply State.Good.pending | apply State.Good.cont
    | apply State.Good.whole | apply State.Good.chutes | apply State.Good.log | apply State.Good.same | apply State.Good.privs
    | apply State.Good.sram

theorem execJobSeal_canon (n : Nat) (s : State) (hd : rq.mem = none) (hs : s.Good rq) :
    OutGood rq (execJobSeal n s) := by
  unfold execJobSeal
  repeat' with_reducible first
    | assumption | intro _ | apply barnRegs_canon | apply fence_canon | apply sealJob_canon | apply canon_next
    | apply canon_iteO | apply canon_ite | refine canon_fst_of (by assumption) ?_ | refine canon_snd_of (by assumption) ?_
    | split | dsimp only | apply canon_mk | apply State.Good.regs | apply State.Good.eff | apply State.Good.dram
    | apply State.Good.host | apply State.Good.pending | apply State.Good.cont | apply State.Good.whole
    | apply State.Good.chutes | apply State.Good.log | apply State.Good.same | apply State.Good.privs
    | apply State.Good.sram

theorem sealBad_canon (s : State) (b : Nat) (c : Chain) (j : Job) (hd : rq.mem = none) (hs : s.Good rq) :
    (sealBad s b c j).Good rq := by
  unfold sealBad
  repeat' with_reducible first
    | assumption | intro _ | apply State.bump_canon | apply State.modChain_canon | apply State.modEJob_canon
    | apply barnRegs_canon | apply fence_canon | apply canon_ite | split | dsimp only | apply canon_mk | apply State.Good.regs
    | apply State.Good.eff | apply State.Good.dram | apply State.Good.host | apply State.Good.pending | apply State.Good.cont
    | apply State.Good.whole | apply State.Good.chutes | apply State.Good.log | apply State.Good.same | apply State.Good.privs
    | apply State.Good.sram

theorem execJobCommit_canon (b : Nat) (bad : Bool) (s : State) (hd : rq.mem = none) (hs : s.Good rq) :
    OutGood rq (execJobCommit b bad s) := by
  unfold execJobCommit
  repeat' with_reducible first
    | assumption | intro _ | apply State.bump_canon | apply State.dropJob_canon | apply State.raiseAt_canon
    | apply barnRegs_canon | apply commitJob_canon | apply drains_canon | apply sealBad_canon | apply canon_next
    | apply canon_iteO | apply canon_ite | refine canon_fst_of (by assumption) ?_ | refine canon_snd_of (by assumption) ?_
    | apply commitSealed_canon | apply canon_ite1 | apply canon_ite2 | split | dsimp only | apply canon_mk
    | apply State.Good.regs | apply State.Good.eff | apply State.Good.dram | apply State.Good.host
    | apply State.Good.pending | apply State.Good.cont | apply State.Good.whole | apply State.Good.chutes
    | apply State.Good.log | apply State.Good.same | apply State.Good.privs | apply State.Good.sram

end Sys2Proof.Machine
end

