-- ==== Sys2Proof/Laws/CanonErr.lean ====
section
/-!
SUPPORT. What Machine/Err.lean defines keeps the canonical form of what is stored.
-/

namespace Sys2Proof.Machine

variable {rq : Kept}

theorem logStore_canon (s : State) (r0 : ErrRec) (hs : s.Good rq) :
    (logStore s r0).Good rq := by
  unfold logStore
  repeat' with_reducible first
    | assumption | intro _ | exact logFits_put hs.log | apply State.bump_canon | apply State.postEvent_canon
    | apply State.wr_canon | apply enterContain_canon | apply openTag_canon | apply sheafDecide_canon | apply canon_ite
    | apply canon_ite1 | split | dsimp only | apply canon_mk | apply State.Good.regs | apply State.Good.eff
    | apply State.Good.dram | apply State.Good.host | apply State.Good.pending | apply State.Good.cont
    | apply State.Good.whole | apply State.Good.chutes | apply State.Good.log | apply State.Good.same | apply State.Good.privs
    | apply State.Good.sram

theorem logTake_canon (s : State) (r0 : ErrRec) (hs : s.Good rq) :
    (logTake s r0).1.Good rq := by
  unfold logTake
  repeat' with_reducible first
    | assumption | intro _ | apply State.bump_canon | apply State.wr_canon | apply logStore_canon | apply openTag_canon
    | apply canon_ite | apply canon_ite1 | refine canon_fst_of (by assumption) ?_ | refine canon_snd_of (by assumption) ?_
    | split | dsimp only | apply canon_mk | apply State.Good.regs | apply State.Good.eff | apply State.Good.dram
    | apply State.Good.host | apply State.Good.pending | apply State.Good.cont | apply State.Good.whole
    | apply State.Good.chutes | apply State.Good.log | apply State.Good.same | apply State.Good.privs
    | apply State.Good.sram

theorem logDrain_canon (s : State) (hs : s.Good rq) :
    (logDrain s).1.Good rq := by
  unfold logDrain
  repeat' with_reducible first
    | assumption | intro _ | exact chutesFit_tail hs.chutes (by assumption) | apply logTake_canon | apply canon_ite1
    | apply canon_ite2 | refine canon_fst_of (by assumption) ?_ | refine canon_snd_of (by assumption) ?_ | split | dsimp only
    | apply canon_mk | apply State.Good.regs | apply State.Good.eff | apply State.Good.dram | apply State.Good.host
    | apply State.Good.pending | apply State.Good.cont | apply State.Good.whole | apply State.Good.chutes
    | apply State.Good.log | apply State.Good.same | apply State.Good.privs
    | apply State.Good.sram

theorem drainBlock_canon (b n : Nat) (s : State) (q : Option Nat) (hs : s.Good rq) : (drainBlock b n s q).1.Good rq := by
  induction n generalizing s q with
  | zero => exact hs
  | succ n ih =>
    simp only [drainBlock]
    exact canon_ite1 hs (ih _ _ (logDrain_canon s hs))

theorem logDestroy_canon (s : State) (k : Nat) (hs : s.Good rq) :
    (logDestroy s k).Good rq := by
  unfold logDestroy
  repeat' with_reducible first
    | assumption | intro _ | exact logFits_map hs.log (fun e => apply_ite_fst _ _ _ rfl rfl) | apply State.raise_canon
    | apply canon_ite | apply canon_ite1 | apply canon_ite2 | refine canon_fst_of (by assumption) ?_
    | refine canon_snd_of (by assumption) ?_ | split | dsimp only | apply canon_mk | apply State.Good.regs
    | apply State.Good.eff | apply State.Good.dram | apply State.Good.host | apply State.Good.pending | apply State.Good.cont
    | apply State.Good.whole | apply State.Good.chutes | apply State.Good.log | apply State.Good.same | apply State.Good.privs
    | apply State.Good.sram

theorem msgUe_canon (s : State) (i : Nat) (inbound : Bool) (j : Nat) (hs : s.Good rq) :
    (msgUe s i inbound j).Good rq := by
  unfold msgUe
  repeat' with_reducible first
    | assumption | intro _ | apply State.raise_canon | apply mbxFill_canon | apply dbRaise_canon | apply State.bump_canon
    | apply State.modSet_canon | apply canon_ite | split | dsimp only

theorem lockUe_canon (s : State) (n : Nat) (hs : s.Good rq) :
    (lockUe s n).Good rq := State.raise_canon _ _ _ _ _ _ _ (lockForce_canon s 5 n hs)

theorem storeUe_canon (s : State) (k : Nat) (hs : s.Good rq) :
    (storeUe s k).Good rq := by
  unfold storeUe
  repeat' with_reducible first
    | assumption | intro _ | apply logDestroy_canon | apply msgUe_canon | apply lockUe_canon | apply canon_ite

theorem execErrRecordDrain_canon (ue : List Nat) (s : State) (hs : s.Good rq) :
    OutGood rq (execErrRecordDrain ue s) := by
  unfold execErrRecordDrain
  repeat' with_reducible first
    | assumption | intro _ | apply storeUe_canon | apply logDrain_canon | apply canon_next | apply canon_iteO
    | apply canon_ite1 | apply canon_foldl | apply canon_foldl1 | apply canon_foldl2 | split | dsimp only

theorem execCcHang_canon (core : Nat) (s : State) (hs : s.Good rq) :
    OutGood rq (execCcHang core s) := by
  unfold execCcHang
  repeat' with_reducible first
    | assumption | intro _ | apply State.raise_canon | apply canon_next | apply canon_iteO | split | dsimp only

theorem execSnapFire_canon (p : Packet) (s : State) (hs : s.Good rq) :
    OutGood rq (execSnapFire p s) := by
  unfold execSnapFire
  repeat' with_reducible first
    | assumption | intro _ | apply fcpStep_canon | apply sheafDecide_canon | apply canon_next | apply canon_iteO
    | apply canon_iteF | apply canon_final | apply canon_wait | apply canon_pend | apply canon_ite | split | dsimp only

theorem sheafRearm_canon (s : State) (hs : s.Good rq) :
    (sheafRearm s).Good rq := by
  unfold sheafRearm
  repeat' with_reducible first
    | assumption | intro _ | apply State.wrs_canon | apply sheafCancel_canon | split | dsimp only

theorem snapCopy_canon (p : Packet) (s : State) (hs : s.Good rq) :
    (snapCopy p s).Good rq := by
  unfold snapCopy
  repeat' with_reducible first
    | assumption | intro _ | apply State.hostWrite_canon | apply sheafRearm_canon | apply canon_ite | split | dsimp only

theorem execSnapRead_canon (p : Packet) (s : State) (hs : s.Good rq) :
    OutGood rq (execSnapRead p s) := by
  unfold execSnapRead
  repeat' with_reducible first
    | assumption | intro _ | apply fcpStep_canon | apply snapCopy_canon | apply canon_next | apply canon_iteO
    | apply canon_iteF | apply canon_final | apply canon_wait | apply canon_pend | split | dsimp only

theorem execErrRead_canon (p : Packet) (s : State) (hs : s.Good rq) :
    OutGood rq (execErrRead p s) := by
  unfold execErrRead
  repeat' with_reducible first
    | assumption | intro _ | apply State.hostWrite_canon | apply fcpStep_canon | apply canon_next | apply canon_iteO
    | apply canon_iteF | apply canon_final | apply canon_wait | apply canon_pend | apply canon_ite | split | dsimp only

theorem ackTake_canon (p : Packet) (s : State) (hs : s.Good rq) :
    (ackTake p s).1.Good rq := by
  unfold ackTake
  repeat' with_reducible first
    | assumption | intro _ | apply ackAll_canon | apply ackSeqs_canon | apply canon_ite | apply canon_ite1 | split
    | dsimp only

theorem execErrAck_canon (p : Packet) (s : State) (hs : s.Good rq) :
    OutGood rq (execErrAck p s) := by
  unfold execErrAck
  repeat' with_reducible first
    | assumption | intro _ | apply ackTake_canon | apply fcpStep_canon | apply canon_next | apply canon_iteO
    | apply canon_iteF | apply canon_final | apply canon_wait | apply canon_pend | apply canon_ite1 | apply canon_ite2 | split
    | dsimp only

theorem injectRec_canon (p : Packet) (s : State) (hs : s.Good rq) :
    (injectRec p s).Good rq := by
  unfold injectRec
  repeat' with_reducible first
    | assumption | intro _ | apply State.raiseRec_canon | split | dsimp only

theorem injectSeq_canon (p : Packet) (s : State) (hs : s.Good rq) :
    (injectSeq p s).1.Good rq := by
  unfold injectSeq
  repeat' with_reducible first
    | assumption | intro _ | apply drainBlock_canon | apply injectRec_canon | split | dsimp only

theorem execErrInject_canon (p : Packet) (s : State) (hs : s.Good rq) :
    OutGood rq (execErrInject p s) := by
  unfold execErrInject
  repeat' with_reducible first
    | assumption | intro _ | apply fcpStep_canon | apply injectRec_canon | apply injectSeq_canon | apply canon_next
    | apply canon_iteO | apply canon_iteF | apply canon_final | apply canon_wait | apply canon_pend | apply canon_ite
    | apply canon_ite1 | apply canon_ite2 | split | dsimp only

theorem errCtrlWrite_canon (v : Nat) (s : State) (hs : s.Good rq) :
    (errCtrlWrite v s).Good rq := by
  unfold errCtrlWrite
  repeat' with_reducible first
    | assumption | intro _ | apply State.wr_canon | apply State.zeroFields_canon | apply canon_ite | split | dsimp only

theorem execErrClrCounters_canon (m : Nat) (v : Word) (s : State) (hs : s.Good rq) :
    OutGood rq (execErrClrCounters m v s) := by
  unfold execErrClrCounters
  repeat' with_reducible first
    | assumption | intro _ | apply State.writeBy_canon | apply errCtrlWrite_canon | apply canon_next | apply canon_iteO
    | split | dsimp only

theorem errAckWrite_canon (v : Nat) (s : State) (hs : s.Good rq) :
    (errAckWrite v s).Good rq := by
  unfold errAckWrite
  repeat' with_reducible first
    | assumption | intro _ | apply ackAll_canon | apply ackSeq_canon | apply canon_ite | apply canon_ite1 | split | dsimp only

theorem execErrAckWrite_canon (m : Nat) (v : Word) (s : State) (hs : s.Good rq) :
    OutGood rq (execErrAckWrite m v s) := by
  unfold execErrAckWrite
  repeat' with_reducible first
    | assumption | intro _ | apply State.writeBy_canon | apply errAckWrite_canon | apply canon_next | apply canon_iteO | split
    | dsimp only

theorem shfCtrlWrite_canon (v : Nat) (s : State) (hs : s.Good rq) :
    (shfCtrlWrite v s).Good rq := by
  unfold shfCtrlWrite
  repeat' with_reducible first
    | assumption | intro _ | apply State.wrs_canon | apply sheafDecide_canon | apply sheafRearm_canon | apply canon_ite
    | split | dsimp only | apply canon_mk | apply State.Good.regs | apply State.Good.eff | apply State.Good.dram
    | apply State.Good.host | apply State.Good.pending | apply State.Good.cont | apply State.Good.whole
    | apply State.Good.chutes | apply State.Good.log | apply State.Good.same | apply State.Good.privs
    | apply State.Good.sram

theorem execShfFireWrite_canon (m : Nat) (v : Word) (s : State) (hs : s.Good rq) :
    OutGood rq (execShfFireWrite m v s) := by
  unfold execShfFireWrite
  repeat' with_reducible first
    | assumption | intro _ | apply State.writeBy_canon | apply shfCtrlWrite_canon | apply canon_next | apply canon_iteO
    | split | dsimp only

theorem execShfRearmWrite_canon (m : Nat) (v : Word) (s : State) (hs : s.Good rq) :
    OutGood rq (execShfRearmWrite m v s) := by
  unfold execShfRearmWrite
  repeat' with_reducible first
    | assumption | intro _ | apply State.writeBy_canon | apply shfCtrlWrite_canon | apply canon_next | apply canon_iteO
    | split | dsimp only

theorem execSnapInEdge_canon (level : Bool) (s : State) (hs : s.Good rq) :
    OutGood rq (execSnapInEdge level s) := by
  unfold execSnapInEdge
  repeat' with_reducible first
    | assumption | intro _ | apply sheafDecide_canon | apply canon_next | apply canon_iteO | apply canon_ite | split
    | dsimp only | apply canon_mk | apply State.Good.regs | apply State.Good.eff | apply State.Good.dram
    | apply State.Good.host | apply State.Good.pending | apply State.Good.cont | apply State.Good.whole
    | apply State.Good.chutes | apply State.Good.log | apply State.Good.same | apply State.Good.privs
    | apply State.Good.sram

theorem execSheafLatch_canon (s : State) (hs : s.Good rq) :
    OutGood rq (execSheafLatch s) := by
  unfold execSheafLatch
  repeat' with_reducible first
    | assumption | intro _ | apply sheafLatch_canon | apply canon_next | apply canon_iteO | apply canon_ite
    | refine canon_fst_of (by assumption) ?_ | refine canon_snd_of (by assumption) ?_ | split | dsimp only | apply canon_mk
    | apply State.Good.regs | apply State.Good.eff | apply State.Good.dram | apply State.Good.host | apply State.Good.pending
    | apply State.Good.cont | apply State.Good.whole | apply State.Good.chutes | apply State.Good.log | apply State.Good.same
    | apply State.Good.privs
    | apply State.Good.sram

end Sys2Proof.Machine
end

