-- ==== Sys2Proof/Laws/CanonPq.lean ====
section
/-!
SUPPORT. What Machine/Pq.lean defines keeps the canonical form of what is stored.
-/

namespace Sys2Proof.Machine

variable {rq : Kept}

theorem grpFresh_canon (s : State) (ctx g : Nat) (hs : s.Good rq) :
    (grpFresh s ctx g).Good rq := by
  unfold grpFresh
  repeat' with_reducible first
    | assumption | intro _ | apply State.modEng_canon | apply canon_ite | split | dsimp only | apply canon_mk
    | apply State.Good.regs | apply State.Good.eff | apply State.Good.dram | apply State.Good.host | apply State.Good.pending
    | apply State.Good.cont | apply State.Good.whole | apply State.Good.chutes | apply State.Good.log | apply State.Good.same
    | apply State.Good.privs
    | apply State.Good.sram

theorem flickStart_canon (s : State) (id : Nat) (d : List Word) (hs : s.Good rq) :
    (flickStart s id d).Good rq := by
  unfold flickStart
  repeat' with_reducible first
    | assumption | intro _ | apply State.modEng_canon | apply canon_ite | split | dsimp only | apply canon_mk
    | apply State.Good.regs | apply State.Good.eff | apply State.Good.dram | apply State.Good.host | apply State.Good.pending
    | apply State.Good.cont | apply State.Good.whole | apply State.Good.chutes | apply State.Good.log | apply State.Good.same
    | apply State.Good.privs
    | apply State.Good.sram

theorem pqPlace_canon (p : Packet) (s : State) (hs : s.Good rq) : (pqPlace p s).Good rq := by
  have h := chainPlace_canon _ (pCtx p) (pqAsk p s) (grpFresh_canon s (pCtx p) (libGroup p.dws) hs)
  unfold pqPlace
  generalize chainPlace (grpFresh s (pCtx p) (libGroup p.dws)) (pCtx p) (pqAsk p s) = w at h ⊢
  cases w with
  | final r t => exact canon_final (canon_ite (flickStart_canon _ _ _ h) h)
  | wait k a b t => exact h
  | pend k a b t => exact h

theorem pqLoad_canon (p : Packet) (s : State) (hs : s.Good rq) :
    (pqLoad p s).Good rq := by
  unfold pqLoad
  repeat' with_reducible first
    | assumption | intro _ | apply chainPlace_canon | apply pqPlace_canon | apply canon_iteF | apply canon_final
    | apply canon_wait | apply canon_pend | apply canon_ite | refine canon_fst_of (by assumption) ?_
    | refine canon_snd_of (by assumption) ?_ | split | dsimp only | apply canon_mk | apply State.Good.regs
    | apply State.Good.eff | apply State.Good.dram | apply State.Good.host | apply State.Good.pending | apply State.Good.cont
    | apply State.Good.whole | apply State.Good.chutes | apply State.Good.log | apply State.Good.same | apply State.Good.privs
    | apply State.Good.sram

theorem execPqLoad_canon (p : Packet) (s : State) (hs : s.Good rq) :
    OutGood rq (execPqLoad p s) := by
  unfold execPqLoad
  repeat' with_reducible first
    | assumption | intro _ | apply fcpStep_canon | apply pqLoad_canon | apply canon_next | apply canon_iteO | apply canon_iteF
    | apply canon_final | apply canon_wait | apply canon_pend | split | dsimp only

theorem execPqClock_canon (p : Packet) (s : State) (hs : s.Good rq) :
    OutGood rq (execPqClock p s) := by
  unfold execPqClock
  repeat' with_reducible first
    | assumption | intro _ | apply State.wrs_canon | apply drainWake_canon | apply fOk_canon | apply fcpStep_canon
    | apply canon_next | apply canon_iteO | apply canon_iteF | apply canon_final | apply canon_wait | apply canon_pend
    | refine canon_fst_of (by assumption) ?_ | refine canon_snd_of (by assumption) ?_ | split | dsimp only | apply canon_mk
    | apply State.Good.regs | apply State.Good.eff | apply State.Good.dram | apply State.Good.host | apply State.Good.pending
    | apply State.Good.cont | apply State.Good.whole | apply State.Good.chutes | apply State.Good.log | apply State.Good.same
    | apply State.Good.privs
    | apply State.Good.sram

theorem execPqStatus_canon (p : Packet) (s : State) (hs : s.Good rq) :
    OutGood rq (execPqStatus p s) := by
  unfold execPqStatus
  repeat' with_reducible first
    | assumption | intro _ | apply State.zeroFields_canon | apply fcpStep_canon | apply canon_next | apply canon_iteO
    | apply canon_iteF | apply canon_final | apply canon_wait | apply canon_pend | apply canon_ite | split | dsimp only

theorem execFinisherRecord_canon (s : State) (hd : rq.mem = none) (hs : s.Good rq) :
    OutGood rq (execFinisherRecord s) := by
  unfold execFinisherRecord
  repeat' with_reducible first
    | assumption | intro _ | apply State.modEng_canon | apply finTake_canon | apply canon_next | apply canon_iteO
    | apply canon_ite | refine canon_fst_of (by assumption) ?_ | refine canon_snd_of (by assumption) ?_ | split | dsimp only
    | apply canon_mk | apply State.Good.regs | apply State.Good.eff | apply State.Good.dram | apply State.Good.host
    | apply State.Good.pending | apply State.Good.cont | apply State.Good.whole | apply State.Good.chutes
    | apply State.Good.log | apply State.Good.same | apply State.Good.privs
    | apply State.Good.sram

theorem execFinisherMemberTimeout_canon (ctx g w : Nat) (s : State) (hs : s.Good rq) :
    OutGood rq (execFinisherMemberTimeout ctx g w s) := by
  unfold execFinisherMemberTimeout
  repeat' with_reducible first
    | assumption | intro _ | apply State.modGrp_canon | apply pqPrune_canon | apply canon_next | apply canon_iteO
    | apply canon_ite | refine canon_fst_of (by assumption) ?_ | refine canon_snd_of (by assumption) ?_ | split | dsimp only
    | apply canon_mk | apply State.Good.regs | apply State.Good.eff | apply State.Good.dram | apply State.Good.host
    | apply State.Good.pending | apply State.Good.cont | apply State.Good.whole | apply State.Good.chutes
    | apply State.Good.log | apply State.Good.same | apply State.Good.privs
    | apply State.Good.sram

theorem execAggregationTick_canon (ctx g ival : Nat) (s : State) (hd : rq.mem = none) (hs : s.Good rq) :
    OutGood rq (execAggregationTick ctx g ival s) := by
  unfold execAggregationTick
  repeat' with_reducible first
    | assumption | intro _ | apply cycleEnd_canon | apply tenMinEnd_canon | apply twoHourEnd_canon | apply canon_next
    | apply canon_iteO | apply canon_ite | refine canon_fst_of (by assumption) ?_ | refine canon_snd_of (by assumption) ?_
    | split | dsimp only | apply canon_mk | apply State.Good.regs | apply State.Good.eff | apply State.Good.dram
    | apply State.Good.host | apply State.Good.pending | apply State.Good.cont | apply State.Good.whole
    | apply State.Good.chutes | apply State.Good.log | apply State.Good.same | apply State.Good.privs
    | apply State.Good.sram

theorem execFlickerTick_canon (id : Nat) (s : State) (hd : rq.mem = none) (hs : s.Good rq) :
    OutGood rq (execFlickerTick id s) := by
  unfold execFlickerTick
  repeat' with_reducible first
    | assumption | intro _ | apply flickTick_canon | apply canon_next | apply canon_iteO | apply canon_ite
    | refine canon_fst_of (by assumption) ?_ | refine canon_snd_of (by assumption) ?_ | split | dsimp only | apply canon_mk
    | apply State.Good.regs | apply State.Good.eff | apply State.Good.dram | apply State.Good.host | apply State.Good.pending
    | apply State.Good.cont | apply State.Good.whole | apply State.Good.chutes | apply State.Good.log | apply State.Good.same
    | apply State.Good.privs
    | apply State.Good.sram

end Sys2Proof.Machine
end

