-- ==== Sys2Proof/Laws/CanonMapCmd.lean ====
section
/-!
SUPPORT. What Machine/MapCmd.lean defines keeps the canonical form of what is stored.
-/

namespace Sys2Proof.Machine

variable {rq : Kept}

theorem mapFields_canon (p : Packet) (s : State) (hs : s.Good rq) :
    (mapFields p s).Good rq := by
  unfold mapFields
  repeat' with_reducible first
    | assumption | intro _ | apply State.wr_canon | apply State.wrs_canon | apply canon_ite | split | dsimp only

theorem execMapSet_canon (p : Packet) (s : State) (hd : rq.mem = none) (hs : s.Good rq) :
    OutGood rq (execMapSet p s) := by
  unfold execMapSet
  repeat' with_reducible first
    | assumption | intro _ | apply State.wr_canon | apply fcpStep_canon | apply mapDisable_canon | apply mapEnable_canon
    | apply mapFields_canon | apply canon_next | apply canon_iteO | apply canon_iteF | apply canon_final | apply canon_wait
    | apply canon_pend | apply canon_ite | split | dsimp only

theorem execMapClear_canon (p : Packet) (s : State) (hd : rq.mem = none) (hs : s.Good rq) :
    OutGood rq (execMapClear p s) := by
  unfold execMapClear
  repeat' with_reducible first
    | assumption | intro _ | apply fOk_canon | apply fcpStep_canon | apply mapStart_canon | apply canon_next
    | apply canon_iteO | apply canon_iteF | apply canon_final | apply canon_wait | apply canon_pend | apply canon_ite | split
    | dsimp only

theorem execMapStatus_canon (p : Packet) (s : State) (hs : s.Good rq) :
    OutGood rq (execMapStatus p s) := by
  unfold execMapStatus
  repeat' with_reducible first
    | assumption | intro _ | apply State.zeroFields_canon | apply fcpStep_canon | apply canon_next | apply canon_iteO
    | apply canon_iteF | apply canon_final | apply canon_wait | apply canon_pend | apply canon_ite | split | dsimp only

theorem mapCtrlWrite_canon (k : Nat) (v : Nat) (s : State) (hd : rq.mem = none) (hs : s.Good rq) :
    (mapCtrlWrite k v s).Good rq := by
  unfold mapCtrlWrite
  repeat' with_reducible first
    | assumption | intro _ | apply mapDisable_canon | apply mapEnable_canon | apply plainWrite_canon | apply canon_ite | split
    | dsimp only

theorem execMapEnableWrite_canon (m k : Nat) (v : Word) (s : State) (hd : rq.mem = none) (hs : s.Good rq) :
    OutGood rq (execMapEnableWrite m k v s) := by
  unfold execMapEnableWrite
  repeat' with_reducible first
    | assumption | intro _ | apply State.writeBy_canon | apply mapCtrlWrite_canon | apply canon_next | apply canon_iteO
    | apply canon_ite | split | dsimp only

theorem epochFinal_canon (s : State) (m : Nat) (hd : rq.mem = none) (hs : s.Good rq) :
    (epochFinal s m).Good rq := by
  unfold epochFinal
  repeat' with_reducible first
    | assumption | intro _ | apply State.bump64_canon | apply State.modMp_canon | apply State.wrTs_canon
    | apply State.wrs_canon | apply mapCarry_canon | apply paceEpoch_canon | split | dsimp only | apply canon_mk
    | apply State.Good.regs | apply State.Good.eff | apply State.Good.dram | apply State.Good.host | apply State.Good.pending
    | apply State.Good.cont | apply State.Good.whole | apply State.Good.chutes | apply State.Good.log | apply State.Good.same
    | apply State.Good.privs
    | apply State.Good.sram

theorem execMapEpochFinal_canon (k : Nat) (s : State) (hd : rq.mem = none) (hs : s.Good rq) :
    OutGood rq (execMapEpochFinal k s) := by
  unfold execMapEpochFinal
  repeat' with_reducible first
    | assumption | intro _ | apply epochFinal_canon | apply canon_next | apply canon_iteO | apply canon_ite
    | refine canon_fst_of (by assumption) ?_ | refine canon_snd_of (by assumption) ?_ | split | dsimp only | apply canon_mk
    | apply State.Good.regs | apply State.Good.eff | apply State.Good.dram | apply State.Good.host | apply State.Good.pending
    | apply State.Good.cont | apply State.Good.whole | apply State.Good.chutes | apply State.Good.log | apply State.Good.same
    | apply State.Good.privs
    | apply State.Good.sram

theorem execMapClearStart_canon (k : Nat) (s : State) (hd : rq.mem = none) (hs : s.Good rq) :
    OutGood rq (execMapClearStart k s) := by
  unfold execMapClearStart
  repeat' with_reducible first
    | assumption | intro _ | apply State.modMp_canon | apply State.wr_canon | apply dramClear_canon | apply canon_next
    | apply canon_iteO | apply canon_ite | refine canon_fst_of (by assumption) ?_ | refine canon_snd_of (by assumption) ?_
    | split | dsimp only | apply canon_mk | apply State.Good.regs | apply State.Good.eff | apply State.Good.dram
    | apply State.Good.host | apply State.Good.pending | apply State.Good.cont | apply State.Good.whole
    | apply State.Good.chutes | apply State.Good.log | apply State.Good.same | apply State.Good.privs
    | apply State.Good.sram

theorem execMapPassComplete_canon (k : Nat) (s : State) (hs : s.Good rq) :
    OutGood rq (execMapPassComplete k s) := by
  unfold execMapPassComplete
  repeat' with_reducible first
    | assumption | intro _ | apply State.modMp_canon | apply State.wr_canon | apply canon_next | apply canon_iteO
    | apply canon_ite | refine canon_fst_of (by assumption) ?_ | refine canon_snd_of (by assumption) ?_ | split | dsimp only
    | apply canon_mk | apply State.Good.regs | apply State.Good.eff | apply State.Good.dram | apply State.Good.host
    | apply State.Good.pending | apply State.Good.cont | apply State.Good.whole | apply State.Good.chutes
    | apply State.Good.log | apply State.Good.same | apply State.Good.privs
    | apply State.Good.sram

end Sys2Proof.Machine
end

