-- ==== Sys2Proof/Laws/CanonMcvOps.lean ====
section
/-!
SUPPORT. What Machine/McvOps.lean defines keeps the canonical form of what is stored.
-/

namespace Sys2Proof.Machine

variable {rq : Kept}

theorem State.modMcv_canon (s : State) (g : Mcv → Mcv) (hs : s.Good rq) :
    (State.modMcv s g).Good rq := by
  unfold State.modMcv
  repeat' with_reducible first
    | assumption | intro _ | split | dsimp only | apply canon_mk | apply State.Good.regs | apply State.Good.eff
    | apply State.Good.dram | apply State.Good.host | apply State.Good.pending | apply State.Good.cont
    | apply State.Good.whole | apply State.Good.chutes | apply State.Good.log | apply State.Good.same | apply State.Good.privs
    | apply State.Good.sram

theorem State.modConv_canon (s : State) (g : McvConv → McvConv) (hs : s.Good rq) :
    (State.modConv s g).Good rq := by
  unfold State.modConv
  repeat' with_reducible first
    | assumption | intro _ | apply State.modMcv_canon | split | dsimp only | apply canon_mk | apply State.Good.regs
    | apply State.Good.eff | apply State.Good.dram | apply State.Good.host | apply State.Good.pending | apply State.Good.cont
    | apply State.Good.whole | apply State.Good.chutes | apply State.Good.log | apply State.Good.same | apply State.Good.privs
    | apply State.Good.sram

theorem dacPin_canon (s : State) (hs : s.Good rq) :
    (dacPin s).Good rq := by
  unfold dacPin
  repeat' with_reducible first
    | assumption | intro _ | apply canon_ite | split | dsimp only | apply canon_mk | apply State.Good.regs
    | apply State.Good.eff | apply State.Good.dram | apply State.Good.host | apply State.Good.pending | apply State.Good.cont
    | apply State.Good.whole | apply State.Good.chutes | apply State.Good.log | apply State.Good.same | apply State.Good.privs
    | apply State.Good.sram

theorem mcvBits_canon (s : State) (hs : s.Good rq) :
    (mcvBits s).Good rq := by
  unfold mcvBits
  repeat' with_reducible first
    | assumption | intro _ | apply State.wrs_canon | split | dsimp only

theorem startConv_canon (s : State) (kind entry cfg win cmd : Nat) (hs : s.Good rq) :
    (startConv s kind entry cfg win cmd).Good rq := by
  unfold startConv
  repeat' with_reducible first
    | assumption | intro _ | apply State.modMcv_canon | apply State.wr_canon | apply dacPin_canon | apply mcvBits_canon
    | apply canon_ite | split | dsimp only | apply canon_mk | apply State.Good.regs | apply State.Good.eff
    | apply State.Good.dram | apply State.Good.host | apply State.Good.pending | apply State.Good.cont
    | apply State.Good.whole | apply State.Good.chutes | apply State.Good.log | apply State.Good.same | apply State.Good.privs
    | apply State.Good.sram

theorem startCalStep_canon (s : State) (hs : s.Good rq) :
    (startCalStep s).Good rq := by
  unfold startCalStep
  repeat' with_reducible first
    | assumption | intro _ | apply startConv_canon | refine canon_fst_of (by assumption) ?_
    | refine canon_snd_of (by assumption) ?_ | split | dsimp only | apply canon_mk | apply State.Good.regs
    | apply State.Good.eff | apply State.Good.dram | apply State.Good.host | apply State.Good.pending | apply State.Good.cont
    | apply State.Good.whole | apply State.Good.chutes | apply State.Good.log | apply State.Good.same | apply State.Good.privs
    | apply State.Good.sram

theorem startRegular_canon (s : State) (hs : s.Good rq) :
    (startRegular s).Good rq := by
  unfold startRegular
  repeat' with_reducible first
    | assumption | intro _ | apply State.applyRegs_canon | apply State.wr_canon | apply startConv_canon
    | refine canon_fst_of (by assumption) ?_ | refine canon_snd_of (by assumption) ?_ | split | dsimp only | apply canon_mk
    | apply State.Good.regs | apply State.Good.eff | apply State.Good.dram | apply State.Good.host | apply State.Good.pending
    | apply State.Good.cont | apply State.Good.whole | apply State.Good.chutes | apply State.Good.log | apply State.Good.same
    | apply State.Good.privs
    | apply State.Good.sram

theorem mcvChoose_canon (s0 : State) (hs0 : s0.Good rq) :
    (mcvChoose s0).Good rq := by
  unfold mcvChoose
  repeat' with_reducible first
    | assumption | intro _ | apply State.applyRegs_canon | apply State.modMcv_canon | apply State.wr_canon
    | apply mcvBits_canon | apply startCalStep_canon | apply startConv_canon | apply startRegular_canon | apply canon_ite
    | apply canon_ite1 | apply canon_ite2 | refine canon_fst_of (by assumption) ?_ | refine canon_snd_of (by assumption) ?_
    | split | dsimp only | apply canon_mk | apply State.Good.regs | apply State.Good.eff | apply State.Good.dram
    | apply State.Good.host | apply State.Good.pending | apply State.Good.cont | apply State.Good.whole
    | apply State.Good.chutes | apply State.Good.log | apply State.Good.same | apply State.Good.privs
    | apply State.Good.sram

theorem mcvKick_canon (s : State) (hs : s.Good rq) :
    (mcvKick s).Good rq := by
  unfold mcvKick
  repeat' with_reducible first
    | assumption | intro _ | apply mcvBits_canon | apply mcvChoose_canon | apply canon_ite | split | dsimp only

theorem anchDrop_canon (s : State) (c : McvConv) (hs : s.Good rq) :
    (anchDrop s c).Good rq := by
  unfold anchDrop
  repeat' with_reducible first
    | assumption | intro _ | apply State.modDu_canon | apply canon_ite | split | dsimp only | apply canon_mk
    | apply State.Good.regs | apply State.Good.eff | apply State.Good.dram | apply State.Good.host | apply State.Good.pending
    | apply State.Good.cont | apply State.Good.whole | apply State.Good.chutes | apply State.Good.log | apply State.Good.same
    | apply State.Good.privs
    | apply State.Good.sram

theorem mcvAbandon_canon (s : State) (hs : s.Good rq) :
    (mcvAbandon s).Good rq := by
  unfold mcvAbandon
  repeat' with_reducible first
    | assumption | intro _ | apply State.bump_canon | apply State.modConv_canon | apply anchDrop_canon | apply canon_ite
    | refine canon_fst_of (by assumption) ?_ | refine canon_snd_of (by assumption) ?_ | split | dsimp only | apply canon_mk
    | apply State.Good.regs | apply State.Good.eff | apply State.Good.dram | apply State.Good.host | apply State.Good.pending
    | apply State.Good.cont | apply State.Good.whole | apply State.Good.chutes | apply State.Good.log | apply State.Good.same
    | apply State.Good.privs
    | apply State.Good.sram

theorem injRequest_canon (s : State) (q : InjReq) (hs : s.Good rq) :
    (injRequest s q).1.Good rq := by
  unfold injRequest
  repeat' with_reducible first
    | assumption | intro _ | apply State.bump_canon | apply State.modMcv_canon | apply mcvAbandon_canon | apply mcvKick_canon
    | apply canon_ite | apply canon_ite1 | split | dsimp only | apply canon_mk | apply State.Good.regs | apply State.Good.eff
    | apply State.Good.dram | apply State.Good.host | apply State.Good.pending | apply State.Good.cont
    | apply State.Good.whole | apply State.Good.chutes | apply State.Good.log | apply State.Good.same | apply State.Good.privs
    | apply State.Good.sram

theorem calRequest_canon (s : State) (q : CalReq) (hs : s.Good rq) :
    (calRequest s q).1.Good rq := by
  unfold calRequest
  repeat' with_reducible first
    | assumption | intro _ | apply State.bump_canon | apply State.modMcv_canon | apply mcvAbandon_canon | apply mcvKick_canon
    | apply canon_ite | apply canon_ite1 | split | dsimp only | apply canon_mk | apply State.Good.regs | apply State.Good.eff
    | apply State.Good.dram | apply State.Good.host | apply State.Good.pending | apply State.Good.cont
    | apply State.Good.whole | apply State.Good.chutes | apply State.Good.log | apply State.Good.same | apply State.Good.privs
    | apply State.Good.sram

theorem calAuto_canon (s : State) (hs : s.Good rq) :
    (calAuto s).Good rq := by
  unfold calAuto
  repeat' with_reducible first
    | assumption | intro _ | apply calRequest_canon | apply canon_ite1 | split | dsimp only

theorem spanStart_canon (s : State) (hs : s.Good rq) :
    (spanStart s).Good rq := by
  unfold spanStart
  repeat' with_reducible first
    | assumption | intro _ | apply State.modConv_canon | apply State.modDu_canon | apply anchClose_canon | apply canon_ite
    | refine canon_fst_of (by assumption) ?_ | refine canon_snd_of (by assumption) ?_ | split | dsimp only | apply canon_mk
    | apply State.Good.regs | apply State.Good.eff | apply State.Good.dram | apply State.Good.host | apply State.Good.pending
    | apply State.Good.cont | apply State.Good.whole | apply State.Good.chutes | apply State.Good.log | apply State.Good.same
    | apply State.Good.privs
    | apply State.Good.sram

theorem spanStop_canon (s : State) (at_ : Nat) (hs : s.Good rq) :
    (spanStop s at_).Good rq := by
  unfold spanStop
  repeat' with_reducible first
    | assumption | intro _ | apply State.modConv_canon | apply State.modDu_canon | apply canon_ite
    | refine canon_fst_of (by assumption) ?_ | refine canon_snd_of (by assumption) ?_ | split | dsimp only | apply canon_mk
    | apply State.Good.regs | apply State.Good.eff | apply State.Good.dram | apply State.Good.host | apply State.Good.pending
    | apply State.Good.cont | apply State.Good.whole | apply State.Good.chutes | apply State.Good.log | apply State.Good.same
    | apply State.Good.privs
    | apply State.Good.sram

theorem mcvReport_canon (s : State) (x : Report) (hs : s.Good rq) :
    (mcvReport s x).Good rq := by
  unfold mcvReport
  repeat' with_reducible first
    | assumption | intro _ | apply State.modConv_canon | apply State.modMcv_canon | apply State.wr_canon
    | apply spanStart_canon | apply spanStop_canon | apply canon_ite | refine canon_fst_of (by assumption) ?_
    | refine canon_snd_of (by assumption) ?_ | split | dsimp only | apply canon_mk | apply State.Good.regs
    | apply State.Good.eff | apply State.Good.dram | apply State.Good.host | apply State.Good.pending | apply State.Good.cont
    | apply State.Good.whole | apply State.Good.chutes | apply State.Good.log | apply State.Good.same | apply State.Good.privs
    | apply State.Good.sram

theorem resHead_canon (s : State) (hs : s.Good rq) :
    (resHead s).Good rq := by
  unfold resHead
  repeat' with_reducible first
    | assumption | intro _ | apply State.setReg_canon | apply State.wr_canon | apply canon_foldl | apply canon_foldl1
    | apply canon_foldl2 | split | dsimp only

theorem mcvPush_canon (s : State) (c : McvConv) (r : List Byte) (hs : s.Good rq) :
    (mcvPush s c r).Good rq := by
  unfold mcvPush
  repeat' with_reducible first
    | assumption | intro _ | apply State.bump_canon | apply State.modMcv_canon | apply State.raiseAt_canon
    | apply resHead_canon | apply canon_ite | split | dsimp only | apply canon_mk | apply State.Good.regs
    | apply State.Good.eff | apply State.Good.dram | apply State.Good.host | apply State.Good.pending | apply State.Good.cont
    | apply State.Good.whole | apply State.Good.chutes | apply State.Good.log | apply State.Good.same | apply State.Good.privs
    | apply State.Good.sram

theorem anchResult_canon (s : State) (c : McvConv) (code : Int) (hs : s.Good rq) :
    (anchResult s c code).Good rq := by
  unfold anchResult
  repeat' with_reducible first
    | assumption | intro _ | apply State.modDu_canon | apply canon_ite | refine canon_fst_of (by assumption) ?_
    | refine canon_snd_of (by assumption) ?_ | split | dsimp only | apply canon_mk | apply State.Good.regs
    | apply State.Good.eff | apply State.Good.dram | apply State.Good.host | apply State.Good.pending | apply State.Good.cont
    | apply State.Good.whole | apply State.Good.chutes | apply State.Good.log | apply State.Good.same | apply State.Good.privs
    | apply State.Good.sram

theorem calEnd_canon (s : State) (r : CalRun) (hs : s.Good rq) :
    (calEnd s r).Good rq := by
  unfold calEnd
  repeat' with_reducible first
    | assumption | intro _ | apply State.modMcv_canon | apply State.postEvent_canon | apply State.wake_canon
    | apply State.wr_canon | apply State.wrTs_canon | apply canon_ite | split | dsimp only | apply canon_mk
    | apply State.Good.regs | apply State.Good.eff | apply State.Good.dram | apply State.Good.host | apply State.Good.pending
    | apply State.Good.cont | apply State.Good.whole | apply State.Good.chutes | apply State.Good.log | apply State.Good.same
    | apply State.Good.privs
    | apply State.Good.sram

theorem calStep_canon (s : State) (c : McvConv) (raw : Int) (r : CalRun) (hs : s.Good rq) :
    (calStep s c raw r).Good rq := by
  unfold calStep
  repeat' with_reducible first
    | assumption | intro _ | apply State.modMcv_canon | apply State.raiseAt_canon | apply State.wr_canon
    | apply State.wrS_canon | apply canon_ite | split | dsimp only | apply canon_mk | apply State.Good.regs
    | apply State.Good.eff | apply State.Good.dram | apply State.Good.host | apply State.Good.pending | apply State.Good.cont
    | apply State.Good.whole | apply State.Good.chutes | apply State.Good.log | apply State.Good.same | apply State.Good.privs
    | apply State.Good.sram

theorem mcvEnRise_canon (s : State) (hs : s.Good rq) :
    (mcvEnRise s).Good rq := by
  unfold mcvEnRise
  repeat' with_reducible first
    | assumption | intro _ | apply State.modMcv_canon | apply State.wrs_canon | apply calAuto_canon | apply mcvKick_canon
    | apply canon_ite | split | dsimp only | apply canon_mk | apply State.Good.regs | apply State.Good.eff
    | apply State.Good.dram | apply State.Good.host | apply State.Good.pending | apply State.Good.cont
    | apply State.Good.whole | apply State.Good.chutes | apply State.Good.log | apply State.Good.same | apply State.Good.privs
    | apply State.Good.sram

theorem mcvStop_canon (s : State) (hs : s.Good rq) :
    (mcvStop s).Good rq := by
  unfold mcvStop
  repeat' with_reducible first
    | assumption | intro _ | apply State.modMcv_canon | apply State.wake_canon | apply State.wr_canon | apply mcvAbandon_canon
    | apply mcvBits_canon | apply canon_ite | refine canon_fst_of (by assumption) ?_ | refine canon_snd_of (by assumption) ?_
    | split | dsimp only | apply canon_mk | apply State.Good.regs | apply State.Good.eff | apply State.Good.dram
    | apply State.Good.host | apply State.Good.pending | apply State.Good.cont | apply State.Good.whole
    | apply State.Good.chutes | apply State.Good.log | apply State.Good.same | apply State.Good.privs
    | apply State.Good.sram

theorem mcvEnFall_canon (s : State) (hs : s.Good rq) :
    (mcvEnFall s).Good rq := by
  unfold mcvEnFall
  repeat' with_reducible first
    | assumption | intro _ | apply State.modMcv_canon | apply State.wrs_canon | apply mcvStop_canon | split | dsimp only
    | apply canon_mk | apply State.Good.regs | apply State.Good.eff | apply State.Good.dram | apply State.Good.host
    | apply State.Good.pending | apply State.Good.cont | apply State.Good.whole | apply State.Good.chutes
    | apply State.Good.log | apply State.Good.same | apply State.Good.privs
    | apply State.Good.sram

theorem mcvMirror_canon (s : State) (hs : s.Good rq) :
    (mcvMirror s).Good rq := by
  unfold mcvMirror
  repeat' with_reducible first
    | assumption | intro _ | apply mcvEnFall_canon | apply mcvEnRise_canon | apply canon_ite | split | dsimp only

theorem mcvTemp_canon (s : State) (hs : s.Good rq) :
    (mcvTemp s).Good rq := by
  unfold mcvTemp
  repeat' with_reducible first
    | assumption | intro _ | apply State.modMcv_canon | apply calAuto_canon | apply canon_ite | split | dsimp only
    | apply canon_mk | apply State.Good.regs | apply State.Good.eff | apply State.Good.dram | apply State.Good.host
    | apply State.Good.pending | apply State.Good.cont | apply State.Good.whole | apply State.Good.chutes
    | apply State.Good.log | apply State.Good.same | apply State.Good.privs
    | apply State.Good.sram

theorem mcvPowerOn_canon (s : State) (hs : s.Good rq) :
    (mcvPowerOn s).Good rq := by
  unfold mcvPowerOn
  repeat' with_reducible first
    | assumption | intro _ | apply State.modMcv_canon | apply State.setDom_canon | apply State.wr_canon | apply calAuto_canon
    | apply dacPin_canon | apply mcvKick_canon | apply mcvMirror_canon | apply mcvTemp_canon | apply canon_ite | split
    | dsimp only | apply canon_mk | apply State.Good.regs | apply State.Good.eff | apply State.Good.dram
    | apply State.Good.host | apply State.Good.pending | apply State.Good.cont | apply State.Good.whole
    | apply State.Good.chutes | apply State.Good.log | apply State.Good.same | apply State.Good.privs
    | apply State.Good.sram

theorem mcvPowerOff_canon (s : State) (hs : s.Good rq) :
    (mcvPowerOff s).Good rq := by
  unfold mcvPowerOff
  repeat' with_reducible first
    | assumption | intro _ | apply State.setDom_canon | apply State.wr_canon | apply dacPin_canon | apply mcvStop_canon
    | split | dsimp only

theorem mcvPower_canon (s : State) (ps : Nat) (hs : s.Good rq) :
    (mcvPower s ps).Good rq := by
  unfold mcvPower
  repeat' with_reducible first
    | assumption | intro _ | apply mcvPowerOff_canon | apply mcvPowerOn_canon | apply canon_ite | split | dsimp only

end Sys2Proof.Machine
end

