-- ==== Sys2Proof/Laws/CanonMcv.lean ====
section
/-!
SUPPORT. What Machine/Mcv.lean defines keeps the canonical form of what is stored.
-/

namespace Sys2Proof.Machine

variable {rq : Kept}

theorem mcvEnable_canon (s : State) (en : Bool) (hs : s.Good rq) :
    (mcvEnable s en).Good rq := by
  unfold mcvEnable
  repeat' with_reducible first
    | assumption | intro _ | apply State.modMcv_canon | apply mcvMirror_canon | apply mcvPower_canon | apply canon_ite | split
    | dsimp only | apply canon_mk | apply State.Good.regs | apply State.Good.eff | apply State.Good.dram
    | apply State.Good.host | apply State.Good.pending | apply State.Good.cont | apply State.Good.whole
    | apply State.Good.chutes | apply State.Good.log | apply State.Good.same | apply State.Good.privs
    | apply State.Good.sram

theorem mcvCfg_canon (p : Packet) (s : State) (hs : s.Good rq) :
    (mcvCfg p s).Good rq := by
  unfold mcvCfg
  repeat' with_reducible first
    | assumption | intro _ | apply State.wrs_canon | apply mcvEnable_canon | apply mcvKick_canon | split | dsimp only

theorem execMcvConfig_canon (p : Packet) (s : State) (hs : s.Good rq) :
    OutGood rq (execMcvConfig p s) := by
  unfold execMcvConfig
  repeat' with_reducible first
    | assumption | intro _ | apply fOk_canon | apply fcpStep_canon | apply mcvCfg_canon | apply canon_next | apply canon_iteO
    | apply canon_iteF | apply canon_final | apply canon_wait | apply canon_pend | split | dsimp only

theorem mcvEntry_canon (p : Packet) (s : State) (hs : s.Good rq) :
    (mcvEntry p s).Good rq := by
  unfold mcvEntry
  repeat' with_reducible first
    | assumption | intro _ | apply State.modMcv_canon | apply State.setReg_canon | apply State.wrs_canon | apply mcvKick_canon
    | split | dsimp only | apply canon_mk | apply State.Good.regs | apply State.Good.eff | apply State.Good.dram
    | apply State.Good.host | apply State.Good.pending | apply State.Good.cont | apply State.Good.whole
    | apply State.Good.chutes | apply State.Good.log | apply State.Good.same | apply State.Good.privs
    | apply State.Good.sram

theorem execMcvSeq_canon (p : Packet) (s : State) (hs : s.Good rq) :
    OutGood rq (execMcvSeq p s) := by
  unfold execMcvSeq
  repeat' with_reducible first
    | assumption | intro _ | apply fOk_canon | apply fcpStep_canon | apply mcvEntry_canon | apply canon_next
    | apply canon_iteO | apply canon_iteF | apply canon_final | apply canon_wait | apply canon_pend | split | dsimp only

theorem mcvId_canon (s : State) (hs : s.Good rq) :
    (mcvId s).2.Good rq := by
  unfold mcvId
  repeat' with_reducible first
    | assumption | intro _ | apply State.modMcv_canon | split | dsimp only | apply canon_mk | apply State.Good.regs
    | apply State.Good.eff | apply State.Good.dram | apply State.Good.host | apply State.Good.pending | apply State.Good.cont
    | apply State.Good.whole | apply State.Good.chutes | apply State.Good.log | apply State.Good.same | apply State.Good.privs
    | apply State.Good.sram

theorem injNow_canon (p : Packet) (s : State) (hs : s.Good rq) :
    (injNow p s).1.Good rq := by
  unfold injNow
  repeat' with_reducible first
    | assumption | intro _ | apply injRequest_canon | apply mcvId_canon | apply canon_ite2 | split | dsimp only

theorem injLater_canon (p : Packet) (s : State) (hs : s.Good rq) :
    (injLater p s).Good rq := by
  unfold injLater
  repeat' with_reducible first
    | assumption | intro _ | apply State.modMcv_canon | apply State.wrTs_canon | apply mcvId_canon | apply canon_ite2 | split
    | dsimp only | apply canon_mk | apply State.Good.regs | apply State.Good.eff | apply State.Good.dram
    | apply State.Good.host | apply State.Good.pending | apply State.Good.cont | apply State.Good.whole
    | apply State.Good.chutes | apply State.Good.log | apply State.Good.same | apply State.Good.privs
    | apply State.Good.sram

theorem calNow_canon (p : Packet) (s : State) (hs : s.Good rq) :
    (calNow p s).1.Good rq := by
  unfold calNow
  repeat' with_reducible first
    | assumption | intro _ | apply calRequest_canon | apply mcvId_canon | apply canon_ite1 | apply canon_ite2 | split
    | dsimp only

theorem execMcvInject_canon (p : Packet) (s : State) (hs : s.Good rq) :
    OutGood rq (execMcvInject p s) := by
  unfold execMcvInject
  repeat' with_reducible first
    | assumption | intro _ | apply State.bump_canon | apply fSt_canon | apply fcpStep_canon | apply injLater_canon
    | apply injNow_canon | apply mcvId_canon | apply canon_next | apply canon_iteO | apply canon_iteF | apply canon_final
    | apply canon_wait | apply canon_pend | apply canon_ite | apply canon_ite1 | apply canon_ite2 | split | dsimp only

theorem execMcvCal_canon (p : Packet) (s : State) (hs : s.Good rq) :
    OutGood rq (execMcvCal p s) := by
  unfold execMcvCal
  repeat' with_reducible first
    | assumption | intro _ | apply calNow_canon | apply fSt_canon | apply fcpStep_canon | apply canon_next | apply canon_iteO
    | apply canon_iteF | apply canon_final | apply canon_wait | apply canon_pend | apply canon_ite | apply canon_ite1
    | apply canon_ite2 | split | dsimp only

theorem execMcvDac_canon (p : Packet) (s : State) (hs : s.Good rq) :
    OutGood rq (execMcvDac p s) := by
  unfold execMcvDac
  repeat' with_reducible first
    | assumption | intro _ | apply State.wrs_canon | apply dacPin_canon | apply fOk_canon | apply fcpStep_canon
    | apply canon_next | apply canon_iteO | apply canon_iteF | apply canon_final | apply canon_wait | apply canon_pend | split
    | dsimp only

theorem mcvClear_canon (s : State) (hs : s.Good rq) :
    (mcvClear s).Good rq := by
  unfold mcvClear
  repeat' with_reducible first
    | assumption | intro _ | apply State.zeroFields_canon | split | dsimp only

theorem execMcvStatus_canon (p : Packet) (s : State) (hs : s.Good rq) :
    OutGood rq (execMcvStatus p s) := by
  unfold execMcvStatus
  repeat' with_reducible first
    | assumption | intro _ | apply fcpStep_canon | apply mcvClear_canon | apply canon_next | apply canon_iteO
    | apply canon_iteF | apply canon_final | apply canon_wait | apply canon_pend | apply canon_ite | split | dsimp only

theorem mcvStart_canon (s : State) (hs : s.Good rq) :
    (mcvStart s).Good rq := by
  unfold mcvStart
  repeat' with_reducible first
    | assumption | intro _ | apply State.bump_canon | apply State.modMcv_canon | apply State.wr_canon | apply mcvKick_canon
    | apply canon_ite | split | dsimp only | apply canon_mk | apply State.Good.regs | apply State.Good.eff
    | apply State.Good.dram | apply State.Good.host | apply State.Good.pending | apply State.Good.cont
    | apply State.Good.whole | apply State.Good.chutes | apply State.Good.log | apply State.Good.same | apply State.Good.privs
    | apply State.Good.sram

theorem mcvCtrlWrite_canon (v : Nat) (s : State) (hs : s.Good rq) :
    (mcvCtrlWrite v s).Good rq := by
  unfold mcvCtrlWrite
  repeat' with_reducible first
    | assumption | intro _ | apply calAuto_canon | apply injRequest_canon | apply mcvClear_canon | apply mcvEnable_canon
    | apply mcvStart_canon | apply plainWrite_canon | apply canon_ite | apply canon_ite1 | split | dsimp only

theorem execMcvEnWrite_canon (m : Nat) (v : Word) (s : State) (hs : s.Good rq) :
    OutGood rq (execMcvEnWrite m v s) := by
  unfold execMcvEnWrite
  repeat' with_reducible first
    | assumption | intro _ | apply State.writeBy_canon | apply mcvCtrlWrite_canon | apply canon_next | apply canon_iteO
    | split | dsimp only

theorem execMcvStartWrite_canon (m : Nat) (v : Word) (s : State) (hs : s.Good rq) :
    OutGood rq (execMcvStartWrite m v s) := by
  unfold execMcvStartWrite
  repeat' with_reducible first
    | assumption | intro _ | apply State.writeBy_canon | apply mcvCtrlWrite_canon | apply canon_next | apply canon_iteO
    | split | dsimp only

theorem execMcvInjGo_canon (m : Nat) (v : Word) (s : State) (hs : s.Good rq) :
    OutGood rq (execMcvInjGo m v s) := by
  unfold execMcvInjGo
  repeat' with_reducible first
    | assumption | intro _ | apply State.writeBy_canon | apply mcvCtrlWrite_canon | apply canon_next | apply canon_iteO
    | split | dsimp only

theorem execMcvCalGo_canon (m : Nat) (v : Word) (s : State) (hs : s.Good rq) :
    OutGood rq (execMcvCalGo m v s) := by
  unfold execMcvCalGo
  repeat' with_reducible first
    | assumption | intro _ | apply State.writeBy_canon | apply mcvCtrlWrite_canon | apply canon_next | apply canon_iteO
    | split | dsimp only

theorem execMcvClrCounters_canon (m : Nat) (v : Word) (s : State) (hs : s.Good rq) :
    OutGood rq (execMcvClrCounters m v s) := by
  unfold execMcvClrCounters
  repeat' with_reducible first
    | assumption | intro _ | apply State.writeBy_canon | apply mcvCtrlWrite_canon | apply canon_next | apply canon_iteO
    | split | dsimp only

theorem resPop_canon (v : Nat) (s : State) (hs : s.Good rq) :
    (resPop v s).Good rq := by
  unfold resPop
  repeat' with_reducible first
    | assumption | intro _ | apply State.modMcv_canon | apply resHead_canon | apply canon_ite | split | dsimp only
    | apply canon_mk | apply State.Good.regs | apply State.Good.eff | apply State.Good.dram | apply State.Good.host
    | apply State.Good.pending | apply State.Good.cont | apply State.Good.whole | apply State.Good.chutes
    | apply State.Good.log | apply State.Good.same | apply State.Good.privs
    | apply State.Good.sram

theorem execMcvResPop_canon (m : Nat) (v : Word) (s : State) (hs : s.Good rq) :
    OutGood rq (execMcvResPop m v s) := by
  unfold execMcvResPop
  repeat' with_reducible first
    | assumption | intro _ | apply State.writeBy_canon | apply resPop_canon | apply canon_next | apply canon_iteO | split
    | dsimp only

theorem execPeriodReportArrival_canon (f : Nat) (s : State) (hs : s.Good rq) :
    OutGood rq (execPeriodReportArrival f s) := by
  unfold execPeriodReportArrival
  repeat' with_reducible first
    | assumption | intro _ | apply State.modTim_canon | apply dfuReport_canon | apply mcvReport_canon | apply canon_next
    | apply canon_iteO | apply canon_ite | refine canon_fst_of (by assumption) ?_ | refine canon_snd_of (by assumption) ?_
    | split | dsimp only | apply canon_mk | apply State.Good.regs | apply State.Good.eff | apply State.Good.dram
    | apply State.Good.host | apply State.Good.pending | apply State.Good.cont | apply State.Good.whole
    | apply State.Good.chutes | apply State.Good.log | apply State.Good.same | apply State.Good.privs
    | apply State.Good.sram

theorem injAt_canon (s : State) (hs : s.Good rq) :
    (injAt s).Good rq := by
  unfold injAt
  repeat' with_reducible first
    | assumption | intro _ | apply State.modMcv_canon | apply State.wake_canon | apply State.wrTs_canon
    | apply injRequest_canon | apply canon_ite | apply canon_ite1 | apply canon_ite2 | split | dsimp only | apply canon_mk
    | apply State.Good.regs | apply State.Good.eff | apply State.Good.dram | apply State.Good.host | apply State.Good.pending
    | apply State.Good.cont | apply State.Good.whole | apply State.Good.chutes | apply State.Good.log | apply State.Good.same
    | apply State.Good.privs
    | apply State.Good.sram

theorem execMcvInjAt_canon (s : State) (hs : s.Good rq) :
    OutGood rq (execMcvInjAt s) := by
  unfold execMcvInjAt
  repeat' with_reducible first
    | assumption | intro _ | apply injAt_canon | apply canon_next | apply canon_iteO | apply canon_ite | split | dsimp only

theorem entryBad_canon (s : State) (e : Nat) (hs : s.Good rq) :
    (entryBad s e).Good rq := by
  unfold entryBad
  repeat' with_reducible first
    | assumption | intro _ | apply State.modMcv_canon | apply State.raise_canon | apply mcvChoose_canon | split | dsimp only
    | apply canon_mk | apply State.Good.regs | apply State.Good.eff | apply State.Good.dram | apply State.Good.host
    | apply State.Good.pending | apply State.Good.cont | apply State.Good.whole | apply State.Good.chutes
    | apply State.Good.log | apply State.Good.same | apply State.Good.privs
    | apply State.Good.sram

theorem execMcvDwellEnd_canon (bad : Bool) (s : State) (hs : s.Good rq) :
    OutGood rq (execMcvDwellEnd bad s) := by
  unfold execMcvDwellEnd
  repeat' with_reducible first
    | assumption | intro _ | apply State.modConv_canon | apply entryBad_canon | apply spanStart_canon | apply canon_next
    | apply canon_iteO | apply canon_ite | refine canon_fst_of (by assumption) ?_ | refine canon_snd_of (by assumption) ?_
    | split | dsimp only | apply canon_mk | apply State.Good.regs | apply State.Good.eff | apply State.Good.dram
    | apply State.Good.host | apply State.Good.pending | apply State.Good.cont | apply State.Good.whole
    | apply State.Good.chutes | apply State.Good.log | apply State.Good.same | apply State.Good.privs
    | apply State.Good.sram

theorem execMcvSpanEnd_canon (s : State) (hs : s.Good rq) :
    OutGood rq (execMcvSpanEnd s) := by
  unfold execMcvSpanEnd
  repeat' with_reducible first
    | assumption | intro _ | apply spanStop_canon | apply canon_next | apply canon_iteO | apply canon_ite
    | refine canon_fst_of (by assumption) ?_ | refine canon_snd_of (by assumption) ?_ | split | dsimp only | apply canon_mk
    | apply State.Good.regs | apply State.Good.eff | apply State.Good.dram | apply State.Good.host | apply State.Good.pending
    | apply State.Good.cont | apply State.Good.whole | apply State.Good.chutes | apply State.Good.log | apply State.Good.same
    | apply State.Good.privs
    | apply State.Good.sram

theorem execMcvAbandon_canon (s : State) (hs : s.Good rq) :
    OutGood rq (execMcvAbandon s) := by
  unfold execMcvAbandon
  repeat' with_reducible first
    | assumption | intro _ | apply mcvChoose_canon | apply canon_next | apply canon_iteO | apply canon_ite
    | refine canon_fst_of (by assumption) ?_ | refine canon_snd_of (by assumption) ?_ | split | dsimp only | apply canon_mk
    | apply State.Good.regs | apply State.Good.eff | apply State.Good.dram | apply State.Good.host | apply State.Good.pending
    | apply State.Good.cont | apply State.Good.whole | apply State.Good.chutes | apply State.Good.log | apply State.Good.same
    | apply State.Good.privs
    | apply State.Good.sram

theorem coastNow_canon (s : State) (c : McvConv) (hs : s.Good rq) :
    (coastNow s c).Good rq := by
  unfold coastNow
  repeat' with_reducible first
    | assumption | intro _ | apply State.modConv_canon | apply State.raise_canon | apply State.wr_canon
    | apply spanStart_canon | apply canon_ite | split | dsimp only | apply canon_mk | apply State.Good.regs
    | apply State.Good.eff | apply State.Good.dram | apply State.Good.host | apply State.Good.pending | apply State.Good.cont
    | apply State.Good.whole | apply State.Good.chutes | apply State.Good.log | apply State.Good.same | apply State.Good.privs
    | apply State.Good.sram

theorem execMcvCoast_canon (s : State) (hs : s.Good rq) :
    OutGood rq (execMcvCoast s) := by
  unfold execMcvCoast
  repeat' with_reducible first
    | assumption | intro _ | apply coastNow_canon | apply canon_next | apply canon_iteO | apply canon_ite
    | refine canon_fst_of (by assumption) ?_ | refine canon_snd_of (by assumption) ?_ | split | dsimp only | apply canon_mk
    | apply State.Good.regs | apply State.Good.eff | apply State.Good.dram | apply State.Good.host | apply State.Good.pending
    | apply State.Good.cont | apply State.Good.whole | apply State.Good.chutes | apply State.Good.log | apply State.Good.same
    | apply State.Good.privs
    | apply State.Good.sram

theorem execMcvCalPeriod_canon (s : State) (hs : s.Good rq) :
    OutGood rq (execMcvCalPeriod s) := by
  unfold execMcvCalPeriod
  repeat' with_reducible first
    | assumption | intro _ | apply State.modMcv_canon | apply calAuto_canon | apply canon_next | apply canon_iteO
    | apply canon_ite | split | dsimp only | apply canon_mk | apply State.Good.regs | apply State.Good.eff
    | apply State.Good.dram | apply State.Good.host | apply State.Good.pending | apply State.Good.cont
    | apply State.Good.whole | apply State.Good.chutes | apply State.Good.log | apply State.Good.same | apply State.Good.privs
    | apply State.Good.sram

theorem seqNext_canon (s : State) (c : McvConv) (num : Nat) (hs : s.Good rq) :
    (seqNext s c num).Good rq := by
  unfold seqNext
  repeat' with_reducible first
    | assumption | intro _ | apply State.modMcv_canon | apply State.postEvent_canon | apply State.wr_canon | apply canon_ite
    | split | dsimp only | apply canon_mk | apply State.Good.regs | apply State.Good.eff | apply State.Good.dram
    | apply State.Good.host | apply State.Good.pending | apply State.Good.cont | apply State.Good.whole
    | apply State.Good.chutes | apply State.Good.log | apply State.Good.same | apply State.Good.privs
    | apply State.Good.sram

theorem calNext_canon (s : State) (c : McvConv) (raw : Int) (hs : s.Good rq) :
    (calNext s c raw).Good rq := by
  unfold calNext
  repeat' with_reducible first
    | assumption | intro _ | apply calEnd_canon | apply calStep_canon | apply mcvChoose_canon | apply startCalStep_canon
    | apply canon_ite | refine canon_fst_of (by assumption) ?_ | refine canon_snd_of (by assumption) ?_ | split | dsimp only
    | apply canon_mk | apply State.Good.regs | apply State.Good.eff | apply State.Good.dram | apply State.Good.host
    | apply State.Good.pending | apply State.Good.cont | apply State.Good.whole | apply State.Good.chutes
    | apply State.Good.log | apply State.Good.same | apply State.Good.privs
    | apply State.Good.sram

theorem runPush_canon (s : State) (c : McvConv) (sub : List (Int × Nat)) (overload : Bool) (hs : s.Good rq) :
    (runPush s c sub overload).Good rq := by
  unfold runPush
  repeat' with_reducible first
    | assumption | intro _ | apply State.wr_canon | apply mcvPush_canon | split | dsimp only

theorem runNext_canon (s : State) (c : McvConv) (sub : List (Int × Nat)) (overload : Bool) (hs : s.Good rq) :
    (runNext s c sub overload).Good rq := by
  unfold runNext
  repeat' with_reducible first
    | assumption | intro _ | apply State.wake_canon | apply State.wr_canon | apply State.wrS_canon | apply anchResult_canon
    | apply calNext_canon | apply mcvChoose_canon | apply runPush_canon | apply seqNext_canon | apply canon_ite | split
    | dsimp only

theorem execMcvRundownDone_canon (sub : List (Int × Nat)) (overload : Bool) (s : State) (hs : s.Good rq) :
    OutGood rq (execMcvRundownDone sub overload s) := by
  unfold execMcvRundownDone
  repeat' with_reducible first
    | assumption | intro _ | apply runNext_canon | apply canon_next | apply canon_iteO | apply canon_ite
    | refine canon_fst_of (by assumption) ?_ | refine canon_snd_of (by assumption) ?_ | split | dsimp only | apply canon_mk
    | apply State.Good.regs | apply State.Good.eff | apply State.Good.dram | apply State.Good.host | apply State.Good.pending
    | apply State.Good.cont | apply State.Good.whole | apply State.Good.chutes | apply State.Good.log | apply State.Good.same
    | apply State.Good.privs
    | apply State.Good.sram

end Sys2Proof.Machine
end

