-- ==== Sys2Proof/Laws/CanonPower.lean ====
section
/-!
SUPPORT. What Machine/Power.lean defines keeps the canonical form of what is stored.
-/

namespace Sys2Proof.Machine

variable {rq : Kept}

theorem psNext_canon (s : State) (hd : rq.mem = none) (hs : s.Good rq) :
    (psNext s).Good rq := by
  unfold psNext
  repeat' with_reducible first
    | assumption | intro _ | apply State.modClk_canon | apply capStop_canon | apply psStart_canon | apply recordStart_canon
    | apply trgDisarm_canon | apply canon_ite | refine canon_fst_of (by assumption) ?_
    | refine canon_snd_of (by assumption) ?_ | split | dsimp only | apply canon_mk | apply State.Good.regs
    | apply State.Good.eff | apply State.Good.dram | apply State.Good.host | apply State.Good.pending | apply State.Good.cont
    | apply State.Good.whole | apply State.Good.chutes | apply State.Good.log | apply State.Good.same | apply State.Good.privs
    | apply State.Good.sram

theorem psReach_canon (s : State) (lost : Nat) (hd : rq.mem = none) (hs : s.Good rq) :
    (psReach s lost).Good rq := by
  unfold psReach
  repeat' with_reducible first
    | assumption | intro _ | apply State.modClk_canon | apply State.postEvent_canon | apply State.wake_canon
    | apply State.wrs_canon | apply crefPin_canon | apply psNext_canon | apply trigPin_canon | apply canon_ite
    | refine canon_fst_of (by assumption) ?_ | refine canon_snd_of (by assumption) ?_ | split | dsimp only | apply canon_mk
    | apply State.Good.regs | apply State.Good.eff | apply State.Good.dram | apply State.Good.host | apply State.Good.pending
    | apply State.Good.cont | apply State.Good.whole | apply State.Good.chutes | apply State.Good.log | apply State.Good.same
    | apply State.Good.privs
    | apply State.Good.sram

theorem psSet_canon (p : Packet) (s : State) (hd : rq.mem = none) (hs : s.Good rq) :
    (psSet p s).Good rq := by
  unfold psSet
  repeat' with_reducible first
    | assumption | intro _ | apply latchWant_canon | apply psNext_canon | apply canon_ite
    | refine canon_fst_of (by assumption) ?_ | refine canon_snd_of (by assumption) ?_ | split | dsimp only | apply canon_mk
    | apply State.Good.regs | apply State.Good.eff | apply State.Good.dram | apply State.Good.host | apply State.Good.pending
    | apply State.Good.cont | apply State.Good.whole | apply State.Good.chutes | apply State.Good.log | apply State.Good.same
    | apply State.Good.privs
    | apply State.Good.sram

theorem execPstateSet_canon (p : Packet) (s : State) (hd : rq.mem = none) (hs : s.Good rq) :
    OutGood rq (execPstateSet p s) := by
  unfold execPstateSet
  repeat' with_reducible first
    | assumption | intro _ | apply fSt_canon | apply fcpStep_canon | apply psSet_canon | apply canon_next | apply canon_iteO
    | apply canon_iteF | apply canon_final | apply canon_wait | apply canon_pend | apply canon_ite | split | dsimp only

theorem execPstateStatus_canon (p : Packet) (s : State) (hs : s.Good rq) :
    OutGood rq (execPstateStatus p s) := by
  unfold execPstateStatus
  repeat' with_reducible first
    | assumption | intro _ | apply fcpStep_canon | apply canon_next | apply canon_iteO | apply canon_iteF | apply canon_final
    | apply canon_wait | apply canon_pend | split | dsimp only

theorem watchSet_canon (p : Packet) (s : State) (hs : s.Good rq) :
    (watchSet p s).Good rq := by
  unfold watchSet
  repeat' with_reducible first
    | assumption | intro _ | apply State.modClk_canon | apply State.wrTs_canon | apply State.wrs_canon | split | dsimp only
    | apply canon_mk | apply State.Good.regs | apply State.Good.eff | apply State.Good.dram | apply State.Good.host
    | apply State.Good.pending | apply State.Good.cont | apply State.Good.whole | apply State.Good.chutes
    | apply State.Good.log | apply State.Good.same | apply State.Good.privs
    | apply State.Good.sram

theorem execWatchConfig_canon (p : Packet) (s : State) (hs : s.Good rq) :
    OutGood rq (execWatchConfig p s) := by
  unfold execWatchConfig
  repeat' with_reducible first
    | assumption | intro _ | apply fOk_canon | apply fcpStep_canon | apply watchSet_canon | apply canon_next
    | apply canon_iteO | apply canon_iteF | apply canon_final | apply canon_wait | apply canon_pend | split | dsimp only

theorem askWatch_canon (s : State) (cause : Nat) (hd : rq.mem = none) (hs : s.Good rq) :
    (askWatch s cause).Good rq := by
  unfold askWatch
  repeat' with_reducible first
    | assumption | intro _ | apply latchWant_canon | apply psNext_canon | apply canon_ite | split | dsimp only

theorem execWakeNAssert_canon (s : State) (hd : rq.mem = none) (hs : s.Good rq) :
    OutGood rq (execWakeNAssert s) := by
  unfold execWakeNAssert
  repeat' with_reducible first
    | assumption | intro _ | apply askWatch_canon | apply canon_next | apply canon_iteO | apply canon_ite | split | dsimp only
    | apply canon_mk | apply State.Good.regs | apply State.Good.eff | apply State.Good.dram | apply State.Good.host
    | apply State.Good.pending | apply State.Good.cont | apply State.Good.whole | apply State.Good.chutes
    | apply State.Good.log | apply State.Good.same | apply State.Good.privs
    | apply State.Good.sram

theorem execAlarmFire_canon (sheaf : Bool) (s : State) (hd : rq.mem = none) (hs : s.Good rq) :
    OutGood rq (execAlarmFire sheaf s) := by
  unfold execAlarmFire
  repeat' with_reducible first
    | assumption | intro _ | apply State.modClk_canon | apply askWatch_canon | apply sheafDecide_canon | apply canon_next
    | apply canon_iteO | apply canon_ite | split | dsimp only | apply canon_mk | apply State.Good.regs | apply State.Good.eff
    | apply State.Good.dram | apply State.Good.host | apply State.Good.pending | apply State.Good.cont
    | apply State.Good.whole | apply State.Good.chutes | apply State.Good.log | apply State.Good.same | apply State.Good.privs
    | apply State.Good.sram

theorem execTempSample_canon (t : Nat) (s : State) (hs : s.Good rq) :
    OutGood rq (execTempSample t s) := by
  unfold execTempSample
  repeat' with_reducible first
    | assumption | intro _ | apply mcvTemp_canon | apply tempTake_canon | apply canon_next | apply canon_iteO | split
    | dsimp only

theorem fpllOff_canon (s : State) (hs : s.Good rq) :
    (fpllOff s).Good rq := by
  unfold fpllOff
  repeat' with_reducible first
    | assumption | intro _ | apply State.wr_canon | apply setKhz_canon | split | dsimp only

theorem execRestHostlinkReturn_canon (s : State) (hs : s.Good rq) :
    OutGood rq (execRestHostlinkReturn s) := by
  unfold execRestHostlinkReturn
  repeat' with_reducible first
    | assumption | intro _ | apply fpllOff_canon | apply hostSleep_canon | apply canon_next | apply canon_iteO
    | apply canon_ite | split | dsimp only

theorem watchApply_canon (s : State) (hs : s.Good rq) :
    (watchApply s).Good rq := by
  unfold watchApply
  repeat' with_reducible first
    | assumption | intro _ | apply State.applyReg_canon | apply State.wr_canon | split | dsimp only

theorem barnRestore_canon (s : State) (b : Nat) (hs : s.Good rq) :
    (barnRestore s b).Good rq := by
  unfold barnRestore
  repeat' with_reducible first
    | assumption | intro _ | apply barnRegs_canon | apply setBarn_canon | apply unparkBarn_canon | split | dsimp only

theorem intakeRestore_canon (s : State) (hs : s.Good rq) :
    (intakeRestore s).Good rq := by
  unfold intakeRestore
  repeat' with_reducible first
    | assumption | intro _ | apply applyPreset_canon | apply dsyncGo_canon | apply jinStart_canon | apply sysrefGo_canon
    | apply canon_ite | apply canon_foldl | apply canon_foldl1 | apply canon_foldl2 | split | dsimp only | apply canon_mk
    | apply State.Good.regs | apply State.Good.eff | apply State.Good.dram | apply State.Good.host | apply State.Good.pending
    | apply State.Good.cont | apply State.Good.whole | apply State.Good.chutes | apply State.Good.log | apply State.Good.same
    | apply State.Good.privs
    | apply State.Good.sram

theorem timRestore_canon (s : State) (hs : s.Good rq) :
    (timRestore s).Good rq := by
  unfold timRestore
  repeat' with_reducible first
    | assumption | intro _ | apply State.wr_canon | apply timRunSet_canon | apply canon_ite | split | dsimp only

theorem pllRestore_canon (s : State) (hs : s.Good rq) :
    (pllRestore s).Good rq := by
  unfold pllRestore
  repeat' with_reducible first
    | assumption | intro _ | apply State.wr_canon | apply avsWrite_canon | apply setFreq_canon | apply setKhz_canon
    | apply canon_ite | split | dsimp only

theorem dmaResume_canon (s : State) (hs : s.Good rq) :
    (dmaResume s).Good rq := by
  unfold dmaResume
  repeat' with_reducible first
    | assumption | intro _ | apply xferRelease_canon | apply canon_ite | apply canon_foldl | apply canon_foldl1
    | apply canon_foldl2 | refine canon_fst_of (by assumption) ?_ | refine canon_snd_of (by assumption) ?_ | split
    | dsimp only | apply canon_mk | apply State.Good.regs | apply State.Good.eff | apply State.Good.dram
    | apply State.Good.host | apply State.Good.pending | apply State.Good.cont | apply State.Good.whole
    | apply State.Good.chutes | apply State.Good.log | apply State.Good.same | apply State.Good.privs
    | apply State.Good.sram

theorem restWatch_canon (s : State) (hd : rq.mem = none) (hs : s.Good rq) :
    (restWatch s).Good rq := by
  unfold restWatch
  repeat' with_reducible first
    | assumption | intro _ | apply State.modEng_canon | apply State.setDom_canon | apply barnRestore_canon
    | apply dmaResume_canon | apply hostWake_canon | apply intakeRestore_canon | apply mcvPower_canon | apply pllRestore_canon
    | apply psReach_canon | apply timRestore_canon | apply watchApply_canon | split | dsimp only | apply canon_mk
    | apply State.Good.regs | apply State.Good.eff | apply State.Good.dram | apply State.Good.host | apply State.Good.pending
    | apply State.Good.cont | apply State.Good.whole | apply State.Good.chutes | apply State.Good.log | apply State.Good.same
    | apply State.Good.privs
    | apply State.Good.sram

theorem execRestToWatch_canon (s : State) (hd : rq.mem = none) (hs : s.Good rq) :
    OutGood rq (execRestToWatch s) := by
  unfold execRestToWatch
  repeat' with_reducible first
    | assumption | intro _ | apply restWatch_canon | apply canon_next | apply canon_iteO | apply canon_ite | split
    | dsimp only

theorem watchRecord_canon (s : State) (ts : Nat) (hd : rq.mem = none) (hs : s.Good rq) :
    (watchRecord s ts).Good rq := by
  unfold watchRecord
  repeat' with_reducible first
    | assumption | intro _ | apply State.wr_canon | apply barnRestore_canon | apply capFlushStart_canon | apply cmpPower_canon
    | apply disPowerOn_canon | apply mapsRecord_canon | apply mcvPower_canon | apply psReach_canon | apply canon_ite
    | apply canon_foldl | apply canon_foldl1 | apply canon_foldl2 | split | dsimp only

theorem execWatchToRecord_canon (s : State) (hd : rq.mem = none) (hs : s.Good rq) :
    OutGood rq (execWatchToRecord s) := by
  unfold execWatchToRecord
  repeat' with_reducible first
    | assumption | intro _ | apply watchRecord_canon | apply canon_next | apply canon_iteO | apply canon_ite
    | refine canon_fst_of (by assumption) ?_ | refine canon_snd_of (by assumption) ?_ | split | dsimp only | apply canon_mk
    | apply State.Good.regs | apply State.Good.eff | apply State.Good.dram | apply State.Good.host | apply State.Good.pending
    | apply State.Good.cont | apply State.Good.whole | apply State.Good.chutes | apply State.Good.log | apply State.Good.same
    | apply State.Good.privs
    | apply State.Good.sram

theorem drainLeave_canon (s : State) (hd : rq.mem = none) (hs : s.Good rq) :
    (drainLeave s).Good rq := by
  unfold drainLeave
  repeat' with_reducible first
    | assumption | intro _ | apply latchWant_canon | apply psNext_canon | apply canon_ite | split | dsimp only

theorem flushDone_canon (s : State) (hd : rq.mem = none) (hs : s.Good rq) :
    (flushDone s).Good rq := by
  unfold flushDone
  repeat' with_reducible first
    | assumption | intro _ | apply State.modEng_canon | apply capCatchup_canon | apply drainLeave_canon | apply pqRegs_canon
    | apply pushResult_canon | apply canon_ite1 | apply canon_ite2 | apply canon_foldl | apply canon_foldl1
    | apply canon_foldl2 | split | dsimp only | apply canon_mk | apply State.Good.regs | apply State.Good.eff
    | apply State.Good.dram | apply State.Good.host | apply State.Good.pending | apply State.Good.cont
    | apply State.Good.whole | apply State.Good.chutes | apply State.Good.log | apply State.Good.same | apply State.Good.privs
    | apply State.Good.sram

theorem execFlushCatchupDone_canon (s : State) (hd : rq.mem = none) (hs : s.Good rq) :
    OutGood rq (execFlushCatchupDone s) := by
  unfold execFlushCatchupDone
  repeat' with_reducible first
    | assumption | intro _ | apply flushDone_canon | apply canon_next | apply canon_iteO | apply canon_ite | split
    | dsimp only

theorem barnOff_canon (s : State) (b : Nat) (hs : s.Good rq) :
    (barnOff s b).Good rq := by
  unfold barnOff
  repeat' with_reducible first
    | assumption | intro _ | apply barnRegs_canon | apply parkBarn_canon | apply setBarn_canon | split | dsimp only

theorem cmpOff_canon (s : State) (hd : rq.mem = none) (hs : s.Good rq) :
    (cmpOff s).Good rq := by
  unfold cmpOff
  repeat' with_reducible first
    | assumption | intro _ | apply State.wr_canon | apply cmpParkAll_canon | apply cmpPower_canon | split | dsimp only

theorem recordWatch_canon (s : State) (hd : rq.mem = none) (hs : s.Good rq) :
    (recordWatch s).Good rq := by
  unfold recordWatch
  repeat' with_reducible first
    | assumption | intro _ | apply State.modEng_canon | apply State.setDom_canon | apply barnOff_canon
    | apply barnRestore_canon | apply capStopped_canon | apply cmpOff_canon | apply disPowerOff_canon | apply mapsLeave_canon
    | apply mcvPower_canon | apply psReach_canon | apply selfRefresh_canon | apply watchApply_canon | apply canon_ite
    | apply canon_foldl | apply canon_foldl1 | apply canon_foldl2 | split | dsimp only | apply canon_mk
    | apply State.Good.regs | apply State.Good.eff | apply State.Good.dram | apply State.Good.host | apply State.Good.pending
    | apply State.Good.cont | apply State.Good.whole | apply State.Good.chutes | apply State.Good.log | apply State.Good.same
    | apply State.Good.privs
    | apply State.Good.sram

theorem execRecordToWatch_canon (s : State) (hd : rq.mem = none) (hs : s.Good rq) :
    OutGood rq (execRecordToWatch s) := by
  unfold execRecordToWatch
  repeat' with_reducible first
    | assumption | intro _ | apply recordWatch_canon | apply watchApply_canon | apply canon_next | apply canon_iteO
    | apply canon_ite | refine canon_fst_of (by assumption) ?_ | refine canon_snd_of (by assumption) ?_ | split | dsimp only
    | apply canon_mk | apply State.Good.regs | apply State.Good.eff | apply State.Good.dram | apply State.Good.host
    | apply State.Good.pending | apply State.Good.cont | apply State.Good.whole | apply State.Good.chutes
    | apply State.Good.log | apply State.Good.same | apply State.Good.privs
    | apply State.Good.sram

theorem refusedLost_canon (s : State) (hs : s.Good rq) :
    (refusedLost s).Good rq := by
  unfold refusedLost
  repeat' with_reducible first
    | assumption | intro _ | apply State.zeroFields_canon | split | dsimp only

theorem watchRest_canon (s : State) (hd : rq.mem = none) (hs : s.Good rq) :
    (watchRest s).Good rq := by
  unfold watchRest
  repeat' with_reducible first
    | assumption | intro _ | apply State.modClk_canon | apply State.setDom_canon | apply State.wr_canon
    | apply avsWrite_canon | apply barnOff_canon | apply capRest_canon | apply fpllOff_canon | apply hostSleep_canon
    | apply jinStop_canon | apply mcvPowerOff_canon | apply psReach_canon | apply refusedLost_canon | apply timRunSet_canon
    | refine canon_fst_of (by assumption) ?_ | refine canon_snd_of (by assumption) ?_ | apply sysrefCut_canon | split
    | dsimp only | apply canon_mk | apply State.Good.regs | apply State.Good.eff | apply State.Good.dram
    | apply State.Good.host | apply State.Good.pending | apply State.Good.cont | apply State.Good.whole
    | apply State.Good.chutes | apply State.Good.log | apply State.Good.same | apply State.Good.privs
    | apply State.Good.sram

theorem execWatchToRest_canon (s : State) (hd : rq.mem = none) (hs : s.Good rq) :
    OutGood rq (execWatchToRest s) := by
  unfold execWatchToRest
  repeat' with_reducible first
    | assumption | intro _ | apply watchRest_canon | apply canon_next | apply canon_iteO | apply canon_ite | split
    | dsimp only

end Sys2Proof.Machine
end

