-- ==== Sys2Proof/Laws/CanonReset.lean ====
section
/-!
SUPPORT. What Machine/Reset.lean defines keeps the canonical form of what is stored.
-/

namespace Sys2Proof.Machine

variable {rq : Kept}

theorem canon_noMem {d e : List Host.Cell} (hd : rq.mem = none) (h : rq.mem = some d) : e = d := nomatch hd.symm.trans h

theorem freshState_canon (s : State) (p : Pins) (hk : rq.cont = false) (hd : rq.mem = none) (ht : rq.time = none) (hs : s.Good rq) : (freshState s p).Good rq :=
  ⟨show cellWf regReset [] = true from rfl, show cellWf regReset [] = true from rfl, show Memory.wf [] = true from rfl, hs.host, hs.pending, fun h => absurd (hk.symm.trans h) (by decide), ⟨rfl, Or.inl ht⟩, rfl, rfl, (fun _ e => nomatch hd.symm.trans e), fun _ _ => privsIn_zero, rfl⟩

theorem execPowerOnReset_canon (testEn resetN : Bool) (s : State) (hk : rq.cont = false) (hd : rq.mem = none) (ht : rq.time = none) (hs : s.Good rq) :
    OutGood rq (execPowerOnReset testEn resetN s) := by
  unfold execPowerOnReset
  repeat' with_reducible first
    | assumption | intro _ | apply freshState_canon | apply canon_next | apply canon_iteO | apply canon_ite | split
    | dsimp only | apply canon_mk | apply State.Good.regs | apply State.Good.eff | apply State.Good.dram
    | apply State.Good.host | apply State.Good.pending | apply State.Good.cont | apply State.Good.whole
    | apply State.Good.chutes | apply State.Good.log | apply State.Good.same | apply State.Good.privs
    | apply State.Good.sram

theorem execRailLoss_canon (s : State) (hk : rq.cont = false) (hd : rq.mem = none) (ht : rq.time = none) (hs : s.Good rq) :
    OutGood rq (execRailLoss s) := by
  unfold execRailLoss
  repeat' with_reducible first
    | assumption | intro _ | apply freshState_canon | apply canon_next | apply canon_iteO | split | dsimp only
    | apply canon_mk | apply State.Good.regs | apply State.Good.eff | apply State.Good.dram | apply State.Good.host
    | apply State.Good.pending | apply State.Good.cont | apply State.Good.whole | apply State.Good.chutes
    | apply State.Good.log | apply State.Good.same | apply State.Good.privs
    | apply State.Good.sram

theorem execPinReset_canon (s : State) (hk : rq.cont = false) (hd : rq.mem = none) (ht : rq.time = none) (hs : s.Good rq) :
    OutGood rq (execPinReset s) := by
  unfold execPinReset
  repeat' with_reducible first
    | assumption | intro _ | apply State.setReg_canon | apply freshState_canon | apply canon_next | apply canon_iteO | split
    | dsimp only | apply canon_mk | apply State.Good.regs | apply State.Good.eff | apply State.Good.dram
    | apply State.Good.host | apply State.Good.pending | apply State.Good.cont | apply State.Good.whole
    | apply State.Good.chutes | apply State.Good.log | apply State.Good.same | apply State.Good.privs
    | apply State.Good.sram

theorem execResetNRelease_canon (testEn : Bool) (s : State) (hs : s.Good rq) :
    OutGood rq (execResetNRelease testEn s) := by
  unfold execResetNRelease
  repeat' with_reducible first
    | assumption | intro _ | apply canon_next | apply canon_iteO | apply canon_ite | split | dsimp only | apply canon_mk
    | apply State.Good.regs | apply State.Good.eff | apply State.Good.dram | apply State.Good.host | apply State.Good.pending
    | apply State.Good.cont | apply State.Good.whole | apply State.Good.chutes | apply State.Good.log | apply State.Good.same
    | apply State.Good.privs
    | apply State.Good.sram

theorem bandCal_canon (s : State) (hs : s.Good rq) :
    (bandCal s).Good rq := by
  unfold bandCal
  repeat' with_reducible first
    | assumption | intro _ | apply State.applyRegs_canon | apply State.modClk_canon | apply State.setReg_canon
    | apply canon_ite | apply canon_foldl | apply canon_foldl1 | apply canon_foldl2 | split | dsimp only | apply canon_mk
    | apply State.Good.regs | apply State.Good.eff | apply State.Good.dram | apply State.Good.host | apply State.Good.pending
    | apply State.Good.cont | apply State.Good.whole | apply State.Good.chutes | apply State.Good.log | apply State.Good.same
    | apply State.Good.privs
    | apply State.Good.sram

theorem startClocks_canon (s : State) (hs : s.Good rq) :
    (startClocks s).Good rq := by
  unfold startClocks
  repeat' with_reducible first
    | assumption | intro _ | apply State.wr_canon | apply State.wrs_canon | apply bandCal_canon | apply setKhz_canon
    | apply canon_ite | split | dsimp only

theorem startDomains_canon (s : State) (hs : s.Good rq) :
    (startDomains s).Good rq := by
  unfold startDomains
  repeat' with_reducible first
    | assumption | intro _ | apply State.setDom_canon | apply hostWake_canon | apply mbxEnable_canon | apply setBarn_canon
    | apply watchApply_canon | apply canon_foldl | apply canon_foldl1 | apply canon_foldl2 | split | dsimp only

theorem startPatch_canon (s : State) (hs : s.Good rq) :
    (startPatch s).Good rq := by
  unfold startPatch
  repeat' with_reducible first
    | assumption | intro _ | split | dsimp only | apply canon_mk | apply State.Good.regs | apply State.Good.eff
    | apply State.Good.dram | apply State.Good.host | apply State.Good.pending | apply State.Good.cont
    | apply State.Good.whole | apply State.Good.chutes | apply State.Good.log | apply State.Good.same
    | apply State.Good.privs | apply State.Good.sram

theorem startDram_canon (s : State) (hs : s.Good rq) :
    (startDram s).Good rq := by
  unfold startDram
  repeat' with_reducible first
    | assumption | intro _ | apply trainStart_canon | refine canon_fst_of (by assumption) ?_
    | refine canon_snd_of (by assumption) ?_ | split | dsimp only | apply canon_mk | apply State.Good.regs
    | apply State.Good.eff | apply State.Good.dram | apply State.Good.host | apply State.Good.pending | apply State.Good.cont
    | apply State.Good.whole | apply State.Good.chutes | apply State.Good.log | apply State.Good.same | apply State.Good.privs
    | apply State.Good.sram

theorem startShow_canon (s : State) (hs : s.Good rq) :
    (startShow s).Good rq := by
  unfold startShow
  repeat' with_reducible first
    | assumption | intro _ | apply State.wrs_canon | split | dsimp only | apply canon_mk | apply State.Good.regs
    | apply State.Good.eff | apply State.Good.dram | apply State.Good.host | apply State.Good.pending | apply State.Good.cont
    | apply State.Good.whole | apply State.Good.chutes | apply State.Good.log | apply State.Good.same | apply State.Good.privs
    | apply State.Good.sram

theorem startPresets_canon (soft : Bool) (s : State) (hs : s.Good rq) :
    (startPresets soft s).Good rq := by
  unfold startPresets
  repeat' with_reducible first
    | assumption | intro _ | apply applyPreset_canon | apply canon_ite | apply canon_ite1 | apply canon_ite2
    | apply canon_foldl | apply canon_foldl1 | apply canon_foldl2 | split | dsimp only

theorem startEnd_canon (s : State) (hs : s.Good rq) :
    (startEnd s).Good rq := by
  unfold startEnd
  repeat' with_reducible first
    | assumption | intro _ | apply admRegs_canon | apply allBarnRegs_canon | apply mcvPower_canon | apply startClocks_canon
    | apply startDomains_canon | apply startDram_canon | apply startShow_canon | apply startPatch_canon
    | apply startPresets_canon | split | dsimp only

theorem execStartupCmdReady_canon (s : State) (hs : s.Good rq) :
    OutGood rq (execStartupCmdReady s) := by
  unfold execStartupCmdReady
  repeat' with_reducible first
    | assumption | intro _ | apply State.modCon_canon | apply crefPin_canon | apply startEnd_canon | apply canon_next
    | apply canon_iteO | apply canon_ite | split | dsimp only | apply canon_mk | apply State.Good.regs | apply State.Good.eff
    | apply State.Good.dram | apply State.Good.host | apply State.Good.pending | apply State.Good.cont
    | apply State.Good.whole | apply State.Good.chutes | apply State.Good.log | apply State.Good.same | apply State.Good.privs
    | apply State.Good.sram

theorem softMem_wf (s : State) (hs : s.Good rq) : Memory.wf (softMem s).2 = true := by
  unfold softMem
  dsimp only
  repeat' first
    | exact hs.dram | exact cellWf_filter _ _ hs.dram | exact (rfl : Memory.wf [] = true) | split

theorem softBase_canon (s : State) (hk : rq.cont = false) (hd : rq.mem = none) (hs : s.Good rq) : (softBase s).Good rq :=
  canon_mk (cellWf_filter _ _ hs.regs) (cellWf_filter _ _ hs.eff) (softMem_wf s hs) hs.host hs.pending (fun h => absurd (hk.symm.trans h) (by decide)) hs.whole rfl rfl (fun _ e => nomatch hd.symm.trans e) (fun _ _ => privsIn_zero) rfl

theorem softFatal_canon (s t : State) (ht : t.Good rq) : (softFatal s t).Good rq := by
  unfold softFatal
  split
  · exact canon_ite (State.setWords_canon _ _ _ ht) ht
  · exact ht

theorem softChannels_canon (s t : State) (ht : t.Good rq) : (softChannels s t).Good rq := by
  unfold softChannels
  repeat' with_reducible first
    | assumption | intro _ | apply State.wr_canon | apply State.wrs_canon | apply setMc_canon | apply canon_ite
    | apply canon_foldl | apply freshState_canon | split | dsimp only | apply canon_mk | apply State.Good.regs
    | apply State.Good.eff | apply State.Good.dram | apply State.Good.host | apply State.Good.pending
    | apply State.Good.cont | apply State.Good.whole | apply State.Good.chutes | apply State.Good.log
    | apply State.Good.same | apply State.Good.privs | apply State.Good.sram

theorem softReset_canon (s : State) (hk : rq.cont = false) (hd : rq.mem = none) (hs : s.Good rq) :
    (softReset s).Good rq := by
  unfold softReset
  repeat' with_reducible first
    | assumption | intro _ | apply State.setReg_canon | apply State.wrs_canon | apply crefPin_canon | apply ppsPin_canon
    | apply softBase_canon | apply softChannels_canon | apply softFatal_canon | split | dsimp only

theorem softResetWrite_canon (v : Nat) (s : State) (hk : rq.cont = false) (hd : rq.mem = none) (hs : s.Good rq) :
    (softResetWrite v s).Good rq := by
  unfold softResetWrite
  repeat' with_reducible first
    | assumption | intro _ | apply softReset_canon | apply canon_ite | split | dsimp only

theorem execSoftReset_canon (m : Nat) (v : Word) (s : State) (hk : rq.cont = false) (hd : rq.mem = none) (hs : s.Good rq) :
    OutGood rq (execSoftReset m v s) := by
  unfold execSoftReset
  repeat' with_reducible first
    | assumption | intro _ | apply State.writeBy_canon | apply softResetWrite_canon | apply canon_next | apply canon_iteO
    | split | dsimp only

theorem orphan_canon (s : State) (test : Nat → Bool) (hs : s.Good rq) :
    (orphan s test).Good rq := by
  unfold orphan
  repeat' with_reducible first
    | assumption | intro _ | apply fcp_canon | apply canon_ite | apply canon_ite1 | apply canon_ite2 | split | dsimp only
    | apply canon_mk | apply State.Good.regs | apply State.Good.eff | apply State.Good.dram | apply State.Good.host
    | apply State.Good.pending | apply State.Good.cont | apply State.Good.whole | apply State.Good.chutes
    | apply State.Good.log | apply State.Good.same | apply State.Good.privs
    | apply State.Good.sram

theorem dropPairs_canon (s : State) (test : QPair → Bool) (hs : s.Good rq) :
    (dropPairs s test).Good rq := by
  unfold dropPairs
  repeat' with_reducible first
    | assumption | intro _ | apply State.dropPair_canon | apply State.finish_canon | apply orphan_canon | apply canon_foldl
    | apply canon_foldl1 | apply canon_foldl2 | split | dsimp only

theorem dmaLink_canon (s : State) (hs : s.Good rq) :
    (dmaLink s).Good rq := by
  unfold dmaLink
  repeat' with_reducible first
    | assumption | intro _ | apply State.modChan_canon | apply haltNow_canon | apply canon_ite | apply canon_foldl
    | apply canon_foldl1 | apply canon_foldl2 | split | dsimp only | apply canon_mk | apply State.Good.regs
    | apply State.Good.eff | apply State.Good.dram | apply State.Good.host | apply State.Good.pending | apply State.Good.cont
    | apply State.Good.whole | apply State.Good.chutes | apply State.Good.log | apply State.Good.same | apply State.Good.privs
    | apply State.Good.sram

theorem emitsLost_canon (s : State) (hs : s.Good rq) :
    (emitsLost s).Good rq := by
  unfold emitsLost
  repeat' with_reducible first
    | assumption | intro _ | apply State.modDma_canon | split | dsimp only | apply canon_mk | apply State.Good.regs
    | apply State.Good.eff | apply State.Good.dram | apply State.Good.host | apply State.Good.pending
    | apply State.Good.cont | apply State.Good.whole | apply State.Good.chutes | apply State.Good.log
    | apply State.Good.same | apply State.Good.privs | apply State.Good.sram

theorem linkReset_canon (s : State) (hd : rq.mem = none) (hs : s.Good rq) :
    (linkReset s).Good rq := by
  unfold linkReset
  repeat' with_reducible first
    | assumption | intro _ | apply State.wr_canon | apply State.zeroFields_canon | apply dmaLink_canon
    | apply dropPairs_canon | apply fcp_canon | apply jobPark_canon | apply lockForceOf_canon | apply mbxFlush_canon
    | apply canon_foldl | apply canon_foldl1 | apply canon_foldl2 | refine canon_fst_of (by assumption) ?_
    | refine canon_snd_of (by assumption) ?_ | apply State.clearRegs_canon | apply emitsLost_canon | split | dsimp only
    | apply canon_mk | apply State.Good.regs | apply State.Good.eff | apply State.Good.dram | apply State.Good.host
    | apply State.Good.pending | apply State.Good.cont | apply State.Good.whole | apply State.Good.chutes
    | apply State.Good.log | apply State.Good.same | apply State.Good.privs | apply State.Good.sram

theorem execLinkReset_canon (s : State) (hd : rq.mem = none) (hs : s.Good rq) :
    OutGood rq (execLinkReset s) := by
  unfold execLinkReset
  repeat' with_reducible first
    | assumption | intro _ | apply admRegs_canon | apply cmpPower_canon | apply linkReset_canon | apply canon_next
    | apply canon_iteO | apply canon_ite | split | dsimp only

theorem execJtagInstruction_canon (code : Nat) (cells : Option (List Bool)) (s : State) (hd : rq.mem = none) (hs : s.Good rq) :
    OutGood rq (execJtagInstruction code cells s) := by
  unfold execJtagInstruction
  repeat' with_reducible first
    | assumption | intro _ | exact canon_noMem hd (by assumption) | apply canon_next | apply canon_iteO | apply canon_ite
    | refine canon_fst_of (by assumption) ?_ | refine canon_snd_of (by assumption) ?_ | apply canon_refused
    | apply canon_noCells | split | dsimp only | apply canon_mk | apply State.Good.regs | apply State.Good.eff
    | apply State.Good.dram | apply State.Good.host | apply State.Good.pending | apply State.Good.cont
    | apply State.Good.whole | apply State.Good.chutes | apply State.Good.log | apply State.Good.same | apply State.Good.privs
    | apply State.Good.sram

end Sys2Proof.Machine
end

