-- ==== Sys2Proof/Laws/CanonHifOps.lean ====
section
/-!
SUPPORT. What Machine/HifOps.lean defines keeps the canonical form of what is stored.
-/

namespace Sys2Proof.Machine

variable {rq : Kept}

/-- The base context of a reset function. -/
theorem bare_priv (x : Ctx) (f : Nat) :
    ((if x.id = f then { x with priv := if f = 0 then 15 else 0, route := none, mask := 0, broken := false } else x).id = x.id)
      ∧ ((if x.id = f then { x with priv := if f = 0 then 15 else 0, route := none, mask := 0, broken := false } else x).priv = x.priv
        ∨ x.id = 0
        ∨ (if x.id = f then { x with priv := if f = 0 then 15 else 0, route := none, mask := 0, broken := false } else x).priv = 0) := by
  by_cases h : x.id = f
  · by_cases h0 : f = 0
    · simp [h, h0]
    · simp [h, h0]
  · simp [h]

theorem State.modFcp_canon (s : State) (g : Fcp → Fcp) (hg : (g s.fcp).ctxs = s.fcp.ctxs) (hs : s.Good rq) : (s.modFcp g).Good rq :=
  canon_mk hs.regs hs.eff hs.dram hs.host hs.pending hs.cont hs.whole hs.chutes hs.log hs.same (hg ▸ hs.privs) hs.sram

theorem withdraw_canon (s : State) (c : Inflight) (hs : s.Good rq) :
    (withdraw s c).Good rq := by
  unfold withdraw
  repeat' with_reducible first
    | assumption | intro _ | apply State.modClk_canon | apply State.modEng_canon | apply State.modMcv_canon
    | apply jobLeave_canon | apply sheafRearm_canon | refine canon_fst_of (by assumption) ?_
    | refine canon_snd_of (by assumption) ?_ | split | dsimp only | apply canon_mk | apply State.Good.regs
    | apply State.Good.eff | apply State.Good.dram | apply State.Good.host | apply State.Good.pending | apply State.Good.cont
    | apply State.Good.whole | apply State.Good.chutes | apply State.Good.log | apply State.Good.same | apply State.Good.privs
    | apply State.Good.sram

theorem endAborted_canon (s : State) (c : Inflight) (hs : s.Good rq) :
    (endAborted s c).Good rq := by
  unfold endAborted
  repeat' with_reducible first
    | assumption | intro _ | apply State.finish_canon | apply withdraw_canon | refine canon_fst_of (by assumption) ?_
    | refine canon_snd_of (by assumption) ?_ | split | dsimp only | apply canon_mk | apply State.Good.regs
    | apply State.Good.eff | apply State.Good.dram | apply State.Good.host | apply State.Good.pending | apply State.Good.cont
    | apply State.Good.whole | apply State.Good.chutes | apply State.Good.log | apply State.Good.same | apply State.Good.privs
    | apply State.Good.sram

theorem endAll_canon (s : State) (test : State → Inflight → Bool) (hs : s.Good rq) :
    (endAll s test).Good rq := by
  unfold endAll
  repeat' with_reducible first
    | assumption | intro _ | apply endAborted_canon | apply canon_ite | apply canon_foldl | apply canon_foldl1
    | apply canon_foldl2 | split | dsimp only

theorem setCtxs_canon (s : State) (l : List Ctx) (hl : ∀ m, rq.privs = some m → privsIn l m) (hs : s.Good rq) :
    (setCtxs s l).Good rq :=
  State.wr_canon _ _ (canon_mk hs.regs hs.eff hs.dram hs.host hs.pending hs.cont hs.whole hs.chutes hs.log hs.same hl hs.sram)

theorem ctxStop_canon (s : State) (c : Nat) (hs : s.Good rq) :
    (ctxStop s c).Good rq := by
  unfold ctxStop
  repeat' with_reducible first
    | assumption | intro _ | apply conRelease_canon | apply mapDisable_canon | apply canon_ite | apply canon_ite1
    | apply canon_ite2 | apply canon_foldl | apply canon_foldl1 | apply canon_foldl2 | split | dsimp only

theorem ctxFree_canon (s : State) (c : Nat) (hd : rq.mem = none) (hs : s.Good rq) :
    (ctxFree s c).1.Good rq := by
  unfold ctxFree
  repeat' with_reducible first
    | assumption | intro _ | apply conRelease_canon | apply mapDisable_canon | apply releaseClaim_canon | apply canon_ite
    | apply canon_ite1 | apply canon_foldl | apply canon_foldl1 | apply canon_foldl2 | apply State.modFcp_canon
    | apply State.wr_canon | apply ctxStop_canon | split | dsimp only | apply canon_mk | apply State.Good.regs
    | apply State.Good.eff | apply State.Good.dram | apply State.Good.host | apply State.Good.pending
    | apply State.Good.cont | apply State.Good.whole | apply State.Good.chutes | apply State.Good.log
    | apply State.Good.same | apply State.Good.privs | apply State.Good.sram

theorem ctxClose_canon (s : State) (c : Nat) (but : Option (Nat × Nat)) (hd : rq.mem = none) (hs : s.Good rq) :
    (ctxClose s c but).1.Good rq := by
  unfold ctxClose
  repeat' with_reducible first
    | assumption | intro _ | refine privsIn_filter ?_ | apply State.Good.privs
    | apply State.Good.sram | apply State.postEvent_canon
    | apply ctxFree_canon | apply endAll_canon | apply setCtxs_canon | refine canon_fst_of (by assumption) ?_
    | refine canon_snd_of (by assumption) ?_ | split | dsimp only

theorem fnReset_canon (s : State) (f : Nat) (hd : rq.mem = none) (hs : s.Good rq) :
    (fnReset s f).Good rq := by
  unfold fnReset
  repeat' with_reducible first
    | assumption | intro _ | refine privsIn_map ?_ (fun x => bare_priv x _) | apply State.modFn_canon | apply ctxClose_canon
    | apply ctxFree_canon | apply disFnReset_canon | apply dropPairs_canon | apply endAll_canon | apply lockForceOf_canon
    | apply mbxFlush_canon | apply setCtxs_canon | apply canon_ite | apply canon_ite1 | apply canon_foldl
    | apply canon_foldl1 | apply canon_foldl2 | apply ctxStop_canon | apply canon_ite2 | split | dsimp only | apply canon_mk
    | apply State.Good.regs | apply State.Good.eff | apply State.Good.dram | apply State.Good.host
    | apply State.Good.pending | apply State.Good.cont | apply State.Good.whole | apply State.Good.chutes
    | apply State.Good.log | apply State.Good.same | apply State.Good.privs | apply State.Good.sram

theorem execFunctionReset_canon (f : Nat) (s : State) (hd : rq.mem = none) (hs : s.Good rq) :
    OutGood rq (execFunctionReset f s) := by
  unfold execFunctionReset
  repeat' with_reducible first
    | assumption | intro _ | apply fnReset_canon | apply canon_next | apply canon_iteO | apply canon_ite | split | dsimp only

theorem vfOn_canon (s : State) (v : Nat) (hs : s.Good rq) :
    (vfOn s v).Good rq := by
  unfold vfOn
  repeat' with_reducible first
    | assumption | intro _ | refine privsIn_add ?_ rfl | apply State.modFn_canon | apply mbxEnable_canon | apply setCtxs_canon
    | split | dsimp only | apply canon_mk | apply State.Good.regs | apply State.Good.eff | apply State.Good.dram
    | apply State.Good.host | apply State.Good.pending | apply State.Good.cont | apply State.Good.whole
    | apply State.Good.chutes | apply State.Good.log | apply State.Good.same | apply State.Good.privs
    | apply State.Good.sram

theorem vfOff_canon (s : State) (v : Nat) (hd : rq.mem = none) (hs : s.Good rq) :
    (vfOff s v).Good rq := by
  unfold vfOff
  repeat' with_reducible first
    | assumption | intro _ | refine privsIn_filter ?_ | apply State.Good.privs
    | apply State.Good.sram | apply State.modFn_canon | apply fnReset_canon
    | apply mbxEnable_canon | apply setCtxs_canon | split | dsimp only

theorem execVfEnable_canon (n : Nat) (s : State) (hd : rq.mem = none) (hs : s.Good rq) :
    OutGood rq (execVfEnable n s) := by
  unfold execVfEnable
  repeat' with_reducible first
    | assumption | intro _ | apply State.wr_canon | apply vfOff_canon | apply vfOn_canon | apply canon_next | apply canon_iteO
    | apply canon_ite | apply canon_foldl | apply canon_foldl1 | apply canon_foldl2 | split | dsimp only

theorem pairError_canon (s : State) (q : QPair) (hs : s.Good rq) :
    (pairError s q).Good rq := by
  unfold pairError
  repeat' with_reducible first
    | assumption | intro _ | apply State.modFn_canon | apply State.modPair_canon | apply State.postEvent_canon
    | apply State.raise_canon | apply canon_ite | split | dsimp only | apply canon_mk | apply State.Good.regs
    | apply State.Good.eff | apply State.Good.dram | apply State.Good.host | apply State.Good.pending | apply State.Good.cont
    | apply State.Good.whole | apply State.Good.chutes | apply State.Good.log | apply State.Good.same | apply State.Good.privs
    | apply State.Good.sram

theorem aqStart_canon (s : State) (f : Nat) (hs : s.Good rq) :
    (aqStart s f).Good rq := by
  unfold aqStart
  repeat' with_reducible first
    | assumption | intro _ | apply State.modFn_canon | apply State.postEvent_canon | apply State.raise_canon
    | apply State.setPairs_canon | apply canon_ite | refine canon_fst_of (by assumption) ?_
    | refine canon_snd_of (by assumption) ?_ | split | dsimp only | apply canon_mk | apply State.Good.regs
    | apply State.Good.eff | apply State.Good.dram | apply State.Good.host | apply State.Good.pending | apply State.Good.cont
    | apply State.Good.whole | apply State.Good.chutes | apply State.Good.log | apply State.Good.same | apply State.Good.privs
    | apply State.Good.sram

theorem aqCtrlWrite_canon (s : State) (f : Nat) (v : Word) (hs : s.Good rq) :
    (aqCtrlWrite s f v).Good rq := by
  unfold aqCtrlWrite
  repeat' with_reducible first
    | assumption | intro _ | apply State.modFn_canon | apply State.wr_canon | apply aqStart_canon | apply dropPairs_canon
    | apply canon_ite | split | dsimp only | apply canon_mk | apply State.Good.regs | apply State.Good.eff
    | apply State.Good.dram | apply State.Good.host | apply State.Good.pending | apply State.Good.cont
    | apply State.Good.whole | apply State.Good.chutes | apply State.Good.log | apply State.Good.same | apply State.Good.privs
    | apply State.Good.sram

theorem fetched_canon (s : State) (q : QPair) (dws : List Word) (hs : s.Good rq) :
    (fetched s q dws).Good rq := by
  unfold fetched
  repeat' with_reducible first
    | assumption | intro _ | apply State.addInflight_canon | apply State.finish_canon | apply State.modFcp_canon
    | apply State.modPair_canon | apply State.noteDone_canon | apply State.writeReply_canon | apply canon_ite | split
    | dsimp only | apply canon_mk | apply State.Good.regs | apply State.Good.eff | apply State.Good.dram
    | apply State.Good.host | apply State.Good.pending | apply State.Good.cont | apply State.Good.whole
    | apply State.Good.chutes | apply State.Good.log | apply State.Good.same | apply State.Good.privs
    | apply State.Good.sram

end Sys2Proof.Machine
end

