-- ==== Sys2Proof/Laws/CanonHif.lean ====
section
/-!
SUPPORT. What Machine/Hif.lean defines keeps the canonical form of what is stored.
-/

namespace Sys2Proof.Machine

variable {rq : Kept}

theorem execNop_canon (p : Packet) (s : State) (hs : s.Good rq) :
    OutGood rq (execNop p s) := by
  unfold execNop
  repeat' with_reducible first
    | assumption | intro _ | apply fOk_canon | apply fcpStep_canon | apply canon_next | apply canon_iteO | apply canon_iteF
    | apply canon_final | apply canon_wait | apply canon_pend | split | dsimp only

theorem execDeviceInfo_canon (p : Packet) (s : State) (hs : s.Good rq) :
    OutGood rq (execDeviceInfo p s) := by
  unfold execDeviceInfo
  repeat' with_reducible first
    | assumption | intro _ | apply fcpStep_canon | apply canon_next | apply canon_iteO | apply canon_iteF | apply canon_final
    | apply canon_wait | apply canon_pend | split | dsimp only

theorem execQueueCreate_canon (p : Packet) (s : State) (hs : s.Good rq) :
    OutGood rq (execQueueCreate p s) := by
  unfold execQueueCreate
  repeat' with_reducible first
    | assumption | intro _ | apply State.setPairs_canon | apply fcpStep_canon | apply canon_next | apply canon_iteO
    | apply canon_iteF | apply canon_final | apply canon_wait | apply canon_pend | apply canon_ite
    | refine canon_fst_of (by assumption) ?_ | refine canon_snd_of (by assumption) ?_ | split | dsimp only | apply canon_mk
    | apply State.Good.regs | apply State.Good.eff | apply State.Good.dram | apply State.Good.host | apply State.Good.pending
    | apply State.Good.cont | apply State.Good.whole | apply State.Good.chutes | apply State.Good.log | apply State.Good.same
    | apply State.Good.privs
    | apply State.Good.sram

theorem deleteNow_canon (s : State) (q : QPair) (hs : s.Good rq) :
    (deleteNow s q).Good rq := by
  unfold deleteNow
  repeat' with_reducible first
    | assumption | intro _ | apply State.modFcp_canon | apply dropPairs_canon | apply endAll_canon | apply canon_ite | split
    | dsimp only | apply canon_mk | apply State.Good.regs | apply State.Good.eff | apply State.Good.dram
    | apply State.Good.host | apply State.Good.pending | apply State.Good.cont | apply State.Good.whole
    | apply State.Good.chutes | apply State.Good.log | apply State.Good.same | apply State.Good.privs
    | apply State.Good.sram

theorem execQueueDelete_canon (p : Packet) (s : State) (hs : s.Good rq) :
    OutGood rq (execQueueDelete p s) := by
  unfold execQueueDelete
  repeat' with_reducible first
    | assumption | intro _ | apply State.dropPair_canon | apply State.modPair_canon | apply deleteNow_canon | apply fSt_canon
    | apply fcpStep_canon | apply canon_next | apply canon_iteO | apply canon_iteF | apply canon_final | apply canon_wait
    | apply canon_pend | apply canon_ite | refine canon_fst_of (by assumption) ?_ | refine canon_snd_of (by assumption) ?_
    | split | dsimp only | apply canon_mk | apply State.Good.regs | apply State.Good.eff | apply State.Good.dram
    | apply State.Good.host | apply State.Good.pending | apply State.Good.cont | apply State.Good.whole
    | apply State.Good.chutes | apply State.Good.log | apply State.Good.same | apply State.Good.privs
    | apply State.Good.sram

theorem execEventRoute_canon (p : Packet) (s : State) (hs : s.Good rq) :
    OutGood rq (execEventRoute p s) := by
  unfold execEventRoute
  repeat' with_reducible first
    | assumption | intro _ | exact Or.inl fun _ => ⟨rfl, rfl⟩ | apply State.modCtx_canon | apply fOk_canon
    | apply fcpStep_canon | apply canon_next | apply canon_iteO | apply canon_iteF | apply canon_final | apply canon_wait
    | apply canon_pend | split | dsimp only | apply canon_mk | apply State.Good.regs | apply State.Good.eff
    | apply State.Good.dram | apply State.Good.host | apply State.Good.pending | apply State.Good.cont
    | apply State.Good.whole | apply State.Good.chutes | apply State.Good.log | apply State.Good.same | apply State.Good.privs
    | apply State.Good.sram

theorem execAbortCmd_canon (p : Packet) (s : State) (hs : s.Good rq) :
    OutGood rq (execAbortCmd p s) := by
  unfold execAbortCmd
  repeat' with_reducible first
    | assumption | intro _ | apply endAborted_canon | apply fcpStep_canon | apply canon_next | apply canon_iteO
    | apply canon_iteF | apply canon_final | apply canon_wait | apply canon_pend | apply canon_ite
    | refine canon_fst_of (by assumption) ?_ | refine canon_snd_of (by assumption) ?_ | split | dsimp only | apply canon_mk
    | apply State.Good.regs | apply State.Good.eff | apply State.Good.dram | apply State.Good.host | apply State.Good.pending
    | apply State.Good.cont | apply State.Good.whole | apply State.Good.chutes | apply State.Good.log | apply State.Good.same
    | apply State.Good.privs
    | apply State.Good.sram

theorem execPatchLoad_canon (p : Packet) (s : State) (hs : s.Good rq) :
    OutGood rq (execPatchLoad p s) := by
  unfold execPatchLoad
  repeat' with_reducible first
    | assumption | intro _ | apply State.modFcp_canon | apply State.raise_canon | apply State.wr_canon | apply fcpStep_canon
    | apply canon_next | apply canon_iteO | apply canon_iteF | apply canon_final | apply canon_wait | apply canon_pend
    | apply canon_ite | refine canon_fst_of (by assumption) ?_ | refine canon_snd_of (by assumption) ?_ | split | dsimp only
    | apply canon_mk | apply State.Good.regs | apply State.Good.eff | apply State.Good.dram | apply State.Good.host
    | apply State.Good.pending | apply State.Good.cont | apply State.Good.whole | apply State.Good.chutes
    | apply State.Good.log | apply State.Good.same | apply State.Good.privs
    | apply State.Good.sram

theorem execPatchApply_canon (s : State) (hs : s.Good rq) :
    OutGood rq (execPatchApply s) := by
  unfold execPatchApply
  repeat' with_reducible first
    | assumption | intro _ | apply State.modFcp_canon | apply State.postEvent_canon | apply State.wrs_canon | apply canon_next
    | apply canon_iteO | refine canon_fst_of (by assumption) ?_ | refine canon_snd_of (by assumption) ?_ | split | dsimp only
    | apply canon_mk | apply State.Good.regs | apply State.Good.eff | apply State.Good.dram | apply State.Good.host
    | apply State.Good.pending | apply State.Good.cont | apply State.Good.whole | apply State.Good.chutes
    | apply State.Good.log | apply State.Good.same | apply State.Good.privs
    | apply State.Good.sram

theorem execPatchStatus_canon (p : Packet) (s : State) (hs : s.Good rq) :
    OutGood rq (execPatchStatus p s) := by
  unfold execPatchStatus
  repeat' with_reducible first
    | assumption | intro _ | apply fcpStep_canon | apply canon_next | apply canon_iteO | apply canon_iteF | apply canon_final
    | apply canon_wait | apply canon_pend | split | dsimp only

theorem execCtxOpen_canon (p : Packet) (s : State) (hs : s.Good rq) :
    OutGood rq (execCtxOpen p s) := by
  unfold execCtxOpen
  repeat' with_reducible first
    | assumption | intro _ | refine privsIn_add ?_ rfl | apply fcpStep_canon | apply setCtxs_canon | apply canon_next
    | apply canon_iteO | apply canon_iteF | apply canon_final | apply canon_wait | apply canon_pend | apply canon_ite
    | refine canon_fst_of (by assumption) ?_ | refine canon_snd_of (by assumption) ?_ | split | dsimp only | apply canon_mk
    | apply State.Good.regs | apply State.Good.eff | apply State.Good.dram | apply State.Good.host | apply State.Good.pending
    | apply State.Good.cont | apply State.Good.whole | apply State.Good.chutes | apply State.Good.log | apply State.Good.same
    | apply State.Good.privs
    | apply State.Good.sram

theorem execCtxClose_canon (p : Packet) (s : State) (hd : rq.mem = none) (hs : s.Good rq) :
    OutGood rq (execCtxClose p s) := by
  unfold execCtxClose
  repeat' with_reducible first
    | assumption | intro _ | apply ctxClose_canon | apply fcpStep_canon | apply canon_next | apply canon_iteO
    | apply canon_iteF | apply canon_final | apply canon_wait | apply canon_pend | apply canon_ite1 | apply canon_ite2
    | refine canon_fst_of (by assumption) ?_ | refine canon_snd_of (by assumption) ?_ | split | dsimp only | apply canon_mk
    | apply State.Good.regs | apply State.Good.eff | apply State.Good.dram | apply State.Good.host | apply State.Good.pending
    | apply State.Good.cont | apply State.Good.whole | apply State.Good.chutes | apply State.Good.log | apply State.Good.same
    | apply State.Good.privs
    | apply State.Good.sram

theorem execCtxPriv_canon (p : Packet) (s : State) (hp : rq.privs = none) (hs : s.Good rq) :
    OutGood rq (execCtxPriv p s) := by
  unfold execCtxPriv
  repeat' with_reducible first
    | assumption | intro _ | exact Or.inr hp | apply State.modCtx_canon | apply fOk_canon | apply fcpStep_canon
    | apply canon_next | apply canon_iteO | apply canon_iteF | apply canon_final | apply canon_wait | apply canon_pend
    | refine canon_fst_of (by assumption) ?_ | refine canon_snd_of (by assumption) ?_ | split | dsimp only | apply canon_mk
    | apply State.Good.regs | apply State.Good.eff | apply State.Good.dram | apply State.Good.host | apply State.Good.pending
    | apply State.Good.cont | apply State.Good.whole | apply State.Good.chutes | apply State.Good.log | apply State.Good.same
    | apply State.Good.privs
    | apply State.Good.sram

theorem quotaRest_canon (s : State) (hs : s.Good rq) :
    (quotaRest s).Good rq := by
  unfold quotaRest
  repeat' with_reducible first
    | assumption | intro _ | apply State.wrs_canon | split | dsimp only

theorem execCtxQuota_canon (p : Packet) (s : State) (hs : s.Good rq) :
    OutGood rq (execCtxQuota p s) := by
  unfold execCtxQuota
  repeat' with_reducible first
    | assumption | intro _ | apply State.wrs_canon | apply fOk_canon | apply fcpStep_canon | apply quotaRest_canon
    | apply canon_next | apply canon_iteO | apply canon_iteF | apply canon_final | apply canon_wait | apply canon_pend | split
    | dsimp only

theorem execDoorbellSqTail_canon (f i : Nat) (v : Word) (s : State) (hs : s.Good rq) :
    OutGood rq (execDoorbellSqTail f i v s) := by
  unfold execDoorbellSqTail
  repeat' with_reducible first
    | assumption | intro _ | apply State.modPair_canon | apply hostAccess_canon | apply pairError_canon | apply canon_next
    | apply canon_iteO | apply canon_ite | refine canon_fst_of (by assumption) ?_ | refine canon_snd_of (by assumption) ?_
    | split | dsimp only | apply canon_mk | apply State.Good.regs | apply State.Good.eff | apply State.Good.dram
    | apply State.Good.host | apply State.Good.pending | apply State.Good.cont | apply State.Good.whole
    | apply State.Good.chutes | apply State.Good.log | apply State.Good.same | apply State.Good.privs
    | apply State.Good.sram

theorem execDoorbellCqHead_canon (f i : Nat) (v : Word) (s : State) (hs : s.Good rq) :
    OutGood rq (execDoorbellCqHead f i v s) := by
  unfold execDoorbellCqHead
  repeat' with_reducible first
    | assumption | intro _ | apply State.modPair_canon | apply hostAccess_canon | apply pairError_canon | apply canon_next
    | apply canon_iteO | apply canon_ite | refine canon_fst_of (by assumption) ?_ | refine canon_snd_of (by assumption) ?_
    | split | dsimp only | apply canon_mk | apply State.Good.regs | apply State.Good.eff | apply State.Good.dram
    | apply State.Good.host | apply State.Good.pending | apply State.Good.cont | apply State.Good.whole
    | apply State.Good.chutes | apply State.Good.log | apply State.Good.same | apply State.Good.privs
    | apply State.Good.sram

theorem execAqEnable_canon (f : Nat) (v : Word) (s : State) (hs : s.Good rq) :
    OutGood rq (execAqEnable f v s) := by
  unfold execAqEnable
  repeat' with_reducible first
    | assumption | intro _ | apply aqCtrlWrite_canon | apply hostAccess_canon | apply canon_next | apply canon_iteO
    | apply canon_ite | split | dsimp only

theorem execCommandFetch_canon (r : FetchRes) (s : State) (hd : rq.mem = none) (hs : s.Good rq) :
    OutGood rq (execCommandFetch r s) := by
  unfold execCommandFetch
  repeat' with_reducible first
    | assumption | intro _ | apply State.raise_canon | apply ctxClose_canon | apply ctxFree_canon | apply fetched_canon
    | apply pairError_canon | apply canon_next | apply canon_iteO | apply canon_ite | apply canon_ite1
    | refine canon_fst_of (by assumption) ?_ | refine canon_snd_of (by assumption) ?_ | split | dsimp only | apply canon_mk
    | apply State.Good.regs | apply State.Good.eff | apply State.Good.dram | apply State.Good.host | apply State.Good.pending
    | apply State.Good.cont | apply State.Good.whole | apply State.Good.chutes | apply State.Good.log | apply State.Good.same
    | apply State.Good.privs
    | apply State.Good.sram

theorem execFenceStart_canon (q t : Nat) (s : State) (hs : s.Good rq) :
    OutGood rq (execFenceStart q t s) := by
  unfold execFenceStart
  repeat' with_reducible first
    | assumption | intro _ | apply State.modInflight_canon | apply canon_next | apply canon_iteO | apply canon_ite
    | refine canon_fst_of (by assumption) ?_ | refine canon_snd_of (by assumption) ?_ | split | dsimp only | apply canon_mk
    | apply State.Good.regs | apply State.Good.eff | apply State.Good.dram | apply State.Good.host | apply State.Good.pending
    | apply State.Good.cont | apply State.Good.whole | apply State.Good.chutes | apply State.Good.log | apply State.Good.same
    | apply State.Good.privs
    | apply State.Good.sram

theorem execIrqTimeExpiry_canon (q : Nat) (s : State) (hs : s.Good rq) :
    OutGood rq (execIrqTimeExpiry q s) := by
  unfold execIrqTimeExpiry
  repeat' with_reducible first
    | assumption | intro _ | apply State.modPair_canon | apply State.sendMsix_canon | apply canon_next | apply canon_iteO
    | apply canon_ite | refine canon_fst_of (by assumption) ?_ | refine canon_snd_of (by assumption) ?_ | split | dsimp only
    | apply canon_mk | apply State.Good.regs | apply State.Good.eff | apply State.Good.dram | apply State.Good.host
    | apply State.Good.pending | apply State.Good.cont | apply State.Good.whole | apply State.Good.chutes
    | apply State.Good.log | apply State.Good.same | apply State.Good.privs
    | apply State.Good.sram

theorem execEventDelivery_canon (f : Nat) (s : State) (hs : s.Good rq) :
    OutGood rq (execEventDelivery f s) := by
  unfold execEventDelivery
  repeat' with_reducible first
    | assumption | intro _ | apply State.modFn_canon | apply State.writeCq_canon | apply canon_next | apply canon_iteO
    | apply canon_ite | refine canon_fst_of (by assumption) ?_ | refine canon_snd_of (by assumption) ?_ | split | dsimp only
    | apply canon_mk | apply State.Good.regs | apply State.Good.eff | apply State.Good.dram | apply State.Good.host
    | apply State.Good.pending | apply State.Good.cont | apply State.Good.whole | apply State.Good.chutes
    | apply State.Good.log | apply State.Good.same | apply State.Good.privs
    | apply State.Good.sram

theorem hifCtrlWrite_canon (v : Nat) (s : State) (hs : s.Good rq) :
    (hifCtrlWrite v s).Good rq := by
  unfold hifCtrlWrite
  repeat' with_reducible first
    | assumption | intro _ | apply State.zeroFields_canon | apply canon_ite | split | dsimp only

theorem execHifClrCounters_canon (m : Nat) (v : Word) (s : State) (hs : s.Good rq) :
    OutGood rq (execHifClrCounters m v s) := by
  unfold execHifClrCounters
  repeat' with_reducible first
    | assumption | intro _ | apply State.writeBy_canon | apply hifCtrlWrite_canon | apply canon_next | apply canon_iteO
    | split | dsimp only

theorem execMsixVectorUnmask_canon (f v : Nat) (mask : Bool) (s : State) (hs : s.Good rq) :
    OutGood rq (execMsixVectorUnmask f v mask s) := by
  unfold execMsixVectorUnmask
  repeat' with_reducible first
    | assumption | intro _ | apply State.modFn_canon | apply State.sendMsix_canon | apply canon_next | apply canon_iteO
    | apply canon_ite | split | dsimp only | apply canon_mk | apply State.Good.regs | apply State.Good.eff
    | apply State.Good.dram | apply State.Good.host | apply State.Good.pending | apply State.Good.cont
    | apply State.Good.whole | apply State.Good.chutes | apply State.Good.log | apply State.Good.same | apply State.Good.privs
    | apply State.Good.sram

theorem linkChange_canon (s : State) (was : Nat) (hs : s.Good rq) :
    (linkChange s was).Good rq := by
  unfold linkChange
  repeat' with_reducible first
    | assumption | intro _ | apply admRegs_canon | apply capRisen_canon | apply wantRerun_canon | apply canon_ite | split
    | dsimp only

theorem execPcieLinkUp_canon (speed width mps mrrs bar2 : Nat) (s : State) (hs : s.Good rq) :
    OutGood rq (execPcieLinkUp speed width mps mrrs bar2 s) := by
  unfold execPcieLinkUp
  repeat' with_reducible first
    | assumption | intro _ | apply State.modDma_canon | apply State.modFn_canon | apply State.wrs_canon
    | apply linkChange_canon | apply canon_next | apply canon_iteO | apply canon_ite | split | dsimp only | apply canon_mk
    | apply State.Good.regs | apply State.Good.eff | apply State.Good.dram | apply State.Good.host | apply State.Good.pending
    | apply State.Good.cont | apply State.Good.whole | apply State.Good.chutes | apply State.Good.log | apply State.Good.same
    | apply State.Good.privs
    | apply State.Good.sram

theorem execPcieLinkRetrain_canon (speed width : Nat) (s : State) (hs : s.Good rq) :
    OutGood rq (execPcieLinkRetrain speed width s) := by
  unfold execPcieLinkRetrain
  repeat' with_reducible first
    | assumption | intro _ | apply State.wrs_canon | apply linkChange_canon | apply canon_next | apply canon_iteO
    | apply canon_ite | split | dsimp only

theorem restGiveUp_canon (s : State) (hd : rq.mem = none) (hs : s.Good rq) :
    (restGiveUp s).Good rq := by
  unfold restGiveUp
  repeat' with_reducible first
    | assumption | intro _ | apply State.modClk_canon | apply State.wrs_canon | apply dmaResume_canon | apply psNext_canon
    | apply trigPin_canon | split | dsimp only | apply canon_mk | apply State.Good.regs | apply State.Good.eff
    | apply State.Good.dram | apply State.Good.host | apply State.Good.pending | apply State.Good.cont
    | apply State.Good.whole | apply State.Good.chutes | apply State.Good.log | apply State.Good.same | apply State.Good.privs
    | apply State.Good.sram

theorem execCommandTimeout_canon (q t : Nat) (s : State) (hd : rq.mem = none) (hs : s.Good rq) :
    OutGood rq (execCommandTimeout q t s) := by
  unfold execCommandTimeout
  repeat' with_reducible first
    | assumption | intro _ | apply State.finish_canon | apply State.modClk_canon | apply restGiveUp_canon | apply canon_next
    | apply canon_iteO | apply canon_ite | refine canon_fst_of (by assumption) ?_ | refine canon_snd_of (by assumption) ?_
    | split | dsimp only | apply canon_mk | apply State.Good.regs | apply State.Good.eff | apply State.Good.dram
    | apply State.Good.host | apply State.Good.pending | apply State.Good.cont | apply State.Good.whole
    | apply State.Good.chutes | apply State.Good.log | apply State.Good.same | apply State.Good.privs
    | apply State.Good.sram

end Sys2Proof.Machine
end

