-- ==== Sys2Proof/Laws/CanonRegAccess.lean ====
section
/-!
SUPPORT. What Machine/RegAccess.lean defines keeps the canonical form of what is stored.
-/

namespace Sys2Proof.Machine

variable {rq : Kept}

theorem storeReg_canon (s : State) (a v : Nat) (hs : s.Good rq) :
    (storeReg s a v).Good rq := by
  unfold storeReg
  repeat' with_reducible first
    | assumption | intro _ | apply plainWrite_canon | split | dsimp only

theorem glbWrite_canon (a v : Nat) (s : State) (hk : rq.cont = false) (hd : rq.mem = none) (hs : s.Good rq) :
    (glbWrite a v s).Good rq := by
  unfold glbWrite
  repeat' with_reducible first
    | assumption | intro _ | apply State.setReg_canon | apply softResetWrite_canon | apply storeReg_canon | apply canon_ite
    | split | dsimp only

theorem pmuWrite_canon (a v : Nat) (s : State) (hs : s.Good rq) :
    (pmuWrite a v s).Good rq := by
  unfold pmuWrite
  repeat' with_reducible first
    | assumption | intro _ | apply State.modClk_canon | apply avsWrite_canon | apply crefPin_canon | apply pmuCtrlWrite_canon
    | apply ppsSettle_canon | apply storeReg_canon | apply tbsCtrlWrite_canon | apply canon_ite | split | dsimp only
    | apply canon_mk | apply State.Good.regs | apply State.Good.eff | apply State.Good.dram | apply State.Good.host
    | apply State.Good.pending | apply State.Good.cont | apply State.Good.whole | apply State.Good.chutes
    | apply State.Good.log | apply State.Good.same | apply State.Good.privs
    | apply State.Good.sram

theorem hifWrite_canon (a v : Nat) (s : State) (hs : s.Good rq) :
    (hifWrite a v s).Good rq := by
  unfold hifWrite
  repeat' with_reducible first
    | assumption | intro _ | apply hifCtrlWrite_canon | apply quotaRest_canon | apply storeReg_canon | apply canon_ite | split
    | dsimp only

theorem jinWrite_canon (a v : Nat) (s : State) (hs : s.Good rq) :
    (jinWrite a v s).Good rq := by
  unfold jinWrite
  repeat' with_reducible first
    | assumption | intro _ | apply autoRbd_canon | apply cspiCtrlWrite_canon | apply jinCtrlWrite_canon
    | apply jinDerive_canon | apply orderFlag_canon | apply storeReg_canon | apply sysrefApplyIfIdle_canon
    | apply sysrefIssueWrite_canon | apply canon_ite | split | dsimp only | apply canon_mk | apply State.Good.regs
    | apply State.Good.eff | apply State.Good.dram | apply State.Good.host | apply State.Good.pending | apply State.Good.cont
    | apply State.Good.whole | apply State.Good.chutes | apply State.Good.log | apply State.Good.same | apply State.Good.privs
    | apply State.Good.sram

theorem dfuWrite_canon (a v : Nat) (s : State) (hs : s.Good rq) :
    (dfuWrite a v s).Good rq := by
  unfold dfuWrite
  repeat' with_reducible first
    | assumption | intro _ | apply State.applyReg_canon | apply corrCommit_canon | apply dfuCtrlWrite_canon
    | apply dfuDerive_canon | apply dsyncGo_canon | apply dsyncUnit_canon | apply storeReg_canon | apply canon_ite
    | apply State.wr_canon | apply canon_ite1 | apply canon_ite2 | split | dsimp only

theorem trgWrite_canon (a v : Nat) (s : State) (hs : s.Good rq) :
    (trgWrite a v s).Good rq := by
  unfold trgWrite
  repeat' with_reducible first
    | assumption | intro _ | apply State.modNote_canon | apply State.modTrg_canon | apply outMode_canon | apply storeReg_canon
    | apply trgCommitWrite_canon | apply trgCtrlWrite_canon | apply trgFlags_canon | apply trigPin_canon | apply canon_ite
    | split | dsimp only | apply canon_mk | apply State.Good.regs | apply State.Good.eff | apply State.Good.dram
    | apply State.Good.host | apply State.Good.pending | apply State.Good.cont | apply State.Good.whole
    | apply State.Good.chutes | apply State.Good.log | apply State.Good.same | apply State.Good.privs
    | apply State.Good.sram

theorem timWrite_canon (a v : Nat) (s : State) (hs : s.Good rq) :
    (timWrite a v s).Good rq := by
  unfold timWrite
  repeat' with_reducible first
    | assumption | intro _ | apply State.modIn_canon | apply State.modMu_canon | apply lossNow_canon
    | apply muPopWrite_canon | apply storeReg_canon | apply timCtrlWrite_canon | apply canon_ite | apply State.modTim_canon
    | apply canon_ite1 | apply canon_ite2 | split | dsimp only | apply canon_mk | apply State.Good.regs
    | apply State.Good.eff | apply State.Good.dram | apply State.Good.host | apply State.Good.pending
    | apply State.Good.cont | apply State.Good.whole | apply State.Good.chutes | apply State.Good.log
    | apply State.Good.same | apply State.Good.privs | apply State.Good.sram

theorem capWrite_canon (a v : Nat) (s : State) (hs : s.Good rq) :
    (capWrite a v s).Good rq := by
  unfold capWrite
  repeat' with_reducible first
    | assumption | intro _ | apply capCtrlWrite_canon | apply capSpans_canon | apply storeReg_canon | apply canon_ite | split
    | dsimp only

theorem engWrite_canon (a v : Nat) (s : State) (hd : rq.mem = none) (hs : s.Good rq) :
    (engWrite a v s).Good rq := by
  unfold engWrite
  repeat' with_reducible first
    | assumption | intro _ | apply engCtrlWrite_canon | apply mapCtrlWrite_canon | apply storeReg_canon | apply canon_ite
    | split | dsimp only

theorem memWriteReg_canon (a v : Nat) (s : State) (hs : s.Good rq) :
    (memWriteReg a v s).Good rq := by
  unfold memWriteReg
  repeat' with_reducible first
    | assumption | intro _ | apply refClamp_canon | apply memCtrlWrite_canon | apply storeReg_canon | apply trnWrite_canon | apply canon_ite | split
    | dsimp only

theorem disWrite_canon (a v : Nat) (s : State) (hs : s.Good rq) :
    (disWrite a v s).Good rq := by
  unfold disWrite
  repeat' with_reducible first
    | assumption | intro _ | apply disAuxWrite_canon | apply disCtrlWrite_canon | apply disLutData_canon
    | apply disLutWrite_canon | apply disPins_canon | apply layerCommitWrite_canon | apply modeCommitWrite_canon
    | apply storeReg_canon | apply canon_ite | split | dsimp only

theorem mcvWrite_canon (a v : Nat) (s : State) (hs : s.Good rq) :
    (mcvWrite a v s).Good rq := by
  unfold mcvWrite
  repeat' with_reducible first
    | assumption | intro _ | apply State.modMcv_canon | apply dacPin_canon | apply mcvCtrlWrite_canon | apply resPop_canon
    | apply storeReg_canon | apply canon_ite | split | dsimp only | apply canon_mk | apply State.Good.regs
    | apply State.Good.eff | apply State.Good.dram | apply State.Good.host | apply State.Good.pending | apply State.Good.cont
    | apply State.Good.whole | apply State.Good.chutes | apply State.Good.log | apply State.Good.same | apply State.Good.privs
    | apply State.Good.sram

theorem shfWrite_canon (a v : Nat) (s : State) (hs : s.Good rq) :
    (shfWrite a v s).Good rq := by
  unfold shfWrite
  repeat' with_reducible first
    | assumption | intro _ | apply shfCtrlWrite_canon | apply storeReg_canon | apply canon_ite | split | dsimp only
    | apply canon_mk | apply State.Good.regs | apply State.Good.eff | apply State.Good.dram | apply State.Good.host
    | apply State.Good.pending | apply State.Good.cont | apply State.Good.whole | apply State.Good.chutes
    | apply State.Good.log | apply State.Good.same | apply State.Good.privs
    | apply State.Good.sram

theorem writeReg_canon (m a : Nat) (v : Word) (s : State) (hk : rq.cont = false) (hd : rq.mem = none) (hs : s.Good rq) :
    (writeReg m a v s).Good rq := by
  unfold writeReg
  repeat' with_reducible first
    | assumption | intro _ | apply capWrite_canon | apply cmpCtrlWrite_canon | apply dfuWrite_canon | apply disWrite_canon
    | apply dmaCtrlWrite_canon | apply engWrite_canon | apply errAckWrite_canon | apply errCtrlWrite_canon
    | apply glbWrite_canon | apply hifWrite_canon | apply jinWrite_canon | apply mbxWrite_canon | apply mcvWrite_canon
    | apply memWriteReg_canon | apply pmuWrite_canon | apply shfWrite_canon | apply storeReg_canon | apply timWrite_canon
    | apply trgWrite_canon | apply canon_ite | refine canon_fst_of (by assumption) ?_ | refine canon_snd_of (by assumption) ?_
    | split | dsimp only | apply canon_mk | apply State.Good.regs | apply State.Good.eff | apply State.Good.dram
    | apply State.Good.host | apply State.Good.pending | apply State.Good.cont | apply State.Good.whole
    | apply State.Good.chutes | apply State.Good.log | apply State.Good.same | apply State.Good.privs
    | apply State.Good.sram

theorem latchRead_canon (s : State) (a : Nat) (hs : s.Good rq) :
    (latchRead s a).Good rq := by
  unfold latchRead
  repeat' with_reducible first
    | assumption | intro _ | apply canon_foldl | apply canon_foldl1 | apply canon_foldl2 | split | dsimp only | apply canon_mk
    | apply State.Good.regs | apply State.Good.eff | apply State.Good.dram | apply State.Good.host | apply State.Good.pending
    | apply State.Good.cont | apply State.Good.whole | apply State.Good.chutes | apply State.Good.log | apply State.Good.same
    | apply State.Good.privs
    | apply State.Good.sram

theorem readBy_canon (s : State) (m a : Nat) (direct : Bool) (hs : s.Good rq) :
    (readBy s m a direct).2.Good rq := by
  unfold readBy
  repeat' with_reducible first
    | assumption | intro _ | apply State.offAccess_canon | apply latchRead_canon | apply lockTry_canon | apply violation_canon
    | apply canon_ite | apply canon_ite1 | apply canon_ite2 | split | dsimp only

theorem bar4Write_canon (s : State) (f o : Nat) (v : Word) (hs : s.Good rq) :
    (bar4Write s f o v).Good rq := by
  unfold bar4Write
  repeat' with_reducible first
    | assumption | intro _ | apply State.modFn_canon | apply State.wr_canon | apply aqCtrlWrite_canon | apply canon_ite
    | split | dsimp only | apply canon_mk | apply State.Good.regs | apply State.Good.eff | apply State.Good.dram
    | apply State.Good.host | apply State.Good.pending | apply State.Good.cont | apply State.Good.whole
    | apply State.Good.chutes | apply State.Good.log | apply State.Good.same | apply State.Good.privs
    | apply State.Good.sram

theorem execBar0HostWrite_canon (f a : Nat) (v : Word) (s : State) (hk : rq.cont = false) (hd : rq.mem = none) (hs : s.Good rq) :
    OutGood rq (execBar0HostWrite f a v s) := by
  unfold execBar0HostWrite
  repeat' with_reducible first
    | assumption | intro _ | apply State.writeBy_canon | apply writeReg_canon | apply canon_next | apply canon_iteO
    | apply canon_ite | split | dsimp only

theorem execRegisterWrite_canon (m a : Nat) (v : Word) (bar4 : Bool) (s : State) (hk : rq.cont = false) (hd : rq.mem = none) (hs : s.Good rq) :
    OutGood rq (execRegisterWrite m a v bar4 s) := by
  unfold execRegisterWrite
  repeat' with_reducible first
    | assumption | intro _ | apply State.writeBy_canon | apply bar4Write_canon | apply hostAccess_canon | apply writeReg_canon
    | apply canon_next | apply canon_iteO | apply canon_ite | split | dsimp only

theorem execLatchingRead_canon (m a : Nat) (bar4 : Bool) (s : State) (hs : s.Good rq) :
    OutGood rq (execLatchingRead m a bar4 s) := by
  unfold execLatchingRead
  repeat' with_reducible first
    | assumption | intro _ | apply hostAccess_canon | apply readBy_canon | apply canon_next | apply canon_iteO
    | apply canon_ite | apply canon_ite1 | apply canon_ite2 | split | dsimp only | apply canon_mk | apply State.Good.regs
    | apply State.Good.eff | apply State.Good.dram | apply State.Good.host | apply State.Good.pending | apply State.Good.cont
    | apply State.Good.whole | apply State.Good.chutes | apply State.Good.log | apply State.Good.same | apply State.Good.privs
    | apply State.Good.sram

theorem execGlbOffAccessClear_canon (m : Nat) (v : Word) (s : State) (hs : s.Good rq) : OutGood rq (execGlbOffAccessClear m v s) := by
  refine State.writeBy_canon _ _ _ _ hs ?_
  intro t ht
  unfold glbWrite
  rw [if_neg (by decide), if_pos rfl]
  exact canon_ite (State.setReg_canon _ _ ht) ht

theorem windowBytes_canon (a n : Nat) (s : State) (hs : s.Good rq) : (windowBytes a n s).2.Good rq := by
  induction n generalizing a s with
  | zero => exact hs
  | succ n ih => exact ih _ _ (canon_ite2 (State.takeBits_canon 8 hs) hs)

theorem execBar2Access_canon (f ofs n : Nat) (data : Option (List Byte)) (s : State) (hd : rq.mem = none) (hs : s.Good rq) :
    OutGood rq (execBar2Access f ofs n data s) := by
  unfold execBar2Access
  repeat' with_reducible first
    | assumption | intro _ | apply State.bump_canon | apply State.dramWrite_canon | apply hostAccess_canon
    | apply violation_canon | apply windowBytes_canon | apply canon_next | apply canon_iteO
    | apply canon_ite | apply canon_ite1 | apply canon_ite2 | apply canon_foldl | apply canon_foldl1 | apply canon_foldl2
    | refine canon_fst_of (by assumption) ?_ | refine canon_snd_of (by assumption) ?_ | apply State.writeBy_canon
    | apply glbWrite_canon | split | dsimp only | apply canon_mk | apply State.Good.regs | apply State.Good.eff
    | apply State.Good.dram | apply State.Good.host | apply State.Good.pending | apply State.Good.cont
    | apply State.Good.whole | apply State.Good.chutes | apply State.Good.log | apply State.Good.same
    | apply State.Good.privs | apply State.Good.sram

theorem cmdWrite_canon (m a : Nat) (v : Word) (s : State) (hk : rq.cont = false) (hd : rq.mem = none) (hs : s.Good rq) :
    (cmdWrite m a v s).1.Good rq := by
  unfold cmdWrite
  repeat' with_reducible first
    | assumption | intro _ | apply State.offAccess_canon | apply State.wr_canon | apply State.zeroFields_canon
    | apply writeReg_canon | apply canon_ite | apply canon_ite1 | apply canon_foldl | apply canon_foldl1 | apply canon_foldl2
    | split | dsimp only

theorem regReads_canon (p : Packet) (s : State) (hs : s.Good rq) :
    (regReads p s).2.Good rq := by
  unfold regReads
  repeat' with_reducible first
    | assumption | intro _ | apply readBy_canon | apply canon_ite1 | apply canon_ite2 | apply canon_foldl | apply canon_foldl1
    | apply canon_foldl2 | split | dsimp only

theorem regWrites_canon (p : Packet) (s : State) (hk : rq.cont = false) (hd : rq.mem = none) (hs : s.Good rq) :
    (regWrites p s).1.Good rq := by
  unfold regWrites
  repeat' with_reducible first
    | assumption | intro _ | apply cmdWrite_canon | apply canon_ite1 | apply canon_ite2 | apply canon_foldl
    | apply canon_foldl1 | apply canon_foldl2 | split | dsimp only

theorem execRegRead_canon (p : Packet) (s : State) (hs : s.Good rq) :
    OutGood rq (execRegRead p s) := by
  unfold execRegRead
  repeat' with_reducible first
    | assumption | intro _ | apply fcpStep_canon | apply regReads_canon | apply canon_next | apply canon_iteO
    | apply canon_iteF | apply canon_final | apply canon_wait | apply canon_pend | apply canon_ite1 | apply canon_ite2 | split
    | dsimp only

theorem execRegWrite_canon (p : Packet) (s : State) (hk : rq.cont = false) (hd : rq.mem = none) (hs : s.Good rq) :
    OutGood rq (execRegWrite p s) := by
  unfold execRegWrite
  repeat' with_reducible first
    | assumption | intro _ | apply fcpStep_canon | apply regWrites_canon | apply canon_next | apply canon_iteO
    | apply canon_iteF | apply canon_final | apply canon_wait | apply canon_pend | apply canon_ite1 | apply canon_ite2 | split
    | dsimp only

theorem execRegRmw_canon (p : Packet) (s : State) (hk : rq.cont = false) (hd : rq.mem = none) (hs : s.Good rq) :
    OutGood rq (execRegRmw p s) := by
  unfold execRegRmw
  repeat' with_reducible first
    | assumption | intro _ | apply cmdWrite_canon | apply fcpStep_canon | apply readBy_canon | apply canon_next
    | apply canon_iteO | apply canon_iteF | apply canon_final | apply canon_wait | apply canon_pend | apply canon_ite1
    | apply canon_ite2 | split | dsimp only

theorem execRegPoll_canon (p : Packet) (s : State) (hs : s.Good rq) :
    OutGood rq (execRegPoll p s) := by
  unfold execRegPoll
  repeat' with_reducible first
    | assumption | intro _ | apply fcpStep_canon | apply readBy_canon | apply canon_next | apply canon_iteO | apply canon_iteF
    | apply canon_final | apply canon_wait | apply canon_pend | apply canon_ite | apply canon_ite1 | apply canon_ite2 | split
    | dsimp only

theorem execRegPollSample_canon (q t : Nat) (s : State) (hs : s.Good rq) :
    OutGood rq (execRegPollSample q t s) := by
  unfold execRegPollSample
  repeat' with_reducible first
    | assumption | intro _ | apply State.finish_canon | apply State.modInflight_canon | apply readBy_canon | apply canon_next
    | apply canon_iteO | apply canon_ite | apply canon_ite1 | apply canon_ite2 | refine canon_fst_of (by assumption) ?_
    | refine canon_snd_of (by assumption) ?_ | split | dsimp only | apply canon_mk | apply State.Good.regs
    | apply State.Good.eff | apply State.Good.dram | apply State.Good.host | apply State.Good.pending | apply State.Good.cont
    | apply State.Good.whole | apply State.Good.chutes | apply State.Good.log | apply State.Good.same | apply State.Good.privs
    | apply State.Good.sram

end Sys2Proof.Machine
end

