-- ==== Sys2Proof/Laws/CanonTick.lean ====
section
/-!
SUPPORT. What Machine/Tick.lean defines keeps the canonical form of what is stored.
-/

namespace Sys2Proof.Machine

variable {rq : Kept}

theorem whole_next {t : Nat} (h : t % ns1 = 0) : (t + ns1) % ns1 = 0 := by
  rw [Nat.add_mod_right]
  exact h

theorem timePasses_canon (s : State) (ht : rq.time = none) (hs : s.Good rq) :
    (timePasses s).Good rq := by
  unfold timePasses
  repeat' with_reducible first
    | assumption | intro _ | exact ⟨whole_next hs.whole.1, Or.inl ht⟩ | split | dsimp only | apply canon_mk
    | apply State.Good.regs | apply State.Good.eff | apply State.Good.dram | apply State.Good.host | apply State.Good.pending
    | apply State.Good.cont | apply State.Good.whole | apply State.Good.chutes | apply State.Good.log | apply State.Good.same
    | apply State.Good.privs
    | apply State.Good.sram

theorem tickLemc_canon (was : Nat) (s : State) (hs : s.Good rq) :
    (tickLemc was s).Good rq := by
  unfold tickLemc
  repeat' with_reducible first
    | assumption | intro _ | apply State.wr64_canon | apply skewAtEdge_canon | apply canon_ite | apply embCount_canon
    | apply canon_ite1 | apply canon_ite2 | split | dsimp only

theorem tickPins_canon (s : State) (hs : s.Good rq) :
    (tickPins s).Good rq := by
  unfold tickPins
  repeat' with_reducible first
    | assumption | intro _ | apply State.modClk_canon | apply ppsPin_canon | apply canon_ite
    | refine canon_fst_of (by assumption) ?_ | refine canon_snd_of (by assumption) ?_ | split | dsimp only | apply canon_mk
    | apply State.Good.regs | apply State.Good.eff | apply State.Good.dram | apply State.Good.host | apply State.Good.pending
    | apply State.Good.cont | apply State.Good.whole | apply State.Good.chutes | apply State.Good.log | apply State.Good.same
    | apply State.Good.privs
    | apply State.Good.sram

theorem tickAvs_canon (s : State) (hs : s.Good rq) :
    (tickAvs s).Good rq := by
  unfold tickAvs
  split
  · exact canon_ite (avsAck_canon _ hs) hs
  · exact hs

theorem tickTbs_canon (s : State) (hs : s.Good rq) :
    (tickTbs s).Good rq := by
  unfold tickTbs
  repeat' with_reducible first
    | assumption | intro _ | apply State.wr_canon | apply steerRegs_canon | apply canon_ite | split | dsimp only

theorem tickTim_canon (s : State) (hs : s.Good rq) :
    (tickTim s).Good rq := by
  unfold tickTim
  repeat' with_reducible first
    | assumption | intro _ | apply State.bump_canon | apply canon_ite | split | dsimp only

theorem tickEng_canon (s : State) (hs : s.Good rq) :
    (tickEng s).Good rq := by
  unfold tickEng
  repeat' with_reducible first
    | assumption | intro _ | apply State.modEng_canon | apply State.wr_canon | apply canon_ite | apply canon_ite1
    | apply canon_ite2 | apply canon_foldl | apply canon_foldl1 | apply canon_foldl2 | split | dsimp only | apply canon_mk
    | apply State.Good.regs | apply State.Good.eff | apply State.Good.dram | apply State.Good.host | apply State.Good.pending
    | apply State.Good.cont | apply State.Good.whole | apply State.Good.chutes | apply State.Good.log | apply State.Good.same
    | apply State.Good.privs
    | apply State.Good.sram

theorem tickMaps_canon (was : Nat) (s : State) (hs : s.Good rq) :
    (tickMaps was s).Good rq := by
  unfold tickMaps
  repeat' with_reducible first
    | assumption | intro _ | apply State.applyReg_canon | apply canon_ite | apply canon_foldl | apply canon_foldl1
    | apply canon_foldl2 | refine canon_fst_of (by assumption) ?_ | refine canon_snd_of (by assumption) ?_ | split
    | dsimp only | apply canon_mk | apply State.Good.regs | apply State.Good.eff | apply State.Good.dram
    | apply State.Good.host | apply State.Good.pending | apply State.Good.cont | apply State.Good.whole
    | apply State.Good.chutes | apply State.Good.log | apply State.Good.same | apply State.Good.privs
    | apply State.Good.sram

theorem tick_canon (s : State) (hd : rq.mem = none) (ht : rq.time = none) (hs : s.Good rq) :
    (tick s).Good rq := by
  unfold tick
  repeat' with_reducible first
    | assumption | intro _ | apply canon_ite | apply canon_foldl | apply canon_foldl1 | apply canon_foldl2
    | apply canon_ite1 | apply canon_ite2 | apply grpContain_canon | apply notesSettle_canon | apply pipeRun_canon
    | apply tickEng_canon | apply tickLemc_canon | apply tickMaps_canon | apply tickPins_canon | apply tickAvs_canon | apply tickTbs_canon
    | apply tickTim_canon | apply timePasses_canon | apply trgRefresh_canon | split | dsimp only

end Sys2Proof.Machine
end

