-- ==== Sys2Proof/Laws/Fcp.lean ====
section
/-!
SUPPORT. What a command packet's row answers, once for all rows: the checks of R287, then its own effect.
-/

namespace Sys2Proof.Machine

theorem ctxOk_issued (op : Nat) (p : Packet) (s : State) : ctxOk p (issued op p s) = ctxOk p s := rfl

theorem starts_split {op : Nat} {p : Packet} {s : State} (h : starts op p s = true) :
    s.inflight? p.qid (pTag p) = none ∧ mayStart (issued op p s) (inflightOf op p) = true ∧ reservedOk p = true ∧ ctxOk p s = true := by
  simp only [starts, Bool.and_eq_true, Option.isNone_iff_eq_none] at h
  exact ⟨h.1.1.1, h.1.1.2, h.1.2, h.2⟩

/-- A command that starts runs on the state in which it stands among those in flight. -/
theorem fcpStep_run {spec : CmdSpec} {p : Packet} {s : State} (h : starts spec.op p s = true) :
    fcpStep spec p s = .next (runCmd spec (inflightOf spec.op p) p (issued spec.op p s)) := by
  obtain ⟨h1, h2, -, -⟩ := starts_split h
  simp only [issued] at h2
  simp only [fcpStep, fcp, h1, h2, if_true, issued]

/-- The checks of R287 after steps 2 and 3's first half, for a command that starts. -/
theorem check_none {spec : CmdSpec} {op : Nat} {p : Packet} {s : State} (h : starts op p s = true)
    (h1 : spec.pfOnly = false ∨ p.func = 0) (h2 : ∀ b, spec.priv = some b → (issued op p s).hasPriv (pCtx p) b = true)
    (h3 : spec.permit p (issued op p s) = true) (h4 : spec.aligned p (issued op p s) = true)
    (h5 : spec.valid p (issued op p s) = true) (h6 : (issued op p s).err.contained = false ∨ spec.contain = true)
    (h7 : ∀ d, spec.dom = some d → (issued op p s).dom d ≠ 0) (h8 : spec.allowed p (issued op p s) = true) :
    spec.check p (issued op p s) = none := by
  obtain ⟨-, -, hr, hc⟩ := starts_split h
  have hp : (spec.pfOnly && p.func != 0) = false := by
    rcases h1 with h1 | h1 <;> simp [h1]
  have hk : ((issued op p s).err.contained && !spec.contain) = false := by
    rcases h6 with h6 | h6 <;> simp [h6]
  simp only [CmdSpec.check, hr, ctxOk_issued, hc, hp, h3, h4, h5, hk, h8, Bool.not_true, Bool.false_eq_true, if_false]
  cases e : spec.priv with
  | none =>
    cases e' : spec.dom with
    | none => rfl
    | some d => simp [h7 d e']
  | some b =>
    cases e' : spec.dom with
    | none => simp [h2 b e]
    | some d => simp [h2 b e, h7 d e']

/-- A command whose effect ends in a reply completes with it. -/
theorem completes_of {i : Instr} {spec : CmdSpec} {op : Nat} {p : Packet} {s u : State} {r : Reply} (hi : exec i s = fcpStep spec p s)
    (ho : spec.op = op) (h : starts op p s = true) (hc : spec.check p (issued op p s) = none)
    (hr : spec.run p (issued op p s) = .final r u) : Completes i op p s r u := by
  subst ho
  simp only [Completes, hi, fcpStep_run h, runCmd, hc, hr]

/-- A command whose effect ends in a wait waits. -/
theorem waits_of {i : Instr} {spec : CmdSpec} {op : Nat} {p : Packet} {s u : State} {k : WaitKind} {key due : Nat}
    (hi : exec i s = fcpStep spec p s) (ho : spec.op = op) (h : starts op p s = true) (hc : spec.check p (issued op p s) = none)
    (hr : spec.run p (issued op p s) = .wait k key due u) : Waits i p s k key due u := by
  subst ho
  simp only [Waits, hi, fcpStep_run h, runCmd, hc, hr, inflightOf]

/-- A command whose effect ends in a wait with an intermediate entry. -/
theorem pends_of {i : Instr} {spec : CmdSpec} {op : Nat} {p : Packet} {s u : State} {k : WaitKind} {key due : Nat}
    (hi : exec i s = fcpStep spec p s) (ho : spec.op = op) (h : starts op p s = true) (hc : spec.check p (issued op p s) = none)
    (hr : spec.run p (issued op p s) = .pend k key due u) : Pends i op p s k key due u := by
  subst ho
  simp only [Pends, hi, fcpStep_run h, runCmd, hc, hr]
  rfl

/-- A register write that takes effect has its row's effect on the state it finds. -/
theorem writeBy_reaches {m a : Nat} {s : State} (h : reaches m a s = true) (f : State → State) : s.writeBy m a f = f (arrived m s) := by
  simp only [reaches, Bool.and_eq_true, bne_iff_ne] at h
  obtain ⟨h1, h2⟩ := h
  by_cases hm : isHost m = true
  · simp only [hm, if_true, Bool.and_eq_true, arrived] at h1 h2
    simp [State.writeBy, State.gated, arrived, hm, h1, h2]
  · simp only [hm, if_false, arrived, Bool.false_eq_true, Bool.and_eq_true, Bool.not_eq_true'] at h1 h2
    simp [State.writeBy, State.gated, arrived, hm, h1, h2]

end Sys2Proof.Machine
end

