-- ==== Sys2Proof/WellFormed.lean ====
section
/-!
DEFINITION. What a command must satisfy to be one that a sender can send: a packet as Table 10.3 lays it out with its own
opcode, a master of Table 1.6, units, channels, lanes and pins that exist.
-/

namespace Sys2Proof

/-- A master ID that is assigned (R27). -/
def masterOk (m : Nat) : Bool :=
  (1 ≤ m && m ≤ 0x11) || (0x20 ≤ m && m ≤ 0x23) || (0x40 ≤ m && m ≤ 0x9F) || (0xC0 ≤ m && m ≤ 0xC7)

/-- A packet of 16 dwords with an opcode in dw0 bits 7 to 0, in a queue of a function that exist (R270, R276, R282). -/
def Packet.wf (op : Nat) (p : Packet) : Bool :=
  p.func ≤ 16 && p.qid ≤ 511 && p.dws.length == 16 && (p.dws.getD 0 0).toNat % 256 == op

/-- A 64-byte entry fetched from a queue (R278). -/
def FetchRes.wf : FetchRes → Bool
  | .entry ws => ws.length == 16
  | .sqError => true
  | .cqFail q => q ≤ 511
  | .ctxParity c => c ≤ 4095

/-- The opcode of a command packet's row (Table 10.6). -/
def Instr.opcode? : Instr → Option Nat
  | .nop _ => some 0x00
  | .deviceInfo _ => some 0x01
  | .queueCreate _ => some 0x02
  | .queueDelete _ => some 0x03
  | .eventRoute _ => some 0x04
  | .abortCmd _ => some 0x05
  | .patchLoad _ => some 0x06
  | .patchStatus _ => some 0x07
  | .ctxOpen _ => some 0x10
  | .ctxClose _ => some 0x11
  | .ctxPriv _ => some 0x12
  | .ctxQuota _ => some 0x13
  | .contractRequest _ => some 0x14
  | .contractModify _ => some 0x15
  | .contractRelease _ => some 0x16
  | .contractStatus _ => some 0x17
  | .budgetQuery _ => some 0x18
  | .intakeConfig _ => some 0x20
  | .intakeLink _ => some 0x21
  | .intakeStart _ => some 0x22
  | .intakeStop _ => some 0x23
  | .intakeStatus _ => some 0x24
  | .sysrefSet _ => some 0x25
  | .laneTest _ => some 0x26
  | .cspiXfer _ => some 0x27
  | .dfuMode _ => some 0x28
  | .dfuCorr _ => some 0x29
  | .dfuSync _ => some 0x2A
  | .dfuPreset _ => some 0x2B
  | .resampleCfg _ => some 0x2C
  | .dfuStatus _ => some 0x2D
  | .dfuAnchor _ => some 0x2E
  | .trigArm _ => some 0x30
  | .trigDisarm _ => some 0x31
  | .trigForce _ => some 0x32
  | .topnoteSet _ => some 0x33
  | .heartSet _ => some 0x34
  | .heartLimits _ => some 0x35
  | .trigRoute _ => some 0x36
  | .trigOutSet _ => some 0x37
  | .baseSet _ => some 0x38
  | .placeSet _ => some 0x39
  | .placeStatus _ => some 0x3A
  | .baseStatus _ => some 0x3B
  | .capConfig _ => some 0x40
  | .capStatus _ => some 0x41
  | .claimCmd _ => some 0x42
  | .claimRelease _ => some 0x43
  | .segInfo _ => some 0x44
  | .claimRead _ => some 0x45
  | .siloLocate _ => some 0x46
  | .capRebuild _ => some 0x47
  | .chainLoad _ => some 0x50
  | .chainUnload _ => some 0x51
  | .chainStart _ => some 0x52
  | .chainRun _ => some 0x53
  | .chainStatus _ => some 0x54
  | .engStatus _ => some 0x55
  | .engUnfence _ => some 0x56
  | .engGuard _ => some 0x57
  | .pqLoad _ => some 0x58
  | .pqClock _ => some 0x59
  | .mapSet _ => some 0x5A
  | .mapClear _ => some 0x5B
  | .mapStatus _ => some 0x5C
  | .pqStatus _ => some 0x5D
  | .regRead _ => some 0xD0
  | .regWrite _ => some 0xD1
  | .regRmw _ => some 0xD2
  | .regPoll _ => some 0xD3
  | .dmaChanOpen _ => some 0x60
  | .dmaChanClose _ => some 0x61
  | .dmaRingSet _ => some 0x62
  | .dmaStart _ => some 0x63
  | .dmaHalt _ => some 0x64
  | .dmaStatus _ => some 0x65
  | .dmaCopy _ => some 0x66
  | .cmpJob _ => some 0x70
  | .cmpResume _ => some 0x71
  | .cmpAbort _ => some 0x72
  | .cmpStatus _ => some 0x73
  | .memConfig _ => some 0x80
  | .memStatus _ => some 0x81
  | .memRelease _ => some 0x82
  | .memSpare _ => some 0x83
  | .memTrain _ => some 0x84
  | .clkSet _ => some 0x90
  | .clkStatus _ => some 0x91
  | .tbsRef _ => some 0x92
  | .tbsStatus _ => some 0x93
  | .tbsAck _ => some 0x94
  | .timeSet _ => some 0x95
  | .ppsOut _ => some 0x96
  | .pstateSet _ => some 0xE0
  | .pstateStatus _ => some 0xE1
  | .watchConfig _ => some 0xE2
  | .disMode _ => some 0xA0
  | .disLayer _ => some 0xA1
  | .disFlip _ => some 0xA2
  | .disLut _ => some 0xA3
  | .disCrc _ => some 0xA4
  | .disStatus _ => some 0xA5
  | .mcvConfig _ => some 0xB0
  | .mcvSeq _ => some 0xB1
  | .mcvInject _ => some 0xB2
  | .mcvCal _ => some 0xB3
  | .mcvDac _ => some 0xB4
  | .mcvStatus _ => some 0xB5
  | .snapFire _ => some 0xC0
  | .snapRead _ => some 0xC1
  | .errRead _ => some 0xC2
  | .errAck _ => some 0xC3
  | .errInject _ => some 0xC4
  | .patchApply | .admissionRerun | .cspiTransferDone _ | .jinRunWrite _ _ | .jinClrCounters _ _
  | .sysrefIssueGo _ _ | .cspiGo _ _ | .sysrefLaunch | .sysrefPulseCheck | .laneLockLoss _ _
  | .jinBlockArrival _ _ | .linkRelock _ | .jinRelease _ | .dfuOutput _ _ | .anchorUpdate _ | .dfuTempUpdate _
  | .dfuCorrCommitGo _ _ | .corrApply | .dfuSyncGoWrite _ _ | .dsyncApply | .dfuClrCounters _ _ _
  | .periodReportArrival _ | .resamplerCycleStart _ | .resamplerCoast _ | .armTakeEffect | .trgCommitGo _ _
  | .trgShadowApply | .trgClrCounters _ _ | .heartTick | .heartTimerExpiry _ | .topnoteTimeout _
  | .trigOutLaunch | .trigOutPulseEnd | .baseValueArrival _ | .segmentHandoff | .logicEdge _ _ _
  | .edgeAccept _ | .timLossResume _ | .storeGapEnd _ | .transitionRecordHandoff | .tdcCalSwap _
  | .measGateClose _ | .timResPop _ _ _ | .timRunWrite _ _ | .timClrCounters _ _ | .capAutoRebuild
  | .granuleDrain _ _ | .gapNoneHeartbeat | .capClrCounters _ _ | .engClrCounters _ _ _ | .liveWindowReady _
  | .jobDispatch _ | .jobSeal _ | .jobCommit _ _ | .engineWatchdog _ | .engineFault _ _ | .spareActivate _
  | .commitUnitError _ _ | .mapEnableWrite _ _ _ | .finisherRecord | .finisherMemberTimeout _ _ _
  | .aggregationTick _ _ _ | .flickerTick _ | .mapEpochFinal _ | .mapClearStart _ | .doorbellSqTail _ _ _
  | .doorbellCqHead _ _ _ | .aqEnable _ _ | .commandFetch _ | .fenceStart _ _ | .irqTimeExpiry _
  | .eventDelivery _ | .bar0HostWrite _ _ _ | .bar2Access _ _ _ _ | .registerWrite _ _ _ _
  | .latchingRead _ _ _ | .glbOffAccessClear _ _ | .hifClrCounters _ _ | .lockTryRead _ _ _
  | .lockTryWrite _ _ _ | .lockForceWrite _ _ | .mailboxStageWrite _ _ _ _ _ | .mailboxPush _ _ _ _
  | .mailboxPop _ _ _ | .doorbellSet _ _ _ _ | .doorbellClear _ _ _ _ | .doorbellMaskWrite _ _ _ _
  | .mbxClrCounters _ _ | .hostServicePop _ | .mailboxCross _ | .dmaClrCounters _ _ | .dmaDescriptorFetch _ _
  | .dmaRingPoll _ _ | .dmaTransferRelease _ | .dmaBurst _ _ _ | .dmaReadFail _ _ | .dmaTransferComplete _
  | .cmpClrCounters _ _ | .cmpJobEnd _ | .cmpListExhausted _ | .cmpSuspendExpiry _ | .cmpEngineFault _
  | .memClrCounters _ _ _ | .trnGo _ _ _ | .trnStepDone _ _ | .trainingStepTimeout _ _ _ | .dramTrainingDone _
  | .dramInitRegion | .dramRead _ _ _ _ | .rankMigrationDone _ | .scrubRead _ | .refreshSlotDue _ _ _
  | .mr4Poll _ _ _ | .spdHubPoll _ _ _ | .writeAgeExpiry _ _ | .caParityAlert _ _ _ _ | .caAutoRelease _
  | .selfRefreshExit _ _ | .driftRecentre _ | .glideStep _ | .pllLockLoss _ | .pllRelock _ | .mpllLockLoss
  | .mpllReacquire | .aclkLoss | .avsWriteTimeout | .tempSample _ | .throttleStep | .throttleRelease
  | .undervolt | .tbsModeWrite _ _ | .tbsClrCounters _ _ | .pmuClrCounters _ _ | .ppsInEdge _ | .timeStepApply
  | .ref10mGate _ | .refQualified _ | .refLoss _ | .slewComplete | .ppsOutPulse | .alarmFire _ | .wakeNAssert
  | .restHostlinkReturn | .restToWatch | .watchToRecord | .flushCatchupDone | .recordToWatch | .watchToRest
  | .powerOnReset _ _ | .startupCmdReady | .pinReset | .softReset _ _ | .linkReset | .functionReset _
  | .railLoss | .disScanoutEnable _ _ | .disClrCounters _ _ | .disModeCommitGo _ _ | .disLayerCommitGo _ _
  | .disLutSwap _ _ _ | .disLutDataWrite _ _ _ | .disAuxGo _ _ | .auxTransferDone _ _ | .frameLatch
  | .frameStart _ _ | .disLinkTraining _ | .hpdLoss | .irqHpd _ | .hpdRise | .mcvEnWrite _ _
  | .mcvStartWrite _ _ | .mcvInjGo _ _ | .mcvCalGo _ _ | .mcvClrCounters _ _ | .mcvResPop _ _ | .mcvInjAt
  | .mcvDwellEnd _ | .mcvSpanEnd | .mcvRundownDone _ _ | .mcvAbandon | .mcvCoast | .mcvCalPeriod
  | .errAckWrite _ _ | .errClrCounters _ _ | .errRecordDrain _ | .ccHang _ | .shfFireWrite _ _
  | .shfRearmWrite _ _ | .snapInEdge _ | .sheafLatch | .pcieLinkUp _ _ _ _ _ | .pcieLinkRetrain _ _
  | .vfEnable _ | .msixVectorUnmask _ _ _ | .resetNRelease _ | .jtagInstruction _ _ | .commandTimeout _ _
  | .regPollSample _ _ | .laneTestEnd _ _ | .unfenceSelfTestDone _ _ | .mapPassComplete _
  | .cmpBlockBoundary _ => none

/-- The packet that a command packet's row brings. -/
def Instr.packet? : Instr → Option Packet
  | .nop p | .deviceInfo p | .queueCreate p | .queueDelete p | .eventRoute p | .abortCmd p | .patchLoad p
  | .patchStatus p | .ctxOpen p | .ctxClose p | .ctxPriv p | .ctxQuota p | .contractRequest p
  | .contractModify p | .contractRelease p | .contractStatus p | .budgetQuery p | .intakeConfig p
  | .intakeLink p | .intakeStart p | .intakeStop p | .intakeStatus p | .sysrefSet p | .laneTest p
  | .cspiXfer p | .dfuMode p | .dfuCorr p | .dfuSync p | .dfuPreset p | .resampleCfg p | .dfuStatus p
  | .dfuAnchor p | .trigArm p | .trigDisarm p | .trigForce p | .topnoteSet p | .heartSet p | .heartLimits p
  | .trigRoute p | .trigOutSet p | .baseSet p | .placeSet p | .placeStatus p | .baseStatus p | .capConfig p
  | .capStatus p | .claimCmd p | .claimRelease p | .segInfo p | .claimRead p | .siloLocate p | .capRebuild p
  | .chainLoad p | .chainUnload p | .chainStart p | .chainRun p | .chainStatus p | .engStatus p
  | .engUnfence p | .engGuard p | .pqLoad p | .pqClock p | .mapSet p | .mapClear p | .mapStatus p
  | .pqStatus p | .regRead p | .regWrite p | .regRmw p | .regPoll p | .dmaChanOpen p | .dmaChanClose p
  | .dmaRingSet p | .dmaStart p | .dmaHalt p | .dmaStatus p | .dmaCopy p | .cmpJob p | .cmpResume p
  | .cmpAbort p | .cmpStatus p | .memConfig p | .memStatus p | .memRelease p | .memSpare p | .memTrain p
  | .clkSet p | .clkStatus p | .tbsRef p | .tbsStatus p | .tbsAck p | .timeSet p | .ppsOut p | .pstateSet p
  | .pstateStatus p | .watchConfig p | .disMode p | .disLayer p | .disFlip p | .disLut p | .disCrc p
  | .disStatus p | .mcvConfig p | .mcvSeq p | .mcvInject p | .mcvCal p | .mcvDac p | .mcvStatus p
  | .snapFire p | .snapRead p | .errRead p | .errAck p | .errInject p => some p
  | .patchApply | .admissionRerun | .cspiTransferDone _ | .jinRunWrite _ _ | .jinClrCounters _ _
  | .sysrefIssueGo _ _ | .cspiGo _ _ | .sysrefLaunch | .sysrefPulseCheck | .laneLockLoss _ _
  | .jinBlockArrival _ _ | .linkRelock _ | .jinRelease _ | .dfuOutput _ _ | .anchorUpdate _ | .dfuTempUpdate _
  | .dfuCorrCommitGo _ _ | .corrApply | .dfuSyncGoWrite _ _ | .dsyncApply | .dfuClrCounters _ _ _
  | .periodReportArrival _ | .resamplerCycleStart _ | .resamplerCoast _ | .armTakeEffect | .trgCommitGo _ _
  | .trgShadowApply | .trgClrCounters _ _ | .heartTick | .heartTimerExpiry _ | .topnoteTimeout _
  | .trigOutLaunch | .trigOutPulseEnd | .baseValueArrival _ | .segmentHandoff | .logicEdge _ _ _
  | .edgeAccept _ | .timLossResume _ | .storeGapEnd _ | .transitionRecordHandoff | .tdcCalSwap _
  | .measGateClose _ | .timResPop _ _ _ | .timRunWrite _ _ | .timClrCounters _ _ | .capAutoRebuild
  | .granuleDrain _ _ | .gapNoneHeartbeat | .capClrCounters _ _ | .engClrCounters _ _ _ | .liveWindowReady _
  | .jobDispatch _ | .jobSeal _ | .jobCommit _ _ | .engineWatchdog _ | .engineFault _ _ | .spareActivate _
  | .commitUnitError _ _ | .mapEnableWrite _ _ _ | .finisherRecord | .finisherMemberTimeout _ _ _
  | .aggregationTick _ _ _ | .flickerTick _ | .mapEpochFinal _ | .mapClearStart _ | .doorbellSqTail _ _ _
  | .doorbellCqHead _ _ _ | .aqEnable _ _ | .commandFetch _ | .fenceStart _ _ | .irqTimeExpiry _
  | .eventDelivery _ | .bar0HostWrite _ _ _ | .bar2Access _ _ _ _ | .registerWrite _ _ _ _
  | .latchingRead _ _ _ | .glbOffAccessClear _ _ | .hifClrCounters _ _ | .lockTryRead _ _ _
  | .lockTryWrite _ _ _ | .lockForceWrite _ _ | .mailboxStageWrite _ _ _ _ _ | .mailboxPush _ _ _ _
  | .mailboxPop _ _ _ | .doorbellSet _ _ _ _ | .doorbellClear _ _ _ _ | .doorbellMaskWrite _ _ _ _
  | .mbxClrCounters _ _ | .hostServicePop _ | .mailboxCross _ | .dmaClrCounters _ _ | .dmaDescriptorFetch _ _
  | .dmaRingPoll _ _ | .dmaTransferRelease _ | .dmaBurst _ _ _ | .dmaReadFail _ _ | .dmaTransferComplete _
  | .cmpClrCounters _ _ | .cmpJobEnd _ | .cmpListExhausted _ | .cmpSuspendExpiry _ | .cmpEngineFault _
  | .memClrCounters _ _ _ | .trnGo _ _ _ | .trnStepDone _ _ | .trainingStepTimeout _ _ _ | .dramTrainingDone _
  | .dramInitRegion | .dramRead _ _ _ _ | .rankMigrationDone _ | .scrubRead _ | .refreshSlotDue _ _ _
  | .mr4Poll _ _ _ | .spdHubPoll _ _ _ | .writeAgeExpiry _ _ | .caParityAlert _ _ _ _ | .caAutoRelease _
  | .selfRefreshExit _ _ | .driftRecentre _ | .glideStep _ | .pllLockLoss _ | .pllRelock _ | .mpllLockLoss
  | .mpllReacquire | .aclkLoss | .avsWriteTimeout | .tempSample _ | .throttleStep | .throttleRelease
  | .undervolt | .tbsModeWrite _ _ | .tbsClrCounters _ _ | .pmuClrCounters _ _ | .ppsInEdge _ | .timeStepApply
  | .ref10mGate _ | .refQualified _ | .refLoss _ | .slewComplete | .ppsOutPulse | .alarmFire _ | .wakeNAssert
  | .restHostlinkReturn | .restToWatch | .watchToRecord | .flushCatchupDone | .recordToWatch | .watchToRest
  | .powerOnReset _ _ | .startupCmdReady | .pinReset | .softReset _ _ | .linkReset | .functionReset _
  | .railLoss | .disScanoutEnable _ _ | .disClrCounters _ _ | .disModeCommitGo _ _ | .disLayerCommitGo _ _
  | .disLutSwap _ _ _ | .disLutDataWrite _ _ _ | .disAuxGo _ _ | .auxTransferDone _ _ | .frameLatch
  | .frameStart _ _ | .disLinkTraining _ | .hpdLoss | .irqHpd _ | .hpdRise | .mcvEnWrite _ _
  | .mcvStartWrite _ _ | .mcvInjGo _ _ | .mcvCalGo _ _ | .mcvClrCounters _ _ | .mcvResPop _ _ | .mcvInjAt
  | .mcvDwellEnd _ | .mcvSpanEnd | .mcvRundownDone _ _ | .mcvAbandon | .mcvCoast | .mcvCalPeriod
  | .errAckWrite _ _ | .errClrCounters _ _ | .errRecordDrain _ | .ccHang _ | .shfFireWrite _ _
  | .shfRearmWrite _ _ | .snapInEdge _ | .sheafLatch | .pcieLinkUp _ _ _ _ _ | .pcieLinkRetrain _ _
  | .vfEnable _ | .msixVectorUnmask _ _ _ | .resetNRelease _ | .jtagInstruction _ _ | .commandTimeout _ _
  | .regPollSample _ _ | .laneTestEnd _ _ | .unfenceSelfTestDone _ _ | .mapPassComplete _
  | .cmpBlockBoundary _ => none

/-- Whether a command is well formed. -/
def Instr.wf (i : Instr) : Bool :=
  match i with
  | .nop p => p.wf 0x00
  | .deviceInfo p => p.wf 0x01
  | .queueCreate p => p.wf 0x02
  | .queueDelete p => p.wf 0x03
  | .eventRoute p => p.wf 0x04
  | .abortCmd p => p.wf 0x05
  | .patchLoad p => p.wf 0x06
  | .patchStatus p => p.wf 0x07
  | .ctxOpen p => p.wf 0x10
  | .ctxClose p => p.wf 0x11
  | .ctxPriv p => p.wf 0x12
  | .ctxQuota p => p.wf 0x13
  | .contractRequest p => p.wf 0x14
  | .contractModify p => p.wf 0x15
  | .contractRelease p => p.wf 0x16
  | .contractStatus p => p.wf 0x17
  | .budgetQuery p => p.wf 0x18
  | .intakeConfig p => p.wf 0x20
  | .intakeLink p => p.wf 0x21
  | .intakeStart p => p.wf 0x22
  | .intakeStop p => p.wf 0x23
  | .intakeStatus p => p.wf 0x24
  | .sysrefSet p => p.wf 0x25
  | .laneTest p => p.wf 0x26
  | .cspiXfer p => p.wf 0x27
  | .dfuMode p => p.wf 0x28
  | .dfuCorr p => p.wf 0x29
  | .dfuSync p => p.wf 0x2A
  | .dfuPreset p => p.wf 0x2B
  | .resampleCfg p => p.wf 0x2C
  | .dfuStatus p => p.wf 0x2D
  | .dfuAnchor p => p.wf 0x2E
  | .trigArm p => p.wf 0x30
  | .trigDisarm p => p.wf 0x31
  | .trigForce p => p.wf 0x32
  | .topnoteSet p => p.wf 0x33
  | .heartSet p => p.wf 0x34
  | .heartLimits p => p.wf 0x35
  | .trigRoute p => p.wf 0x36
  | .trigOutSet p => p.wf 0x37
  | .baseSet p => p.wf 0x38
  | .placeSet p => p.wf 0x39
  | .placeStatus p => p.wf 0x3A
  | .baseStatus p => p.wf 0x3B
  | .capConfig p => p.wf 0x40
  | .capStatus p => p.wf 0x41
  | .claimCmd p => p.wf 0x42
  | .claimRelease p => p.wf 0x43
  | .segInfo p => p.wf 0x44
  | .claimRead p => p.wf 0x45
  | .siloLocate p => p.wf 0x46
  | .capRebuild p => p.wf 0x47
  | .chainLoad p => p.wf 0x50
  | .chainUnload p => p.wf 0x51
  | .chainStart p => p.wf 0x52
  | .chainRun p => p.wf 0x53
  | .chainStatus p => p.wf 0x54
  | .engStatus p => p.wf 0x55
  | .engUnfence p => p.wf 0x56
  | .engGuard p => p.wf 0x57
  | .pqLoad p => p.wf 0x58
  | .pqClock p => p.wf 0x59
  | .mapSet p => p.wf 0x5A
  | .mapClear p => p.wf 0x5B
  | .mapStatus p => p.wf 0x5C
  | .pqStatus p => p.wf 0x5D
  | .regRead p => p.wf 0xD0
  | .regWrite p => p.wf 0xD1
  | .regRmw p => p.wf 0xD2
  | .regPoll p => p.wf 0xD3
  | .dmaChanOpen p => p.wf 0x60
  | .dmaChanClose p => p.wf 0x61
  | .dmaRingSet p => p.wf 0x62
  | .dmaStart p => p.wf 0x63
  | .dmaHalt p => p.wf 0x64
  | .dmaStatus p => p.wf 0x65
  | .dmaCopy p => p.wf 0x66
  | .cmpJob p => p.wf 0x70
  | .cmpResume p => p.wf 0x71
  | .cmpAbort p => p.wf 0x72
  | .cmpStatus p => p.wf 0x73
  | .memConfig p => p.wf 0x80
  | .memStatus p => p.wf 0x81
  | .memRelease p => p.wf 0x82
  | .memSpare p => p.wf 0x83
  | .memTrain p => p.wf 0x84
  | .clkSet p => p.wf 0x90
  | .clkStatus p => p.wf 0x91
  | .tbsRef p => p.wf 0x92
  | .tbsStatus p => p.wf 0x93
  | .tbsAck p => p.wf 0x94
  | .timeSet p => p.wf 0x95
  | .ppsOut p => p.wf 0x96
  | .pstateSet p => p.wf 0xE0
  | .pstateStatus p => p.wf 0xE1
  | .watchConfig p => p.wf 0xE2
  | .disMode p => p.wf 0xA0
  | .disLayer p => p.wf 0xA1
  | .disFlip p => p.wf 0xA2
  | .disLut p => p.wf 0xA3
  | .disCrc p => p.wf 0xA4
  | .disStatus p => p.wf 0xA5
  | .mcvConfig p => p.wf 0xB0
  | .mcvSeq p => p.wf 0xB1
  | .mcvInject p => p.wf 0xB2
  | .mcvCal p => p.wf 0xB3
  | .mcvDac p => p.wf 0xB4
  | .mcvStatus p => p.wf 0xB5
  | .snapFire p => p.wf 0xC0
  | .snapRead p => p.wf 0xC1
  | .errRead p => p.wf 0xC2
  | .errAck p => p.wf 0xC3
  | .errInject p => p.wf 0xC4
  | .jinRunWrite m _ | .jinClrCounters m _ | .sysrefIssueGo m _ | .cspiGo m _ | .dfuCorrCommitGo m _
  | .dfuSyncGoWrite m _ | .trgCommitGo m _ | .trgClrCounters m _ | .timRunWrite m _
  | .timClrCounters m _ | .capClrCounters m _ | .glbOffAccessClear m _ | .hifClrCounters m _
  | .lockForceWrite m _ | .mbxClrCounters m _ | .dmaClrCounters m _ | .cmpClrCounters m _
  | .tbsModeWrite m _ | .tbsClrCounters m _ | .pmuClrCounters m _ | .softReset m _
  | .disScanoutEnable m _ | .disClrCounters m _ | .disModeCommitGo m _ | .disLayerCommitGo m _
  | .disAuxGo m _ | .mcvEnWrite m _ | .mcvStartWrite m _ | .mcvInjGo m _ | .mcvCalGo m _
  | .mcvClrCounters m _ | .mcvResPop m _ | .errAckWrite m _ | .errClrCounters m _ | .shfFireWrite m _
  | .shfRearmWrite m _ => masterOk m
  | .cspiTransferDone miso => miso.length ≤ 32
  | .laneLockLoss lane _ => lane < 24
  | .jinBlockArrival lane blk => lane < 24 && blk.octets.length == 8
  | .linkRelock k | .jinRelease k => k < 12
  | .dfuOutput u parity => u < 12 && parity ≤ 2
  | .anchorUpdate u | .resamplerCycleStart u | .resamplerCoast u => u < 12
  | .dfuTempUpdate t | .tempSample t => t < 65536
  | .dfuClrCounters m u _ => masterOk m && u < 12
  | .periodReportArrival f => f < 8
  | .heartTimerExpiry k => k < 4
  | .topnoteTimeout n => n < 64
  | .baseValueArrival rec => rec.length == 32
  | .logicEdge n _ _ | .edgeAccept n | .timLossResume n => n ≤ 64
  | .storeGapEnd src => src < 96
  | .tdcCalSwap r => r.fails < 2 ^ 65
      && r.tim.all (fun i => i ≤ 64 || (0x50 ≤ i && i < 0x60) || (0x100 ≤ i && i < 0x108) || (0x200 ≤ i && i < 0x210))
      && r.trg.all (fun i => i < 64 || (0x80 ≤ i && i < 0x90))
  | .measGateClose u => u < 16
  | .timResPop u m _ => u < 16 && masterOk m
  | .granuleDrain id _ => id < 80
  | .engClrCounters m b _ => masterOk m && b < 12
  | .liveWindowReady id | .flickerTick id | .cmpSuspendExpiry id => id < 65536
  | .jobDispatch n | .jobSeal n | .engineWatchdog n | .unfenceSelfTestDone n _ => n < 96
  | .jobCommit b _ | .spareActivate b | .commitUnitError b _ => b < 12
  | .engineFault n typ => n < 96 && 1 ≤ typ && typ ≤ 3
  | .mapEnableWrite m k _ => masterOk m && k < 16
  | .finisherMemberTimeout ctx g _ => ctx ≤ 4095 && 1 ≤ g && g ≤ 15
  | .aggregationTick ctx g ival => ctx ≤ 4095 && 1 ≤ g && g ≤ 15 && ival ≤ 2
  | .mapEpochFinal k | .mapClearStart k | .mapPassComplete k => k < 16
  | .doorbellSqTail f i _ | .doorbellCqHead f i _ => f ≤ 16 && i ≤ 511
  | .aqEnable f _ | .eventDelivery f | .bar2Access f _ _ _ | .functionReset f | .msixVectorUnmask f _ _ => f ≤ 16
  | .commandFetch r => r.wf
  | .fenceStart q t | .commandTimeout q t | .regPollSample q t => q ≤ 511 && t ≤ 4095
  | .irqTimeExpiry q => q ≤ 511
  | .bar0HostWrite f a _ => f ≤ 16 && a < 16777216 && a % 4 == 0
  | .registerWrite m a _ bar4
  | .latchingRead m a bar4 => (if bar4 then 1 ≤ m && m ≤ 0x11 && a < 1048576 else masterOk m && a < 16777216) && a % 4 == 0
  | .lockTryRead m n others => masterOk m && n < 64 && others.all (fun x => masterOk x.1)
  | .lockTryWrite m n _ => masterOk m && n < 64
  | .mailboxStageWrite m i _ j _ => masterOk m && i < 32 && j < 4
  | .mailboxPush m i _ ws => masterOk m && i < 32 && ws.length == 4
  | .mailboxPop m i _ | .doorbellSet m i _ _ | .doorbellClear m i _ _
  | .doorbellMaskWrite m i _ _ => masterOk m && i < 32
  | .hostServicePop i | .mailboxCross i => i < 32
  | .dmaDescriptorFetch c bytes | .dmaRingPoll c bytes => c < 128 && bytes.length == 64
  | .dmaTransferRelease c | .dmaReadFail c _ | .dmaTransferComplete c => c < 128
  | .dmaBurst g _ _ => g < 8
  | .cmpJobEnd e | .cmpListExhausted e | .cmpEngineFault e | .cmpBlockBoundary e => e < 8
  | .memClrCounters m c _ | .trnGo m c _ => masterOk m && c < 8
  | .trnStepDone c lanes => c < 8 && lanes < 2 ^ 80
  | .trainingStepTimeout c step rank => c < 8 && step ≤ 15 && rank < 8
  | .dramTrainingDone found => found.dimms ≤ 2 && found.ranks ≤ 4
  | .dramRead _ port _ _ => port < 5
  | .rankMigrationDone c | .caAutoRelease c | .selfRefreshExit c _ | .driftRecentre c => c < 8
  | .refreshSlotDue c p _ => c < 8 && p < 8
  | .mr4Poll c p ind => c < 8 && p < 8 && ind < 8
  | .spdHubPoll c d _ => c < 8 && d < 2
  | .writeAgeExpiry c sc => c < 8 && sc < 2
  | .caParityAlert c _ _ rank => c < 8 && rank < 8
  | .glideStep p => p < 2
  | .pllLockLoss p | .pllRelock p => p < 3
  | .disLutSwap m k _ => masterOk m && k < 3
  | .disLutDataWrite m i _ => masterOk m && i < 1024
  | .auxTransferDone _ data => data.length ≤ 16
  | .mcvRundownDone sub _ => !sub.isEmpty
  | .ccHang core => core < 4
  | .pcieLinkUp speed width _ _ _
  | .pcieLinkRetrain speed width => 1 ≤ speed && speed ≤ 5 && (width == 1 || width == 2 || width == 4 || width == 8)
  | .vfEnable n => n ≤ 16
  | .jtagInstruction code _ => code < 256
  | .laneTestEnd errs _ => errs.length ≤ 24
  | .patchApply | .admissionRerun | .sysrefLaunch | .sysrefPulseCheck | .corrApply | .dsyncApply
  | .armTakeEffect | .trgShadowApply | .heartTick | .trigOutLaunch | .trigOutPulseEnd | .segmentHandoff
  | .transitionRecordHandoff | .capAutoRebuild | .gapNoneHeartbeat | .finisherRecord | .dramInitRegion
  | .scrubRead _ | .mpllLockLoss | .mpllReacquire | .aclkLoss | .avsWriteTimeout | .throttleStep
  | .throttleRelease | .undervolt | .ppsInEdge _ | .timeStepApply | .ref10mGate _ | .refQualified _
  | .refLoss _ | .slewComplete | .ppsOutPulse | .alarmFire _ | .wakeNAssert | .restHostlinkReturn
  | .restToWatch | .watchToRecord | .flushCatchupDone | .recordToWatch | .watchToRest | .powerOnReset _ _
  | .startupCmdReady | .pinReset | .linkReset | .railLoss | .frameLatch | .frameStart _ _ | .disLinkTraining _
  | .hpdLoss | .irqHpd _ | .hpdRise | .mcvInjAt | .mcvDwellEnd _ | .mcvSpanEnd | .mcvAbandon | .mcvCoast
  | .mcvCalPeriod | .errRecordDrain _ | .snapInEdge _ | .sheafLatch | .resetNRelease _ => true

end Sys2Proof
end

