-- ==== Sys2Proof/Laws/PerInstr.lean ====
section
/-!
SUPPORT. What holds of every command as syntax, one lemma per constructor: a well-formed packet is one of Table 10.3.
-/

namespace Sys2Proof

/-- A well-formed command that brings a packet brings 16 dwords, its row's opcode in the low byte of the first. -/
def Laws.Wf.Statement (i : Instr) : Prop :=
  i.wf = true → ∀ p op, i.packet? = some p → i.opcode? = some op → p.dws.length = 16 ∧ (p.dws.getD 0 0).toNat % 256 = op

theorem Laws.Wf.of_packet {i : Instr} {q : Packet} {o : Nat} (hp : i.packet? = some q) (ho : i.opcode? = some o)
    (hw : i.wf = q.wf o) : Laws.Wf.Statement i := by
  intro h p op h1 h2
  rw [hp] at h1
  rw [ho] at h2
  cases h1
  cases h2
  rw [hw] at h
  simp only [Packet.wf, Bool.and_eq_true, beq_iff_eq] at h
  exact ⟨h.1.2, h.2⟩

theorem Laws.Wf.of_event {i : Instr} (hp : i.packet? = none) : Laws.Wf.Statement i := by
  intro _ p op h1
  rw [hp] at h1
  cases h1

theorem Laws.Wf.nop (p : Packet) : Laws.Wf.Statement (.nop p) := Laws.Wf.of_packet rfl rfl rfl
theorem Laws.Wf.deviceInfo (p : Packet) : Laws.Wf.Statement (.deviceInfo p) := Laws.Wf.of_packet rfl rfl rfl
theorem Laws.Wf.queueCreate (p : Packet) : Laws.Wf.Statement (.queueCreate p) := Laws.Wf.of_packet rfl rfl rfl
theorem Laws.Wf.queueDelete (p : Packet) : Laws.Wf.Statement (.queueDelete p) := Laws.Wf.of_packet rfl rfl rfl
theorem Laws.Wf.eventRoute (p : Packet) : Laws.Wf.Statement (.eventRoute p) := Laws.Wf.of_packet rfl rfl rfl
theorem Laws.Wf.abortCmd (p : Packet) : Laws.Wf.Statement (.abortCmd p) := Laws.Wf.of_packet rfl rfl rfl
theorem Laws.Wf.patchLoad (p : Packet) : Laws.Wf.Statement (.patchLoad p) := Laws.Wf.of_packet rfl rfl rfl
theorem Laws.Wf.patchApply : Laws.Wf.Statement .patchApply := Laws.Wf.of_event rfl
theorem Laws.Wf.patchStatus (p : Packet) : Laws.Wf.Statement (.patchStatus p) := Laws.Wf.of_packet rfl rfl rfl
theorem Laws.Wf.ctxOpen (p : Packet) : Laws.Wf.Statement (.ctxOpen p) := Laws.Wf.of_packet rfl rfl rfl
theorem Laws.Wf.ctxClose (p : Packet) : Laws.Wf.Statement (.ctxClose p) := Laws.Wf.of_packet rfl rfl rfl
theorem Laws.Wf.ctxPriv (p : Packet) : Laws.Wf.Statement (.ctxPriv p) := Laws.Wf.of_packet rfl rfl rfl
theorem Laws.Wf.ctxQuota (p : Packet) : Laws.Wf.Statement (.ctxQuota p) := Laws.Wf.of_packet rfl rfl rfl
theorem Laws.Wf.contractRequest (p : Packet) : Laws.Wf.Statement (.contractRequest p) := Laws.Wf.of_packet rfl rfl rfl
theorem Laws.Wf.contractModify (p : Packet) : Laws.Wf.Statement (.contractModify p) := Laws.Wf.of_packet rfl rfl rfl
theorem Laws.Wf.contractRelease (p : Packet) : Laws.Wf.Statement (.contractRelease p) := Laws.Wf.of_packet rfl rfl rfl
theorem Laws.Wf.contractStatus (p : Packet) : Laws.Wf.Statement (.contractStatus p) := Laws.Wf.of_packet rfl rfl rfl
theorem Laws.Wf.budgetQuery (p : Packet) : Laws.Wf.Statement (.budgetQuery p) := Laws.Wf.of_packet rfl rfl rfl
theorem Laws.Wf.admissionRerun : Laws.Wf.Statement .admissionRerun := Laws.Wf.of_event rfl
theorem Laws.Wf.intakeConfig (p : Packet) : Laws.Wf.Statement (.intakeConfig p) := Laws.Wf.of_packet rfl rfl rfl
theorem Laws.Wf.intakeLink (p : Packet) : Laws.Wf.Statement (.intakeLink p) := Laws.Wf.of_packet rfl rfl rfl
theorem Laws.Wf.intakeStart (p : Packet) : Laws.Wf.Statement (.intakeStart p) := Laws.Wf.of_packet rfl rfl rfl
theorem Laws.Wf.intakeStop (p : Packet) : Laws.Wf.Statement (.intakeStop p) := Laws.Wf.of_packet rfl rfl rfl
theorem Laws.Wf.intakeStatus (p : Packet) : Laws.Wf.Statement (.intakeStatus p) := Laws.Wf.of_packet rfl rfl rfl
theorem Laws.Wf.sysrefSet (p : Packet) : Laws.Wf.Statement (.sysrefSet p) := Laws.Wf.of_packet rfl rfl rfl
theorem Laws.Wf.laneTest (p : Packet) : Laws.Wf.Statement (.laneTest p) := Laws.Wf.of_packet rfl rfl rfl
theorem Laws.Wf.cspiXfer (p : Packet) : Laws.Wf.Statement (.cspiXfer p) := Laws.Wf.of_packet rfl rfl rfl
theorem Laws.Wf.cspiTransferDone (miso : List Byte) : Laws.Wf.Statement (.cspiTransferDone miso) := Laws.Wf.of_event rfl
theorem Laws.Wf.jinRunWrite (m : Nat) (v : Word) : Laws.Wf.Statement (.jinRunWrite m v) := Laws.Wf.of_event rfl
theorem Laws.Wf.jinClrCounters (m : Nat) (v : Word) : Laws.Wf.Statement (.jinClrCounters m v) := Laws.Wf.of_event rfl
theorem Laws.Wf.sysrefIssueGo (m : Nat) (v : Word) : Laws.Wf.Statement (.sysrefIssueGo m v) := Laws.Wf.of_event rfl
theorem Laws.Wf.cspiGo (m : Nat) (v : Word) : Laws.Wf.Statement (.cspiGo m v) := Laws.Wf.of_event rfl
theorem Laws.Wf.sysrefLaunch : Laws.Wf.Statement .sysrefLaunch := Laws.Wf.of_event rfl
theorem Laws.Wf.sysrefPulseCheck : Laws.Wf.Statement .sysrefPulseCheck := Laws.Wf.of_event rfl
theorem Laws.Wf.laneLockLoss (lane : Nat) (what : LaneLock) : Laws.Wf.Statement (.laneLockLoss lane what) := Laws.Wf.of_event rfl
theorem Laws.Wf.jinBlockArrival (lane : Nat) (blk : LaneBlock) : Laws.Wf.Statement (.jinBlockArrival lane blk) := Laws.Wf.of_event rfl
theorem Laws.Wf.linkRelock (k : Nat) : Laws.Wf.Statement (.linkRelock k) := Laws.Wf.of_event rfl
theorem Laws.Wf.jinRelease (k : Nat) : Laws.Wf.Statement (.jinRelease k) := Laws.Wf.of_event rfl
theorem Laws.Wf.dfuOutput (u parity : Nat) : Laws.Wf.Statement (.dfuOutput u parity) := Laws.Wf.of_event rfl
theorem Laws.Wf.anchorUpdate (u : Nat) : Laws.Wf.Statement (.anchorUpdate u) := Laws.Wf.of_event rfl
theorem Laws.Wf.dfuTempUpdate (t : Nat) : Laws.Wf.Statement (.dfuTempUpdate t) := Laws.Wf.of_event rfl
theorem Laws.Wf.dfuMode (p : Packet) : Laws.Wf.Statement (.dfuMode p) := Laws.Wf.of_packet rfl rfl rfl
theorem Laws.Wf.dfuCorr (p : Packet) : Laws.Wf.Statement (.dfuCorr p) := Laws.Wf.of_packet rfl rfl rfl
theorem Laws.Wf.dfuSync (p : Packet) : Laws.Wf.Statement (.dfuSync p) := Laws.Wf.of_packet rfl rfl rfl
theorem Laws.Wf.dfuPreset (p : Packet) : Laws.Wf.Statement (.dfuPreset p) := Laws.Wf.of_packet rfl rfl rfl
theorem Laws.Wf.resampleCfg (p : Packet) : Laws.Wf.Statement (.resampleCfg p) := Laws.Wf.of_packet rfl rfl rfl
theorem Laws.Wf.dfuStatus (p : Packet) : Laws.Wf.Statement (.dfuStatus p) := Laws.Wf.of_packet rfl rfl rfl
theorem Laws.Wf.dfuAnchor (p : Packet) : Laws.Wf.Statement (.dfuAnchor p) := Laws.Wf.of_packet rfl rfl rfl
theorem Laws.Wf.dfuCorrCommitGo (m : Nat) (v : Word) : Laws.Wf.Statement (.dfuCorrCommitGo m v) := Laws.Wf.of_event rfl
theorem Laws.Wf.corrApply : Laws.Wf.Statement .corrApply := Laws.Wf.of_event rfl
theorem Laws.Wf.dfuSyncGoWrite (m : Nat) (v : Word) : Laws.Wf.Statement (.dfuSyncGoWrite m v) := Laws.Wf.of_event rfl
theorem Laws.Wf.dsyncApply : Laws.Wf.Statement .dsyncApply := Laws.Wf.of_event rfl
theorem Laws.Wf.dfuClrCounters (m u : Nat) (v : Word) : Laws.Wf.Statement (.dfuClrCounters m u v) := Laws.Wf.of_event rfl
theorem Laws.Wf.periodReportArrival (f : Nat) : Laws.Wf.Statement (.periodReportArrival f) := Laws.Wf.of_event rfl
theorem Laws.Wf.resamplerCycleStart (u : Nat) : Laws.Wf.Statement (.resamplerCycleStart u) := Laws.Wf.of_event rfl
theorem Laws.Wf.resamplerCoast (u : Nat) : Laws.Wf.Statement (.resamplerCoast u) := Laws.Wf.of_event rfl
theorem Laws.Wf.trigArm (p : Packet) : Laws.Wf.Statement (.trigArm p) := Laws.Wf.of_packet rfl rfl rfl
theorem Laws.Wf.armTakeEffect : Laws.Wf.Statement .armTakeEffect := Laws.Wf.of_event rfl
theorem Laws.Wf.trigDisarm (p : Packet) : Laws.Wf.Statement (.trigDisarm p) := Laws.Wf.of_packet rfl rfl rfl
theorem Laws.Wf.trigForce (p : Packet) : Laws.Wf.Statement (.trigForce p) := Laws.Wf.of_packet rfl rfl rfl
theorem Laws.Wf.topnoteSet (p : Packet) : Laws.Wf.Statement (.topnoteSet p) := Laws.Wf.of_packet rfl rfl rfl
theorem Laws.Wf.heartSet (p : Packet) : Laws.Wf.Statement (.heartSet p) := Laws.Wf.of_packet rfl rfl rfl
theorem Laws.Wf.heartLimits (p : Packet) : Laws.Wf.Statement (.heartLimits p) := Laws.Wf.of_packet rfl rfl rfl
theorem Laws.Wf.trigRoute (p : Packet) : Laws.Wf.Statement (.trigRoute p) := Laws.Wf.of_packet rfl rfl rfl
theorem Laws.Wf.trigOutSet (p : Packet) : Laws.Wf.Statement (.trigOutSet p) := Laws.Wf.of_packet rfl rfl rfl
theorem Laws.Wf.trgCommitGo (m : Nat) (v : Word) : Laws.Wf.Statement (.trgCommitGo m v) := Laws.Wf.of_event rfl
theorem Laws.Wf.trgShadowApply : Laws.Wf.Statement .trgShadowApply := Laws.Wf.of_event rfl
theorem Laws.Wf.trgClrCounters (m : Nat) (v : Word) : Laws.Wf.Statement (.trgClrCounters m v) := Laws.Wf.of_event rfl
theorem Laws.Wf.heartTick : Laws.Wf.Statement .heartTick := Laws.Wf.of_event rfl
theorem Laws.Wf.heartTimerExpiry (k : Nat) : Laws.Wf.Statement (.heartTimerExpiry k) := Laws.Wf.of_event rfl
theorem Laws.Wf.topnoteTimeout (n : Nat) : Laws.Wf.Statement (.topnoteTimeout n) := Laws.Wf.of_event rfl
theorem Laws.Wf.trigOutLaunch : Laws.Wf.Statement .trigOutLaunch := Laws.Wf.of_event rfl
theorem Laws.Wf.trigOutPulseEnd : Laws.Wf.Statement .trigOutPulseEnd := Laws.Wf.of_event rfl
theorem Laws.Wf.baseValueArrival (rec : List Byte) : Laws.Wf.Statement (.baseValueArrival rec) := Laws.Wf.of_event rfl
theorem Laws.Wf.baseSet (p : Packet) : Laws.Wf.Statement (.baseSet p) := Laws.Wf.of_packet rfl rfl rfl
theorem Laws.Wf.placeSet (p : Packet) : Laws.Wf.Statement (.placeSet p) := Laws.Wf.of_packet rfl rfl rfl
theorem Laws.Wf.placeStatus (p : Packet) : Laws.Wf.Statement (.placeStatus p) := Laws.Wf.of_packet rfl rfl rfl
theorem Laws.Wf.baseStatus (p : Packet) : Laws.Wf.Statement (.baseStatus p) := Laws.Wf.of_packet rfl rfl rfl
theorem Laws.Wf.segmentHandoff : Laws.Wf.Statement .segmentHandoff := Laws.Wf.of_event rfl
theorem Laws.Wf.logicEdge (n ball : Nat) (level : Bool) : Laws.Wf.Statement (.logicEdge n ball level) := Laws.Wf.of_event rfl
theorem Laws.Wf.edgeAccept (n : Nat) : Laws.Wf.Statement (.edgeAccept n) := Laws.Wf.of_event rfl
theorem Laws.Wf.timLossResume (n : Nat) : Laws.Wf.Statement (.timLossResume n) := Laws.Wf.of_event rfl
theorem Laws.Wf.storeGapEnd (src : Nat) : Laws.Wf.Statement (.storeGapEnd src) := Laws.Wf.of_event rfl
theorem Laws.Wf.transitionRecordHandoff : Laws.Wf.Statement .transitionRecordHandoff := Laws.Wf.of_event rfl
theorem Laws.Wf.tdcCalSwap (report : CalReport) : Laws.Wf.Statement (.tdcCalSwap report) := Laws.Wf.of_event rfl
theorem Laws.Wf.measGateClose (u : Nat) : Laws.Wf.Statement (.measGateClose u) := Laws.Wf.of_event rfl
theorem Laws.Wf.timResPop (u m : Nat) (v : Word) : Laws.Wf.Statement (.timResPop u m v) := Laws.Wf.of_event rfl
theorem Laws.Wf.timRunWrite (m : Nat) (v : Word) : Laws.Wf.Statement (.timRunWrite m v) := Laws.Wf.of_event rfl
theorem Laws.Wf.timClrCounters (m : Nat) (v : Word) : Laws.Wf.Statement (.timClrCounters m v) := Laws.Wf.of_event rfl
theorem Laws.Wf.capConfig (p : Packet) : Laws.Wf.Statement (.capConfig p) := Laws.Wf.of_packet rfl rfl rfl
theorem Laws.Wf.capStatus (p : Packet) : Laws.Wf.Statement (.capStatus p) := Laws.Wf.of_packet rfl rfl rfl
theorem Laws.Wf.claimCmd (p : Packet) : Laws.Wf.Statement (.claimCmd p) := Laws.Wf.of_packet rfl rfl rfl
theorem Laws.Wf.claimRelease (p : Packet) : Laws.Wf.Statement (.claimRelease p) := Laws.Wf.of_packet rfl rfl rfl
theorem Laws.Wf.segInfo (p : Packet) : Laws.Wf.Statement (.segInfo p) := Laws.Wf.of_packet rfl rfl rfl
theorem Laws.Wf.claimRead (p : Packet) : Laws.Wf.Statement (.claimRead p) := Laws.Wf.of_packet rfl rfl rfl
theorem Laws.Wf.siloLocate (p : Packet) : Laws.Wf.Statement (.siloLocate p) := Laws.Wf.of_packet rfl rfl rfl
theorem Laws.Wf.capRebuild (p : Packet) : Laws.Wf.Statement (.capRebuild p) := Laws.Wf.of_packet rfl rfl rfl
theorem Laws.Wf.capAutoRebuild : Laws.Wf.Statement .capAutoRebuild := Laws.Wf.of_event rfl
theorem Laws.Wf.granuleDrain (id : Nat) (check : DrainCheck) : Laws.Wf.Statement (.granuleDrain id check) := Laws.Wf.of_event rfl
theorem Laws.Wf.gapNoneHeartbeat : Laws.Wf.Statement .gapNoneHeartbeat := Laws.Wf.of_event rfl
theorem Laws.Wf.capClrCounters (m : Nat) (v : Word) : Laws.Wf.Statement (.capClrCounters m v) := Laws.Wf.of_event rfl
theorem Laws.Wf.chainLoad (p : Packet) : Laws.Wf.Statement (.chainLoad p) := Laws.Wf.of_packet rfl rfl rfl
theorem Laws.Wf.chainUnload (p : Packet) : Laws.Wf.Statement (.chainUnload p) := Laws.Wf.of_packet rfl rfl rfl
theorem Laws.Wf.chainStart (p : Packet) : Laws.Wf.Statement (.chainStart p) := Laws.Wf.of_packet rfl rfl rfl
theorem Laws.Wf.chainRun (p : Packet) : Laws.Wf.Statement (.chainRun p) := Laws.Wf.of_packet rfl rfl rfl
theorem Laws.Wf.chainStatus (p : Packet) : Laws.Wf.Statement (.chainStatus p) := Laws.Wf.of_packet rfl rfl rfl
theorem Laws.Wf.engStatus (p : Packet) : Laws.Wf.Statement (.engStatus p) := Laws.Wf.of_packet rfl rfl rfl
theorem Laws.Wf.engUnfence (p : Packet) : Laws.Wf.Statement (.engUnfence p) := Laws.Wf.of_packet rfl rfl rfl
theorem Laws.Wf.engGuard (p : Packet) : Laws.Wf.Statement (.engGuard p) := Laws.Wf.of_packet rfl rfl rfl
theorem Laws.Wf.engClrCounters (m b : Nat) (v : Word) : Laws.Wf.Statement (.engClrCounters m b v) := Laws.Wf.of_event rfl
theorem Laws.Wf.liveWindowReady (id : Nat) : Laws.Wf.Statement (.liveWindowReady id) := Laws.Wf.of_event rfl
theorem Laws.Wf.jobDispatch (n : Nat) : Laws.Wf.Statement (.jobDispatch n) := Laws.Wf.of_event rfl
theorem Laws.Wf.jobSeal (n : Nat) : Laws.Wf.Statement (.jobSeal n) := Laws.Wf.of_event rfl
theorem Laws.Wf.jobCommit (b : Nat) (bad : Bool) : Laws.Wf.Statement (.jobCommit b bad) := Laws.Wf.of_event rfl
theorem Laws.Wf.engineWatchdog (n : Nat) : Laws.Wf.Statement (.engineWatchdog n) := Laws.Wf.of_event rfl
theorem Laws.Wf.engineFault (n typ : Nat) : Laws.Wf.Statement (.engineFault n typ) := Laws.Wf.of_event rfl
theorem Laws.Wf.spareActivate (b : Nat) : Laws.Wf.Statement (.spareActivate b) := Laws.Wf.of_event rfl
theorem Laws.Wf.commitUnitError (b : Nat) (ok : Bool) : Laws.Wf.Statement (.commitUnitError b ok) := Laws.Wf.of_event rfl
theorem Laws.Wf.pqLoad (p : Packet) : Laws.Wf.Statement (.pqLoad p) := Laws.Wf.of_packet rfl rfl rfl
theorem Laws.Wf.pqClock (p : Packet) : Laws.Wf.Statement (.pqClock p) := Laws.Wf.of_packet rfl rfl rfl
theorem Laws.Wf.mapSet (p : Packet) : Laws.Wf.Statement (.mapSet p) := Laws.Wf.of_packet rfl rfl rfl
theorem Laws.Wf.mapClear (p : Packet) : Laws.Wf.Statement (.mapClear p) := Laws.Wf.of_packet rfl rfl rfl
theorem Laws.Wf.mapStatus (p : Packet) : Laws.Wf.Statement (.mapStatus p) := Laws.Wf.of_packet rfl rfl rfl
theorem Laws.Wf.pqStatus (p : Packet) : Laws.Wf.Statement (.pqStatus p) := Laws.Wf.of_packet rfl rfl rfl
theorem Laws.Wf.mapEnableWrite (m k : Nat) (v : Word) : Laws.Wf.Statement (.mapEnableWrite m k v) := Laws.Wf.of_event rfl
theorem Laws.Wf.finisherRecord : Laws.Wf.Statement .finisherRecord := Laws.Wf.of_event rfl
theorem Laws.Wf.finisherMemberTimeout (ctx g w : Nat) : Laws.Wf.Statement (.finisherMemberTimeout ctx g w) := Laws.Wf.of_event rfl
theorem Laws.Wf.aggregationTick (ctx g ival : Nat) : Laws.Wf.Statement (.aggregationTick ctx g ival) := Laws.Wf.of_event rfl
theorem Laws.Wf.flickerTick (id : Nat) : Laws.Wf.Statement (.flickerTick id) := Laws.Wf.of_event rfl
theorem Laws.Wf.mapEpochFinal (k : Nat) : Laws.Wf.Statement (.mapEpochFinal k) := Laws.Wf.of_event rfl
theorem Laws.Wf.mapClearStart (k : Nat) : Laws.Wf.Statement (.mapClearStart k) := Laws.Wf.of_event rfl
theorem Laws.Wf.doorbellSqTail (f i : Nat) (v : Word) : Laws.Wf.Statement (.doorbellSqTail f i v) := Laws.Wf.of_event rfl
theorem Laws.Wf.doorbellCqHead (f i : Nat) (v : Word) : Laws.Wf.Statement (.doorbellCqHead f i v) := Laws.Wf.of_event rfl
theorem Laws.Wf.aqEnable (f : Nat) (v : Word) : Laws.Wf.Statement (.aqEnable f v) := Laws.Wf.of_event rfl
theorem Laws.Wf.commandFetch (r : FetchRes) : Laws.Wf.Statement (.commandFetch r) := Laws.Wf.of_event rfl
theorem Laws.Wf.fenceStart (q t : Nat) : Laws.Wf.Statement (.fenceStart q t) := Laws.Wf.of_event rfl
theorem Laws.Wf.irqTimeExpiry (q : Nat) : Laws.Wf.Statement (.irqTimeExpiry q) := Laws.Wf.of_event rfl
theorem Laws.Wf.eventDelivery (f : Nat) : Laws.Wf.Statement (.eventDelivery f) := Laws.Wf.of_event rfl
theorem Laws.Wf.bar0HostWrite (f a : Nat) (v : Word) : Laws.Wf.Statement (.bar0HostWrite f a v) := Laws.Wf.of_event rfl
theorem Laws.Wf.bar2Access (f ofs n : Nat) (data : Option (List Byte)) : Laws.Wf.Statement (.bar2Access f ofs n data) := Laws.Wf.of_event rfl
theorem Laws.Wf.regRead (p : Packet) : Laws.Wf.Statement (.regRead p) := Laws.Wf.of_packet rfl rfl rfl
theorem Laws.Wf.regWrite (p : Packet) : Laws.Wf.Statement (.regWrite p) := Laws.Wf.of_packet rfl rfl rfl
theorem Laws.Wf.regRmw (p : Packet) : Laws.Wf.Statement (.regRmw p) := Laws.Wf.of_packet rfl rfl rfl
theorem Laws.Wf.regPoll (p : Packet) : Laws.Wf.Statement (.regPoll p) := Laws.Wf.of_packet rfl rfl rfl
theorem Laws.Wf.registerWrite (m a : Nat) (v : Word) (bar4 : Bool) : Laws.Wf.Statement (.registerWrite m a v bar4) := Laws.Wf.of_event rfl
theorem Laws.Wf.latchingRead (m a : Nat) (bar4 : Bool) : Laws.Wf.Statement (.latchingRead m a bar4) := Laws.Wf.of_event rfl
theorem Laws.Wf.glbOffAccessClear (m : Nat) (v : Word) : Laws.Wf.Statement (.glbOffAccessClear m v) := Laws.Wf.of_event rfl
theorem Laws.Wf.hifClrCounters (m : Nat) (v : Word) : Laws.Wf.Statement (.hifClrCounters m v) := Laws.Wf.of_event rfl
theorem Laws.Wf.lockTryRead (m n : Nat) (others : List (Nat × Option Word)) : Laws.Wf.Statement (.lockTryRead m n others) := Laws.Wf.of_event rfl
theorem Laws.Wf.lockTryWrite (m n : Nat) (v : Word) : Laws.Wf.Statement (.lockTryWrite m n v) := Laws.Wf.of_event rfl
theorem Laws.Wf.lockForceWrite (m : Nat) (v : Word) : Laws.Wf.Statement (.lockForceWrite m v) := Laws.Wf.of_event rfl
theorem Laws.Wf.mailboxStageWrite (m i : Nat) (inbound : Bool) (j : Nat) (v : Word) : Laws.Wf.Statement (.mailboxStageWrite m i inbound j v) := Laws.Wf.of_event rfl
theorem Laws.Wf.mailboxPush (m i : Nat) (inbound : Bool) (ws : List Word) : Laws.Wf.Statement (.mailboxPush m i inbound ws) := Laws.Wf.of_event rfl
theorem Laws.Wf.mailboxPop (m i : Nat) (v : Word) : Laws.Wf.Statement (.mailboxPop m i v) := Laws.Wf.of_event rfl
theorem Laws.Wf.doorbellSet (m i : Nat) (toF : Bool) (v : Word) : Laws.Wf.Statement (.doorbellSet m i toF v) := Laws.Wf.of_event rfl
theorem Laws.Wf.doorbellClear (m i : Nat) (toF : Bool) (v : Word) : Laws.Wf.Statement (.doorbellClear m i toF v) := Laws.Wf.of_event rfl
theorem Laws.Wf.doorbellMaskWrite (m i : Nat) (toF : Bool) (v : Word) : Laws.Wf.Statement (.doorbellMaskWrite m i toF v) := Laws.Wf.of_event rfl
theorem Laws.Wf.mbxClrCounters (m : Nat) (v : Word) : Laws.Wf.Statement (.mbxClrCounters m v) := Laws.Wf.of_event rfl
theorem Laws.Wf.hostServicePop (i : Nat) : Laws.Wf.Statement (.hostServicePop i) := Laws.Wf.of_event rfl
theorem Laws.Wf.mailboxCross (i : Nat) : Laws.Wf.Statement (.mailboxCross i) := Laws.Wf.of_event rfl
theorem Laws.Wf.dmaChanOpen (p : Packet) : Laws.Wf.Statement (.dmaChanOpen p) := Laws.Wf.of_packet rfl rfl rfl
theorem Laws.Wf.dmaChanClose (p : Packet) : Laws.Wf.Statement (.dmaChanClose p) := Laws.Wf.of_packet rfl rfl rfl
theorem Laws.Wf.dmaRingSet (p : Packet) : Laws.Wf.Statement (.dmaRingSet p) := Laws.Wf.of_packet rfl rfl rfl
theorem Laws.Wf.dmaStart (p : Packet) : Laws.Wf.Statement (.dmaStart p) := Laws.Wf.of_packet rfl rfl rfl
theorem Laws.Wf.dmaHalt (p : Packet) : Laws.Wf.Statement (.dmaHalt p) := Laws.Wf.of_packet rfl rfl rfl
theorem Laws.Wf.dmaStatus (p : Packet) : Laws.Wf.Statement (.dmaStatus p) := Laws.Wf.of_packet rfl rfl rfl
theorem Laws.Wf.dmaCopy (p : Packet) : Laws.Wf.Statement (.dmaCopy p) := Laws.Wf.of_packet rfl rfl rfl
theorem Laws.Wf.dmaClrCounters (m : Nat) (v : Word) : Laws.Wf.Statement (.dmaClrCounters m v) := Laws.Wf.of_event rfl
theorem Laws.Wf.dmaDescriptorFetch (c : Nat) (bytes : List Byte) : Laws.Wf.Statement (.dmaDescriptorFetch c bytes) := Laws.Wf.of_event rfl
theorem Laws.Wf.dmaRingPoll (c : Nat) (bytes : List Byte) : Laws.Wf.Statement (.dmaRingPoll c bytes) := Laws.Wf.of_event rfl
theorem Laws.Wf.dmaTransferRelease (c : Nat) : Laws.Wf.Statement (.dmaTransferRelease c) := Laws.Wf.of_event rfl
theorem Laws.Wf.dmaBurst (g : Nat) (data : List Byte) (ue : Bool) : Laws.Wf.Statement (.dmaBurst g data ue) := Laws.Wf.of_event rfl
theorem Laws.Wf.dmaReadFail (c : Nat) (what : DmaFail) : Laws.Wf.Statement (.dmaReadFail c what) := Laws.Wf.of_event rfl
theorem Laws.Wf.dmaTransferComplete (c : Nat) : Laws.Wf.Statement (.dmaTransferComplete c) := Laws.Wf.of_event rfl
theorem Laws.Wf.cmpJob (p : Packet) : Laws.Wf.Statement (.cmpJob p) := Laws.Wf.of_packet rfl rfl rfl
theorem Laws.Wf.cmpResume (p : Packet) : Laws.Wf.Statement (.cmpResume p) := Laws.Wf.of_packet rfl rfl rfl
theorem Laws.Wf.cmpAbort (p : Packet) : Laws.Wf.Statement (.cmpAbort p) := Laws.Wf.of_packet rfl rfl rfl
theorem Laws.Wf.cmpStatus (p : Packet) : Laws.Wf.Statement (.cmpStatus p) := Laws.Wf.of_packet rfl rfl rfl
theorem Laws.Wf.cmpClrCounters (m : Nat) (v : Word) : Laws.Wf.Statement (.cmpClrCounters m v) := Laws.Wf.of_event rfl
theorem Laws.Wf.cmpJobEnd (e : Nat) : Laws.Wf.Statement (.cmpJobEnd e) := Laws.Wf.of_event rfl
theorem Laws.Wf.cmpListExhausted (e : Nat) : Laws.Wf.Statement (.cmpListExhausted e) := Laws.Wf.of_event rfl
theorem Laws.Wf.cmpSuspendExpiry (id : Nat) : Laws.Wf.Statement (.cmpSuspendExpiry id) := Laws.Wf.of_event rfl
theorem Laws.Wf.cmpEngineFault (e : Nat) : Laws.Wf.Statement (.cmpEngineFault e) := Laws.Wf.of_event rfl
theorem Laws.Wf.memConfig (p : Packet) : Laws.Wf.Statement (.memConfig p) := Laws.Wf.of_packet rfl rfl rfl
theorem Laws.Wf.memStatus (p : Packet) : Laws.Wf.Statement (.memStatus p) := Laws.Wf.of_packet rfl rfl rfl
theorem Laws.Wf.memRelease (p : Packet) : Laws.Wf.Statement (.memRelease p) := Laws.Wf.of_packet rfl rfl rfl
theorem Laws.Wf.memSpare (p : Packet) : Laws.Wf.Statement (.memSpare p) := Laws.Wf.of_packet rfl rfl rfl
theorem Laws.Wf.memTrain (p : Packet) : Laws.Wf.Statement (.memTrain p) := Laws.Wf.of_packet rfl rfl rfl
theorem Laws.Wf.memClrCounters (m c : Nat) (v : Word) : Laws.Wf.Statement (.memClrCounters m c v) := Laws.Wf.of_event rfl
theorem Laws.Wf.trnGo (m c : Nat) (v : Word) : Laws.Wf.Statement (.trnGo m c v) := Laws.Wf.of_event rfl
theorem Laws.Wf.trnStepDone (c lanes : Nat) : Laws.Wf.Statement (.trnStepDone c lanes) := Laws.Wf.of_event rfl
theorem Laws.Wf.trainingStepTimeout (c step rank : Nat) : Laws.Wf.Statement (.trainingStepTimeout c step rank) := Laws.Wf.of_event rfl
theorem Laws.Wf.dramTrainingDone (found : Population) : Laws.Wf.Statement (.dramTrainingDone found) := Laws.Wf.of_event rfl
theorem Laws.Wf.dramInitRegion : Laws.Wf.Statement .dramInitRegion := Laws.Wf.of_event rfl
theorem Laws.Wf.dramRead (addr port ns : Nat) (res : ReadCheck) : Laws.Wf.Statement (.dramRead addr port ns res) := Laws.Wf.of_event rfl
theorem Laws.Wf.rankMigrationDone (c : Nat) : Laws.Wf.Statement (.rankMigrationDone c) := Laws.Wf.of_event rfl
theorem Laws.Wf.scrubRead (res : ReadCheck) : Laws.Wf.Statement (.scrubRead res) := Laws.Wf.of_event rfl
theorem Laws.Wf.refreshSlotDue (c p : Nat) (busy : Bool) : Laws.Wf.Statement (.refreshSlotDue c p busy) := Laws.Wf.of_event rfl
theorem Laws.Wf.mr4Poll (c p ind : Nat) : Laws.Wf.Statement (.mr4Poll c p ind) := Laws.Wf.of_event rfl
theorem Laws.Wf.spdHubPoll (c d : Nat) (t : Option Nat) : Laws.Wf.Statement (.spdHubPoll c d t) := Laws.Wf.of_event rfl
theorem Laws.Wf.writeAgeExpiry (c sc : Nat) : Laws.Wf.Statement (.writeAgeExpiry c sc) := Laws.Wf.of_event rfl
theorem Laws.Wf.caParityAlert (c : Nat) (cmds : List Nat) (index rank : Nat) : Laws.Wf.Statement (.caParityAlert c cmds index rank) := Laws.Wf.of_event rfl
theorem Laws.Wf.caAutoRelease (c : Nat) : Laws.Wf.Statement (.caAutoRelease c) := Laws.Wf.of_event rfl
theorem Laws.Wf.selfRefreshExit (c : Nat) (ok : Bool) : Laws.Wf.Statement (.selfRefreshExit c ok) := Laws.Wf.of_event rfl
theorem Laws.Wf.driftRecentre (c : Nat) : Laws.Wf.Statement (.driftRecentre c) := Laws.Wf.of_event rfl
theorem Laws.Wf.clkSet (p : Packet) : Laws.Wf.Statement (.clkSet p) := Laws.Wf.of_packet rfl rfl rfl
theorem Laws.Wf.clkStatus (p : Packet) : Laws.Wf.Statement (.clkStatus p) := Laws.Wf.of_packet rfl rfl rfl
theorem Laws.Wf.glideStep (p : Nat) : Laws.Wf.Statement (.glideStep p) := Laws.Wf.of_event rfl
theorem Laws.Wf.pllLockLoss (p : Nat) : Laws.Wf.Statement (.pllLockLoss p) := Laws.Wf.of_event rfl
theorem Laws.Wf.pllRelock (p : Nat) : Laws.Wf.Statement (.pllRelock p) := Laws.Wf.of_event rfl
theorem Laws.Wf.mpllLockLoss : Laws.Wf.Statement .mpllLockLoss := Laws.Wf.of_event rfl
theorem Laws.Wf.mpllReacquire : Laws.Wf.Statement .mpllReacquire := Laws.Wf.of_event rfl
theorem Laws.Wf.aclkLoss : Laws.Wf.Statement .aclkLoss := Laws.Wf.of_event rfl
theorem Laws.Wf.avsWriteTimeout : Laws.Wf.Statement .avsWriteTimeout := Laws.Wf.of_event rfl
theorem Laws.Wf.tempSample (t : Nat) : Laws.Wf.Statement (.tempSample t) := Laws.Wf.of_event rfl
theorem Laws.Wf.throttleStep : Laws.Wf.Statement .throttleStep := Laws.Wf.of_event rfl
theorem Laws.Wf.throttleRelease : Laws.Wf.Statement .throttleRelease := Laws.Wf.of_event rfl
theorem Laws.Wf.undervolt : Laws.Wf.Statement .undervolt := Laws.Wf.of_event rfl
theorem Laws.Wf.tbsRef (p : Packet) : Laws.Wf.Statement (.tbsRef p) := Laws.Wf.of_packet rfl rfl rfl
theorem Laws.Wf.tbsStatus (p : Packet) : Laws.Wf.Statement (.tbsStatus p) := Laws.Wf.of_packet rfl rfl rfl
theorem Laws.Wf.tbsAck (p : Packet) : Laws.Wf.Statement (.tbsAck p) := Laws.Wf.of_packet rfl rfl rfl
theorem Laws.Wf.timeSet (p : Packet) : Laws.Wf.Statement (.timeSet p) := Laws.Wf.of_packet rfl rfl rfl
theorem Laws.Wf.ppsOut (p : Packet) : Laws.Wf.Statement (.ppsOut p) := Laws.Wf.of_packet rfl rfl rfl
theorem Laws.Wf.tbsModeWrite (m : Nat) (v : Word) : Laws.Wf.Statement (.tbsModeWrite m v) := Laws.Wf.of_event rfl
theorem Laws.Wf.tbsClrCounters (m : Nat) (v : Word) : Laws.Wf.Statement (.tbsClrCounters m v) := Laws.Wf.of_event rfl
theorem Laws.Wf.pmuClrCounters (m : Nat) (v : Word) : Laws.Wf.Statement (.pmuClrCounters m v) := Laws.Wf.of_event rfl
theorem Laws.Wf.ppsInEdge (ts : Nat) : Laws.Wf.Statement (.ppsInEdge ts) := Laws.Wf.of_event rfl
theorem Laws.Wf.timeStepApply : Laws.Wf.Statement .timeStepApply := Laws.Wf.of_event rfl
theorem Laws.Wf.ref10mGate (dev : Int) : Laws.Wf.Statement (.ref10mGate dev) := Laws.Wf.of_event rfl
theorem Laws.Wf.refQualified (pps : Bool) : Laws.Wf.Statement (.refQualified pps) := Laws.Wf.of_event rfl
theorem Laws.Wf.refLoss (pps : Bool) : Laws.Wf.Statement (.refLoss pps) := Laws.Wf.of_event rfl
theorem Laws.Wf.slewComplete : Laws.Wf.Statement .slewComplete := Laws.Wf.of_event rfl
theorem Laws.Wf.ppsOutPulse : Laws.Wf.Statement .ppsOutPulse := Laws.Wf.of_event rfl
theorem Laws.Wf.alarmFire (sheaf : Bool) : Laws.Wf.Statement (.alarmFire sheaf) := Laws.Wf.of_event rfl
theorem Laws.Wf.wakeNAssert : Laws.Wf.Statement .wakeNAssert := Laws.Wf.of_event rfl
theorem Laws.Wf.restHostlinkReturn : Laws.Wf.Statement .restHostlinkReturn := Laws.Wf.of_event rfl
theorem Laws.Wf.pstateSet (p : Packet) : Laws.Wf.Statement (.pstateSet p) := Laws.Wf.of_packet rfl rfl rfl
theorem Laws.Wf.pstateStatus (p : Packet) : Laws.Wf.Statement (.pstateStatus p) := Laws.Wf.of_packet rfl rfl rfl
theorem Laws.Wf.watchConfig (p : Packet) : Laws.Wf.Statement (.watchConfig p) := Laws.Wf.of_packet rfl rfl rfl
theorem Laws.Wf.restToWatch : Laws.Wf.Statement .restToWatch := Laws.Wf.of_event rfl
theorem Laws.Wf.watchToRecord : Laws.Wf.Statement .watchToRecord := Laws.Wf.of_event rfl
theorem Laws.Wf.flushCatchupDone : Laws.Wf.Statement .flushCatchupDone := Laws.Wf.of_event rfl
theorem Laws.Wf.recordToWatch : Laws.Wf.Statement .recordToWatch := Laws.Wf.of_event rfl
theorem Laws.Wf.watchToRest : Laws.Wf.Statement .watchToRest := Laws.Wf.of_event rfl
theorem Laws.Wf.powerOnReset (testEn resetN : Bool) : Laws.Wf.Statement (.powerOnReset testEn resetN) := Laws.Wf.of_event rfl
theorem Laws.Wf.startupCmdReady : Laws.Wf.Statement .startupCmdReady := Laws.Wf.of_event rfl
theorem Laws.Wf.pinReset : Laws.Wf.Statement .pinReset := Laws.Wf.of_event rfl
theorem Laws.Wf.softReset (m : Nat) (v : Word) : Laws.Wf.Statement (.softReset m v) := Laws.Wf.of_event rfl
theorem Laws.Wf.linkReset : Laws.Wf.Statement .linkReset := Laws.Wf.of_event rfl
theorem Laws.Wf.functionReset (f : Nat) : Laws.Wf.Statement (.functionReset f) := Laws.Wf.of_event rfl
theorem Laws.Wf.railLoss : Laws.Wf.Statement .railLoss := Laws.Wf.of_event rfl
theorem Laws.Wf.disMode (p : Packet) : Laws.Wf.Statement (.disMode p) := Laws.Wf.of_packet rfl rfl rfl
theorem Laws.Wf.disLayer (p : Packet) : Laws.Wf.Statement (.disLayer p) := Laws.Wf.of_packet rfl rfl rfl
theorem Laws.Wf.disFlip (p : Packet) : Laws.Wf.Statement (.disFlip p) := Laws.Wf.of_packet rfl rfl rfl
theorem Laws.Wf.disLut (p : Packet) : Laws.Wf.Statement (.disLut p) := Laws.Wf.of_packet rfl rfl rfl
theorem Laws.Wf.disCrc (p : Packet) : Laws.Wf.Statement (.disCrc p) := Laws.Wf.of_packet rfl rfl rfl
theorem Laws.Wf.disStatus (p : Packet) : Laws.Wf.Statement (.disStatus p) := Laws.Wf.of_packet rfl rfl rfl
theorem Laws.Wf.disScanoutEnable (m : Nat) (v : Word) : Laws.Wf.Statement (.disScanoutEnable m v) := Laws.Wf.of_event rfl
theorem Laws.Wf.disClrCounters (m : Nat) (v : Word) : Laws.Wf.Statement (.disClrCounters m v) := Laws.Wf.of_event rfl
theorem Laws.Wf.disModeCommitGo (m : Nat) (v : Word) : Laws.Wf.Statement (.disModeCommitGo m v) := Laws.Wf.of_event rfl
theorem Laws.Wf.disLayerCommitGo (m : Nat) (v : Word) : Laws.Wf.Statement (.disLayerCommitGo m v) := Laws.Wf.of_event rfl
theorem Laws.Wf.disLutSwap (m k : Nat) (v : Word) : Laws.Wf.Statement (.disLutSwap m k v) := Laws.Wf.of_event rfl
theorem Laws.Wf.disLutDataWrite (m i : Nat) (v : Word) : Laws.Wf.Statement (.disLutDataWrite m i v) := Laws.Wf.of_event rfl
theorem Laws.Wf.disAuxGo (m : Nat) (v : Word) : Laws.Wf.Statement (.disAuxGo m v) := Laws.Wf.of_event rfl
theorem Laws.Wf.auxTransferDone (reply : Nat) (data : List Byte) : Laws.Wf.Statement (.auxTransferDone reply data) := Laws.Wf.of_event rfl
theorem Laws.Wf.frameLatch : Laws.Wf.Statement .frameLatch := Laws.Wf.of_event rfl
theorem Laws.Wf.frameStart (missing : List (Nat × Nat)) (ue : List (Nat × Nat)) : Laws.Wf.Statement (.frameStart missing ue) := Laws.Wf.of_event rfl
theorem Laws.Wf.disLinkTraining (ok : Bool) : Laws.Wf.Statement (.disLinkTraining ok) := Laws.Wf.of_event rfl
theorem Laws.Wf.hpdLoss : Laws.Wf.Statement .hpdLoss := Laws.Wf.of_event rfl
theorem Laws.Wf.irqHpd (lost : Bool) : Laws.Wf.Statement (.irqHpd lost) := Laws.Wf.of_event rfl
theorem Laws.Wf.hpdRise : Laws.Wf.Statement .hpdRise := Laws.Wf.of_event rfl
theorem Laws.Wf.mcvConfig (p : Packet) : Laws.Wf.Statement (.mcvConfig p) := Laws.Wf.of_packet rfl rfl rfl
theorem Laws.Wf.mcvSeq (p : Packet) : Laws.Wf.Statement (.mcvSeq p) := Laws.Wf.of_packet rfl rfl rfl
theorem Laws.Wf.mcvInject (p : Packet) : Laws.Wf.Statement (.mcvInject p) := Laws.Wf.of_packet rfl rfl rfl
theorem Laws.Wf.mcvCal (p : Packet) : Laws.Wf.Statement (.mcvCal p) := Laws.Wf.of_packet rfl rfl rfl
theorem Laws.Wf.mcvDac (p : Packet) : Laws.Wf.Statement (.mcvDac p) := Laws.Wf.of_packet rfl rfl rfl
theorem Laws.Wf.mcvStatus (p : Packet) : Laws.Wf.Statement (.mcvStatus p) := Laws.Wf.of_packet rfl rfl rfl
theorem Laws.Wf.mcvEnWrite (m : Nat) (v : Word) : Laws.Wf.Statement (.mcvEnWrite m v) := Laws.Wf.of_event rfl
theorem Laws.Wf.mcvStartWrite (m : Nat) (v : Word) : Laws.Wf.Statement (.mcvStartWrite m v) := Laws.Wf.of_event rfl
theorem Laws.Wf.mcvInjGo (m : Nat) (v : Word) : Laws.Wf.Statement (.mcvInjGo m v) := Laws.Wf.of_event rfl
theorem Laws.Wf.mcvCalGo (m : Nat) (v : Word) : Laws.Wf.Statement (.mcvCalGo m v) := Laws.Wf.of_event rfl
theorem Laws.Wf.mcvClrCounters (m : Nat) (v : Word) : Laws.Wf.Statement (.mcvClrCounters m v) := Laws.Wf.of_event rfl
theorem Laws.Wf.mcvResPop (m : Nat) (v : Word) : Laws.Wf.Statement (.mcvResPop m v) := Laws.Wf.of_event rfl
theorem Laws.Wf.mcvInjAt : Laws.Wf.Statement .mcvInjAt := Laws.Wf.of_event rfl
theorem Laws.Wf.mcvDwellEnd (bad : Bool) : Laws.Wf.Statement (.mcvDwellEnd bad) := Laws.Wf.of_event rfl
theorem Laws.Wf.mcvSpanEnd : Laws.Wf.Statement .mcvSpanEnd := Laws.Wf.of_event rfl
theorem Laws.Wf.mcvRundownDone (sub : List (Int × Nat)) (overload : Bool) : Laws.Wf.Statement (.mcvRundownDone sub overload) := Laws.Wf.of_event rfl
theorem Laws.Wf.mcvAbandon : Laws.Wf.Statement .mcvAbandon := Laws.Wf.of_event rfl
theorem Laws.Wf.mcvCoast : Laws.Wf.Statement .mcvCoast := Laws.Wf.of_event rfl
theorem Laws.Wf.mcvCalPeriod : Laws.Wf.Statement .mcvCalPeriod := Laws.Wf.of_event rfl
theorem Laws.Wf.snapFire (p : Packet) : Laws.Wf.Statement (.snapFire p) := Laws.Wf.of_packet rfl rfl rfl
theorem Laws.Wf.snapRead (p : Packet) : Laws.Wf.Statement (.snapRead p) := Laws.Wf.of_packet rfl rfl rfl
theorem Laws.Wf.errRead (p : Packet) : Laws.Wf.Statement (.errRead p) := Laws.Wf.of_packet rfl rfl rfl
theorem Laws.Wf.errAck (p : Packet) : Laws.Wf.Statement (.errAck p) := Laws.Wf.of_packet rfl rfl rfl
theorem Laws.Wf.errInject (p : Packet) : Laws.Wf.Statement (.errInject p) := Laws.Wf.of_packet rfl rfl rfl
theorem Laws.Wf.errAckWrite (m : Nat) (v : Word) : Laws.Wf.Statement (.errAckWrite m v) := Laws.Wf.of_event rfl
theorem Laws.Wf.errClrCounters (m : Nat) (v : Word) : Laws.Wf.Statement (.errClrCounters m v) := Laws.Wf.of_event rfl
theorem Laws.Wf.errRecordDrain (ue : List Nat) : Laws.Wf.Statement (.errRecordDrain ue) := Laws.Wf.of_event rfl
theorem Laws.Wf.ccHang (core : Nat) : Laws.Wf.Statement (.ccHang core) := Laws.Wf.of_event rfl
theorem Laws.Wf.shfFireWrite (m : Nat) (v : Word) : Laws.Wf.Statement (.shfFireWrite m v) := Laws.Wf.of_event rfl
theorem Laws.Wf.shfRearmWrite (m : Nat) (v : Word) : Laws.Wf.Statement (.shfRearmWrite m v) := Laws.Wf.of_event rfl
theorem Laws.Wf.snapInEdge (level : Bool) : Laws.Wf.Statement (.snapInEdge level) := Laws.Wf.of_event rfl
theorem Laws.Wf.sheafLatch : Laws.Wf.Statement .sheafLatch := Laws.Wf.of_event rfl
theorem Laws.Wf.pcieLinkUp (speed width mps mrrs bar2 : Nat) : Laws.Wf.Statement (.pcieLinkUp speed width mps mrrs bar2) := Laws.Wf.of_event rfl
theorem Laws.Wf.pcieLinkRetrain (speed width : Nat) : Laws.Wf.Statement (.pcieLinkRetrain speed width) := Laws.Wf.of_event rfl
theorem Laws.Wf.vfEnable (n : Nat) : Laws.Wf.Statement (.vfEnable n) := Laws.Wf.of_event rfl
theorem Laws.Wf.msixVectorUnmask (f v : Nat) (mask : Bool) : Laws.Wf.Statement (.msixVectorUnmask f v mask) := Laws.Wf.of_event rfl
theorem Laws.Wf.resetNRelease (testEn : Bool) : Laws.Wf.Statement (.resetNRelease testEn) := Laws.Wf.of_event rfl
theorem Laws.Wf.jtagInstruction (code : Nat) (cells : Option (List Bool)) : Laws.Wf.Statement (.jtagInstruction code cells) := Laws.Wf.of_event rfl
theorem Laws.Wf.commandTimeout (q t : Nat) : Laws.Wf.Statement (.commandTimeout q t) := Laws.Wf.of_event rfl
theorem Laws.Wf.regPollSample (q t : Nat) : Laws.Wf.Statement (.regPollSample q t) := Laws.Wf.of_event rfl
theorem Laws.Wf.laneTestEnd (errs : List Nat) (unlocked : Nat) : Laws.Wf.Statement (.laneTestEnd errs unlocked) := Laws.Wf.of_event rfl
theorem Laws.Wf.unfenceSelfTestDone (n : Nat) (ok : Bool) : Laws.Wf.Statement (.unfenceSelfTestDone n ok) := Laws.Wf.of_event rfl
theorem Laws.Wf.mapPassComplete (k : Nat) : Laws.Wf.Statement (.mapPassComplete k) := Laws.Wf.of_event rfl
theorem Laws.Wf.cmpBlockBoundary (e : Nat) : Laws.Wf.Statement (.cmpBlockBoundary e) := Laws.Wf.of_event rfl

end Sys2Proof
end

