-- ==== Sys2Proof/Tests/Slice0.lean ====
section
/-!
SUPPORT. Small states and packets that meet the hypotheses of each obligation, clause by clause; ill-formed commands that
WellFormed refuses; values that other standards publish.
-/

namespace Sys2Proof.Tests

set_option Elab.async false

open Sys2Proof Sys2Proof.Machine

/-! ### Small states -/

/-- A state in which every domain is on, the device is in Record and DRAM is ready, with further fields set. -/
def tLit (l : List (Fld × Nat)) : State :=
  (State.reset.wrs [(⟨R_PMU_DOM_LO, 2, 30⟩, 0x2AAAAAAA), (⟨R_PMU_DOM_HI, 0, 6⟩, 0x2A), (F_GLB_STATE_PSTATE, 2),
    (F_GLB_STATE_DRAM_READY, 1)]).wrs l

/-- A packet of function 0, context 0 and tag 0 with an opcode and the dwords from dw2 on. -/
def tPk (op : Nat) (ws : List Nat) : Packet :=
  ⟨0, 0, ((op :: 0 :: ws) ++ List.replicate (14 - ws.length) 0).map (BitVec.ofNat 32), []⟩

/-- What several claims ask of a packet of function 0: its command passes the shared checks (R287), and the registers stand in
canonical form. -/
def tCmd (op : Nat) (pfOnly : Bool) (dom : Option Dom) (p : Packet) (s : State) : Bool :=
  passes op pfOnly none dom p s && cellWf regReset s.regs

/-- A claim's premises hold of a packet and a state. -/
def tHolds (f : Packet → State → Bool) (p : Packet) (s : State) : Bool := f p s

/-- A claim's premises hold of a state. -/
def tOn (f : State → Bool) (s : State) : Bool := f s

/-- A state with the intake changed. -/
def tJin (l : List (Fld × Nat)) (f : Jin → Jin) : State := { tLit l with jin := f (tLit l).jin }

/-- A state with the shadowed values of some registers in effect. -/
def tEff (l : List (Fld × Nat)) (a : List Nat) : State := (tLit l).applyRegs a

/-- A state in which a command of tag 0 and queue 0 waits. -/
def tFly (op : Nat) (k : WaitKind) (key due : Nat) (s : State) : State :=
  s.setInflight [{ inflightOf op (tPk op []) with kind := k, key := key, due := due }]

/-- An intake whose link 11 runs on lane 23, five blocks after a multiblock's start, and its alignment. -/
def tLane (l : List (Fld × Nat)) (t0 : Option Nat) : State :=
  tJin ((F_JIN_CTRL_RUN, 1) :: (F_JIN_LINK_EN_LINK_EN, 0x800) :: (F_JIN_PARAMS_L, 1) :: l) (fun j =>
    { j with lemc := t0, lanes := listMod j.lanes 23 (fun x => { x with sinceMark := some 5 }) })

/-- A transfer of CSPI. -/
def tCspi : CspiJob := { cs := 7, mode := 0, div := 2, bytes := [1], qid := 0, tag := 0 }

/-- An intake at 500 million samples a second. -/
def tRate : List (Fld × Nat) :=
  [(F_JIN_LANE_RATE_RATE, 24750), (F_JIN_TS_PERIOD_HI_NS, 2)]
/-- A contract of context 0 with room for everything. -/
def tCon (pieces : List Piece) : Contract :=
  { ctx := 0, order := 0, dws := (0x4000 :: [0xFFFFFFFF, 0xFFFFFFFF, 0] ++ List.replicate 10 0xFFFFFFFF).map (BitVec.ofNat 32),
    pieces := pieces, broken := false }

/-- A state with that contract. -/
def tHeld (pieces : List Piece) (s : State) : State := { s with con := { s.con with list := [tCon pieces] } }

/-- A state with the trigger changed, armed and in a given state. -/
def tTrg (st : Nat) (l : List (Fld × Nat)) (f : Trg → Trg) : State :=
  let s := tLit ((F_TRG_STATUS_STATE, st) :: l)
  { s with trg := f s.trg, now := 2 ^ 60 }

/-- A state with TIM running and its input 64 enabled and changed. -/
def tTim (l : List (Fld × Nat)) (f : TInput → TInput) : State :=
  (tLit ((F_TIM_CTRL_RUN, 1) :: (F_TIM_IN_CFG_EN 64, 1) :: l)).modTim (fun t => { t with ins := listMod t.ins 64 f })

/-- A trigger whose arm waits for a time, at the first LEMC edge. -/
def tArmed (t : Nat) : State :=
  let s := tLit [(F_TRG_STATUS_STATE, 1), (F_JIN_LANE_RATE_RATE, 24750), (F_CKG_P_STATUS_STATE 0, 3)]
  { s with trg := { s.trg with armAt := some t }, jin := { s.jin with lemc := some 0 }, clk := { s.clk with fkhz := 2000000 } }

/-- A trigger whose top note 63 awaits a timeout since time 0. -/
def tTimeout : State :=
  tTrg 2 [(F_TN_CFG_TYPE 63, 6), (F_TN_CFG_SRC 63, 0x40)] (fun t =>
    { t with notes := listMod t.notes 63 (fun n => { n with up := some { start := 0, ok := true, fired := false, susp := false, ovr := false } }) })

/-- A segment that placement is to hand off at a time. -/
def tSeg (t : Nat) : PSeg :=
  { cap := 0, no := 0, ctx := 0, last := false, tS := 0, pS := 0, handAt := t, handed := false, ovl := 0, firstOvl := 0, holdNs := 0, holdEv := 0, holds := 0, released := false }

/-- An edge in the deglitch filter. -/
def tEdge : TEdge := { ball := 0, ts := 0, level := true, susp := false }

/-- A transition record. -/
def tRec : TRec := { ts := 0, level := true, src := 0, susp := false, kind := 0, data := 0, seq := 0 }

/-- A state in which that record waits for the heart, which says what is stored of input 0. -/
def tQual : State :=
  ((tTrg 2 [(F_TRG_CTRL_MODE, 1), (F_TIM_CTRL_RUN, 1), (F_TIM_IN_CFG_EN 0, 1), (F_TIM_IN_CFG_STORE 0, 2)] id).applyRegs [R_TIM_IN_CFG 0]).modTim
    (fun t => { t with mq := [tRec] })

/-- A result of a measurement unit. -/
def tRes : MuRes :=
  { empty := false, susp := false, loss := false, orphan := 0, value := 0, n := 0, sum := 0, sum2 := 0, mn := 0, mx := 0, endTs := 0 }

/-- A state with the capture changed. -/
def tCap (l : List (Fld × Nat)) (f : Cap → Cap) : State := { tLit l with cap := f (tLit l).cap }

/-- A page of the Silo that holds 64 bytes of stream 0 of an earlier capture, from a time on. -/
def tPage (t : Nat) : Page := { Page.empty with valid := true, firstTs := t, startTs := t, used := 1, capture := 1, endTs := some (t + 1) }

/-- A claim of context 0 for stream 0. -/
def tClaim : CapClaim :=
  { id := 1, t0 := 0, t1 := 1, streams := 1, resMask := 0, ctx := 0, state := 2, gapIn := false, noData := false, created := 0, pages := [] }

/-- A segment of context 0 in CAP's table. -/
def tSegm : Seg :=
  { no := 0, capture := 0, tS := 0, decTs := 0, firstOvl := 0, cause := 0, branch := 0, flags := 0, pre := 0, post := 0, ovl := 0, holdBefore := 0,
    pinned := false, unpinned := false, held := false, fillIn := false, suspectIn := false, gapIn := false, cut := false, complete := true,
    stored := true, queued := true, released := false, ctx := 0, pages := [] }

/-- A state with a Silo of 512 pages and the capture changed. -/
def tSilo (l : List (Fld × Nat)) (f : Cap → Cap) : State := tCap ((F_CAP_SILO_PAGES_PAGES, 512) :: (F_CAP_PIN_LIMIT_PERCENT, 50) :: l) f

/-- An operator entry that reads and writes buffer 0, and a chain image of that one operator. -/
def tOpBytes : List Byte := natBytes 30 0x0104 ++ natBytes 2 0
def tImage : List Byte :=
  let h := natBytes 8 0x0100030100000000 ++ natBytes 54 0
  let o := natBytes 30 0x000000100000004
  h ++ natBytes 2 (check16 h) ++ (natBytes 2 0 ++ natBytes 126 1) ++ o ++ natBytes 2 (check16 o)

/-- A chain image as it stands loaded. -/
def tImg (trigger : Nat) (ops : List OpE) : Image :=
  { trigger := trigger, resetAtArm := false, win := 1, hop := 1, deadline := 0, stateBytes := 0, origin := 0, bufs := [], ops := ops }

/-- A chain of context 0 on engine 94 with no feed. -/
def tChain (trigger : Nat) (ops : List OpE) : Chain :=
  { id := 1, ctx := 0, eng := 94, img := tImg trigger ops, lib := none, cycN := 0, cycC := 0, running := true, parked := false, startTs := 0, stopping := false, lastW := none,
    rings := [], nextW := some 0, lastSeq := none, lastEnd := 0, lastLen := 0, committed := 0, abandoned := 0, rerun := 0, hostRuns := 0,
    st := ChSt.reset, cjob := 0, load := 0, ready := 0, mirror := 0, outUnits := 0 }

/-- A STORE_IN operator of stream 0. -/
def tStoreIn : OpE :=
  { code := 2, fmt := 0, inA := 0, inB := 0, out := 0, out2 := 0, len := 1, p0 := 0, p1 := 0, p2 := 0, p3 := 0, inOfs := 0, outOfs := 0 }

/-- A job of that chain in a state. -/
def tJob (st : Nat) : Job :=
  { chain := 1, eng := 94, seq := 0, start := 0, wend := 0, flags := 0, cmd := none, retried := false, ins := [], state := st, at_ := 0, out := none }

/-- What a job has staged when it stages nothing. -/
def tStaged : Staged := { st := ChSt.reset, maps := [], res := [], bns := [], host := [], bytes := 0, ovr := false }

/-- A state with the engines changed. -/
def tEng (l : List (Fld × Nat)) (f : Eng → Eng) : State := (tLit l).modEng f

/-- A sealed job. -/
def tSealed : Job := { tJob 2 with out := some tStaged }

/-- A member of group 1: a POWER chain whose record is aggregated and finished. -/
def tMember : Chain := { tChain 1 [] with lib := some ((List.replicate 2 0 ++ [0x30001002] ++ List.replicate 13 0).map (BitVec.ofNat 32)) }

/-- A group and a part-1 record of one of its windows. -/
def tGrp : Grp := { ctx := 0, group := 1, base := 0, number := 0, t1 := 0, t10 := 0, t120 := 0, last1 := none, last2 := none, opened := some 0, open2 := [0] }
def tMem : MemRec := { ctx := 0, group := 1, chain := 1, seq := 0, kind := 8, wend := 0, wlen := 0, flags := 0, vals := [], at_ := 0 }

/-- Function 0's admin pair with one entry that waits. -/
def tPair : QPair := { newPair 0 0 0 false 0 0 4 4 0 1 1 with sqTail := 1 }

/-- A state with that pair, and the protocol changed. -/
def tFcp (l : List (Fld × Nat)) (f : Fcp → Fcp) : State :=
  let s := tLit ((F_GLB_STATE_CMD_READY, 1) :: l)
  { s with fcp := f { s.fcp with pairs := [tPair] } }

/-- A command in flight of queue 0 and tag 0. -/
def tCom (k : WaitKind) (due : Nat) : Inflight := { inflightOf 0xD3 (tPk 0xD3 [0x10000, 0, 0, 5]) with kind := k, due := due }

/-- A state with map 15 enabled, at 2 × 2 and 1 ms an epoch, and its epochs changed. -/
def tMap (l : List (Fld × Nat)) (f : MapSt → MapSt) : State :=
  (tLit ((F_MAP_CTRL_EN 15, 1) :: (F_MAP_GEOM_W 15, 2) :: (F_MAP_GEOM_H 15, 2) :: (F_MAP_EPOCH_US 15, 1000) :: l)).modMp 15 f

/-- A compression job of context 0 that has produced everything, with an output list and bytes still to be written. -/
def tCmp (st : Nat) (l : List OutEnt) (q : List Byte) : CmpJob :=
  { id := 1, ctx := 0, func := 0, cmd := none, stream := 1, part := 3, save := false, saveAddr := 0, chan := 0,
    engine := if st = 1 then some 7 else none, state := st, inp := [], inHost := false, resumed := false, list := l, inN := 0, outN := 0, outq := q,
    produced := true, st := CmpState.new 0 0 0, abort := false, suspend := false, poisoned := false, claim := none, at_ := 0 }

/-- A state with that job. -/
def tCmpS (j : CmpJob) (l : List (Fld × Nat)) : State := let s := tLit l; { s with cmp := { s.cmp with jobs := [j] } }

/-- The output list of one byte of host memory as it stands there. -/
def tList : List Byte := natBytes 16 (2 ^ 64 + 2 ^ 96)

/-- A descriptor of 64 bytes. -/
def tDesc : DDesc := { src := 0, dst := 0, len := 64, ctrl := 0, next := 0, tag := 0, pace := 0, rsv := 0 }

/-- A transfer of a channel. -/
def tXfer : Xfer :=
  { index := none, cmd := none, head := tDesc, cur := none, hops := 0, nextAt := 0, released := none, rd := 0, wr := 0, kept := [], crc := 0,
    desc := [], done := 0, retries := 0, tries := 0, poisoned := false, appended := 0, lastDst := (0, 0), endSt := none, overlap := false,
    given := none, claim := none, emit := none, wroteAt := none }

/-- A state in which channel 127 is open for context 0, and changed. -/
def tDma (l : List (Fld × Nat)) (f : Chan → Chan) : State :=
  tHeld [] ((tLit ((F_DMA_C_CFG_OPEN 127, 1) :: l)).modChan 127 f)

/-- A state with mailbox set `i` enabled, and changed. -/
def tMbx (i : Nat) (f : MSet → MSet) : State := let s := tLit [(F_MBX_S_CFG_EN i, 1)]; { s with mbx := { s.mbx with sets := listMod s.mbx.sets i f } }

/-- A staging of which the first three words are written. -/
def tStage : Staging := { owner := 0x9F, words := [some 1, some 2, some 3, none] }

/-- A state with the memory's own state and one channel of it changed, at a capacity of 4 MiB. -/
def tMc (l : List (Fld × Nat)) (c : Nat) (g : MChan → MChan) (f : Mem → Mem) : State :=
  ((((tLit l).wr64 R_MEM_CAPACITY_LO R_MEM_CAPACITY_HI 4194304)).modMch c g).modMem f

/-- A state with the clocks changed. -/
def tClk (l : List (Fld × Nat)) (f : Clk → Clk) : State := (tLit l).modClk f

/-- 1920 × 1080 at 60 Hz, as DIS_MODE's dwords and as registers. -/
def tMode (dw2 : Nat) : List Nat := [dw2, 148500, 1920 + 88 * 65536, 44 + 148 * 65536, 1080 + 4 * 65536, 5 + 36 * 65536]
def tModeRegs : List (Fld × Nat) :=
  [(F_DIS_LINK_RATE, 3), (F_DIS_LINK_LANES, 2), (F_DIS_LINK_BPC, 1), (F_DIS_PCLK_KHZ, 148500), (F_DIS_HACT_HACTIVE, 1920), (F_DIS_HACT_HFP, 88),
   (F_DIS_HSYNC_HSW, 44), (F_DIS_HSYNC_HBP, 148), (F_DIS_VACT_VACTIVE, 1080), (F_DIS_VACT_VFP, 4), (F_DIS_VSYNC_VSW, 5), (F_DIS_VSYNC_VBP, 36)]

/-- A layer of that size. -/
def tLayer : List (Fld × Nat) := [(F_DIS_L_CFG_EN 0, 1), (F_DIS_L_SIZE_W 0, 1920), (F_DIS_L_SIZE_H 0, 1080), (F_DIS_L_STRIDE_BYTES 0, 7680)]

/-- A state with the display changed. -/
def tDis (l : List (Fld × Nat)) (f : Dis → Dis) : State := let s := tLit l; { s with dis := f s.dis }

/-- A conversion of the sequence, locked to the mains or timed. -/
def tConv (ph : McvPhase) (mains : Bool) : McvConv :=
  { kind := 0, entry := 0, cfg := if mains then 256 else 0, win := 100, cmd := 0, phase := ph, dwellEnd := 0, start := 0, startUp := 0,
    spanEnd := some 0, reports := 0, len := 0, dac := 0, coast := false, suspect := false }

/-- A state with the converter enabled and changed. -/
def tMcv (l : List (Fld × Nat)) (f : Mcv → Mcv) : State := let s := tLit ((F_MCV_CTRL_EN, 1) :: l); { s with mcv := f s.mcv }

/-- An error record of a class, and a state in whose chute 16 it stands. -/
def tErr (cls : Nat) : ErrRec :=
  { ts := 0, blk := 16, cls := cls, typ := 1, master := 0, lostBefore := false, injected := false, acked := false, escalated := false, resource := 0,
    detail := 0, linkSeq := 0, seq := 0 }
def tErrS (l : List (Fld × Nat)) (rs : List ErrRec) : State := { tLit l with err := { Err.reset with chutes := List.replicate 16 [] ++ [rs] } }

/-- A transition of power states. -/
def tTrans : PsTrans := { src := 2, dst := 1, cause := 0, start := 0, ts := 0, begun := 0 }

/-- Containment. -/
def tContain (s : State) : State := { s with err := { s.err with contained := true } }

/-- A glide whose next step is due at 1 ns, and a slew of 3 ns. -/
def tGlide : Glide := { src := 1000000, tgt := 500000, k := 0, at_ := 1, start := 0 }
def tSlew : Slew := { neg := false, start := 0, ramp := 1, hold := 1, lost := false }

/-- A patch image of version 7 for ROM version 1234H with 64 bytes of code: the public key is the base point of P-384, and the
signature was computed outside the model (FIPS 180-4, FIPS 186) with private key 1 and nonce 1. -/
def tPatch : List Byte :=
  ([0x31, 0x30, 0x50, 0x46, 1, 7, 0x34, 0x12, 64, 0, 0, 0, 0, 0, 0, 0, 4] : List Byte) ++ bigBytes 48 gx384 ++ bigBytes 48 gy384 ++
    List.replicate 79 0 ++ bigBytes 48 0xAA87CA22BE8B05378EB1C71EF320AD746E1D3B628BA79B9859F741E082542A385502F25DBF55296C3A545E3872760AB7 ++
    bigBytes 48 0xDE6AFED945C8E80F9E8F2E79D5FA29E815A43ACC68DB446ACFAD4B8E080905B880295C10E657EBBC4994CEFA51CD5A7A

/-- A device whose fuses hold that key's hash, and whose ROM is of that version. -/
def tFused : State :=
  { State.reset with
    regs := (R_GLB_REV, 0x12340000#32) :: [0x24264F8C, 0xEDF9B712, 0x70067686, 0xE50D135A, 0x48D02F21, 0x388CAFFB,
      0x40A2F442, 0xA05BB4F4, 0x19820FC9, 0x3EDACD4C, 0xB0969CD8, 0x1DD5E1AF].mapIdx
      (fun i w => (R_GLB_KEYHASH i, BitVec.ofNat 32 w)) ++ [(R_GLB_FUSE_STATUS, 1#32)] }

/-! ### What the claims about one command ask -/

/-- What `IntakeSettingsAreStored` asks is met, clause by clause. -/
theorem witness_IntakeSettingsAreStored :
    (tHolds (fun p s => tCmd 0x20 true (some .intake) p s && !jinRun s && intakeConfigValid p s) (tPk 0x20 [1, 24750, 0, 0, 2, 255]) (tLit [])) = true ∧
    (tHolds (fun p s => tCmd 0x21 true (some .intake) p s && pf p 2 0 4 ≤ 11 && pb p 2 31) (tPk 0x21 [0x8000000B, 5]) (tLit [(F_JIN_CTRL_RUN, 1)])) = true ∧
    (tHolds (fun p s => tCmd 0x21 true (some .intake) p s && pf p 2 0 4 ≤ 11 && !pb p 2 31 && !jinRun s
        && orderOk (s.rd (F_JIN_L_CFG_INTERLEAVE (pf p 2 0 4))) (pf p 2 8 8)) (tPk 0x21 [0xE40B, 5]) (tLit [])) = true ∧
    (tHolds (fun p s => tCmd 0x25 true (some .intake) p s && periodOk (pdw p 3) (s.rd F_JIN_LANE_RATE_RATE) (jinE s) && 1 ≤ pf p 2 8 8
        && !sysrefBusy s && cellWf regReset s.eff) (tPk 0x25 [0x101, 2112000]) (tLit [(F_JIN_LANE_RATE_RATE, 24750)])) = true ∧
    (tHolds (fun p s => tCmd 0x25 true (some .intake) p s && periodOk (pdw p 3) (s.rd F_JIN_LANE_RATE_RATE) (jinE s) && 1 ≤ pf p 2 8 8
        && sysrefBusy s) (tPk 0x25 [0x101, 2112000]) (tJin [(F_JIN_LANE_RATE_RATE, 24750)] (fun j => { j with pulses := 1 }))) = true :=
  by and_intros <;> decide +kernel

/-- What `IntakeRunsStopsTestsAndRelocks` asks is met, clause by clause. -/
theorem witness_IntakeRunsStopsTestsAndRelocks :
    (tHolds (fun p s => tCmd 0x22 true (some .intake) p s && jinRun s) (tPk 0x22 []) (tLit [(F_JIN_CTRL_RUN, 1)])) = true ∧
    (tHolds (fun p s => tCmd 0x22 true (some .intake) p s && !jinRun s && startAllowed s && enLinks s != []) (tPk 0x22 [])
        (tEff [(F_JIN_LINK_EN_LINK_EN, 1), (F_JIN_SYSREF_CTRL_MODE, 1), (F_JIN_SYSREF_CTRL_OUT_EN, 1)] [R_JIN_SYSREF_CTRL])) = true ∧
    (tHolds (fun p s => tCmd 0x23 true (some .intake) p s && !s.on F_JIN_STATUS_ARMED) (tPk 0x23 []) (tLit [(F_JIN_CTRL_RUN, 1)])) = true ∧
    (tHolds (fun p s => tCmd 0x24 false (some .intake) p s && pf p 2 0 4 ≤ 11 && !pb p 2 8) (tPk 0x24 [11]) (tLit [])) = true ∧
    (tHolds (fun p s => tCmd 0x24 false (some .intake) p s && pf p 2 0 4 ≤ 11 && pb p 2 8) (tPk 0x24 [0x10B]) (tLit [])) = true ∧
    (tHolds (fun p s => tCmd 0x26 true (some .intake) p s && !jinRun s) (tPk 0x26 []) (tLit [])) = true ∧
    ((tFly 0x26 .laneTest 0 0 (tLit [])).fcp.inflight.any (fun c => c.kind == .laneTest && decide (c.due ≤ (tLit []).up))) = true ∧
    (tHolds (fun p s => tCmd 0x27 true (some .intake) p s && 1 ≤ pf p 2 16 5 && pf p 2 16 5 ≤ 16 && !s.on F_JIN_CSPI_CTRL_BUSY
        && s.jin.cspi == []) (tPk 0x27 [0x100000]) (tLit [])) = true ∧
    ((tJin [(F_JIN_CSPI_CTRL_BUSY, 1)] (fun j => { j with cspi := [tCspi] })).on F_JIN_CSPI_CTRL_BUSY) = true ∧
    (tOn (fun s => s.domOn .intake && jinRun s && cellWf regReset s.regs && linkEn s 11 && (linkLanes s 11).contains 23 && s.on (F_JIN_L_STATUS_UP 11)
        && !s.on (laneBit 2 23)) (tLit [(F_JIN_CTRL_RUN, 1), (F_JIN_LINK_EN_LINK_EN, 0x800), (F_JIN_PARAMS_L, 1), (F_JIN_L_STATUS_UP 11, 1)])) = true ∧
    (tOn (fun s => s.domOn .intake && jinRun s && cellWf regReset s.regs && linkEn s 11 && s.on F_JIN_STATUS_ALIGNED && allEmb s 11
        && !(s.link 11).dead && !s.on (F_JIN_L_STATUS_UP 11) && arrivalCheck s 11 == none && !s.jin.autoRbd)
        (tJin [(F_JIN_CTRL_RUN, 1), (F_JIN_LINK_EN_LINK_EN, 0x800), (F_JIN_STATUS_ALIGNED, 1), (F_JIN_PARAMS_L, 0), (laneBit 4 22, 1), (F_JIN_RBD_RBD, 8)]
          (fun j => { j with autoRbd := false }))) = true ∧
    (tOn (fun s => s.domOn .intake && jinRun s && linkEn s 11 && (linkLanes s 11).contains 23 && !s.on (laneBit 2 23) && blockDue s 11
        && s.jin.links.length == 12) (tLane [] none)) = true ∧
    (tOn (fun s => s.domOn .intake && jinRun s && s.jin.lanes.length == 24 && linkEn s 11 && (linkLanes s 11).contains 23 && s.on (laneBit 2 23)
        && s.on (laneBit 4 23) && (s.lane 23).sinceMark == some 5 && decide (5 + 1 < 32 * jinE s)
        && (((true :: (s.lane 23).headers).take 64).filter (fun v => !v)).length < 16) (tLane [(laneBit 2 23, 1), (laneBit 4 23, 1)] none)) = true ∧
    (tOn (fun s => s.domOn .intake && jinRun s && linkEn s 11 && !blockDue s 11) (tLane [] (some (2 ^ 90)))) = true :=
  by and_intros <;> decide +kernel

/-- What `IntakeRegisterWritesAndSysref` asks is met, clause by clause. -/
theorem witness_IntakeRegisterWritesAndSysref :
    (tOn (fun s => reaches 0x21 R_JIN_CTRL s && !jinRun s && cellWf regReset s.regs) (tLit [])) = true ∧
    (tOn (fun s => reaches 1 R_JIN_CTRL s && jinRun s && !s.on F_JIN_STATUS_ARMED) (tLit [(F_JIN_CTRL_RUN, 1)])) = true ∧
    (tOn (fun s => reaches 0x21 R_JIN_CTRL s && jinRun s && s.on F_JIN_STATUS_ARMED) (tLit [(F_JIN_CTRL_RUN, 1), (F_JIN_STATUS_ARMED, 1)])) = true ∧
    (tOn (fun s => reaches 0x21 R_JIN_SYSREF_ISSUE s && s.jin.pulses != 0) (tJin [] (fun j => { j with pulses := 1 }))) = true ∧
    (tOn (fun s => reaches 0x21 R_JIN_SYSREF_ISSUE s && s.jin.pulses == 0 && s.rdE F_JIN_SYSREF_CTRL_MODE == 1)
        (tEff [(F_JIN_SYSREF_CTRL_MODE, 1)] [R_JIN_SYSREF_CTRL])) = true ∧
    (tOn (fun s => reaches 0x21 R_JIN_SYSREF_ISSUE s && s.jin.pulses == 0 && s.rdE F_JIN_SYSREF_CTRL_MODE == 2)
        (tEff [(F_JIN_SYSREF_CTRL_MODE, 2)] [R_JIN_SYSREF_CTRL])) = true ∧
    (tOn (fun s => reaches 0x21 R_JIN_CSPI_CTRL s && s.on F_JIN_CSPI_CTRL_BUSY) (tLit [(F_JIN_CSPI_CTRL_BUSY, 1)])) = true ∧
    (tOn (fun s => reaches 0x21 R_JIN_CSPI_CTRL s && !s.on F_JIN_CSPI_CTRL_BUSY && s.jin.cspi == [] && bitsOf (0x80200007#32 : Word).toNat 16 6 ≤ 32
        && (0x80200007#32 : Word).toNat.testBit 31) (tLit [])) = true ∧
    (tOn (fun s => s.domOn .intake && !s.err.contained && s.jin.nextPulse ≤ s.up && s.jin.pulses != 0 && s.rd F_JIN_SYSREF_CTRL_MODE == 2
        && cellWf regReset s.eff && cellWf regReset s.regs) (tJin [(F_JIN_SYSREF_CTRL_MODE, 2)] (fun j => { j with pulses := 1 }))) = true ∧
    (tOn (fun s => s.jin.pulses != 0 && s.rd F_JIN_SYSREF_CTRL_MODE == 2 && tpllBypass s)
        (tJin [(F_JIN_SYSREF_CTRL_MODE, 2), (F_CKG_P_STATUS_STATE 2, 5)] (fun j => { j with pulses := 1 }))) = true ∧
    (tOn (fun s => s.domOn .intake && jinRun s && s.jin.pulseNew && s.jin.lemc == none) (tJin [(F_JIN_CTRL_RUN, 1)] (fun j => { j with pulseNew := true }))) = true ∧
    (tOn (fun s => s.domOn .intake && jinRun s && s.jin.pulseNew && s.jin.lemc == some 0 && onEdge s (s.rdTs (R_JIN_SYSREF_LAST_W 0)) 0
        && !s.jin.later) (tJin [(F_JIN_CTRL_RUN, 1)] (fun j => { j with pulseNew := true, lemc := some 0 }))) = true :=
  by and_intros <;> decide +kernel

/-- What `FilterUnitCommandsComplete` asks is met, clause by clause. -/
theorem witness_FilterUnitCommandsComplete :
    (tHolds (fun p s => tCmd 0x28 true (some .intake) p s && !s.on F_JIN_STATUS_ARMED && pf p 2 12 3 != 4
        && modeValid (pf p 2 12 3) (pf p 2 15 2) (pdw p 3) (pf p 3 0 5) (pf p 3 8 2) && s.dfu.length == 12) (tPk 0x28 [0x2FFF, 0x100000]) (tLit [])) = true ∧
    (tHolds (fun p s => tCmd 0x28 true (some .intake) p s && !s.on F_JIN_STATUS_ARMED && pf p 2 12 3 == 4 && pdw p 3 == pf p 3 0 5 + 256 * pf p 3 8 2
        && modeValid (pf p 2 12 3) (pf p 2 15 2) (pdw p 3) (pf p 3 0 5) (pf p 3 8 2)) (tPk 0x28 [0x4FFF, 0x105]) (tLit [])) = true ∧
    (tHolds (fun p s => tCmd 0x2A true (some .intake) p s && !s.on F_JIN_STATUS_ARMED && s.on F_JIN_STATUS_ALIGNED) (tPk 0x2A [0x800])
        (tLit [(F_JIN_STATUS_ALIGNED, 1)])) = true ∧
    (tHolds (fun p s => tCmd 0x2A true (some .intake) p s && !s.on F_JIN_STATUS_ARMED && !s.on F_JIN_STATUS_ALIGNED) (tPk 0x2A [0x800]) (tLit [])) = true ∧
    (tHolds (fun p s => tCmd 0x2B true (some .intake) p s && !s.on F_JIN_STATUS_ARMED && pf p 2 12 4 == 2
        && (unitsOf (pf p 2 0 12)).all (fun n => (s.du n).saved.isSome)) (tPk 0x2B [0x2800])
        ((tLit []).modDu 11 (fun d => { d with saved := some (List.replicate 8 0#32) }))) = true ∧
    (tHolds (fun p s => tCmd 0x2B true (some .intake) p s && !s.on F_JIN_STATUS_ARMED && pf p 2 12 4 == 3) (tPk 0x2B [0x3801]) (tLit [])) = true ∧
    (tHolds (fun p s => tCmd 0x2C true (some .intake) p s && pf p 2 0 4 ≤ 11 && pf p 2 13 4 ≤ 12 && rsStepOk p (issued 0x2C p s)
        && !s.on F_JIN_STATUS_ARMED) (tPk 0x2C [0x61B, 0, 0x312D0000, 1]) (tLit tRate)) = true ∧
    (tHolds (fun p s => tCmd 0x2C true (some .intake) p s && pf p 2 0 4 ≤ 11 && pf p 2 13 4 ≤ 12 && rsStepOk p (issued 0x2C p s)
        && s.on F_JIN_STATUS_ARMED && rsFrozenSame p s) (tPk 0x2C [0x61B, 0, 0x312D0000, 1]) (tLit ((F_DFU_RS_CTRL_EN 11, 1) :: (F_DFU_RS_CTRL_SRC 11, 0) :: (F_DFU_RS_CTRL_N_CODE 11, 6) :: (F_JIN_STATUS_ARMED, 1) :: tRate))) = true ∧
    (tHolds (fun p s => tCmd 0x2D false (some .intake) p s && pf p 2 0 4 ≤ 11 && !pb p 2 8) (tPk 0x2D [11]) (tLit [])) = true ∧
    (tHolds (fun p s => tCmd 0x2D false (some .intake) p s && pf p 2 0 4 ≤ 11 && pb p 2 8) (tPk 0x2D [0x10B]) (tLit [])) = true ∧
    (tHolds (fun p s => tCmd 0x2E true (some .intake) p s && pf p 2 0 4 ≤ 11 && !pb p 2 8) (tPk 0x2E [0x1B]) (tLit [])) = true ∧
    (tHolds (fun p s => tCmd 0x2E true (some .intake) p s && pf p 2 0 4 ≤ 11 && pb p 2 8 && s.on (F_DFU_STATUS_ANCHOR_READY (pf p 2 0 4)))
        (tPk 0x2E [0x11B]) (tLit [(F_DFU_STATUS_ANCHOR_READY 11, 1)])) = true ∧
    (tHolds (fun p s => tCmd 0x2E true (some .intake) p s && pf p 2 0 4 ≤ 11 && pb p 2 8 && !s.on (F_DFU_STATUS_ANCHOR_READY (pf p 2 0 4)))
        (tPk 0x2E [0x11B]) (tLit [])) = true :=
  by and_intros <;> decide +kernel

/-- What `CorrectionsCommitAtTheEdge` asks is met, clause by clause. -/
theorem witness_CorrectionsCommitAtTheEdge :
    (tHolds (fun p s => tCmd 0x29 true (some .intake) p s && pf p 2 0 4 ≤ 11 && !pb p 2 8 && s.dfu.length == 12) (tPk 0x29 [0xFB]) (tLit [])) = true ∧
    (tHolds (fun p s => tCmd 0x29 true (some .intake) p s && pf p 2 0 4 ≤ 11 && pb p 2 8 && s.on F_JIN_STATUS_ALIGNED) (tPk 0x29 [0x1FB])
        (tLit [(F_JIN_STATUS_ALIGNED, 1)])) = true ∧
    (tHolds (fun p s => tCmd 0x29 true (some .intake) p s && pf p 2 0 4 ≤ 11 && pb p 2 8 && !s.on F_JIN_STATUS_ALIGNED) (tPk 0x29 [0x1FB]) (tLit [])) = true ∧
    (tOn (fun s => reaches 0x21 R_DFU_CORR_COMMIT s && s.on F_JIN_STATUS_ALIGNED) (tLit [(F_JIN_STATUS_ALIGNED, 1)])) = true ∧
    (tOn (fun s => reaches 0x21 R_DFU_CORR_COMMIT s && !s.on F_JIN_STATUS_ALIGNED) (tLit [])) = true ∧
    (tOn (fun s => s.domOn .intake && s.on (F_DFU_STATUS_CORR_PENDING 11) && edgePassed s (s.du 11).corrEdge) (tLit [(F_DFU_STATUS_CORR_PENDING 11, 1)])) = true ∧
    (tOn (fun s => s.domOn .intake && s.on (F_DFU_STATUS_CORR_PENDING 11) && s.on F_JIN_STATUS_ALIGNED && !edgePassed s (s.du 11).corrEdge)
        ((tJin [(F_DFU_STATUS_CORR_PENDING 11, 1), (F_JIN_STATUS_ALIGNED, 1)] (fun j => { j with lemc := some 0 })).modDu 11
          (fun d => { d with corrEdge := 0 }))) = true ∧
    (tOn (fun s => s.domOn .intake && !s.err.contained && s.on (F_DFU_STATUS_ANCHOR_READY 11) && anchMembers s 11 == [])
        (tLit [(F_DFU_STATUS_ANCHOR_READY 11, 1)])) = true ∧
    (tOn (fun s => s.domOn .intake && !s.err.contained && s.on (F_DFU_STATUS_ANCHOR_READY 11) && anchMembers s 11 != [] && anchBad s 11
        && (s.du 11).discards < 2) ((tLit [(F_DFU_STATUS_ANCHOR_READY 11, 1)]).modDu 11 (fun d => { d with targ := [some (1, 1, 0), none, none, none] }))) = true ∧
    (tOn (fun s => s.domOn .intake && !s.err.contained && s.on (F_DFU_STATUS_ANCHOR_READY 11) && anchMembers s 11 != [] && !anchBad s 11)
        ((tLit [(F_DFU_STATUS_ANCHOR_READY 11, 1), (F_DFU_M_ACC_COUNT_VALUE 11 0, 100), (F_DFU_M_ACC_SUM_LO_VALUE 11 0, 100000)]).modDu 11
          (fun d => { d with targ := [some (3000, 1, 0), none, none, none] }))) = true :=
  by and_intros <;> decide +kernel

/-- What `DsyncOutputsAndResamplerCycles` asks is met, clause by clause. -/
theorem witness_DsyncOutputsAndResamplerCycles :
    (tOn (fun s => reaches 0x21 R_DFU_SYNC s && s.on F_JIN_STATUS_ARMED && s.dfu.length == 12) (tLit [(F_JIN_STATUS_ARMED, 1)])) = true ∧
    (tOn (fun s => reaches 0x21 R_DFU_SYNC s && !s.on F_JIN_STATUS_ARMED && s.on F_JIN_STATUS_ALIGNED) (tLit [(F_JIN_STATUS_ALIGNED, 1)])) = true ∧
    (tOn (fun s => reaches 0x21 R_DFU_SYNC s && !s.on F_JIN_STATUS_ARMED && !s.on F_JIN_STATUS_ALIGNED) (tLit [])) = true ∧
    (tOn (fun s => s.domOn .intake && edgePassed s (s.du 11).syncEdge && (s.du 11).syncPend) ((tLit []).modDu 11 (fun d => { d with syncPend := true }))) = true ∧
    (tOn (fun s => s.domOn .intake && ((dfuRun 11 false (linkDepth s 11 + 1) s).du 11).outq == []) (tLit [])) = true ∧
    (tOn (fun s => s.domOn .intake && ((dfuRun 11 false (linkDepth s 11 + 1) s).du 11).outq != []) ((tLit []).modDu 11 (fun d =>
        { d with outq := [{ j := 0, ts := 0, valid := true, unsettled := false, ins := [(0, { vals := [1], fill := false, suspect := false, ovr := false })] }] }))) = true ∧
    (tOn (fun s => s.tim.reports.find? (fun x => x.fp == 7) == some { fp := 7, p := 256, e := 0, due := 0 })
        ((tLit []).modTim (fun t => { t with reports := [{ fp := 7, p := 256, e := 0, due := 0 }] }))) = true ∧
    (tOn (fun s => s.domOn .intake && s.on (F_DFU_RS_CTRL_EN 11) && s.jin.valid && (s.du 11).rs.started && (s.du 11).rs.step == 0)
        ((tJin [(F_DFU_RS_CTRL_EN 11, 1)] (fun j => { j with valid := true })).modDu 11 (fun d => { d with rs := { d.rs with started := true } }))) = true ∧
    (tOn (fun s => s.domOn .intake && s.on (F_DFU_RS_CTRL_EN 11) && s.jin.valid && (s.du 11).rs.started && (s.du 11).rs.step != 0
        && rsN s 11 ≤ (s.du 11).rs.pos) ((tJin [(F_DFU_RS_CTRL_EN 11, 1)] (fun j => { j with valid := true })).modDu 11
          (fun d => { d with rs := { d.rs with started := true, step := 5, pos := 100000 } }))) = true ∧
    (tOn (fun s => s.domOn .intake && s.on (F_DFU_RS_CTRL_EN 11) && !(s.du 11).rs.coasting && (s.du 11).rs.last == some 0
        && 0 + 2 * (if (s.du 11).rs.accepted then (s.du 11).rs.p else rsNominal s 11) * 16777216 < s.now)
        { (tLit [(F_DFU_RS_CTRL_EN 11, 1)]).modDu 11 (fun d => { d with rs := { d.rs with last := some 0 } }) with now := 2 ^ 62 }) = true :=
  by and_intros <;> decide +kernel

/-- What `TriggerArmsDisarmsAndForces` asks is met, clause by clause. -/
theorem witness_TriggerArmsDisarmsAndForces :
    (tHolds (fun p s => tCmd 0x30 true (some .intake) p s && pTs p 2 ≤ s.now + 60000000000 * ns1 && badNote (issued 0x30 p s) == none
        && jinRun s && trgState s == 0 && armBudget (issued 0x30 p s) (pCtx p) (mbps (rateG (issued 0x30 p s))) == none) (tPk 0x30 [])
        (tHeld [] (tLit [(F_JIN_CTRL_RUN, 1)]))) = true ∧
    (tOn (fun s => s.trg.armAt == some 0 && trgState s == 1 && s.domOn .intake && !s.err.contained && fclkReady s && releaseEdge s == some 0
        && lemcAtOrAfter s 0 ≤ lemcAtOrAfter s 0) (tArmed 0)) = true ∧
    (tOn (fun s => s.trg.armAt == some 1 && trgState s == 1 && s.domOn .intake && !s.err.contained && fclkReady s && releaseEdge s == some 0
        && lemcAtOrAfter s 0 < lemcAtOrAfter s 1) (tArmed 1)) = true ∧
    (tHolds (fun p s => tCmd 0x31 true (some .intake) p s && trgState s == 0) (tPk 0x31 []) (tLit [])) = true ∧
    (tHolds (fun p s => tCmd 0x32 true (some .intake) p s && 2 ≤ trgState s) (tPk 0x32 []) (tLit [(F_TRG_STATUS_STATE, 2)])) = true :=
  by and_intros <;> decide +kernel

/-- What `TriggerConfigurationIsStored` asks is met, clause by clause. -/
theorem witness_TriggerConfigurationIsStored :
    (tHolds (fun p s => tCmd 0x33 true (some .intake) p s && topValid p s && pb p 2 9) (tPk 0x33 [0x33F]) (tLit [(F_TRG_STATUS_STATE, 3)])) = true ∧
    (tHolds (fun p s => tCmd 0x33 true (some .intake) p s && topValid p s && !trgRunning s && !pb p 2 8) (tPk 0x33 [0x3F, 0x2F0011, 0x80007FFF]) (tLit [])) = true ∧
    (tHolds (fun p s => tCmd 0x34 true (some .intake) p s && termsOk (pdw p 3) && termsOk (pdw p 6) && !trgRunning s)
        (tPk 0x34 [0x1F, 0xA7FF0000, 0, 0, 0xFFFFFFFF]) (tLit [])) = true ∧
    (tHolds (fun p s => tCmd 0x35 true (some .intake) p s && !trgRunning s) (tPk 0x35 []) (tLit [])) = true ∧
    (tHolds (fun p s => tCmd 0x36 true (some .intake) p s && !trgRunning s) (tPk 0x36 []) (tLit [])) = true ∧
    (tHolds (fun p s => tCmd 0x36 true (some .intake) p s && trgRunning s && routeSame p s) (tPk 0x36 [2])
        (tLit [(F_TRG_STATUS_STATE, 4), (F_TRG_CTRL_MODE, 0), (F_TRG_CTRL_KEEP_HEART, 0)])) = true ∧
    (tHolds (fun p s => tCmd 0x37 true (some .intake) p s && pf p 2 0 3 ≤ 4) (tPk 0x37 [0x3F1C, 0xFFFFFF]) (tLit [])) = true ∧
    (tHolds (fun p s => tCmd 0x38 true (some .intake) p s && baseValid p (issued 0x38 p s) && !trgRunning s && !pb p 2 8)
        (tPk 0x38 [0x1F, 5, 0x3F800000, 0, 0, 10000000]) (tLit [])) = true ∧
    (tHolds (fun p s => tCmd 0x38 true (some .intake) p s && baseValid p (issued 0x38 p s) && pb p 2 9 && pb p 2 8)
        (tPk 0x38 [0x31F]) (tLit [(F_TRG_STATUS_STATE, 2)])) = true ∧
    (tHolds (fun p s => tCmd 0x39 true (some .intake) p s && pf p 10 0 25 ≤ 16777216 && !pb p 2 8 && !trgRunning s)
        (tPk 0x39 [1, 0, 0, 0, 0, 0, 0, 0, 16777216]) (tLit [])) = true ∧
    (tHolds (fun p s => tCmd 0x39 true (some .intake) p s && pf p 10 0 25 ≤ 16777216 && pb p 2 8) (tPk 0x39 [0x100, 5]) (tLit [(F_TRG_STATUS_STATE, 2)])) = true ∧
    (tHolds (fun p s => tCmd 0x3A false (some .intake) p s && pb p 2 0) (tPk 0x3A [1]) (tLit [])) = true ∧
    (tHolds (fun p s => tCmd 0x3A false (some .intake) p s && !pb p 2 0) (tPk 0x3A []) (tLit [])) = true ∧
    (tHolds (fun p s => tCmd 0x3B false (some .intake) p s && pf p 2 0 8 ≤ 31 && pb p 2 8) (tPk 0x3B [0x11F]) (tLit [])) = true ∧
    (tHolds (fun p s => tCmd 0x3B false (some .intake) p s && pf p 2 0 8 ≤ 31 && !pb p 2 8) (tPk 0x3B [31]) (tLit [])) = true :=
  by and_intros <;> decide +kernel

/-- What `TriggerEventsTakeEffect` asks is met, clause by clause. -/
theorem witness_TriggerEventsTakeEffect :
    (tOn (fun s => reaches 0x21 R_TRG_COMMIT s && cellWf regReset s.regs && cellWf regReset s.eff) (tLit [])) = true ∧
    (tOn (fun s => s.trg.applyAt == some (2 ^ 60 + 1) && s.domOn .intake && !s.err.contained && s.now < 2 ^ 60 + 1)
        (tTrg 0 [] (fun t => { t with applyAt := some (2 ^ 60 + 1) }))) = true ∧
    (tOn (fun s => s.trg.applyAt == some 0 && s.domOn .intake && !s.err.contained && 0 ≤ s.now)
        (tTrg 0 [] (fun t => { t with applyAt := some 0 }))) = true ∧
    (tOn (fun s => s.domOn .intake && trgActive s && s.on F_TRG_CTRL_MODE && heartDue s) (tTrg 2 [(F_TRG_CTRL_MODE, 1)] id)) = true ∧
    (tOn (fun s => s.domOn .intake && trgActive s && (trgParity 63 s).on F_TRG_CTRL_MODE && heartDue (trgParity 63 s) && (trgParity 143 s).on F_TRG_CTRL_MODE
        && heartDue (trgParity 143 s)) (tTrg 2 [(F_TRG_CTRL_MODE, 1)] id)) = true ∧
    (tOn (fun s => s.domOn .intake && trgActive s && !(trgParity 143 s).on F_TRG_CTRL_MODE) (tTrg 2 [] id)) = true ∧
    (tOn (fun s => s.domOn .intake && trgActive s && s.on F_TRG_CTRL_MODE && !heartDue s)
        (tTrg 2 [(F_TRG_CTRL_MODE, 1)] (fun t => { t with tick := 2 ^ 40 }))) = true ∧
    (tOn (fun s => s.domOn .intake && trgActive s && tmExpired s 3 (s.trg.tick * half)) (tTrg 2 [] (fun t => { t with timers := [none, none, none, some 0] }))) = true ∧
    (tOn (fun s => timeoutAt (timeoutAsk s 63).1 (timeoutAsk s 63).2 63 == some 0 && (timeoutAsk s 63).1.domOn .intake
        && trgActive (timeoutAsk s 63).1 && noteCaught (timeoutAsk s 63).1 63 0) tTimeout) = true ∧
    (tOn (fun s => nextOut s == some { at_ := 0, act := 0, late := false, ts := 0 } && !s.err.contained && 0 ≤ s.now && 1 ≤ s.pstate && s.pstate ≤ 3)
        (tTrg 2 [] (fun t => { t with out := [{ at_ := 0, act := 0, late := false, ts := 0 }] }))) = true ∧
    (tOn (fun s => nextOut s == some { at_ := 0, act := 2, late := true, ts := 0 } && !s.err.contained && 0 ≤ s.now && 1 ≤ s.pstate && s.pstate ≤ 3)
        (tTrg 2 [] (fun t => { t with out := [{ at_ := 0, act := 2, late := true, ts := 0 }] }))) = true ∧
    (tOn (fun s => s.trg.outEnd == some 0 && !s.err.contained && 0 ≤ s.now) (tTrg 2 [] (fun t => { t with outEnd := some 0 }))) = true ∧
    (tOn (fun s => s.domOn .intake && trgActive s) (tTrg 4 [] id)) = true ∧
    (tOn (fun s => s.trg.segs.find? (fun x => !x.handed) == some (tSeg 0) && s.domOn .intake && !s.err.contained && (tSeg 0).handAt ≤ s.now
        && !(tSeg 0).last) (tTrg 2 [] (fun t => { t with segs := [tSeg 0] }))) = true ∧
    (tOn (fun s => s.trg.segs.find? (fun x => !x.handed) == some { tSeg 0 with last := true } && s.domOn .intake && !s.err.contained && (tSeg 0).handAt ≤ s.now)
        (tTrg 2 [] (fun t => { t with segs := [{ tSeg 0 with last := true }] }))) = true ∧
    (tOn (fun s => s.trg.segs.find? (fun x => !x.handed) == some (tSeg (2 ^ 61)) && s.domOn .intake && !s.err.contained
        && s.now < (tSeg (2 ^ 61)).handAt) (tTrg 2 [] (fun t => { t with segs := [tSeg (2 ^ 61)] }))) = true :=
  by and_intros <;> decide +kernel

/-- What `EdgesPassTheDeglitchFilter` asks is met, clause by clause. -/
theorem witness_EdgesPassTheDeglitchFilter :
    (tOn (fun s => cellWf regReset s.regs && s.tim.ins.length == 65 && s.domOn .intake && false == (s.tin 64).raw) (tTim [] id)) = true ∧
    (tOn (fun s => s.domOn .intake && true != (s.tin 64).raw && !inDelivers s 64) (tLit [])) = true ∧
    (tOn (fun s => s.domOn .intake && true != (s.tin 64).raw && inDelivers s 64 && (s.tin 64).loss.isSome) (tTim [] (fun i => { i with loss := some 0 }))) = true ∧
    (tOn (fun s => s.domOn .intake && true != (s.tin 64).raw && inDelivers s 64 && (s.tin 64).loss == none && !edgeNarrow s 64 ns1 && edgeBusy s 64 ns1)
        (tTim [] (fun i => { i with recent := [0, 0] }))) = true ∧
    (tOn (fun s => s.domOn .intake && true != (s.tin 64).raw && inDelivers s 64 && (s.tin 64).loss == none && !edgeNarrow s 64 0 && !edgeBusy s 64 0
        && (s.tin 64).pend == []) (tTim [] id)) = true ∧
    (tOn (fun s => s.domOn .intake && true != (s.tin 64).raw && inDelivers s 64 && (s.tin 64).loss == none && !edgeNarrow s 64 0 && !edgeBusy s 64 0
        && (s.tin 64).pend.getLast? == some tEdge && edgeTs s 64 0 < tEdge.ts + s.rd (F_TIM_IN_CFG_DEGLITCH 64) * ns1)
        (tTim [(F_TIM_IN_CFG_DEGLITCH 64, 5)] (fun i => { i with pend := [tEdge] }))) = true ∧
    (tOn (fun s => s.domOn .intake && true != (s.tin 64).raw && inDelivers s 64 && (s.tin 64).loss == none && !edgeNarrow s 64 (9 * ns1)
        && !edgeBusy s 64 (9 * ns1) && (s.tin 64).pend.getLast? == some tEdge
        && decide (tEdge.ts + s.rd (F_TIM_IN_CFG_DEGLITCH 64) * ns1 ≤ edgeTs s 64 (9 * ns1)))
        (tTim [(F_TIM_IN_CFG_DEGLITCH 64, 5)] (fun i => { i with pend := [tEdge] }))) = true ∧
    (tOn (fun s => s.domOn .intake && true != (s.tin 64).raw && inDelivers s 64 && (s.tin 64).loss == none && edgeNarrow s 64 0 && pulseOpen s 64)
        (tTim [] (fun i => { i with recent := [0], pend := [tEdge] }))) = true ∧
    (tOn (fun s => s.domOn .intake && true != (s.tin 64).raw && inDelivers s 64 && (s.tin 64).loss == none && edgeNarrow s 64 0 && !pulseOpen s 64)
        (tTim [] (fun i => { i with recent := [0] }))) = true ∧
    (tOn (fun s => (s.tin 64).pend == [tEdge] && s.now < deliverAt s 64 tEdge) (tTim [] (fun i => { i with pend := [tEdge] }))) = true ∧
    (tOn (fun s => (s.tin 64).pend == [tEdge] && deliverAt s 64 tEdge ≤ s.now) { tTim [] (fun i => { i with pend := [tEdge] }) with now := 2 ^ 60 }) = true ∧
    (tOn (fun s => (s.tin 64).loss.isSome && 128 < chuteNow s 64 s.now) (tTim [] (fun i => { i with loss := some 0, chute := 129 }))) = true ∧
    (tOn (fun s => (s.tin 64).loss.isSome && chuteNow s 64 s.now ≤ 128) (tTim [] (fun i => { i with loss := some 0, chute := 128 }))) = true :=
  by and_intros <;> decide +kernel

/-- What `TimingStoresMeasuresAndRuns` asks is met, clause by clause. -/
theorem witness_TimingStoresMeasuresAndRuns :
    (tOn (fun s => s.domOn .intake && cellWf regReset s.regs && s.tim.ins.length == 65 && s.tim.mus.length == 16) (tTim [] id)) = true ∧
    (tOn (fun s => s.domOn .intake && (gapsRun (groupsRun s)).tim.mq == []) (tTim [] id)) = true ∧
    (tOn (fun s => s.domOn .intake && (gapsRun (groupsRun s)).tim.mq == [tRec] && tRec.ts
        + (gapsRun (groupsRun s)).rd F_TIM_STORE_ALIGN_ALIGN * 16777216 ≤ (gapsRun (groupsRun s)).now
        && !recWaits (gapsRun (groupsRun s)) tRec) { (tTim [] id).modTim (fun t => { t with mq := [tRec] }) with now := 2 ^ 60 }) = true ∧
    (tOn (fun s => s.domOn .intake && (gapsRun (groupsRun s)).tim.mq == [tRec] && tRec.ts
        + (gapsRun (groupsRun s)).rd F_TIM_STORE_ALIGN_ALIGN * 16777216 ≤ (gapsRun (groupsRun s)).now
        && recWaits (gapsRun (groupsRun s)) tRec) tQual) = true ∧
    (tOn (fun s => s.domOn .intake && s.on (F_TIM_IN_CFG_EN 64)) (tTim [] id)) = true ∧
    (tOn (fun s => s.domOn .intake && trgActive s) (tTrg 2 [] id)) = true ∧
    (tOn (fun s => s.domOn .intake && muMode s 15 != 0 && ((muGatesNow s 15).mu 15).closed == [tRes] && tRes.endTs
        + (muDelay s 15 + 8 * ns1) ≤ s.now)
        { (tTim [(F_TIM_MU_CFG_EN 15, 1), (F_TIM_MU_CFG_MODE 15, 4)] id).modMu 15 (fun y => { y with closed := [tRes] }) with now := 2 ^ 60 }) = true ∧
    (tOn (fun s => reaches 0x21 (R_TIM_MU_RES_POP 15) s) (tLit [])) = true ∧
    (tOn (fun s => reaches 0x21 R_TIM_CTRL s && !timRun s) (tLit [])) = true ∧
    (tOn (fun s => reaches 0x21 R_TIM_CTRL s && timRun s && s.cap.armed) (tCap [(F_TIM_CTRL_RUN, 1)] (fun c => { c with armed := true }))) = true ∧
    (tOn (fun s => reaches 0x21 R_TIM_CTRL s && timRun s && !s.cap.armed) (tTim [] id)) = true :=
  by and_intros <;> decide +kernel

/-- What `CaptureIsConfiguredClaimedAndRead` asks is met, clause by clause. -/
theorem witness_CaptureIsConfiguredClaimedAndRead :
    (tHolds (fun p s => tCmd 0x40 true none p s && capConfigValid p (issued 0x40 p s) && !capRunning s && !s.on F_GLB_STATE_DRAM_READY)
        (tPk 0x40 [0x0A000001, 0, 512, 512, 16, 0, 0, 32]) (tLit [(F_GLB_STATE_DRAM_READY, 0)])) = true ∧
    (tHolds (fun p s => tCmd 0x40 true none p s && capConfigValid p (issued 0x40 p s) && !capRunning s && s.on F_GLB_STATE_DRAM_READY
        && pb p 2 0) (tPk 0x40 [0x0A000001, 0, 512, 512, 16, 0, 0, 32]) (tLit [])) = true ∧
    (tHolds (fun p s => tCmd 0x40 true none p s && capConfigValid p (issued 0x40 p s) && !capRunning s && s.on F_GLB_STATE_DRAM_READY
        && !pb p 2 0) (tPk 0x40 [0x0A000000, 0, 512, 512, 16, 0, 0, 32]) (tLit [])) = true ∧
    (tHolds (fun p s => tCmd 0x41 false none p s && pb p 2 0) (tPk 0x41 [1]) (tLit [])) = true ∧
    (tHolds (fun p s => tCmd 0x41 false none p s && !pb p 2 0) (tPk 0x41 []) (tLit [])) = true ∧
    (tHolds (fun p s => tCmd 0x41 false none p s && !s.domOn .intake) (tPk 0x41 []) ((tLit []).setDom .intake 0)) = true ∧
    (tHolds (fun p s => tCmd 0x42 false none p s && clT0 p < clT1 p && clT1 p ≤ s.now + 60000000000 * ns1 && clStreams p != 0 && siloReady s
        && !(clIds p).all (fun i => retained (issued 0x42 p s) i (clT0 p))) (tPk 0x42 [0, 0, 0, 1, 0, 0, 1]) (tSilo [] (fun c => { c with tbl := [(0, tPage 5)] }))) = true ∧
    (tHolds (fun p s => tCmd 0x42 false none p s && clT0 p < clT1 p && clT1 p ≤ s.now + 60000000000 * ns1 && clStreams p != 0 && siloReady s
        && (clIds p).all (fun i => retained (issued 0x42 p s) i (clT0 p)) && lowestFree (s.cap.claims.map (fun c => c.id)) 1 65535 == some 1
        && pinnedPages (issued 0x42 p s) + clExtra p (issued 0x42 p s) ≤ pinCeiling (issued 0x42 p s)) (tPk 0x42 [5, 0, 0, 6, 0, 0, 1])
        (tSilo [] (fun c => { c with tbl := [(0, tPage 5)] }))) = true ∧
    (tHolds (fun p s => tCmd 0x43 false none p s && pb p 2 17 && siloReady s) (tPk 0x43 [0x20000]) (tSilo [] id)) = true ∧
    (tHolds (fun p s => tCmd 0x43 false none p s && !pb p 2 17 && pb p 2 16 && relSeg p s == some tSegm && ownsOr s (pCtx p) tSegm.ctx
        && siloReady s) (tPk 0x43 [0x10000]) (tSilo [] (fun c => { c with segs := [tSegm] }))) = true ∧
    (tHolds (fun p s => tCmd 0x43 false none p s && !pb p 2 17 && !pb p 2 16 && relClaim p s == some tClaim && ownsOr s (pCtx p) tClaim.ctx
        && siloReady s) (tPk 0x43 [1]) (tSilo [] (fun c => { c with claims := [tClaim] }))) = true ∧
    (tHolds (fun p s => tCmd 0x44 false (some .intake) p s && pq p 4 % 64 == 0 && 1 ≤ pf p 3 16 13 && pf p 3 16 13 ≤ 4096)
        (tPk 0x44 [0, 0x10000000, 64]) (tLit [])) = true ∧
    (tHolds (fun p s => tCmd 0x45 false none p s && crValid p (issued 0x45 p s) && pq p 9 % 64 == 0 && s.on (F_DMA_C_CFG_OPEN (crChan p))
        && chCtx (issued 0x45 p s) (crChan p) == pCtx p && crAllowed p (issued 0x45 p s)) (tPk 0x45 [1, 0, 0x7F0000])
        (tSilo [(F_DMA_C_CFG_OPEN 127, 1)] (fun c => { c with claims := [tClaim] }))) = true ∧
    (tHolds (fun p s => tCmd 0x46 false (some .intake) p s && (streamPages s (pf p 2 0 7)).isEmpty) (tPk 0x46 []) (tLit [])) = true ∧
    (tHolds (fun p s => tCmd 0x46 false (some .intake) p s && pTs p 3 < locOldest s (pf p 2 0 7)) (tPk 0x46 [])
        (tSilo [] (fun c => { c with tbl := [(0, tPage 5)] }))) = true ∧
    (tHolds (fun p s => tCmd 0x46 false (some .intake) p s && !(streamPages s (pf p 2 0 7)).isEmpty && locOldest s (pf p 2 0 7) ≤ pTs p 3
        && locHit (issued 0x46 p s) (pf p 2 0 7) (pTs p 3) == some (0, 0)) (tPk 0x46 [0, 5]) (tSilo [] (fun c => { c with tbl := [(0, tPage 5)] }))) = true :=
  by and_intros <;> decide +kernel

/-- What `CaptureRebuildsAndDrains` asks is met, clause by clause. -/
theorem witness_CaptureRebuildsAndDrains :
    (tHolds (fun p s => tCmd 0x47 true none p s && !capRunning s && siloReady s) (tPk 0x47 []) (tSilo [] id)) = true ∧
    (tOn (fun s => capState s == 0 && s.cap.saved != [] && s.on F_GLB_STATE_DRAM_READY && !s.err.contained && s.domOn .intake
        && cellWf regReset s.regs) (tSilo [(F_CAP_STATUS_STATE, 0)] (fun c => { c with saved := [(R_CAP_SILO_BASE, 1)] }))) = true ∧
    (tOn (fun s => siloLive s && capState s != 5 && !(granMark s 48 ⟨[], 1⟩).cap.armed && cellWf regReset s.regs) (tSilo [(F_CAP_STATUS_STATE, 4)] id)) = true ∧
    (tOn (fun s => siloLive s && capState s != 5 && (granMark s 48 ⟨[], 1⟩).cap.armed
        && (undrained (granMark s 48 ⟨[], 1⟩) 48).length < drainUnit (granMark s 48 ⟨[], 1⟩) 48)
        (tSilo [(F_CAP_STATUS_STATE, 4)] (fun c => { c with armed := true }))) = true ∧
    (tOn (fun s => siloLive s && capState s != 5 && drainUnit (granMark s 0 ⟨[], 0⟩) 0 ≤ (undrained (granMark s 0 ⟨[], 0⟩) 0).length)
        (tSilo [(F_CAP_STATUS_STATE, 4)] (fun c => { c with streams := listMod c.streams 0 (fun x =>
          { x with ring := (List.range 64).map (fun i => { n := i, ts := 0, bytes := [], heldFor := [], ue := false }) }) }))) = true ∧
    (tOn (fun s => capState s == 4 && s.rd F_CAP_HEARTBEAT_US != 0 && s.cap.hbAt ≤ s.up && !s.err.contained && !s.cap.hbGap)
        (tSilo [(F_CAP_STATUS_STATE, 4), (F_CAP_HEARTBEAT_US, 1)] id)) = true ∧
    (tOn (fun s => capState s == 4 && s.rd F_CAP_HEARTBEAT_US != 0 && s.cap.hbAt ≤ s.up && !s.err.contained && s.cap.hbGap && cellWf regReset s.regs)
        (tSilo [(F_CAP_STATUS_STATE, 4), (F_CAP_HEARTBEAT_US, 1)] (fun c => { c with hbGap := true }))) = true :=
  by and_intros <;> decide +kernel

/-- What `ChainsAreLoadedStartedAndGuarded` asks is met, clause by clause. -/
theorem witness_ChainsAreLoadedStartedAndGuarded :
    (tHolds (fun p s => tCmd 0x50 false none p s && contractOf s (pCtx p) == some (tCon [⟨0, none, false⟩]) && pq p 3 % 64 == 0
        && loadBad p (issued 0x50 p s) == none && fitPieces (issued 0x50 p s) (loadAsk p (issued 0x50 p s)) (tCon [⟨0, none, false⟩]) == [0]
        && lowestFree (s.eng.chains.map (fun c => c.id)) 1 65535 == some 1) { tPk 0x50 [1, 64, 0, 224] with buf := tImage } (tHeld [⟨0, none, false⟩] (tLit []))) = true ∧
    (tHolds (fun p s => tCmd 0x50 false none p s && contractOf s (pCtx p) == some (tCon []) && pq p 3 % 64 == 0
        && loadBad p (issued 0x50 p s) == none && fitPieces (issued 0x50 p s) (loadAsk p (issued 0x50 p s)) (tCon []) == [])
        { tPk 0x50 [1, 64, 0, 224] with buf := tImage } (tHeld [] (tLit []))) = true ∧
    (tHolds (fun p s => tCmd 0x51 false none p s && conHeld p s && ownChain p s == some (tChain 3 []) && !pb p 2 16) (tPk 0x51 [1])
        (tHeld [] (tEng [] (fun e => { e with chains := [tChain 3 []] })))) = true ∧
    (tHolds (fun p s => tCmd 0x51 false none p s && conHeld p s && ownChain p s == some (tChain 3 []) && pb p 2 16
        && !drained ((issued 0x51 p s).modChain 1 (stopChain (issued 0x51 p s))) (stopChain (issued 0x51 p s) (tChain 3 []))) (tPk 0x51 [0x10001])
        (tHeld [] (tEng [] (fun e => { e with chains := [tChain 3 []], jobs := [tJob 1] })))) = true ∧
    (tHolds (fun p s => tCmd 0x51 false none p s && conHeld p s && ownChain p s == some (tChain 3 []) && pb p 2 16
        && drained ((issued 0x51 p s).modChain 1 (stopChain (issued 0x51 p s))) (stopChain (issued 0x51 p s) (tChain 3 []))) (tPk 0x51 [0x10001])
        (tHeld [] (tEng [] (fun e => { e with chains := [tChain 3 []] })))) = true ∧
    (tHolds (fun p s => tCmd 0x52 false none p s && conHeld p s && ownChain p s == some (tChain 3 []) && !conBroken s (pCtx p) && !pb p 2 16) (tPk 0x52 [1])
        (tHeld [] (tEng [] (fun e => { e with chains := [tChain 3 []] })))) = true ∧
    (tHolds (fun p s => tCmd 0x53 false none p s && conHeld p s && ownChain p s == some (tChain 4 [tStoreIn])
        && pTs p 3 < storeOldest (issued 0x53 p s) (tChain 4 [tStoreIn]).img) (tPk 0x53 [1])
        { tHeld [] (tEng [] (fun e => { e with chains := [tChain 4 [tStoreIn]] })) with cap := { Cap.reset with armTs := 5 } }) = true ∧
    (tHolds (fun p s => tCmd 0x53 false none p s && conHeld p s && ownChain p s == some (tChain 4 [])
        && storeOldest (issued 0x53 p s) (tChain 4 []).img ≤ pTs p 3) (tPk 0x53 [1]) (tHeld [] (tEng [] (fun e => { e with chains := [tChain 4 []] })))) = true ∧
    (tHolds (fun p s => tCmd 0x54 false none p s && conHeld p s && ownChain p s == some (tChain 4 []) && !(tChain 4 []).parked && (tChain 4 []).running)
        (tPk 0x54 [1]) (tHeld [] (tEng [] (fun e => { e with chains := [tChain 4 []] })))) = true ∧
    (tHolds (fun p s => tCmd 0x55 false none p s && conHeld p s && pf p 2 0 4 ≤ 11 && s.dom (.barn (pf p 2 0 4)) != 0 && pb p 2 8) (tPk 0x55 [0x10B])
        (tHeld [] (tLit []))) = true ∧
    (tHolds (fun p s => tCmd 0x55 false none p s && conHeld p s && pf p 2 0 4 ≤ 11 && s.dom (.barn (pf p 2 0 4)) == 0 && !pb p 2 8) (tPk 0x55 [11])
        (tHeld [] ((tLit []).setDom (.barn 11) 0))) = true ∧
    (tHolds (fun p s => tCmd 0x56 true none p s && s.eng.fenced.contains (pf p 2 0 7) && !s.eng.testing.any (fun t => t.1 == pf p 2 0 7)) (tPk 0x56 [95])
        (tEng [] (fun e => { e with fenced := [95] }))) = true ∧
    (tHolds (fun p s => tCmd 0x57 true none p s && (guardAll p (issued 0x57 p s)).2.2 == 0) (tPk 0x57 [0x1800]) (tLit [])) = true ∧
    (tHolds (fun p s => tCmd 0x57 true none p s && (guardAll p (issued 0x57 p s)).2.2 != 0) (tPk 0x57 [0x1001])
        { tEng [] (fun e => { e with chains := [{ tChain 3 [] with eng := 0 }] }) with con := { Con.reset with list := (List.range 7).map (fun e => tCon [⟨e, some 1, false⟩]) } }) = true :=
  by and_intros <;> decide +kernel

/-- What `JobsCommitAndFaultyEnginesAreFenced` asks is met, clause by clause. -/
theorem witness_JobsCommitAndFaultyEnginesAreFenced :
    (tOn (fun s => cellWf regReset s.regs && s.chain? 1 == some (tChain 3 []) && (tChain 3 []).nextW == some 0 && !liveReady s (tChain 3 []))
        (tEng [] (fun e => { e with chains := [tChain 3 []] }))) = true ∧
    (tOn (fun s => s.chain? 1 == some (tChain 0 []) && (tChain 0 []).nextW == some 0 && liveReady s (tChain 0 []))
        (tEng [] (fun e => { e with chains := [tChain 0 []] }))) = true ∧
    (tOn (fun s => engLive s 94 && engUsable s 94 && s.eng.act.getD (94 / 8) none != some 94 && runningOn s 94 == none && nextJob s 94 == some (tJob 0)
        && s.chain? 1 == some (tChain 3 []) && !(jobStores s (tChain 3 []) (tJob 0)).any (fun x => x.2 == .gone))
        (tEng [] (fun e => { e with chains := [tChain 3 []], jobs := [tJob 0] }))) = true ∧
    (tOn (fun s => engLive s 94 && engUsable s 94 && s.eng.act.getD (94 / 8) none != some 94 && runningOn s 94 == none && nextJob s 94 == some (tJob 0)
        && s.chain? 1 == some (tChain 3 [tStoreIn]) && (jobStores s (tChain 3 [tStoreIn]) (tJob 0)).any (fun x => x.2 == .gone))
        (tEng [] (fun e => { e with chains := [tChain 3 [tStoreIn]], jobs := [tJob 0] }))) = true ∧
    (tOn (fun s => runningOn s 94 == some (tJob 1) && s.chain? 1 == some (tChain 3 []) && engLive s 94 && !s.eng.predict.contains 94)
        (tEng [] (fun e => { e with chains := [tChain 3 []], jobs := [tJob 1] }))) = true ∧
    (tOn (fun s => sealedIn s 11 == some tSealed && s.chain? 1 == some (tChain 3 []) && tSealed.out == some tStaged && !s.err.contained
        && s.domOn (.barn 11)) (tEng [] (fun e => { e with chains := [tChain 3 []], jobs := [tSealed] }))) = true ∧
    (tOn (fun s => sealedIn s 11 == some tSealed && s.chain? 1 == some { tChain 3 [] with lastSeq := some 0 } && !s.err.contained && s.domOn (.barn 11)
        && tSealed.seq ≤ 0) (tEng [] (fun e => { e with chains := [{ tChain 3 [] with lastSeq := some 0 }], jobs := [tSealed] }))) = true ∧
    (tOn (fun s => !engLive s 96) (tLit [])) = true ∧
    (tOn (fun s => engLive s 95) (tLit [])) = true ∧
    (tOn (fun s => runningOn s 94 == some (tJob 1) && engLive s 94 && s.up < (tJob 1).at_ + fclkNs s (jobCycles s (tJob 1) + 2000))
        (tEng [] (fun e => { e with jobs := [tJob 1] }))) = true ∧
    (tOn (fun s => runningOn s 94 == some (tJob 1) && engLive s 94 && (tJob 1).at_ + fclkNs s (jobCycles s (tJob 1) + 2000) ≤ s.up)
        { tEng [] (fun e => { e with jobs := [tJob 1] }) with up := 2000 }) = true ∧
    (tOn (fun s => s.eng.act.length == 12 && s.err.contained) (tContain (tLit []))) = true ∧
    (tOn (fun s => s.eng.act.length == 12 && s.domOn (.barn 11) && !s.err.contained) (tLit [])) = true ∧
    (tOn (fun s => s.fcp.inflight.any (fun c => c.kind == .unfence && c.key == 95 && decide (c.due ≤ s.up))) (tFly 0x56 .unfence 95 0 (tLit []))) = true :=
  by and_intros <;> decide +kernel

/-- What `LibraryChainsAndFinisher` asks is met, clause by clause. -/
theorem witness_LibraryChainsAndFinisher :
    (tHolds (fun p s => tCmd 0x58 false none p s && contractOf s (pCtx p) == some (tCon [⟨0, none, false⟩]) && pqOk p (issued 0x58 p s) && pqBad p (issued 0x58 p s) == none
        && !libFinish p.dws && !libAgg p.dws
        && fitPieces (grpFresh (issued 0x58 p s) (pCtx p) (libGroup p.dws)) (pqAsk p (issued 0x58 p s)) (tCon [⟨0, none, false⟩]) == [0]
        && lowestFree (s.eng.chains.map (fun c => c.id)) 1 65535 == some 1) (tPk 0x58 [1, 0x80, 0, 0, 0, 0, 0, 1000]) (tHeld [⟨0, none, false⟩] (tLit tRate))) = true ∧
    (tHolds (fun p s => tCmd 0x58 false none p s && contractOf s (pCtx p) == some (tCon [⟨0, none, false⟩]) && pqOk p (issued 0x58 p s) && pqBad p (issued 0x58 p s) == none
        && libFinish p.dws && !pqOver (issued 0x58 p s) (tCon [⟨0, none, false⟩]) (chainRate (issued 0x58 p s) (libImage (issued 0x58 p s) p.dws) p.dws)
        && fitPieces (grpFresh (issued 0x58 p s) (pCtx p) (libGroup p.dws)) (pqAsk p (issued 0x58 p s)) (tCon [⟨0, none, false⟩]) == [0]
        && lowestFree (s.eng.chains.map (fun c => c.id)) 1 65535 == some 1) (tPk 0x58 [0x20000001, 0x80, 0, 0, 0, 0, 0, 1000]) (tHeld [⟨0, none, false⟩] (tLit tRate))) = true ∧
    (tHolds (fun p s => tCmd 0x59 true none p s && pf p 2 0 8 == s.rd F_ENG_PQ_CTRL_CLOCK_OFS && !pb p 2 8) (tPk 0x59 []) (tLit [(F_ENG_PQ_CTRL_CLOCK_OFS, 0)])) = true ∧
    (tHolds (fun p s => tCmd 0x59 true none p s && pf p 2 0 8 != s.rd F_ENG_PQ_CTRL_CLOCK_OFS && pb p 2 8
        && !s.eng.chains.any (fun c => match c.lib with | some d => libAgg d | none => false)) (tPk 0x59 [0x1FF]) (tLit [(F_ENG_PQ_CTRL_CLOCK_OFS, 0)])) = true ∧
    (tHolds (fun p s => tCmd 0x5D false none p s && !pb p 2 8) (tPk 0x5D []) (tLit [])) = true ∧
    (tHolds (fun p s => tCmd 0x5D false none p s && pb p 2 8) (tPk 0x5D [0x100]) (tLit [])) = true ∧
    (tOn (fun s => s.eng.recs == [tMem] && s.chain? tMem.chain == some tMember && !s.err.contained)
        (tEng [] (fun e => { e with chains := [tMember], recs := [tMem] }))) = true ∧
    (tOn (fun s => s.grp? 0 1 == some tGrp && (grpWins s 0 1).find? (fun y => y.seq == 0 && kindType y.kind == 1) == some tMem && tGrp.open2.contains 0
        && tMem.wend + 2 * tMem.wlen * ns1 ≤ s.now) (tEng [] (fun e => { e with grps := [tGrp], wins := [tMem] }))) = true ∧
    (tOn (fun s => s.grp? 0 1 == some tGrp && (grpWins s 0 1).find? (fun y => y.seq == 0 && kindType y.kind == 1) == some { tMem with wend := 1 }
        && tGrp.open2.contains 0 && s.now < 1 + 2 * tMem.wlen * ns1) (tEng [] (fun e => { e with grps := [tGrp], wins := [{ tMem with wend := 1 }] }))) = true ∧
    (tOn (fun s => s.grp? 0 1 == some tGrp && !s.err.contained && !(aggMembers (members s 0 1)).isEmpty)
        (tEng [] (fun e => { e with grps := [tGrp], chains := [tMember] }))) = true ∧
    (tOn (fun s => s.chain? 1 == some tMember && s.eng.flicks.find? (fun f => f.chain == 1)
        == some { chain := 1, copy := [], tick := 0, fresh := true, psts := [] } && !s.err.contained)
        (tEng [] (fun e => { e with chains := [tMember], flicks := [{ chain := 1, copy := [], tick := 0, fresh := true, psts := [] }] }))) = true :=
  by and_intros <;> decide +kernel

/-- What `MapsAreSetClearedAndPassed` asks is met, clause by clause. -/
theorem witness_MapsAreSetClearedAndPassed :
    (tHolds (fun p s => tCmd 0x5A false none p s && mapOwned p s && pb p 2 12) (tPk 0x5A [0x100F, 0, 0, 0, 511]) (tLit [])) = true ∧
    (tHolds (fun p s => tCmd 0x5A false none p s && mapOwned p s && !pb p 2 12 && pb p 2 4 && !s.on (F_MAP_CTRL_EN (pf p 2 0 4))
        && mapRanges (mapFields p (issued 0x5A p s)) (pf p 2 0 4) && mapFits (mapFields p (issued 0x5A p s)) (pf p 2 0 4)
        && mapAdmit (mapFields p (issued 0x5A p s)) (pf p 2 0 4) (settleOf (mapFields p (issued 0x5A p s)) (pf p 2 0 4) 0))
        (tPk 0x5A [0x1F, 0, 0x10001, 1000]) ((tLit []).wr64 R_MEM_CAPACITY_LO R_MEM_CAPACITY_HI 4294967296)) = true ∧
    (tHolds (fun p s => tCmd 0x5A false none p s && mapOwned p s && !pb p 2 12 && pb p 2 4 && !s.on (F_MAP_CTRL_EN (pf p 2 0 4))
        && mapRanges (mapFields p (issued 0x5A p s)) (pf p 2 0 4) && mapFits (mapFields p (issued 0x5A p s)) (pf p 2 0 4)
        && !mapAdmit (mapFields p (issued 0x5A p s)) (pf p 2 0 4) (settleOf (mapFields p (issued 0x5A p s)) (pf p 2 0 4) 0))
        (tPk 0x5A [0x1F, 0, 0x10002000, 1000]) ((tLit []).wr64 R_MEM_CAPACITY_LO R_MEM_CAPACITY_HI 4294967296)) = true ∧
    (tHolds (fun p s => tCmd 0x5A false none p s && mapOwned p s && !pb p 2 12 && !pb p 2 4 && !s.on (F_MAP_CTRL_EN (pf p 2 0 4))
        && mapRanges (mapFields p (issued 0x5A p s)) (pf p 2 0 4)) (tPk 0x5A [15, 0, 0x10002000, 10000000]) (tLit [])) = true ∧
    (tHolds (fun p s => tCmd 0x5B false none p s && mapOwned p s && mapOn s (pf p 2 0 4)) (tPk 0x5B [15]) (tMap [] id)) = true ∧
    (tHolds (fun p s => tCmd 0x5B false none p s && mapOwned p s && !mapOn s (pf p 2 0 4)) (tPk 0x5B [15]) (tLit [])) = true ∧
    (tHolds (fun p s => tCmd 0x5C false none p s && mapOwned p s && pb p 2 8) (tPk 0x5C [0x10F]) (tLit [])) = true ∧
    (tHolds (fun p s => tCmd 0x5C false none p s && mapOwned p s && !pb p 2 8) (tPk 0x5C [15]) (tLit [])) = true ∧
    (tOn (fun s => reaches 0x21 (R_MAP_CTRL 15) s && s.on (F_MAP_CTRL_EN 15) && cellWf regReset s.regs) (tMap [] id)) = true ∧
    (tOn (fun s => reaches 0x21 (R_MAP_CTRL 15) s && !s.on (F_MAP_CTRL_EN 15) && cellWf regReset s.regs) (tLit [])) = true ∧
    (tOn (fun s => (finalAt s 15).any (fun T => decide (T ≤ s.now)) && mapOn s 15 && mapsRun s) { tMap [] (fun m => { m with t0 := some 0 }) with now := 2 ^ 60 }) = true ∧
    (tOn (fun s => (finalAt s 15).any (fun T => decide (s.now < T)) && mapOn s 15 && mapsRun s) (tMap [] (fun m => { m with t0 := some 0 }))) = true ∧
    (tOn (fun s => (s.mp 15).clearAt == some (0, 2) && mapOn s 15 && mapsRun s && 0 ≤ s.up && Memory.wf s.dram) (tMap [] (fun m => { m with clearAt := some (0, 2) }))) = true ∧
    (tOn (fun s => (s.mp 15).passEnd == some 0 && mapOn s 15 && mapsRun s && 0 ≤ s.up) (tMap [] (fun m => { m with passEnd := some 0 }))) = true :=
  by and_intros <;> decide +kernel

/-- What `ReadingAndQueueCommandsComplete` asks is met, clause by clause. -/
theorem witness_ReadingAndQueueCommandsComplete :
    (tHolds (fun p s => starts 0x00 p s) (tPk 0x00 []) State.reset) = true ∧
    (tHolds (fun p s => starts 0x01 p s) (tPk 0x01 []) State.reset) = true ∧
    (tHolds (fun p s => starts 0x07 p s) (tPk 0x07 []) State.reset) = true ∧
    (tHolds (fun p s => starts 0x02 p s && pq p 4 % 4096 == 0 && pq p 6 % 4096 == 0 && 1 ≤ pf p 2 0 9 && s.pairAt? p.func (pf p 2 0 9) == none
        && 1 ≤ pf p 3 0 12 && pf p 3 0 12 ≤ pf p 3 16 12 && pf p 8 0 11 < 1024 && lowestFree (s.fcp.pairs.map (fun q => q.qid)) 0 512 == some 1
        && (s.fcp.pairs.filter (fun q => q.func == p.func && q.index != 0)).length + 1 < s.rd (F_HIF_F_QUOTA_QP p.func))
        (tPk 0x02 [511, 0xFFF0FFF, 0x1000, 0, 0x2000, 0, 1023]) (tFcp [] id)) = true ∧
    (tHolds (fun p s => starts 0x02 p s && 1 ≤ pf p 2 0 9 && s.pairAt? p.func (pf p 2 0 9) == none && 1 ≤ pf p 3 0 12 && pf p 3 0 12 ≤ pf p 3 16 12
        && lowestFree (s.fcp.pairs.map (fun q => q.qid)) 0 512 == some 1
        && !((s.fcp.pairs.filter (fun q => q.func == p.func && q.index != 0)).length + 1 < s.rd (F_HIF_F_QUOTA_QP p.func)))
        (tPk 0x02 [1, 0x10001]) (tFcp [(F_HIF_F_QUOTA_QP 0, 1)] id)) = true ∧
    (tHolds (fun p s => starts 0x03 p s && 1 ≤ pf p 2 0 9 && s.pairAt? p.func (pf p 2 0 9) == some { tPair with qid := 1, index := 1 } && !pb p 2 16)
        (tPk 0x03 [1]) (tFcp [] (fun c => { c with pairs := [tPair, { tPair with qid := 1, index := 1 }] }))) = true ∧
    (tHolds (fun p s => starts 0x03 p s && 1 ≤ pf p 2 0 9 && s.pairAt? p.func (pf p 2 0 9) == some { tPair with qid := 1, index := 1 } && pb p 2 16
        && s.inflightOn 1 == 0) (tPk 0x03 [0x10001]) (tFcp [] (fun c => { c with pairs := [tPair, { tPair with qid := 1, index := 1 }] }))) = true ∧
    (tHolds (fun p s => starts 0x03 p s && 1 ≤ pf p 2 0 9 && s.pairAt? p.func (pf p 2 0 9) == some { tPair with qid := 1, index := 1 } && pb p 2 16
        && s.inflightOn 1 != 0) (tPk 0x03 [0x10001])
        (tFcp [] (fun c => { c with pairs := [tPair, { tPair with qid := 1, index := 1 }], inflight := [{ tCom .run 0 with qid := 1 }] }))) = true ∧
    (tHolds (fun p s => starts 0x04 p s && (s.pairAt? p.func (pf p 2 0 9)).isSome) (tPk 0x04 []) (tFcp [] id)) = true ∧
    (tHolds (fun p s => starts 0x05 p s && s.pair? (pf p 2 0 9) == some tPair && tPair.func == p.func && pf p 3 0 12 != pTag p
        && s.inflight? (pf p 2 0 9) (pf p 3 0 12) == none) (tPk 0x05 [0, 4095]) (tFcp [] id)) = true ∧
    (tHolds (fun p s => starts 0x05 p s && s.pair? (pf p 2 0 9) == some tPair && tPair.func == p.func && pf p 2 0 9 == p.qid && pf p 3 0 12 == pTag p)
        (tPk 0x05 [0, 0]) (tFcp [] id)) = true ∧
    (tHolds (fun p s => starts 0x05 p s && s.pair? (pf p 2 0 9) == some tPair && tPair.func == p.func && pf p 3 0 12 != pTag p
        && (issued 0x05 p s).inflight? (pf p 2 0 9) (pf p 3 0 12) == some { tCom .run 0 with tag := 9 })
        (tPk 0x05 [0, 9]) (tFcp [] (fun c => { c with inflight := [{ tCom .run 0 with tag := 9 }] }))) = true ∧
    (tHolds (fun p s => starts 0x05 p s && s.pair? (pf p 2 0 9) == some { tPair with qid := 1 } && s.inflight? (pf p 2 0 9) (pf p 3 0 12) == some { tCom .fenced 0 with qid := 1 }
        && tPair.func == p.func) { tPk 0x05 [1] with qid := 7 } (tFcp [] (fun c =>
          { c with pairs := [{ tPair with qid := 1 }], inflight := [{ tCom .fenced 0 with qid := 1 }] }))) = true :=
  by and_intros <;> decide +kernel

/-- What `ContextCommandsComplete` asks is met, clause by clause. -/
theorem witness_ContextCommandsComplete :
    (tHolds (fun p s => starts 0x10 p s && !s.err.contained && lowestFree (s.fcp.ctxs.map (fun x => x.id)) 17 4079 == some 17
        && (s.fcp.ctxs.filter (fun x => x.func == p.func)).length < s.rd (F_HIF_F_QUOTA_CTX p.func)) (tPk 0x10 []) State.reset) = true ∧
    (tHolds (fun p s => starts 0x10 p s && !s.err.contained && lowestFree (s.fcp.ctxs.map (fun x => x.id)) 17 4079 == some 17
        && !((s.fcp.ctxs.filter (fun x => x.func == p.func)).length < s.rd (F_HIF_F_QUOTA_CTX p.func))) (tPk 0x10 []) (tFcp [(F_HIF_F_QUOTA_CTX 0, 1)] id)) = true ∧
    (tHolds (fun p s => starts 0x11 p s && 17 ≤ pf p 2 0 12 && s.ctx? (pf p 2 0 12) == some { Ctx.zero with id := 4095 } && p.func == 0) (tPk 0x11 [4095])
        (tFcp [] (fun c => { c with ctxs := [Ctx.zero, { Ctx.zero with id := 4095 }] }))) = true ∧
    (tHolds (fun p s => starts 0x12 p s && !s.err.contained && p.func == 0 && 1 ≤ pf p 2 0 12 && s.ctx? (pf p 2 0 12) == some { Ctx.zero with id := 17 })
        (tPk 0x12 [17, 15]) (tFcp [] (fun c => { c with ctxs := [Ctx.zero, { Ctx.zero with id := 17 }] }))) = true ∧
    (tHolds (fun p s => starts 0x13 p s && !s.err.contained && p.func == 0 && cellWf regReset s.regs && 1 ≤ pf p 2 0 5 && pf p 2 0 5 ≤ 16
        && vfSum s (pf p 2 0 5) F_HIF_F_QUOTA_QP + pf p 3 0 10 ≤ 511 && vfSum s (pf p 2 0 5) F_HIF_F_QUOTA_CTX + pf p 3 16 13 ≤ 4079)
        (tPk 0x13 [16, 511 + 4079 * 65536]) (tLit [])) = true :=
  by and_intros <;> decide +kernel

/-- What `DoorbellsMoveTheQueues` asks is met, clause by clause. -/
theorem witness_DoorbellsMoveTheQueues :
    (tOn (fun s => s.pairAt? 0 0 == none) State.reset) = true ∧
    (tOn (fun s => s.pairAt? 0 0 == some { tPair with st := .error }) (tFcp [] (fun c => { c with pairs := [{ tPair with st := .error }] }))) = true ∧
    (tOn (fun s => s.pairAt? 0 0 == some tPair && tPair.st != .error && (3#32 : Word).toNat % 4096 < tPair.sqSize && tPair.sqSize ≤ (4#32 : Word).toNat % 4096)
        (tFcp [] id)) = true ∧
    (tOn (fun s => s.pairAt? 0 0 == some { tPair with unreleased := 3 } && (3#32 : Word).toNat % 4096 < tPair.cqSize
        && ((3#32 : Word).toNat % 4096 + tPair.cqSize - tPair.cqHead) % tPair.cqSize ≤ 3) (tFcp [] (fun c => { c with pairs := [{ tPair with unreleased := 3 }] }))) = true ∧
    (tOn (fun s => s.pairAt? 0 0 == some tPair && tPair.unreleased < ((1#32 : Word).toNat % 4096 + tPair.cqSize - tPair.cqHead) % tPair.cqSize) (tFcp [] id)) = true ∧
    (tOn (fun s => (s.fn 0).enabled && 0 < s.fcp.fns.length && !(s.fn 0).aqCtrl.toNat.testBit 0 && 1 ≤ bitsOf (s.fn 0).aqSize.toNat 0 12
        && bitsOf (s.fn 0).aqSize.toNat 0 12 ≤ bitsOf (s.fn 0).aqSize.toNat 16 12 && (s.fn 0).aqSqBase % 4096 == 0 && (s.fn 0).aqCqBase % 4096 == 0
        && lowestFree (s.fcp.pairs.map (fun q => q.qid)) 0 512 == some 0) State.reset) = true :=
  by and_intros <;> decide +kernel

/-- What `FetchFenceInterruptsAndEvents` asks is met, clause by clause. -/
theorem witness_FetchFenceInterruptsAndEvents :
    (tOn (fun s => pickPair s == some tPair && opAssigned ((0xC4#32 : Word).toNat % 256) && s.inflight? tPair.qid ((0#32 : Word).toNat % 4096) == none) (tFcp [] id)) = true ∧
    (tOn (fun s => s.inflight? 0 0 == some (tCom .fenced 0) && mayStart s (tCom .fenced 0)) (tFcp [] (fun c => { c with inflight := [tCom .fenced 0] }))) = true ∧
    (tOn (fun s => s.pair? 0 == some { tPair with unsignalled := 1 } && tPair.irqTime != 0 && tPair.firstAt + 1000 * tPair.irqTime ≤ s.up)
        { tFcp [] (fun c => { c with pairs := [{ tPair with unsignalled := 1 }] }) with up := 1000 }) = true ∧
    (tOn (fun s => (s.fn 0).chute == [{ ctx := 0, code := 0x0203, d := [] }] && (routedTo s 0 { ctx := 0, code := 0x0203, d := [] }).or (s.pairAt? 0 0) == some tPair
        && tPair.st != .error && s.inflightOn tPair.qid + tPair.unreleased + 1 < tPair.cqSize && 0 < s.fcp.fns.length)
        ((tFcp [] id).modFn 0 (fun f => { f with chute := [{ ctx := 0, code := 0x0203, d := [] }] }))) = true ∧
    (tOn (fun s => 16 < s.fcp.fns.length) State.reset) = true :=
  by and_intros <;> decide +kernel

/-- What `RegisterCommandsComplete` asks is met, clause by clause. -/
theorem witness_RegisterCommandsComplete :
    (tHolds (fun p s => starts 0xD0 p s && pf p 2 0 24 % 4 == 0 && pf p 2 24 2 == 0) (tPk 0xD0 [0xFFFFFC]) (tLit [])) = true ∧
    (tHolds (fun p s => starts 0xD1 p s && pf p 2 0 24 % 4 == 0 && s.hasPriv (pCtx p) 0 && pf p 2 24 2 == 0) (tPk 0xD1 [0x10000]) (tLit [])) = true ∧
    (tHolds (fun p s => starts 0xD2 p s && pf p 2 0 24 % 4 == 0 && s.hasPriv (pCtx p) 0) (tPk 0xD2 [0x10000]) (tLit [])) = true ∧
    (tHolds (fun p s => starts 0xD3 p s && pf p 2 0 24 % 4 == 0 && 1 ≤ pf p 5 0 20 && pf p 5 0 20 ≤ 1000000) (tPk 0xD3 [0x10000, 0, 0, 1000000]) (tLit [])) = true ∧
    (tOn (fun s => s.inflight? 0 0 == some (tCom .regPoll 1000) && s.up ≤ (tCom .regPoll 1000).due && ((tCom .regPoll 1000).due - s.up) % 1000 == 0
        && (tCom .regPoll 1000).due != s.up + bitsOf ((tCom .regPoll 1000).dws.getD 5 0).toNat 0 20 * 1000) (tFcp [] (fun c => { c with inflight := [tCom .regPoll 1000] }))) = true ∧
    (tOn (fun s => s.inflight? 0 0 == some (tCom .regPoll 0) && (tCom .regPoll 0).due ≤ s.up) (tFcp [] (fun c => { c with inflight := [tCom .regPoll 0] }))) = true :=
  by and_intros <;> decide +kernel

/-- What `RegisterAndWindowAccess` asks is met, clause by clause. -/
theorem witness_RegisterAndWindowAccess :
    (tOn (fun s => reaches 1 0xFFFFFC s && reaches 1 (R_GLB_SCRATCH 0) s) (tLit [])) = true ∧
    (tOn (fun s => reaches 0x21 (R_GLB_SCRATCH 0) s) (tLit [])) = true ∧
    (tOn (fun s => (s.fn 0).enabled && (hostAccess s).dom (domOf (R_GLB_SCRATCH 0)) != 0) (tLit [])) = true ∧
    (tOn (fun s => !regCtxDirect s 0 && cellWf regReset s.regs) ((tLit []).modFn 0 (fun f => { f with regCtx := 17 }))) = true ∧
    (tOn (fun s => !isHost 0x21 && !s.blocked 0x21 && mayReach 0x21 R_MEM_CAPACITY_LO && s.dom (domOf R_MEM_CAPACITY_LO) != 0 && R_MEM_CAPACITY_LO ≥ 0x030200) (tLit [])) = true ∧
    (tOn (fun s => !isHost 0x21 && !s.blocked 0x21 && mayReach 0x21 R_MEM_CAPACITY_LO && s.dom (domOf R_MEM_CAPACITY_LO) == 0 && cellWf regReset s.regs) ((tLit []).setDom .memc 0)) = true ∧
    (tOn (fun s => (s.fn 0).enabled && 1073741820 + 4 ≤ (s.fn 0).bar2Gib * 1073741824 && !s.err.contained && (hostAccess s).domOn .memc
        && (hostAccess s).rd (F_HIF_F_WIN_WR 0) == 1 && s.rd (F_HIF_F_WIN_BASE 0) * 1073741824 + 1073741820 + 4 ≤ capacity (hostAccess s) && s.mem.dead == [])
        ((tLit []).wr64 R_MEM_CAPACITY_LO R_MEM_CAPACITY_HI 4294967296)) = true ∧
    (tOn (fun s => (s.fn 0).enabled && 1073741820 + 4 ≤ (s.fn 0).bar2Gib * 1073741824 && (hostAccess s).domOn .memc
        && (hostAccess s).rd (F_HIF_F_WIN_RD 0) == 1 && s.rd (F_HIF_F_WIN_BASE 0) * 1073741824 + 1073741820 + 4 ≤ capacity (hostAccess s))
        ((tLit [(F_HIF_F_WIN_RD 0, 1)]).wr64 R_MEM_CAPACITY_LO R_MEM_CAPACITY_HI 4294967296)) = true ∧
    (tOn (fun s => (s.fn 0).enabled && 1073741820 + 4 ≤ (s.fn 0).bar2Gib * 1073741824 && (hostAccess s).rd (F_HIF_F_WIN_RD 0) == 0 && cellWf regReset s.regs)
        (tLit [(F_HIF_F_WIN_RD 0, 0)])) = true ∧
    (tOn (fun s => reaches 0x21 R_GLB_OFF_ACCESS s && (0x80000000#32 : Word).toNat.testBit 31) (tLit [])) = true :=
  by and_intros <;> decide +kernel

/-- What `LinkAndFunctions` asks is met, clause by clause. -/
theorem witness_LinkAndFunctions :
    (tOn (fun s => cellWf regReset s.regs && s.pins.released && s.rd F_HIF_NUM_VF_VFS ≤ 16 && s.fcp.fns.length == 17 && (s.fn 0).enabled) (tLit [])) = true ∧
    (tOn (fun s => s.on F_HIF_STATUS_LINK_UP) (tLit [(F_HIF_STATUS_LINK_UP, 1)])) = true :=
  by and_intros <;> decide +kernel

/-- What `ContractsAreAcceptedWholeOrRefused` asks is met, clause by clause. -/
theorem witness_ContractsAreAcceptedWholeOrRefused :
    (tHolds (fun p s => starts 0x14 p s && !s.err.contained && conFieldsOk p s && contractOf s (pCtx p) == none
        && (quoteOf (issued 0x14 p s) (packetCon p s.con.next) none []).fails == []) (tPk 0x14 ([0xC8000000] ++ List.replicate 10 0 ++ [2000])) (tLit [])) = true ∧
    (tHolds (fun p s => starts 0x14 p s && !s.err.contained && conFieldsOk p s && contractOf s (pCtx p) == none
        && (quoteOf (issued 0x14 p s) (packetCon p s.con.next) none []).fails != [])
        (tPk 0x14 ([0x32004000, 0, 0, 0, 0xFFFFFFFF] ++ List.replicate 6 0 ++ [2000])) (tLit [])) = true ∧
    (tHolds (fun p s => starts 0x15 p s && !s.err.contained && conFieldsOk p s && contractOf s (pCtx p) == some { tCon [] with broken := true })
        (tPk 0x15 ([0xC8000000] ++ List.replicate 10 0 ++ [2000])) { tLit [] with con := { Con.reset with list := [{ tCon [] with broken := true }] } }) = true ∧
    (tHolds (fun p s => starts 0x15 p s && !s.err.contained && conFieldsOk p s && contractOf s (pCtx p) == some (tCon [])
        && coverFail (issued 0x15 p s) (pCtx p) (tCon []) (packetCon p 0) == none) (tPk 0x15 ([0xC8000000] ++ List.replicate 10 0 ++ [2000])) (tHeld [] (tLit []))) = true ∧
    (tHolds (fun p s => starts 0x15 p s && !s.err.contained && conFieldsOk p s && contractOf s (pCtx p) == some (tCon [⟨0, some 1, false⟩])
        && coverFail (issued 0x15 p s) (pCtx p) (tCon [⟨0, some 1, false⟩]) (packetCon p 0) == some 8) (tPk 0x15 ([0xC8000000] ++ List.replicate 10 0 ++ [2000]))
        (tHeld [⟨0, some 1, false⟩] (tLit []))) = true :=
  by and_intros <;> decide +kernel

/-- What `ContractsReleaseStatusAndBudget` asks is met, clause by clause. -/
theorem witness_ContractsReleaseStatusAndBudget :
    (tHolds (fun p s => starts 0x16 p s && !s.err.contained && !armedBy s (pCtx p) && !pb p 2 0) (tPk 0x16 []) (tHeld [] (tLit []))) = true ∧
    (tHolds (fun p s => starts 0x16 p s && !s.err.contained && !armedBy s (pCtx p) && pb p 2 0
        && (chainsOfCtx (stopCtx (issued 0x16 p s) (pCtx p)) (pCtx p)).all (fun k => drained (stopCtx (issued 0x16 p s) (pCtx p)) k)) (tPk 0x16 [1]) (tHeld [] (tLit []))) = true ∧
    (tHolds (fun p s => starts 0x16 p s && !s.err.contained && !armedBy s (pCtx p) && pb p 2 0
        && !(chainsOfCtx (stopCtx (issued 0x16 p s) (pCtx p)) (pCtx p)).all (fun k => drained (stopCtx (issued 0x16 p s) (pCtx p)) k)) (tPk 0x16 [1])
        (tHeld [] (tEng [] (fun e => { e with chains := [tChain 3 []], jobs := [tJob 0] })))) = true ∧
    (tHolds (fun p s => starts 0x17 p s && pb p 2 12 && s.ctxFunc (pCtx p) == 0 && (s.ctx? (pf p 2 0 12)).isNone) (tPk 0x17 [0x1FFF]) (tLit [])) = true ∧
    (tHolds (fun p s => starts 0x17 p s && !pb p 2 12 && (s.ctx? (pCtx p)).isSome && contractOf s (pCtx p) == none) (tPk 0x17 []) (tLit [])) = true ∧
    (tHolds (fun p s => starts 0x17 p s && pb p 2 12 && s.ctxFunc (pCtx p) == 0 && (s.ctx? (pf p 2 0 12)).isSome && contractOf s (pf p 2 0 12) == some { tCon [] with broken := true })
        (tPk 0x17 [0x1000]) { tLit [] with con := { Con.reset with list := [{ tCon [] with broken := true }] } }) = true ∧
    (tHolds (fun p s => starts 0x17 p s && !pb p 2 12 && (s.ctx? (pCtx p)).isSome && contractOf s (pCtx p) == some (tCon []) && s.inRecord) (tPk 0x17 []) (tHeld [] (tLit []))) = true ∧
    (tHolds (fun p s => starts 0x18 p s && pq p 2 % 64 == 0) (tPk 0x18 [0xFFFFFFC0]) (tLit [])) = true ∧
    (tOn (fun s => s.err.contained) (tContain (tLit []))) = true ∧
    (tOn (fun s => !s.err.contained && s.con.rerun == some 2) { tLit [] with con := { Con.reset with rerun := some 2 } }) = true ∧
    (tOn (fun s => !s.err.contained && s.con.rerun == none && s.con.risen) { tLit [] with con := { Con.reset with risen := true } }) = true :=
  by and_intros <;> decide +kernel

/-- What `LocksAreTakenReleasedAndForced` asks is met, clause by clause. -/
theorem witness_LocksAreTakenReleasedAndForced :
    (tOn (fun s => cellWf regReset s.regs && mayReach 0xC7 (R_MBX_LOCK_TRY 63) && !s.blocked 0xC7 && tryDirect s 0xC7 && lockOwner s 63 == 0) (tLit [])) = true ∧
    (tOn (fun s => isHost 1 && !s.blocked 1 && tryDirect s 1 && lockOwner s 63 == 0x23) (tLit [(F_MBX_LOCK_OWNER_OWNER 63, 0x23)])) = true ∧
    (tOn (fun s => reaches 0x40 (R_MBX_LOCK_TRY 0) s && lockOwner s 0 == 0x40) (tLit [(F_MBX_LOCK_OWNER_OWNER 0, 0x40)])) = true ∧
    (tOn (fun s => reaches 0x40 (R_MBX_LOCK_TRY 0) s && lockOwner s 0 != 0x40) (tLit [])) = true ∧
    (tOn (fun s => reaches 0x21 R_MBX_LOCK_FORCE s && (63#32 : Word).toNat % 64 == 63 && lockOwner s 63 != 0) (tLit [(F_MBX_LOCK_OWNER_OWNER 63, 0x23)])) = true ∧
    (tOn (fun s => reaches 1 R_MBX_LOCK_FORCE s && lockOwner s 63 == 0) (tLit [])) = true ∧
    (tOn (fun s => reaches 0x9F R_MBX_LOCK_FORCE s && cellWf regReset s.regs) (tLit [])) = true :=
  by and_intros <;> decide +kernel

/-- What `MailboxesAndDoorbellsCarryMessages` asks is met, clause by clause. -/
theorem witness_MailboxesAndDoorbellsCarryMessages :
    (tOn (fun s => cellWf regReset s.regs && s.mbx.sets.length == 32 && mbxEn s 16 && sideH 16 0x11 && sideF 16 0x20) (tMbx 16 id)) = true ∧
    (tOn (fun s => mbxEn s 28 && sideH 28 0x9F && reaches 0x9F (R_MBX_S_DB_F_SET 28) s && reaches 0x9F (R_MBX_S_IN_W 28 0) s
        && (s.mset 28).stIn == none) (tMbx 28 id)) = true ∧
    (tOn (fun s => mbxEn s 31 && sideF 31 0x23 && reaches 0x23 (R_MBX_S_DB_H_SET 31) s && reaches 0x23 (R_MBX_S_OUT_W 31 0) s
        && (s.mset 31).stOut == none) (tMbx 31 id)) = true ∧
    (tOn (fun s => mbxEn s 28 && sideH 28 0x9F && reaches 0x9F (R_MBX_S_IN_W 28 3) s && (s.mset 28).stIn == some tStage && !(s.mset 28).inb.full
        && !(s.mset 28).inb.dropping) (tMbx 28 (fun m => { m with stIn := some tStage }))) = true ∧
    (tOn (fun s => mbxEn s 28 && sideH 28 0x9F && reaches 0x9F (R_MBX_S_IN_W 28 3) s && (s.mset 28).stIn == some tStage && (s.mset 28).inb.full
        && !(s.mset 28).inb.dropping) (tMbx 28 (fun m => { m with stIn := some tStage, inb := { m.inb with full := true } }))) = true ∧
    (tOn (fun s => mbxEn s 28 && sideF 28 0x20 && reaches 0x20 (R_MBX_S_DB_F_CLR 28) s && reaches 0x20 (R_MBX_S_DB_F_MASK 28) s) (tMbx 28 id)) = true ∧
    (tOn (fun s => mbxEn s 28 && sideF 28 0x20 && reaches 0x20 (R_MBX_S_POP 28) s && (s.mset 28).inb.head? != none)
        (tMbx 28 (fun m => { m with inb := { m.inb with items := [[1, 2, 3, 4]] } }))) = true ∧
    (tOn (fun s => (s.mset 16).inb.head? == some [1, 2, 3, 4] && (s.mset 16).backlog.length < 16) (tMbx 16 (fun m => { m with inb := { m.inb with items := [[1, 2, 3, 4]] } }))) = true ∧
    (tOn (fun s => (s.mset 31).fullAt == some 0 && (s.mset 31).outb.head? == some [1, 2, 3, 4] && s.up < 0 + 10000000)
        (tMbx 31 (fun m => { m with fullAt := some 0, outb := { m.outb with items := [[1, 2, 3, 4]] } }))) = true ∧
    (tOn (fun s => (s.mset 31).fullAt == some 0 && (s.mset 31).outb.head? == some [1, 2, 3, 4] && 0 + 10000000 ≤ s.up)
        { tMbx 31 (fun m => { m with fullAt := some 0, outb := { m.outb with items := [[1, 2, 3, 4]] } }) with up := 10000000 }) = true :=
  by and_intros <;> decide +kernel

/-- What `CompressionJobsAreCommandedAndRun` asks is met, clause by clause. -/
theorem witness_CompressionJobsAreCommandedAndRun :
    (tHolds (fun p s => tCmd 0x70 false none p s && s.on (F_DMA_C_CFG_OPEN (cjChan p)) && chCtx s (cjChan p) == pCtx p && pq p 3 % 64 == 0
        && pq p 7 % 64 == 0 && !pb p 2 7 && cjValid p (issued 0x70 p s) && s.inRecord && contractOf s (pCtx p) == some (tCon []))
        { tPk 0x70 [0x1FF00, 0, 0, 0, 0, 0, 0, 1] with buf := tList } (tDma [] id)) = true ∧
    (tHolds (fun p s => tCmd 0x71 false none p s && cmpJobOf s (pf p 2 0 12) == some (tCmp 3 [] []) && 2 ≤ (tCmp 3 [] []).state && pq p 3 % 64 == 0
        && 1 ≤ pf p 5 0 11 && pf p 5 0 11 ≤ 1024 && mayAccess (issued 0x71 p s) (pCtx p) (pf p 2 16 1) (pq p 3) (16 * pf p 5 0 11) false
        && (match crsEnts p s with | some l => entsOk (issued 0x71 p s) (pCtx p) l | none => false) && s.inRecord && contractOf s (pCtx p) == some (tCon []))
        { tPk 0x71 [0x10001, 0, 0, 1] with buf := tList } (tHeld [] (tCmpS (tCmp 3 [] []) []))) = true ∧
    (tHolds (fun p s => tCmd 0x72 false none p s && pb p 2 31 && s.cmp.jobs.any (abHit p) && contractOf s (pCtx p) == some (tCon [])) (tPk 0x72 [0x80010000])
        (tHeld [] (tCmpS (tCmp 3 [] []) []))) = true ∧
    (tHolds (fun p s => tCmd 0x72 false none p s && !pb p 2 31 && cmpJobOf s (pf p 2 0 12) == some (tCmp 3 [] []) && contractOf s (pCtx p) == some (tCon []))
        (tPk 0x72 [1]) (tHeld [] (tCmpS (tCmp 3 [] []) []))) = true ∧
    (tHolds (fun p s => tCmd 0x73 false none p s && contractOf s (pCtx p) == some (tCon []) && s.dom .cmp != 0) (tPk 0x73 [7]) (tHeld [] (tLit []))) = true ∧
    (tHolds (fun p s => tCmd 0x73 false none p s && contractOf s (pCtx p) == some (tCon []) && s.dom .cmp == 0) (tPk 0x73 [7]) (tHeld [] ((tLit []).setDom .cmp 0))) = true ∧
    (tOn (fun s => cmpJobOf s 1 == some (tCmp 2 [] []) && s.rd F_CMP_SUSPEND_MAX_S == 60 && s.up < (tCmp 2 [] []).at_ + s.rd F_CMP_SUSPEND_MAX_S * 1000000000)
        (tCmpS (tCmp 2 [] []) [(F_CMP_SUSPEND_MAX_S, 60)])) = true ∧
    (tOn (fun s => cmpJobOf s 1 == some (tCmp 2 [] []) && s.rd F_CMP_SUSPEND_MAX_S == 60 && (tCmp 2 [] []).at_ + s.rd F_CMP_SUSPEND_MAX_S * 1000000000 ≤ s.up)
        { tCmpS (tCmp 2 [] []) [(F_CMP_SUSPEND_MAX_S, 60)] with up := 60000000000 }) = true ∧
    (tOn (fun s => s.dom .cmp == 2 && (s.rd F_CMP_STATUS_AVAIL).testBit 7) (tLit [(F_CMP_STATUS_AVAIL, 255)])) = true ∧
    (tOn (fun s => jobOn (cmpKick s) 7 == some (tCmp 1 [] []) && tokensFor (cmpKick s) (tCmp 1 [] []) (hostMoved (tCmp 1 [] []) (cmpBlocks 4 (cmpKick s) (tCmp 1 [] [])).2.1)
        && (cmpBlocks 4 (cmpKick s) (tCmp 1 [] [])).2.2 == .done) (tCmpS (tCmp 1 [] []) [])) = true ∧
    (tOn (fun s => jobOn (cmpKick s) 7 == some (tCmp 1 [] [1]) && tokensFor (cmpKick s) (tCmp 1 [] [1]) (hostMoved (tCmp 1 [] [1]) (cmpBlocks 4 (cmpKick s) (tCmp 1 [] [1])).2.1)
        && (cmpBlocks 4 (cmpKick s) (tCmp 1 [] [1])).2.2 == .full) (tCmpS (tCmp 1 [] [1]) [])) = true ∧
    (tOn (fun s => jobOn (cmpKick s) 7 == some { tCmp 1 [] [] with produced := false, st := CmpState.new 1 0 0 }
        && tokensFor (cmpKick s) { tCmp 1 [] [] with produced := false, st := CmpState.new 1 0 0 } (hostMoved { tCmp 1 [] [] with produced := false, st := CmpState.new 1 0 0 }
          (cmpBlocks 4 (cmpKick s) { tCmp 1 [] [] with produced := false, st := CmpState.new 1 0 0 }).2.1)
        && (cmpBlocks 4 (cmpKick s) { tCmp 1 [] [] with produced := false, st := CmpState.new 1 0 0 }).2.2 == .fault 7)
        (tCmpS { tCmp 1 [] [] with produced := false, st := CmpState.new 1 0 0 } [])) = true ∧
    (tOn (fun s => jobOn (cmpKick s) 7 == none) (tLit [])) = true :=
  by and_intros <;> decide +kernel

/-- What `DmaChannelsAreOpenedAndCommanded` asks is met, clause by clause. -/
theorem witness_DmaChannelsAreOpenedAndCommanded :
    (tHolds (fun p s => tCmd 0x60 false none p s && dmaChan p == 127 && contractOf s (pCtx p) == some (tCon []) && (chansOf s (pCtx p)).length < (tCon []).f 12 8 8
        && wantChan p s == some 0 && s.dma.chans.length == 128) (tPk 0x60 [127]) (tHeld [] (tLit []))) = true ∧
    (tHolds (fun p s => tCmd 0x60 false none p s && dmaChan p == 126 && !s.on (F_DMA_C_CFG_OPEN (dmaChan p)) && contractOf s (pCtx p) == none) (tPk 0x60 [126]) (tLit [])) = true ∧
    (tHolds (fun p s => tCmd 0x61 false none p s && ownChan p s && contractOf s (pCtx p) == some (tCon []) && !pb p 2 8) (tPk 0x61 [127]) (tDma [] id)) = true ∧
    (tHolds (fun p s => tCmd 0x61 false none p s && ownChan p s && contractOf s (pCtx p) == some (tCon []) && pb p 2 8
        && !closable ((issued 0x61 p s).modChan (dmaChan p) (fun k => { k with draining := true })) (dmaChan p)) (tPk 0x61 [0x17F]) (tDma [] (fun c => { c with started := true }))) = true ∧
    (tHolds (fun p s => tCmd 0x62 false none p s && ownChan p s && contractOf s (pCtx p) == some (tCon []) && pq p 3 % 64 == 0 && 2 ≤ pf p 5 0 13
        && pf p 5 0 13 ≤ 4096 && pf p 6 0 12 < pf p 5 0 13 && !chRunning s (dmaChan p)) (tPk 0x62 [127, 0, 0, 4096, 4095]) (tDma [] id)) = true ∧
    (tHolds (fun p s => tCmd 0x63 false none p s && ownChan p s && contractOf s (pCtx p) == some (tCon []) && (s.chan (dmaChan p)).ring) (tPk 0x63 [127])
        (tDma [] (fun c => { c with ring := true }))) = true ∧
    (tHolds (fun p s => tCmd 0x64 false none p s && ownChan p s && contractOf s (pCtx p) == some (tCon []) && chState s (dmaChan p) == 5) (tPk 0x64 [127])
        (tDma [(F_DMA_C_STATE_STATE 127, 5)] id)) = true ∧
    (tHolds (fun p s => tCmd 0x64 false none p s && ownChan p s && contractOf s (pCtx p) == some (tCon []) && chState s (dmaChan p) != 5 && !pb p 2 8
        && xferGoing s (dmaChan p)) (tPk 0x64 [127]) (tDma [] (fun c => { c with xfer := some { tXfer with released := some 0 } }))) = true ∧
    (tHolds (fun p s => tCmd 0x64 false none p s && ownChan p s && contractOf s (pCtx p) == some (tCon []) && chState s (dmaChan p) != 5
        && !xferGoing s (dmaChan p)) (tPk 0x64 [127]) (tDma [] id)) = true ∧
    (tHolds (fun p s => tCmd 0x65 false none p s && ownChan p s && contractOf s (pCtx p) == some (tCon []) && pb p 2 8) (tPk 0x65 [0x17F]) (tDma [] id)) = true ∧
    (tHolds (fun p s => tCmd 0x65 false none p s && ownChan p s && contractOf s (pCtx p) == some (tCon []) && !pb p 2 8) (tPk 0x65 [0x7F]) (tDma [] id)) = true ∧
    (tHolds (fun p s => tCmd 0x66 false none p s && ownChan p s && contractOf s (pCtx p) == some (tCon []) && pq p 3 % 64 == 0 && pq p 5 % 64 == 0
        && copyOk p (issued 0x66 p s) && chState s (dmaChan p) == 1) (tPk 0x66 [127]) (tDma [(F_DMA_C_STATE_STATE 127, 1)] id)) = true :=
  by and_intros <;> decide +kernel

/-- What `DmaTransfersRunAndRetry` asks is met, clause by clause. -/
theorem witness_DmaTransfersRunAndRetry :
    (tOn (fun s => cellWf regReset s.regs && s.dma.chans.length == 128 && !s.err.contained && (s.chan 127).xfer == none) (tDma [] id)) = true ∧
    (tOn (fun s => s.err.contained) { tLit [] with err := { Err.reset with contained := true } }) = true ∧
    (tOn (fun s => !s.err.contained && (s.chan 127).xfer == some { tXfer with released := some 0 }) (tDma [] (fun c => { c with xfer := some { tXfer with released := some 0 } }))) = true ∧
    (tOn (fun s => (s.chan 127).started && (s.chan 127).empty && s.rd (F_DMA_C_RING_SIZE_POLL 127) != 0 && (s.chan 127).pollAt ≤ s.up)
        (tDma [(F_DMA_C_RING_SIZE_POLL 127, 1)] (fun c => { c with started := true, empty := true }))) = true ∧
    (tOn (fun s => (s.chan 127).started && (s.chan 127).empty && s.rd (F_DMA_C_RING_SIZE_POLL 127) != 0 && s.up < (s.chan 127).pollAt)
        (tDma [(F_DMA_C_RING_SIZE_POLL 127, 1)] (fun c => { c with started := true, empty := true, pollAt := 1 }))) = true ∧
    (tOn (fun s => !s.err.contained && mayRelease s 127) (tDma [] (fun c => { c with xfer := some tXfer }))) = true ∧
    (tOn (fun s => !s.err.contained && !mayRelease s 127) (tDma [] id)) = true ∧
    (tOn (fun s => (s.chan 127).xfer == some { tXfer with released := some 0, cur := some tDesc } && !{ tXfer with released := some 0, cur := some tDesc }.whole
        && 0 < s.rd F_DMA_RETRY_COUNT) (tDma [] (fun c => { c with xfer := some { tXfer with released := some 0, cur := some tDesc } }))) = true ∧
    (tOn (fun s => (s.chan 127).xfer == some { tXfer with endSt := some 0, index := some 0 } && ringSpace s 127 == 0 && 0 < s.rd F_DMA_RETRY_COUNT)
        (tDma [] (fun c => { c with xfer := some { tXfer with endSt := some 0, index := some 0 } }))) = true ∧
    (tOn (fun s => (s.chan 127).xfer == none && (s.chan 127).started && !(s.chan 127).empty && (s.chan 127).ahead == []
        && (s.chan 127).fetchTries < s.rd F_DMA_RETRY_COUNT) (tDma [] (fun c => { c with started := true }))) = true ∧
    (tOn (fun s => (s.chan 127).xfer == some tXfer && tXfer.endSt == none && !tXfer.whole) (tDma [] (fun c => { c with xfer := some tXfer }))) = true ∧
    (tOn (fun s => (s.chan 127).xfer == some { tXfer with endSt := some 0, index := some 0 } && !s.err.contained && s.domOn .memc)
        (tDma [] (fun c => { c with xfer := some { tXfer with endSt := some 0, index := some 0 } }))) = true ∧
    (tOn (fun s => (s.chan 127).xfer == some { tXfer with endSt := some 0 } && tXfer.index == none) (tDma [] (fun c => { c with xfer := some { tXfer with endSt := some 0 } }))) = true :=
  by and_intros <;> decide +kernel

/-- What `MemoryIsConfiguredSparedAndTrained` asks is met, clause by clause. -/
theorem witness_MemoryIsConfiguredSparedAndTrained :
    (tHolds (fun p s => tCmd 0x80 true none p s && memCfgOk p && s.mem.chans.length == 8) (tPk 0x80 [0x8003, 4800, 0x330800]) (tLit [])) = true ∧
    (tHolds (fun p s => tCmd 0x81 false (some .memc) p s && pb p 2 8) (tPk 0x81 [0x107]) (tLit [])) = true ∧
    (tHolds (fun p s => tCmd 0x81 false (some .memc) p s && !pb p 2 8) (tPk 0x81 [7]) (tLit [])) = true ∧
    (tHolds (fun p s => tCmd 0x82 true (some .memc) p s && mcState s (pf p 2 0 3) == 4) (tPk 0x82 [7]) (tLit [(F_MEM_C_STATUS_STATE 7, 4)])) = true ∧
    (tHolds (fun p s => tCmd 0x83 true (some .memc) p s && rankThere s (pf p 2 0 3) (pf p 2 4 3) && pb p 2 8 && !pb p 2 9 && !s.on F_GLB_STATE_DRAM_READY)
        (tPk 0x83 [0x177]) (tLit [(F_GLB_STATE_DRAM_READY, 0)])) = true ∧
    (tHolds (fun p s => tCmd 0x83 true (some .memc) p s && rankThere s (pf p 2 0 3) (pf p 2 4 3) && !pb p 2 8 && pb p 2 9 && !migrating s (pf p 2 0 3)
        && rankSt s (pf p 2 0 3) (pf p 2 4 3) == 1 && (rankRetire (issued 0x83 p s) (pf p 2 0 3) (pf p 2 4 3)).2) (tPk 0x83 [0x207])
        (tLit [(F_MEM_C_R_ERR_STATE 7 0, 1), (F_MEM_C_R_ERR_STATE 7 7, 2)])) = true ∧
    (tHolds (fun p s => passes 0x84 true (some 2) (some .memc) p s && cellWf regReset s.regs && !capRunning s
        && (List.range 16).all (fun m => !s.on (F_MAP_CTRL_EN m)) && (activeCons s).all (fun c => c.f 9 0 32 == 0)) (tPk 0x84 [1]) (tLit [])) = true ∧
    (tOn (fun s => reaches 0x21 (R_MEM_C_TRN_CTRL 7) s && mcRunning s 7 && !s.on (F_MEM_C_TRN_STATUS_BUSY 7)) (tLit [(F_MEM_C_STATUS_STATE 7, 2)])) = true ∧
    (tOn (fun s => reaches 0x21 (R_MEM_C_TRN_CTRL 7) s && mcRunning s 7 && s.on (F_MEM_C_TRN_STATUS_BUSY 7))
        (tLit [(F_MEM_C_STATUS_STATE 7, 5), (F_MEM_C_TRN_STATUS_BUSY 7, 1)])) = true :=
  by and_intros <;> decide +kernel

/-- What `TrainingAndInitialisationRun` asks is met, clause by clause. -/
theorem witness_TrainingAndInitialisationRun :
    (tOn (fun s => cellWf regReset s.regs && s.mem.chans.length == 8 && s.on (F_MEM_C_TRN_STATUS_BUSY 7) && s.mem.mpll == none) (tLit [(F_MEM_C_TRN_STATUS_BUSY 7, 1)])) = true ∧
    (tOn (fun s => s.mem.training.isSome && !s.err.contained && mcState s 7 != 6 && spareHelps s 7 3) (tLit [(F_MEM_C_SPARE_EN 7, 1), (F_MEM_C_SPARE_RANK 7, 7)])) = true ∧
    (tOn (fun s => s.mem.training.isSome && !s.err.contained && mcState s 7 != 6 && !s.on (F_MEM_C_SPARE_EN 7)) (tLit [(F_MEM_C_SPARE_EN 7, 0)])) = true ∧
    (tOn (fun s => s.mem.training.isSome && !s.err.contained && s.dom .memc != 0 && (List.range 8).all (fun c => (s.mch c).failed.isNone)
        && failMask s == 0
        && popOk { dimms := 2, ranks := 4, x8 := false, density := 2, other := false, rate := 4800 }) (tLit [])) = true ∧
    (tOn (fun s => s.mem.training.isSome && !s.err.contained && s.dom .memc != 0 && (List.range 8).all (fun c => (s.mch c).failed.isNone)
        && failMask s != 0
        && popOk { dimms := 1, ranks := 1, x8 := true, density := 0, other := false, rate := 6400 }) (tLit [(F_MEM_C_STATUS_STATE 7, 6)])) = true ∧
    (tOn (fun s => s.mem.initPtr == some 0 && s.domOn .memc && allReady s && initNext s 0 < capacity s && capacity s < 2 ^ 64)
        (tMc ((List.range 8).map (fun c => (F_MEM_C_STATUS_STATE c, 2))) 0 id (fun m => { m with initPtr := some 0 }))) = true ∧
    (tOn (fun s => mcState s 7 == 3 && s.domOn .memc && !mpllHeld s && !s.err.contained && s.on F_GLB_STATE_DRAM_READY) (tLit [(F_MEM_C_STATUS_STATE 7, 3)])) = true ∧
    (tOn (fun s => (s.mch 7).drift && mcState s 7 == 3 && s.domOn .memc && !mpllHeld s) (tMc [(F_MEM_C_STATUS_STATE 7, 3)] 7 (fun c => { c with drift := true }) id)) = true :=
  by and_intros <;> decide +kernel

/-- What `MemoryServesAndIsCaredFor` asks is met, clause by clause. -/
theorem witness_MemoryServesAndIsCaredFor :
    (tOn (fun s => cellWf regReset s.regs && s.mem.chans.length == 8 && s.domOn .memc && 4194240 / 64 * 64 + 64 ≤ capacity s && !wqHas s (4194240 / 64 * 64)
        && mcState s (s.mem.map.decode (4194240 / 64 * 64)).ch == 2)
        (tMc ((List.range 8).map (fun c => (F_MEM_C_STATUS_STATE c, 2))) 0 id (fun m => { m with map := { m.map with density := 1 } }))) = true ∧
    (tOn (fun s => s.domOn .memc && 0 / 64 * 64 + 64 ≤ capacity s && wqHas s (0 / 64 * 64)) (tMc [] 0 (fun c => { c with wq := [{ sc := 0, addr := 0, at_ := 0 }] })
          (fun m => { m with map := { m.map with hash := false } }))) = true ∧
    (tOn (fun s => s.domOn .memc && s.rd F_MEM_CFG_SCRUB_H != 0 && capacity s != 0 && !uninit s (scrubAt s)
        && mcState s (s.mem.map.decode (scrubAt s)).ch == 2) (tMc ((F_MEM_CFG_SCRUB_H, 24) :: (List.range 8).map (fun c => (F_MEM_C_STATUS_STATE c, 2))) 0 id id)) = true ∧
    (tOn (fun s => s.domOn .memc && s.rd F_MEM_CFG_SCRUB_H != 0 && capacity s != 0 && uninit s (scrubAt s))
        (tMc [(F_MEM_CFG_SCRUB_H, 24)] 0 id (fun m => { m with initPtr := some 0 }))) = true ∧
    (tOn (fun s => s.domOn .memc && mcRunning s 7 && mcState s 7 == 4 && rankSt s 7 7 != 0) (tLit [(F_MEM_C_STATUS_STATE 7, 4), (F_MEM_C_R_ERR_STATE 7 7, 1)])) = true ∧
    (tOn (fun s => s.domOn .memc && mcRunning s 7 && mcState s 7 == 2 && rankSt s 7 7 != 0) (tLit [(F_MEM_C_STATUS_STATE 7, 2), (F_MEM_C_R_ERR_STATE 7 7, 1)])) = true ∧
    (tOn (fun s => (s.mch 7).wq.find? (fun e => e.sc == 1) == some { sc := 1, addr := 0, at_ := 0 }
        && s.up < 0 + 1000 * s.rd (F_MEM_C_WQ_WR_AGE_MAX 7)) (tMc [(F_MEM_C_WQ_WR_AGE_MAX 7, 1)] 7 (fun c => { c with wq := [{ sc := 1, addr := 0, at_ := 0 }] }) id)) = true ∧
    (tOn (fun s => (s.mch 7).wq.find? (fun e => e.sc == 1) == some { sc := 1, addr := 0, at_ := 0 }
        && 0 + 1000 * s.rd (F_MEM_C_WQ_WR_AGE_MAX 7) ≤ s.up && mcState s 7 != 4)
        { tMc [(F_MEM_C_WQ_WR_AGE_MAX 7, 1)] 7 (fun c => { c with wq := [{ sc := 1, addr := 0, at_ := 0 }] }) id with up := 1000 }) = true ∧
    (tOn (fun s => s.domOn .memc && mcRunning s 7 && mcState s 7 != 4 && !s.err.contained) (tLit [(F_MEM_C_STATUS_STATE 7, 2)])) = true ∧
    (tOn (fun s => (s.mch 7).frozenAt == some 0 && s.rd (F_MEM_C_CTRL_AUTO_RELEASE 7) != 0 && s.up < 0 + 1000 * s.rd (F_MEM_C_CTRL_AUTO_RELEASE 7))
        (tMc [(F_MEM_C_CTRL_AUTO_RELEASE 7, 1)] 7 (fun c => { c with frozenAt := some 0 }) id)) = true ∧
    (tOn (fun s => (s.mch 7).frozenAt == some 0 && s.rd (F_MEM_C_CTRL_AUTO_RELEASE 7) != 0 && 0 + 1000 * s.rd (F_MEM_C_CTRL_AUTO_RELEASE 7) ≤ s.up)
        { tMc [(F_MEM_C_CTRL_AUTO_RELEASE 7, 1)] 7 (fun c => { c with frozenAt := some 0 }) id with up := 1000 }) = true ∧
    (tOn (fun s => !s.err.contained && mcState s 7 == 5 && s.domOn .memc) (tLit [(F_MEM_C_STATUS_STATE 7, 5)])) = true :=
  by and_intros <;> decide +kernel

/-- What `ClocksAreSetLostAndRegained` asks is met, clause by clause. -/
theorem witness_ClocksAreSetLostAndRegained :
    (tHolds (fun p s => tCmd 0x90 true none p s && clkSetValid p (issued 0x90 p s) && pf p 2 0 2 == 0 && pf p 3 0 12 < fFloor (issued 0x90 p s) (pf p 2 2 2))
        (tPk 0x90 [0, 500]) (tLit [(F_ADM_STATUS_F_CODE, 51)])) = true ∧
    (tHolds (fun p s => tCmd 0x90 true none p s && clkSetValid p (issued 0x90 p s) && pf p 2 0 2 == 0 && fFloor (issued 0x90 p s) (pf p 2 2 2) ≤ pf p 3 0 12
        && fFloor (issued 0x90 p s) (pf p 2 2 2) ≤ 2000 && trgBusy s && pf p 2 2 2 != 0) (tPk 0x90 [4, 500]) (tLit [(F_ADM_STATUS_F_CODE, 49), (F_TRG_STATUS_STATE, 1)])) = true ∧
    (tHolds (fun p s => tCmd 0x90 true none p s && clkSetValid p (issued 0x90 p s) && pf p 2 0 2 == 0 && fFloor (issued 0x90 p s) (pf p 2 2 2) ≤ pf p 3 0 12
        && fFloor (issued 0x90 p s) (pf p 2 2 2) ≤ 2000 && !trgBusy s && s.on F_PMU_STATUS_THROTTLED) (tPk 0x90 [0, 2000])
        (tLit [(F_ADM_STATUS_F_CODE, 200), (F_PMU_STATUS_THROTTLED, 1)])) = true ∧
    (tHolds (fun p s => tCmd 0x90 true none p s && clkSetValid p (issued 0x90 p s) && pf p 2 0 2 == 0 && fFloor (issued 0x90 p s) (pf p 2 2 2) ≤ pf p 3 0 12
        && fFloor (issued 0x90 p s) (pf p 2 2 2) ≤ 2000 && !trgBusy s && !s.on F_PMU_STATUS_THROTTLED
        && fpllSettled (clkSetGo (issued 0x90 p s) (pf p 3 0 12) (pf p 2 2 2))) (tPk 0x90 [0, 1000]) (tLit [(F_ADM_STATUS_F_CODE, 50), (F_CKG_P_STATUS_STATE 0, 0)])) = true ∧
    (tHolds (fun p s => tCmd 0x90 true none p s && clkSetValid p (issued 0x90 p s) && pf p 2 0 2 == 0 && fFloor (issued 0x90 p s) (pf p 2 2 2) ≤ pf p 3 0 12
        && fFloor (issued 0x90 p s) (pf p 2 2 2) ≤ 2000 && !trgBusy s && !s.on F_PMU_STATUS_THROTTLED
        && !fpllSettled (clkSetGo (issued 0x90 p s) (pf p 3 0 12) (pf p 2 2 2))) (tPk 0x90 [0, 500]) (tLit [(F_ADM_STATUS_F_CODE, 50), (F_CKG_P_STATUS_STATE 0, 3)])) = true ∧
    (tHolds (fun p s => tCmd 0x90 true none p s && clkSetValid p (issued 0x90 p s) && pf p 2 0 2 == 1 && s.clk.mkhz != pf p 3 0 12 * 1000
        && !(List.range 8).any (fun c => s.on (F_MEM_C_TRN_STATUS_BUSY c)) && (List.range 8).all (fun c => mcState s c == 1 || mcState s c == 3))
        (tPk 0x90 [1, 2400]) (tLit ((List.range 8).map (fun c => (F_MEM_C_STATUS_STATE c, 3))))) = true ∧
    (tHolds (fun p s => tCmd 0x90 true none p s && clkSetValid p (issued 0x90 p s) && pf p 2 0 2 == 1 && s.clk.mkhz != pf p 3 0 12 * 1000
        && !(List.range 8).any (fun c => s.on (F_MEM_C_TRN_STATUS_BUSY c)) && !(List.range 8).all (fun c => mcState s c == 1 || mcState s c == 3))
        (tPk 0x90 [1, 2400]) (tLit [(F_MEM_C_STATUS_STATE 0, 2)])) = true ∧
    (tHolds (fun p s => tCmd 0x91 false none p s && pf p 2 0 2 != 3) (tPk 0x91 [2]) (tLit [])) = true ∧
    (tOn (fun s => s.clk.glides.getD 1 none == some tGlide && s.up < tGlide.at_) (tClk [] (fun c => { c with glides := [none, some tGlide] }))) = true ∧
    (tOn (fun s => s.clk.glides.getD 0 none == some tGlide && tGlide.at_ ≤ s.up && pllState s 0 == 4)
        { tClk [(F_CKG_P_STATUS_STATE 0, 4)] (fun c => { c with glides := [some tGlide, none] }) with up := 1 }) = true ∧
    (tOn (fun s => pllState s 0 == 3 && pllState s 1 == 4 && pllState s 2 == 3) (tLit [(F_CKG_P_STATUS_STATE 0, 3), (F_CKG_P_STATUS_STATE 1, 4), (F_CKG_P_STATUS_STATE 2, 3)])) = true ∧
    (tOn (fun s => pllState s 0 == 5 && pllState s 1 == 6 && pllState s 2 == 5) (tLit [(F_CKG_P_STATUS_STATE 0, 5), (F_CKG_P_STATUS_STATE 1, 6), (F_CKG_P_STATUS_STATE 2, 5)])) = true :=
  by and_intros <;> decide +kernel

/-- What `VoltageAndTemperatureAreWatched` asks is met, clause by clause. -/
theorem witness_VoltageAndTemperatureAreWatched :
    (tOn (fun s => cellWf regReset s.regs && s.clk.avsAt == some 0 && s.up < 0 + 100000) { tClk [] (fun c => { c with avsAt := some 0 }) with up := 99999 }) = true ∧
    (tOn (fun s => s.clk.avsAt == some 0 && 0 + 100000 ≤ s.up && s.clk.avsTries < 2) { tClk [] (fun c => { c with avsAt := some 0, avsTries := 1 }) with up := 100000 }) = true ∧
    (tOn (fun s => s.clk.avsAt == some 0 && 0 + 100000 ≤ s.up && 2 ≤ s.clk.avsTries) { tClk [] (fun c => { c with avsAt := some 0, avsTries := 2 }) with up := 100000 }) = true ∧
    (tOn (fun s => sext 16 1600 < min (s.rdS F_PMU_THERM_TRIP) 0x0730 && !s.on F_PMU_STATUS_THROTTLED && s.rdS F_PMU_THERM_THROTTLE ≤ sext 16 1600)
        (tLit [(F_PMU_THERM_TRIP, 1800), (F_PMU_THERM_THROTTLE, 1600)])) = true ∧
    (tOn (fun s => sext 16 65535 < min (s.rdS F_PMU_THERM_TRIP) 0x0730 && sext 16 65535 < s.rdS F_PMU_THERM_THROTTLE) (tLit [(F_PMU_THERM_TRIP, 1800), (F_PMU_THERM_THROTTLE, 1600)])) = true ∧
    (tOn (fun s => s.on F_PMU_STATUS_THROTTLED && s.rdS F_PMU_THERM_THROTTLE ≤ s.rdS F_PMU_TEMP_T_NOW && !inTransition s && 500 < s.rd (F_CKG_P_CTRL_TARGET 0)
        && s.clk.thrAt ≤ s.up) (tLit [(F_PMU_STATUS_THROTTLED, 1), (F_PMU_THERM_THROTTLE, 1600), (F_PMU_TEMP_T_NOW, 1600), (F_CKG_P_CTRL_TARGET 0, 501)])) = true ∧
    (tOn (fun s => s.on F_PMU_STATUS_THROTTLED && s.rdS F_PMU_THERM_THROTTLE ≤ s.rdS F_PMU_TEMP_T_NOW && !inTransition s && 500 < s.rd (F_CKG_P_CTRL_TARGET 0)
        && s.up < s.clk.thrAt) (tClk [(F_PMU_STATUS_THROTTLED, 1), (F_PMU_THERM_THROTTLE, 1600), (F_PMU_TEMP_T_NOW, 1600), (F_CKG_P_CTRL_TARGET 0, 501)]
          (fun c => { c with thrAt := 1 }))) = true ∧
    (tOn (fun s => s.clk.below == some 0 && s.on F_PMU_STATUS_THROTTLED && s.up < 0 + 1000000000) (tClk [(F_PMU_STATUS_THROTTLED, 1)] (fun c => { c with below := some 0 }))) = true ∧
    (tOn (fun s => s.clk.below == some 0 && s.on F_PMU_STATUS_THROTTLED && 0 + 1000000000 ≤ s.up)
        { tClk [(F_PMU_STATUS_THROTTLED, 1)] (fun c => { c with below := some 0 }) with up := 1000000000 }) = true ∧
    (tOn (fun s => (s.err.chutes.getD 1 []).length < 4 && s.err.chutes.length == 17) (tLit [])) = true :=
  by and_intros <;> decide +kernel

/-- What `TimebaseIsCommanded` asks is met, clause by clause. -/
theorem witness_TimebaseIsCommanded :
    (tHolds (fun p s => tCmd 0x92 true none p s && pf p 2 2 2 != 3 && 1 ≤ pf p 4 0 16 && pf p 4 0 16 ≤ 1000 && 1 ≤ pf p 5 24 5 && pf p 5 24 5 ≤ 20)
        (tPk 0x92 [2, 0, 1000, 20 * 16777216]) (tLit [])) = true ∧
    (tHolds (fun p s => tCmd 0x93 false none p s) (tPk 0x93 []) (tLit [])) = true ∧
    (tHolds (fun p s => tCmd 0x94 true none p s && tbsState s == 5 && pb p 2 0) (tPk 0x94 [1]) (tLit [(F_TBS_STATE_STATE, 5)])) = true ∧
    (tHolds (fun p s => tCmd 0x94 true none p s && tbsState s == 5 && !pb p 2 0) (tPk 0x94 []) (tLit [(F_TBS_STATE_STATE, 5)])) = true ∧
    (tHolds (fun p s => tCmd 0x95 true none p s && pdw p 2 == 0 && !s.on F_JIN_STATUS_ARMED && !pb p 5 0) (tPk 0x95 [0, 5]) (tLit [])) = true ∧
    (tHolds (fun p s => tCmd 0x95 true none p s && pdw p 2 == 0 && !s.on F_JIN_STATUS_ARMED && pb p 5 0 && pTs p 2 % sec1 == 0 && usesPps s)
        (tPk 0x95 [0, 1000000000, 0, 1]) (tLit [(F_TBS_CTRL_MODE, 2)])) = true ∧
    (tHolds (fun p s => tCmd 0x96 true none p s && 1 ≤ pf p 2 8 10 && pf p 2 8 10 ≤ 500 && (sext 32 (pdw p 3)).natAbs < 500000000) (tPk 0x96 [500 * 256, 499999999]) (tLit [])) = true ∧
    (tOn (fun s => reaches 0x21 R_TBS_CTRL s) (tLit [])) = true :=
  by and_intros <;> decide +kernel

/-- What `TimebaseFollowsItsReferences` asks is met, clause by clause. -/
theorem witness_TimebaseFollowsItsReferences :
    (tOn (fun s => cellWf regReset s.regs && !usesPps s) (tLit [(F_TBS_CTRL_MODE, 1)])) = true ∧
    (tOn (fun s => usesPps s && (ppsTake s (5 / 33554432 * 33554432)).clk.setAt == some 3) (tClk [(F_TBS_CTRL_MODE, 2)] (fun c => { c with setAt := some 3 }))) = true ∧
    (tOn (fun s => usesPps s && (ppsTake s (5 / 33554432 * 33554432)).clk.setAt == none && (ppsTake s (5 / 33554432 * 33554432)).clk.ppsUsed)
        (tClk [(F_TBS_CTRL_MODE, 3), (F_TBS_STATE_PPS_VALID, 1)] (fun c => { c with ppsUsed := true }))) = true ∧
    (tOn (fun s => s.clk.step == some (-1, 0) && !jinRun s) (tClk [] (fun c => { c with step := some (-1, 0) }))) = true ∧
    (tOn (fun s => s.clk.step == some (1, 1) && jinRun s && s.jin.lemc != none && lemcNow s < 1)
        { tJin [(F_JIN_CTRL_RUN, 1)] (fun j => { j with lemc := some 0 }) with clk := { Clk.reset with step := some (1, 1) } }) = true ∧
    (tOn (fun s => usesRef s && s.rd F_TBS_REF_TOL_REF_TOL * 1099511627776 < (2 ^ 50 : Int).natAbs * 1000000 && s.on F_TBS_STATE_REF10_VALID)
        (tLit [(F_TBS_CTRL_MODE, 1), (F_TBS_STATE_REF10_VALID, 1)])) = true ∧
    (tOn (fun s => usesRef s && (0 : Int).natAbs * 1000000 ≤ s.rd F_TBS_REF_TOL_REF_TOL * 1099511627776) (tLit [(F_TBS_CTRL_MODE, 3)])) = true ∧
    (tOn (fun s => usesRef s && !s.on F_TBS_STATE_REF10_VALID) (tLit [(F_TBS_CTRL_MODE, 3)])) = true ∧
    (tOn (fun s => s.clk.ppsSince == some 0 && !s.clk.ppsUsed && usesPps s && s.up < 0 + 2000000000) (tClk [(F_TBS_CTRL_MODE, 2)] (fun c => { c with ppsSince := some 0 }))) = true ∧
    (tOn (fun s => s.clk.ppsSince == some 0 && !s.clk.ppsUsed && usesPps s && 0 + 2000000000 ≤ s.up)
        { tClk [(F_TBS_CTRL_MODE, 2)] (fun c => { c with ppsSince := some 0 }) with up := 2000000000 }) = true ∧
    (tOn (fun s => s.clk.refSince == some 0 && !s.clk.refUsed && usesRef s && s.up < 0 + 2000000000) (tClk [(F_TBS_CTRL_MODE, 1)] (fun c => { c with refSince := some 0 }))) = true ∧
    (tOn (fun s => s.clk.refSince == some 0 && !s.clk.refUsed && usesRef s && 0 + 2000000000 ≤ s.up)
        { tClk [(F_TBS_CTRL_MODE, 1)] (fun c => { c with refSince := some 0 }) with up := 2000000000 }) = true ∧
    (tOn (fun s => s.clk.ppsLast == some (0, 0) && s.on F_TBS_STATE_PPS_VALID && usesPps s && s.up < 0 + 1100000000)
        (tClk [(F_TBS_CTRL_MODE, 2), (F_TBS_STATE_PPS_VALID, 1)] (fun c => { c with ppsLast := some (0, 0) }))) = true ∧
    (tOn (fun s => s.clk.ppsLast == some (0, 0) && s.on F_TBS_STATE_PPS_VALID && usesPps s && 0 + 1100000000 ≤ s.up)
        { tClk [(F_TBS_CTRL_MODE, 2), (F_TBS_STATE_PPS_VALID, 1)] (fun c => { c with ppsLast := some (0, 0) }) with up := 1100000000 }) = true ∧
    (tOn (fun s => s.clk.slew == some tSlew && !tSlew.lost && s.up < tSlew.start + (2 * tSlew.ramp + tSlew.hold)) (tClk [] (fun c => { c with slew := some tSlew }))) = true ∧
    (tOn (fun s => s.clk.slew == some tSlew && !tSlew.lost && tSlew.start + (2 * tSlew.ramp + tSlew.hold) ≤ s.up) { tClk [] (fun c => { c with slew := some tSlew }) with up := 3 }) = true ∧
    (tOn (fun s => s.on F_TBS_PPS_OUT_EN && !s.err.contained && !tpllBypass s && ppsSecond s ≤ s.clk.ppsSec) (tLit [(F_TBS_PPS_OUT_EN, 1)])) = true ∧
    (tOn (fun s => s.on F_TBS_PPS_OUT_EN && !s.err.contained && !tpllBypass s && s.clk.ppsSec < ppsSecond s) { tLit [(F_TBS_PPS_OUT_EN, 1)] with now := 2 ^ 62 }) = true :=
  by and_intros <;> decide +kernel

/-- What `DisplayOpcodesComplete` asks is met, clause by clause. -/
theorem witness_DisplayOpcodesComplete :
    (tHolds (fun p s => tCmd 0xA0 true none p s && cellWf regReset s.eff && modeOk (modeFields p s).rd && overBudget (issued 0xA0 p s) (modeFields p (issued 0xA0 p s)))
        (tPk 0xA0 (tMode 0x37)) (tLit tLayer)) = true ∧
    (tHolds (fun p s => tCmd 0xA0 true none p s && modeOk (modeFields p s).rd && !overBudget (issued 0xA0 p s) (modeFields p (issued 0xA0 p s)) && !pb p 2 0)
        (tPk 0xA0 (tMode 0x36)) (tLit [])) = true ∧
    (tHolds (fun p s => tCmd 0xA0 true none p s && modeOk (modeFields p s).rd && !overBudget (issued 0xA0 p s) (modeFields p (issued 0xA0 p s)) && pb p 2 0 && s.inRecord)
        (tPk 0xA0 (tMode 0x37)) (tLit [])) = true ∧
    (tHolds (fun p s => tCmd 0xA0 true none p s && modeOk (modeFields p s).rd && !overBudget (issued 0xA0 p s) (modeFields p (issued 0xA0 p s)) && pb p 2 0 && !s.inRecord)
        (tPk 0xA0 (tMode 0x37)) (tLit [(F_GLB_STATE_PSTATE, 1)])) = true ∧
    (tHolds (fun p s => tCmd 0xA1 true none p s && pf p 4 0 6 == 0 && pf p 6 0 6 == 0 && pf p 2 0 2 != 3 && pf p 2 3 3 < 6 && 1 ≤ pf p 7 0 14 && pf p 7 0 14 ≤ 8192
        && 1 ≤ pf p 7 16 13 && pf p 7 16 13 ≤ 4096 && mapLayerOk (layerFields p (issued 0xA1 p s)) (pf p 2 0 2)
        && overBudget (issued 0xA1 p s) (layerFields p (issued 0xA1 p s))) (tPk 0xA1 [4, 0, 0, 0, 7680, 1920 + 1080 * 65536]) (tLit ((F_DIS_CTRL_EN, 1) :: tModeRegs))) = true ∧
    (tHolds (fun p s => tCmd 0xA1 true none p s && pf p 4 0 6 == 0 && pf p 6 0 6 == 0 && pf p 2 0 2 != 3 && pf p 2 3 3 < 6 && 1 ≤ pf p 7 0 14 && pf p 7 0 14 ≤ 8192
        && 1 ≤ pf p 7 16 13 && pf p 7 16 13 ≤ 4096 && mapLayerOk (layerFields p (issued 0xA1 p s)) (pf p 2 0 2)
        && !overBudget (issued 0xA1 p s) (layerFields p (issued 0xA1 p s)) && s.dis.layers.length == 3) (tPk 0xA1 [6, 0, 0, 0, 0, 0x10002000]) (tLit [])) = true ∧
    (tHolds (fun p s => tCmd 0xA2 false none p s && (flipLayers p).all (layerOwned p s)
        && (flipLayers p).all (fun k => pf p (3 + 2 * k) 0 6 == 0 && s.rd (F_DIS_L_CFG_FMT k) != 4 && s.rd (F_DIS_L_CFG_FMT k) != 5)) (tPk 0xA2 [7, 0x40]) (tLit [])) = true ∧
    (tHolds (fun p s => tCmd 0xA3 false none p s && layerOwned p s (pf p 2 0 2) && pf p 3 0 6 == 0 && pf p 2 0 2 != 3) (tPk 0xA3 [2]) (tLit [])) = true ∧
    (tHolds (fun p s => tCmd 0xA4 false none p s && pf p 2 0 12 ≤ pf p 3 0 12 && pf p 2 16 12 ≤ pf p 3 16 12) (tPk 0xA4 [0, 0xFFF0FFF]) (tLit [])) = true ∧
    (tHolds (fun p s => tCmd 0xA5 false none p s && pb p 2 8 && s.dom .dis != 0) (tPk 0xA5 [0x100]) (tLit [])) = true ∧
    (tHolds (fun p s => tCmd 0xA5 false none p s && !pb p 2 8 && s.dom .dis == 0) (tPk 0xA5 []) ((tLit []).setDom .dis 0)) = true :=
  by and_intros <;> decide +kernel

/-- What `DisplayRegistersAct` asks is met, clause by clause. -/
theorem witness_DisplayRegistersAct :
    (tOn (fun s => reaches 0x21 R_DIS_CTRL s && cellWf regReset (arrived 0x21 s).regs && !(arrived 0x21 s).on F_DIS_CTRL_EN && (arrived 0x21 s).inRecord) (tLit [(F_DIS_CTRL_EN, 0)])) = true ∧
    (tOn (fun s => reaches 1 R_DIS_CTRL s && cellWf regReset (arrived 1 s).regs && (arrived 1 s).on F_DIS_CTRL_EN) (tLit [(F_DIS_CTRL_EN, 1)])) = true ∧
    (tOn (fun s => reaches 0x21 R_DIS_MODE_COMMIT s && disHeld s && reaches 0x21 R_DIS_COMMIT s) (tLit [(F_DIS_STATUS_STATE, 5)])) = true ∧
    (tOn (fun s => reaches 0x21 R_DIS_MODE_COMMIT s && !disHeld s && modeOk s.rd && s.rd F_DIS_RESERVE_MBPS < disNeed s s.rd && s.on F_DIS_CTRL_EN)
        (tLit ((F_DIS_CTRL_EN, 1) :: tLayer ++ tModeRegs))) = true ∧
    (tOn (fun s => reaches 0x21 R_DIS_MODE_COMMIT s && !disHeld s && modeOk s.rd && disNeed s s.rd ≤ s.rd F_DIS_RESERVE_MBPS && s.domOn .dis
        && s.rd F_DIS_STATUS_STATE == 2 && disState s != 1 && disState s != 4) (tLit ((F_DIS_STATUS_STATE, 2) :: tModeRegs))) = true ∧
    (tOn (fun s => reaches 0x21 R_DIS_COMMIT s && !disHeld s && s.dis.layers.length == 3 && reaches 0x21 (R_DIS_L_LUT 2) s) (tLit [])) = true ∧
    (tOn (fun s => reaches 0x21 (R_DIS_LUT_DATA 1023) s && s.rd F_DIS_LUT_CTRL_SEL == 3) (tLit [(F_DIS_LUT_CTRL_SEL, 3)])) = true ∧
    (tOn (fun s => reaches 0x21 (R_DIS_LUT_DATA 1023) s && s.rd F_DIS_LUT_CTRL_SEL < 3) (tLit [(F_DIS_LUT_CTRL_SEL, 2)])) = true ∧
    (tOn (fun s => reaches 0x21 R_DIS_AUX_CTRL s && s.on F_DIS_AUX_CTRL_BUSY) (tLit [(F_DIS_AUX_CTRL_BUSY, 1)])) = true ∧
    (tOn (fun s => reaches 0x21 R_DIS_AUX_CTRL s && !s.on F_DIS_AUX_CTRL_BUSY) (tLit [])) = true :=
  by and_intros <;> decide +kernel

/-- What `DisplayFramesAndLinkRun` asks is met, clause by clause. -/
theorem witness_DisplayFramesAndLinkRun :
    (tOn (fun s => cellWf regReset s.regs && s.domOn .dis && s.dis.inFrame) (tDis [] (fun d => { d with inFrame := true }))) = true ∧
    (tOn (fun s => s.domOn .dis && disState s == 2 && !s.dis.inFrame && s.dis.notBefore ≤ s.up) (tLit [(F_DIS_STATUS_STATE, 2)])) = true ∧
    (tOn (fun s => !scanning s) (tLit [])) = true ∧
    (tOn (fun s => scanning s && s.dis.inFrame && linesAt s (s.rdE F_DIS_VACT_VACTIVE) ≤ s.up && !disHeld s)
        { tDis [(F_DIS_STATUS_STATE, 2)] (fun d => { d with inFrame := true }) with up := 2 ^ 60 }) = true ∧
    (tOn (fun s => scanning s && s.dis.inFrame && linesAt s (s.rdE F_DIS_VACT_VACTIVE) ≤ s.up && disHeld s)
        { tDis [(F_DIS_STATUS_STATE, 5)] (fun d => { d with inFrame := true, heldFrom := 2 }) with up := 2 ^ 60 }) = true ∧
    (tOn (fun s => s.domOn .dis && disState s == 1 && s.up < s.dis.trainAt + 100000000) (tLit [(F_DIS_STATUS_STATE, 1)])) = true ∧
    (tOn (fun s => s.domOn .dis && disState s == 1 && s.dis.trainAt + 100000000 ≤ s.up) { tLit [(F_DIS_STATUS_STATE, 1)] with up := 100000000 }) = true ∧
    (tOn (fun s => s.domOn .dis && disState s != 1 && s.rd F_DIS_STATUS_STATE != 0 && s.on F_DIS_STATUS_HPD && disState s == 4) (tLit [(F_DIS_STATUS_STATE, 4), (F_DIS_STATUS_HPD, 1)])) = true ∧
    (tOn (fun s => s.rd F_DIS_STATUS_STATE == 0 && !s.on F_DIS_STATUS_HPD) (tLit [])) = true ∧
    (tOn (fun s => s.domOn .dis && s.on F_DIS_STATUS_HPD && disState s == 2) (tLit [(F_DIS_STATUS_STATE, 2), (F_DIS_STATUS_HPD, 1)])) = true ∧
    (tOn (fun s => s.domOn .dis && s.on F_DIS_STATUS_HPD && disState s == 1) (tLit [(F_DIS_STATUS_STATE, 1), (F_DIS_STATUS_HPD, 1)])) = true ∧
    (tOn (fun s => !s.on F_DIS_AUX_CTRL_BUSY) (tLit [])) = true ∧
    (tOn (fun s => s.on F_DIS_AUX_CTRL_BUSY && s.domOn .dis && s.dis.auxAt + 1600000 ≤ s.up) { tLit [(F_DIS_AUX_CTRL_BUSY, 1)] with up := 1600000 }) = true ∧
    (tOn (fun s => s.on F_DIS_AUX_CTRL_BUSY && s.domOn .dis && s.rd F_DIS_AUX_CTRL_CMD == 1) (tLit [(F_DIS_AUX_CTRL_BUSY, 1), (F_DIS_AUX_CTRL_CMD, 1)])) = true :=
  by and_intros <;> decide +kernel

/-- What `ConverterOpcodesComplete` asks is met, clause by clause. -/
theorem witness_ConverterOpcodesComplete :
    (tHolds (fun p s => tCmd 0xB0 true none p s && pf p 2 1 2 != 3 && 100 ≤ pf p 4 0 24 && pf p 4 0 24 ≤ 10000000 && s.mcv.enable && !mcvFrozenSame p s)
        (tPk 0xB0 [1, 0, 100]) (tMcv [(F_MCV_CTRL_SEQ_MODE, 1)] (fun m => { m with enable := true }))) = true ∧
    (tHolds (fun p s => tCmd 0xB0 true none p s && pf p 2 1 2 != 3 && 100 ≤ pf p 4 0 24 && pf p 4 0 24 ≤ 10000000 && !s.mcv.enable) (tPk 0xB0 [5, 0, 10000000]) (tLit [])) = true ∧
    (tHolds (fun p s => tCmd 0xB1 true none p s && mcvWordsOk (pdw p 3) (pdw p 4) && pf p 5 0 4 < 12 && !pb p 5 8) (tPk 0xB1 [31, 256, 255, 11]) (tLit [])) = true ∧
    (tHolds (fun p s => tCmd 0xB1 true none p s && mcvWordsOk (pdw p 3) (pdw p 4) && pf p 5 0 4 < 12 && pb p 5 8 && pf p 3 0 4 < 8 && pf p 3 6 2 == 0)
        (tPk 0xB1 [31, 7, 10000000, 0x10B]) (tLit [])) = true ∧
    (tHolds (fun p s => tCmd 0xB2 true (some .mcv) p s && mcvWordsOk (pdw p 2) (pdw p 3) && pTs p 4 == 0 && s.mcv.inj == none) (tPk 0xB2 [0, 100]) (tLit [])) = true ∧
    (tHolds (fun p s => tCmd 0xB2 true (some .mcv) p s && mcvWordsOk (pdw p 2) (pdw p 3) && pTs p 4 == 0 && s.mcv.inj != none) (tPk 0xB2 [0, 100])
        (tMcv [] (fun m => { m with inj := some { words := none, cmd := 0 } }))) = true ∧
    (tHolds (fun p s => tCmd 0xB2 true (some .mcv) p s && mcvWordsOk (pdw p 2) (pdw p 3) && pTs p 4 != 0 && s.mcv.timed == none) (tPk 0xB2 [0, 100, 1]) (tLit [])) = true ∧
    (tHolds (fun p s => tCmd 0xB2 true (some .mcv) p s && mcvWordsOk (pdw p 2) (pdw p 3) && pTs p 4 != 0 && s.mcv.timed != none) (tPk 0xB2 [0, 100, 1])
        (tMcv [] (fun m => { m with timed := some { words := none, cmd := 0 } }))) = true ∧
    (tHolds (fun p s => tCmd 0xB3 true (some .mcv) p s && pf p 2 0 3 != 0 && s.mcv.cal == none) (tPk 0xB3 [4]) (tLit [])) = true ∧
    (tHolds (fun p s => tCmd 0xB3 true (some .mcv) p s && pf p 2 0 3 != 0 && s.mcv.cal != none) (tPk 0xB3 [4]) (tMcv [] (fun m => { m with cal := some { mask := 1, cmd := 0 } }))) = true ∧
    (tHolds (fun p s => tCmd 0xB4 true (some .mcv) p s && s.domOn .mcv) (tPk 0xB4 [1, 0xFFFF0001]) (tLit [])) = true ∧
    (tHolds (fun p s => tCmd 0xB5 false none p s && pb p 2 8 && s.dom .mcv != 0) (tPk 0xB5 [0x11F]) (tLit [])) = true ∧
    (tHolds (fun p s => tCmd 0xB5 false none p s && !pb p 2 8 && s.dom .mcv == 0) (tPk 0xB5 [0x1F]) ((tLit []).setDom .mcv 0)) = true :=
  by and_intros <;> decide +kernel

/-- What `ConverterRegistersAct` asks is met, clause by clause. -/
theorem witness_ConverterRegistersAct :
    (tOn (fun s => reaches 0x21 R_MCV_CTRL s && cellWf regReset s.regs && !s.on F_MCV_CTRL_EN && s.pstate == 2 && s.domOn .mcv) (tLit [])) = true ∧
    (tOn (fun s => reaches 0x21 R_MCV_CTRL s && s.on F_MCV_CTRL_EN && s.rd F_MCV_CTRL_SEQ_MODE != (1#32 : Word).toNat / 2 % 4 && s.pstate == 2 && s.domOn .mcv)
        (tMcv [(F_MCV_CTRL_SEQ_MODE, 1)] id)) = true ∧
    (tOn (fun s => reaches 0x21 R_MCV_CTRL s && s.on F_MCV_CTRL_EN && s.rd F_MCV_CTRL_SEQ_MODE == 1 && !s.mcv.pass && (0x2003#32 : Word).toNat.testBit 0
        && (0x2003#32 : Word).toNat / 4096 % 16 == 2) (tMcv [(F_MCV_CTRL_SEQ_MODE, 1)] id)) = true ∧
    (tOn (fun s => s.on F_MCV_CTRL_EN && s.rd F_MCV_CTRL_SEQ_MODE == 1 && s.mcv.pass && !s.on F_MCV_STATUS_START_PENDING)
        (tMcv [(F_MCV_CTRL_SEQ_MODE, 1)] (fun m => { m with pass := true }))) = true ∧
    (tOn (fun s => s.on F_MCV_CTRL_EN && s.rd F_MCV_CTRL_SEQ_MODE == 1 && s.mcv.pass && s.on F_MCV_STATUS_START_PENDING)
        (tMcv [(F_MCV_CTRL_SEQ_MODE, 1), (F_MCV_STATUS_START_PENDING, 1)] (fun m => { m with pass := true }))) = true ∧
    (tOn (fun s => s.on F_MCV_CTRL_EN && (0x4001#32 : Word).toNat.testBit 0 && (0x4001#32 : Word).toNat / 4096 % 16 == 4 && s.mcv.inj != none)
        (tMcv [] (fun m => { m with inj := some { words := none, cmd := 0 } }))) = true ∧
    (tOn (fun s => !s.on F_MCV_CTRL_EN && !(0x4000#32 : Word).toNat.testBit 0 && s.mcv.inj == none && !mcvRuns s && reaches 0x21 R_MCV_CTRL s) (tLit [])) = true ∧
    (tOn (fun s => s.on F_MCV_CTRL_EN && s.mcv.inj == none && mcvRuns s && s.mcv.conv == some (tConv .span false)) (tMcv [] (fun m => { m with conv := some (tConv .span false) }))) = true ∧
    (tOn (fun s => s.on F_MCV_CTRL_EN && s.mcv.cal != none && (0x8001#32 : Word).toNat / 4096 % 16 == 8) (tMcv [] (fun m => { m with cal := some { mask := 1, cmd := 0 } }))) = true ∧
    (tOn (fun s => !s.on F_MCV_CTRL_EN && s.mcv.cal == none && !mcvRuns s && reaches 0x21 R_MCV_CTRL s && (0x8000#32 : Word).toNat / 4096 % 16 == 8) (tLit [])) = true ∧
    (tOn (fun s => s.on F_MCV_CTRL_EN && s.mcv.cal == none && s.mcv.inj == none && mcvRuns s && s.mcv.conv == some (tConv .span false)
        && (tConv .span false).kind == 0 && (tConv .span false).phase != .discharge) (tMcv [] (fun m => { m with conv := some (tConv .span false) }))) = true ∧
    (tOn (fun s => s.on F_MCV_CTRL_EN && s.mcv.cal == none && s.mcv.conv == some { tConv .span false with kind := 1 })
        (tMcv [] (fun m => { m with conv := some { tConv .span false with kind := 1 } }))) = true ∧
    (tOn (fun s => reaches 0x21 R_MCV_RES_POP s && s.mcv.results.length ≤ 64) (tLit [])) = true :=
  by and_intros <;> decide +kernel

/-- What `ConversionsRun` asks is met, clause by clause. -/
theorem witness_ConversionsRun :
    (tOn (fun s => cellWf regReset s.regs && s.mcv.conv == none && s.rdTs (R_MCV_INJ_AT_W 0) == 0 && !mcvRuns s) (tLit [])) = true ∧
    (tOn (fun s => s.mcv.conv == some (tConv .dwell true) && mcvRuns s && (tConv .dwell true).dwellEnd ≤ s.up && cMains (tConv .dwell true) && !mcvCoasting s)
        (tMcv [] (fun m => { m with conv := some (tConv .dwell true) }))) = true ∧
    (tOn (fun s => s.mcv.conv == some { tConv .dwell true with dwellEnd := 1 } && mcvRuns s && s.up < 1) (tMcv [] (fun m => { m with conv := some { tConv .dwell true with dwellEnd := 1 } }))) = true ∧
    (tOn (fun s => s.mcv.conv == some (tConv .dwell false) && mcvRuns s && !cMains (tConv .dwell false)) (tMcv [] (fun m => { m with conv := some (tConv .dwell false) }))) = true ∧
    (tOn (fun s => s.mcv.conv == some (tConv .span false) && mcvRuns s && (tConv .span false).spanEnd == some 0 && 0 ≤ s.up) (tMcv [] (fun m => { m with conv := some (tConv .span false) }))) = true ∧
    (tOn (fun s => s.mcv.conv == some { tConv .span false with spanEnd := some 1 } && mcvRuns s && s.up < 1)
        (tMcv [] (fun m => { m with conv := some { tConv .span false with spanEnd := some 1 } }))) = true ∧
    (tOn (fun s => s.mcv.conv == some (tConv .rundown true) && mcvRuns s && !mcvCoasting s && s.mcv.lastRep + 2 * mcvP s / 256 ≤ s.up)
        { tMcv [] (fun m => { m with conv := some (tConv .rundown true), period := some 256 }) with up := 2 }) = true ∧
    (tOn (fun s => s.mcv.conv == some (tConv .rundown true) && mcvRuns s && !mcvCoasting s && s.up < s.mcv.lastRep + 2 * mcvP s / 256)
        { tMcv [] (fun m => { m with conv := some (tConv .rundown true), period := some 256 }) with up := 1 }) = true ∧
    (tOn (fun s => s.mcv.conv == some (tConv .discharge false)) (tMcv [] (fun m => { m with conv := some (tConv .discharge false) }))) = true ∧
    (tOn (fun s => s.rdTs (R_MCV_INJ_AT_W 0) == 5 && s.domOn .mcv && !s.err.contained && s.now < s.rdTs (R_MCV_INJ_AT_W 0)) ((tLit []).wrTs (R_MCV_INJ_AT_W 0) 5)) = true ∧
    (tOn (fun s => s.rdTs (R_MCV_INJ_AT_W 0) == 5 && s.domOn .mcv && !s.err.contained && s.rdTs (R_MCV_INJ_AT_W 0) ≤ s.now)
        { (tLit []).wrTs (R_MCV_INJ_AT_W 0) 5 with now := 5 }) = true ∧
    (tOn (fun s => mcvRuns s && calPeriodDue s) { tMcv [(F_MCV_CAL_CFG_CAL_PERIOD, 1)] id with up := 1000000000 }) = true :=
  by and_intros <;> decide +kernel

/-- What `ErrorLogWorks` asks is met, clause by clause. -/
theorem witness_ErrorLogWorks :
    (tHolds (fun p s => tCmd 0xC2 false none p s && pf p 3 0 6 == 0 && pb p 2 31) (tPk 0xC2 [0x80000000]) (tLit [])) = true ∧
    (tHolds (fun p s => tCmd 0xC2 false none p s && pf p 3 0 6 == 0 && !pb p 2 31 && 1 ≤ pf p 2 16 13 && pf p 2 16 13 ≤ 4096) (tPk 0xC2 [0x1000FFFF]) (tLit [])) = true ∧
    (tHolds (fun p s => tCmd 0xC3 false none p s && hasDiag p s && pb p 2 31) (tPk 0xC3 [0x80000000]) (tLit [])) = true ∧
    (tHolds (fun p s => tCmd 0xC3 false none p s && hasDiag p s && !pb p 2 31) (tPk 0xC3 [0xFFFFFFF]) (tLit [])) = true ∧
    (tHolds (fun p s => tCmd 0xC4 true none p s && hasDiag p s && pf p 2 0 5 ≤ 16 && (s.err.chutes.getD (pf p 2 0 5) []).length < 4) (tPk 0xC4 [16]) (tLit [])) = true ∧
    (tHolds (fun p s => tCmd 0xC4 true none p s && hasDiag p s && pf p 2 0 5 ≤ 16 && 4 ≤ (s.err.chutes.getD (pf p 2 0 5) []).length) (tPk 0xC4 [16])
        (tErrS [] (List.replicate 4 (tErr 0)))) = true ∧
    (tOn (fun s => reaches 0x21 R_ERR_ACK s && cellWf regReset s.regs) (tLit [])) = true ∧
    (tOn (fun s => (List.range 17).all (fun b => s.err.chutes.getD b [] == [])) (tLit [])) = true ∧
    (tOn (fun s => drainNext s == some 16 && s.err.chutes.getD 16 [] == [tErr 3] && (tErr 3).cls == 3) (tErrS [] [tErr 3])) = true ∧
    (tOn (fun s => drainNext s == some 16 && s.err.chutes.getD 16 [] == [tErr 2, tErr 0] && (matchTag s (tErr 2)).isNone && s.ctxFunc 0 == 0
        && !s.err.unacked.any (fun x => x % 4096 == s.rd F_ERR_LOG_HEAD_NEXT_SEQ % 4096)) (tErrS [] [tErr 2, tErr 0])) = true ∧
    (tOn (fun s => drainNext s == some 16 && s.err.chutes.getD 16 [] == [tErr 1, tErr 0] && s.ctxFunc 0 == 0
        && !s.err.unacked.any (fun x => x % 4096 == s.rd F_ERR_LOG_HEAD_NEXT_SEQ % 4096)) (tErrS [(F_ERR_CTRL_EVT_CLASS, 2), (F_SHF_CTRL_ERR_EN, 0)] [tErr 1, tErr 0])) = true ∧
    (tOn (fun s => s.err.chutes.length == 17 && (s.err.chutes.getD 15 []).length < 4) (tLit [])) = true ∧
    (tOn (fun s => s.err.chutes.length == 17 && 4 ≤ (s.err.chutes.getD 15 []).length) { tLit [] with err := { Err.reset with chutes := List.replicate 17 (List.replicate 4 (tErr 0)) } }) = true :=
  by and_intros <;> decide +kernel

/-- What `SheafFiresAndLatches` asks is met, clause by clause. -/
theorem witness_SheafFiresAndLatches :
    (tHolds (fun p s => tCmd 0xC0 false none p s && hasDiag p s && pTs p 2 == 0 && !s.on F_SHF_STATUS_LOCKED) (tPk 0xC0 []) (tLit [])) = true ∧
    (tHolds (fun p s => tCmd 0xC0 false none p s && hasDiag p s && s.now ≤ pTs p 2 && pTs p 2 ≤ s.now + 60 * (1000000000 * ns1) && s.on F_SHF_STATUS_LOCKED)
        (tPk 0xC0 [0, 1]) (tLit [(F_SHF_STATUS_LOCKED, 1)])) = true ∧
    (tHolds (fun p s => tCmd 0xC1 false none p s && !pb p 4 0 && pf p 2 0 6 == 0 && !s.shf.everFired) (tPk 0xC1 []) (tLit [])) = true ∧
    (tHolds (fun p s => tCmd 0xC1 false none p s && pb p 4 0 && hasDiag p s && pf p 2 0 6 == 0 && s.shf.everFired) (tPk 0xC1 [64, 0, 1])
        { tLit [] with shf := { Shf.reset with everFired := true } }) = true ∧
    (tOn (fun s => cellWf regReset (arrived 1 s).regs && reaches 1 R_SHF_CTRL s && !(arrived 1 s).on F_SHF_STATUS_LOCKED) (tLit [])) = true ∧
    (tOn (fun s => reaches 1 R_SHF_CTRL s && (arrived 1 s).on F_SHF_STATUS_LOCKED && sheafTwin (arrived 1 s) == none) (tLit [(F_SHF_STATUS_LOCKED, 1)])) = true ∧
    (tOn (fun s => s.pins.snapIn == false && s.shf.decided == none) (tLit [])) = true ∧
    (tOn (fun s => s.pins.snapIn != true && s.on F_SHF_CTRL_IN_EN && true != s.on F_SHF_CTRL_IN_POL && !s.on F_SHF_STATUS_LOCKED) (tLit [(F_SHF_CTRL_IN_EN, 1), (F_SHF_CTRL_IN_POL, 0)])) = true ∧
    (tOn (fun s => s.pins.snapIn != true && s.on F_SHF_CTRL_IN_EN && true != s.on F_SHF_CTRL_IN_POL && s.on F_SHF_STATUS_LOCKED && sheafTwin s == none)
        (tLit [(F_SHF_CTRL_IN_EN, 1), (F_SHF_CTRL_IN_POL, 0), (F_SHF_STATUS_LOCKED, 1)])) = true ∧
    (tOn (fun s => s.shf.decided == some (1, 0) && 0 ≤ s.now) { tLit [] with shf := { Shf.reset with decided := some (1, 0) } }) = true ∧
    (tOn (fun s => s.shf.decided == some (6, 1) && s.now < 1) { tLit [] with shf := { Shf.reset with decided := some (6, 1) } }) = true :=
  by and_intros <;> decide +kernel

/-- What `PowerStatesAreAskedForAndTaken` asks is met, clause by clause. -/
theorem witness_PowerStatesAreAskedForAndTaken :
    (tHolds (fun p s => passes 0xE0 false (some 3) none p s && cellWf regReset s.regs && pf p 2 0 2 != 3 && !recordHeld s && s.clk.trans == none && s.pstate == pf p 2 0 2)
        (tPk 0xE0 [2]) (tLit [])) = true ∧
    (tHolds (fun p s => passes 0xE0 false (some 3) none p s && pf p 2 0 2 != 3 && !recordHeld s && s.clk.trans == none && s.pstate != pf p 2 0 2 && pf p 2 0 2 != 2)
        (tPk 0xE0 [1]) (tLit [])) = true ∧
    (tHolds (fun p s => passes 0xE0 false (some 3) none p s && !recordHeld s && s.clk.trans == none && s.pstate != 2 && pf p 2 0 2 == 2 && !s.on F_GLB_STATE_DRAM_READY
        && s.mem.training != none) (tPk 0xE0 [2]) (tLit [(F_GLB_STATE_PSTATE, 1), (F_GLB_STATE_DRAM_READY, 0)])) = true ∧
    (tHolds (fun p s => tCmd 0xE1 false none p s) (tPk 0xE1 []) (tLit [])) = true ∧
    (tHolds (fun p s => passes 0xE2 false (some 3) none p s && pf p 2 0 4 ≤ 11 && !watchHeld s) (tPk 0xE2 [0x31B]) (tLit [])) = true ∧
    (tOn (fun s => !s.on F_PMU_CTRL_WAKE_PIN_EN) (tLit [(F_PMU_CTRL_WAKE_PIN_EN, 0)])) = true ∧
    (tOn (fun s => s.on F_PMU_CTRL_WAKE_PIN_EN) (tLit [(F_PMU_CTRL_WAKE_PIN_EN, 1)])) = true ∧
    (tOn (fun s => s.clk.wakeArmed && s.on F_PMU_CTRL_WAKE_ALARM_EN && s.rdTs (R_PMU_WAKE_AT_W 0) ≤ s.now && s.pstate != 0)
        (tClk [(F_PMU_CTRL_WAKE_ALARM_EN, 1)] (fun c => { c with wakeArmed := true }))) = true ∧
    (tOn (fun s => s.clk.wakeArmed && s.on F_PMU_CTRL_WAKE_ALARM_EN && s.now < s.rdTs (R_PMU_WAKE_AT_W 0))
        ((tClk [(F_PMU_CTRL_WAKE_ALARM_EN, 1)] (fun c => { c with wakeArmed := true })).wrTs (R_PMU_WAKE_AT_W 0) 5)) = true ∧
    (tOn (fun s => s.shf.alarmArmed && s.on F_SHF_CTRL_ALARM_EN && s.rdTs (R_SHF_ALARM_W 0) ≤ s.now) { tLit [(F_SHF_CTRL_ALARM_EN, 1)] with shf := { Shf.reset with alarmArmed := true } }) = true ∧
    (tOn (fun s => s.pstate == 0 && s.dom .hostlink == 2 && s.up < s.clk.access + 10000000) (tLit [(F_GLB_STATE_PSTATE, 0)])) = true ∧
    (tOn (fun s => s.pstate == 0 && s.dom .hostlink == 2 && s.clk.access + 10000000 ≤ s.up) { tLit [(F_GLB_STATE_PSTATE, 0)] with up := 10000000 }) = true ∧
    (tOn (fun s => s.err.contained) (tContain (tLit []))) = true ∧
    (tOn (fun s => !s.err.contained && s.pstate == 4) (tLit [(F_GLB_STATE_PSTATE, 4)])) = true ∧
    (tOn (fun s => !s.err.contained && s.clk.trans == some tTrans && s.pstate == 5 && memAwake s) (tClk [(F_GLB_STATE_PSTATE, 5)] (fun c => { c with trans := some tTrans }))) = true ∧
    (tOn (fun s => !s.err.contained && capState s == 3 && caughtUp s) (tLit [(F_CAP_STATUS_STATE, 3)])) = true ∧
    (tOn (fun s => !s.err.contained && capState s == 3 && !caughtUp s) (tSilo [(F_CAP_STATUS_STATE, 3), (F_CAP_STORE_LO_STREAMS, 1), (F_JIN_TS_PERIOD_HI_NS, 0)] (fun c =>
          { c with streams := listMod c.streams 0 (fun x => { x with ring := List.replicate 65 { n := 0, ts := 0, bytes := [], heldFor := [], ue := false } }) }))) = true ∧
    (tOn (fun s => !s.err.contained && s.clk.trans == some tTrans && s.pstate == 6 && !jobsOwed s (barnsDown (watchApply s)) tTrans.ts)
        (tClk [(F_GLB_STATE_PSTATE, 6)] (fun c => { c with trans := some tTrans }))) = true ∧
    (tOn (fun s => !s.err.contained && s.clk.trans == some tTrans && s.pstate == 6 && jobsOwed s (barnsDown (watchApply s)) tTrans.ts)
        ((tClk [(F_GLB_STATE_PSTATE, 6)] (fun c => { c with trans := some tTrans })).modEng (fun e => { e with jobs := [tJob 1] }))) = true ∧
    (tOn (fun s => !s.err.contained && s.pstate == 7 && dmaQuiet s) (tLit [(F_GLB_STATE_PSTATE, 7)])) = true ∧
    (tOn (fun s => !s.err.contained && s.pstate == 7 && !dmaQuiet s) (tDma [(F_GLB_STATE_PSTATE, 7)] (fun c => { c with xfer := some { tXfer with released := some 0 } }))) = true :=
  by and_intros <;> decide +kernel

/-- What `ResetsLeaveTheStateTheyName` asks is met, clause by clause. -/
theorem witness_ResetsLeaveTheStateTheyName :
    (tOn (fun s => cellWf regReset s.regs && s.pins.resetN && s.pins.released) (tLit [])) = true ∧
    (tOn (fun s => !s.pins.resetN && s.pins.suppliesValid && !s.pins.released) { tLit [] with pins := { Pins.reset with resetN := false, released := false } }) = true ∧
    (tOn (fun s => s.pins.released && !s.err.contained && !s.on F_GLB_STATE_CMD_READY && !s.pins.testEn) (tLit [])) = true ∧
    (tOn (fun s => s.pins.released && !s.err.contained && !s.on F_GLB_STATE_CMD_READY && s.pins.testEn) { tLit [] with pins := { Pins.reset with testEn := true } }) = true ∧
    (tOn (fun s => reaches 0x21 R_GLB_SOFT_RESET s && (0x96480001#32 : Word).toNat.testBit 0 && (0x96480001#32 : Word).toNat / 65536 == 0x9648 && dramTrained s
        && s.mem.initPtr == none) { tLit [] with mem := { Mem.reset with training := none } }) = true ∧
    (tOn (fun s => reaches 0x21 R_GLB_SOFT_RESET s && !dramTrained s) (tLit [])) = true :=
  by and_intros <;> decide +kernel

/-- What `ClearWritesClearTheirCounts` asks is met, clause by clause. -/
theorem witness_ClearWritesClearTheirCounts :
    (tOn (fun s => reaches 0x21 R_JIN_CTRL s && cellWf regReset s.regs && (2#32 : Word).toNat.testBit 0 == jinRun (arrived 0x21 s) && (2#32 : Word).toNat.testBit 1) (tLit [])) = true ∧
    (tOn (fun s => reaches 1 R_JIN_CTRL s && (3#32 : Word).toNat.testBit 0 == jinRun (arrived 1 s) && cellWf regReset s.regs) (tLit [(F_JIN_CTRL_RUN, 1)])) = true ∧
    (tOn (fun s => reaches 0x21 (R_DFU_CTRL 11) s && reaches 0x21 R_TRG_CTRL s && reaches 0x21 R_TIM_CTRL s && reaches 0x21 R_CAP_CTRL s && reaches 0x9F (R_ENG_CTRL 11) s) (tLit [])) = true ∧
    (tOn (fun s => reaches 0x21 R_HIF_CTRL s && reaches 0xC7 R_MBX_CTRL s && reaches 0x21 R_DMA_CTRL s && reaches 0x21 R_CMP_CTRL s && reaches 0x21 (R_MEM_C_CTRL 7) s) (tLit [])) = true ∧
    (tOn (fun s => reaches 0x21 R_TBS_CTRL s && reaches 0x21 R_PMU_CTRL s && reaches 0x21 R_DIS_CTRL s && reaches 0x21 R_ERR_CTRL s) (tLit [])) = true ∧
    (tOn (fun s => reaches 0x21 R_MCV_CTRL s && (0x1001#32 : Word).toNat.testBit 0 == (arrived 0x21 s).on F_MCV_CTRL_EN && (0x1001#32 : Word).toNat / 4096 % 16 == 1) (tMcv [] id)) = true :=
  by and_intros <;> decide +kernel

/-- What `StepRunsTheFrontCommand` asks is met, clause by clause. -/
theorem witness_StepRunsTheFrontCommand :
    (tOn (fun s => s.pending == [] && s.pins.released) (tLit [])) = true ∧
    (tOn (fun s => s.pending == [] && !s.pins.released) { tLit [] with pins := { Pins.reset with released := false } }) = true :=
  by and_intros <;> decide +kernel

/-- What `PacketsAreCheckedFirst` asks is met, clause by clause. -/
theorem witness_PacketsAreCheckedFirst :
    (tHolds (fun p s => packetOf (.nop p) == some (0, p) && s.inflight? p.qid (pTag p) == some (tCom .run 0)) (tPk 0 []) (tFcp [] (fun c => { c with inflight := [tCom .run 0] }))) = true ∧
    (tHolds (fun p s => s.inflight? p.qid (pTag p) == some { tCom .fetched 0 with dws := p.dws, op := 0 } && mayStart s { tCom .fetched 0 with dws := p.dws, op := 0 }
        && !reservedOk p) (tPk 0x800 []) (tFcp [] (fun c => { c with inflight := [{ tCom .fetched 0 with dws := (tPk 0x800 []).dws, op := 0 }] }))) = true ∧
    (tHolds (fun p s => s.inflight? p.qid (pTag p) == none && mayStart (issued 0 p s) (inflightOf 0 p) && !reservedOk p) (tPk 0x800 []) (tLit [])) = true ∧
    (tHolds (fun p s => s.inflight? p.qid (pTag p) == none && mayStart (issued 0 p s) (inflightOf 0 p) && reservedOk p && !ctxOk p s) (tPk 0xFFF0000 []) (tLit [])) = true ∧
    (tHolds (fun p s => s.inflight? p.qid (pTag p) == none && mayStart (issued 0x20 p s) (inflightOf 0x20 p) && reservedOk p && ctxOk p s && s.err.contained && !containOps 0x20)
        (tPk 0x20 []) (tContain (tLit []))) = true ∧
    (tHolds (fun p s => s.inflight? p.qid (pTag p) == none && !mayStart (issued 0 p s) (inflightOf 0 p)) { tPk 0x100 [] with dws := 0x100 :: 1 :: List.replicate 14 0 }
        (tFcp [] (fun c => { c with inflight := [tCom .run 0] }))) = true :=
  by and_intros <;> decide +kernel

/-- What `PatchIsLoadedThenApplied` asks is met, clause by clause. -/
theorem witness_PatchIsLoadedThenApplied :
    (tHolds (fun p s => starts 6 p s && s.hasPriv (pCtx p) 1 && pq p 2 % 64 == 0) { tPk 6 [0, 0, 288] with buf := tPatch } tFused) = true ∧
    (tHolds (fun p s => starts 6 p s && s.hasPriv (pCtx p) 1 && pq p 2 % 64 == 0 && patchReason p s == some 7) (tPk 6 [0, 0, 0]) tFused) = true ∧
    (tHolds (fun p s => starts 6 p s && cellWf regReset s.regs && s.hasPriv (pCtx p) 1 && pq p 2 % 64 == 0) (tPk 6 [0, 0, 0]) State.reset) = true ∧
    (tOn (fun s => s.fcp.patchNew == some 7 && cellWf regReset s.regs) (tFcp [] (fun c => { c with patchNew := some 7 }))) = true :=
  by and_intros <;> decide +kernel

/-- An image that is accepted: its signature verifies. -/
theorem witness_PatchIsLoadedThenApplied_accepted :
    (tHolds (fun p s => patchReason p s == none) { tPk 6 [0, 0, 288] with buf := tPatch } tFused) = true :=
  by decide +kernel

/-! ### What the claims about every command ask -/

/-- Whether a command goes on from a state. -/
def tGoes (i : Instr) (s : State) : Bool := match exec i s with | .next _ => true | _ => false

/-- A state other than reset that the whole-machine claims speak of: contained, with a context that holds a privilege and a
command waiting. -/
def tBusy : State :=
  { tContain (tFcp [] (fun c => { c with ctxs := [Ctx.zero, { Ctx.zero with id := 17, priv := 2 }] })) with
    pending := [.jinClrCounters 0x21 0#32] }

/-- It is sound. -/
theorem tBusy_sound : tBusy.Sound where
  canon := by constructor <;> decide +kernel
  whole := by decide +kernel
  chutes := by decide +kernel
  log := by decide +kernel

/-- It has its shape. -/
theorem tBusy_shaped : tBusy.Shaped := by
  constructor <;> decide +kernel

/-- A sound state steps on. -/
theorem witness_StepKeepsSound : tBusy.Sound ∧ stepsOn tBusy = true := ⟨tBusy_sound, by decide +kernel⟩

/-- A state of the right shape steps on. -/
theorem witness_StepKeepsShape : tBusy.Shaped ∧ stepsOn tBusy = true := ⟨tBusy_shaped, by decide +kernel⟩

/-- A contained state from which a command goes on that does not reset. -/
theorem witness_ContainmentLasts :
    tBusy.Sound ∧ mayReset (.jinClrCounters 0x21 0#32) = false ∧ tBusy.err.contained = true ∧ tGoes (.jinClrCounters 0x21 0#32) tBusy = true :=
  ⟨tBusy_sound, by decide +kernel, by decide +kernel, by decide +kernel⟩

/-- A sound state from which a command goes on that stores nothing. -/
theorem witness_OtherRowsLeaveDramAlone :
    tBusy.Sound ∧ mayStore (.jinClrCounters 0x21 0#32) = false ∧ tGoes (.jinClrCounters 0x21 0#32) tBusy = true :=
  ⟨tBusy_sound, by decide +kernel, by decide +kernel⟩

/-- A packet and a state that meet the second clause, and a sound state whose context 17 keeps a privilege over a command that
grants none. -/
theorem witness_OnlyCtxPrivGrants :
    tHolds (fun p s => starts 0x12 p s && !s.err.contained && 1 ≤ pf p 2 0 12 && (s.ctx? (pf p 2 0 12)).any (fun x => x.func == 0))
      (tPk 0x12 [17, 15]) (tFcp [] (fun c => { c with ctxs := [Ctx.zero, { Ctx.zero with id := 17 }] })) = true ∧
    tHolds (fun p s => starts 0x12 p s && !s.err.contained && 1 ≤ pf p 2 0 12 && (s.ctx? (pf p 2 0 12)).any (fun x => x.func == 16) &&
        !pb p 3 1 && !pb p 3 3)
      (tPk 0x12 [17, 5]) (tFcp [] (fun c => { c with ctxs := [Ctx.zero, { Ctx.zero with id := 17, func := 16 }] })) = true ∧
    tBusy.Sound ∧ isCtxPriv (.jinClrCounters 0x21 0#32) = false ∧
      (match exec (.jinClrCounters 0x21 0#32) tBusy with
        | .next t => t.fcp.ctxs.any (fun x => decide (x.id = 17 ∧ x.priv = 2))
        | _ => false) = true :=
  ⟨by decide +kernel, by decide +kernel, tBusy_sound, by decide +kernel, by decide +kernel⟩

/-- A sound state from which a command goes on that does not set the time. -/
theorem witness_OtherRowsLeaveTimeAlone :
    tBusy.Sound ∧ mayMoveTime (.jinClrCounters 0x21 0#32) = false ∧ tGoes (.jinClrCounters 0x21 0#32) tBusy = true :=
  ⟨tBusy_sound, by decide +kernel, by decide +kernel⟩

/-- At reset an empty image is refused, whatever the fuses hold (R293). -/
theorem test_empty_patch_refused : (patchReason (tPk 6 [0, 0, 0]) State.reset).isSome = true := by
  unfold patchReason
  dsimp only
  split
  · rfl
  · rw [if_pos (by decide +kernel)]
    rfl

/-! ### What is not well formed -/

/-- A packet that no opcode of the table fits, and packets of a function, a queue and a length that do not exist. -/
def tOdd : List Packet :=
  [tPk 0xFF [], { tPk 0 [] with func := 17 }, { tPk 0 [] with qid := 512 }, { tPk 0 [] with dws := [0#32] },
    { tPk 0 [] with dws := List.replicate 17 0#32 }]

/-- Each of them is refused (R270, R276, R282, Table 10.3). -/
theorem test_odd_packets_refused : tOdd.all (fun p => !p.wf 0) = true ∧ (tPk 0 []).wf 0 = true ∧
    Packet.wf 0 { tPk 0 [] with func := 16, qid := 511 } = true := by decide +kernel

/-- Part 1 of the packet rows: each takes its own opcode (Table 10.6) and refuses another. -/
theorem test_opcodes_1 :
    ([(Instr.nop, 0x00), (Instr.deviceInfo, 0x01), (Instr.queueCreate, 0x02), (Instr.queueDelete, 0x03), (Instr.eventRoute,
     0x04), (Instr.abortCmd, 0x05), (Instr.patchLoad, 0x06), (Instr.patchStatus, 0x07), (Instr.ctxOpen, 0x10),
     (Instr.ctxClose, 0x11), (Instr.ctxPriv, 0x12), (Instr.ctxQuota, 0x13), (Instr.contractRequest, 0x14),
     (Instr.contractModify, 0x15), (Instr.contractRelease, 0x16), (Instr.contractStatus, 0x17), (Instr.budgetQuery, 0x18),
     (Instr.intakeConfig, 0x20), (Instr.intakeLink, 0x21), (Instr.intakeStart, 0x22), (Instr.intakeStop, 0x23),
     (Instr.intakeStatus, 0x24), (Instr.sysrefSet, 0x25), (Instr.laneTest, 0x26), (Instr.cspiXfer, 0x27), (Instr.dfuMode,
     0x28), (Instr.dfuCorr, 0x29), (Instr.dfuSync, 0x2A), (Instr.dfuPreset, 0x2B), (Instr.resampleCfg, 0x2C),
     (Instr.dfuStatus, 0x2D), (Instr.dfuAnchor, 0x2E), (Instr.trigArm, 0x30), (Instr.trigDisarm, 0x31), (Instr.trigForce,
     0x32), (Instr.topnoteSet, 0x33), (Instr.heartSet, 0x34), (Instr.heartLimits, 0x35)] : List ((Packet → Instr) × Nat)).all
      (fun e => (e.1 (tPk e.2 [])).wf && !(e.1 (tPk 0xFF [])).wf) = true := by decide +kernel

/-- Part 2 of the packet rows: each takes its own opcode (Table 10.6) and refuses another. -/
theorem test_opcodes_2 :
    ([(Instr.trigRoute, 0x36), (Instr.trigOutSet, 0x37), (Instr.baseSet, 0x38), (Instr.placeSet, 0x39), (Instr.placeStatus,
     0x3A), (Instr.baseStatus, 0x3B), (Instr.capConfig, 0x40), (Instr.capStatus, 0x41), (Instr.claimCmd, 0x42),
     (Instr.claimRelease, 0x43), (Instr.segInfo, 0x44), (Instr.claimRead, 0x45), (Instr.siloLocate, 0x46),
     (Instr.capRebuild, 0x47), (Instr.chainLoad, 0x50), (Instr.chainUnload, 0x51), (Instr.chainStart, 0x52),
     (Instr.chainRun, 0x53), (Instr.chainStatus, 0x54), (Instr.engStatus, 0x55), (Instr.engUnfence, 0x56), (Instr.engGuard,
     0x57), (Instr.pqLoad, 0x58), (Instr.pqClock, 0x59), (Instr.mapSet, 0x5A), (Instr.mapClear, 0x5B), (Instr.mapStatus,
     0x5C), (Instr.pqStatus, 0x5D), (Instr.regRead, 0xD0), (Instr.regWrite, 0xD1), (Instr.regRmw, 0xD2), (Instr.regPoll,
     0xD3), (Instr.dmaChanOpen, 0x60), (Instr.dmaChanClose, 0x61), (Instr.dmaRingSet, 0x62), (Instr.dmaStart, 0x63),
     (Instr.dmaHalt, 0x64), (Instr.dmaStatus, 0x65)] : List ((Packet → Instr) × Nat)).all
      (fun e => (e.1 (tPk e.2 [])).wf && !(e.1 (tPk 0xFF [])).wf) = true := by decide +kernel

/-- Part 3 of the packet rows: each takes its own opcode (Table 10.6) and refuses another. -/
theorem test_opcodes_3 :
    ([(Instr.dmaCopy, 0x66), (Instr.cmpJob, 0x70), (Instr.cmpResume, 0x71), (Instr.cmpAbort, 0x72), (Instr.cmpStatus, 0x73),
     (Instr.memConfig, 0x80), (Instr.memStatus, 0x81), (Instr.memRelease, 0x82), (Instr.memSpare, 0x83), (Instr.memTrain,
     0x84), (Instr.clkSet, 0x90), (Instr.clkStatus, 0x91), (Instr.tbsRef, 0x92), (Instr.tbsStatus, 0x93), (Instr.tbsAck,
     0x94), (Instr.timeSet, 0x95), (Instr.ppsOut, 0x96), (Instr.pstateSet, 0xE0), (Instr.pstateStatus, 0xE1),
     (Instr.watchConfig, 0xE2), (Instr.disMode, 0xA0), (Instr.disLayer, 0xA1), (Instr.disFlip, 0xA2), (Instr.disLut, 0xA3),
     (Instr.disCrc, 0xA4), (Instr.disStatus, 0xA5), (Instr.mcvConfig, 0xB0), (Instr.mcvSeq, 0xB1), (Instr.mcvInject, 0xB2),
     (Instr.mcvCal, 0xB3), (Instr.mcvDac, 0xB4), (Instr.mcvStatus, 0xB5), (Instr.snapFire, 0xC0), (Instr.snapRead, 0xC1),
     (Instr.errRead, 0xC2), (Instr.errAck, 0xC3), (Instr.errInject, 0xC4)] : List ((Packet → Instr) × Nat)).all
      (fun e => (e.1 (tPk e.2 [])).wf && !(e.1 (tPk 0xFF [])).wf) = true := by decide +kernel

/-- A register write comes from a master that is assigned (R27). -/
theorem test_masters_refused :
    ([Instr.jinRunWrite, Instr.jinClrCounters, Instr.sysrefIssueGo, Instr.cspiGo, Instr.dfuCorrCommitGo,
     Instr.dfuSyncGoWrite, Instr.trgCommitGo, Instr.trgClrCounters, Instr.timRunWrite, Instr.timClrCounters,
     Instr.capClrCounters, Instr.glbOffAccessClear, Instr.hifClrCounters, Instr.lockForceWrite, Instr.mbxClrCounters,
     Instr.dmaClrCounters, Instr.cmpClrCounters, Instr.tbsModeWrite, Instr.tbsClrCounters, Instr.pmuClrCounters,
     Instr.softReset, Instr.disScanoutEnable, Instr.disClrCounters, Instr.disModeCommitGo, Instr.disLayerCommitGo,
     Instr.disAuxGo, Instr.mcvEnWrite, Instr.mcvStartWrite, Instr.mcvInjGo, Instr.mcvCalGo, Instr.mcvClrCounters,
     Instr.mcvResPop, Instr.errAckWrite, Instr.errClrCounters, Instr.shfFireWrite, Instr.shfRearmWrite] : List (Nat → Word → Instr)).all
      (fun f => [0, 0x12, 0x24, 0xA0, 0xBF, 0xC8].all (fun m => !(f m 0#32).wf) && [1, 0x11, 0x20, 0x23, 0x40, 0x9F, 0xC0, 0xC7].all (fun m => (f m 0#32).wf)) =
      true := by decide +kernel

/-- Lanes, links, filter units, blocks, temperatures and CSPI bytes that do not exist. -/
theorem test_intake_terms_refused :
    ([.cspiTransferDone (List.replicate 33 0#8), .laneLockLoss 24 .cdr, .jinBlockArrival 24 ⟨true, false, true,
     List.replicate 8 0#8, 0⟩, .jinBlockArrival 0 ⟨true, false, true, List.replicate 7 0#8, 0⟩, .linkRelock 12, .jinRelease
     12, .dfuOutput 12 0, .dfuOutput 0 3, .anchorUpdate 12, .resamplerCycleStart 12, .resamplerCoast 12, .dfuTempUpdate
     65536, .dfuClrCounters 0 0 0#32, .dfuClrCounters 1 12 0#32, .periodReportArrival 8, .laneTestEnd (List.replicate 25 0)
     0] : List Instr).all (fun i => !i.wf) = true ∧
    ([.cspiTransferDone (List.replicate 32 0#8), .laneLockLoss 23 .cdr, .jinBlockArrival 23 ⟨true, false, true,
     List.replicate 8 0#8, 0⟩, .linkRelock 11, .jinRelease 11, .dfuOutput 11 2, .dfuTempUpdate 65535, .dfuClrCounters 1 11
     0#32, .periodReportArrival 7, .laneTestEnd (List.replicate 24 0) 0] : List Instr).all Instr.wf = true := by decide +kernel

/-- Hearts, topnotes, inputs, measurement units, sources and stores that do not exist. -/
theorem test_measuring_terms_refused :
    ([.heartTimerExpiry 4, .topnoteTimeout 64, .baseValueArrival (List.replicate 31 0#8), .logicEdge 65 0 true, .edgeAccept
     65, .timLossResume 65, .storeGapEnd 96, .tdcCalSwap ⟨2 ^ 65, none, none⟩, .tdcCalSwap ⟨0, some 65, none⟩, .tdcCalSwap
     ⟨0, none, some 64⟩, .measGateClose 16, .timResPop 16 1 0#32, .timResPop 0 0 0#32, .granuleDrain 80 ⟨[], 0⟩] : List Instr).all (fun i => !i.wf) = true ∧
    ([.heartTimerExpiry 3, .topnoteTimeout 63, .baseValueArrival (List.replicate 32 0#8), .edgeAccept 64, .storeGapEnd 95,
     .tdcCalSwap ⟨2 ^ 65 - 1, some 0x50, some 0x8F⟩, .granuleDrain 79 ⟨[], 1⟩, .measGateClose 15, .timResPop 15 1 0#32] : List Instr).all Instr.wf = true := by decide +kernel

/-- Barns, engines, jobs, maps and groups that do not exist. -/
theorem test_engine_terms_refused :
    ([.engClrCounters 1 12 0#32, .engClrCounters 0 0 0#32, .liveWindowReady 65536, .flickerTick 65536, .jobDispatch 96,
     .jobSeal 96, .engineWatchdog 96, .unfenceSelfTestDone 96 true, .jobCommit 12 false, .spareActivate 12,
     .commitUnitError 12 true, .engineFault 96 1, .engineFault 0 0, .engineFault 0 4, .mapEnableWrite 1 16 0#32,
     .mapEnableWrite 0 0 0#32, .finisherMemberTimeout 4096 1 0, .finisherMemberTimeout 0 0 0, .finisherMemberTimeout 0 16
     0, .aggregationTick 4096 1 0, .aggregationTick 0 0 0, .aggregationTick 0 16 0, .aggregationTick 0 1 3, .mapEpochFinal
     16, .mapClearStart 16, .mapPassComplete 16] : List Instr).all (fun i => !i.wf) = true ∧
    ([.jobDispatch 95, .spareActivate 11, .engineFault 95 3, .mapEnableWrite 1 15 0#32, .finisherMemberTimeout 4095 15 0,
     .aggregationTick 4095 15 2, .mapPassComplete 15] : List Instr).all Instr.wf = true := by decide +kernel

/-- Functions, queues, tags, entries, addresses, vectors and locks that do not exist. -/
theorem test_host_terms_refused :
    ([.doorbellSqTail 17 0 0#32, .doorbellSqTail 0 512 0#32, .doorbellCqHead 17 0 0#32, .doorbellCqHead 0 512 0#32,
     .aqEnable 17 0#32, .eventDelivery 17, .bar2Access 17 0 4 none, .functionReset 17, .msixVectorUnmask 17 0 true,
     .commandFetch (.entry [0#32]), .commandFetch (.cqFail 512), .commandFetch (.ctxParity 4096), .fenceStart 512 0,
     .fenceStart 0 4096, .commandTimeout 0 4096, .regPollSample 512 0, .irqTimeExpiry 512, .bar0HostWrite 17 0 0#32,
     .bar0HostWrite 0 16777216 0#32, .bar0HostWrite 0 2 0#32, .registerWrite 0 0 0#32 false, .registerWrite 1 16777216 0#32
     false, .registerWrite 1 1 0#32 false, .registerWrite 0x12 0 0#32 true, .registerWrite 1 1048576 0#32 true,
     .latchingRead 0 0 false, .latchingRead 1 3 false, .latchingRead 0x20 0 true, .latchingRead 1 1048576 true,
     .lockTryRead 0 0 [], .lockTryRead 1 64 [], .lockTryRead 1 0 [(0, none)], .lockTryWrite 0 0 0#32, .lockTryWrite 1 64
     0#32, .vfEnable 17, .pcieLinkUp 0 1 0 0 0, .pcieLinkUp 6 1 0 0 0, .pcieLinkUp 1 3 0 0 0, .pcieLinkRetrain 1 16,
     .jtagInstruction 256 none, .ccHang 4] : List Instr).all (fun i => !i.wf) = true ∧
    ([.doorbellSqTail 16 511 0#32, .commandFetch (.entry (List.replicate 16 0#32)), .commandFetch .sqError, .commandFetch
     (.cqFail 511), .commandFetch (.ctxParity 4095), .fenceStart 511 4095, .bar0HostWrite 16 16777212 0#32, .registerWrite
     0x9F 16777212 0#32 false, .registerWrite 0x11 1048572 0#32 true, .latchingRead 0x11 1048572 true, .lockTryRead 1 63
     [(0x20, none)], .pcieLinkUp 5 8 0 0 0, .jtagInstruction 255 none, .vfEnable 16, .ccHang 3] : List Instr).all Instr.wf = true := by decide +kernel

/-- Mailbox sets, messages, channels, groups and descriptors that do not exist. -/
theorem test_mailbox_and_dma_terms_refused :
    ([.mailboxStageWrite 0 0 true 0 0#32, .mailboxStageWrite 1 32 true 0 0#32, .mailboxStageWrite 1 0 true 4 0#32,
     .mailboxPush 0 0 true (List.replicate 4 0#32), .mailboxPush 1 32 true (List.replicate 4 0#32), .mailboxPush 1 0 true
     (List.replicate 3 0#32), .mailboxPop 1 32 0#32, .doorbellSet 1 32 true 0#32, .doorbellClear 0 0 true 0#32,
     .doorbellMaskWrite 1 32 true 0#32, .hostServicePop 32, .mailboxCross 32, .dmaDescriptorFetch 128 (List.replicate 64
     0#8), .dmaDescriptorFetch 0 [], .dmaRingPoll 128 (List.replicate 64 0#8), .dmaRingPoll 0 [], .dmaTransferRelease 128,
     .dmaReadFail 128 .data, .dmaTransferComplete 128, .dmaBurst 8 [] false, .cmpJobEnd 8, .cmpListExhausted 8,
     .cmpEngineFault 8, .cmpBlockBoundary 8, .cmpSuspendExpiry 65536] : List Instr).all (fun i => !i.wf) = true ∧
    ([.mailboxStageWrite 1 31 true 3 0#32, .mailboxPush 1 31 true (List.replicate 4 0#32), .mailboxPop 1 31 0#32,
     .hostServicePop 31, .dmaDescriptorFetch 127 (List.replicate 64 0#8), .dmaBurst 7 [] false, .cmpBlockBoundary 7] : List Instr).all Instr.wf = true := by decide +kernel

/-- Channels, training steps, ranks, populations, ports and PLLs that do not exist. -/
theorem test_memory_and_clock_terms_refused :
    ([.memClrCounters 0 0 0#32, .memClrCounters 1 8 0#32, .trnGo 0 0 0#32, .trnGo 1 8 0#32, .trnStepDone 8 0, .trnStepDone 0
     (2 ^ 80), .trainingStepTimeout 8 0 0, .trainingStepTimeout 0 16 0, .trainingStepTimeout 0 0 8, .dramTrainingDone ⟨3,
     1, false, 0, false, 0⟩, .dramTrainingDone ⟨1, 5, false, 0, false, 0⟩, .dramRead 0 5 0 .ok, .rankMigrationDone 8,
     .caAutoRelease 8, .selfRefreshExit 8 true, .driftRecentre 8, .refreshSlotDue 8 0 true, .refreshSlotDue 0 8 true,
     .mr4Poll 8 0 0, .mr4Poll 0 8 0, .mr4Poll 0 0 8, .spdHubPoll 8 0 none, .spdHubPoll 0 2 none, .writeAgeExpiry 8 0,
     .writeAgeExpiry 0 2, .caParityAlert 8 [] 0 0, .caParityAlert 0 [] 0 8, .glideStep 2, .pllLockLoss 3, .pllRelock 3,
     .tempSample 65536] : List Instr).all (fun i => !i.wf) = true ∧
    ([.memClrCounters 1 7 0#32, .trnStepDone 7 (2 ^ 80 - 1), .trainingStepTimeout 7 15 7, .dramTrainingDone ⟨2, 4, false, 0,
     false, 0⟩, .dramRead 0 4 0 .ok, .mr4Poll 7 7 7, .spdHubPoll 7 1 none, .writeAgeExpiry 7 1, .glideStep 1, .pllRelock 2] : List Instr).all Instr.wf = true := by decide +kernel

/-- Layers, palette entries and replies that do not exist, and a rundown without a subcycle. -/
theorem test_display_terms_refused :
    ([.disLutSwap 0 0 0#32, .disLutSwap 1 3 0#32, .disLutDataWrite 0 0 0#32, .disLutDataWrite 1 1024 0#32, .auxTransferDone
     0 (List.replicate 17 0#8), .mcvRundownDone [] false] : List Instr).all (fun i => !i.wf) = true ∧
    ([.disLutSwap 1 2 0#32, .disLutDataWrite 1 1023 0#32, .auxTransferDone 0 (List.replicate 16 0#8), .mcvRundownDone [(0,
     0)] false] : List Instr).all Instr.wf = true := by decide +kernel

/-! ### Published values -/

/-- The digest of "abc" that FIPS 180-4 gives for SHA-384. -/
theorem test_sha384_abc :
    bigNat (sha384 [0x61, 0x62, 0x63]) =
      0xCB00753F45A35E8BB5A03D699AC65007272C32AB0EDED1631A8B605A43FF5BED8086072BA1E7CC2358BAECA134C825A7 := by decide +kernel

end Sys2Proof.Tests
end

section
/-!
SUPPORT. Edges, top-note timeouts, base values and the heart's ticks make no decision by themselves: they put it in the pipeline
to placement (R116), so that they keep DRAM too, which Laws/CanonTim.lean, CanonTrgOps.lean and CanonTrg.lean leave out.
-/

namespace Sys2Proof.Machine

variable {rq : Kept}

/-! ### Edges (R162 to R164) -/

theorem edgeDeliver_good (s : State) (n : Nat) (e : TEdge) (hs : s.Good rq) : (edgeDeliver s n e).Good rq := by
  unfold edgeDeliver
  have h1 : (s.bump (F_TIM_IN_EDGES_COUNT n)).Good rq := State.bump_canon _ hs
  exact muEdges_canon _ _ _ _ _ (fpEdges_canon _ _ _ _ _ (groupQueue_canon _ _ _ _ _ _ (storeEdge_canon _ _ _ _ _
    (canon_ite (notesEdge_canon _ _ _ _ _ h1) h1))))

theorem edgeOut_good (s : State) (n : Nat) (e : TEdge) (hs : s.Good rq) : (edgeOut s n e).Good rq := by
  unfold edgeOut
  have h1 := edgeDeliver_good _ n e (chutePush_canon _ n (deliverAt s n e) (setLevel_canon s n e.level hs))
  exact canon_ite (notesPattern_canon _ _ _ h1) h1

theorem edgesOut_good (n : Nat) (es : List TEdge) (s : State) (hs : s.Good rq) : (edgesOut n es s).1.Good rq := by
  induction es generalizing s with
  | nil => exact hs
  | cons e es ih => exact canon_ite1 hs (ih _ (edgeOut_good s n e hs))

theorem lossBegin_good (s : State) (n ts : Nat) (hs : s.Good rq) : (lossBegin s n ts).Good rq := by
  unfold lossBegin
  exact lossOpen_canon _ _ _ _ (edgesOut_good _ _ _ (State.modIn_canon _ _ _ hs))

theorem edgeAccept_good (s : State) (e : TEdge) (hs : s.Good rq) : (edgeAccept s e).Good rq := by
  unfold edgeAccept
  have delivered : ∀ (full ok : List Nat), (ok.foldl (fun t i => edgeDeliver t i (edgeHead s e i))
      (ok.foldl (fun t i => chutePush ((setLevel t i (edgeHead s e i).level).modIn i (fun y => { y with pend := y.pend.drop 1 }))
        i (deliverAt s i (edgeHead s e i)))
        (full.foldl (fun t i => lossOpen (t.modIn i (fun y => { y with pend := [] })) i e.ts (t.tin i).pend.length) s))).Good rq :=
    fun _ _ => canon_foldl (fun t i ht => edgeDeliver_good t i _ ht)
      (canon_foldl (fun t i ht => chutePush_canon _ _ _ (State.modIn_canon _ _ _ (setLevel_canon t i _ ht)))
        (canon_foldl (fun t i ht => lossOpen_canon _ _ _ _ (State.modIn_canon t i _ ht)) hs))
  exact canon_ite (notesPattern_canon _ _ _ (delivered _ _)) (delivered _ _)

theorem execEdgeAccept_good (n : Nat) (s : State) (hs : s.Good rq) : OutGood rq (execEdgeAccept n s) := by
  unfold execEdgeAccept
  split
  · exact canon_next hs
  · split
    · exact canon_next hs
    · exact canon_next (edgeAccept_good s _ hs)

theorem execLogicEdge_good (n ball : Nat) (level : Bool) (s : State) (hs : s.Good rq) :
    OutGood rq (execLogicEdge n ball level s) := by
  have h0 : (rawLevel s n level).Good rq := rawLevel_canon s n level hs
  have hf : ((rawLevel s n level).takeBits 1).2.Good rq := State.takeBits_canon 1 h0
  have h2 : (if edgeNarrow s n ball then ((rawLevel s n level).takeBits 1).2 else rawLevel s n level).Good rq := canon_ite hf h0
  unfold execLogicEdge
  refine canon_iteO (canon_next hs) (canon_iteO (canon_next h0) (canon_iteO (canon_next hs) ?_))
  refine canon_iteO (canon_next h0) (canon_iteO (canon_next (State.bump_canon _ (State.modIn_canon _ _ _ h0))) ?_)
  exact canon_iteO (canon_next (pulseDrop_canon _ _ hf))
    (canon_iteO (canon_next (lossBegin_good _ _ _ h2)) (canon_next (edgeEnter_canon _ _ _ _ _ h2)))

/-! ### Timeouts of top notes (R102 to R104) -/

theorem timeFires_good (s : State) (n t : Nat) (hs : s.Good rq) : (timeFires s n t).Good rq := by
  unfold timeFires
  have h1 := State.modNote_canon s n (fun x => { x with up := x.up.map (fun m => { m with fired := true }) }) hs
  exact directAll_canon _ _ _ (noteEvents_canon _ _ _ _ (canon_ite (State.wr_canon _ _ h1) h1))

theorem execTopnoteTimeout_good (n : Nat) (s : State) (hs : s.Good rq) : OutGood rq (execTopnoteTimeout n s) := by
  unfold execTopnoteTimeout
  dsimp only
  split
  · exact canon_next hs
  · exact canon_iteO (canon_next hs) (canon_next (timeFires_good _ _ _ (timeoutAsk_canon _ _ hs)))

/-! ### Base values (R131 to R139) -/

theorem bnOutcome_good (s : State) (i tE flags : Nat) (hs : s.Good rq) : (bnOutcome s i tE flags).Good rq := by
  unfold bnOutcome
  have h2 := heartEvent_canon (s.bump (F_BN_COUNT_COUNT i)) (0x80 + i) tE flags none true (State.bump_canon _ hs)
  exact canon_ite h2 (pipePut_canon _ _ _ _ h2)

theorem bnEval_good (s : State) (i : Nat) (r : BnRec) (init late : Bool) (hs : s.Good rq) : (bnEval s i r init late).Good rq := by
  unfold bnEval
  have h0 := State.wrTs_canon (R_BN_WEND_W i 0) r.wend
    (State.wrs_canon [(F_BN_STATE_ENGINE i, r.engine), (F_BN_VALUE_VALUE i, r.value)] hs)
  have h2 : ∀ l g, ((((s.wrs [(F_BN_STATE_ENGINE i, r.engine), (F_BN_VALUE_VALUE i, r.value)]).wrTs (R_BN_WEND_W i 0) r.wend).wrs
      l).modBn i g).Good rq := fun l g => State.modBn_canon _ _ _ (State.wrs_canon l h0)
  exact canon_ite (State.modBn_canon _ _ _ (bnQuiet_canon _ _ h0))
    (canon_ite (bnOutcome_good _ _ _ _ (h2 _ _)) (canon_ite (bnOutcome_good _ _ _ _ (h2 _ _)) (h2 _ _)))

theorem bnArrive_good (s : State) (r : BnRec) (hs : s.Good rq) : (bnArrive s r).Good rq := by
  unfold bnArrive
  have h1 : ∀ (g h : BNote → BNote), ((s.modBn r.bn g).modBn r.bn h).Good rq :=
    fun g h => State.modBn_canon _ _ _ (State.modBn_canon _ _ _ hs)
  have h2 : ∀ (late : Bool) (t : State), t.Good rq → (if late then
      (if (s.bn r.bn).lateRaised then t.bump (F_BN_LATE_COUNT r.bn)
        else ((t.bump (F_BN_LATE_COUNT r.bn)).modBn r.bn (fun z => { z with lateRaised := true })).raiseAt r.wend 6 0x05 0 (resIndex r.bn) 0)
      else t).Good rq := fun _ t ht => canon_ite (canon_ite (State.bump_canon _ ht)
        (State.raiseAt_canon _ _ _ _ _ _ _ _ (State.modBn_canon _ _ _ (State.bump_canon _ ht)))) ht
  refine canon_ite (State.raiseAt_canon _ _ _ _ _ _ _ _ (State.modBn_canon _ _ _ (State.bump_canon _ hs))) ?_
  refine canon_ite (State.bump_canon _ (State.modBn_canon _ _ _ hs)) ?_
  exact canon_ite (State.modBn_canon _ _ _ (State.bump_canon _ (h2 _ _ (h1 _ _)))) (bnEval_good _ _ _ _ _ (h2 _ _ (h1 _ _)))

theorem execBaseValueArrival_good (rec : List Byte) (s : State) (hs : s.Good rq) : OutGood rq (execBaseValueArrival rec s) :=
  canon_iteO (canon_next hs) (canon_next (trgRefresh_canon _ (bnArrive_good s _ hs)))

/-! ### The heart's ticks (R108, R110 to R112) -/

theorem heartStep_good (s : State) (hs : s.Good rq) : (heartStep s).Good rq := by
  unfold heartStep
  have h1 : ∀ (g : Trg → Trg) (t : Nat), (heartStatus (qualRun ((if s.trg.resetAt.any (fun r => decide (r ≤ s.trg.tick * half)) then
      heartReset s (s.trg.tick * half) else s).modTrg g)) t).Good rq := fun g t =>
    heartStatus_canon _ t (qualRun_canon _ (State.modTrg_canon _ g (canon_ite (heartReset_canon s _ hs) hs)))
  dsimp only
  split
  · exact h1 _ _
  · have acted := fun g t h b => heartActions_canon _ h b t (h1 g t)
    have asked := fun g t h b act ts => outRequest_canon _ act ts (acted g t h b)
    refine heartStatus_canon _ _ (heartEnter_canon _ _ _ (canon_ite (pipePut_canon _ _ _ _ ?out) ?out))
    exact canon_ite (canon_ite (asked _ _ _ _ _ _) (canon_ite (asked _ _ _ _ _ _) (canon_ite (asked _ _ _ _ _ _) (acted _ _ _ _))))
      (acted _ _ _ _)

theorem execHeartTick_good (s : State) (hs : s.Good rq) : OutGood rq (execHeartTick s) :=
  canon_iteO (canon_next hs) (canon_next (trgRefresh_canon _ (heartStep_good s hs)))

end Sys2Proof.Machine
end

section
/-!
SUPPORT. What every command keeps, once for all commands, from the lemma about each command's meaning.
-/

namespace Sys2Proof.Machine

variable {rq : Kept}

/-- A command keeps what is stored canonical, the queue, and what Safety.lean names beside: Containment unless it may reset the
device, DRAM unless it may store, time unless it may move it, privileges unless it is CTX_PRIV. -/
theorem exec_good (i : Instr) (s : State) (hk : mayReset i = true → rq.cont = false) (hd : mayStore i = true → rq.mem = none)
    (ht : mayMoveTime i = true → rq.time = none) (hp : isCtxPriv i = true → rq.privs = none) (hs : s.Good rq) :
    OutGood rq (exec i s) := by
  cases i with
  | nop p => exact execNop_canon p s hs
  | deviceInfo p => exact execDeviceInfo_canon p s hs
  | queueCreate p => exact execQueueCreate_canon p s hs
  | queueDelete p => exact execQueueDelete_canon p s hs
  | eventRoute p => exact execEventRoute_canon p s hs
  | abortCmd p => exact execAbortCmd_canon p s hs
  | patchLoad p => exact execPatchLoad_canon p s hs
  | patchApply => exact execPatchApply_canon s hs
  | patchStatus p => exact execPatchStatus_canon p s hs
  | ctxOpen p => exact execCtxOpen_canon p s hs
  | ctxClose p => exact execCtxClose_canon p s (hd rfl) hs
  | ctxPriv p => exact execCtxPriv_canon p s (hp rfl) hs
  | ctxQuota p => exact execCtxQuota_canon p s hs
  | contractRequest p => exact execContractRequest_canon p s hs
  | contractModify p => exact execContractModify_canon p s hs
  | contractRelease p => exact execContractRelease_canon p s hs
  | contractStatus p => exact execContractStatus_canon p s hs
  | budgetQuery p => exact execBudgetQuery_canon p s hs
  | admissionRerun => exact execAdmissionRerun_canon s (hd rfl) hs
  | intakeConfig p => exact execIntakeConfig_canon p s hs
  | intakeLink p => exact execIntakeLink_canon p s hs
  | intakeStart p => exact execIntakeStart_canon p s hs
  | intakeStop p => exact execIntakeStop_canon p s hs
  | intakeStatus p => exact execIntakeStatus_canon p s hs
  | sysrefSet p => exact execSysrefSet_canon p s hs
  | laneTest p => exact execLaneTest_canon p s hs
  | cspiXfer p => exact execCspiXfer_canon p s hs
  | cspiTransferDone miso => exact execCspiTransferDone_canon miso s hs
  | jinRunWrite m v => exact execJinRunWrite_canon m v s hs
  | jinClrCounters m v => exact execJinClrCounters_canon m v s hs
  | sysrefIssueGo m v => exact execSysrefIssueGo_canon m v s hs
  | cspiGo m v => exact execCspiGo_canon m v s hs
  | sysrefLaunch => exact execSysrefLaunch_canon s hs
  | sysrefPulseCheck => exact execSysrefPulseCheck_canon s hs
  | laneLockLoss lane what => exact execLaneLockLoss_canon lane what s hs
  | jinBlockArrival lane blk => exact execJinBlockArrival_canon lane blk s hs
  | linkRelock k => exact execLinkRelock_canon k s hs
  | jinRelease k => exact execJinRelease_canon k s hs
  | dfuOutput u parity => exact execDfuOutput_canon u parity s (hd rfl) hs
  | anchorUpdate u => exact execAnchorUpdate_canon u s hs
  | dfuTempUpdate t => exact execDfuTempUpdate_canon t s hs
  | dfuMode p => exact execDfuMode_canon p s hs
  | dfuCorr p => exact execDfuCorr_canon p s hs
  | dfuSync p => exact execDfuSync_canon p s hs
  | dfuPreset p => exact execDfuPreset_canon p s hs
  | resampleCfg p => exact execResampleCfg_canon p s hs
  | dfuStatus p => exact execDfuStatus_canon p s hs
  | dfuAnchor p => exact execDfuAnchor_canon p s hs
  | dfuCorrCommitGo m v => exact execDfuCorrCommitGo_canon m v s hs
  | corrApply => exact execCorrApply_canon s hs
  | dfuSyncGoWrite m v => exact execDfuSyncGoWrite_canon m v s hs
  | dsyncApply => exact execDsyncApply_canon s hs
  | dfuClrCounters m u v => exact execDfuClrCounters_canon m u v s hs
  | periodReportArrival f => exact execPeriodReportArrival_canon f s hs
  | resamplerCycleStart u => exact execResamplerCycleStart_canon u s hs
  | resamplerCoast u => exact execResamplerCoast_canon u s hs
  | trigArm p => exact execTrigArm_canon p s hs
  | armTakeEffect => exact execArmTakeEffect_canon s (hd rfl) hs
  | trigDisarm p => exact execTrigDisarm_canon p s (hd rfl) hs
  | trigForce p => exact execTrigForce_canon p s (hd rfl) hs
  | topnoteSet p => exact execTopnoteSet_canon p s hs
  | heartSet p => exact execHeartSet_canon p s hs
  | heartLimits p => exact execHeartLimits_canon p s hs
  | trigRoute p => exact execTrigRoute_canon p s hs
  | trigOutSet p => exact execTrigOutSet_canon p s hs
  | trgCommitGo m v => exact execTrgCommitGo_canon m v s hs
  | trgShadowApply => exact execTrgShadowApply_canon s hs
  | trgClrCounters m v => exact execTrgClrCounters_canon m v s hs
  | heartTick => exact execHeartTick_good s hs
  | heartTimerExpiry k => exact execHeartTimerExpiry_canon k s hs
  | topnoteTimeout n => exact execTopnoteTimeout_good n s hs
  | trigOutLaunch => exact execTrigOutLaunch_canon s hs
  | trigOutPulseEnd => exact execTrigOutPulseEnd_canon s hs
  | baseValueArrival rec => exact execBaseValueArrival_good rec s hs
  | baseSet p => exact execBaseSet_canon p s hs
  | placeSet p => exact execPlaceSet_canon p s hs
  | placeStatus p => exact execPlaceStatus_canon p s hs
  | baseStatus p => exact execBaseStatus_canon p s hs
  | segmentHandoff => exact execSegmentHandoff_canon s (hd rfl) hs
  | logicEdge n ball level => exact execLogicEdge_good n ball level s hs
  | edgeAccept n => exact execEdgeAccept_good n s hs
  | timLossResume n => exact execTimLossResume_canon n s hs
  | storeGapEnd src => exact execStoreGapEnd_canon src s hs
  | transitionRecordHandoff => exact execTransitionRecordHandoff_canon s (hd rfl) hs
  | tdcCalSwap report => exact execTdcCalSwap_canon report s hs
  | measGateClose u => exact execMeasGateClose_canon u s hs
  | timResPop u m v => exact execTimResPop_canon u m v s hs
  | timRunWrite m v => exact execTimRunWrite_canon m v s hs
  | timClrCounters m v => exact execTimClrCounters_canon m v s hs
  | capConfig p => exact execCapConfig_canon p s (hd rfl) hs
  | capStatus p => exact execCapStatus_canon p s hs
  | claimCmd p => exact execClaimCmd_canon p s (hd rfl) hs
  | claimRelease p => exact execClaimRelease_canon p s (hd rfl) hs
  | segInfo p => exact execSegInfo_canon p s hs
  | claimRead p => exact execClaimRead_canon p s (hd rfl) hs
  | siloLocate p => exact execSiloLocate_canon p s hs
  | capRebuild p => exact execCapRebuild_canon p s (hd rfl) hs
  | capAutoRebuild => exact execCapAutoRebuild_canon s (hd rfl) hs
  | granuleDrain id check => exact execGranuleDrain_canon id check s (hd rfl) hs
  | gapNoneHeartbeat => exact execGapNoneHeartbeat_canon s (hd rfl) hs
  | capClrCounters m v => exact execCapClrCounters_canon m v s hs
  | chainLoad p => exact execChainLoad_canon p s hs
  | chainUnload p => exact execChainUnload_canon p s hs
  | chainStart p => exact execChainStart_canon p s hs
  | chainRun p => exact execChainRun_canon p s hs
  | chainStatus p => exact execChainStatus_canon p s hs
  | engStatus p => exact execEngStatus_canon p s hs
  | engUnfence p => exact execEngUnfence_canon p s hs
  | engGuard p => exact execEngGuard_canon p s hs
  | engClrCounters m b v => exact execEngClrCounters_canon m b v s hs
  | liveWindowReady id => exact execLiveWindowReady_canon id s hs
  | jobDispatch n => exact execJobDispatch_canon n s hs
  | jobSeal n => exact execJobSeal_canon n s (hd rfl) hs
  | jobCommit b bad => exact execJobCommit_canon b bad s (hd rfl) hs
  | engineWatchdog n => exact execEngineWatchdog_canon n s (hd rfl) hs
  | engineFault n typ => exact execEngineFault_canon n typ s (hd rfl) hs
  | spareActivate b => exact execSpareActivate_canon b s hs
  | commitUnitError b ok => exact execCommitUnitError_canon b ok s (hd rfl) hs
  | pqLoad p => exact execPqLoad_canon p s hs
  | pqClock p => exact execPqClock_canon p s hs
  | mapSet p => exact execMapSet_canon p s (hd rfl) hs
  | mapClear p => exact execMapClear_canon p s (hd rfl) hs
  | mapStatus p => exact execMapStatus_canon p s hs
  | pqStatus p => exact execPqStatus_canon p s hs
  | mapEnableWrite m k v => exact execMapEnableWrite_canon m k v s (hd rfl) hs
  | finisherRecord => exact execFinisherRecord_canon s (hd rfl) hs
  | finisherMemberTimeout ctx g w => exact execFinisherMemberTimeout_canon ctx g w s hs
  | aggregationTick ctx g ival => exact execAggregationTick_canon ctx g ival s (hd rfl) hs
  | flickerTick id => exact execFlickerTick_canon id s (hd rfl) hs
  | mapEpochFinal k => exact execMapEpochFinal_canon k s (hd rfl) hs
  | mapClearStart k => exact execMapClearStart_canon k s (hd rfl) hs
  | doorbellSqTail f ix v => exact execDoorbellSqTail_canon f ix v s hs
  | doorbellCqHead f ix v => exact execDoorbellCqHead_canon f ix v s hs
  | aqEnable f v => exact execAqEnable_canon f v s hs
  | commandFetch r => exact execCommandFetch_canon r s (hd rfl) hs
  | fenceStart q t => exact execFenceStart_canon q t s hs
  | irqTimeExpiry q => exact execIrqTimeExpiry_canon q s hs
  | eventDelivery f => exact execEventDelivery_canon f s hs
  | bar0HostWrite f a v => exact execBar0HostWrite_canon f a v s (hk rfl) (hd rfl) hs
  | bar2Access f ofs n data => exact execBar2Access_canon f ofs n data s (hd rfl) hs
  | regRead p => exact execRegRead_canon p s hs
  | regWrite p => exact execRegWrite_canon p s (hk rfl) (hd rfl) hs
  | regRmw p => exact execRegRmw_canon p s (hk rfl) (hd rfl) hs
  | regPoll p => exact execRegPoll_canon p s hs
  | registerWrite m a v bar4 => exact execRegisterWrite_canon m a v bar4 s (hk rfl) (hd rfl) hs
  | latchingRead m a bar4 => exact execLatchingRead_canon m a bar4 s hs
  | glbOffAccessClear m v => exact execGlbOffAccessClear_canon m v s hs
  | hifClrCounters m v => exact execHifClrCounters_canon m v s hs
  | lockTryRead m n others => exact execLockTryRead_canon m n others s hs
  | lockTryWrite m n v => exact execLockTryWrite_canon m n v s hs
  | lockForceWrite m v => exact execLockForceWrite_canon m v s hs
  | mailboxStageWrite m ix inbound j v => exact execMailboxStageWrite_canon m ix inbound j v s hs
  | mailboxPush m ix inbound ws => exact execMailboxPush_canon m ix inbound ws s hs
  | mailboxPop m ix v => exact execMailboxPop_canon m ix v s hs
  | doorbellSet m ix toF v => exact execDoorbellSet_canon m ix toF v s hs
  | doorbellClear m ix toF v => exact execDoorbellClear_canon m ix toF v s hs
  | doorbellMaskWrite m ix toF v => exact execDoorbellMaskWrite_canon m ix toF v s hs
  | mbxClrCounters m v => exact execMbxClrCounters_canon m v s hs
  | hostServicePop ix => exact execHostServicePop_canon ix s hs
  | mailboxCross ix => exact execMailboxCross_canon ix s hs
  | dmaChanOpen p => exact execDmaChanOpen_canon p s hs
  | dmaChanClose p => exact execDmaChanClose_canon p s (hd rfl) hs
  | dmaRingSet p => exact execDmaRingSet_canon p s hs
  | dmaStart p => exact execDmaStart_canon p s (hd rfl) hs
  | dmaHalt p => exact execDmaHalt_canon p s hs
  | dmaStatus p => exact execDmaStatus_canon p s hs
  | dmaCopy p => exact execDmaCopy_canon p s hs
  | dmaClrCounters m v => exact execDmaClrCounters_canon m v s hs
  | dmaDescriptorFetch c bytes => exact execDmaDescriptorFetch_canon c bytes s hs
  | dmaRingPoll c bytes => exact execDmaRingPoll_canon c bytes s hs
  | dmaTransferRelease c => exact execDmaTransferRelease_canon c s hs
  | dmaBurst g data ue => exact execDmaBurst_canon g data ue s (hd rfl) hs
  | dmaReadFail c what => exact execDmaReadFail_canon c what s hs
  | dmaTransferComplete c => exact execDmaTransferComplete_canon c s (hd rfl) hs
  | cmpJob p => exact execCmpJob_canon p s hs
  | cmpResume p => exact execCmpResume_canon p s hs
  | cmpAbort p => exact execCmpAbort_canon p s hs
  | cmpStatus p => exact execCmpStatus_canon p s hs
  | cmpClrCounters m v => exact execCmpClrCounters_canon m v s hs
  | cmpJobEnd e => exact execCmpJobEnd_canon e s (hd rfl) hs
  | cmpListExhausted e => exact execCmpListExhausted_canon e s (hd rfl) hs
  | cmpSuspendExpiry id => exact execCmpSuspendExpiry_canon id s hs
  | cmpEngineFault e => exact execCmpEngineFault_canon e s hs
  | memConfig p => exact execMemConfig_canon p s hs
  | memStatus p => exact execMemStatus_canon p s hs
  | memRelease p => exact execMemRelease_canon p s hs
  | memSpare p => exact execMemSpare_canon p s (hd rfl) hs
  | memTrain p => exact execMemTrain_canon p s hs
  | memClrCounters m c v => exact execMemClrCounters_canon m c v s hs
  | trnGo m c v => exact execTrnGo_canon m c v s hs
  | trnStepDone c lanes => exact execTrnStepDone_canon c lanes s hs
  | trainingStepTimeout c step rank => exact execTrainingStepTimeout_canon c step rank s hs
  | dramTrainingDone found => exact execDramTrainingDone_canon found s (hd rfl) hs
  | dramInitRegion => exact execDramInitRegion_canon s hs
  | dramRead addr port ns res => exact execDramRead_canon addr port ns res s (hd rfl) hs
  | rankMigrationDone c => exact execRankMigrationDone_canon c s hs
  | scrubRead res => exact execScrubRead_canon res s (hd rfl) hs
  | refreshSlotDue c p busy => exact execRefreshSlotDue_canon c p busy s hs
  | mr4Poll c p ind => exact execMr4Poll_canon c p ind s hs
  | spdHubPoll c d t => exact execSpdHubPoll_canon c d t s hs
  | writeAgeExpiry c sc => exact execWriteAgeExpiry_canon c sc s hs
  | caParityAlert c cmds index rank => exact execCaParityAlert_canon c cmds index rank s hs
  | caAutoRelease c => exact execCaAutoRelease_canon c s hs
  | selfRefreshExit c ok => exact execSelfRefreshExit_canon c ok s (hd rfl) hs
  | driftRecentre c => exact execDriftRecentre_canon c s hs
  | clkSet p => exact execClkSet_canon p s hs
  | clkStatus p => exact execClkStatus_canon p s hs
  | glideStep p => exact execGlideStep_canon p s hs
  | pllLockLoss p => exact execPllLockLoss_canon p s hs
  | pllRelock p => exact execPllRelock_canon p s hs
  | mpllLockLoss => exact execMpllLockLoss_canon s hs
  | mpllReacquire => exact execMpllReacquire_canon s hs
  | aclkLoss => exact execAclkLoss_canon s hs
  | avsWriteTimeout => exact execAvsWriteTimeout_canon s hs
  | tempSample t => exact execTempSample_canon t s hs
  | throttleStep => exact execThrottleStep_canon s hs
  | throttleRelease => exact execThrottleRelease_canon s hs
  | undervolt => exact execUndervolt_canon s hs
  | tbsRef p => exact execTbsRef_canon p s hs
  | tbsStatus p => exact execTbsStatus_canon p s hs
  | tbsAck p => exact execTbsAck_canon p s hs
  | timeSet p => exact execTimeSet_canon p s (ht rfl) hs
  | ppsOut p => exact execPpsOut_canon p s hs
  | tbsModeWrite m v => exact execTbsModeWrite_canon m v s hs
  | tbsClrCounters m v => exact execTbsClrCounters_canon m v s hs
  | pmuClrCounters m v => exact execPmuClrCounters_canon m v s hs
  | ppsInEdge ts => exact execPpsInEdge_canon ts s (ht rfl) hs
  | timeStepApply => exact execTimeStepApply_canon s (hd rfl) (ht rfl) hs
  | ref10mGate dev => exact execRef10mGate_canon dev s hs
  | refQualified pps => exact execRefQualified_canon pps s hs
  | refLoss pps => exact execRefLoss_canon pps s hs
  | slewComplete => exact execSlewComplete_canon s hs
  | ppsOutPulse => exact execPpsOutPulse_canon s hs
  | alarmFire sheaf => exact execAlarmFire_canon sheaf s (hd rfl) hs
  | wakeNAssert => exact execWakeNAssert_canon s (hd rfl) hs
  | restHostlinkReturn => exact execRestHostlinkReturn_canon s hs
  | pstateSet p => exact execPstateSet_canon p s (hd rfl) hs
  | pstateStatus p => exact execPstateStatus_canon p s hs
  | watchConfig p => exact execWatchConfig_canon p s hs
  | restToWatch => exact execRestToWatch_canon s (hd rfl) hs
  | watchToRecord => exact execWatchToRecord_canon s (hd rfl) hs
  | flushCatchupDone => exact execFlushCatchupDone_canon s (hd rfl) hs
  | recordToWatch => exact execRecordToWatch_canon s (hd rfl) hs
  | watchToRest => exact execWatchToRest_canon s (hd rfl) hs
  | powerOnReset testEn resetN => exact execPowerOnReset_canon testEn resetN s (hk rfl) (hd rfl) (ht rfl) hs
  | startupCmdReady => exact execStartupCmdReady_canon s hs
  | pinReset => exact execPinReset_canon s (hk rfl) (hd rfl) (ht rfl) hs
  | softReset m v => exact execSoftReset_canon m v s (hk rfl) (hd rfl) hs
  | linkReset => exact execLinkReset_canon s (hd rfl) hs
  | functionReset f => exact execFunctionReset_canon f s (hd rfl) hs
  | railLoss => exact execRailLoss_canon s (hk rfl) (hd rfl) (ht rfl) hs
  | disMode p => exact execDisMode_canon p s hs
  | disLayer p => exact execDisLayer_canon p s hs
  | disFlip p => exact execDisFlip_canon p s hs
  | disLut p => exact execDisLut_canon p s hs
  | disCrc p => exact execDisCrc_canon p s hs
  | disStatus p => exact execDisStatus_canon p s hs
  | disScanoutEnable m v => exact execDisScanoutEnable_canon m v s hs
  | disClrCounters m v => exact execDisClrCounters_canon m v s hs
  | disModeCommitGo m v => exact execDisModeCommitGo_canon m v s hs
  | disLayerCommitGo m v => exact execDisLayerCommitGo_canon m v s hs
  | disLutSwap m k v => exact execDisLutSwap_canon m k v s hs
  | disLutDataWrite m ix v => exact execDisLutDataWrite_canon m ix v s hs
  | disAuxGo m v => exact execDisAuxGo_canon m v s hs
  | auxTransferDone reply data => exact execAuxTransferDone_canon reply data s hs
  | frameLatch => exact execFrameLatch_canon s hs
  | frameStart missing ue => exact execFrameStart_canon missing ue s hs
  | disLinkTraining ok => exact execDisLinkTraining_canon ok s hs
  | hpdLoss => exact execHpdLoss_canon s hs
  | irqHpd lost => exact execIrqHpd_canon lost s hs
  | hpdRise => exact execHpdRise_canon s hs
  | mcvConfig p => exact execMcvConfig_canon p s hs
  | mcvSeq p => exact execMcvSeq_canon p s hs
  | mcvInject p => exact execMcvInject_canon p s hs
  | mcvCal p => exact execMcvCal_canon p s hs
  | mcvDac p => exact execMcvDac_canon p s hs
  | mcvStatus p => exact execMcvStatus_canon p s hs
  | mcvEnWrite m v => exact execMcvEnWrite_canon m v s hs
  | mcvStartWrite m v => exact execMcvStartWrite_canon m v s hs
  | mcvInjGo m v => exact execMcvInjGo_canon m v s hs
  | mcvCalGo m v => exact execMcvCalGo_canon m v s hs
  | mcvClrCounters m v => exact execMcvClrCounters_canon m v s hs
  | mcvResPop m v => exact execMcvResPop_canon m v s hs
  | mcvInjAt => exact execMcvInjAt_canon s hs
  | mcvDwellEnd bad => exact execMcvDwellEnd_canon bad s hs
  | mcvSpanEnd => exact execMcvSpanEnd_canon s hs
  | mcvRundownDone sub overload => exact execMcvRundownDone_canon sub overload s hs
  | mcvAbandon => exact execMcvAbandon_canon s hs
  | mcvCoast => exact execMcvCoast_canon s hs
  | mcvCalPeriod => exact execMcvCalPeriod_canon s hs
  | snapFire p => exact execSnapFire_canon p s hs
  | snapRead p => exact execSnapRead_canon p s hs
  | errRead p => exact execErrRead_canon p s hs
  | errAck p => exact execErrAck_canon p s hs
  | errInject p => exact execErrInject_canon p s hs
  | errAckWrite m v => exact execErrAckWrite_canon m v s hs
  | errClrCounters m v => exact execErrClrCounters_canon m v s hs
  | errRecordDrain ue => exact execErrRecordDrain_canon ue s hs
  | ccHang core => exact execCcHang_canon core s hs
  | shfFireWrite m v => exact execShfFireWrite_canon m v s hs
  | shfRearmWrite m v => exact execShfRearmWrite_canon m v s hs
  | snapInEdge level => exact execSnapInEdge_canon level s hs
  | sheafLatch => exact execSheafLatch_canon s hs
  | pcieLinkUp speed width mps mrrs bar2 => exact execPcieLinkUp_canon speed width mps mrrs bar2 s hs
  | pcieLinkRetrain speed width => exact execPcieLinkRetrain_canon speed width s hs
  | vfEnable n => exact execVfEnable_canon n s (hd rfl) hs
  | msixVectorUnmask f v mask => exact execMsixVectorUnmask_canon f v mask s hs
  | resetNRelease testEn => exact execResetNRelease_canon testEn s hs
  | jtagInstruction code cells => exact execJtagInstruction_canon code cells s (hd rfl) hs
  | commandTimeout q t => exact execCommandTimeout_canon q t s (hd rfl) hs
  | regPollSample q t => exact execRegPollSample_canon q t s hs
  | laneTestEnd errs unlocked => exact execLaneTestEnd_canon errs unlocked s hs
  | unfenceSelfTestDone n ok => exact execUnfenceSelfTestDone_canon n ok s hs
  | mapPassComplete k => exact execMapPassComplete_canon k s hs
  | cmpBlockBoundary e => exact execCmpBlockBoundary_canon e s (hd rfl) hs

/-- What a command keeps, of the state that follows it. -/
theorem exec_next_good {i : Instr} {s t : State} (hk : mayReset i = true → rq.cont = false) (hd : mayStore i = true → rq.mem = none)
    (ht : mayMoveTime i = true → rq.time = none) (hp : isCtxPriv i = true → rq.privs = none) (hs : s.Good rq)
    (he : exec i s = .next t) : t.Good rq := by
  have h := exec_good i s hk hd ht hp hs
  rwa [he] at h

/-- A sound state is one that keeps its queue, and of Containment and DRAM what is asked. -/
theorem State.Sound.good {s : State} (h : s.Sound) (cont : Bool) (mem : Option (List Host.Cell)) (hc : cont = true → s.err.contained = true)
    (hm : ∀ d, mem = some d → s.dram = d) : s.Good ⟨s.pending, cont, mem, none, none⟩ :=
  ⟨h.canon.regs, h.canon.eff, h.canon.dram, h.canon.host, rfl, hc, ⟨h.whole, .inl rfl⟩, h.chutes, h.log, hm,
    (fun _ e => nomatch e), h.canon.sram⟩

/-! ### Containment and DRAM -/

/-- Settles O57: every command but those that may reset keeps Containment. -/
theorem containmentLasts : Obligations.ContainmentLasts := by
  intro i s t hs hi hc he
  have h := exec_next_good (fun e => absurd (hi.symm.trans e) Bool.false_ne_true) (fun _ => rfl) (fun _ => rfl) (fun _ => rfl)
    (hs.good true none (fun _ => hc) (fun _ e => nomatch e)) he
  exact h.cont rfl

/-- Settles O58: every command but those that may store keeps the whole of DRAM, so each byte reads as before. -/
theorem otherRowsLeaveDramAlone : Obligations.OtherRowsLeaveDramAlone := by
  intro i s t hs hi he a
  have h := exec_next_good (fun _ => rfl) (fun e => absurd (hi.symm.trans e) Bool.false_ne_true) (fun _ => rfl) (fun _ => rfl)
    (hs.good false (some s.dram) (fun e => nomatch e) (fun _ e => Option.some.inj e)) he
  simp only [State.dramRead, h.same _ rfl]

end Sys2Proof.Machine
end

section
/-!
SUPPORT. The state after reset.
-/

namespace Sys2Proof.Machine

theorem State.reset_sound : State.reset.Sound :=
  ⟨⟨rfl, rfl, rfl, rfl, rfl⟩, rfl, by decide, rfl⟩

theorem State.reset_shaped : State.reset.Shaped :=
  ⟨rfl, rfl, rfl, rfl, rfl, rfl, rfl, rfl, rfl, rfl, rfl⟩

/-- After reset context 0 holds the four privileges (R274). -/
theorem State.reset_hasPriv : ∀ b, b < 4 → State.reset.hasPriv 0 b = true := by decide

/-- After reset the PF's quota of pairs is that of R275. -/
theorem State.reset_quota : State.reset.rd (F_HIF_F_QUOTA_QP 0) = 512 := by decide

/-- Settles O55: the invariants by their parts, and each value as State.reset holds it. -/
theorem resetIsSound : Obligations.ResetIsSound :=
  ⟨State.reset_sound, State.reset_shaped, rfl, by decide, rfl, rfl, rfl, by decide, rfl, State.reset_hasPriv, State.reset_quota⟩

end Sys2Proof.Machine
end

section
/-!
SUPPORT. What resets, the arrival of the host and the test access port change and what they leave.
-/

namespace Sys2Proof.Machine

/-! ### Operations that touch registers, pins and clocks only -/

/-- The second state is the first but for registers, pins and the clock block. -/
def State.ShownAs (s t : State) : Prop := ∃ regs pins clk, t = { s with regs := regs, pins := pins, clk := clk }

namespace State.ShownAs

theorem refl (s : State) : s.ShownAs s := ⟨s.regs, s.pins, s.clk, rfl⟩

theorem trans {s t u : State} (h : s.ShownAs t) (h' : t.ShownAs u) : s.ShownAs u := by
  obtain ⟨_, _, _, rfl⟩ := h
  obtain ⟨r, p, c, rfl⟩ := h'
  exact ⟨r, p, c, rfl⟩

theorem setReg (s : State) (a : Nat) (v : Word) : s.ShownAs (s.setReg a v) := ⟨_, _, _, rfl⟩

theorem wr (s : State) (f : Fld) (v : Nat) : s.ShownAs (s.wr f v) := ⟨_, _, _, rfl⟩

theorem modClk (s : State) (g : Clk → Clk) : s.ShownAs (s.modClk g) := ⟨_, _, _, rfl⟩

theorem crefPin (s : State) : s.ShownAs (crefPin s) := ⟨_, _, _, rfl⟩

theorem wrs (s : State) (l : List (Fld × Nat)) : s.ShownAs (s.wrs l) := by
  induction l generalizing s with
  | nil => exact refl s
  | cons c l ih => exact (wr s c.1 c.2).trans (ih _)

theorem setWords (s : State) (a : Nat) (ws : List Word) : s.ShownAs (s.setWords a ws) := by
  induction ws generalizing s a with
  | nil => exact refl s
  | cons w ws ih => exact (setReg s a w).trans (ih _ _)

theorem foldl {α : Type} {f : State → α → State} (hf : ∀ (t : State) (x : α), t.ShownAs (f t x)) (l : List α) (s : State) :
    s.ShownAs (l.foldl f s) := by
  induction l generalizing s with
  | nil => exact refl s
  | cons x l ih => exact (hf s x).trans (ih _)

theorem setDom (s : State) (d : Dom) (v : Nat) : s.ShownAs (s.setDom d v) := by
  unfold State.setDom
  split <;> exact wr _ _ _

theorem ppsPin (s : State) : s.ShownAs (ppsPin s) := by
  unfold Machine.ppsPin
  split
  · exact refl s
  · exact ⟨_, _, _, rfl⟩

theorem ite {s a b : State} {c : Prop} [Decidable c] (ha : s.ShownAs a) (hb : s.ShownAs b) : s.ShownAs (if c then a else b) := by
  split <;> assumption

theorem setKhz (s : State) (p khz : Nat) : s.ShownAs (setKhz s p khz) := by
  have h := (modClk s (fun c => if p = 0 then { c with fkhz := khz } else { c with mkhz := khz })).trans
    (wr _ (F_CKG_P_FREQ_KHZ p) khz)
  unfold Machine.setKhz
  dsimp only
  cases bandOf _ p (khz / 1000) with
  | none => exact h
  | some i => exact ite h (h.trans (wrs _ _))

theorem hostAccess (s : State) : s.ShownAs (hostAccess s) := by
  have h := modClk s (fun c => { c with access := s.up })
  unfold Machine.hostAccess
  dsimp only
  split
  · exact h.trans (((setDom _ _ _).trans (wr _ _ _)).trans ((wr _ _ _).trans (setKhz _ _ _)))
  · exact h

theorem arrived (m : Nat) (s : State) : s.ShownAs (arrived m s) := by
  unfold Machine.arrived
  split
  · exact hostAccess s
  · exact refl s

theorem softFatal (s t : State) : t.ShownAs (softFatal s t) := by
  unfold Machine.softFatal
  split
  · split
    · exact setWords _ _ _
    · exact refl t
  · exact refl t

theorem softChannels (s t : State) : t.ShownAs (softChannels s t) := by
  unfold Machine.softChannels
  split
  · exact (wr t _ _).trans (foldl (fun u c => (wr u _ _).trans (foldl (fun _ _ => wrs _ _) _ _)) _ _)
  · exact refl t

theorem softReset (s : State) : (softBase s).ShownAs (softReset s) :=
  ((((((setReg _ _ _).trans (wrs _ _)).trans (softFatal s _)).trans (softChannels s _)).trans (crefPin _)).trans (ppsPin _))

end State.ShownAs

/-! ### Writes of registers -/

/-- A master's write that reaches its block has its effect on the state that the write finds. -/
theorem State.writeBy_of_reaches {m a : Nat} {s : State} (f : State → State) (h : reaches m a s = true) :
    s.writeBy m a f = f (arrived m s) := by
  unfold reaches at h
  unfold State.writeBy State.gated arrived at *
  by_cases hm : isHost m = true
  · simp only [hm, if_true, Bool.and_eq_true, bne_iff_ne, ne_eq] at h ⊢
    simp [h]
  · simp only [hm, if_false, Bool.and_eq_true, bne_iff_ne, ne_eq, Bool.not_eq_true', Bool.false_eq_true] at h ⊢
    simp [h]

/-! ### A DRAM that has trained (R409) -/

/-- The registers that an access of the host in Rest may change: the domains, the link's state, FPLL's state and frequency (R31). -/
def hostAccessRegs : List Nat :=
  [R_PMU_DOM_LO, R_PMU_DOM_HI, F_HIF_STATUS_L1_2.addr, (F_CKG_P_STATUS_STATE 0).addr, (F_CKG_P_FREQ_KHZ 0).addr]

theorem State.rd_wrs_other (s : State) (l : List (Fld × Nat)) {g : Fld} (h : ∀ c ∈ l, g.addr ≠ c.1.addr) :
    (s.wrs l).rd g = s.rd g := by
  induction l generalizing s with
  | nil => rfl
  | cons c l ih =>
    exact (ih _ (fun d hd => h d (List.mem_cons_of_mem _ hd))).trans (State.rd_wr_other s c.2 (h c List.mem_cons_self))

theorem State.rd_ite {a b : State} {g : Fld} {x : Nat} {c : Prop} [Decidable c] (ha : a.rd g = x) (hb : b.rd g = x) :
    (if c then a else b).rd g = x := by
  split <;> assumption

theorem State.rd_modClk (s : State) (k : Clk → Clk) (g : Fld) : (s.modClk k).rd g = s.rd g := rfl

theorem State.rd_setDom_other (s : State) (d : Dom) (v : Nat) {g : Fld} (hl : g.addr ≠ R_PMU_DOM_LO) (hh : g.addr ≠ R_PMU_DOM_HI) :
    (s.setDom d v).rd g = s.rd g := by
  unfold State.setDom
  split
  · exact State.rd_wr_other s v hl
  · exact State.rd_wr_other s v hh

theorem setKhz_rd_other (s : State) (khz : Nat) {g : Fld} (hg : g.addr ∉ hostAccessRegs) : (setKhz s 0 khz).rd g = s.rd g := by
  simp only [hostAccessRegs, List.mem_cons, List.not_mem_nil, or_false, not_or] at hg
  obtain ⟨_, _, _, hstate, hfreq⟩ := hg
  have h (k : Clk → Clk) : ((s.modClk k).wr (F_CKG_P_FREQ_KHZ 0) khz).rd g = s.rd g := State.rd_wr_other _ _ hfreq
  unfold setKhz
  dsimp only
  cases bandOf _ 0 (khz / 1000) with
  | none => exact h _
  | some i => exact State.rd_ite (h _) ((State.rd_wrs_other _ _ (by simpa using hstate)).trans (h _))

/-- A field of another register reads as before an access of the host. -/
theorem hostAccess_rd_other (s : State) {g : Fld} (hg : g.addr ∉ hostAccessRegs) : (hostAccess s).rd g = s.rd g := by
  unfold hostAccess
  dsimp only
  split
  · rw [setKhz_rd_other _ _ hg]
    simp only [hostAccessRegs, List.mem_cons, List.not_mem_nil, or_false, not_or] at hg
    obtain ⟨hlo, hhi, hlink, hstate, _⟩ := hg
    unfold hostWake
    rw [State.rd_wr_other _ _ hstate, State.rd_wr_other _ _ hlink, State.rd_setDom_other _ _ _ hlo hhi, State.rd_modClk]
  · exact State.rd_modClk _ _ _

theorem arrived_rd_other (m : Nat) (s : State) {g : Fld} (hg : g.addr ∉ hostAccessRegs) : (arrived m s).rd g = s.rd g := by
  unfold arrived
  split
  · exact hostAccess_rd_other s hg
  · rfl

theorem memStatus_not_hostAccess : ∀ c, c < 8 → (F_MEM_C_STATUS_STATE c).addr ∉ hostAccessRegs := by decide

theorem failMask_arrived (m : Nat) (s : State) : failMask (arrived m s) = failMask s := by
  unfold failMask mcState
  refine List.foldl_rel (r := Eq) rfl (fun c hc v w hvw => ?_)
  rw [hvw, arrived_rd_other m s (memStatus_not_hostAccess c (List.mem_range.mp hc))]

theorem dramTrained_arrived (m : Nat) (s : State) : dramTrained (arrived m s) = dramTrained s := by
  unfold dramTrained
  rw [failMask_arrived]
  obtain ⟨_, _, _, h⟩ := State.ShownAs.arrived m s
  rw [h]

/-! ### Soft reset (R29, R409) -/

theorem softMem_dram_of_trained {s : State} (h : dramTrained s = true) (hp : s.mem.initPtr = none) : (softMem s).2 = s.dram := by
  unfold softMem
  rw [if_pos h, hp]

theorem softMem_dram_of_untrained {s : State} (h : dramTrained s = false) : (softMem s).2 = [] := by
  unfold softMem
  rw [if_neg (by rw [h]; exact Bool.false_ne_true)]

/-- A soft reset that its key lets through (Table 1.20). -/
theorem execSoftReset_of_key {m : Nat} {v : Word} {s : State} (h : reaches m R_GLB_SOFT_RESET s = true)
    (hgo : v.toNat.testBit 0 = true) (hkey : v.toNat / 65536 = 0x9648) :
    exec (.softReset m v) s = .next (softReset (arrived m s)) := by
  show Host.Outcome.next _ = _
  rw [State.writeBy_of_reaches _ h, softResetWrite, hgo, hkey]
  rfl

/-- Without GO or the key the write leaves the state that it finds. -/
theorem execSoftReset_of_no_key {m : Nat} {v : Word} {s : State} (h : reaches m R_GLB_SOFT_RESET s = true)
    (hno : v.toNat.testBit 0 = false ∨ v.toNat / 65536 ≠ 0x9648) : exec (.softReset m v) s = .next (arrived m s) := by
  show Host.Outcome.next _ = _
  rw [State.writeBy_of_reaches _ h, softResetWrite, if_neg]
  rcases hno with hno | hno
  · simp [hno]
  · simp [hno]

/-- What stands after a soft reset, but for registers, pins and clocks (R29, R409). -/
theorem softReset_leaves (s : State) : ∃ t, softReset s = t ∧ t.now = s.now ∧ t.up = s.up ∧ t.err = Err.reset ∧ t.fcp.pairs = [] ∧
    t.fcp.inflight = [] ∧ t.trg = Trg.reset ∧ t.host = s.host ∧ t.pending = s.pending ∧ t.dram = (softMem s).2 := by
  obtain ⟨regs, pins, clk, h⟩ := State.ShownAs.softReset s
  exact ⟨_, h, rfl, rfl, rfl, rfl, rfl, rfl, rfl, rfl, rfl⟩

/-- The soft reset of Table 1.20, as its command leaves it. -/
theorem execSoftReset_leaves {m : Nat} {v : Word} {s : State} (h : reaches m R_GLB_SOFT_RESET s = true)
    (hgo : v.toNat.testBit 0 = true) (hkey : v.toNat / 65536 = 0x9648) :
    ∃ t, exec (.softReset m v) s = .next t ∧ t.now = s.now ∧ t.up = s.up ∧ t.err = Err.reset ∧ t.fcp.pairs = [] ∧
      t.fcp.inflight = [] ∧ t.trg = Trg.reset ∧ t.host = s.host ∧ t.pending = s.pending ∧
      (dramTrained s = true → s.mem.initPtr = none → t.dram = s.dram) ∧ (dramTrained s = false → t.dram = []) := by
  obtain ⟨t, ht, hnow, hup, herr, hpairs, hfl, htrg, hhost, hpend, hdram⟩ := softReset_leaves (arrived m s)
  have htr := dramTrained_arrived m s
  obtain ⟨regs, pins, clk, ha⟩ := State.ShownAs.arrived m s
  rw [ha] at hnow hup hhost hpend
  refine ⟨t, by rw [execSoftReset_of_key h hgo hkey, ht], hnow, hup, herr, hpairs, hfl, htrg, hhost, hpend, fun h1 h2 => ?_, fun h1 => ?_⟩
  · rw [hdram, softMem_dram_of_trained (htr.trans h1) (by rw [ha]; exact h2), ha]
  · rw [hdram, softMem_dram_of_untrained (htr.trans h1)]

/-! ### The other resets, start-up and the test access port -/

theorem execPowerOnReset_leaves (testEn resetN : Bool) (s : State) :
    ∃ t, exec (.powerOnReset testEn resetN) s = .next t ∧ t.regs = [] ∧ t.eff = [] ∧ t.now = 0 ∧ t.up = 0 ∧ t.dram = [] ∧
      t.err = Err.reset ∧ t.cap = Cap.reset ∧ t.clk = Clk.reset ∧ t.pins.released = resetN ∧ t.pins.testEn = testEn ∧ t.host = s.host ∧
      t.pending = s.pending := by
  refine ⟨_, rfl, rfl, rfl, rfl, rfl, rfl, rfl, rfl, rfl, ?_, ?_, rfl, rfl⟩
  · cases resetN <;> rfl
  · cases resetN <;> rfl

theorem execRailLoss_leaves (s : State) :
    ∃ t, exec .railLoss s = .next t ∧ t.regs = [] ∧ t.dram = [] ∧ t.now = 0 ∧ t.pins.released = false ∧ t.pins.suppliesValid = false ∧
      t.pins.snapOut = .z ∧ t.pins.ppsOut = .z ∧ t.pins.trigOut = .z ∧ t.host = s.host ∧ t.pending = s.pending :=
  ⟨_, rfl, rfl, rfl, rfl, rfl, rfl, rfl, rfl, rfl, rfl, rfl⟩

theorem execPinReset_leaves (s : State) :
    ∃ t, exec .pinReset s = .next t ∧ t.reg R_GLB_RESET_CAUSE = causeOr s 1 ∧ t.eff = [] ∧ t.now = 0 ∧ t.pins.resetN = false ∧
      t.pins.released = false ∧ t.err = Err.reset ∧ t.host = s.host ∧ t.pending = s.pending :=
  ⟨_, rfl, State.reg_setReg_same _ _ rfl, rfl, rfl, rfl, rfl, rfl, rfl, rfl⟩

theorem execResetNRelease_high {testEn : Bool} {s : State} (h : s.pins.resetN = true) : exec (.resetNRelease testEn) s = .next s := by
  show execResetNRelease testEn s = _
  rw [execResetNRelease, if_pos h]

theorem execResetNRelease_low {testEn : Bool} {s : State} (h : s.pins.resetN = false) :
    ∃ t, exec (.resetNRelease testEn) s = .next t ∧ t.pins.resetN = true ∧ t.pins.testEn = testEn ∧
      (s.pins.suppliesValid = true → t.pins.released = true) ∧ t.regs = s.regs := by
  have he : exec (.resetNRelease testEn) s = _ := if_neg (by rw [h]; exact Bool.false_ne_true)
  refine ⟨_, he, ?_, ?_, fun hv => ?_, rfl⟩
  · cases hv : s.pins.suppliesValid <;> simp [hv, pinsFree]
  · cases hv : s.pins.suppliesValid <;> simp [hv, pinsFree]
  · simp [hv, pinsFree]

/-- With TEST_EN high start-up does not come to its end (R510). -/
theorem execStartupCmdReady_test {s : State} (h : s.pins.testEn = true) : exec .startupCmdReady s = .next s :=
  if_pos (by simp [h])

theorem execStartupCmdReady_run {s : State} (hr : s.pins.released = true) (hc : s.err.contained = false)
    (hn : s.on F_GLB_STATE_CMD_READY = false) (ht : s.pins.testEn = false) :
    exec .startupCmdReady s = .next (crefPin ((startEnd s).modCon (fun k => { k with pools := poolCaps (startEnd s) }))) :=
  if_neg (by simp [hr, hc, hn, ht])

theorem execLinkReset_held {s : State} (h : s.pins.released = false) : exec .linkReset s = .next s := if_pos (by simp [h])

theorem execLinkReset_released {s : State} (h : s.pins.released = true) :
    exec .linkReset s = .next (admRegs (cmpPower (linkReset s))) := if_neg (by simp [h])

/-- The instructions of Table 19.14 that the register selects; another code selects BYPASS. -/
theorem tapIr_contains (code : Nat) : ([0x00, 0x01, 0x02, 0x04, 0x05].contains code = true) ↔
    (code = 0 ∨ code = 1 ∨ code = 2 ∨ code = 4 ∨ code = 5) := by
  simp

theorem execJtagInstruction_leaves {code : Nat} {s : State} (cells : Option (List Bool)) (h : code ≠ 0x40 ∨ s.pins.testEn = false) :
    ∃ t, exec (.jtagInstruction code cells) s = .next t ∧ t.regs = s.regs ∧
      t.pins.tapIr = (if code = 0 ∨ code = 1 ∨ code = 2 ∨ code = 4 ∨ code = 5 then code else 255) ∧
      (code = 0 ∨ code = 4 ∨ code = 5 → t.dram = [] ∧ t.pins.disturbed = true) ∧
      (code ≠ 0 → code ≠ 4 → code ≠ 5 → t.dram = s.dram) := by
  have hno : ¬ (code = 0x40 ∧ Config.debugLocked = false ∧ s.pins.testEn = true) := by
    rintro ⟨hcode, _, htest⟩
    rcases h with h | h
    · exact h hcode
    · exact Bool.false_ne_true (h.symm.trans htest)
  have he : exec (.jtagInstruction code cells) s = _ := if_neg hno
  simp only [tapIr_contains] at he
  by_cases hard : code = 0 ∨ code = 4 ∨ code = 5
  · refine ⟨_, he.trans (congrArg _ (if_pos ?_)), rfl, rfl, fun _ => ⟨rfl, ?_⟩, fun h0 h4 h5 => ?_⟩
    · rcases hard with rfl | rfl | rfl <;> rfl
    · rcases hard with rfl | rfl | rfl <;> exact Bool.or_true _
    · rcases hard with rfl | rfl | rfl <;> contradiction
  · refine ⟨_, he.trans (congrArg _ (if_neg ?_)), rfl, rfl, fun hc => absurd hc hard, fun _ _ _ => rfl⟩
    split <;> simp_all

/-- Settles O49: each reset leaves what the spec names, whatever cause, key or instruction it is given. -/
theorem resetsLeaveTheStateTheyName : Obligations.ResetsLeaveTheStateTheyName := by
  intro s _
  refine ⟨fun testEn resetN => execPowerOnReset_leaves testEn resetN s, execRailLoss_leaves s, execPinReset_leaves s,
    fun _ => ⟨execResetNRelease_high, execResetNRelease_low⟩,
    fun hr hc hn => ⟨execStartupCmdReady_test, execStartupCmdReady_run hr hc hn⟩,
    fun _ _ h => ⟨execSoftReset_of_no_key h, execSoftReset_leaves h⟩,
    execLinkReset_held, execLinkReset_released, fun _ cells => execJtagInstruction_leaves cells⟩

end Sys2Proof.Machine
end

section
/-!
SUPPORT. What leaves the command protocol's own state as it is: writes of registers, and the operations of CAP, ENG, CMP, DMA, MBX
and ERR that a context's end or a record brings.
-/

namespace Sys2Proof.Machine

/-! ### Choices and lists -/

@[simp] theorem State.fcp_ite {c : Prop} [Decidable c] (a b : State) : (if c then a else b).fcp = if c then a.fcp else b.fcp :=
  apply_ite State.fcp c a b

theorem State.fcp_of_ite {c : Prop} [Decidable c] {a b : State} {x : Fcp} (ha : a.fcp = x) (hb : b.fcp = x) :
    (if c then a else b).fcp = x := by
  split <;> assumption

@[simp] theorem State.fcp_foldl {α : Type} {f : State → α → State} (hf : ∀ (t : State) (x : α), (f t x).fcp = t.fcp) (l : List α)
    (s : State) : (l.foldl f s).fcp = s.fcp := by
  induction l generalizing s with
  | nil => rfl
  | cons x l ih => exact (ih _).trans (hf s x)

/-! ### Parts of blocks -/

@[simp] theorem State.modCs_fcp (s : State) (id : Nat) (g : CStream → CStream) : (s.modCs id g).fcp = s.fcp := rfl
@[simp] theorem State.modChan_fcp (s : State) (c : Nat) (g : Chan → Chan) : (s.modChan c g).fcp = s.fcp := rfl
@[simp] theorem State.modMp_fcp (s : State) (m : Nat) (g : MapSt → MapSt) : (s.modMp m g).fcp = s.fcp := rfl
@[simp] theorem State.modDl_fcp (s : State) (k : Nat) (g : DLayer → DLayer) : (s.modDl k g).fcp = s.fcp := rfl
@[simp] theorem dropCon_fcp (s : State) (ctx : Nat) : (dropCon s ctx).fcp = s.fcp := rfl
@[simp] theorem sramForget_fcp (s : State) (p : Nat → Bool) : (sramForget s p).fcp = s.fcp := rfl
@[simp] theorem chainsPlaced_fcp (s : State) : (chainsPlaced s).fcp = s.fcp := rfl
@[simp] theorem mbxEnable_fcp (s : State) (i : Nat) (b : Bool) : (mbxEnable s i b).fcp = s.fcp := rfl
@[simp] theorem setLock_fcp (s : State) (n m : Nat) : (setLock s n m).fcp = s.fcp := by simp [setLock]
@[simp] theorem setChState_fcp (s : State) (c st : Nat) : (setChState s c st).fcp = s.fcp := rfl
@[simp] theorem mapDisable_fcp (s : State) (m : Nat) : (mapDisable s m).fcp = s.fcp := by simp [mapDisable]
@[simp] theorem disFnReset_fcp (s : State) (f : Nat) : (disFnReset s f).fcp = s.fcp := by simp [disFnReset]
@[simp] theorem mbxRegs_fcp (s : State) (i : Nat) : (mbxRegs s i).fcp = s.fcp := by
  unfold mbxRegs
  rw [State.fcp_foldl (fun t j => by rw [State.wr_fcp, State.wr_fcp]), State.wrs_fcp, State.modSet_fcp]

/-! ### Registers of CMP, CAP, ENG and admission -/

@[simp] theorem cmpRefresh_fcp (s : State) : (cmpRefresh s).fcp = s.fcp := by
  unfold cmpRefresh
  refine (State.fcp_foldl (fun t e => ?_) _ _).trans rfl
  dsimp only
  split <;> exact State.wrs_fcp _ _

@[simp] theorem capSpans_fcp (s : State) : (capSpans s).fcp = s.fcp := by
  unfold capSpans
  rw [State.fcp_foldl (fun t i => by rw [State.wr_fcp, State.wr_fcp]), State.wrs_fcp]

/-! ### Pages and markers (R189, R191) -/

@[simp] theorem State.setPage_fcp (s : State) (p : Nat) (x : Page) : (s.setPage p x).fcp = s.fcp := rfl

@[simp] theorem pinRegs_fcp (s : State) (id : Nat) : (pinRegs s id).fcp = s.fcp := State.wrs_fcp _ _

@[simp] theorem pinPage_fcp (s : State) (p : Nat) : (pinPage s p).fcp = s.fcp := by
  simp [pinPage]

@[simp] theorem unpinPage_fcp (s : State) (p : Nat) : (unpinPage s p).fcp = s.fcp := by
  simp [unpinPage]

@[simp] theorem State.modClaim_fcp (s : State) (id : Nat) (g : CapClaim → CapClaim) : (s.modClaim id g).fcp = s.fcp := by
  unfold State.modClaim
  split <;> rfl

@[simp] theorem notePin_fcp (s : State) (who : Sum Nat Nat) (p : Nat) : (notePin s who p).fcp = s.fcp := by
  cases who with
  | inl id => exact State.modClaim_fcp s id _
  | inr no => rfl

@[simp] theorem pinOpen_fcp (s : State) (p : Nat) : (pinOpen s p).fcp = s.fcp := by
  simp [pinOpen]

@[simp] theorem closePage_fcp (s : State) (id : Nat) (isPartial : Bool) (endTs : Nat) : (closePage s id isPartial endTs).fcp = s.fcp := by
  unfold closePage
  split
  · rfl
  · simp

@[simp] theorem takePage_fcp (s : State) (id pos ts : Nat) : (takePage s id pos ts).fcp = s.fcp := by
  unfold takePage
  split
  · rfl
  · simp

@[simp] theorem siloWrite_fcp (id : Nat) (stale : Bool) (ts n pos : Nat) (bs : List Byte) (s : State) :
    (siloWrite id stale ts n pos bs s).fcp = s.fcp := by
  induction n generalizing pos bs s with
  | zero => rfl
  | succ n ih =>
    simp only [siloWrite]
    refine State.fcp_of_ite rfl ?_
    split
    · exact State.fcp_of_ite rfl ((ih _ _ _).trans (takePage_fcp _ _ _ _))
    · refine (ih _ _ _).trans (State.fcp_of_ite ((closePage_fcp _ _ _ _).trans ?_) ?_) <;>
        exact State.fcp_of_ite (State.setPage_fcp _ _ _) ((State.setPage_fcp _ _ _).trans (State.dramWrite_fcp _ _ _))

@[simp] theorem markNow_fcp (s : State) (m : Marker) : (markNow s m).fcp = s.fcp := by simp [markNow]

@[simp] theorem markWrite_fcp (s : State) (m : Marker) : (markWrite s m).fcp = s.fcp := by simp [markWrite]

/-! ### Records and Containment (R490 to R495) -/

@[simp] theorem State.setWords_fcp (s : State) (a : Nat) (ws : List Word) : (s.setWords a ws).fcp = s.fcp := by
  induction ws generalizing s a with
  | nil => rfl
  | cons w ws ih => exact (ih _ _).trans rfl

@[simp] theorem latchAll_fcp (src : State) (l : List (Nat × Nat × Dom)) (t : State) : (latchAll src l t).fcp = t.fcp := by
  induction l generalizing t with
  | nil => rfl
  | cons c l ih => simp [latchAll, ih]

@[simp] theorem State.setTags_fcp (s : State) (l : List Tag) (b : Nat) : (s.setTags l b).fcp = s.fcp :=
  (State.wr_fcp _ _ _).trans rfl

@[simp] theorem openTag_fcp (s : State) (r : ErrRec) (seq : Option Nat) : (openTag s r seq).fcp = s.fcp := by simp [openTag]

@[simp] theorem containEngines_fcp (s : State) : (containEngines s).fcp = s.fcp := by simp [containEngines]

@[simp] theorem containBlocks_fcp (s : State) : (containBlocks s).fcp = s.fcp := by simp [containBlocks]

end Sys2Proof.Machine
end

section
/-!
SUPPORT. The figures of admission lie above HIF's registers, so a change of the link's capacity leaves what HIF shows.
-/

namespace Sys2Proof.Machine

/-- The second state has the first's pairs, functions and contexts, and its registers below the admission block. -/
def State.HifAs (s t : State) : Prop := t.fcp = s.fcp ∧ ∀ g : Fld, g.addr < 0x021000 → t.rd g = s.rd g

namespace State.HifAs

theorem refl (s : State) : s.HifAs s := ⟨rfl, fun _ _ => rfl⟩

theorem trans {s t u : State} (h : s.HifAs t) (h' : t.HifAs u) : s.HifAs u :=
  ⟨h'.1.trans h.1, fun g hg => (h'.2 g hg).trans (h.2 g hg)⟩

theorem ite {s a b : State} {c : Prop} [Decidable c] (ha : s.HifAs a) (hb : s.HifAs b) : s.HifAs (if c then a else b) := by
  split <;> assumption

theorem foldl {α : Type} {f : State → α → State} (hf : ∀ (t : State) (x : α), t.HifAs (f t x)) (l : List α) (s : State) :
    s.HifAs (l.foldl f s) := by
  induction l generalizing s with
  | nil => exact refl s
  | cons x l ih => exact (hf s x).trans (ih _)

theorem setReg (s : State) {a : Nat} (v : Word) (h : 0x021000 ≤ a) : s.HifAs (s.setReg a v) :=
  ⟨rfl, fun _ hg => State.rd_setReg_other s v (by omega)⟩

theorem wr (s : State) {f : Fld} (v : Nat) (h : 0x021000 ≤ f.addr) : s.HifAs (s.wr f v) :=
  ⟨rfl, fun _ hg => State.rd_wr_other s v (by omega)⟩

theorem wrs (s : State) (l : List (Fld × Nat)) (h : ∀ c ∈ l, 0x021000 ≤ c.1.addr) : s.HifAs (s.wrs l) := by
  induction l generalizing s with
  | nil => exact refl s
  | cons c l ih =>
    exact (wr s c.2 (h c List.mem_cons_self)).trans (ih _ (fun d hd => h d (List.mem_cons_of_mem _ hd)))

theorem setResRates (s : State) : s.HifAs (setResRates s) :=
  foldl (fun t k => wr t _ (by show 0x021000 ≤ 0x100080 + 0x4 * k; omega)) _ s

theorem feedRegs (s : State) (b : Nat) : s.HifAs (feedRegs s b) := by
  refine foldl (fun t i => ?_) _ s
  split
  · exact setReg t 0 (by show 0x021000 ≤ 0x120100 + 0x10000 * b + 0x4 * i; omega)
  · refine wrs t _ ?_
    simp only [List.forall_mem_cons, List.not_mem_nil, false_implies, implies_true, and_true]
    omega

theorem engineRegs (s : State) (b e : Nat) : s.HifAs (engineRegs s b e) := by
  refine wrs s _ ?_
  simp only [List.forall_mem_cons, List.not_mem_nil, false_implies, implies_true, and_true]
  omega

theorem barnRegs (s : State) (b : Nat) : s.HifAs (barnRegs s b) := by
  refine ((wrs s _ ?_).trans (feedRegs _ b)).trans (foldl (fun t e => engineRegs t b e) _ _)
  simp only [List.forall_mem_cons, List.not_mem_nil, false_implies, implies_true, and_true]
  omega

theorem admRegs (s : State) : s.HifAs (admRegs s) := by
  refine (((wrs s _ ?_).trans (foldl (fun t b => wrs t _ ?_) _ _)).trans (setResRates _)).trans (foldl barnRegs _ _)
  · simp only [List.forall_mem_cons, List.not_mem_nil, false_implies, implies_true, and_true]
    omega
  · simp only [List.forall_mem_cons, List.not_mem_nil, false_implies, implies_true, and_true]
    omega

theorem modCon (s : State) (k : Con → Con) : s.HifAs (s.modCon k) := ⟨rfl, fun _ _ => rfl⟩

theorem linkChange (s : State) (was : Nat) : s.HifAs (linkChange s was) := by
  have h := admRegs s
  exact ite (h.trans (modCon _ _)) (ite (h.trans (modCon _ _)) h)

end State.HifAs

/-! ### The link (R29, R295) -/

@[simp] theorem linkChange_fcp (s : State) (was : Nat) : (linkChange s was).fcp = s.fcp := (State.HifAs.linkChange s was).1

theorem linkChange_rd (s : State) (was : Nat) {g : Fld} (h : g.addr < 0x021000) : (linkChange s was).rd g = s.rd g :=
  (State.HifAs.linkChange s was).2 g h

theorem State.modFn_rd (s : State) (v : Nat) (g : Fn → Fn) (f : Fld) : (s.modFn v g).rd f = s.rd f := rfl

theorem State.modFn_pairs (s : State) (v : Nat) (g : Fn → Fn) : (s.modFn v g).fcp.pairs = s.fcp.pairs := rfl

theorem State.modDma_rd (s : State) (g : Dma → Dma) (f : Fld) : (s.modDma g).rd f = s.rd f := rfl

theorem linkWidth_lt {width : Nat} (hw : width ∈ [1, 2, 4, 8]) : width < 16 := by
  simp only [List.mem_cons, List.not_mem_nil, or_false] at hw
  omega

/-- The link's speed and width are those written last, when the rest of the list is of other bits. -/
theorem linkFields_read {s : State} (hs : regsWf s.regs = true) {speed width : Nat} (l : List (Fld × Nat)) (hv : speed ≤ 5)
    (hw : width ∈ [1, 2, 4, 8]) (hl : ∀ c ∈ l, c.1.ok ∧ c.1.apart F_HIF_STATUS_LINK_SPEED ∧ c.1.apart F_HIF_STATUS_LINK_WIDTH) :
    (s.wrs ((F_HIF_STATUS_LINK_SPEED, speed) :: (F_HIF_STATUS_LINK_WIDTH, width) :: l)).rd F_HIF_STATUS_LINK_SPEED = speed ∧
    (s.wrs ((F_HIF_STATUS_LINK_SPEED, speed) :: (F_HIF_STATUS_LINK_WIDTH, width) :: l)).rd F_HIF_STATUS_LINK_WIDTH = width := by
  constructor
  · have hrest : ∀ c ∈ (F_HIF_STATUS_LINK_WIDTH, width) :: l, c.1.ok ∧ c.1.apart F_HIF_STATUS_LINK_SPEED :=
      List.forall_mem_cons.2 ⟨by simp [Fld.ok, Fld.apart], fun c hc => ⟨(hl c hc).1, (hl c hc).2.1⟩⟩
    calc (s.wrs ((F_HIF_STATUS_LINK_SPEED, speed) :: (F_HIF_STATUS_LINK_WIDTH, width) :: l)).rd F_HIF_STATUS_LINK_SPEED
        = speed % 2 ^ 4 := State.rd_wrs_same F_HIF_STATUS_LINK_SPEED speed _ hs (by simp [Fld.ok]) hrest
      _ = speed := Nat.mod_eq_of_lt (by omega)
  · have hrest : ∀ c ∈ l, c.1.ok ∧ c.1.apart F_HIF_STATUS_LINK_WIDTH := fun c hc => ⟨(hl c hc).1, (hl c hc).2.2⟩
    calc (s.wrs ((F_HIF_STATUS_LINK_SPEED, speed) :: (F_HIF_STATUS_LINK_WIDTH, width) :: l)).rd F_HIF_STATUS_LINK_WIDTH
        = width % 2 ^ 4 := State.rd_wrs_same (s := s.wr F_HIF_STATUS_LINK_SPEED speed) F_HIF_STATUS_LINK_WIDTH width l
          (State.regsWf_wr _ _ hs) (by simp [Fld.ok]) hrest
      _ = width := Nat.mod_eq_of_lt (linkWidth_lt hw)

theorem linkCommand_takes {speed width : Nat} (hlo : 1 ≤ speed) (hhi : speed ≤ 5) (hw : width ∈ [1, 2, 4, 8]) :
    (!(decide (1 ≤ speed) && decide (speed ≤ 5)) || !([1, 2, 4, 8].contains width)) = false := by
  rw [List.contains_iff_mem.2 hw, decide_eq_true hlo, decide_eq_true hhi]
  rfl

theorem execPcieLinkUp_shows {s : State} (hs : regsWf s.regs = true) (speed width mps mrrs bar2 : Nat)
    (hr : s.pins.released = true) (hlo : 1 ≤ speed) (hhi : speed ≤ 5) (hw : width ∈ [1, 2, 4, 8]) :
    ∃ t, execPcieLinkUp speed width mps mrrs bar2 s = .next t ∧ t.rd F_HIF_STATUS_LINK_SPEED = speed ∧
      t.rd F_HIF_STATUS_LINK_WIDTH = width ∧ t.rd F_HIF_STATUS_LINK_UP = 1 ∧ t.fcp.pairs = s.fcp.pairs := by
  have hf := linkFields_read hs [(F_HIF_STATUS_LINK_UP, 1), (F_HIF_STATUS_L1_2, 0)] hhi hw (by simp [Fld.ok, Fld.apart])
  have hup : (s.wrs [(F_HIF_STATUS_LINK_SPEED, speed), (F_HIF_STATUS_LINK_WIDTH, width), (F_HIF_STATUS_LINK_UP, 1),
      (F_HIF_STATUS_L1_2, 0)]).rd F_HIF_STATUS_LINK_UP = 1 := by
    simp only [State.wrs]
    rw [State.rd_wr_apart _ (State.regsWf_wr _ _ (State.regsWf_wr _ _ (State.regsWf_wr _ _ hs))) (by simp [Fld.ok])
      (by simp [Fld.apart])]
    exact State.rd_wr_same _ _ (State.regsWf_wr _ _ (State.regsWf_wr _ _ hs)) (by simp [Fld.ok])
  unfold execPcieLinkUp
  rw [Bool.or_assoc, linkCommand_takes hlo hhi hw, hr, Bool.not_true, Bool.or_self, if_neg Bool.false_ne_true]
  refine ⟨_, rfl, ?_⟩
  simp only [linkChange_rd, linkChange_fcp, State.modFn_rd, State.modDma_rd, State.modFn_pairs, State.modDma_fcp, State.wrs_fcp,
    Nat.reduceLT]
  exact ⟨hf.1, hf.2, hup, trivial⟩

theorem execPcieLinkRetrain_shows {s : State} (hs : regsWf s.regs = true) (speed width : Nat)
    (hup : s.on F_HIF_STATUS_LINK_UP = true) (hlo : 1 ≤ speed) (hhi : speed ≤ 5) (hw : width ∈ [1, 2, 4, 8]) :
    ∃ t, execPcieLinkRetrain speed width s = .next t ∧ t.rd F_HIF_STATUS_LINK_SPEED = speed ∧
      t.rd F_HIF_STATUS_LINK_WIDTH = width ∧ t.rd F_HIF_STATUS_LINK_UP = 1 := by
  have hf := linkFields_read hs [] hhi hw (fun _ hc => absurd hc List.not_mem_nil)
  have hone : s.rd F_HIF_STATUS_LINK_UP = 1 := by
    have hbit : s.rd F_HIF_STATUS_LINK_UP < 2 := Nat.mod_lt _ (by decide)
    have hne : s.rd F_HIF_STATUS_LINK_UP ≠ 0 := bne_iff_ne.1 hup
    omega
  have hkept : (s.wrs [(F_HIF_STATUS_LINK_SPEED, speed), (F_HIF_STATUS_LINK_WIDTH, width)]).rd F_HIF_STATUS_LINK_UP = 1 :=
    (State.rd_wrs_apart _ hs (by simp [Fld.ok, Fld.apart])).trans hone
  unfold execPcieLinkRetrain
  rw [Bool.or_assoc, linkCommand_takes hlo hhi hw, hup, Bool.not_true, Bool.or_self, if_neg Bool.false_ne_true]
  refine ⟨_, rfl, ?_⟩
  simp only [linkChange_rd, Nat.reduceLT]
  exact ⟨hf.1, hf.2, hkept⟩

end Sys2Proof.Machine
end

section
/-!
SUPPORT. What the enabling of VFs leaves (R273): each VF's function is enabled, and its base context is open without privileges.
-/

namespace Sys2Proof.Machine

theorem listMod_eq_modify {α : Type} (l : List α) (i : Nat) (f : α → α) : listMod l i f = l.modify i f := by
  induction l generalizing i with
  | nil => cases i <;> rfl
  | cons x xs ih =>
    cases i with
    | zero => rfl
    | succ i => rw [listMod, ih, List.modify_succ_cons]

/-- The base context of a VF when it is enabled (R273). -/
def vfCtx (v : Nat) : Ctx := { id := v, func := v, priv := 0, route := none, mask := 0, broken := false }

theorem vfOn_ctxs (s : State) (v : Nat) : (vfOn s v).fcp.ctxs = s.fcp.ctxs ++ [vfCtx v] := rfl

theorem vfOn_fns (s : State) (v : Nat) :
    (vfOn s v).fcp.fns = s.fcp.fns.modify v (fun _ => { Fn.reset v with enabled := true, regCtx := 0 }) :=
  listMod_eq_modify _ _ _

theorem vfOn_regsWf {s : State} (hs : regsWf s.regs = true) (v : Nat) : regsWf (vfOn s v).regs = true :=
  State.regsWf_wr _ _ (State.regsWf_wr (s := (s.modFn v _).modFcp _) _ _ hs)

theorem vfOn_enabled_same {s : State} {v : Nat} (h : v < s.fcp.fns.length) : ((vfOn s v).fn v).enabled = true := by
  unfold State.fn
  rw [vfOn_fns, List.getD_eq_getElem?_getD, List.getElem?_modify_eq, List.getElem?_eq_getElem h]
  rfl

theorem vfOn_enabled_mono {s : State} {w : Nat} (v : Nat) (h : (s.fn w).enabled = true) : ((vfOn s v).fn w).enabled = true := by
  unfold State.fn at h ⊢
  rw [List.getD_eq_getElem?_getD] at h ⊢
  rw [vfOn_fns, List.getElem?_modify]
  revert h
  cases s.fcp.fns[w]? with
  | none => exact id
  | some x =>
    intro h
    by_cases hv : v = w
    · simp [hv]
    · simpa [hv] using h

theorem foldl_vfOn_ctxs (l : List Nat) (s : State) : (l.foldl vfOn s).fcp.ctxs = s.fcp.ctxs ++ l.map vfCtx := by
  induction l generalizing s with
  | nil => exact (List.append_nil _).symm
  | cons v l ih => rw [List.foldl_cons, ih, vfOn_ctxs, List.append_assoc, List.map_cons, List.singleton_append]

theorem foldl_vfOn_regsWf (l : List Nat) {s : State} (hs : regsWf s.regs = true) : regsWf (l.foldl vfOn s).regs = true := by
  induction l generalizing s with
  | nil => exact hs
  | cons v l ih => exact ih (vfOn_regsWf hs v)

theorem foldl_vfOn_enabled_mono (l : List Nat) {s : State} {w : Nat} (h : (s.fn w).enabled = true) :
    ((l.foldl vfOn s).fn w).enabled = true := by
  induction l generalizing s with
  | nil => exact h
  | cons v l ih => exact ih (vfOn_enabled_mono v h)

theorem foldl_vfOn_enabled {l : List Nat} {s : State} {w : Nat} (hw : w ∈ l) (h : w < s.fcp.fns.length) :
    ((l.foldl vfOn s).fn w).enabled = true := by
  induction l generalizing s with
  | nil => exact absurd hw List.not_mem_nil
  | cons v l ih =>
    rw [List.foldl_cons]
    by_cases hv : w = v
    · subst hv
      exact foldl_vfOn_enabled_mono l (vfOn_enabled_same h)
    · refine ih ((List.mem_cons.1 hw).resolve_left hv) ?_
      rwa [vfOn_fns, List.length_modify]

/-- No VF is switched off when the number asked for is not below the number enabled. -/
theorem vfsOff_eq_nil {n was : Nat} (h : was ≤ n) : (List.range 17).filter (fun v => n < v && v ≤ was) = [] := by
  refine List.filter_eq_nil_iff.2 (fun v _ => ?_)
  simp only [Bool.and_eq_true, decide_eq_true_eq]
  omega

theorem mem_vfsOn {n was v : Nat} (hn : n ≤ 16) (hlo : was < v) (hhi : v ≤ n) :
    v ∈ (List.range 17).filter (fun v => was < v && v ≤ n) := by
  simp only [List.mem_filter, List.mem_range, Bool.and_eq_true, decide_eq_true_eq]
  omega

theorem execVfEnable_opens {s : State} (hs : regsWf s.regs = true) {n : Nat} (hn : n ≤ 16) (hwas : s.rd F_HIF_NUM_VF_VFS ≤ n)
    (hlen : s.fcp.fns.length = 17) :
    ∃ t, execVfEnable n s = .next t ∧ t.rd F_HIF_NUM_VF_VFS = n ∧
      ∀ v, s.rd F_HIF_NUM_VF_VFS < v → v ≤ n → (t.fn v).enabled = true ∧ vfCtx v ∈ t.fcp.ctxs := by
  unfold execVfEnable
  rw [if_neg (by omega)]
  dsimp only
  rw [vfsOff_eq_nil hwas]
  refine ⟨_, rfl, ?_, fun v hlo hhi => ⟨?_, ?_⟩⟩
  · exact (State.rd_wr_same _ _ (foldl_vfOn_regsWf _ hs) (by simp [Fld.ok])).trans (Nat.mod_eq_of_lt (Nat.lt_of_le_of_lt hn (by decide)))
  · exact foldl_vfOn_enabled (mem_vfsOn hn hlo hhi) (by rw [List.foldl_nil, hlen]; omega)
  · have hctxs := foldl_vfOn_ctxs ((List.range 17).filter (fun v => s.rd F_HIF_NUM_VF_VFS < v && v ≤ n)) s
    rw [State.wr_fcp, List.foldl_nil, hctxs]
    exact List.mem_append_right _ (List.mem_map_of_mem (mem_vfsOn hn hlo hhi))

end Sys2Proof.Machine
end

section
/-!
SUPPORT. What the end of pairs, contexts and commands leaves of the pairs' functions and of the open contexts: none is added.
-/

namespace Sys2Proof.Machine

/-- The functions that own a queue pair. -/
def State.pairFuncs (s : State) : List Nat := s.fcp.pairs.map (fun q => q.func)

/-- The open contexts, each with the function that owns it. -/
def State.ctxKeys (s : State) : List (Nat × Nat) := s.fcp.ctxs.map (fun x => (x.id, x.func))

/-- The second state has no owner of a pair and no open context that the first has not. -/
def State.AddsNone (s t : State) : Prop := t.pairFuncs ⊆ s.pairFuncs ∧ t.ctxKeys ⊆ s.ctxKeys

/-- A context is taken from the list of those that are open. -/
def ctxClosed (s : State) (c : Nat) : State := setCtxs s (s.fcp.ctxs.filter (fun x => x.id != c))

theorem ctxClosed_ctxKeys (s : State) (c : Nat) : ∀ k ∈ (ctxClosed s c).ctxKeys, k.1 ≠ c := by
  intro k hk
  obtain ⟨x, hx, rfl⟩ := List.mem_map.1 hk
  exact bne_iff_ne.1 (List.mem_filter.1 hx).2

namespace State.AddsNone

theorem refl (s : State) : s.AddsNone s := ⟨List.Subset.refl _, List.Subset.refl _⟩

theorem trans {s t u : State} (h : s.AddsNone t) (h' : t.AddsNone u) : s.AddsNone u :=
  ⟨List.Subset.trans h'.1 h.1, List.Subset.trans h'.2 h.2⟩

theorem of_parts {s t : State} (hp : t.fcp.pairs = s.fcp.pairs) (hc : t.fcp.ctxs = s.fcp.ctxs) : s.AddsNone t := by
  unfold State.AddsNone State.pairFuncs State.ctxKeys
  rw [hp, hc]
  exact ⟨List.Subset.refl _, List.Subset.refl _⟩

theorem of_fcp {s t : State} (h : t.fcp = s.fcp) : s.AddsNone t := of_parts (congrArg Fcp.pairs h) (congrArg Fcp.ctxs h)

theorem ite {s a b : State} {c : Prop} [Decidable c] (ha : s.AddsNone a) (hb : s.AddsNone b) :
    s.AddsNone (if c then a else b) := by
  split <;> assumption

theorem foldl {α : Type} {f : State → α → State} (hf : ∀ (t : State) (x : α), t.AddsNone (f t x)) (l : List α) (s : State) :
    s.AddsNone (l.foldl f s) := by
  induction l generalizing s with
  | nil => exact refl s
  | cons x l ih => exact (hf s x).trans (ih _)

theorem setErr {s t : State} (h : s.AddsNone t) (e : Err) : s.AddsNone { t with err := e } := h

theorem setClk {s t : State} (h : s.AddsNone t) (c : Clk) : s.AddsNone { t with clk := c } := h

theorem wr (s : State) (f : Fld) (v : Nat) : s.AddsNone (s.wr f v) := of_fcp (State.wr_fcp s f v)

theorem bump (s : State) (f : Fld) : s.AddsNone (s.bump f) := of_fcp (State.bump_fcp s f)

theorem wrTs (s : State) (a t : Nat) : s.AddsNone (s.wrTs a t) := of_fcp (State.wrTs_fcp s a t)

/-! ### Pairs and completions -/

theorem modFn (s : State) (f : Nat) (g : Fn → Fn) : s.AddsNone (s.modFn f g) := of_parts rfl rfl

theorem sendMsix (s : State) (f v : Nat) : s.AddsNone (s.sendMsix f v) := ite (modFn s f _) (of_parts rfl rfl)

theorem modPair (s : State) (q : Nat) {g : QPair → QPair} (hg : ∀ x, (g x).func ∈ s.pairFuncs) : s.AddsNone (s.modPair q g) := by
  refine ⟨fun f hf => ?_, List.Subset.refl _⟩
  obtain ⟨y, hy, rfl⟩ := List.mem_map.1 hf
  obtain ⟨x, hx, rfl⟩ := List.mem_map.1 hy
  split
  · exact hg x
  · exact List.mem_map_of_mem hx

theorem writeCq (s : State) {q : QPair} (urgent : Bool) (entry : Bool → List Word) (hq : q ∈ s.fcp.pairs) :
    s.AddsNone (s.writeCq q urgent entry) := by
  have hpair : ∀ (t : State) (q' : QPair), t.fcp = s.fcp → q'.func = q.func → s.AddsNone (t.modPair q.qid (fun _ => q')) := by
    intro t q' ht hf
    refine (of_fcp ht).trans (modPair t q.qid (fun _ => ?_))
    unfold State.pairFuncs
    rw [hf, ht]
    exact List.mem_map_of_mem hq
  unfold State.writeCq
  dsimp only
  split
  · refine trans ?_ (sendMsix _ _ _)
    exact hpair _ _ rfl rfl
  · exact hpair _ _ rfl rfl

theorem writeReply (s : State) (c : Inflight) (r : Reply) (dup : Bool) : s.AddsNone (s.writeReply c r dup) := by
  unfold State.writeReply
  split
  · exact refl s
  · next q hq => exact ite (refl s) (writeCq s _ _ (List.mem_of_find?_eq_some hq))

theorem setInflight (s : State) (l : List Inflight) : s.AddsNone (s.setInflight l) := of_parts rfl rfl

theorem noteDone (s : State) (c : Inflight) (r : Reply) (dup : Bool) : s.AddsNone (s.noteDone c r dup) := of_parts rfl rfl

theorem finishOne (s : State) (c : Inflight) (r : Reply) (dup : Bool) : s.AddsNone (s.finishOne c r dup) := by
  have h := (setInflight s (if dup then s.fcp.inflight
    else s.fcp.inflight.filter (fun x => !(x.qid == c.qid && x.tag == c.tag && x.discard == c.discard)))).trans (noteDone _ c r dup)
  exact ite h (h.trans (writeReply _ c r dup))

theorem dropPair (s : State) (q : QPair) : s.AddsNone (s.dropPair q) := by
  refine ⟨List.map_subset _ List.filter_sublist.subset, fun k hk => ?_⟩
  obtain ⟨y, hy, rfl⟩ := List.mem_map.1 hk
  obtain ⟨x, hx, rfl⟩ := List.mem_map.1 hy
  refine List.mem_map.2 ⟨x, hx, ?_⟩
  split <;> rfl

theorem drainPairs (s : State) (n : Nat) : s.AddsNone (s.drainPairs n) := by
  induction n generalizing s with
  | zero => exact refl s
  | succ n ih =>
    unfold State.drainPairs
    split
    · exact refl s
    · exact ((dropPair s _).trans (foldl (fun t c => finishOne t c _ false) _ _)).trans (ih _)

theorem finish (s : State) (c : Inflight) (r : Reply) (dup : Bool) : s.AddsNone (s.finish c r dup) :=
  (finishOne s c r dup).trans (drainPairs _ 512)

theorem finishAll (s : State) (test : Inflight → Bool) (r : Reply) : s.AddsNone (s.finishAll test r) :=
  foldl (fun t c => finish t c r false) _ s

theorem wake (s : State) (k : WaitKind) (key : Nat) (r : Reply) : s.AddsNone (s.wake k key r) := finishAll s _ r

theorem wakeKind (s : State) (k : WaitKind) (r : Reply) : s.AddsNone (s.wakeKind k r) := finishAll s _ r

theorem postEvent (s : State) (c code : Nat) (d : List Nat) : s.AddsNone (s.postEvent c code d) := by
  unfold State.postEvent
  exact ite (refl s) (ite (modFn s _ _) ((modFn s _ _).trans (bump _ _)))

/-! ### Mailboxes -/

theorem dbSignal (s : State) (i : Nat) (toF : Bool) (was : Nat) : s.AddsNone (dbSignal s i toF was) :=
  ite (sendMsix s _ _) (refl s)

theorem dbPut (s : State) (i : Nat) (toF : Bool) (v : Nat) : s.AddsNone (dbPut s i toF v) :=
  (of_fcp (State.wrs_fcp s _)).trans (dbSignal _ i toF _)

theorem dbRaise (s : State) (i : Nat) (toF : Bool) (bits : Nat) : s.AddsNone (dbRaise s i toF bits) := dbPut s i toF _

theorem mbxPush (s : State) (i : Nat) (inbound : Bool) (m : Msg) : s.AddsNone (mbxPush s i inbound m) := by
  have refused : ∀ (f g : Fld), s.AddsNone ((s.wr f 1).bump g) := fun f g => (wr s f 1).trans (bump _ g)
  unfold Machine.mbxPush
  refine ite ?_ (ite (refused _ _) (refused _ _))
  exact ((of_fcp (State.modSet_fcp s i _)).trans (dbRaise _ i inbound 1)).trans (of_fcp (mbxRegs_fcp _ i))

theorem mbxFill (s : State) (i n : Nat) : s.AddsNone (mbxFill s i n) := by
  induction n generalizing s with
  | zero => exact of_fcp (mbxRegs_fcp s i)
  | succ n ih =>
    unfold Machine.mbxFill
    dsimp only
    split
    · exact of_fcp (mbxRegs_fcp s i)
    · exact ite (of_fcp (mbxRegs_fcp s i))
        (((of_fcp (State.modSet_fcp s i _)).trans (mbxPush _ i false _)).trans (ih _))

theorem mbxSend (s : State) (i code echo : Nat) (w : List Nat) : s.AddsNone (mbxSend s i code echo w) := by
  unfold Machine.mbxSend
  exact ite ((wr s _ 1).trans (bump _ _)) ((of_fcp (State.modSet_fcp s i _)).trans (mbxFill _ i 16))

theorem mbxTell (s : State) (all : Bool) (code : Nat) (w : List Nat) : s.AddsNone (mbxTell s all code w) :=
  foldl (fun t i => ite (mbxSend t i code 0 w) (refl t)) _ s

theorem mbxFlush (s : State) (i : Nat) : s.AddsNone (mbxFlush s i) := by
  unfold Machine.mbxFlush
  dsimp only
  have raised : ∀ (t : State) (toF c : Bool), s.AddsNone t → s.AddsNone (if c then Machine.dbRaise t i toF 2 else t) :=
    fun t toF c ht => ite (ht.trans (dbRaise t i toF 2)) ht
  refine trans ?_ (of_fcp (mbxRegs_fcp _ i))
  refine raised _ true _ ?_
  refine raised _ false _ ?_
  exact of_fcp (State.modSet_fcp s i _)

/-! ### Records, the Sheaf and Containment -/

theorem sheafCancel (s : State) : s.AddsNone (sheafCancel s) := by
  unfold Machine.sheafCancel
  split
  · exact refl s
  · exact (of_fcp rfl).trans (wake _ _ _ _)

theorem sheafRearm (s : State) : s.AddsNone (sheafRearm s) := (sheafCancel s).trans (of_fcp (State.wrs_fcp _ _))

theorem sheafLatch (s : State) (src tf : Nat) : s.AddsNone (sheafLatch s src tf) := by
  unfold Machine.sheafLatch
  dsimp only
  refine trans ?_ (wake _ _ _ _)
  refine trans ?_ (postEvent _ _ _ _)
  refine of_fcp ?_
  simp only [State.fcp_ite, State.bump_fcp, State.wr_fcp, State.wrTs_fcp, latchAll_fcp, ite_self]

theorem sheafFatal (s : State) : s.AddsNone (sheafFatal s) := by
  have fired : s.AddsNone ((((Machine.sheafCancel s).wr F_SHF_STATUS_LOCKED 1).wr F_SHF_STATUS_SOURCE 6).wrTs (R_SHF_FIRE_W 0) s.now) :=
    (((sheafCancel s).trans (wr _ _ _)).trans (wr _ _ _)).trans (wrTs _ _ _)
  unfold Machine.sheafFatal
  exact (ite (fired.trans (wr _ _ _)) fired).trans (sheafLatch _ _ _)

theorem enterContain (s : State) (r : ErrRec) : s.AddsNone (enterContain s r) := by
  unfold Machine.enterContain
  refine ite (refl s) ?_
  dsimp only
  refine trans ?_ (ite (refl _) ((mbxTell _ _ _ _).trans (postEvent _ _ _ _)))
  refine trans ?_ (of_fcp (State.setWords_fcp _ _ _))
  refine trans ?_ (wakeKind _ _ _)
  refine trans ?_ (wakeKind _ _ _)
  refine setClk ?_ _
  refine trans ?_ (sheafFatal _)
  refine of_fcp ?_
  simp only [State.wr_fcp, State.zeroFields_fcp, containBlocks_fcp]

theorem raiseRec (s : State) (r : ErrRec) : s.AddsNone (s.raiseRec r) := by
  unfold State.raiseRec
  dsimp only
  have raised := bump s (F_ERR_B_COUNTS_RAISED r.blk)
  have hfatal : ∀ (t : State) (r' : ErrRec), s.AddsNone t → s.AddsNone (Machine.enterContain (t.bump F_ERR_FATAL_COUNT_COUNT) r') :=
    fun t r' ht => (ht.trans (bump t _)).trans (enterContain _ r')
  have hlost : ∀ e, s.AddsNone (({ s.bump (F_ERR_B_COUNTS_RAISED r.blk) with err := e }).bump (F_ERR_B_COUNTS_OVF r.blk)) :=
    fun e => (setErr raised e).trans (bump _ _)
  refine ite (setErr raised _) (ite (hfatal _ _ (hlost _)) (ite ?_ (hlost _)))
  split
  · exact hfatal _ _ (hlost _)
  · exact (hlost _).trans (of_fcp (openTag_fcp _ _ _))

theorem raiseAt (s : State) (ts blk typ cls resource detail master : Nat) :
    s.AddsNone (s.raiseAt ts blk typ cls resource detail master) := raiseRec s _

theorem raise (s : State) (blk typ cls resource detail master : Nat) :
    s.AddsNone (s.raise blk typ cls resource detail master) := raiseRec s _

theorem lockForce (s : State) (cause n : Nat) : s.AddsNone (lockForce s cause n) := by
  unfold Machine.lockForce
  refine ite (refl s) ?_
  refine trans (trans (of_fcp ?_) (raise _ _ _ _ _ _ _)) (postEvent _ _ _ _)
  exact (State.bump_fcp _ _).trans ((State.wr_fcp _ _ _).trans (setLock_fcp s n 0))

theorem lockForceOf (s : State) (cause : Nat) (p : Nat → Bool) : s.AddsNone (lockForceOf s cause p) :=
  foldl (fun t n => ite (lockForce t cause n) (refl t)) _ s

/-! ### Claims -/

theorem addMarker (s : State) (kind ts stream aux : Nat) (data : List Byte) : s.AddsNone (addMarker s kind ts stream aux data) := by
  unfold Machine.addMarker
  dsimp only
  have h := of_fcp (State.modCap_fcp s (fun c => { c with marks := c.marks ++ [(ts, kind, stream)] }))
  have lost : ∀ f g, s.AddsNone (((s.modCap f).bump F_CAP_MARK_LOST_COUNT).modCap g) := fun f g =>
    ((of_fcp (State.modCap_fcp s f)).trans (bump _ _)).trans (of_fcp (State.modCap_fcp _ g))
  refine ite (refl s) (ite (h.trans (of_fcp (markWrite_fcp _ _))) (ite (h.trans (of_fcp (State.modCap_fcp _ _))) ?_))
  exact ite ((lost _ _).trans (raiseAt _ _ _ _ _ _ _ _)) (lost _ _)

theorem releaseClaim (s : State) (c : CapClaim) : s.AddsNone (releaseClaim s c).1 := by
  refine trans (trans (of_fcp ?_) (addMarker _ _ _ _ _ _)) (of_fcp (capSpans_fcp _))
  exact (State.dramWrite_fcp _ _ _).trans ((State.modCap_fcp _ _).trans (State.fcp_foldl unpinPage_fcp _ s))

/-! ### Channels, jobs and chains -/

theorem endCopy (s : State) (c : Nat) (st : Status) : s.AddsNone (endCopy s c st) := by
  unfold Machine.endCopy
  split
  · split
    · split
      · exact (of_fcp (State.modChan_fcp s c _)).trans (finish _ _ _ _)
      · exact of_fcp (State.modChan_fcp s c _)
    · exact refl s
  · exact refl s

theorem chanClose (s : State) (c : Nat) : s.AddsNone (chanClose s c) := by
  unfold Machine.chanClose
  refine ((endCopy s c .aborted).trans (trans (of_fcp ?_) (wake _ _ _ _))).trans (wake _ _ _ _)
  exact (State.modChan_fcp _ _ _).trans ((setChState_fcp _ _ _).trans (State.clearRegs_fcp _ _))

theorem jobLeave (s : State) (j : CmpJob) (r : Reply) : s.AddsNone (jobLeave s j r) := by
  have h : s.AddsNone (cmpRefresh (s.modCmp (fun c => { c with jobs := c.jobs.filter (fun x => x.id != j.id) }))) :=
    of_fcp ((cmpRefresh_fcp _).trans (State.modCmp_fcp s _))
  unfold Machine.jobLeave
  dsimp only
  split
  · split
    · exact h.trans (finish _ _ _ _)
    · exact h
  · exact h

theorem cmpDrop (s : State) (ctx : Nat) (st : Status) : s.AddsNone (cmpDrop s ctx st) :=
  (foldl (fun t j => jobLeave t j _) _ s).trans (of_fcp (State.modCmp_fcp _ _))

theorem dmaCloseCtx (s : State) (ctx : Nat) : s.AddsNone (dmaCloseCtx s ctx) :=
  (foldl chanClose _ s).trans (cmpDrop _ ctx .aborted)

theorem setBarn (s : State) (b : Nat) (up : Bool) : s.AddsNone (setBarn s b up) := by
  unfold Machine.setBarn
  refine ite (of_fcp ((mbxEnable_fcp _ _ _).trans (State.setDom_fcp _ _ _))) ?_
  refine trans ?_ (of_fcp (mbxEnable_fcp _ _ _))
  refine trans ?_ (of_fcp (State.setDom_fcp _ _ _))
  refine trans ?_ (of_fcp (sramForget_fcp _ _))
  exact ite ((mbxFlush s (17 + b)).trans (wr _ _ _)) (refl s)

theorem barnPower (s : State) (b : Nat) : s.AddsNone (barnPower s b) := by
  have h := of_fcp (chainsPlaced_fcp s)
  exact ite (h.trans (of_fcp (State.HifAs.barnRegs _ b).1)) ((h.trans (setBarn _ b _)).trans (of_fcp (State.HifAs.barnRegs _ b).1))

theorem chainWakes (s : State) (id : Nat) (runSt : Status) : s.AddsNone (chainWakes s id runSt) :=
  (wake s _ _ _).trans (finishAll _ _ _)

theorem unloadChain (s : State) (id : Nat) (runSt : Status) : s.AddsNone (unloadChain s id runSt) := by
  unfold Machine.unloadChain
  split
  · exact refl s
  · exact ((chainWakes s id runSt).trans (of_fcp ((State.modCon_fcp _ _).trans (State.modEng_fcp _ _)))).trans (barnPower _ _)

theorem unloadCtx (s : State) (ctx : Nat) (runSt : Status) : s.AddsNone (unloadCtx s ctx runSt) :=
  foldl (fun t (c : Chain) => unloadChain t c.id runSt) _ s

theorem conRelease (s : State) (ctx : Nat) : s.AddsNone (conRelease s ctx) :=
  (((unloadCtx s ctx .aborted).trans (dmaCloseCtx _ ctx)).trans (of_fcp (dropCon_fcp _ ctx))).trans (of_fcp (State.HifAs.admRegs _).1)

/-! ### Commands that are aborted -/

theorem withdraw (s : State) (c : Inflight) : s.AddsNone (withdraw s c) := by
  unfold Machine.withdraw
  split
  · exact of_fcp (State.modEng_fcp s _)
  · split
    · exact jobLeave s _ _
    · exact refl s
  · exact of_fcp (State.modClk_fcp s _)
  · exact of_fcp (State.modMcv_fcp s _)
  · exact sheafRearm s
  · exact refl s

theorem endAborted (s : State) (c : Inflight) : s.AddsNone (endAborted s c) := by
  unfold Machine.endAborted
  dsimp only
  split
  · exact (withdraw s c).trans (finish _ _ _ _)
  · exact withdraw s c

theorem endAll (s : State) (test : State → Inflight → Bool) : s.AddsNone (endAll s test) :=
  foldl (fun t c => ite (endAborted t c) (refl t)) _ s

/-! ### Contexts and pairs that close -/

theorem ctxStop (s : State) (c : Nat) : s.AddsNone (ctxStop s c) :=
  (conRelease s c).trans (foldl (fun t m => ite (of_fcp (mapDisable_fcp t m)) (refl t)) _ _)

theorem ctxFree (s : State) (c : Nat) : s.AddsNone (ctxFree s c).1 := by
  unfold Machine.ctxFree
  dsimp only
  exact (foldl releaseClaim _ s).trans (ctxStop _ c)

theorem setCtxs (s : State) {l : List Ctx} (h : ∀ x ∈ l, (x.id, x.func) ∈ s.ctxKeys) : s.AddsNone (setCtxs s l) := by
  refine ⟨List.Subset.refl _, fun k hk => ?_⟩
  obtain ⟨x, hx, rfl⟩ := List.mem_map.1 hk
  exact h x hx

theorem orphan (s : State) (test : Nat → Bool) : s.AddsNone (orphan s test) := of_parts rfl rfl

theorem foldl_dropPair_dropPairs (s : State) (test : QPair → Bool) :
    ((s.fcp.pairs.filter test).foldl (fun t q => t.dropPair q) s).AddsNone (dropPairs s test) := by
  unfold Machine.dropPairs
  dsimp only
  exact (orphan _ _).trans (foldl (fun t c => finish t c _ false) _ _)

theorem ctxClosed_ctxClose (s : State) (c : Nat) (but : Option (Nat × Nat)) :
    (ctxClosed (Machine.endAll (Machine.ctxFree s c).1 (fun _ x => x.ctx == c && but != some (x.qid, x.tag))) c).AddsNone (Machine.ctxClose s c but).1 := by
  unfold Machine.ctxClose
  dsimp only
  exact postEvent _ _ _ _

theorem ctxClose (s : State) (c : Nat) (but : Option (Nat × Nat)) : s.AddsNone (ctxClose s c but).1 := by
  refine trans (trans ((ctxFree s c).trans (endAll _ _)) (setCtxs _ (fun x hx => ?_))) (ctxClosed_ctxClose s c but)
  exact List.mem_map_of_mem (f := fun x : Ctx => (x.id, x.func)) (List.mem_filter.1 hx).1

end State.AddsNone

/-! ### The pairs and contexts that go -/

theorem mem_foldl_dropPair {l : List QPair} {s : State} {x : QPair} (h : x ∈ (l.foldl (fun t q => t.dropPair q) s).fcp.pairs) :
    x ∈ s.fcp.pairs ∧ ∀ q ∈ l, x.qid ≠ q.qid := by
  induction l generalizing s with
  | nil => exact ⟨h, fun _ hq => absurd hq List.not_mem_nil⟩
  | cons p l ih =>
    obtain ⟨hp, hl⟩ := ih h
    have hmem : x ∈ s.fcp.pairs.filter (fun y => y.qid != p.qid) := hp
    obtain ⟨hx, hne⟩ := List.mem_filter.1 hmem
    exact ⟨hx, List.forall_mem_cons.2 ⟨bne_iff_ne.1 hne, hl⟩⟩

/-- No pair of the function whose pairs are dropped remains. -/
theorem dropPairs_pairFuncs (s : State) (f : Nat) : f ∉ (dropPairs s (fun q => q.func == f)).pairFuncs := by
  intro hf
  have hleft : f ∈ ((s.fcp.pairs.filter (fun q => q.func == f)).foldl (fun t q => t.dropPair q) s).pairFuncs :=
    (State.AddsNone.foldl_dropPair_dropPairs s _).1 hf
  obtain ⟨x, hx, hxf⟩ := List.mem_map.1 hleft
  obtain ⟨hs, hne⟩ := mem_foldl_dropPair hx
  exact hne x (List.mem_filter.2 ⟨hs, beq_iff_eq.2 hxf⟩) rfl

/-- A context that was closed is open no more. -/
theorem ctxClose_ctxKeys (s : State) (c : Nat) (but : Option (Nat × Nat)) : ∀ k ∈ (ctxClose s c but).1.ctxKeys, k.1 ≠ c := by
  intro k hk
  exact ctxClosed_ctxKeys _ c k ((State.AddsNone.ctxClosed_ctxClose s c but).2 hk)

/-- What a function's reset does to one of its contexts: a base context is stopped, an opened one closed (R296). -/
def ctxEnd (t : State) (x : Ctx) : State := if x.id ≤ 16 then ctxStop t x.id else (ctxClose t x.id none).1

theorem ctxEnd_addsNone (t : State) (x : Ctx) : t.AddsNone (ctxEnd t x) :=
  State.AddsNone.ite (State.AddsNone.ctxStop t x.id) (State.AddsNone.ctxClose t x.id none)

theorem ctxEnd_ctxKeys {t : State} {x : Ctx} (hx : 16 < x.id) : ∀ k ∈ (ctxEnd t x).ctxKeys, k.1 ≠ x.id := by
  unfold ctxEnd
  rw [if_neg (Nat.not_le.2 hx)]
  exact ctxClose_ctxKeys t x.id none

theorem foldl_ctxEnd_ctxKeys {l : List Ctx} {s : State} {k : Nat × Nat} (h : k ∈ (l.foldl ctxEnd s).ctxKeys) :
    k ∈ s.ctxKeys ∧ ∀ x ∈ l, 16 < x.id → k.1 ≠ x.id := by
  induction l generalizing s with
  | nil => exact ⟨h, fun _ hx => absurd hx List.not_mem_nil⟩
  | cons x l ih =>
    obtain ⟨hk, hl⟩ := ih h
    exact ⟨(ctxEnd_addsNone s x).2 hk, List.forall_mem_cons.2 ⟨fun hx => ctxEnd_ctxKeys hx k hk, hl⟩⟩

/-- Of the contexts of a function, only base contexts outlast the end of all of them. -/
theorem foldl_ctxEnd_base (s : State) (f : Nat) : ∀ k ∈ ((ctxsOf s f).foldl ctxEnd s).ctxKeys, k.2 = f → k.1 ≤ 16 := by
  intro k hk hf
  obtain ⟨hs, hne⟩ := foldl_ctxEnd_ctxKeys hk
  obtain ⟨x, hx, rfl⟩ := List.mem_map.1 hs
  refine Nat.le_of_not_lt (fun hid => ?_)
  exact hne x (List.mem_filter.2 ⟨hx, beq_iff_eq.2 hf⟩) hid rfl

/-- A context that loses its privileges and its route keeps its number and its function. -/
theorem setCtxs_map_addsNone (s : State) {g : Ctx → Ctx} (hid : ∀ x, (g x).id = x.id) (hfunc : ∀ x, (g x).func = x.func) :
    s.AddsNone (setCtxs s (s.fcp.ctxs.map g)) := by
  refine State.AddsNone.setCtxs s (fun y hy => ?_)
  obtain ⟨x, hx, rfl⟩ := List.mem_map.1 hy
  rw [hid, hfunc]
  exact List.mem_map_of_mem (f := fun x : Ctx => (x.id, x.func)) hx

/-- A function's reset: what stands when its commands, pairs and contexts have ended (R296). -/
def fnEnded (s : State) (f : Nat) : State :=
  let t := dropPairs (endAll s (fun t c => c.func == f && abortable t c)) (fun q => q.func == f)
  (ctxsOf t f).foldl ctxEnd t

theorem fnEnded_addsNone_fnReset (s : State) (f : Nat) : (fnEnded s f).AddsNone (fnReset s f) := by
  unfold fnReset
  dsimp only
  refine State.AddsNone.trans ?_ (State.AddsNone.lockForceOf _ _ _)
  refine State.AddsNone.trans ?_ (State.AddsNone.mbxFlush _ _)
  refine State.AddsNone.trans ?_ (State.AddsNone.of_fcp (disFnReset_fcp _ _))
  refine State.AddsNone.trans ?_ (State.AddsNone.modFn _ _ _)
  refine setCtxs_map_addsNone (fnEnded s f) (fun x => ?_) (fun x => ?_) <;> split <;> rfl

theorem fnReset_pairs (s : State) (f : Nat) : ∀ q ∈ (fnReset s f).fcp.pairs, q.func ≠ f := by
  intro q hq hf
  have hended := (fnEnded_addsNone_fnReset s f).1 (List.mem_map_of_mem (f := fun q : QPair => q.func) hq)
  have hdropped := (State.AddsNone.foldl ctxEnd_addsNone _ _).1 hended
  exact dropPairs_pairFuncs _ f (hf ▸ hdropped)

theorem fnReset_ctxs (s : State) (f : Nat) : ∀ x ∈ (fnReset s f).fcp.ctxs, x.func = f → x.id ≤ 16 := by
  intro x hx hf
  have hended := (fnEnded_addsNone_fnReset s f).2 (List.mem_map_of_mem (f := fun x : Ctx => (x.id, x.func)) hx)
  exact foldl_ctxEnd_base _ f _ hended hf

theorem execFunctionReset_leaves {s : State} {f : Nat} (hf : f ≤ 16) (hen : (s.fn f).enabled = true) :
    ∃ t, execFunctionReset f s = .next t ∧ (∀ q ∈ t.fcp.pairs, q.func ≠ f) ∧ ∀ x ∈ t.fcp.ctxs, x.func = f → x.id ≤ 16 := by
  unfold execFunctionReset
  rw [decide_eq_true hf, hen, Bool.and_self, if_pos rfl]
  exact ⟨_, rfl, fnReset_pairs s f, fnReset_ctxs s f⟩

/-- Settles O25: the link's fields are the last written below admission's registers, each VF is opened in turn, and a reset
drops the function's pairs and closes its opened contexts. -/
theorem linkAndFunctions : Obligations.LinkAndFunctions := fun _ hs =>
  ⟨fun speed width mps mrrs bar2 hr hlo hhi hw => execPcieLinkUp_shows hs speed width mps mrrs bar2 hr hlo hhi hw,
    fun speed width hup hlo hhi hw => execPcieLinkRetrain_shows hs speed width hup hlo hhi hw,
    fun _ hn hwas hlen => execVfEnable_opens hs hn hwas hlen,
    fun _ hf hen => execFunctionReset_leaves hf hen⟩

end Sys2Proof.Machine
end

section
/-!
SUPPORT. What the protocol and the clocks change: registers below admission's alone, the protocol's own state, host memory, the
clock block. And that a command in flight changes no register but HIF_INFLIGHT.
-/

namespace Sys2Proof.Machine

/-! ### A command among those in flight -/

theorem issued_reg_other (op : Nat) (p : Packet) (s : State) {a : Nat} (h : a ≠ R_HIF_INFLIGHT) : (issued op p s).reg a = s.reg a :=
  State.reg_wr_other _ _ h

theorem issued_rd_other (op : Nat) (p : Packet) (s : State) {g : Fld} (h : g.addr ≠ R_HIF_INFLIGHT) :
    (issued op p s).rd g = s.rd g :=
  State.rd_wr_other _ _ h

@[simp] theorem issued_dom (op : Nat) (p : Packet) (s : State) (d : Dom) : (issued op p s).dom d = s.dom d := by
  unfold State.dom
  rw [issued_reg_other op p s (by decide), issued_reg_other op p s (by decide)]

theorem issued_regsWf (op : Nat) (p : Packet) {s : State} (h : regsWf s.regs = true) : regsWf (issued op p s).regs = true :=
  State.regsWf_wr _ _ h

/-- The rules that a row states about itself beside those that the opcodes share. -/
def CmdSpec.Met (c : CmdSpec) (p : Packet) (s : State) : Prop :=
  c.permit p s = true ∧ c.aligned p s = true ∧ c.valid p s = true ∧ c.allowed p s = true

theorem starts_of_passes {op : Nat} {pfOnly : Bool} {priv : Option Nat} {dom : Option Dom} {p : Packet} {s : State}
    (h : passes op pfOnly priv dom p s = true) : starts op p s = true := by
  simp only [passes, Bool.and_eq_true] at h
  exact h.1.1.1.1

/-- A command that passes the shared checks, and meets its row's own rules, passes every check of R287. -/
theorem check_none_of_passes {spec : CmdSpec} {op : Nat} {p : Packet} {s : State}
    (h : passes op spec.pfOnly spec.priv spec.dom p s = true) (hcont : containOps op = spec.contain)
    (hmet : spec.Met p (issued op p s)) : spec.check p (issued op p s) = none := by
  have hstart := starts_of_passes h
  simp only [passes, Bool.and_eq_true] at h
  obtain ⟨⟨⟨⟨-, hfunc⟩, hpriv⟩, hin⟩, hdom⟩ := h
  obtain ⟨hpermit, haligned, hvalid, hallowed⟩ := hmet
  refine check_none hstart ?_ (fun b hb => ?_) hpermit haligned hvalid ?_ (fun d hd => ?_) hallowed
  · simpa using hfunc
  · rw [hb] at hpriv
    exact hpriv
  · show s.err.contained = false ∨ spec.contain = true
    simpa [hcont] using hin
  · rw [hd] at hdom
    simpa using hdom

/-! ### What lies below the admission block -/

/-- The second state is the first but for the protocol's own state, host memory, the clock block and registers below the admission
block. -/
structure State.AboveAs (s t : State) : Prop where
  parts : ∃ regs host fcp clk, t = { s with regs := regs, host := host, fcp := fcp, clk := clk }
  reg : ∀ a, 0x021000 ≤ a → t.reg a = s.reg a

namespace State.AboveAs

theorem refl (s : State) : s.AboveAs s := ⟨⟨_, _, _, _, rfl⟩, fun _ _ => rfl⟩

theorem trans {s t u : State} (h : s.AboveAs t) (h' : t.AboveAs u) : s.AboveAs u := by
  obtain ⟨⟨_, _, _, _, rfl⟩, hr⟩ := h
  obtain ⟨⟨regs, host, fcp, clk, rfl⟩, hr'⟩ := h'
  exact ⟨⟨regs, host, fcp, clk, rfl⟩, fun a ha => (hr' a ha).trans (hr a ha)⟩

theorem ite {s a b : State} {c : Prop} [Decidable c] (ha : s.AboveAs a) (hb : s.AboveAs b) : s.AboveAs (if c then a else b) := by
  split <;> assumption

theorem foldl {α : Type} {f : State → α → State} (hf : ∀ (t : State) (x : α), t.AboveAs (f t x)) (l : List α) (s : State) :
    s.AboveAs (l.foldl f s) := by
  induction l generalizing s with
  | nil => exact refl s
  | cons x l ih => exact (hf s x).trans (ih _)

section
variable {s t : State} (h : s.AboveAs t)
include h

theorem rd {g : Fld} (hg : 0x021000 ≤ g.addr) : t.rd g = s.rd g :=
  congrArg (fun w : Word => bitsOf w.toNat g.lo g.w) (h.reg g.addr hg)

theorem eff : t.eff = s.eff := by
  obtain ⟨⟨_, _, _, _, rfl⟩, -⟩ := h
  rfl

theorem dram : t.dram = s.dram := by
  obtain ⟨⟨_, _, _, _, rfl⟩, -⟩ := h
  rfl

theorem trg : t.trg = s.trg := by
  obtain ⟨⟨_, _, _, _, rfl⟩, -⟩ := h
  rfl

end

/-! ### Completions -/

theorem setFcp (s : State) (f : Fcp) : s.AboveAs { s with fcp := f } := ⟨⟨_, _, _, _, rfl⟩, fun _ _ => rfl⟩

theorem setClk (s : State) (c : Clk) : s.AboveAs { s with clk := c } := ⟨⟨_, _, _, _, rfl⟩, fun _ _ => rfl⟩

theorem hostWrite (s : State) (a : Nat) (bs : List Byte) : s.AboveAs (s.hostWrite a bs) := ⟨⟨_, _, _, _, rfl⟩, fun _ _ => rfl⟩

theorem wr (s : State) {f : Fld} (v : Nat) (h : f.addr < 0x021000) : s.AboveAs (s.wr f v) :=
  ⟨⟨_, _, _, _, rfl⟩, fun _ ha => State.reg_wr_other s v (by omega)⟩

theorem wrs (s : State) (l : List (Fld × Nat)) (h : ∀ c ∈ l, c.1.addr < 0x021000) : s.AboveAs (s.wrs l) := by
  induction l generalizing s with
  | nil => exact refl s
  | cons c l ih => exact (wr s c.2 (h c List.mem_cons_self)).trans (ih _ (fun d hd => h d (List.mem_cons_of_mem _ hd)))

theorem sendMsix (s : State) (f v : Nat) : s.AboveAs (s.sendMsix f v) := ite (setFcp s _) (setFcp s _)

theorem writeCq (s : State) (q : QPair) (urgent : Bool) (entry : Bool → List Word) : s.AboveAs (s.writeCq q urgent entry) := by
  have hpair : ∀ bs g, s.AboveAs ((s.hostWrite (q.cqBase + 32 * q.cqTail) bs).modPair q.qid g) :=
    fun bs g => (hostWrite s _ bs).trans (setFcp _ _)
  exact ite ((hpair _ _).trans (sendMsix _ _ _)) (hpair _ _)

theorem writeReply (s : State) (c : Inflight) (r : Reply) (dup : Bool) : s.AboveAs (s.writeReply c r dup) := by
  unfold State.writeReply
  split
  · exact refl s
  · exact ite (refl s) (writeCq s _ _ _)

theorem setInflight (s : State) (l : List Inflight) : s.AboveAs (s.setInflight l) :=
  (setFcp s _).trans (wr _ _ (by decide))

theorem noteDone (s : State) (c : Inflight) (r : Reply) (dup : Bool) : s.AboveAs (s.noteDone c r dup) := setFcp s _

theorem finishOne (s : State) (c : Inflight) (r : Reply) (dup : Bool) : s.AboveAs (s.finishOne c r dup) := by
  have h : ∀ l, s.AboveAs ((s.setInflight l).noteDone c r dup) := fun l => (setInflight s l).trans (noteDone _ c r dup)
  exact ite (h _) ((h _).trans (writeReply _ c r dup))

theorem dropPair (s : State) (q : QPair) : s.AboveAs (s.dropPair q) :=
  ((setFcp s _).trans (wr _ _ (by decide))).trans (setFcp _ _)

theorem drainPairs (s : State) (n : Nat) : s.AboveAs (s.drainPairs n) := by
  induction n generalizing s with
  | zero => exact refl s
  | succ n ih =>
    unfold State.drainPairs
    split
    · exact refl s
    · exact ((dropPair s _).trans (foldl (fun t c => finishOne t c _ false) _ _)).trans (ih _)

theorem finish (s : State) (c : Inflight) (r : Reply) (dup : Bool) : s.AboveAs (s.finish c r dup) :=
  (finishOne s c r dup).trans (drainPairs _ 512)

theorem wake (s : State) (k : WaitKind) (key : Nat) (r : Reply) : s.AboveAs (s.wake k key r) :=
  foldl (fun t c => finish t c r false) _ s

theorem commitsEnd (s : State) : s.AboveAs (commitsEnd s) := (wake s _ _ _).trans (wake _ _ _ _)

/-! ### FPLL (R417, R418, R422, R423) -/

theorem modClk (s : State) (g : Clk → Clk) : s.AboveAs (s.modClk g) := setClk s _

theorem avsAck (s : State) : s.AboveAs (avsAck s) := by
  unfold Machine.avsAck
  split
  · exact refl s
  · exact (wr s _ (by decide)).trans (modClk _ _)

theorem avsWrite (s : State) (mv : Nat) : s.AboveAs (avsWrite s mv) :=
  ite (refl s) (((avsAck s).trans (wr _ _ (by decide))).trans (modClk _ _))

theorem setKhz (s : State) (khz : Nat) : s.AboveAs (setKhz s 0 khz) := by
  unfold Machine.setKhz
  have h : ∀ g, s.AboveAs ((s.modClk g).wr (F_CKG_P_FREQ_KHZ 0) khz) := fun g => (modClk s g).trans (wr _ _ (by decide))
  dsimp only
  split
  · exact h _
  · refine ite (h _) ((h _).trans (wrs _ _ ?_))
    simp only [List.forall_mem_cons, List.not_mem_nil, false_implies, implies_true, and_true]
    omega

theorem freqSettled (s : State) (start : Nat) : s.AboveAs (freqSettled s 0 start) :=
  ((wr s _ (by decide)).trans (modClk _ _)).trans (wake _ _ _ _)

theorem setFreq (s : State) (mhz : Nat) : (s.applyRegs (bandRegs 0)).AboveAs (setFreq s 0 mhz) := by
  unfold Machine.setFreq
  have h0 : ∀ v, (s.applyRegs (bandRegs 0)).AboveAs ((s.applyRegs (bandRegs 0)).wr (F_CKG_P_CTRL_TARGET 0) v) :=
    fun v => wr _ v (by decide)
  have h1 : ∀ v (c : Prop) [Decidable c] mv, (s.applyRegs (bandRegs 0)).AboveAs
      (if c then Machine.avsWrite ((s.applyRegs (bandRegs 0)).wr (F_CKG_P_CTRL_TARGET 0) v) mv
        else (s.applyRegs (bandRegs 0)).wr (F_CKG_P_CTRL_TARGET 0) v) :=
    fun v c _ mv => ite ((h0 v).trans (avsWrite _ mv)) (h0 v)
  have h3 : ∀ (t : State) khz start, t.AboveAs (Machine.freqSettled ((Machine.setKhz t 0 khz).bump (F_CKG_P_COUNTS_CHANGES 0)) 0 start) :=
    fun t khz start => ((setKhz t khz).trans (wr _ _ (by decide))).trans (freqSettled _ start)
  refine ite (h0 _) (ite ((h0 _).trans (freqSettled _ _)) (ite ?_ ?_))
  · exact ite (((h1 _ _ _).trans (h3 _ _ _)).trans (avsWrite _ _)) ((h1 _ _ _).trans (h3 _ _ _))
  · exact (ite (h1 _ _ _) ((h1 _ _ _).trans (wr _ _ (by decide)))).trans (modClk _ _)

end State.AboveAs

theorem State.AboveAs.setEff {s t : State} (h : s.AboveAs t) (e : List (Nat × Word)) :
    { s with eff := e }.AboveAs { t with eff := e } := by
  obtain ⟨⟨_, _, _, _, rfl⟩, hr⟩ := h
  exact ⟨⟨_, _, _, _, rfl⟩, hr⟩

theorem State.applyRegs_setsEff (s : State) (l : List Nat) : ∃ e, s.applyRegs l = { s with eff := e } := by
  induction l generalizing s with
  | nil => exact ⟨s.eff, rfl⟩
  | cons a l ih =>
    obtain ⟨e, he⟩ := ih (s.applyReg a)
    exact ⟨e, he⟩

/-- FCLK for TRG changes, above HIF, only which band entries are in effect (R97, R417, R422). -/
theorem fclkForTrg_aboveAs (s : State) : ∃ e, { s with eff := e }.AboveAs (fclkForTrg s) := by
  have set : ∀ t : State, s.AboveAs t →
      ∃ e, { s with eff := e }.AboveAs (if t.on F_PMU_STATUS_THROTTLED then t else setFreq t 0 2000) := by
    intro t ht
    split
    · exact ⟨s.eff, ht⟩
    · obtain ⟨e, he⟩ := State.applyRegs_setsEff t (bandRegs 0)
      have hf := State.AboveAs.setFreq t 2000
      rw [he] at hf
      exact ⟨e, (ht.setEff e).trans hf⟩
  exact set _ (.ite (.refl s) ((State.AboveAs.wr s _ (by decide)).trans (.modClk _ _)))

end Sys2Proof.Machine
end

section
/-!
SUPPORT. Arming, disarming and forcing the trigger (R119 to R121).
-/

namespace Sys2Proof.Machine

theorem issued_trgState (op : Nat) (p : Packet) (s : State) : trgState (issued op p s) = trgState s :=
  issued_rd_other op p s (by decide)

theorem issued_jinRun (op : Nat) (p : Packet) (s : State) : jinRun (issued op p s) = jinRun s :=
  congrArg (· != 0) (issued_rd_other op p s (by decide))

/-! ### TRIG_ARM (R119) -/

/-- What a TRIG_ARM that is let through leaves: TRG ARMED_PENDING, with the time and the context of the arm. -/
def armPending (p : Packet) (s : State) : State :=
  (fclkForTrg (s.wr F_TRG_STATUS_STATE 1)).modTrg (fun t => { t with armAt := some (max (pTs p 2) s.now), armCtx := pCtx p })

theorem armPending_state (p : Packet) {s : State} (hs : regsWf s.regs = true) : (armPending p s).rd F_TRG_STATUS_STATE = 1 := by
  obtain ⟨e, he⟩ := fclkForTrg_aboveAs (s.wr F_TRG_STATUS_STATE 1)
  calc (armPending p s).rd F_TRG_STATUS_STATE = (s.wr F_TRG_STATUS_STATE 1).rd F_TRG_STATUS_STATE := he.rd (by decide)
    _ = 1 := State.rd_wr_same _ _ hs (by simp [Fld.ok])

theorem armPending_dram (p : Packet) (s : State) : (armPending p s).dram = s.dram := by
  obtain ⟨e, he⟩ := fclkForTrg_aboveAs (s.wr F_TRG_STATUS_STATE 1)
  exact he.dram

theorem execTrigArm_waits {p : Packet} {s : State} (h : passes 0x30 true none (some .intake) p s = true)
    (htime : pTs p 2 ≤ s.now + 60000000000 * ns1) (hnote : badNote (issued 0x30 p s) = none) (hrun : jinRun s = true)
    (hidle : trgState s = 0) (hroom : armBudget (issued 0x30 p s) (pCtx p) (mbps (rateG (issued 0x30 p s))) = none) :
    Waits (.trigArm p) p s .arm 0 0 (armPending p (issued 0x30 p s)) := by
  refine waits_of rfl rfl (starts_of_passes h) (check_none_of_passes h rfl ⟨rfl, rfl, ?_, ?_⟩) ?_
  · exact Bool.and_eq_true_iff.2 ⟨decide_eq_true htime, by rw [hnote]; rfl⟩
  · show (jinRun (issued 0x30 p s) && trgState (issued 0x30 p s) == 0) = true
    rw [issued_jinRun, issued_trgState, hrun, hidle]
    rfl
  · dsimp only
    rw [hroom]
    rfl

/-! ### ARM_TAKE_EFFECT (R52) -/

section
variable {s : State} {t ts : Nat} (hat : s.trg.armAt = some t) (hpend : trgState s = 1) (hon : s.domOn .intake = true)
  (hcont : s.err.contained = false) (hclk : fclkReady s = true) (hedge : releaseEdge s = some ts)
include hat hpend hon hcont hclk hedge

theorem execArmTakeEffect_early (h : lemcAtOrAfter s ts < lemcAtOrAfter s t) : exec .armTakeEffect s = .next s := by
  show execArmTakeEffect s = _
  simp [execArmTakeEffect, hat, hpend, hon, hcont, hclk, hedge, h]

theorem execArmTakeEffect_due (h : lemcAtOrAfter s t ≤ lemcAtOrAfter s ts) :
    exec .armTakeEffect s = .next ((armEffect s ts).wake .arm 0 (okR ((armEffect s ts).reg (R_TRG_ARM_W 0)).toNat
      ((armEffect s ts).reg (R_TRG_ARM_W 1)).toNat ((armEffect s ts).reg (R_TRG_ARM_W 2)).toNat
      ((armEffect s ts).rd F_TRG_ALIGN_ALIGN))) := by
  show execArmTakeEffect s = _
  simp [execArmTakeEffect, hat, hpend, hon, hcont, hclk, hedge, Nat.not_lt.2 h]

end

/-! ### TRIG_DISARM and TRIG_FORCE (R120, R121) -/

theorem execTrigDisarm_completes {p : Packet} {s : State} (h : passes 0x31 true none (some .intake) p s = true) :
    Completes (.trigDisarm p) 0x31 p s (okR s.trg.pipe.length (s.reg R_TRG_DECISIONS_LO).toNat (s.reg R_TRG_DECISIONS_HI).toNat 0)
      (trgDisarm (issued 0x31 p s)) := by
  refine completes_of rfl rfl (starts_of_passes h) (check_none_of_passes h rfl ⟨rfl, rfl, rfl, rfl⟩) ?_
  dsimp only
  rw [issued_reg_other 0x31 p s (by decide), issued_reg_other 0x31 p s (by decide)]
  rfl

theorem trgDisarm_of_idle {s : State} (h : trgState s = 0) : trgDisarm s = s := if_pos h

/-- The decision that a TRIG_FORCE makes. -/
def forced (s : State) : Dec := { ts := forceTime s, cause := 0xFE, branch := 0, flags := 0, point := none }

theorem execTrigForce_completes {p : Packet} {s : State} (h : passes 0x32 true none (some .intake) p s = true) (hrun : 2 ≤ trgState s) :
    Completes (.trigForce p) 0x32 p s
      (okR (forced (issued 0x32 p s)).ts ((forced (issued 0x32 p s)).ts / ns1) ((forced (issued 0x32 p s)).ts / ns1 / ns1)
        (b2n (decideOn (issued 0x32 p s) (forced (issued 0x32 p s))).2))
      (decideOn (issued 0x32 p s) (forced (issued 0x32 p s))).1 := by
  refine completes_of rfl rfl (starts_of_passes h) (check_none_of_passes h rfl ⟨rfl, rfl, rfl, ?_⟩) rfl
  exact decide_eq_true (issued_trgState 0x32 p s ▸ hrun)

/-- Settles O7: TRIG_ARM waits ARMED_PENDING, the arm takes effect at the release edge that its time admits, TRIG_DISARM and
TRIG_FORCE complete with what they count and decide. -/
theorem triggerArmsDisarmsAndForces : Obligations.TriggerArmsDisarmsAndForces := fun p s hs =>
  ⟨fun h htime hnote hrun hidle hroom => ⟨armPending p (issued 0x30 p s), execTrigArm_waits h htime hnote hrun hidle hroom,
      armPending_state p (issued_regsWf 0x30 p hs), rfl, rfl, armPending_dram p (issued 0x30 p s)⟩,
    fun _ _ hat hpend hon hcont hclk hedge => ⟨execArmTakeEffect_early hat hpend hon hcont hclk hedge,
      execArmTakeEffect_due hat hpend hon hcont hclk hedge⟩,
    fun h => ⟨execTrigDisarm_completes h, fun hidle => trgDisarm_of_idle ((issued_trgState 0x31 p s).trans hidle)⟩,
    fun h hrun => ⟨forced (issued 0x32 p s), rfl, rfl, execTrigForce_completes h hrun⟩⟩

end Sys2Proof.Machine
end

section
/-!
SUPPORT. The trigger's own events: the apply, TRIG_OUT's edges and pulses, and what is due to be evaluated or handed off (R102 to
R104, R108, R114, R123 to R126, R132, R145).
-/

namespace Sys2Proof.Machine

/-! ### What each of several steps keeps -/

theorem State.foldl_keeps {α β : Type} (part : State → β) {f : State → α → State}
    (hf : ∀ (t : State) (x : α), part (f t x) = part t) (l : List α) (s : State) : part (l.foldl f s) = part s := by
  induction l generalizing s with
  | nil => rfl
  | cons x l ih => exact (ih _).trans (hf s x)

theorem State.ite_keeps {β : Type} (part : State → β) {c : Prop} [Decidable c] {a b : State} {x : β} (ha : part a = x)
    (hb : part b = x) : part (if c then a else b) = x := by
  split <;> assumption

/-! ### GO (R126) -/

theorem arrived_now (m : Nat) (s : State) : (arrived m s).now = s.now := by
  obtain ⟨_, _, _, h⟩ := State.ShownAs.arrived m s
  rw [h]

theorem execTrgCommitGo_go {m : Nat} {v : Word} {s : State} (h : reaches m R_TRG_COMMIT s = true)
    (hgo : v.toNat.testBit 0 = true) : exec (.trgCommitGo m v) s = .next (trgCommitGo (arrived m s)) := by
  show Host.Outcome.next _ = _
  rw [writeBy_reaches h, trgCommitWrite, if_pos hgo]

theorem execTrgCommitGo_no_go {m : Nat} {v : Word} {s : State} (h : reaches m R_TRG_COMMIT s = true)
    (hno : v.toNat.testBit 0 = false) : exec (.trgCommitGo m v) s = .next (arrived m s) := by
  show Host.Outcome.next _ = _
  rw [writeBy_reaches h, trgCommitWrite, if_neg (by simp [hno])]

/-! ### The apply (R8, R126, R137) -/

/-- A register that is brought into effect is in effect as last written. -/
theorem State.applyRegs_applied {s : State} (l : List Nat) (hs : regsWf s.eff = true) {a : Nat} (h : a ∈ l ∨ regGet s.eff a = s.reg a) :
    regGet (s.applyRegs l).eff a = s.reg a := by
  induction l generalizing s with
  | nil => exact h.resolve_left List.not_mem_nil
  | cons b l ih =>
    refine ih (s := s.applyReg b) (regsWf_put b _ hs) ?_
    by_cases hab : a = b
    · exact .inr (hab ▸ regGet_put_same a _ hs)
    · refine h.imp (fun hm => (List.mem_cons.1 hm).resolve_left hab) (fun he => ?_)
      exact (regGet_put_other s.eff _ hab).trans he

/-- What the steps of an apply leave alone but where the values come into effect: those in effect, the time of a further apply,
DRAM. -/
def State.inEffect (s : State) : List (Nat × Word) × Option Nat × List Host.Cell := (s.eff, s.trg.applyAt, s.dram)

@[simp] theorem State.wrB_inEffect (s : State) (f : Fld) (b : Bool) : (s.wrB f b).inEffect = s.inEffect := rfl
@[simp] theorem State.setReg_inEffect (s : State) (a : Nat) (v : Word) : (s.setReg a v).inEffect = s.inEffect := rfl
@[simp] theorem State.wrTs_inEffect (s : State) (a t : Nat) : (s.wrTs a t).inEffect = s.inEffect := rfl
@[simp] theorem bnQuiet_inEffect (s : State) (i : Nat) : (bnQuiet s i).inEffect = s.inEffect := by
  simp only [State.inEffect, bnQuiet, State.wrs_eff, State.wrs_trg, State.wrs_dram]

theorem State.AboveAs.inEffect {s t : State} (h : s.AboveAs t) : t.inEffect = s.inEffect := by
  rw [State.inEffect, h.eff, h.trg, h.dram, State.inEffect]

@[simp] theorem trgFlags_inEffect (s : State) : (trgFlags s).inEffect = s.inEffect := by
  unfold trgFlags
  rw [State.wrB_inEffect, State.foldl_keeps State.inEffect (fun t i => ?bn), State.foldl_keeps State.inEffect (fun t n => ?tn)]
  case tn => exact State.wrB_inEffect t _ _
  case bn => exact State.ite_keeps State.inEffect ((bnQuiet_inEffect _ i).trans (State.wrB_inEffect t _ _)) (State.wrB_inEffect t _ _)

theorem trgApply_inEffect (s : State) (t : Nat) : (trgApply s t).inEffect = (s.applyRegs trgShadowRegs).inEffect := by
  unfold trgApply
  rw [trgFlags_inEffect, State.wrTs_inEffect, State.foldl_keeps State.inEffect (fun u i => ?bn),
    State.foldl_keeps State.inEffect (fun u n => ?tn)]
  case tn => exact State.setReg_inEffect u _ _
  case bn => simp only [State.setReg_inEffect]

theorem ovlRenew_inEffect (s : State) : (ovlRenew s).inEffect = s.inEffect := rfl

/-- The notes that an apply makes start over are all that differs where the values come into effect. -/
theorem trgApplyAt_inEffect (s : State) (t : Nat) :
    ∃ u : State, (trgApplyAt s t).inEffect = (u.applyRegs trgShadowRegs).inEffect ∧ u.regs = s.regs ∧ u.inEffect = s.inEffect := by
  have hu : ∀ (v : State) (g : Trg → Trg), (v.regs, v.inEffect) = (s.regs, s.inEffect) → (∀ x, (g x).applyAt = x.applyAt) →
      (v.modTrg g).regs = s.regs ∧ (v.modTrg g).inEffect = s.inEffect := by
    intro v g hv hg
    obtain ⟨hregs, heff⟩ := Prod.mk.inj hv
    refine ⟨hregs, Eq.trans ?_ heff⟩
    show (v.eff, (g v.trg).applyAt, v.dram) = (v.eff, v.trg.applyAt, v.dram)
    rw [hg]
  refine ⟨_, (ovlRenew_inEffect _).trans (trgApply_inEffect _ t), hu _ _ ?_ (fun _ => rfl)⟩
  rw [State.foldl_keeps (fun v => (v.regs, v.inEffect)) (fun v i => ?bn),
    State.foldl_keeps (fun v => (v.regs, v.inEffect)) (fun v n => ?tn)]
  case tn => exact State.ite_keeps (fun v : State => (v.regs, v.inEffect)) rfl rfl
  case bn => exact State.ite_keeps (fun v : State => (v.regs, v.inEffect)) rfl rfl

theorem execTrgShadowApply_early {s : State} {t : Nat} (hat : s.trg.applyAt = some t) (h : s.now < t) :
    exec .trgShadowApply s = .next s := by
  show execTrgShadowApply s = _
  simp [execTrgShadowApply, hat, h]

/-- What the apply leaves, once it is reached: the values in effect, no apply asked for, DRAM (R126). -/
theorem commitsEnd_trgApplyAt_leaves {s : State} (t : Nat) (hs : regsWf s.eff = true) (hat : s.trg.applyAt = none) :
    (commitsEnd (trgApplyAt s t)).trg.applyAt = none ∧ (∀ a ∈ trgShadowRegs, regGet (commitsEnd (trgApplyAt s t)).eff a = s.reg a) ∧
      (commitsEnd (trgApplyAt s t)).dram = s.dram := by
  obtain ⟨v, happ, hregs, hv⟩ := trgApplyAt_inEffect s t
  have hend := (State.AboveAs.commitsEnd (trgApplyAt s t)).inEffect.trans happ
  generalize commitsEnd (trgApplyAt s t) = u at hend ⊢
  simp only [State.inEffect, State.applyRegs_trg, State.applyRegs_dram, Prod.mk.injEq] at hend hv
  obtain ⟨heff, hnone, hdram⟩ := hend
  obtain ⟨hveff, hvnone, hvdram⟩ := hv
  refine ⟨(hnone.trans hvnone).trans hat, fun a ha => ?_, hdram.trans hvdram⟩
  rw [heff, State.applyRegs_applied trgShadowRegs (hveff ▸ hs) (.inl ha), State.reg, hregs, State.reg]

theorem execTrgShadowApply_due {s : State} {t : Nat} (hs : regsWf s.eff = true) (hat : s.trg.applyAt = some t)
    (hon : s.domOn .intake = true) (hcont : s.err.contained = false) (h : t ≤ s.now) :
    ∃ u, exec .trgShadowApply s = .next u ∧ u.trg.applyAt = none ∧ (∀ a ∈ trgShadowRegs, regGet u.eff a = s.reg a) ∧ u.dram = s.dram := by
  refine ⟨commitsEnd (trgApplyAt (s.modTrg (fun x => { x with applyAt := none })) t), ?_, ?_⟩
  · show execTrgShadowApply s = _
    simp [execTrgShadowApply, hat, hon, hcont, Nat.not_lt.2 h]
  · exact commitsEnd_trgApplyAt_leaves (s := s.modTrg (fun x => { x with applyAt := none })) t hs rfl

/-! ### TRIG_OUT (R123 to R125) -/

/-- The pin is all that following TRIG_OUT changes. -/
@[simp] theorem trigPin_trg (s : State) : (trigPin s).trg = s.trg := State.ite_keeps State.trg rfl rfl
@[simp] theorem trigPin_regs (s : State) : (trigPin s).regs = s.regs := State.ite_keeps State.regs rfl rfl

theorem trigPin_rd (s : State) (f : Fld) : (trigPin s).rd f = s.rd f := by
  rw [State.rd, trigPin_regs, State.rd]

/-- The second state is the first but for the state and the registers of ERR. -/
structure State.ErrAs (s t : State) : Prop where
  parts : ∃ regs err, t = { s with regs := regs, err := err }
  reg : ∀ a, a < 0x2E0000 → t.reg a = s.reg a
  wf : regsWf s.regs = true → regsWf t.regs = true

namespace State.ErrAs

theorem refl (s : State) : s.ErrAs s := ⟨⟨_, _, rfl⟩, fun _ _ => rfl, id⟩

theorem trans {s t u : State} (h : s.ErrAs t) (h' : t.ErrAs u) : s.ErrAs u := by
  obtain ⟨⟨_, _, rfl⟩, hr, hw⟩ := h
  obtain ⟨⟨regs, err, rfl⟩, hr', hw'⟩ := h'
  exact ⟨⟨regs, err, rfl⟩, fun a ha => (hr' a ha).trans (hr a ha), fun h => hw' (hw h)⟩

theorem bump (s : State) {f : Fld} (h : 0x2E0000 ≤ f.addr) : s.ErrAs (s.bump f) :=
  ⟨⟨_, _, rfl⟩, fun _ ha => State.reg_wr_other s _ (by omega), State.regsWf_wr f _⟩

theorem setErr (s : State) (e : Err) : s.ErrAs { s with err := e } := ⟨⟨_, _, rfl⟩, fun _ _ => rfl, id⟩

/-- A record that is neither an error nor fatal opens no tag and does not enter Containment (R490, R491). -/
theorem raiseRec_minor (s : State) {r : ErrRec} (h : r.cls ≤ 1) : s.ErrAs (s.raiseRec r) := by
  have hraised : 0x2E0000 ≤ (F_ERR_B_COUNTS_RAISED r.blk).addr := by
    show 0x2E0000 ≤ 0x2E0080 + 0x4 * r.blk
    omega
  have hovf : 0x2E0000 ≤ (F_ERR_B_COUNTS_OVF r.blk).addr := hraised
  unfold State.raiseRec
  dsimp only
  split
  · exact (bump s hraised).trans (setErr _ _)
  · rw [if_neg (by omega), if_neg (by omega)]
    exact ((bump s hraised).trans (setErr _ _)).trans (bump _ hovf)

section
variable {s t : State} (h : s.ErrAs t)
include h

theorem rd {g : Fld} (hg : g.addr < 0x2E0000) : t.rd g = s.rd g :=
  congrArg (fun w : Word => bitsOf w.toNat g.lo g.w) (h.reg g.addr hg)

theorem trg : t.trg = s.trg := by
  obtain ⟨⟨_, _, rfl⟩, -⟩ := h
  rfl

end

end State.ErrAs

/-- An advisory record of the trigger changes, beside ERR, only which of them it has raised. -/
theorem trgOnce_errAs (s : State) (typ ts res : Nat) :
    ∃ raised, (s.modTrg (fun t => { t with raised := raised })).ErrAs (trgOnce s typ ts res) := by
  unfold trgOnce
  split
  · exact ⟨s.trg.raised, .refl s⟩
  · exact ⟨_, .raiseRec_minor _ (Nat.zero_le 1)⟩

theorem trgOnce_out (s : State) (typ ts res : Nat) : (trgOnce s typ ts res).trg.out = s.trg.out := by
  obtain ⟨raised, h⟩ := trgOnce_errAs s typ ts res
  rw [h.trg]
  rfl

theorem trgOnce_rd (s : State) (typ ts res : Nat) {g : Fld} (hg : g.addr < 0x2E0000) : (trgOnce s typ ts res).rd g = s.rd g := by
  obtain ⟨raised, h⟩ := trgOnce_errAs s typ ts res
  rw [h.rd hg]
  rfl

theorem trgOnce_regsWf {s : State} (typ ts res : Nat) (hs : regsWf s.regs = true) : regsWf (trgOnce s typ ts res).regs = true := by
  obtain ⟨raised, h⟩ := trgOnce_errAs s typ ts res
  exact h.wf hs

theorem satInc_lt (w x : Nat) : satInc w x < 2 ^ w := by
  have := Nat.two_pow_pos w
  unfold satInc
  split <;> omega

/-- A count reads one more than before, where it does not stand at its end. -/
theorem State.rd_bump_same {s : State} (f : Fld) (hs : regsWf s.regs = true) (hf : f.ok) : (s.bump f).rd f = satInc f.w (s.rd f) :=
  (State.rd_wr_same f _ hs hf).trans (Nat.mod_eq_of_lt (satInc_lt _ _))

/-- An edge that is launched is counted where it is late. -/
def outCounted (s : State) (e : OutEdge) : State :=
  if e.late then trgOnce (s.bump F_TRG_OUT_COUNTS_LATE) 0x03 e.ts resNone else s

theorem outCounted_leaves {s : State} (e : OutEdge) (hs : regsWf s.regs = true) :
    (outCounted s e).trg.out = s.trg.out ∧ regsWf (outCounted s e).regs = true ∧
      (outCounted s e).rd F_TRG_OUT_COUNTS_LATE = (if e.late = true then
        satInc F_TRG_OUT_COUNTS_LATE.w (s.rd F_TRG_OUT_COUNTS_LATE) else s.rd F_TRG_OUT_COUNTS_LATE) := by
  unfold outCounted
  split
  · refine ⟨?_, trgOnce_regsWf _ _ _ (State.regsWf_wr _ _ hs), ?_⟩
    · rw [trgOnce_out, State.bump_trg]
    · rw [trgOnce_rd _ _ _ _ (by decide), State.rd_bump_same _ hs (by simp [Fld.ok])]
  · exact ⟨rfl, hs, rfl⟩

/-- What an edge does to the output at a time, with the length of a pulse. -/
def outAct (s : State) (act at_ w : Nat) : State :=
  match act with
  | 0 =>
    (if (match s.trg.outEnd with | some e => decide (at_ < e) | none => false) then s.bump F_TRG_OUT_COUNTS_MERGED else s).modTrg
      (fun t => { t with outHigh := true, outEnd := some (at_ + w) })
  | 1 => s.modTrg (fun t => { t with outHigh := true, outEnd := none })
  | _ => s.modTrg (fun t => { t with outHigh := false, outEnd := none })

theorem outAct_leaves {s : State} (act at_ w : Nat) (hs : regsWf s.regs = true) :
    (outAct s act at_ w).trg.out = s.trg.out ∧ (outAct s act at_ w).trg.outHigh = decide (act ≤ 1) ∧
      (outAct s act at_ w).trg.outEnd = (if act = 0 then some (at_ + w) else none) ∧
      (outAct s act at_ w).rd F_TRG_OUT_COUNTS_LATE = s.rd F_TRG_OUT_COUNTS_LATE := by
  match act with
  | 0 =>
    refine ⟨State.ite_keeps (fun t : State => t.trg.out) rfl rfl, rfl, rfl, ?_⟩
    exact State.ite_keeps (fun t : State => t.rd F_TRG_OUT_COUNTS_LATE)
      (State.rd_wr_apart _ hs (by simp [Fld.ok]) (by simp [Fld.apart])) rfl
  | 1 => exact ⟨rfl, rfl, rfl, rfl⟩
  | _ + 2 => exact ⟨rfl, (decide_eq_false (by omega)).symm, rfl, rfl⟩

theorem outLaunch_eq (s : State) (e : OutEdge) : outLaunch s e =
    trigPin (outAct (outCounted (s.modTrg (fun t => { t with out := t.out.erase e })) e) e.act (if e.late = true then s.now else e.at_)
      (max 4 (s.rd F_TRG_OUT_WIDTH_WIDTH) * ns1)) := by
  obtain ⟨at_, ts, act, late⟩ := e
  match act with
  | 0 => rfl
  | 1 => rfl
  | _ + 2 => rfl

theorem execTrigOutLaunch_due {s : State} {e : OutEdge} (hs : regsWf s.regs = true) (hnext : nextOut s = some e)
    (hcont : s.err.contained = false) (hdue : e.at_ ≤ s.now) (hlo : 1 ≤ s.pstate) (hhi : s.pstate ≤ 3) :
    ∃ t, exec .trigOutLaunch s = .next t ∧ t.trg.out = s.trg.out.erase e ∧ t.trg.outHigh = decide (e.act ≤ 1) ∧
      t.trg.outEnd = (if e.act = 0 then
        some ((if e.late = true then s.now else e.at_) + max 4 (s.rd F_TRG_OUT_WIDTH_WIDTH) * ns1) else none) ∧
      t.rd F_TRG_OUT_COUNTS_LATE = (if e.late = true then satInc F_TRG_OUT_COUNTS_LATE.w (s.rd F_TRG_OUT_COUNTS_LATE)
        else s.rd F_TRG_OUT_COUNTS_LATE) := by
  refine ⟨outLaunch s e, ?_, ?_⟩
  · have hrest : (s.pstate == 0) = false := beq_false_of_ne (by omega)
    have htrans : decide (s.pstate ≥ 4) = false := decide_eq_false (by omega)
    show execTrigOutLaunch s = _
    simp [execTrigOutLaunch, hnext, hcont, Nat.not_lt.2 hdue, hrest, htrans]
  · obtain ⟨hout, hwf, hlate⟩ := outCounted_leaves (s := s.modTrg (fun t => { t with out := t.out.erase e })) e hs
    obtain ⟨hout', hhigh, hend, hlate'⟩ := outAct_leaves e.act (if e.late = true then s.now else e.at_)
      (max 4 (s.rd F_TRG_OUT_WIDTH_WIDTH) * ns1) hwf
    rw [outLaunch_eq, trigPin_trg, trigPin_rd]
    exact ⟨hout'.trans hout, hhigh, hend, hlate'.trans hlate⟩

theorem execTrigOutPulseEnd_due {s : State} {e : Nat} (hend : s.trg.outEnd = some e) (hcont : s.err.contained = false) (hdue : e ≤ s.now) :
    ∃ t, exec .trigOutPulseEnd s = .next t ∧ t.trg.outHigh = false ∧ t.trg.outEnd = none ∧ t.regs = s.regs := by
  refine ⟨trigPin (s.modTrg (fun x => { x with outHigh := false, outEnd := none })), ?_, by rw [trigPin_trg]; rfl,
    by rw [trigPin_trg]; rfl, trigPin_regs _⟩
  show execTrigOutPulseEnd s = _
  simp [execTrigOutPulseEnd, hend, hcont, Nat.not_lt.2 hdue]

/-! ### The heart and the notes (R102 to R104, R108, R132) -/

theorem execHeartTick_not_due {s : State} (h : s.on F_TRG_CTRL_MODE = false ∨ heartDue s = false) : exec .heartTick s = .next s :=
  if_pos (by rcases h with h | h <;> simp [h])

section
variable {s : State} (hon : s.domOn .intake = true) (hact : trgActive s = true)
include hon hact

theorem execHeartTick_due (hmode : s.on F_TRG_CTRL_MODE = true) (hdue : heartDue s = true) :
    exec .heartTick s = .next (trgRefresh (heartStep s)) :=
  if_neg (by simp [hon, hact, hmode, hdue])

theorem execHeartTimerExpiry_due {k : Nat} (hk : k ≤ 3) (hexp : tmExpired s k (s.trg.tick * half) = true) :
    exec (.heartTimerExpiry k) s = .next (heartStatus s (s.trg.tick * half)) :=
  if_neg (by simp [hon, hact, hk, hexp])

theorem execBaseValueArrival_taken (rec : List Byte) :
    exec (.baseValueArrival rec) s = .next (trgRefresh (bnArrive s (BnRec.parse rec))) :=
  if_neg (by simp [hon, hact])

end

theorem execTopnoteTimeout_due {s : State} {n t : Nat} (hat : timeoutAt (timeoutAsk s n).1 (timeoutAsk s n).2 n = some t)
    (hon : (timeoutAsk s n).1.domOn .intake = true) (hact : trgActive (timeoutAsk s n).1 = true) (hn : n ≤ 63)
    (hcaught : noteCaught (timeoutAsk s n).1 n t = true) :
    exec (.topnoteTimeout n) s = .next (timeFires (timeoutAsk s n).1 n t) := by
  show execTopnoteTimeout n s = _
  simp [execTopnoteTimeout, hat, hon, hact, Nat.not_lt.2 hn, hcaught]

/-! ### The hand-off of segments (R145, R148) -/

section
variable {s : State} {g : PSeg} (hseg : s.trg.segs.find? (fun x => !x.handed) = some g)
include hseg

theorem execSegmentHandoff_early (h : s.now < g.handAt) : exec .segmentHandoff s = .next s := by
  show execSegmentHandoff s = _
  simp [execSegmentHandoff, hseg, h]

variable (hon : s.domOn .intake = true) (hcont : s.err.contained = false) (hdue : g.handAt ≤ s.now)
include hon hcont hdue

theorem execSegmentHandoff_due (hlast : g.last = false) : exec .segmentHandoff s = .next (trgRefresh (handSegment s g)) := by
  show execSegmentHandoff s = _
  simp [execSegmentHandoff, hseg, hon, hcont, Nat.not_lt.2 hdue, hlast]

theorem execSegmentHandoff_last (hlast : g.last = true) : exec .segmentHandoff s =
    .next (trgRefresh (((handSegment s g).takeWords 4).2.postEvent g.ctx 0x0601 ((handSegment s g).takeWords 4).1)) := by
  show execSegmentHandoff s = _
  simp [execSegmentHandoff, hseg, hon, hcont, Nat.not_lt.2 hdue, hlast]

end

/-- Settles O9: each of the trigger's events waits until it is due, and then leaves what the spec names. -/
theorem triggerEventsTakeEffect : Obligations.TriggerEventsTakeEffect := fun s hregs heff =>
  ⟨fun m _ h => ⟨fun hgo => ⟨_, execTrgCommitGo_go h hgo, rfl, by rw [trgCommitGo, arrived_now m s]; rfl⟩,
      execTrgCommitGo_no_go h⟩,
    fun _ hat hon hcont => ⟨execTrgShadowApply_early hat, execTrgShadowApply_due heff hat hon hcont⟩,
    fun hon hact => ⟨execHeartTick_due hon hact, execHeartTick_not_due⟩,
    fun _ hon hact => execHeartTimerExpiry_due hon hact,
    fun _ _ => execTopnoteTimeout_due,
    fun _ hnext hcont hdue hlo hhi => execTrigOutLaunch_due hregs hnext hcont hdue hlo hhi,
    fun _ hend hcont hdue => execTrigOutPulseEnd_due hend hcont hdue,
    fun rec hon hact => execBaseValueArrival_taken hon hact rec,
    fun _ hseg hon hcont => ⟨execSegmentHandoff_early hseg, execSegmentHandoff_due hseg hon hcont,
      execSegmentHandoff_last hseg hon hcont⟩⟩

end Sys2Proof.Machine
end

section
/-!
SUPPORT. What the engines' commands rest on: registers that show the engines change no other part, counters that are cleared read
0, and a chain found by its number.
-/

namespace Sys2Proof

/-! ### Fields that are cleared -/

theorem testBit_bitsOf (x lo w i : Nat) : (bitsOf x lo w).testBit i = (decide (i < w) && x.testBit (lo + i)) := by
  rw [bitsOf, Nat.testBit_mod_two_pow, Nat.testBit_shiftRight]

theorem bitsOf_eq_zero_iff {x lo w : Nat} : bitsOf x lo w = 0 ↔ ∀ i, i < w → x.testBit (lo + i) = false := by
  constructor
  · intro h i hi
    have hbit := testBit_bitsOf x lo w i
    rwa [h, Nat.zero_testBit, decide_eq_true hi, Bool.true_and, eq_comm] at hbit
  · intro h
    refine Nat.eq_of_testBit_eq (fun i => ?_)
    rw [testBit_bitsOf, Nat.zero_testBit]
    by_cases hi : i < w
    · rw [h i hi, Bool.and_false]
    · rw [decide_eq_false hi, Bool.false_and]

/-- Clearing a field sets no bit. -/
theorem testBit_setBits_zero {x i : Nat} (lo w : Nat) (h : x.testBit i = false) : (setBits x lo w 0).testBit i = false := by
  have bit : ∀ y : Nat, bitsOf y i 1 = 0 ↔ y.testBit i = false := fun y => by simp [bitsOf_eq_zero_iff]
  rw [← bit] at h ⊢
  by_cases hlo : i < lo
  · rwa [bitsOf_setBits_below hlo]
  · by_cases hhi : lo + w ≤ i
    · rwa [bitsOf_setBits_above hhi]
    · have hin := bitsOf_eq_zero_iff.1 ((bitsOf_setBits_same x lo w 0).trans (Nat.zero_mod _)) (i - lo) (by omega)
      rwa [bit, ← Nat.add_sub_of_le (Nat.not_lt.1 hlo)]

namespace Machine

/-- A field that reads 0 does so after another is cleared. -/
theorem State.rd_wr_zero {s : State} {f g : Fld} (hs : regsWf s.regs = true) (hf : f.ok) (h : s.rd g = 0) : (s.wr f 0).rd g = 0 := by
  by_cases ha : g.addr = f.addr
  · simp only [State.rd, State.wr] at h ⊢
    rw [ha] at h ⊢
    rw [regGet_put_same _ _ hs, toNat_ofNat_setBits _ _ hf]
    rw [bitsOf_eq_zero_iff] at h ⊢
    exact fun i hi => testBit_setBits_zero _ _ (h i hi)
  · rw [State.rd_wr_other s 0 ha, h]

theorem State.rd_zeroFields_zero {s : State} {l : List Fld} {g : Fld} (hs : regsWf s.regs = true) (hl : ∀ f ∈ l, f.ok)
    (h : s.rd g = 0) : (s.zeroFields l).rd g = 0 := by
  induction l generalizing s with
  | nil => exact h
  | cons f l ih =>
    obtain ⟨hf, hl⟩ := List.forall_mem_cons.1 hl
    exact ih (State.regsWf_wr f 0 hs) hl (State.rd_wr_zero hs hf h)

/-- Fields that are cleared read 0. -/
theorem State.rd_zeroFields {s : State} {l : List Fld} (hs : regsWf s.regs = true) (hl : ∀ f ∈ l, f.ok) :
    ∀ f ∈ l, (s.zeroFields l).rd f = 0 := by
  induction l generalizing s with
  | nil => exact fun _ hf => absurd hf List.not_mem_nil
  | cons f l ih =>
    obtain ⟨hf, hl⟩ := List.forall_mem_cons.1 hl
    have hwf := State.regsWf_wr f 0 hs
    have hcleared : (s.wr f 0).rd f = 0 := (State.rd_wr_same f 0 hs hf).trans (Nat.zero_mod _)
    exact List.forall_mem_cons.2 ⟨State.rd_zeroFields_zero (s := s.wr f 0) hwf hl hcleared, ih hwf hl⟩

theorem barnCounters_ok (b : Nat) : ∀ f ∈ barnCounters b, f.ok := by
  simp only [barnCounters, List.forall_mem_append, List.forall_mem_flatMap, List.forall_mem_cons, List.not_mem_nil, false_implies,
    implies_true, and_true, Fld.ok]
  exact ⟨by decide, fun _ _ => by decide⟩

/-! ### Registers that show the engines -/

namespace State.ShownAs

theorem feedRegs (s : State) (b : Nat) : s.ShownAs (feedRegs s b) := by
  refine foldl (fun t i => ?_) _ s
  split
  · exact setReg t _ _
  · exact wrs t _

theorem barnRegs (s : State) (b : Nat) : s.ShownAs (barnRegs s b) :=
  ((wrs s _).trans (feedRegs _ b)).trans (foldl (fun t _ => wrs t _) _ _)

section
variable {s t : State} (h : s.ShownAs t)
include h

theorem eng : t.eng = s.eng := by
  obtain ⟨_, _, _, rfl⟩ := h
  rfl

theorem dram : t.dram = s.dram := by
  obtain ⟨_, _, _, rfl⟩ := h
  rfl

end

end State.ShownAs

@[simp] theorem barnRegs_eng (s : State) (b : Nat) : (barnRegs s b).eng = s.eng := (State.ShownAs.barnRegs s b).eng

@[simp] theorem barnRegs_dram (s : State) (b : Nat) : (barnRegs s b).dram = s.dram := (State.ShownAs.barnRegs s b).dram

/-! ### Chains -/

/-- A chain that is changed is found by its number as before. -/
theorem State.chain?_modChain {s : State} {id : Nat} {c : Chain} {g : Chain → Chain} (h : s.chain? id = some c)
    (hg : ∀ x, (g x).id = x.id) : (s.modChain id g).chain? id = some (g c) := by
  have hid : c.id = id := beq_iff_eq.1 (List.find?_some (p := fun x : Chain => x.id == id) h)
  have hkey : ((fun x : Chain => x.id == id) ∘ fun x => if x.id = id then g x else x) = fun x => x.id == id := by
    funext x
    by_cases hx : x.id = id <;> simp [hx, hg]
  show (s.eng.chains.map fun x => if x.id = id then g x else x).find? (fun x => x.id == id) = some (g c)
  rw [List.find?_map, hkey, show s.eng.chains.find? (fun x => x.id == id) = some c from h, Option.map_some, if_pos hid]

/-- A command in flight is no part of the contracts and the chains. -/
@[simp] theorem issued_ownChain (op : Nat) (p : Packet) (s : State) : ownChain p (issued op p s) = ownChain p s := rfl
@[simp] theorem issued_conBroken (op : Nat) (p : Packet) (s : State) (ctx : Nat) :
    conBroken (issued op p s) ctx = conBroken s ctx := rfl

theorem ownChain_eq_some {p : Packet} {s : State} {c : Chain} (h : ownChain p s = some c) :
    s.chain? (pf p 2 0 16) = some c ∧ c.id = pf p 2 0 16 := by
  unfold ownChain at h
  split at h
  next d hd =>
    obtain ⟨-, hdc⟩ := Option.ite_none_right_eq_some.1 h
    cases hdc
    exact ⟨hd, beq_iff_eq.1 (List.find?_some (p := fun x : Chain => x.id == pf p 2 0 16) hd)⟩
  next => cases h

end Machine

end Sys2Proof
end

section
/-!
SUPPORT. The chain and engine commands (R230, R240, R309, Tables 8.8 and 8.9).
-/

namespace Sys2Proof.Machine

/-! ### CHAIN_LOAD (R309, Table 8.8) -/

theorem chainPlace_fits {s : State} {ctx : Nat} {a : ChainAsk} {k : Contract} {n id : Nat} {ns : List Nat}
    (hk : contractOf s ctx = some k) (hb : k.broken = false) (hfit : fitPieces s a k = n :: ns)
    (hid : lowestFree (s.eng.chains.map (fun c => c.id)) 1 65535 = some id) :
    chainPlace s ctx a =
      .final (chainReply (chainPut s (chainNew s ctx a (ns.foldl min n) id)) a (chainNew s ctx a (ns.foldl min n) id))
        (chainPut s (chainNew s ctx a (ns.foldl min n) id)) := by
  simp only [chainPlace, hk, hb, hfit, hid, Bool.false_eq_true, if_false]

theorem chainPlace_refused {s : State} {ctx : Nat} {a : ChainAsk} {k : Contract} (hk : contractOf s ctx = some k)
    (hb : k.broken = false) (hfit : fitPieces s a k = []) : chainPlace s ctx a = .final (loadRefusal s a k) s := by
  simp only [chainPlace, hk, hb, hfit, Bool.false_eq_true, if_false]

section
variable {p : Packet} {s : State} {k : Contract} (h : passes 0x50 false none none p s = true) (hk : contractOf s (pCtx p) = some k)
  (hal : pq p 3 % 64 = 0) (hok : loadBad p (issued 0x50 p s) = none)
include h hk hal hok

theorem execChainLoad_completes {r : Reply} {u : State}
    (hr : chainPlace (issued 0x50 p s) (pCtx p) (loadAsk p (issued 0x50 p s)) = .final r u) : Completes (.chainLoad p) 0x50 p s r u := by
  refine completes_of rfl rfl (starts_of_passes h) (check_none_of_passes h rfl ⟨?_, beq_iff_eq.2 hal, ?_, rfl⟩) hr
  · show (contractOf s (pCtx p)).isSome = true
    rw [hk]
    rfl
  · show (conBroken (issued 0x50 p s) (pCtx p) || (loadBad p (issued 0x50 p s)).isNone) = true
    rw [hok, Option.isNone_none, Bool.or_true]

variable (hb : k.broken = false)
include hb

theorem execChainLoad_places {n id : Nat} {ns : List Nat} (hfit : fitPieces (issued 0x50 p s) (loadAsk p (issued 0x50 p s)) k = n :: ns)
    (hid : lowestFree (s.eng.chains.map (fun c => c.id)) 1 65535 = some id) :
    ∃ c, Completes (.chainLoad p) 0x50 p s (chainReply (chainPut (issued 0x50 p s) c) (loadAsk p (issued 0x50 p s)) c)
        (chainPut (issued 0x50 p s) c) ∧
      c.id = id ∧ c.ctx = pCtx p ∧ c.eng = ns.foldl min n ∧ c.running = pb p 2 0 ∧ c.committed = 0 ∧
      c.startTs = (if pTs p 6 = 0 then s.now else pTs p 6) :=
  ⟨_, execChainLoad_completes h hk hal hok (chainPlace_fits (s := issued 0x50 p s) hk hb hfit hid), rfl, rfl, rfl, rfl, rfl, rfl⟩

theorem execChainLoad_refused (hfit : fitPieces (issued 0x50 p s) (loadAsk p (issued 0x50 p s)) k = []) :
    ∃ r, r.st = .noBudget ∧ Completes (.chainLoad p) 0x50 p s r (issued 0x50 p s) :=
  ⟨_, rfl, execChainLoad_completes h hk hal hok (chainPlace_refused (s := issued 0x50 p s) hk hb hfit)⟩

end

/-! ### CHAIN_UNLOAD, CHAIN_START, CHAIN_RUN, CHAIN_STATUS (Table 8.8) -/

/-- A started chain runs from the time asked for, and keeps its number and its image. -/
theorem chainBegin_leaves {s : State} {c : Chain} (t : Nat) (hc : s.chain? c.id = some c) :
    ∃ c', (chainBegin s c.id t).chain? c.id = some c' ∧ c'.running = true ∧ c'.startTs = (if t = 0 then s.now else t) ∧
      c'.img = c.img := by
  refine ⟨_, State.chain?_modChain hc (fun x => ?_), ?_, ?_, ?_⟩
  · split <;> rfl
  · split
    next hrun => exact hrun
    next => rfl
  · split <;> rfl
  · split <;> rfl

/-- The job of a CHAIN_RUN (R240). -/
theorem hostRun_jobs (p : Packet) (s : State) (c : Chain) :
    ∃ j, (hostRun p s c).eng.jobs = s.eng.jobs ++ [j] ∧ j.chain = c.id ∧ j.eng = c.eng ∧ j.start = pTs p 3 ∧
      j.wend = pTs p 3 + c.img.win * ns1 ∧ j.state = 0 := by
  unfold hostRun
  dsimp only
  rw [barnRegs_eng]
  exact ⟨_, rfl, rfl, rfl, rfl, rfl, rfl⟩

section
variable {p : Packet} {s : State} {c : Chain} (hheld : conHeld p s = true) (hown : ownChain p s = some c)
include hheld hown

/-- A command that names a loaded chain of its own context meets its row's rules. -/
theorem check_none_of_ownChain {spec : CmdSpec} {op : Nat} (h : passes op spec.pfOnly spec.priv spec.dom p s = true)
    (hcont : containOps op = spec.contain) (hpermit : spec.permit = conHeld) (hal : spec.aligned p (issued op p s) = true)
    (hvalid : (ownChain p s).isSome = true → spec.valid p (issued op p s) = true) (hallow : spec.allowed p (issued op p s) = true) :
    spec.check p (issued op p s) = none :=
  check_none_of_passes h hcont ⟨hpermit ▸ hheld, hal, hvalid (hown ▸ rfl), hallow⟩

section
variable (h : passes 0x51 false none none p s = true)
include h

theorem execChainUnload_forced (hf : pb p 2 16 = false) :
    Completes (.chainUnload p) 0x51 p s (okR c.committed (jobsOf s c.id).length 0 0) (admRegs (unloadChain (issued 0x51 p s) c.id)) := by
  refine completes_of rfl rfl (starts_of_passes h) (check_none_of_ownChain hheld hown h rfl rfl rfl id rfl) ?_
  simp only [issued_ownChain, hown, hf, Bool.false_eq_true, if_false]
  rfl

variable (hdrain : pb p 2 16 = true)
include hdrain

theorem execChainUnload_waits
    (hd : drained ((issued 0x51 p s).modChain c.id (stopChain (issued 0x51 p s))) (stopChain (issued 0x51 p s) c) = false) :
    Waits (.chainUnload p) p s .chainDrain c.id 0 ((issued 0x51 p s).modChain c.id (stopChain (issued 0x51 p s))) := by
  refine waits_of rfl rfl (starts_of_passes h) (check_none_of_ownChain hheld hown h rfl rfl rfl id rfl) ?_
  simp only [issued_ownChain, hown, hdrain, hd, Bool.false_eq_true, if_false, if_true]

theorem execChainUnload_drained
    (hd : drained ((issued 0x51 p s).modChain c.id (stopChain (issued 0x51 p s))) (stopChain (issued 0x51 p s) c) = true) :
    Completes (.chainUnload p) 0x51 p s (okR c.committed 0 0 0)
      (admRegs (unloadChain ((issued 0x51 p s).modChain c.id (stopChain (issued 0x51 p s))) c.id)) := by
  refine completes_of rfl rfl (starts_of_passes h) (check_none_of_ownChain hheld hown h rfl rfl rfl id rfl) ?_
  simp only [issued_ownChain, hown, hdrain, hd, if_true]

end

theorem execChainStart_completes (h : passes 0x52 false none none p s = true) (hunb : conBroken s (pCtx p) = false)
    (hstart : pb p 2 16 = false) :
    ∃ u c', Completes (.chainStart p) 0x52 p s { st := .ok } u ∧ u.chain? c.id = some c' ∧ c'.running = true ∧
      c'.startTs = (if pTs p 3 = 0 then s.now else pTs p 3) ∧ c'.img = c.img ∧ u.regs = (issued 0x52 p s).regs ∧ u.eng.jobs = s.eng.jobs := by
  obtain ⟨hfind, hid⟩ := ownChain_eq_some hown
  obtain ⟨c', hbegun⟩ := chainBegin_leaves (s := issued 0x52 p s) (pTs p 3) (hid ▸ hfind)
  obtain ⟨hc', hrun, hts, himg⟩ := hbegun
  refine ⟨chainBegin (issued 0x52 p s) c.id (pTs p 3), c', ?_, hc', hrun, hts, himg, rfl, rfl⟩
  refine completes_of rfl rfl (starts_of_passes h) (check_none_of_ownChain hheld hown h rfl rfl rfl id rfl) ?_
  simp only [issued_conBroken, hunb, hstart, ← hid, Bool.false_eq_true, if_false]
  rfl

section
variable (h : passes 0x53 false none none p s = true) (htrig : c.img.trigger = 4)
include h htrig

theorem execChainRun_notRetained (hts : pTs p 3 < storeOldest (issued 0x53 p s) c.img) :
    Completes (.chainRun p) 0x53 p s (notRetainedR (storeOldest (issued 0x53 p s) c.img)) (issued 0x53 p s) := by
  refine completes_of rfl rfl (starts_of_passes h)
    (check_none_of_ownChain hheld hown h rfl rfl rfl (fun _ => by simp [hown, htrig]) rfl) ?_
  simp only [issued_ownChain, hown, hts, if_true]

theorem execChainRun_waits (hts : storeOldest (issued 0x53 p s) c.img ≤ pTs p 3) :
    ∃ u j, Waits (.chainRun p) p s .chainRun c.id 0 u ∧ u.eng.jobs = s.eng.jobs ++ [j] ∧ j.chain = c.id ∧ j.eng = c.eng ∧
      j.start = pTs p 3 ∧ j.wend = pTs p 3 + c.img.win * ns1 ∧ j.state = 0 := by
  obtain ⟨j, hj⟩ := hostRun_jobs p (issued 0x53 p s) c
  refine ⟨hostRun p (issued 0x53 p s) c, j, ?_, hj⟩
  refine waits_of rfl rfl (starts_of_passes h)
    (check_none_of_ownChain hheld hown h rfl rfl rfl (fun _ => by simp [hown, htrig]) rfl) ?_
  simp only [issued_ownChain, hown, Nat.not_lt.2 hts, if_false]

end

theorem execChainStatus_completes (h : passes 0x54 false none none p s = true) :
    Completes (.chainStatus p) 0x54 p s (chainStatusReply c) (issued 0x54 p s) := by
  refine completes_of rfl rfl (starts_of_passes h) (check_none_of_ownChain hheld hown h rfl rfl rfl id rfl) ?_
  simp only [issued_ownChain, hown]

end

theorem chainStatusReply_running {c : Chain} (hp : c.parked = false) (hr : c.running = true) :
    (chainStatusReply c).r0 = 1 + c.eng * 256 := by
  simp [chainStatusReply, okR, b2n, hp, hr, Nat.shiftLeft_eq]

/-! ### ENG_STATUS, ENG_UNFENCE, ENG_GUARD (R240, Table 8.9) -/

theorem barnReg_issued (op : Nat) (p : Packet) (s : State) (b : Nat) {a : Nat} (h : a ≠ R_HIF_INFLIGHT) :
    barnReg (issued op p s) b a = barnReg s b a := by
  rw [barnReg, barnReg, issued_dom, issued_reg_other op p s h]

theorem execEngStatus_completes {p : Packet} {s : State} (hs : regsWf s.regs = true) (h : passes 0x55 false none none p s = true)
    (hheld : conHeld p s = true) (hb : pf p 2 0 4 ≤ 11) :
    ∃ r u, Completes (.engStatus p) 0x55 p s r u ∧ r.st = .ok ∧ r.r0 = barnReg s (pf p 2 0 4) (R_ENG_STATUS (pf p 2 0 4)) ∧
      (pb p 2 8 = false → u = issued 0x55 p s) ∧ (pb p 2 8 = true → ∀ f ∈ barnCounters (pf p 2 0 4), u.rd f = 0) := by
  refine ⟨_, _, completes_of rfl rfl (starts_of_passes h) (check_none_of_passes h rfl ⟨hheld, rfl, decide_eq_true hb, rfl⟩) rfl, rfl,
    barnReg_issued 0x55 p s _ (by simp only [R_ENG_STATUS, R_HIF_INFLIGHT]; omega), fun hkeep => ?_, fun hclear => ?_⟩
  · rw [hkeep]
    rfl
  · rw [if_pos hclear]
    exact State.rd_zeroFields (issued_regsWf 0x55 p hs) (barnCounters_ok _)

theorem execEngUnfence_waits {p : Packet} {s : State} (h : passes 0x56 true none none p s = true)
    (hf : s.eng.fenced.contains (pf p 2 0 7) = true) (ht : s.eng.testing.any (fun t => t.1 == pf p 2 0 7) = false) :
    ∃ u, Waits (.engUnfence p) p s .unfence (pf p 2 0 7) (s.up + 5000000) u ∧
      u.eng.testing = s.eng.testing ++ [(pf p 2 0 7, p.qid, pTag p)] ∧ u.eng.fenced = s.eng.fenced := by
  refine ⟨_, waits_of rfl rfl (starts_of_passes h) (check_none_of_passes h rfl ⟨rfl, rfl, ?_, rfl⟩) rfl, ?_, ?_⟩
  · show (s.eng.fenced.contains (pf p 2 0 7) && !s.eng.testing.any (fun t => t.1 == pf p 2 0 7)) = true
    rw [hf, ht]
    rfl
  · rw [barnRegs_eng]
    rfl
  · rw [barnRegs_eng]
    rfl

section
variable {p : Packet} {s : State} (h : passes 0x57 true none none p s = true)
include h

theorem execEngGuard_refused (hno : (guardAll p (issued 0x57 p s)).2.2 ≠ 0) :
    ∃ r, r.st = .noBudget ∧ r.r1 = (guardAll p (issued 0x57 p s)).2.2 ∧ Completes (.engGuard p) 0x57 p s r (issued 0x57 p s) :=
  ⟨_, rfl, rfl, completes_of rfl rfl (starts_of_passes h) (check_none_of_passes h rfl ⟨rfl, rfl, rfl, rfl⟩) (if_pos hno)⟩

theorem execEngGuard_completes (hall : (guardAll p (issued 0x57 p s)).2.2 = 0) :
    Completes (.engGuard p) 0x57 p s (okR (guardAll p (issued 0x57 p s)).2.1 0 0 0)
      (budgetCheck (allBarnRegs (guardAll p (issued 0x57 p s)).1) true) :=
  completes_of rfl rfl (starts_of_passes h) (check_none_of_passes h rfl ⟨rfl, rfl, rfl, rfl⟩) (if_neg (not_not_intro hall))

end

/-- Settles O14: each command passes the checks of R287 and answers from the state in which it stands in flight. That a load takes
the lowest free number is log entry 32's. -/
theorem chainsAreLoadedStartedAndGuarded : Obligations.ChainsAreLoadedStartedAndGuarded := fun p s hs =>
  ⟨fun _ h hk hb hal hok => ⟨fun _ _ _ => execChainLoad_places h hk hal hok hb, execChainLoad_refused h hk hal hok hb⟩,
    fun _ h hheld hown => ⟨execChainUnload_forced hheld hown h, execChainUnload_waits hheld hown h,
      execChainUnload_drained hheld hown h⟩,
    fun _ h hheld hown => execChainStart_completes hheld hown h,
    fun _ h hheld hown htrig => ⟨execChainRun_notRetained hheld hown h htrig, execChainRun_waits hheld hown h htrig⟩,
    fun _ h hheld hown => ⟨_, execChainStatus_completes hheld hown h, rfl, rfl, rfl, chainStatusReply_running⟩,
    fun h hheld hb => by
      obtain ⟨r, u, hc, hst, hr0, hkeep, hclear⟩ := execEngStatus_completes hs h hheld hb
      exact ⟨r, u, hc, hst, fun hon => hr0.trans (if_neg hon), fun hoff => hr0.trans (if_pos hoff), hkeep, hclear⟩,
    execEngUnfence_waits,
    fun h => ⟨execEngGuard_refused h, execEngGuard_completes h⟩⟩

end Sys2Proof.Machine
end

section
/-!
SUPPORT. Jobs from their window to their commit (R222 to R227), and the faults, fences and spares of engines and barns (R231 to R235,
R240).
-/

namespace Sys2Proof.Machine

/-! ### Jobs (R222 to R226) -/

section
variable {s : State} {id w : Nat} {c : Chain} (hc : s.chain? id = some c) (hw : c.nextW = some w)
include hc hw

theorem execLiveWindowReady_early (h : liveReady s c = false) : exec (.liveWindowReady id) s = .next s := by
  show execLiveWindowReady id s = _
  simp [execLiveWindowReady, hc, hw, h]

theorem execLiveWindowReady_landed (h : liveReady s c = true) : exec (.liveWindowReady id) s = .next (windowReady s c w) := by
  show execLiveWindowReady id s = _
  simp [execLiveWindowReady, hc, hw, h]

end

/-- The job that is taken, and no other of its chain and SEQ, runs from now on. -/
theorem takeJob_runs (s : State) (c : Chain) (j : Job) :
    ∀ x ∈ (takeJob s c j).eng.jobs, x.chain = j.chain → x.seq = j.seq → x.state = 1 ∧ x.at_ = s.up := by
  intro x hx hchain hseq
  obtain ⟨y, -, rfl⟩ := List.mem_map.1 hx
  by_cases hy : y.chain = j.chain ∧ y.seq = j.seq
  · rw [if_pos hy]
    exact ⟨rfl, rfl⟩
  · rw [if_neg hy] at hchain hseq
    exact absurd ⟨hchain, hseq⟩ hy

section
variable {s : State} {n : Nat} {j : Job} {c : Chain} (hlive : engLive s n = true) (huse : engUsable s n = true)
  (hact : s.eng.act.getD (n / 8) none ≠ some n) (hidle : runningOn s n = none) (hnext : nextJob s n = some j)
  (hc : s.chain? j.chain = some c)
include hlive huse hact hidle hnext hc

theorem execJobDispatch_free : exec (.jobDispatch n) s =
    if (jobStores s c j).any (fun x => x.2 == .gone) then .next (inputLost s j) else .next (barnRegs (takeJob s c j) (n / 8)) := by
  show execJobDispatch n s = _
  simp only [execJobDispatch, hlive, huse, beq_false_of_ne hact, hidle, hnext, hc, Bool.not_true, Option.isSome_none, Bool.or_self,
    Bool.false_eq_true, if_false]

theorem execJobDispatch_lost (h : (jobStores s c j).any (fun x => x.2 == .gone) = true) :
    exec (.jobDispatch n) s = .next (inputLost s j) :=
  (execJobDispatch_free hlive huse hact hidle hnext hc).trans (if_pos h)

theorem execJobDispatch_takes (h : (jobStores s c j).any (fun x => x.2 == .gone) = false) :
    ∃ t, exec (.jobDispatch n) s = .next t ∧ t.eng.jobs.length = s.eng.jobs.length ∧ t.dram = s.dram ∧
      ∀ x ∈ t.eng.jobs, x.chain = j.chain → x.seq = j.seq → x.state = 1 ∧ x.at_ = s.up := by
  refine ⟨barnRegs (takeJob s c j) (n / 8), ?_, ?_, ?_, ?_⟩
  · exact (execJobDispatch_free hlive huse hact hidle hnext hc).trans (if_neg (by rw [h]; exact Bool.false_ne_true))
  · rw [barnRegs_eng]
    exact List.length_map _
  · rw [barnRegs_dram]
    rfl
  · rw [barnRegs_eng]
    exact takeJob_runs s c j

end

@[simp] theorem sealJob_dram (s : State) (n : Nat) (c : Chain) (j : Job) : (sealJob s n c j).dram = s.dram :=
  State.wr64_dram _ _ _ _

@[simp] theorem sealJob_predict (s : State) (n : Nat) (c : Chain) (j : Job) : (sealJob s n c j).eng.predict = s.eng.predict := by
  rw [sealJob, State.wr64_eng, State.modEng]

/-- A job that seals stands last, with what it stages (R226). -/
theorem sealJob_seals (s : State) (n : Nat) (c : Chain) (j : Job) :
    ∃ x, x ∈ (sealJob s n c j).eng.jobs ∧ x.chain = j.chain ∧ x.seq = j.seq ∧ x.state = 2 ∧ x.out = some (jobRun s c j).1 :=
  ⟨_, List.mem_append_right _ (List.mem_singleton_self _), rfl, rfl, rfl, rfl⟩

theorem execJobSeal_seals {s : State} {n : Nat} {j : Job} {c : Chain} (hrun : runningOn s n = some j) (hc : s.chain? j.chain = some c)
    (hlive : engLive s n = true) (hpred : s.eng.predict.contains n = false) :
    ∃ t, exec (.jobSeal n) s = .next t ∧ t.dram = s.dram ∧
      ∃ x, x ∈ t.eng.jobs ∧ x.chain = j.chain ∧ x.seq = j.seq ∧ x.state = 2 ∧ x.out = some (jobRun s c j).1 := by
  refine ⟨barnRegs (sealJob s n c j) (n / 8), ?_, ?_, ?_⟩
  · show execJobSeal n s = _
    simp only [execJobSeal, hrun, hc, hlive, sealJob_predict, hpred, Bool.not_true, Bool.false_eq_true, if_false]
  · rw [barnRegs_dram, sealJob_dram]
  · rw [barnRegs_eng]
    exact sealJob_seals s n c j

/-! ### The commit unit (R226, R227) -/

theorem commitSealed_fresh {s : State} {c : Chain} {j : Job} {o : Staged} (h : ∀ q, c.lastSeq = some q → q < j.seq) :
    commitSealed s c j o = commitJob s c j o := by
  unfold commitSealed
  cases hq : c.lastSeq with
  | none => rfl
  | some q => exact if_neg (by simpa using h q hq)

theorem commitSealed_dup {s : State} {c : Chain} {j : Job} {o : Staged} {q : Nat} (hq : c.lastSeq = some q) (h : j.seq ≤ q) :
    commitSealed s c j o = ((s.dropJob j.chain j.seq).bump (F_ENG_DUP_COUNT (j.eng / 8))).raiseAt j.wend 9 0x0A 0
      (resMaster (engMaster j.eng)) 0 (engMaster j.eng) := by
  unfold commitSealed
  rw [hq]
  exact if_pos (decide_eq_true h)

section
variable {s : State} {b : Nat} {j : Job} {c : Chain} {o : Staged} (hj : sealedIn s b = some j) (hc : s.chain? j.chain = some c)
  (ho : j.out = some o) (hcont : s.err.contained = false) (hon : s.domOn (.barn b) = true)
include hj hc ho hcont hon

theorem execJobCommit_bad : exec (.jobCommit b true) s = .next (drains (sealBad s b c j)) := by
  show execJobCommit b true s = _
  simp [execJobCommit, hj, hc, ho, hcont, hon]

theorem execJobCommit_good : exec (.jobCommit b false) s = .next (drains (barnRegs (commitSealed s c j o) b)) := by
  show execJobCommit b false s = _
  simp [execJobCommit, hj, hc, ho, hcont, hon]

end

/-! ### Faults of engines (R231 to R233) -/

theorem execEngineFault_dead {s : State} {n : Nat} (typ : Nat) (h : engLive s n = false) : exec (.engineFault n typ) s = .next s := by
  show execEngineFault n typ s = _
  simp [execEngineFault, h]

theorem execEngineFault_live {s : State} {n : Nat} (h : engLive s n = true) :
    exec (.engineFault n 1) s = .next (lmemCe s n) ∧ exec (.engineFault n 2) s = .next (fence s n 2 (fenceTs s n) false) ∧
      exec (.engineFault n 3) s = .next (fence s n 3 (fenceTs s n) false) := by
  refine ⟨?_, ?_, ?_⟩
  · show execEngineFault n 1 s = _
    simp [execEngineFault, h]
  · show execEngineFault n 2 s = _
    simp [execEngineFault, h]
  · show execEngineFault n 3 s = _
    simp [execEngineFault, h]

section
variable {s : State} {n : Nat} {j : Job} (hrun : runningOn s n = some j)
include hrun

theorem execEngineWatchdog_early (h : s.up < j.at_ + fclkNs s (jobCycles s j + 2000)) : exec (.engineWatchdog n) s = .next s := by
  show execEngineWatchdog n s = _
  simp [execEngineWatchdog, hrun, h]

theorem execEngineWatchdog_overrun (hlive : engLive s n = true) (h : j.at_ + fclkNs s (jobCycles s j + 2000) ≤ s.up) :
    exec (.engineWatchdog n) s = .next (fence s n 4 j.wend false) := by
  show execEngineWatchdog n s = _
  simp [execEngineWatchdog, hrun, hlive, Nat.not_lt.2 h]

end

/-! ### Spares, commit units and self-tests (R232, R234, R240) -/

theorem getD_listMod_none {α : Type} (l : List (Option α)) (b : Nat) : (listMod l b (fun _ => none)).getD b none = none := by
  rw [listMod_eq_modify, List.getD_eq_getElem?_getD, List.getElem?_modify_eq]
  cases l[b]? <;> rfl

theorem execSpareActivate_contained {s : State} (b : Nat) (h : s.err.contained = true) : exec (.spareActivate b) s = .next s :=
  if_pos h

theorem execSpareActivate_runs {s : State} (b : Nat) (h : s.err.contained = false) :
    ∃ t, exec (.spareActivate b) s = .next t ∧ t.eng.act.getD b none = none ∧ t.eng.chains = s.eng.chains ∧ t.eng.jobs = s.eng.jobs := by
  refine ⟨barnRegs (s.modEng (fun e => { e with act := listMod e.act b (fun _ => none) })) b, ?_, ?_⟩
  · show execSpareActivate b s = _
    simp [execSpareActivate, h]
  · rw [barnRegs_eng]
    exact ⟨getD_listMod_none _ b, rfl, rfl⟩

theorem execCommitUnitError_live {s : State} {b : Nat} (ok : Bool) (hon : s.domOn (.barn b) = true) (hcont : s.err.contained = false)
    (hb : b ≤ 11) : exec (.commitUnitError b ok) s = if ok then .next (s.raise 9 0x07 1 (resIndex b) 0) else .next (fenceBarn s b) := by
  show execCommitUnitError b ok s = _
  simp [execCommitUnitError, hon, hcont, Nat.not_lt.2 hb]

section
variable {s : State} {n : Nat} (h : s.fcp.inflight.any (fun c => c.kind == .unfence && c.key == n && decide (c.due ≤ s.up)) = true)
include h

theorem execUnfenceSelfTestDone_failed : exec (.unfenceSelfTestDone n false) s =
    .next (barnRegs ((testEnd s n).wake .unfence n { st := .hwError }) (n / 8)) := by
  show execUnfenceSelfTestDone n false s = _
  rw [execUnfenceSelfTestDone, h]
  rfl

theorem execUnfenceSelfTestDone_passed : ∃ r, exec (.unfenceSelfTestDone n true) s =
    .next ((capRisen (admRegs (barnRegs ((engReturn (testEnd s n) n).takeBits 32).2 (n / 8)))).wake .unfence n (okR r 0 0 0)) := by
  refine ⟨((engReturn (testEnd s n) n).takeBits 32).1, ?_⟩
  show execUnfenceSelfTestDone n true s = _
  rw [execUnfenceSelfTestDone, h]
  rfl

end

/-- Settles O15: a window, a job and a seal are each taken up when due, a SEQ that is not new commits nothing, and each fault leads
to the fence or the record that it calls for. -/
theorem jobsCommitAndFaultyEnginesAreFenced : Obligations.JobsCommitAndFaultyEnginesAreFenced :=
  ⟨fun _ _ => ⟨fun _ _ _ hc hw => ⟨execLiveWindowReady_early hc hw, execLiveWindowReady_landed hc hw⟩,
      fun _ _ _ hlive huse hact hidle hnext hc => ⟨execJobDispatch_lost hlive huse hact hidle hnext hc,
        execJobDispatch_takes hlive huse hact hidle hnext hc⟩,
      fun _ _ _ hrun hc hlive hpred => execJobSeal_seals hrun hc hlive hpred,
      fun _ _ _ _ hj hc ho hcont hon => ⟨execJobCommit_bad hj hc ho hcont hon,
        fun hnew => commitSealed_fresh hnew ▸ execJobCommit_good hj hc ho hcont hon,
        fun _ hq hold => commitSealed_dup hq hold ▸ execJobCommit_good hj hc ho hcont hon⟩⟩,
    fun s _ => ⟨fun _ typ => execEngineFault_dead typ, fun _ => execEngineFault_live,
      fun _ _ hrun hlive => ⟨execEngineWatchdog_early hrun, execEngineWatchdog_overrun hrun hlive⟩,
      fun b _ _ => by
        split
        next hcont => exact execSpareActivate_contained b hcont
        next hcont => exact execSpareActivate_runs b (eq_false_of_ne_true hcont),
      fun _ hon hcont hb => ⟨execCommitUnitError_live true hon hcont hb, execCommitUnitError_live false hon hcont hb⟩,
      fun _ hdue => ⟨execUnfenceSelfTestDone_failed hdue, execUnfenceSelfTestDone_passed hdue⟩⟩⟩

end Sys2Proof.Machine
end
